-- ==== Sys2Proof/Word.lean ====
section
/-! DEFINITION. The word types of the part and their plainest bit arithmetic (R5, R7): 32-bit registers, 64-bit message
words, 96-bit flits. -/
namespace Sys2Proof

/-- A register word (R7). -/
abbrev Word := BitVec 32

/-- A kerf message word (R19, R20). -/
abbrev Word64 := BitVec 64

/-- A kerf flit (R20). -/
abbrev Flit := BitVec 96

abbrev Byte := BitVec 8

/-- A byte string. -/
abbrev Bytes := List Byte

/-- Bits [hi:lo] of a number. -/
def bitsOf (n hi lo : Nat) : Nat := n / 2 ^ lo % 2 ^ (hi + 1 - lo)

/-- Bit i of a number. -/
def bitOf (n i : Nat) : Bool := n / 2 ^ i % 2 == 1

/-- n with bits [hi:lo] replaced by v (v taken modulo the width). -/
def putBits (n hi lo v : Nat) : Nat :=
  n % 2 ^ lo + (v % 2 ^ (hi + 1 - lo)) * 2 ^ lo + n / 2 ^ (hi + 1) * 2 ^ (hi + 1)

/-- Two's complement reading of a w-bit number. -/
def toSigned (w n : Nat) : Int :=
  if n % 2 ^ w < 2 ^ (w - 1) then (n % 2 ^ w : Nat) else (n % 2 ^ w : Nat) - (2 ^ w : Nat)

/-- The w-bit two's complement pattern of an integer. -/
def ofSigned (w : Nat) (i : Int) : Nat := (i % (2 ^ w : Nat)).toNat

/-- 1 for true and 0 for false. -/
def b2n (b : Bool) : Nat := if b then 1 else 0

/-- Set or clear bit i of a number. -/
def putBit (n i : Nat) (b : Bool) : Nat := putBits n i i (b2n b)

/-- An integer held between two bounds. -/
def clampInt (lo hi x : Int) : Int := if x < lo then lo else if hi < x then hi else x

/-- Numbers 0 … n - 1 whose bit is set in a mask. -/
def bitIndices (n mask : Nat) : List Nat := (List.range n).filter (bitOf mask)

end Sys2Proof
end

