-- ==== Sys2Proof/Types.lean ====
section
/-! DEFINITION. The small types that commands and State share: ordering codes, dies, bays, kerf classes, register field
descriptions and the names of the staged groups. -/
namespace Sys2Proof

/-- The four ordering codes (R2). -/
inductive Code where
  | bz2a | bz4c | bz6c | bz8c
  deriving DecidableEq, Repr

/-- Bays of an ordering code (R2). -/
def Code.bays : Code → Nat
  | .bz2a => 2 | .bz4c => 4 | .bz6c => 8 | .bz8c => 12

/-- Whether the code has a changer (R2). -/
def Code.changer : Code → Bool
  | .bz2a => false | _ => true

/-- Power domains of an ordering code (R2). -/
def Code.domains : Code → Nat
  | .bz2a => 37 | .bz4c => 52 | .bz6c => 66 | .bz8c => 80

/-- Whether the package holds die d: the hub, the mechanism die with a changer, and one bay die per two bays (R2, die table). -/
def Code.hasDie (c : Code) (d : Nat) : Bool :=
  d == 0 || (d == 1 && c.changer) || (2 ≤ d && 2 * (d - 2) < c.bays)

/-- The die that owns CEIL and VMECH_SENSE: the mechanism die, or bay die 0 in BZ-2A (R2). -/
def Code.ceilDie : Code → Fin 8
  | .bz2a => 2 | _ => 1

/-- A die number (R17). -/
abbrev Die := Fin 8

/-- A bay number of the whole vault, 0–11 (R2). -/
abbrev Bay := Fin 12

/-- The die of a bay (die table, R17). -/
def dieOfBay (b : Bay) : Die := ⟨2 + b.val / 2, by omega⟩

/-- The bay within its die, 0 or 1. -/
def bayInDie (b : Bay) : Nat := b.val % 2

/-- The bay at place i of a bay die, if the die has bays. -/
def bayOf (d : Die) (i : Nat) : Option Bay :=
  if h : 2 ≤ d.val ∧ i < 2 then some ⟨2 * (d.val - 2) + i, by have := d.isLt; omega⟩ else none

/-- The bays of a die. -/
def baysOfDie (d : Die) : List Bay := (List.range 2).filterMap (bayOf d)

/-- The two ends of a kerf port (R20). -/
inductive Side where
  | hub | field
  deriving DecidableEq, Repr

/-- The six kerf classes (R22). -/
inductive KClass where
  | k0 | k1 | k2 | k3 | k4 | k5
  deriving DecidableEq, Repr

/-- The number of a kerf class. -/
def KClass.num : KClass → Nat
  | .k0 => 0 | .k1 => 1 | .k2 => 2 | .k3 => 3 | .k4 => 4 | .k5 => 5

/-- The kerf class of a number, K5 from 5 upwards. -/
def KClass.ofNum : Nat → KClass
  | 0 => .k0 | 1 => .k1 | 2 => .k2 | 3 => .k3 | 4 => .k4 | _ => .k5

/-- One kerf message: its TYPE, its header word and its continuation words (R21). -/
structure Msg where
  type : Nat
  word : Word64
  cont : List Word64 := []
  cls  : KClass
  deriving DecidableEq, Repr

end Sys2Proof

namespace Sys2Proof.Machine

/-- Register access types (R8). -/
inductive Acc where
  | rw | ro | wo | w1c | w1s | sc | bl | st
  deriving DecidableEq, Repr

/-- One register field: the offset of its register in the block, the strides of the register's instances, its bits, access
type, reset value, and the range its table prints (R8, R9). -/
structure Field where
  off : Nat
  hi  : Nat
  lo  : Nat
  st  : Nat := 0
  st2 : Nat := 0
  acc : Acc := .ro
  rst : Nat := 0
  sgn : Bool := false
  rng : Option (Int × Int) := none
  deriving DecidableEq, Repr

/-- One register, or a family of registers: its instances by count and stride, the distance of its shadow word when its
fields are staged, and whether a write of any value clears it (the counters). -/
structure Reg where
  name    : String
  off     : Nat
  dims    : List (Nat × Nat) := []
  shadow  : Nat := 0
  counter : Bool := false
  fields  : List Field
  deriving DecidableEq, Repr

/-- The register blocks (R602, R608, R609, R610). -/
inductive Block where
  | lat | fpw | fkr | rcd | spn | cru | sfe | axp | osv | trn | yrd
  | glb | tim | ep | qen | lnd | miu | vlk | fwu | pwr | hic | krf | skd
  deriving DecidableEq, Repr

end Sys2Proof.Machine

namespace Sys2Proof

/-- The staged register groups (R614). -/
inductive Group where
  | sfeLoop (b : Bay) | sfeSnag (b : Bay) | sfeForecast (b : Bay) | sfeTrim (b : Bay)
  | latChannel (b : Bay) | latTarget (b : Bay) | latTaps (b : Bay)
  | recStrategy (b : Bay)
  | osvServo (b : Bay) | osvJump (b : Bay) | osvLayer (b : Bay)
  | trnSlot (d : Die) (n : Fin 48) | trnSelector (d : Die) (s : Fin 8)
  | spnMotor (b : Bay) | spnDrive (b : Bay) | spnCeil
  | axpAxis (d : Die) (n : Fin 8) | axpGroup (d : Die) (g : Fin 4)
  | yrdGeometry
  | cruCruise (b : Bay) | cruReadPower (b : Bay)
  | lndWindow
  deriving DecidableEq, Repr

end Sys2Proof
end

