-- ==== Sys2Proof/Machine/StateLnd.lean ====
section
/-! DEFINITION. The state of the landing cache and of the integrity unit (chapters 11 and 12) that their registers do not
hold. -/
namespace Sys2Proof.Machine

/-- The STATE of a tag entry (R350). -/
inductive LineState where
  | invalid | filling | clean | dirty | recording | evicting
  deriving DecidableEq, Repr

/-- One tag entry (R349). -/
structure Line where
  slot   : Nat := 0
  log    : Nat := 0
  st     : LineState := .invalid
  boards : Nat := 0
  ref    : Bool := false
  failed : Bool := false
  lock   : Bool := false
  deriving DecidableEq, Repr

/-- Who made a request: a command, or the range engine on its own registers' behalf (R351, R368). -/
inductive Owner where
  | cmd (id : Nat)
  | engine
  deriving DecidableEq, Repr

/-- One request for boards of one log (R351, R358, R463). -/
structure Request where
  owner  : Owner
  slot   : Nat
  log    : Nat
  /-- Mask of the boards needed; 0 for a preload. -/
  boards : Nat
  cls    : Nat
  func   : Nat := 0
  qid    : Nat := 1023
  /-- PRELOAD_LOCK (R361). -/
  lock   : Bool := false
  deriving DecidableEq, Repr

/-- What a fill is for: an ordinary miss, a reread of a FAILED line (R351), or a refetch after an uncorrectable word of a
board (R386). -/
inductive FillKind where
  | miss | reread | refetch (board : Nat)
  deriving DecidableEq, Repr

/-- One miss register (R352, R353). -/
structure Miss where
  id      : Nat
  slot    : Nat
  log     : Nat
  cls     : Nat
  func    : Nat
  qid     : Nat
  /-- The entry it fills, 16 · set + way; none while it fills an eviction-buffer entry (R372) or waits for a victim (R357). -/
  entry   : Option Nat
  buf     : Option Nat := none
  waiters : List Request := []
  kind    : FillKind := .miss
  /-- The first board has been written (R353). -/
  begun   : Bool := false
  /-- Boards this fill has delivered. -/
  got     : Nat := 0
  /-- Work item of the fill on the bay's port, with the clock value of its sending (R354). -/
  item    : Option Nat := none
  sentAt  : Nat := 0
  /-- The fill has been reissued after a refusal (R28). -/
  again   : Bool := false
  /-- The entry is to be locked (R361). -/
  lock    : Bool := false
  /-- Counts against PRELOAD_MSHR (R352, R463). -/
  ranged  : Bool := false
  /-- The fill has ended and the register waits for QUEUE_RESET_DONE (R354). -/
  closing : Bool := false
  deriving DecidableEq, Repr

/-- One copy in the eviction buffer (R356). -/
structure Copy where
  idx    : Nat
  slot   : Nat
  log    : Nat
  boards : Nat
  failed : Bool
  deriving DecidableEq, Repr

/-- Why a request waits outside the miss registers (R352, R355). -/
inductive Park where
  | register | waiters | victim
  deriving DecidableEq, Repr

/-- The operations of the range engine (R370). -/
inductive RangeKind where
  | invalidate | preload | preloadLock | unlock | clean | scrub
  deriving DecidableEq, Repr

/-- The code of an operation (R377). -/
def RangeKind.code : RangeKind → Nat
  | .invalidate => 1 | .preload => 2 | .preloadLock => 3 | .unlock => 4 | .clean => 5 | .scrub => 6

/-- The operation of a code. -/
def RangeKind.ofCode : Nat → Option RangeKind
  | 1 => some .invalidate | 2 => some .preload | 3 => some .preloadLock | 4 => some .unlock | 5 => some .clean
  | 6 => some .scrub | _ => none

/-- One range operation (R368–R371). -/
structure RangeOp where
  kind  : RangeKind
  slot  : Nat
  slots : Nat
  lba   : Nat
  count : Nat
  cls   : Nat
  force : Bool
  /-- The command it runs for; none for a start by register (R371). -/
  cmd   : Option Nat := none
  deriving DecidableEq, Repr

/-- The running operation: how far it has gone, and the lines it still waits for (R369, R370). -/
structure RangeRun where
  op    : RangeOp
  /-- Logs of the range, counted over its slots, already walked by a preload. -/
  next  : Nat := 0
  /-- Lines that the operation waits for: fills of a preload, and recordings of CLEAN (R370). -/
  lines : List (Nat × Nat) := []
  deriving DecidableEq, Repr

/-- One request that arrives through BAR2 (R364–R367, R495): requester, offset, length, data of a write, and its poisoned bit. -/
structure WinReq where
  rid      : Nat
  ofs      : Nat
  len      : Nat
  data     : Option Bytes := none
  poisoned : Bool := false
  deriving DecidableEq, Repr

/-- A command that has written boards of a log into the landing, until the log's recording has settled (R445, R449). -/
structure Writer where
  slot : Nat
  log  : Nat
  func : Nat
  qid  : Nat
  cmd  : Nat
  deriving DecidableEq, Repr

/-- The landing. -/
structure Landing where
  /-- Tag entries that hold a line or a lock, by 16 · set + way, rising (R349). -/
  tags   : List (Nat × Line) := []
  misses : List Miss := []
  /-- Requests that wait outside the miss registers, in order of arrival (R352). -/
  parked : List (Request × Park) := []
  /-- Commands of RECORD whose boards wait for room or a victim (R358, R359). -/
  room   : List Nat := []
  copies : List Copy := []
  range  : Option RangeRun := none
  /-- Range commands that wait for the engine, oldest first (R371). -/
  queue  : List RangeOp := []
  /-- Headers of the boards of lines not yet recorded, by slot, LBA, as RECORD_DATA carries them (R26, R358). -/
  heads  : List (Nat × Nat × Bytes) := []
  /-- Commands of RECORD behind the lines not yet recorded (R449). -/
  writers : List Writer := []
  /-- BAR2 requests held for the commit point, oldest first (R366). -/
  held : List WinReq := []
  /-- Credits of classes 1–3 in the allocation of miss registers (R352, R438). -/
  credits : Vector Nat 3 := Vector.replicate 3 0
  deriving DecidableEq, Repr

/-- The integrity unit. -/
structure Miu where
  /-- Bits that differ from what was written, by memory and address of the code unit: key MEM · 2⁴⁰ + byte address, value the
  flipped bits with the check bits above the 64 data bits (R380–R382). -/
  flips  : List (Nat × Nat) := []
  /-- Memory and address of the most recent corrected entry of the log, and its place (R393). -/
  lastCe : Option (Nat × Nat) := none
  /-- The patrol's byte address and the clock value of its lap's start (R389, R391). -/
  pos    : Nat := 0
  lapAt  : Nat := 0
  warned : Bool := false
  deriving DecidableEq, Repr

end Sys2Proof.Machine
end

