-- ==== Sys2Proof/Machine/Media.lean ====
section
/-! DEFINITION. The vault disc format (chapter 02): addresses, the modulation code, frames, boards, logs, the
codes and checks of the medium, the bark signature and its helper value, as pure functions. -/
namespace Sys2Proof.Machine

/-- The k least significant bytes of a number, least significant first (R45). -/
def leBytes : Nat → Nat → Bytes
  | 0, _ => []
  | k + 1, n => BitVec.ofNat 8 n :: leBytes k (n / 256)

/-- The number that bytes spell, least significant first (R45). -/
def leNat : Bytes → Nat
  | [] => 0
  | b :: bs => b.toNat + 256 * leNat bs

/-- Bytes i … i + n - 1 of a byte string, as a number; missing bytes read 0. -/
def fieldAt (bs : Bytes) (i n : Nat) : Nat := leNat ((bs.drop i).take n)

/-- The w bits of a number, most significant first (R45). -/
def msbBits (w n : Nat) : List Bool := (List.range w).reverse.map (bitOf n)

/-- The number that bits spell, most significant first. -/
def ofMsb (bs : List Bool) : Nat := bs.foldl (fun n b => 2 * n + b2n b) 0

/-! ## Checks -/

/-- One bit through a w-bit CRC register, most significant bit first. -/
def crcStep (w poly crc : Nat) (bit : Bool) : Nat :=
  let top := bitOf crc (w - 1) != bit
  let sh := crc * 2 % 2 ^ w
  if top then sh ^^^ poly else sh

/-- A CRC taken most significant bit first, with no final inversion. -/
def crcMsb (w poly init : Nat) (bs : List Bool) : Nat := bs.foldl (crcStep w poly) init

/-- The 12-bit check of a frame address (R56). -/
def crc12 (addr : Nat) : Nat := crcMsb 12 0x80F 0xFFF (msbBits 48 addr)

/-- The CRC-16 of a flit, over its bits 95–16 (R20). -/
def crc16 (type tag word : Nat) : Nat :=
  crcMsb 16 0x8BB7 0xFFFF (msbBits 8 type ++ msbBits 8 tag ++ msbBits 64 word)

/-- The CRC-8 of the laser-driver link (R644, R645). -/
def crc8 (bs : List Bool) : Nat := crcMsb 8 0x07 0 bs

/-- One bit of the reflected CRC-32C. -/
def crc32cBit (c : Nat) : Nat := if bitOf c 0 then (c / 2) ^^^ 0x82F63B78 else c / 2

/-- One byte through the reflected CRC-32C register. -/
def crc32cByte (c : Nat) (b : Byte) : Nat :=
  (List.range 8).foldl (fun c _ => crc32cBit c) (c ^^^ b.toNat)

/-- The CRC-32C register after more bytes, before the final inversion. -/
def crc32cUpdate (c : Nat) (bs : Bytes) : Nat := bs.foldl crc32cByte c

/-- The CRC-32C of a byte string (R58). -/
def crc32c (bs : Bytes) : Nat := crc32cUpdate 0xFFFFFFFF bs ^^^ 0xFFFFFFFF

/-! ## Addresses -/

/-- Data boards of a layer (R65). -/
def boardsPerLayer : Nat := 18880000
/-- Logs of a layer (R65). -/
def logsPerLayer : Nat := 1180000
/-- The first LBA past the disc (R65). -/
def lbaEnd : Nat := 302080000

/-- Where a board lies (R65). -/
structure Place where
  layer : Nat
  log   : Nat
  index : Nat
  deriving DecidableEq, Repr

/-- Layer, log and INDEX of an LBA (R65). -/
def placeOfLba (a : Nat) : Place :=
  { layer := a / boardsPerLayer, log := a % boardsPerLayer / 16, index := a % boardsPerLayer % 16 }

/-- The LBA of a place (R65). -/
def lbaOfPlace (p : Place) : Nat := p.layer * boardsPerLayer + p.log * 16 + p.index

/-- The disc-wide number of the log that holds an LBA: logs are 16 consecutive LBAs (R65). -/
def logOfLba (a : Nat) : Nat := a / 16

/-- The spiral that carries board INDEX i of log n (R63). -/
def spiralOf (n i : Nat) : Nat := (i + n) % 7
/-- The slot that carries board INDEX i of log n (R63). -/
def slotOf (n i : Nat) : Nat := 3 * n + i / 7
/-- The INDEX of the board that spiral k carries in slot j (R63). -/
def indexAt (k j : Nat) : Nat :=
  let n := j / 3
  (j % 3) * 7 + (k + 7 - n % 7) % 7

/-- The vault address of a slot and an LBA (R66). -/
def vaultAddress (slot lba : Nat) : Nat := 2 ^ 32 * slot + lba

/-- The frame address (R55). -/
def frameAddress (layer area spiral slot frame : Nat) : Nat :=
  layer * 2 ^ 44 + area * 2 ^ 42 + spiral * 2 ^ 39 + slot * 2 ^ 6 + frame

/-- A received frame address passes: its check agrees, SPIRAL is not 7, the reserved bits are 0 and FRAME is at most 35 (R56). -/
def addressPasses (addr check : Nat) : Bool :=
  crc12 addr == check && bitsOf addr 41 39 != 7 && bitsOf addr 38 32 == 0 && bitsOf addr 5 0 ≤ 35

/-- Radius in nm of turn 7q at 0° (R48). -/
def swathRadius (q : Int) : Int := 24000000 + 1120 * q

/-- S_q, the slots of one revolution of swath q, with π to 21 digits (R48). -/
def slotsPerRev (q : Int) : Nat :=
  (2 * 314159265358979323846 * swathRadius q / (2197008 * 10 ^ 20)).toNat

/-- The swath that holds slot j of an area whose first group is q, counted on with a bound on the groups looked at (R48). -/
def swathOfSlot : Nat → Int → Nat → Int
  | 0, q, _ => q
  | fuel + 1, q, j => if j < slotsPerRev q then q else swathOfSlot fuel (q + 1) (j - slotsPerRev q)

/-- The swath of a data-zone slot (R48). -/
def dataSwath (j : Nat) : Int := swathOfSlot 30357 0 j

/-- The first group of an area: data zone 0, system zone -178, power test area -446 (R48). -/
def firstGroup : Nat → Int
  | 0 => 0 | 1 => -178 | _ => -446

/-- The last group of an area (R48). -/
def lastGroup : Nat → Int
  | 0 => 30356 | 1 => -1 | _ => -179

/-- The swath of slot j of an area (R48). -/
def areaSwath (area j : Nat) : Int :=
  swathOfSlot (lastGroup area - firstGroup area + 1).toNat (firstGroup area) j

/-- The radius band of a swath, in steps of 8.5 mm from 24.0 mm; the system zone and everything inside it is band 0
(R171, R222). -/
def bandOfRadius (nm : Int) : Nat :=
  if nm < 24000000 then 0 else min 3 ((nm - 24000000) / 8500000).toNat

/-! ## Modulation -/

/-- The primary word of a nibble (R52). -/
def primaryWord : Nat → Nat
  | 0 => 0b00101 | 1 => 0b01001 | 2 => 0b01010 | 3 => 0b10001 | 4 => 0b10010 | 5 => 0b10100 | 6 => 0b00110 | 7 => 0b01100
  | 8 => 0b00011 | 9 => 0b11000 | 10 => 0b01110 | 11 => 0b10110 | 12 => 0b11001 | 13 => 0b11010 | 14 => 0b11100 | _ => 0b11011

/-- The alternate word of a nibble; nibbles 8–15 have one word (R52). -/
def alternateWord : Nat → Nat
  | 0 => 0b00100 | 1 => 0b01000 | 2 => 0b01011 | 3 => 0b10000 | 4 => 0b10011 | 5 => 0b10101 | 6 => 0b00111 | 7 => 0b01101
  | n => primaryWord n

/-- The nibble of a 5-bit word; none for the eight invalid words (R54). -/
def nibbleOfWord (w : Nat) : Option Nat :=
  (List.range 16).find? fun n => primaryWord n == w || alternateWord n == w

/-- The encoder's state: the recorded level, mark or space, and the running digital sum (R53). -/
structure Rds where
  mark : Bool := false
  sum  : Int := 0
  deriving DecidableEq, Repr

/-- One channel bit: a 1 toggles the level, and the sum takes the level of the bit (R53). -/
def Rds.bit (r : Rds) (b : Bool) : Rds :=
  let m := r.mark != b
  { mark := m, sum := r.sum + (if m then 1 else -1) }

/-- The state after a run of channel bits. -/
def Rds.bits (r : Rds) (bs : List Bool) : Rds := bs.foldl Rds.bit r

/-- One nibble: the word that leaves the smaller |RDS|, the primary on a tie (R53). -/
def encodeNibble (r : Rds) (n : Nat) : List Bool × Rds :=
  let p := msbBits 5 (primaryWord n)
  let a := msbBits 5 (alternateWord n)
  let rp := r.bits p
  let ra := r.bits a
  if ra.sum.natAbs < rp.sum.natAbs then (a, ra) else (p, rp)

/-- A run of nibbles (R53). -/
def encodeNibbles : Rds → List Nat → List Bool × Rds
  | r, [] => ([], r)
  | r, n :: ns =>
    let (w, r1) := encodeNibble r n
    let (ws, r2) := encodeNibbles r1 ns
    (w ++ ws, r2)

/-- Data bits taken four at a time, b₀ the most significant of its nibble (R54). -/
def nibblesOf : List Bool → List Nat
  | a :: b :: c :: d :: rest => ofMsb [a, b, c, d] :: nibblesOf rest
  | _ => []

/-- The 32 channel bits of the blaze (R55). -/
def blazeBits : List Bool := msbBits 32 0x800800B5

/-- The scrambler's first n output bits (R57). -/
def scramble : Nat → Nat → List Bool
  | 0, _ => []
  | n + 1, s =>
    let fb := b2n (((bitOf s 0 != bitOf s 2) != bitOf s 3) != bitOf s 5)
    bitOf s 0 :: scramble n (s / 2 + fb * 2 ^ 15)

/-- The scrambler's seed for a frame address (R57). -/
def scrambleSeed (addr : Nat) : Nat :=
  let s := bitsOf addr 15 0 ^^^ 0xACE1
  if s == 0 then 0xACE1 else s

/-- The 1,024 scrambled payload bits of a frame (R57). -/
def scramblePayload (addr : Nat) (bs : List Bool) : List Bool :=
  List.zipWith (fun a b => a != b) bs (scramble bs.length (scrambleSeed addr))

/-- The 1,387 channel bits of a frame, and the encoder's state after it (R55). -/
def encodeFrame (r : Rds) (addr : Nat) (payload : List Bool) : List Bool × Rds :=
  let r1 := r.bits blazeBits
  let (a, r2) := encodeNibbles r1 (nibblesOf (msbBits 48 addr ++ msbBits 12 (crc12 addr)))
  let (p, r3) := encodeNibbles r2 (nibblesOf (scramblePayload addr payload))
  (blazeBits ++ a ++ p, r3)

/-! ## Boards -/

/-- The header bytes 0–11 of a board (R58). -/
def boardHeader (lba index kind layer flags title : Nat) : Bytes :=
  leBytes 4 lba ++ leBytes 1 index ++ leBytes 1 kind ++ leBytes 1 layer ++ leBytes 1 flags ++ leBytes 4 title

/-- A whole board: header, CRC and payload (R58). -/
def mkBoard (hdr payload : Bytes) : Bytes := hdr ++ leBytes 4 (crc32c (hdr ++ payload)) ++ payload

/-- Header fields of a board (R58). -/
def boardLba (b : Bytes) : Nat := fieldAt b 0 4
def boardIndex (b : Bytes) : Nat := fieldAt b 4 1
def boardKind (b : Bytes) : Nat := fieldAt b 5 1
def boardLayer (b : Bytes) : Nat := fieldAt b 6 1
def boardFlags (b : Bytes) : Nat := fieldAt b 7 1
def boardTitle (b : Bytes) : Nat := fieldAt b 8 4
def boardCrc (b : Bytes) : Nat := fieldAt b 12 4
def boardPayload (b : Bytes) : Bytes := b.drop 16

/-- The board's own CRC agrees (R58). -/
def boardCrcOk (b : Bytes) : Bool := boardCrc b == crc32c (b.take 12 ++ b.drop 16)

/-- A fill board (R64). -/
def fillBoard (lba index layer : Nat) : Bytes :=
  mkBoard (boardHeader lba index 0x01 layer 0x02 0) (List.replicate 4096 0)

/-- Board bits in codeword order: bit b of byte m is board bit 8m + b (R59). -/
def boardBits (b : Bytes) : List Bool := b.flatMap fun x => (List.range 8).map (bitOf x.toNat)

/-! ## The LDPC code -/

/-- The 128-bit blocks of a bit string, each as a number whose bit i is the block's bit i. -/
def blocksOf : Nat → List Bool → List Nat
  | 0, _ => []
  | k + 1, bs => ofMsb (bs.take 128).reverse :: blocksOf k (bs.drop 128)

/-- Pˢ applied to a block: the identity cyclically shifted right by s (R59). -/
def rotBlock (s x : Nat) : Nat := x / 2 ^ s + x % 2 ^ s * 2 ^ (128 - s)

/-- The block rows and shifts of information column j (R59). -/
def infoRows (j : Nat) : List (Nat × Nat) :=
  [0, 1, 2].map fun k => ((j + 10 * k) % 31, (j * (2 * k + 1) + 37 * k) % 128)

/-- The contribution of the information blocks to block row r (R59). -/
def ldpcRow (blocks : List Nat) (r : Nat) : Nat :=
  (blocks.zipIdx).foldl (fun acc (x, j) =>
    (infoRows j).foldl (fun a (row, s) => if row == r then a ^^^ rotBlock s x else a) acc) 0

/-- The 31 parity blocks of 257 information blocks, in order from block row 0 (R59). -/
def ldpcParity (blocks : List Nat) : List Nat :=
  ((List.range 31).foldl (fun (acc, prev) r =>
    let p := ldpcRow blocks r ^^^ prev
    (acc ++ [p], p)) ([], 0)).1

/-- The 36,864-bit codeword of a board (R59). -/
def ldpcEncode (board : Bytes) : List Bool :=
  let info := boardBits board
  info ++ (ldpcParity (blocksOf 257 info)).flatMap fun x => (List.range 128).map (bitOf x)

/-- Every parity check of a codeword holds: the decoder has converged (R59, R139). -/
def ldpcHolds (cw : List Bool) : Bool :=
  ldpcParity (blocksOf 257 cw) == blocksOf 31 (cw.drop (257 * 128))

/-- The bytes of a codeword's information bits (R59). -/
def codewordBytes (cw : List Bool) : Bytes :=
  (List.range 4112).map fun m => BitVec.ofNat 8 (ofMsb ((cw.drop (8 * m)).take 8).reverse)

/-- The 1,024 payload bits of frame f of a codeword: bit i lies in frame i mod 36 (R60). -/
def framePayload (cw : List Bool) (f : Nat) : List Bool :=
  (List.range 1024).map fun i => cw.getD (36 * i + f) false

/-! ## The Reed–Solomon code -/

/-- Multiplication in GF(2⁸) on 0x11D (R61). -/
def gfMul (a b : Nat) : Nat :=
  ((List.range 8).foldl (fun (acc, x) i =>
    (if bitOf b i then acc ^^^ x else acc, if bitOf x 7 then (x * 2) ^^^ 0x11D else x * 2)) (0, a)).1

/-- α to a power (R61). -/
def gfPow (a n : Nat) : Nat := (List.range n).foldl (fun x _ => gfMul x a) 1

/-- The inverse: the 254th power. -/
def gfInv (a : Nat) : Nat :=
  let a2 := gfMul a a; let a4 := gfMul a2 a2; let a8 := gfMul a4 a4; let a16 := gfMul a8 a8
  let a32 := gfMul a16 a16; let a64 := gfMul a32 a32; let a128 := gfMul a64 a64
  gfMul a128 (gfMul a64 (gfMul a32 (gfMul a16 (gfMul a8 (gfMul a4 a2)))))

/-- The generator's coefficients below x⁴, from x³ down (R61): the product of x - αⁱ, i = 0–3. -/
def rsGen : List Nat :=
  ((List.range 4).foldl (fun g i =>
    let r := gfPow 2 i
    List.zipWith (fun a b => a ^^^ b) (g ++ [0]) (0 :: g.map (gfMul r))) [1]).drop 1

/-- The four parity bytes of one byte position, boards 16–19 in order (R61). -/
def rsColumn (data : List Nat) : List Nat :=
  data.foldl (fun reg d =>
    let f := d ^^^ reg.getD 0 0
    List.zipWith (fun r g => r ^^^ gfMul f g) (reg.drop 1 ++ [0]) rsGen) [0, 0, 0, 0]

/-- The locator of board INDEX i: α to the power of its coefficient's degree (R61). -/
def rsLocator (i : Nat) : Nat := gfPow 2 (19 - i)

/-- Syndrome k of a column of 20 bytes. -/
def rsSyndrome (col : List Nat) (k : Nat) : Nat :=
  (col.zipIdx).foldl (fun s (c, i) => s ^^^ gfMul c (gfPow (rsLocator i) k)) 0

/-- Coefficients, from x⁰ up, of the polynomial that is 1 at x_j and 0 at the other erased locators. -/
def lagrange (xs : List Nat) (xj : Nat) : List Nat :=
  xs.foldl (fun p xm =>
    if xm == xj then p
    else
      let d := gfInv (xj ^^^ xm)
      List.zipWith (fun a b => gfMul d (a ^^^ b)) (0 :: p) (p.map (gfMul xm) ++ [0])) [1]

/-- A column with up to four erased bytes recovered (R61). -/
def rsRecover (col : List Nat) (erased : List Nat) : List Nat :=
  let zeroed := col.zipIdx.map fun (c, i) => if erased.contains i then 0 else c
  let syn := (List.range erased.length).map (rsSyndrome zeroed)
  let xs := erased.map rsLocator
  zeroed.zipIdx.map fun (c, i) =>
    if erased.contains i then
      (List.zipWith gfMul syn (lagrange xs (rsLocator i))).foldl (fun a b => a ^^^ b) 0
    else c

/-- Byte positions the Reed–Solomon code covers (R61). -/
def rsPositions : List Nat := List.range 12 ++ (List.range 4096).map (· + 16)

/-- The four parity boards of 16 data boards (R61). -/
def parityBoards (data : List Bytes) : List Bytes :=
  let cols := rsPositions.map fun p => rsColumn (data.map fun b => (b.getD p 0).toNat)
  (List.range 4).map fun i =>
    let bytes := cols.map fun c => BitVec.ofNat 8 (c.getD i 0)
    mkBoard (bytes.take 12) (bytes.drop 12)

/-- The 20 coded boards with the erased ones rebuilt; none when more than four are erased (R61). -/
def rebuildBoards (boards : List (Option Bytes)) : Option (List Bytes) :=
  let erased := (List.range 20).filter fun i => (boards.getD i none).isNone
  if 4 < erased.length then none
  else
    let cols := rsPositions.map fun p =>
      rsRecover ((List.range 20).map fun i => (((boards.getD i none).getD []).getD p 0).toNat) erased
    some ((List.range 20).map fun i =>
      match boards.getD i none with
      | some b => b
      | none =>
        let bytes := cols.map fun c => BitVec.ofNat 8 (c.getD i 0)
        mkBoard (bytes.take 12) (bytes.drop 12))

/-- The address board of a log (R62). -/
def addressBoard (lba layer log time : Nat) (recorder : Bytes) (fills : Nat) (data : List Bytes) : Bytes :=
  let p := leBytes 4 0x474F4C48 ++ leBytes 4 log ++ leBytes 8 time ++ recorder.take 16 ++ leBytes 4 fills
    ++ List.replicate 32 0 ++ data.flatMap (fun b => (b.drop 12).take 4)
  mkBoard (boardHeader lba 20 0x03 layer 0 0) (p ++ List.replicate (4096 - p.length) 0)

/-- DATACRC entry i of an address board (R62). -/
def dataCrc (address : Bytes) (i : Nat) : Nat := fieldAt (boardPayload address) (68 + 4 * i) 4

/-- The data boards rebuilt by the outer code agree with DATACRC, when the address board was decoded (R62). -/
def rebuildAgrees (address : Option Bytes) (rebuilt : List (Nat × Bytes)) : Bool :=
  match address with
  | none => rebuilt.all fun (_, b) => boardCrcOk b
  | some a => rebuilt.all fun (i, b) => boardCrc b == dataCrc a i && boardCrcOk b

/-! ## System logs -/

/-- One directory entry (R71). -/
structure DirEntry where
  title    : Nat
  seq      : Nat
  firstLba : Nat
  count    : Nat
  offset   : Nat
  keyIdx   : Nat
  time     : Nat
  deriving DecidableEq, Repr

/-- One key-block entry (R70). -/
structure KeyEntry where
  title   : Nat
  rootId  : Nat
  wrapped : Bytes
  time    : Nat
  deriving DecidableEq, Repr

/-- What a generation says of its disc (R69, R70, R71). -/
structure Generation where
  version  : Nat := 0x0100
  gen      : Nat
  serial   : Nat
  time     : Nat
  recorder : Bytes
  highLog  : List Nat
  helper   : Nat
  keys     : List KeyEntry
  dir      : List DirEntry
  deriving DecidableEq, Repr

/-- Payload padded with zero bytes to a board's 4,096. -/
def padPayload (p : Bytes) : Bytes := (p ++ List.replicate (4096 - p.length) 0).take 4096

/-- The identity board's payload (R69). -/
def identityPayload (g : Generation) : Bytes :=
  padPayload (leBytes 4 0x31445648 ++ leBytes 2 g.version ++ leBytes 2 g.gen ++ leBytes 8 g.serial ++ leBytes 8 g.time
    ++ g.recorder.take 16 ++ leBytes 2 g.keys.length ++ leBytes 2 g.dir.length ++ g.highLog.flatMap (leBytes 4))

/-- One 64-byte key-block entry (R70). -/
def keyEntryBytes (k : KeyEntry) : Bytes :=
  leBytes 4 k.title ++ leBytes 4 k.rootId ++ (k.wrapped ++ List.replicate 40 0).take 40 ++ leBytes 8 k.time ++ List.replicate 8 0

/-- One 32-byte directory entry (R71). -/
def dirEntryBytes (e : DirEntry) : Bytes :=
  leBytes 4 e.title ++ leBytes 4 e.seq ++ leBytes 4 e.firstLba ++ leBytes 4 e.count ++ leBytes 4 e.offset
    ++ leBytes 4 e.keyIdx ++ leBytes 8 e.time

/-- The 16 payloads of a system log (R67, R69, R70, R71). -/
def systemPayloads (g : Generation) : List Bytes :=
  let kb := g.keys.map keyEntryBytes
  let key1 := leBytes 4 0x424B5648 ++ leBytes 20 g.helper ++ List.replicate 40 0 ++ (kb.take 63).flatten
  let keyN := (List.range 3).map fun i => ((kb.drop (63 + 64 * i)).take 64).flatten
  let dirs := (List.range 11).map fun i => (((g.dir.map dirEntryBytes).drop (128 * i)).take 128).flatten
  (identityPayload g :: key1 :: keyN ++ dirs).map padPayload

/-- The 16 system data boards of a generation for one layer (R67). -/
def systemBoards (g : Generation) (layer : Nat) : List Bytes :=
  (systemPayloads g).zipIdx.map fun (p, i) => mkBoard (boardHeader 0 i 0x04 layer 0 0) p

/-- The key entries of the key block, unused ones left out, with their indices (R70). -/
def parseKeys (boards : List Bytes) : List (Nat × KeyEntry) :=
  let raw := (List.range 255).map fun i =>
    let (b, o) := if i < 63 then (1, 64 + 64 * i) else ((i - 63) / 64 + 2, 64 * ((i - 63) % 64))
    let p := (boards.getD b []).drop o
    (i, { title := fieldAt p 0 4, rootId := fieldAt p 4 4, wrapped := (p.drop 8).take 40, time := fieldAt p 48 8 : KeyEntry })
  raw.filter fun (_, k) => k.title != 0

/-- The directory entries, unused ones left out (R71). -/
def parseDir (boards : List Bytes) : List DirEntry :=
  let raw := (List.range 1408).map fun i =>
    let p := (boards.getD (5 + i / 128) []).drop (32 * (i % 128))
    { title := fieldAt p 0 4, seq := fieldAt p 4 4, firstLba := fieldAt p 8 4, count := fieldAt p 12 4,
      offset := fieldAt p 16 4, keyIdx := fieldAt p 20 4, time := fieldAt p 24 8 : DirEntry }
  raw.filter fun e => e.title != 0

/-- A directory entry that a mount ignores: its title has no key entry, or its extent passes the disc's end (R71). -/
def dirIgnored (keys : List (Nat × KeyEntry)) (e : DirEntry) : Bool :=
  !(keys.any fun (_, k) => k.title == e.title) || lbaEnd < e.firstLba + e.count

/-! ## Bark -/

/-- The signature bits: 1 where a feature lies above the median of all 512 (R72). -/
def barkSignature (features : List Int) : List Bool :=
  let sorted := features.mergeSort (fun a b => decide (a ≤ b))
  let n := features.length
  let twice := sorted.getD ((n - 1) / 2) 0 + sorted.getD (n / 2) 0
  features.map fun f => decide (twice < 2 * f)

/-- Multiplication of polynomials over GF(2), as numbers. -/
def polyMul (a b : Nat) : Nat :=
  (List.range (b.log2 + 1)).foldl (fun acc i => if bitOf b i then acc ^^^ (a * 2 ^ i) else acc) 0

/-- Remainder of polynomials over GF(2), the dividend of fewer than n bits. -/
def polyMod (n a g : Nat) : Nat :=
  (List.range n).reverse.foldl (fun r i => if g.log2 ≤ i && bitOf r i then r ^^^ (g * 2 ^ (i - g.log2)) else r) a

/-- Multiplication in GF(2⁹) on x⁹ + x⁴ + 1 (R73). -/
def gf9Mul (a b : Nat) : Nat := polyMod 18 (polyMul a b) 0x211

/-- A power of α (R73). -/
def gf9Alpha (n : Nat) : Nat := (List.range (n % 511)).foldl (fun x _ => gf9Mul x 2) 1

/-- The inverse, α⁻ⁿ found as the 510th power. -/
def gf9Inv (a : Nat) : Nat :=
  ((List.range 9).foldl (fun (acc, x) i => (if i == 0 then acc else gf9Mul acc x, gf9Mul x x)) (1, a)).1

/-- The cyclotomic class of n modulo 511. -/
def cyclotomic (n : Nat) : List Nat := ((List.range 9).map fun i => n * 2 ^ i % 511).dedup

/-- The product of x - αⁱ over a class of exponents, as coefficients in GF(2⁹) from x⁰ up. -/
def minimalPoly (cls : List Nat) : List Nat :=
  cls.foldl (fun p e =>
    let r := gf9Alpha e
    List.zipWith (fun a b => a ^^^ b) (0 :: p) (p.map (gf9Mul r) ++ [0])) [1]

/-- The generator g(x), the least common multiple of the minimal polynomials of α¹ to α³² (R73). -/
def bchGen : Nat :=
  let leaders := (List.range 16).map (2 * · + 1)
  let lead := leaders.filter fun n => leaders.all fun m => decide (n ≤ m) || !(cyclotomic m).contains n
  lead.foldl (fun g n =>
    polyMul g (((minimalPoly (cyclotomic n)).zipIdx.foldl (fun acc (c, i) => acc + (c % 2) * 2 ^ i) 0))) 1

/-- A signature as a number whose bit c is b_c. -/
def barkNat (sig : List Bool) : Nat := ofMsb sig.reverse

/-- The helper value of a signature (R73). -/
def barkHelper (sig : Nat) : Nat :=
  polyMod 511 (sig % 2 ^ 511) bchGen + (if (List.range 512).foldl (fun p i => p != bitOf sig i) false then 2 ^ 144 else 0)

/-- Syndrome j of a remainder polynomial: its value at αʲ. -/
def bchSyndrome (rem j : Nat) : Nat :=
  (List.range 144).foldl (fun s i => if bitOf rem i then s ^^^ gf9Alpha (i * j) else s) 0

/-- State of the Berlekamp–Massey iteration: C, B, L, m and b. -/
structure BmState where
  c : List Nat := [1]
  b : List Nat := [1]
  l : Nat := 0
  m : Nat := 1
  d : Nat := 1
  deriving DecidableEq, Repr

/-- Sum of two coefficient lists over GF(2⁹). -/
def gf9Add : List Nat → List Nat → List Nat
  | [], ys => ys
  | xs, [] => xs
  | x :: xs, y :: ys => (x ^^^ y) :: gf9Add xs ys

/-- One step of the Berlekamp–Massey iteration on syndromes S₁ … -/
def bmStep (syn : List Nat) (st : BmState) (n : Nat) : BmState :=
  let disc := (List.range (st.l + 1)).foldl (fun a i => a ^^^ gf9Mul (st.c.getD i 0) (syn.getD (n - i) 0)) 0
  if disc == 0 then { st with m := st.m + 1 }
  else
    let k := gf9Mul disc (gf9Inv st.d)
    let c := gf9Add st.c (List.replicate st.m 0 ++ st.b.map (gf9Mul k))
    if 2 * st.l ≤ n then { c := c, b := st.c, l := n + 1 - st.l, m := 1, d := disc }
    else { st with c := c, m := st.m + 1 }

/-- Value of a polynomial over GF(2⁹). -/
def gf9Eval (p : List Nat) (x : Nat) : Nat := p.reverse.foldl (fun a c => gf9Mul a x ^^^ c) 0

/-- Error positions among 0–510 of a remainder, when there are at most 16 of them and the locator has as many roots as its
degree (R73). -/
def bchLocate (rem : Nat) : Option (List Nat) :=
  let syn := (List.range 32).map fun j => bchSyndrome rem (j + 1)
  let st := (List.range 32).foldl (bmStep syn) {}
  if 16 < st.l then none
  else
    let pos := (List.range 511).filter fun p => gf9Eval st.c (gf9Alpha (511 - p % 511)) == 0
    if pos.length == st.l then some pos else none

/-- The signature recorded at binding, recovered from the measured one and the stored helper: up to 16 differing bits of the
512 are corrected; none when the decoding fails or the parity bit disagrees after correction (R73, R74). -/
def barkRecover (measured stored : Nat) : Option Nat :=
  let diff := barkHelper measured ^^^ (stored % 2 ^ 145)
  match bchLocate (diff % 2 ^ 144) with
  | none => none
  | some pos =>
    let fixed := pos.foldl (fun s p => s ^^^ 2 ^ p) measured
    let odd := bitOf diff 144 != (pos.length % 2 == 1)
    if !odd then some fixed
    else if pos.length < 16 then some (fixed ^^^ 2 ^ 511)
    else none

end Sys2Proof.Machine
end

