-- ==== Sys2Proof/Machine/StateVlk.lean ====
section
/-! DEFINITION. The state of the vault lock (chapter 13) and of the discs and bays as crew firmware knows them (chapters 13
and 15) that registers do not hold. -/
namespace Sys2Proof.Machine

/-! ## Sessions, keys and the scale book -/

/-- STATE of a session context (R397, R428). -/
inductive SessState where
  | free | opening | opened | expired | closing
  deriving DecidableEq, Repr

/-- The code of a session state (R428). -/
def SessState.code : SessState → Nat
  | .free => 0 | .opening => 1 | .opened => 2 | .expired => 3 | .closing => 4

/-- One session context that is not FREE (R397). -/
structure Session where
  id      : Nat
  st      : SessState
  func    : Nat
  title   : Nat := 0
  keySlot : Option Nat := none
  /-- CLEAR, SEALED and BIND in bits 0, 1 and 2 (R402). -/
  modes   : Nat := 0
  first   : Nat := 0
  last    : Nat := 0
  expiry  : Nat := 0
  tokenId : Nat := 0
  dkey    : Bytes := []
  seq     : Nat := 0
  boards  : Nat := 0
  served  : Nat := 0
  refused : Nat := 0
  /-- Title offset of the next board that a BIND session records (R410). -/
  nextOff : Nat := 0
  /-- Discs, by slot, that a BIND session has written (R412). -/
  wrote   : List Nat := []
  deriving DecidableEq, Repr

/-- One key slot in use (R406). -/
structure KeySlot where
  idx   : Nat
  title : Nat
  key   : Bytes
  deriving DecidableEq, Repr

/-- State of an extent record (R421). -/
inductive ExtState where
  | valid | stale | conflict
  deriving DecidableEq, Repr

/-- One extent of the scale book mirror (R421). -/
structure Extent where
  title  : Nat
  offset : Nat
  count  : Nat
  slot   : Nat
  lba    : Nat
  keyIdx : Nat
  serial : Nat
  st     : ExtState
  deriving DecidableEq, Repr

/-- One HINT record (R426). -/
structure Hint where
  title  : Nat
  offset : Nat
  count  : Nat
  slot   : Nat
  deriving DecidableEq, Repr

/-- A lookup made in the foreground, for the boards of a command that no VALID extent covers (R424). -/
structure Lookup where
  cmd    : Nat
  title  : Nat
  /-- Title-relative boards still uncovered. -/
  boards : List Nat
  cls    : Nat
  func   : Nat
  qid    : Nat
  /-- The slot whose disc is being mounted for it. -/
  at_    : Option Nat := none
  /-- Stale slots read so far, and the status code of the first read that failed. -/
  read   : List Nat := []
  failed : Option Nat := none
  deriving DecidableEq, Repr

/-- The vault lock. -/
structure Vlk where
  sessions : List Session := []
  /-- Session IDs used before and free again, the longest free first; IDs from `fresh` up have never been used (R398). -/
  freed    : List Nat := []
  fresh    : Nat := 0
  /-- Key slots that hold a key, the least recently used first (R406). -/
  keys     : List KeySlot := []
  extents  : List Extent := []
  hints    : List Hint := []
  /-- Stale slots, and those of them that the background rebuild passes over (R423). -/
  stale    : List Nat := []
  passed   : List Nat := []
  /-- SERIAL recorded for each slot whose directory has been read (R425). -/
  serials  : List (Nat × Nat) := []
  lookups  : List Lookup := []
  /-- The slot of the background directory read in progress (R423). -/
  rebuild  : Option Nat := none
  /-- HWM, the highest device time seen since reset (R400). -/
  hwm      : Nat := 0
  timeSet  : Bool := false
  /-- Open cores whose watchdog runs were last written at a clock value (R419). -/
  wdogAt   : Vector Nat 2 := Vector.replicate 2 0
  deriving DecidableEq, Repr

/-! ## Discs in bays -/

/-- What crew firmware is doing with a bay (R470, R471, R474). -/
inductive BayTask where
  | idle | mounting | unmounting
  deriving DecidableEq, Repr

/-- One pending extent of a disc (R410, R411). -/
structure PendExt where
  title : Nat
  lba   : Nat
  count : Nat
  off   : Nat
  deriving DecidableEq, Repr

/-- A system log as crew firmware collects it during a mount (R68, R143): its number, the boards received by INDEX, and
whether it ended FAILED with every board blank. -/
structure SysLog where
  log    : Nat
  boards : List (Nat × Bytes)
  ended  : Option Nat := none
  blank  : Nat := 0
  /-- Boards of the layer-15 copy, when it was read. -/
  copy   : List (Nat × Bytes) := []
  copyEnded : Option Nat := none
  deriving DecidableEq, Repr

/-- The disc in a bay (R66–R74, R409–R412, R474). -/
structure BayDisc where
  slot     : Nat
  /-- It counts as mounted, and its system logs have been read. -/
  mounted  : Bool := false
  /-- The bark signature as measured at this mount, and as corrected against the disc's helper (R72, R73). -/
  measured : Option Nat := none
  bark     : Option Nat := none
  /-- The active generation; none on a disc without one. -/
  gen      : Option Generation := none
  /-- The data zone holds data though system log 0 is blank (R68). -/
  orphan   : Bool := false
  /-- The SERIAL drawn for a blank disc (R409). -/
  drawn    : Option Nat := none
  pendKeys : List KeyEntry := []
  pendExts : List PendExt := []
  /-- Highest log recorded plus one, by layer, as generations record it (R69). -/
  high     : List Nat := List.replicate 16 0
  sys      : List SysLog := []
  logs     : Nat := 0
  fails    : Nat := 0
  passes   : Nat := 0
  keysGot  : Nat := 0
  deriving DecidableEq, Repr

/-- Why a generation is being recorded: a close or an unmount command waits, or 32 extents were pending (R412). -/
inductive GenCause where
  | close (cmd : Nat) | unmount | full
  deriving DecidableEq, Repr

/-- A generation being recorded (R67, R412): its content, copies still to be written, and the first failure's code. -/
structure GenRun where
  gen    : Generation
  layers : List Nat
  cause  : GenCause
  cls    : Nat
  sent   : Bool := false
  status : Nat := 0
  deriving DecidableEq, Repr

/-- One bay as crew firmware knows it. -/
structure HubBay where
  disc  : Option BayDisc := none
  task  : BayTask := .idle
  gens  : List GenRun := []
  /-- Commands waiting for the unmount under way (R471). -/
  unmountCmds : List Nat := []
  /-- The generation recorded for the unmount under way, and the status of the first that failed (R471). -/
  genDone : Option Nat := none
  genFail : Nat := 0
  deriving DecidableEq, Repr

/-- Who waits for a mount (R407, R423, R424, R470): a command, a directory read, or fills alone. -/
inductive MountOwner where
  | cmd (id : Nat) | dir | fills
  deriving DecidableEq, Repr

/-- How far a mount has come (R318, R470): waiting for a bay; the bay's idle disc being put away; the disc being fetched; the
bay spinning up and reading its system logs; everything read. -/
inductive MountStage where
  | waiting | clearing | fetching | reading | read
  deriving DecidableEq, Repr

/-- One mount (R470). -/
structure MountJob where
  slot   : Nat
  /-- The bay named, or the bay taken once one is. -/
  bay    : Option (Fin 12)
  cls    : Nat
  func   : Nat
  qid    : Nat
  owners : List MountOwner
  stage  : MountStage := .waiting
  deriving DecidableEq, Repr

/-- What a work item that the hub has sent is for (R24). -/
inductive Purpose where
  | fill (miss : Nat)
  | verify (cmd : Nat) (log : Nat)
  | record (slot log : Nat)
  | generation (b : Fin 12) (layer : Nat)
  | mount (slot : Nat)
  | unmount (b : Fin 12)
  | fetch (slot : Nat)
  | putBack (b : Fin 12)
  | move (cmd src dst : Nat)
  | cruise (cmd : Nat)
  deriving DecidableEq, Repr

/-- One open work item as the hub knows it (R24, R25). -/
structure HubItem where
  die  : Fin 8
  item : Nat
  func : Nat
  qid  : Nat
  cls  : Nat
  kind : Nat
  bay  : Nat
  what : Purpose
  deriving DecidableEq, Repr

/-- The hub's crew firmware. -/
structure Crew where
  bays     : Vector HubBay 12 := Vector.replicate 12 {}
  mounts   : List MountJob := []
  items    : List HubItem := []
  /-- Identifier of the next work item of each port (R24). -/
  nextItem : Vector Nat 8 := Vector.replicate 8 0
  deriving DecidableEq, Repr

end Sys2Proof.Machine
end

