-- ==== Sys2Proof/Machine/StateQen.lean ====
section
/-! DEFINITION. The state of the command queues, of the commands in flight and of the host endpoint (chapters 14 to 16) that
registers do not hold. -/
namespace Sys2Proof.Machine

/-! ## Queues -/

/-- STATE of a queue pair (R443, R455). -/
inductive QState where
  | absent | active | halting | halted | resetting
  deriving DecidableEq, Repr

/-- The code of a queue state (R455). -/
def QState.code : QState → Nat
  | .absent => 0 | .active => 1 | .halting => 2 | .halted => 3 | .resetting => 4

/-- One queue pair that is not ABSENT (R429, R430). -/
structure Queue where
  func    : Nat
  qid     : Nat
  st      : QState := .active
  depth   : Nat
  sqBase  : Nat
  cqBase  : Nat
  cls     : Nat
  vector  : Nat
  ien     : Bool
  sqHead  : Nat := 0
  sqTail  : Nat := 0
  cqTail  : Nat := 0
  cqHead  : Nat := 0
  phase   : Bool := true
  /-- Entries written since the last message, when messages coalesce (R486). -/
  withheld : Nat := 0
  /-- A vector message of this queue is pending in the PBA (R502). -/
  msgPend  : Bool := false
  deriving DecidableEq, Repr

/-- A completion decided and not yet written (R433, R434). -/
structure Post where
  /-- The command's number in order of fetch (R440). -/
  cid    : Nat
  func   : Nat
  qid    : Nat
  tag    : Nat
  status : Nat
  result : Nat
  opcode : Nat := 0
  addr   : Nat := 0
  /-- SQ_HEAD of an unreadable entry (R442). -/
  sqHead : Option Nat := none
  deriving DecidableEq, Repr

/-- How far a command has come (R439, R440). -/
inductive CmdState where
  | checked | running
  deriving DecidableEq, Repr

/-- What a running command waits for beyond its requests. -/
inductive CmdWait where
  | none
  /-- Host data of its buffer, so many bytes already used (R462, R468, R475, R482). -/
  | host (used : Nat)
  | engine
  | mount
  | unmount (b : Fin 12)
  | move
  | cruise (b : Fin 12)
  | lines
  | close
  | regs (next : Nat) (out : Nat)
  | scan (next : Nat)
  | cut
  | health
  deriving DecidableEq, Repr

/-- One fetched, unfinished command (R431, R437). -/
structure Cmd where
  id     : Nat
  func   : Nat
  qid    : Nat
  dw     : List Word
  st     : CmdState := .checked
  /-- It holds one of the in-flight slots kept for its kind of queue (R437). -/
  kept   : Bool := false
  wait   : CmdWait := .none
  /-- The command passed a session check and counts on its session (R399, R401). -/
  sess   : Option Nat := none
  /-- The session that its token grants, and the context taken for it (R403). -/
  grant  : Option Session := none
  opens  : Option Nat := none
  /-- Boards still to be served: command index, slot, log, INDEX and LBA (R422, R458). -/
  boards : List (Nat × Nat × Nat × Nat) := []
  /-- Logs still awaited by a preload, a SEAT RECORD or a FLUSH (R441, R449, R463). -/
  lines  : List (Nat × Nat) := []
  /-- First failure so far: index and status code (R458). -/
  fail   : Option (Nat × Nat) := none
  hits   : Nat := 0
  fills  : Nat := 0
  recovered : Bool := false
  /-- Logs failed, lines unlocked, logs recorded, records written: counts of the opcode's RESULT. -/
  n1     : Nat := 0
  n2     : Nat := 0
  /-- Boards that have entered the landing (R445), and logs of it that reached the medium. -/
  landed : Nat := 0
  parts  : Nat := 0
  /-- Host bytes read for it. -/
  data   : Bytes := []
  /-- An image of the command's own bytes already consumed has begun with entries accepted so far (R462). -/
  done   : Nat := 0
  deriving DecidableEq, Repr

/-- What a cut is for (R444, R447, R430). -/
inductive CutKind where
  | reset (cmd : Nat) | delete (cmd : Nat) | halt | lost | management
  deriving DecidableEq, Repr

/-- A cut in progress: its counts, and the ports whose QUEUE_RESET_DONE is awaited (R444–R447). -/
structure Cut where
  func      : Nat
  qid       : Nat
  kind      : CutKind
  discarded : Nat := 0
  partLogs  : Nat := 0
  landed    : Nat := 0
  ports     : List Nat := []
  deriving DecidableEq, Repr

/-- An entry of the error history (R485). -/
structure ErrEntry where
  time   : Nat
  func   : Nat
  opcode : Nat
  qid    : Nat
  tag    : Nat
  status : Nat
  result : Nat
  sqHead : Nat
  addr   : Nat
  deriving DecidableEq, Repr

/-- The queue engine. -/
structure Qen where
  queues  : List Queue := []
  /-- Fetched commands in order of fetch (R437, R440). -/
  cmds    : List Cmd := []
  nextCmd : Nat := 0
  posts   : List Post := []
  cuts    : List Cut := []
  /-- Queues whose grant turns come next: number of the next fetch, the function whose management queue was granted last, the
  class-0 queue granted last, and the credits of classes 1–3 (R436, R438). -/
  fetchNo : Nat := 0
  lastMq  : Nat := 0
  last0   : Nat := 0
  credits : Vector Nat 3 := Vector.replicate 3 0
  history : List ErrEntry := []
  /-- Fetch has stopped for an activation (R557). -/
  stopped : Bool := false
  deriving DecidableEq, Repr

/-! ## Host endpoint -/

/-- A function's settings in its configuration space, by which the endpoint acts (R491, R496–R502). -/
structure FnCfg where
  bme     : Bool := false
  roEn    : Bool := true
  idoReq  : Bool := false
  idoCpl  : Bool := false
  msixEn  : Bool := false
  fnMask  : Bool := false
  /-- Max Payload Size and Max Read Request Size in bytes, and the read completion boundary. -/
  mps     : Nat := 128
  mrrs    : Nat := 512
  rcb     : Nat := 64
  tag10   : Bool := false
  tag14   : Bool := false
  deriving DecidableEq, Repr

/-- One function (R429, R486, R505, R509). -/
structure Fn where
  cfg     : FnCfg := {}
  d3      : Bool := false
  /-- QUEUE_GRANT, SESSION_QUOTA and CQ_COALESCE (R486). -/
  pairs   : Nat := 0
  floor   : Nat := 0
  quota   : Nat := 0
  coalN   : Nat := 0
  coalUs  : Nat := 10
  deriving DecidableEq, Repr

/-- One MSI-X vector: its table entry and pending bit (R501, R502). -/
structure MsixEntry where
  addrLo : Nat := 0
  addrHi : Nat := 0
  data   : Nat := 0
  ctrl   : Nat := 1
  pend   : Bool := false
  deriving DecidableEq, Repr

/-- What a host read is for (R496). -/
inductive ReadFor where
  | fetch (qid start n : Nat)
  | cmd (id : Nat)
  deriving DecidableEq, Repr

/-- A piece of a host read: waiting for a tag, outstanding, whole, or failed (R496–R498). -/
inductive PieceState where
  | waiting | out (tag : Nat) | done | failed
  deriving DecidableEq, Repr

/-- One piece of a host read. -/
structure Piece where
  addr : Nat
  len  : Nat
  st   : PieceState := .waiting
  data : Bytes := []
  deriving DecidableEq, Repr

/-- One host read, cut into pieces (R496). -/
structure HostRead where
  func   : Nat
  what   : ReadFor
  /-- Class-0 and management requests take the kept tags (R497). -/
  prior  : Bool
  pieces : List Piece
  deriving DecidableEq, Repr

/-- One packet that the device has put on the link (R496–R503). -/
inductive Tlp where
  | write (func addr : Nat) (data : Bytes) (relaxed ido : Bool)
  | read (func addr len tag : Nat) (ido : Bool)
  | completion (func : Nat) (data : Bytes) (ido : Bool)
  | unsupported (func : Nat)
  | abort (func : Nat)
  | message (func vector addr data : Nat)
  deriving DecidableEq, Repr

/-- Errors reported under AER (R514): what, and the function it is logged against. -/
inductive AerError where
  | poisoned | completionTimeout | completerAbort | unexpectedCompletion | unsupportedRequest | internal
  deriving DecidableEq, Repr

/-- The status of a completion that reaches the device, with poisoned data told apart (R498). -/
inductive CplStatus where
  | success | unsupported | abort | retry | poisoned
  deriving DecidableEq, Repr

/-- A completion as it arrives: its tag, its status, its byte count, which takes in its own bytes, and its data (R498). -/
structure CompletionIn where
  tag    : Nat
  status : CplStatus := .success
  count  : Nat
  data   : Bytes
  deriving DecidableEq, Repr

/-- A Memory Read or Write to BAR0 or BAR4 of a function: its offset and length, and the value written (R494, R501). -/
structure Bar0Req where
  func  : Fin 64
  bar4  : Bool := false
  off   : Nat
  len   : Nat
  value : Option Nat := none
  deriving DecidableEq, Repr

/-- The host endpoint. -/
structure Ep where
  /-- The physical function starts with 64 pairs and the whole session quota (R486). -/
  fns    : Vector Fn 64 := (Vector.replicate 64 {}).set 0 { pairs := 64, quota := 16384 }
  /-- VFs enabled through SR-IOV: NumVFs with VF Enable set, else 0 (R491). -/
  numVfs : Nat := 0
  reads  : List HostRead := []
  /-- Tags whose request's command is gone and whose completions are discarded (R509, R511), with their function and whether
  they count in CPL_DISCARDED. -/
  dead   : List (Nat × Nat × Bool) := []
  /-- Vectors with an entry or pending bit off its reset value, by 2,048 · function + vector. -/
  msix   : List (Nat × MsixEntry) := []
  /-- Packets sent, oldest first. -/
  out    : List Tlp := []
  aer    : List (Nat × AerError) := []
  /-- PERST# is asserted (R508, R513). -/
  perst  : Bool := true
  /-- Subsystem Vendor ID and Subsystem ID of the configuration header (R490), and Link Autonomous Bandwidth Status (R506). -/
  subsysVendor : Nat := 0x1F5C
  subsysId     : Nat := 0
  autoBandwidth : Bool := false
  deriving DecidableEq, Repr

end Sys2Proof.Machine
end

