-- ==== Sys2Proof/Stimulus.lean ====
section
/-! DEFINITION. What commands carry in from outside: measured quantities and decoded words. -/
namespace Sys2Proof

/-- What the back-EMF comparators showed over CATCH_T (R277): nothing above E₆₀; crossings in the order A, B, C with their
number, the last six intervals in ns, the angle of the last crossing in degrees and the ns since; crossings in the order
A, C, B; anything else. -/
inductive CatchSeen where
  | atRest
  | forward (crossings : Nat) (intervals : List Nat) (angle since : Nat)
  | backward
  | irregular
  deriving DecidableEq, Repr

/-- Means of the raw ADC output in LSB at DAC codes 0, +64 and −64 with the emitter dark (R332). -/
structure DarkMeans where
  zero  : Rat
  plus  : Rat
  minus : Rat
  deriving DecidableEq, Repr

/-- What one point of a calibration gave (R331, R332, R334): too few valid bits, the jitter, dark means, or the median of y₁. -/
inductive CruMeasured where
  | tooFew
  | jitter (j : Rat)
  | dark (m : DarkMeans)
  | median (m : Rat)
  deriving DecidableEq, Repr

/-- One channel bit at the equaliser of a spot: the samples its taps multiply, in LSB, whether the bit and the neighbours'
bits carry SNAG or FCAST, and the tentative decision (R118, R120–R122). -/
structure BitObs where
  own     : List Rat
  inner   : List Rat
  outer   : List Rat
  flagged : Bool
  innerFlagged : Bool
  outerFlagged : Bool
  level   : Bool
  deriving DecidableEq, Repr

/-- A candidate blaze: its place less the predicted one in channel bits, its Hamming distance, and the 48 address bits and 12
check bits that follow it (R126). -/
structure BlazeCand where
  off   : Int
  dist  : Nat
  addr  : Nat
  check : Nat
  deriving DecidableEq, Repr

/-- One frame at the sync stage: its bits, the candidates of the blaze search, and the address after the predicted place
(R126, R129). -/
structure FrameObs where
  bits   : List BitObs
  cands  : List BlazeCand
  addrP  : Nat
  checkP : Nat
  deriving DecidableEq, Repr

/-- One soft decision of the sequence detector with the flags of its bit's nearest sample (R133, R137). -/
structure SoftBit where
  val   : Int
  snag  : Bool
  fcast : Bool
  deriving DecidableEq, Repr

/-- What the sequence detector made of a slice: its soft decisions and the path metrics at its end (R133). -/
structure SliceResult where
  soft    : List SoftBit
  metrics : List Int
  deriving DecidableEq, Repr

/-- What the LDPC decoder ended with: its word and the iterations used (R139). -/
structure LdpcResult where
  word  : List Bool
  iters : Nat
  deriving DecidableEq, Repr

/-- The six servo channels of a bay averaged over a turn, in ADC codes (R79, R191). -/
structure ServoObs where
  qa : Rat
  qb : Rat
  qc : Rat
  qd : Rat
  s2 : Rat
  s4 : Rat
  deriving DecidableEq, Repr

end Sys2Proof
end

