-- ==== Sys2Proof/Syntax.lean ====
section
/-! DEFINITION. The commands of the part: one constructor per row of the table of operations and events, with what the row
takes from outside as its operands. -/
namespace Sys2Proof

/-- The operations and events of the part. -/
inductive Instr where
  /-- A write to a register that has no behaviour of its own sets, clears or ignores its fields according to their access types (R8). -/
  | registerWrite (d : Die) (core : Fin 8) (bay off : Nat) (w : Word)
  /-- A write of 1 to a staged group's COMMIT copies the staged values into a pending set, checks them, and either accepts the set or sets REJECT (or OVERRUN when COMMIT still reads 1) (R11). -/
  | commit (g : Group)
  /-- At the group's next sample, slice or access boundary the accepted pending set becomes active as a whole and COMMIT reads 0 (R11). -/
  | stagedSetActive (g : Group)
  /-- A kerf port receives a flit, checks its CRC, TYPE, LEN and TAG, and accepts or refuses the message word (R27). -/
  | flitReceive (d : Die) (at_ : Side) (num : Nat) (flit : Flit) (cls : KClass)
  /-- A sender that receives LINK_NAK resends every flit after the named one in order, and after three replays of one flit retrains the port (R29). -/
  | linkNakReceived (d : Die) (at_ : Side) (named : Nat)
  /-- A CREDIT word acknowledges flits, releasing replay-buffer entries, and returns receive credits per class (R30). -/
  | creditReceived (d : Die) (at_ : Side) (ack : Nat) (units : Vector Nat 5)
  /-- No continuation of an open message arrives within 2 µs while the port is UP and no replay is outstanding, so the open message is truncated and refused (R27). -/
  | continuationTimeout (d : Die) (at_ : Side) (k : KClass)
  /-- A port retrain ends, bringing the port back UP with 4, 2 or 1 lanes, or taking it DOWN after a second consecutive failure (R29). -/
  | portRetrainEnd (d : Die) (lanes : Nat)
  /-- In each flit slot the port chooses K0, K1 or a data class by the slot-0 rule and weighted round robin, or sends IDLE (R22). -/
  | flitSlotTransmit (d : Die) (from_ : Side)
  /-- Every 10 µs the hub sends HEARTBEAT carrying TIM_NOW on every UP port (R35). -/
  | heartbeatSend
  /-- A field die receives HEARTBEAT, takes device time from it and answers with HEARTBEAT_ECHO (R35). -/
  | heartbeat (d : Die) (m : Msg)
  /-- The hub receives HEARTBEAT_ECHO with the die's status and updates the port's SAFE view (R35). -/
  | heartbeatEcho (d : Die) (m : Msg)
  /-- No echo arrives at the hub for 100 µs, so ECHO_LOST and SAFE set and the port is treated as DOWN (R35). -/
  | echoLost (d : Die)
  /-- A field die that receives no HEARTBEAT for 100 µs enters its safe state (R36). -/
  | heartbeatTimeout (d : Die)
  /-- Lane 0 has stopped for 1 ms, so the die switches to its safe-state oscillator, the turn engine stops and CLK_LOST sets (R39). -/
  | clockHoldoverEnd (d : Die)
  /-- The hub sees a port go DOWN and completes every command with work on that die with MECHANISM_UNPOWERED or MECHANISM_FAULT (R38). -/
  | portDown (d : Die) (signal : Bool)
  /-- SIGNAL rises on a port while the hub runs, and crew firmware loads, configures and releases that die (R576). -/
  | signalRise (d : Die)
  /-- A die receives HALT with action SAFE and enters its safe state on command (R37). -/
  | haltSafe (d : Die) (m : Msg)
  /-- A die receives HALT RELEASE after heartbeats have resumed, leaves the safe state and counts its discs as unmounted (R37). -/
  | haltRelease (d : Die) (m : Msg)
  /-- A die receives HALT with action STOP_BAY for the bays in its mask (R23). -/
  | haltStopBay (d : Die) (m : Msg)
  /-- A die receives HALT RESET_DIE, resets and waits in its ROM in the safe state for a firmware load (R39). -/
  | haltResetDie (d : Die) (m : Msg)
  /-- The hub receives HALT_DONE reporting that a HALT action has completed (R659). -/
  | haltDone (d : Die) (m : Msg)
  /-- No HALT_DONE arrives, so crew firmware sends the HALT again, and after three sends the port counts as DOWN (R659). -/
  | haltResend (d : Die)
  /-- A field die receives QUEUE_RESET and drops the named queue's work items or the one named item, letting a log in progress finish (R659). -/
  | queueReset (d : Die) (m : Msg)
  /-- The hub receives QUEUE_RESET_DONE with the counts of items dropped and logs partly written, and uses them at the reset's cut point (R659). -/
  | queueResetDone (d : Die) (m : Msg)
  /-- No QUEUE_RESET_DONE arrives within 2 ms, so the hub resends with the same SEQ, and after three sends treats the port as DOWN (R659). -/
  | queueResetResend (d : Die)
  /-- A field die receives REG_READ and answers with REG_DATA holding the register value (R23). -/
  | regRead (d : Die) (m : Msg)
  /-- A field die receives REG_WRITE with its continuation word, writes the register, and reports the status in REG_DATA (R23). -/
  | regWrite (d : Die) (m : Msg)
  /-- The hub receives REG_DATA and advances the FIELD REGISTER READ or WRITE waiting for it (R482). -/
  | regData (d : Die) (m : Msg)
  /-- An event arrives from a field die or a hub unit, and crew firmware writes or merges it into the events log page (R594). -/
  | event (d : Die) (m : Msg)
  /-- A field die receives a FW_LOAD chunk and stores it, or refuses an out-of-sequence chunk and sets SEQ_ERR (R589). -/
  | fwLoad (d : Die) (m : Msg)
  /-- A bay die receives a READ work item and reads log n, sending BOARD_DATA, BOARD_ERASED and LOG_DONE for the miss register (R24). -/
  | workRead (d : Die) (m : Msg)
  /-- A bay die receives a RECORD work item and waits for a RECORD_DATA for every board set in MASK (R165). -/
  | workRecord (d : Die) (m : Msg)
  /-- A bay die receives a SEEK work item and makes the manoeuvre (R204). -/
  | workSeek (d : Die) (m : Msg)
  /-- A bay die receives a MOUNT work item and spins up, finds the groove, measures the bark and reads the system logs of the seated disc (R318). -/
  | workMount (d : Die) (m : Msg)
  /-- A bay die receives an UNMOUNT work item and, after the bay's earlier items, makes an active stop of the spindle (R273). -/
  | workUnmount (d : Die) (m : Msg)
  /-- The mechanism die receives a TRANSFER work item and runs a yarder transfer between two places (R313). -/
  | workTransfer (d : Die) (m : Msg)
  /-- A bay die receives a CRUISE work item and raises trigger NOW for the bay (R324). -/
  | workCruise (d : Die) (m : Msg)
  /-- A bay die receives a VERIFY work item and reads log n, sending LOG_DONE only (R24). -/
  | workVerify (d : Die) (m : Msg)
  /-- The hub receives WORK_DONE and turns its STATUS into the owning command's status, settling a recording entry where it applies (R25). -/
  | workDone (d : Die) (m : Msg)
  /-- A bay die receives a RECORD_DATA board for an open RECORD item, or refuses it (R26). -/
  | recordData (d : Die) (m : Msg)
  /-- The hub receives BOARD_DATA and writes the board into the victim entry of its miss register, turning the entry to FILLING on the first board (R353). -/
  | boardData (d : Die) (m : Msg)
  /-- The hub receives BOARD_ERASED reporting an undelivered board and its cause (R145). -/
  | boardErased (d : Die) (m : Msg)
  /-- The hub receives LOG_DONE, ends the fill, frees the miss register and serves or fails the waiters (R353). -/
  | logDone (d : Die) (m : Msg)
  /-- Crew firmware receives a system-log BOARD_DATA or LOG_DONE, marked SYSTEM, during a mount or directory read (R143). -/
  | systemBoardReceive (d : Die) (m : Msg)
  /-- A write of PUSH to KRF_Pn_TXCTL queues the TXDATA word with TYPE, or sets REFUSED (R31). -/
  | txctlPush (d : Die) (w : Word)
  /-- A write of POP to KRF_Pn_RXCTL releases the word at RXDATA and loads the next (R32). -/
  | rxctlPop (d : Die) (w : Word)
  /-- At each 32-sample block boundary the front end closes statistics, activates pending groups, decides freeze, updates the loops and writes the PGA and DAC codes (R82). -/
  | sfeBlockBoundary (b : Bay) (raw : Vector (List Int) 7)
  /-- An envelope drop or slicer-level jump holds for its persistence count, so the spot's snag flag sets (R86). -/
  | snagSet (b : Bay) (k : Fin 7) (e lw : List Rat)
  /-- Both clear conditions hold for HOLD × 4 channel bits, so the spot's snag flag clears (R88). -/
  | snagClear (b : Bay) (k : Fin 7) (e lw : List Rat)
  /-- A snag stays set for SNAG_MAX × 64 channel bits, so SFE_LONG_SNAG is raised, LONG_SNAGS counts and spot 3's snag is passed to the turn engine (R89). -/
  | longSnag (b : Bay) (k : Fin 7)
  /-- A scheduled forecast window opens on a trailing spot and freezes its loops (R94). -/
  | forecastWindowOpen (b : Bay) (k : Fin 7)
  /-- A forecast window reaches its closing time and the spot's forecast freeze ends (R94). -/
  | forecastWindowClose (b : Bay) (k : Fin 7)
  /-- SFE_VEL has no valid update for 100 µs, or receives an out-of-range value, so forecasts are suspended and VEL_REPL counts (R92). -/
  | sfeVelReplaced (b : Bay)
  /-- Every 1 ms the front end reads the optical unit thermistor, averages eight readings and updates SFE_TEMP (R98). -/
  | thermistorReading (b : Bay) (ohm : Option Nat)
  /-- An out-of-range reading or 10 ms without a reading replaces the optical temperature with the die temperature (R98). -/
  | sfeTempReplaced (b : Bay)
  /-- After ACQ_BLOCKS × 16 blocks at reduced rate exponents the acquisition ends, and snag detection and forecasts resume (R84). -/
  | acquisitionEnd (b : Bay)
  /-- A write to SFE_SPOTk_LOOP in manual mode sets G, O and B at the next block boundary, and is ignored otherwise (R85). -/
  | sfeSpotLoopWrite (b : Bay) (k : Fin 7) (w : Word)
  /-- A write to SFE_AFE sets the analogue chain, and is ignored while any SPOT_EN bit is 1 (R103). -/
  | sfeAfeWrite (b : Bay) (w : Word)
  /-- A spot's blaze search decides one frame, advancing the sync state machine, setting the grid and weighting or zeroing its payload (R127). -/
  | syncFrame (b : Bay) (k : Fin 7) (o : FrameObs)
  /-- A spot has been in SEARCH with low envelope for one slot time, so the slot's board is erased BLANK (R132). -/
  | slotBlank (b : Bay) (k : Fin 7) (area slot : Nat)
  /-- A slice closes at 4,096 bits, a slot boundary or a hold, and enters the spot's slice buffer, dropping the oldest if full (R133). -/
  | sliceClose (b : Bay) (k : Fin 7) (len : Nat)
  /-- The shared sequence detector finishes a slice and takes the next ready slice by class priority (R134). -/
  | sliceDetected (d : Die) (r : SliceResult)
  /-- After the blaze decision of the following frame a slot's codeword is handed to the LDPC queue, or erased OVERLOAD when full (R131). -/
  | codewordHandover (b : Bay) (k : Fin 7) (slot : Nat)
  /-- The LDPC decoder converges or reaches its limit on a codeword and the board is decoded or erased after CRC and header checks (R139). -/
  | ldpcDecodeDone (d : Die) (r : LdpcResult)
  /-- At the end of a swath revolution with undecodable logs the bay jumps back one swath and rereads those logs, ending them FAILED after RETRY_MAX (R148). -/
  | retryJumpBack (b : Bay)
  /-- After BER_WIN codewords the spot's four quality registers latch together and SEQ advances (R150). -/
  | qualityWindowLatch (b : Bay) (k : Fin 7)
  /-- Once all supplied boards have arrived the recorder checks headers and builds CRCs, fill, parity, address board and modulation for the log (R165). -/
  | recordLogBuild (b : Bay) (item : Nat)
  /-- The spindle speed has stayed within ±0.1 % of the recording speed for 20 ms, so recording may begin (R167). -/
  | recordSpeedSettled (b : Bay)
  /-- The bay reads every target slot of the swath's ready logs at read power and marks each log as passed or not blank (R168). -/
  | checkRevolution (b : Bay) (marked : List (Nat × Nat × Nat))
  /-- Slot 3n of a checked, complete log reaches beam 0 in a write revolution, and the bay enters write mode and emits the log (R169). -/
  | logWriteStart (b : Bay) (item : Nat)
  /-- The last pulse of slot 3n + 2 on beam 6 is emitted, and WORK_DONE is sent within 10 µs (R179). -/
  | logWriteEnd (b : Bay)
  /-- Tracking or focus error passes its limit, or a loop loses lock, so every emitter returns to READ within 100 ns and the log stops partly written (R177). -/
  | writeInhibit (b : Bay)
  /-- A report frame from the laser driver arrives, is CRC-checked and supplies measured peak powers, or is discarded (R645). -/
  | laserReportFrame (b : Bay) (report : Nat)
  /-- Three consecutive discarded reports or no report for three turns is a LASER_LINK fault, which stops a log being written (R174). -/
  | laserLink (b : Bay)
  /-- On the first RECORD to a layer, a temperature move or REC_OPC.RUN, the bay writes and reads 16 test steps and sets each emitter's scale (R178). -/
  | powerTest (b : Bay) (first : Option Nat) (jitter : Vector (Vector Nat 16) 7)
  /-- A write of 1 to REC_OPC.RUN starts a power test, or does nothing with no disc or OPC_EN = 0 (R186). -/
  | recOpcRun (b : Bay)
  /-- At each turn boundary the engine latches sources, activates pending groups, evaluates due slots, resolves selectors, takes fault actions and distributes outputs (R226). -/
  | turn (d : Die) (adc : Vector ServoObs 2)
  /-- A write of 1 to TRN_Sn_CMD.CLEAR clears a slot's fault and hands the output over (R248). -/
  | trnCmdClear (d : Die) (n : Fin 48)
  /-- A write to TRN_Sn_CMD.FORCE forces the slot's output to FVAL or releases the force as a hand-over (R237). -/
  | trnCmdForce (d : Die) (n : Fin 48) (value : Word)
  /-- A write to TRN_Sn_SET sets the slot's set point from its next evaluation, without a hand-over (R255). -/
  | trnSetWrite (d : Die) (n : Fin 48) (value : Word)
  /-- A write to TRN_CTL starts or stops the engine and sets TURN_CYC, ignored where the rule forbids it (R252). -/
  | trnCtlWrite (d : Die) (value : Word)
  /-- A write to a coefficient bank word sets the inactive bank, or completes NOT_PERMITTED for the active or about-to-be-active bank (R240). -/
  | bankWordWrite (d : Die) (n : Fin 48) (bank : Bool) (off : Nat) (value : Word)
  /-- Setting FOC_EN withdraws the lens and starts a focus sweep with TRIES at 0 (R196). -/
  | focEnSet (b : Bay)
  /-- A write to TRN_OSV_CTL enables or disables the focus, tracking, tilt, sled-follow loops and the spiral check (R209). -/
  | trnOsvCtlWrite (b : Bay) (value : Word)
  /-- A sweep counts a surface peak and, at the target peak within the capture band, engages capture (R197). -/
  | surfacePeak (b : Bay)
  /-- A sweep reaches the end of its range without the target, so TRIES increments and the sweep restarts or focus FAILS (R196). -/
  | sweepEnd (b : Bay)
  /-- |FE| stays below FLOCK_TH for 32 turns in CAPTURE, so focus is LOCKED and SUM_REF is measured (R196). -/
  | focusLock (b : Bay)
  /-- No focus lock within 2 ms of capture, so TRIES increments and the sweep restarts or focus FAILS (R196). -/
  | captureTimeout (b : Bay)
  /-- Low SUM3 for 16 turns, a long snag on spot 3 or a focus following error loses focus and tracking and puts focus into HOLD (R198). -/
  | trnFocusLost (b : Bay)
  /-- SUM3 returns above LOSS_TH for 16 turns within 200 µs, so focus returns to CAPTURE (R196). -/
  | holdRecovery (b : Bay)
  /-- 200 µs pass in HOLD without recovery, so focus sweeps again or FAILS (R196). -/
  | holdTimeout (b : Bay)
  /-- |TE| stays below TLOCK_TH for 32 turns, so tracking is LOCKED and the front end's acquisition starts (R199). -/
  | trackingLock (b : Bay)
  /-- After lock, the first passing spot-3 frame address is checked, and a wrong spiral makes a correction jump (R200). -/
  | spiralCheck (b : Bay) (addr check : Nat)
  /-- At mount the sled moves outward from 22.3 mm until push-pull marks the groove start and RADIUS_OFS is set, or the mount fails (R194). -/
  | grooveSearch (b : Bay) (found : Bool)
  /-- TRN_MOVE with TYPE REACQUIRE requests a focus reacquisition (R211). -/
  | moveReacquire (b : Bay)
  /-- TRN_MOVE with TYPE LAYER requests a layer jump, made as single-layer jumps with kick, brake and capture (R202). -/
  | moveLayer (b : Bay) (layer : Fin 16)
  /-- TRN_MOVE with TYPE TRACK requests a track jump of TURNS turns (R203). -/
  | moveTrack (b : Bay) (turns : Int)
  /-- TRN_MOVE with TYPE SEEK requests a seek to a layer, area and slot (R204). -/
  | moveSeek (b : Bay) (layer : Fin 16) (area slot : Nat)
  /-- SUM3 rises through 50 % of SUM_REF after its minimum, so the brake pulse starts (R202). -/
  | layerJumpBrake (b : Bay)
  /-- The brake ends after KICK_T and focus enters CAPTURE (R202). -/
  | layerJumpBrakeEnd (b : Bay)
  /-- A layer jump is not complete at LJ_TIMEOUT, so focus enters HOLD and JUMP_FAILS counts (R196). -/
  | ljTimeout (b : Bay)
  /-- The zero-crossing count reaches |d| − ½ turns and the track jump brakes (R203). -/
  | trackJumpBrake (b : Bay)
  /-- On landing the bay reads spot 3's slot, writes the landing map, and waits or makes a correction seek, failing after SEEK_TRIES (R204). -/
  | seekLanding (b : Bay) (slot : Nat)
  /-- At each 10 µs valley the drive samples shunts, reconstructs currents, runs the checks, observer and current loop, and loads the next duties (R264). -/
  | pwmPeriod (b : Bay) (shunts : Vector Int 3) (vbr : Nat) (cross : Option Nat)
  /-- SPN_CMD RUN with a target starts the spindle from rest, ramps, or enters DECEL, or is refused (R274). -/
  | spnRun (b : Bay) (target : Int) (vbr : Nat)
  /-- SPN_CMD IDLE takes the spindle to IDLE_RPM under slot 5, through DECEL when above it (R274). -/
  | spnIdle (b : Bay) (vbr : Nat)
  /-- SPN_CMD STOP makes an active or passive stop, or lets the present stopping path continue (R274). -/
  | spnStop (b : Bay)
  /-- A write of SPN_CTL.CLR_FAULT in STOPPED clears the drive's fault, and is ignored in other states (R280). -/
  | spnClrFault (b : Bay)
  /-- A write to SPN_CTL sets ENABLE and PARK, ignoring a clear of ENABLE outside STOPPED (R287). -/
  | spnCtlWrite (b : Bay) (value : Word)
  /-- Initial position detection ends after its twelve pulses and sets θ_ipd, then ALIGN begins (R275). -/
  | ipdDone (b : Bay) (times : Vector Nat 12)
  /-- ALIGN_T expires and the drive enters OPEN (R276). -/
  | alignEnd (b : Bay)
  /-- Observer confidence and angle agreement hold for 8 electrical cycles, so the drive hands over to RUN (R276). -/
  | openHandOver (b : Bay)
  /-- No hand-over within OPEN_T, so the attempt fails with a passive stop and a restart, or FAULT = START_FAILED (R276). -/
  | openTimeout (b : Bay)
  /-- At the end of CATCH_T the drive classifies the back-EMF and goes to IPD, catch-spin or a passive stop (R277). -/
  | catchDecide (b : Bay) (seen : CatchSeen) (vbr : Nat)
  /-- Confidence holds 8 cycles within 16 after a catch-spin switch, so the drive enters RUN, or the catch fails (R277). -/
  | catchLock (b : Bay)
  /-- Confidence stays below OBS_LOSS for 16 periods in RUN or DECEL, so the drive enters FLYWHEEL (R279). -/
  | observerLoss (b : Bay)
  /-- Confidence and angle hold for RELOCK_CYC cycles in FLYWHEEL, so the drive relocks and returns to its state (R279). -/
  | spnObsRelocked (b : Bay)
  /-- No relock within 24 electrical cycles, so the bridge goes off, the drive coasts and FAULT = OBS_LOST (R279). -/
  | flywheelTimeout (b : Bay)
  /-- No phase-current zero crossing for 166.7 ms in SHORT, so the drive enters STOPPED (R273). -/
  | shortEnd (b : Bay) (vbr : Nat)
  /-- Speed stays above 12,600 rpm for 1 ms, so FAULT = OVERSPEED and the drive stops (R280). -/
  | overspeed (b : Bay)
  /-- V_BR stays below UV_TRIP for 1 ms while switching, so the bridge goes off and FAULT = UNDERVOLTAGE (R280). -/
  | undervoltage (b : Bay)
  /-- Speed stays within ±0.5 % of the target for 20 ms, so AT_SPEED sets (R274). -/
  | atSpeed (b : Bay)
  /-- Once per millisecond the drive updates the modelled winding temperature (R271). -/
  | windingTempUpdate (b : Bay)
  /-- The owning die takes a CEIL reading, scales, clamps or refuses it, and filters the accepted FRAC (R283). -/
  | ceilReading (x : Int) (carrier : Nat)
  /-- No CEIL reading is accepted for 50 ms, so SAFE_FRAC replaces the value and REPLACED sets (R283). -/
  | spnCeilReplaced
  /-- Every 1 ms the owning die sends FRAC in an event for relay to every bay (R284). -/
  | spnCeilValue
  /-- Crew firmware writes the relayed FRAC into SPN_CEIL_IN of a bay, clearing STALE (R284). -/
  | ceilRelayWrite (b : Bay) (frac : Fin 1025)
  /-- A bay with RELAY_EN receives no relay write for 20 ms, sets STALE and uses SAFE_FRAC (R284). -/
  | ceilStale (b : Bay)
  /-- Every 1 µs the profiler chooses a jerk for each moving axis, integrates a, v and p, and recomputes the stopping point (R294). -/
  | profileTick (d : Die)
  /-- AXP_An_CMD MOVE moves or retargets the axis, or is refused (R296). -/
  | axpMove (d : Die) (n : Fin 8)
  /-- AXP_An_CMD STOP stops the axis as fast as its limits allow, keeping the target (R296). -/
  | axpStop (d : Die) (n : Fin 8)
  /-- AXP_An_CMD RESUME moves a KEPT axis to its kept target, or is refused NOTHING_KEPT (R296). -/
  | axpResume (d : Die) (n : Fin 8)
  /-- AXP_An_CMD HOME clears HOMED and runs the homing phases (R305). -/
  | axpHome (d : Die) (n : Fin 8)
  /-- AXP_An_CMD CLR_FAULT returns a faulted axis to IDLE, accepted after chatter only once the switch is quiet (R306). -/
  | axpClrFault (d : Die) (n : Fin 8)
  /-- A write to AXP_An_CTL enables or disables the axis or switches it between POSITION and FOLLOW (R296). -/
  | axpCtlWrite (d : Die) (n : Fin 8) (value : Word)
  /-- AXP_GRPg_CMD MOVE runs a straight-line group move of its members, or restarts from the stopping point (R300). -/
  | grpMove (d : Die) (g : Fin 4)
  /-- AXP_GRPg_CMD STOP stops the group on its path and keeps the remaining length (R301). -/
  | grpStop (d : Die) (g : Fin 4)
  /-- AXP_GRPg_CMD RESUME completes the group's original line (R301). -/
  | grpResume (d : Die) (g : Fin 4)
  /-- A switch input changes level and the profiler latches the axis position (R302). -/
  | switchRawEdge (d : Die) (k : Fin 12) (active : Bool)
  /-- A switch holds its new level for FILT, so the change is confirmed with the captured position, driving homing, limits and grip contact (R302). -/
  | switchConfirm (d : Die) (k : Fin 12)
  /-- A motion of a yarder transfer completes and the transfer advances to its next step or ends with YRD_LAST (R313). -/
  | transferStepDone
  /-- HEAD_DISC is not confirmed within 100 ms of grip, so the gripper homes and the transfer fails (R314). -/
  | headDiscTimeout
  /-- The door is confirmed open, so every yarder axis stops, the gripper holds and the yarder enters DOOR_HOLD (R315). -/
  | yrdDoorOpen
  /-- The door stays closed for DOOR_SETTLE, so stopped axes resume and an inventory runs when AUTO_INV = 1 (R315). -/
  | doorSettled
  /-- The door stays open beyond DOOR_TIMEOUT, so the transfer's work item completes with MECHANISM_FAULT (R315). -/
  | doorTimeout
  /-- Crew firmware scans each configured deck and the mail slots, reading HEAD_DISC at each shelf, and updates occupancy (R316). -/
  | inventory
  /-- A deck's scan ends and work waiting on that deck proceeds (R316). -/
  | deckScanned (seen : List Nat)
  /-- At power-up the yarder homes G, T, Z and X, placing an orphaned disc in a mail slot if one is held (R317). -/
  | yarderPowerUpHoming
  /-- A write to YRD_CTL enables or disables transfers and inventories and sets AUTO_INV; waiting transfers start when ENABLE sets (R322). -/
  | yrdCtlWrite (value : Word)
  /-- A write of 1 to CRU_CTL.NOW raises trigger NOW for the bay (R343). -/
  | cruNow (b : Bay)
  /-- Every 100 ms the calibrator compares optical and die temperatures with their references and raises TEMP when either moved by more than CRU_DELTA (R325). -/
  | cruTempCheck (b : Bay)
  /-- A pending run's start conditions hold, so the calibrator latches references and borrows its first spot at a slot boundary (R327). -/
  | cruRunStart (b : Bay)
  /-- A run has waited longer than CRU_WAIT, so STARVED sets and CRU_STARVED is raised once (R327). -/
  | cruStarved (b : Bay)
  /-- After settling, the calibrator measures jitter or dark levels over the point's bits, and at the end of a scan fits and judges the attempt (R331). -/
  | cruPointMeasured (b : Bay) (m : CruMeasured)
  /-- At the first slot boundary after both commits take effect, the calibrator clears MANUAL and BORROWED of the spot together (R335). -/
  | cruSpotRelease (b : Bay)
  /-- The calibrator reads every spot's live taps, and one swath revolution later again, and commits the agreeing means (R333). -/
  | cruTapSnapshot (b : Bay)
  /-- Unmount, safe state or a clear of ENABLE aborts the run, releases the spot and clears pending triggers (R337). -/
  | cruRunAbort (b : Bay)
  /-- In the first 10 ms after a disc is seated the calibrator takes dark ADC trims of all seven spots at once (R332). -/
  | mountDarkPhase (b : Bay) (m : List (Vector DarkMeans 7 × Vector DarkMeans 7))
  /-- Every 100 ms the calibrator recomputes the bay's residual tracking error and pips (R339). -/
  | cruQualityUpdate (b : Bay)
  /-- A fill has not ended FILL_TIMEOUT after its work item was sent, so its waiters fail and QUEUE_RESET names its item (R354). -/
  | fillTimeout (id : Nat)
  /-- A request that waited for a free miss register, a victim, dirty room or a full waiter list is looked up again when room appears (R352). -/
  | requestRetry
  /-- A DIRTY entry is zero-filled and handed to the recording path, becoming RECORDING (R359). -/
  | dirtyHandOver (e : Nat) (upset : List (Nat × Nat))
  /-- LND_RANGE_CTL START with OP INVALIDATE walks the tags and invalidates matching CLEAN lines and buffer copies (R370). -/
  | lndRangeInvalidate (force : Bool) (cls slots : Nat)
  /-- START with OP PRELOAD fills every absent log of the range at CLASS (R370). -/
  | lndRangePreload (force : Bool) (cls slots : Nat)
  /-- START with OP PRELOAD_LOCK preloads the range and locks each line under R361 (R370). -/
  | lndRangePreloadLock (force : Bool) (cls slots : Nat)
  /-- START with OP UNLOCK clears LOCK on matching entries (R370). -/
  | lndRangeUnlock (force : Bool) (cls slots : Nat)
  /-- START with OP CLEAN hands over matching DIRTY lines and waits until every matching line has left RECORDING (R370). -/
  | lndRangeClean (force : Bool) (cls slots : Nat)
  /-- START with OP SCRUB reads and checks every word of matching entries and writes back corrected bursts (R392). -/
  | lndRangeScrub (force : Bool) (cls slots : Nat)
  /-- A write of LND_RANGE_CTL.ABORT stops the operation at the next line boundary and sets ABORTED and DONE (R369). -/
  | lndRangeAbort
  /-- The range operation ends, BUSY clears, DONE sets and the engine's interrupt source is raised (R369). -/
  | lndRangeDone
  /-- A write to LND_CTRL.ENABLE enables or bypasses the landing, ignored while READY = 0 (R372). -/
  | lndCtrlWrite (en : Bool)
  /-- A write to LND_WAY_RETIRE retires or returns ways, or is refused with CFG_ERR (R363). -/
  | lndWayRetireWrite (w : Word)
  /-- A write to LND_CFG or LND_LIMITS sets landing limits, or is refused with CFG_ERR (R362). -/
  | lndCfgWrite (limits : Bool) (w : Word)
  /-- A window commit holds new BAR2 requests, drains older ones under the old mapping within 2 µs, then activates the new set (R366). -/
  | windowCommitPoint
  /-- A BAR2 request is mapped into window ways and served, or refused with UR or drop (R364). -/
  | bar2Request (r : Machine.WinReq) (upset : List (Nat × Nat))
  /-- The patrol scrubber reads one idle 128-byte burst, writes back a corrected one, logs uncorrectable words and ends laps (R389). -/
  | patrolBurst (upset : List (Nat × Nat))
  /-- A write of MIU_INJECT.ARM flips the named bits in the next code unit written to the target, then clears (R394). -/
  | miuInjectArm (w : Word)
  /-- An open core leaves its watchdog unwritten for WDOG and is reset alone (R419). -/
  | openCoreWatchdog (k : Fin 2)
  /-- The last command of a CLOSING session completes, so the context becomes FREE with DKEY zeroed (R401). -/
  | sessionCloseFinal (id : Nat)
  /-- Crew firmware records a disc's pending key entries and extents as its next generation once every data log it describes is recorded (R412). -/
  | generationRecord (b : Bay)
  /-- The rebuild mounts the next stale slot's disc and replaces its records from the active generation's directory (R423). -/
  | backgroundDirectoryRead
  /-- A lookup with no VALID extent reads stale slots in hint and slot order until a covering extent is found or all fail (R424). -/
  | foregroundLookup (id : Nat)
  /-- A mount completes; the vault lock recovers the signature, unwraps keys, checks the SERIAL and installs keys into slots (R407). -/
  | mountComplete (slot : Nat) (dataBlank : Bool)
  /-- The bay completes an eight-revolution bark measurement and forms the signature bits (R72). -/
  | barkMeasured (b : Bay) (features : List Int)
  /-- A write to a queue pair's doorbell takes SQ_TAIL or CQ_HEAD, or refuses the part (R435). -/
  | doorbellWrite (f : Fin 64) (q : Nat) (tail head : Option Nat)
  /-- The queue engine grants a fetch by slot rule and class and reads up to FETCH_MAX entries of one SQ (R436). -/
  | fetch (upset : List (Nat × Nat))
  /-- Fetched entries arrive and each is checked in order and started, or completes with the failing status (R432). -/
  | entryReceived (f : Fin 64) (q : Nat) (upset : List (Nat × Nat))
  /-- A decided completion entry is written to its CQ with the phase bit once a CQ entry is free, followed by its MSI-X message (R434). -/
  | completionPost (f : Fin 64) (q : Nat)
  /-- A write of QEN_HALT.GO halts the named I/O queue at a cut, sending QUEUE_RESET, or is refused (R447). -/
  | qenHalt (f : Fin 64) (q : Nat)
  /-- QUEUE_RESET_DONE has arrived from every port and decided entries are written, so the queue becomes HALTED and DONE sets (R447). -/
  | haltCutComplete (f : Fin 64)
  /-- A write of QEN_MQ_CTL.ENABLE checks and activates the management pair, or deletes it when written 0 (R430). -/
  | qenMqCtlWrite (f : Fin 64) (w : Word)
  /-- READ resolves title boards through the scale book, requests them from the landing and delivers them decrypted or sealed (R460). -/
  | read (id : Nat) (upset : List (Nat × Nat))
  /-- READ RAW reads boards of a vault address through the landing and delivers them as stored (R461). -/
  | readRaw (id : Nat) (upset : List (Nat × Nat))
  /-- RECORD reads board images, checks headers, optionally encrypts, and writes them into DIRTY landing entries, waiting for the medium with SEAT (R462). -/
  | record (id : Nat) (upset : List (Nat × Nat))
  /-- PRELOAD requests every log of a range into the landing, optionally locking, without moving data to the host (R463). -/
  | preload (id : Nat)
  /-- FENCE completes once every earlier command of its SQ has posted, holding later ones (R440). -/
  | fence (id : Nat)
  /-- FLUSH hands over the covered DIRTY lines and completes when every covered line has left RECORDING (R449). -/
  | flush (id : Nat) (upset : List (Nat × Nat))
  /-- VERIFY SCAN reads every log of a range from the medium and writes records of FAILED and marginal logs (R465). -/
  | verifyScan (id : Nat)
  /-- CREATE QUEUE PAIR makes an I/O queue pair ACTIVE with its bases, depth, fetch class and vector (R466). -/
  | createQueuePair (id : Nat)
  /-- DELETE QUEUE PAIR cuts the queue, discards undecided and unfetched work, and makes it ABSENT (R467). -/
  | deleteQueuePair (id : Nat)
  /-- RESET QUEUE cuts the queue, discards undecided and unfetched work, and returns it to ACTIVE (R444). -/
  | resetQueue (id : Nat)
  /-- SESSION OPEN checks a licence token and opens a session, mounting a disc for its key if needed (R403). -/
  | sessionOpen (id : Nat)
  /-- SESSION CLOSE makes the session CLOSING at fetch and records any pending generation for BIND sessions (R401). -/
  | sessionClose (id : Nat)
  /-- MOUNT mounts the disc of a slot in a named or chosen bay, waiting for a bay when none is free (R470). -/
  | mount (id : Nat)
  /-- UNMOUNT finishes the bay's work, records a pending generation, stops the spindle and returns the disc (R471). -/
  | unmount (id : Nat)
  /-- MOVE DISC transfers a disc between slot or mail-slot places and marks both places' records STALE (R472). -/
  | moveDisc (id : Nat)
  /-- CRUISE NOW raises NOW for a bay and completes when that run ends (R340). -/
  | cruiseNow (id : Nat)
  /-- QUERY BAY writes the bay's 64-byte status record (R474). -/
  | queryBay (id : Nat)
  /-- BUNDLE DOWNLOAD writes a chunk of a bundle into the inactive bank in order (R475). -/
  | bundleDownload (id : Nat)
  /-- SCHEDULE ACTIVATION schedules a switch to the loaded bank at a device time (R476). -/
  | scheduleActivation (id : Nat)
  /-- CANCEL ACTIVATION withdraws a scheduled activation (R477). -/
  | cancelActivation (id : Nat)
  /-- CONFIRM HEALTH confirms a trial set scheduled with HOST_CONFIRM once its self-tests pass (R478). -/
  | confirmHealth (id : Nat)
  /-- GET LOG PAGE writes part of a snapshotted log page to the host buffer (R483). -/
  | getLogPage (id : Nat)
  /-- SET FEATURE sets a function or device feature such as queue grants, quotas or class weights (R486). -/
  | setFeature (id : Nat)
  /-- GET FEATURE returns a feature value in RESULT (R486). -/
  | getFeature (id : Nat)
  /-- FIELD REGISTER READ sends one REG_READ per word and writes the values to the buffer (R482). -/
  | fieldRegisterRead (id : Nat)
  /-- FIELD REGISTER WRITE sends one REG_WRITE per word, stopping at the first word the die refuses (R482). -/
  | fieldRegisterWrite (id : Nat)
  /-- A word has no REG_DATA answer within 1 ms, so the field register command ends with MECHANISM_FAULT (R482). -/
  | regDataTimeout (id : Nat)
  /-- SCRUB RANGE runs the range engine's SCRUB over a range and writes its 40-byte summary (R480). -/
  | scrubRange (id : Nat) (upset : List (Nat × Nat))
  /-- LANDING RANGE OP runs range operation 1–5 on the engine and writes the 16-byte summary (R480). -/
  | landingRangeOp (id : Nat) (upset : List (Nat × Nat))
  /-- SCALE BOOK UPDATE with ACTION STALE marks the slots of a deck range STALE (R481). -/
  | scaleBookStale (id : Nat)
  /-- SCALE BOOK UPDATE with ACTION HINT adds a hint record naming a title range and a slot (R481). -/
  | scaleBookHint (id : Nat)
  /-- SET TIME sets TIM_NOW within 1 µs and sets TIME_SET (R479). -/
  | setTime (id : Nat)
  /-- A BAR0 Memory Read or Write of a function is served in arrival order, or dropped or aborted when badly sized (R494). -/
  | bar0Request (r : Machine.Bar0Req)
  /-- The host clears a function's Bus Master Enable, so it stops issuing, decides affected commands HOST_PATH_HALTED and holds entries (R511). -/
  | bmeClear (f : Fin 64)
  /-- Bus Master Enable is set again, so held entries and their messages are posted and fetch resumes (R511). -/
  | bmeSet (f : Fin 64) (cfg : Machine.FnCfg) (numVfs : Option (Fin 64))
  /-- An FLR or a clear of VF Enable resets a function's queues, sessions, MSI-X and held commands within 100 ms (R509). -/
  | functionLevelReset (f : Fin 64) (vfEnableClear : Bool)
  /-- A function enters D3hot, acting as a clear of Bus Master Enable and refusing BAR accesses (R505). -/
  | d3hotEntry (f : Fin 64)
  /-- A function returns to D0 within 10 ms, keeping queues, sessions and tables (R505). -/
  | d0Return (f : Fin 64)
  /-- PERST# is asserted, giving a fundamental reset of the whole host side (R508). -/
  | perstAssert
  /-- An in-band hot reset or DL_Down resets the host side as a fundamental reset (R508). -/
  | hotReset
  /-- A completion TLP for an outstanding tag is reassembled, or fails the request, or is an Unexpected Completion (R498). -/
  | completionReceived (x : Machine.CompletionIn)
  /-- A host read request times out, failing the command that issued it (R498). -/
  | completionTimeout (tag : Nat)
  /-- A read piece that waited for a free tag takes one and is issued as a Memory Read (R497). -/
  | readPieceIssue
  /-- A vector with a message to send sends it when enabled and unmasked, or sets its pending bit (R502). -/
  | msixSend (f : Fin 64) (v : Nat)
  /-- A vector's four conditions hold again, so a pending vector sends one merged message (R502). -/
  | msixUnmask (f : Fin 64) (v : Nat)
  /-- After the PHY part is checked the stump loads PHY microcode, sets EQ_FULL and retrains to the highest rate (R506). -/
  | linkFullRateRetrain (rate : Fin 8) (width : Fin 9) (flit : Bool)
  /-- A source's input shows an event, making it pending or merging or latching the event (R526). -/
  | hicSourceEvent (n : Nat) (level : Bool)
  /-- A read of CLAIM returns the highest eligible source and puts it in service, or returns 1023 (R528). -/
  | hicClaimRead (c : Fin 8)
  /-- A write of a source ID to CLAIM completes its service and recomputes RUNPRI (R529). -/
  | hicClaimWrite (c : Fin 8) (n : Fin 1024)
  /-- A write of an ID 192–255 to HIC_TRIGGER raises that software source (R532). -/
  | hicTriggerWrite (n : Nat)
  /-- A write to HIC_SRCn_CFG changes target, priority or sense, clearing pending on a sense change (R530). -/
  | hicSrcCfgWrite (by_ : Fin 8) (n : Fin 256) (w : Word)
  /-- A crew core writes a core's MSIP, setting or clearing its machine software interrupt (R523). -/
  | msipWrite (by_ c : Fin 8) (w : Word)
  /-- HIC_MTIME reaches a core's MTIMECMP and the core's machine timer interrupt becomes pending (R522). -/
  | mtimecmpReached (c : Fin 8)
  /-- A write of START runs a channel's descriptor chain, or is ignored with ERR_BUSY or REFUSED (R543). -/
  | skdStart (c : Fin 32) (resume : Bool) (core : Fin 8)
  /-- A write of ABORT stops the channel at the end of its current burst and records RESIDUE (R545). -/
  | skdAbort (c : Fin 32)
  /-- A channel's burst completes and the engine arbitrates the next burst round robin (R540). -/
  | skdBurstDone (data : Bytes) (upset : List (Nat × Nat))
  /-- A descriptor's last write is accepted; it is written back, fires its source if IRQ, and the next is fetched or the chain ends (R543). -/
  | skdDescriptorDone (c : Fin 32)
  /-- A fetched descriptor is checked and loaded, or ends the channel DESC_ERROR (R539). -/
  | skdDescriptorLoad (c : Fin 32) (upset : List (Nat × Nat))
  /-- A bus error stops every active channel at once and sets HALTED (R547). -/
  | skdBusError
  /-- A write of 1 to SKD_STATUS.HALTED lets channels be started again (R548). -/
  | skdHaltedClear
  /-- A flash erase or program finishes and HIC source 161 fires (R551). -/
  | flashOperationDone
  /-- TIM_NOW reaches the scheduled TIME, so fetch stops and the activation begins (R556). -/
  | activationStart
  /-- Commands reach their log boundaries and are decided, and the flush of DIRTY lines begins (R557). -/
  | activationDrainDone
  /-- No line is DIRTY or RECORDING, or FLUSH_LIMIT expires, so waiting commands are decided and posted (R557). -/
  | activationFlushDone
  /-- With the journal PENDING written and any running transfer ended, the hub resets (R557). -/
  | activationReset
  /-- The ROM stage checks the pending bank and writes TRIAL or rejects it with a reason (R561). -/
  | bootCheck
  /-- A trial set's self-tests end, confirming it or starting a rollback (R563). -/
  | selfTestDone
  /-- An unconfirmed set's window expires, so it rolls back by an activation run to the old bank (R565). -/
  | confirmationWindowExpiry
  /-- After PERST# deassertion core 0 settles the journal, reads the boot block, starts training, checks banks and loads STUMP2 (R587). -/
  | romStageBoot
  /-- STUMP2 loads PHY, trains and initialises memory, loads field dies and crew, writes the protection map and sets READY (R588). -/
  | stump2BringUp (channels : Nat) (setsLog2 : Nat) (writes : List (Nat × Word))
  /-- Every word of landing and class-B memory has been written coded, so INIT_DONE sets (R388). -/
  | memoryInitDone
  /-- A write of FPW_BOOT.GO checks the load's CRC and starts the die's firmware or sets CRC_FAIL, failing the die after three tries (R590). -/
  | fpwBootGo (d : Die)
  /-- Every powered field die is RUNNING or failed and bay axes have homed, so FIELD_READY sets (R591). -/
  | fieldReady
  /-- A host rail monitor trips or PGOOD_H falls, holding the host side in reset with FAULT_N low (R575). -/
  | hostSupplyTrip
  /-- Rails and PGOOD_H stay good for 1 ms, releasing the host side from reset (R575). -/
  | hostSupplyRelease
  /-- VAUX_H is lost, resetting the whole host side and the keeper, and AON_LOST sets at the next boot (R586). -/
  | vauxLoss
  /-- A field die's monitor trips or PGOOD_F falls, resetting that die and taking its port DOWN (R575). -/
  | fieldSupplyTrip (d : Die)
  /-- A junction stays above 115 °C for 1 ms, acting as a supply-monitor trip of its side or die (R638). -/
  | junctionOvertemp (d : Die)
  /-- The junction stays below 100 °C for 1 s, releasing the over-temperature condition (R638). -/
  | junctionOvertempRelease (d : Die)
  /-- Every 100 µs the owning die converts VMECH_SENSE and updates MV and VALID (R577). -/
  | vmechSample (code : Fin 4096)
  /-- MV stays below LOW_MV, or VALID is 0, for 5 ms, so LOW sets and transfers and spin-ups stop (R578). -/
  | fpwVmechLow
  /-- MV stays above LOW_MV + 200 mV for 50 ms, so LOW clears (R578). -/
  | vmechLowClear
  /-- MV passes HIGH_MV, so HIGH sets and an event is raised (R578). -/
  | fpwVmechHigh
  /-- MV falls below HIGH_MV − 200 mV, so HIGH clears (R578). -/
  | vmechHighClear
  /-- A domain's off condition holds and no request or hold keeps it on, so it is isolated and switched off (R583). -/
  | domainSwitchOff (n : Fin 80)
  /-- A request meets a switched-off domain, which wakes, and waiting requests proceed (R583). -/
  | domainWake (n : Fin 80)
  /-- Each 32.768 kHz crystal tick adds 30,517.578125 ns to the device-time keeper (R586). -/
  | keeperTick
  /-- No crystal tick for 1 ms, so PWR_XTAL_LOST is raised and the keeper is reloaded from TIM_NOW every 1 ms (R601). -/
  | pwrXtalLost
  /-- A bay idles for the BAY_IDLE spindle time, so its spindle goes to IDLE (R486). -/
  | bayIdleSpindle (b : Bay)
  /-- A bay idles for the BAY_IDLE return time, so its disc may be returned to its slot (R486). -/
  | bayIdleReturn (b : Bay)
  /-- After the clock holdover has ended, the safe-state controller short-brakes the spindle once the back-EMF crossing interval shows a speed below STOP_SHORT, and holds the short (R282). -/
  | safeStateShortBrake (b : Bay)
  /-- The CQ_COALESCE time of a coalescing completion queue runs out, so the withheld MSI-X message for its entries is sent (R486). -/
  | cqCoalesceTimeout (f : Fin 64) (q : Nat)
  /-- The fabric PLL has not locked within 1 ms, so the host side is held in reset with FAULT_N driven low (R575). -/
  | fabricPllLockTimeout
  /-- The PCI Express link enters Recovery or changes rate or width, so RETRAINS or SPEED_CHANGES count, EP_LINK changes and HIC source 152 fires (R516). -/
  | linkRecovery (recovery : Bool) (rate : Fin 8) (width : Fin 9) (flit up : Bool)
  /-- A JTAG access reaches the cores or hub fabric as VLK_DEBUG.LEVEL allows, checked against the protection map as group 7, and wakes domain 29 (R420). -/
  | jtagAccess (a : Nat) (w : Option Word)
  deriving DecidableEq, Repr

end Sys2Proof
end

