-- ==== Sys2Proof/Config.lean ====
section
/-! DEFINITION. What the spec leaves open. Every constant here is opaque: nothing can be proved of its value, so a statement
that holds, holds for every choice of it. -/
namespace Sys2Proof.Config

/-- The n-th free value drawn. -/
opaque freeNat : Nat → Nat

/-- Where the spec gives a formula and not its rounding, whether an inexact value goes up to the next whole number (the
precision of the hardware's arithmetic is not stated). -/
opaque roundUp : Rat → Bool

/-- The hardware's sine of an angle in radians; its precision is not stated. -/
opaque sin : Rat → Rat

/-- The hardware's cosine of an angle in radians; its precision is not stated. -/
opaque cos : Rat → Rat

/-- The hardware's angle of a vector (y, x) in radians; its precision is not stated. -/
opaque atan2 : Rat → Rat → Rat

/-- The hardware's square root; its precision is not stated. -/
opaque sqrt : Rat → Rat

/-- The hardware's natural logarithm; its precision is not stated. -/
opaque ln : Rat → Rat

/-- The hardware's exponential function; its precision is not stated. -/
opaque exp : Rat → Rat

/-- The angle correction of initial position detection in units of 30° where its formula has no value (R275). -/
opaque ipdFlat : List Nat → Rat

/-- The fixed gains of the spindle observer's phase-locked loop of 200 Hz (R265), whose values are not stated. -/
opaque pllOmega : Rat
opaque pllTheta : Rat

/-- The channel-bit period in samples before any valid velocity has been written (R80). -/
opaque periodUnset : Rat

/-- The device serial fused into the part (R604). -/
opaque serial : Nat

/-- SHA-384 of a byte string, by FIPS 180-4. -/
opaque sha384 : Bytes → Bytes

/-- Whether a P-384 signature (r and s) verifies under a public key (X and Y) over a digest, by FIPS 186-5. -/
opaque ecdsa : (key sig digest : Bytes) → Bool

/-- The block cipher AES-256 under a key, by FIPS 197. -/
opaque aes256 : (key block : Bytes) → Bytes

/-- The tag of AES-256-GCM under a key for an IV, additional data and ciphertext, by SP 800-38D. -/
opaque gcmTag : (key iv aad cipher : Bytes) → Bytes

/-- Wrapping and unwrapping of a key under a key, by RFC 3394; unwrapping fails on a bad integrity check. -/
opaque wrap : (kek key : Bytes) → Bytes
opaque unwrap : (kek wrapped : Bytes) → Option Bytes

/-- APERTURE_LOG2 among the defaults that a SETTINGS part holds, whose layout is not stated (R553, R567). -/
opaque aperture : Bytes → Nat

/-- The firmware public keys of the boot ROM (R552). -/
opaque romKey : Nat → Bytes

end Sys2Proof.Config

namespace Sys2Proof

/-- A whole number from an exact one, where the spec does not say how it is rounded: whole numbers stay, others go down or
up as `Config.roundUp` says. -/
def roundOpen (q : Rat) : Int := if q.den = 1 then q.num else if Config.roundUp q then q.floor + 1 else q.floor

/-- The nearest whole number, halves up, where the spec says round. -/
def roundNear (q : Rat) : Int := (q + 1 / 2).floor

/-- 2π to 21 digits, where the spec writes π. -/
def twoPi : Rat := 6283185307179586476925 / 1000000000000000000000

end Sys2Proof
end

