-- ==== Sys2Proof/Machine/RegTable.lean ====
section
/-! DEFINITION. Every register field of the part, written out from the register tables of the spec, one constant a field:
its register's offset in the block (R614 and the owning chapters), its bits, its access type (R8), its value after reset,
whether it is signed and its range where the table prints one narrower than the bits. -/
namespace Sys2Proof.Machine

namespace F

/-! Block SFE (chapter 03 of the spec). -/
def SFE_CTL_FC_EN : Field := { off := 0x0, hi := 16, lo := 16, acc := .rw }
def SFE_CTL_MANUAL : Field := { off := 0x0, hi := 14, lo := 8, acc := .rw }
def SFE_CTL_SPOT_EN : Field := { off := 0x0, hi := 6, lo := 0, acc := .rw }
def SFE_STATUS_FC_SOURCE : Field := { off := 0x4, hi := 19, lo := 16, rst := 15 }
def SFE_STATUS_ACQ : Field := { off := 0x4, hi := 11, lo := 11 }
def SFE_STATUS_HOLD_SEEK : Field := { off := 0x4, hi := 10, lo := 10 }
def SFE_STATUS_VEL_OK : Field := { off := 0x4, hi := 9, lo := 9 }
def SFE_STATUS_SNAG : Field := { off := 0x4, hi := 6, lo := 0 }
def SFE_AFE_LOCKED : Field := { off := 0x8, hi := 31, lo := 31 }
def SFE_AFE_TERM : Field := { off := 0x8, hi := 5, lo := 5, acc := .rw, rst := 1 }
def SFE_AFE_LPF : Field := { off := 0x8, hi := 3, lo := 2, acc := .rw, rst := 3 }
def SFE_AFE_RANGE : Field := { off := 0x8, hi := 1, lo := 0, acc := .rw, rst := 1, rng := some (0, 2) }
def SFE_VEL_VEL_SRC : Field := { off := 0xc, hi := 31, lo := 31, acc := .rw }
def SFE_VEL_VEL : Field := { off := 0xc, hi := 16, lo := 0, acc := .rw }
def SFE_LOOPCFG_GRATE : Field := { off := 0x10, hi := 31, lo := 28, acc := .st, rst := 8, rng := some (4, 14) }
def SFE_LOOPCFG_ORATE : Field := { off := 0x10, hi := 27, lo := 24, acc := .st, rst := 8, rng := some (2, 12) }
def SFE_LOOPCFG_ARATE : Field := { off := 0x10, hi := 23, lo := 20, acc := .st, rst := 8, rng := some (2, 10) }
def SFE_LOOPCFG_ACQ_SHIFT : Field := { off := 0x10, hi := 17, lo := 16, acc := .st, rst := 2 }
def SFE_LOOPCFG_ACQ_BLOCKS : Field := { off := 0x10, hi := 15, lo := 8, acc := .st, rst := 16, rng := some (1, 255) }
def SFE_LOOPCFG_A_REF : Field := { off := 0x10, hi := 7, lo := 0, acc := .st, rst := 96, rng := some (32, 120) }
def SFE_LOOPLIM_G_MIN : Field := { off := 0x14, hi := 31, lo := 24, acc := .st }
def SFE_LOOPLIM_G_MAX : Field := { off := 0x14, hi := 23, lo := 16, acc := .st, rst := 255 }
def SFE_LOOPLIM_B_LIM : Field := { off := 0x14, hi := 7, lo := 0, acc := .st, rst := 64, rng := some (1, 127) }
def SFE_LOOP_COMMIT_OVERRUN : Field := { off := 0x1c, hi := 2, lo := 2, acc := .w1c }
def SFE_LOOP_COMMIT_REJECT : Field := { off := 0x1c, hi := 1, lo := 1, acc := .w1c }
def SFE_LOOP_COMMIT_COMMIT : Field := { off := 0x1c, hi := 0, lo := 0, acc := .sc }
def SFE_SNAGCFG_DROP_TH : Field := { off := 0x20, hi := 31, lo := 24, acc := .st, rst := 128, rng := some (32, 224) }
def SFE_SNAGCFG_DROP_N : Field := { off := 0x20, hi := 23, lo := 18, acc := .st, rst := 16, rng := some (4, 40) }
def SFE_SNAGCFG_JUMP_N : Field := { off := 0x20, hi := 17, lo := 12, acc := .st, rst := 8, rng := some (4, 32) }
def SFE_SNAGCFG_JUMP_TH : Field := { off := 0x20, hi := 11, lo := 6, acc := .st, rst := 12, rng := some (2, 48) }
def SFE_SNAGCFG_HOLD : Field := { off := 0x20, hi := 5, lo := 0, acc := .st, rst := 8, rng := some (1, 63) }
def SFE_SNAGMAX_SNAG_MAX : Field := { off := 0x24, hi := 15, lo := 0, acc := .st, rst := 1024, rng := some (16, 65535) }
def SFE_SNAG_COMMIT_OVERRUN : Field := { off := 0x2c, hi := 2, lo := 2, acc := .w1c }
def SFE_SNAG_COMMIT_REJECT : Field := { off := 0x2c, hi := 1, lo := 1, acc := .w1c }
def SFE_SNAG_COMMIT_COMMIT : Field := { off := 0x2c, hi := 0, lo := 0, acc := .sc }
def SFE_FCCFG_POST : Field := { off := 0x30, hi := 27, lo := 16, acc := .st, rst := 1000, rng := some (0, 4000) }
def SFE_FCCFG_PRE : Field := { off := 0x30, hi := 10, lo := 0, acc := .st, rst := 500, rng := some (0, 2000) }
def SFE_FC_COMMIT_OVERRUN : Field := { off := 0x3c, hi := 2, lo := 2, acc := .w1c }
def SFE_FC_COMMIT_REJECT : Field := { off := 0x3c, hi := 1, lo := 1, acc := .w1c }
def SFE_FC_COMMIT_COMMIT : Field := { off := 0x3c, hi := 0, lo := 0, acc := .sc }
def SFE_TRIMn_ADC_GAIN : Field := { off := 0x40, hi := 23, lo := 16, st := 0x4, acc := .st, sgn := true }
def SFE_TRIMn_ADC_OFS : Field := { off := 0x40, hi := 15, lo := 8, st := 0x4, acc := .st, sgn := true }
def SFE_TRIMn_GBASE : Field := { off := 0x40, hi := 7, lo := 0, st := 0x4, acc := .st, sgn := true }
def SFE_LGAINl_CODE : Field := { off := 0x60, hi := 7, lo := 0, st := 0x4, acc := .st, rst := 96 }
def SFE_TRIM_COMMIT_OVERRUN : Field := { off := 0xa0, hi := 2, lo := 2, acc := .w1c }
def SFE_TRIM_COMMIT_REJECT : Field := { off := 0xa0, hi := 1, lo := 1, acc := .w1c }
def SFE_TRIM_COMMIT_COMMIT : Field := { off := 0xa0, hi := 0, lo := 0, acc := .sc }
def SFE_SPOTn_LOOP_ASYM : Field := { off := 0xb0, hi := 23, lo := 16, st := 0x8, acc := .rw, sgn := true }
def SFE_SPOTn_LOOP_OFS : Field := { off := 0xb0, hi := 15, lo := 8, st := 0x8, acc := .rw, sgn := true }
def SFE_SPOTn_LOOP_PGA : Field := { off := 0xb0, hi := 7, lo := 0, st := 0x8, acc := .rw, rst := 96 }
def SFE_SPOTn_MON_ENV : Field := { off := 0xb4, hi := 31, lo := 24, st := 0x8 }
def SFE_SPOTn_MON_MID : Field := { off := 0xb4, hi := 23, lo := 16, st := 0x8, sgn := true }
def SFE_SPOTn_MON_LSLOW : Field := { off := 0xb4, hi := 15, lo := 8, st := 0x8, sgn := true }
def SFE_SPOTn_MON_FCAST : Field := { off := 0xb4, hi := 1, lo := 1, st := 0x8 }
def SFE_SPOTn_MON_SNAG : Field := { off := 0xb4, hi := 0, lo := 0, st := 0x8 }
def SFE_CNTn_OWN : Field := { off := 0xf0, hi := 31, lo := 16, st := 0x4 }
def SFE_CNTn_CONFIRMED : Field := { off := 0xf0, hi := 15, lo := 0, st := 0x4 }
def SFE_FCCNT_FC_ISSUED : Field := { off := 0x110, hi := 31, lo := 16 }
def SFE_FCCNT_FC_MERGED : Field := { off := 0x110, hi := 15, lo := 0 }
def SFE_EVCNT_LONG_SNAGS : Field := { off := 0x114, hi := 31, lo := 24 }
def SFE_EVCNT_VEL_REPL : Field := { off := 0x114, hi := 23, lo := 16 }
def SFE_EVCNT_TEMP_REPL : Field := { off := 0x114, hi := 15, lo := 8 }
def SFE_CLIPCNT_CLIPS : Field := { off := 0x118, hi := 15, lo := 0 }
def SFE_TEMP_REPLACED : Field := { off := 0x11c, hi := 15, lo := 15 }
def SFE_TEMP_TEMP : Field := { off := 0x11c, hi := 11, lo := 0, sgn := true }

/-! Block LAT (chapter 04 of the spec). -/
def LAT_CTL_ENABLE : Field := { off := 0x0, hi := 16, lo := 16, acc := .rw }
def LAT_CTL_RETRY_ITER : Field := { off := 0x0, hi := 13, lo := 8, acc := .rw, rst := 20, rng := some (2, 32) }
def LAT_CTL_ITER : Field := { off := 0x0, hi := 4, lo := 0, acc := .rw, rst := 8, rng := some (2, 20) }
def LAT_ENG_STATUS_DET_LOAD : Field := { off := 0x4, hi := 31, lo := 24 }
def LAT_ENG_STATUS_LDPC_LOAD : Field := { off := 0x4, hi := 23, lo := 16 }
def LAT_ENG_STATUS_LDPC_QUEUE : Field := { off := 0x4, hi := 15, lo := 8 }
def LAT_ENG_STATUS_SLICES_WAITING : Field := { off := 0x4, hi := 7, lo := 0 }
def LAT_ENGCNT_SLICE_DROP : Field := { off := 0x8, hi := 31, lo := 16 }
def LAT_ENGCNT_LDPC_SKIP : Field := { off := 0x8, hi := 15, lo := 0 }
def LAT_LDPC_CNT_CW_FAIL : Field := { off := 0xc, hi := 31, lo := 16 }
def LAT_LDPC_CNT_CRC_FAIL : Field := { off := 0xc, hi := 15, lo := 0 }
def LAT_BAY_CTL_RETRY_MAX : Field := { off := 0x100, hi := 27, lo := 24, acc := .rw, rst := 3 }
def LAT_BAY_CTL_BORROWED : Field := { off := 0x100, hi := 14, lo := 8 }
def LAT_BAY_CTL_DET_EN : Field := { off := 0x100, hi := 6, lo := 0, acc := .rw }
def LAT_BAY_STATUS_TARGET : Field := { off := 0x104, hi := 17, lo := 16, rst := 1 }
def LAT_BAY_STATUS_RETRY : Field := { off := 0x104, hi := 8, lo := 8 }
def LAT_BAY_STATUS_LOCKED : Field := { off := 0x104, hi := 6, lo := 0 }
def LAT_CHCFG_EQ_MU : Field := { off := 0x110, hi := 31, lo := 28, acc := .st, rst := 11, rng := some (8, 15) }
def LAT_CHCFG_TRK_P : Field := { off := 0x110, hi := 27, lo := 24, acc := .st, rst := 5, rng := some (2, 10) }
def LAT_CHCFG_TRK_I : Field := { off := 0x110, hi := 23, lo := 20, acc := .st, rst := 11, rng := some (6, 15) }
def LAT_CHCFG_BLZ_WIN : Field := { off := 0x110, hi := 19, lo := 14, acc := .st, rst := 24, rng := some (8, 48) }
def LAT_CHCFG_BLZ_TOL : Field := { off := 0x110, hi := 13, lo := 11, acc := .st, rst := 2, rng := some (0, 4) }
def LAT_CHCFG_BER_WIN : Field := { off := 0x110, hi := 7, lo := 0, acc := .st, rst := 64, rng := some (1, 255) }
def LAT_WEIGHT_SNAG_W : Field := { off := 0x114, hi := 11, lo := 8, acc := .st, rng := some (0, 8) }
def LAT_WEIGHT_FCAST_W : Field := { off := 0x114, hi := 7, lo := 4, acc := .st, rst := 4, rng := some (0, 8) }
def LAT_WEIGHT_FLY_W : Field := { off := 0x114, hi := 3, lo := 0, acc := .st, rst := 4, rng := some (0, 8) }
def LAT_CH_COMMIT_OVERRUN : Field := { off := 0x11c, hi := 2, lo := 2, acc := .w1c }
def LAT_CH_COMMIT_REJECT : Field := { off := 0x11c, hi := 1, lo := 1, acc := .w1c }
def LAT_CH_COMMIT_COMMIT : Field := { off := 0x11c, hi := 0, lo := 0, acc := .sc }
def LAT_TARGET_SEL : Field := { off := 0x120, hi := 26, lo := 25, acc := .st, rst := 1, rng := some (0, 2) }
def LAT_TARGET_H0 : Field := { off := 0x120, hi := 24, lo := 20, acc := .st, rst := 1, sgn := true, rng := some (-8, 15) }
def LAT_TARGET_H1 : Field := { off := 0x120, hi := 19, lo := 15, acc := .st, rst := 2, sgn := true, rng := some (-8, 15) }
def LAT_TARGET_H2 : Field := { off := 0x120, hi := 14, lo := 10, acc := .st, rst := 3, sgn := true, rng := some (-8, 15) }
def LAT_TARGET_H3 : Field := { off := 0x120, hi := 9, lo := 5, acc := .st, rst := 2, sgn := true, rng := some (-8, 15) }
def LAT_TARGET_H4 : Field := { off := 0x120, hi := 4, lo := 0, acc := .st, rst := 1, sgn := true, rng := some (-8, 15) }
def LAT_TGT_COMMIT_OVERRUN : Field := { off := 0x12c, hi := 2, lo := 2, acc := .w1c }
def LAT_TGT_COMMIT_REJECT : Field := { off := 0x12c, hi := 1, lo := 1, acc := .w1c }
def LAT_TGT_COMMIT_COMMIT : Field := { off := 0x12c, hi := 0, lo := 0, acc := .sc }
def LAT_TAP_COMMIT_OVERRUN : Field := { off := 0x13c, hi := 2, lo := 2, acc := .w1c }
def LAT_TAP_COMMIT_REJECT : Field := { off := 0x13c, hi := 1, lo := 1, acc := .w1c }
def LAT_TAP_COMMIT_COMMIT : Field := { off := 0x13c, hi := 0, lo := 0, acc := .sc }
def LAT_SPOTk_SYNC_STATE : Field := { off := 0x140, hi := 31, lo := 30, st := 0x4 }
def LAT_SPOTk_SYNC_MISSES : Field := { off := 0x140, hi := 29, lo := 28, st := 0x4 }
def LAT_SPOTk_SYNC_FRAME : Field := { off := 0x140, hi := 21, lo := 16, st := 0x4 }
def LAT_SPOTk_SYNC_PERIOD : Field := { off := 0x140, hi := 15, lo := 0, st := 0x4 }
def LAT_SPOTk_SYNCCNT_MISSES : Field := { off := 0x160, hi := 31, lo := 24, st := 0x4 }
def LAT_SPOTk_SYNCCNT_DUAL : Field := { off := 0x160, hi := 23, lo := 16, st := 0x4 }
def LAT_SPOTk_SYNCCNT_DUAL_FAIL : Field := { off := 0x160, hi := 15, lo := 8, st := 0x4 }
def LAT_SPOTk_SYNCCNT_REACQ : Field := { off := 0x160, hi := 7, lo := 0, st := 0x4 }
def LAT_SPOTk_QUAL0_BITS : Field := { off := 0x180, hi := 31, lo := 0, st := 0x10 }
def LAT_SPOTk_QUAL1_ERRS : Field := { off := 0x184, hi := 31, lo := 0, st := 0x10 }
def LAT_SPOTk_QUAL2_MSE : Field := { off := 0x188, hi := 31, lo := 16, st := 0x10 }
def LAT_SPOTk_QUAL2_SEQ : Field := { off := 0x188, hi := 15, lo := 8, st := 0x10 }
def LAT_SPOTk_QUAL2_JITTER : Field := { off := 0x188, hi := 7, lo := 0, st := 0x10 }
def LAT_SPOTk_QUAL3_ITER_AVG : Field := { off := 0x18c, hi := 31, lo := 24, st := 0x10 }
def LAT_SPOTk_QUAL3_SEQ : Field := { off := 0x18c, hi := 23, lo := 16, st := 0x10 }
def LAT_SPOTk_QUAL3_CW_FAIL : Field := { off := 0x18c, hi := 15, lo := 0, st := 0x10 }
def LAT_LOGCNT_LOGS_CLEAN : Field := { off := 0x1f0, hi := 31, lo := 16 }
def LAT_LOGCNT_LOGS_REBUILT : Field := { off := 0x1f0, hi := 15, lo := 0 }
def LAT_BOARDCNT_BOARDS_ERASED : Field := { off := 0x1f4, hi := 31, lo := 16 }
def LAT_BOARDCNT_REBUILD_MISMATCH : Field := { off := 0x1f4, hi := 15, lo := 8 }
def LAT_BOARDCNT_EQ_CLAMP : Field := { off := 0x1f4, hi := 7, lo := 0 }
def LAT_RETRYCNT_RETRIES : Field := { off := 0x1f8, hi := 31, lo := 16 }
def LAT_RETRYCNT_LOGS_FAILED : Field := { off := 0x1f8, hi := 15, lo := 0 }
def LAT_LIVETAP_TAP : Field := { off := 0x3000, hi := 11, lo := 0, st := 0x4, rst := 1024, sgn := true }
def LAT_TAPTAB_TAP : Field := { off := 0x4000, hi := 11, lo := 0, st := 0x4, acc := .st, rst := 1024, sgn := true }

/-! Block RCD (chapter 05 of the spec). -/
def REC_CTL_SPEED : Field := { off := 0x0, hi := 17, lo := 16, acc := .rw, rst := 2, rng := some (0, 2) }
def REC_CTL_OPC_EN : Field := { off := 0x0, hi := 15, lo := 15, acc := .rw, rst := 1 }
def REC_CTL_ENABLE : Field := { off := 0x0, hi := 14, lo := 14, acc := .rw }
def REC_CTL_WI_FOC : Field := { off := 0x0, hi := 12, lo := 6, acc := .rw, rst := 40, rng := some (20, 100) }
def REC_CTL_WI_TRK : Field := { off := 0x0, hi := 5, lo := 0, acc := .rw, rst := 25, rng := some (10, 60) }
def REC_STATUS_OPC_RANGE : Field := { off := 0x4, hi := 16, lo := 16 }
def REC_STATUS_BARK_OK : Field := { off := 0x4, hi := 15, lo := 15 }
def REC_STATUS_LIMITED : Field := { off := 0x4, hi := 14, lo := 14 }
def REC_STATUS_OPC_EDGE : Field := { off := 0x4, hi := 13, lo := 13 }
def REC_STATUS_WI : Field := { off := 0x4, hi := 12, lo := 12 }
def REC_STATUS_STATE : Field := { off := 0x4, hi := 2, lo := 0 }
def REC_LIMIT_PWR_TOL : Field := { off := 0x8, hi := 31, lo := 27, acc := .rw, rst := 5, rng := some (1, 20) }
def REC_LIMIT_THERM_START : Field := { off := 0x8, hi := 26, lo := 19, acc := .rw, rst := 60, rng := some (40, 80) }
def REC_LIMIT_EYE_CEIL : Field := { off := 0x8, hi := 10, lo := 0, acc := .rw, rst := 1200, rng := some (40, 1600) }
def REC_OPC_RUN : Field := { off := 0xc, hi := 31, lo := 31, acc := .sc }
def REC_OPC_OPC_DELTA : Field := { off := 0xc, hi := 15, lo := 8, acc := .rw, rst := 80, rng := some (16, 240) }
def REC_OPC_MARGIN : Field := { off := 0xc, hi := 6, lo := 0, acc := .rw, rst := 67, rng := some (64, 96) }
def REC_SCALEk_SCALE : Field := { off := 0x10, hi := 10, lo := 0, st := 0x4, acc := .rw, rst := 1024, rng := some (512, 1536) }
def REC_CNT_LOGS_WRITTEN : Field := { off := 0x30, hi := 31, lo := 8 }
def REC_CNT_LOGS_PARTIAL : Field := { off := 0x30, hi := 7, lo := 0 }
def REC_CNT2_OPC_RUNS : Field := { off := 0x34, hi := 31, lo := 16 }
def REC_CNT2_LIMITED_LOGS : Field := { off := 0x34, hi := 15, lo := 8 }
def REC_CNT2_WI_STOPS : Field := { off := 0x34, hi := 7, lo := 0 }
def REC_STRAT_COMMIT_OVERRUN : Field := { off := 0x3c, hi := 2, lo := 2, acc := .w1c }
def REC_STRAT_COMMIT_REJECT : Field := { off := 0x3c, hi := 1, lo := 1, acc := .w1c }
def REC_STRAT_COMMIT_COMMIT : Field := { off := 0x3c, hi := 0, lo := 0, acc := .sc }
def REC_PWRTAB_PEAK : Field := { off := 0x800, hi := 27, lo := 16, st := 0x4, acc := .st, rst := 400, rng := some (40, 1600) }
def REC_PWRTAB_BIAS : Field := { off := 0x800, hi := 11, lo := 0, st := 0x4, acc := .st, rst := 40, rng := some (0, 800) }
def REC_STRAT_START : Field := { off := 0x1000, hi := 31, lo := 24, st := 0x4, acc := .st, sgn := true, rng := some (-16, 15) }
def REC_STRAT_TOP : Field := { off := 0x1000, hi := 23, lo := 16, st := 0x4, acc := .st, rst := 16, rng := some (4, 60) }
def REC_STRAT_MP : Field := { off := 0x1000, hi := 15, lo := 8, st := 0x4, acc := .st, rst := 12, rng := some (4, 28) }
def REC_STRAT_LAST : Field := { off := 0x1000, hi := 7, lo := 0, st := 0x4, acc := .st, rst := 14, rng := some (4, 44) }

/-! Block OSV (chapter 06 of the spec). -/
def TRN_OSV_CTL_SPIRAL_CHK : Field := { off := 0x0, hi := 4, lo := 4, acc := .rw, rst := 1 }
def TRN_OSV_CTL_SF_EN : Field := { off := 0x0, hi := 3, lo := 3, acc := .rw }
def TRN_OSV_CTL_TILT_EN : Field := { off := 0x0, hi := 2, lo := 2, acc := .rw }
def TRN_OSV_CTL_TRK_EN : Field := { off := 0x0, hi := 1, lo := 1, acc := .rw }
def TRN_OSV_CTL_FOC_EN : Field := { off := 0x0, hi := 0, lo := 0, acc := .rw }
def TRN_OSV_STATUS_LAYER : Field := { off := 0x4, hi := 31, lo := 28 }
def TRN_OSV_STATUS_FSTATE : Field := { off := 0x4, hi := 27, lo := 25 }
def TRN_OSV_STATUS_TSTATE : Field := { off := 0x4, hi := 24, lo := 22 }
def TRN_OSV_STATUS_TRIES : Field := { off := 0x4, hi := 21, lo := 20 }
def TRN_OSV_STATUS_MOVE : Field := { off := 0x4, hi := 19, lo := 16 }
def TRN_OSV_STATUS_PENDING : Field := { off := 0x4, hi := 2, lo := 2 }
def TRN_OSV_STATUS_SA_DONE : Field := { off := 0x4, hi := 1, lo := 1 }
def TRN_OSV_STATUS_VEL_VALID : Field := { off := 0x4, hi := 0, lo := 0 }
def TRN_MOVE_GO : Field := { off := 0x8, hi := 31, lo := 31, acc := .sc }
def TRN_MOVE_REPLACED : Field := { off := 0x8, hi := 30, lo := 30, acc := .w1c }
def TRN_MOVE_TYPE : Field := { off := 0x8, hi := 19, lo := 16, acc := .rw }
def TRN_MOVE_TURNS : Field := { off := 0x8, hi := 15, lo := 0, acc := .rw, sgn := true }
def TRN_MOVE_TGT_LAYER : Field := { off := 0xc, hi := 31, lo := 28, acc := .rw }
def TRN_MOVE_TGT_AREA : Field := { off := 0xc, hi := 27, lo := 26, acc := .rw, rng := some (0, 2) }
def TRN_MOVE_TGT_SLOT : Field := { off := 0xc, hi := 25, lo := 0, acc := .rw }
def TRN_FE_CFG_FE_SLOPE : Field := { off := 0x10, hi := 31, lo := 20, acc := .st, rst := 800, rng := some (100, 2000) }
def TRN_FE_CFG_FLOCK_TH : Field := { off := 0x10, hi := 19, lo := 12, acc := .st, rst := 30, rng := some (10, 200) }
def TRN_FE_CFG_LOSS_TH : Field := { off := 0x10, hi := 11, lo := 6, acc := .st, rst := 40, rng := some (10, 60) }
def TRN_FE_CFG_SUM_MIN : Field := { off := 0x10, hi := 5, lo := 0, acc := .st, rst := 8, rng := some (1, 63) }
def TRN_TE_CFG_TE_SLOPE : Field := { off := 0x14, hi := 31, lo := 23, acc := .st, rst := 60, rng := some (20, 400) }
def TRN_TE_CFG_TLOCK_TH : Field := { off := 0x14, hi := 22, lo := 16, acc := .st, rst := 20, rng := some (5, 60) }
def TRN_TE_CFG_K_LS : Field := { off := 0x14, hi := 11, lo := 0, acc := .st, rst := 256, sgn := true, rng := some (-1024, 1023) }
def TRN_CAP_CFG_FCAP_BAND : Field := { off := 0x18, hi := 31, lo := 24, acc := .st, rst := 75, rng := some (25, 200) }
def TRN_CAP_CFG_TCAP_BAND : Field := { off := 0x18, hi := 23, lo := 16, acc := .st, rst := 40, rng := some (10, 80) }
def TRN_CAP_CFG_FCAP_OUT : Field := { off := 0x18, hi := 15, lo := 8, acc := .st, rst := 32, rng := some (8, 128) }
def TRN_CAP_CFG_TCAP_OUT : Field := { off := 0x18, hi := 7, lo := 0, acc := .st, rst := 24, rng := some (8, 128) }
def TRN_SF_CFG_SF_BAND : Field := { off := 0x1c, hi := 31, lo := 24, acc := .st, rst := 8, rng := some (2, 32) }
def TRN_SF_CFG_SF_VEL : Field := { off := 0x1c, hi := 23, lo := 12, acc := .st, rst := 2000, rng := some (500, 4000) }
def TRN_SF_CFG_SF_TAU : Field := { off := 0x1c, hi := 11, lo := 4, acc := .st, rst := 20, rng := some (5, 200) }
def TRN_LJ_CFG_KICK_T : Field := { off := 0x24, hi := 31, lo := 24, acc := .st, rst := 120, rng := some (40, 250) }
def TRN_LJ_CFG_KICK_AMP : Field := { off := 0x24, hi := 23, lo := 16, acc := .st, rst := 64, rng := some (8, 255) }
def TRN_LJ_CFG_BRAKE_AMP : Field := { off := 0x24, hi := 15, lo := 8, acc := .st, rst := 64, rng := some (8, 255) }
def TRN_LJ_CFG_LJ_TIMEOUT : Field := { off := 0x24, hi := 7, lo := 0, acc := .st, rst := 150, rng := some (60, 150) }
def TRN_SEEK_CFG_FINE_RANGE : Field := { off := 0x28, hi := 31, lo := 24, acc := .st, rst := 64, rng := some (16, 64) }
def TRN_SEEK_CFG_TJ_KICK : Field := { off := 0x28, hi := 23, lo := 16, acc := .st, rst := 48, rng := some (8, 255) }
def TRN_SEEK_CFG_LAND_SHORT : Field := { off := 0x28, hi := 15, lo := 8, acc := .st, rst := 1, rng := some (0, 4) }
def TRN_SEEK_CFG_SEEK_TRIES : Field := { off := 0x28, hi := 7, lo := 0, acc := .st, rst := 3, rng := some (1, 8) }
def TRN_GEOM_RADIUS_OFS : Field := { off := 0x30, hi := 31, lo := 16, acc := .rw, rst := 23400, rng := some (20000, 26000) }
def TRN_GEOM_FINE_SENS : Field := { off := 0x30, hi := 15, lo := 8, acc := .rw, rst := 128, rng := some (32, 255) }
def TRN_RADIUS_RADIUS : Field := { off := 0x34, hi := 31, lo := 16 }
def TRN_RADIUS_SPEED : Field := { off := 0x34, hi := 15, lo := 0 }
def TRN_SRV_COMMIT_OVERRUN : Field := { off := 0x20, hi := 2, lo := 2, acc := .w1c }
def TRN_SRV_COMMIT_REJECT : Field := { off := 0x20, hi := 1, lo := 1, acc := .w1c }
def TRN_SRV_COMMIT_COMMIT : Field := { off := 0x20, hi := 0, lo := 0, acc := .sc }
def TRN_JMP_COMMIT_OVERRUN : Field := { off := 0x2c, hi := 2, lo := 2, acc := .w1c }
def TRN_JMP_COMMIT_REJECT : Field := { off := 0x2c, hi := 1, lo := 1, acc := .w1c }
def TRN_JMP_COMMIT_COMMIT : Field := { off := 0x2c, hi := 0, lo := 0, acc := .sc }
def TRN_LAY_COMMIT_OVERRUN : Field := { off := 0xc0, hi := 2, lo := 2, acc := .w1c }
def TRN_LAY_COMMIT_REJECT : Field := { off := 0xc0, hi := 1, lo := 1, acc := .w1c }
def TRN_LAY_COMMIT_COMMIT : Field := { off := 0xc0, hi := 0, lo := 0, acc := .sc }
def TRN_OSV_CNT_DEFECT_TURNS : Field := { off := 0x38, hi := 31, lo := 16 }
def TRN_OSV_CNT_FOC_LOSSES : Field := { off := 0x38, hi := 15, lo := 8 }
def TRN_OSV_CNT_TRK_LOSSES : Field := { off := 0x38, hi := 7, lo := 0 }
def TRN_OSV_CNT2_JUMP_FAILS : Field := { off := 0x3c, hi := 31, lo := 24 }
def TRN_OSV_CNT2_SPIRAL_CORR : Field := { off := 0x3c, hi := 23, lo := 16 }
def TRN_OSV_CNT2_REPLACED : Field := { off := 0x3c, hi := 15, lo := 8 }
def TRN_OSV_CNT2_SEEK_RETRIES : Field := { off := 0x3c, hi := 7, lo := 0 }
def TRN_LAYl_SA : Field := { off := 0x40, hi := 31, lo := 20, st := 0x4, acc := .st, rst := 2048 }
def TRN_LAYl_FOFS : Field := { off := 0x40, hi := 15, lo := 0, st := 0x4, acc := .st, sgn := true, rng := some (-1600, 1600) }
def TRN_TILTl_BAND3 : Field := { off := 0x80, hi := 31, lo := 24, st := 0x4, acc := .st, sgn := true, rng := some (-100, 100) }
def TRN_TILTl_BAND2 : Field := { off := 0x80, hi := 23, lo := 16, st := 0x4, acc := .st, sgn := true, rng := some (-100, 100) }
def TRN_TILTl_BAND1 : Field := { off := 0x80, hi := 15, lo := 8, st := 0x4, acc := .st, sgn := true, rng := some (-100, 100) }
def TRN_TILTl_BAND0 : Field := { off := 0x80, hi := 7, lo := 0, st := 0x4, acc := .st, sgn := true, rng := some (-100, 100) }

/-! Block TRN (chapter 07 of the spec). -/
def TRN_CTL_ENABLE : Field := { off := 0x0, hi := 16, lo := 16, acc := .rw }
def TRN_CTL_TURN_CYC : Field := { off := 0x0, hi := 11, lo := 0, acc := .rw, rst := 500 }
def TRN_STATUS_CLK_LOST : Field := { off := 0x4, hi := 2, lo := 2 }
def TRN_STATUS_SAFE : Field := { off := 0x4, hi := 1, lo := 1 }
def TRN_STATUS_RUNNING : Field := { off := 0x4, hi := 0, lo := 0 }
def TRN_LOAD_PEAK : Field := { off := 0x8, hi := 27, lo := 16 }
def TRN_LOAD_BUDGET : Field := { off := 0x8, hi := 11, lo := 0, rst := 460 }
def TRN_TURNCNT_COUNT : Field := { off := 0xc, hi := 31, lo := 0 }
def TRN_FAULT_LO_SLOTS : Field := { off := 0x10, hi := 31, lo := 0 }
def TRN_FAULT_HI_SLOTS : Field := { off := 0x14, hi := 15, lo := 0 }
def TRN_ENGCNT_SATS : Field := { off := 0x18, hi := 31, lo := 16 }
def TRN_ENGCNT_SEL_EMPTY : Field := { off := 0x18, hi := 15, lo := 0 }
def TRN_SELs_MLO_MEMBERS : Field := { off := 0x100, hi := 31, lo := 0, st := 0x20, acc := .st }
def TRN_SELs_MHI_MEMBERS : Field := { off := 0x104, hi := 15, lo := 0, st := 0x20, acc := .st }
def TRN_SELs_CFG_ENABLE : Field := { off := 0x108, hi := 31, lo := 31, st := 0x20, acc := .st }
def TRN_SELs_CFG_DST : Field := { off := 0x108, hi := 23, lo := 16, st := 0x20, acc := .st }
def TRN_SELs_CFG_HYST : Field := { off := 0x108, hi := 15, lo := 0, st := 0x20, acc := .st }
def TRN_SELs_SAFE_SAFE_OUT : Field := { off := 0x10c, hi := 15, lo := 0, st := 0x20, acc := .st, sgn := true }
def TRN_SELs_STATUS_OUT : Field := { off := 0x114, hi := 31, lo := 16, st := 0x20, sgn := true }
def TRN_SELs_STATUS_SELECTED : Field := { off := 0x114, hi := 13, lo := 8, st := 0x20, rst := 63 }
def TRN_SELs_STATUS_EMPTY : Field := { off := 0x114, hi := 7, lo := 7, st := 0x20 }
def TRN_SELs_CNT_SWITCHES : Field := { off := 0x118, hi := 31, lo := 16, st := 0x20 }
def TRN_SELs_CNT_EMPTIES : Field := { off := 0x118, hi := 15, lo := 0, st := 0x20 }
def TRN_SELs_COMMIT_OVERRUN : Field := { off := 0x110, hi := 2, lo := 2, st := 0x20, acc := .w1c }
def TRN_SELs_COMMIT_REJECT : Field := { off := 0x110, hi := 1, lo := 1, st := 0x20, acc := .w1c }
def TRN_SELs_COMMIT_COMMIT : Field := { off := 0x110, hi := 0, lo := 0, st := 0x20, acc := .sc }
def TRN_Sn_CFG_ENABLE : Field := { off := 0x1000, hi := 31, lo := 31, st := 0x40, acc := .st }
def TRN_Sn_CFG_BANK : Field := { off := 0x1000, hi := 30, lo := 30, st := 0x40, acc := .st }
def TRN_Sn_CFG_SAFE_RUN : Field := { off := 0x1000, hi := 29, lo := 29, st := 0x40, acc := .st }
def TRN_Sn_CFG_LAW : Field := { off := 0x1000, hi := 28, lo := 27, st := 0x40, acc := .st, rng := some (0, 2) }
def TRN_Sn_CFG_NB : Field := { off := 0x1000, hi := 26, lo := 24, st := 0x40, acc := .st, rng := some (0, 4) }
def TRN_Sn_CFG_RATE : Field := { off := 0x1000, hi := 23, lo := 21, st := 0x40, acc := .st, rng := some (0, 5) }
def TRN_Sn_CFG_PHASE : Field := { off := 0x1000, hi := 20, lo := 16, st := 0x40, acc := .st }
def TRN_Sn_CFG_SRC : Field := { off := 0x1000, hi := 15, lo := 8, st := 0x40, acc := .st }
def TRN_Sn_CFG_FAULT_ACT : Field := { off := 0x1000, hi := 7, lo := 6, st := 0x40, acc := .st }
def TRN_Sn_IO_HO_RATE : Field := { off := 0x1004, hi := 31, lo := 16, st := 0x40, acc := .st, rst := 256, rng := some (1, 65535) }
def TRN_Sn_IO_SP_SRC : Field := { off := 0x1004, hi := 15, lo := 8, st := 0x40, acc := .st }
def TRN_Sn_IO_DST : Field := { off := 0x1004, hi := 7, lo := 0, st := 0x40, acc := .st }
def TRN_Sn_OUTLIM_OUT_MAX : Field := { off := 0x1008, hi := 31, lo := 16, st := 0x40, acc := .st, rst := 32767, sgn := true }
def TRN_Sn_OUTLIM_OUT_MIN : Field := { off := 0x1008, hi := 15, lo := 0, st := 0x40, acc := .st, rst := 32768, sgn := true }
def TRN_Sn_ILIM_I_MAX : Field := { off := 0x100c, hi := 31, lo := 16, st := 0x40, acc := .st, rst := 32767, sgn := true }
def TRN_Sn_ILIM_I_MIN : Field := { off := 0x100c, hi := 15, lo := 0, st := 0x40, acc := .st, rst := 32768, sgn := true }
def TRN_Sn_TH_TH_UP : Field := { off := 0x1010, hi := 31, lo := 16, st := 0x40, acc := .st, rst := 256, sgn := true }
def TRN_Sn_TH_TH_DN : Field := { off := 0x1010, hi := 15, lo := 0, st := 0x40, acc := .st, rst := 65280, sgn := true }
def TRN_Sn_LVL_LVL_HI : Field := { off := 0x1014, hi := 31, lo := 16, st := 0x40, acc := .st, sgn := true }
def TRN_Sn_LVL_LVL_LO : Field := { off := 0x1014, hi := 15, lo := 0, st := 0x40, acc := .st, sgn := true }
def TRN_Sn_FERR_FE_LIM : Field := { off := 0x1018, hi := 31, lo := 16, st := 0x40, acc := .st }
def TRN_Sn_FERR_FE_REL : Field := { off := 0x1018, hi := 15, lo := 15, st := 0x40, acc := .st }
def TRN_Sn_FERR_FE_UNIT : Field := { off := 0x1018, hi := 14, lo := 14, st := 0x40, acc := .st }
def TRN_Sn_FERR_FE_TIME : Field := { off := 0x1018, hi := 13, lo := 0, st := 0x40, acc := .st }
def TRN_Sn_AUX_CB_HYST : Field := { off := 0x101c, hi := 15, lo := 0, st := 0x40, acc := .st }
def TRN_Sn_COMMIT_OVERRUN : Field := { off := 0x1020, hi := 2, lo := 2, st := 0x40, acc := .w1c }
def TRN_Sn_COMMIT_REJECT : Field := { off := 0x1020, hi := 1, lo := 1, st := 0x40, acc := .w1c }
def TRN_Sn_COMMIT_COMMIT : Field := { off := 0x1020, hi := 0, lo := 0, st := 0x40, acc := .sc }
def TRN_Sn_SET_SET : Field := { off := 0x1024, hi := 31, lo := 0, st := 0x40, acc := .rw, sgn := true }
def TRN_Sn_CMD_FVAL : Field := { off := 0x1028, hi := 31, lo := 16, st := 0x40, acc := .rw, sgn := true }
def TRN_Sn_CMD_CLEAR : Field := { off := 0x1028, hi := 1, lo := 1, st := 0x40, acc := .sc }
def TRN_Sn_CMD_FORCE : Field := { off := 0x1028, hi := 0, lo := 0, st := 0x40, acc := .rw }
def TRN_Sn_STATUS_STATE : Field := { off := 0x102c, hi := 18, lo := 16, st := 0x40 }
def TRN_Sn_STATUS_ABANK : Field := { off := 0x102c, hi := 14, lo := 14, st := 0x40 }
def TRN_Sn_STATUS_MODE : Field := { off := 0x102c, hi := 13, lo := 13, st := 0x40 }
def TRN_Sn_STATUS_BSTATE : Field := { off := 0x102c, hi := 12, lo := 12, st := 0x40 }
def TRN_Sn_STATUS_SLEWING : Field := { off := 0x102c, hi := 11, lo := 11, st := 0x40 }
def TRN_Sn_STATUS_ICLAMP : Field := { off := 0x102c, hi := 10, lo := 10, st := 0x40 }
def TRN_Sn_STATUS_OCLAMP : Field := { off := 0x102c, hi := 9, lo := 9, st := 0x40 }
def TRN_Sn_STATUS_SELECTED : Field := { off := 0x102c, hi := 8, lo := 8, st := 0x40 }
def TRN_Sn_STATUS_SAT : Field := { off := 0x102c, hi := 7, lo := 7, st := 0x40 }
def TRN_Sn_ERR_E : Field := { off := 0x1030, hi := 31, lo := 0, st := 0x40 }
def TRN_Sn_OUT_Y : Field := { off := 0x1034, hi := 31, lo := 0, st := 0x40 }
def TRN_Sn_INTEG_I : Field := { off := 0x1038, hi := 31, lo := 0, st := 0x40 }
def TRN_Sn_CNT_FAULTS : Field := { off := 0x103c, hi := 31, lo := 24, st := 0x40 }
def TRN_Sn_CNT_SLEWS : Field := { off := 0x103c, hi := 23, lo := 16, st := 0x40 }
def TRN_Sn_CNT_HELD : Field := { off := 0x103c, hi := 15, lo := 0, st := 0x40 }
def TRN_BANKA_K_K : Field := { off := 0x4000, hi := 31, lo := 0, st := 0x80, acc := .rw, rst := 65536, sgn := true }
def TRN_BANKA_KP_KP : Field := { off := 0x4004, hi := 31, lo := 0, st := 0x80, acc := .rw, sgn := true }
def TRN_BANKA_KI_KI : Field := { off := 0x4008, hi := 31, lo := 0, st := 0x80, acc := .rw, sgn := true }
def TRN_BANKA_B0_B0 : Field := { off := 0x4010, hi := 31, lo := 0, st := 0x14, st2 := 0x80, acc := .rw, rst := 0x10000000 }
def TRN_BANKA_B1_B1 : Field := { off := 0x4014, hi := 31, lo := 0, st := 0x14, st2 := 0x80, acc := .rw }
def TRN_BANKA_B2_B2 : Field := { off := 0x4018, hi := 31, lo := 0, st := 0x14, st2 := 0x80, acc := .rw }
def TRN_BANKA_A1_A1 : Field := { off := 0x401c, hi := 31, lo := 0, st := 0x14, st2 := 0x80, acc := .rw }
def TRN_BANKA_A2_A2 : Field := { off := 0x4020, hi := 31, lo := 0, st := 0x14, st2 := 0x80, acc := .rw }
def TRN_BANKB_K_K : Field := { off := 0x6000, hi := 31, lo := 0, st := 0x80, acc := .rw, rst := 65536, sgn := true }
def TRN_BANKB_KP_KP : Field := { off := 0x6004, hi := 31, lo := 0, st := 0x80, acc := .rw, sgn := true }
def TRN_BANKB_KI_KI : Field := { off := 0x6008, hi := 31, lo := 0, st := 0x80, acc := .rw, sgn := true }
def TRN_BANKB_B0_B0 : Field := { off := 0x6010, hi := 31, lo := 0, st := 0x14, st2 := 0x80, acc := .rw, rst := 0x10000000 }
def TRN_BANKB_B1_B1 : Field := { off := 0x6014, hi := 31, lo := 0, st := 0x14, st2 := 0x80, acc := .rw }
def TRN_BANKB_B2_B2 : Field := { off := 0x6018, hi := 31, lo := 0, st := 0x14, st2 := 0x80, acc := .rw }
def TRN_BANKB_A1_A1 : Field := { off := 0x601c, hi := 31, lo := 0, st := 0x14, st2 := 0x80, acc := .rw }
def TRN_BANKB_A2_A2 : Field := { off := 0x6020, hi := 31, lo := 0, st := 0x14, st2 := 0x80, acc := .rw }

/-! Block SPN (chapter 08 of the spec). -/
def SPN_CTL_CLR_FAULT : Field := { off := 0x0, hi := 2, lo := 2, acc := .sc }
def SPN_CTL_PARK : Field := { off := 0x0, hi := 1, lo := 1, acc := .rw, rst := 1 }
def SPN_CTL_ENABLE : Field := { off := 0x0, hi := 0, lo := 0, acc := .rw }
def SPN_CMD_MODE : Field := { off := 0x4, hi := 17, lo := 16, acc := .rw }
def SPN_CMD_TARGET : Field := { off := 0x4, hi := 15, lo := 0, acc := .rw, sgn := true }
def SPN_STATUS_STATE : Field := { off := 0x8, hi := 31, lo := 28 }
def SPN_STATUS_FAULT : Field := { off := 0x8, hi := 27, lo := 24 }
def SPN_STATUS_REFUSED : Field := { off := 0x8, hi := 15, lo := 15, acc := .w1c }
def SPN_STATUS_SAFE : Field := { off := 0x8, hi := 14, lo := 14 }
def SPN_STATUS_CLOCK_CFG : Field := { off := 0x8, hi := 13, lo := 13 }
def SPN_STATUS_OV_CLAMP : Field := { off := 0x8, hi := 12, lo := 12 }
def SPN_STATUS_CEIL_LIMITED : Field := { off := 0x8, hi := 11, lo := 11 }
def SPN_STATUS_PRED2 : Field := { off := 0x8, hi := 10, lo := 10 }
def SPN_STATUS_AT_SPEED : Field := { off := 0x8, hi := 9, lo := 9 }
def SPN_STATUS_VALID : Field := { off := 0x8, hi := 8, lo := 8 }
def SPN_SPEED_SPEED : Field := { off := 0xc, hi := 31, lo := 16 }
def SPN_SPEED_CONF : Field := { off := 0xc, hi := 15, lo := 8 }
def SPN_SPEED_BACKWARD : Field := { off := 0xc, hi := 0, lo := 0 }
def SPN_CURRENT_IQ_REF : Field := { off := 0x10, hi := 31, lo := 16, sgn := true }
def SPN_CURRENT_IQ : Field := { off := 0x10, hi := 15, lo := 0, sgn := true }
def SPN_MEAS_VBR : Field := { off := 0x14, hi := 31, lo := 16 }
def SPN_MEAS_TWIND : Field := { off := 0x14, hi := 15, lo := 0, sgn := true }
def SPN_CEIL_IN_RELAY_EN : Field := { off := 0x18, hi := 31, lo := 31, acc := .rw }
def SPN_CEIL_IN_STALE : Field := { off := 0x18, hi := 30, lo := 30 }
def SPN_CEIL_IN_SAFE_FRAC : Field := { off := 0x18, hi := 26, lo := 16, acc := .rw, rst := 512, rng := some (0, 1024) }
def SPN_CEIL_IN_FRAC : Field := { off := 0x18, hi := 10, lo := 0, acc := .rw, rst := 1024, rng := some (0, 1024) }
def SPN_MOTOR0_RS : Field := { off := 0x20, hi := 31, lo := 16, acc := .st, rst := 300, rng := some (50, 20000) }
def SPN_MOTOR0_LS : Field := { off := 0x20, hi := 15, lo := 0, acc := .st, rst := 50, rng := some (10, 20000) }
def SPN_MOTOR1_CUR_BW : Field := { off := 0x24, hi := 31, lo := 24, acc := .st, rst := 50, rng := some (10, 80) }
def SPN_MOTOR1_PSI : Field := { off := 0x24, hi := 15, lo := 0, acc := .st, rst := 600, rng := some (50, 20000) }
def SPN_PWM_DEADTIME : Field := { off := 0x28, hi := 31, lo := 24, acc := .st, rst := 20, rng := some (10, 100) }
def SPN_PWM_SHUNT_MIN : Field := { off := 0x28, hi := 23, lo := 16, acc := .st, rst := 65, rng := some (65, 200) }
def SPN_PWM_MOD_MAX : Field := { off := 0x28, hi := 15, lo := 8, acc := .st, rst := 244, rng := some (192, 252) }
def SPN_PWM_SHUNT_SCALE : Field := { off := 0x28, hi := 7, lo := 0, acc := .st, rst := 5, rng := some (1, 32) }
def SPN_START_OPEN_I : Field := { off := 0x30, hi := 31, lo := 24, acc := .st, rst := 120, rng := some (4, 240) }
def SPN_START_ALIGN_T : Field := { off := 0x30, hi := 23, lo := 16, acc := .st, rst := 50, rng := some (0, 200) }
def SPN_START_OPEN_ACC : Field := { off := 0x30, hi := 15, lo := 8, acc := .st, rst := 30, rng := some (5, 100) }
def SPN_START_OPEN_MAX : Field := { off := 0x30, hi := 7, lo := 0, acc := .st, rst := 120, rng := some (30, 200) }
def SPN_START2_IPD_I : Field := { off := 0x34, hi := 31, lo := 24, acc := .st, rst := 60, rng := some (10, 200) }
def SPN_START2_OPEN_T : Field := { off := 0x34, hi := 23, lo := 16, acc := .st, rst := 100, rng := some (20, 250) }
def SPN_START2_START_TRIES : Field := { off := 0x34, hi := 15, lo := 8, acc := .st, rst := 2, rng := some (1, 5) }
def SPN_START2_CATCH_T : Field := { off := 0x34, hi := 7, lo := 0, acc := .st, rst := 40, rng := some (10, 100) }
def SPN_OBS_OBS_CONF : Field := { off := 0x38, hi := 31, lo := 24, acc := .st, rst := 160, rng := some (64, 240) }
def SPN_OBS_OBS_LOSS : Field := { off := 0x38, hi := 23, lo := 16, acc := .st, rst := 96, rng := some (16, 200) }
def SPN_OBS_GAMMA : Field := { off := 0x38, hi := 15, lo := 8, acc := .st, rst := 32, rng := some (1, 255) }
def SPN_OBS_RELOCK_CYC : Field := { off := 0x38, hi := 7, lo := 0, acc := .st, rst := 4, rng := some (2, 16) }
def SPN_LIM_IQ_MAX : Field := { off := 0x3c, hi := 31, lo := 16, acc := .st, rst := 6000, rng := some (500, 20000) }
def SPN_LIM_OC_LIM : Field := { off := 0x3c, hi := 15, lo := 0, acc := .st, rst := 10000, rng := some (1000, 30000) }
def SPN_LIM2_ACC_IQ : Field := { off := 0x40, hi := 31, lo := 16, acc := .st, rst := 5000, rng := some (0, 20000) }
def SPN_LIM2_DEC_IQ : Field := { off := 0x40, hi := 15, lo := 0, acc := .st, rst := 5000, rng := some (0, 20000) }
def SPN_SUPPLY_OV_TRIP : Field := { off := 0x44, hi := 31, lo := 24, acc := .st, rst := 150, rng := some (110, 300) }
def SPN_SUPPLY_OV_CLAMP : Field := { off := 0x44, hi := 23, lo := 16, acc := .st, rst := 140, rng := some (100, 290) }
def SPN_SUPPLY_OV_BAND : Field := { off := 0x44, hi := 15, lo := 8, acc := .st, rst := 20, rng := some (4, 100) }
def SPN_SUPPLY_UV_TRIP : Field := { off := 0x44, hi := 7, lo := 0, acc := .st, rst := 90, rng := some (60, 200) }
def SPN_RUN_IDLE_RPM : Field := { off := 0x48, hi := 31, lo := 16, acc := .st, rst := 3000, rng := some (1000, 6000) }
def SPN_RUN_ACC_RAMP : Field := { off := 0x48, hi := 15, lo := 8, acc := .st, rst := 70, rng := some (5, 150) }
def SPN_RUN_DEC_BAND : Field := { off := 0x48, hi := 7, lo := 0, acc := .st, rst := 10, rng := some (1, 100) }
def SPN_BUDGET_P_BUDGET : Field := { off := 0x4c, hi := 31, lo := 24, acc := .st, rst := 40, rng := some (5, 200) }
def SPN_BUDGET_STOP_SHORT : Field := { off := 0x4c, hi := 23, lo := 16, acc := .st, rst := 40, rng := some (10, 60) }
def SPN_BUDGET_RTH : Field := { off := 0x4c, hi := 15, lo := 8, acc := .st, rst := 80, rng := some (5, 250) }
def SPN_BUDGET_TAU : Field := { off := 0x4c, hi := 7, lo := 0, acc := .st, rst := 60, rng := some (5, 250) }
def SPN_CNT_STARTS : Field := { off := 0x60, hi := 31, lo := 24 }
def SPN_CNT_CATCHES : Field := { off := 0x60, hi := 23, lo := 16 }
def SPN_CNT_OBS_LOSSES : Field := { off := 0x60, hi := 15, lo := 8 }
def SPN_CNT_RELOCKS : Field := { off := 0x60, hi := 7, lo := 0 }
def SPN_CNT2_SHIFTS : Field := { off := 0x64, hi := 31, lo := 16 }
def SPN_CNT2_OV_TRIPS : Field := { off := 0x64, hi := 15, lo := 8 }
def SPN_CNT2_REFUSED : Field := { off := 0x64, hi := 7, lo := 0 }
def SPN_CNT3_PRED2 : Field := { off := 0x68, hi := 31, lo := 16 }
def SPN_CNT3_IPD_WEAK : Field := { off := 0x68, hi := 15, lo := 12 }
def SPN_CNT3_CATCH_FAILS : Field := { off := 0x68, hi := 11, lo := 8 }
def SPN_CNT3_CEIL_STALE : Field := { off := 0x68, hi := 7, lo := 4 }
def SPN_CNT3_FAULTS : Field := { off := 0x68, hi := 3, lo := 0 }
def SPN_CEIL_CFG_MODE : Field := { off := 0x80, hi := 31, lo := 30, acc := .st }
def SPN_CEIL_CFG_TAU : Field := { off := 0x80, hi := 23, lo := 16, acc := .st, rst := 10, rng := some (1, 200) }
def SPN_CEIL_CFG_SAFE_FRAC : Field := { off := 0x80, hi := 10, lo := 0, acc := .st, rst := 512, rng := some (0, 1024) }
def SPN_CEIL_SCALE_LO : Field := { off := 0x84, hi := 31, lo := 16, acc := .st, rst := 300 }
def SPN_CEIL_SCALE_HI : Field := { off := 0x84, hi := 15, lo := 0, acc := .st, rst := 3000 }
def SPN_CEIL_STATUS_VALID : Field := { off := 0x90, hi := 31, lo := 31 }
def SPN_CEIL_STATUS_REPLACED : Field := { off := 0x90, hi := 30, lo := 30 }
def SPN_CEIL_STATUS_FRAC : Field := { off := 0x90, hi := 26, lo := 16, rst := 1024 }
def SPN_CEIL_STATUS_RAW : Field := { off := 0x90, hi := 15, lo := 0 }
def SPN_CEIL_CNT_INVALID : Field := { off := 0x94, hi := 31, lo := 16 }
def SPN_CEIL_CNT_CLAMPS : Field := { off := 0x94, hi := 15, lo := 8 }
def SPN_CEIL_CNT_REPLACEMENTS : Field := { off := 0x94, hi := 7, lo := 0 }
def SPN_MOTOR_COMMIT_OVERRUN : Field := { off := 0x2c, hi := 2, lo := 2, acc := .w1c }
def SPN_MOTOR_COMMIT_REJECT : Field := { off := 0x2c, hi := 1, lo := 1, acc := .w1c }
def SPN_MOTOR_COMMIT_COMMIT : Field := { off := 0x2c, hi := 0, lo := 0, acc := .sc }
def SPN_DRIVE_COMMIT_OVERRUN : Field := { off := 0x5c, hi := 2, lo := 2, acc := .w1c }
def SPN_DRIVE_COMMIT_REJECT : Field := { off := 0x5c, hi := 1, lo := 1, acc := .w1c }
def SPN_DRIVE_COMMIT_COMMIT : Field := { off := 0x5c, hi := 0, lo := 0, acc := .sc }
def SPN_CEIL_COMMIT_OVERRUN : Field := { off := 0x8c, hi := 2, lo := 2, acc := .w1c }
def SPN_CEIL_COMMIT_REJECT : Field := { off := 0x8c, hi := 1, lo := 1, acc := .w1c }
def SPN_CEIL_COMMIT_COMMIT : Field := { off := 0x8c, hi := 0, lo := 0, acc := .sc }

/-! Block AXP (chapter 09 of the spec). -/
def AXP_An_CTL_ENABLE : Field := { off := 0x0, hi := 31, lo := 31, st := 0x80, acc := .rw }
def AXP_An_CTL_DIR_INV : Field := { off := 0x0, hi := 30, lo := 30, st := 0x80, acc := .rw }
def AXP_An_CTL_MODE : Field := { off := 0x0, hi := 29, lo := 28, st := 0x80, acc := .rw, rng := some (0, 1) }
def AXP_An_CMD_GO : Field := { off := 0x4, hi := 31, lo := 31, st := 0x80, acc := .sc }
def AXP_An_CMD_OP : Field := { off := 0x4, hi := 30, lo := 28, st := 0x80, acc := .rw }
def AXP_An_TARGET_TARGET : Field := { off := 0x8, hi := 31, lo := 0, st := 0x80, acc := .rw, sgn := true }
def AXP_An_POS_POS : Field := { off := 0xc, hi := 31, lo := 0, st := 0x80, sgn := true }
def AXP_An_VEL_VEL : Field := { off := 0x10, hi := 31, lo := 0, st := 0x80, sgn := true }
def AXP_An_STATUS_STATE : Field := { off := 0x14, hi := 31, lo := 28, st := 0x80 }
def AXP_An_STATUS_HPHASE : Field := { off := 0x14, hi := 27, lo := 24, st := 0x80 }
def AXP_An_STATUS_REFUSE : Field := { off := 0x14, hi := 23, lo := 20, st := 0x80 }
def AXP_An_STATUS_FAULT : Field := { off := 0x14, hi := 19, lo := 16, st := 0x80 }
def AXP_An_STATUS_REFUSED : Field := { off := 0x14, hi := 15, lo := 15, st := 0x80, acc := .w1c }
def AXP_An_STATUS_HOMED : Field := { off := 0x14, hi := 14, lo := 14, st := 0x80 }
def AXP_An_STATUS_AT_SOFT : Field := { off := 0x14, hi := 13, lo := 13, st := 0x80 }
def AXP_An_STATUS_LIM : Field := { off := 0x14, hi := 12, lo := 11, st := 0x80 }
def AXP_An_STATUS_HOME_SW : Field := { off := 0x14, hi := 10, lo := 10, st := 0x80 }
def AXP_An_STATUS_REVERSED : Field := { off := 0x14, hi := 9, lo := 9, st := 0x80 }
def AXP_An_REMAIN_REMAIN : Field := { off := 0x18, hi := 31, lo := 0, st := 0x80, sgn := true }
def AXP_An_CAPTURE_CAPTURE : Field := { off := 0x1c, hi := 31, lo := 0, st := 0x80, sgn := true }
def AXP_An_VMAX_VMAX : Field := { off := 0x20, hi := 19, lo := 0, st := 0x80, acc := .st, rst := 1000, rng := some (1, 1000000) }
def AXP_An_AMAX_AMAX : Field := { off := 0x24, hi := 23, lo := 0, st := 0x80, acc := .st, rst := 10, rng := some (1, 16777215) }
def AXP_An_JMAX_JMAX : Field := { off := 0x28, hi := 23, lo := 0, st := 0x80, acc := .st, rst := 1, rng := some (1, 16777215) }
def AXP_An_SOFT_MIN_SOFT_MIN : Field := { off := 0x2c, hi := 31, lo := 0, st := 0x80, acc := .st, rst := 0x80000000, sgn := true }
def AXP_An_SOFT_MAX_SOFT_MAX : Field := { off := 0x30, hi := 31, lo := 0, st := 0x80, acc := .st, rst := 0x7fffffff, sgn := true }
def AXP_An_HOMECFG_HOME_DIR : Field := { off := 0x34, hi := 31, lo := 31, st := 0x80, acc := .st }
def AXP_An_HOMECFG_HOME_EN : Field := { off := 0x34, hi := 30, lo := 30, st := 0x80, acc := .st, rst := 1 }
def AXP_An_HOMECFG_BACKOFF : Field := { off := 0x34, hi := 23, lo := 0, st := 0x80, acc := .st, rst := 1000, rng := some (1, 16777215) }
def AXP_An_HOMEVEL_HOME_VEL : Field := { off := 0x38, hi := 31, lo := 16, st := 0x80, acc := .st, rst := 32, rng := some (1, 62500) }
def AXP_An_HOMEVEL_HOME_SLOW : Field := { off := 0x38, hi := 15, lo := 0, st := 0x80, acc := .st, rst := 100, rng := some (1, 65535) }
def AXP_An_HOMEPOS_HOME_POS : Field := { off := 0x3c, hi := 31, lo := 0, st := 0x80, acc := .st, sgn := true }
def AXP_An_SWCFG_FILT : Field := { off := 0x40, hi := 31, lo := 24, st := 0x80, acc := .st, rst := 10, rng := some (1, 200) }
def AXP_An_SWCFG_CHAT_N : Field := { off := 0x40, hi := 23, lo := 16, st := 0x80, acc := .st, rst := 4, rng := some (2, 32) }
def AXP_An_SWCFG_CHAT_WIN : Field := { off := 0x40, hi := 15, lo := 0, st := 0x80, acc := .st, rst := 50, rng := some (1, 1000) }
def AXP_An_STEPCFG_DIR_SETUP : Field := { off := 0x44, hi := 31, lo := 16, st := 0x80, acc := .st, rst := 100, rng := some (20, 1000) }
def AXP_An_STEPCFG_STEP_W : Field := { off := 0x44, hi := 15, lo := 0, st := 0x80, acc := .st, rst := 20, rng := some (10, 200) }
def AXP_An_CNT_REFUSALS : Field := { off := 0x50, hi := 31, lo := 24, st := 0x80 }
def AXP_An_CNT_LIMIT_TRIPS : Field := { off := 0x50, hi := 23, lo := 16, st := 0x80 }
def AXP_An_CNT_CHATTERS : Field := { off := 0x50, hi := 15, lo := 8, st := 0x80 }
def AXP_An_CNT_HOMINGS : Field := { off := 0x50, hi := 7, lo := 0, st := 0x80 }
def AXP_An_COMMIT_OVERRUN : Field := { off := 0x4c, hi := 2, lo := 2, st := 0x80, acc := .w1c }
def AXP_An_COMMIT_REJECT : Field := { off := 0x4c, hi := 1, lo := 1, st := 0x80, acc := .w1c }
def AXP_An_COMMIT_COMMIT : Field := { off := 0x4c, hi := 0, lo := 0, st := 0x80, acc := .sc }
def AXP_GRPg_CFG_ENABLE : Field := { off := 0x400, hi := 31, lo := 31, st := 0x20, acc := .st }
def AXP_GRPg_CFG_MEMBERS : Field := { off := 0x400, hi := 7, lo := 0, st := 0x20, acc := .st }
def AXP_GRPg_CMD_GO : Field := { off := 0x404, hi := 31, lo := 31, st := 0x20, acc := .sc }
def AXP_GRPg_CMD_OP : Field := { off := 0x404, hi := 30, lo := 28, st := 0x20, acc := .rw }
def AXP_GRPg_STATUS_STATE : Field := { off := 0x408, hi := 31, lo := 28, st := 0x20 }
def AXP_GRPg_STATUS_REFUSE : Field := { off := 0x408, hi := 27, lo := 24, st := 0x20 }
def AXP_GRPg_STATUS_REFUSED : Field := { off := 0x408, hi := 23, lo := 23, st := 0x20, acc := .w1c }
def AXP_GRPg_STATUS_LEAD : Field := { off := 0x408, hi := 2, lo := 0, st := 0x20 }
def AXP_GRPg_REMAIN_REMAIN : Field := { off := 0x40c, hi := 31, lo := 0, st := 0x20 }
def AXP_GRPg_COMMIT_OVERRUN : Field := { off := 0x41c, hi := 2, lo := 2, st := 0x20, acc := .w1c }
def AXP_GRPg_COMMIT_REJECT : Field := { off := 0x41c, hi := 1, lo := 1, st := 0x20, acc := .w1c }
def AXP_GRPg_COMMIT_COMMIT : Field := { off := 0x41c, hi := 0, lo := 0, st := 0x20, acc := .sc }
def AXP_SW_LEVEL : Field := { off := 0x500, hi := 11, lo := 0 }

/-! Block YRD (chapter 09 of the spec). -/
def YRD_CTL_ENABLE : Field := { off := 0x0, hi := 31, lo := 31, acc := .rw }
def YRD_CTL_AUTO_INV : Field := { off := 0x0, hi := 30, lo := 30, acc := .rw, rst := 1 }
def YRD_STATUS_STATE : Field := { off := 0x4, hi := 31, lo := 28 }
def YRD_STATUS_STEP : Field := { off := 0x4, hi := 27, lo := 24 }
def YRD_STATUS_DOOR : Field := { off := 0x4, hi := 2, lo := 2 }
def YRD_STATUS_HOLDING : Field := { off := 0x4, hi := 1, lo := 1 }
def YRD_STATUS_HOMED : Field := { off := 0x4, hi := 0, lo := 0 }
def YRD_DOOR_DOOR_FILT : Field := { off := 0x8, hi := 31, lo := 24, acc := .rw, rst := 20, rng := some (5, 200) }
def YRD_DOOR_DOOR_SETTLE : Field := { off := 0x8, hi := 23, lo := 16, acc := .rw, rst := 20, rng := some (5, 100) }
def YRD_DOOR_DOOR_TIMEOUT : Field := { off := 0x8, hi := 15, lo := 0, acc := .rw, rst := 120, rng := some (10, 600) }
def YRD_LAST_SRC : Field := { off := 0xc, hi := 31, lo := 19 }
def YRD_LAST_DST : Field := { off := 0xc, hi := 18, lo := 6 }
def YRD_LAST_RESULT : Field := { off := 0xc, hi := 5, lo := 0 }
def YRD_CNT_TRANSFERS : Field := { off := 0x10, hi := 31, lo := 16 }
def YRD_CNT_DROPS : Field := { off := 0x10, hi := 15, lo := 8 }
def YRD_CNT_DOOR_OPENS : Field := { off := 0x10, hi := 7, lo := 0 }
def YRD_GEOM_DECKS : Field := { off := 0x20, hi := 20, lo := 16, acc := .st, rng := some (0, 16) }
def YRD_GEOM_Z_PITCH : Field := { off := 0x20, hi := 15, lo := 0, acc := .st, rst := 600, rng := some (100, 2000) }
def YRD_TANG_T_SIDE_A : Field := { off := 0x24, hi := 31, lo := 16, acc := .st, rst := 1800, sgn := true }
def YRD_TANG_T_SIDE_B : Field := { off := 0x24, hi := 15, lo := 0, acc := .st, rst := 63736, sgn := true }
def YRD_MOTION_APPROACH_DZ : Field := { off := 0x28, hi := 31, lo := 16, acc := .st, rst := 200, rng := some (50, 1000) }
def YRD_MOTION_LIFT_DZ : Field := { off := 0x28, hi := 15, lo := 0, acc := .st, rst := 150, rng := some (50, 1000) }
def YRD_GRIP_GRIP_COMP : Field := { off := 0x2c, hi := 31, lo := 16, acc := .st, rst := 40, rng := some (8, 400) }
def YRD_GRIP_GRIP_RANGE : Field := { off := 0x2c, hi := 15, lo := 0, acc := .st, rst := 2000, rng := some (100, 10000) }
def YRD_DECKd_X_SIDE : Field := { off := 0x100, hi := 31, lo := 31, st := 0x8, acc := .st }
def YRD_DECKd_X_X : Field := { off := 0x100, hi := 17, lo := 0, st := 0x8, acc := .st }
def YRD_DECKd_Z_Z : Field := { off := 0x104, hi := 17, lo := 0, st := 0x8, acc := .st }
def YRD_BAYb_X_SIDE : Field := { off := 0x180, hi := 31, lo := 31, st := 0x8, acc := .st }
def YRD_BAYb_X_X : Field := { off := 0x180, hi := 17, lo := 0, st := 0x8, acc := .st }
def YRD_BAYb_Z_Z : Field := { off := 0x184, hi := 17, lo := 0, st := 0x8, acc := .st }
def YRD_MAILm_X_SIDE : Field := { off := 0x1e0, hi := 31, lo := 31, st := 0x8, acc := .st }
def YRD_MAILm_X_X : Field := { off := 0x1e0, hi := 17, lo := 0, st := 0x8, acc := .st }
def YRD_MAILm_Z_Z : Field := { off := 0x1e4, hi := 17, lo := 0, st := 0x8, acc := .st }
def YRD_GEOM_COMMIT_OVERRUN : Field := { off := 0x23c, hi := 2, lo := 2, acc := .w1c }
def YRD_GEOM_COMMIT_REJECT : Field := { off := 0x23c, hi := 1, lo := 1, acc := .w1c }
def YRD_GEOM_COMMIT_COMMIT : Field := { off := 0x23c, hi := 0, lo := 0, acc := .sc }

/-! Block CRU (chapter 10 of the spec). -/
def CRU_CTL_ENABLE : Field := { off := 0x0, hi := 16, lo := 16, acc := .rw }
def CRU_CTL_NOW : Field := { off := 0x0, hi := 15, lo := 15, acc := .sc }
def CRU_CTL_CLASS0_HOLD : Field := { off := 0x0, hi := 14, lo := 14, acc := .rw }
def CRU_CTL_AUTO : Field := { off := 0x0, hi := 13, lo := 13, acc := .rw, rst := 1 }
def CRU_CTL_ITEM_EN : Field := { off := 0x0, hi := 6, lo := 0, acc := .rw, rst := 127 }
def CRU_STATUS_STATE : Field := { off := 0x4, hi := 31, lo := 29 }
def CRU_STATUS_SPOT : Field := { off := 0x4, hi := 28, lo := 26, rst := 7 }
def CRU_STATUS_ITEM : Field := { off := 0x4, hi := 25, lo := 23, rst := 7 }
def CRU_STATUS_LAYER : Field := { off := 0x4, hi := 22, lo := 19 }
def CRU_STATUS_PENDING : Field := { off := 0x4, hi := 18, lo := 15 }
def CRU_STATUS_STARVED : Field := { off := 0x4, hi := 14, lo := 14 }
def CRU_STATUS_LAST_CAUSE : Field := { off := 0x4, hi := 13, lo := 11 }
def CRU_STATUS_ATTEMPT : Field := { off := 0x4, hi := 10, lo := 8 }
def CRU_TEMPREF_TOPT_REF : Field := { off := 0x8, hi := 31, lo := 16, sgn := true }
def CRU_TEMPREF_TDIE_REF : Field := { off := 0x8, hi := 15, lo := 0, sgn := true }
def CRU_LAYERS_DONE : Field := { off := 0xc, hi := 15, lo := 0 }
def CRU_CFG_CRU_DELTA : Field := { off := 0x10, hi := 31, lo := 24, acc := .st, rst := 48, rng := some (8, 160) }
def CRU_CFG_MEAS_EXP : Field := { off := 0x10, hi := 23, lo := 20, acc := .st, rst := 4, rng := some (2, 6) }
def CRU_CFG_CRU_SETTLE : Field := { off := 0x10, hi := 19, lo := 12, acc := .st, rst := 20, rng := some (5, 200) }
def CRU_CFG_CRU_WAIT : Field := { off := 0x10, hi := 11, lo := 0, acc := .st, rst := 60, rng := some (5, 600) }
def CRU_STEP_FOC_STEP : Field := { off := 0x14, hi := 31, lo := 24, acc := .st, rst := 10, rng := some (4, 40) }
def CRU_STEP_SA_STEP : Field := { off := 0x14, hi := 23, lo := 16, acc := .st, rst := 8, rng := some (2, 64) }
def CRU_STEP_TILT_STEP : Field := { off := 0x14, hi := 15, lo := 8, acc := .st, rst := 5, rng := some (1, 20) }
def CRU_STEP_RP_STEP : Field := { off := 0x14, hi := 7, lo := 0, acc := .st, rst := 8, rng := some (2, 20) }
def CRU_FLAGS_ASYM : Field := { off := 0x20, hi := 27, lo := 21, acc := .w1c }
def CRU_FLAGS_RPWR : Field := { off := 0x20, hi := 20, lo := 14, acc := .w1c }
def CRU_FLAGS_ADC : Field := { off := 0x20, hi := 13, lo := 7, acc := .w1c }
def CRU_FLAGS_LAYER : Field := { off := 0x20, hi := 3, lo := 0, acc := .w1c }
def CRU_CNT_RUNS : Field := { off := 0x24, hi := 31, lo := 16 }
def CRU_CNT_ITEMS_FLAGGED : Field := { off := 0x24, hi := 15, lo := 8 }
def CRU_CNT_RETRY_PAUSES : Field := { off := 0x24, hi := 7, lo := 0 }
def CRU_CNT2_ATTEMPTS_FAILED : Field := { off := 0x2c, hi := 31, lo := 16 }
def CRU_CNT2_ABORTS : Field := { off := 0x2c, hi := 15, lo := 8 }
def CRU_CNT2_STARVATIONS : Field := { off := 0x2c, hi := 7, lo := 0 }
def CRU_BAY_Q_PIPS : Field := { off := 0x30, hi := 29, lo := 24 }
def CRU_BAY_Q_TRES : Field := { off := 0x30, hi := 15, lo := 8 }
def CRU_BAY_Q_SEQ : Field := { off := 0x30, hi := 7, lo := 0 }
def CRU_RPWRk_RPWR : Field := { off := 0x40, hi := 7, lo := 0, st := 0x4, acc := .st, rst := 24, rng := some (8, 120) }
def CRU_SPOTk_Q_PIPS : Field := { off := 0x60, hi := 29, lo := 24, st := 0x4 }
def CRU_SPOTk_Q_BER_LOG : Field := { off := 0x60, hi := 23, lo := 16, st := 0x4 }
def CRU_SPOTk_Q_EYE : Field := { off := 0x60, hi := 14, lo := 8, st := 0x4 }
def CRU_SPOTk_Q_SEQ : Field := { off := 0x60, hi := 7, lo := 0, st := 0x4 }
def CRU_CFG_COMMIT_OVERRUN : Field := { off := 0x1c, hi := 2, lo := 2, acc := .w1c }
def CRU_CFG_COMMIT_REJECT : Field := { off := 0x1c, hi := 1, lo := 1, acc := .w1c }
def CRU_CFG_COMMIT_COMMIT : Field := { off := 0x1c, hi := 0, lo := 0, acc := .sc }
def CRU_RP_COMMIT_OVERRUN : Field := { off := 0x5c, hi := 2, lo := 2, acc := .w1c }
def CRU_RP_COMMIT_REJECT : Field := { off := 0x5c, hi := 1, lo := 1, acc := .w1c }
def CRU_RP_COMMIT_COMMIT : Field := { off := 0x5c, hi := 0, lo := 0, acc := .sc }

/-! Block LND (chapter 11 of the spec). -/
def LND_CTRL_ENABLE : Field := { off := 0x0, hi := 0, lo := 0, acc := .rw }
def LND_STATUS_SETS_LOG2 : Field := { off := 0x4, hi := 23, lo := 16 }
def LND_STATUS_CHANNELS : Field := { off := 0x4, hi := 15, lo := 8 }
def LND_STATUS_CFG_ERR : Field := { off := 0x4, hi := 2, lo := 2, acc := .w1c }
def LND_STATUS_BYPASS : Field := { off := 0x4, hi := 1, lo := 1, rst := 1 }
def LND_STATUS_READY : Field := { off := 0x4, hi := 0, lo := 0 }
def LND_CFG_LOCK_MAX : Field := { off := 0x8, hi := 31, lo := 28, acc := .rw, rst := 8, rng := some (0, 12) }
def LND_CFG_RES0 : Field := { off := 0x8, hi := 27, lo := 20, acc := .rw, rst := 64 }
def LND_CFG_PRELOAD_MSHR : Field := { off := 0x8, hi := 19, lo := 12, acc := .rw, rst := 64, rng := some (1, 255) }
def LND_CFG_FILL_TIMEOUT : Field := { off := 0x8, hi := 7, lo := 0, acc := .rw, rst := 30, rng := some (5, 255) }
def LND_LIMITS_DIRTY_MAX : Field := { off := 0xc, hi := 31, lo := 16, acc := .rw, rst := 4096, rng := some (64, 65535) }
def LND_WAY_RETIRE_RETIRE : Field := { off := 0x10, hi := 15, lo := 0, acc := .rw }
def LND_WAY_STATUS_WINDOW : Field := { off := 0x14, hi := 31, lo := 16 }
def LND_WAY_STATUS_EMPTY : Field := { off := 0x14, hi := 15, lo := 0 }
def LND_WIN_MAP_BASE : Field := { off := 0x20, hi := 31, lo := 14, acc := .st, rng := some (0, 131071) }
def LND_WIN_MAP_SIZE_LOG2 : Field := { off := 0x20, hi := 5, lo := 0, acc := .st }
def LND_WIN_WAYS_WAYS : Field := { off := 0x24, hi := 15, lo := 0, acc := .st }
def LND_WIN_APERTURE_APERTURE_LOG2 : Field := { off := 0x28, hi := 5, lo := 0 }
def LND_WIN_UR_UR_COUNT : Field := { off := 0x30, hi := 31, lo := 16 }
def LND_WIN_UR_LAST_RID : Field := { off := 0x30, hi := 15, lo := 0 }
def LND_WIN_UR_OFS_LO_OFS_LO : Field := { off := 0x34, hi := 31, lo := 0 }
def LND_WIN_UR_OFS_HI_OFS_HI : Field := { off := 0x38, hi := 5, lo := 0 }
def LND_RANGE_CTL_START : Field := { off := 0x40, hi := 31, lo := 31, acc := .sc }
def LND_RANGE_CTL_ABORT : Field := { off := 0x40, hi := 30, lo := 30, acc := .sc }
def LND_RANGE_CTL_FORCE : Field := { off := 0x40, hi := 29, lo := 29, acc := .rw }
def LND_RANGE_CTL_OP : Field := { off := 0x40, hi := 28, lo := 26, acc := .rw }
def LND_RANGE_CTL_CLASS : Field := { off := 0x40, hi := 25, lo := 24, acc := .rw, rst := 1 }
def LND_RANGE_CTL_SLOTS : Field := { off := 0x40, hi := 12, lo := 0, acc := .rw, rst := 1, rng := some (0, 4096) }
def LND_RANGE_LBA_LBA : Field := { off := 0x44, hi := 31, lo := 0, acc := .rw }
def LND_RANGE_SLOT_SLOT : Field := { off := 0x48, hi := 11, lo := 0, acc := .rw }
def LND_RANGE_COUNT_COUNT : Field := { off := 0x4c, hi := 31, lo := 0, acc := .rw, rng := some (0, 302080000) }
def LND_RANGE_STATUS_BUSY : Field := { off := 0x50, hi := 31, lo := 31 }
def LND_RANGE_STATUS_DONE : Field := { off := 0x50, hi := 30, lo := 30, acc := .w1c }
def LND_RANGE_STATUS_ERR_BUSY : Field := { off := 0x50, hi := 29, lo := 29, acc := .w1c }
def LND_RANGE_STATUS_ERR_ARG : Field := { off := 0x50, hi := 28, lo := 28, acc := .w1c }
def LND_RANGE_STATUS_ABORTED : Field := { off := 0x50, hi := 27, lo := 27, acc := .w1c }
def LND_RANGE_STATUS_LAST_OP : Field := { off := 0x50, hi := 26, lo := 24 }
def LND_RANGE_SUM0_LINES_DONE : Field := { off := 0x54, hi := 31, lo := 0 }
def LND_RANGE_SUM1_SKIP_LOCKED : Field := { off := 0x58, hi := 31, lo := 16 }
def LND_RANGE_SUM1_SKIP_DIRTY : Field := { off := 0x58, hi := 15, lo := 0 }
def LND_RANGE_SUM2_SKIP_BUSY : Field := { off := 0x5c, hi := 31, lo := 16 }
def LND_RANGE_SUM2_LOCK_FULL : Field := { off := 0x5c, hi := 15, lo := 0 }
def LND_RANGE_SUM3_LINES_FAILED : Field := { off := 0x60, hi := 31, lo := 16 }
def LND_RANGE_SUM3_FORCED_LOCKED : Field := { off := 0x60, hi := 15, lo := 0 }
def LND_MSHR_IN_USE : Field := { off := 0x70, hi := 31, lo := 16 }
def LND_MSHR_PEAK : Field := { off := 0x70, hi := 15, lo := 0 }
def LND_DIRTY_DIRTY : Field := { off := 0x74, hi := 31, lo := 16 }
def LND_DIRTY_RECORDING : Field := { off := 0x74, hi := 15, lo := 0 }
def LND_HITS_HITS : Field := { off := 0x80, hi := 31, lo := 0 }
def LND_MISSES_MISSES : Field := { off := 0x84, hi := 31, lo := 0 }
def LND_CNT0_MERGES : Field := { off := 0x88, hi := 31, lo := 16 }
def LND_CNT0_WAITER_FULL : Field := { off := 0x88, hi := 15, lo := 0 }
def LND_CNT1_RESCUES : Field := { off := 0x8c, hi := 31, lo := 16 }
def LND_CNT1_BUF_HITS : Field := { off := 0x8c, hi := 15, lo := 0 }
def LND_CNT2_SET_STALLS : Field := { off := 0x90, hi := 31, lo := 16 }
def LND_CNT2_FILL_TIMEOUTS : Field := { off := 0x90, hi := 15, lo := 8 }
def LND_CNT2_REFILLS : Field := { off := 0x90, hi := 7, lo := 0 }
def LND_CNT3_MOVE_INVAL : Field := { off := 0x94, hi := 31, lo := 16 }
def LND_CNT3_LOGS_FAILED : Field := { off := 0x94, hi := 15, lo := 0 }
def LND_WIN_COMMIT_OVERRUN : Field := { off := 0x2c, hi := 2, lo := 2, acc := .w1c }
def LND_WIN_COMMIT_REJECT : Field := { off := 0x2c, hi := 1, lo := 1, acc := .w1c }
def LND_WIN_COMMIT_COMMIT : Field := { off := 0x2c, hi := 0, lo := 0, acc := .sc }

/-! Block MIU (chapter 12 of the spec). -/
def MIU_CTL_LAP_WARN : Field := { off := 0x0, hi := 23, lo := 16, acc := .rw, rst := 60, rng := some (1, 255) }
def MIU_CTL_PATROL_RATE : Field := { off := 0x0, hi := 15, lo := 8, acc := .rw, rst := 8, rng := some (1, 128) }
def MIU_CTL_PATROL_EN : Field := { off := 0x0, hi := 0, lo := 0, acc := .rw, rst := 1 }
def MIU_STATUS_CE_SEEN : Field := { off := 0x4, hi := 3, lo := 3, acc := .w1c }
def MIU_STATUS_UE_SEEN : Field := { off := 0x4, hi := 2, lo := 2, acc := .w1c }
def MIU_STATUS_LAP_SLOW : Field := { off := 0x4, hi := 1, lo := 1, acc := .w1c }
def MIU_STATUS_INIT_DONE : Field := { off := 0x4, hi := 0, lo := 0 }
def MIU_LAP_TIME_LAP : Field := { off := 0x8, hi := 31, lo := 0 }
def MIU_PATROL_POS_POS : Field := { off := 0xc, hi := 21, lo := 0 }
def MIU_CE_A_COUNT : Field := { off := 0x10, hi := 31, lo := 0 }
def MIU_UE_A_COUNT : Field := { off := 0x14, hi := 31, lo := 0 }
def MIU_CE_B_COUNT : Field := { off := 0x18, hi := 31, lo := 0 }
def MIU_UE_B_COUNT : Field := { off := 0x1c, hi := 31, lo := 0 }
def MIU_CNT_LAPS : Field := { off := 0x20, hi := 31, lo := 16 }
def MIU_CNT_WRITES_LOST : Field := { off := 0x20, hi := 15, lo := 0 }
def MIU_SCRUB_WORDS_LO_WORDS_LO : Field := { off := 0x30, hi := 31, lo := 0 }
def MIU_SCRUB_WORDS_HI_WORDS_HI : Field := { off := 0x34, hi := 31, lo := 0 }
def MIU_SCRUB_CE_COUNT : Field := { off := 0x38, hi := 31, lo := 0 }
def MIU_SCRUB_UE_COUNT : Field := { off := 0x3c, hi := 31, lo := 0 }
def MIU_SCRUB_FIRST_LO_ADDR_LO : Field := { off := 0x40, hi := 31, lo := 0 }
def MIU_SCRUB_FIRST_HI_ADDR_HI : Field := { off := 0x44, hi := 5, lo := 0 }
def MIU_SCRUB_LAST_LO_ADDR_LO : Field := { off := 0x48, hi := 31, lo := 0 }
def MIU_SCRUB_LAST_HI_ADDR_HI : Field := { off := 0x4c, hi := 5, lo := 0 }
def MIU_LOG_HEAD_WRAPPED : Field := { off := 0x50, hi := 8, lo := 8 }
def MIU_LOG_HEAD_NEXT : Field := { off := 0x50, hi := 3, lo := 0 }
def MIU_INJECT_ARM : Field := { off := 0x60, hi := 31, lo := 31, acc := .sc }
def MIU_INJECT_TARGET : Field := { off := 0x60, hi := 30, lo := 30, acc := .rw }
def MIU_INJECT_F1_EN : Field := { off := 0x60, hi := 15, lo := 15, acc := .rw }
def MIU_INJECT_F1 : Field := { off := 0x60, hi := 14, lo := 8, acc := .rw, rng := some (0, 71) }
def MIU_INJECT_F0_EN : Field := { off := 0x60, hi := 7, lo := 7, acc := .rw }
def MIU_INJECT_F0 : Field := { off := 0x60, hi := 6, lo := 0, acc := .rw, rng := some (0, 71) }
def MIU_LOG0_ADDR_LO : Field := { off := 0x100, hi := 31, lo := 0, st := 0x10 }
def MIU_LOG1_KIND : Field := { off := 0x104, hi := 31, lo := 30, st := 0x10 }
def MIU_LOG1_MEM : Field := { off := 0x104, hi := 29, lo := 27, st := 0x10 }
def MIU_LOG1_REQ : Field := { off := 0x104, hi := 26, lo := 24, st := 0x10 }
def MIU_LOG1_SYNDROME : Field := { off := 0x104, hi := 23, lo := 16, st := 0x10 }
def MIU_LOG1_ADDR_HI : Field := { off := 0x104, hi := 5, lo := 0, st := 0x10 }
def MIU_LOG2_TIME_LO : Field := { off := 0x108, hi := 31, lo := 0, st := 0x10 }
def MIU_LOG3_TIME_HI : Field := { off := 0x10c, hi := 31, lo := 0, st := 0x10 }

/-! Block VLK (chapter 13 of the spec). -/
def VLK_CTL_REBUILD_EN : Field := { off := 0x0, hi := 0, lo := 0, acc := .rw, rst := 1 }
def VLK_STATUS_SESSIONS : Field := { off := 0x4, hi := 31, lo := 16 }
def VLK_STATUS_TIME_SET : Field := { off := 0x4, hi := 1, lo := 1 }
def VLK_STATUS_LOCKED : Field := { off := 0x4, hi := 0, lo := 0 }
def VLK_KEYS_IN_USE : Field := { off := 0x8, hi := 13, lo := 0 }
def VLK_HWM_LO_HWM : Field := { off := 0xc, hi := 31, lo := 0 }
def VLK_HWM_HI_HWM : Field := { off := 0x10, hi := 31, lo := 0 }
def VLK_SQ_SEL_SESSION : Field := { off := 0x14, hi := 13, lo := 0, acc := .rw }
def VLK_SQ_INFO0_STATE : Field := { off := 0x18, hi := 31, lo := 29 }
def VLK_SQ_INFO0_FUNCTION : Field := { off := 0x18, hi := 28, lo := 23 }
def VLK_SQ_INFO0_MODES : Field := { off := 0x18, hi := 22, lo := 20 }
def VLK_SQ_INFO1_TITLE : Field := { off := 0x1c, hi := 31, lo := 0 }
def VLK_SQ_INFO2_BOARDS : Field := { off := 0x20, hi := 31, lo := 0 }
def VLK_SB_STATUS_STALE : Field := { off := 0x24, hi := 28, lo := 16 }
def VLK_SB_STATUS_REBUILDING : Field := { off := 0x24, hi := 15, lo := 15 }
def VLK_SB_FILL_EXTENTS : Field := { off := 0x28, hi := 31, lo := 14 }
def VLK_SB_TITLES_TITLES : Field := { off := 0x2c, hi := 15, lo := 0 }
def VLK_CNT0_OPENS : Field := { off := 0x30, hi := 31, lo := 16 }
def VLK_CNT0_OPEN_FAILS : Field := { off := 0x30, hi := 15, lo := 0 }
def VLK_CNT1_REFUSALS : Field := { off := 0x34, hi := 31, lo := 16 }
def VLK_CNT1_KEY_CONFLICTS : Field := { off := 0x34, hi := 15, lo := 8 }
def VLK_CNT1_KEYS_DROPPED : Field := { off := 0x34, hi := 7, lo := 0 }
def VLK_CNT2_DIR_READS : Field := { off := 0x38, hi := 31, lo := 16 }
def VLK_CNT2_FG_LOOKUPS : Field := { off := 0x38, hi := 15, lo := 0 }
def VLK_CNT3_SERIAL_MISMATCH : Field := { off := 0x3c, hi := 31, lo := 16 }
def VLK_CNT3_OVERFLOW : Field := { off := 0x3c, hi := 15, lo := 0 }
def VLK_PEV_HEAD_NEXT : Field := { off := 0x40, hi := 2, lo := 0 }
def VLK_ROOT_ACTIVE_ROOT : Field := { off := 0x100, hi := 1, lo := 0, acc := .bl }
def VLK_ROOTr_ID_ROOTID : Field := { off := 0x110, hi := 31, lo := 0, st := 0x4, acc := .bl }
def VLK_ROOTr_KEY_KEY : Field := { off := 0x140, hi := 31, lo := 0, st := 0x4, st2 := 0x20, acc := .wo }
def VLK_PUB_EN_EN : Field := { off := 0x3f0, hi := 7, lo := 0, acc := .bl }
def VLK_PUBp_KEY : Field := { off := 0x400, hi := 31, lo := 0, st := 0x4, st2 := 0x80, acc := .bl }
def VLK_REGIONn_BASE_BASE : Field := { off := 0x800, hi := 31, lo := 0, st := 0x10, acc := .bl }
def VLK_REGIONn_LIMIT_LIMIT : Field := { off := 0x804, hi := 31, lo := 0, st := 0x10, acc := .bl }
def VLK_REGIONn_PERM_PERM : Field := { off := 0x808, hi := 15, lo := 0, st := 0x10, acc := .bl }
def VLK_SANDBOX_WDOG : Field := { off := 0xa00, hi := 15, lo := 8, acc := .bl, rst := 100, rng := some (1, 255) }
def VLK_SANDBOX_OPEN_EN : Field := { off := 0xa00, hi := 0, lo := 0, acc := .bl }
def VLK_DEBUG_LEVEL : Field := { off := 0xa04, hi := 1, lo := 0, acc := .bl, rst := 2 }
def VLK_PEV0_ADDR_LO : Field := { off := 0x80, hi := 31, lo := 0, st := 0x10 }
def VLK_PEV1_GROUP : Field := { off := 0x84, hi := 31, lo := 29, st := 0x10 }
def VLK_PEV1_WRITE : Field := { off := 0x84, hi := 28, lo := 28, st := 0x10 }
def VLK_PEV1_BL_WRITE : Field := { off := 0x84, hi := 27, lo := 27, st := 0x10 }
def VLK_PEV1_ADDR_HI : Field := { off := 0x84, hi := 11, lo := 0, st := 0x10 }
def VLK_PEV2_TIME_LO : Field := { off := 0x88, hi := 31, lo := 0, st := 0x10 }
def VLK_PEV3_TIME_HI : Field := { off := 0x8c, hi := 31, lo := 0, st := 0x10 }

/-! Block QEN (chapter 14 of the spec). -/
def QEN_WEIGHTS_W1 : Field := { off := 0x0, hi := 17, lo := 12, acc := .rw, rst := 8, rng := some (1, 63) }
def QEN_WEIGHTS_W2 : Field := { off := 0x0, hi := 11, lo := 6, acc := .rw, rst := 4, rng := some (1, 63) }
def QEN_WEIGHTS_W3 : Field := { off := 0x0, hi := 5, lo := 0, acc := .rw, rst := 1, rng := some (1, 63) }
def QEN_FETCH_CFG_FETCH_MAX : Field := { off := 0x4, hi := 6, lo := 0, acc := .rw, rst := 8, rng := some (1, 64) }
def QEN_INFLIGHT_TOTAL : Field := { off := 0x8, hi := 31, lo := 16 }
def QEN_INFLIGHT_CLASS0 : Field := { off := 0x8, hi := 15, lo := 0 }
def QEN_HALT_GO : Field := { off := 0x10, hi := 31, lo := 31, acc := .sc }
def QEN_HALT_QID : Field := { off := 0x10, hi := 9, lo := 0, acc := .rw, rng := some (1, 512) }
def QEN_HALT_STATUS_BUSY : Field := { off := 0x14, hi := 31, lo := 31 }
def QEN_HALT_STATUS_DONE : Field := { off := 0x14, hi := 30, lo := 30, acc := .w1c }
def QEN_HALT_STATUS_REFUSED : Field := { off := 0x14, hi := 29, lo := 29, acc := .w1c }
def QEN_HALT_STATUS_QID : Field := { off := 0x14, hi := 9, lo := 0 }
def QEN_HALT_RESULT_RESULT : Field := { off := 0x18, hi := 31, lo := 0 }
def QEN_DB_ERR_COUNT : Field := { off := 0x1c, hi := 31, lo := 16 }
def QEN_DB_ERR_LAST_Q : Field := { off := 0x1c, hi := 9, lo := 0 }
def QEN_MQ_CTL_CFG_ERR : Field := { off := 0x30, hi := 17, lo := 17, acc := .w1c }
def QEN_MQ_CTL_ENABLE : Field := { off := 0x30, hi := 16, lo := 16, acc := .rw }
def QEN_MQ_CTL_DEPTH : Field := { off := 0x30, hi := 12, lo := 0, acc := .rw, rng := some (2, 4096) }
def QEN_MQ_SQ_LO_BASE_LO : Field := { off := 0x34, hi := 31, lo := 12, acc := .rw }
def QEN_MQ_SQ_HI_BASE_HI : Field := { off := 0x38, hi := 31, lo := 0, acc := .rw }
def QEN_MQ_CQ_LO_BASE_LO : Field := { off := 0x3c, hi := 31, lo := 12, acc := .rw }
def QEN_MQ_CQ_HI_BASE_HI : Field := { off := 0x40, hi := 31, lo := 0, acc := .rw }
def QEN_QSEL_QID : Field := { off := 0x50, hi := 9, lo := 0, acc := .rw }
def QEN_QINFO0_STATE : Field := { off := 0x54, hi := 31, lo := 29 }
def QEN_QINFO0_CLASS : Field := { off := 0x54, hi := 28, lo := 27 }
def QEN_QINFO0_DEPTH : Field := { off := 0x54, hi := 16, lo := 0 }
def QEN_QINFO1_SQ_HEAD : Field := { off := 0x58, hi := 31, lo := 16 }
def QEN_QINFO1_SQ_TAIL : Field := { off := 0x58, hi := 15, lo := 0 }
def QEN_QINFO2_CQ_TAIL : Field := { off := 0x5c, hi := 31, lo := 16 }
def QEN_QINFO2_PHASE : Field := { off := 0x5c, hi := 15, lo := 15 }
def QEN_QINFO2_INFLIGHT : Field := { off := 0x5c, hi := 14, lo := 0 }
def QEN_CNT_DISCARDS : Field := { off := 0x60, hi := 31, lo := 16 }
def QEN_CNT_HALTS : Field := { off := 0x60, hi := 15, lo := 0 }

/-! Block EP (chapter 16 of the spec). -/
def EP_ORDER_MODE : Field := { off := 0x0, hi := 0, lo := 0, acc := .rw }
def EP_FN_STATUS_HELD : Field := { off := 0x4, hi := 31, lo := 16 }
def EP_FN_STATUS_BME : Field := { off := 0x4, hi := 7, lo := 7 }
def EP_FN_STATUS_DSTATE : Field := { off := 0x4, hi := 6, lo := 5 }
def EP_FN_STATUS_RO_ON : Field := { off := 0x4, hi := 4, lo := 4 }
def EP_FN_STATUS_IDO_REQ : Field := { off := 0x4, hi := 3, lo := 3 }
def EP_FN_STATUS_IDO_CPL : Field := { off := 0x4, hi := 2, lo := 2 }
def EP_FN_STATUS_MSIX_EN : Field := { off := 0x4, hi := 1, lo := 1 }
def EP_FN_STATUS_FN_MASK : Field := { off := 0x4, hi := 0, lo := 0 }
def EP_CNT0_CPL_TIMEOUTS : Field := { off := 0x8, hi := 31, lo := 16 }
def EP_CNT0_CPL_FAILED : Field := { off := 0x8, hi := 15, lo := 0 }
def EP_CNT1_CPL_DISCARDED : Field := { off := 0xc, hi := 31, lo := 16 }
def EP_CNT1_BAD_ACCESS : Field := { off := 0xc, hi := 15, lo := 0 }
def EP_BAD_ACCESS_OFFSET : Field := { off := 0x10, hi := 25, lo := 0 }
def EP_LINK_RATE : Field := { off := 0x40, hi := 19, lo := 16 }
def EP_LINK_WIDTH : Field := { off := 0x40, hi := 11, lo := 8 }
def EP_LINK_FLIT : Field := { off := 0x40, hi := 2, lo := 2 }
def EP_LINK_EQ_FULL : Field := { off := 0x40, hi := 1, lo := 1 }
def EP_LINK_UP : Field := { off := 0x40, hi := 0, lo := 0 }
def EP_LINK_CNT_RETRAINS : Field := { off := 0x44, hi := 31, lo := 16 }
def EP_LINK_CNT_SPEED_CHANGES : Field := { off := 0x44, hi := 15, lo := 0 }
def EP_TAG_CFG_POOL : Field := { off := 0x48, hi := 26, lo := 16, rst := 256 }
def EP_TAG_CFG_RES0 : Field := { off := 0x48, hi := 8, lo := 0, acc := .rw, rst := 128, rng := some (0, 256) }
def EP_TAG_STATUS_IN_USE : Field := { off := 0x4c, hi := 26, lo := 16 }
def EP_TAG_STATUS_PEAK : Field := { off := 0x4c, hi := 10, lo := 0 }
def EP_EVT_STATUS_PROTECTION : Field := { off := 0x50, hi := 7, lo := 7, acc := .w1c }
def EP_EVT_STATUS_FIRMWARE : Field := { off := 0x50, hi := 6, lo := 6, acc := .w1c }
def EP_EVT_STATUS_KERF : Field := { off := 0x50, hi := 5, lo := 5, acc := .w1c }
def EP_EVT_STATUS_EVENTS : Field := { off := 0x50, hi := 4, lo := 4, acc := .w1c }
def EP_EVT_STATUS_MIU_CE : Field := { off := 0x50, hi := 3, lo := 3, acc := .w1c }
def EP_EVT_STATUS_MIU_UE : Field := { off := 0x50, hi := 2, lo := 2, acc := .w1c }
def EP_EVT_STATUS_HALT_DONE : Field := { off := 0x50, hi := 1, lo := 1, acc := .w1c }
def EP_EVT_STATUS_RANGE_DONE : Field := { off := 0x50, hi := 0, lo := 0, acc := .w1c }
def EP_EVT_CTL_ENABLE : Field := { off := 0x54, hi := 31, lo := 31, acc := .rw }
def EP_EVT_CTL_VECTOR : Field := { off := 0x54, hi := 25, lo := 16, acc := .rw }
def EP_EVT_CTL_MASK : Field := { off := 0x54, hi := 7, lo := 0, acc := .rw }
def EP_BAR2_CFG_APERTURE_LOG2 : Field := { off := 0x60, hi := 5, lo := 0, acc := .bl }

/-! Block HIC (chapter 17 of the spec). -/
def HIC_SRCn_CFG_TARGET : Field := { off := 0x4, hi := 31, lo := 24, st := 0x4, acc := .rw }
def HIC_SRCn_CFG_PRIORITY : Field := { off := 0x4, hi := 12, lo := 8, st := 0x4, acc := .rw }
def HIC_SRCn_CFG_SENSE : Field := { off := 0x4, hi := 2, lo := 0, st := 0x4, acc := .rw }
def HIC_PENDw_PEND : Field := { off := 0xc00, hi := 31, lo := 0, st := 0x4 }
def HIC_INSERVICEw_INSERVICE : Field := { off := 0xc80, hi := 31, lo := 0, st := 0x4 }
def HIC_RAWw_RAW : Field := { off := 0xd00, hi := 31, lo := 0, st := 0x4 }
def HIC_MTIME_LO_MTIME_LO : Field := { off := 0xe00, hi := 31, lo := 0 }
def HIC_MTIME_HI_MTIME_HI : Field := { off := 0xe04, hi := 31, lo := 0 }
def HIC_TRIGGER_ID : Field := { off := 0xe10, hi := 9, lo := 0, acc := .wo }
def HIC_CNT_EDGES_MERGED : Field := { off := 0xe20, hi := 31, lo := 16 }
def HIC_CNT_BAD_COMPLETE : Field := { off := 0xe20, hi := 15, lo := 0 }
def HIC_C_THRESHOLD_THRESHOLD : Field := { off := 0x1000, hi := 4, lo := 0, st := 0x1000, acc := .rw }
def HIC_C_CLAIM_ID : Field := { off := 0x1004, hi := 9, lo := 0, st := 0x1000, acc := .rw }
def HIC_C_RUNPRI_LAST : Field := { off := 0x1008, hi := 14, lo := 5, st := 0x1000 }
def HIC_C_RUNPRI_RUNPRI : Field := { off := 0x1008, hi := 4, lo := 0, st := 0x1000 }
def HIC_C_MSIP_MSIP : Field := { off := 0x100c, hi := 0, lo := 0, st := 0x1000, acc := .rw }
def HIC_C_MTIMECMP_LO_CMP_LO : Field := { off := 0x1010, hi := 31, lo := 0, st := 0x1000, acc := .rw, rst := 0xffffffff }
def HIC_C_MTIMECMP_HI_CMP_HI : Field := { off := 0x1014, hi := 31, lo := 0, st := 0x1000, acc := .rw, rst := 0xffffffff }
def HIC_C_CORE_CNT_SPURIOUS : Field := { off := 0x1018, hi := 31, lo := 16, st := 0x1000 }
def HIC_C_CORE_CNT_CLAIMS : Field := { off := 0x1018, hi := 15, lo := 0, st := 0x1000 }

/-! Block SKD (chapter 18 of the spec). -/
def SKD_STATUS_HALTED : Field := { off := 0x0, hi := 0, lo := 0, acc := .w1c }
def SKD_ACTIVE_ACTIVE : Field := { off := 0x4, hi := 31, lo := 0 }
def SKD_ACTIVE_AT_HALT_STOPPED : Field := { off := 0x8, hi := 31, lo := 0 }
def SKD_CNT_BUS_ERRORS : Field := { off := 0xc, hi := 31, lo := 16 }
def SKD_CNT_DESC_ERRORS : Field := { off := 0xc, hi := 15, lo := 8 }
def SKD_CNT_ABORTS : Field := { off := 0xc, hi := 7, lo := 0 }
def SKD_CH_SRC_LO_SRC_LO : Field := { off := 0x1000, hi := 31, lo := 0, st := 0x1000, acc := .rw }
def SKD_CH_SRC_HI_SRC_HI : Field := { off := 0x1004, hi := 31, lo := 0, st := 0x1000, acc := .rw }
def SKD_CH_DST_LO_DST_LO : Field := { off := 0x1008, hi := 31, lo := 0, st := 0x1000, acc := .rw }
def SKD_CH_DST_HI_DST_HI : Field := { off := 0x100c, hi := 31, lo := 0, st := 0x1000, acc := .rw }
def SKD_CH_LENGTH_LENGTH : Field := { off := 0x1010, hi := 31, lo := 0, st := 0x1000, acc := .rw }
def SKD_CH_NEXT_LO_NEXT_LO : Field := { off := 0x1018, hi := 31, lo := 0, st := 0x1000, acc := .rw }
def SKD_CH_NEXT_HI_NEXT_HI : Field := { off := 0x101c, hi := 31, lo := 0, st := 0x1000, acc := .rw }
def SKD_CH_CTRL_FUNC : Field := { off := 0x1014, hi := 29, lo := 24, st := 0x1000, acc := .rw }
def SKD_CH_CTRL_DHOST : Field := { off := 0x1014, hi := 21, lo := 21, st := 0x1000, acc := .rw }
def SKD_CH_CTRL_SHOST : Field := { off := 0x1014, hi := 20, lo := 20, st := 0x1000, acc := .rw }
def SKD_CH_CTRL_IRQ : Field := { off := 0x1014, hi := 16, lo := 16, st := 0x1000, acc := .rw }
def SKD_CH_CTRL_BURST : Field := { off := 0x1014, hi := 15, lo := 12, st := 0x1000, acc := .rw, rst := 12, rng := some (6, 12) }
def SKD_CH_CTRL_DW : Field := { off := 0x1014, hi := 10, lo := 8, st := 0x1000, acc := .rw, rst := 3, rng := some (0, 6) }
def SKD_CH_CTRL_SW : Field := { off := 0x1014, hi := 6, lo := 4, st := 0x1000, acc := .rw, rst := 3, rng := some (0, 6) }
def SKD_CH_CTRL_DINC : Field := { off := 0x1014, hi := 1, lo := 1, st := 0x1000, acc := .rw, rst := 1 }
def SKD_CH_CTRL_SINC : Field := { off := 0x1014, hi := 0, lo := 0, st := 0x1000, acc := .rw, rst := 1 }
def SKD_CH_CMD_RESUME : Field := { off := 0x1020, hi := 2, lo := 2, st := 0x1000, acc := .rw }
def SKD_CH_CMD_ABORT : Field := { off := 0x1020, hi := 1, lo := 1, st := 0x1000, acc := .sc }
def SKD_CH_CMD_START : Field := { off := 0x1020, hi := 0, lo := 0, st := 0x1000, acc := .sc }
def SKD_CH_STATUS_REFUSED : Field := { off := 0x1024, hi := 5, lo := 5, st := 0x1000, acc := .w1c }
def SKD_CH_STATUS_ERR_BUSY : Field := { off := 0x1024, hi := 4, lo := 4, st := 0x1000, acc := .w1c }
def SKD_CH_STATUS_GROUP3 : Field := { off := 0x1024, hi := 3, lo := 3, st := 0x1000 }
def SKD_CH_STATUS_CODE : Field := { off := 0x1024, hi := 2, lo := 0, st := 0x1000 }
def SKD_CH_RESIDUE_RESIDUE : Field := { off := 0x1028, hi := 31, lo := 0, st := 0x1000 }

/-! Block FWU (chapter 19 of the spec). -/
def FWU_STATUS_RUN_STATE : Field := { off := 0x0, hi := 31, lo := 28 }
def FWU_STATUS_RUN_BANK : Field := { off := 0x0, hi := 27, lo := 27 }
def FWU_STATUS_ALT_STATE : Field := { off := 0x0, hi := 26, lo := 24 }
def FWU_STATUS_SCHEDULED : Field := { off := 0x0, hi := 23, lo := 23 }
def FWU_STATUS_HOST_CONFIRM : Field := { off := 0x0, hi := 22, lo := 22 }
def FWU_STATUS_SELFTEST_DONE : Field := { off := 0x0, hi := 21, lo := 21 }
def FWU_STATUS_SETTINGS_RESET : Field := { off := 0x0, hi := 20, lo := 20 }
def FWU_STATUS_LAST_RESULT : Field := { off := 0x0, hi := 19, lo := 16 }
def FWU_STATUS_LAST_REASON : Field := { off := 0x0, hi := 15, lo := 8 }
def FWU_DL_LAST : Field := { off := 0x4, hi := 31, lo := 31 }
def FWU_DL_UNITS : Field := { off := 0x4, hi := 13, lo := 0 }
def FWU_ACT_TIME_LO_TIME : Field := { off := 0x8, hi := 31, lo := 0 }
def FWU_ACT_TIME_HI_TIME : Field := { off := 0xc, hi := 31, lo := 0 }
def FWU_CONFIRM_WINDOW : Field := { off := 0x10, hi := 31, lo := 20, rst := 600 }
def FWU_CONFIRM_LEFT : Field := { off := 0x10, hi := 11, lo := 0 }
def FWU_CFG_FLUSH_LIMIT : Field := { off := 0x14, hi := 7, lo := 0, acc := .rw, rst := 60, rng := some (5, 255) }
def FWU_RUN_VER_LO_VER : Field := { off := 0x18, hi := 31, lo := 0 }
def FWU_RUN_VER_HI_VER : Field := { off := 0x1c, hi := 31, lo := 0 }
def FWU_ALT_VER_LO_VER : Field := { off := 0x20, hi := 31, lo := 0 }
def FWU_ALT_VER_HI_VER : Field := { off := 0x24, hi := 31, lo := 0 }
def FWU_SVN_FLOOR : Field := { off := 0x28, hi := 31, lo := 0 }
def FWU_SETTINGS_SCHEMA : Field := { off := 0x2c, hi := 31, lo := 16 }
def FWU_SETTINGS_FOUND : Field := { off := 0x2c, hi := 15, lo := 0 }
def FWU_CNT_ACTIVATIONS : Field := { off := 0x30, hi := 31, lo := 16 }
def FWU_CNT_REJECTIONS : Field := { off := 0x30, hi := 15, lo := 8 }
def FWU_CNT_ROLLBACKS : Field := { off := 0x30, hi := 7, lo := 0 }

/-! Block PWR (chapter 20 of the spec). -/
def PWR_CTL_CORE_GATE : Field := { off := 0x0, hi := 1, lo := 1, acc := .rw, rst := 1 }
def PWR_CTL_AUTO : Field := { off := 0x0, hi := 0, lo := 0, acc := .rw, rst := 1 }
def PWR_STATUS_DOMAINS : Field := { off := 0x4, hi := 31, lo := 24 }
def PWR_STATUS_FIELD_FAILED : Field := { off := 0x4, hi := 3, lo := 3 }
def PWR_STATUS_FIELD_READY : Field := { off := 0x4, hi := 2, lo := 2 }
def PWR_STATUS_FIELD_POWER : Field := { off := 0x4, hi := 1, lo := 1 }
def PWR_STATUS_AON_LOST : Field := { off := 0x4, hi := 0, lo := 0, acc := .w1c }
def PWR_RESET_CAUSE_CAUSE : Field := { off := 0x8, hi := 5, lo := 0 }
def PWR_CNT_WAKES : Field := { off := 0xc, hi := 31, lo := 16 }
def PWR_CNT_WAKE_WAITS : Field := { off := 0xc, hi := 15, lo := 0 }
def PWR_ONw_ON : Field := { off := 0x10, hi := 31, lo := 0, st := 0x4 }
def PWR_HOLDw_HOLD : Field := { off := 0x20, hi := 31, lo := 0, st := 0x4, acc := .rw }

/-! Block FPW (chapter 20 of the spec). -/
def FPW_STATUS_STATE : Field := { off := 0x0, hi := 31, lo := 30 }
def FPW_STATUS_SAFE : Field := { off := 0x0, hi := 29, lo := 29, rst := 1 }
def FPW_STATUS_ON : Field := { off := 0x0, hi := 7, lo := 0, rst := 1 }
def FPW_DOM_HOLD : Field := { off := 0x4, hi := 15, lo := 8, acc := .rw }
def FPW_DOM_AUTO : Field := { off := 0x4, hi := 0, lo := 0, acc := .rw, rst := 1 }
def FPW_BOOT_GO : Field := { off := 0x8, hi := 31, lo := 31, acc := .sc }
def FPW_BOOT_CRC_FAIL : Field := { off := 0x8, hi := 30, lo := 30 }
def FPW_BOOT_SEQ_ERR : Field := { off := 0x8, hi := 29, lo := 29 }
def FPW_BOOT_CRC_CRC : Field := { off := 0xc, hi := 31, lo := 0, acc := .rw }
def FPW_VMECH_CFG_HIGH_MV : Field := { off := 0x10, hi := 31, lo := 16, acc := .rw, rst := 13800, rng := some (12500, 16000) }
def FPW_VMECH_CFG_LOW_MV : Field := { off := 0x10, hi := 15, lo := 0, acc := .rw, rst := 10200, rng := some (8000, 11500) }
def FPW_VMECH_DIV_DIV : Field := { off := 0x14, hi := 10, lo := 0, acc := .rw, rst := 1000, rng := some (400, 1600) }
def FPW_VMECH_STATUS_MV : Field := { off := 0x18, hi := 31, lo := 16 }
def FPW_VMECH_STATUS_HIGH : Field := { off := 0x18, hi := 2, lo := 2 }
def FPW_VMECH_STATUS_LOW : Field := { off := 0x18, hi := 1, lo := 1 }
def FPW_VMECH_STATUS_VALID : Field := { off := 0x18, hi := 0, lo := 0 }
def FPW_CNT_WAKES : Field := { off := 0x1c, hi := 31, lo := 16 }
def FPW_CNT_VMECH_LOW : Field := { off := 0x1c, hi := 15, lo := 8 }
def FPW_CNT_LOADS : Field := { off := 0x1c, hi := 7, lo := 0 }
def FPW_WINDOW_TAPS1 : Field := { off := 0x20, hi := 1, lo := 1, acc := .rw }
def FPW_WINDOW_TAPS0 : Field := { off := 0x20, hi := 0, lo := 0, acc := .rw }

/-! Block GLB (chapter 22 of the spec). -/
def GLB_ID_FAMILY : Field := { off := 0x0, hi := 30, lo := 24, rst := 72 }
def GLB_ID_REVISION : Field := { off := 0x0, hi := 23, lo := 16, rst := 16 }
def GLB_ID_DEVICE : Field := { off := 0x0, hi := 15, lo := 0 }
def GLB_STATUS_READY : Field := { off := 0x4, hi := 0, lo := 0 }
def GLB_LOCK_LOCK : Field := { off := 0x8, hi := 0, lo := 0, acc := .w1s }
def GLB_SERIAL_LO_SERIAL : Field := { off := 0x10, hi := 31, lo := 0 }
def GLB_SERIAL_HI_SERIAL : Field := { off := 0x14, hi := 31, lo := 0 }

/-! Block TIM (chapter 22 of the spec). -/
def TIM_NOW_LO_NOW : Field := { off := 0x0, hi := 31, lo := 0 }
def TIM_NOW_HI_NOW : Field := { off := 0x4, hi := 31, lo := 0 }

/-! Block KRF (chapter 01 of the spec). -/
def KRF_TXDATA_LO_WORD : Field := { off := 0x0, hi := 31, lo := 0, st := 0x1000, acc := .rw }
def KRF_TXDATA_HI_WORD : Field := { off := 0x4, hi := 31, lo := 0, st := 0x1000, acc := .rw }
def KRF_TXCTL_TXFREE : Field := { off := 0x8, hi := 31, lo := 24, st := 0x1000, rst := 64 }
def KRF_TXCTL_REFUSED : Field := { off := 0x8, hi := 17, lo := 17, st := 0x1000, acc := .w1c }
def KRF_TXCTL_PUSH : Field := { off := 0x8, hi := 16, lo := 16, st := 0x1000, acc := .sc }
def KRF_TXCTL_TYPE : Field := { off := 0x8, hi := 7, lo := 0, st := 0x1000, acc := .rw }
def KRF_RXDATA_LO_WORD : Field := { off := 0x10, hi := 31, lo := 0, st := 0x1000 }
def KRF_RXDATA_HI_WORD : Field := { off := 0x14, hi := 31, lo := 0, st := 0x1000 }
def KRF_RXCTL_RXCOUNT : Field := { off := 0x18, hi := 31, lo := 24, st := 0x1000 }
def KRF_RXCTL_OVERFLOW : Field := { off := 0x18, hi := 17, lo := 17, st := 0x1000, acc := .w1c }
def KRF_RXCTL_POP : Field := { off := 0x18, hi := 16, lo := 16, st := 0x1000, acc := .sc }
def KRF_RXCTL_VALID : Field := { off := 0x18, hi := 8, lo := 8, st := 0x1000 }
def KRF_RXCTL_TYPE : Field := { off := 0x18, hi := 7, lo := 0, st := 0x1000 }
def KRF_STATUS_SIGNAL : Field := { off := 0x20, hi := 11, lo := 11, st := 0x1000 }
def KRF_STATUS_SAFE : Field := { off := 0x20, hi := 10, lo := 10, st := 0x1000 }
def KRF_STATUS_ECHO_LOST : Field := { off := 0x20, hi := 9, lo := 9, st := 0x1000, acc := .w1c }
def KRF_STATUS_RETRAINED : Field := { off := 0x20, hi := 8, lo := 8, st := 0x1000, acc := .w1c }
def KRF_STATUS_LANES : Field := { off := 0x20, hi := 5, lo := 3, st := 0x1000 }
def KRF_STATUS_STATE : Field := { off := 0x20, hi := 2, lo := 0, st := 0x1000 }
def KRF_ERRCNT_REPLAYS : Field := { off := 0x24, hi := 31, lo := 16, st := 0x1000 }
def KRF_ERRCNT_REFUSED : Field := { off := 0x24, hi := 15, lo := 0, st := 0x1000 }

/-! Block FKR (chapter 01 of the spec). -/
def FKR_STATUS_SIGNAL : Field := { off := 0x20, hi := 11, lo := 11 }
def FKR_STATUS_SAFE : Field := { off := 0x20, hi := 10, lo := 10 }
def FKR_STATUS_ECHO_LOST : Field := { off := 0x20, hi := 9, lo := 9, acc := .w1c }
def FKR_STATUS_RETRAINED : Field := { off := 0x20, hi := 8, lo := 8, acc := .w1c }
def FKR_STATUS_LANES : Field := { off := 0x20, hi := 5, lo := 3 }
def FKR_STATUS_STATE : Field := { off := 0x20, hi := 2, lo := 0 }
def FKR_ERRCNT_REPLAYS : Field := { off := 0x24, hi := 31, lo := 16 }
def FKR_ERRCNT_REFUSED : Field := { off := 0x24, hi := 15, lo := 0 }

end F

/-- The registers of block SFE, at offsets within the block. -/
def regs_sfe : List Reg :=
  [{ name := "SFE_CTL", off := 0x0,
      fields := [F.SFE_CTL_FC_EN, F.SFE_CTL_MANUAL, F.SFE_CTL_SPOT_EN] },
   { name := "SFE_STATUS", off := 0x4,
      fields := [F.SFE_STATUS_FC_SOURCE, F.SFE_STATUS_ACQ, F.SFE_STATUS_HOLD_SEEK, F.SFE_STATUS_VEL_OK, F.SFE_STATUS_SNAG] },
   { name := "SFE_AFE", off := 0x8,
      fields := [F.SFE_AFE_LOCKED, F.SFE_AFE_TERM, F.SFE_AFE_LPF, F.SFE_AFE_RANGE] },
   { name := "SFE_VEL", off := 0xc,
      fields := [F.SFE_VEL_VEL_SRC, F.SFE_VEL_VEL] },
   { name := "SFE_LOOPCFG", off := 0x10, shadow := 0x400,
      fields := [F.SFE_LOOPCFG_GRATE, F.SFE_LOOPCFG_ORATE, F.SFE_LOOPCFG_ARATE, F.SFE_LOOPCFG_ACQ_SHIFT, F.SFE_LOOPCFG_ACQ_BLOCKS, F.SFE_LOOPCFG_A_REF] },
   { name := "SFE_LOOPLIM", off := 0x14, shadow := 0x400,
      fields := [F.SFE_LOOPLIM_G_MIN, F.SFE_LOOPLIM_G_MAX, F.SFE_LOOPLIM_B_LIM] },
   { name := "SFE_LOOP_COMMIT", off := 0x1c,
      fields := [F.SFE_LOOP_COMMIT_OVERRUN, F.SFE_LOOP_COMMIT_REJECT, F.SFE_LOOP_COMMIT_COMMIT] },
   { name := "SFE_SNAGCFG", off := 0x20, shadow := 0x400,
      fields := [F.SFE_SNAGCFG_DROP_TH, F.SFE_SNAGCFG_DROP_N, F.SFE_SNAGCFG_JUMP_N, F.SFE_SNAGCFG_JUMP_TH, F.SFE_SNAGCFG_HOLD] },
   { name := "SFE_SNAGMAX", off := 0x24, shadow := 0x400,
      fields := [F.SFE_SNAGMAX_SNAG_MAX] },
   { name := "SFE_SNAG_COMMIT", off := 0x2c,
      fields := [F.SFE_SNAG_COMMIT_OVERRUN, F.SFE_SNAG_COMMIT_REJECT, F.SFE_SNAG_COMMIT_COMMIT] },
   { name := "SFE_FCCFG", off := 0x30, shadow := 0x400,
      fields := [F.SFE_FCCFG_POST, F.SFE_FCCFG_PRE] },
   { name := "SFE_FC_COMMIT", off := 0x3c,
      fields := [F.SFE_FC_COMMIT_OVERRUN, F.SFE_FC_COMMIT_REJECT, F.SFE_FC_COMMIT_COMMIT] }]
  ++
  [{ name := "SFE_TRIMn", off := 0x40, dims := [(7, 0x4)], shadow := 0x400,
      fields := [F.SFE_TRIMn_ADC_GAIN, F.SFE_TRIMn_ADC_OFS, F.SFE_TRIMn_GBASE] },
   { name := "SFE_LGAINl", off := 0x60, dims := [(16, 0x4)], shadow := 0x400,
      fields := [F.SFE_LGAINl_CODE] },
   { name := "SFE_TRIM_COMMIT", off := 0xa0,
      fields := [F.SFE_TRIM_COMMIT_OVERRUN, F.SFE_TRIM_COMMIT_REJECT, F.SFE_TRIM_COMMIT_COMMIT] },
   { name := "SFE_SPOTn_LOOP", off := 0xb0, dims := [(7, 0x8)],
      fields := [F.SFE_SPOTn_LOOP_ASYM, F.SFE_SPOTn_LOOP_OFS, F.SFE_SPOTn_LOOP_PGA] },
   { name := "SFE_SPOTn_MON", off := 0xb4, dims := [(7, 0x8)],
      fields := [F.SFE_SPOTn_MON_ENV, F.SFE_SPOTn_MON_MID, F.SFE_SPOTn_MON_LSLOW, F.SFE_SPOTn_MON_FCAST, F.SFE_SPOTn_MON_SNAG] },
   { name := "SFE_CNTn", off := 0xf0, dims := [(7, 0x4)], counter := true,
      fields := [F.SFE_CNTn_OWN, F.SFE_CNTn_CONFIRMED] },
   { name := "SFE_FCCNT", off := 0x110, counter := true,
      fields := [F.SFE_FCCNT_FC_ISSUED, F.SFE_FCCNT_FC_MERGED] },
   { name := "SFE_EVCNT", off := 0x114, counter := true,
      fields := [F.SFE_EVCNT_LONG_SNAGS, F.SFE_EVCNT_VEL_REPL, F.SFE_EVCNT_TEMP_REPL] },
   { name := "SFE_CLIPCNT", off := 0x118, counter := true,
      fields := [F.SFE_CLIPCNT_CLIPS] },
   { name := "SFE_TEMP", off := 0x11c,
      fields := [F.SFE_TEMP_REPLACED, F.SFE_TEMP_TEMP] }]

/-- The registers of block LAT, at offsets within the block. -/
def regs_lat : List Reg :=
  [{ name := "LAT_CTL", off := 0x0,
      fields := [F.LAT_CTL_ENABLE, F.LAT_CTL_RETRY_ITER, F.LAT_CTL_ITER] },
   { name := "LAT_ENG_STATUS", off := 0x4,
      fields := [F.LAT_ENG_STATUS_DET_LOAD, F.LAT_ENG_STATUS_LDPC_LOAD, F.LAT_ENG_STATUS_LDPC_QUEUE, F.LAT_ENG_STATUS_SLICES_WAITING] },
   { name := "LAT_ENGCNT", off := 0x8, counter := true,
      fields := [F.LAT_ENGCNT_SLICE_DROP, F.LAT_ENGCNT_LDPC_SKIP] },
   { name := "LAT_LDPC_CNT", off := 0xc, counter := true,
      fields := [F.LAT_LDPC_CNT_CW_FAIL, F.LAT_LDPC_CNT_CRC_FAIL] },
   { name := "LAT_BAY_CTL", off := 0x100,
      fields := [F.LAT_BAY_CTL_RETRY_MAX, F.LAT_BAY_CTL_BORROWED, F.LAT_BAY_CTL_DET_EN] },
   { name := "LAT_BAY_STATUS", off := 0x104,
      fields := [F.LAT_BAY_STATUS_TARGET, F.LAT_BAY_STATUS_RETRY, F.LAT_BAY_STATUS_LOCKED] },
   { name := "LAT_CHCFG", off := 0x110, shadow := 0x400,
      fields := [F.LAT_CHCFG_EQ_MU, F.LAT_CHCFG_TRK_P, F.LAT_CHCFG_TRK_I, F.LAT_CHCFG_BLZ_WIN, F.LAT_CHCFG_BLZ_TOL, F.LAT_CHCFG_BER_WIN] },
   { name := "LAT_WEIGHT", off := 0x114, shadow := 0x400,
      fields := [F.LAT_WEIGHT_SNAG_W, F.LAT_WEIGHT_FCAST_W, F.LAT_WEIGHT_FLY_W] },
   { name := "LAT_CH_COMMIT", off := 0x11c,
      fields := [F.LAT_CH_COMMIT_OVERRUN, F.LAT_CH_COMMIT_REJECT, F.LAT_CH_COMMIT_COMMIT] },
   { name := "LAT_TARGET", off := 0x120, shadow := 0x400,
      fields := [F.LAT_TARGET_SEL, F.LAT_TARGET_H0, F.LAT_TARGET_H1, F.LAT_TARGET_H2, F.LAT_TARGET_H3, F.LAT_TARGET_H4] },
   { name := "LAT_TGT_COMMIT", off := 0x12c,
      fields := [F.LAT_TGT_COMMIT_OVERRUN, F.LAT_TGT_COMMIT_REJECT, F.LAT_TGT_COMMIT_COMMIT] },
   { name := "LAT_TAP_COMMIT", off := 0x13c,
      fields := [F.LAT_TAP_COMMIT_OVERRUN, F.LAT_TAP_COMMIT_REJECT, F.LAT_TAP_COMMIT_COMMIT] }]
  ++
  [{ name := "LAT_SPOTk_SYNC", off := 0x140, dims := [(7, 0x4)],
      fields := [F.LAT_SPOTk_SYNC_STATE, F.LAT_SPOTk_SYNC_MISSES, F.LAT_SPOTk_SYNC_FRAME, F.LAT_SPOTk_SYNC_PERIOD] },
   { name := "LAT_SPOTk_SYNCCNT", off := 0x160, dims := [(7, 0x4)], counter := true,
      fields := [F.LAT_SPOTk_SYNCCNT_MISSES, F.LAT_SPOTk_SYNCCNT_DUAL, F.LAT_SPOTk_SYNCCNT_DUAL_FAIL, F.LAT_SPOTk_SYNCCNT_REACQ] },
   { name := "LAT_SPOTk_QUAL0", off := 0x180, dims := [(7, 0x10)],
      fields := [F.LAT_SPOTk_QUAL0_BITS] },
   { name := "LAT_SPOTk_QUAL1", off := 0x184, dims := [(7, 0x10)],
      fields := [F.LAT_SPOTk_QUAL1_ERRS] },
   { name := "LAT_SPOTk_QUAL2", off := 0x188, dims := [(7, 0x10)],
      fields := [F.LAT_SPOTk_QUAL2_MSE, F.LAT_SPOTk_QUAL2_SEQ, F.LAT_SPOTk_QUAL2_JITTER] },
   { name := "LAT_SPOTk_QUAL3", off := 0x18c, dims := [(7, 0x10)],
      fields := [F.LAT_SPOTk_QUAL3_ITER_AVG, F.LAT_SPOTk_QUAL3_SEQ, F.LAT_SPOTk_QUAL3_CW_FAIL] },
   { name := "LAT_LOGCNT", off := 0x1f0, counter := true,
      fields := [F.LAT_LOGCNT_LOGS_CLEAN, F.LAT_LOGCNT_LOGS_REBUILT] },
   { name := "LAT_BOARDCNT", off := 0x1f4, counter := true,
      fields := [F.LAT_BOARDCNT_BOARDS_ERASED, F.LAT_BOARDCNT_REBUILD_MISMATCH, F.LAT_BOARDCNT_EQ_CLAMP] },
   { name := "LAT_RETRYCNT", off := 0x1f8, counter := true,
      fields := [F.LAT_RETRYCNT_RETRIES, F.LAT_RETRYCNT_LOGS_FAILED] },
   { name := "LAT_LIVETAP", off := 0x3000, dims := [(224, 0x4)],
      fields := [F.LAT_LIVETAP_TAP] },
   { name := "LAT_TAPTAB", off := 0x4000, dims := [(3584, 0x4)], shadow := 0x4000,
      fields := [F.LAT_TAPTAB_TAP] }]

/-- The registers of block RCD, at offsets within the block. -/
def regs_rcd : List Reg :=
  [{ name := "REC_CTL", off := 0x0,
      fields := [F.REC_CTL_SPEED, F.REC_CTL_OPC_EN, F.REC_CTL_ENABLE, F.REC_CTL_WI_FOC, F.REC_CTL_WI_TRK] },
   { name := "REC_STATUS", off := 0x4,
      fields := [F.REC_STATUS_OPC_RANGE, F.REC_STATUS_BARK_OK, F.REC_STATUS_LIMITED, F.REC_STATUS_OPC_EDGE, F.REC_STATUS_WI, F.REC_STATUS_STATE] },
   { name := "REC_LIMIT", off := 0x8,
      fields := [F.REC_LIMIT_PWR_TOL, F.REC_LIMIT_THERM_START, F.REC_LIMIT_EYE_CEIL] },
   { name := "REC_OPC", off := 0xc,
      fields := [F.REC_OPC_RUN, F.REC_OPC_OPC_DELTA, F.REC_OPC_MARGIN] },
   { name := "REC_SCALEk", off := 0x10, dims := [(7, 0x4)],
      fields := [F.REC_SCALEk_SCALE] },
   { name := "REC_CNT", off := 0x30, counter := true,
      fields := [F.REC_CNT_LOGS_WRITTEN, F.REC_CNT_LOGS_PARTIAL] },
   { name := "REC_CNT2", off := 0x34, counter := true,
      fields := [F.REC_CNT2_OPC_RUNS, F.REC_CNT2_LIMITED_LOGS, F.REC_CNT2_WI_STOPS] },
   { name := "REC_STRAT_COMMIT", off := 0x3c,
      fields := [F.REC_STRAT_COMMIT_OVERRUN, F.REC_STRAT_COMMIT_REJECT, F.REC_STRAT_COMMIT_COMMIT] },
   { name := "REC_PWRTAB", off := 0x800, dims := [(64, 0x4)], shadow := 0x400,
      fields := [F.REC_PWRTAB_PEAK, F.REC_PWRTAB_BIAS] },
   { name := "REC_STRAT", off := 0x1000, dims := [(256, 0x4)], shadow := 0x400,
      fields := [F.REC_STRAT_START, F.REC_STRAT_TOP, F.REC_STRAT_MP, F.REC_STRAT_LAST] }]

/-- The registers of block OSV, at offsets within the block. -/
def regs_osv : List Reg :=
  [{ name := "TRN_OSV_CTL", off := 0x0,
      fields := [F.TRN_OSV_CTL_SPIRAL_CHK, F.TRN_OSV_CTL_SF_EN, F.TRN_OSV_CTL_TILT_EN, F.TRN_OSV_CTL_TRK_EN, F.TRN_OSV_CTL_FOC_EN] },
   { name := "TRN_OSV_STATUS", off := 0x4,
      fields := [F.TRN_OSV_STATUS_LAYER, F.TRN_OSV_STATUS_FSTATE, F.TRN_OSV_STATUS_TSTATE, F.TRN_OSV_STATUS_TRIES, F.TRN_OSV_STATUS_MOVE, F.TRN_OSV_STATUS_PENDING, F.TRN_OSV_STATUS_SA_DONE, F.TRN_OSV_STATUS_VEL_VALID] },
   { name := "TRN_MOVE", off := 0x8,
      fields := [F.TRN_MOVE_GO, F.TRN_MOVE_REPLACED, F.TRN_MOVE_TYPE, F.TRN_MOVE_TURNS] },
   { name := "TRN_MOVE_TGT", off := 0xc,
      fields := [F.TRN_MOVE_TGT_LAYER, F.TRN_MOVE_TGT_AREA, F.TRN_MOVE_TGT_SLOT] },
   { name := "TRN_FE_CFG", off := 0x10, shadow := 0x400,
      fields := [F.TRN_FE_CFG_FE_SLOPE, F.TRN_FE_CFG_FLOCK_TH, F.TRN_FE_CFG_LOSS_TH, F.TRN_FE_CFG_SUM_MIN] },
   { name := "TRN_TE_CFG", off := 0x14, shadow := 0x400,
      fields := [F.TRN_TE_CFG_TE_SLOPE, F.TRN_TE_CFG_TLOCK_TH, F.TRN_TE_CFG_K_LS] },
   { name := "TRN_CAP_CFG", off := 0x18, shadow := 0x400,
      fields := [F.TRN_CAP_CFG_FCAP_BAND, F.TRN_CAP_CFG_TCAP_BAND, F.TRN_CAP_CFG_FCAP_OUT, F.TRN_CAP_CFG_TCAP_OUT] },
   { name := "TRN_SF_CFG", off := 0x1c, shadow := 0x400,
      fields := [F.TRN_SF_CFG_SF_BAND, F.TRN_SF_CFG_SF_VEL, F.TRN_SF_CFG_SF_TAU] },
   { name := "TRN_LJ_CFG", off := 0x24, shadow := 0x400,
      fields := [F.TRN_LJ_CFG_KICK_T, F.TRN_LJ_CFG_KICK_AMP, F.TRN_LJ_CFG_BRAKE_AMP, F.TRN_LJ_CFG_LJ_TIMEOUT] },
   { name := "TRN_SEEK_CFG", off := 0x28, shadow := 0x400,
      fields := [F.TRN_SEEK_CFG_FINE_RANGE, F.TRN_SEEK_CFG_TJ_KICK, F.TRN_SEEK_CFG_LAND_SHORT, F.TRN_SEEK_CFG_SEEK_TRIES] },
   { name := "TRN_GEOM", off := 0x30,
      fields := [F.TRN_GEOM_RADIUS_OFS, F.TRN_GEOM_FINE_SENS] },
   { name := "TRN_RADIUS", off := 0x34,
      fields := [F.TRN_RADIUS_RADIUS, F.TRN_RADIUS_SPEED] }]
  ++
  [{ name := "TRN_SRV_COMMIT", off := 0x20,
      fields := [F.TRN_SRV_COMMIT_OVERRUN, F.TRN_SRV_COMMIT_REJECT, F.TRN_SRV_COMMIT_COMMIT] },
   { name := "TRN_JMP_COMMIT", off := 0x2c,
      fields := [F.TRN_JMP_COMMIT_OVERRUN, F.TRN_JMP_COMMIT_REJECT, F.TRN_JMP_COMMIT_COMMIT] },
   { name := "TRN_LAY_COMMIT", off := 0xc0,
      fields := [F.TRN_LAY_COMMIT_OVERRUN, F.TRN_LAY_COMMIT_REJECT, F.TRN_LAY_COMMIT_COMMIT] },
   { name := "TRN_OSV_CNT", off := 0x38, counter := true,
      fields := [F.TRN_OSV_CNT_DEFECT_TURNS, F.TRN_OSV_CNT_FOC_LOSSES, F.TRN_OSV_CNT_TRK_LOSSES] },
   { name := "TRN_OSV_CNT2", off := 0x3c, counter := true,
      fields := [F.TRN_OSV_CNT2_JUMP_FAILS, F.TRN_OSV_CNT2_SPIRAL_CORR, F.TRN_OSV_CNT2_REPLACED, F.TRN_OSV_CNT2_SEEK_RETRIES] },
   { name := "TRN_LAYl", off := 0x40, dims := [(16, 0x4)], shadow := 0x400,
      fields := [F.TRN_LAYl_SA, F.TRN_LAYl_FOFS] },
   { name := "TRN_TILTl", off := 0x80, dims := [(16, 0x4)], shadow := 0x400,
      fields := [F.TRN_TILTl_BAND3, F.TRN_TILTl_BAND2, F.TRN_TILTl_BAND1, F.TRN_TILTl_BAND0] }]

/-- The registers of block TRN, at offsets within the block. -/
def regs_trn : List Reg :=
  [{ name := "TRN_CTL", off := 0x0,
      fields := [F.TRN_CTL_ENABLE, F.TRN_CTL_TURN_CYC] },
   { name := "TRN_STATUS", off := 0x4,
      fields := [F.TRN_STATUS_CLK_LOST, F.TRN_STATUS_SAFE, F.TRN_STATUS_RUNNING] },
   { name := "TRN_LOAD", off := 0x8,
      fields := [F.TRN_LOAD_PEAK, F.TRN_LOAD_BUDGET] },
   { name := "TRN_TURNCNT", off := 0xc,
      fields := [F.TRN_TURNCNT_COUNT] },
   { name := "TRN_FAULT_LO", off := 0x10,
      fields := [F.TRN_FAULT_LO_SLOTS] },
   { name := "TRN_FAULT_HI", off := 0x14,
      fields := [F.TRN_FAULT_HI_SLOTS] },
   { name := "TRN_ENGCNT", off := 0x18, counter := true,
      fields := [F.TRN_ENGCNT_SATS, F.TRN_ENGCNT_SEL_EMPTY] },
   { name := "TRN_SELs_MLO", off := 0x100, dims := [(8, 0x20)], shadow := 0x400,
      fields := [F.TRN_SELs_MLO_MEMBERS] },
   { name := "TRN_SELs_MHI", off := 0x104, dims := [(8, 0x20)], shadow := 0x400,
      fields := [F.TRN_SELs_MHI_MEMBERS] },
   { name := "TRN_SELs_CFG", off := 0x108, dims := [(8, 0x20)], shadow := 0x400,
      fields := [F.TRN_SELs_CFG_ENABLE, F.TRN_SELs_CFG_DST, F.TRN_SELs_CFG_HYST] },
   { name := "TRN_SELs_SAFE", off := 0x10c, dims := [(8, 0x20)], shadow := 0x400,
      fields := [F.TRN_SELs_SAFE_SAFE_OUT] },
   { name := "TRN_SELs_STATUS", off := 0x114, dims := [(8, 0x20)],
      fields := [F.TRN_SELs_STATUS_OUT, F.TRN_SELs_STATUS_SELECTED, F.TRN_SELs_STATUS_EMPTY] }]
  ++
  [{ name := "TRN_SELs_CNT", off := 0x118, dims := [(8, 0x20)], counter := true,
      fields := [F.TRN_SELs_CNT_SWITCHES, F.TRN_SELs_CNT_EMPTIES] },
   { name := "TRN_SELs_COMMIT", off := 0x110, dims := [(8, 0x20)],
      fields := [F.TRN_SELs_COMMIT_OVERRUN, F.TRN_SELs_COMMIT_REJECT, F.TRN_SELs_COMMIT_COMMIT] },
   { name := "TRN_Sn_CFG", off := 0x1000, dims := [(48, 0x40)], shadow := 0x2000,
      fields := [F.TRN_Sn_CFG_ENABLE, F.TRN_Sn_CFG_BANK, F.TRN_Sn_CFG_SAFE_RUN, F.TRN_Sn_CFG_LAW, F.TRN_Sn_CFG_NB, F.TRN_Sn_CFG_RATE, F.TRN_Sn_CFG_PHASE, F.TRN_Sn_CFG_SRC, F.TRN_Sn_CFG_FAULT_ACT] },
   { name := "TRN_Sn_IO", off := 0x1004, dims := [(48, 0x40)], shadow := 0x2000,
      fields := [F.TRN_Sn_IO_HO_RATE, F.TRN_Sn_IO_SP_SRC, F.TRN_Sn_IO_DST] },
   { name := "TRN_Sn_OUTLIM", off := 0x1008, dims := [(48, 0x40)], shadow := 0x2000,
      fields := [F.TRN_Sn_OUTLIM_OUT_MAX, F.TRN_Sn_OUTLIM_OUT_MIN] },
   { name := "TRN_Sn_ILIM", off := 0x100c, dims := [(48, 0x40)], shadow := 0x2000,
      fields := [F.TRN_Sn_ILIM_I_MAX, F.TRN_Sn_ILIM_I_MIN] },
   { name := "TRN_Sn_TH", off := 0x1010, dims := [(48, 0x40)], shadow := 0x2000,
      fields := [F.TRN_Sn_TH_TH_UP, F.TRN_Sn_TH_TH_DN] },
   { name := "TRN_Sn_LVL", off := 0x1014, dims := [(48, 0x40)], shadow := 0x2000,
      fields := [F.TRN_Sn_LVL_LVL_HI, F.TRN_Sn_LVL_LVL_LO] },
   { name := "TRN_Sn_FERR", off := 0x1018, dims := [(48, 0x40)], shadow := 0x2000,
      fields := [F.TRN_Sn_FERR_FE_LIM, F.TRN_Sn_FERR_FE_REL, F.TRN_Sn_FERR_FE_UNIT, F.TRN_Sn_FERR_FE_TIME] },
   { name := "TRN_Sn_AUX", off := 0x101c, dims := [(48, 0x40)], shadow := 0x2000,
      fields := [F.TRN_Sn_AUX_CB_HYST] },
   { name := "TRN_Sn_COMMIT", off := 0x1020, dims := [(48, 0x40)],
      fields := [F.TRN_Sn_COMMIT_OVERRUN, F.TRN_Sn_COMMIT_REJECT, F.TRN_Sn_COMMIT_COMMIT] },
   { name := "TRN_Sn_SET", off := 0x1024, dims := [(48, 0x40)],
      fields := [F.TRN_Sn_SET_SET] }]
  ++
  [{ name := "TRN_Sn_CMD", off := 0x1028, dims := [(48, 0x40)],
      fields := [F.TRN_Sn_CMD_FVAL, F.TRN_Sn_CMD_CLEAR, F.TRN_Sn_CMD_FORCE] },
   { name := "TRN_Sn_STATUS", off := 0x102c, dims := [(48, 0x40)],
      fields := [F.TRN_Sn_STATUS_STATE, F.TRN_Sn_STATUS_ABANK, F.TRN_Sn_STATUS_MODE, F.TRN_Sn_STATUS_BSTATE, F.TRN_Sn_STATUS_SLEWING, F.TRN_Sn_STATUS_ICLAMP, F.TRN_Sn_STATUS_OCLAMP, F.TRN_Sn_STATUS_SELECTED, F.TRN_Sn_STATUS_SAT] },
   { name := "TRN_Sn_ERR", off := 0x1030, dims := [(48, 0x40)],
      fields := [F.TRN_Sn_ERR_E] },
   { name := "TRN_Sn_OUT", off := 0x1034, dims := [(48, 0x40)],
      fields := [F.TRN_Sn_OUT_Y] },
   { name := "TRN_Sn_INTEG", off := 0x1038, dims := [(48, 0x40)],
      fields := [F.TRN_Sn_INTEG_I] },
   { name := "TRN_Sn_CNT", off := 0x103c, dims := [(48, 0x40)], counter := true,
      fields := [F.TRN_Sn_CNT_FAULTS, F.TRN_Sn_CNT_SLEWS, F.TRN_Sn_CNT_HELD] },
   { name := "TRN_BANKA_K", off := 0x4000, dims := [(48, 0x80)],
      fields := [F.TRN_BANKA_K_K] },
   { name := "TRN_BANKA_KP", off := 0x4004, dims := [(48, 0x80)],
      fields := [F.TRN_BANKA_KP_KP] },
   { name := "TRN_BANKA_KI", off := 0x4008, dims := [(48, 0x80)],
      fields := [F.TRN_BANKA_KI_KI] },
   { name := "TRN_BANKA_B0", off := 0x4010, dims := [(4, 0x14), (48, 0x80)],
      fields := [F.TRN_BANKA_B0_B0] },
   { name := "TRN_BANKA_B1", off := 0x4014, dims := [(4, 0x14), (48, 0x80)],
      fields := [F.TRN_BANKA_B1_B1] },
   { name := "TRN_BANKA_B2", off := 0x4018, dims := [(4, 0x14), (48, 0x80)],
      fields := [F.TRN_BANKA_B2_B2] }]
  ++
  [{ name := "TRN_BANKA_A1", off := 0x401c, dims := [(4, 0x14), (48, 0x80)],
      fields := [F.TRN_BANKA_A1_A1] },
   { name := "TRN_BANKA_A2", off := 0x4020, dims := [(4, 0x14), (48, 0x80)],
      fields := [F.TRN_BANKA_A2_A2] },
   { name := "TRN_BANKB_K", off := 0x6000, dims := [(48, 0x80)],
      fields := [F.TRN_BANKB_K_K] },
   { name := "TRN_BANKB_KP", off := 0x6004, dims := [(48, 0x80)],
      fields := [F.TRN_BANKB_KP_KP] },
   { name := "TRN_BANKB_KI", off := 0x6008, dims := [(48, 0x80)],
      fields := [F.TRN_BANKB_KI_KI] },
   { name := "TRN_BANKB_B0", off := 0x6010, dims := [(4, 0x14), (48, 0x80)],
      fields := [F.TRN_BANKB_B0_B0] },
   { name := "TRN_BANKB_B1", off := 0x6014, dims := [(4, 0x14), (48, 0x80)],
      fields := [F.TRN_BANKB_B1_B1] },
   { name := "TRN_BANKB_B2", off := 0x6018, dims := [(4, 0x14), (48, 0x80)],
      fields := [F.TRN_BANKB_B2_B2] },
   { name := "TRN_BANKB_A1", off := 0x601c, dims := [(4, 0x14), (48, 0x80)],
      fields := [F.TRN_BANKB_A1_A1] },
   { name := "TRN_BANKB_A2", off := 0x6020, dims := [(4, 0x14), (48, 0x80)],
      fields := [F.TRN_BANKB_A2_A2] }]

/-- The registers of block SPN, at offsets within the block. -/
def regs_spn : List Reg :=
  [{ name := "SPN_CTL", off := 0x0,
      fields := [F.SPN_CTL_CLR_FAULT, F.SPN_CTL_PARK, F.SPN_CTL_ENABLE] },
   { name := "SPN_CMD", off := 0x4,
      fields := [F.SPN_CMD_MODE, F.SPN_CMD_TARGET] },
   { name := "SPN_STATUS", off := 0x8,
      fields := [F.SPN_STATUS_STATE, F.SPN_STATUS_FAULT, F.SPN_STATUS_REFUSED, F.SPN_STATUS_SAFE, F.SPN_STATUS_CLOCK_CFG, F.SPN_STATUS_OV_CLAMP, F.SPN_STATUS_CEIL_LIMITED, F.SPN_STATUS_PRED2, F.SPN_STATUS_AT_SPEED, F.SPN_STATUS_VALID] },
   { name := "SPN_SPEED", off := 0xc,
      fields := [F.SPN_SPEED_SPEED, F.SPN_SPEED_CONF, F.SPN_SPEED_BACKWARD] },
   { name := "SPN_CURRENT", off := 0x10,
      fields := [F.SPN_CURRENT_IQ_REF, F.SPN_CURRENT_IQ] },
   { name := "SPN_MEAS", off := 0x14,
      fields := [F.SPN_MEAS_VBR, F.SPN_MEAS_TWIND] },
   { name := "SPN_CEIL_IN", off := 0x18,
      fields := [F.SPN_CEIL_IN_RELAY_EN, F.SPN_CEIL_IN_STALE, F.SPN_CEIL_IN_SAFE_FRAC, F.SPN_CEIL_IN_FRAC] },
   { name := "SPN_MOTOR0", off := 0x20, shadow := 0x400,
      fields := [F.SPN_MOTOR0_RS, F.SPN_MOTOR0_LS] },
   { name := "SPN_MOTOR1", off := 0x24, shadow := 0x400,
      fields := [F.SPN_MOTOR1_CUR_BW, F.SPN_MOTOR1_PSI] },
   { name := "SPN_PWM", off := 0x28, shadow := 0x400,
      fields := [F.SPN_PWM_DEADTIME, F.SPN_PWM_SHUNT_MIN, F.SPN_PWM_MOD_MAX, F.SPN_PWM_SHUNT_SCALE] },
   { name := "SPN_START", off := 0x30, shadow := 0x400,
      fields := [F.SPN_START_OPEN_I, F.SPN_START_ALIGN_T, F.SPN_START_OPEN_ACC, F.SPN_START_OPEN_MAX] },
   { name := "SPN_START2", off := 0x34, shadow := 0x400,
      fields := [F.SPN_START2_IPD_I, F.SPN_START2_OPEN_T, F.SPN_START2_START_TRIES, F.SPN_START2_CATCH_T] }]
  ++
  [{ name := "SPN_OBS", off := 0x38, shadow := 0x400,
      fields := [F.SPN_OBS_OBS_CONF, F.SPN_OBS_OBS_LOSS, F.SPN_OBS_GAMMA, F.SPN_OBS_RELOCK_CYC] },
   { name := "SPN_LIM", off := 0x3c, shadow := 0x400,
      fields := [F.SPN_LIM_IQ_MAX, F.SPN_LIM_OC_LIM] },
   { name := "SPN_LIM2", off := 0x40, shadow := 0x400,
      fields := [F.SPN_LIM2_ACC_IQ, F.SPN_LIM2_DEC_IQ] },
   { name := "SPN_SUPPLY", off := 0x44, shadow := 0x400,
      fields := [F.SPN_SUPPLY_OV_TRIP, F.SPN_SUPPLY_OV_CLAMP, F.SPN_SUPPLY_OV_BAND, F.SPN_SUPPLY_UV_TRIP] },
   { name := "SPN_RUN", off := 0x48, shadow := 0x400,
      fields := [F.SPN_RUN_IDLE_RPM, F.SPN_RUN_ACC_RAMP, F.SPN_RUN_DEC_BAND] },
   { name := "SPN_BUDGET", off := 0x4c, shadow := 0x400,
      fields := [F.SPN_BUDGET_P_BUDGET, F.SPN_BUDGET_STOP_SHORT, F.SPN_BUDGET_RTH, F.SPN_BUDGET_TAU] },
   { name := "SPN_CNT", off := 0x60, counter := true,
      fields := [F.SPN_CNT_STARTS, F.SPN_CNT_CATCHES, F.SPN_CNT_OBS_LOSSES, F.SPN_CNT_RELOCKS] },
   { name := "SPN_CNT2", off := 0x64, counter := true,
      fields := [F.SPN_CNT2_SHIFTS, F.SPN_CNT2_OV_TRIPS, F.SPN_CNT2_REFUSED] },
   { name := "SPN_CNT3", off := 0x68, counter := true,
      fields := [F.SPN_CNT3_PRED2, F.SPN_CNT3_IPD_WEAK, F.SPN_CNT3_CATCH_FAILS, F.SPN_CNT3_CEIL_STALE, F.SPN_CNT3_FAULTS] },
   { name := "SPN_CEIL_CFG", off := 0x80, shadow := 0x400,
      fields := [F.SPN_CEIL_CFG_MODE, F.SPN_CEIL_CFG_TAU, F.SPN_CEIL_CFG_SAFE_FRAC] },
   { name := "SPN_CEIL_SCALE", off := 0x84, shadow := 0x400,
      fields := [F.SPN_CEIL_SCALE_LO, F.SPN_CEIL_SCALE_HI] },
   { name := "SPN_CEIL_STATUS", off := 0x90,
      fields := [F.SPN_CEIL_STATUS_VALID, F.SPN_CEIL_STATUS_REPLACED, F.SPN_CEIL_STATUS_FRAC, F.SPN_CEIL_STATUS_RAW] }]
  ++
  [{ name := "SPN_CEIL_CNT", off := 0x94, counter := true,
      fields := [F.SPN_CEIL_CNT_INVALID, F.SPN_CEIL_CNT_CLAMPS, F.SPN_CEIL_CNT_REPLACEMENTS] },
   { name := "SPN_MOTOR_COMMIT", off := 0x2c,
      fields := [F.SPN_MOTOR_COMMIT_OVERRUN, F.SPN_MOTOR_COMMIT_REJECT, F.SPN_MOTOR_COMMIT_COMMIT] },
   { name := "SPN_DRIVE_COMMIT", off := 0x5c,
      fields := [F.SPN_DRIVE_COMMIT_OVERRUN, F.SPN_DRIVE_COMMIT_REJECT, F.SPN_DRIVE_COMMIT_COMMIT] },
   { name := "SPN_CEIL_COMMIT", off := 0x8c,
      fields := [F.SPN_CEIL_COMMIT_OVERRUN, F.SPN_CEIL_COMMIT_REJECT, F.SPN_CEIL_COMMIT_COMMIT] }]

/-- The registers of block AXP, at offsets within the block. -/
def regs_axp : List Reg :=
  [{ name := "AXP_An_CTL", off := 0x0, dims := [(8, 0x80)],
      fields := [F.AXP_An_CTL_ENABLE, F.AXP_An_CTL_DIR_INV, F.AXP_An_CTL_MODE] },
   { name := "AXP_An_CMD", off := 0x4, dims := [(8, 0x80)],
      fields := [F.AXP_An_CMD_GO, F.AXP_An_CMD_OP] },
   { name := "AXP_An_TARGET", off := 0x8, dims := [(8, 0x80)],
      fields := [F.AXP_An_TARGET_TARGET] },
   { name := "AXP_An_POS", off := 0xc, dims := [(8, 0x80)],
      fields := [F.AXP_An_POS_POS] },
   { name := "AXP_An_VEL", off := 0x10, dims := [(8, 0x80)],
      fields := [F.AXP_An_VEL_VEL] },
   { name := "AXP_An_STATUS", off := 0x14, dims := [(8, 0x80)],
      fields := [F.AXP_An_STATUS_STATE, F.AXP_An_STATUS_HPHASE, F.AXP_An_STATUS_REFUSE, F.AXP_An_STATUS_FAULT, F.AXP_An_STATUS_REFUSED, F.AXP_An_STATUS_HOMED, F.AXP_An_STATUS_AT_SOFT, F.AXP_An_STATUS_LIM, F.AXP_An_STATUS_HOME_SW, F.AXP_An_STATUS_REVERSED] },
   { name := "AXP_An_REMAIN", off := 0x18, dims := [(8, 0x80)],
      fields := [F.AXP_An_REMAIN_REMAIN] },
   { name := "AXP_An_CAPTURE", off := 0x1c, dims := [(8, 0x80)],
      fields := [F.AXP_An_CAPTURE_CAPTURE] },
   { name := "AXP_An_VMAX", off := 0x20, dims := [(8, 0x80)], shadow := 0x1000,
      fields := [F.AXP_An_VMAX_VMAX] },
   { name := "AXP_An_AMAX", off := 0x24, dims := [(8, 0x80)], shadow := 0x1000,
      fields := [F.AXP_An_AMAX_AMAX] },
   { name := "AXP_An_JMAX", off := 0x28, dims := [(8, 0x80)], shadow := 0x1000,
      fields := [F.AXP_An_JMAX_JMAX] },
   { name := "AXP_An_SOFT_MIN", off := 0x2c, dims := [(8, 0x80)], shadow := 0x1000,
      fields := [F.AXP_An_SOFT_MIN_SOFT_MIN] }]
  ++
  [{ name := "AXP_An_SOFT_MAX", off := 0x30, dims := [(8, 0x80)], shadow := 0x1000,
      fields := [F.AXP_An_SOFT_MAX_SOFT_MAX] },
   { name := "AXP_An_HOMECFG", off := 0x34, dims := [(8, 0x80)], shadow := 0x1000,
      fields := [F.AXP_An_HOMECFG_HOME_DIR, F.AXP_An_HOMECFG_HOME_EN, F.AXP_An_HOMECFG_BACKOFF] },
   { name := "AXP_An_HOMEVEL", off := 0x38, dims := [(8, 0x80)], shadow := 0x1000,
      fields := [F.AXP_An_HOMEVEL_HOME_VEL, F.AXP_An_HOMEVEL_HOME_SLOW] },
   { name := "AXP_An_HOMEPOS", off := 0x3c, dims := [(8, 0x80)], shadow := 0x1000,
      fields := [F.AXP_An_HOMEPOS_HOME_POS] },
   { name := "AXP_An_SWCFG", off := 0x40, dims := [(8, 0x80)], shadow := 0x1000,
      fields := [F.AXP_An_SWCFG_FILT, F.AXP_An_SWCFG_CHAT_N, F.AXP_An_SWCFG_CHAT_WIN] },
   { name := "AXP_An_STEPCFG", off := 0x44, dims := [(8, 0x80)], shadow := 0x1000,
      fields := [F.AXP_An_STEPCFG_DIR_SETUP, F.AXP_An_STEPCFG_STEP_W] },
   { name := "AXP_An_CNT", off := 0x50, dims := [(8, 0x80)], counter := true,
      fields := [F.AXP_An_CNT_REFUSALS, F.AXP_An_CNT_LIMIT_TRIPS, F.AXP_An_CNT_CHATTERS, F.AXP_An_CNT_HOMINGS] },
   { name := "AXP_An_COMMIT", off := 0x4c, dims := [(8, 0x80)],
      fields := [F.AXP_An_COMMIT_OVERRUN, F.AXP_An_COMMIT_REJECT, F.AXP_An_COMMIT_COMMIT] },
   { name := "AXP_GRPg_CFG", off := 0x400, dims := [(4, 0x20)], shadow := 0x1000,
      fields := [F.AXP_GRPg_CFG_ENABLE, F.AXP_GRPg_CFG_MEMBERS] },
   { name := "AXP_GRPg_CMD", off := 0x404, dims := [(4, 0x20)],
      fields := [F.AXP_GRPg_CMD_GO, F.AXP_GRPg_CMD_OP] },
   { name := "AXP_GRPg_STATUS", off := 0x408, dims := [(4, 0x20)],
      fields := [F.AXP_GRPg_STATUS_STATE, F.AXP_GRPg_STATUS_REFUSE, F.AXP_GRPg_STATUS_REFUSED, F.AXP_GRPg_STATUS_LEAD] },
   { name := "AXP_GRPg_REMAIN", off := 0x40c, dims := [(4, 0x20)],
      fields := [F.AXP_GRPg_REMAIN_REMAIN] }]
  ++
  [{ name := "AXP_GRPg_COMMIT", off := 0x41c, dims := [(4, 0x20)],
      fields := [F.AXP_GRPg_COMMIT_OVERRUN, F.AXP_GRPg_COMMIT_REJECT, F.AXP_GRPg_COMMIT_COMMIT] },
   { name := "AXP_SW", off := 0x500,
      fields := [F.AXP_SW_LEVEL] }]

/-- The registers of block YRD, at offsets within the block. -/
def regs_yrd : List Reg :=
  [{ name := "YRD_CTL", off := 0x0,
      fields := [F.YRD_CTL_ENABLE, F.YRD_CTL_AUTO_INV] },
   { name := "YRD_STATUS", off := 0x4,
      fields := [F.YRD_STATUS_STATE, F.YRD_STATUS_STEP, F.YRD_STATUS_DOOR, F.YRD_STATUS_HOLDING, F.YRD_STATUS_HOMED] },
   { name := "YRD_DOOR", off := 0x8,
      fields := [F.YRD_DOOR_DOOR_FILT, F.YRD_DOOR_DOOR_SETTLE, F.YRD_DOOR_DOOR_TIMEOUT] },
   { name := "YRD_LAST", off := 0xc,
      fields := [F.YRD_LAST_SRC, F.YRD_LAST_DST, F.YRD_LAST_RESULT] },
   { name := "YRD_CNT", off := 0x10, counter := true,
      fields := [F.YRD_CNT_TRANSFERS, F.YRD_CNT_DROPS, F.YRD_CNT_DOOR_OPENS] },
   { name := "YRD_GEOM", off := 0x20, shadow := 0x400,
      fields := [F.YRD_GEOM_DECKS, F.YRD_GEOM_Z_PITCH] },
   { name := "YRD_TANG", off := 0x24, shadow := 0x400,
      fields := [F.YRD_TANG_T_SIDE_A, F.YRD_TANG_T_SIDE_B] },
   { name := "YRD_MOTION", off := 0x28, shadow := 0x400,
      fields := [F.YRD_MOTION_APPROACH_DZ, F.YRD_MOTION_LIFT_DZ] },
   { name := "YRD_GRIP", off := 0x2c, shadow := 0x400,
      fields := [F.YRD_GRIP_GRIP_COMP, F.YRD_GRIP_GRIP_RANGE] },
   { name := "YRD_DECKd_X", off := 0x100, dims := [(16, 0x8)], shadow := 0x400,
      fields := [F.YRD_DECKd_X_SIDE, F.YRD_DECKd_X_X] },
   { name := "YRD_DECKd_Z", off := 0x104, dims := [(16, 0x8)], shadow := 0x400,
      fields := [F.YRD_DECKd_Z_Z] },
   { name := "YRD_BAYb_X", off := 0x180, dims := [(12, 0x8)], shadow := 0x400,
      fields := [F.YRD_BAYb_X_SIDE, F.YRD_BAYb_X_X] }]
  ++
  [{ name := "YRD_BAYb_Z", off := 0x184, dims := [(12, 0x8)], shadow := 0x400,
      fields := [F.YRD_BAYb_Z_Z] },
   { name := "YRD_MAILm_X", off := 0x1e0, dims := [(8, 0x8)], shadow := 0x400,
      fields := [F.YRD_MAILm_X_SIDE, F.YRD_MAILm_X_X] },
   { name := "YRD_MAILm_Z", off := 0x1e4, dims := [(8, 0x8)], shadow := 0x400,
      fields := [F.YRD_MAILm_Z_Z] },
   { name := "YRD_GEOM_COMMIT", off := 0x23c,
      fields := [F.YRD_GEOM_COMMIT_OVERRUN, F.YRD_GEOM_COMMIT_REJECT, F.YRD_GEOM_COMMIT_COMMIT] }]

/-- The registers of block CRU, at offsets within the block. -/
def regs_cru : List Reg :=
  [{ name := "CRU_CTL", off := 0x0,
      fields := [F.CRU_CTL_ENABLE, F.CRU_CTL_NOW, F.CRU_CTL_CLASS0_HOLD, F.CRU_CTL_AUTO, F.CRU_CTL_ITEM_EN] },
   { name := "CRU_STATUS", off := 0x4,
      fields := [F.CRU_STATUS_STATE, F.CRU_STATUS_SPOT, F.CRU_STATUS_ITEM, F.CRU_STATUS_LAYER, F.CRU_STATUS_PENDING, F.CRU_STATUS_STARVED, F.CRU_STATUS_LAST_CAUSE, F.CRU_STATUS_ATTEMPT] },
   { name := "CRU_TEMPREF", off := 0x8,
      fields := [F.CRU_TEMPREF_TOPT_REF, F.CRU_TEMPREF_TDIE_REF] },
   { name := "CRU_LAYERS", off := 0xc,
      fields := [F.CRU_LAYERS_DONE] },
   { name := "CRU_CFG", off := 0x10, shadow := 0x400,
      fields := [F.CRU_CFG_CRU_DELTA, F.CRU_CFG_MEAS_EXP, F.CRU_CFG_CRU_SETTLE, F.CRU_CFG_CRU_WAIT] },
   { name := "CRU_STEP", off := 0x14, shadow := 0x400,
      fields := [F.CRU_STEP_FOC_STEP, F.CRU_STEP_SA_STEP, F.CRU_STEP_TILT_STEP, F.CRU_STEP_RP_STEP] },
   { name := "CRU_FLAGS", off := 0x20,
      fields := [F.CRU_FLAGS_ASYM, F.CRU_FLAGS_RPWR, F.CRU_FLAGS_ADC, F.CRU_FLAGS_LAYER] },
   { name := "CRU_CNT", off := 0x24, counter := true,
      fields := [F.CRU_CNT_RUNS, F.CRU_CNT_ITEMS_FLAGGED, F.CRU_CNT_RETRY_PAUSES] },
   { name := "CRU_CNT2", off := 0x2c, counter := true,
      fields := [F.CRU_CNT2_ATTEMPTS_FAILED, F.CRU_CNT2_ABORTS, F.CRU_CNT2_STARVATIONS] },
   { name := "CRU_BAY_Q", off := 0x30,
      fields := [F.CRU_BAY_Q_PIPS, F.CRU_BAY_Q_TRES, F.CRU_BAY_Q_SEQ] },
   { name := "CRU_RPWRk", off := 0x40, dims := [(7, 0x4)], shadow := 0x400,
      fields := [F.CRU_RPWRk_RPWR] },
   { name := "CRU_SPOTk_Q", off := 0x60, dims := [(7, 0x4)],
      fields := [F.CRU_SPOTk_Q_PIPS, F.CRU_SPOTk_Q_BER_LOG, F.CRU_SPOTk_Q_EYE, F.CRU_SPOTk_Q_SEQ] }]
  ++
  [{ name := "CRU_CFG_COMMIT", off := 0x1c,
      fields := [F.CRU_CFG_COMMIT_OVERRUN, F.CRU_CFG_COMMIT_REJECT, F.CRU_CFG_COMMIT_COMMIT] },
   { name := "CRU_RP_COMMIT", off := 0x5c,
      fields := [F.CRU_RP_COMMIT_OVERRUN, F.CRU_RP_COMMIT_REJECT, F.CRU_RP_COMMIT_COMMIT] }]

/-- The registers of block LND, at offsets within the block. -/
def regs_lnd : List Reg :=
  [{ name := "LND_CTRL", off := 0x0,
      fields := [F.LND_CTRL_ENABLE] },
   { name := "LND_STATUS", off := 0x4,
      fields := [F.LND_STATUS_SETS_LOG2, F.LND_STATUS_CHANNELS, F.LND_STATUS_CFG_ERR, F.LND_STATUS_BYPASS, F.LND_STATUS_READY] },
   { name := "LND_CFG", off := 0x8,
      fields := [F.LND_CFG_LOCK_MAX, F.LND_CFG_RES0, F.LND_CFG_PRELOAD_MSHR, F.LND_CFG_FILL_TIMEOUT] },
   { name := "LND_LIMITS", off := 0xc,
      fields := [F.LND_LIMITS_DIRTY_MAX] },
   { name := "LND_WAY_RETIRE", off := 0x10,
      fields := [F.LND_WAY_RETIRE_RETIRE] },
   { name := "LND_WAY_STATUS", off := 0x14,
      fields := [F.LND_WAY_STATUS_WINDOW, F.LND_WAY_STATUS_EMPTY] },
   { name := "LND_WIN_MAP", off := 0x20, shadow := 0x400,
      fields := [F.LND_WIN_MAP_BASE, F.LND_WIN_MAP_SIZE_LOG2] },
   { name := "LND_WIN_WAYS", off := 0x24, shadow := 0x400,
      fields := [F.LND_WIN_WAYS_WAYS] },
   { name := "LND_WIN_APERTURE", off := 0x28,
      fields := [F.LND_WIN_APERTURE_APERTURE_LOG2] },
   { name := "LND_WIN_UR", off := 0x30,
      fields := [F.LND_WIN_UR_UR_COUNT, F.LND_WIN_UR_LAST_RID] },
   { name := "LND_WIN_UR_OFS_LO", off := 0x34,
      fields := [F.LND_WIN_UR_OFS_LO_OFS_LO] },
   { name := "LND_WIN_UR_OFS_HI", off := 0x38,
      fields := [F.LND_WIN_UR_OFS_HI_OFS_HI] }]
  ++
  [{ name := "LND_RANGE_CTL", off := 0x40,
      fields := [F.LND_RANGE_CTL_START, F.LND_RANGE_CTL_ABORT, F.LND_RANGE_CTL_FORCE, F.LND_RANGE_CTL_OP, F.LND_RANGE_CTL_CLASS, F.LND_RANGE_CTL_SLOTS] },
   { name := "LND_RANGE_LBA", off := 0x44,
      fields := [F.LND_RANGE_LBA_LBA] },
   { name := "LND_RANGE_SLOT", off := 0x48,
      fields := [F.LND_RANGE_SLOT_SLOT] },
   { name := "LND_RANGE_COUNT", off := 0x4c,
      fields := [F.LND_RANGE_COUNT_COUNT] },
   { name := "LND_RANGE_STATUS", off := 0x50,
      fields := [F.LND_RANGE_STATUS_BUSY, F.LND_RANGE_STATUS_DONE, F.LND_RANGE_STATUS_ERR_BUSY, F.LND_RANGE_STATUS_ERR_ARG, F.LND_RANGE_STATUS_ABORTED, F.LND_RANGE_STATUS_LAST_OP] },
   { name := "LND_RANGE_SUM0", off := 0x54,
      fields := [F.LND_RANGE_SUM0_LINES_DONE] },
   { name := "LND_RANGE_SUM1", off := 0x58,
      fields := [F.LND_RANGE_SUM1_SKIP_LOCKED, F.LND_RANGE_SUM1_SKIP_DIRTY] },
   { name := "LND_RANGE_SUM2", off := 0x5c,
      fields := [F.LND_RANGE_SUM2_SKIP_BUSY, F.LND_RANGE_SUM2_LOCK_FULL] },
   { name := "LND_RANGE_SUM3", off := 0x60,
      fields := [F.LND_RANGE_SUM3_LINES_FAILED, F.LND_RANGE_SUM3_FORCED_LOCKED] },
   { name := "LND_MSHR", off := 0x70,
      fields := [F.LND_MSHR_IN_USE, F.LND_MSHR_PEAK] },
   { name := "LND_DIRTY", off := 0x74,
      fields := [F.LND_DIRTY_DIRTY, F.LND_DIRTY_RECORDING] },
   { name := "LND_HITS", off := 0x80, counter := true,
      fields := [F.LND_HITS_HITS] }]
  ++
  [{ name := "LND_MISSES", off := 0x84, counter := true,
      fields := [F.LND_MISSES_MISSES] },
   { name := "LND_CNT0", off := 0x88, counter := true,
      fields := [F.LND_CNT0_MERGES, F.LND_CNT0_WAITER_FULL] },
   { name := "LND_CNT1", off := 0x8c, counter := true,
      fields := [F.LND_CNT1_RESCUES, F.LND_CNT1_BUF_HITS] },
   { name := "LND_CNT2", off := 0x90, counter := true,
      fields := [F.LND_CNT2_SET_STALLS, F.LND_CNT2_FILL_TIMEOUTS, F.LND_CNT2_REFILLS] },
   { name := "LND_CNT3", off := 0x94, counter := true,
      fields := [F.LND_CNT3_MOVE_INVAL, F.LND_CNT3_LOGS_FAILED] },
   { name := "LND_WIN_COMMIT", off := 0x2c,
      fields := [F.LND_WIN_COMMIT_OVERRUN, F.LND_WIN_COMMIT_REJECT, F.LND_WIN_COMMIT_COMMIT] }]

/-- The registers of block MIU, at offsets within the block. -/
def regs_miu : List Reg :=
  [{ name := "MIU_CTL", off := 0x0,
      fields := [F.MIU_CTL_LAP_WARN, F.MIU_CTL_PATROL_RATE, F.MIU_CTL_PATROL_EN] },
   { name := "MIU_STATUS", off := 0x4,
      fields := [F.MIU_STATUS_CE_SEEN, F.MIU_STATUS_UE_SEEN, F.MIU_STATUS_LAP_SLOW, F.MIU_STATUS_INIT_DONE] },
   { name := "MIU_LAP_TIME", off := 0x8,
      fields := [F.MIU_LAP_TIME_LAP] },
   { name := "MIU_PATROL_POS", off := 0xc,
      fields := [F.MIU_PATROL_POS_POS] },
   { name := "MIU_CE_A", off := 0x10, counter := true,
      fields := [F.MIU_CE_A_COUNT] },
   { name := "MIU_UE_A", off := 0x14, counter := true,
      fields := [F.MIU_UE_A_COUNT] },
   { name := "MIU_CE_B", off := 0x18, counter := true,
      fields := [F.MIU_CE_B_COUNT] },
   { name := "MIU_UE_B", off := 0x1c, counter := true,
      fields := [F.MIU_UE_B_COUNT] },
   { name := "MIU_CNT", off := 0x20, counter := true,
      fields := [F.MIU_CNT_LAPS, F.MIU_CNT_WRITES_LOST] },
   { name := "MIU_SCRUB_WORDS_LO", off := 0x30,
      fields := [F.MIU_SCRUB_WORDS_LO_WORDS_LO] },
   { name := "MIU_SCRUB_WORDS_HI", off := 0x34,
      fields := [F.MIU_SCRUB_WORDS_HI_WORDS_HI] },
   { name := "MIU_SCRUB_CE", off := 0x38,
      fields := [F.MIU_SCRUB_CE_COUNT] }]
  ++
  [{ name := "MIU_SCRUB_UE", off := 0x3c,
      fields := [F.MIU_SCRUB_UE_COUNT] },
   { name := "MIU_SCRUB_FIRST_LO", off := 0x40,
      fields := [F.MIU_SCRUB_FIRST_LO_ADDR_LO] },
   { name := "MIU_SCRUB_FIRST_HI", off := 0x44,
      fields := [F.MIU_SCRUB_FIRST_HI_ADDR_HI] },
   { name := "MIU_SCRUB_LAST_LO", off := 0x48,
      fields := [F.MIU_SCRUB_LAST_LO_ADDR_LO] },
   { name := "MIU_SCRUB_LAST_HI", off := 0x4c,
      fields := [F.MIU_SCRUB_LAST_HI_ADDR_HI] },
   { name := "MIU_LOG_HEAD", off := 0x50,
      fields := [F.MIU_LOG_HEAD_WRAPPED, F.MIU_LOG_HEAD_NEXT] },
   { name := "MIU_INJECT", off := 0x60,
      fields := [F.MIU_INJECT_ARM, F.MIU_INJECT_TARGET, F.MIU_INJECT_F1_EN, F.MIU_INJECT_F1, F.MIU_INJECT_F0_EN, F.MIU_INJECT_F0] },
   { name := "MIU_LOG0", off := 0x100, dims := [(16, 0x10)],
      fields := [F.MIU_LOG0_ADDR_LO] },
   { name := "MIU_LOG1", off := 0x104, dims := [(16, 0x10)],
      fields := [F.MIU_LOG1_KIND, F.MIU_LOG1_MEM, F.MIU_LOG1_REQ, F.MIU_LOG1_SYNDROME, F.MIU_LOG1_ADDR_HI] },
   { name := "MIU_LOG2", off := 0x108, dims := [(16, 0x10)],
      fields := [F.MIU_LOG2_TIME_LO] },
   { name := "MIU_LOG3", off := 0x10c, dims := [(16, 0x10)],
      fields := [F.MIU_LOG3_TIME_HI] }]

/-- The registers of block VLK, at offsets within the block. -/
def regs_vlk : List Reg :=
  [{ name := "VLK_CTL", off := 0x0,
      fields := [F.VLK_CTL_REBUILD_EN] },
   { name := "VLK_STATUS", off := 0x4,
      fields := [F.VLK_STATUS_SESSIONS, F.VLK_STATUS_TIME_SET, F.VLK_STATUS_LOCKED] },
   { name := "VLK_KEYS", off := 0x8,
      fields := [F.VLK_KEYS_IN_USE] },
   { name := "VLK_HWM_LO", off := 0xc,
      fields := [F.VLK_HWM_LO_HWM] },
   { name := "VLK_HWM_HI", off := 0x10,
      fields := [F.VLK_HWM_HI_HWM] },
   { name := "VLK_SQ_SEL", off := 0x14,
      fields := [F.VLK_SQ_SEL_SESSION] },
   { name := "VLK_SQ_INFO0", off := 0x18,
      fields := [F.VLK_SQ_INFO0_STATE, F.VLK_SQ_INFO0_FUNCTION, F.VLK_SQ_INFO0_MODES] },
   { name := "VLK_SQ_INFO1", off := 0x1c,
      fields := [F.VLK_SQ_INFO1_TITLE] },
   { name := "VLK_SQ_INFO2", off := 0x20,
      fields := [F.VLK_SQ_INFO2_BOARDS] },
   { name := "VLK_SB_STATUS", off := 0x24,
      fields := [F.VLK_SB_STATUS_STALE, F.VLK_SB_STATUS_REBUILDING] },
   { name := "VLK_SB_FILL", off := 0x28,
      fields := [F.VLK_SB_FILL_EXTENTS] },
   { name := "VLK_SB_TITLES", off := 0x2c,
      fields := [F.VLK_SB_TITLES_TITLES] }]
  ++
  [{ name := "VLK_CNT0", off := 0x30, counter := true,
      fields := [F.VLK_CNT0_OPENS, F.VLK_CNT0_OPEN_FAILS] },
   { name := "VLK_CNT1", off := 0x34, counter := true,
      fields := [F.VLK_CNT1_REFUSALS, F.VLK_CNT1_KEY_CONFLICTS, F.VLK_CNT1_KEYS_DROPPED] },
   { name := "VLK_CNT2", off := 0x38, counter := true,
      fields := [F.VLK_CNT2_DIR_READS, F.VLK_CNT2_FG_LOOKUPS] },
   { name := "VLK_CNT3", off := 0x3c, counter := true,
      fields := [F.VLK_CNT3_SERIAL_MISMATCH, F.VLK_CNT3_OVERFLOW] },
   { name := "VLK_PEV_HEAD", off := 0x40,
      fields := [F.VLK_PEV_HEAD_NEXT] },
   { name := "VLK_ROOT_ACTIVE", off := 0x100,
      fields := [F.VLK_ROOT_ACTIVE_ROOT] },
   { name := "VLK_ROOTr_ID", off := 0x110, dims := [(4, 0x4)],
      fields := [F.VLK_ROOTr_ID_ROOTID] },
   { name := "VLK_ROOTr_KEY", off := 0x140, dims := [(8, 0x4), (4, 0x20)],
      fields := [F.VLK_ROOTr_KEY_KEY] },
   { name := "VLK_PUB_EN", off := 0x3f0,
      fields := [F.VLK_PUB_EN_EN] },
   { name := "VLK_PUBp", off := 0x400, dims := [(24, 0x4), (8, 0x80)],
      fields := [F.VLK_PUBp_KEY] },
   { name := "VLK_REGIONn_BASE", off := 0x800, dims := [(32, 0x10)],
      fields := [F.VLK_REGIONn_BASE_BASE] },
   { name := "VLK_REGIONn_LIMIT", off := 0x804, dims := [(32, 0x10)],
      fields := [F.VLK_REGIONn_LIMIT_LIMIT] }]
  ++
  [{ name := "VLK_REGIONn_PERM", off := 0x808, dims := [(32, 0x10)],
      fields := [F.VLK_REGIONn_PERM_PERM] },
   { name := "VLK_SANDBOX", off := 0xa00,
      fields := [F.VLK_SANDBOX_WDOG, F.VLK_SANDBOX_OPEN_EN] },
   { name := "VLK_DEBUG", off := 0xa04,
      fields := [F.VLK_DEBUG_LEVEL] },
   { name := "VLK_PEV0", off := 0x80, dims := [(8, 0x10)],
      fields := [F.VLK_PEV0_ADDR_LO] },
   { name := "VLK_PEV1", off := 0x84, dims := [(8, 0x10)],
      fields := [F.VLK_PEV1_GROUP, F.VLK_PEV1_WRITE, F.VLK_PEV1_BL_WRITE, F.VLK_PEV1_ADDR_HI] },
   { name := "VLK_PEV2", off := 0x88, dims := [(8, 0x10)],
      fields := [F.VLK_PEV2_TIME_LO] },
   { name := "VLK_PEV3", off := 0x8c, dims := [(8, 0x10)],
      fields := [F.VLK_PEV3_TIME_HI] }]

/-- The registers of block QEN, at offsets within the block. -/
def regs_qen : List Reg :=
  [{ name := "QEN_WEIGHTS", off := 0x0,
      fields := [F.QEN_WEIGHTS_W1, F.QEN_WEIGHTS_W2, F.QEN_WEIGHTS_W3] },
   { name := "QEN_FETCH_CFG", off := 0x4,
      fields := [F.QEN_FETCH_CFG_FETCH_MAX] },
   { name := "QEN_INFLIGHT", off := 0x8,
      fields := [F.QEN_INFLIGHT_TOTAL, F.QEN_INFLIGHT_CLASS0] },
   { name := "QEN_HALT", off := 0x10,
      fields := [F.QEN_HALT_GO, F.QEN_HALT_QID] },
   { name := "QEN_HALT_STATUS", off := 0x14,
      fields := [F.QEN_HALT_STATUS_BUSY, F.QEN_HALT_STATUS_DONE, F.QEN_HALT_STATUS_REFUSED, F.QEN_HALT_STATUS_QID] },
   { name := "QEN_HALT_RESULT", off := 0x18,
      fields := [F.QEN_HALT_RESULT_RESULT] },
   { name := "QEN_DB_ERR", off := 0x1c, counter := true,
      fields := [F.QEN_DB_ERR_COUNT, F.QEN_DB_ERR_LAST_Q] },
   { name := "QEN_MQ_CTL", off := 0x30,
      fields := [F.QEN_MQ_CTL_CFG_ERR, F.QEN_MQ_CTL_ENABLE, F.QEN_MQ_CTL_DEPTH] },
   { name := "QEN_MQ_SQ_LO", off := 0x34,
      fields := [F.QEN_MQ_SQ_LO_BASE_LO] },
   { name := "QEN_MQ_SQ_HI", off := 0x38,
      fields := [F.QEN_MQ_SQ_HI_BASE_HI] },
   { name := "QEN_MQ_CQ_LO", off := 0x3c,
      fields := [F.QEN_MQ_CQ_LO_BASE_LO] },
   { name := "QEN_MQ_CQ_HI", off := 0x40,
      fields := [F.QEN_MQ_CQ_HI_BASE_HI] }]
  ++
  [{ name := "QEN_QSEL", off := 0x50,
      fields := [F.QEN_QSEL_QID] },
   { name := "QEN_QINFO0", off := 0x54,
      fields := [F.QEN_QINFO0_STATE, F.QEN_QINFO0_CLASS, F.QEN_QINFO0_DEPTH] },
   { name := "QEN_QINFO1", off := 0x58,
      fields := [F.QEN_QINFO1_SQ_HEAD, F.QEN_QINFO1_SQ_TAIL] },
   { name := "QEN_QINFO2", off := 0x5c,
      fields := [F.QEN_QINFO2_CQ_TAIL, F.QEN_QINFO2_PHASE, F.QEN_QINFO2_INFLIGHT] },
   { name := "QEN_CNT", off := 0x60, counter := true,
      fields := [F.QEN_CNT_DISCARDS, F.QEN_CNT_HALTS] }]

/-- The registers of block EP, at offsets within the block. -/
def regs_ep : List Reg :=
  [{ name := "EP_ORDER", off := 0x0,
      fields := [F.EP_ORDER_MODE] },
   { name := "EP_FN_STATUS", off := 0x4,
      fields := [F.EP_FN_STATUS_HELD, F.EP_FN_STATUS_BME, F.EP_FN_STATUS_DSTATE, F.EP_FN_STATUS_RO_ON, F.EP_FN_STATUS_IDO_REQ, F.EP_FN_STATUS_IDO_CPL, F.EP_FN_STATUS_MSIX_EN, F.EP_FN_STATUS_FN_MASK] },
   { name := "EP_CNT0", off := 0x8, counter := true,
      fields := [F.EP_CNT0_CPL_TIMEOUTS, F.EP_CNT0_CPL_FAILED] },
   { name := "EP_CNT1", off := 0xc, counter := true,
      fields := [F.EP_CNT1_CPL_DISCARDED, F.EP_CNT1_BAD_ACCESS] },
   { name := "EP_BAD_ACCESS", off := 0x10,
      fields := [F.EP_BAD_ACCESS_OFFSET] },
   { name := "EP_LINK", off := 0x40,
      fields := [F.EP_LINK_RATE, F.EP_LINK_WIDTH, F.EP_LINK_FLIT, F.EP_LINK_EQ_FULL, F.EP_LINK_UP] },
   { name := "EP_LINK_CNT", off := 0x44, counter := true,
      fields := [F.EP_LINK_CNT_RETRAINS, F.EP_LINK_CNT_SPEED_CHANGES] },
   { name := "EP_TAG_CFG", off := 0x48,
      fields := [F.EP_TAG_CFG_POOL, F.EP_TAG_CFG_RES0] },
   { name := "EP_TAG_STATUS", off := 0x4c,
      fields := [F.EP_TAG_STATUS_IN_USE, F.EP_TAG_STATUS_PEAK] },
   { name := "EP_EVT_STATUS", off := 0x50,
      fields := [F.EP_EVT_STATUS_PROTECTION, F.EP_EVT_STATUS_FIRMWARE, F.EP_EVT_STATUS_KERF, F.EP_EVT_STATUS_EVENTS, F.EP_EVT_STATUS_MIU_CE, F.EP_EVT_STATUS_MIU_UE, F.EP_EVT_STATUS_HALT_DONE, F.EP_EVT_STATUS_RANGE_DONE] },
   { name := "EP_EVT_CTL", off := 0x54,
      fields := [F.EP_EVT_CTL_ENABLE, F.EP_EVT_CTL_VECTOR, F.EP_EVT_CTL_MASK] },
   { name := "EP_BAR2_CFG", off := 0x60,
      fields := [F.EP_BAR2_CFG_APERTURE_LOG2] }]

/-- The registers of block HIC, at offsets within the block. -/
def regs_hic : List Reg :=
  [{ name := "HIC_SRCn_CFG", off := 0x4, dims := [(767, 0x4)],
      fields := [F.HIC_SRCn_CFG_TARGET, F.HIC_SRCn_CFG_PRIORITY, F.HIC_SRCn_CFG_SENSE] },
   { name := "HIC_PENDw", off := 0xc00, dims := [(24, 0x4)],
      fields := [F.HIC_PENDw_PEND] },
   { name := "HIC_INSERVICEw", off := 0xc80, dims := [(24, 0x4)],
      fields := [F.HIC_INSERVICEw_INSERVICE] },
   { name := "HIC_RAWw", off := 0xd00, dims := [(24, 0x4)],
      fields := [F.HIC_RAWw_RAW] },
   { name := "HIC_MTIME_LO", off := 0xe00,
      fields := [F.HIC_MTIME_LO_MTIME_LO] },
   { name := "HIC_MTIME_HI", off := 0xe04,
      fields := [F.HIC_MTIME_HI_MTIME_HI] },
   { name := "HIC_TRIGGER", off := 0xe10,
      fields := [F.HIC_TRIGGER_ID] },
   { name := "HIC_CNT", off := 0xe20, counter := true,
      fields := [F.HIC_CNT_EDGES_MERGED, F.HIC_CNT_BAD_COMPLETE] },
   { name := "HIC_Cc_THRESHOLD", off := 0x1000, dims := [(8, 0x1000)],
      fields := [F.HIC_C_THRESHOLD_THRESHOLD] },
   { name := "HIC_Cc_CLAIM", off := 0x1004, dims := [(8, 0x1000)],
      fields := [F.HIC_C_CLAIM_ID] },
   { name := "HIC_Cc_RUNPRI", off := 0x1008, dims := [(8, 0x1000)],
      fields := [F.HIC_C_RUNPRI_LAST, F.HIC_C_RUNPRI_RUNPRI] },
   { name := "HIC_Cc_MSIP", off := 0x100c, dims := [(8, 0x1000)],
      fields := [F.HIC_C_MSIP_MSIP] }]
  ++
  [{ name := "HIC_Cc_MTIMECMP_LO", off := 0x1010, dims := [(8, 0x1000)],
      fields := [F.HIC_C_MTIMECMP_LO_CMP_LO] },
   { name := "HIC_Cc_MTIMECMP_HI", off := 0x1014, dims := [(8, 0x1000)],
      fields := [F.HIC_C_MTIMECMP_HI_CMP_HI] },
   { name := "HIC_Cc_CORE_CNT", off := 0x1018, dims := [(8, 0x1000)], counter := true,
      fields := [F.HIC_C_CORE_CNT_SPURIOUS, F.HIC_C_CORE_CNT_CLAIMS] }]

/-- The registers of block SKD, at offsets within the block. -/
def regs_skd : List Reg :=
  [{ name := "SKD_STATUS", off := 0x0,
      fields := [F.SKD_STATUS_HALTED] },
   { name := "SKD_ACTIVE", off := 0x4,
      fields := [F.SKD_ACTIVE_ACTIVE] },
   { name := "SKD_ACTIVE_AT_HALT", off := 0x8,
      fields := [F.SKD_ACTIVE_AT_HALT_STOPPED] },
   { name := "SKD_CNT", off := 0xc, counter := true,
      fields := [F.SKD_CNT_BUS_ERRORS, F.SKD_CNT_DESC_ERRORS, F.SKD_CNT_ABORTS] },
   { name := "SKD_CHc_SRC_LO", off := 0x1000, dims := [(32, 0x1000)],
      fields := [F.SKD_CH_SRC_LO_SRC_LO] },
   { name := "SKD_CHc_SRC_HI", off := 0x1004, dims := [(32, 0x1000)],
      fields := [F.SKD_CH_SRC_HI_SRC_HI] },
   { name := "SKD_CHc_DST_LO", off := 0x1008, dims := [(32, 0x1000)],
      fields := [F.SKD_CH_DST_LO_DST_LO] },
   { name := "SKD_CHc_DST_HI", off := 0x100c, dims := [(32, 0x1000)],
      fields := [F.SKD_CH_DST_HI_DST_HI] },
   { name := "SKD_CHc_LENGTH", off := 0x1010, dims := [(32, 0x1000)],
      fields := [F.SKD_CH_LENGTH_LENGTH] },
   { name := "SKD_CHc_NEXT_LO", off := 0x1018, dims := [(32, 0x1000)],
      fields := [F.SKD_CH_NEXT_LO_NEXT_LO] },
   { name := "SKD_CHc_NEXT_HI", off := 0x101c, dims := [(32, 0x1000)],
      fields := [F.SKD_CH_NEXT_HI_NEXT_HI] },
   { name := "SKD_CHc_CTRL", off := 0x1014, dims := [(32, 0x1000)],
      fields := [F.SKD_CH_CTRL_FUNC, F.SKD_CH_CTRL_DHOST, F.SKD_CH_CTRL_SHOST, F.SKD_CH_CTRL_IRQ, F.SKD_CH_CTRL_BURST, F.SKD_CH_CTRL_DW, F.SKD_CH_CTRL_SW, F.SKD_CH_CTRL_DINC, F.SKD_CH_CTRL_SINC] }]
  ++
  [{ name := "SKD_CHc_CMD", off := 0x1020, dims := [(32, 0x1000)],
      fields := [F.SKD_CH_CMD_RESUME, F.SKD_CH_CMD_ABORT, F.SKD_CH_CMD_START] },
   { name := "SKD_CHc_STATUS", off := 0x1024, dims := [(32, 0x1000)],
      fields := [F.SKD_CH_STATUS_REFUSED, F.SKD_CH_STATUS_ERR_BUSY, F.SKD_CH_STATUS_GROUP3, F.SKD_CH_STATUS_CODE] },
   { name := "SKD_CHc_RESIDUE", off := 0x1028, dims := [(32, 0x1000)],
      fields := [F.SKD_CH_RESIDUE_RESIDUE] }]

/-- The registers of block FWU, at offsets within the block. -/
def regs_fwu : List Reg :=
  [{ name := "FWU_STATUS", off := 0x0,
      fields := [F.FWU_STATUS_RUN_STATE, F.FWU_STATUS_RUN_BANK, F.FWU_STATUS_ALT_STATE, F.FWU_STATUS_SCHEDULED, F.FWU_STATUS_HOST_CONFIRM, F.FWU_STATUS_SELFTEST_DONE, F.FWU_STATUS_SETTINGS_RESET, F.FWU_STATUS_LAST_RESULT, F.FWU_STATUS_LAST_REASON] },
   { name := "FWU_DL", off := 0x4,
      fields := [F.FWU_DL_LAST, F.FWU_DL_UNITS] },
   { name := "FWU_ACT_TIME_LO", off := 0x8,
      fields := [F.FWU_ACT_TIME_LO_TIME] },
   { name := "FWU_ACT_TIME_HI", off := 0xc,
      fields := [F.FWU_ACT_TIME_HI_TIME] },
   { name := "FWU_CONFIRM", off := 0x10,
      fields := [F.FWU_CONFIRM_WINDOW, F.FWU_CONFIRM_LEFT] },
   { name := "FWU_CFG", off := 0x14,
      fields := [F.FWU_CFG_FLUSH_LIMIT] },
   { name := "FWU_RUN_VER_LO", off := 0x18,
      fields := [F.FWU_RUN_VER_LO_VER] },
   { name := "FWU_RUN_VER_HI", off := 0x1c,
      fields := [F.FWU_RUN_VER_HI_VER] },
   { name := "FWU_ALT_VER_LO", off := 0x20,
      fields := [F.FWU_ALT_VER_LO_VER] },
   { name := "FWU_ALT_VER_HI", off := 0x24,
      fields := [F.FWU_ALT_VER_HI_VER] },
   { name := "FWU_SVN", off := 0x28,
      fields := [F.FWU_SVN_FLOOR] },
   { name := "FWU_SETTINGS", off := 0x2c,
      fields := [F.FWU_SETTINGS_SCHEMA, F.FWU_SETTINGS_FOUND] }]
  ++
  [{ name := "FWU_CNT", off := 0x30, counter := true,
      fields := [F.FWU_CNT_ACTIVATIONS, F.FWU_CNT_REJECTIONS, F.FWU_CNT_ROLLBACKS] }]

/-- The registers of block PWR, at offsets within the block. -/
def regs_pwr : List Reg :=
  [{ name := "PWR_CTL", off := 0x0,
      fields := [F.PWR_CTL_CORE_GATE, F.PWR_CTL_AUTO] },
   { name := "PWR_STATUS", off := 0x4,
      fields := [F.PWR_STATUS_DOMAINS, F.PWR_STATUS_FIELD_FAILED, F.PWR_STATUS_FIELD_READY, F.PWR_STATUS_FIELD_POWER, F.PWR_STATUS_AON_LOST] },
   { name := "PWR_RESET_CAUSE", off := 0x8,
      fields := [F.PWR_RESET_CAUSE_CAUSE] },
   { name := "PWR_CNT", off := 0xc, counter := true,
      fields := [F.PWR_CNT_WAKES, F.PWR_CNT_WAKE_WAITS] },
   { name := "PWR_ONw", off := 0x10, dims := [(3, 0x4)],
      fields := [F.PWR_ONw_ON] },
   { name := "PWR_HOLDw", off := 0x20, dims := [(3, 0x4)],
      fields := [F.PWR_HOLDw_HOLD] }]

/-- The registers of block FPW, at offsets within the block. -/
def regs_fpw : List Reg :=
  [{ name := "FPW_STATUS", off := 0x0,
      fields := [F.FPW_STATUS_STATE, F.FPW_STATUS_SAFE, F.FPW_STATUS_ON] },
   { name := "FPW_DOM", off := 0x4,
      fields := [F.FPW_DOM_HOLD, F.FPW_DOM_AUTO] },
   { name := "FPW_BOOT", off := 0x8,
      fields := [F.FPW_BOOT_GO, F.FPW_BOOT_CRC_FAIL, F.FPW_BOOT_SEQ_ERR] },
   { name := "FPW_BOOT_CRC", off := 0xc,
      fields := [F.FPW_BOOT_CRC_CRC] },
   { name := "FPW_VMECH_CFG", off := 0x10,
      fields := [F.FPW_VMECH_CFG_HIGH_MV, F.FPW_VMECH_CFG_LOW_MV] },
   { name := "FPW_VMECH_DIV", off := 0x14,
      fields := [F.FPW_VMECH_DIV_DIV] },
   { name := "FPW_VMECH_STATUS", off := 0x18,
      fields := [F.FPW_VMECH_STATUS_MV, F.FPW_VMECH_STATUS_HIGH, F.FPW_VMECH_STATUS_LOW, F.FPW_VMECH_STATUS_VALID] },
   { name := "FPW_CNT", off := 0x1c, counter := true,
      fields := [F.FPW_CNT_WAKES, F.FPW_CNT_VMECH_LOW, F.FPW_CNT_LOADS] },
   { name := "FPW_WINDOW", off := 0x20,
      fields := [F.FPW_WINDOW_TAPS1, F.FPW_WINDOW_TAPS0] }]

/-- The registers of block GLB, at offsets within the block. -/
def regs_glb : List Reg :=
  [{ name := "GLB_ID", off := 0x0,
      fields := [F.GLB_ID_FAMILY, F.GLB_ID_REVISION, F.GLB_ID_DEVICE] },
   { name := "GLB_STATUS", off := 0x4,
      fields := [F.GLB_STATUS_READY] },
   { name := "GLB_LOCK", off := 0x8,
      fields := [F.GLB_LOCK_LOCK] },
   { name := "GLB_SERIAL_LO", off := 0x10,
      fields := [F.GLB_SERIAL_LO_SERIAL] },
   { name := "GLB_SERIAL_HI", off := 0x14,
      fields := [F.GLB_SERIAL_HI_SERIAL] }]

/-- The registers of block TIM, at offsets within the block. -/
def regs_tim : List Reg :=
  [{ name := "TIM_NOW_LO", off := 0x0,
      fields := [F.TIM_NOW_LO_NOW] },
   { name := "TIM_NOW_HI", off := 0x4,
      fields := [F.TIM_NOW_HI_NOW] }]

/-- The registers of block KRF, at offsets within the block. -/
def regs_krf : List Reg :=
  [{ name := "KRF_Pn_TXDATA_LO", off := 0x0, dims := [(7, 0x1000)],
      fields := [F.KRF_TXDATA_LO_WORD] },
   { name := "KRF_Pn_TXDATA_HI", off := 0x4, dims := [(7, 0x1000)],
      fields := [F.KRF_TXDATA_HI_WORD] },
   { name := "KRF_Pn_TXCTL", off := 0x8, dims := [(7, 0x1000)],
      fields := [F.KRF_TXCTL_TXFREE, F.KRF_TXCTL_REFUSED, F.KRF_TXCTL_PUSH, F.KRF_TXCTL_TYPE] },
   { name := "KRF_Pn_RXDATA_LO", off := 0x10, dims := [(7, 0x1000)],
      fields := [F.KRF_RXDATA_LO_WORD] },
   { name := "KRF_Pn_RXDATA_HI", off := 0x14, dims := [(7, 0x1000)],
      fields := [F.KRF_RXDATA_HI_WORD] },
   { name := "KRF_Pn_RXCTL", off := 0x18, dims := [(7, 0x1000)],
      fields := [F.KRF_RXCTL_RXCOUNT, F.KRF_RXCTL_OVERFLOW, F.KRF_RXCTL_POP, F.KRF_RXCTL_VALID, F.KRF_RXCTL_TYPE] },
   { name := "KRF_Pn_STATUS", off := 0x20, dims := [(7, 0x1000)],
      fields := [F.KRF_STATUS_SIGNAL, F.KRF_STATUS_SAFE, F.KRF_STATUS_ECHO_LOST, F.KRF_STATUS_RETRAINED, F.KRF_STATUS_LANES, F.KRF_STATUS_STATE] },
   { name := "KRF_Pn_ERRCNT", off := 0x24, dims := [(7, 0x1000)], counter := true,
      fields := [F.KRF_ERRCNT_REPLAYS, F.KRF_ERRCNT_REFUSED] }]

/-- The registers of block FKR, at offsets within the block. -/
def regs_fkr : List Reg :=
  [{ name := "FKR_STATUS", off := 0x20,
      fields := [F.FKR_STATUS_SIGNAL, F.FKR_STATUS_SAFE, F.FKR_STATUS_ECHO_LOST, F.FKR_STATUS_RETRAINED, F.FKR_STATUS_LANES, F.FKR_STATUS_STATE] },
   { name := "FKR_ERRCNT", off := 0x24, counter := true,
      fields := [F.FKR_ERRCNT_REPLAYS, F.FKR_ERRCNT_REFUSED] }]

end Sys2Proof.Machine
end

