-- ==== Sys2Proof/Machine/StateAxp.lean ====
section
/-! DEFINITION. The live state of the axis profilers and of the yarder (chapter 09) that their registers do not hold.
Positions are in steps, velocities in steps/s, accelerations in steps/s²; all are exact numbers. -/
namespace Sys2Proof.Machine

/-- AXP_An_STATUS.STATE (R296, R321). -/
inductive AxState where
  | idle | moving | stopping | kept | homing | follow | limit | fault
  deriving DecidableEq, Repr

/-- The code of an axis state (R321). -/
def AxState.code : AxState → Nat
  | .idle => 0 | .moving => 1 | .stopping => 2 | .kept => 3 | .homing => 4 | .follow => 5 | .limit => 6 | .fault => 7

/-- The homing phases (R305). -/
inductive HPhase where
  | release | search | backoff | approach
  deriving DecidableEq, Repr

/-- The code of a homing phase (R321). -/
def HPhase.code : HPhase → Nat
  | .release => 1 | .search => 2 | .backoff => 3 | .approach => 4

/-- The refusal codes (R321). -/
inductive AxRefuse where
  | targetUnreachable | notHomed | limit | busy | nothingKept | disabled
  deriving DecidableEq, Repr

/-- The code of a refusal (R321). -/
def AxRefuse.code : AxRefuse → Nat
  | .targetUnreachable => 1 | .notHomed => 2 | .limit => 3 | .busy => 4 | .nothingKept => 5 | .disabled => 6

/-- The axis faults (R321). -/
inductive AxFault where
  | homingFault | switchChatter | limitTrip
  deriving DecidableEq, Repr

/-- The code of an axis fault (R321). -/
def AxFault.code : AxFault → Nat
  | .homingFault => 1 | .switchChatter => 2 | .limitTrip => 3

/-- What an axis does once a stop has brought it to rest. -/
inductive AfterStop where
  /-- Keep the remaining distance (R296). -/
  | keep
  /-- Nothing is kept (R296, R299, R306). -/
  | drop
  /-- A MOVE written while stopping starts from rest (R296). -/
  | move
  /-- The next phase of homing starts (R305). -/
  | phase (p : HPhase)
  /-- The search goes on the other way (R306). -/
  | reverse
  /-- Homing has ended (R305). -/
  | homed
  deriving DecidableEq, Repr

/-- One axis. -/
structure Axis where
  st      : AxState := .idle
  hphase  : Option HPhase := none
  refuse  : Option AxRefuse := none
  fault   : Option AxFault := none
  homed   : Bool := false
  atSoft  : Bool := false
  reversed : Bool := false
  p       : Rat := 0
  v       : Rat := 0
  a       : Rat := 0
  target  : Int := 0
  kept    : Int := 0
  /-- A stop is under way, and what follows it. -/
  after   : Option AfterStop := none
  /-- Where the homing phase began, where BACKOFF ends, and limit trips of this homing (R305, R306). -/
  hstart  : Rat := 0
  hback   : Option Rat := none
  htrips  : Nat := 0
  capture : Int := 0
  /-- The direction output's level (R293). -/
  dir     : Bool := false
  /-- The sign of the demand that AT_SOFT ignores (R299). -/
  softDir : Int := 0
  deriving DecidableEq, Repr

/-- One switch input (R302). -/
structure Switch where
  /-- The present input and the confirmed level, true when active. -/
  raw    : Bool := false
  level  : Bool := false
  /-- The position at the first raw edge towards the new level. -/
  latch  : Option Int := none
  /-- Clock values of the confirmed edges of the last window, newest first, and of the last raw edge (R303). -/
  edges  : List Nat := []
  lastRaw : Option Nat := none
  deriving DecidableEq, Repr

/-- AXP_GRPg_STATUS.STATE (R321). -/
inductive GrpState where
  | idle | moving | stopping | kept
  deriving DecidableEq, Repr

/-- The code of a group state (R321). -/
def GrpState.code : GrpState → Nat
  | .idle => 0 | .moving => 1 | .stopping => 2 | .kept => 3

/-- One interpolation group: its path parameter s of 0 to L with its speed and acceleration (R300, R301). -/
structure Grp where
  st      : GrpState := .idle
  refuse  : Option AxRefuse := none
  s       : Rat := 0
  v       : Rat := 0
  a       : Rat := 0
  len     : Nat := 0
  start   : Vector Int 8 := Vector.replicate 8 0
  delta   : Vector Int 8 := Vector.replicate 8 0
  lead    : Nat := 0
  /-- A MOVE written while the group moves waits for it to rest (R301). -/
  again   : Bool := false
  deriving DecidableEq, Repr

/-- The axis profiler of one field die. -/
structure Axp where
  axes   : Vector Axis 8 := Vector.replicate 8 {}
  groups : Vector Grp 4 := Vector.replicate 4 {}
  sw     : Vector Switch 12 := Vector.replicate 12 {}
  /-- The holdover has ended: step outputs stay low (R307). -/
  dead   : Bool := false
  deriving DecidableEq, Repr

/-- YRD_STATUS.STATE (R322). -/
inductive YrdState where
  | idle | transfer | inventory | doorHold | homing | fault
  deriving DecidableEq, Repr

/-- The code of a yarder state (R322). -/
def YrdState.code : YrdState → Nat
  | .idle => 0 | .transfer => 1 | .inventory => 2 | .doorHold => 3 | .homing => 4 | .fault => 5

/-- The motions of a transfer, one or two to a step (R313). -/
inductive Motion where
  | toP | swingP | lowerP | gripP | comp | liftP | parkP | toQ | swingQ | lowerQ | openQ | riseQ | parkQ
  deriving DecidableEq, Repr

/-- The step of R313 that a motion belongs to. -/
def Motion.step : Motion → Nat
  | .toP => 1 | .swingP => 2 | .lowerP | .gripP => 3 | .comp | .liftP => 4 | .parkP => 5 | .toQ => 6
  | .swingQ | .lowerQ => 7 | .openQ => 8 | .riseQ | .parkQ => 9

/-- A transfer asked for: its places and its work item (R313). -/
structure TransferJob where
  src  : Nat
  dst  : Nat
  item : Option Nat
  deriving DecidableEq, Repr

/-- How a failed transfer puts the arm away before it ends (R314). -/
inductive Putaway where
  | gripHome (result : Nat) | armPark (result : Nat)
  deriving DecidableEq, Repr

/-- The yarder. -/
structure Yrd where
  state   : YrdState := .idle
  motion  : Option Motion := none
  job     : Option TransferJob := none
  waiting : List TransferJob := []
  away    : Option Putaway := none
  holding : Bool := false
  /-- HEAD_DISC and the door as confirmed (R302, R315). -/
  door    : Bool := false
  /-- The state the door interrupted (R315). -/
  before  : YrdState := .idle
  /-- The transfer's work item has ended at DOOR_TIMEOUT, and its disc goes back to P (R315). -/
  timedOut : Bool := false
  /-- The door has opened since FAULT was entered (R314, R317). -/
  cycled  : Bool := false
  /-- A disc found in the gripper at power-up (R317). -/
  orphan  : Bool := false
  /-- Position of G when the grip began, and its force flag (R311). -/
  gripAt  : Int := 0
  gripping : Bool := false
  contact : Bool := false
  contactAt : Int := 0
  last    : Nat × Nat × Nat := (0, 0, 0)
  /-- Places that crew firmware's map shows occupied, rising (R313). -/
  occupied : List Nat := []
  /-- Decks 0–15 and the mail slots (16) not scanned since the door closed (R316). -/
  unscanned : List Nat := []
  /-- The deck under scan. -/
  scanning : Option Nat := none
  /-- An inventory is due once ENABLE is set or the yarder has homed (R316, R322). -/
  invDue  : Bool := false
  /-- Axes still to be homed by the power-up sequence G, T, Z, X (R317). -/
  homeLeft : List (Fin 8) := []
  deriving DecidableEq, Repr

end Sys2Proof.Machine
end

