-- ==== Sys2Proof/Machine/StateCru.lean ====
section
/-! DEFINITION. The live state of a bay's cruise calibration (chapter 10) that its registers do not hold. -/
namespace Sys2Proof.Machine

/-- The calibration items (R330). -/
inductive CruItem where
  | focus | sa | tilt | taps | adc | rpwr | asym
  deriving DecidableEq, Repr

/-- The ITEM_EN bit of an item (R330). -/
def CruItem.bit : CruItem → Nat
  | .focus => 0 | .sa => 1 | .tilt => 2 | .taps => 3 | .adc => 4 | .rpwr => 5 | .asym => 6

/-- The triggers of a run, the highest first (R324, R326). -/
inductive CruTrigger where
  | now | mount | layer | temp
  deriving DecidableEq, Repr

/-- The PENDING bit of a trigger within its field (R343): NOW highest. -/
def CruTrigger.bit : CruTrigger → Nat
  | .now => 3 | .mount => 2 | .layer => 1 | .temp => 0

/-- CRU_STATUS.STATE (R343). -/
inductive CruState where
  | idle | wait | dark | layer | spot | taps | paused
  deriving DecidableEq, Repr

/-- The code of a calibrator state (R343). -/
def CruState.code : CruState → Nat
  | .idle => 0 | .wait => 1 | .dark => 2 | .layer => 3 | .spot => 4 | .taps => 5 | .paused => 6

/-- CRU_STATUS.LAST_CAUSE (R343). -/
inductive CruCause where
  | disagree | fit | range | reject | noData
  deriving DecidableEq, Repr

/-- The code of a cause (R343). -/
def CruCause.code : CruCause → Nat
  | .disagree => 1 | .fit => 2 | .range => 3 | .reject => 4 | .noData => 5

/-- One thing left to do in a run (R329). -/
inductive CruTodo where
  | item (i : CruItem) (spot : Fin 7)
  | commitLayer
  | release (spot : Fin 7)
  | snapshot
  deriving DecidableEq, Repr

/-- A run under way (R324–R335). -/
structure CruRun where
  layer   : Nat
  /-- The contents called for TEMP, so DONE of other layers has been cleared (R324). -/
  todo    : List CruTodo
  /-- Work items of CRUISE that end with the run, and whether NOW called for it (R340, R343). -/
  items   : List Nat := []
  now     : Bool := false
  /-- The item's attempt, 1–4, its first measurement, and the points of the scan so far (R331, R335). -/
  attempt : Nat := 0
  first   : Option (List Rat) := none
  points  : List Rat := []
  /-- Where the scan is centred, in steps from the active value (R331). -/
  centre  : Int := 0
  repeats : Nat := 0
  /-- References to go back to if the run is aborted, in 1/16 °C (R325). -/
  prev    : Int × Int := (0, 0)
  /-- This run's flags in the layout of CRU_FLAGS (R340). -/
  flags   : Nat := 0
  /-- The borrowed spot with its saved loop words: PGA, OFS, ASYM (R328). -/
  saved   : Nat × Nat × Nat := (0, 0, 0)
  /-- Layer items were dropped because the layer had changed: DONE is left 0 (R337). -/
  dropped : Bool := false
  /-- First readings of the live taps of each spot (R333). -/
  snap    : Option (List (List Int)) := none
  deriving DecidableEq, Repr

/-- The cruise calibrator's part for one bay. -/
structure Cru where
  state   : CruState := .idle
  /-- Triggers pending with the clock values at which they were raised (R324, R326). -/
  pending : List (CruTrigger × Nat) := []
  /-- CRUISE work items waiting for the pending NOW (R340). -/
  items   : List Nat := []
  run     : Option CruRun := none
  borrowed : Option (Fin 7) := none
  starved : Bool := false
  cause   : Option CruCause := none
  /-- Flags of the last run that ended (R340). -/
  flags   : Nat := 0
  /-- Squares of TE and turns since the last bay figure (R339). -/
  teSq    : Rat := 0
  teN     : Nat := 0
  deriving DecidableEq, Repr

end Sys2Proof.Machine
end

