-- ==== Sys2Proof/Machine/StateKerf.lean ====
section
/-! DEFINITION. The state of the kerf links (chapter 01) and of the field dies' boot, safe state and open work (chapters 01
and 20) that their registers do not hold. -/
namespace Sys2Proof.Machine

/-! ## Kerf ports -/

/-- One end of a port as a sender (R22, R29, R30). -/
structure TxEnd where
  /-- Messages waiting, oldest first; the first of each class may be partly sent. -/
  queue   : List Msg := []
  /-- Words already sent of the first waiting message of each class K0–K5. -/
  sent    : Vector Nat 6 := Vector.replicate 6 0
  /-- Next header TAG of each class (R27). -/
  tag     : Vector Nat 6 := Vector.replicate 6 0
  /-- Number of the next flit; its slot is the number modulo 16 (R22). -/
  number  : Nat := 0
  /-- Flits not yet acknowledged, oldest first, with their numbers (R29). -/
  replay  : List (Nat × Flit) := []
  /-- Flits of the replay buffer still to be sent again, oldest first. -/
  resend  : List (Nat × Flit) := []
  /-- Receive credits of each class in words (R30). -/
  credits : Vector Nat 6 := Vector.replicate 6 0
  /-- Round-robin credits of K3, K4 and K5 (R22). -/
  wrr     : Vector Nat 3 := Vector.replicate 3 0
  /-- The flit named by the last LINK_NAK, and its consecutive replays (R29). -/
  nakOf   : Option Nat := none
  nakRun  : Nat := 0
  /-- The last flit put on the lanes. -/
  wire    : Option Flit := none
  deriving DecidableEq, Repr

/-- The open message of a class at a receiver, or the continuations of a refused one still to be passed over (R27). -/
inductive OpenMsg where
  | taking (m : Msg) (tag need : Nat)
  | skipping (tag left : Nat)
  deriving DecidableEq, Repr

/-- One end of a port as a receiver (R27, R29, R30). -/
structure RxEnd where
  /-- The TAG expected of the next header of each class; none takes any (R27). -/
  expect  : Vector (Option Nat) 6 := Vector.replicate 6 none
  opens   : Vector (Option OpenMsg) 6 := Vector.replicate 6 none
  /-- Number of the last good flit, and good flits since the last CREDIT word sent (R29). -/
  good    : Option Nat := none
  since   : Nat := 0
  /-- A LINK_NAK is out and the first replayed flit has not arrived (R27, R29). -/
  waiting : Bool := false
  /-- Whole messages accepted and not yet acted on, oldest first. -/
  inbox   : List Msg := []
  deriving DecidableEq, Repr

/-- KRF_Pn_STATUS.STATE (R33). -/
inductive PortState where
  | down | training | up | absent
  deriving DecidableEq, Repr

/-- The code of a port state (R33). -/
def PortState.code : PortState → Nat
  | .down => 0 | .training => 1 | .up => 2 | .absent => 3

/-- A QUEUE_RESET or HALT that the hub has sent and that is not answered (R659). -/
structure Awaiting where
  msg   : Msg
  sends : Nat
  deriving DecidableEq, Repr

/-- One kerf port: both ends, and the hub's software queues (R31, R32). -/
structure Port where
  state   : PortState := .down
  lanes   : Nat := 0
  /-- Lane 0 of the hub end detects a field-side transmitter (R33). -/
  signal  : Bool := false
  safe    : Bool := false
  hubTx   : TxEnd := {}
  hubRx   : RxEnd := {}
  fieldTx : TxEnd := {}
  fieldRx : RxEnd := {}
  /-- Consecutive failed retrains (R29). -/
  failed  : Nat := 0
  /-- Continuation words still owed after a pushed K1 header (R31). -/
  owed    : Option (Msg × Nat) := none
  /-- The software receive queue: type and word, oldest first (R32). -/
  swRx    : List (Nat × Word64) := []
  /-- Device time of the last heartbeat sent and clock value of the last echo (R35). -/
  beat    : Nat := 0
  echo    : Nat := 0
  /-- QUEUE_RESET sequence number, and the resets and halts without an answer (R659). -/
  seq     : Nat := 0
  resets  : List Awaiting := []
  halts   : List Awaiting := []
  deriving DecidableEq, Repr

/-- The sending end of one side. -/
def Port.tx (p : Port) : Side → TxEnd
  | .hub => p.hubTx | .field => p.fieldTx

/-- The receiving end of one side. -/
def Port.rx (p : Port) : Side → RxEnd
  | .hub => p.hubRx | .field => p.fieldRx

/-- Replace the sending end of one side. -/
def Port.setTx (p : Port) (s : Side) (t : TxEnd) : Port :=
  match s with | .hub => { p with hubTx := t } | .field => { p with fieldTx := t }

/-- Replace the receiving end of one side. -/
def Port.setRx (p : Port) (s : Side) (r : RxEnd) : Port :=
  match s with | .hub => { p with hubRx := r } | .field => { p with fieldRx := r }

/-! ## Field dies -/

/-- The work kinds of R24. -/
inductive WorkKind where
  | read | record | seek | mount | unmount | transfer | cruise | verify
  deriving DecidableEq, Repr

/-- The KIND code of a work item (R24). -/
def WorkKind.code : WorkKind → Nat
  | .read => 1 | .record => 2 | .seek => 3 | .mount => 4 | .unmount => 5 | .transfer => 6 | .cruise => 7 | .verify => 8

/-- One open work item of a field die (R24). -/
structure DieItem where
  kind : WorkKind
  item : Nat
  cls  : Nat
  bay  : Nat
  func : Nat
  qid  : Nat
  cont : Nat := 0
  /-- Its motion or its log has begun (R24, R169). -/
  begun : Bool := false
  deriving DecidableEq, Repr

/-- FPW_STATUS.STATE (R593). -/
inductive BootState where
  | romWait | loading | loaded | running
  deriving DecidableEq, Repr

/-- The code of a boot state (R593). -/
def BootState.code : BootState → Nat
  | .romWait => 0 | .loading => 1 | .loaded => 2 | .running => 3

/-- The actions of HALT (R23). -/
inductive HaltAction where
  | safe | release | stopBay (mask : Fin 4) | resetDie
  deriving DecidableEq, Repr

/-- A QUEUE_RESET that waits for logs in progress to end: its sequence number, the counts so far, and the items awaited
(R659). -/
structure WaitingReset where
  seq     : Nat
  dropped : Nat
  partly  : Nat
  items   : List Nat
  deriving DecidableEq, Repr

/-- One field die apart from its functional blocks. -/
structure DieSt where
  /-- The die's rails are in tolerance and PGOOD_F is high (R575); the die is held in reset otherwise. -/
  power   : Bool := false
  boot    : BootState := .romWait
  safe    : Bool := true
  /-- The chunks stored since the die's reset: part, chunk number, whether it was the last, and words (R589). -/
  chunks  : List (Nat × Nat × Bool × List Word64) := []
  /-- CRC-32C register over the continuation words since reset (R590). -/
  crc     : Nat := 0xFFFFFFFF
  crcFail : Bool := false
  seqErr  : Bool := false
  /-- Failed loads, and the die given up (R590). -/
  fails   : Nat := 0
  failed  : Bool := false
  /-- Device time as the last HEARTBEAT gave it, and the clock value of its arrival (R35, R42). -/
  time    : Nat := 0
  beat    : Nat := 0
  /-- A heartbeat has arrived since the safe state was entered (R37). -/
  resumed : Bool := false
  /-- The die runs from its own oscillator (R39). -/
  clkLost : Bool := false
  items   : List DieItem := []
  /-- Sequence numbers answered, with the words sent (R659), and resets waiting for a log in progress. -/
  answers : List (Nat × Word64) := []
  waitingResets : List WaitingReset := []
  /-- VMECH_SENSE: the last 16 conversions as ADC codes, the clock of the last, MV, and whether the ball was in range (R577). -/
  vmech   : List Nat := []
  vmechAt : Option Nat := none
  vmechMv : Nat := 0
  vmechOk : Bool := false
  low     : Bool := false
  high    : Bool := false
  /-- Domains on, by bit in table order (R593), and a wake under way. -/
  on      : Nat := 1
  /-- The junction over-temperature condition (R638). -/
  hot     : Bool := false
  /-- Die temperature in 1/16 °C. -/
  temp    : Int := 0
  /-- Bays whose disc is mounted, by place in the die. -/
  mounted : Vector Bool 2 := Vector.replicate 2 false
  deriving DecidableEq, Repr

end Sys2Proof.Machine
end

