-- ==== Sys2Proof/Machine/StateLat.lean ====
section
/-! DEFINITION. The live state of the lattice detector (chapter 04) that its registers do not hold. -/
namespace Sys2Proof.Machine

/-- The sync states (R127, R162). -/
inductive SyncState where
  | search | verify | locked | flywheel
  deriving DecidableEq, Repr

/-- The code of a sync state (R162). -/
def SyncState.code : SyncState → Nat
  | .search => 0 | .verify => 1 | .locked => 2 | .flywheel => 3

/-- Causes of a board's erasure (R145). -/
inductive EraseCause where
  | ldpcFail | crcFail | misplaced | syncLost | blank | overload | borrowed | rebuildMismatch
  deriving DecidableEq, Repr

/-- The code of a cause (R145). -/
def EraseCause.code : EraseCause → Nat
  | .ldpcFail => 1 | .crcFail => 2 | .misplaced => 3 | .syncLost => 4 | .blank => 5 | .overload => 6 | .borrowed => 7
  | .rebuildMismatch => 8

/-- How the payload of a frame counts (R127, R128, R129). -/
inductive FrameUse where
  | used | zero | fly
  deriving DecidableEq, Repr

/-- One decided frame of a spot's current slots. -/
structure FrameRec where
  addr : Nat
  use  : FrameUse
  deriving DecidableEq, Repr

/-- Channel-bit values of one detected slice at their place in the slot, each with its weight of 0–8 (R137). -/
structure SoftSlice where
  slot  : Nat
  start : Nat
  vals  : List (Int × Nat)
  deriving DecidableEq, Repr

/-- The figures of the running quality window (R150). -/
structure QualSums where
  codewords : Nat := 0
  bits      : Nat := 0
  errs      : Nat := 0
  iters     : Nat := 0
  counted   : Nat := 0
  cwFail    : Nat := 0
  sqErr     : Rat := 0
  sqErrN    : Nat := 0
  jit       : Rat := 0
  jitN      : Nat := 0
  deriving DecidableEq, Repr

/-- One spot of the detector. -/
structure LatSpot where
  sync    : SyncState := .search
  /-- Consecutive misses (R127). -/
  misses  : Nat := 0
  /-- The last grid address (R126). -/
  addr    : Nat := 0
  /-- T and τ in samples, and z[n − 1], d[n − 1] (R118). -/
  period  : Rat := 0
  tau     : Rat := 0
  zPrev   : Rat := 0
  dPrev   : Rat := 0
  /-- The last decided levels, newest first, as far back as the target reaches (R125). -/
  levels  : List Bool := []
  /-- Live taps in units of 2^-18: own i = −7…7, inner and outer j = −2…2 (R121, R122). -/
  own     : List Int := (List.replicate 7 0) ++ [262144] ++ List.replicate 7 0
  inner   : List Int := List.replicate 5 0
  outer   : List Int := List.replicate 5 0
  /-- Frames decided, newest first, of the slots still open (R131). -/
  frames  : List FrameRec := []
  /-- Boards marked for erasure before decoding: slot and cause (R127, R130, R135). -/
  marked  : List (Nat × EraseCause) := []
  /-- Channel values detected for open slots (R137). -/
  soft    : List SoftSlice := []
  /-- Where the slice being filled starts in its slot (R133). -/
  start   : Nat := 0
  slot    : Nat := 0
  /-- Frames whose slices were dropped, with their slots (R135). -/
  dropped : List (Nat × Nat) := []
  /-- The soft decision before the first bit of the next slice (R137). -/
  lastSoft : Int := 0
  /-- This spot has taken its part of the pending channel set (R151). -/
  chTaken : Bool := false
  /-- It has taken its part of the pending read-power group (R341). -/
  rpTaken : Bool := false
  /-- The 16 path metrics saved at the end of the last slice (R133). -/
  metrics : List Int := List.replicate 16 0
  qual    : QualSums := {}
  deriving DecidableEq, Repr

/-- What became of one board in the present pass. -/
inductive BoardOutcome where
  | decoded (bytes : Bytes) (spot iters pass : Nat) (changed : Bool)
  | rebuilt (bytes : Bytes) (pass : Nat)
  | erased (cause : EraseCause)
  deriving DecidableEq, Repr

/-- A log under assembly (R142). -/
structure LogAsm where
  layer   : Nat
  area    : Nat
  log     : Nat
  /-- The work item that asks for it, and the miss register its words name (R24, R144). -/
  item    : Option Nat
  missreg : Nat := 0
  system  : Bool := false
  verify  : Bool := false
  cls     : Nat := 1
  pass    : Nat := 0
  /-- The log was undecodable in this pass and waits for its retry (R142, R148). -/
  retry   : Bool := false
  boards  : List (Option BoardOutcome) := List.replicate 21 none
  /-- INDEX values already sent as BOARD_DATA (R142). -/
  sent    : List Nat := []
  deriving DecidableEq, Repr

/-- One closed slice (R133). -/
structure Slice where
  bay   : Bay
  spot  : Fin 7
  cls   : Nat
  slot  : Nat
  start : Nat
  len   : Nat
  deriving DecidableEq, Repr

/-- One codeword waiting for the LDPC decoder (R140). -/
structure Codeword where
  bay   : Bay
  spot  : Fin 7
  layer : Nat
  area  : Nat
  slot  : Nat
  llr   : List Int
  /-- The board is an erasure whatever the decoder reports (R130). -/
  mark  : Option EraseCause := none
  deriving DecidableEq, Repr

/-- The per-bay part of the detector. -/
structure LatBay where
  spots : Vector LatSpot 7 := Vector.replicate 7 {}
  logs  : List LogAsm := []
  /-- A retry revolution is in progress (R157). -/
  retry : Bool := false
  /-- An acquisition has begun and no slice boundary has followed it (R151). -/
  acqSlice : Bool := false
  /-- The MOUNT item whose system logs are being read (R68, R318). -/
  mount : Option Nat := none
  /-- Of the system logs read at this mount: some is recorded, some decoded (R68). -/
  seenLog : Bool := false
  goodLog : Bool := false
  deriving DecidableEq, Repr

/-- The shared engines of a bay die. -/
structure LatDie where
  /-- The slice in the sequence detector, and the slices ready, oldest first (R134). -/
  current : Option Slice := none
  slices : List Slice := []
  /-- Weighted round robin credits of classes 1–3 (R134). -/
  wrr    : List Nat := []
  ldpc   : List Codeword := []
  /-- Clock in ns and picoseconds of work of the last 100 µs, newest first (R154). -/
  detBusy  : List (Nat × Nat) := []
  ldpcBusy : List (Nat × Nat) := []
  deriving DecidableEq, Repr

end Sys2Proof.Machine
end

