-- ==== Sys2Proof/Machine/StateRec.lean ====
section
/-! DEFINITION. The live state of the recording path of one bay (chapter 05) that its registers do not hold. -/
namespace Sys2Proof.Machine

/-- REC_STATUS.STATE (R184). -/
inductive RecState where
  | idle | slew | opc | check | write | stopped
  deriving DecidableEq, Repr

/-- The code of a recorder state (R184). -/
def RecState.code : RecState → Nat
  | .idle => 0 | .slew => 1 | .opc => 2 | .check => 3 | .write => 4 | .stopped => 5

/-- One open RECORD item with the boards that have arrived (R24, R26, R165). -/
structure RecItem where
  item  : Nat
  cls   : Nat
  layer : Nat
  area  : Nat
  log   : Nat
  mask  : Nat
  /-- Boards supplied: INDEX and the whole board as sent. -/
  boards : List (Nat × Bytes) := []
  deriving DecidableEq, Repr

/-- A log whose 21 boards have been built (R165, R166). -/
structure BuiltLog where
  item  : Nat
  layer : Nat
  area  : Nat
  log   : Nat
  boards : List Bytes
  deriving DecidableEq, Repr

/-- The log being written, with the strategy it started with (R169, R172). -/
structure Writing where
  log   : BuiltLog
  band  : Nat
  /-- REC_PWRTAB word, and the four REC_STRAT words of its layer and band. -/
  power : Word
  strat : List Word
  deriving DecidableEq, Repr

/-- What the recorder keeps of the power tests of one layer since mount (R178). -/
structure OpcLayer where
  layer : Nat
  temp  : Int
  /-- The first slot after the last used test position. -/
  next  : Nat
  deriving DecidableEq, Repr

/-- The recording path of one bay. -/
structure Rec where
  state   : RecState := .idle
  items   : List RecItem := []
  built   : List BuiltLog := []
  /-- Check results: layer, area, log and whether the log may be written; valid until the swath is left (R168). -/
  checks  : List (Nat × Nat × Nat × Bool) := []
  writing : Option Writing := none
  /-- The speed has settled at the recording speed (R167). -/
  settled : Bool := false
  /-- A power test waits to run (R178, R186). -/
  opcDue  : Bool := false
  opc     : List OpcLayer := []
  opcEdge  : Bool := false
  opcRange : Bool := false
  barkOk   : Bool := false
  wi       : Bool := false
  /-- Laser-driver link: consecutive discarded reports, turns without a report, and the fault (R174). -/
  linkBad   : Nat := 0
  linkTurns : Nat := 0
  linkFault : Bool := false
  /-- Measured peak power code and status bits of each emitter from the last good report (R645). -/
  power     : Vector Nat 7 := Vector.replicate 7 0
  status    : Vector Nat 7 := Vector.replicate 7 0
  /-- The command frame last sent: SYNC, mode, enables, levels, CRC as one number of 272 bits (R644). -/
  frame     : Nat := 0
  /-- RECORDER identity given by the hub at bring-up (R62, R165). -/
  recorder  : Bytes := []
  deriving DecidableEq, Repr

end Sys2Proof.Machine
end

