-- ==== Sys2Proof/Machine/StateServo.lean ====
section
/-! DEFINITION. The live state of the optical servo of a bay (chapter 06) and of the turn engine of a field die
(chapter 07) that their registers do not hold. -/
namespace Sys2Proof.Machine

/-! ## Optical servo -/

/-- TRN_OSV_STATUS.FSTATE (R196, R210). -/
inductive FState where
  | off | sweep | capture | locked | hold | jump | failed
  deriving DecidableEq, Repr

/-- The code of a focus state (R210). -/
def FState.code : FState → Nat
  | .off => 0 | .sweep => 1 | .capture => 2 | .locked => 3 | .hold => 4 | .jump => 5 | .failed => 6

/-- TRN_OSV_STATUS.TSTATE (R210). -/
inductive TState where
  | off | capture | locked | hold | jump
  deriving DecidableEq, Repr

/-- The code of a tracking state (R210). -/
def TState.code : TState → Nat
  | .off => 0 | .capture => 1 | .locked => 2 | .hold => 3 | .jump => 4

/-- A manoeuvre request: what it asks for and the work item it serves (R206, R211, R212). -/
inductive Manoeuvre where
  | reacquire
  | layer (l : Nat)
  | track (turns : Int)
  | seek  (l area slot : Nat)
  deriving DecidableEq, Repr

/-- TRN_MOVE.TYPE of a manoeuvre (R211). -/
def Manoeuvre.code : Manoeuvre → Nat
  | .reacquire => 1 | .layer _ => 2 | .track _ => 3 | .seek _ _ _ => 4

/-- What a manoeuvre serves: a register write, a SEEK item, the reading of a log, the retry of a swath, or the spiral check
(R148, R200, R206). -/
inductive MoveOwner where
  | register | item (id : Nat) | read | retry | spiral
  deriving DecidableEq, Repr

/-- A request with its owner. -/
structure MoveReq where
  move  : Manoeuvre
  owner : MoveOwner
  deriving DecidableEq, Repr

/-- How far the manoeuvre under way has come (R202, R203, R204). -/
inductive MovePhase where
  | idle
  | reacquire
  | layerKick (target final : Nat)
  | layerBrake (target final : Nat)
  | layerCapture (target final : Nat)
  | trackKick (turns : Int)
  | trackBrake (turns : Int)
  | trackCapture
  | coarse
  | landing
  deriving DecidableEq, Repr

/-- The optical servo of one bay. -/
structure Osv where
  f        : FState := .off
  t        : TState := .off
  tries    : Nat := 0
  /-- Layer in use, and the layer a capture aims at (R196, R210). -/
  layer    : Nat := 0
  target   : Nat := 0
  /-- SUM_REF, and its measurement: turns left and running sum (R196). -/
  sumRef   : Rat := 0
  refLeft  : Nat := 0
  refSum   : Rat := 0
  /-- Consecutive turns below a lock threshold, below and above LOSS_TH (R196, R198, R199). -/
  flockRun : Nat := 0
  tlockRun : Nat := 0
  lowRun   : Nat := 0
  highRun  : Nat := 0
  /-- The sweep at mount counts surfaces only; later sweeps capture (R197). -/
  counting : Bool := false
  peaks    : Nat := 0
  /-- The running maximum of SUM3 in this sweep, and whether SUM3 has risen above 30 % of it (R197). -/
  sweepMax : Rat := 0
  risen    : Bool := false
  /-- The manoeuvre under way, its phase, the request pending, and the last clock value it started (R206). -/
  move     : Option MoveReq := none
  phase    : MovePhase := .idle
  pending  : Option MoveReq := none
  /-- SUM3 has passed its minimum during a layer kick (R202). -/
  passedMin : Bool := false
  sumMin   : Rat := 0
  /-- Seeks made for the present request (R204). -/
  seeks    : Nat := 0
  /-- The SA axis is at its layer target (R199, R202). -/
  saDone   : Bool := false
  /-- The spiral check after lock is still due (R200). -/
  checkDue : Bool := false
  /-- The landing map (R204). -/
  landing  : List (Option Nat) := List.replicate 64 none
  /-- Filtered fine offset in µm, and the slot last read on spot 3 (R201, R204). -/
  xFine    : Rat := 0
  slotNow  : Nat := 0
  areaNow  : Nat := 0
  /-- Errors of the last turn in nm, and the low-signal flag (R191). -/
  fe       : Rat := 0
  te       : Rat := 0
  sum3     : Rat := 0
  lowSig   : Bool := false
  /-- A defect flag of spot 3 seen since the last turn boundary (R192, R96). -/
  defect   : Bool := false
  /-- A long snag of spot 3 has been passed on (R89, R198). -/
  longSnag : Bool := false
  /-- SFE_VEL is being written (R193). -/
  velValid : Bool := false
  /-- r₃ in µm and the spindle speed in 0.01 rev/s as TRN_RADIUS shows them (R220). -/
  radius   : Nat := 0
  speed    : Nat := 0
  /-- The sweep's position in focus DAC codes (R197). -/
  sweepPos : Rat := 0
  /-- The force on the focus and tracking outputs of a kick, a brake or a ramp (R196, R202–R204). -/
  fForce   : Option Int := none
  tForce   : Option Int := none
  /-- Slice boundary of spot 3 since the layer table was committed (R207). -/
  layDue   : Bool := false
  /-- Turns of a kick or brake left, or counted (R202, R203), and the output it started from. -/
  kick     : Nat := 0
  kickBase : Int := 0
  /-- The MOUNT item under way (R24, R318). -/
  mount    : Option Nat := none
  deriving DecidableEq, Repr

/-! ## Turn engine -/

/-- TRN_Sn_STATUS.STATE (R255). -/
inductive SlotState where
  | off | run | held | forced | fault | safeStop
  deriving DecidableEq, Repr

/-- The code of a slot state (R255). -/
def SlotState.code : SlotState → Nat
  | .off => 0 | .run => 1 | .held => 2 | .forced => 3 | .fault => 4 | .safeStop => 5

/-- One loop slot. Values are signed 32-bit numbers with 16 fraction bits, biquad states signed 48-bit numbers with 32
(R229). -/
structure TrnSlot where
  st      : SlotState := .off
  int     : Int := 0
  s1      : List Int := [0, 0, 0, 0]
  s2      : List Int := [0, 0, 0, 0]
  /-- Composite mode BAND, and band state HI (R234, R235). -/
  band    : Bool := false
  hi      : Bool := false
  slewing : Bool := false
  iclamp  : Bool := false
  oclamp  : Bool := false
  sat     : Bool := false
  err     : Int := 0
  out     : Int := 0
  /-- The following-error counter (R246). -/
  fe      : Nat := 0
  /-- A hand-over is due at the next evaluation, from this value (R241, R242). -/
  hand    : Option Int := none
  /-- The owner forces the output to this value (R237). -/
  force   : Option Int := none
  /-- The owner holds the slot (R236). -/
  hold    : Bool := false
  /-- The bank of the last turn (R239). -/
  bank    : Bool := false
  deriving DecidableEq, Repr

/-- One low-roll selector (R243–R245). -/
structure TrnSel where
  selected : Option (Fin 48) := none
  out      : Int := 0
  empty    : Bool := false
  /-- Enabled at the last turn (R244, R257). -/
  on       : Bool := false
  deriving DecidableEq, Repr

/-- The turn engine of one field die. -/
structure Trn where
  slots   : Vector TrnSlot 48 := Vector.replicate 48 {}
  sels    : Vector TrnSel 8 := Vector.replicate 8 {}
  /-- Turns since ENABLE was set (R224). -/
  count   : Nat := 0
  /-- The engine stopped at the end of the holdover (R249). -/
  clkLost : Bool := false
  /-- Present values of the destinations, by code, and those that reach them at the next turn boundary (R226, R231). -/
  dest    : List (Nat × Int) := []
  next    : List (Nat × Int) := []
  /-- Die temperature latched at the last turn, in 1/16 °C (R230, source 0xF0). -/
  dieTemp : Int := 0
  deriving DecidableEq, Repr

end Sys2Proof.Machine
end

