-- ==== Sys2Proof/Machine/StateSfe.lean ====
section
/-! DEFINITION. The live state of the seven-spot front end of one bay (chapter 03) that its registers do not hold. -/
namespace Sys2Proof.Machine

/-- One scheduled or open forecast window, its times in samples of the bay's sample clock; the closing is open while the
source's flag is still set (R94, R95, R96). -/
structure FcWindow where
  src       : Nat
  opensAt   : Int
  closesAt  : Option Int := none
  isOpen    : Bool := false
  confirmed : Bool := false
  deriving DecidableEq, Repr

/-- One spot of the front end. -/
structure SfeSpot where
  /-- G as a linear gain with 16 fraction bits (R81); the value of PGA code 96, the reset value of SFE_SPOTn_LOOP. -/
  g       : Nat := 184705
  /-- O in LSB with 16 fraction bits (R81). -/
  o       : Int := 0
  /-- B in LSB with 16 fraction bits (R81). -/
  b       : Int := 0
  /-- Trimmed samples y₁ in 1/1,024 LSB, newest first, as far back as the sliding windows reach (R78, R81). -/
  hist    : List Int := []
  /-- Ē and M̄ of the last block in LSB (R81, R114). -/
  env     : Rat := 0
  mid     : Rat := 0
  /-- L_slow in LSB (R87). -/
  lslow   : Rat := 0
  /-- The spot's own snag flag (R86–R88). -/
  snag    : Bool := false
  /-- The long snag of the present flag has been reported (R89). -/
  longRep : Bool := false
  /-- A freeze was active at some sample since the last block boundary (R82). -/
  froze   : Bool := false
  /-- Forecast windows held (R95). -/
  windows : List FcWindow := []
  /-- A SFE_SPOTn_LOOP write waiting for the block boundary (R85). -/
  manual  : Option Word := none
  /-- This spot has taken its part of the pending trim set (R99). -/
  trimTaken : Bool := false
  deriving DecidableEq, Repr

/-- The front end of one bay. -/
structure Sfe where
  spots     : Vector SfeSpot 7 := Vector.replicate 7 {}
  /-- The loops hold for a seek or layer jump (R84). -/
  holdSeek  : Bool := false
  /-- Acquisition in progress, and its blocks left (R84). -/
  acq       : Bool := false
  acqLeft   : Nat := 0
  /-- SFE_VEL is valid (R92), and the value last valid (R80). -/
  velOk     : Bool := false
  velLast   : Nat := 0
  /-- Millisecond of the last SFE_CLIP event (R90). -/
  clipMs    : Option Nat := none
  /-- Thermistor readings taken toward the mean of eight, in °C (R98). -/
  temps     : List Rat := []
  /-- Second of the last SFE_TEMP_REPLACED event (R98). -/
  tempSec   : Option Nat := none
  deriving DecidableEq, Repr

end Sys2Proof.Machine
end

