-- ==== Sys2Proof/Machine/StateSpn.lean ====
section
/-! DEFINITION. The live state of a bay's spindle drive and of the CEIL input (chapter 08) that their registers do not
hold. Electrical quantities are exact numbers in SI units: volts, amperes, radians, webers, seconds. -/
namespace Sys2Proof.Machine

/-- SPN_STATUS.STATE (R273, R287). -/
inductive SpnState where
  | stopped | catching | ipd | align | openLoop | run | decel | flywheel | coast | short
  deriving DecidableEq, Repr

/-- The code of a drive state (R287). -/
def SpnState.code : SpnState → Nat
  | .stopped => 0 | .catching => 1 | .ipd => 2 | .align => 3 | .openLoop => 4 | .run => 5 | .decel => 6 | .flywheel => 7
  | .coast => 8 | .short => 9

/-- The causes of SPN_STATUS.FAULT (R280). -/
inductive SpnFault where
  | obsLost | startFailed | overcurrent | overspeed | undervoltage | shunt | loop
  deriving DecidableEq, Repr

/-- The code of a drive fault (R280). -/
def SpnFault.code : SpnFault → Nat
  | .obsLost => 1 | .startFailed => 2 | .overcurrent => 3 | .overspeed => 4 | .undervoltage => 5 | .shunt => 6 | .loop => 7

/-- SPN_CMD.MODE (R287). -/
inductive SpnMode where
  | stop | run | idle
  deriving DecidableEq, Repr

/-- The code of a command mode (R287). -/
def SpnMode.code : SpnMode → Nat
  | .stop => 0 | .run => 1 | .idle => 2

/-- Why DECEL runs: a stop, or the way down to a lower target in rpm (R273, R274). -/
inductive DecelGoal where
  | toStop | toSpeed (rpm : Rat)
  deriving DecidableEq, Repr

/-- The spindle drive of one bay. -/
structure Spn where
  state   : SpnState := .stopped
  fault   : Option SpnFault := none
  mode    : SpnMode := .stop
  target  : Int := 0
  goal    : DecelGoal := .toStop
  /-- A new start follows once STOPPED is reached (R276, R277). -/
  restart : Bool := false
  /-- STOPPED was reached through SHORT since ENABLE was set (R273). -/
  parked  : Bool := false
  backward : Bool := false
  tries   : Nat := 0
  /-- Work item that asked for the start (R275). -/
  starter : Option Nat := none
  /-- Catch-spin has switched the bridge on, and electrical cycles since (R277). -/
  catchOn : Bool := false
  catchCyc : Nat := 0
  /-- Observer: flux, angle, speed in rad/s, and confidence (R265). -/
  fluxA   : Rat := 0
  fluxB   : Rat := 0
  theta   : Rat := 0
  omega   : Rat := 0
  conf    : Rat := 0
  /-- Angles of the other frames: IPD, open loop and flywheel (R275, R276, R279). -/
  thIpd   : Rat := 0
  thOpen  : Rat := 0
  thFly   : Rat := 0
  /-- Open-loop speed and held speed in rpm (R276, R279), and speed by crossing intervals (R266). -/
  rpmOpen : Rat := 0
  rpmHeld : Rat := 0
  rpmCross : Rat := 0
  /-- Electrical cycles whose conditions have held (R276, R277, R279), cycles in FLYWHEEL, and whether the cycle now
  running still holds them. -/
  cycles  : Nat := 0
  flyCyc  : Nat := 0
  /-- The state FLYWHEEL was entered from (R279). -/
  flyFrom : SpnState := .run
  holds   : Bool := false
  /-- Consecutive periods below OBS_LOSS, above OC_LIM and out of the sum check (R279, R280). -/
  lossRun : Nat := 0
  ocRun   : Nat := 0
  sumRun  : Nat := 0
  /-- Currents in the dq frame in use, references, integrators and applied voltage (R262). -/
  id      : Rat := 0
  iq      : Rat := 0
  idRef   : Rat := 0
  iqRef   : Rat := 0
  sd      : Rat := 0
  sq      : Rat := 0
  vd      : Rat := 0
  vq      : Rat := 0
  va      : Rat := 0
  vb      : Rat := 0
  /-- Duties in force and duties loaded for the next period, phases A–C (R259, R264). -/
  duty    : Vector Rat 3 := Vector.replicate 3 0
  next    : Vector Rat 3 := Vector.replicate 3 0
  /-- The torque demand latched at the valley, in mA (R264). -/
  demand  : Int := 0
  /-- Slot 4's SET as the speed ramp gives it, in rpm (R274). -/
  ramp    : Rat := 0
  vbr     : Rat := 0
  tw      : Rat := 0
  /-- Sum and number of i_d² + i_q² since the last winding update (R271). -/
  sqSum   : Rat := 0
  sqN     : Nat := 0
  pred2   : Bool := false
  atSpeed : Bool := false
  /-- The bridge is off since OV_TRIP (R280), and braking is reduced (R270). -/
  ovOff   : Bool := false
  ovClamp : Bool := false
  ceilLim : Bool := false
  /-- Test pulses of IPD with no saturation seen make ALIGN four times as long (R275). -/
  weak    : Bool := false
  /-- CEIL relay: the last write and the use of SAFE_FRAC (R284). -/
  relayAt : Nat := 0
  stale   : Bool := false
  deriving DecidableEq, Repr

/-- The CEIL input on its owning die (R283). -/
structure Ceil where
  frac     : Rat := 1024
  raw      : Int := 0
  valid    : Bool := false
  replaced : Bool := false
  /-- Clock values of the last accepted reading and of the last value sent. -/
  accepted : Nat := 0
  sentAt   : Nat := 0
  deriving DecidableEq, Repr

end Sys2Proof.Machine
end

