-- ==== Sys2Proof/Machine/StateSys.lean ====
section
/-! DEFINITION. The state of the interrupt controller, the skid DMA, firmware update, power and boot (chapters 17 to 21) that
registers do not hold. -/
namespace Sys2Proof.Machine

/-! ## Interrupt controller -/

/-- The interrupt controller (R524–R531). -/
structure Hic where
  /-- Edge sources pending, rising. -/
  pend    : List Nat := []
  /-- Sources in service with the core that holds each. -/
  serv    : List (Nat × Nat) := []
  /-- Edge sources with an event latched during service. -/
  latched : List Nat := []
  /-- Levels that HIC_SOURCE_EVENT last gave the inputs that no register of the hub decides. -/
  levels  : List Nat := []
  /-- Machine timer interrupts pending, by core (R522). -/
  timers  : List Nat := []
  /-- The word that the last read of CLAIM gave (R528). -/
  value   : Nat := 0
  deriving DecidableEq, Repr

/-! ## Skid DMA -/

/-- SKD_CHc_STATUS.CODE (R550). -/
inductive SkdCode where
  | idle | running | done | aborted | descError | stopped
  deriving DecidableEq, Repr

/-- The number of an end code. -/
def SkdCode.num : SkdCode → Nat
  | .idle => 0 | .running => 1 | .done => 2 | .aborted => 3 | .descError => 4 | .stopped => 5

/-- One channel (R536–R547). -/
structure Skd where
  active : Bool := false
  code   : SkdCode := .idle
  open_  : Bool := false
  /-- Hub address of the descriptor's memory copy, when it has one. -/
  descAt : Option Nat := none
  /-- A descriptor of this address is being fetched. -/
  fetch  : Option Nat := none
  /-- Every destination write of the descriptor has been issued. -/
  last   : Bool := false
  abort  : Bool := false
  deriving DecidableEq, Repr

/-! ## Firmware update -/

/-- State of a bank (R554). -/
inductive BankState where
  | empty | partly | loaded
  deriving DecidableEq, Repr

/-- The code of a bank state (R572). -/
def BankState.code : BankState → Nat
  | .empty => 0 | .partly => 1 | .loaded => 2

/-- One bank's status sector (R554): state and units received, LAST accepted. -/
structure Bank where
  st    : BankState := .empty
  units : Nat := 0
  last  : Bool := false
  deriving DecidableEq, Repr

/-- STATE of the journal (R559). -/
inductive JState where
  | steady | pending | checking | trial
  deriving DecidableEq, Repr

/-- The code of a journal state (R559). -/
def JState.code : JState → Nat
  | .steady => 0 | .pending => 1 | .checking => 2 | .trial => 3

/-- The state of a code; other codes make the copy invalid. -/
def JState.ofCode : Nat → Option JState
  | 0 => some .steady | 1 => some .pending | 2 => some .checking | 3 => some .trial | _ => none

/-- The content of a journal copy (R559). -/
structure Journal where
  seq     : Nat := 0
  active  : Fin 2 := 0
  st      : JState := .steady
  new     : Fin 2 := 0
  confirm : Bool := false
  window  : Nat := 600
  deriving DecidableEq, Repr

/-- A schedule held in hub memory (R476, R555). -/
structure Schedule where
  time    : Nat
  noFlush : Bool
  confirm : Bool
  window  : Nat
  deriving DecidableEq, Repr

/-- FWU_STATUS.RUN_STATE (R572). -/
inductive RunState where
  | confirmed | trial | recovery
  deriving DecidableEq, Repr

/-- The code of a run state. -/
def RunState.code : RunState → Nat
  | .confirmed => 0 | .trial => 1 | .recovery => 2

/-- Steps of an activation or rollback that have begun (R557, R565). -/
inductive ActStep where
  | drain | flush | post | reset
  deriving DecidableEq, Repr

/-- An activation or a rollback under way (R557, R565). -/
structure Activation where
  sched    : Schedule
  rollback : Option Nat := none
  step     : ActStep := .drain
  deriving DecidableEq, Repr

/-- One history entry (R570). -/
structure FwHistory where
  time   : Nat
  result : Nat
  reason : Nat
  index  : Nat := 0
  ver    : Nat := 0
  lost   : Nat := 0
  deriving DecidableEq, Repr

/-- One settings slot (R567). -/
structure Settings where
  schema   : Nat
  seq      : Nat
  subsysId : Nat := 0
  subsysVendor : Nat := 0x1F5C
  aperture : Nat := 0
  /-- Features by 64 · FID + FUNC (R486), and the yarder geometry by field key. -/
  features : List (Nat × Nat) := []
  geometry : List (Nat × Nat) := []
  deriving DecidableEq, Repr

/-- Firmware update and boot. -/
structure Fwu where
  banks    : Vector Bank 2 := Vector.replicate 2 {}
  settings : Vector (Option Settings) 2 := Vector.replicate 2 none
  /-- Settings slot in use. -/
  slot     : Fin 2 := 0
  sched    : Option Schedule := none
  act      : Option Activation := none
  /-- History, oldest first, at most 16 entries (R569, R570). -/
  history  : List FwHistory := []
  run      : RunState := .confirmed
  bank     : Fin 2 := 0
  svnFloor : Nat := 0
  /-- Clock value at which the confirmation window began: GLB_STATUS.READY of the trial set (R563). -/
  from_    : Nat := 0
  tested   : Bool := false
  /-- Lines lost by the activation under way (R557), and whether EP_EVT_STATUS.FIRMWARE is due at READY (R558, R562). -/
  lost     : Nat := 0
  notify   : Bool := false
  hostAsked : Bool := false
  /-- NO_FLUSH of the schedule that activated the trial set (R557, R565). -/
  noFlush  : Bool := false
  deriving DecidableEq, Repr

/-! ## Power, reset and boot -/

/-- How far the hub's boot has come (R587, R588). -/
inductive HubBoot where
  | held | rom | stump2 | ready
  deriving DecidableEq, Repr

/-- Causes of a host reset (R585). -/
inductive ResetCause where
  | powerOn | supply | perst | hot | activation | rollback
  deriving DecidableEq, Repr

/-- The bit of a cause (R592). -/
def ResetCause.bit : ResetCause → Nat
  | .powerOn => 0 | .supply => 1 | .perst => 2 | .hot => 3 | .activation => 4 | .rollback => 5

/-- One entry of the events ring (R594). -/
structure EventEntry where
  time   : Nat
  die    : Nat
  bay    : Nat
  code   : Nat
  sub    : Nat
  unit   : Nat
  v1     : Nat
  v2     : Nat
  rep    : Nat := 1
  deriving DecidableEq, Repr

/-- Power, reset and the always-on domain. -/
structure Pwr where
  boot    : HubBoot := .held
  /-- The host side is held in reset for a monitor trip or an unlocked PLL (R575), or a junction over-temperature (R638). -/
  tripped : Bool := false
  hot     : Bool := false
  /-- The keeper's device time in ns with its fraction in 1/2²⁴ ns, and whether the crystal ticks (R586, R601). -/
  keeper  : Nat := 0
  frac    : Nat := 0
  xtal    : Bool := true
  /-- PWR_XTAL_LOST has been raised, and ticks counted since (R601). -/
  lost    : Bool := false
  ticks   : Nat := 0
  aonLost : Bool := true
  cause   : ResetCause := .powerOn
  /-- Hub domains on, by bit 0–29 (R580). -/
  on      : Nat := 0
  /-- FAULT_N is driven low (R596). -/
  faultN  : Bool := false
  /-- Events page, oldest first, at most 256 (R594). -/
  events  : List EventEntry := []
  /-- Log page sequence numbers by LID (R483). -/
  pageSeq : List (Nat × Nat) := []
  /-- Body of each log page at its last snapshot, with the SEQ it had (R483). -/
  pageLast : List (Nat × Nat × Bytes) := []
  /-- TIM_NOW and HIC_MTIME in ns (R522, R606). -/
  now     : Nat := 0
  mtime   : Nat := 0
  /-- Idle time of each bay in ns for BAY_IDLE (R486), with the feature's two times in s. -/
  idleSpin : Nat := 30
  idleBack : Nat := 600
  /-- The word of the last JTAG read (R420). -/
  jtag     : Nat := 0
  deriving DecidableEq, Repr

end Sys2Proof.Machine
end

