-- ==== Sys2Proof/Machine/State.lean ====
section
/-! DEFINITION. The state of the part, the reasons a command can stop, and the state right after reset. -/
namespace Sys2Proof.Machine

/-- No command of the part ends in a fault: every condition the spec calls a fault is a state the part goes on from. -/
inductive Fault where
  deriving DecidableEq, Repr

/-- The reasons a command has no answer. -/
inductive Refusal where
  /-- Raised by `exec` for a command without a meaning; safe. -/
  | notModelled (mnemonic : String)
  deriving DecidableEq, Repr

/-- The state of the part. -/
structure State where
  /-- Commands waiting, first in first out. -/
  pending : List Instr := []
  /-- The ordering code fitted (R2). -/
  code    : Code := .bz8c
  /-- Nanoseconds since reset. -/
  clock   : Nat := 0
  /-- Free values drawn so far (the model's own field). -/
  free    : Nat := 0
  /-- Register fields that differ from their reset values: active, staged and pending sets (R8–R12). -/
  regs    : List (Nat × Nat) := []
  staged  : List (Nat × Nat) := []
  waiting : List (Nat × Nat) := []
  /-- Staged groups whose accepted set waits for its boundary (R11). -/
  groups  : List Group := []
  ports   : Vector Port 8 := Vector.replicate 8 {}
  dies    : Vector DieSt 8 := Vector.replicate 8 {}
  sfe     : Vector Sfe 12 := Vector.replicate 12 {}
  latDie  : Vector LatDie 8 := Vector.replicate 8 {}
  lat     : Vector LatBay 12 := Vector.replicate 12 {}
  recp    : Vector Rec 12 := Vector.replicate 12 {}
  osv     : Vector Osv 12 := Vector.replicate 12 {}
  trn     : Vector Trn 8 := Vector.replicate 8 {}
  spn     : Vector Spn 12 := Vector.replicate 12 {}
  ceil    : Ceil := {}
  axp     : Vector Axp 8 := Vector.replicate 8 {}
  yrd     : Yrd := {}
  cru     : Vector Cru 12 := Vector.replicate 12 {}
  /-- Bytes of the hub's memories that are not 0, by hub address, rising: local memories, shared scratch, the eviction buffer,
  the flash and the landing memory (R520, R551). -/
  mem     : List Host.Cell := []
  lnd     : Landing := {}
  miu     : Miu := {}
  vlk     : Vlk := {}
  crew    : Crew := {}
  qen     : Qen := {}
  ep      : Ep := {}
  hic     : Hic := {}
  skd     : Vector Skd 32 := Vector.replicate 32 {}
  /-- The channel that took the last burst (R540). -/
  skdLast : Nat := 31
  fwu     : Fwu := {}
  pwr     : Pwr := {}
  deriving DecidableEq, Repr

/-- The part right after reset. -/
def State.reset : State := {}

end Sys2Proof.Machine
end

