-- ==== Sys2Proof/Machine/Ops.lean ====
section
/-! DEFINITION. The named operations over registers, kerf messages and events that every family uses. -/
namespace Sys2Proof.Machine

/-! ## Sparse stores -/

/-- The value listed at a key of a store whose keys rise strictly. -/
def storeGet : List (Nat × Nat) → Nat → Option Nat
  | [], _ => none
  | (k, v) :: t, a => if k = a then some v else storeGet t a

/-- Remove a key. -/
def storeDel (m : List (Nat × Nat)) (a : Nat) : List (Nat × Nat) := m.filter fun e => decide (e.1 ≠ a)

/-- List a value at a key. -/
def storePut : List (Nat × Nat) → Nat → Nat → List (Nat × Nat)
  | [], a, x => [(a, x)]
  | (k, v) :: t, a, x =>
    if k = a then (a, x) :: t else if a < k then (a, x) :: (k, v) :: t else (k, v) :: storePut t a x

/-! ## Free values -/

/-- The next free value. -/
def State.freeVal (s : State) : Nat := Config.freeNat s.free

/-- Count one free value drawn. -/
def State.drawn (s : State) : State := { s with free := s.free + 1 }

/-! ## Addresses -/

/-- Offset of a block in its field space (R609, R610), or its hub address in the physical function's frame or the core-only
region (R602, R607, R608). -/
def Block.base : Block → Nat
  | .lat => 0x0000 | .fpw => 0x0600 | .fkr => 0x0700 | .rcd => 0x0800 | .spn => 0x0A00 | .cru => 0x1100 | .sfe => 0x2000
  | .axp => 0x2800 | .yrd => 0x4000 | .osv => 0x7800 | .trn => 0x8000
  | .glb => 0x40000000 | .tim => 0x40010000 | .ep => 0x40020000 | .qen => 0x40030000 | .lnd => 0x40040000
  | .miu => 0x40050000 | .vlk => 0x40060000 | .fwu => 0x40070000 | .pwr => 0x40080000
  | .hic => 0x44000000 | .krf => 0x44010000 | .skd => 0x44040000

/-- Address of a die's field space. -/
def dieSpace (d bay : Nat) : Nat := d * 0x100000 + bay * 0x10000

/-- Address of a block of a field die; die registers stand in bay space 0. -/
def dieAt (k : Block) (d : Die) : Nat := dieSpace d.val 0 + k.base

/-- Address of a block of a bay. -/
def bayAt (k : Block) (b : Bay) : Nat := dieSpace (dieOfBay b).val (bayInDie b) + k.base

/-- Address of a block of a function: GLB, TIM, EP and QEN of virtual function f stand at its mirror (R603, R607). -/
def funAt (k : Block) (f : Nat) : Nat :=
  if f = 0 then k.base else 0x41000000 + 0x40000 * (f - 1) + (k.base - 0x40000000)

/-- Address of a block of the hub. -/
def hubAt (k : Block) : Nat := k.base

/-! ## Register fields -/

/-- Width of a field. -/
def Field.width (f : Field) : Nat := f.hi + 1 - f.lo

/-- Key of a field of instance (i, j) of its register in the block at an address. -/
def Field.key (f : Field) (a i j : Nat) : Nat := (a + f.off + i * f.st + j * f.st2) * 32 + f.lo

/-- Interrupt sources whose SENSE resets to rising edge (R532). -/
def hicRising (n : Nat) : Bool :=
  (0 < n && n < 33) || n = 42 || n = 56 || n = 57 || n = 80 || n = 82 || n = 152 || n = 153 || (159 < n && n < 163)
    || (191 < n && n < 256)

/-- Reset value of the field at a key: as its table, but 0 for the taps t ≠ 7 of a spot's sixteen-word span (R164), the
mechanism die's TURN_CYC of 1,000 (R252), and SENSE as R532 gives it. -/
def Field.resetAt (f : Field) (k : Nat) : Nat :=
  if f = F.LAT_TAPTAB_TAP ∨ f = F.LAT_LIVETAP_TAP then (if k / 128 % 32 = 7 then 1024 else 0)
  else if f = F.TRN_CTL_TURN_CYC ∧ k / 32 / 0x100000 = 1 then 1000
  else if f = F.HIC_SRCn_CFG_SENSE then (if hicRising (k / 128 % 1024) then 2 else 0)
  else f.rst

/-- Read a field from one of the stores. -/
def fieldIn (m : List (Nat × Nat)) (f : Field) (k : Nat) : Nat := (storeGet m k).getD (f.resetAt k)

/-- Write a field in one of the stores; the reset value is not listed. -/
def fieldPut (m : List (Nat × Nat)) (f : Field) (k v : Nat) : List (Nat × Nat) :=
  if v % 2 ^ f.width = f.resetAt k then storeDel m k else storePut m k (v % 2 ^ f.width)

/-- The active value of a field. -/
def State.get (s : State) (a : Nat) (f : Field) (i : Nat := 0) (j : Nat := 0) : Nat := fieldIn s.regs f (f.key a i j)

/-- The active value of a signed field. -/
def State.geti (s : State) (a : Nat) (f : Field) (i : Nat := 0) (j : Nat := 0) : Int := toSigned f.width (s.get a f i j)

/-- Whether a one-bit field is set. -/
def State.has (s : State) (a : Nat) (f : Field) (i : Nat := 0) (j : Nat := 0) : Bool := s.get a f i j == 1

/-- Set the active value of a field. -/
def State.put (s : State) (a : Nat) (f : Field) (v : Nat) (i : Nat := 0) (j : Nat := 0) : State :=
  { s with regs := fieldPut s.regs f (f.key a i j) v }

/-- Count in a saturating counter field (R592 and the counter rules of every block). -/
def State.bumpBy (s : State) (a : Nat) (f : Field) (n : Nat) (i : Nat := 0) (j : Nat := 0) : State :=
  s.put a f (min (s.get a f i j + n) (2 ^ f.width - 1)) i j

/-- Count one. -/
def State.bump (s : State) (a : Nat) (f : Field) (i : Nat := 0) (j : Nat := 0) : State := s.bumpBy a f 1 i j

/-- A value of a field, signed where the field is. -/
def Field.int (f : Field) (v : Nat) : Int := if f.sgn then toSigned f.width v else (v % 2 ^ f.width : Nat)

/-- Whether a value lies in the range its table prints. -/
def Field.inRange (f : Field) (v : Nat) : Bool :=
  match f.rng with
  | none => true
  | some (lo, hi) => decide (lo ≤ f.int v ∧ f.int v ≤ hi)

/-- The bits of a field in a register word. -/
def Field.of (f : Field) (w : Word) : Nat := bitsOf w.toNat f.hi f.lo

/-- A 64-bit value of its two words. -/
def hiLo (lo hi : Nat) : Nat := 2 ^ 32 * hi + lo

/-! ## Registers -/

/-- A register found at an address: its block's address, itself, its instance and whether the address is its shadow. -/
structure Loc where
  base   : Nat
  reg    : Reg
  i      : Nat
  j      : Nat
  shadow : Bool
  deriving Repr

/-- The instance of a register at a distance from its first word: by one stride, or by two, of which the smaller steps
within the larger. -/
def instanceAt : List (Nat × Nat) → Nat → Option (Nat × Nat)
  | [], d => if d = 0 then some (0, 0) else none
  | [(n, w)], d => if d % w = 0 ∧ d / w < n then some (d / w, 0) else none
  | (n, w) :: (m, v) :: _, d =>
    if w ≤ v then
      if d / v < m ∧ d % v % w = 0 ∧ d % v / w < n then some (d % v / w, d / v) else none
    else if d / w < n ∧ d % w % v = 0 ∧ d % w / v < m then some (d / w, d % w / v) else none

/-- The register of a block at an offset, live or shadow. -/
def findReg (base : Nat) (rs : List Reg) (off : Nat) : Option Loc :=
  rs.findSome? fun r =>
    match (if r.off ≤ off then instanceAt r.dims (off - r.off) else none) with
    | some (i, j) => some { base, reg := r, i, j, shadow := false }
    | none =>
      if r.shadow = 0 ∨ off < r.off + r.shadow then none
      else (instanceAt r.dims (off - r.off - r.shadow)).map fun (i, j) => { base, reg := r, i, j, shadow := true }

/-- The registers of a block. -/
def Block.regs : Block → List Reg
  | .lat => regs_lat | .fpw => regs_fpw | .fkr => regs_fkr | .rcd => regs_rcd | .spn => regs_spn | .cru => regs_cru
  | .sfe => regs_sfe | .axp => regs_axp | .yrd => regs_yrd | .osv => regs_osv | .trn => regs_trn | .glb => regs_glb
  | .tim => regs_tim | .ep => regs_ep | .qen => regs_qen | .lnd => regs_lnd | .miu => regs_miu | .vlk => regs_vlk
  | .fwu => regs_fwu | .pwr => regs_pwr | .hic => regs_hic | .krf => regs_krf | .skd => regs_skd

/-- The word of a register as its fields stand in a store. -/
def wordIn (m : List (Nat × Nat)) (l : Loc) : Word :=
  l.reg.fields.foldl (fun w f =>
    if f.acc = .wo ∨ f.acc = .sc then w
    else w ||| BitVec.ofNat 32 (fieldIn m f (f.key l.base l.i l.j) * 2 ^ f.lo)) 0

/-- A read of a register without a behaviour of its own (R8). -/
def State.readWord (s : State) (l : Loc) : Word := if l.shadow then wordIn s.staged l else wordIn s.regs l

/-- Whether a word keeps every field that is not staged within its range (R100 and its like). -/
def Loc.inRange (l : Loc) (w : Word) : Bool :=
  l.reg.fields.all fun f => (f.acc != .rw && f.acc != .bl) || f.inRange (f.of w)

/-- The effect of a write on one field, by its access type (R8); `locked` is GLB_LOCK. -/
def writeField (locked : Bool) (l : Loc) (w : Word) (s : State) (f : Field) : State :=
  let k := f.key l.base l.i l.j
  let v := f.of w
  match f.acc with
  | .rw => { s with regs := fieldPut s.regs f k v }
  | .bl => if locked then s else { s with regs := fieldPut s.regs f k v }
  | .w1c => { s with regs := fieldPut s.regs f k (fieldIn s.regs f k &&& (2 ^ f.width - 1 - v)) }
  | .w1s => { s with regs := fieldPut s.regs f k (fieldIn s.regs f k ||| v) }
  | .st => { s with staged := fieldPut s.staged f k v }
  | .ro => if l.reg.counter then { s with regs := fieldPut s.regs f k 0 } else s
  | .wo => s
  | .sc => s

/-- A write to a register without a behaviour of its own (R8). -/
def State.writeWord (s : State) (locked : Bool) (l : Loc) (w : Word) : State :=
  if l.shadow then l.reg.fields.foldl (fun t f => if f.acc = .st then writeField locked l w t f else t) s
  else l.reg.fields.foldl (writeField locked l w) s

/-! ## Kerf messages -/

/-- Queue a message at the sending end of one side of a port (R22). -/
def State.send (s : State) (d : Die) (from_ : Side) (m : Msg) : State :=
  let p := s.ports[d]
  let t := p.tx from_
  { s with ports := s.ports.set d (p.setTx from_ { t with queue := t.queue ++ [m] }) }

/-- The kerf class of a command class (R22). -/
def workClass (c : Nat) : KClass := KClass.ofNum (2 + c % 4)

/-- Take the first message of an inbox that equals m (R27). -/
def eraseMsg (m : Msg) (l : List Msg) : List Msg := l.erase m

/-- A message acted on leaves the receiving end's inbox. -/
def State.received (s : State) (d : Die) (at_ : Side) (m : Msg) : State :=
  let p := s.ports[d]
  let r := p.rx at_
  { s with ports := s.ports.set d (p.setRx at_ { r with inbox := eraseMsg m r.inbox }) }

/-! ## Dies and bays -/

/-- Replace the state of a die. -/
def State.setDie (s : State) (d : Die) (x : DieSt) : State := { s with dies := s.dies.set d x }

/-- Whether the ordering code fits a die (R2). -/
def State.hasDie (s : State) (d : Nat) : Bool := s.code.hasDie d

/-- Whether the ordering code fits a bay (R2). -/
def State.hasBay (s : State) (b : Nat) : Bool := decide (b < s.code.bays)

/-- Device time as a die has it: the time of its last heartbeat (R42). -/
def State.dieTime (s : State) (d : Die) : Nat := s.dies[d].time

/-- Whether a die's VMECH_SENSE reading is valid: in range, and converted within the last ms (R577). -/
def State.vmechValid (s : State) (d : Die) : Bool :=
  s.dies[d].vmechOk && (match s.dies[d].vmechAt with | some t => decide (s.clock ≤ t + 1000000) | none => false)

/-! ## Events -/

/-- The EVENT message of a field die: code, bay, SUB, then the device time, VALUE1, and UNIT with VALUE2 (R23, R594). -/
def eventMsg (time code : Nat) (bay : Option Nat) (sub unit : Nat) (v1 : Int) (v2 : Nat) : Msg :=
  { type := 0x13
    word := BitVec.ofNat 64 (code % 2 ^ 16 * 2 ^ 48 + (bay.getD 0xFF) % 2 ^ 8 * 2 ^ 40 + sub % 2 ^ 16 * 2 ^ 24 + 3)
    cont := [BitVec.ofNat 64 time, BitVec.ofInt 64 v1, BitVec.ofNat 64 (unit % 2 ^ 16 * 2 ^ 48 + v2 % 2 ^ 32)]
    cls := .k1 }

/-- A field die raises an event (R23, R594). -/
def State.raiseDie (s : State) (d : Die) (code : Nat) (bay : Option Nat) (sub unit : Nat) (v1 : Int) (v2 : Nat) : State :=
  s.send d .field (eventMsg (s.dieTime d) code bay sub unit v1 v2)

/-- A bay raises an event. -/
def State.raiseBay (s : State) (b : Bay) (code sub unit : Nat) (v1 : Int) (v2 : Nat := 0) : State :=
  s.raiseDie (dieOfBay b) code (some (bayInDie b)) sub unit v1 v2

/-! ## Work items of a die -/

/-- The WORK_DONE message of an item (R25). -/
def workDoneMsg (kind item status cause : Nat) (cls : Nat) (cont : Option Nat) : Msg :=
  { type := 0x21
    word := BitVec.ofNat 64 (kind % 256 * 2 ^ 56 + item % 65536 * 2 ^ 40 + status % 256 * 2 ^ 32 + cause % 256 * 2 ^ 24
      + (if cont.isSome then 1 else 0))
    cont := cont.toList.map (BitVec.ofNat 64)
    cls := workClass cls }

/-- Status codes of WORK_DONE (R25). -/
inductive WStatus where
  | done | refused | notBlank | noBark | header | powerLimited | partly | fault | unpowered | slotEmpty
  | targetUnreachable | homingFault | switchChatter | mountFailed | dropped
  deriving DecidableEq, Repr

/-- The code of a WORK_DONE status (R25). -/
def WStatus.code : WStatus → Nat
  | .done => 0 | .refused => 1 | .notBlank => 2 | .noBark => 3 | .header => 4 | .powerLimited => 5 | .partly => 6
  | .fault => 7 | .unpowered => 8 | .slotEmpty => 9 | .targetUnreachable => 10 | .homingFault => 11 | .switchChatter => 12
  | .mountFailed => 13 | .dropped => 14

/-- The status of a WORK_DONE code (R25). -/
def WStatus.ofCode : Nat → Option WStatus
  | 0 => some .done | 1 => some .refused | 2 => some .notBlank | 3 => some .noBark | 4 => some .header
  | 5 => some .powerLimited | 6 => some .partly | 7 => some .fault | 8 => some .unpowered | 9 => some .slotEmpty
  | 10 => some .targetUnreachable | 11 => some .homingFault | 12 => some .switchChatter | 13 => some .mountFailed
  | 14 => some .dropped | _ => none

/-- An open work item of a die. -/
def State.findItem (s : State) (d : Die) (item : Nat) : Option DieItem := s.dies[d].items.find? (·.item = item)

/-- Drop an item from a die's open items. -/
def State.dropItem (s : State) (d : Die) (item : Nat) : State :=
  s.setDie d { s.dies[d] with items := s.dies[d].items.filter (·.item ≠ item) }

/-- End an open item of a die with its WORK_DONE (R25). -/
def State.endItem (s : State) (d : Die) (item : Nat) (st : WStatus) (cause : Nat := 0) (cont : Option Nat := none) : State :=
  match s.findItem d item with
  | none => s
  | some w => (s.dropItem d item).send d .field (workDoneMsg w.kind.code w.item st.code cause w.cls cont)

/-- End every open item of a bay with one status (R281 and its like); what they asked for is given up. -/
def State.endBayItems (s : State) (b : Bay) (st : WStatus) (cause : Nat := 0) : State :=
  let d := dieOfBay b
  let s := { s with
    lat := s.lat.set b { s.lat[b] with logs := [], retry := false, mount := none }
    osv := s.osv.set b { s.osv[b] with mount := none }
    recp := s.recp.set b { s.recp[b] with
      items := []
      built := s.recp[b].built.filter fun l =>
        match s.recp[b].writing with | some w => l.item == w.log.item | none => false } }
  ((s.dies[d].items.filter fun w => w.bay = bayInDie b).map (·.item)).foldl (fun t i => t.endItem d i st cause) s

/-- The QUEUE_RESET_DONE message (R659). -/
def queueResetDoneMsg (seq dropped partly : Nat) : Msg :=
  { type := 0x06
    word := BitVec.ofNat 64 (seq % 65536 * 2 ^ 48 + dropped % 65536 * 2 ^ 32 + partly % 65536 * 2 ^ 16)
    cls := .k0 }

/-- Answer the QUEUE_RESETs that wait for nothing any more, and keep the answers (R659). -/
def State.answerResets (s : State) (d : Die) : State :=
  let x := s.dies[d]
  let done := x.waitingResets.filter (·.items = [])
  let s := s.setDie d { x with
    waitingResets := x.waitingResets.filter (·.items ≠ [])
    answers := ((x.answers ++ done.map fun r => (r.seq, (queueResetDoneMsg r.seq r.dropped r.partly).word)).reverse.take 256).reverse }
  done.foldl (fun t r => t.send d .field (queueResetDoneMsg r.seq r.dropped r.partly)) s

/-- A log in progress has ended: resets that wait for its item count it (R169, R659). -/
def State.logOver (s : State) (d : Die) (item : Nat) : State :=
  let x := s.dies[d]
  (s.setDie d { x with waitingResets := x.waitingResets.map fun r =>
    if item ∈ r.items then { r with items := r.items.erase item, partly := r.partly + 1 } else r }).answerResets d

/-- Whether the disc of a bay counts as mounted (R37). -/
def State.mounted (s : State) (b : Bay) : Bool := (s.dies[dieOfBay b].mounted)[(⟨bayInDie b, Nat.mod_lt _ (by decide)⟩ : Fin 2)]

/-- Set whether the disc of a bay counts as mounted. -/
def State.setMounted (s : State) (b : Bay) (m : Bool) : State :=
  let x := s.dies[dieOfBay b]
  s.setDie (dieOfBay b) { x with mounted := x.mounted.set (⟨bayInDie b, Nat.mod_lt _ (by decide)⟩ : Fin 2) m }

end Sys2Proof.Machine
end

