-- ==== Sys2Proof/Machine/Groups.lean ====
section
/-! DEFINITION. The staged register groups (R10–R12, R614): where each lies, and how its sets move. -/
namespace Sys2Proof.Machine

/-- Address of a group's commit register (R614). -/
def groupCommitAt : Group → Nat
  | .sfeLoop b => bayAt .sfe b + 0x1C
  | .sfeSnag b => bayAt .sfe b + 0x2C
  | .sfeForecast b => bayAt .sfe b + 0x3C
  | .sfeTrim b => bayAt .sfe b + 0xA0
  | .latChannel b => bayAt .lat b + 0x11C
  | .latTarget b => bayAt .lat b + 0x12C
  | .latTaps b => bayAt .lat b + 0x13C
  | .recStrategy b => bayAt .rcd b + 0x3C
  | .osvServo b => bayAt .osv b + 0x20
  | .osvJump b => bayAt .osv b + 0x2C
  | .osvLayer b => bayAt .osv b + 0xC0
  | .trnSlot d n => dieAt .trn d + 0x1020 + 0x40 * n
  | .trnSelector d g => dieAt .trn d + 0x110 + 0x20 * g
  | .spnMotor b => bayAt .spn b + 0x2C
  | .spnDrive b => bayAt .spn b + 0x5C
  | .spnCeil => dieAt .spn 1 + 0x8C
  | .axpAxis d n => dieAt .axp d + 0x4C + 0x80 * n
  | .axpGroup d g => dieAt .axp d + 0x41C + 0x20 * g
  | .yrdGeometry => dieAt .yrd 1 + 0x23C
  | .cruCruise b => bayAt .cru b + 0x1C
  | .cruReadPower b => bayAt .cru b + 0x5C
  | .lndWindow => hubAt .lnd + 0x2C

/-- The live addresses of a group's staged registers, as half-open ranges (R614). -/
def groupRanges : Group → List (Nat × Nat)
  | .sfeLoop b => [(bayAt .sfe b + 0x10, bayAt .sfe b + 0x18)]
  | .sfeSnag b => [(bayAt .sfe b + 0x20, bayAt .sfe b + 0x28)]
  | .sfeForecast b => [(bayAt .sfe b + 0x30, bayAt .sfe b + 0x34)]
  | .sfeTrim b => [(bayAt .sfe b + 0x40, bayAt .sfe b + 0xA0)]
  | .latChannel b => [(bayAt .lat b + 0x110, bayAt .lat b + 0x118)]
  | .latTarget b => [(bayAt .lat b + 0x120, bayAt .lat b + 0x124)]
  | .latTaps b => [(bayAt .lat b + 0x4000, bayAt .lat b + 0x7800)]
  | .recStrategy b => [(bayAt .rcd b + 0x800, bayAt .rcd b + 0x900), (bayAt .rcd b + 0x1000, bayAt .rcd b + 0x1400)]
  | .osvServo b => [(bayAt .osv b + 0x10, bayAt .osv b + 0x20)]
  | .osvJump b => [(bayAt .osv b + 0x24, bayAt .osv b + 0x2C)]
  | .osvLayer b => [(bayAt .osv b + 0x40, bayAt .osv b + 0xC0)]
  | .trnSlot d n => [(dieAt .trn d + 0x1000 + 0x40 * n, dieAt .trn d + 0x1020 + 0x40 * n)]
  | .trnSelector d g => [(dieAt .trn d + 0x100 + 0x20 * g, dieAt .trn d + 0x110 + 0x20 * g)]
  | .spnMotor b => [(bayAt .spn b + 0x20, bayAt .spn b + 0x2C)]
  | .spnDrive b => [(bayAt .spn b + 0x30, bayAt .spn b + 0x50)]
  | .spnCeil => [(dieAt .spn 1 + 0x80, dieAt .spn 1 + 0x88)]
  | .axpAxis d n => [(dieAt .axp d + 0x20 + 0x80 * n, dieAt .axp d + 0x48 + 0x80 * n)]
  | .axpGroup d g => [(dieAt .axp d + 0x400 + 0x20 * g, dieAt .axp d + 0x404 + 0x20 * g)]
  | .yrdGeometry => [(dieAt .yrd 1 + 0x20, dieAt .yrd 1 + 0x30), (dieAt .yrd 1 + 0x100, dieAt .yrd 1 + 0x220)]
  | .cruCruise b => [(bayAt .cru b + 0x10, bayAt .cru b + 0x18)]
  | .cruReadPower b => [(bayAt .cru b + 0x40, bayAt .cru b + 0x5C)]
  | .lndWindow => [(hubAt .lnd + 0x20, hubAt .lnd + 0x28)]

/-- Whether a key lies in one of a group's registers. -/
def inRanges (rs : List (Nat × Nat)) (k : Nat) : Bool := rs.any fun r => decide (r.1 * 32 ≤ k ∧ k < r.2 * 32)

/-- Copy every value of a group from one store into another (R11). -/
def copyGroup (rs : List (Nat × Nat)) (src dst : List (Nat × Nat)) : List (Nat × Nat) :=
  (src.filter fun e => inRanges rs e.1).foldr (fun e m => storePut m e.1 e.2) (dst.filter fun e => !inRanges rs e.1)

/-- Whether a group's accepted set waits for its boundary, so that COMMIT reads 1 (R11). -/
def State.isWaiting (s : State) (g : Group) : Bool := s.groups.contains g

/-- At the group's boundary the pending set becomes active as a whole and COMMIT reads 0 (R11). -/
def State.activate (s : State) (g : Group) : State :=
  if s.isWaiting g then
    { s with
      regs := copyGroup (groupRanges g) s.waiting s.regs
      waiting := s.waiting.filter fun e => !inRanges (groupRanges g) e.1
      groups := s.groups.filter (· ≠ g) }
  else s

/-- The REJECT and OVERRUN bits of a commit register (R112). -/
def commitReject : Field := { off := 0, hi := 1, lo := 1, acc := .w1c }
def commitOverrun : Field := { off := 0, hi := 2, lo := 2, acc := .w1c }

/-- A write of 1 to COMMIT, the set being consistent or not (R11, R12). -/
def State.commitSet (s : State) (g : Group) (consistent : Bool) : State :=
  if s.isWaiting g then s.put (groupCommitAt g) commitOverrun 1
  else if consistent then
    { s with waiting := copyGroup (groupRanges g) s.staged s.waiting, groups := s.groups ++ [g] }
  else s.put (groupCommitAt g) commitReject 1

/-- The staged value of a field. -/
def State.stagedVal (s : State) (a : Nat) (f : Field) (i : Nat := 0) (j : Nat := 0) : Nat :=
  fieldIn s.staged f (f.key a i j)

/-- The staged value of a signed field. -/
def State.stagedInt (s : State) (a : Nat) (f : Field) (i : Nat := 0) (j : Nat := 0) : Int :=
  toSigned f.width (s.stagedVal a f i j)

/-- The field of a block that stands at a key. -/
def fieldAtKey (base : Nat) (rs : List Reg) (k : Nat) : Option Field :=
  match findReg base rs (k / 32 - base) with
  | some l => if l.shadow then none else l.reg.fields.find? fun f => f.lo = k % 32
  | none => none

/-- Every staged value of a group lies in the range of its table (R11). -/
def stagedInRange (s : State) (base : Nat) (blk : Block) (g : Group) : Bool :=
  (s.staged.filter fun e => inRanges (groupRanges g) e.1).all fun e =>
    match fieldAtKey base blk.regs e.1 with
    | some f => f.inRange e.2
    | none => true

end Sys2Proof.Machine
end

