-- ==== Sys2Proof/Machine/SpnOps.lean ====
section
/-! DEFINITION. The spindle drive's quantities and shared operations (chapter 08). -/
namespace Sys2Proof.Machine

/-! ## Settings in SI units -/

/-- Address of a bay's SPN block. -/
def spnA (b : Bay) : Nat := bayAt .spn b

/-- Address of the CEIL registers of the owning die, kept in the mechanism die's SPN block for every ordering code (R283). -/
def ceilA : Nat := dieAt .spn 1

/-- A spindle setting as an exact number. -/
def spnQ (s : State) (b : Bay) (f : Field) : Rat := s.get (spnA b) f

def spnRs (s : State) (b : Bay) : Rat := spnQ s b F.SPN_MOTOR0_RS / 1000
def spnLs (s : State) (b : Bay) : Rat := spnQ s b F.SPN_MOTOR0_LS / 1000000
def spnPsi (s : State) (b : Bay) : Rat := spnQ s b F.SPN_MOTOR1_PSI / 1000000
/-- The PWM period T of 10 µs (R262). -/
def spnT : Rat := 1 / 100000
def spnIqMax (s : State) (b : Bay) : Rat := spnQ s b F.SPN_LIM_IQ_MAX / 1000
def spnOpenI (s : State) (b : Bay) : Rat := spnQ s b F.SPN_START_OPEN_I / 40
def spnDecIq (s : State) (b : Bay) : Rat := spnQ s b F.SPN_LIM2_DEC_IQ / 1000
def spnUvTrip (s : State) (b : Bay) : Rat := spnQ s b F.SPN_SUPPLY_UV_TRIP / 10
def spnOvTrip (s : State) (b : Bay) : Rat := spnQ s b F.SPN_SUPPLY_OV_TRIP / 10
def spnOvClamp (s : State) (b : Bay) : Rat := spnQ s b F.SPN_SUPPLY_OV_CLAMP / 10
def spnOvBand (s : State) (b : Bay) : Rat := spnQ s b F.SPN_SUPPLY_OV_BAND / 20
def spnStopShort (s : State) (b : Bay) : Rat := spnQ s b F.SPN_BUDGET_STOP_SHORT * 100
def spnDecBand (s : State) (b : Bay) : Rat := spnQ s b F.SPN_RUN_DEC_BAND * 10

/-- Electrical rad/s of a speed in rpm: the electrical frequency is n / 10 Hz. -/
def rpmToOmega (n : Rat) : Rat := n / 10 * twoPi

/-- The speed estimate ω̂ × 60 / (2π × 6) rpm (R266). -/
def omegaToRpm (w : Rat) : Rat := w * 10 / twoPi

/-- The target of the active command in rpm: TARGET for RUN and IDLE_RPM for IDLE (R274). -/
def spnTargetRpm (s : State) (b : Bay) : Rat :=
  match s.spn[b].mode with
  | .run => s.spn[b].target
  | .idle => spnQ s b F.SPN_RUN_IDLE_RPM
  | .stop => 0

/-- Replace the drive of a bay. -/
def State.setSpn (s : State) (b : Bay) (x : Spn) : State := { s with spn := s.spn.set b x }

/-- The estimate is valid in RUN and DECEL only (R266). -/
def Spn.valid (x : Spn) : Bool := x.state == .run || x.state == .decel

/-- The speed that each state reports in rpm (R266). -/
def Spn.speed (x : Spn) : Rat :=
  match x.state with
  | .catching => if x.catchOn then omegaToRpm x.omega else x.rpmCross
  | .coast | .short => x.rpmCross
  | .openLoop => x.rpmOpen
  | .flywheel => x.rpmHeld
  | .stopped | .ipd | .align => 0
  | .run | .decel => omegaToRpm x.omega

/-- The states that run field-oriented control (R273). -/
def Spn.foc (x : Spn) : Bool :=
  match x.state with
  | .align | .openLoop | .run | .decel | .flywheel => true
  | .catching => x.catchOn
  | _ => false

/-- SPN_STATUS.CLOCK_CFG: the turn engine is not as R259 requires. -/
def spnClockCfg (s : State) (b : Bay) : Bool :=
  s.get (dieAt .trn (dieOfBay b)) F.TRN_CTL_TURN_CYC != 500 || !s.has (dieAt .trn (dieOfBay b)) F.TRN_CTL_ENABLE

/-- The bay's die is in its safe state. -/
def spnSafe (s : State) (b : Bay) : Bool := s.dies[dieOfBay b].safe

/-- The six gate outputs are low (R258, R273, R280): ENABLE is 0, or the state turns all off. -/
def spnAllOff (s : State) (b : Bay) : Bool :=
  let x := s.spn[b]
  !s.has (spnA b) F.SPN_CTL_ENABLE || x.ovOff ||
    match x.state with
    | .stopped => !s.has (spnA b) F.SPN_CTL_PARK
    | .coast | .ipd => true
    | .catching => !x.catchOn
    | _ => false

/-! ## CEIL and the ceilings -/

/-- FRAC as a bay applies it (R284): SAFE_FRAC while stale, the filtered value itself in BZ-2A, the relayed value otherwise. -/
def spnFrac (s : State) (b : Bay) : Nat :=
  if s.code = .bz2a then (roundOpen s.ceil.frac).toNat
  else if s.spn[b].stale then s.get (spnA b) F.SPN_CEIL_IN_SAFE_FRAC
  else s.get (spnA b) F.SPN_CEIL_IN_FRAC

/-- The factor by which R270 reduces braking current. -/
def spnOvFactor (s : State) (b : Bay) : Rat :=
  min 1 (max 0 ((spnOvClamp s b - s.spn[b].vbr) / spnOvBand s b))

/-- The supply ceiling in A (R270). -/
def spnSupplyCeil (s : State) (b : Bay) : Rat :=
  let x := s.spn[b]
  if x.state = .decel then spnDecIq s b * spnOvFactor s b
  else
    let p := 3 / 2 * spnPsi s b * x.omega
    if p ≤ 0 then spnIqMax s b else min (spnIqMax s b) (spnQ s b F.SPN_BUDGET_P_BUDGET / p)

/-- Whether the supply of a transfer or spindle start is too low (R578). -/
def vmechLow (s : State) : Bool := s.dies[s.code.ceilDie].low

/-! ## Turn-engine slots of the drive -/

/-- The engine slot n (4–9) of a bay: bay 1 uses slots 28–33 (R268). -/
def spnSlot (b : Bay) (n : Nat) : Fin 48 := ⟨(n + 24 * bayInDie b) % 48, Nat.mod_lt _ (by decide)⟩

/-- The torque selector of a bay (R268). -/
def spnSel (b : Bay) : Fin 8 := if bayInDie b = 0 then 0 else 2

/-- A slot value: 16 fraction bits (R229). -/
def slotVal (q : Rat) : Int := roundOpen (q * 65536)

/-- Replace a slot of a die's turn engine. -/
def State.setSlot (s : State) (d : Die) (n : Fin 48) (x : TrnSlot) : State :=
  { s with trn := s.trn.set d { s.trn[d] with slots := s.trn[d].slots.set n x } }

/-- The owner forces a slot (R237). -/
def State.forceSlot (s : State) (d : Die) (n : Fin 48) (v : Int) : State :=
  s.setSlot d n { s.trn[d].slots[n] with force := some v }

/-- The owner frees a slot: the release of a force is a hand-over from the forced value (R242, R269). -/
def State.freeSlot (s : State) (d : Die) (n : Fin 48) : State :=
  let x := s.trn[d].slots[n]
  match x.force with
  | none => s
  | some v => s.setSlot d n { x with force := none, hand := some v }

/-- Slots 4 and 5 as the drive's state and mode force them (R269). -/
def State.spnForces (s : State) (b : Bay) : State :=
  let d := dieOfBay b
  let x := s.spn[b]
  let top := slotVal 20000
  match x.state, x.mode with
  | .run, .idle => (s.forceSlot d (spnSlot b 4) top).freeSlot d (spnSlot b 5)
  | .run, _ => (s.freeSlot d (spnSlot b 4)).forceSlot d (spnSlot b 5) top
  | .decel, _ => (s.forceSlot d (spnSlot b 4) top).forceSlot d (spnSlot b 5) top
  | .ipd, _ | .align, _ | .openLoop, _ | .catching, _ =>
    (s.forceSlot d (spnSlot b 4) (slotVal (x.iqRef * 1000))).forceSlot d (spnSlot b 5) top
  | _, _ => s

/-- The drive writes slot 4's SET with the speed ramp and slot 5's with IDLE_RPM each period (R268, R274). -/
def State.spnSets (s : State) (b : Bay) : State :=
  let a := dieAt .trn (dieOfBay b)
  (s.put a F.TRN_Sn_SET_SET (ofSigned 32 (slotVal s.spn[b].ramp)) (spnSlot b 4)).put a F.TRN_Sn_SET_SET
    (ofSigned 32 (slotVal (spnQ s b F.SPN_RUN_IDLE_RPM))) (spnSlot b 5)

/-! ## State changes -/

/-- Enter a state: outside field-oriented control S_d and S_q are 0 and nothing is driven (R262, R273). -/
def Spn.enter (x : Spn) (st : SpnState) : Spn :=
  let y := { x with state := st }
  if y.foc then y
  else { y with sd := 0, sq := 0, id := 0, iq := 0, idRef := 0, iqRef := 0, vd := 0, vq := 0, va := 0, vb := 0,
                duty := Vector.replicate 3 0, next := Vector.replicate 3 0, pred2 := false, atSpeed := false,
                catchOn := false }

/-- A passive stop: COAST at or above STOP_SHORT, then SHORT (R273). -/
def spnPassive (s : State) (b : Bay) (x : Spn) : Spn :=
  match x.state with
  | .stopped | .short => x
  | _ =>
    let n := x.speed
    if spnStopShort s b ≤ n then { x with rpmCross := n }.enter .coast else { x with rpmCross := n }.enter .short

/-- An active stop: DECEL with target 0, then SHORT (R273); it starts from RUN or DECEL. -/
def spnActive (s : State) (b : Bay) (x : Spn) : Spn :=
  match x.state with
  | .run | .decel => { x with goal := .toStop, atSpeed := false, idRef := 0 }.enter .decel
  | _ => spnPassive s b x

/-- A drive fault (R280, R281): the first cause stays, every one counts and raises SPN_FAULT, the bay's work ends and the
disc counts as unmounted. The stop that follows is the caller's. -/
def State.spnFault (s : State) (b : Bay) (f : SpnFault) : State :=
  let x := s.spn[b]
  let s := s.setSpn b { x with fault := x.fault <|> some f, restart := false, atSpeed := false }
  let s := s.bump (spnA b) F.SPN_CNT3_FAULTS
  let s := s.raiseBay b 0x0501 f.code 0xFFFF (roundOpen x.speed) 0
  (s.endBayItems b .fault f.code).setMounted b false

/-- A fault whose bridge goes all off and whose stop is passive (R280). -/
def State.spnFaultOff (s : State) (b : Bay) (f : SpnFault) : State :=
  let t := s.spnFault b f
  t.setSpn b (spnPassive t b t.spn[b])

/-- A fault whose stop is active while the estimate is valid (R280). -/
def State.spnFaultActive (s : State) (b : Bay) (f : SpnFault) : State :=
  let t := s.spnFault b f
  t.setSpn b (spnActive t b t.spn[b])

/-- Initial position detection starts with the probe of V_BR; a supply below UV_TRIP refuses the start, and the work item
that asked for it ends UNPOWERED (R275). -/
def State.spnIpd (s : State) (b : Bay) (vbr : Rat) : State :=
  let x := { s.spn[b] with vbr := vbr }
  if vbr < spnUvTrip s b then
    let t := match x.starter with
      | some i => s.endItem (dieOfBay b) i .unpowered SpnFault.undervoltage.code
      | none => s
    (t.setSpn b ({ x with starter := none }.enter .stopped)).spnFault b .undervoltage
  else s.setSpn b ({ x with restart := false }.enter .ipd)

/-- A start from STOPPED (R273): IPD when PARK = 1 and STOPPED was reached through SHORT, CATCH otherwise. -/
def State.spnStart (s : State) (b : Bay) (vbr : Rat) : State :=
  let s := s.bump (spnA b) F.SPN_CNT_STARTS
  if s.has (spnA b) F.SPN_CTL_PARK ∧ s.spn[b].parked then s.spnIpd b vbr
  else s.setSpn b ({ s.spn[b] with vbr := vbr, catchOn := false }.enter .catching)

/-- A start attempt has failed: a passive stop and another start from rest, or START_FAILED after START_TRIES (R276). -/
def State.spnAttemptFailed (s : State) (b : Bay) : State :=
  let x := { s.spn[b] with tries := s.spn[b].tries + 1 }
  let s := s.setSpn b x
  if s.get (spnA b) F.SPN_START2_START_TRIES ≤ x.tries then s.spnFaultOff b .startFailed
  else s.setSpn b { spnPassive s b x with restart := true }

/-- A command is refused: REFUSED sets, counts, and the previous command stays (R274). -/
def State.spnRefuse (s : State) (b : Bay) : State :=
  (s.put (spnA b) F.SPN_STATUS_REFUSED 1).bump (spnA b) F.SPN_CNT2_REFUSED

/-- RUN and IDLE are refused in these conditions (R274, R578). -/
def spnBarred (s : State) (b : Bay) : Bool :=
  s.spn[b].fault.isSome || spnClockCfg s b || !s.has (spnA b) F.SPN_CTL_ENABLE || spnSafe s b ||
    (s.spn[b].state == .stopped && vmechLow s)

/-- From RUN or DECEL towards a new target in rpm (R274). -/
def spnRetarget (s : State) (b : Bay) (x : Spn) (t : Rat) : Spn :=
  match x.state with
  | .run =>
    if t < x.speed - spnDecBand s b then { x with goal := .toSpeed t, atSpeed := false }.enter .decel
    else { x with ramp := x.speed, atSpeed := false }
  | .decel =>
    if x.speed ≤ t then { x with ramp := x.speed, atSpeed := false }.enter .run
    else { x with goal := .toSpeed t, atSpeed := false }
  | _ => x

/-- The mode and target of an accepted RUN or IDLE (R274); `vbr` is the bridge probe of a start. -/
def State.spnGo (s : State) (b : Bay) (m : SpnMode) (target : Int) (vbr : Rat) : State :=
  let x := { s.spn[b] with mode := m, target := target }
  let s := s.setSpn b x
  match x.state with
  | .stopped => (s.setSpn b { x with tries := 0 }).spnStart b vbr
  | .run | .decel => s.setSpn b (spnRetarget s b x (spnTargetRpm s b))
  | .coast | .short => s.setSpn b { x with restart := true }
  | _ => s

/-- SPN_CMD RUN (R274). -/
def State.spnRun (s : State) (b : Bay) (target : Int) (vbr : Rat) : State :=
  if target < 1000 ∨ 12000 < target ∨ spnBarred s b then s.spnRefuse b
  else (s.spnGo b .run target vbr).spnForces b

/-- SPN_CMD IDLE (R274). -/
def State.spnIdle (s : State) (b : Bay) (vbr : Rat) : State :=
  if spnBarred s b then s.spnRefuse b else (s.spnGo b .idle 0 vbr).spnForces b

/-- SPN_CMD STOP (R274), refused in the safe state (R282). -/
def State.spnStop (s : State) (b : Bay) : State :=
  if spnSafe s b then s.spnRefuse b
  else
    let x := { s.spn[b] with mode := .stop, target := 0, restart := false, starter := none }
    let y := match x.state with
      | .run | .decel => spnActive s b x
      | .ipd | .align | .openLoop | .catching => spnPassive s b x
      | _ => x
    (s.setSpn b y).spnForces b

/-- The stop on entering the safe state (R282): active while the estimate is valid, passive otherwise. -/
def State.spnSafeStop (s : State) (b : Bay) : State :=
  let x := { s.spn[b] with mode := .stop, target := 0, restart := false, starter := none }
  (s.setSpn b (match x.state with
    | .stopped | .coast | .short => x
    | _ => spnActive s b x)).spnForces b

/-- The end of the clock holdover turns the bridge all off at once unless the drive has stopped (R282). -/
def State.spnClockLost (s : State) (b : Bay) : State :=
  let x := s.spn[b]
  match x.state with
  | .stopped => s
  | _ => s.setSpn b ({ x with rpmCross := x.speed, restart := false }.enter .coast)

/-! ## One PWM period -/

/-- Rotate a vector from the stator frame to the frame at an angle (R262). -/
def park (th al be : Rat) : Rat × Rat :=
  (al * Config.cos th + be * Config.sin th, -al * Config.sin th + be * Config.cos th)

/-- Rotate a vector from the frame at an angle to the stator frame. -/
def unpark (th d q : Rat) : Rat × Rat :=
  (d * Config.cos th - q * Config.sin th, d * Config.sin th + q * Config.cos th)

/-- The phase values of a stator vector. -/
def phases (al be : Rat) : Rat × Rat × Rat :=
  (al, -al / 2 + Config.sqrt 3 / 2 * be, -al / 2 - Config.sqrt 3 / 2 * be)

/-- w_x of a duty in ns (R260). -/
def spnWindow (s : State) (b : Bay) (d : Rat) : Rat := (1 - d) * 10000 - 10 * spnQ s b F.SPN_PWM_DEADTIME

/-- Whether the channel of a duty is measured (R260). -/
def spnMeasured (s : State) (b : Bay) (d : Rat) : Bool := decide (10 * spnQ s b F.SPN_PWM_SHUNT_MIN ≤ spnWindow s b d)

/-- The currents of the last period advanced by the motor model (R263), as phase currents. -/
def spnModel (s : State) (b : Bay) : Rat × Rat × Rat :=
  let x := s.spn[b]
  let id := x.id + spnT / spnLs s b * (x.vd - spnRs s b * x.id + x.omega * spnLs s b * x.iq)
  let iq := x.iq + spnT / spnLs s b * (x.vq - spnRs s b * x.iq - x.omega * (spnLs s b * x.id + spnPsi s b))
  let (al, be) := unpark (x.theta + x.omega * spnT) id iq
  phases al be

/-- The three phase currents from the shunt samples (R260), with the number of channels measured. -/
def spnCurrents (s : State) (b : Bay) (raw : Vector Int 3) : (Rat × Rat × Rat) × Nat :=
  let x := s.spn[b]
  let k := spnQ s b F.SPN_PWM_SHUNT_SCALE / 1000
  let i0 : Rat := raw[0] * k
  let i1 : Rat := raw[1] * k
  let i2 : Rat := raw[2] * k
  let (h0, h1, h2) := spnModel s b
  match spnMeasured s b x.duty[0], spnMeasured s b x.duty[1], spnMeasured s b x.duty[2] with
  | true, true, true => ((i0, i1, i2), 3)
  | true, true, false => ((i0, i1, -(i0 + i1)), 2)
  | true, false, true => ((i0, -(i0 + i2), i2), 2)
  | false, true, true => ((-(i1 + i2), i1, i2), 2)
  | true, false, false => ((i0, h1 - (i0 - h0) / 2, h2 - (i0 - h0) / 2), 1)
  | false, true, false => ((h0 - (i1 - h1) / 2, i1, h2 - (i1 - h1) / 2), 1)
  | false, false, true => ((h0 - (i2 - h2) / 2, h1 - (i2 - h2) / 2, i2), 1)
  | false, false, false => ((h0, h1, h2), 0)

/-- The flux observer, its phase-locked loop and the confidence (R265). -/
def spnObserve (s : State) (b : Bay) (x : Spn) (al be : Rat) : Spn :=
  let psi := spnPsi s b
  let ra := x.fluxA - spnLs s b * al
  let rb := x.fluxB - spnLs s b * be
  let g := spnQ s b F.SPN_OBS_GAMMA * 100
  let e := (psi * psi - (ra * ra + rb * rb)) / (psi * psi)
  let eps := Config.sin (Config.atan2 rb ra - x.theta)
  let c := 255 * max 0 (1 - 4 * |Config.sqrt (ra * ra + rb * rb) / psi - 1| - 2 * |eps|)
  let w := x.omega + Config.pllOmega * eps
  { x with
    fluxA := x.fluxA + spnT * (x.va - spnRs s b * al + g / 2 * ra * e)
    fluxB := x.fluxB + spnT * (x.vb - spnRs s b * be + g / 2 * rb * e)
    omega := w
    theta := x.theta + spnT * w + Config.pllTheta * eps
    conf := x.conf + (c - x.conf) / 64 }

/-- The angle of the frame a state runs in (R273). -/
def Spn.frame (x : Spn) : Rat :=
  match x.state with
  | .align => x.thIpd
  | .openLoop => x.thOpen
  | .flywheel => x.thFly
  | _ => x.theta

/-- The condition whose electrical cycles are counted (R276, R277, R279). -/
def spnHolds (s : State) (b : Bay) (x : Spn) : Bool :=
  decide (spnQ s b F.SPN_OBS_OBS_CONF ≤ x.conf) &&
    match x.state with
    | .openLoop => decide (|x.theta - x.thOpen| ≤ twoPi / 6)
    | .flywheel => decide (|x.theta - x.thFly| ≤ twoPi / 8)
    | _ => true

/-- Count electrical cycles: a cycle counts when the condition held in every period of it. -/
def spnCycles (s : State) (b : Bay) (before : Rat) (x : Spn) : Spn :=
  let h := x.holds && spnHolds s b x
  if (before / twoPi).floor = (x.frame / twoPi).floor then { x with holds := h }
  else { x with
         cycles := if h then x.cycles + 1 else 0
         catchCyc := if x.state = .catching then x.catchCyc + 1 else x.catchCyc
         flyCyc := if x.state = .flywheel then x.flyCyc + 1 else x.flyCyc
         holds := true }

/-- The current references (R272, R276, R277, R279, R282). -/
def spnRefs (s : State) (b : Bay) (x : Spn) : Spn :=
  let d : Rat := x.demand / 1000
  let step : Rat := 1 / 100
  let towards0 := if |x.idRef| ≤ step then 0 else if 0 < x.idRef then x.idRef - step else x.idRef + step
  match x.state with
  | .align => { x with idRef := spnOpenI s b, iqRef := 0 }
  | .openLoop => { x with idRef := 0, iqRef := spnOpenI s b }
  | .run => { x with idRef := towards0, iqRef := min d (spnIqMax s b) }
  | .decel =>
    if spnSafe s b then { x with idRef := 0, iqRef := -min (spnDecIq s b) (spnDecIq s b * spnOvFactor s b) }
    else { x with idRef := 0, iqRef := -min d (spnIqMax s b) }
  | .flywheel => { x with idRef := 0 }
  | _ => { x with idRef := 0, iqRef := 0 }

/-- The current loop's voltages and integrators (R262 steps 2–5) on stator currents. -/
def spnCurrentLoop (s : State) (b : Bay) (x : Spn) (al be : Rat) : Spn :=
  let ls := spnLs s b
  let wc := twoPi * spnQ s b F.SPN_MOTOR1_CUR_BW * 100
  let kp := ls * wc
  let ki := spnRs s b * wc * spnT
  let (id, iq) := park x.frame al be
  let ed := x.idRef - id
  let eq := x.iqRef - iq
  let vd := kp * ed + x.sd - x.omega * ls * iq
  let vq := kp * eq + x.sq + x.omega * (ls * id + spnPsi s b)
  let lim := spnQ s b F.SPN_PWM_MOD_MAX / 256 * x.vbr
  let tooBig := decide (lim * lim / 3 < vd * vd + vq * vq)
  let k : Rat := if tooBig then Config.sqrt (lim * lim / 3 / (vd * vd + vq * vq)) else 1
  let sd := if tooBig ∧ 0 < ki * ed * vd then x.sd else x.sd + ki * ed
  let sq := if tooBig ∧ 0 < ki * eq * vq then x.sq else x.sq + ki * eq
  { x with id, iq, vd := k * vd, vq := k * vq, sd, sq, sqSum := x.sqSum + id * id + iq * iq, sqN := x.sqN + 1 }

/-- A duty to its resolution of 1/2,000 (R259). -/
def spnDutyStep (d : Rat) : Rat := (roundOpen (d * 2000) : Rat) / 2000

/-- Centred space-vector duties of the voltage turned ahead by 1.5 ω̂ T (R262 step 6), and the shift of R261. The result says
whether the duties were shifted. -/
def spnDuties (s : State) (b : Bay) (x : Spn) : Spn × Bool :=
  let (va, vb) := unpark (x.frame + 3 / 2 * x.omega * spnT) x.vd x.vq
  let (pa, pb, pc) := phases va vb
  let mid := (max pa (max pb pc) + min pa (min pb pc)) / 2
  let f := fun p : Rat => spnDutyStep (if x.vbr = 0 then 1 / 2 else 1 / 2 + (p - mid) / x.vbr)
  let (da, db, dc) := (f pa, f pb, f pc)
  let x := { x with va, vb }
  if spnMeasured s b da || spnMeasured s b db || spnMeasured s b dc then ({ x with next := #v[da, db, dc] }, false)
  else
    let least := 1 - (10 * spnQ s b F.SPN_PWM_SHUNT_MIN + 10 * spnQ s b F.SPN_PWM_DEADTIME) / 10000
    let k := min da (min db dc) - least
    ({ x with next := #v[da - k, db - k, dc - k] }, true)

/-- The speed ramp and open-loop angle of one period (R274, R276, R279). -/
def spnAdvance (s : State) (b : Bay) (x : Spn) : Spn :=
  match x.state with
  | .openLoop =>
    let n := min (spnQ s b F.SPN_START_OPEN_MAX * 10) (x.rpmOpen + spnQ s b F.SPN_START_OPEN_ACC * 100 * spnT)
    { x with rpmOpen := n, thOpen := x.thOpen + rpmToOmega n * spnT }
  | .flywheel => { x with thFly := x.thFly + rpmToOmega x.rpmHeld * spnT }
  | .run =>
    let t := spnTargetRpm s b
    let k := spnQ s b F.SPN_RUN_ACC_RAMP * 100 * spnT
    { x with ramp := if x.ramp < t then min t (x.ramp + k) else max t (x.ramp - k) }
  | _ => x

/-- State changes that a period itself brings (R273, R274, R278, R279). -/
def spnNextState (s : State) (b : Bay) (x : Spn) : Spn :=
  let x := { x with lossRun := if x.valid && decide (x.conf < spnQ s b F.SPN_OBS_OBS_LOSS) then x.lossRun + 1 else 0 }
  match x.state, x.goal with
  | .decel, .toStop => if x.speed < spnStopShort s b then { x with rpmCross := x.speed }.enter .short else x
  | .decel, .toSpeed t => if x.speed ≤ t + spnDecBand s b / 2 then { x with ramp := x.speed }.enter .run else x
  | .coast, _ =>
    if x.fault = some .undervoltage ∧ x.vbr < spnUvTrip s b then
      if x.rpmCross < 60 then { x with parked := false }.enter .stopped else x
    else if x.rpmCross < spnStopShort s b ∧ ¬ s.dies[dieOfBay b].clkLost then x.enter .short else x
  | _, _ => x

/-- Checks of the measured currents and the bridge supply (R280): whether OVERCURRENT and SHUNT are due. -/
def spnChecks (s : State) (b : Bay) (raw : Vector Int 3) (x : Spn) (i : Rat × Rat × Rat) (n : Nat) : Spn × Bool × Bool :=
  let lim := spnQ s b F.SPN_LIM_OC_LIM / 1000
  let oc := decide (lim < |i.1|) || decide (lim < |i.2.1|) || decide (lim < |i.2.2|)
  let rail := (List.finRange 3).any fun k => spnMeasured s b x.duty[k] && decide (2047 ≤ |raw[k]|)
  let bad := decide (lim / 20 < |i.1 + i.2.1 + i.2.2|)
  let ocRun := if oc then x.ocRun + 1 else 0
  let sumRun := if n = 3 then (if bad then x.sumRun + 1 else 0) else x.sumRun
  ({ x with ocRun, sumRun }, decide (2 ≤ ocRun) || rail, decide (16 ≤ sumRun))

/-- The torque demand that the turn engine distributed at this boundary, in mA (R264, R267). -/
def spnDemand (s : State) (b : Bay) : Int :=
  let code := if bayInDie b = 0 then 0x06 else 0x26
  ((s.trn[dieOfBay b].dest.find? (·.1 = code)).map (·.2)).getD 0 / 65536

/-- Destination 0x06 has no effect after CLK_LOST (R282). -/
def spnLatched (s : State) (b : Bay) : Int := if s.dies[dieOfBay b].clkLost then 0 else spnDemand s b

/-- Steps 1 to 3 of a period in a state that runs field-oriented control (R264). -/
def State.spnFoc (s : State) (b : Bay) (raw : Vector Int 3) : State :=
  let x := s.spn[b]
  let (i, n) := spnCurrents s b raw
  let (x, oc, shunt) := spnChecks s b raw x i n
  let al := i.1
  let be := (i.1 + 2 * i.2.1) / Config.sqrt 3
  let before := x.frame
  let x := spnObserve s b x al be
  let x := spnAdvance s b x
  let x := spnCycles s b before x
  let x := spnRefs s b x
  let x := spnCurrentLoop s b x al be
  let (x, shifted) := spnDuties s b x
  let x := { x with pred2 := decide (n = 1), ovClamp := x.state == .decel && decide (spnOvFactor s b < 1) }
  let s := if n = 1 then s.bump (spnA b) F.SPN_CNT3_PRED2 else s
  let s := if shifted then s.bump (spnA b) F.SPN_CNT2_SHIFTS else s
  let s := s.setSpn b (spnNextState s b x)
  if oc then s.spnFaultOff b .overcurrent
  else if shunt then s.spnFaultOff b .shunt
  else s

/-- The overvoltage trip and its release (R280). -/
def State.spnOver (s : State) (b : Bay) : State :=
  let x := s.spn[b]
  if x.ovOff then (if x.vbr < spnOvClamp s b then s.setSpn b { x with ovOff := false } else s)
  else if x.foc && decide (spnOvTrip s b ≤ x.vbr) then
    ((s.setSpn b { x with ovOff := true }).bump (spnA b) F.SPN_CNT2_OV_TRIPS).raiseBay b 0x0502 0 0xFFFF
      (roundOpen (x.vbr * 1000)) 0
  else s

/-- LOOP: slot 4 or 5 of the drive in FAULT, D having fallen to 0 (R280). -/
def State.spnLoop (s : State) (b : Bay) : State :=
  let e := s.trn[dieOfBay b]
  if s.spn[b].valid ∧ s.spn[b].fault = none ∧
      (e.slots[spnSlot b 4].st = .fault ∨ e.slots[spnSlot b 5].st = .fault) then s.spnFaultActive b .loop
  else s

/-- One PWM period (R264): the shunt samples at its valley, the bridge supply sampled at its peak in mV, and the speed by
zero crossings in rpm where one came. -/
def State.pwmPeriod (s : State) (b : Bay) (raw : Vector Int 3) (vbrMv : Nat) (cross : Option Nat) : State :=
  if spnClockCfg s b ∨ s.dies[dieOfBay b].clkLost then s
  else
    let s := (s.activate (.spnMotor b)).activate (.spnDrive b)
    let x := s.spn[b]
    let x := { x with
      duty := x.next
      demand := spnLatched s b
      ceilLim := s.trn[dieOfBay b].sels[spnSel b].selected == some (spnSlot b 8)
      rpmCross := (cross.map fun n => (n : Rat)).getD x.rpmCross }
    let s := s.setSpn b x
    let s := if x.foc && !x.ovOff then s.spnFoc b raw else s.setSpn b (spnNextState s b { x with pred2 := false })
    let x := s.spn[b]
    let held := spnAllOff s b || x.state == .short || x.state == .stopped
    let s := if held then s else s.setSpn b { x with vbr := (vbrMv : Rat) / 1000 }
    let s := if x.ovOff then s.setSpn b { s.spn[b] with vbr := (vbrMv : Rat) / 1000 } else s
    let x := s.spn[b]
    let t := spnTargetRpm s b
    let s := if x.atSpeed && !decide (|x.speed - t| ≤ t / 200) then s.setSpn b { x with atSpeed := false } else s
    (((s.spnOver b).spnLoop b).spnForces b).spnSets b

end Sys2Proof.Machine
end

