-- ==== Sys2Proof/Machine/AxpOps.lean ====
section
/-! DEFINITION. The axis profiler's shared operations (chapter 09). -/
namespace Sys2Proof.Machine

/-- Address of a die's AXP block. -/
def axpA (d : Die) : Nat := dieAt .axp d

/-- Replace an axis. -/
def State.setAxis (s : State) (d : Die) (n : Fin 8) (x : Axis) : State :=
  { s with axp := s.axp.set d { s.axp[d] with axes := s.axp[d].axes.set n x } }

/-- Replace a group. -/
def State.setGrp (s : State) (d : Die) (g : Fin 4) (x : Grp) : State :=
  { s with axp := s.axp.set d { s.axp[d] with groups := s.axp[d].groups.set g x } }

/-- Replace a switch. -/
def State.setSwitch (s : State) (d : Die) (k : Fin 12) (x : Switch) : State :=
  { s with axp := s.axp.set d { s.axp[d] with sw := s.axp[d].sw.set k x } }

/-- Speed, acceleration and jerk limits. -/
structure Limits where
  v : Rat
  a : Rat
  j : Rat
  deriving DecidableEq, Repr

/-- The limits of an axis (R294, R321). -/
def axLimits (s : State) (d : Die) (n : Fin 8) : Limits :=
  { v := s.get (axpA d) F.AXP_An_VMAX_VMAX n
    a := s.get (axpA d) F.AXP_An_AMAX_AMAX n * 1000
    j := s.get (axpA d) F.AXP_An_JMAX_JMAX n * 1000000 }

def axSoftMin (s : State) (d : Die) (n : Fin 8) : Int := s.geti (axpA d) F.AXP_An_SOFT_MIN_SOFT_MIN n
def axSoftMax (s : State) (d : Die) (n : Fin 8) : Int := s.geti (axpA d) F.AXP_An_SOFT_MAX_SOFT_MAX n
def axTarget (s : State) (d : Die) (n : Fin 8) : Int := s.geti (axpA d) F.AXP_An_TARGET_TARGET n
def axEnabled (s : State) (d : Die) (n : Fin 8) : Bool := s.has (axpA d) F.AXP_An_CTL_ENABLE n
/-- The direction of the home switch: +1 or −1 (R305). -/
def axHomeDir (s : State) (d : Die) (n : Fin 8) : Int := if s.has (axpA d) F.AXP_An_HOMECFG_HOME_DIR n then 1 else -1

/-- One profile tick of 1 µs (R294). -/
def tick : Rat := 1 / 1000000

/-! ## The stopping point -/

/-- A body's position, velocity and acceleration. -/
structure Kin where
  p : Rat
  v : Rat
  a : Rat
  deriving DecidableEq, Repr

/-- The stopping point as base + sign × D, where D is the stopping distance from speed `v0` at a = 0 (R295). -/
structure StopAt where
  base : Rat
  sign : Int
  v0   : Rat
  deriving DecidableEq, Repr

/-- The stopping point of a body moving forwards, or at rest with a ≥ 0: an acceleration is first taken back; a deceleration
lies on the stopping profile of a higher speed; one too strong to be taken back before v = 0 carries the body back (R295). -/
def stopForward (j : Rat) (k : Kin) : StopAt :=
  if 0 ≤ k.a then
    { base := k.p + k.v * k.a / j + k.a * k.a * k.a / (3 * j * j), sign := 1, v0 := k.v + k.a * k.a / (2 * j) }
  else
    let t := -k.a / j
    if k.a * k.a ≤ 2 * j * k.v then
      let v0 := k.v + k.a * k.a / (2 * j)
      { base := k.p - (v0 * t - j * t * t * t / 6), sign := 1, v0 }
    else { base := k.p + k.v * t - (-k.a) * t * t / 2 + j * t * t * t / 6, sign := -1, v0 := k.a * k.a / (2 * j) - k.v }

/-- The stopping point (R295). -/
def stopPoint (j : Rat) (k : Kin) : StopAt :=
  if 0 < k.v ∨ (k.v = 0 ∧ 0 ≤ k.a) then stopForward j k
  else
    let m := stopForward j { p := -k.p, v := -k.v, a := -k.a }
    { base := -m.base, sign := -m.sign, v0 := m.v0 }

/-- Whether the stopping distance from a speed at a = 0 is at most x: v (v / A + A / J) / 2 from A² / J, v √(v / J) below,
compared by its square (R295). -/
def stopWithin (l : Limits) (v0 x : Rat) : Bool :=
  if l.a * l.a / l.j ≤ v0 then decide (v0 * (v0 / l.a + l.a / l.j) / 2 ≤ x)
  else decide (0 ≤ x) && decide (v0 * v0 * v0 / l.j ≤ x * x)

/-- Whether the stopping distance from a speed at a = 0 is at least x. -/
def stopBeyond (l : Limits) (v0 x : Rat) : Bool :=
  if l.a * l.a / l.j ≤ v0 then decide (x ≤ v0 * (v0 / l.a + l.a / l.j) / 2)
  else decide (x ≤ 0) || decide (x * x ≤ v0 * v0 * v0 / l.j)

/-- Whether the stopping point lies at or below a position. -/
def stopLe (l : Limits) (k : Kin) (t : Rat) : Bool :=
  let q := stopPoint l.j k
  if 0 < q.sign then stopWithin l q.v0 (t - q.base) else stopBeyond l q.v0 (q.base - t)

/-- Whether the stopping point lies at or above a position. -/
def stopGe (l : Limits) (k : Kin) (t : Rat) : Bool :=
  let q := stopPoint l.j k
  if 0 < q.sign then stopBeyond l q.v0 (t - q.base) else stopWithin l q.v0 (q.base - t)

/-! ## One tick -/

/-- One tick under a jerk (R294). -/
def Kin.step (k : Kin) (j : Rat) : Kin :=
  { p := k.p + k.v * tick + k.a * tick * tick / 2 + j * tick * tick * tick / 6
    v := k.v + k.a * tick + j * tick * tick / 2
    a := k.a + j * tick }

/-- One tick of as much negative jerk as keeps a at or above −A, and of as much positive jerk as keeps it at or below A
(R294). -/
def Kin.less (k : Kin) (l : Limits) : Kin := k.step (max (-l.j) ((-l.a - k.a) / tick))
def Kin.more (k : Kin) (l : Limits) : Kin := k.step (min l.j ((l.a - k.a) / tick))

/-- The peak speed that taking an acceleration back leads to. -/
def Kin.peak (k : Kin) (j : Rat) : Rat := if 0 ≤ k.a then k.v + k.a * k.a / (2 * j) else k.v - k.a * k.a / (2 * j)

/-- Within the limits: |a| ≤ A, and |v| ≤ V also once a has been taken back (R294). -/
def Kin.within (k : Kin) (l : Limits) : Bool :=
  decide (|k.a| ≤ l.a) && decide (|k.v| ≤ l.v) && decide (|k.peak l.j| ≤ l.v)

/-- A body that the next tick cannot bring nearer to rest is at rest. -/
def Kin.resting (k : Kin) (l : Limits) : Bool := decide (|k.v| ≤ l.j * tick * tick) && decide (|k.a| ≤ l.j * tick)

/-- The tick of the fastest path to rest at a target (R297): the jerk nearest to the target's side that keeps the limits and
does not carry the stopping point past the target. -/
def stepTo (l : Limits) (t : Rat) (k : Kin) : Kin :=
  if k.resting l && decide (|t - k.p| ≤ 1) then { p := t, v := 0, a := 0 }
  else if stopLe l k t then
    let up := k.step l.j
    let flat := k.step 0
    if up.within l && stopLe l up t then up
    else if flat.within l && stopLe l flat t then flat
    else k.less l
  else
    let down := k.step (-l.j)
    let flat := k.step 0
    if down.within l && stopGe l down t then down
    else if flat.within l && stopGe l flat t then flat
    else k.more l

/-- The tick of the fastest approach to a velocity within A and J (R299, R305). -/
def stepVel (l : Limits) (w : Rat) (k : Kin) : Kin :=
  if |k.v - w| ≤ l.j * tick * tick ∧ |k.a| ≤ l.j * tick then { p := k.p + w * tick, v := w, a := 0 }
  else if k.peak l.j ≤ w then
    let up := k.step l.j
    let flat := k.step 0
    if |up.a| ≤ l.a ∧ up.peak l.j ≤ w then up
    else if |flat.a| ≤ l.a ∧ flat.peak l.j ≤ w then flat
    else k.less l
  else
    let down := k.step (-l.j)
    let flat := k.step 0
    if |down.a| ≤ l.a ∧ w ≤ down.peak l.j then down
    else if |flat.a| ≤ l.a ∧ w ≤ flat.peak l.j then flat
    else k.more l

/-- The tick of the fastest stop within A and J (R296). -/
def stepStop (l : Limits) (k : Kin) : Kin :=
  if k.resting l then { k with v := 0, a := 0 } else stepVel l 0 k

/-- The motion of an axis. -/
def Axis.kin (x : Axis) : Kin := { p := x.p, v := x.v, a := x.a }

/-- An axis after a motion; the direction output follows the sign of the motion (R293). -/
def Axis.setKin (x : Axis) (k : Kin) (inv : Bool) : Axis :=
  { x with p := k.p, v := k.v, a := k.a
           dir := if k.p = x.p then x.dir else (decide (x.p < k.p)) != inv }

/-- At rest (R319). -/
def Axis.still (x : Axis) : Bool := decide (x.v = 0) && decide (x.a = 0)

/-- The position of the last step (R293, R321). -/
def Axis.pos (x : Axis) : Int := roundOpen x.p

/-! ## Switches and axes -/

/-- The home switch of an axis (R292): on a bay die switch n of axis n for n = 0–3; on the mechanism die switches 0, 3, 6, 9. -/
def homeSwitch (d : Die) (n : Fin 8) : Option (Fin 12) :=
  if d = 1 then (match n.val with | 0 => some 0 | 1 => some 3 | 2 => some 6 | 3 => some 9 | _ => none)
  else (match n.val with | 0 => some 0 | 1 => some 1 | 2 => some 2 | 3 => some 3 | _ => none)

/-- The low and high limit switches of an axis (R292); side A lies at positive T. -/
def limitSwitches (d : Die) (n : Fin 8) : Option (Fin 12 × Fin 12) :=
  if d = 1 then (match n.val with | 0 => some (1, 2) | 1 => some (4, 5) | 2 => some (8, 7) | _ => none) else none

/-- The axis that a switch serves; HEAD_DISC takes its filter from axis G (R292, R600). -/
def switchAxis (d : Die) (k : Fin 12) : Fin 8 :=
  if d = 1 then ⟨min (k.val / 3) 3, by omega⟩ else ⟨k.val % 4, by omega⟩

/-- Whether a switch is confirmed active. -/
def swOn (s : State) (d : Die) (k : Option (Fin 12)) : Bool :=
  match k with | some k => s.axp[d].sw[k].level | none => false

/-- The confirmed limits of an axis: low, high. -/
def axLims (s : State) (d : Die) (n : Fin 8) : Bool × Bool :=
  match limitSwitches d n with
  | some (lo, hi) => (s.axp[d].sw[lo].level, s.axp[d].sw[hi].level)
  | none => (false, false)

/-- The enabled group an axis belongs to (R296, R301). -/
def groupOf (s : State) (d : Die) (n : Fin 8) : Option (Fin 4) :=
  (List.finRange 4).find? fun g =>
    s.has (axpA d) F.AXP_GRPg_CFG_ENABLE g && bitOf (s.get (axpA d) F.AXP_GRPg_CFG_MEMBERS g) n

/-- The members of a group. -/
def grpMembers (s : State) (d : Die) (g : Fin 4) : List (Fin 8) :=
  (List.finRange 8).filter fun n => bitOf (s.get (axpA d) F.AXP_GRPg_CFG_MEMBERS g) n

/-- A refused operation (R296): REFUSED, its code and the count. -/
def State.axRefuse (s : State) (d : Die) (n : Fin 8) (r : AxRefuse) : State :=
  ((s.put (axpA d) F.AXP_An_STATUS_REFUSED 1 n).bump (axpA d) F.AXP_An_CNT_REFUSALS n).setAxis d n
    { s.axp[d].axes[n] with refuse := some r }

/-- Whether a motion towards a target goes towards an active limit (R304). -/
def towardsLimit (s : State) (d : Die) (n : Fin 8) (t : Int) : Bool :=
  let (lo, hi) := axLims s d n
  (lo && decide ((t : Rat) < s.axp[d].axes[n].p)) || (hi && decide (s.axp[d].axes[n].p < t))

/-- Whether a target needs a reversal whose stopping point lies outside the soft limits (R298). -/
def reversalOutside (s : State) (d : Die) (n : Fin 8) (t : Int) : Bool :=
  let x := s.axp[d].axes[n]
  let l := axLimits s d n
  let beyond := !stopLe l x.kin (axSoftMax s d n) || !stopGe l x.kin (axSoftMin s d n)
  let reverses := (decide (0 < x.v) && !stopLe l x.kin t) || (decide (x.v < 0) && !stopGe l x.kin t)
  reverses && beyond

/-- The refusal of a MOVE to a target (R296, R298, R304). -/
def moveRefusal (s : State) (d : Die) (n : Fin 8) (t : Int) : Option AxRefuse :=
  if !axEnabled s d n then some .disabled
  else if (groupOf s d n).isSome then some .busy
  else if s.has (axpA d) F.AXP_An_HOMECFG_HOME_EN n && !s.axp[d].axes[n].homed then some .notHomed
  else if t < axSoftMin s d n ∨ axSoftMax s d n < t ∨ reversalOutside s d n t then some .targetUnreachable
  else if towardsLimit s d n t then some .limit
  else none

/-- The states a MOVE acts in: a faulted or homing axis takes none. -/
def takesMove : AxState → Bool
  | .idle | .kept | .moving | .stopping | .follow | .limit => true
  | .homing | .fault => false

/-- An accepted MOVE (R296, R297). -/
def State.axGo (s : State) (d : Die) (n : Fin 8) (t : Int) : State :=
  let x := s.axp[d].axes[n]
  match x.st with
  | .stopping => s.setAxis d n { x with target := t, after := some .move }
  | .follow =>
    (s.put (axpA d) F.AXP_An_CTL_MODE 0 n).setAxis d n { x with st := .moving, target := t, after := none, atSoft := false }
  | _ => s.setAxis d n { x with st := .moving, target := t, after := none, kept := 0, fault := none }

/-- AXP_An_CMD MOVE to a target (R296, R298, R304). -/
def State.axMoveTo (s : State) (d : Die) (n : Fin 8) (t : Int) : State :=
  match moveRefusal s d n t with
  | some r => s.axRefuse d n r
  | none => if takesMove s.axp[d].axes[n].st then s.axGo d n t else s.axRefuse d n .busy

/-- A stop that keeps the distance (R296). -/
def axStopKeep (x : Axis) : Axis :=
  match x.st with
  | .moving => { x with st := .stopping, after := some .keep }
  | .homing => { x with homed := false, hphase := none, st := .stopping, after := some .drop }
  | .follow => { x with st := .stopping, after := some .drop }
  | _ => x

/-- AXP_An_CMD STOP (R296, R299, R306). -/
def State.axStop (s : State) (d : Die) (n : Fin 8) : State := s.setAxis d n (axStopKeep s.axp[d].axes[n])

/-- AXP_An_CMD RESUME (R296). -/
def State.axResume (s : State) (d : Die) (n : Fin 8) : State :=
  let x := s.axp[d].axes[n]
  if !axEnabled s d n then s.axRefuse d n .disabled
  else if (groupOf s d n).isSome then s.axRefuse d n .busy
  else if s.has (axpA d) F.AXP_An_HOMECFG_HOME_EN n && !x.homed then s.axRefuse d n .notHomed
  else
    match x.st with
    | .kept =>
      if towardsLimit s d n x.kept then s.axRefuse d n .limit
      else s.setAxis d n { x with st := .moving, target := x.kept, after := none }
    | .limit =>
      if towardsLimit s d n x.kept then s.axRefuse d n .limit else s.axRefuse d n .nothingKept
    | _ => s.axRefuse d n .nothingKept

/-- Start a phase of homing (R305). -/
def State.axPhase (s : State) (d : Die) (n : Fin 8) (p : HPhase) : State :=
  let x := s.axp[d].axes[n]
  s.setAxis d n { x with st := .homing, hphase := some p, hstart := x.p, hback := none, after := none }

/-- AXP_An_CMD HOME (R305): RELEASE first when the home switch is active. -/
def State.axHome (s : State) (d : Die) (n : Fin 8) : State :=
  let x := s.axp[d].axes[n]
  if !axEnabled s d n then s.axRefuse d n .disabled
  else if (groupOf s d n).isSome then s.axRefuse d n .busy
  else
    match x.st with
    | .idle | .kept =>
      let s := s.setAxis d n { x with homed := false, reversed := false, htrips := 0, kept := 0 }
      s.axPhase d n (if swOn s d (homeSwitch d n) then .release else .search)
    | _ => s.axRefuse d n .busy

/-- An axis fault (R303, R304, R306). -/
def State.axFault (s : State) (d : Die) (n : Fin 8) (f : AxFault) : State :=
  let x := s.axp[d].axes[n]
  let bay := if d = 1 then none else some (n.val / 2 % 2)
  let y := { x with fault := x.fault <|> some f, st := .fault, hphase := none, kept := x.target,
                    after := some (if f = .homingFault ∨ x.st = .follow then .drop else .keep) }
  let s := s.setAxis d n y
  match f with
  | .homingFault => s.raiseDie d 0x0603 bay 0 n (x.pos) 0
  | .switchChatter => (s.bump (axpA d) F.AXP_An_CNT_CHATTERS n).raiseDie d 0x0602 bay 0 n (x.pos) 0
  | .limitTrip =>
    ((s.setAxis d n { y with st := .limit }).bump (axpA d) F.AXP_An_CNT_LIMIT_TRIPS n).raiseDie d 0x0601 bay 0 n (x.pos) 0

/-- A disabled axis stops as fast as its limits allow and keeps nothing (R296). -/
def State.axDisable (s : State) (d : Die) (n : Fin 8) : State :=
  let x := s.axp[d].axes[n]
  s.setAxis d n { x with st := .idle, hphase := none, kept := 0, after := if x.still then none else some .drop, atSoft := false }

/-! ## Groups -/

/-- A refused group operation (R300, R301). -/
def State.grpRefuse (s : State) (d : Die) (g : Fin 4) (r : AxRefuse) : State :=
  (s.put (axpA d) F.AXP_GRPg_STATUS_REFUSED 1 g).setGrp d g { s.axp[d].groups[g] with refuse := some r }

/-- The limits of a group's path (R300): the least over members with a distance, each times L / |Δ|. -/
def grpLimits (s : State) (d : Die) (g : Fin 4) : Limits :=
  let x := s.axp[d].groups[g]
  let ms := (grpMembers s d g).filter fun n => x.delta[n] ≠ 0
  let scale := fun n => (x.len : Rat) / (x.delta[n].natAbs : Rat)
  ms.foldl (fun (l : Limits) n =>
    let m := axLimits s d n
    let k := scale n
    { v := if l.v = 0 then m.v * k else min l.v (m.v * k)
      a := if l.a = 0 then m.a * k else min l.a (m.a * k)
      j := if l.j = 0 then m.j * k else min l.j (m.j * k) }) { v := 0, a := 0, j := 0 }

/-- Start the straight line from where the members stand to their targets (R300). -/
def State.grpStart (s : State) (d : Die) (g : Fin 4) : State :=
  let ms := grpMembers s d g
  let start := Vector.ofFn fun n : Fin 8 => (s.axp[d].axes[n]).pos
  let delta := Vector.ofFn fun n : Fin 8 => if ms.contains n then axTarget s d n - (s.axp[d].axes[n]).pos else 0
  let len := (delta.toList.map Int.natAbs).foldl max 0
  let lead := (delta.toList.map Int.natAbs).idxOf len
  let s := s.setGrp d g { s.axp[d].groups[g] with
    st := if len = 0 then .idle else .moving, s := 0, v := 0, a := 0, len, start, delta, lead, again := false }
  if len = 0 then s else
    ms.foldl (fun t n => t.setAxis d n { t.axp[d].axes[n] with st := .moving, target := axTarget t d n, after := none }) s

/-- The refusal of a group MOVE (R296, R300): a member outside its soft limits, not homed, or disabled. -/
def grpRefusal (s : State) (d : Die) (g : Fin 4) : Option AxRefuse :=
  if !s.has (axpA d) F.AXP_GRPg_CFG_ENABLE g then some .disabled
  else
    (grpMembers s d g).findSome? fun n =>
      let t := axTarget s d n
      if !axEnabled s d n then some .disabled
      else if s.has (axpA d) F.AXP_An_HOMECFG_HOME_EN n && !s.axp[d].axes[n].homed then some .notHomed
      else if t < axSoftMin s d n ∨ axSoftMax s d n < t then some .targetUnreachable
      else if towardsLimit s d n t then some .limit
      else if !takesMove s.axp[d].axes[n].st then some .busy
      else none

/-- AXP_GRPg_CMD MOVE (R300, R301). -/
def State.grpMove (s : State) (d : Die) (g : Fin 4) : State :=
  match grpRefusal s d g with
  | some r => s.grpRefuse d g r
  | none =>
    let x := s.axp[d].groups[g]
    match x.st with
    | .moving | .stopping => s.setGrp d g { x with st := .stopping, again := true }
    | _ => s.grpStart d g

/-- AXP_GRPg_CMD STOP (R301). -/
def State.grpStop (s : State) (d : Die) (g : Fin 4) : State :=
  let x := s.axp[d].groups[g]
  match x.st with
  | .moving | .stopping => s.setGrp d g { x with st := .stopping, again := false }
  | _ => s

/-- The refusal of a group RESUME (R296, R301, R304): nothing kept, or a member that is disabled, that a fault holds, or whose
way leads towards an active limit. -/
def grpResumeRefusal (s : State) (d : Die) (g : Fin 4) : Option AxRefuse :=
  if !s.has (axpA d) F.AXP_GRPg_CFG_ENABLE g then some .disabled
  else if s.axp[d].groups[g].st ≠ .kept then some .nothingKept
  else
    (grpMembers s d g).findSome? fun n =>
      if !axEnabled s d n then some .disabled
      else if towardsLimit s d n s.axp[d].axes[n].target then some .limit
      else if !takesMove s.axp[d].axes[n].st then some .busy
      else none

/-- AXP_GRPg_CMD RESUME (R301). -/
def State.grpResume (s : State) (d : Die) (g : Fin 4) : State :=
  match grpResumeRefusal s d g with
  | some r => s.grpRefuse d g r
  | none =>
    (grpMembers s d g).foldl (fun t n => t.setAxis d n { t.axp[d].axes[n] with st := .moving })
      (s.setGrp d g { s.axp[d].groups[g] with st := .moving })

/-- Every moving axis and group of a die stops and keeps its distance; a gripper in FOLLOW keeps its force (R307, R311, R314,
R315). -/
def State.stopAxes (s : State) (d : Die) : State :=
  let s := (List.finRange 4).foldl (fun t g => t.grpStop d g) s
  (List.finRange 8).foldl (fun t n =>
    if (groupOf t d n).isSome || (d == 1 && n == 3 && t.axp[d].axes[n].st == .follow) then t else t.axStop d n) s

/-! ## The profile tick -/

/-- The velocity that the turn engine asks of an axis in steps/s (R231, R299, R312): on a bay die the sleds, at 2 steps per
µm; on the mechanism die every axis. -/
def axDemand (s : State) (d : Die) (n : Fin 8) : Rat :=
  if s.dies[d].clkLost then 0
  else
    let get := fun c : Nat => ((s.trn[d].dest.find? (·.1 = c)).map (·.2)).getD 0
    if d = 1 then (get (n.val + 1) : Rat) / 65536
    else match n.val with
      | 0 => (get 0x05 : Rat) / 65536 * 2
      | 2 => (get 0x25 : Rat) / 65536 * 2
      | _ => 0

/-- HOME_SPAN (R305). -/
def axSpan (s : State) (d : Die) (n : Fin 8) : Int :=
  axSoftMax s d n - axSoftMin s d n + 2 * (s.get (axpA d) F.AXP_An_HOMECFG_BACKOFF n : Int)

/-- The velocity of a homing phase in steps/s (R305, R306). -/
def homeSpeed (s : State) (d : Die) (n : Fin 8) (p : HPhase) : Rat :=
  let w := axHomeDir s d n
  let fast : Rat := s.get (axpA d) F.AXP_An_HOMEVEL_HOME_VEL n * 16
  let slow : Rat := s.get (axpA d) F.AXP_An_HOMEVEL_HOME_SLOW n
  match p with
  | .release | .backoff => -w * fast
  | .search => if s.axp[d].axes[n].reversed then -w * fast else w * fast
  | .approach => w * slow

/-- What follows the rest of a stop (R296, R303–R306). -/
def State.axRest (s : State) (d : Die) (n : Fin 8) : State :=
  let x := { s.axp[d].axes[n] with after := none }
  match s.axp[d].axes[n].after with
  | some .keep =>
    let y := { x with kept := x.target }
    if x.st = .stopping then
      s.setAxis d n { y with st := if x.target = x.pos then .idle else .kept }
    else s.setAxis d n y
  | some .drop => s.setAxis d n (if x.st = .stopping then { x with st := .idle, kept := 0 } else { x with kept := x.pos })
  | some .move => s.setAxis d n { x with st := .moving, kept := 0 }
  | some (.phase p) => (s.setAxis d n x).axPhase d n p
  | some .reverse => (s.setAxis d n { x with reversed := true }).axPhase d n .search
  | some .homed =>
    (s.setAxis d n { x with st := .idle, hphase := none, homed := true }).bump (axpA d) F.AXP_An_CNT_HOMINGS n
  | none => s

/-- One tick of an axis in FOLLOW (R299). -/
def followTick (s : State) (d : Die) (n : Fin 8) (x : Axis) : Axis :=
  let l := axLimits s d n
  let w := axDemand s d n
  let sg : Int := if 0 < w then 1 else if w < 0 then -1 else 0
  let x := if sg ≠ 0 ∧ sg ≠ x.softDir then { x with softDir := 0, atSoft := false } else x
  let hits := (decide (0 < x.v) && stopGe l x.kin (axSoftMax s d n)) || (decide (x.v < 0) && stopLe l x.kin (axSoftMin s d n))
  let x := if hits then { x with atSoft := true, softDir := if 0 < x.v then 1 else -1 } else x
  let w := max (-l.v) (min l.v w)
  let w := if x.softDir ≠ 0 then 0 else w
  x.setKin (stepVel l w x.kin) (s.has (axpA d) F.AXP_An_CTL_DIR_INV n)

/-- One tick of an axis outside a group (R294, R296, R297, R305). -/
def State.axTick (s : State) (d : Die) (n : Fin 8) : State :=
  let s := if s.axp[d].axes[n].still then s.activate (.axpAxis d n) else s
  let x := s.axp[d].axes[n]
  let l := axLimits s d n
  let inv := s.has (axpA d) F.AXP_An_CTL_DIR_INV n
  match x.after with
  | some .move | some .keep | some .drop | some (.phase _) | some .reverse | some .homed =>
    let y := x.setKin (stepStop l x.kin) inv
    let t := s.setAxis d n y
    if y.still then t.axRest d n else t
  | none =>
    match x.st with
    | .moving =>
      let y := x.setKin (stepTo l x.target x.kin) inv
      s.setAxis d n (if y.still ∧ y.p = x.target then { y with st := .idle } else y)
    | .follow => s.setAxis d n (followTick s d n x)
    | .homing =>
      match x.hphase with
      | none => s
      | some p =>
        let y := x.setKin (stepVel l (homeSpeed s d n p) x.kin) inv
        let t := s.setAxis d n y
        match y.hback with
        | some q => if (axHomeDir s d n : Rat) * (q - y.p) ≥ 0 then t.setAxis d n { y with after := some (.phase .approach) } else t
        | none => if (axSpan s d n : Rat) ≤ |y.p - y.hstart| then t.axFault d n .homingFault else t
    | _ => s

/-- One tick of a group (R300, R301): the path parameter moves under the group's limits and every member follows it to the
nearest step. -/
def State.grpTick (s : State) (d : Die) (g : Fin 4) : State :=
  let ms := grpMembers s d g
  let s := if ms.all (fun n => s.axp[d].axes[n].still) ∧ s.axp[d].groups[g].st ≠ .moving ∧ s.axp[d].groups[g].st ≠ .stopping
           then s.activate (.axpGroup d g) else s
  let x := s.axp[d].groups[g]
  let l := grpLimits s d g
  let k : Kin := { p := x.s, v := x.v, a := x.a }
  let place := fun (t : State) (q : Rat) => (grpMembers s d g).foldl (fun t n =>
    let y := t.axp[d].axes[n]
    t.setAxis d n { y with p := (x.start[n] : Rat) + roundNear ((x.delta[n] : Rat) * q / x.len) }) t
  let rest := fun (t : State) (st : AxState) => (grpMembers s d g).foldl (fun t n =>
    let y := t.axp[d].axes[n]
    t.setAxis d n { y with st := if y.st = .moving then st else y.st, kept := y.target, v := 0, a := 0 }) t
  match x.st with
  | .moving =>
    let q := stepTo l x.len k
    let t := place (s.setGrp d g { x with s := q.p, v := q.v, a := q.a }) q.p
    if q.v = 0 ∧ q.a = 0 ∧ q.p = x.len then rest (t.setGrp d g { x with s := q.p, v := 0, a := 0, st := .idle }) .idle else t
  | .stopping =>
    let q := stepStop l k
    let y := { x with s := q.p, v := q.v, a := q.a }
    let t := place (s.setGrp d g y) q.p
    if q.v = 0 ∧ q.a = 0 then
      if x.again then (t.setGrp d g { y with st := .idle }).grpStart d g
      else rest (t.setGrp d g { y with st := if q.p = x.len then .idle else .kept }) .kept
    else t
  | _ => s

/-- A profile tick of a die (R294). -/
def State.profileTick (s : State) (d : Die) : State :=
  if s.axp[d].dead then s
  else
    let s := (List.finRange 4).foldl (fun t g => t.grpTick d g) s
    (List.finRange 8).foldl (fun t n =>
      match groupOf t d n with
      | some g => if t.axp[d].groups[g].st = .moving ∨ t.axp[d].groups[g].st = .stopping then t else t.axTick d n
      | none => t.axTick d n) s

/-! ## Checks and views -/

/-- The cross-checks of an axis group (R319): 2 × STEP_W ≤ 10⁹ / VMAX ns. -/
def axpAxisOk (s : State) (d : Die) (n : Fin 8) : Bool :=
  let v := fun f => s.stagedVal (axpA d) f n
  let i := fun f => s.stagedInt (axpA d) f n
  decide (i F.AXP_An_SOFT_MIN_SOFT_MIN < i F.AXP_An_SOFT_MAX_SOFT_MAX) &&
    decide (2 * (10 * v F.AXP_An_STEPCFG_STEP_W) * v F.AXP_An_VMAX_VMAX ≤ 1000000000) &&
    decide (v F.AXP_An_HOMEVEL_HOME_SLOW ≤ 16 * v F.AXP_An_HOMEVEL_HOME_VEL) &&
    decide (16 * v F.AXP_An_HOMEVEL_HOME_VEL ≤ v F.AXP_An_VMAX_VMAX)

/-- The cross-checks of an interpolation group (R319). -/
def axpGroupOk (s : State) (d : Die) (g : Fin 4) : Bool :=
  let on := s.stagedVal (axpA d) F.AXP_GRPg_CFG_ENABLE g == 1
  let ms : List (Fin 8) := (List.finRange 8).filter fun n => bitOf (s.stagedVal (axpA d) F.AXP_GRPg_CFG_MEMBERS g) n
  !on || (decide (2 ≤ ms.length) && ms.all fun n : Fin 8 =>
    axEnabled s d n && s.get (axpA d) F.AXP_An_CTL_MODE n == 0 &&
      (match groupOf s d n with | some h => decide (h = g) | none => true))

/-- The cross-checks of the geometry group (R319). -/
def yrdGeomOk (s : State) : Bool :=
  let a := dieAt .yrd 1
  let v := fun f => s.stagedVal a f
  decide (v F.YRD_GEOM_DECKS ≤ 16) &&
    decide (v F.YRD_MOTION_APPROACH_DZ + v F.YRD_MOTION_LIFT_DZ < v F.YRD_GEOM_Z_PITCH)

/-- The live words of the AXP registers (R321). -/
def viewAxp (s : State) (d : Die) (off : Nat) : Option Nat :=
  if off = 0x500 then
    some ((List.finRange 12).foldl (fun w k => w + b2n s.axp[d].sw[k].level * 2 ^ k.val) 0)
  else if off < 0x400 then
    let n : Fin 8 := ⟨off / 0x80 % 8, Nat.mod_lt _ (by decide)⟩
    let x := s.axp[d].axes[n]
    let (lo, hi) := axLims s d n
    match off % 0x80 with
    | 0x0C => some (ofSigned 32 x.pos)
    | 0x10 => some (ofSigned 32 (roundOpen x.v))
    | 0x14 => some (x.st.code * 2 ^ 28 + (x.hphase.map HPhase.code).getD 0 * 2 ^ 24
        + (x.refuse.map AxRefuse.code).getD 0 * 2 ^ 20 + (x.fault.map AxFault.code).getD 0 * 2 ^ 16
        + s.get (axpA d) F.AXP_An_STATUS_REFUSED n * 2 ^ 15 + b2n x.homed * 2 ^ 14 + b2n x.atSoft * 2 ^ 13
        + b2n hi * 2 ^ 12 + b2n lo * 2 ^ 11 + b2n (swOn s d (homeSwitch d n)) * 2 ^ 10 + b2n x.reversed * 2 ^ 9)
    | 0x18 => some (ofSigned 32 (if x.st = .kept then x.kept - x.pos else 0))
    | 0x1C => some (ofSigned 32 x.capture)
    | _ => none
  else if off < 0x480 then
    let g : Fin 4 := ⟨(off - 0x400) / 0x20 % 4, Nat.mod_lt _ (by decide)⟩
    let x := s.axp[d].groups[g]
    match off % 0x20 with
    | 0x08 => some (x.st.code * 2 ^ 28 + (x.refuse.map AxRefuse.code).getD 0 * 2 ^ 24
        + s.get (axpA d) F.AXP_GRPg_STATUS_REFUSED g * 2 ^ 23 + x.lead)
    | 0x0C => some (if x.st = .kept then toBits32 (roundOpen ((x.len : Rat) - x.s)) else 0)
    | _ => none
  else none
where
  /-- A number held to 32 bits. -/
  toBits32 (n : Int) : Nat := (clampInt 0 (2 ^ 32 - 1) n).toNat

end Sys2Proof.Machine
end

