-- ==== Sys2Proof/Machine/YrdOps.lean ====
section
/-! DEFINITION. The yarder's shared operations (chapter 09). Its axes are X, Z, T and G, axes 0 to 3 of the mechanism die. -/
namespace Sys2Proof.Machine

/-- Address of the YRD block. -/
def yrdA : Nat := dieAt .yrd 1

def axX : Fin 8 := 0
def axZ : Fin 8 := 1
def axT : Fin 8 := 2
def axG : Fin 8 := 3

/-- Replace the yarder. -/
def State.setYrd (s : State) (y : Yrd) : State := { s with yrd := y }

/-- An axis of the mechanism die. -/
def yrdAx (s : State) (n : Fin 8) : Axis := s.axp[(1 : Die)].axes[n]

/-! ## Places (R309) -/

/-- Where a place lies. -/
structure Spot where
  x : Int
  z : Int
  t : Int
  deriving DecidableEq, Repr

/-- The side angle of a SIDE bit. -/
def sideAngle (s : State) (side : Nat) : Int :=
  if side = 0 then s.geti yrdA F.YRD_TANG_T_SIDE_A else s.geti yrdA F.YRD_TANG_T_SIDE_B

/-- The position of a place code; none for a slot beyond the configured decks, an absent bay or a code of no place (R309). -/
def placeSpot (s : State) (c : Nat) : Option Spot :=
  if c < 4096 then
    let d := c / 256
    if d < s.get yrdA F.YRD_GEOM_DECKS then
      some { x := s.get yrdA F.YRD_DECKd_X_X d
             z := s.get yrdA F.YRD_DECKd_Z_Z d + (c % 256 * s.get yrdA F.YRD_GEOM_Z_PITCH : Nat)
             t := sideAngle s (s.get yrdA F.YRD_DECKd_X_SIDE d) }
    else none
  else if c < 4112 then
    let b := c - 4096
    if s.hasBay b then
      some { x := s.get yrdA F.YRD_BAYb_X_X b, z := s.get yrdA F.YRD_BAYb_Z_Z b
             t := sideAngle s (s.get yrdA F.YRD_BAYb_X_SIDE b) }
    else none
  else if c < 4120 then
    let m := c - 4112
    some { x := s.get yrdA F.YRD_MAILm_X_X m, z := s.get yrdA F.YRD_MAILm_Z_Z m
           t := sideAngle s (s.get yrdA F.YRD_MAILm_X_SIDE m) }
  else none

/-- The scan unit of a place: its deck, 16 for the mail slots, none for a bay (R316). -/
def placeDeck (c : Nat) : Option Nat := if c < 4096 then some (c / 256) else if 4112 ≤ c then some 16 else none

/-- The crew's map: mark a place occupied or empty, keeping it rising. -/
def mapSet (m : List Nat) (c : Nat) : List Nat := (m.filter (· < c)) ++ c :: m.filter (c < ·)
def mapDel (m : List Nat) (c : Nat) : List Nat := m.filter (· ≠ c)

/-! ## Postures (R310) -/

/-- At rest within 20 steps of an angle. -/
def armAt (s : State) (t : Int) : Bool :=
  let x := yrdAx s axT
  x.still && decide (|x.p - t| ≤ 20)

/-- All four axes homed (R322). -/
def yrdHomed (s : State) : Bool := [axX, axZ, axT, axG].all fun n => (yrdAx s n).homed

/-- Write an axis's TARGET. -/
def State.aim (s : State) (n : Fin 8) (t : Int) : State :=
  s.put (axpA 1) F.AXP_An_TARGET_TARGET (ofSigned 32 t) n

/-- Move X and Z: in group 0 where it holds them, else each on its own; with the refusal, if any (R300, R310). -/
def State.moveXZ (s : State) (x z : Int) : State × Option AxRefuse :=
  let s := (s.aim axX x).aim axZ z
  if groupOf s 1 axX = some 0 ∧ groupOf s 1 axZ = some 0 then
    match grpRefusal s 1 0 with
    | some r => (s.grpRefuse 1 0 r, some r)
    | none => (s.grpMove 1 0, none)
  else
    match (if x = (yrdAx s axX).pos then none else moveRefusal s 1 axX x) <|> moveRefusal s 1 axZ z with
    | some r => (s.axRefuse 1 axZ r, some r)
    | none => ((if x = (yrdAx s axX).pos then s else s.axMoveTo 1 axX x).axMoveTo 1 axZ z, none)

/-- Swing the arm. -/
def State.swing (s : State) (t : Int) : State × Option AxRefuse :=
  let s := s.aim axT t
  match moveRefusal s 1 axT t with
  | some r => (s.axRefuse 1 axT r, some r)
  | none => (s.axMoveTo 1 axT t, none)

/-! ## The gripper (R311) -/

/-- Enable or disable slot 0, in its staged set as in its active one. -/
def State.gripSlot (s : State) (on : Bool) : State :=
  let a := dieAt .trn 1
  let f := F.TRN_Sn_CFG_ENABLE
  let k := f.key a 0 0
  { s with regs := fieldPut s.regs f k (b2n on), staged := fieldPut s.staged f k (b2n on) }

/-- A grip starts: slot 0 is enabled and forced to +HOME_SLOW, and G follows it. -/
def State.gripStart (s : State) : State :=
  let a := dieAt .trn 1
  let slow := min 32767 (s.get (axpA 1) F.AXP_An_HOMEVEL_HOME_SLOW axG)
  let s := (s.gripSlot true).put a F.TRN_Sn_CMD_FVAL slow 0
  let s := s.put a F.TRN_Sn_CMD_FORCE 1 0
  let s := s.put (axpA 1) F.AXP_An_CTL_MODE 1 axG
  let g := yrdAx s axG
  let s := s.setAxis 1 axG { g with st := .follow, after := none, kept := 0, atSoft := false, softDir := 0 }
  s.setYrd { s.yrd with gripAt := g.pos, gripping := true }

/-- The jaws have met the disc: the force ends, and the law takes over from it (R242, R311). -/
def State.gripContact (s : State) (at_ : Int) : State :=
  let x := s.trn[(1 : Die)].slots[(0 : Fin 48)]
  let s := if s.has (dieAt .trn 1) F.TRN_Sn_CMD_FORCE 0 then
      (s.put (dieAt .trn 1) F.TRN_Sn_CMD_FORCE 0 0).setSlot 1 0 { x with hand := some x.out }
    else s
  s.setYrd { s.yrd with contact := true, contactAt := at_ }

/-- The gripper opens: slot 0 is disabled and G homes once at rest (R305, R311). -/
def State.gripOpen (s : State) : State :=
  let s := (s.gripSlot false).put (dieAt .trn 1) F.TRN_Sn_CMD_FORCE 0 0
  let s := s.put (axpA 1) F.AXP_An_CTL_MODE 0 axG
  let x := yrdAx s axG
  let p : HPhase := if swOn s 1 (homeSwitch 1 axG) then .release else .search
  let s := s.setAxis 1 axG { x with st := .homing, hphase := some p, homed := false, reversed := false, htrips := 0, kept := 0,
                                    after := some (.phase p), atSoft := false }
  s.setYrd { s.yrd with gripping := false }

/-- Jaw compression (R312). -/
def compression (s : State) : Int := (yrdAx s axG).pos - s.yrd.contactAt

/-! ## Transfers (R313, R314) -/

/-- The YRD_LAST word. -/
def lastWord (y : Yrd) : Nat := y.last.1 * 2 ^ 19 + y.last.2.1 * 2 ^ 6 + y.last.2.2

/-- The scanned state and occupancy after a transfer: what it moved (R24, R313, R314). -/
def mapAfter (y : Yrd) (j : TransferJob) (result : Nat) : List Nat :=
  if y.timedOut then y.occupied
  else if result = 0 then mapSet (mapDel y.occupied j.src) j.dst
  else if result = 1 ∨ y.holding then mapDel y.occupied j.src
  else y.occupied

/-- A transfer ends: YRD_LAST, the count, the map and the WORK_DONE of its item. -/
def State.transferEnd (s : State) (result : Nat) (st : WStatus) : State :=
  let y := s.yrd
  match y.job with
  | none => s.setYrd { y with motion := none, away := none, gripping := false }
  | some j =>
    let back := y.timedOut
    let y := { y with
      last := if y.timedOut then y.last else (j.src, j.dst, result)
      occupied := mapAfter y j result
      job := none, motion := none, away := none, timedOut := false }
    let s := s.setYrd y
    let s := if result = 0 ∧ back = false then s.bump yrdA F.YRD_CNT_TRANSFERS else s
    match j.item with
    | some i => s.endItem 1 i st result (some (lastWord y))
    | none => s

/-- The status of an axis outcome (R308). -/
def axisStatus : Option AxRefuse → WStatus
  | some .targetUnreachable => .targetUnreachable
  | _ => .fault

/-- A transfer, an inventory or the power-up homing stops where it stands, and the yarder enters FAULT (R310, R314). -/
def State.yrdFault (s : State) (result : Nat) (st : WStatus) (cycled : Bool) : State :=
  let s := s.stopAxes 1
  let s := s.transferEnd result st
  s.setYrd { s.yrd with state := .fault, scanning := none, homeLeft := [], cycled }

/-- A failed transfer puts the arm away (R314): the gripper homes open, then the arm returns to 0. -/
def State.putAway (s : State) (result : Nat) : State :=
  let s := s.gripOpen
  s.setYrd { s.yrd with away := some (.gripHome result), motion := none }

/-- Start a motion of the transfer under way; a posture it would break or an axis that refuses it ends the transfer (R308,
R310). -/
def State.startMotion (s : State) (m : Motion) : State :=
  match s.yrd.job with
  | none => s
  | some j =>
    match placeSpot s j.src, placeSpot s j.dst with
    | some p, some q =>
      let ap := (s.get yrdA F.YRD_MOTION_APPROACH_DZ : Int)
      let li := (s.get yrdA F.YRD_MOTION_LIFT_DZ : Int)
      let s := s.setYrd { s.yrd with motion := some m }
      let x := (yrdAx s axX).pos
      let rest := (yrdAx s axX).still && (yrdAx s axZ).still
      let done := fun (r : State × Option AxRefuse) (posture : Bool) =>
        if !posture then s.yrdFault 5 .fault true
        else match r.2 with
          | some e => r.1.yrdFault 5 (axisStatus (some e)) true
          | none => r.1
      match m with
      | .toP => done (s.moveXZ p.x (p.z + ap)) (armAt s 0)
      | .swingP => done (s.swing p.t) rest
      | .lowerP => done (s.moveXZ x p.z) (armAt s p.t && decide (x = p.x))
      | .gripP => if armAt s p.t then s.gripStart else s.yrdFault 5 .fault true
      | .comp => s
      | .liftP => done (s.moveXZ x (p.z + li)) (armAt s p.t && decide (x = p.x))
      | .parkP | .parkQ => done (s.swing 0) rest
      | .toQ => done (s.moveXZ q.x (q.z + ap + li)) (armAt s 0)
      | .swingQ => done (s.swing q.t) rest
      | .lowerQ => done (s.moveXZ x q.z) (armAt s q.t && decide (x = q.x))
      | .openQ => s.gripOpen
      | .riseQ => done (s.moveXZ x (q.z + ap)) (armAt s q.t && decide (x = q.x))
    | _, _ => s.yrdFault 5 .fault true

/-- An axis at rest at a position. -/
def restsAt (s : State) (n : Fin 8) (t : Int) : Bool :=
  let x := yrdAx s n
  x.still && decide (x.pos = t) && (x.st == .idle || x.st == .kept)

/-- G has homed (R305). -/
def gHome (s : State) : Bool := (yrdAx s axG).homed && (yrdAx s axG).st == .idle

/-- HEAD_DISC confirmed active (R302). -/
def headDisc (s : State) : Bool := s.axp[(1 : Die)].sw[(11 : Fin 12)].level

/-- Whether the motion under way has completed. -/
def motionDone (s : State) (m : Motion) (j : TransferJob) : Bool :=
  match placeSpot s j.src, placeSpot s j.dst with
  | some p, some q =>
    let ap := (s.get yrdA F.YRD_MOTION_APPROACH_DZ : Int)
    let li := (s.get yrdA F.YRD_MOTION_LIFT_DZ : Int)
    match m with
    | .toP => restsAt s axX p.x && restsAt s axZ (p.z + ap)
    | .swingP => restsAt s axT p.t
    | .lowerP => restsAt s axZ p.z
    | .gripP => s.yrd.contact
    | .comp => s.yrd.contact && decide ((s.get yrdA F.YRD_GRIP_GRIP_COMP : Int) ≤ compression s) && headDisc s
    | .liftP => restsAt s axZ (p.z + li)
    | .parkP | .parkQ => restsAt s axT 0
    | .toQ => restsAt s axX q.x && restsAt s axZ (q.z + ap + li)
    | .swingQ => restsAt s axT q.t
    | .lowerQ => restsAt s axZ q.z
    | .openQ => gHome s && !headDisc s
    | .riseQ => restsAt s axZ (q.z + ap)
  | _, _ => false

/-- The motion after a motion (R313). -/
def Motion.next : Motion → Option Motion
  | .toP => some .swingP | .swingP => some .lowerP | .lowerP => some .gripP | .gripP => some .comp | .comp => some .liftP
  | .liftP => some .parkP | .parkP => some .toQ | .toQ => some .swingQ | .swingQ => some .lowerQ | .lowerQ => some .openQ
  | .openQ => some .riseQ | .riseQ => some .parkQ | .parkQ => none

/-! ## Inventory and the queue of work (R313, R316) -/

/-- The units an inventory scans: the configured decks, then the mail slots. -/
def scanUnits (s : State) : List Nat := (List.range (s.get yrdA F.YRD_GEOM_DECKS)) ++ [16]

/-- The first unscanned unit that a transfer names. -/
def needsScan (y : Yrd) (j : TransferJob) : Option Nat :=
  [placeDeck j.src, placeDeck j.dst].findSome? fun k => k.bind fun k => if y.unscanned.contains k then some k else none

/-- Scan a unit. -/
def State.scan (s : State) (k : Nat) : State := s.setYrd { s.yrd with state := .inventory, scanning := some k }

/-- Whether the yarder may start anything. -/
def yrdFree (s : State) : Bool :=
  s.yrd.state == .idle && s.has yrdA F.YRD_CTL_ENABLE && yrdHomed s && !s.yrd.door && !s.dies[(1 : Die)].safe && !vmechLow s

/-- A transfer refused before any motion: its item ends at once (R313). -/
def State.transferRefuse (s : State) (j : TransferJob) (st : WStatus) (cause : Nat) : State :=
  match j.item with
  | some i => s.endItem 1 i st cause (some (lastWord s.yrd))
  | none => s

/-- An item's motion begins (R24). -/
def State.itemBegun (s : State) (d : Die) (i : Option Nat) : State :=
  match i with
  | some i => s.setDie d { s.dies[d] with items := s.dies[d].items.map fun w => if w.item = i then { w with begun := true } else w }
  | none => s

/-- The yarder takes up what waits: the first transfer, after a scan of the decks it names; refused ones end; otherwise the
inventory goes on (R313, R316). -/
def yrdTake (s : State) : List TransferJob → State
  | [] =>
    match s.yrd.unscanned with
    | k :: _ => s.scan k
    | [] => s
  | j :: rest =>
    match needsScan s.yrd j with
    | some k => s.scan k
    | none =>
      let s := s.setYrd { s.yrd with waiting := rest }
      if (placeSpot s j.src).isNone ∨ (placeSpot s j.dst).isNone then yrdTake (s.transferRefuse j .refused 0) rest
      else if !s.yrd.occupied.contains j.src then yrdTake (s.transferRefuse j .slotEmpty 1) rest
      else if s.yrd.occupied.contains j.dst then yrdTake (s.transferRefuse j .refused 0) rest
      else (s.setYrd { s.yrd with state := .transfer, job := some j, timedOut := false, away := none }).itemBegun 1 j.item
        |>.startMotion .toP

/-- What the yarder does next when it is free; the geometry set becomes active at an access boundary (R319). -/
def State.yrdNext (s : State) : State :=
  if yrdFree s then
    let s := s.activate .yrdGeometry
    let s := if s.yrd.invDue then s.setYrd { s.yrd with invDue := false, unscanned := scanUnits s } else s
    yrdTake s s.yrd.waiting
  else s

/-- A transfer has run its course: the yarder is free again. -/
def State.yrdIdle (s : State) : State := (s.setYrd { s.yrd with state := .idle }).yrdNext

/-- The transfer under way advances, or ends (R313, R314). -/
def State.yrdAdvance (s : State) : State :=
  let y := s.yrd
  match y.away, y.motion, y.job with
  | some (.gripHome r), _, _ =>
    if gHome s then
      let t := s.setYrd { y with away := some (.armPark r), contact := s.yrd.contact }
      match t.swing 0 with
      | (u, none) => u
      | (u, some e) => u.yrdFault 5 (axisStatus (some e)) true
    else s
  | some (.armPark r), _, _ =>
    if restsAt s axT 0 then (s.transferEnd r (if r = 1 then .slotEmpty else .fault)).yrdIdle else s
  | none, some m, some j =>
    if motionDone s m j then
      let s := match m with
        | .comp => s.setYrd { s.yrd with holding := true }
        | .openQ => s.setYrd { s.yrd with holding := false, orphan := false, invDue := s.yrd.invDue || s.yrd.orphan }
        | _ => s
      match m.next with
      | some n => s.startMotion n
      | none => (s.transferEnd 0 .done).yrdIdle
    else if m = .gripP ∧ (s.get yrdA F.YRD_GRIP_GRIP_RANGE : Int) ≤ (yrdAx s axG).pos - y.gripAt then s.putAway 1
    else s
  | _, _, _ => s

/-! ## Faults from the axes -/

/-- A yarder axis in FAULT or LIMIT while the yarder works ends the work (R308, R314). -/
def State.yrdWatch (s : State) : State :=
  if s.yrd.state = .transfer ∨ s.yrd.state = .inventory ∨ s.yrd.state = .homing then
    match [axX, axZ, axT, axG].find? (fun n => (yrdAx s n).st == .fault || (yrdAx s n).st == .limit) with
    | some n =>
      let st : WStatus := match (yrdAx s n).fault with
        | some .homingFault => .homingFault
        | some .switchChatter => .switchChatter
        | _ => .fault
      s.yrdFault 5 st true
    | none => s
  else s

/-! ## Power-up homing (R317) -/

/-- The first free mail slot of the map. -/
def freeMail (y : Yrd) : Option Nat := ((List.range 8).map (4112 + ·)).find? fun c => !y.occupied.contains c

/-- The orphan goes into the first free mail slot; without one the yarder keeps it, in FAULT, with the arm parked (R317). -/
def State.placeOrphan (s : State) : State :=
  match freeMail s.yrd with
  | some c =>
    let s := s.raiseDie 1 0x0713 none 0 0 c 0
    let s := s.setYrd { s.yrd with state := .transfer, job := some { src := c, dst := c, item := none }, timedOut := true }
    s.startMotion .toQ
  | none =>
    let s := s.raiseDie 1 0x0713 none 0 0 (2 ^ 64 - 1) 0
    s.setYrd { s.yrd with state := .fault, cycled := false }

/-- An axis of the power-up sequence homes; one that refuses to ends the sequence in FAULT (R308, R314, R317). -/
def State.yrdHome (s : State) (n : Fin 8) : State :=
  let t := s.axHome 1 n
  if (yrdAx t n).st = .homing then t else t.yrdFault 5 .fault true

/-- The power-up sequence goes on: the next axis homes once the one before has; at its end the inventory is due, or the
orphan is placed. -/
def State.yrdHoming (s : State) : State :=
  if s.yrd.state = .homing then
    match s.yrd.homeLeft with
    | [] => s
    | n :: rest =>
      if (yrdAx s n).homed ∧ (yrdAx s n).st = .idle then
        let s := s.setYrd { s.yrd with homeLeft := rest }
        match rest with
        | m :: _ => s.yrdHome m
        | [] => if s.yrd.orphan then s.placeOrphan else (s.setYrd { s.yrd with invDue := true }).yrdIdle
      else s
  else s

/-! ## Views -/

/-- The live words of the yarder (R322). -/
def viewYrd (s : State) (off : Nat) : Option Nat :=
  let y := s.yrd
  if off = 0x04 then
    some (y.state.code * 2 ^ 28 + ((y.motion.map Motion.step).getD 0) * 2 ^ 24 + b2n y.door * 4 + b2n y.holding * 2 + b2n (yrdHomed s))
  else if off = 0x0C then some (lastWord y)
  else none

end Sys2Proof.Machine
end

