-- ==== Sys2Proof/Machine/Axes.lean ====
section
/-! DEFINITION. What the commands of the axis profiler do (chapter 09). -/
namespace Sys2Proof.Machine

/-- A profile tick of a field die (R294); on the mechanism die the yarder sees what its axes came to (R308, R317). -/
def execProfileTick (d : Die) (s : State) : Host.Outcome State Fault Refusal :=
  .next (if d = 1 then (s.profileTick d).yrdWatch.yrdHoming else s.profileTick d)

/-- AXP_An_CMD MOVE to the axis's TARGET (R296–R298). -/
def execAxpMove (d : Die) (n : Fin 8) (s : State) : Host.Outcome State Fault Refusal :=
  .next (s.axMoveTo d n (axTarget s d n))

/-- AXP_An_CMD STOP, refused for a member of an enabled group (R296, R301). -/
def execAxpStop (d : Die) (n : Fin 8) (s : State) : Host.Outcome State Fault Refusal :=
  .next (if (groupOf s d n).isSome then s.axRefuse d n .busy else s.axStop d n)

/-- AXP_An_CMD RESUME (R296). -/
def execAxpResume (d : Die) (n : Fin 8) (s : State) : Host.Outcome State Fault Refusal := .next (s.axResume d n)

/-- AXP_An_CMD HOME (R305). -/
def execAxpHome (d : Die) (n : Fin 8) (s : State) : Host.Outcome State Fault Refusal := .next (s.axHome d n)

/-- Whether a chattering switch of the axis has been quiet for CHAT_WIN (R303). -/
def chatterQuiet (s : State) (d : Die) (n : Fin 8) : Bool :=
  let win := s.get (axpA d) F.AXP_An_SWCFG_CHAT_WIN n * 1000000
  (List.finRange 12).all fun k =>
    switchAxis d k != n || match s.axp[d].sw[k].lastRaw with
      | some t => decide (t + win ≤ s.clock)
      | none => true

/-- AXP_An_CMD CLR_FAULT: a faulted axis returns to IDLE with HOMED as it stands, after chatter only once the switch is quiet
(R303, R306). -/
def State.axClrFault (s : State) (d : Die) (n : Fin 8) : State :=
  let x := s.axp[d].axes[n]
  if (groupOf s d n).isSome then s.axRefuse d n .busy
  else if x.st = .fault then
    if x.fault = some .switchChatter ∧ ¬ chatterQuiet s d n then s.axRefuse d n .busy
    else s.setAxis d n { x with st := .idle, fault := none, hphase := none }
  else s

/-- AXP_An_CMD CLR_FAULT (R303, R306). -/
def execAxpClrFault (d : Die) (n : Fin 8) (s : State) : Host.Outcome State Fault Refusal := .next (s.axClrFault d n)

/-- A write of AXP_An_CTL (R293, R296, R299): enabling, disabling, DIR_INV and MODE; modes 2 and 3 are refused, and the
register keeps its value. Disabling a member stops its group. -/
def State.axCtl (s : State) (d : Die) (n : Fin 8) (w : Word) : State :=
  let mode := F.AXP_An_CTL_MODE.of w
  if 2 ≤ mode then s
  else
    let on := F.AXP_An_CTL_ENABLE.of w == 1
    let was := axEnabled s d n
    let s := ((s.put (axpA d) F.AXP_An_CTL_ENABLE (b2n on) n).put (axpA d) F.AXP_An_CTL_DIR_INV
      (F.AXP_An_CTL_DIR_INV.of w) n).put (axpA d) F.AXP_An_CTL_MODE mode n
    if !on then
      let s := if was then (match groupOf s d n with | some g => s.grpStop d g | none => s) else s
      if was then s.axDisable d n else s
    else
      let x := s.axp[d].axes[n]
      if mode = 1 then
        if x.st = .idle ∨ x.st = .kept ∨ x.st = .moving ∨ x.st = .stopping then
          s.setAxis d n { x with st := .follow, after := none, kept := 0, atSoft := false, softDir := 0 }
        else s
      else if x.st = .follow then s.setAxis d n { x with st := .stopping, after := some .drop } else s

/-- A write of AXP_An_CTL (R296, R299, R321). -/
def execAxpCtlWrite (d : Die) (n : Fin 8) (value : Word) (s : State) : Host.Outcome State Fault Refusal :=
  .next (s.axCtl d n value)

/-- AXP_GRPg_CMD MOVE (R300, R301). -/
def execGrpMove (d : Die) (g : Fin 4) (s : State) : Host.Outcome State Fault Refusal := .next (s.grpMove d g)

/-- AXP_GRPg_CMD STOP (R301). -/
def execGrpStop (d : Die) (g : Fin 4) (s : State) : Host.Outcome State Fault Refusal := .next (s.grpStop d g)

/-- AXP_GRPg_CMD RESUME (R301). -/
def execGrpResume (d : Die) (g : Fin 4) (s : State) : Host.Outcome State Fault Refusal := .next (s.grpResume d g)

/-- A raw edge of a switch input: the position is latched at the first edge towards the new level since the last confirmed
level (R302). -/
def execSwitchRawEdge (d : Die) (k : Fin 12) (active : Bool) (s : State) : Host.Outcome State Fault Refusal :=
  let x := s.axp[d].sw[k]
  let p := (s.axp[d].axes[switchAxis d k]).pos
  .next (s.setSwitch d k { x with
    raw := active
    lastRaw := some s.clock
    latch := if active = x.level then x.latch else x.latch <|> some p })

end Sys2Proof.Machine
end

