-- ==== Sys2Proof/Machine/HubOps.lean ====
section
/-! DEFINITION. The named operations of the hub: device time, memory, interrupts, host packets, events and protection
(chapters 16, 17 and 21). -/
namespace Sys2Proof.Machine

/-! ## Hub memory -/

/-- The byte at a hub address; an address not listed holds 0 (R388). -/
def cellGet : List Host.Cell → Nat → Byte
  | [], _ => 0
  | (k, v) :: t, a => if k = a then v else if a < k then 0 else cellGet t a

/-- Store a byte; 0 is not listed. -/
def cellPut : List Host.Cell → Nat → Byte → List Host.Cell
  | [], a, x => if x = 0 then [] else [(a, x)]
  | (k, v) :: t, a, x =>
    if k = a then (if x = 0 then t else (a, x) :: t)
    else if a < k then (if x = 0 then (k, v) :: t else (a, x) :: (k, v) :: t)
    else (k, v) :: cellPut t a x

/-- The canonical form of memory: addresses strictly rising, no byte 0 listed. -/
def Memory.wf : List Host.Cell → Bool
  | [] => true
  | [(_, v)] => v != 0
  | (k, v) :: (k', v') :: t => v != 0 && decide (k < k') && Memory.wf ((k', v') :: t)

/-- n bytes from a hub address. -/
def State.bytesAt (s : State) (a n : Nat) : Bytes := (List.range n).map fun i => cellGet s.mem (a + i)

/-- Store bytes from an address upwards. -/
def cellsPut (m : List Host.Cell) (a : Nat) : Bytes → List Host.Cell
  | [] => m
  | x :: t => cellsPut (cellPut m a x) (a + 1) t

/-- Store bytes in hub memory. -/
def State.putBytes (s : State) (a : Nat) (bs : Bytes) : State := { s with mem := cellsPut s.mem a bs }

/-- The hub address of landing byte 0, of the eviction buffer, of shared scratch, of core 0's memory and of the flash (R520). -/
def landingAt : Nat := 0x10000000000
def evictAt : Nat := 0x30000000
def scratchAt : Nat := 0x20000000
def localAt : Nat := 0x10000000
def flashAt : Nat := 0x80000000

/-! ## Device time -/

/-- TIM_NOW (R606). -/
def State.now (s : State) : Nat := s.pwr.now

/-- A nanosecond with no command: the clock counts, and while the hub is out of reset so do TIM_NOW and HIC_MTIME (R522, R606). -/
def idle (s : State) : State :=
  let p := s.pwr
  { s with
    clock := s.clock + 1
    pwr := if p.boot = .held then p else { p with now := (p.now + 1) % 2 ^ 64, mtime := (p.mtime + 1) % 2 ^ 64 } }

/-! ## Domains -/

/-- Switch a hub domain (R579, R580). -/
def State.setDomain (s : State) (n : Nat) (on : Bool) : State :=
  { s with pwr := { s.pwr with on := if on then s.pwr.on ||| 2 ^ n else s.pwr.on &&& (2 ^ 30 - 1 - 2 ^ n) } }

/-! ## Functions -/

/-- A function's settings. -/
def State.fn (s : State) (f : Nat) : Fn := s.ep.fns[f]?.getD {}

/-- Replace a function's settings. -/
def State.setFn (s : State) (f : Nat) (x : Fn) : State := { s with ep := { s.ep with fns := s.ep.fns.setIfInBounds f x } }

/-- Whether a function is present and enabled (R491). -/
def State.fnOn (s : State) (f : Nat) : Bool := f = 0 || decide (f ≤ s.ep.numVfs)

/-- Whether a function may issue requests: Bus Master Enable set, and in D0 (R505, R511). -/
def State.master (s : State) (f : Nat) : Bool := (s.fn f).cfg.bme && !(s.fn f).d3

/-! ## Interrupt controller -/

/-- Priority and targets of a source; reserved IDs have none (R524, R532). -/
def hicReserved (n : Nat) : Bool :=
  n = 0 || (33 < n && n < 40) || (42 < n && n < 48) || (50 < n && n < 56) || (57 < n && n < 64) || n = 71 || n = 79
    || (82 < n && n < 88) || (153 < n && n < 160) || (162 < n && n < 192) || 255 < n

/-- SENSE of a source. -/
def State.hicSense (s : State) (n : Nat) : Nat := s.get (hubAt .hic) F.HIC_SRCn_CFG_SENSE (n - 1)

/-- The input level of a source (R532): conditions that registers show, or the level last given. -/
def State.hicLevel (s : State) (n : Nat) : Bool :=
  if n = 33 then s.has (hubAt .skd) F.SKD_STATUS_HALTED
  else if n = 40 then s.has (hubAt .lnd) F.LND_RANGE_STATUS_DONE
  else if n = 41 then s.has (hubAt .lnd) F.LND_STATUS_CFG_ERR
  else if n = 48 then s.has (hubAt .miu) F.MIU_STATUS_UE_SEEN
  else if n = 49 then s.has (hubAt .miu) F.MIU_STATUS_CE_SEEN
  else if n = 50 then s.has (hubAt .miu) F.MIU_STATUS_LAP_SLOW
  else if 64 ≤ n ∧ n ≤ 70 then (s.ports[n - 63]?.getD {}).swRx != []
  else if 72 ≤ n ∧ n ≤ 78 then
    let p := n - 71
    s.has (hubAt .krf) F.KRF_STATUS_ECHO_LOST p || s.has (hubAt .krf) F.KRF_STATUS_RETRAINED p
      || s.has (hubAt .krf) F.KRF_RXCTL_OVERFLOW p
  else if n = 81 then (List.range 64).any fun f => s.has (funAt .qen f) F.QEN_HALT_STATUS_DONE
  else if 88 ≤ n ∧ n ≤ 151 then s.qen.cmds.any fun c => c.func == n - 88 && c.qid == 0 && decide (c.st = .checked)
  else s.hic.levels.contains n

/-- Whether a source is in service (R526). -/
def State.hicServing (s : State) (n : Nat) : Bool := s.hic.serv.any fun e => e.1 == n

/-- Whether a source is pending (R526). -/
def State.hicPending (s : State) (n : Nat) : Bool :=
  if hicReserved n then false
  else if 2 ≤ s.hicSense n then s.hic.pend.contains n
  else !s.hicServing n && (s.hicLevel n != decide (s.hicSense n = 1))

/-- One event of an edge source (R526). -/
def State.hicEdge (s : State) (n : Nat) : State :=
  if hicReserved n then s
  else if s.hicServing n then
    if s.hic.latched.contains n then s.bump (hubAt .hic) F.HIC_CNT_EDGES_MERGED
    else { s with hic := { s.hic with latched := s.hic.latched ++ [n] } }
  else if s.hic.pend.contains n then s.bump (hubAt .hic) F.HIC_CNT_EDGES_MERGED
  else { s with hic := { s.hic with pend := s.hic.pend ++ [n] } }

/-- A hub unit pulses a source's input: one rising and one falling transition (R525, R532). -/
def State.irq (s : State) (n : Nat) : State :=
  if s.hicSense n = 2 ∨ s.hicSense n = 3 then s.hicEdge n
  else if s.hicSense n = 4 then (s.hicEdge n).hicEdge n
  else s

/-! ## Host packets -/

/-- Put a packet on the link. -/
def State.emit (s : State) (p : Tlp) : State := { s with ep := { s.ep with out := s.ep.out ++ [p] } }

/-- Report an error under AER (R514). -/
def State.aer (s : State) (f : Nat) (e : AerError) : State := { s with ep := { s.ep with aer := s.ep.aer ++ [(f, e)] } }

/-- Cut bytes at an address into parts that cross no multiple of `block` and hold at most `most` bytes (R496). -/
def cutBytes (block most : Nat) : Nat → Nat → Bytes → List (Nat × Bytes)
  | 0, _, _ => []
  | n + 1, a, bs =>
    if bs.isEmpty then []
    else
      let k := max 1 (min most (block - a % block))
      (a, bs.take k) :: cutBytes block most n (a + k) (bs.drop k)

/-- Write bytes to host memory: no part crosses 4 KiB or passes Max Payload Size (R496); Relaxed Ordering for data where the
host allows it, IDO in ordering mode 1 (R43, R44, R499, R500). -/
def State.hostWrite (s : State) (f a : Nat) (bs : Bytes) (data : Bool) : State :=
  let c := (s.fn f).cfg
  let ido := s.has (funAt .ep f) F.EP_ORDER_MODE && c.idoReq
  (cutBytes 4096 c.mps bs.length a bs).foldl (fun t p => t.emit (.write f p.1 p.2 (data && c.roEn) ido)) s

/-- The pieces of a read of host memory, cut at every multiple of Max Read Request Size (R496). -/
def cutRead (block : Nat) : Nat → Nat → Nat → List Piece
  | 0, _, _ => []
  | n + 1, a, len =>
    if len = 0 then []
    else
      let k := max 1 (min len (block - a % block))
      { addr := a, len := k } :: cutRead block n (a + k) (len - k)

/-- Tags outstanding. -/
def State.tagsOut (s : State) : List Nat :=
  s.ep.reads.flatMap (fun r => r.pieces.filterMap fun p => match p.st with | .out t => some t | _ => none)
    ++ s.ep.dead.map (·.1)

/-- Size of the tag pool (R497). -/
def State.tagPool (s : State) : Nat :=
  if (s.fn 0).cfg.tag14 then 1024 else if (s.fn 0).cfg.tag10 then 768 else 256

/-- The lowest free tag that a piece may take; the kept ones serve class 0 and management alone (R497). -/
def State.freeTag (s : State) (prior : Bool) : Option Nat :=
  let used := s.tagsOut
  let res := min (s.get (hubAt .ep) F.EP_TAG_CFG_RES0) (s.tagPool / 2)
  if used.length + (if prior then 0 else res) < s.tagPool then (List.range s.tagPool).find? fun t => !used.contains t
  else none

/-- Record the highest count of outstanding tags (R516). -/
def State.tagPeak (s : State) : State :=
  s.put (hubAt .ep) F.EP_TAG_STATUS_PEAK (max (s.get (hubAt .ep) F.EP_TAG_STATUS_PEAK) s.tagsOut.length)

/-- Issue the waiting pieces of one read while tags are free (R497). -/
def issuePieces (s : State) (r : HostRead) : List Piece → List Piece → State × List Piece
  | _, [] => (s, [])
  | done, p :: t =>
    match p.st with
    | .waiting =>
      let held := { s with ep := { s.ep with reads := s.ep.reads ++ [{ r with pieces := done }] } }
      match held.freeTag r.prior with
      | none => (s, p :: t)
      | some tag =>
        let q := { p with st := .out tag }
        let c := (s.fn r.func).cfg
        let s := s.emit (.read r.func p.addr p.len tag (s.has (funAt .ep r.func) F.EP_ORDER_MODE && c.idoReq))
        let (s, rest) := issuePieces s r (done ++ [q]) t
        (s, q :: rest)
    | _ =>
      let (s, rest) := issuePieces s r (done ++ [p]) t
      (s, p :: rest)

/-- Start a read of host memory (R496, R497). -/
def State.hostRead (s : State) (f a len : Nat) (prior : Bool) (what : ReadFor) : State :=
  let r := { func := f, what, prior, pieces := cutRead (s.fn f).cfg.mrrs len a len : HostRead }
  let (s, ps) := issuePieces s r [] r.pieces
  ({ s with ep := { s.ep with reads := s.ep.reads ++ [{ r with pieces := ps }] } } : State).tagPeak

/-! ## MSI-X and device events -/

/-- A sparse list read by key. -/
def assocGet {α : Type} (l : List (Nat × α)) (k : Nat) : Option α := (l.find? fun e => e.1 == k).map (·.2)

/-- A sparse list rising by key, with a value put at a key. -/
def assocPut {α : Type} : List (Nat × α) → Nat → α → List (Nat × α)
  | [], a, x => [(a, x)]
  | (k, v) :: t, a, x =>
    if k = a then (a, x) :: t else if a < k then (a, x) :: (k, v) :: t else (k, v) :: assocPut t a x

/-- A sparse list with a key taken out. -/
def assocDel {α : Type} (l : List (Nat × α)) (k : Nat) : List (Nat × α) := l.filter fun e => e.1 != k

/-- The table entry of a vector (R501). -/
def State.msixEntry (s : State) (f v : Nat) : MsixEntry := (assocGet s.ep.msix (2048 * f + v)).getD {}

/-- Replace a vector's entry. -/
def State.setMsix (s : State) (f v : Nat) (e : MsixEntry) : State :=
  { s with ep := { s.ep with msix :=
    if e = ({} : MsixEntry) then assocDel s.ep.msix (2048 * f + v) else assocPut s.ep.msix (2048 * f + v) e } }

/-- Vectors of a function's MSI-X table (R491). -/
def msixSize (f : Nat) : Nat := if f = 0 then 1023 else 63

/-- Whether the four conditions for a message hold (R502). -/
def State.msixReady (s : State) (f v : Nat) : Bool :=
  (s.fn f).cfg.msixEn && !(s.fn f).cfg.fnMask && (s.msixEntry f v).ctrl % 2 == 0 && s.master f

/-- A vector has a message to send: it is sent, or its pending bit sets (R502, R503). -/
def State.msixFire (s : State) (f v : Nat) : State :=
  let e := s.msixEntry f v
  if s.msixReady f v then s.emit (.message f v (hiLo (e.addrLo / 4 * 4) e.addrHi) e.data)
  else s.setMsix f v { e with pend := true }

/-- Set bit i of EP_EVT_STATUS; the first unmasked bit to set sends a message (R504). -/
def State.epEvt (s : State) (i : Nat) : State :=
  let a := hubAt .ep
  let f : Nat → Field := fun j => { off := F.EP_EVT_STATUS_RANGE_DONE.off, hi := j, lo := j, acc := .w1c }
  let mask := s.get a F.EP_EVT_CTL_MASK
  let any := (List.range 8).any fun j => s.has a (f j) && !bitOf mask j
  let s := s.put a (f i) 1
  if !any && !bitOf mask i && s.has a F.EP_EVT_CTL_ENABLE then s.msixFire 0 (s.get a F.EP_EVT_CTL_VECTOR) else s

/-! ## Events page -/

/-- Advance a log page's SEQ (R483). -/
def State.pageChanged (s : State) (lid : Nat) : State :=
  let n := (assocGet s.pwr.pageSeq lid).getD 0
  { s with pwr := { s.pwr with pageSeq := assocPut s.pwr.pageSeq lid ((n + 1) % 2 ^ 32) } }

/-- Crew firmware writes an event into the events page, or merges it into the newest entry (R594). -/
def State.logEvent (s : State) (e : EventEntry) : State :=
  let old := s.pwr.events
  match old.getLast? with
  | some n =>
    if n.code = e.code ∧ n.die = e.die ∧ n.bay = e.bay ∧ n.sub = e.sub ∧ n.unit = e.unit ∧ e.time ≤ n.time + 10 ^ 9 then
      ({ s with pwr := { s.pwr with events := old.dropLast ++ [{ n with time := e.time, v1 := e.v1, rep := n.rep + 1 }] } } : State).pageChanged 2
    else (({ s with pwr := { s.pwr with events := (old ++ [e]).drop (old.length + 1 - 256) } } : State).pageChanged 2).epEvt 4
  | none => (({ s with pwr := { s.pwr with events := [e] } } : State).pageChanged 2).epEvt 4

/-- A hub unit raises an event (R594). -/
def State.raiseHub (s : State) (code sub unit : Nat) (v1 : Nat := 0) (v2 : Nat := 0) : State :=
  s.logEvent { time := s.now, die := 0, bay := 0xFF, code, sub, unit, v1, v2 }

/-! ## Protection map -/

/-- The region that decides a hub address, and the permission bit of a group (R416, R417, R521). -/
def State.allowed (s : State) (group addr : Nat) (write : Bool) : Bool :=
  let u := addr / 4096
  match (List.range 32).find? fun n =>
      decide (s.get (hubAt .vlk) F.VLK_REGIONn_BASE_BASE n ≤ u ∧ u ≤ s.get (hubAt .vlk) F.VLK_REGIONn_LIMIT_LIMIT n) with
  | none => false
  | some n => bitOf (s.get (hubAt .vlk) F.VLK_REGIONn_PERM_PERM n) (2 * group + b2n write)

/-- Take an entry of the protection event log (R418, R428). -/
def State.pevLog (s : State) (addr group : Nat) (write bl : Bool) : State :=
  let a := hubAt .vlk
  let n := s.get a F.VLK_PEV_HEAD_NEXT
  let s := s.put a F.VLK_PEV0_ADDR_LO (addr % 2 ^ 32) n
  let s := s.put a F.VLK_PEV1_GROUP group n
  let s := s.put a F.VLK_PEV1_WRITE (b2n write) n
  let s := s.put a F.VLK_PEV1_BL_WRITE (b2n bl) n
  let s := s.put a F.VLK_PEV1_ADDR_HI (addr / 2 ^ 32) n
  let s := s.put a F.VLK_PEV2_TIME_LO (s.now % 2 ^ 32) n
  let s := s.put a F.VLK_PEV3_TIME_HI (s.now / 2 ^ 32) n
  let s := s.put a F.VLK_PEV_HEAD_NEXT ((n + 1) % 8)
  ((s.pageChanged 9).irq 56).epEvt 7

end Sys2Proof.Machine
end

