-- ==== Sys2Proof/Machine/Domains.lean ====
section
/-! DEFINITION. Power domains: which die each belongs to, what a wake restarts, and what keeps one on (R579–R583). -/
namespace Sys2Proof.Machine

/-- The field die of a domain, with the domain's place in the die's table (R581, R582). -/
def fieldDomain (n : Nat) : Option (Die × Nat) :=
  if 30 ≤ n ∧ n < 38 then some (1, n - 30)
  else if 38 ≤ n ∧ n < 80 then some (Fin.ofNat 8 (2 + (n - 38) / 7), (n - 38) % 7)
  else none

/-- Switch a domain of a field die. -/
def State.setFieldDomain (s : State) (d : Die) (i : Nat) (on : Bool) : State :=
  let x := s.dies[d]
  s.setDie d { x with on := if on then x.on ||| 2 ^ i else x.on &&& (255 - 2 ^ i) }

/-- Whether PWR_HOLD keeps a domain on (R583, R592). -/
def State.held (s : State) (n : Nat) : Bool := bitOf (s.get (hubAt .pwr) F.PWR_HOLDw_HOLD (n / 32)) (n % 32)

/-- Hub domains that a request wakes; the others follow the stump's sizing or OPEN_EN (R580). -/
def hubWakes (n : Nat) : Bool :=
  decide (2 ≤ n ∧ n ≤ 7) || decide (18 ≤ n ∧ n ≤ 21) || n == 23 || n == 25 || n == 29

/-- Filter states, integrators and timers of a turn-engine slot restart (R579). -/
def TrnSlot.restart (x : TrnSlot) : TrnSlot :=
  { x with int := 0, s1 := [0, 0, 0, 0], s2 := [0, 0, 0, 0], band := false, hi := false, fe := 0 }

/-- The live state of a woken domain of a field die restarts from its reset values; registers, positions and switches stay
(R579). -/
def State.wakeLive (s : State) (d : Die) (i : Nat) : State :=
  let turn : State → State := fun t => { t with trn := t.trn.set d { t.trn[d] with slots := t.trn[d].slots.map TrnSlot.restart } }
  if d = 1 then
    (if i = 3 then turn s else if i = 7 then { s with ceil := {} } else s)
  else
    let bays := baysOfDie d
    if i = 1 ∨ i = 2 then
      bays.foldl (fun (t : State) (b : Bay) => if bayInDie b + 1 = i then { t with sfe := t.sfe.set b {} } else t) s
    else if i = 3 then
      let s : State := { s with latDie := s.latDie.set d {} }
      bays.foldl (fun (t : State) (b : Bay) => { t with lat := t.lat.set b { t.lat[b] with spots := Vector.replicate 7 {} } }) s
    else if i = 4 then turn s
    else s

/-- A domain that is off comes on (R579, R583): a field die's restarts its live state; its owner counts the wake (R592, R593). -/
def State.comeOn (s : State) (n : Nat) : State :=
  if n < 30 then
    if hubWakes n && !bitOf s.pwr.on n && s.pwr.boot != .held then (s.setDomain n true).bump (hubAt .pwr) F.PWR_CNT_WAKES else s
  else
    match fieldDomain n with
    | none => s
    | some (d, i) =>
      if s.hasDie d.val && s.dies[d].power && !bitOf s.dies[d].on i then
        ((s.wakeLive d i).setFieldDomain d i true).bump (dieAt .fpw d) F.FPW_CNT_WAKES
      else s

/-- A request meets a domain that is off (R583): the hub counts the request that waited. -/
def State.wake (s : State) (n : Nat) : State :=
  if n < 30 && hubWakes n && !bitOf s.pwr.on n && s.pwr.boot != .held then (s.comeOn n).bump (hubAt .pwr) F.PWR_CNT_WAKE_WAITS
  else s.comeOn n

/-- Hub domains that PWR_CTL and PWR_HOLD keep on come on (R580, R583, R592). -/
def State.keepOn (s : State) : State :=
  let a := hubAt .pwr
  let l := (List.range 30).filter fun n =>
    s.held n || !s.has a F.PWR_CTL_AUTO || (decide (2 ≤ n ∧ n ≤ 7) && !s.has a F.PWR_CTL_CORE_GATE)
  l.foldl State.comeOn s

/-- Domains that FPW_DOM holds come on (R583, R593). -/
def State.keepDieOn (s : State) (d : Die) : State :=
  let hold := s.get (dieAt .fpw d) F.FPW_DOM_HOLD
  ((List.range 8).filter fun i => bitOf hold i && (d == 1 || decide (i < 7))).foldl (fun (t : State) i =>
    t.comeOn (if d = 1 then 30 + i else 38 + 7 * (d.val - 2) + i)) s

end Sys2Proof.Machine
end

