-- ==== Sys2Proof/Machine/HicOps.lean ====
section
/-! DEFINITION. The interrupt controller (R521–R531): eligibility, claims, completions, source settings and core pages. -/
namespace Sys2Proof.Machine

/-- PRIORITY and TARGET of a source (R534). -/
def State.hicPrio (s : State) (n : Nat) : Nat := s.get (hubAt .hic) F.HIC_SRCn_CFG_PRIORITY (n - 1)
def State.hicTarget (s : State) (n : Nat) : Nat := s.get (hubAt .hic) F.HIC_SRCn_CFG_TARGET (n - 1)

/-- Whether a source is eligible for a core (R527). -/
def State.hicEligible (s : State) (c n : Nat) : Bool :=
  let a := hubAt .hic
  let above := max (s.get a F.HIC_C_THRESHOLD_THRESHOLD c) (s.get a F.HIC_C_RUNPRI_RUNPRI c)
  s.hicPending n && bitOf (s.hicTarget n) c && decide (above < s.hicPrio n)

/-- The eligible source of the highest PRIORITY, on a tie of the lowest ID (R528). -/
def State.hicBest (s : State) (c : Nat) : Option Nat :=
  ((List.range 256).filter (s.hicEligible c)).foldl (fun b n =>
    match b with
    | some m => if s.hicPrio m < s.hicPrio n then some n else b
    | none => some n) none

/-- Whether the machine external interrupt of a core is pending (R527). -/
def State.hicExternal (s : State) (c : Nat) : Bool := (s.hicBest c).isSome

/-- A claim by a core: the state after it and the ID read (R528). -/
def State.hicClaim (s : State) (c : Nat) : State × Nat :=
  let a := hubAt .hic
  match s.hicBest c with
  | none => (s.bump a F.HIC_C_CORE_CNT_SPURIOUS c, 1023)
  | some n =>
    let p := s.hicPrio n
    let s := { s with hic := { s.hic with pend := s.hic.pend.filter (· ≠ n), serv := s.hic.serv ++ [(n, c)] } }
    let s := (s.put a F.HIC_C_RUNPRI_RUNPRI p c).put a F.HIC_C_RUNPRI_LAST n c
    (s.bump a F.HIC_C_CORE_CNT_CLAIMS c, n)

/-- RUNPRI from the sources that a core holds in service (R529). -/
def State.runPri (s : State) (c : Nat) : State :=
  s.put (hubAt .hic) F.HIC_C_RUNPRI_RUNPRI (((s.hic.serv.filter (·.2 = c)).map fun e => s.hicPrio e.1).foldl max 0) c

/-- A completion of a source by a core (R529). -/
def State.hicComplete (s : State) (c n : Nat) : State :=
  if n = 0 ∨ n = 1023 ∨ !s.hic.serv.contains (n, c) then s.bump (hubAt .hic) F.HIC_CNT_BAD_COMPLETE
  else
    let h := s.hic
    let again := h.latched.contains n && decide (2 ≤ s.hicSense n)
    ({ s with hic := { h with
      serv := h.serv.filter (· ≠ (n, c))
      latched := h.latched.filter (· ≠ n)
      pend := if again then h.pend ++ [n] else h.pend } } : State).runPri c

/-- An input that no register of the hub decides changes its level (R525, R526, R532). -/
def State.hicInput (s : State) (n : Nat) (level : Bool) : State :=
  if s.hic.levels.contains n = level then s
  else
    let l := s.hic.levels
    let s := { s with hic := { s.hic with levels := if level then l ++ [n] else l.filter (· ≠ n) } }
    let k := s.hicSense n
    if (k = 2 ∧ level) ∨ (k = 3 ∧ !level) ∨ k = 4 then s.hicEdge n else s

/-- A write of HIC_TRIGGER raises a software source (R532, R534). -/
def State.hicTrigger (s : State) (n : Nat) : State := if 192 ≤ n ∧ n ≤ 255 then s.irq n else s

/-- A write of HIC_SRCn_CFG by a crew core (R525, R530, R534). -/
def State.hicConfig (s : State) (n : Nat) (w : Word) : State :=
  let a := hubAt .hic
  if hicReserved n then s
  else
    let k := F.HIC_SRCn_CFG_SENSE.of w
    let old := s.hicSense n
    let s := (s.put a F.HIC_SRCn_CFG_TARGET (F.HIC_SRCn_CFG_TARGET.of w) (n - 1)).put a F.HIC_SRCn_CFG_PRIORITY
      (F.HIC_SRCn_CFG_PRIORITY.of w) (n - 1)
    if 5 ≤ k ∨ k = old then s
    else
      let s := s.put a F.HIC_SRCn_CFG_SENSE k (n - 1)
      if s.hicServing n then s else { s with hic := { s.hic with pend := s.hic.pend.filter (· ≠ n) } }

/-- MTIMECMP of a core. -/
def State.mtimecmp (s : State) (c : Nat) : Nat :=
  hiLo (s.get (hubAt .hic) F.HIC_C_MTIMECMP_LO_CMP_LO c) (s.get (hubAt .hic) F.HIC_C_MTIMECMP_HI_CMP_HI c)

/-- The machine timer interrupt of a core is pending while HIC_MTIME is at or past its MTIMECMP (R522). -/
def State.timerCheck (s : State) (c : Nat) : State :=
  let on := decide (s.mtimecmp c ≤ s.pwr.mtime)
  let l := s.hic.timers
  { s with hic := { s.hic with timers := if on then (if l.contains c then l else l ++ [c]) else l.filter (· ≠ c) } }

/-- An open core is a core of the sandbox (R417, R521). -/
def openCore (c : Nat) : Bool := decide (6 ≤ c)

/-- The initiator group of a core (R416). -/
def coreGroup (c : Nat) : Nat := if openCore c then 1 else 0

/-- A write of an open core to a HIC field that it may only read is ignored and logged (R521). -/
def State.hicDenied (s : State) (rel : Nat) : State := s.pevLog (hubAt .hic + rel) 1 true false

/-- A write by a core to the page of a core (R521, R523, R535). -/
def State.pageWrite (s : State) (by_ c r : Nat) (w : Word) : State :=
  let a := hubAt .hic
  let mine := by_ = c
  let crew := !openCore by_
  if r = 0 then
    if mine ∨ crew then s.put a F.HIC_C_THRESHOLD_THRESHOLD (F.HIC_C_THRESHOLD_THRESHOLD.of w) c else s
  else if r = 4 then (if mine then s.hicComplete c (F.HIC_C_CLAIM_ID.of w) else s)
  else if r = 0x0C then
    if crew then s.put a F.HIC_C_MSIP_MSIP (F.HIC_C_MSIP_MSIP.of w) c
    else if mine then s.hicDenied (0x1000 + 0x1000 * c + r) else s
  else if r = 0x10 then (if mine ∨ crew then (s.put a F.HIC_C_MTIMECMP_LO_CMP_LO w.toNat c).timerCheck c else s)
  else if r = 0x14 then (if mine ∨ crew then (s.put a F.HIC_C_MTIMECMP_HI_CMP_HI w.toNat c).timerCheck c else s)
  else if r = 0x18 then
    if mine then (s.put a F.HIC_C_CORE_CNT_SPURIOUS 0 c).put a F.HIC_C_CORE_CNT_CLAIMS 0 c else s
  else s

/-- A write by a core to the HIC block (R521, R534, R535). -/
def State.hicWrite (s : State) (by_ rel : Nat) (w : Word) : State :=
  let a := hubAt .hic
  if 0x1000 ≤ rel then s.pageWrite by_ (rel / 0x1000 - 1) (rel % 0x1000) w
  else if rel < 0xC00 then (if openCore by_ then s.hicDenied rel else s.hicConfig (rel / 4) w)
  else if rel < 0xE00 then (if openCore by_ then s.hicDenied rel else s)
  else if rel = 0xE10 then s.hicTrigger (F.HIC_TRIGGER_ID.of w)
  else if rel = 0xE20 then (s.put a F.HIC_CNT_EDGES_MERGED 0).put a F.HIC_CNT_BAD_COMPLETE 0
  else s

/-- The reset of an open core: every source it holds is completed, and its page is reset (R531). -/
def State.hicRelease (s : State) (c : Nat) : State :=
  let a := hubAt .hic
  let s := ((s.hic.serv.filter (·.2 = c)).map (·.1)).foldl (fun (t : State) n => t.hicComplete c n) s
  let s := [F.HIC_C_THRESHOLD_THRESHOLD, F.HIC_C_RUNPRI_LAST, F.HIC_C_RUNPRI_RUNPRI, F.HIC_C_MSIP_MSIP, F.HIC_C_CORE_CNT_SPURIOUS,
    F.HIC_C_CORE_CNT_CLAIMS].foldl (fun (t : State) f => t.put a f 0 c) s
  ((s.put a F.HIC_C_MTIMECMP_LO_CMP_LO (2 ^ 32 - 1) c).put a F.HIC_C_MTIMECMP_HI_CMP_HI (2 ^ 32 - 1) c).timerCheck c

end Sys2Proof.Machine
end

