-- ==== Sys2Proof/Machine/MiuOps.lean ====
section
/-! DEFINITION. Memory integrity (chapter 12): the two codes, checked reads, narrow writes, the error log and injection. -/
namespace Sys2Proof.Machine

/-! ## Codes -/

/-- Number of set bits below n. -/
def weight (n x : Nat) : Nat := ((List.range n).filter (bitOf x)).length

/-- The columns of data bits 0–63: the values of weight 3 ascending, then the first eight of weight 5 (R380). -/
def dataColumns : List Nat :=
  ((List.range 256).filter fun x => weight 8 x == 3) ++ ((List.range 256).filter fun x => weight 8 x == 5).take 8

/-- The column of bit i of a class-A word: data bits 0–63, check bits 64–71 (R380). -/
def column (i : Nat) : Nat := if i < 64 then dataColumns.getD i 0 else 2 ^ (i - 64)

/-- The syndrome that flipped bits give (R381). -/
def syndrome (flips : Nat) : Nat := (bitIndices 72 flips).foldl (fun s i => s ^^^ column i) 0

/-- What a check finds: nothing wrong, bits mended, or nothing to be done. -/
inductive Checked where
  | good | mended (mask : Nat) | bad
  deriving DecidableEq, Repr

/-- Decoding of a class-A word by its syndrome (R381). -/
def checkA (flips : Nat) : Checked :=
  let y := syndrome flips
  if y = 0 then .good
  else match (List.range 72).find? fun i => column i == y with
    | some i => .mended (2 ^ i)
    | none => .bad

/-- Rows of a block whose parity fails; bit 8r + c of the data, row checks at 64–71, column checks at 72–79 (R382). -/
def badRows (flips : Nat) : List Nat :=
  (List.range 8).filter fun r => (weight 8 (flips / 2 ^ (8 * r)) + b2n (bitOf flips (64 + r))) % 2 == 1

/-- Columns of a block whose parity fails (R382). -/
def badCols (flips : Nat) : List Nat :=
  (List.range 8).filter fun c =>
    (((List.range 8).filter fun r => bitOf flips (8 * r + c)).length + b2n (bitOf flips (72 + c))) % 2 == 1

/-- Decoding of a class-B block (R382). -/
def checkB (flips : Nat) : Checked :=
  match badRows flips, badCols flips with
  | [], [] => .good
  | [r], [c] => .mended (2 ^ (8 * r + c))
  | [r], [] => .mended (2 ^ (64 + r))
  | [], [c] => .mended (2 ^ (72 + c))
  | _, _ => .bad

/-- The SYNDROME field of a log entry (R396). -/
def logSyndrome (mem flips : Nat) : Nat :=
  let one : List Nat → Nat := fun l => match l with | [x] => x | _ => 0xF
  if mem < 2 then syndrome flips else one (badRows flips) * 16 + one (badCols flips)

/-- Decoding by the memory's class: landing and eviction buffer are class A (R379). -/
def checkUnit (mem flips : Nat) : Checked := if mem < 2 then checkA flips else checkB flips

/-! ## Log and counters -/

/-- Key of a code unit: MEM and its byte address in that memory (R396). -/
def unitKey (mem addr : Nat) : Nat := 2 ^ 40 * mem + addr / 8 * 8

/-- Bits of a code unit that differ from what was written. -/
def State.flipsAt (s : State) (k : Nat) : Nat := (storeGet s.miu.flips k).getD 0

/-- Set the bits of a code unit that differ. -/
def State.setFlips (s : State) (k v : Nat) : State :=
  { s with miu := { s.miu with flips := if v = 0 then storeDel s.miu.flips k else storePut s.miu.flips k v } }

/-- Bits that the memory has lost since they were written: listed flips change over. -/
def State.upset (s : State) (l : List (Nat × Nat)) : State :=
  l.foldl (fun t e => t.setFlips e.1 (t.flipsAt e.1 ^^^ (e.2 % 2 ^ 80))) s

/-- Write entry n of the error log (R393, R396). -/
def State.miuEntry (s : State) (n kind mem req addr syn : Nat) : State :=
  let a := hubAt .miu
  let s := s.put a F.MIU_LOG0_ADDR_LO (addr % 2 ^ 32) n
  let s := s.put a F.MIU_LOG1_KIND kind n
  let s := s.put a F.MIU_LOG1_MEM mem n
  let s := s.put a F.MIU_LOG1_REQ req n
  let s := s.put a F.MIU_LOG1_SYNDROME syn n
  let s := s.put a F.MIU_LOG1_ADDR_HI (addr / 2 ^ 32) n
  let s := s.put a F.MIU_LOG2_TIME_LO (s.now % 2 ^ 32) n
  (s.put a F.MIU_LOG3_TIME_HI (s.now / 2 ^ 32) n).pageChanged 3

/-- A new entry of the ring (R393). -/
def State.miuLog (s : State) (kind mem req addr syn : Nat) : State :=
  let a := hubAt .miu
  let n := s.get a F.MIU_LOG_HEAD_NEXT
  let s := s.miuEntry n kind mem req addr syn
  let s := s.put a F.MIU_LOG_HEAD_NEXT ((n + 1) % 16)
  let s := if n = 15 then s.put a F.MIU_LOG_HEAD_WRAPPED 1 else s
  if kind = 0 then { s with miu := { s.miu with lastCe := some (unitKey mem addr, n) } }
  else if (s.miu.lastCe.map (·.2)) = some n then { s with miu := { s.miu with lastCe := none } }
  else s

/-- An uncorrectable error: counted, seen, logged (R387, R393); KIND 2 where it lost a write (R385). -/
def State.countUe (s : State) (kind mem req addr flips : Nat) : State :=
  let a := hubAt .miu
  let s := s.bump a (if mem < 2 then F.MIU_UE_A_COUNT else F.MIU_UE_B_COUNT)
  let s := if s.has a F.MIU_STATUS_UE_SEEN then s else (s.put a F.MIU_STATUS_UE_SEEN 1).epEvt 2
  s.miuLog kind mem req (addr / 8 * 8) (logSyndrome mem flips)

/-- A corrected error: counted, seen and logged, or the time of the most recent corrected entry renewed (R387, R393). -/
def State.countCe (s : State) (mem req addr flips : Nat) : State :=
  let a := hubAt .miu
  let s := s.bump a (if mem < 2 then F.MIU_CE_A_COUNT else F.MIU_CE_B_COUNT)
  let s := if s.has a F.MIU_STATUS_CE_SEEN then s else (s.put a F.MIU_STATUS_CE_SEEN 1).epEvt 3
  match s.miu.lastCe with
  | some (k, n) =>
    if k = unitKey mem addr then
      ((s.put a F.MIU_LOG2_TIME_LO (s.now % 2 ^ 32) n).put a F.MIU_LOG3_TIME_HI (s.now / 2 ^ 32) n).pageChanged 3
    else s.miuLog 0 mem req (addr / 8 * 8) (logSyndrome mem flips)
  | none => s.miuLog 0 mem req (addr / 8 * 8) (logSyndrome mem flips)

/-! ## Reads and writes -/

/-- Units of a range of a memory whose bits differ: keys ascending. -/
def State.dirtyUnits (s : State) (mem a n : Nat) : List (Nat × Nat) :=
  s.miu.flips.filter fun e => decide (unitKey mem a ≤ e.1 ∧ e.1 < 2 ^ 40 * mem + a + n)

/-- Read and check every unit of a range for a requester: the state after counting, and the units found uncorrectable, by
byte address (R381–R383). -/
def State.checkRange (s : State) (mem a n req : Nat) : State × List Nat :=
  (s.dirtyUnits mem a n).foldl (fun (t, bad) e =>
    let addr := e.1 - 2 ^ 40 * mem
    match checkUnit mem e.2 with
    | .good => (t, bad)
    | .mended _ => (t.countCe mem req addr e.2, bad)
    | .bad => (t.countUe 1 mem req addr e.2, bad ++ [addr])) (s, [])

/-- Data bits of a unit that a read delivers wrong: flipped ones that the check does not mend, and ones it mends wrongly. -/
def residue (mem flips : Nat) : Nat :=
  match checkUnit mem flips with
  | .mended m => (flips ^^^ m) % 2 ^ 64
  | _ => flips % 2 ^ 64

/-- The first byte of a memory in the hub address space (R520). -/
def memBase (mem : Nat) : Nat :=
  if mem = 0 then landingAt else if mem = 1 then evictAt else if mem = 5 then scratchAt else localAt

/-- The bytes that a checked read of a range delivers. -/
def State.readBytes (s : State) (mem a n : Nat) : Bytes :=
  (List.range n).map fun i =>
    let r := residue mem (s.flipsAt (unitKey mem (a + i)))
    cellGet s.mem (memBase mem + a + i) ^^^ BitVec.ofNat 8 (r / 2 ^ (8 * ((a + i) % 8)))

/-- Write whole units: what stood flipped there is overwritten (R384). -/
def State.writeBytes (s : State) (mem a : Nat) (bs : Bytes) : State :=
  let s := s.putBytes (memBase mem + a) bs
  { s with miu := { s.miu with
    flips := s.miu.flips.filter fun e => !decide (unitKey mem a ≤ e.1 ∧ e.1 < 2 ^ 40 * mem + a + bs.length) } }

/-- Write the part of one unit that bytes cover: read, correct, merge and write; an uncorrectable unit stays and the write is
lost (R384, R385). -/
def State.mergeUnit (s : State) (mem a : Nat) (bs : Bytes) (req : Nat) : State :=
  let k := unitKey mem a
  let f := s.flipsAt k
  if bs.length = 8 then s.writeBytes mem a bs
  else
    match checkUnit mem f with
    | .bad => (s.countUe 2 mem req a f).bump (hubAt .miu) F.MIU_CNT_WRITES_LOST
    | c =>
      let s := match c with | .mended _ => s.countCe mem req a f | _ => s
      let unit := s.readBytes mem (a / 8 * 8) 8
      let o := a % 8
      s.writeBytes mem (a / 8 * 8) (unit.take o ++ bs ++ unit.drop (o + bs.length))

/-- Write bytes anywhere, unit by unit (R384). -/
def State.storeBytes (s : State) (mem a : Nat) (bs : Bytes) (req : Nat) : State :=
  (cutBytes 8 8 bs.length a bs).foldl (fun t p => t.mergeUnit mem p.1 p.2 req) s

/-! ## Injection -/

/-- Flip the bits that MIU_INJECT names in the unit just written, and disarm (R394). -/
def State.inject (s : State) (target mem a : Nat) : State :=
  let i := hubAt .miu
  if s.has i F.MIU_INJECT_ARM ∧ s.get i F.MIU_INJECT_TARGET = target then
    let bit := fun (en f : Field) => if s.has i en then 2 ^ s.get i f else 0
    let m := bit F.MIU_INJECT_F0_EN F.MIU_INJECT_F0 ^^^ bit F.MIU_INJECT_F1_EN F.MIU_INJECT_F1
    (s.setFlips (unitKey mem a) (s.flipsAt (unitKey mem a) ^^^ m)).put i F.MIU_INJECT_ARM 0
  else s

end Sys2Proof.Machine
end

