-- ==== Sys2Proof/Machine/LndOps.lean ====
section
/-! DEFINITION. The landing (chapter 11): sets, lookup, miss registers, victims, the eviction buffer, recording lines and locks. -/
namespace Sys2Proof.Machine

/-! ## Lines and sets -/

/-- S, the logarithm of the number of sets (R347). -/
def State.lndS (s : State) : Nat := s.get (hubAt .lnd) F.LND_STATUS_SETS_LOG2

/-- The set of a key (R348). -/
def setOf (S slot log : Nat) : Nat := (log ^^^ (log / 2 ^ S) ^^^ (slot * 2 ^ (S - 12))) % 2 ^ S

/-- The tag entry of entry 16 · set + way. -/
def State.line (s : State) (e : Nat) : Line := (assocGet s.lnd.tags e).getD {}

/-- Replace a tag entry; one at its reset content is not listed. -/
def State.setLine (s : State) (e : Nat) (l : Line) : State :=
  { s with lnd := { s.lnd with
    tags := if l = ({} : Line) then assocDel s.lnd.tags e else assocPut s.lnd.tags e l } }

/-- An entry without a line: a locked one keeps its key and stays reserved (R361). -/
def emptied (l : Line) : Line := if l.lock then { slot := l.slot, log := l.log, lock := true } else {}

/-- Landing byte address of a board of an entry (R347). -/
def entryAt (e i : Nat) : Nat := e * 65536 + 4096 * i

/-- Ways that hold lines: neither window nor retired (R355, R363, R364). -/
def State.wayCached (s : State) (w : Nat) : Bool :=
  !bitOf (s.get (hubAt .lnd) F.LND_WAY_RETIRE_RETIRE) w && !bitOf (s.get (hubAt .lnd) F.LND_WIN_WAYS_WAYS) w

/-- The entries of a key's set, way ascending. -/
def State.setEntries (s : State) (slot log : Nat) : List Nat :=
  (List.range 16).map fun w => 16 * setOf s.lndS slot log + w

/-- The entry that holds a key's line, under whatever state but INVALID (R351). -/
def State.findLine (s : State) (slot log : Nat) : Option Nat :=
  (s.setEntries slot log).find? fun e =>
    let l := s.line e
    decide (l.st ≠ .invalid) && l.slot == slot && l.log == log

/-- Whether a mask covers another. -/
def covers (have_ need : Nat) : Bool := need &&& have_ == need

/-- Entries in a state. -/
def State.linesIn (s : State) (st : LineState) : List (Nat × Line) := s.lnd.tags.filter fun e => decide (e.2.st = st)

/-- DIRTY plus RECORDING lines (R359). -/
def State.unrecorded (s : State) : Nat := (s.linesIn .dirty).length + (s.linesIn .recording).length

/-- The landing is in use (R372). -/
def State.lndOn (s : State) : Bool := s.has (hubAt .lnd) F.LND_CTRL_ENABLE

/-- A way holds no line once it is retired: what may leave has left (R363). -/
def State.retireSweep (s : State) : State :=
  let r := s.get (hubAt .lnd) F.LND_WAY_RETIRE_RETIRE
  s.lnd.tags.foldl (fun t e =>
    if bitOf r (e.1 % 16) ∧ (e.2.st = .invalid ∨ e.2.st = .clean) then t.setLine e.1 {} else t) s

/-! ## Miss registers -/

/-- Replace a miss register. -/
def State.setMiss (s : State) (m : Miss) : State :=
  { s with lnd := { s.lnd with misses := s.lnd.misses.map fun x => if x.id = m.id then m else x } }

/-- Free a miss register. -/
def State.freeMiss (s : State) (id : Nat) : State :=
  { s with lnd := { s.lnd with misses := s.lnd.misses.filter (·.id ≠ id) } }

/-- A miss register by its number. -/
def State.miss (s : State) (id : Nat) : Option Miss := s.lnd.misses.find? (·.id = id)

/-- The miss register that fills a key. -/
def State.missOf (s : State) (slot log : Nat) : Option Miss :=
  s.lnd.misses.find? fun m => m.slot == slot && m.log == log && !m.closing

/-- The miss register that holds an entry. -/
def State.missAt (s : State) (e : Nat) : Option Miss := s.lnd.misses.find? fun m => m.entry == some e && !m.closing

/-- Whether an entry may be a victim, apart from its REF (R355, R361). -/
def State.eligible (s : State) (e : Nat) : Bool :=
  let l := s.line e
  s.wayCached (e % 16) && !l.lock && (decide (l.st = .invalid) || decide (l.st = .clean)) && (s.missAt e).isNone

/-- Choose a victim in a key's set (R355). -/
def State.victim (s : State) (slot log : Nat) : State × Option Nat :=
  let es := (s.setEntries slot log).filter s.eligible
  match es.find? fun e => decide ((s.line e).st = .invalid) with
  | some e => (s, some e)
  | none =>
    match es.find? fun e => !(s.line e).ref with
    | some e => (s, some e)
    | none =>
      match es with
      | [] => (s, none)
      | e :: _ => (es.foldl (fun t x => t.setLine x { t.line x with ref := false }) s, some e)

/-- Locked entries of a key's set (R361). -/
def State.lockedIn (s : State) (slot log : Nat) : Nat := ((s.setEntries slot log).filter fun e => (s.line e).lock).length

/-- Whether one more entry of a key's set may be locked (R361). -/
def State.lockRoom (s : State) (slot log : Nat) : Bool :=
  decide (s.lockedIn slot log < s.get (hubAt .lnd) F.LND_CFG_LOCK_MAX)

/-- The lowest free miss register (R352). -/
def State.freeReg (s : State) : Nat := ((List.range 1024).find? fun i => s.lnd.misses.all (·.id ≠ i)).getD 1024

/-- Whether a request may take a miss register: RES0 are kept for class 0, and preloads hold at most PRELOAD_MSHR (R352,
R463). -/
def State.regFree (s : State) (cls : Nat) (ranged : Bool) : Bool :=
  let a := hubAt .lnd
  decide (s.lnd.misses.length + (if cls = 0 then 0 else s.get a F.LND_CFG_RES0) < 1024)
    && (!ranged || decide ((s.lnd.misses.filter (·.ranged)).length < s.get a F.LND_CFG_PRELOAD_MSHR))

/-- What a lookup gave: a line, a buffer copy, a miss register joined or taken, a wait, or a board that no fill can bring
(R351, R352, R357). The flag says that a line to be locked was left unlocked (R361). -/
inductive Look where
  | hit (entry : Nat) (unlocked : Bool)
  | copy (idx : Nat)
  | joined
  | filling (miss : Nat) (unlocked : Bool)
  | parked
  | missing
  deriving DecidableEq, Repr

/-- Park a request (R352). -/
def State.park (s : State) (r : Request) (why : Park) : State :=
  let s := { s with lnd := { s.lnd with parked := s.lnd.parked ++ [(r, why)] } }
  match why with
  | .waiters => s.bump (hubAt .lnd) F.LND_CNT0_WAITER_FULL
  | .victim => s.bump (hubAt .lnd) F.LND_CNT2_SET_STALLS
  | .register => s

/-- Record a miss register taken. -/
def State.addMiss (s : State) (m : Miss) : State :=
  let s := { s with lnd := { s.lnd with misses := s.lnd.misses ++ [m] } }
  let s := s.bump (hubAt .lnd) F.LND_MISSES_MISSES
  s.put (hubAt .lnd) F.LND_MSHR_PEAK (max (s.get (hubAt .lnd) F.LND_MSHR_PEAK) s.lnd.misses.length)

/-- The reserved entry that a locking fill takes first (R361). -/
def State.reservedFor (s : State) (slot log : Nat) : Option Nat :=
  (s.setEntries slot log).find? fun e =>
    let l := s.line e
    decide (l.st = .invalid) && l.lock && s.wayCached (e % 16) && (s.missAt e).isNone

/-- Allocate a miss register and a victim for a request (R352, R355, R361). -/
def State.allocMiss (s : State) (r : Request) : State × Look :=
  let ranged := r.boards = 0
  if !s.regFree r.cls ranged then (s.park r .register, .parked)
  else
    let waits := if ranged then [] else [r]
    let base : Miss := { id := s.freeReg, slot := r.slot, log := r.log, cls := r.cls, func := r.func, qid := r.qid,
                         entry := none, waiters := waits, ranged }
    let taken := if r.lock then s.reservedFor r.slot r.log else none
    match taken with
    | some e =>
      let s := s.setLine e { slot := r.slot, log := r.log, lock := true }
      (s.addMiss { base with entry := some e, lock := true }, .filling base.id false)
    | none =>
      match s.victim r.slot r.log with
      | (s, none) => (s.park r .victim, .parked)
      | (s, some e) =>
        let lock := r.lock && s.lockRoom r.slot r.log
        let l := s.line e
        let s := if l.st = .clean then s.setLine e { l with st := .evicting }
                 else if lock then s.setLine e { slot := r.slot, log := r.log, lock := true } else s
        (s.addMiss { base with entry := some e, lock }, .filling base.id (r.lock && !lock))

/-- Join a miss register, or wait outside it (R352). -/
def State.joinMiss (s : State) (m : Miss) (r : Request) : State × Look :=
  let s := if r.lock ∧ !m.lock ∧ s.lockRoom r.slot r.log then s.setMiss { m with lock := true } else s
  let m := (s.miss m.id).getD m
  if r.boards = 0 then (s.bump (hubAt .lnd) F.LND_CNT0_MERGES, .joined)
  else if 64 ≤ m.waiters.length then (s.park r .waiters, .parked)
  else ((s.setMiss { m with waiters := m.waiters ++ [r] }).bump (hubAt .lnd) F.LND_CNT0_MERGES, .joined)

/-- Take another victim for a fill whose eviction was cancelled, or leave it to wait (R357). -/
def State.otherVictim (s : State) (m : Miss) : State :=
  match s.victim m.slot m.log with
  | (s, none) => (s.setMiss { m with entry := none }).bump (hubAt .lnd) F.LND_CNT2_SET_STALLS
  | (s, some e) =>
    let l := s.line e
    let s := if l.st = .clean then s.setLine e { l with st := .evicting } else s
    s.setMiss { m with entry := some e }

/-- Look a request up in an enabled landing (R351, R357). -/
def State.lookupOn (s : State) (r : Request) : State × Look :=
  match s.findLine r.slot r.log with
  | some e =>
    let l := s.line e
    match l.st with
    | .evicting =>
      let s := (s.setLine e { l with st := .clean, ref := true }).bump (hubAt .lnd) F.LND_CNT1_RESCUES
      let s := match s.missAt e with | some m => s.otherVictim m | none => s
      (s, .hit e false)
    | .filling | .invalid =>
      match s.missOf r.slot r.log with
      | some m => s.joinMiss m r
      | none => s.allocMiss r
    | _ =>
      if covers l.boards r.boards then
        let room := l.lock || s.lockRoom r.slot r.log
        let s := s.setLine e { l with ref := true, lock := l.lock || (r.lock && room) }
        (if r.boards = 0 then s else s.bump (hubAt .lnd) F.LND_HITS_HITS, .hit e (r.lock && !room))
      else if l.st = .clean then
        match s.missOf r.slot r.log with
        | some m => s.joinMiss m r
        | none =>
          if !s.regFree r.cls false then (s.park r .register, .parked)
          else
            let m : Miss := { id := s.freeReg, slot := r.slot, log := r.log, cls := r.cls, func := r.func, qid := r.qid,
                              entry := some e, waiters := [r], kind := .reread }
            (s.addMiss m, .filling m.id false)
      else (s, .missing)
  | none =>
    match s.missOf r.slot r.log with
    | some m => s.joinMiss m r
    | none =>
      match s.lnd.copies.find? fun c => c.slot == r.slot && c.log == r.log && covers c.boards r.boards with
      | some c => (s.bump (hubAt .lnd) F.LND_CNT1_BUF_HITS, .copy c.idx)
      | none => s.allocMiss r

/-- Look a request up while the landing is disabled: a fill into an eviction-buffer entry, at most 32 at once (R372). -/
def State.lookupOff (s : State) (r : Request) : State × Look :=
  match s.lnd.misses.find? fun m => m.slot == r.slot && m.log == r.log && m.buf.isSome && !m.closing with
  | some m => s.joinMiss m r
  | none =>
    let used := s.lnd.misses.filterMap (·.buf)
    match (List.range 32).find? fun i => !used.contains i with
    | none => (s.park r .register, .parked)
    | some i =>
      if !s.regFree r.cls false then (s.park r .register, .parked)
      else
        let m : Miss := { id := s.freeReg, slot := r.slot, log := r.log, cls := r.cls, func := r.func, qid := r.qid,
                          entry := none, buf := some i, waiters := [r] }
        let s := { s with lnd := { s.lnd with copies := s.lnd.copies.filter (·.idx ≠ i) } }
        (s.addMiss m, .filling m.id false)

/-- Look a request up (R351, R372). -/
def State.lookup (s : State) (r : Request) : State × Look := if s.lndOn then s.lookupOn r else s.lookupOff r

/-! ## Fills -/

/-- Copy a CLEAN victim into the eviction buffer: into an entry never used, else the oldest; a victim that reads
uncorrectable is not copied (R356). -/
def State.copyVictim (s : State) (e : Nat) : State :=
  let l := s.line e
  let (s, bad) := s.checkRange 0 (entryAt e 0) 65536 0
  let inUse := s.lnd.misses.filterMap (·.buf)
  let used := s.lnd.copies.map fun (c : Copy) => c.idx
  let free := (List.range 32).find? fun i => !used.contains i && !inUse.contains i
  match (match free with | some i => some i | none => used.head?) with
  | none => s
  | some i =>
    if bad ≠ [] then s
    else
      let s := s.writeBytes 1 (65536 * i) (s.readBytes 0 (entryAt e 0) 65536)
      let c : Copy := { idx := i, slot := l.slot, log := l.log, boards := l.boards, failed := l.failed }
      { s with lnd := { s.lnd with copies := s.lnd.copies.filter (fun (x : Copy) => x.idx ≠ i) ++ [c] } }

/-- The first board of a fill has come: the victim is copied and the entry turns to FILLING (R353, R356). -/
def State.beginFill (s : State) (m : Miss) : State :=
  match m.entry with
  | none => s.setMiss { m with begun := true }
  | some e =>
    let l := s.line e
    let s := if m.kind = .miss ∧ l.st = .evicting then s.copyVictim e else s
    let keep := m.kind != .miss
    (s.setLine e { slot := m.slot, log := m.log, st := .filling, boards := if keep then l.boards else 0,
                   ref := l.ref && keep, failed := l.failed && keep, lock := if keep then l.lock else m.lock }).setMiss
      { m with begun := true }

/-- A board of a fill is written into its entry (R353). -/
def State.fillBoard (s : State) (id i : Nat) (bs : Bytes) : State :=
  match s.miss id with
  | none => s
  | some m =>
    if m.closing ∨ (m.entry = none ∧ m.buf = none) then s
    else
      let s := if m.begun then s else s.beginFill m
      let m := (s.miss id).getD m
      let s := match m.buf, m.entry with
        | some b, _ => s.writeBytes 1 (65536 * b + 4096 * i) bs
        | none, some e =>
          let l := s.line e
          (s.writeBytes 0 (entryAt e i) bs).setLine e { l with boards := l.boards ||| 2 ^ i }
        | none, none => s
      s.setMiss { m with got := m.got ||| 2 ^ i }

/-- How a fill ended: LOG_DONE good or FAILED, or no LOG_DONE, with the status of its waiters (R351, R353, R354, R386). -/
inductive FillEnd where
  | good | failed | broken (status : Nat)
  deriving DecidableEq, Repr

/-- The entry after its fill (R351, R353, R354, R386). -/
def filledLine (m : Miss) (l : Line) : FillEnd → Line
  | .good => { l with st := .clean, boards := 0xFFFF, ref := true, failed := false, lock := l.lock || m.lock }
  | .failed => { l with st := .clean, failed := true, lock := l.lock || m.lock }
  | .broken _ =>
    match m.kind with
    | .miss => emptied { slot := m.slot, log := m.log, lock := l.lock || m.lock }
    | .reread => { l with slot := m.slot, log := m.log, st := .clean, failed := true }
    | .refetch i =>
      { l with st := .clean, failed := true, boards := if bitOf m.got i then l.boards else putBit l.boards i false }

/-- End a fill: its entry as R353 or R354 has it, its register free or waiting for QUEUE_RESET_DONE. -/
def State.endFill (s : State) (m : Miss) (how : FillEnd) (closing : Bool) : State :=
  let s := match m.entry with
    | some e => (s.setLine e (filledLine m (s.line e) how)).retireSweep
    | none => s
  let s := if how = .failed then s.bump (hubAt .lnd) F.LND_CNT3_LOGS_FAILED else s
  if closing then s.setMiss { m with closing := true, waiters := [], entry := none, buf := none }
  else s.freeMiss m.id

/-! ## Recording lines -/

/-- Whether a RECORD to a key is refused (R358): its log is on the medium, being read, or being recorded. -/
def State.recordRefused (s : State) (slot log : Nat) : Bool :=
  !s.lndOn ||
  (match s.findLine slot log with
   | some e =>
     let l := s.line e
     (decide (l.st = .clean) && !l.failed) || decide (l.st = .filling) || decide (l.st = .recording)
       || (decide (l.st = .evicting) && !l.failed)
   | none => (s.missOf slot log).isSome)

/-- The DIRTY entry of a key: the one there, a FAILED line taken over, or a new one while room remains; none when it must
wait (R358, R359). -/
def State.dirtyEntry (s : State) (slot log : Nat) : State × Option Nat :=
  let fresh : Line := { slot, log, st := .dirty }
  match s.findLine slot log with
  | some e =>
    let l := s.line e
    if l.st = .dirty then (s, some e)
    else (s.setLine e { fresh with lock := l.lock }, some e)
  | none =>
    if s.get (hubAt .lnd) F.LND_LIMITS_DIRTY_MAX ≤ s.unrecorded then (s, none)
    else
      match s.victim slot log with
      | (s, none) => (s.bump (hubAt .lnd) F.LND_CNT2_SET_STALLS, none)
      | (s, some e) => (s.setLine e fresh, some e)

/-- Write a board of a RECORD into its DIRTY entry, with the header it is to be recorded with (R358). -/
def State.dirtyBoard (s : State) (e lba : Nat) (head payload : Bytes) : State :=
  let l := s.line e
  let s := (s.writeBytes 0 (entryAt e (lba % 16)) payload).setLine e { l with boards := l.boards ||| 2 ^ (lba % 16) }
  let rest := s.lnd.heads.filter fun h => h.1 ≠ l.slot ∨ h.2.1 ≠ lba
  { s with lnd := { s.lnd with heads := rest ++ [(l.slot, lba, head)] } }

/-- Header of a board not yet recorded. -/
def State.headOf (s : State) (slot lba : Nat) : Option Bytes :=
  (s.lnd.heads.find? fun h => h.1 == slot && h.2.1 == lba).map (·.2.2)

/-- Forget the headers of a log. -/
def State.dropHeads (s : State) (slot log : Nat) : State :=
  { s with lnd := { s.lnd with heads := s.lnd.heads.filter fun h => h.1 ≠ slot ∨ h.2.1 / 16 ≠ log } }

/-- Boards of a log that were supplied, by INDEX (R24). -/
def State.suppliedMask (s : State) (slot log : Nat) : Nat :=
  (List.range 16).foldl (fun m i => if (s.headOf slot (16 * log + i)).isSome then m + 2 ^ i else m) 0

/-- Hand a DIRTY line over: absent boards become zeros and the entry RECORDING; a line that reads uncorrectable is lost,
its entry becomes INVALID, and the flag is false (R359, R386). -/
def State.handOver (s : State) (e : Nat) : State × Bool :=
  let l := s.line e
  let (s, bad) := s.checkRange 0 (entryAt e 0) 65536 0
  if bad ≠ [] then
    let s := s.raiseHub 0x0B01 0 l.slot (16 * l.log)
    (((s.setLine e (emptied l)).dropHeads l.slot l.log).retireSweep, false)
  else
    let s := (List.range 16).foldl (fun t i =>
      if bitOf l.boards i then t else t.writeBytes 0 (entryAt e i) (List.replicate 4096 0)) s
    (s.setLine e { l with st := .recording, boards := 0xFFFF }, true)

/-- The recording of a RECORDING line has ended (R360). -/
def State.settleLine (s : State) (slot log : Nat) (ok : Bool) : State :=
  match s.findLine slot log with
  | none => s
  | some e =>
    let l := s.line e
    if l.st ≠ .recording then s
    else
      let s := s.setLine e (if ok then { l with st := .clean, failed := false, ref := true } else emptied l)
      (s.dropHeads slot log).retireSweep

/-! ## Invalidation -/

/-- Drop the CLEAN entries and buffer copies of a slot (R373). -/
def State.moveInvalidate (s : State) (slot : Nat) : State :=
  if !s.lndOn then s
  else
    let s := s.lnd.tags.foldl (fun t e =>
      if e.2.slot = slot ∧ e.2.st = .clean then t.setLine e.1 (emptied e.2) else t) s
    ({ s with lnd := { s.lnd with copies := s.lnd.copies.filter (·.slot ≠ slot) } } : State).bump (hubAt .lnd) F.LND_CNT3_MOVE_INVAL

/-- Whether a slot has lines not yet recorded (R373). -/
def State.slotDirty (s : State) (slot : Nat) : Bool :=
  s.lnd.tags.any fun e => e.2.slot == slot && (decide (e.2.st = .dirty) || decide (e.2.st = .recording))

end Sys2Proof.Machine
end

