-- ==== Sys2Proof/Machine/VlkOps.lean ====
section
/-! DEFINITION. The vault lock (chapter 13): sessions, tokens, keys, delivery and the scale book. -/
namespace Sys2Proof.Machine

/-! ## Status codes (R459) -/

def stSuccess : Nat := 0x0000
def stRecovered : Nat := 0x0001
def stInvalidOpcode : Nat := 0x0100
def stInvalidField : Nat := 0x0101
def stSessionInvalid : Nat := 0x0102
def stNotPermitted : Nat := 0x0103
def stTimePassed : Nat := 0x0104
def stUnreachable : Nat := 0x0105
def stUnreadable : Nat := 0x0200
def stBark : Nat := 0x0201
def stSlotEmpty : Nat := 0x0202
def stDiscFull : Nat := 0x0203
def stMountFailed : Nat := 0x0204
def stHalted : Nat := 0x0300
def stAbort : Nat := 0x0301
def stUncorrectable : Nat := 0x0302
def stByReset : Nat := 0x0400
def stByActivation : Nat := 0x0401
def stFault : Nat := 0x0500
def stUnpowered : Nat := 0x0501
def stHoming : Nat := 0x0502
def stChatter : Nat := 0x0503

/-! ## Time -/

/-- T, by which rights are judged; HWM follows it (R400). -/
def State.rightsTime (s : State) : Nat := max s.now s.vlk.hwm

/-- The vault lock sees device time (R400). -/
def State.seeTime (s : State) : State := { s with vlk := { s.vlk with hwm := s.rightsTime } }

/-! ## Sessions -/

/-- A session context in use. -/
def State.session (s : State) (id : Nat) : Option Session := s.vlk.sessions.find? (·.id = id)

/-- Replace a session context. -/
def State.setSession (s : State) (x : Session) : State :=
  { s with vlk := { s.vlk with sessions := s.vlk.sessions.map fun y => if y.id = x.id then x else y } }

/-- A context becomes FREE; its delivery key goes with it (R401). -/
def State.freeSession (s : State) (id : Nat) : State :=
  { s with vlk := { s.vlk with
    sessions := s.vlk.sessions.filter (·.id ≠ id)
    freed := s.vlk.freed ++ [id] } }

/-- The free context that was freed longest ago, contexts never used first (R398). -/
def State.freeContext (s : State) : Option Nat := if s.vlk.fresh < 16384 then some s.vlk.fresh else s.vlk.freed.head?

/-- Take a context for a new session. -/
def State.takeContext (s : State) (x : Session) : State :=
  let v := s.vlk
  { s with vlk := { v with
    sessions := v.sessions ++ [x]
    fresh := if x.id = v.fresh then v.fresh + 1 else v.fresh
    freed := v.freed.filter (· ≠ x.id) } }

/-- Sessions that a function holds open (R398). -/
def State.sessionsOf (s : State) (f : Nat) : Nat := (s.vlk.sessions.filter (·.func = f)).length

/-- The checks of R399 on a session: the rights' title and range apart where not asked for. -/
def sessionVerdict (s : State) (x : Session) (f : Nat) (title : Nat) (mode : Option Nat) (off count : Nat) : Nat :=
  if x.st ≠ .opened ∨ x.func ≠ f ∨ !s.vlk.timeSet ∨ x.expiry ≤ s.rightsTime then stSessionInvalid
  else if x.title ≠ title ∨ !(match mode with | some m => bitOf x.modes m | none => true)
      ∨ off < x.first ∨ x.last < off + count - 1 then stNotPermitted
  else stSuccess

/-- Check a command against its session; a failure counts, and an expired session becomes EXPIRED (R399, R400). -/
def State.checkSession (s : State) (id f title : Nat) (mode : Option Nat) (off count : Nat) : State × Nat :=
  let s := s.seeTime
  match s.session id with
  | none => (s.bump (hubAt .vlk) F.VLK_CNT1_REFUSALS, stSessionInvalid)
  | some x =>
    let v := sessionVerdict s x f title mode off count
    if v = stSuccess then (s, v)
    else
      let old := x.st = .opened ∧ x.func = f ∧ (!s.vlk.timeSet ∨ x.expiry ≤ s.rightsTime)
      let s := s.setSession { x with refused := x.refused + 1, st := if old then .expired else x.st }
      (s.bump (hubAt .vlk) F.VLK_CNT1_REFUSALS, v)

/-! ## Keys -/

/-- The number that bytes spell, most significant first. -/
def beNat (bs : Bytes) : Nat := leNat bs.reverse

/-- The k bytes of a number, most significant first. -/
def beBytes (k n : Nat) : Bytes := (leBytes k n).reverse

/-- ASCII bytes of a label (R405). -/
def asciiBytes (t : String) : Bytes := t.toList.map fun c => BitVec.ofNat 8 c.toNat

/-- The secret of content root r, word 0 most significant (R404, R428). -/
def State.rootSecret (s : State) (r : Nat) : Bytes :=
  (List.range 8).flatMap fun w => beBytes 4 (s.get (hubAt .vlk) F.VLK_ROOTr_KEY_KEY w r)

/-- ROOTID of a content root; 0 where the root is absent (R404). -/
def State.rootId (s : State) (r : Nat) : Nat := s.get (hubAt .vlk) F.VLK_ROOTr_ID_ROOTID r

/-- The root for new wraps, when present (R404). -/
def State.activeRoot (s : State) : Option Nat :=
  let r := s.get (hubAt .vlk) F.VLK_ROOT_ACTIVE_ROOT
  if s.rootId r = 0 then none else some r

/-- The present root of a ROOTID. -/
def State.rootOf (s : State) (id : Nat) : Option Nat := if id = 0 then none else (List.range 4).find? fun r => s.rootId r == id

/-- The 64 bytes of a bark signature: bit 0 is the most significant bit of byte 0 (R405). -/
def barkBytes (sig : Nat) : Bytes :=
  (List.range 64).map fun m => BitVec.ofNat 8 (ofMsb ((List.range 8).map fun k => bitOf sig (8 * m + k)))

/-- The key-encryption key of a disc (R405). -/
def State.kek (s : State) (r sig : Nat) : Bytes :=
  (Config.sha384 (asciiBytes "HVD-KEK1" ++ s.rootSecret r ++ Config.sha384 (barkBytes sig))).take 32

/-- The key of a token (R405). -/
def State.tokenKey (s : State) (r token : Nat) : Bytes :=
  (Config.sha384 (asciiBytes "HVD-TOK1" ++ s.rootSecret r ++ leBytes 8 token)).take 32

/-- What installing a title key gave (R406, R407). -/
inductive KeyPut where
  | held (idx : Nat) | conflict (idx : Nat) | dropped
  deriving DecidableEq, Repr

/-- Install a title key: in the title's slot, else a free one, else the least recently used without references (R406). -/
def State.installKey (s : State) (title : Nat) (key : Bytes) : State × KeyPut :=
  match s.vlk.keys.find? (·.title = title) with
  | some k =>
    if k.key = key then
      ({ s with vlk := { s.vlk with keys := s.vlk.keys.filter (fun x => x.idx ≠ k.idx) ++ [k] } }, .held k.idx)
    else (s, .conflict k.idx)
  | none =>
    let used := s.vlk.sessions.filterMap (·.keySlot)
    let free := if s.vlk.keys.length < 8192 then (List.range 8192).find? fun i => s.vlk.keys.all (·.idx ≠ i)
                else (s.vlk.keys.find? fun k => !used.contains k.idx).map (·.idx)
    match free with
    | none => (s.bump (hubAt .vlk) F.VLK_CNT1_KEYS_DROPPED, .dropped)
    | some i =>
      ({ s with vlk := { s.vlk with keys := s.vlk.keys.filter (fun x => x.idx ≠ i) ++ [{ idx := i, title, key }] } }, .held i)

/-- Report a key conflict (R403, R407). -/
def State.keyConflict (s : State) (unit title : Nat) : State :=
  (s.bump (hubAt .vlk) F.VLK_CNT1_KEY_CONFLICTS).raiseHub 0x0C01 0 unit title

/-- The key of a slot. -/
def State.keyOf (s : State) (idx : Nat) : Bytes := ((s.vlk.keys.find? (·.idx = idx)).map (·.key)).getD []

/-! ## Encryption (R408, R414) -/

/-- n bytes of AES-256 counter mode keystream from a 12-byte prefix and a counter. -/
def keystream (key pre : Bytes) (ctr n : Nat) : Bytes :=
  ((List.range ((n + 15) / 16)).flatMap fun i => (Config.aes256 key (pre ++ beBytes 4 (ctr + i))).take 16).take n

/-- Exclusive or of byte strings. -/
def xorBytes (a b : Bytes) : Bytes := List.zipWith (· ^^^ ·) a b

/-- A board's payload encrypted or decrypted under its title key (R408). -/
def boardCrypt (key : Bytes) (serial lba : Nat) (payload : Bytes) : Bytes :=
  xorBytes payload (keystream key (beBytes 8 serial ++ beBytes 4 lba) 0 payload.length)

/-- The ciphertext and the 32-byte tag record of one sealed board (R414). -/
def sealBoard (x : Session) (off : Nat) (plain : Bytes) : Bytes × Bytes :=
  let iv := beBytes 4 off ++ beBytes 8 x.seq
  let c := xorBytes plain (keystream x.dkey iv 2 plain.length)
  let aad := leBytes 2 x.id ++ leBytes 4 x.title ++ leBytes 4 off ++ leBytes 8 x.seq
  (c, leBytes 8 x.seq ++ leBytes 4 off ++ leBytes 4 0 ++ (Config.gcmTag x.dkey iv aad c).take 16)

/-! ## Licence tokens (R402, R403) -/

/-- What the token's own checks gave: a reason and status, or the session it grants with its title key. -/
inductive TokenVerdict where
  | refused (reason status : Nat)
  | ok (x : Session) (bindKey : Option Bytes)
  deriving DecidableEq, Repr

/-- Whether bytes i … j - 1 are all 0. -/
def zeros (bs : Bytes) (i j : Nat) : Bool := ((bs.take j).drop i).all (· == 0)

/-- The device identity (R605). -/
def State.deviceId (s : State) : Bytes :=
  let dev : Nat := match s.code with | .bz2a => 0xB2A2 | .bz4c => 0xB2C4 | .bz6c => 0xB2C6 | .bz8c => 0xB2C8
  leBytes 4 (0x48 * 2 ^ 24 + 0x10 * 2 ^ 16 + dev) ++ leBytes 4 0 ++ leBytes 8 Config.serial

/-- Public root p: X then Y, most significant word first (R428). -/
def State.pubRoot (s : State) (p : Nat) : Bytes :=
  (List.range 24).flatMap fun w => beBytes 4 (s.get (hubAt .vlk) F.VLK_PUBp_KEY w p)

/-- Checks 1 to 8 of R403 on a token for a function; the session takes its context later. -/
def State.checkToken (s : State) (f : Nat) (t : Bytes) : TokenVerdict :=
  let T := s.rightsTime
  let modes := fieldAt t 276 4
  let first := fieldAt t 296 4
  let last := fieldAt t 300 4
  let title := fieldAt t 272 4
  let root := fieldAt t 12 1
  let expiry := min (fieldAt t 288 8) (fieldAt t 24 8)
  let unwrap : Nat → Option Bytes := fun o =>
    (s.activeRoot).bind fun r => Config.unwrap (s.tokenKey r (fieldAt t 304 8)) ((t.drop o).take 40)
  let dk := if bitOf modes 1 then unwrap 312 else some []
  let tk := if bitOf modes 2 then unwrap 352 else some []
  if fieldAt t 0 4 ≠ 0x544C5648 ∨ fieldAt t 4 2 ≠ 0x0100 ∨ !zeros t 6 8 ∨ !zeros t 13 16 ∨ !zeros t 136 160
      ∨ !zeros t 392 416 ∨ last < first ∨ modes = 0 ∨ 8 ≤ modes then .refused 1 stInvalidField
  else if 8 ≤ root ∨ !bitOf (s.get (hubAt .vlk) F.VLK_PUB_EN_EN) root then .refused 2 stNotPermitted
  else if !Config.ecdsa (s.pubRoot root) ((t.drop 160).take 96) (Config.sha384 ((t.drop 8).take 152)) then
    .refused 3 stNotPermitted
  else if !Config.ecdsa ((t.drop 40).take 96) ((t.drop 416).take 96) (Config.sha384 (t.take 416)) then
    .refused 4 stNotPermitted
  else if title < fieldAt t 32 4 ∨ fieldAt t 36 4 < title ∨ T < fieldAt t 16 8 ∨ fieldAt t 24 8 ≤ T then
    .refused 5 stNotPermitted
  else if !zeros t 256 272 ∧ (t.drop 256).take 16 ≠ s.deviceId then .refused 6 stNotPermitted
  else if T < fieldAt t 280 8 ∨ fieldAt t 288 8 ≤ T then .refused 7 stNotPermitted
  else match dk, tk with
    | some d, some k =>
      if bitOf modes 2 ∧ f ≠ 0 then .refused 8 stNotPermitted
      else .ok { id := 0, st := .opening, func := f, title, modes, first, last, expiry, tokenId := fieldAt t 304 8, dkey := d }
        (if bitOf modes 2 then some k else none)
    | _, _ => .refused 8 stNotPermitted

/-! ## Scale book -/

/-- The bay that holds a slot's disc. -/
def State.bayOfSlot (s : State) (slot : Nat) : Option Bay :=
  (List.finRange 12).find? fun b => (s.crew.bays[b].disc.map (·.slot)) = some slot

/-- Whether a slot's disc is mounted. -/
def State.slotMounted (s : State) (slot : Nat) : Bool :=
  match s.bayOfSlot slot with
  | some b => (s.crew.bays[b].disc.map (·.mounted)).getD false
  | none => false

/-- Whether an extent covers a board of a title. -/
def Extent.covers (e : Extent) (title board : Nat) : Bool :=
  e.title == title && decide (e.offset ≤ board ∧ board < e.offset + e.count)

/-- The VALID extent that a board resolves to: one on a mounted disc first, then the lowest slot (R422). -/
def State.resolve (s : State) (title board : Nat) : Option Extent :=
  let l := s.vlk.extents.filter fun e => e.covers title board && decide (e.st = .valid)
  let pick : List Extent → Option Extent := fun l =>
    l.foldl (fun b e => match b with | some x => if e.slot < x.slot then some e else b | none => some e) none
  match pick (l.filter fun e => s.slotMounted e.slot) with
  | some e => some e
  | none => pick l

/-- A slot's extents become STALE and its landing lines go (R423). -/
def State.staleSlot (s : State) (slot : Nat) : State :=
  let v := s.vlk
  let s := { s with vlk := { v with
    extents := v.extents.map fun (e : Extent) => if e.slot = slot then { e with st := .stale } else e
    stale := if v.stale.contains slot then v.stale else v.stale ++ [slot]
    passed := v.passed.filter (· ≠ slot) } }
  s.moveInvalidate slot

/-- Mirror the extents of a slot's directory in place of its records, as room allows (R421, R423, R425). -/
def State.mirror (s : State) (slot : Nat) (exts : List Extent) : State :=
  let s := { s with vlk := { s.vlk with
    extents := s.vlk.extents.filter (·.slot ≠ slot)
    stale := s.vlk.stale.filter (· ≠ slot)
    passed := s.vlk.passed.filter (· ≠ slot) } }
  exts.foldl (fun t e =>
    let titles := (t.vlk.extents.map (·.title)).dedup
    if 131072 ≤ t.vlk.extents.length ∨ (32768 ≤ titles.length ∧ !titles.contains e.title) then
      t.bump (hubAt .vlk) F.VLK_CNT3_OVERFLOW
    else { t with vlk := { t.vlk with extents := t.vlk.extents ++ [e] } }) s

/-- Configured decks: as the settings slot in use keeps the geometry, else as the mechanism die has it (R309, R567). -/
def State.decks (s : State) : Nat :=
  match s.fwu.settings[s.fwu.slot] with
  | some x =>
    if x.geometry = [] then s.get (dieAt .yrd 1) F.YRD_GEOM_DECKS
    else fieldIn x.geometry F.YRD_GEOM_DECKS (F.YRD_GEOM_DECKS.key (dieAt .yrd 1) 0 0)
  | none => s.get (dieAt .yrd 1) F.YRD_GEOM_DECKS

/-- Slots that the vault has (R66, R309). -/
def State.slots (s : State) : Nat := if s.code = .bz2a then 2 else 256 * s.decks

/-- Whether a vault address is one of the vault's (R66). -/
def State.vaultOk (s : State) (a count : Nat) : Bool :=
  decide (a / 2 ^ 32 < s.slots) && decide (a % 2 ^ 32 + count ≤ lbaEnd)

end Sys2Proof.Machine
end

