-- ==== Sys2Proof/Machine/QenOps.lean ====
section
/-! DEFINITION. The queue engine (chapter 14): entries, fences, decided completions and their posting, doorbells, fetch. -/
namespace Sys2Proof.Machine

/-! ## Queues and commands -/

/-- A queue pair that is not ABSENT. -/
def State.queue (s : State) (f q : Nat) : Option Queue := s.qen.queues.find? fun x => x.func == f && x.qid == q

/-- Replace a queue pair. -/
def State.setQueue (s : State) (x : Queue) : State :=
  { s with qen := { s.qen with
    queues := s.qen.queues.map fun (y : Queue) => if y.func = x.func ∧ y.qid = x.qid then x else y } }

/-- A queue pair becomes ABSENT. -/
def State.dropQueue (s : State) (f q : Nat) : State :=
  { s with qen := { s.qen with queues := s.qen.queues.filter fun (y : Queue) => y.func ≠ f ∨ y.qid ≠ q } }

/-- Dword i of a command. -/
def Cmd.word (c : Cmd) (i : Nat) : Nat := (c.dw.getD i 0).toNat

/-- Two dwords as a 64-bit number, the lower first. -/
def Cmd.wide (c : Cmd) (i : Nat) : Nat := hiLo (c.word i) (c.word (i + 1))

/-- Fields of dwords 0 to 6 (R431). -/
def Cmd.opcode (c : Cmd) : Nat := bitsOf (c.word 0) 7 0
def Cmd.fenceBefore (c : Cmd) : Bool := bitOf (c.word 0) 8
def Cmd.seat (c : Cmd) : Bool := bitOf (c.word 0) 9
def Cmd.cls (c : Cmd) : Nat := bitsOf (c.word 0) 11 10
def Cmd.delivery (c : Cmd) : Nat := bitsOf (c.word 0) 13 12
def Cmd.tag (c : Cmd) : Nat := bitsOf (c.word 0) 31 16
def Cmd.session (c : Cmd) : Nat := bitsOf (c.word 1) 13 0
def Cmd.buffer (c : Cmd) : Nat := c.wide 2
def Cmd.address (c : Cmd) : Nat := c.wide 4
def Cmd.count (c : Cmd) : Nat := c.word 6

/-- A command in flight. -/
def State.cmd (s : State) (id : Nat) : Option Cmd := s.qen.cmds.find? (·.id = id)

/-- Replace a command in flight. -/
def State.setCmd (s : State) (c : Cmd) : State :=
  { s with qen := { s.qen with cmds := s.qen.cmds.map fun (x : Cmd) => if x.id = c.id then c else x } }

/-- A command's requests leave the miss registers and the lists of waiting work (R446). -/
def State.leaveRequests (s : State) (id : Nat) : State :=
  let l := s.lnd
  { s with lnd := { l with
    misses := l.misses.map fun (m : Miss) => { m with waiters := m.waiters.filter (·.owner ≠ .cmd id) }
    parked := l.parked.filter fun p => p.1.owner ≠ .cmd id
    room := l.room.filter (· ≠ id)
    queue := l.queue.filter (·.cmd ≠ some id) } }

/-- Take a command out of flight, with everything it asked for. -/
def State.dropCmd (s : State) (id : Nat) : State :=
  let s := s.leaveRequests id
  { s with
    qen := { s.qen with cmds := s.qen.cmds.filter (·.id ≠ id) }
    vlk := { s.vlk with lookups := s.vlk.lookups.filter (·.cmd ≠ id) }
    crew := { s.crew with mounts := s.crew.mounts.map fun (j : MountJob) =>
      { j with owners := j.owners.filter (· ≠ .cmd id) } } }

/-- Decide a command: its status enters the completion stage, and later faults never change it (R444, R597). -/
def State.finish (s : State) (c : Cmd) (status result : Nat) : State :=
  if (s.cmd c.id).isNone then s
  else
    let s := s.dropCmd c.id
    let s := match c.sess.bind s.session with
      | some x => s.setSession { x with served := x.served + 1 }
      | none => s
    { s with qen := { s.qen with posts := s.qen.posts ++
        [{ cid := c.id, func := c.func, qid := c.qid, tag := c.tag, status, result, opcode := c.opcode, addr := c.address }] } }

/-- Decide a command by its number. -/
def State.finishId (s : State) (id status result : Nat) : State :=
  match s.cmd id with
  | some c => s.finish c status result
  | none => s

/-- Commands of one SQ fetched before a command and not yet posted (R440). -/
def State.earlier (s : State) (c : Cmd) : List Nat :=
  (s.qen.cmds.filter fun x => x.func == c.func && x.qid == c.qid && decide (x.id < c.id)).map (·.opcode)
    ++ (s.qen.posts.filter fun x => x.func == c.func && x.qid == c.qid && decide (x.cid < c.id)).map (·.opcode)

/-- Whether fences let a command start (R440). -/
def State.mayStart (s : State) (c : Cmd) : Bool :=
  let e := s.earlier c
  !e.contains 0x05 && (e.isEmpty || !(c.fenceBefore || c.opcode == 0x05))

/-- The command that a row starts: it is checked, has the row's opcode and no fence holds it (R439, R440). -/
def State.startable (s : State) (id opcode : Nat) : Option Cmd :=
  match s.cmd id with
  | some c => if c.st = .checked ∧ c.opcode = opcode ∧ s.mayStart c then some { c with st := .running } else none
  | none => none

/-! ## Posting -/

/-- The four dwords of a completion entry (R433). -/
def completionBytes (p : Post) (sqHead : Nat) (phase : Bool) : Bytes :=
  leBytes 4 p.result ++ leBytes 2 p.qid ++ leBytes 2 sqHead ++ leBytes 2 0 ++ leBytes 2 p.tag ++ leBytes 2 (b2n phase)
    ++ leBytes 2 p.status

/-- Send the message of a completion queue, or leave it to wait (R466, R486, R502). -/
def State.signal (s : State) (x : Queue) : State :=
  let f := s.fn x.func
  if !x.ien then s.setQueue x
  else if x.cls ≠ 0 ∧ 0 < f.coalN ∧ x.withheld + 1 < f.coalN then s.setQueue { x with withheld := x.withheld + 1 }
  else
    let held := !s.msixReady x.func x.vector
    (s.setQueue { x with withheld := 0, msgPend := x.msgPend || held }).msixFire x.func x.vector

/-- Record an error (R485); the page keeps the newest 64. -/
def State.logError (s : State) (e : ErrEntry) : State :=
  let h := s.qen.history ++ [e]
  ({ s with qen := { s.qen with history := h.drop (h.length - 64) } } : State).pageChanged 1

/-- Whether a completion queue has room for one more entry (R429, R434). -/
def Queue.cqRoom (x : Queue) : Bool := (x.cqTail + 1) % x.depth != x.cqHead

/-- Write one decided entry, followed by its message (R433, R434, R442, R485). -/
def State.postEntry (s : State) (x : Queue) (p : Post) : State :=
  let s := { s with qen := { s.qen with posts := s.qen.posts.erase p } }
  let head := p.sqHead.getD x.sqHead
  let s := s.hostWrite x.func (x.cqBase + 16 * x.cqTail) (completionBytes p head x.phase) false
  let e : ErrEntry := { time := s.now, func := p.func, opcode := p.opcode, qid := p.qid, tag := p.tag, status := p.status,
                        result := p.result, sqHead := head, addr := p.addr }
  let s := if 0x100 ≤ p.status then s.logError e else s
  let wrap := x.cqTail + 1 = x.depth
  s.signal { x with cqTail := if wrap then 0 else x.cqTail + 1, phase := if wrap then !x.phase else x.phase }

/-- Post the oldest decided entry of a queue that its CQ has room for (R434, R511). -/
def State.postOne (s : State) (f q : Nat) : State :=
  match s.queue f q, s.qen.posts.find? fun p => p.func == f && p.qid == q with
  | some x, some p => if x.cqRoom ∧ s.master f then s.postEntry x p else s
  | _, _ => s

/-- Post every decided entry of a queue that there is room for. -/
def State.postAll (s : State) (f q : Nat) : State :=
  (s.qen.posts.filter fun p => p.func == f && p.qid == q).foldl (fun t _ => t.postOne f q) s

/-! ## Doorbells (R435) -/

/-- Refuse one part of a doorbell. -/
def State.doorbellRefused (s : State) (f q : Nat) : State :=
  let s := s.bump (funAt .qen f) F.QEN_DB_ERR_COUNT
  let s := s.put (funAt .qen f) F.QEN_DB_ERR_LAST_Q q
  (s.raiseHub 0x0D01 0 q f).irq 80

/-- Entries from one ring index to another. -/
def ringSpan (depth a b : Nat) : Nat := (b + depth - a) % depth

/-- A write of SQ_TAIL. -/
def State.tailWrite (s : State) (f q v : Nat) : State :=
  match s.queue f q with
  | none => s.doorbellRefused f q
  | some x => if x.depth ≤ v then s.doorbellRefused f q else s.setQueue { x with sqTail := v }

/-- A write of CQ_HEAD; a queue left empty gives up a message that its bit still holds (R502). -/
def State.headWrite (s : State) (f q v : Nat) : State :=
  match s.queue f q with
  | none => s.doorbellRefused f q
  | some x =>
    if x.depth ≤ v ∨ ringSpan x.depth x.cqHead x.cqTail < ringSpan x.depth x.cqHead v then s.doorbellRefused f q
    else
      let s := s.setQueue { x with cqHead := v, msgPend := x.msgPend && decide (v ≠ x.cqTail) }
      let others := s.qen.queues.any fun y => y.func == f && y.vector == x.vector && y.msgPend
      if x.msgPend ∧ v = x.cqTail ∧ !others then s.setMsix f x.vector { s.msixEntry f x.vector with pend := false } else s

/-! ## Fetch (R436, R437) -/

/-- Entries that a queue has for a fetch: up to FETCH_MAX and not across the ring's end. -/
def State.fetchSpan (s : State) (x : Queue) : Nat :=
  min (s.get (hubAt .qen) F.QEN_FETCH_CFG_FETCH_MAX) (min (ringSpan x.depth x.sqHead x.sqTail) (x.depth - x.sqHead))

/-- Entries of fetches under way. -/
def State.fetching (s : State) : Nat :=
  s.ep.reads.foldl (fun n r => match r.what with | .fetch _ _ k => n + k | .cmd _ => n) 0

/-- In-flight slots that no kind of queue keeps (R437). -/
def sharedSlots : Nat := 32768 - 512 - 64

/-- Commands in shared slots. -/
def State.sharedUsed (s : State) : Nat := (s.qen.cmds.filter fun c => !c.kept).length

/-- In-flight slots that a queue may still take: the shared ones, then those kept for management or for class-0 queues; entries
of fetches under way count as shared first (R437). -/
def State.slotsFor (s : State) (x : Queue) : Nat :=
  let used := s.sharedUsed + s.fetching
  let mine := fun (c : Cmd) => c.kept && (c.qid == 0) == (x.qid == 0)
  let keep := if x.qid = 0 then 64 else if x.cls = 0 then 512 else 0
  (sharedSlots - used) + (keep - (s.qen.cmds.filter mine).length - (used - sharedSlots))

/-- Whether a queue waits to be fetched; in recovery only the physical function's management queue runs (R566). -/
def State.fetchable (s : State) (x : Queue) : Bool :=
  decide (x.st = .active) && !(decide (s.fwu.run = .recovery) && !(x.func == 0 && x.qid == 0)) && !s.qen.stopped && s.master x.func && decide (0 < s.fetchSpan x) && decide (0 < s.slotsFor x)
    && !(s.ep.reads.any fun r => r.func == x.func && (match r.what with | .fetch q _ _ => q == x.qid | .cmd _ => false))

/-- The first queue after a mark, round robin by 513 · function + queue. -/
def roundRobin (l : List Queue) (mark : Nat) : Option Queue :=
  let key := fun (x : Queue) => 513 * x.func + x.qid
  let low := fun (l : List Queue) => l.foldl (fun (b : Option Queue) x =>
    match b with | some y => if key x < key y then some x else b | none => some x) none
  match low (l.filter fun x => decide (mark < key x)) with
  | some x => some x
  | none => low l

/-- The class of 1 to 3 whose turn it is, and the credits left: each class up to its weight in a round (R438). -/
def classPick (w cr : Vector Nat 3) (waiting : Nat → Bool) : Option (Nat × Vector Nat 3) :=
  let try_ : Vector Nat 3 → Option (Nat × Vector Nat 3) := fun v =>
    ((List.finRange 3).find? fun (i : Fin 3) => waiting (i.val + 1) && decide (0 < v[i])).map fun (i : Fin 3) =>
      (i.val + 1, v.set i (v[i] - 1))
  match try_ cr with
  | some r => some r
  | none => try_ w

/-- The class weights (R438, R454). -/
def State.weights (s : State) : Vector Nat 3 :=
  #v[s.get (hubAt .qen) F.QEN_WEIGHTS_W1, s.get (hubAt .qen) F.QEN_WEIGHTS_W2, s.get (hubAt .qen) F.QEN_WEIGHTS_W3]

/-- The queue that the next fetch is granted to (R436, R438). -/
def State.grant (s : State) : Option (Queue × State) :=
  let l := s.qen.queues.filter s.fetchable
  let mq := l.filter fun x => x.qid == 0
  let io := l.filter fun x => x.qid != 0
  let m := (roundRobin mq s.qen.lastMq).map fun x => (x, { s with qen := { s.qen with lastMq := 513 * x.func } })
  let n := fun (r : Option (Queue × State)) => r.map fun (x, t) => (x, { t with qen := { t.qen with fetchNo := t.qen.fetchNo + 1 } })
  if s.qen.fetchNo % 16 = 0 ∧ m.isSome then n m
  else
    let zero := io.filter fun x => x.cls == 0
    match roundRobin zero s.qen.last0 with
    | some x => n (some (x, { s with qen := { s.qen with last0 := 513 * x.func + x.qid } }))
    | none =>
      match classPick s.weights s.qen.credits fun c => io.any fun x => x.cls == c with
      | some (c, cr) =>
        n ((io.find? fun x => x.cls == c).map fun x => (x, { s with qen := { s.qen with
          credits := cr
          queues := s.qen.queues.filter (fun y => y.func ≠ x.func ∨ y.qid ≠ x.qid) ++ [x] } }))
      | none => n m

/-- Grant and issue the next fetch: its entries are read from host memory (R436). -/
def State.fetch (s : State) : State :=
  match s.grant with
  | none => s
  | some (x, s) =>
    let k := min (s.fetchSpan x) (s.slotsFor x)
    let s := s.setQueue { x with sqHead := (x.sqHead + k) % x.depth }
    s.hostRead x.func (x.sqBase + 64 * x.sqHead) (64 * k) (x.qid = 0 || x.cls = 0) (.fetch x.qid x.sqHead k)

end Sys2Proof.Machine
end

