-- ==== Sys2Proof/Machine/DataOps.lean ====
section
/-! DEFINITION. How commands that move boards are served, failed and ended (R351, R353, R386, R413, R414, R458, R460–R465). -/
namespace Sys2Proof.Machine

/-! ## Failures and ends -/

/-- The first failure of a command: that of its lowest-indexed failed board (R458). -/
def Cmd.failAt (c : Cmd) (i st : Nat) : Cmd :=
  match c.fail with
  | some (j, _) => if i < j then { c with fail := some (i, st) } else c
  | none => { c with fail := some (i, st) }

/-- A count in 16 bits, saturating. -/
def sat16 (n : Nat) : Nat := min n 0xFFFF

/-- Status and RESULT of a command whose boards and lines have all been seen to (R449, R458, R460–R463). -/
def Cmd.outcome (c : Cmd) : Nat × Nat :=
  let op := c.opcode
  match c.fail with
  | some (i, st) =>
    if op = 0x04 then (st, sat16 c.n1 * 2 ^ 16 + sat16 c.n2) else if op = 0x06 then (st, c.n1) else (st, i)
  | none =>
    if op = 0x01 ∨ op = 0x02 then (if c.recovered then stRecovered else stSuccess, sat16 c.fills * 2 ^ 16 + sat16 c.hits)
    else if op = 0x03 then (stSuccess, if c.seat then c.n2 else c.count)
    else if op = 0x04 then (if c.n1 = 0 then stSuccess else stUnreadable, sat16 c.n1 * 2 ^ 16 + sat16 c.n2)
    else (stSuccess, c.n1)

/-- Decide a command once nothing of it is left to wait for. -/
def State.ifDone (s : State) (id : Nat) : State :=
  match s.cmd id with
  | some c =>
    if c.st = .running ∧ c.boards = [] ∧ c.lines = [] ∧ c.wait = .none then s.finish c c.outcome.1 c.outcome.2 else s
  | none => s

/-- Boards of a command that lie in one log. -/
def Cmd.inLog (c : Cmd) (slot log : Nat) : List (Nat × Nat × Nat × Nat) :=
  c.boards.filter fun b => b.2.1 == slot && b.2.2.1 == log

/-- The command without the boards of one log. -/
def Cmd.without (c : Cmd) (slot log : Nat) : Cmd :=
  { c with boards := c.boards.filter fun b => b.2.1 != slot || b.2.2.1 != log }

/-- Boards of a command are not delivered: their tag records hold zeros (R460). -/
def State.zeroTags (s : State) (c : Cmd) (l : List Nat) : State :=
  if c.opcode = 0x01 ∧ c.delivery = 1 then
    l.foldl (fun t i => t.hostWrite c.func (c.wide 7 + 32 * i) (List.replicate 32 0) true) s
  else s

/-- The boards of one log fail for a command (R353, R458). -/
def State.failLog (s : State) (id slot log st : Nat) : State :=
  match s.cmd id with
  | none => s
  | some c =>
    let l := (c.inLog slot log).map (·.1)
    let s := s.zeroTags c l
    let c := l.foldl (fun c i => c.failAt i st) (c.without slot log)
    (s.setCmd c).ifDone id

/-- A request ends without its boards. -/
def State.failRequest (s : State) (r : Request) (st : Nat) : State :=
  match r.owner with
  | .cmd id => s.failLog id r.slot r.log st
  | .engine => s

/-! ## Delivery -/

/-- Deliver one board of a READ or READ RAW to host memory (R408, R413, R414, R461). -/
def State.deliverBoard (s : State) (c : Cmd) (i slot lba : Nat) (payload : Bytes) : State :=
  let at_ := c.buffer + 4096 * i
  match (if c.opcode = 0x01 then c.sess.bind s.session else none) with
  | none => s.hostWrite c.func at_ payload true
  | some x =>
    let plain := boardCrypt (s.keyOf (x.keySlot.getD 8192)) ((assocGet s.vlk.serials slot).getD 0) lba payload
    if c.delivery = 1 then
      let (cipher, tag) := sealBoard x (c.word 4 + i) plain
      let s := (s.hostWrite c.func at_ cipher true).hostWrite c.func (c.wide 7 + 32 * i) tag true
      s.setSession { x with seq := x.seq + 1, boards := x.boards + 1
                            st := if x.seq + 1 = 2 ^ 48 then .expired else x.st }
    else (s.hostWrite c.func at_ plain true).setSession { x with boards := x.boards + 1 }

/-- Deliver boards from a memory that reads good. -/
def State.deliverAll (s : State) (c : Cmd) (mem base : Nat) (l : List (Nat × Nat × Nat × Nat)) : State :=
  l.foldl (fun t b =>
    t.deliverBoard c b.1 b.2.1 b.2.2.2 (t.readBytes mem (base + 4096 * (b.2.2.2 % 16)) 4096)) s

/-- Check the boards of a request: the state after counting, and the INDEXes that read uncorrectable. -/
def State.checkBoards (s : State) (mem base : Nat) (l : List (Nat × Nat × Nat × Nat)) : State × List Nat :=
  l.foldl (fun (t, bad) b =>
    let i := b.2.2.2 % 16
    let (t, u) := t.checkRange mem (base + 4096 * i) 4096 0
    (t, if u = [] then bad else bad ++ [i])) (s, [])

/-- A CLEAN line read uncorrectable: it is refetched into the same entry, and the request waits for it (R386). -/
def State.refetch (s : State) (r : Request) (e : Nat) (bad : List Nat) : State :=
  let l := s.line e
  let boards := bad.foldl (fun m i => putBit m i false) l.boards
  if !s.regFree r.cls false then
    (s.setLine e { l with boards, failed := true }).park r .register
  else
    let m : Miss := { id := s.freeReg, slot := r.slot, log := r.log, cls := r.cls, func := r.func, qid := r.qid,
                      entry := some e, waiters := [r], kind := .refetch (bad.headD 0), begun := true }
    (s.setLine e { l with boards, st := .filling }).addMiss m

/-- Serve a request from its line (R351, R386). The flags say that the line needed a fill, of more than one pass. -/
def State.serveEntry (s : State) (r : Request) (e : Nat) (filled multi : Bool) : State :=
  match r.owner with
  | .engine => s
  | .cmd id =>
    match s.cmd id with
    | none => s
    | some c =>
      let l := c.inLog r.slot r.log
      match s.checkBoards 0 (entryAt e 0) l with
      | (s, bad) =>
        if bad ≠ [] ∧ (s.line e).st = .clean then s.refetch r e bad
        else
          let good := l.filter fun b => !bad.contains (b.2.2.2 % 16)
          let lost := (l.filter fun b => bad.contains (b.2.2.2 % 16)).map (·.1)
          let s := s.deliverAll c 0 (entryAt e 0) good
          let s := s.zeroTags c lost
          let c := lost.foldl (fun c i => c.failAt i stUncorrectable) (c.without r.slot r.log)
          let c := { c with hits := c.hits + b2n !filled, fills := c.fills + b2n filled, recovered := c.recovered || multi }
          (s.setCmd c).ifDone id

/-- Serve a request from an eviction-buffer copy; a copy that reads uncorrectable is dropped and the answer is false (R357,
R386). -/
def State.serveCopy (s : State) (r : Request) (idx : Nat) (filled multi : Bool) : State × Bool :=
  match r.owner with
  | .engine => (s, true)
  | .cmd id =>
    match s.cmd id with
    | none => (s, true)
    | some c =>
      let l := c.inLog r.slot r.log
      let (s, bad) := s.checkBoards 1 (65536 * idx) l
      if bad ≠ [] then
        ({ s with lnd := { s.lnd with copies := s.lnd.copies.filter fun (x : Copy) => x.idx ≠ idx } }, false)
      else
        let s := s.deliverAll c 1 (65536 * idx) l
        let c := c.without r.slot r.log
        let c := { c with hits := c.hits + b2n !filled, fills := c.fills + b2n filled, recovered := c.recovered || multi }
        ((s.setCmd c).ifDone id, true)

/-- A line that a preload of the range engine awaits is present, or its fill has ended (R370). -/
def State.rangeLine (s : State) (slot log : Nat) (ok : Bool) : State :=
  match s.lnd.range with
  | some x =>
    if (x.op.kind = .preload ∨ x.op.kind = .preloadLock) ∧ x.lines.contains (slot, log) then
      let s := { s with lnd := { s.lnd with range := some { x with lines := x.lines.filter (· ≠ (slot, log)) } } }
      if ok then s else s.bump (hubAt .lnd) F.LND_RANGE_SUM3_LINES_FAILED
    else s
  | none => s

/-- A log that a PRELOAD awaits is present, or its fill has ended (R463). -/
def State.preloadEnd (s : State) (slot log : Nat) (how : FillEnd) : State :=
  let s := s.rangeLine slot log (decide (how = .good))
  s.qen.cmds.foldl (fun t x =>
    match t.cmd x.id with
    | none => t
    | some c =>
      if c.opcode = 0x04 ∧ c.lines.contains (slot, log) then
        let c := { c with lines := c.lines.filter (· ≠ (slot, log)) }
        let c := match how with
          | .good => c
          | .failed => { c with n1 := c.n1 + 1 }
          | .broken st => { c.failAt 0 st with n1 := c.n1 + 1 }
        (t.setCmd c).ifDone c.id
      else t) s

/-- Act on one request's lookup (R351, R352, R357). -/
def State.request (s : State) (r : Request) : State :=
  let unlocked : State → State := fun t =>
    match r.owner with
    | .cmd id => (match t.cmd id with | some c => t.setCmd { c with n2 := c.n2 + 1 } | none => t)
    | .engine => t.bump (hubAt .lnd) F.LND_RANGE_SUM2_LOCK_FULL
  let act : State × Look → State := fun (s, k) =>
    match k with
    | .hit e u =>
      let s := if u then unlocked s else s
      if r.boards = 0 then s.preloadEnd r.slot r.log .good else s.serveEntry r e false false
    | .filling _ u => if u then unlocked s else s
    | .missing => s.failRequest r stUnreadable
    | _ => s
  match s.lookup r with
  | (s, .copy i) =>
    let (s, ok) := s.serveCopy r i false false
    if ok then s else act (s.lookup r)
  | sk => act sk

/-- A fill has ended: the entry, then every waiter served or failed (R353, R354, R386). -/
def State.fillOver (s : State) (m : Miss) (how : FillEnd) (closing multi : Bool) : State :=
  let s := s.endFill m how closing
  let serve : State → Request → State := fun s r =>
    match m.entry, m.buf with
    | some e, _ =>
      if how ≠ .failed ∨ covers (s.line e).boards r.boards then
        s.serveEntry r e true (multi || decide (m.kind ≠ .miss)) else s.failRequest r stUnreadable
    | none, some b =>
      if covers m.got r.boards then (s.serveCopy r b true multi).1 else s.failRequest r stUnreadable
    | none, none => s.failRequest r stUnreadable
  let s := m.waiters.foldl (fun s r => match how with | .broken st => s.failRequest r st | _ => serve s r) s
  s.preloadEnd m.slot m.log how

/-! ## Recording lines -/

/-- A line's recording has ended: RECORDs not yet decided that wrote it have one log more on the medium (R445), and nothing
of it is left to flush. -/
def State.writersGone (s : State) (slot log : Nat) (ok : Bool) : State :=
  let mine := fun (w : Writer) => w.slot == slot && w.log == log
  let ids := ((s.lnd.writers.filter mine).map fun (w : Writer) => w.cmd).dedup
  let s := { s with lnd := { s.lnd with writers := s.lnd.writers.filter fun (w : Writer) => !mine w } }
  if ok then
    { s with qen := { s.qen with cmds := s.qen.cmds.map fun (x : Cmd) =>
        if x.id ∈ ids then { x with parts := x.parts + 1 } else x } }
  else s

/-- A line awaited by SEAT RECORDs and FLUSHes has left RECORDING (R441, R449). -/
def State.lineSettled (s : State) (slot log st : Nat) : State :=
  let s := s.writersGone slot log (decide (st = stSuccess))
  let s := s.qen.cmds.foldl (fun t x =>
    match t.cmd x.id with
    | none => t
    | some c =>
      if (c.opcode = 0x03 ∨ c.opcode = 0x06) ∧ c.lines.contains (slot, log) then
        let i := 16 * log - c.address % 2 ^ 32
        let c := { c with lines := c.lines.filter (· ≠ (slot, log)) }
        let c := if st = stSuccess then { c with n2 := c.n2 + 1 }
                 else if c.opcode = 0x06 then (if c.fail.isSome then { c with n1 := c.n1 + 1 } else { c.failAt 0 st with n1 := c.n1 + 1 })
                 else c.failAt i st
        (t.setCmd c).ifDone c.id
      else t) s
  match s.lnd.range with
  | some x =>
    if x.lines.contains (slot, log) then
      let s := { s with lnd := { s.lnd with range := some { x with lines := x.lines.filter (· ≠ (slot, log)) } } }
      if st = stSuccess then s else s.bump (hubAt .lnd) F.LND_RANGE_SUM3_LINES_FAILED
    else s
  | none => s

/-- Hand one entry over; a line that reads uncorrectable ends what waits for it (R359, R386). -/
def State.handOverLine (s : State) (e : Nat) : State :=
  let l := s.line e
  if l.st ≠ .dirty then s
  else
    match s.handOver e with
    | (s, true) => s
    | (s, false) => s.lineSettled l.slot l.log stUncorrectable

/-- Hand over every DIRTY line of a list of keys. -/
def State.handOverKeys (s : State) (ks : List (Nat × Nat)) : State :=
  ks.foldl (fun t k => match t.findLine k.1 k.2 with | some e => t.handOverLine e | none => t) s

end Sys2Proof.Machine
end

