-- ==== Sys2Proof/Machine/CrewOps.lean ====
section
/-! DEFINITION. Crew firmware's work (chapters 01, 11, 13 and 15): work items, fills, recordings, mounts and generations. -/
namespace Sys2Proof.Machine

/-! ## Work items -/

/-- The WORK message of an item (R24). -/
def workMsg (kind item cls bay func qid : Nat) (cont : List Nat) : Msg :=
  { type := 0x20
    word := BitVec.ofNat 64 (kind % 256 * 2 ^ 56 + item % 65536 * 2 ^ 40 + cls % 4 * 2 ^ 38 + bay % 2 * 2 ^ 37
      + func % 64 * 2 ^ 31 + qid % 1024 * 2 ^ 21 + cont.length)
    cont := cont.map (BitVec.ofNat 64)
    cls := workClass cls }

/-- An item number that no open item of the port bears, from the next one on (R24). -/
def State.freeItem (s : State) (d : Die) : Nat :=
  let n := s.crew.nextItem[d]
  let used := (s.crew.items.filter (·.die = d)).map (·.item)
  (((List.range (used.length + 1)).map fun i => (n + i) % 65536).find? fun i => !used.contains i).getD n

/-- Send a work item to a die. -/
def State.sendWork (s : State) (d : Die) (kind cls bay func qid : Nat) (cont : List Nat) (what : Purpose) : State × Nat :=
  let i := s.freeItem d
  let c := s.crew
  let x : HubItem := { die := d, item := i, func, qid, cls, kind, bay, what }
  let s := { s with crew := { c with
    nextItem := c.nextItem.set d ((i + 1) % 65536)
    items := c.items ++ [x] } }
  (s.send d .hub (workMsg kind i cls bay func qid cont), i)

/-- The open item of a port. -/
def State.hubItem (s : State) (d : Die) (item : Nat) : Option HubItem := s.crew.items.find? fun x => decide (x.die = d) && x.item == item

/-- An item ends on the hub's side. -/
def State.closeItem (s : State) (d : Die) (item : Nat) : State :=
  { s with crew := { s.crew with items := s.crew.items.filter fun (x : HubItem) => x.die ≠ d ∨ x.item ≠ item } }

/-- Why a die takes no work now, as the status of commands that need it: its port not UP (R38), or the die in its safe state
or given up (R37, R590). -/
def State.dieBlocked (s : State) (d : Die) : Option Nat :=
  let p := s.ports[d]
  if p.state ≠ .up then some (if p.signal then stFault else stUnpowered)
  else if p.safe ∨ s.dies[d].failed then some stFault
  else none

/-- Field work waits until FIELD_READY (R591). -/
def State.fieldReady (s : State) : Bool := s.has (hubAt .pwr) F.PWR_STATUS_FIELD_READY

/-- The QUEUE_RESET message (R659). -/
def queueResetMsg (one : Bool) (item func qid seq : Nat) : Msg :=
  { type := 0x05
    word := BitVec.ofNat 64 (b2n one * 2 ^ 63 + item % 65536 * 2 ^ 47 + func % 64 * 2 ^ 41 + qid % 1024 * 2 ^ 31 + seq % 65536)
    cls := .k0 }

/-- Send a new QUEUE_RESET on a port and await its answer (R659). -/
def State.sendReset (s : State) (d : Die) (one : Bool) (item func qid : Nat) : State :=
  let p := s.ports[d]
  let m := queueResetMsg one item func qid p.seq
  let w : Awaiting := { msg := m, sends := 1 }
  let s := { s with ports := s.ports.set d { p with seq := (p.seq + 1) % 65536, resets := p.resets ++ [w] } }
  s.send d .hub m

/-! ## Bays -/

/-- Replace a bay as crew firmware knows it. -/
def State.setHubBay (s : State) (b : Bay) (x : HubBay) : State := { s with crew := { s.crew with bays := s.crew.bays.set b x } }

/-- Change the disc of a bay. -/
def State.mapDisc (s : State) (b : Bay) (f : BayDisc → BayDisc) : State :=
  s.setHubBay b { s.crew.bays[b] with disc := s.crew.bays[b].disc.map f }

/-- Open items of a bay. -/
def State.bayItems (s : State) (b : Bay) : List HubItem :=
  s.crew.items.filter fun x => decide (x.die = dieOfBay b) && x.bay == bayInDie b

/-- Whether a bay is recording: it works on a RECORD item (R470). -/
def State.bayRecording (s : State) (b : Bay) : Bool := (s.bayItems b).any fun x => x.kind == 2

/-- Whether a bay's disc has a generation pending (R412). -/
def State.genPending (s : State) (b : Bay) : Bool :=
  let x := s.crew.bays[b]
  x.gens != [] || (match x.disc with | some d => d.pendKeys != [] || d.pendExts != [] | none => false)

/-- Whether a bay is idle: nothing to do, no item on it (R470). -/
def State.bayIdle (s : State) (b : Bay) : Bool :=
  decide (s.crew.bays[b].task = .idle) && (s.bayItems b).isEmpty && !s.genPending b && s.crew.bays[b].unmountCmds.isEmpty

/-! ## Fills and recordings -/

/-- Work items of a fill and of a recording name the log by layer and number (R24, R65). -/
def logWord (log tail : Nat) : Nat := 2 ^ 32 * (log % logsPerLayer) + 2 ^ 28 * (log / logsPerLayer) + tail

/-- Send the READ item of a miss register to the bay that holds its disc (R353). -/
def State.sendFill (s : State) (m : Miss) (b : Bay) : State :=
  let (s, i) := s.sendWork (dieOfBay b) 1 m.cls (bayInDie b) m.func m.qid [logWord m.log (m.id * 2 ^ 16)] (.fill m.id)
  s.setMiss { m with item := some i, sentAt := s.clock }

/-- The RECORD_DATA message of a board (R26). -/
def recordDataMsg (cls lba item index bay : Nat) (system : Bool) (head payload : Bytes) : Msg :=
  { type := 0x28
    word := BitVec.ofNat 64 (lba % 2 ^ 32 * 2 ^ 32 + item % 65536 * 2 ^ 16 + index % 16 * 2 ^ 12 + bay % 2 * 2 ^ 11
      + b2n system * 2 ^ 10 + 514)
    cont := (fieldAt head 0 8 :: fieldAt head 8 8 :: (List.range 512).map fun w => fieldAt payload (8 * w) 8).map (BitVec.ofNat 64)
    cls := workClass cls }

/-- Send a RECORDING line to its bay: the item, then a RECORD_DATA for every board of the mask (R24, R26). -/
def State.sendRecord (s : State) (e : Nat) (b : Bay) (cls func qid : Nat) : State :=
  let l := s.line e
  let mask := s.suppliedMask l.slot l.log
  let d := dieOfBay b
  let (s, i) := s.sendWork d 2 cls (bayInDie b) func qid [logWord l.log (mask * 2 ^ 10)] (.record l.slot l.log)
  (bitIndices 16 mask).foldl (fun t j =>
    t.send d .hub (recordDataMsg cls (16 * l.log + j) i j (bayInDie b) false ((t.headOf l.slot (16 * l.log + j)).getD [])
      (t.readBytes 0 (entryAt e j) 4096))) s

/-- Function, queue and class of the recording of a line: those of the oldest command that waits on it, else none's (R24,
R446). -/
def State.lineOwner (s : State) (slot log : Nat) : Nat × Nat × Nat :=
  match s.qen.cmds.find? fun c => (c.opcode == 0x03 || c.opcode == 0x06) && c.lines.contains (slot, log) with
  | some c => (c.cls, c.func, c.qid)
  | none => (3, 0, 1023)

/-- Fills without an item whose disc is mounted in a bay go to it; a bay that takes no work ends them (R37, R38, R353). -/
def State.pumpFills (s : State) : State :=
  s.lnd.misses.foldl (fun t x =>
    match t.miss x.id with
    | none => t
    | some m =>
      if m.item.isSome ∨ m.closing ∨ (m.entry = none ∧ m.buf = none) ∨ !t.slotMounted m.slot then t
      else match t.bayOfSlot m.slot with
        | none => t
        | some b =>
          match t.dieBlocked (dieOfBay b) with
          | some st => t.fillOver m (.broken st) false false
          | none => if t.crew.bays[b].task = .idle ∧ t.crew.bays[b].unmountCmds = [] then t.sendFill m b else t) s

/-- RECORDING lines without an item go to the bay that holds their disc, mounted (R359, R446). -/
def State.pumpRecords (s : State) : State :=
  (s.linesIn .recording).foldl (fun t x =>
    let l := t.line x.1
    if t.crew.items.any (fun i => decide (i.what = .record l.slot l.log)) ∨ !t.slotMounted l.slot then t
    else match t.bayOfSlot l.slot with
      | none => t
      | some b =>
        match t.dieBlocked (dieOfBay b) with
        | some st => (t.settleLine l.slot l.log false).lineSettled l.slot l.log st
        | none =>
          let o := t.lineOwner l.slot l.log
          if t.crew.bays[b].task = .idle then t.sendRecord x.1 b o.1 o.2.1 o.2.2 else t) s

/-! ## Mounts -/

/-- The place code of a bay's tray (R309). -/
def trayOf (b : Bay) : Nat := 4096 + b.val

/-- Ask for a mount of a slot: it joins one under way (R470). -/
def State.wantMount (s : State) (slot : Nat) (bay : Option Bay) (cls func qid : Nat) (o : MountOwner) : State :=
  match s.crew.mounts.find? (·.slot = slot) with
  | some _ =>
    { s with crew := { s.crew with mounts := s.crew.mounts.map fun (j : MountJob) =>
        if j.slot = slot then { j with owners := if j.owners.contains o then j.owners else j.owners ++ [o]
                                       cls := min j.cls cls } else j } }
  | none => { s with crew := { s.crew with mounts := s.crew.mounts ++ [{ slot, bay, cls, func, qid, owners := [o] }] } }

/-- Replace a mount. -/
def State.setMount (s : State) (j : MountJob) : State :=
  { s with crew := { s.crew with mounts := s.crew.mounts.map fun (x : MountJob) => if x.slot = j.slot then j else x } }

/-- A mount of a slot under way. -/
def State.mountOf (s : State) (slot : Nat) : Option MountJob := s.crew.mounts.find? (·.slot = slot)

/-- Set what crew firmware is doing with a bay. -/
def State.setTask (s : State) (b : Bay) (t : BayTask) : State := s.setHubBay b { s.crew.bays[b] with task := t }

/-- Spin up the disc seated in a bay: the MOUNT item (R24, R318). -/
def State.spinUp (s : State) (j : MountJob) (b : Bay) : State :=
  let old : BayDisc := match s.crew.bays[b].disc with
    | some d => if d.slot = j.slot then d else { slot := j.slot }
    | none => { slot := j.slot }
  let disc : BayDisc := { old with mounted := false, measured := none, bark := none, gen := none, sys := [], orphan := false,
                                   logs := 0, fails := 0, passes := 0, keysGot := 0 }
  let s := s.setHubBay b { s.crew.bays[b] with task := .mounting, disc := some disc }
  (s.sendWork (dieOfBay b) 4 j.cls (bayInDie b) j.func j.qid [] (.mount j.slot)).1.setMount
    { j with bay := some b, stage := .reading }

/-- Fetch a disc into an empty bay: the TRANSFER item (R24, R313). -/
def State.fetchDisc (s : State) (j : MountJob) (b : Bay) : State :=
  ((s.setTask b .mounting).sendWork 1 6 j.cls 0 j.func j.qid [j.slot * 2 ^ 51 + trayOf b * 2 ^ 38] (.fetch j.slot)).1.setMount
    { j with bay := some b, stage := .fetching }

/-- Return a bay's stopped disc to its slot (R471). -/
def State.returnDisc (s : State) (b : Bay) (cls func qid : Nat) : State :=
  match s.crew.bays[b].disc with
  | none => s
  | some d => (s.sendWork 1 6 cls 0 func qid [trayOf b * 2 ^ 51 + d.slot * 2 ^ 38] (.putBack b)).1

/-- Take an idle disc out of a bay: stop its spindle when it is mounted, then return it (R470, R471). -/
def State.clearBay (s : State) (b : Bay) (cls func qid : Nat) : State :=
  let s := s.setTask b .unmounting
  match s.crew.bays[b].disc with
  | none => s
  | some d =>
    if d.mounted then (s.sendWork (dieOfBay b) 5 cls (bayInDie b) func qid [] (.unmount b)).1
    else s.returnDisc b cls func qid

/-- The bay that a mount can take now: the one that holds its disc, the one named, else an empty one, else one whose disc is
idle (R470). -/
def State.mountBay (s : State) (j : MountJob) : Option Bay :=
  let ok : Bay → Bool := fun b => s.hasBay b && s.bayIdle b && (s.dieBlocked (dieOfBay b)).isNone
  match s.bayOfSlot j.slot with
  | some b => if s.crew.bays[b].task = .idle then some b else none
  | none =>
    let l := match j.bay with
      | some b => [b]
      | none => if s.code = Code.bz2a then (List.finRange 12).filter fun b => b.val == j.slot else List.finRange 12
    match l.find? fun b => ok b && s.crew.bays[b].disc.isNone with
    | some b => some b
    | none => l.find? ok

/-- Start one waiting mount if a bay can take it. -/
def State.startMount (s : State) (j : MountJob) : State :=
  match s.mountBay j with
  | none => s
  | some b =>
    match s.crew.bays[b].disc with
    | some d =>
      if d.slot = j.slot then s.spinUp j b
      else (s.clearBay b j.cls j.func j.qid).setMount { j with bay := some b, stage := .clearing }
    | none => if s.code = Code.bz2a then s.spinUp j b else s.fetchDisc j b

/-- Start the waiting mounts, in class order (R470). -/
def State.pumpMounts (s : State) : State :=
  let s := { s with crew := { s.crew with mounts := s.crew.mounts.filter fun (j : MountJob) => j.owners ≠ [] ∨ j.stage ≠ .waiting } }
  let l := s.crew.mounts.filter fun (j : MountJob) => decide (j.stage = .waiting)
  ((List.range 4).flatMap fun k => l.filter fun (j : MountJob) => j.cls == k).foldl (fun t j =>
    match t.mountOf j.slot with
    | some j => if j.stage = .waiting then t.startMount j else t
    | none => t) s

/-- Slots whose disc fills and recordings need mounted (R353). -/
def State.wantedSlots (s : State) : List (Nat × Nat × Nat × Nat) :=
  (s.lnd.misses.filter fun m => m.item.isNone && !m.closing && (m.entry.isSome || m.buf.isSome)).map
      (fun m => (m.slot, m.cls, m.func, m.qid))
    ++ (s.linesIn .recording).map fun e => let o := s.lineOwner e.2.slot e.2.log; (e.2.slot, o.1, o.2.1, o.2.2)

/-- Ask for every mount that fills and recordings need; a bay whose unmount is under way gets none until it has ended
(R353, R471). -/
def State.wantMounts (s : State) : State :=
  s.wantedSlots.foldl (fun t x =>
    let busy := match t.bayOfSlot x.1 with
      | some b => decide (t.crew.bays[b].task = .unmounting) || t.crew.bays[b].unmountCmds != []
      | none => false
    if t.slotMounted x.1 || busy then t else t.wantMount x.1 none x.2.1 x.2.2.1 x.2.2.2 .fills) s

/-! ## Generations (R67, R409–R412) -/

/-- The generation that comes next for a disc: the one before it with what is pending added (R67, R411, R412). -/
def State.nextGen (s : State) (base : Option Generation) (d : BayDisc) : Generation :=
  let old : Generation := base.getD
    { gen := 0, serial := d.drawn.getD 0, time := 0, recorder := s.deviceId, highLog := d.high,
      helper := barkHelper (d.measured.getD 0), keys := [], dir := [] }
  let keys := old.keys ++ d.pendKeys
  let seq := fun title => (old.dir.filter (·.title = title)).length
  let dir := d.pendExts.foldl (fun (l : List DirEntry) e =>
    l ++ [{ title := e.title, seq := seq e.title + ((l.drop old.dir.length).filter (·.title = e.title)).length,
            firstLba := e.lba, count := e.count, offset := e.off,
            keyIdx := (keys.findIdx? (·.title = e.title)).getD 0, time := s.now }]) old.dir
  { old with gen := match base with | some g => g.gen + 1 | none => 0
             time := s.now, recorder := s.deviceId, highLog := d.high, keys, dir }

/-- The last generation of a bay's disc, recorded or still to be recorded. -/
def HubBay.lastGen (x : HubBay) : Option Generation :=
  match x.gens.getLast? with
  | some g => some g.gen
  | none => x.disc.bind (·.gen)

/-- Begin the recording of a disc's next generation (R412). -/
def State.startGen (s : State) (b : Bay) (cause : GenCause) (cls : Nat) : State :=
  match s.crew.bays[b].disc with
  | none => s
  | some d =>
    s.setHubBay b { s.crew.bays[b] with
      disc := some { d with pendKeys := [], pendExts := [] }
      gens := s.crew.bays[b].gens ++ [{ gen := s.nextGen s.crew.bays[b].lastGen d, layers := [0, 15], cause, cls }] }

/-- Send the next copy of a bay's generation: a RECORD item of a system log and its sixteen boards (R24, R26, R67). -/
def State.sendGen (s : State) (b : Bay) : State :=
  match s.crew.bays[b].gens with
  | g :: rest =>
    match g.layers with
    | layer :: _ =>
      if g.sent then s
      else
        let d := dieOfBay b
        let word := g.gen.gen * 2 ^ 32 + layer * 2 ^ 28 + 1 * 2 ^ 26 + 0xFFFF * 2 ^ 10
        let (s, i) := s.sendWork d 2 g.cls (bayInDie b) 0 1023 [word] (.generation b layer)
        let s := s.setHubBay b { s.crew.bays[b] with gens := { g with sent := true } :: rest }
        (systemBoards g.gen layer).zipIdx.foldl (fun t (bd, j) =>
          t.send d .hub (recordDataMsg g.cls (32 * g.gen.gen + j) i j (bayInDie b) true (bd.take 16) (boardPayload bd))) s
    | [] => s
  | [] => s

/-! ## Unmounts (R471) -/

/-- Go on with a bay's unmount once its items have ended: record what is pending, then stop and return the disc. -/
def State.pumpUnmount (s : State) (b : Bay) : State :=
  let x := s.crew.bays[b]
  match x.unmountCmds.head?.bind s.cmd, x.disc with
  | some c, some d =>
    if x.task ≠ .idle ∨ s.bayItems b ≠ [] ∨ x.gens ≠ [] then s
    else if d.pendKeys ≠ [] ∨ d.pendExts ≠ [] then s.startGen b .unmount c.cls
    else s.clearBay b c.cls c.func c.qid
  | _, _ => s

/-- Send whatever work can be sent; an activation lets recordings alone start (R557). -/
def State.pump (s : State) : State :=
  if s.fwu.act.isSome then (if s.fieldReady then s.pumpRecords else s)
  else if s.fieldReady then (List.finRange 12).foldl State.pumpUnmount s.wantMounts.pumpFills.pumpRecords |>.pumpMounts else s

end Sys2Proof.Machine
end

