-- ==== Sys2Proof/Machine/RangeOps.lean ====
section
/-! DEFINITION. The range engine, the window and the patrol (chapters 11 and 12). -/
namespace Sys2Proof.Machine

/-! ## Refills (R28, R353, R354, R446) -/

/-- End a fill as R354 has it: its waiters fail with a status, its entry is given up, and its register waits until the die
has answered the QUEUE_RESET that names its item. -/
def State.abandonFill (s : State) (m : Miss) (st : Nat) : State :=
  match m.item, s.crew.items.find? fun (i : HubItem) => decide (i.what = .fill m.id) && some i.item == m.item with
  | some _, some i => (s.fillOver m (.broken st) true false).sendReset i.die true i.item 0 0
  | _, _ => s.fillOver m (.broken st) false false

/-- A fill whose messages were refused or whose boards are not complete is reissued once, then given up (R28, R353). -/
def State.refill (s : State) (m : Miss) : State :=
  if m.again then s.abandonFill m stAbort
  else (s.setMiss { m with again := true, item := none }).bump (hubAt .lnd) F.LND_CNT2_REFILLS

/-- A tag entry is lost to an uncorrectable block: it becomes INVALID and unlocked, and a fill into it is reissued (R386). -/
def State.loseTag (s : State) (e : Nat) : State :=
  let l := s.line e
  let s := (s.setLine e {}).raiseHub 0x0B02 0 (e / 16) (e % 16)
  let s := if l.st = .dirty then (s.dropHeads l.slot l.log).lineSettled l.slot l.log stUncorrectable else s
  match s.missAt e with
  | some m => s.refill { m with begun := false, kind := .miss }
  | none => s

/-- The landing controller reads the tags of a set (R349, R382, R386). -/
def State.checkTags (s : State) (slot log : Nat) : State :=
  (s.setEntries slot log).foldl (fun t e =>
    let (t, bad) := t.checkRange 2 (8 * e) 8 0
    if bad = [] then t else (t.setFlips (unitKey 2 (8 * e)) 0).loseTag e) s

/-! ## Range engine -/

/-- Logs of an operation on one slot (R368). -/
def RangeOp.logs (o : RangeOp) : Nat := if o.count = 0 then 0 else (o.lba + o.count - 1) / 16 - o.lba / 16 + 1

/-- Whether a key lies in an operation's range (R368). -/
def RangeOp.holds (o : RangeOp) (slot log : Nat) : Bool :=
  decide (o.slot ≤ slot ∧ slot < o.slot + o.slots) && decide (o.lba / 16 ≤ log ∧ log < o.lba / 16 + o.logs)

/-- The range checks of R368. -/
def State.rangeOk (s : State) (o : RangeOp) : Bool :=
  decide (o.slot + o.slots ≤ 4096) && decide (o.lba + o.count ≤ lbaEnd)
    && (s.lndOn || !(o.kind == .preload || o.kind == .preloadLock))

/-- Count lines in the summary. -/
def State.rangeDid (s : State) (n : Nat) : State := s.bumpBy (hubAt .lnd) F.LND_RANGE_SUM0_LINES_DONE n

/-- INVALIDATE acts on one tag entry (R370). -/
def invalidateEntry (force : Bool) (s : State) (x : Nat × Line) : State :=
  let a := hubAt .lnd
  let l := x.2
  match l.st with
  | .invalid => s
  | .dirty | .recording => s.bump a F.LND_RANGE_SUM1_SKIP_DIRTY
  | .filling | .evicting => s.bump a F.LND_RANGE_SUM2_SKIP_BUSY
  | .clean =>
    if !l.lock then (s.setLine x.1 {}).rangeDid 1
    else if force then ((s.setLine x.1 (emptied l)).rangeDid 1).bump a F.LND_RANGE_SUM3_FORCED_LOCKED
    else s.bump a F.LND_RANGE_SUM1_SKIP_LOCKED

/-- UNLOCK acts on one tag entry (R370). -/
def unlockEntry (s : State) (x : Nat × Line) : State :=
  if x.2.lock then (s.setLine x.1 (if x.2.st = .invalid then {} else { x.2 with lock := false })).rangeDid 1 else s

/-- Read, check and mend every word of a range of the landing: words corrected and found uncorrectable, in address order
(R390, R392). -/
def State.scrub (s : State) (a n req : Nat) : State × List Nat × List Nat :=
  (s.dirtyUnits 0 a n).foldl (fun (t, ce, ue) e =>
    match checkA e.2 with
    | .good => (t, ce, ue)
    | .mended _ =>
      let t := t.countCe 0 req e.1 e.2
      (t.writeBytes 0 e.1 (t.readBytes 0 e.1 8), ce ++ [e.1], ue)
    | .bad => (t.countUe 1 0 req e.1 e.2, ce, ue ++ [e.1])) (s, [], [])

/-- Set a 64-bit number shown in two registers. -/
def State.putWide (s : State) (a : Nat) (lo hi : Field) (v : Nat) : State := (s.put a lo (v % 2 ^ 32)).put a hi (v / 2 ^ 32)

/-- A 64-bit number shown in two registers. -/
def State.getWide (s : State) (a : Nat) (lo hi : Field) : Nat := hiLo (s.get a lo) (s.get a hi)

/-- SCRUB acts on one tag entry (R370, R392). -/
def scrubEntry (s : State) (x : Nat × Line) : State :=
  if x.2.st ≠ .clean ∧ x.2.st ≠ .dirty ∧ x.2.st ≠ .recording then s
  else
    let m := hubAt .miu
    let first := s.get m F.MIU_SCRUB_CE_COUNT + s.get m F.MIU_SCRUB_UE_COUNT = 0
    let (s, ce, ue) := s.scrub (entryAt x.1 0) 65536 7
    let s := (s.bumpBy m F.MIU_SCRUB_CE_COUNT ce.length).bumpBy m F.MIU_SCRUB_UE_COUNT ue.length
    let w := s.getWide m F.MIU_SCRUB_WORDS_LO_WORDS_LO F.MIU_SCRUB_WORDS_HI_WORDS_HI + 8192
    let s := s.putWide m F.MIU_SCRUB_WORDS_LO_WORDS_LO F.MIU_SCRUB_WORDS_HI_WORDS_HI w
    let lo := (ce ++ ue).foldl min (2 ^ 38)
    let hi := (ce ++ ue).foldl max 0
    let s := if first ∧ ce ++ ue ≠ [] then s.putWide m F.MIU_SCRUB_FIRST_LO_ADDR_LO F.MIU_SCRUB_FIRST_HI_ADDR_HI lo else s
    let s := if ce ++ ue ≠ [] then s.putWide m F.MIU_SCRUB_LAST_LO_ADDR_LO F.MIU_SCRUB_LAST_HI_ADDR_HI hi else s
    s.rangeDid 1

/-- Walk the tags of an operation (R370). -/
def State.tagWalk (s : State) (o : RangeOp) : State :=
  let l := s.lnd.tags.filter fun x => o.holds x.2.slot x.2.log
  match o.kind with
  | .invalidate =>
    let s := l.foldl (invalidateEntry o.force) s
    { s with lnd := { s.lnd with copies := s.lnd.copies.filter fun (c : Copy) => !o.holds c.slot c.log } }
  | .unlock => l.foldl unlockEntry s
  | .scrub => l.foldl scrubEntry s
  | .clean =>
    let ks := (l.filter fun x => decide (x.2.st = .dirty) || decide (x.2.st = .recording)).map fun x => (x.2.slot, x.2.log)
    let s := { s with lnd := { s.lnd with range := s.lnd.range.map fun (r : RangeRun) => { r with lines := ks } } }
    (s.rangeDid ks.length).handOverKeys ks
  | _ => s

/-- Issue fills of a preload while registers are left (R352, R370). -/
def pumpRangeN : Nat → State → State
  | 0, s => s
  | n + 1, s =>
    match s.lnd.range with
    | none => s
    | some x =>
      let o := x.op
      let lock := o.kind = .preloadLock
      if (o.kind ≠ .preload ∧ !lock) ∨ !s.lndOn ∨ o.logs * o.slots ≤ x.next ∨ !s.regFree o.cls true then s
      else
        let slot := o.slot + x.next / o.logs
        let log := o.lba / 16 + x.next % o.logs
        let x := { x with next := x.next + 1 }
        if s.slots ≤ slot then pumpRangeN n { s with lnd := { s.lnd with range := some x } }
        else
          let s := { s with lnd := { s.lnd with range := some { x with lines := x.lines ++ [(slot, log)] } } }
          let own : Nat × Nat := match o.cmd.bind s.cmd with | some c => (c.func, c.qid) | none => (0, 1023)
          pumpRangeN n ((s.rangeDid 1).request
            { owner := .engine, slot, log, boards := 0, cls := o.cls, func := own.1, qid := own.2, lock })

/-- Issue the fills that can be issued. -/
def State.pumpRange (s : State) : State :=
  match s.lnd.range with
  | some x => pumpRangeN (x.op.logs * x.op.slots - x.next) s
  | none => s

/-- Everything that may go on after a change goes on: fills of a preload, mounts, work items. -/
def State.settleWork (s : State) : State := s.pumpRange.pump

/-- Start an operation: the summaries are cleared and the walk begins (R369, R370, R392). -/
def State.startRange (s : State) (o : RangeOp) : State :=
  let a := hubAt .lnd
  let m := hubAt .miu
  let zero := fun (l : List Field) (a : Nat) (t : State) => l.foldl (fun t f => t.put a f 0) t
  let s := zero [F.LND_RANGE_SUM0_LINES_DONE, F.LND_RANGE_SUM1_SKIP_LOCKED, F.LND_RANGE_SUM1_SKIP_DIRTY,
    F.LND_RANGE_SUM2_SKIP_BUSY, F.LND_RANGE_SUM2_LOCK_FULL, F.LND_RANGE_SUM3_LINES_FAILED, F.LND_RANGE_SUM3_FORCED_LOCKED] a s
  let s := if o.kind = .scrub then
      zero [F.MIU_SCRUB_WORDS_LO_WORDS_LO, F.MIU_SCRUB_WORDS_HI_WORDS_HI, F.MIU_SCRUB_CE_COUNT, F.MIU_SCRUB_UE_COUNT,
        F.MIU_SCRUB_FIRST_LO_ADDR_LO, F.MIU_SCRUB_FIRST_HI_ADDR_HI, F.MIU_SCRUB_LAST_LO_ADDR_LO, F.MIU_SCRUB_LAST_HI_ADDR_HI] m s
    else s
  let s := s.put a F.LND_RANGE_STATUS_LAST_OP o.kind.code
  let s := { s with lnd := { s.lnd with range := some { op := o } } }
  (s.tagWalk o).settleWork

/-- A START by register of an operation with its parameters (R368, R369). -/
def State.rangeStart (s : State) (kind : Option RangeKind) (force : Bool) (cls slots : Nat) : State :=
  let a := hubAt .lnd
  if s.lnd.range.isSome then s.put a F.LND_RANGE_STATUS_ERR_BUSY 1
  else
    let s := ((s.put a F.LND_RANGE_CTL_FORCE (b2n force)).put a F.LND_RANGE_CTL_CLASS cls).put a F.LND_RANGE_CTL_SLOTS slots
    match kind with
    | none => s.put a F.LND_RANGE_STATUS_ERR_ARG 1
    | some k =>
      let s := s.put a F.LND_RANGE_CTL_OP k.code
      let o : RangeOp := { kind := k, slot := s.get a F.LND_RANGE_SLOT_SLOT, slots, lba := s.get a F.LND_RANGE_LBA_LBA,
                           count := s.get a F.LND_RANGE_COUNT_COUNT, cls, force }
      if s.rangeOk o then s.startRange o else s.put a F.LND_RANGE_STATUS_ERR_ARG 1

/-- The summary of a range command, its RESULT and its status (R480). -/
def State.rangeReport (s : State) (o : RangeOp) : Bytes × Nat × Nat :=
  let a := hubAt .lnd
  let m := hubAt .miu
  let done := s.get a F.LND_RANGE_SUM0_LINES_DONE
  let failed := s.get a F.LND_RANGE_SUM3_LINES_FAILED
  match o.kind with
  | .scrub =>
    let ue := s.get m F.MIU_SCRUB_UE_COUNT
    (leBytes 8 (s.getWide m F.MIU_SCRUB_WORDS_LO_WORDS_LO F.MIU_SCRUB_WORDS_HI_WORDS_HI)
      ++ leBytes 4 (s.get m F.MIU_SCRUB_CE_COUNT) ++ leBytes 4 ue
      ++ leBytes 8 (s.getWide m F.MIU_SCRUB_FIRST_LO_ADDR_LO F.MIU_SCRUB_FIRST_HI_ADDR_HI)
      ++ leBytes 8 (s.getWide m F.MIU_SCRUB_LAST_LO_ADDR_LO F.MIU_SCRUB_LAST_HI_ADDR_HI) ++ leBytes 4 done ++ leBytes 4 0,
     stSuccess, ue)
  | k =>
    let bytes := leBytes 4 done
      ++ leBytes 2 (s.get a F.LND_RANGE_SUM1_SKIP_DIRTY) ++ leBytes 2 (s.get a F.LND_RANGE_SUM1_SKIP_LOCKED)
      ++ leBytes 2 (s.get a F.LND_RANGE_SUM2_LOCK_FULL) ++ leBytes 2 (s.get a F.LND_RANGE_SUM2_SKIP_BUSY)
      ++ leBytes 2 (s.get a F.LND_RANGE_SUM3_FORCED_LOCKED) ++ leBytes 2 failed
    let st := if failed = 0 then stSuccess
              else match k with
                | .preload | .preloadLock => stUnreadable
                | .clean => stFault
                | _ => stSuccess
    (bytes, st, done)

/-- The first waiting range command that can start does; a preload cannot while the landing is disabled (R371, R480). -/
def startWaiting : List RangeOp → State → State
  | [], s => s
  | o :: rest, s =>
    let s := { s with lnd := { s.lnd with queue := rest } }
    if s.rangeOk o then s.startRange o
    else startWaiting rest (match o.cmd.bind s.cmd with | some c => s.finish c stNotPermitted 0 | none => s)

/-- The next waiting range command starts (R371). -/
def State.nextRange (s : State) : State := startWaiting s.lnd.queue s

/-- The running operation ends (R369, R480). -/
def State.endRange (s : State) : State :=
  match s.lnd.range with
  | none => s
  | some x =>
    let a := hubAt .lnd
    let s := { s with lnd := { s.lnd with range := none, parked := s.lnd.parked.filter fun p => p.1.owner ≠ Owner.engine } }
    let s := if s.has a F.LND_RANGE_STATUS_DONE then s else (s.put a F.LND_RANGE_STATUS_DONE 1).epEvt 0
    let s := match x.op.cmd.bind s.cmd with
      | some c =>
        let r := s.rangeReport x.op
        (s.hostWrite c.func c.buffer r.1 true).finish c r.2.1 r.2.2
      | none => s
    s.nextRange

/-- A command's operation: it starts, or waits for the engine (R371). -/
def State.commandRange (s : State) (o : RangeOp) : State :=
  if s.lnd.range.isSome then { s with lnd := { s.lnd with queue := s.lnd.queue ++ [o] } } else s.startRange o

/-! ## The window (R363–R367) -/

/-- Ways in a mask. -/
def waysOf (mask : Nat) : List Nat := bitIndices 16 mask

/-- Whether a way is retired and holds no line (R363). -/
def State.wayEmpty (s : State) (w : Nat) : Bool :=
  bitOf (s.get (hubAt .lnd) F.LND_WAY_RETIRE_RETIRE) w && s.lnd.tags.all fun e => decide (e.1 % 16 ≠ w ∨ e.2.st = .invalid)

/-- The window checks of R365 on the staged set. -/
def State.windowOk (s : State) : Bool :=
  let a := hubAt .lnd
  let size := s.stagedVal a F.LND_WIN_MAP_SIZE_LOG2
  let base := s.stagedVal a F.LND_WIN_MAP_BASE * 2 ^ 20
  let ways := s.stagedVal a F.LND_WIN_WAYS_WAYS
  let old := s.get a F.LND_WIN_WAYS_WAYS
  let ap := s.get (hubAt .ep) F.EP_BAR2_CFG_APERTURE_LOG2
  let n := (waysOf ways).length
  let retired := (waysOf (s.get a F.LND_WAY_RETIRE_RETIRE ||| old)).filter fun w => !bitOf ways w
  (size == 0 || (decide (20 ≤ size ∧ size ≤ ap) && decide (2 ^ size ≤ n * 2 ^ (s.lndS + 16)) && base % 2 ^ size == 0
      && decide (base + 2 ^ size ≤ 2 ^ ap)))
    && decide (n ≤ 8) && (waysOf ways).all (fun w => bitOf old w || s.wayEmpty w)
    && decide (s.get a F.LND_CFG_LOCK_MAX + n + retired.length ≤ 12)

/-- The commit point: the pending set becomes active; ways that join leave the retired set, and ways that leave become retired
(R365, R366). -/
def State.commitWindow (s : State) : State :=
  let a := hubAt .lnd
  let old := s.get a F.LND_WIN_WAYS_WAYS
  let s := s.activate .lndWindow
  let new := s.get a F.LND_WIN_WAYS_WAYS
  let r := s.get a F.LND_WAY_RETIRE_RETIRE ||| old
  (waysOf (r &&& new)).foldl (fun t w => t.put a F.LND_WAY_RETIRE_RETIRE (putBit (t.get a F.LND_WAY_RETIRE_RETIRE) w false))
    (s.put a F.LND_WAY_RETIRE_RETIRE r)

/-- Landing byte address of a BAR2 offset in the active window (R364). -/
def State.windowAddr (s : State) (b len : Nat) : Option Nat :=
  let a := hubAt .lnd
  let size := s.get a F.LND_WIN_MAP_SIZE_LOG2
  let base := s.get a F.LND_WIN_MAP_BASE * 2 ^ 20
  if size = 0 ∨ b < base ∨ base + 2 ^ size < b + len then none
  else
    let o := b - base
    ((waysOf (s.get a F.LND_WIN_WAYS_WAYS))[o / 2 ^ (s.lndS + 16)]?).map fun w =>
      entryAt (16 * (o / 65536 % 2 ^ s.lndS) + w) 0 + o % 65536

/-- Refuse a BAR2 request (R367, R495). -/
def State.winRefused (s : State) (r : WinReq) : State :=
  let a := hubAt .lnd
  let s := s.bump a F.LND_WIN_UR_UR_COUNT
  let s := s.put a F.LND_WIN_UR_LAST_RID r.rid
  let s := s.putWide a F.LND_WIN_UR_OFS_LO_OFS_LO F.LND_WIN_UR_OFS_HI_OFS_HI r.ofs
  let s := s.aer 0 (if r.poisoned then .poisoned else .unsupportedRequest)
  if r.data.isSome then s else s.emit (.unsupported 0)

/-- Serve a BAR2 request (R364–R367, R386, R394, R416, R418, R495, R505, R507). -/
def State.winServe (s : State) (r : WinReq) : State :=
  if (s.fn 0).d3 then
    let s := s.aer 0 .unsupportedRequest
    if r.data.isSome then s else s.emit (.unsupported 0)
  else if r.poisoned ∨ s.pwr.boot ≠ .ready then s.winRefused r
  else
    match s.windowAddr r.ofs r.len with
    | none => s.winRefused r
    | some a =>
      if !s.allowed 6 (landingAt + a) r.data.isSome then (s.winRefused r).pevLog (landingAt + a) 6 r.data.isSome false
      else
        match r.data with
        | some bs => (s.storeBytes 0 a bs 1).inject 0 0 a
        | none =>
          let (s, bad) := s.checkRange 0 a r.len 1
          if bad ≠ [] then (s.aer 0 .completerAbort).emit (.abort 0)
          else
            let m := (s.fn 0).cfg.mps
            let ido := s.has (hubAt .ep) F.EP_ORDER_MODE && (s.fn 0).cfg.idoCpl
            (cutBytes m m r.len r.ofs (s.readBytes 0 a r.len)).foldl (fun t p => t.emit (.completion 0 p.2 ido)) s

/-! ## Patrol -/

/-- Bytes of landing memory (R347). -/
def State.lndBytes (s : State) : Nat := 2 ^ (s.lndS + 20)

/-- The lap so far is longer than LAP_WARN: said once (R391). -/
def State.lapWarn (s : State) : State :=
  let a := hubAt .miu
  if !s.miu.warned ∧ s.get a F.MIU_CTL_LAP_WARN * 60 * 10 ^ 9 < s.clock - s.miu.lapAt then
    let s := (s.put a F.MIU_STATUS_LAP_SLOW 1).raiseHub 0x0B03 0 0xFFFF
    { s with miu := { s.miu with warned := true } }
  else s

/-- The patrol goes on to the next burst; at the end of a lap its time is taken (R389, R391). -/
def State.patrolNext (s : State) : State :=
  let a := hubAt .miu
  let p := s.miu.pos + 128
  if p < s.lndBytes then
    ({ s with miu := { s.miu with pos := p } } : State).put a F.MIU_PATROL_POS_POS (p / 65536)
  else
    let t := (s.clock - s.miu.lapAt + 5 * 10 ^ 7) / 10 ^ 8
    let s := ((s.put a F.MIU_LAP_TIME_LAP t).bump a F.MIU_CNT_LAPS).put a F.MIU_PATROL_POS_POS 0
    { s with miu := { s.miu with pos := 0, lapAt := s.clock, warned := false } }

/-- Write MIU_INJECT; a value out of range is refused with ARM left 0 (R394, R395). -/
def State.injectWrite (s : State) (w : Word) : State :=
  let a := hubAt .miu
  let f0 := F.MIU_INJECT_F0.of w
  let f1 := F.MIU_INJECT_F1.of w
  let top := if F.MIU_INJECT_TARGET.of w = 1 then 63 else 71
  if top < f0 ∨ top < f1 then s
  else
    [F.MIU_INJECT_ARM, F.MIU_INJECT_TARGET, F.MIU_INJECT_F1_EN, F.MIU_INJECT_F1, F.MIU_INJECT_F0_EN, F.MIU_INJECT_F0].foldl
      (fun t f => t.put a f (f.of w)) s

end Sys2Proof.Machine
end

