-- ==== Sys2Proof/Machine/DirOps.lean ====
section
/-! DEFINITION. Discs as the vault lock reads them (R67–R74, R406, R407, R409–R412, R421–R425): keys, directories, lookups of
boards, and what a disc may still take. -/
namespace Sys2Proof.Machine

/-! ## Keys and directories -/

/-- The title key of a key entry, under a disc's signature (R74, R405, R407). -/
def State.unwrapKey (s : State) (bark : Option Nat) (k : KeyEntry) : Option Bytes :=
  match bark, s.rootOf k.rootId with
  | some sig, some r => Config.unwrap (s.kek r sig) k.wrapped
  | _, _ => none

/-- Install every key that a disc's key block yields: the keys unwrapped (R407). -/
def State.installKeys (s : State) (slot : Nat) (bark : Option Nat) (keys : List KeyEntry) : State × Nat :=
  keys.foldl (fun (acc : State × Nat) k =>
    match acc.1.unwrapKey bark k with
    | none => acc
    | some key =>
      match acc.1.installKey k.title key with
      | (t, .conflict _) => (t.keyConflict slot k.title, acc.2 + 1)
      | (t, _) => (t, acc.2 + 1)) (s, 0)

/-- The key entries of a disc's active generation. -/
def BayDisc.keys (d : BayDisc) : List KeyEntry := match d.gen with | some g => g.keys | none => []

/-- Whether a disc has key entries or extents pending (R412). -/
def BayDisc.hasPending (d : BayDisc) : Bool := d.pendKeys != [] || d.pendExts != []

/-- The SERIAL that counts for a disc: its generation's; 0 with data and no generation; else the one drawn (R425, R474). -/
def BayDisc.serial (d : BayDisc) : Nat :=
  match d.gen with
  | some g => g.serial
  | none => if d.orphan then 0 else d.drawn.getD 0

/-- Key entries with their indices. -/
def Generation.keyList (g : Generation) : List (Nat × KeyEntry) := (List.range g.keys.length).zip g.keys

/-- Whether a disc's key of a title differs from the one that the title's key slot holds (R407). -/
def State.conflicts (s : State) (d : BayDisc) (g : Generation) (title : Nat) : Bool :=
  match s.vlk.keys.find? (·.title = title) with
  | some k => g.keys.any fun e => e.title == title && (match s.unwrapKey d.bark e with | some key => key != k.key | none => false)
  | none => false

/-- The extents that a disc's directory gives, those of conflicting titles CONFLICT (R71, R407, R421). -/
def State.extentsOf (s : State) (d : BayDisc) : List Extent :=
  match d.gen with
  | none => []
  | some g =>
    (g.dir.filter fun e => !dirIgnored g.keyList e).map fun e =>
      { title := e.title, offset := e.offset, count := e.count, slot := d.slot, lba := e.firstLba, keyIdx := e.keyIdx
        serial := g.serial, st := if s.conflicts d g e.title then .conflict else .valid }

/-- Directory entries that a mount ignores (R71). -/
def BayDisc.ignored (d : BayDisc) : List DirEntry :=
  match d.gen with
  | none => []
  | some g => g.dir.filter (dirIgnored g.keyList)

/-- Read the directory of a mounted disc: its keys go into slots and its records replace the slot's (R407, R423). -/
def State.readDirectory (s : State) (d : BayDisc) : State × Nat :=
  let (s, n) := s.installKeys d.slot d.bark d.keys
  let s := s.mirror d.slot (s.extentsOf d)
  ({ s with vlk := { s.vlk with serials := assocPut s.vlk.serials d.slot d.serial } }, n)

/-! ## Boards by title -/

/-- Title-relative boards of a READ or of a PRELOAD by title. -/
def Cmd.titleBoards (c : Cmd) : List Nat := (List.range c.count).map (c.word 4 + ·)

/-- The extent of a board: as it resolves, or one that a lookup has just read and the mirror had no room for (R403, R421,
R422, R424). -/
def State.findExtent (s : State) (read : List Nat) (title b : Nat) : Option Extent :=
  match s.resolve title b with
  | some e => some e
  | none => read.findSome? fun slot =>
      (s.bayOfSlot slot).bind fun y => s.crew.bays[y].disc.bind fun d =>
        if d.mounted then (s.extentsOf d).find? fun e => e.covers title b && decide (e.st = .valid) else none

/-- Where a title board lies: index in the command, slot, log and LBA. -/
def located (c : Cmd) (b : Nat) (e : Extent) : Nat × Nat × Nat × Nat :=
  (b - c.word 4, e.slot, (e.lba + (b - e.offset)) / 16, e.lba + (b - e.offset))

/-- Logs of a list of boards, each once, in order. -/
def logsOf (l : List (Nat × Nat × Nat × Nat)) : List (Nat × Nat) := (l.map fun b => (b.2.1, b.2.2.1)).eraseDups

/-- Ask the landing for the boards of a command that lie in a list of logs (R351). -/
def State.askLogs (s : State) (id : Nat) (logs : List (Nat × Nat)) : State :=
  logs.foldl (fun t k =>
    match t.cmd id with
    | none => t
    | some c =>
      let mask := (c.inLog k.1 k.2).foldl (fun m b => m ||| 2 ^ (b.2.2.2 % 16)) 0
      if mask = 0 then t
      else (t.checkTags k.1 k.2).request
        { owner := .cmd id, slot := k.1, log := k.2, boards := mask, cls := c.cls, func := c.func, qid := c.qid }) s

/-- Ask the landing for logs that a PRELOAD is to bring in (R361, R463). -/
def State.askPreload (s : State) (id : Nat) (logs : List (Nat × Nat)) : State :=
  logs.foldl (fun t k =>
    match t.cmd id with
    | none => t
    | some c =>
      if !c.lines.contains k then t
      else (t.checkTags k.1 k.2).request
        { owner := .cmd id, slot := k.1, log := k.2, boards := 0, cls := c.cls, func := c.func, qid := c.qid
          lock := bitOf (c.word 7) 1 }) s

/-- Boards of a title command that have an extent are asked for: by a READ as boards, by a PRELOAD as logs (R422, R463). -/
def State.takeBoards (s : State) (id title : Nat) (read boards : List Nat) : State :=
  match s.cmd id with
  | none => s
  | some c =>
    let l := boards.filterMap fun b => (s.findExtent read title b).map (located c b)
    if c.opcode = 0x01 then
      (s.setCmd { c with boards := c.boards ++ l }).askLogs id (logsOf l)
    else if c.opcode = 0x04 then
      let new := (logsOf l).filter fun k => !c.lines.contains k
      (s.setCmd { c with lines := c.lines ++ new }).askPreload id new
    else s

/-! ## Foreground lookups (R424) -/

/-- Replace a lookup. -/
def State.setLookup (s : State) (k : Lookup) : State :=
  { s with vlk := { s.vlk with lookups := s.vlk.lookups.map fun (x : Lookup) => if x.cmd = k.cmd then k else x } }

/-- A lookup ends. -/
def State.dropLookup (s : State) (id : Nat) : State :=
  { s with vlk := { s.vlk with lookups := s.vlk.lookups.filter fun (x : Lookup) => x.cmd ≠ id } }

/-- Begin a lookup for the boards of a command that no VALID extent covers (R424). -/
def State.addLookup (s : State) (c : Cmd) (title : Nat) (boards : List Nat) : State :=
  let k : Lookup := { cmd := c.id, title, boards, cls := c.cls, func := c.func, qid := c.qid }
  ({ s with vlk := { s.vlk with lookups := s.vlk.lookups ++ [k] } } : State).bump (hubAt .vlk) F.VLK_CNT2_FG_LOOKUPS

/-- Stale slots whose hint records cover a board of a title: HINT records and the STALE extents kept as hints (R423, R424). -/
def State.hintSlots (s : State) (title board : Nat) : List Nat :=
  ((s.vlk.hints.filter fun (h : Hint) => h.title == title && decide (h.offset ≤ board ∧ board < h.offset + h.count)).map (·.slot))
    ++ (s.vlk.extents.filter fun (e : Extent) => e.covers title board && decide (e.st = .stale)).map (·.slot)

/-- The smallest of a list of numbers. -/
def least : List Nat → Option Nat
  | [] => none
  | a :: t => some (t.foldl min a)

/-- The slot that a lookup reads next: hinted stale slots lowest first, then the others ascending (R424). -/
def State.nextSlot (s : State) (k : Lookup) : Option Nat :=
  let open_ := s.vlk.stale.filter fun n => !k.read.contains n
  let hinted := open_.filter fun n => k.boards.any fun b => (s.hintSlots k.title b).contains n
  match least hinted with
  | some n => some n
  | none => least open_

/-- Resolve the boards of a title command: those covered are asked for, the others are looked up (R422, R424). -/
def State.startBoards (s : State) (c : Cmd) (title : Nat) (boards : List Nat) : State :=
  let known := boards.filter fun b => (s.resolve title b).isSome
  let rest := boards.filter fun b => (s.resolve title b).isNone
  let s := if rest = [] then s.setCmd c else (s.setCmd { c with wait := .mount }).addLookup c title rest
  (s.takeBoards c.id title [] known).ifDone c.id

/-- Boards of a command that no lookup found fail with its status (R424, R460). -/
def State.failBoards (s : State) (id st : Nat) (boards : List Nat) : State :=
  match s.cmd id with
  | none => s
  | some c =>
    let idx := boards.map (· - c.word 4)
    (s.zeroTags c idx).setCmd (idx.foldl (fun c i => c.failAt i st) c)

/-- A command no longer waits for its lookup. -/
def State.lookupOver (s : State) (id : Nat) : State :=
  let s := s.dropLookup id
  match s.cmd id with
  | some c => (s.setCmd { c with wait := .none }).ifDone id
  | none => s

/-! ## What a disc can still take (R67, R68, R404, R410, R411) -/

/-- Whether a disc has a key entry of a title that its key opens, recorded or pending. -/
def State.hasKeyFor (s : State) (x : HubBay) (d : BayDisc) (title : Nat) : Bool :=
  let keys := (match x.lastGen with | some g => g.keys | none => []) ++ d.pendKeys
  keys.any fun k => k.title == title && (s.unwrapKey d.bark k).isSome

/-- Whether an encrypting RECORD's boards run on from a pending extent (R410). -/
def BayDisc.runsOn (d : BayDisc) (title lba off : Nat) : Bool :=
  d.pendExts.any fun e => e.title == title && e.lba + e.count == lba && e.off + e.count == off

/-- The status with which a mounted disc refuses a RECORD, if any. -/
def State.discRefuses (s : State) (b : Bay) (encrypt : Bool) (title lba off : Nat) : Option Nat :=
  let x := s.crew.bays[b]
  match x.disc with
  | none => none
  | some d =>
    let keys := (match x.lastGen with | some g => g.keys.length | none => 0) + d.pendKeys.length
    let exts := (match x.lastGen with | some g => g.dir.length | none => 0) + d.pendExts.length
    let new := !s.hasKeyFor x d title
    let last : Bool := match x.lastGen with | some g => decide (511 ≤ g.gen) | none => false
    if d.orphan then some stNotPermitted
    else if !encrypt then none
    else if d.bark.isNone then some stBark
    else if new ∧ s.activeRoot.isNone then some stNotPermitted
    else if (new ∧ 255 ≤ keys) ∨ 1408 < exts + b2n (!d.runsOn title lba off) ∨ last then some stDiscFull
    else none

/-- Wrap a title key for a disc and add the entry to what is pending (R404, R405, R411). -/
def State.bindKey (s : State) (b : Bay) (title : Nat) (key : Bytes) : State :=
  let x := s.crew.bays[b]
  match x.disc, s.activeRoot with
  | some d, some r =>
    if s.hasKeyFor x d title then s
    else
      let k : KeyEntry := { title, rootId := s.rootId r, wrapped := Config.wrap (s.kek r (d.bark.getD 0)) key, time := s.now }
      s.mapDisc b fun d => { d with pendKeys := d.pendKeys ++ [k] }
  | _, _ => s

/-- Add a board to a disc's pending extents, merged with one that it runs on from (R410). -/
def addPending (title lba off : Nat) : List PendExt → List PendExt
  | [] => [{ title, lba, count := 1, off }]
  | e :: t =>
    if e.title = title ∧ e.lba + e.count = lba ∧ e.off + e.count = off then { e with count := e.count + 1 } :: t
    else e :: addPending title lba off t

end Sys2Proof.Machine
end

