-- ==== Sys2Proof/Machine/GroupCheck.lean ====
section
/-! DEFINITION. Commit checks of the staged groups that engines of the part commit themselves (R11, R99, R151, R172, R207,
R341). -/
namespace Sys2Proof.Machine

/-- LGAIN[l] + GBASE of every spot within [G_MIN, G_MAX] of the active loop group, for every layer (R99). -/
def sfeTrimOk (s : State) (b : Bay) : Bool :=
  let a := bayAt .sfe b
  let lo : Int := s.get a F.SFE_LOOPLIM_G_MIN
  let hi : Int := s.get a F.SFE_LOOPLIM_G_MAX
  (List.range 16).all fun l => (List.range 7).all fun k =>
    let c : Int := (s.stagedVal a F.SFE_LGAINl_CODE l : Int) + s.stagedInt a F.SFE_TRIMn_GBASE k
    decide (lo ≤ c ∧ c ≤ hi)

/-- G_MIN ≤ G_MAX (R99). -/
def sfeLoopOk (s : State) (b : Bay) : Bool :=
  decide (s.stagedVal (bayAt .sfe b) F.SFE_LOOPLIM_G_MIN ≤ s.stagedVal (bayAt .sfe b) F.SFE_LOOPLIM_G_MAX)

/-- When SEL = 2: H0 ≠ 0 and the coefficients' sum within 4–32 (R151). -/
def latTargetOk (s : State) (b : Bay) : Bool :=
  let a := bayAt .lat b
  let h := fun f => s.stagedInt a f
  let sum := h F.LAT_TARGET_H0 + h F.LAT_TARGET_H1 + h F.LAT_TARGET_H2 + h F.LAT_TARGET_H3 + h F.LAT_TARGET_H4
  s.stagedVal a F.LAT_TARGET_SEL != 2 || (h F.LAT_TARGET_H0 != 0 && decide (4 ≤ sum ∧ sum ≤ 32))

/-- The checks of every strategy and power entry (R172); the class of a strategy word is its index modulo 4. -/
def recStrategyOk (s : State) (b : Bay) : Bool :=
  let a := bayAt .rcd b
  ((List.range 256).all fun i =>
    let start := s.stagedInt a F.REC_STRAT_START i
    let top : Int := s.stagedVal a F.REC_STRAT_TOP i
    if i % 4 = 0 then decide (start + top ≤ 44)
    else decide (start + top ≤ 28) && decide (s.stagedVal a F.REC_STRAT_LAST i ≤ 44) &&
      (i % 4 != 3 || decide (s.stagedVal a F.REC_STRAT_MP i ≤ 28))) &&
  (List.range 64).all fun i =>
    decide (2 * s.stagedVal a F.REC_PWRTAB_BIAS i ≤ s.stagedVal a F.REC_PWRTAB_PEAK i)

/-- FLOCK_TH < 4 × FCAP_BAND and TLOCK_TH < TCAP_BAND (R207). -/
def osvServoOk (s : State) (b : Bay) : Bool :=
  let v := fun f => s.stagedVal (bayAt .osv b) f
  decide (v F.TRN_FE_CFG_FLOCK_TH < 4 * v F.TRN_CAP_CFG_FCAP_BAND) &&
    decide (v F.TRN_TE_CFG_TLOCK_TH < v F.TRN_CAP_CFG_TCAP_BAND)

/-- Neighbouring layers' SA positions at most 400 steps apart (R207). -/
def osvLayerOk (s : State) (b : Bay) : Bool :=
  (List.range 15).all fun l =>
    decide (((s.stagedVal (bayAt .osv b) F.TRN_LAYl_SA (l + 1) : Int) - s.stagedVal (bayAt .osv b) F.TRN_LAYl_SA l).natAbs ≤ 400)

/-- Every read power at most REC_LIMIT.EYE_CEIL (R341). -/
def cruPowerOk (s : State) (b : Bay) : Bool :=
  (List.range 7).all fun k =>
    decide (s.stagedVal (bayAt .cru b) F.CRU_RPWRk_RPWR k ≤ s.get (bayAt .rcd b) F.REC_LIMIT_EYE_CEIL)

/-- A bay's group is consistent: every staged value in its range, and the cross-checks of its rule. -/
def bayGroupOk (s : State) : Group → Bool
  | .sfeLoop b => stagedInRange s (bayAt .sfe b) .sfe (.sfeLoop b) && sfeLoopOk s b
  | .sfeSnag b => stagedInRange s (bayAt .sfe b) .sfe (.sfeSnag b)
  | .sfeForecast b => stagedInRange s (bayAt .sfe b) .sfe (.sfeForecast b)
  | .sfeTrim b => stagedInRange s (bayAt .sfe b) .sfe (.sfeTrim b) && sfeTrimOk s b
  | .latChannel b => stagedInRange s (bayAt .lat b) .lat (.latChannel b)
  | .latTarget b => stagedInRange s (bayAt .lat b) .lat (.latTarget b) && latTargetOk s b
  | .latTaps b => stagedInRange s (bayAt .lat b) .lat (.latTaps b)
  | .recStrategy b => stagedInRange s (bayAt .rcd b) .rcd (.recStrategy b) && recStrategyOk s b
  | .osvServo b => stagedInRange s (bayAt .osv b) .osv (.osvServo b) && osvServoOk s b
  | .osvJump b => stagedInRange s (bayAt .osv b) .osv (.osvJump b)
  | .osvLayer b => stagedInRange s (bayAt .osv b) .osv (.osvLayer b) && osvLayerOk s b
  | .cruCruise b => stagedInRange s (bayAt .cru b) .cru (.cruCruise b)
  | .cruReadPower b => stagedInRange s (bayAt .cru b) .cru (.cruReadPower b) && cruPowerOk s b
  | _ => true

end Sys2Proof.Machine
end

