-- ==== Sys2Proof/Machine/CruOps.lean ====
section
/-! DEFINITION. The cruise calibrator's shared operations (chapter 10). -/
namespace Sys2Proof.Machine

/-- Address of a bay's CRU block. -/
def cruA (b : Bay) : Nat := bayAt .cru b

/-- Replace the calibrator's part for a bay. -/
def State.setCru (s : State) (b : Bay) (x : Cru) : State := { s with cru := s.cru.set b x }

/-- Raise a trigger (R324): AUTO = 0 raises only NOW, and triggers pending together merge. -/
def State.cruRaise (s : State) (b : Bay) (t : CruTrigger) : State :=
  let x := s.cru[b]
  if (t ≠ .now ∧ ¬ s.has (cruA b) F.CRU_CTL_AUTO) ∨ x.pending.any (·.1 = t) then s
  else s.setCru b { x with pending := x.pending ++ [(t, s.clock)], state := if x.run.isNone then .wait else x.state }

/-- Rank of a bay's pending triggers: the highest trigger, then the older (R326). -/
def cruRank (x : Cru) : Option (Nat × Nat) :=
  x.pending.foldl (fun r e =>
    match r with
    | none => some (e.1.bit, e.2)
    | some (k, t) => if k < e.1.bit ∨ (k = e.1.bit ∧ e.2 < t) then some (e.1.bit, e.2) else r) none

/-- The other bay of a bay's die. -/
def otherBay (b : Bay) : Option Bay := bayOf (dieOfBay b) (1 - bayInDie b)

/-- Whether a bay comes before the other bay of its die (R326). -/
def cruFirst (s : State) (b : Bay) : Bool :=
  match otherBay b with
  | none => true
  | some o =>
    match cruRank s.cru[b], cruRank s.cru[o] with
    | some (k, t), some (k', t') => decide (k' < k) || (decide (k = k') && decide (t ≤ t')) || s.cru[b].run.isSome
    | _, _ => true

/-- The bay holds a class-0 work item. -/
def holdsClass0 (s : State) (b : Bay) : Bool :=
  s.dies[dieOfBay b].items.any fun w => w.bay == bayInDie b && w.cls == 0

/-- The start conditions of a run (R323, R327). -/
def cruMayStart (s : State) (b : Bay) : Bool :=
  s.has (cruA b) F.CRU_CTL_ENABLE && s.mounted b && s.osv[b].f == .locked && s.osv[b].t == .locked &&
    s.get (bayAt .sfe b) F.SFE_CTL_SPOT_EN == 0x7F && s.get (bayAt .lat b) F.LAT_BAY_CTL_DET_EN == 0x7F &&
    s.recp[b].state == .idle && !s.lat[b].retry && s.osv[b].move == none &&
    (match otherBay b with
      | some o => s.cru[o].borrowed == none && (s.cru[o].run.isNone || s.cru[o].state == .paused)
      | none => true) &&
    !(s.has (cruA b) F.CRU_CTL_CLASS0_HOLD && holdsClass0 s b)

/-- Whether an item is enabled (R329, R343). -/
def cruEnabled (s : State) (b : Bay) (i : CruItem) : Bool := bitOf (s.get (cruA b) F.CRU_CTL_ITEM_EN) i.bit

/-- The spots whose dark trims a run takes (R324). -/
def darkSpot (k : Fin 7) : Bool := k == 0 || k == 1 || k == 5 || k == 6

/-- What a spot's turn in step 2 holds: its enabled items in order, and its release (R329). -/
def cruSpotTodo (s : State) (b : Bay) (k : Fin 7) : List CruTodo :=
  let on := fun i => cruEnabled s b i
  let l := (if on .adc && darkSpot k then [CruTodo.item .adc k] else []) ++ (if on .rpwr then [.item .rpwr k] else []) ++
    (if on .asym then [.item .asym k] else [])
  if l = [] then [] else l ++ [.release k]

/-- The order of a run (R324, R329): layer items on spot 3, the spots one at a time, the taps. -/
def cruPlan (s : State) (b : Bay) (trig : List CruTrigger) : List CruTodo :=
  let layer := ([.focus, .sa, .tilt].filter fun i => cruEnabled s b i).map fun i => CruTodo.item i 3
  let step1 := if layer = [] then [] else layer ++ [.commitLayer]
  let spots := trig.any fun t => t == .now || t == .mount || t == .temp
  let order : List (Fin 7) := if layer = [] then [0, 1, 2, 3, 4, 5, 6] else [3, 0, 1, 2, 4, 5, 6]
  let step2 := if spots then order.flatMap fun k => cruSpotTodo s b k else []
  let step2 := if layer ≠ [] ∧ ¬ step2.any (· = .release 3) then [CruTodo.release 3] ++ step2 else step2
  step1 ++ step2 ++ (if cruEnabled s b .taps then [.snapshot] else [])

/-! ## Borrowing -/

/-- Set bit k of a seven-bit mask field. -/
def State.putMask (s : State) (a : Nat) (f : Field) (k : Nat) (v : Bool) : State := s.put a f (putBit (s.get a f) k v)

/-- Borrow a spot (R328): BORROWED and MANUAL set, and its loop words kept. -/
def State.cruBorrow (s : State) (b : Bay) (k : Fin 7) : State :=
  let a := bayAt .sfe b
  let sp := s.sfe[b].spots[k]
  let saved := (s.get a F.SFE_SPOTn_LOOP_PGA k, s.get a F.SFE_SPOTn_LOOP_OFS k, s.get a F.SFE_SPOTn_LOOP_ASYM k)
  let x := s.cru[b]
  let s := s.setCru b { x with borrowed := some k, run := x.run.map fun r => { r with saved } }
  let s := { s with sfe := s.sfe.set b { s.sfe[b] with spots := s.sfe[b].spots.set k { sp with manual := none } } }
  (s.putMask (bayAt .lat b) F.LAT_BAY_CTL_BORROWED k true).putMask a F.SFE_CTL_MANUAL k true

/-- End a borrowing: MANUAL and BORROWED clear together (R335, R337). -/
def State.cruReturn (s : State) (b : Bay) : State :=
  let x := s.cru[b]
  match x.borrowed with
  | none => s
  | some k => ((s.setCru b { x with borrowed := none }).putMask (bayAt .lat b) F.LAT_BAY_CTL_BORROWED k false).putMask
      (bayAt .sfe b) F.SFE_CTL_MANUAL k false

/-- The spot that what is to be done next borrows. -/
def CruTodo.spot : CruTodo → Option (Fin 7)
  | .item .taps _ => none
  | .item _ k => some k
  | .release k => some k
  | .commitLayer => some 3
  | .snapshot => none

/-- CRU_STATUS.STATE of what is to be done next (R343). -/
def CruTodo.state : CruTodo → CruState
  | .item .focus _ | .item .sa _ | .item .tilt _ | .commitLayer => .layer
  | .item _ _ | .release _ => .spot
  | .snapshot => .taps

/-! ## Values an item scans -/

/-- The active tilt band (R171, R222): by spot 3's radius in µm; band 0 inside 24.0 mm. -/
def tiltBand (s : State) (b : Bay) : Nat :=
  let r := s.osv[b].radius
  if r < 32500 then 0 else if r < 41000 then 1 else if r < 49500 then 2 else 3

/-- The tilt field of a band (R222). -/
def tiltField : Nat → Field
  | 0 => F.TRN_TILTl_BAND0 | 1 => F.TRN_TILTl_BAND1 | 2 => F.TRN_TILTl_BAND2 | _ => F.TRN_TILTl_BAND3

/-- The active value of a scanned item in its register's unit, and the step of its scan (R330). -/
def cruScan (s : State) (b : Bay) (layer : Nat) (i : CruItem) (k : Fin 7) : Rat × Rat :=
  let o := bayAt .osv b
  let step := fun f => (s.get (cruA b) f : Rat)
  match i with
  | .focus => (s.geti o F.TRN_LAYl_FOFS layer, 4 * step F.CRU_STEP_FOC_STEP)
  | .sa => (s.get o F.TRN_LAYl_SA layer, step F.CRU_STEP_SA_STEP)
  | .tilt => (s.geti o (tiltField (tiltBand s b)) layer, step F.CRU_STEP_TILT_STEP)
  | .rpwr =>
    let p : Rat := s.get (cruA b) F.CRU_RPWRk_RPWR k
    (p, p * step F.CRU_STEP_RP_STEP / 200)
  | _ => (0, 0)

/-- Whether two measurements agree (R330): ±8 nm, ±8 steps, ±0.03°, ±2 % of the result, ±0.25 LSB, and for the ADC trims
OFS ±4 and GAIN ±8. -/
def cruAgree (i : CruItem) (m n : List Rat) : Bool :=
  let close := fun (t : Rat) (p : Rat × Rat) => decide (|p.1 - p.2| ≤ t)
  match i with
  | .focus => (m.zip n).all (close 32)
  | .sa => (m.zip n).all (close 8)
  | .tilt => (m.zip n).all (close 3)
  | .rpwr => (m.zip n).all fun p => decide (|p.1 - p.2| ≤ (p.1 + p.2) / 2 / 50)
  | .asym => (m.zip n).all (close (1 / 4))
  | .adc => (match m, n with
      | [g, o], [g', o'] => close 8 (g, g') && close 4 (o, o')
      | _, _ => false)
  | .taps => false

/-- The fit of a scan (R331): x* from the five points, or nothing. -/
def cruFit (j : List Rat) : Option Rat :=
  match j with
  | [j0, j1, j2, j3, j4] =>
    let a := (2 * j0 - j1 - 2 * j2 - j3 + 2 * j4) / 14
    let c := (2 * j4 + j3 - j1 - 2 * j0) / 10
    if a ≤ 0 then none else (let x := -c / (2 * a); if |x| ≤ 5 / 2 then some x else none)
  | _ => none

/-- The position of the least jitter of a scan, −2 … 2 (R331). -/
def cruLowest (j : List Rat) : Int :=
  ((j.zipIdx.foldl (fun (r : Option (Rat × Nat)) e =>
    match r with | none => some e | some q => if e.1 < q.1 then some e else r) none).map (·.2 : Rat × Nat → Nat)).getD 2 - 2

/-- ADC_GAIN and ADC_OFS of dark means (R332). -/
def cruDark (m : DarkMeans) : List Rat :=
  let g := if m.plus - m.minus = 0 then 0 else 32 / (m.plus - m.minus)
  [roundNear (1024 * (g - 1)), roundNear (8 * g * m.zero)]

/-! ## Results -/

/-- Flag an item (R335): its bit, the cause, the count and the event with item, spot and cause. -/
def State.cruFlag (s : State) (b : Bay) (i : CruItem) (k : Fin 7) (c : CruCause) : State :=
  let x := s.cru[b]
  let (f, bit) : Field × Nat := match i with
    | .focus => (F.CRU_FLAGS_LAYER, 0) | .sa => (F.CRU_FLAGS_LAYER, 1) | .tilt => (F.CRU_FLAGS_LAYER, 2)
    | .taps => (F.CRU_FLAGS_LAYER, 3) | .adc => (F.CRU_FLAGS_ADC, k.val) | .rpwr => (F.CRU_FLAGS_RPWR, k.val)
    | .asym => (F.CRU_FLAGS_ASYM, k.val)
  let s := (s.putMask (cruA b) f bit true).bump (cruA b) F.CRU_CNT_ITEMS_FLAGGED
  let s := s.setCru b { x with
    cause := some c
    run := x.run.map fun r => { r with flags := putBit r.flags (f.lo + bit) true } }
  s.raiseBay b 0x0802 c.code k i.bit 0

/-- Write a staged field. -/
def State.stage (s : State) (a : Nat) (f : Field) (v : Nat) (i : Nat := 0) (j : Nat := 0) : State :=
  { s with staged := fieldPut s.staged f (f.key a i j) v }

/-- Whether a number fits a field's range. -/
def fitsField (f : Field) (n : Int) : Bool :=
  let lo : Int := if f.sgn then -(2 ^ (f.width - 1) : Nat) else 0
  let hi : Int := if f.sgn then (2 ^ (f.width - 1) : Nat) - 1 else (2 ^ f.width : Nat) - 1
  decide (lo ≤ n ∧ n ≤ hi) && f.inRange (ofSigned f.width n)

/-- Take an item's accepted result into the new set, or flag it RANGE (R335). The asymmetry goes to SFE_SPOTk_LOOP at
release. -/
def State.cruTake (s : State) (b : Bay) (layer : Nat) (i : CruItem) (k : Fin 7) (v : List Rat) : State :=
  let n := fun j => roundOpen ((v[j]?).getD 0)
  let put := fun (s : State) (a : Nat) (f : Field) (m : Int) (ix : Nat) =>
    if fitsField f m then s.stage a f (ofSigned f.width m) ix else s.cruFlag b i k .range
  match i with
  | .focus => put s (bayAt .osv b) F.TRN_LAYl_FOFS (n 0) layer
  | .sa => put s (bayAt .osv b) F.TRN_LAYl_SA (n 0) layer
  | .tilt => put s (bayAt .osv b) (tiltField (tiltBand s b)) (n 0) layer
  | .rpwr => put s (cruA b) F.CRU_RPWRk_RPWR (n 0) k
  | .adc =>
    if fitsField F.SFE_TRIMn_ADC_GAIN (n 0) && fitsField F.SFE_TRIMn_ADC_OFS (n 1) then
      (s.stage (bayAt .sfe b) F.SFE_TRIMn_ADC_GAIN (ofSigned 8 (n 0)) k).stage (bayAt .sfe b) F.SFE_TRIMn_ADC_OFS
        (ofSigned 8 (n 1)) k
    else s.cruFlag b i k .range
  | .asym =>
    if fitsField F.SFE_SPOTn_LOOP_ASYM (n 0) then
      let x := s.cru[b]
      s.setCru b { x with run := x.run.map fun r => { r with saved := (r.saved.1, r.saved.2.1, ofSigned 8 (n 0)) } }
    else s.cruFlag b i k .range
  | .taps => s

/-- Commit a group of the bay, flagging an item when it is rejected (R335). -/
def State.cruCommit (s : State) (b : Bay) (g : Group) (i : CruItem) (k : Fin 7) : State :=
  let ok := bayGroupOk s g
  let t := s.commitSet g ok
  if ok then t else t.cruFlag b i k .reject

/-- The end of a spot's items (R335 steps 1 to 3): its trims and read power are committed, and its loop word is written with
the saved PGA and OFS and the new ASYM. -/
def State.cruFinishSpot (s : State) (b : Bay) (k : Fin 7) : State :=
  let a := bayAt .sfe b
  let saved := ((s.cru[b].run.map (·.saved)).getD (0, 0, 0))
  let s := s.cruCommit b (.sfeTrim b) .adc k
  let s := s.cruCommit b (.cruReadPower b) .rpwr k
  let w := saved.2.2 * 2 ^ 16 + saved.2.1 * 2 ^ 8 + saved.1
  let sp := s.sfe[b].spots[k]
  let s := { s with sfe := s.sfe.set b { s.sfe[b] with
    spots := s.sfe[b].spots.set k { sp with manual := some (BitVec.ofNat 32 w) } } }
  ((s.put a F.SFE_SPOTn_LOOP_PGA saved.1 k).put a F.SFE_SPOTn_LOOP_OFS saved.2.1 k).put a F.SFE_SPOTn_LOOP_ASYM saved.2.2 k

/-- The run ends (R329, R340, R343): DONE of its layer, RUNS, the event with its flags, and its CRUISE items. -/
def State.cruEndRun (s : State) (b : Bay) (r : CruRun) : State :=
  let s := s.cruReturn b
  let s := (s.put (cruA b) F.CRU_LAYERS_DONE (if r.dropped then s.get (cruA b) F.CRU_LAYERS_DONE
      else putBit (s.get (cruA b) F.CRU_LAYERS_DONE) r.layer true)).bump (cruA b) F.CRU_CNT_RUNS
  let s := s.raiseBay b 0x0801 0 0xFFFF r.flags 0
  let s := r.items.foldl (fun t i => t.endItem (dieOfBay b) i .done) s
  let x := s.cru[b]
  s.setCru b { x with run := none, flags := r.flags, state := if x.pending = [] then .idle else .wait }

/-- Move a run on to what is to be done next: borrow its spot, finish what needs no measurement, end when nothing is left. -/
def State.cruNext (s : State) (b : Bay) : State :=
  let x := s.cru[b]
  match x.run with
  | none => s
  | some r =>
    match r.todo with
    | [] => s.cruEndRun b r
    | .commitLayer :: rest =>
      let s := s.cruCommit b (.osvLayer b) .focus 3
      let y := s.cru[b]
      let r' := (y.run.getD r)
      let s := s.setCru b { y with run := some { r' with todo := rest, attempt := 0, first := none, points := [], centre := 0 } }
      match rest with
      | .item _ _ :: _ => s
      | .release k :: _ => s.cruFinishSpot b k
      | _ => s
    | .release k :: _ => s.cruFinishSpot b k
    | t :: _ =>
      let s := match t.spot with
        | some k => if x.borrowed = some k then s else s.cruBorrow b k
        | none => s
      let y := s.cru[b]
      s.setCru b { y with state := t.state, run := y.run.map fun r => { r with attempt := 1, first := none, points := [], centre := 0, repeats := 0 } }

/-- Leave the first thing to do behind and go on. -/
def State.cruAdvance (s : State) (b : Bay) : State :=
  let x := s.cru[b]
  (s.setCru b { x with run := x.run.map fun r => { r with todo := r.todo.drop 1 } }).cruNext b

/-- A failed attempt (R335): counted, and retried up to three times; after four the item is flagged and left. -/
def State.cruAttemptFailed (s : State) (b : Bay) (i : CruItem) (k : Fin 7) (c : CruCause) (centre : Int) : State :=
  let s := s.bump (cruA b) F.CRU_CNT2_ATTEMPTS_FAILED
  let x := s.cru[b]
  match x.run with
  | none => s
  | some r =>
    if 4 ≤ r.attempt then (s.cruFlag b i k c).cruAdvance b
    else s.setCru b { x with cause := some c
                             run := some { r with attempt := r.attempt + 1, first := none, points := [], centre, repeats := 0 } }

/-- A measurement has its result: the second of an attempt is compared with the first (R335). -/
def State.cruMeasured (s : State) (b : Bay) (i : CruItem) (k : Fin 7) (v : List Rat) : State :=
  let x := s.cru[b]
  match x.run with
  | none => s
  | some r =>
    match r.first with
    | none => s.setCru b { x with run := some { r with first := some v, points := [], centre := 0, repeats := 0 } }
    | some u =>
      if cruAgree i u v then
        (s.cruTake b r.layer i k ((u.zip v).map fun p => (p.1 + p.2) / 2)).cruAdvance b
      else s.cruAttemptFailed b i k .disagree 0

/-- One point of the item in progress (R331, R332, R334). -/
def State.cruPoint (s : State) (b : Bay) (m : CruMeasured) : State :=
  let x := s.cru[b]
  match x.run with
  | none => s
  | some r =>
    if x.borrowed = none then s
    else
      match r.todo, m with
      | .item i k :: _, .tooFew =>
        if 4 ≤ r.repeats then s.cruAttemptFailed b i k .noData 0
        else s.setCru b { x with run := some { r with repeats := r.repeats + 1 } }
      | .item .adc k :: _, .dark d => s.cruMeasured b .adc k (cruDark d)
      | .item .asym k :: _, .median v => s.cruMeasured b .asym k [v]
      | .item .adc _ :: _, _ | .item .asym _ :: _, _ | .item .taps _ :: _, _ => s
      | .item i k :: _, .jitter j =>
        let pts := r.points ++ [j]
        if pts.length < 5 then s.setCru b { x with run := some { r with points := pts, repeats := 0 } }
        else
          let (v, step) := cruScan s b r.layer i k
          match cruFit pts with
          | some q => s.cruMeasured b i k [v + (q + r.centre) * step]
          | none => s.cruAttemptFailed b i k .fit (r.centre + cruLowest pts)
      | _, _ => s

/-! ## Interruptions -/

/-- A measurement is discarded and the spot released; the run waits for its start conditions (R337). `point` keeps the
points already taken. -/
def State.cruPause (s : State) (b : Bay) (point : Bool) : State :=
  match s.cru[b].run with
  | none => s
  | some r =>
    let s := s.cruReturn b
    let r' := if point then r else { r with points := [], first := none, repeats := 0 }
    s.setCru b { s.cru[b] with state := .paused, run := some r' }

/-- A retry jump-back pauses a borrowing (R337). -/
def State.cruRetry (s : State) (b : Bay) : State :=
  if s.cru[b].borrowed.isSome then (s.cruPause b true).bump (cruA b) F.CRU_CNT_RETRY_PAUSES else s

/-- Another seek or jump, a loss of focus or tracking, or recording interrupts a run (R337). -/
def State.cruInterrupt (s : State) (b : Bay) : State := if s.cru[b].borrowed.isSome then s.cruPause b false else s

/-- Unmount, the safe state or ENABLE cleared abort a run (R325, R337): references return, pending triggers clear, and the
CRUISE items end with FAULT. -/
def State.cruAbort (s : State) (b : Bay) : State :=
  let x := s.cru[b]
  let s := s.cruReturn b
  let s := match x.run with
    | some r => ((s.put (cruA b) F.CRU_TEMPREF_TOPT_REF (ofSigned 16 r.prev.1)).put (cruA b) F.CRU_TEMPREF_TDIE_REF
        (ofSigned 16 r.prev.2)).bump (cruA b) F.CRU_CNT2_ABORTS
    | none => s
  let items := x.items ++ ((x.run.map (·.items)).getD [])
  let s := items.foldl (fun t i => t.endItem (dieOfBay b) i .fault) s
  s.setCru b { s.cru[b] with state := .idle, pending := [], items := [], run := none, starved := false }

/-- The read power that emitter k runs at in 0.05 mW (R174, R330, R332): the scanned value while its point is measured, dark
for ADC trims, the active value otherwise. -/
def readPower (s : State) (b : Bay) (k : Fin 7) : Nat :=
  let p := s.get (cruA b) F.CRU_RPWRk_RPWR k
  let x := s.cru[b]
  match x.run with
  | some r =>
    if x.borrowed = some k then
      match r.todo with
      | .item .adc _ :: _ => 0
      | .item .rpwr _ :: _ =>
        let q : Int := (r.points.length : Int) - 2 + r.centre
        (roundOpen (p * (1 + (q : Rat) * s.get (cruA b) F.CRU_STEP_RP_STEP / 200))).toNat
      | _ => p
    else p
  | none => p

/-! ## Quality figures -/

/-- −16 log₁₀ of a ratio, rounded and held at 255 (R339). -/
def berLog (errs bits : Nat) : Nat :=
  if errs = 0 then 255
  else (min 255 (roundNear (-16 * Config.ln ((errs : Rat) / bits) / Config.ln 10))).toNat

/-- EYE of a jitter in 1/64 channel bit (R339). -/
def eyeWidth (j : Nat) : Nat := (max 0 (roundNear (64 - 618 / 100 * (j : Rat)))).toNat

/-- A grade of 0–63 (R339). -/
def grade (q : Rat) : Nat := (clampInt 0 63 (roundNear q)).toNat

/-- Pips of a spot from its latched window (R339). -/
def spotPips (jit ber : Nat) : Nat := min (grade (63 * (12 - (jit : Rat)) / 8)) (grade (63 * ((ber : Rat) - 24) / 40))

/-- A spot's figures when its quality window latches (R339); a borrowed spot's stay. -/
def State.cruSpotQuality (s : State) (b : Bay) (k : Fin 7) : State :=
  if s.cru[b].borrowed = some k then s
  else
    let a := bayAt .lat b
    let jit := s.get a F.LAT_SPOTk_QUAL2_JITTER k
    let ber := berLog (s.get a F.LAT_SPOTk_QUAL1_ERRS k) (s.get a F.LAT_SPOTk_QUAL0_BITS k)
    (((s.put (cruA b) F.CRU_SPOTk_Q_PIPS (spotPips jit ber) k).put (cruA b) F.CRU_SPOTk_Q_BER_LOG ber k).put (cruA b)
      F.CRU_SPOTk_Q_EYE (eyeWidth jit) k).put (cruA b) F.CRU_SPOTk_Q_SEQ (s.get a F.LAT_SPOTk_QUAL2_SEQ k) k

/-- The live word of CRU_STATUS (R343). -/
def viewCru (s : State) (b : Bay) (off : Nat) : Option Nat :=
  let x := s.cru[b]
  match off with
  | 0x00 => some (s.get (cruA b) F.CRU_CTL_ENABLE * 2 ^ 16
      + b2n (x.pending.any (·.1 = .now) || (x.run.map (·.now)).getD false) * 2 ^ 15
      + s.get (cruA b) F.CRU_CTL_CLASS0_HOLD * 2 ^ 14 + s.get (cruA b) F.CRU_CTL_AUTO * 2 ^ 13
      + s.get (cruA b) F.CRU_CTL_ITEM_EN)
  | 0x04 =>
    let item := match x.run with
      | some r => (match r.todo with | .item i _ :: _ => i.bit | .snapshot :: _ => 3 | _ => 7)
      | none => 7
    some (x.state.code * 2 ^ 29 + (x.borrowed.map fun k => k.val).getD 7 * 2 ^ 26 + item * 2 ^ 23
      + (x.run.map (·.layer)).getD 0 * 2 ^ 19
      + (x.pending.map fun e => 2 ^ (15 + e.1.bit)).sum + b2n x.starved * 2 ^ 14
      + (x.cause.map CruCause.code).getD 0 * 2 ^ 11 + (x.run.map (·.attempt)).getD 0 * 2 ^ 8)
  | _ => none

end Sys2Proof.Machine
end

