-- ==== Sys2Proof/Machine/Sched.lean ====
section
/-! DEFINITION. The weighted round robin that the arbitration points share (R22, R134, R438). -/
namespace Sys2Proof.Machine

/-- The weights W1, W2 and W3 of classes 1–3 (R438). -/
def classWeights (s : State) : List Nat :=
  [s.get (hubAt .qen) F.QEN_WEIGHTS_W1, s.get (hubAt .qen) F.QEN_WEIGHTS_W2, s.get (hubAt .qen) F.QEN_WEIGHTS_W3]

/-- The first ready class with grants left, and the grants after it takes one. -/
def wrrTake : Nat → List Nat → List Bool → Option (Nat × List Nat)
  | i, g :: gs, r :: rs =>
    if r && decide (0 < g) then some (i, (g - 1) :: gs) else (wrrTake (i + 1) gs rs).map fun e => (e.1, g :: e.2)
  | _, _, _ => none

/-- One grant: in each round class c has up to its weight; when no ready class has grants left a new round begins, and what
was unused is not carried over (R438). Classes are counted from 0. -/
def wrrPick (weights grants : List Nat) (ready : List Bool) : Option (Nat × List Nat) :=
  match wrrTake 0 grants ready with
  | some e => some e
  | none => wrrTake 0 weights ready

end Sys2Proof.Machine
end

