-- ==== Sys2Proof/Machine/SfeOps.lean ====
section
/-! DEFINITION. The front end's shared operations (chapter 03). -/
namespace Sys2Proof.Machine

/-- Address of a bay's SFE block. -/
def sfeA (b : Bay) : Nat := bayAt .sfe b

/-- Replace the front end of a bay. -/
def State.setSfe (s : State) (b : Bay) (x : Sfe) : State := { s with sfe := s.sfe.set b x }

/-- Replace one spot of a front end. -/
def State.setSpot (s : State) (b : Bay) (k : Fin 7) (x : SfeSpot) : State :=
  s.setSfe b { s.sfe[b] with spots := s.sfe[b].spots.set k x }

/-- Whether a spot is powered (R101). -/
def spotOn (s : State) (b : Bay) (k : Nat) : Bool := bitOf (s.get (sfeA b) F.SFE_CTL_SPOT_EN) k

/-- The velocity used, in 1/1,024 m/s: SFE_VEL, or its last valid value (R80, R92). -/
def sfeVel (s : State) (b : Bay) : Nat := if s.sfe[b].velOk then s.get (sfeA b) F.SFE_VEL_VEL else s.sfe[b].velLast

/-- The channel-bit period T in samples, 88 / v (R80). -/
def sfeT (s : State) (b : Bay) : Rat := if sfeVel s b = 0 then Config.periodUnset else 88 * 1024 / (sfeVel s b : Rat)

/-- A trim-group value as one spot has it: its part of a pending set once it has taken it (R99). -/
def trimVal (s : State) (b : Bay) (k : Fin 7) (f : Field) (i : Nat) : Nat :=
  if s.isWaiting (.sfeTrim b) && s.sfe[b].spots[k].trimTaken then fieldIn s.waiting f (f.key (sfeA b) i 0)
  else s.get (sfeA b) f i

/-- A length in channel bits as samples (R80). -/
def bitsToSamples (t : Rat) (n : Nat) : Nat := (roundOpen (n * t)).toNat

/-- The linear gain of a PGA code with 16 fraction bits: 0.09375 dB a code (R77, R81). -/
def gainOfCode (c : Nat) : Nat := (roundOpen (65536 * Config.exp ((c : Rat) * 9375 / 2000000 * Config.ln 10))).toNat

/-- The PGA code of a gain, round(20 log₁₀ G / 0.09375) (R81). -/
def codeOfGain (g : Nat) : Int := roundNear (20 * (Config.ln ((g : Rat) / 65536) / Config.ln 10) / (9375 / 100000))

/-! ## Forecasts -/

/-- The cruise has borrowed a spot. -/
def spotBorrowed (s : State) (b : Bay) (k : Nat) : Bool := bitOf (s.get (bayAt .lat b) F.LAT_BAY_CTL_BORROWED) k

/-- The forecast source (R93). -/
def fcSource (s : State) (b : Bay) : Option Nat :=
  if spotOn s b 0 && !spotBorrowed s b 0 then some 0 else if spotOn s b 1 && !spotBorrowed s b 1 then some 1 else none

/-- Forecasts are suspended: no valid velocity, a seek or acquisition, or no source (R84, R92, R93). -/
def fcSuspended (s : State) (b : Bay) : Bool :=
  !s.sfe[b].velOk || s.sfe[b].holdSeek || s.sfe[b].acq || (fcSource s b).isNone

/-- A forecast window freezes the spot (R83, R92, R96). -/
def fcActive (s : State) (b : Bay) (k : Fin 7) : Bool :=
  s.has (sfeA b) F.SFE_CTL_FC_EN && !fcSuspended s b && s.sfe[b].spots[k].windows.any (·.isOpen)

/-- A spot's freeze (R83). -/
def sfeFrozen (s : State) (b : Bay) (k : Fin 7) : Bool :=
  s.sfe[b].spots[k].snag || fcActive s b k || bitOf (s.get (sfeA b) F.SFE_CTL_MANUAL) k || s.sfe[b].holdSeek

/-- Time in samples of the 2.0 GS/s clock. -/
def sfeSamples (s : State) : Int := 2 * s.clock

/-- The opening of the window of a spot at distance D nm, rounded down to samples (R94). -/
def fcOpens (t : Int) (d pre v : Nat) : Int := t + (2 * ((d : Rat) - 2816 - pre) * 1024 / v).floor

/-- The closing, rounded up (R94). -/
def fcCloses (t : Int) (d post v : Nat) : Int := t - (-(2 * ((d : Rat) + post) * 1024 / v)).floor

/-- Add a window whose closing is open to a spot's windows: it merges with every window it overlaps or touches, and with the
latest one held when eight are held already. The flag says that the ninth was needed (R95). -/
def fcAdd (ws : List FcWindow) (src : Nat) (t : Int) : List FcWindow × Bool :=
  let meets := fun (w : FcWindow) => match w.closesAt with | none => true | some c => decide (t ≤ c)
  let hit := ws.filter meets
  let rest := ws.filter fun w => !meets w
  if hit ≠ [] then
    (rest ++ [{ src, opensAt := hit.foldl (fun m w => min m w.opensAt) t, isOpen := hit.any (·.isOpen)
                confirmed := hit.any (·.confirmed) }], false)
  else if ws.length < 8 then (ws ++ [{ src, opensAt := t }], false)
  else
    match ws.reverse with
    | [] => (ws, false)
    | l :: r => (r.reverse ++ [{ l with src, closesAt := none }], true)

/-- The source's snag flag sets: every trailing spot receives a window (R94). -/
def State.fcIssue (s : State) (b : Bay) (src : Nat) : State :=
  if !s.has (sfeA b) F.SFE_CTL_FC_EN || fcSuspended s b then s
  else
    let v := sfeVel s b
    let pre := s.get (sfeA b) F.SFE_FCCFG_PRE
    let trailing : List (Fin 7) := (List.finRange 7).filter fun (k : Fin 7) => decide (src < k.val) && spotOn s b k
    if trailing = [] then s
    else
      (trailing.foldl (fun t (k : Fin 7) =>
        let x := t.sfe[b].spots[k]
        let (ws, ninth) := fcAdd x.windows src (fcOpens (sfeSamples s) (6000 * (k - src)) pre v)
        let t := t.setSpot b k { x with windows := ws }
        if ninth then t.bump (sfeA b) F.SFE_FCCNT_FC_MERGED else t) s).bump (sfeA b) F.SFE_FCCNT_FC_ISSUED

/-- The source's flag clears: its windows get their closing (R94). -/
def State.fcClose (s : State) (b : Bay) (src : Nat) : State :=
  let v := sfeVel s b
  let post := s.get (sfeA b) F.SFE_FCCFG_POST
  (List.finRange 7).foldl (fun t (k : Fin 7) =>
    let x := t.sfe[b].spots[k]
    t.setSpot b k { x with windows := x.windows.map fun w =>
      if w.src = src ∧ w.closesAt = none then { w with closesAt := some (fcCloses (sfeSamples s) (6000 * (k - src)) post v) }
      else w }) s

/-! ## Velocity (R92) -/

/-- Forecasts enter suspension for want of a velocity (R92). -/
def State.velSuspend (s : State) (b : Bay) : State :=
  let x := s.sfe[b]
  if x.velOk then
    ((s.setSfe b { x with velOk := false, velLast := s.get (sfeA b) F.SFE_VEL_VEL }).bump (sfeA b)
      F.SFE_EVCNT_VEL_REPL).raiseBay b 0x0103 0 0xFFFF 0
  else s

/-- A velocity arrives from the turn engine or from crew firmware (R92). -/
def State.velUpdate (s : State) (b : Bay) (v : Nat) : State :=
  if 5120 ≤ v ∧ v ≤ 81920 then (s.setSfe b { s.sfe[b] with velOk := true, velLast := v }).put (sfeA b) F.SFE_VEL_VEL v
  else s.velSuspend b

/-- A write of SFE_VEL: VEL_SRC, and with it 1 crew firmware's velocity (R92, R104). -/
def State.velWrite (s : State) (b : Bay) (w : Word) : State :=
  let s := s.put (sfeA b) F.SFE_VEL_VEL_SRC (F.SFE_VEL_VEL_SRC.of w)
  if F.SFE_VEL_VEL_SRC.of w = 1 then s.velUpdate b (F.SFE_VEL_VEL.of w) else s

/-! ## Acquisition (R84) -/

/-- A seek or layer jump starts: the loops hold and snag detection is off (R84). -/
def State.sfeHold (s : State) (b : Bay) : State :=
  let x := s.sfe[b]
  s.setSfe b { x with
    holdSeek := true, acq := false
    spots := x.spots.map fun p => { p with snag := false, longRep := false, froze := true } }

/-- Tracking is locked: each PGA code is preloaded and the acquisition runs (R84). -/
def State.sfeAcquire (s : State) (b : Bay) (layer : Nat) : State :=
  let a := sfeA b
  let x := s.sfe[b]
  let s := (List.finRange 7).foldl (fun (t : State) (k : Fin 7) =>
    let c := clampInt 0 255 ((trimVal t b k F.SFE_LGAINl_CODE layer : Int) + toSigned 8 (trimVal t b k F.SFE_TRIMn_GBASE k))
    (t.setSpot b k { x.spots[k] with g := gainOfCode c.toNat }).put a F.SFE_SPOTn_LOOP_PGA c.toNat k) s
  s.setSfe b { s.sfe[b] with holdSeek := false, acq := true, acqLeft := 16 * s.get a F.SFE_LOOPCFG_ACQ_BLOCKS }

/-! ## Temperature (R98) -/

/-- The thermistor's temperature in °C (R98). -/
def thermistor (ohm : Nat) : Rat :=
  1 / (1 / (29815 / 100) + Config.ln ((ohm : Rat) / 10000) / 3435) - 27315 / 100

/-- The die temperature replaces the reading (R98). -/
def State.tempReplace (s : State) (b : Bay) : State :=
  let x := s.sfe[b]
  let sec := s.clock / 1000000000
  let s := ((s.put (sfeA b) F.SFE_TEMP_TEMP (ofSigned 12 s.dies[dieOfBay b].temp)).put (sfeA b) F.SFE_TEMP_REPLACED 1).bump
    (sfeA b) F.SFE_EVCNT_TEMP_REPL
  let s := s.setSfe b { x with temps := [], tempSec := some sec }
  if x.tempSec = some sec then s else s.raiseBay b 0x0104 0 0xFFFF s.dies[dieOfBay b].temp

/-! ## Register views -/

/-- The live words of SFE_STATUS, SFE_AFE and the monitors (R102, R103, R114). -/
def viewSfe (s : State) (b : Bay) (off : Nat) : Option Nat :=
  let x := s.sfe[b]
  if off = 0x04 then
    some (((fcSource s b).getD 0xF) * 2 ^ 16 + b2n x.acq * 2 ^ 11 + b2n x.holdSeek * 2 ^ 10 + b2n x.velOk * 2 ^ 9
      + ((List.finRange 7).map fun k => b2n x.spots[k].snag * 2 ^ k.val).sum)
  else if off = 0x08 then
    some (b2n (s.get (sfeA b) F.SFE_CTL_SPOT_EN != 0) * 2 ^ 31 + s.get (sfeA b) F.SFE_AFE_TERM * 2 ^ 5
      + s.get (sfeA b) F.SFE_AFE_LPF * 4 + s.get (sfeA b) F.SFE_AFE_RANGE)
  else if 0xB4 ≤ off ∧ off ≤ 0xE4 ∧ (off - 0xB4) % 8 = 0 then
    let k : Fin 7 := Fin.ofNat 7 ((off - 0xB4) / 8)
    let f := fun (g : Field) => s.get (sfeA b) g k
    some (f F.SFE_SPOTn_MON_ENV * 2 ^ 24 + f F.SFE_SPOTn_MON_MID * 2 ^ 16 + f F.SFE_SPOTn_MON_LSLOW * 2 ^ 8
      + b2n (x.spots[k].windows.any (·.isOpen)) * 2 + b2n x.spots[k].snag)
  else none

/-- A write of SFE_CTL (R83, R85, R101): a disabled spot's flags read 0, and a spot that leaves manual mode was frozen in
this block. -/
def State.sfeCtl (s : State) (b : Bay) (w : Word) : State :=
  let a := sfeA b
  let was := s.get a F.SFE_CTL_MANUAL
  let s := ((s.put a F.SFE_CTL_FC_EN (F.SFE_CTL_FC_EN.of w)).put a F.SFE_CTL_MANUAL (F.SFE_CTL_MANUAL.of w)).put a
    F.SFE_CTL_SPOT_EN (F.SFE_CTL_SPOT_EN.of w)
  (List.finRange 7).foldl (fun t (k : Fin 7) =>
    let x := t.sfe[b].spots[k]
    let x := { x with froze := x.froze || bitOf was k }
    t.setSpot b k (if spotOn t b k then x else { x with snag := false, longRep := false, windows := [] })) s

end Sys2Proof.Machine
end

