-- ==== Sys2Proof/Machine/LatOps.lean ====
section
/-! DEFINITION. The lattice detector's shared operations (chapter 04). -/
namespace Sys2Proof.Machine

/-- Address of a bay's LAT block, and of the die's shared LAT registers (R152). -/
def latA (b : Bay) : Nat := bayAt .lat b
def latDieA (d : Die) : Nat := dieAt .lat d

/-- Replace a bay's part of the detector, one of its spots, or a die's shared engines. -/
def State.setLat (s : State) (b : Bay) (x : LatBay) : State := { s with lat := s.lat.set b x }
def State.setLatSpot (s : State) (b : Bay) (k : Fin 7) (x : LatSpot) : State :=
  s.setLat b { s.lat[b] with spots := s.lat[b].spots.set k x }
def State.setLatDie (s : State) (d : Die) (x : LatDie) : State := { s with latDie := s.latDie.set d x }

/-- The bits of a slot (R55). -/
def slotBits : Nat := 49932

/-- The bits of a frame (R55). -/
def frameBits : Nat := 1387

/-- A channel-group setting as one spot has it: its part of a pending set once it has taken it (R151). -/
def chVal (s : State) (b : Bay) (k : Fin 7) (f : Field) : Nat :=
  if s.isWaiting (.latChannel b) && s.lat[b].spots[k].chTaken then fieldIn s.waiting f (f.key (latA b) 0 0)
  else s.get (latA b) f

/-- A spot is detected: enabled in both masks (R123, R156). -/
def detOn (s : State) (b : Bay) (k : Nat) : Bool := bitOf (s.get (latA b) F.LAT_BAY_CTL_DET_EN) k && spotOn s b k

/-- The target taps of the active target (R125). -/
def targetTaps (s : State) (b : Bay) : List Int :=
  match s.get (latA b) F.LAT_TARGET_SEL with
  | 0 => [1, 2, 2, 1]
  | 1 => [1, 2, 3, 2, 1]
  | _ => [s.geti (latA b) F.LAT_TARGET_H0, s.geti (latA b) F.LAT_TARGET_H1, s.geti (latA b) F.LAT_TARGET_H2,
      s.geti (latA b) F.LAT_TARGET_H3, s.geti (latA b) F.LAT_TARGET_H4]

/-- The target value of recorded levels, newest first (R125). -/
def targetValue (aRef : Rat) (h : List Int) (levels : List Bool) : Rat :=
  let sum : Int := h.sum
  aRef / (2 * (sum : Rat)) * ((h.zip levels).map fun e => if e.2 then (e.1 : Rat) else -(e.1 : Rat)).sum

/-! ## Addresses of the grid -/

/-- Fields of a frame address (R55). -/
def addrLayer (a : Nat) : Nat := bitsOf a 47 44
def addrArea (a : Nat) : Nat := bitsOf a 43 42
def addrSlot (a : Nat) : Nat := bitsOf a 31 6
def addrFrame (a : Nat) : Nat := bitsOf a 5 0

/-- The address after one: FRAME 35 is followed by FRAME 0 of the next slot (R126). -/
def nextAddr (a : Nat) : Nat := if addrFrame a = 35 then putBits (putBits a 5 0 0) 31 6 (addrSlot a + 1) else a + 1

/-! ## Boards and logs -/

/-- The BOARD_DATA message of a board (R144). -/
def boardDataMsg (cls lba missreg bay : Nat) (system : Bool) (payload : Bytes) (status : Nat) : Msg :=
  { type := 0x22
    word := BitVec.ofNat 64 (lba % 2 ^ 32 * 2 ^ 32 + missreg % 2 ^ 10 * 2 ^ 22 + bay % 2 * 2 ^ 21 + b2n system * 2 ^ 20 + 513)
    cont := ((List.range 512).map fun w => BitVec.ofNat 64 (fieldAt payload (8 * w) 8)) ++ [BitVec.ofNat 64 status]
    cls := workClass cls }

/-- The BOARD_ERASED message (R145). -/
def boardErasedMsg (cls lba missreg bay : Nat) (system : Bool) (cause : Nat) : Msg :=
  { type := 0x23
    word := BitVec.ofNat 64 (lba % 2 ^ 32 * 2 ^ 32 + missreg % 2 ^ 10 * 2 ^ 22 + bay % 2 * 2 ^ 21 + b2n system * 2 ^ 20
      + cause % 16 * 2 ^ 16)
    cls := workClass cls }

/-- The LOG_DONE message (R146). -/
def logDoneMsg (cls lba missreg bay : Nat) (system : Bool) (result passes erased corrected : Nat) : Msg :=
  { type := 0x24
    word := BitVec.ofNat 64 (lba % 2 ^ 32 * 2 ^ 32 + missreg % 2 ^ 10 * 2 ^ 22 + bay % 2 * 2 ^ 21 + b2n system * 2 ^ 20
      + result % 4 * 2 ^ 18 + passes % 32 * 2 ^ 13 + erased % 32 * 2 ^ 8 + corrected % 32 * 8)
    cls := workClass cls }

/-- The LBA of a board in messages: in a system log, the log number × 32 and INDEX (R144). -/
def logLba (l : LogAsm) (i : Nat) : Nat := if l.system then l.log * 32 + i else lbaOfPlace ⟨l.layer, l.log, i⟩

/-- The header of a decoded board agrees with its position (R141). -/
def headerOk (layer area log index : Nat) (bd : Bytes) : Bool :=
  let system := area != 0
  let kind := if index = 20 then 0x03 else if system then 0x04 else 0x01
  let lba := if system then 0 else lbaOfPlace ⟨layer, log, if index = 20 then 0 else index⟩
  boardKind bd == kind && boardIndex bd == index && boardLayer bd == layer && boardLba bd == lba

/-- A board erased, from whatever cause (R155). -/
def State.countErased (s : State) (b : Bay) : State := s.bump (latA b) F.LAT_BOARDCNT_BOARDS_ERASED

/-- The status word of BOARD_DATA (R144). -/
def boardStatus (bd : Bytes) (pass spot iters : Nat) (rebuilt : Bool) : Nat :=
  boardTitle bd * 2 ^ 32 + boardFlags bd * 2 ^ 24 + boardIndex bd * 2 ^ 16 + min pass 15 * 2 ^ 12 + spot * 2 ^ 8
    + b2n rebuilt * 128 + (if rebuilt then 0 else min iters 127)

/-- Send one data board of a log (R142, R144); VERIFY sends none (R24). -/
def State.sendBoard (s : State) (b : Bay) (l : LogAsm) (i : Nat) (bd : Bytes) (status : Nat) : State :=
  if l.verify then s
  else s.send (dieOfBay b) .field (boardDataMsg l.cls (logLba l i) l.missreg (bayInDie b) l.system (boardPayload bd) status)

/-- The bytes of a board that the present pass has. -/
def outcomeBytes : Option BoardOutcome → Option Bytes
  | some (.decoded bs _ _ _ _) => some bs
  | some (.rebuilt bs _) => some bs
  | _ => none

/-- Erased boards of INDEX 0–19 (R142). -/
def erasedOf (l : LogAsm) : List Nat := (List.range 20).filter fun i => (outcomeBytes (l.boards.getD i none)).isNone

/-- Boards whose decoding changed a bit (R146). -/
def correctedOf (l : LogAsm) : Nat :=
  (l.boards.filter fun o => match o with | some (.decoded _ _ _ _ c) => c | _ => false).length

/-- Ask for a system log of the mount (R68, R143). -/
def State.systemLog (s : State) (b : Bay) (layer n : Nat) : State :=
  s.setLat b { s.lat[b] with logs := s.lat[b].logs ++ [{ layer, area := 1, log := n, item := none, system := true }] }

/-- The mount's reading of the system logs has ended at a blank log or at the last one: the MOUNT item ends, failed where
logs are recorded and none decoded (R68). -/
def State.mountEnd (s : State) (b : Bay) : State :=
  let x := s.lat[b]
  match x.mount with
  | none => s
  | some i =>
    let ok := !x.seenLog || x.goodLog
    let s := s.setLat b { x with mount := none }
    let s := { s with osv := s.osv.set b { s.osv[b] with mount := none } }
    let s := if ok then (s.setMounted b true).cruRaise b .mount else s
    s.endItem (dieOfBay b) i (if ok then .done else .mountFailed)

/-- A system log of the mount has ended: a log that did not decode is read again from layer 15, then the next one follows, up
to the first blank log (R67, R68). -/
def State.mountLog (s : State) (b : Bay) (l : LogAsm) (result : Nat) : State :=
  let x := s.lat[b]
  if x.mount.isNone then s
  else
    let blank := result = 2 ∧ l.pass = 0 ∧ l.layer = 0 ∧
      (l.boards.take 16).all fun o => match o with | some (.erased .blank) => true | _ => false
    if blank then s.mountEnd b
    else
      let s := s.setLat b { x with seenLog := true, goodLog := x.goodLog || result != 2 }
      if result = 2 ∧ l.layer = 0 then s.systemLog b 15 l.log
      else if l.log < 511 then s.systemLog b 0 (l.log + 1)
      else s.mountEnd b

/-- A log leaves the assembler with LOG_DONE and its item's WORK_DONE (R25, R142, R146). -/
def State.logEnd (s : State) (b : Bay) (l : LogAsm) (result : Nat) : State :=
  let d := dieOfBay b
  let er := erasedOf l
  let s := s.setLat b { s.lat[b] with logs := s.lat[b].logs.filter fun m =>
    !(m.layer = l.layer && m.area = l.area && m.log = l.log && m.item = l.item) }
  let s := if result = 2 ∧ ¬ l.verify then
      (er.filter (· < 16)).foldl (fun t i =>
        let c := match l.boards.getD i none with | some (.erased c) => c.code | _ => 1
        t.send d .field (boardErasedMsg l.cls (logLba l i) l.missreg (bayInDie b) l.system c)) s
    else s
  let s := s.send d .field (logDoneMsg l.cls (logLba l 0) l.missreg (bayInDie b) l.system result (l.pass + 1) er.length
    (correctedOf l))
  let s := s.bump (latA b) (match result with
    | 0 => F.LAT_LOGCNT_LOGS_CLEAN | 1 => F.LAT_LOGCNT_LOGS_REBUILT | _ => F.LAT_RETRYCNT_LOGS_FAILED)
  match l.item with
  | some i => s.endItem d i .done
  | none => s.mountLog b l result

/-- Replace a log under assembly. -/
def State.putLog (s : State) (b : Bay) (l : LogAsm) : State :=
  s.setLat b { s.lat[b] with logs := s.lat[b].logs.map fun m =>
    if m.layer = l.layer ∧ m.area = l.area ∧ m.log = l.log ∧ m.item = l.item then l else m }

/-- A log is undecodable in this pass: it ends FAILED when blank throughout or after its last retry, and otherwise waits for
one (R142, R148, R149). -/
def State.logUndecodable (s : State) (b : Bay) (l : LogAsm) : State :=
  let blank := l.pass = 0 ∧ l.boards.all fun o => match o with | some (.erased .blank) => true | _ => false
  if blank ∨ s.get (latA b) F.LAT_BAY_CTL_RETRY_MAX ≤ l.pass then s.logEnd b l 2
  else s.putLog b { l with retry := true }

/-- The log's boards rebuilt by the outer code with the check of R142, when it can be. -/
def rebuiltLog (l : LogAsm) : Option (List (Nat × Bytes)) :=
  let er := erasedOf l
  match rebuildBoards ((List.range 20).map fun i => outcomeBytes (l.boards.getD i none)) with
  | none => none
  | some all =>
    let data := (er.filter (· < 16)).map fun i => (i, all.getD i [])
    let address := outcomeBytes (l.boards.getD 20 none)
    let ok := rebuildAgrees address data &&
      (address.isSome || data.all fun e => headerOk l.layer l.area l.log e.1 e.2)
    if ok then some data else none

/-- Every board of the log has been decided (R142). -/
def State.assemble (s : State) (b : Bay) (l : LogAsm) : State :=
  let er := erasedOf l
  if er = [] then s.logEnd b l 0
  else if 4 < er.length then s.logUndecodable b l
  else
    match rebuiltLog l with
    | some data =>
      let s := data.foldl (fun t e => t.sendBoard b l e.1 e.2 (boardStatus e.2 l.pass 0 0 true)) s
      s.logEnd b l 1
    | none =>
      let s := s.bump (latA b) F.LAT_BOARDCNT_REBUILD_MISMATCH
      s.logUndecodable b { l with boards := l.boards.mapIdx fun i o =>
        if i < 16 ∧ (outcomeBytes o).isNone then some (.erased .rebuildMismatch) else o }

/-- One board of a slot is decided on a spot (R142). Boards of no log under assembly, or already decided in this pass, change
nothing more. -/
def State.boardDecided (s : State) (b : Bay) (k : Fin 7) (layer area slot : Nat) (o : BoardOutcome) : State :=
  let s := match o with | .erased _ => s.countErased b | _ => s
  match s.lat[b].logs.find? (fun l => l.layer = layer && l.area = area && l.log = slot / 3 && !l.retry) with
  | none => s
  | some l =>
    let i := indexAt k slot
    match l.boards.getD i none with
    | some _ => s
    | none =>
      let l := { l with boards := l.boards.set i (some o) }
      let s := s.putLog b l
      let s := match o with
        | .decoded bs spot iters pass _ => if i < 16 then s.sendBoard b l i bs (boardStatus bs pass spot iters false) else s
        | _ => s
      if l.boards.all (·.isSome) then
        let s := s.assemble b l
        s.setLat b { s.lat[b] with retry := s.lat[b].logs.any fun m => decide (0 < m.pass) && !m.retry }
      else s

/-! ## Slices -/

/-- The class of a slice: that of the work item the bay is reading, class 1 when it belongs to none (R134). -/
def sliceClass (s : State) (b : Bay) : Nat := (s.lat[b].logs.head?.map fun l => if l.item.isSome then l.cls else 1).getD 1

/-- The next ready slice of a die (R134): class 0 first, classes 1–3 by weighted round robin, the oldest within a class. -/
def nextSlice (s : State) (d : Die) : Option (Slice × List Nat) :=
  let x := s.latDie[d]
  match x.slices.find? (·.cls = 0) with
  | some sl => some (sl, x.wrr)
  | none =>
    match wrrPick (classWeights s) x.wrr ([1, 2, 3].map fun c => x.slices.any (·.cls = c)) with
    | some (i, g) => (x.slices.find? (·.cls = i + 1)).map fun sl => (sl, g)
    | none => none

/-- The free detector takes its next slice (R134). -/
def State.detNext (s : State) (d : Die) : State :=
  let x := s.latDie[d]
  if x.current.isSome ∨ ¬ s.has (latDieA d) F.LAT_CTL_ENABLE then s
  else
    match nextSlice s d with
    | some (sl, g) => s.setLatDie d { x with current := some sl, slices := x.slices.erase sl, wrr := g }
    | none => s

/-- A spot's slice boundary: its parts of the channel, trim and read-power groups, the bay's taps, and the target at the first one of an
acquisition (R99, R151, R341). A group is active as a whole once every enabled spot has taken its part. -/
def State.sliceBoundary (s : State) (b : Bay) (k : Fin 7) : State :=
  let x := s.lat[b]
  let s := s.activate (.latTaps b)
  let s := if k = 3 ∧ s.isWaiting (.osvLayer b) then { s with osv := s.osv.set b { s.osv[b] with layDue := true } } else s
  let s := if x.acqSlice then (s.activate (.latTarget b)).setLat b { x with acqSlice := false } else s
  let s := if s.isWaiting (.latChannel b) then s.setLatSpot b k { s.lat[b].spots[k] with chTaken := true } else s
  let s := if s.isWaiting (.sfeTrim b) then s.setSpot b k { s.sfe[b].spots[k] with trimTaken := true } else s
  let s := if (List.finRange 7).all fun (j : Fin 7) => s.lat[b].spots[j].chTaken || !spotOn s b j then
      let t := s.activate (.latChannel b)
      t.setLat b { t.lat[b] with spots := t.lat[b].spots.map fun p => { p with chTaken := false } }
    else s
  let s := if s.isWaiting (.cruReadPower b) then s.setLatSpot b k { s.lat[b].spots[k] with rpTaken := true } else s
  let s := if (List.finRange 7).all fun (j : Fin 7) => s.lat[b].spots[j].rpTaken || !spotOn s b j then
      let t := s.activate (.cruReadPower b)
      t.setLat b { t.lat[b] with spots := t.lat[b].spots.map fun p => { p with rpTaken := false } }
    else s
  if (List.finRange 7).all fun (j : Fin 7) => s.sfe[b].spots[j].trimTaken || !spotOn s b j then
    let t := s.activate (.sfeTrim b)
    t.setSfe b { t.sfe[b] with spots := t.sfe[b].spots.map fun p => { p with trimTaken := false } }
  else s

/-! ## Holds and acquisitions -/

/-- A seek or layer-jump hold (R84, R127): every spot re-enters SEARCH with no misses, and open slots are given up. -/
def State.latHold (s : State) (b : Bay) : State :=
  s.setLat b { s.lat[b] with spots := s.lat[b].spots.map fun p => { p with
    sync := .search, misses := 0, frames := [], marked := [], soft := [], dropped := [] } }

/-- T of every acquisition, 88 / v (R118). -/
def latT (s : State) (b : Bay) : Rat := sfeT s b

/-- Starting taps of a spot for a layer, in units of 2⁻¹⁸ (R124, R164). -/
def startTaps (s : State) (b : Bay) (layer : Nat) (k : Fin 7) (first n : Nat) : List Int :=
  (List.range n).map fun t => 256 * s.geti (latA b) F.LAT_TAPTAB_TAP (224 * layer + 32 * k + first + t)

/-- An acquisition begins: T and the taps of every spot are loaded (R118, R124). -/
def State.latAcquire (s : State) (b : Bay) (layer : Nat) : State :=
  let s := (List.finRange 7).foldl (fun t (k : Fin 7) =>
    t.setLatSpot b k { t.lat[b].spots[k] with
      period := latT s b
      own := startTaps s b layer k 0 15, inner := startTaps s b layer k 16 5, outer := startTaps s b layer k 24 5 }) s
  s.setLat b { s.lat[b] with acqSlice := true }

/-! ## Views -/

/-- Work of the last 100 µs in per cent (R154). -/
def busyPercent (now : Nat) (l : List (Nat × Nat)) : Nat :=
  let ps := ((l.filter fun e => decide (now < e.1 + 100000)).map (·.2)).sum
  (clampInt 0 100 (roundOpen ((ps : Rat) / 1000000))).toNat

/-- The live words of the detector's registers (R154, R157, R162, R164). -/
def viewLat (s : State) (b : Bay) (off : Nat) : Option Nat :=
  let x := s.lat[b]
  let d := s.latDie[dieOfBay b]
  if off = 0x04 then
    some (busyPercent s.clock d.detBusy * 2 ^ 24 + busyPercent s.clock d.ldpcBusy * 2 ^ 16 + min d.ldpc.length 255 * 2 ^ 8
      + min d.slices.length 255)
  else if off = 0x104 then
    some (s.get (latA b) F.LAT_TARGET_SEL * 2 ^ 16 + b2n x.retry * 2 ^ 8
      + ((List.finRange 7).map fun (k : Fin 7) => b2n (x.spots[k].sync == .locked) * 2 ^ k.val).sum)
  else if 0x140 ≤ off ∧ off < 0x15C ∧ off % 4 = 0 then
    let p := x.spots[(Fin.ofNat 7 ((off - 0x140) / 4) : Fin 7)]
    some (p.sync.code * 2 ^ 30 + min p.misses 3 * 2 ^ 28 + addrFrame p.addr * 2 ^ 16
      + (clampInt 0 0xFFFF (roundOpen (2048 * p.period))).toNat)
  else if 0x3000 ≤ off ∧ off < 0x3380 ∧ off % 4 = 0 then
    let p := x.spots[(Fin.ofNat 7 ((off - 0x3000) / 128) : Fin 7)]
    let t := (off - 0x3000) % 128 / 4
    let v : Int := if t < 15 then p.own.getD t 0 else if 16 ≤ t ∧ t < 21 then p.inner.getD (t - 16) 0
      else if 24 ≤ t ∧ t < 29 then p.outer.getD (t - 24) 0 else 0
    some (ofSigned 12 (v / 256))
  else none

end Sys2Proof.Machine
end

