-- ==== Sys2Proof/Machine/IngestOps.lean ====
section
/-! DEFINITION. RECORD (R358, R359, R409–R412, R441, R462): its checks and the way its images enter the landing. -/
namespace Sys2Proof.Machine

/-- Bytes of a read that have arrived in order from its start. -/
def leading : List Piece → Bytes
  | [] => []
  | p :: t => if p.st = .done then p.data ++ leading t else []

/-- Bytes that have arrived in order of a command's host read. -/
def State.arrived (s : State) (id : Nat) : Bytes :=
  match s.ep.reads.find? fun r => decide (r.what = .cmd id) with
  | some r => leading r.pieces
  | none => []

/-- A command's host read is done with. -/
def State.dropRead (s : State) (id : Nat) : State :=
  { s with ep := { s.ep with reads := s.ep.reads.filter fun (r : HostRead) => r.what ≠ .cmd id } }

/-- Logs that a RECORD names, as slot and log. -/
def Cmd.recordLogs (c : Cmd) : List (Nat × Nat) :=
  let lba := c.address % 2 ^ 32
  (List.range ((lba + c.count - 1) / 16 - lba / 16 + 1)).map fun i => (c.address / 2 ^ 32, lba / 16 + i)

/-- Title of a RECORD's session. -/
def State.recordTitle (s : State) (c : Cmd) : Nat := ((c.sess.bind s.session).map (·.title)).getD 0

/-- The disc takes the RECORD: its images are read from host memory (R462). -/
def State.recordGo (s : State) (c : Cmd) : State :=
  let slot := c.address / 2 ^ 32
  let encrypt := c.delivery = 1
  let off := ((c.sess.bind s.session).map (·.nextOff)).getD 0
  let bad := match s.bayOfSlot slot with
    | some b => if s.slotMounted slot then s.discRefuses b encrypt (s.recordTitle c) (c.address % 2 ^ 32) off else none
    | none => none
  match bad with
  | some st => s.finish c st 0
  | none => (s.setCmd { c with wait := .host 0 }).hostRead c.func c.buffer (4112 * c.count) (c.cls = 0) (.cmd c.id)

/-- Begin a RECORD: R358's refusals, then, to encrypt, the disc mounted (R358, R409, R462). -/
def State.recordStart (s : State) (c : Cmd) : State :=
  let slot := c.address / 2 ^ 32
  if c.recordLogs.any fun k => s.recordRefused k.1 k.2 then s.finish c stNotPermitted 0
  else if c.delivery = 1 ∧ !s.slotMounted slot then
    (s.setCmd { c with wait := .mount }).wantMount slot none c.cls c.func c.qid (.cmd c.id)
  else s.recordGo c

/-- A board that is recorded encrypted: its header and ciphertext, with the disc's pending entry and extents (R408, R410,
R411). -/
def State.encryptBoard (s : State) (c : Cmd) (b : Bay) (lba : Nat) (payload : Bytes) : State × Bytes × Bytes :=
  match c.sess.bind s.session, s.crew.bays[b].disc with
  | some x, some d =>
    let key := s.keyOf (x.keySlot.getD 8192)
    let head := boardHeader lba (lba % 16) 0x01 (lba / boardsPerLayer) 0x01 x.title ++ leBytes 4 0
    let s := s.bindKey b x.title key
    let s := s.mapDisc b fun d => { d with pendExts := addPending x.title lba x.nextOff d.pendExts }
    let wrote := if x.wrote.contains d.slot then x.wrote else x.wrote ++ [d.slot]
    let s := s.setSession { x with nextOff := x.nextOff + 1, wrote }
    (s, head, boardCrypt key d.serial lba payload)
  | _, _ => (s, [], payload)

/-- Write one board into the DIRTY entry, and hand the line over once all 16 are there (R358, R359). -/
def State.landBoard (s : State) (c : Cmd) (e lba : Nat) (head payload : Bytes) : State :=
  let slot := c.address / 2 ^ 32
  let log := lba / 16
  let s := s.dirtyBoard e lba head payload
  let w : Writer := { slot, log, func := c.func, qid := c.qid, cmd := c.id }
  let s := { s with lnd := { s.lnd with writers := if s.lnd.writers.contains w then s.lnd.writers else s.lnd.writers ++ [w] } }
  let lines := if c.seat ∧ !c.lines.contains (slot, log) then c.lines ++ [(slot, log)] else c.lines
  let s := s.setCmd { c with done := c.done + 1, landed := c.landed + 1, lines }
  if (s.line e).boards = 0xFFFF then s.handOverLine e else s

/-- A disc with 32 pending extents takes its next generation (R412). -/
def State.genIfFull (s : State) (b : Bay) (cls : Nat) : State :=
  match s.crew.bays[b].disc with
  | some d => if 32 ≤ d.pendExts.length then s.startGen b .full cls else s
  | none => s

/-- Accept image i of a RECORD; the flag says that the next image may follow (R358, R359, R410, R462). -/
def State.acceptImage (s : State) (c : Cmd) (i : Nat) (img : Bytes) : State × Bool :=
  let slot := c.address / 2 ^ 32
  let lba := c.address % 2 ^ 32 + i
  let log := lba / 16
  if c.delivery = 0 ∧ !headerOk (log / logsPerLayer) 0 (log % logsPerLayer) (lba % 16) img then
    (s.finish c stInvalidField i, false)
  else if s.recordRefused slot log then (s.finish c stNotPermitted i, false)
  else if c.delivery = 1 ∧ !s.slotMounted slot then
    ((s.setCmd { c with wait := .mount }).wantMount slot none c.cls c.func c.qid (.cmd c.id), false)
  else
    match (s.checkTags slot log).dirtyEntry slot log with
    | (s, none) => ({ s with lnd := { s.lnd with room := s.lnd.room ++ [c.id] } }, false)
    | (s, some e) =>
      if c.delivery = 1 then
        match s.bayOfSlot slot with
        | none => (s, false)
        | some b =>
          let (s, head, payload) := s.encryptBoard c b lba (img.drop 16)
          let s := s.landBoard c e lba head payload
          (s.genIfFull b c.cls, true)
      else (s.landBoard c e lba (img.take 16) (img.drop 16), true)

/-- Every image has been accepted: a SEAT RECORD's logs are handed over and awaited, another completes (R359, R441). -/
def State.recordEnd (s : State) (c : Cmd) : State :=
  let s := (s.dropRead c.id).setCmd { c with wait := .none }
  (if c.seat then s.handOverKeys c.lines else s).ifDone c.id

/-- Accept images in order as long as they have arrived. -/
def recordImages : Nat → State → Nat → State
  | 0, s, _ => s
  | n + 1, s, id =>
    match s.cmd id with
    | none => s
    | some c =>
      match c.wait with
      | .host _ =>
        if c.count ≤ c.done then s.recordEnd c
        else
          let img := ((s.arrived id).drop (4112 * c.done)).take 4112
          if img.length < 4112 then s
          else
            match s.acceptImage c c.done img with
            | (s, true) => recordImages n s id
            | (s, false) => s
      | _ => s

/-- Go on with a RECORD: its images that have arrived enter the landing in order (R462). -/
def State.recordMore (s : State) (id : Nat) : State :=
  match s.cmd id with
  | none => s
  | some c =>
    if c.opcode = 0x03 then
      recordImages (c.count + 1) { s with lnd := { s.lnd with room := s.lnd.room.filter (· ≠ id) } } id
    else s

/-- The mount that a RECORD waited for has ended (R409, R462). -/
def State.recordMounted (s : State) (c : Cmd) (st : Nat) : State :=
  if st ≠ stSuccess then s.finish c st 0
  else if s.ep.reads.any fun r => decide (r.what = .cmd c.id) then
    (s.setCmd { c with wait := .host 0 }).recordMore c.id
  else s.recordGo c

end Sys2Proof.Machine
end

