-- ==== Sys2Proof/Machine/SessOps.lean ====
section
/-! DEFINITION. SESSION OPEN and SESSION CLOSE (R398, R401, R403, R407, R412, R468, R469). -/
namespace Sys2Proof.Machine

/-- An open fails with a reason and a status; the context it took is free again (R403). -/
def State.openFail (s : State) (c : Cmd) (reason st : Nat) : State :=
  let s := s.bump (hubAt .vlk) F.VLK_CNT0_OPEN_FAILS
  let s := match c.opens with | some i => s.freeSession i | none => s
  (s.finish c st (reason * 2 ^ 24)).dropRead c.id

/-- An open succeeds: the session is OPEN and references its key slot (R397, R403). -/
def State.openDone (s : State) (c : Cmd) (x : Session) (idx : Nat) : State :=
  let s := s.setSession { x with st := .opened, keySlot := some idx }
  ((s.bump (hubAt .vlk) F.VLK_CNT0_OPENS).finish c stSuccess x.id).dropRead c.id

/-- Why a mounted disc did not provide a session's key (R74, R403, R407). -/
def State.keyFailure (s : State) (d : BayDisc) (title : Nat) : Nat :=
  if d.bark.isNone then stBark
  else
    match d.keys.find? fun (k : KeyEntry) => k.title == title with
    | some k => if (s.rootOf k.rootId).isNone then stNotPermitted
                else if (s.unwrapKey d.bark k).isNone then stBark else stNotPermitted
    | none => stNotPermitted

/-- The slots of VALID extents that cover a session's first board, as the mirror or the lookup's discs have them (R407). -/
def State.keySlots (s : State) (read : List Nat) (x : Session) : List Nat :=
  let l := (s.vlk.extents.filter fun (e : Extent) => e.covers x.title x.first && decide (e.st = .valid)).map (·.slot)
  if l = [] then (s.findExtent read x.title x.first).toList.map (·.slot) else l

/-- Reason 11: the title's key stands in a slot, or a mounted disc was to provide it, or a disc is mounted for it (R403,
R407). -/
def State.openKey (s : State) (c : Cmd) (x : Session) (read : List Nat) : State :=
  match s.vlk.keys.find? (·.title = x.title) with
  | some k => s.openDone c x k.idx
  | none =>
    match least (s.keySlots read x) with
    | none => s.openFail c 11 stNotPermitted
    | some slot =>
      match (s.bayOfSlot slot).bind fun b => s.crew.bays[b].disc with
      | some d =>
        if d.mounted then
          let k := d.keys.find? fun (e : KeyEntry) => e.title == x.title && (s.unwrapKey d.bark e).isSome
          match k.bind fun e => s.unwrapKey d.bark e with
          | some key =>
            match s.installKey x.title key with
            | (s, .held i) => s.openDone c x i
            | (s, _) => s.openFail c 11 stNotPermitted
          | none => s.openFail c 11 (s.keyFailure d x.title)
        else (s.setCmd { c with wait := .mount }).wantMount slot none c.cls c.func c.qid (.cmd c.id)
      | none => (s.setCmd { c with wait := .mount }).wantMount slot none c.cls c.func c.qid (.cmd c.id)

/-- Reason 10, then the key: of the token for BIND, of a slot or a disc otherwise (R398, R403). -/
def State.openContext (s : State) (c : Cmd) (x : Session) (bind : Option Bytes) (read : List Nat) : State :=
  match (if (s.fn c.func).quota ≤ s.sessionsOf c.func then none else s.freeContext) with
  | none => s.openFail c 10 stNotPermitted
  | some i =>
    let x := { x with id := i, nextOff := x.first }
    let c := { c with opens := some i, grant := some x, wait := .none }
    let s := (s.takeContext x).setCmd c
    match bind with
    | none => s.openKey c x read
    | some key =>
      match s.installKey x.title key with
      | (s, .held k) => s.openDone c x k
      | (s, .conflict k) => (s.keyConflict k x.title).openFail c 11 stNotPermitted
      | (s, .dropped) => s.openFail c 11 stNotPermitted

/-- The token has been read: reasons 1 to 9 (R403). -/
def State.openToken (s : State) (c : Cmd) (token : Bytes) : State :=
  let s := s.seeTime
  match s.checkToken c.func token with
  | .refused r st => s.openFail c r st
  | .ok x (some key) => s.openContext c x (some key) []
  | .ok x none =>
    if (s.resolve x.title x.first).isSome then s.openContext c x none []
    else (s.setCmd { c with grant := some x, wait := .mount }).addLookup c x.title [x.first]

/-- Begin a SESSION OPEN: refused at once until SET TIME, else its token is read (R403, R468). -/
def State.openStart (s : State) (c : Cmd) : State :=
  if !s.vlk.timeSet then s.openFail c 7 stNotPermitted
  else (s.setCmd { c with wait := .host 0 }).hostRead c.func c.buffer 512 true (.cmd c.id)

/-- The lookup of an open has ended (R403, R424). -/
def State.openFound (s : State) (c : Cmd) (read : List Nat) (failed : Option Nat) : State :=
  match c.grant with
  | none => s
  | some x =>
    if (s.findExtent read x.title x.first).isSome then s.openContext c x none read
    else s.openFail c 9 (failed.getD stNotPermitted)

/-- The mount for an open's key has ended (R407). -/
def State.openMounted (s : State) (c : Cmd) (st : Nat) : State :=
  match c.opens.bind s.session with
  | none => s
  | some x =>
    if st ≠ stSuccess then s.openFail c 11 st
    else
      match s.vlk.keys.find? (·.title = x.title) with
      | some k => s.openDone c x k.idx
      | none =>
        match (least (s.keySlots [] x)).bind fun slot => (s.bayOfSlot slot).bind fun b => s.crew.bays[b].disc with
        | some d => s.openFail c 11 (s.keyFailure d x.title)
        | none => s.openFail c 11 stNotPermitted

/-- Bays whose mounted disc a session has written. -/
def State.baysWrittenBy (s : State) (x : Session) : List Bay :=
  (List.finRange 12).filter fun b => match s.crew.bays[b].disc with | some d => x.wrote.contains d.slot | none => false

/-- Begin a SESSION CLOSE: what a BIND session left pending is recorded (R401, R412, R469). -/
def State.closeStart (s : State) (c : Cmd) : State :=
  let s := s.setCmd { c with wait := .close }
  match s.session c.session with
  | none => s
  | some x =>
    (s.baysWrittenBy x).foldl (fun t b =>
      match t.crew.bays[b].disc with
      | some d => if d.hasPending then t.startGen b (.close c.id) c.cls else t
      | none => t) s

/-- Commands that count on a session. -/
def State.sessionBusy (s : State) (id : Nat) : Bool := s.qen.cmds.any fun x => decide (x.sess = some id)

/-- Whether a bay still records a generation that the close of a session, or another cause, has asked for. -/
def State.closePending (s : State) (id : Nat) : Bool :=
  (List.finRange 12).any fun b => s.crew.bays[b].gens.any fun g => decide (g.cause = .close id)

/-- A CLOSING session whose last command has completed becomes FREE, and its close completes (R401, R469). -/
def State.closeFinal (s : State) (id : Nat) : State :=
  match s.session id with
  | none => s
  | some x =>
    if x.st ≠ .closing ∨ s.sessionBusy id then s
    else
      match s.qen.cmds.find? fun c => c.opcode == 0x85 && c.session == id && c.func == x.func with
      | none => s.freeSession id
      | some c =>
        if c.wait ≠ .close ∨ s.closePending c.id then s
        else
          let st := match c.fail with | some (_, v) => v | none => stSuccess
          (s.finish c st (min x.boards 0xFFFFFFFF)).freeSession id

end Sys2Proof.Machine
end

