-- ==== Sys2Proof/Machine/MountOps.lean ====
section
/-! DEFINITION. How mounts, unmounts, moves and work items end (R25, R38, R360, R412, R423–R425, R465, R470–R473). -/
namespace Sys2Proof.Machine

/-- The command status of a WORK_DONE status (R25). -/
def WStatus.command : WStatus → Nat
  | .done => stSuccess
  | .notBlank | .noBark => stNotPermitted
  | .unpowered => stUnpowered
  | .slotEmpty => stSlotEmpty
  | .targetUnreachable => stUnreachable
  | .homingFault => stHoming
  | .switchChatter => stChatter
  | .mountFailed => stMountFailed
  | .refused | .header | .powerLimited | .partly | .fault | .dropped => stFault

/-! ## VERIFY SCAN (R465) -/

/-- Status and RESULT of a scan. -/
def scanOutcome (c : Cmd) : Nat × Nat :=
  (if c.n1 = 0 then stSuccess else stUnreadable, sat16 c.n1 * 2 ^ 16 + sat16 c.n2)

/-- Go on with a scan: the next log's VERIFY item, or the mount it needs first. -/
def State.scanStep (s : State) (id : Nat) : State :=
  match s.cmd id with
  | none => s
  | some c =>
    match c.wait with
    | .scan log =>
      let slot := c.address / 2 ^ 32
      let last := (c.address % 2 ^ 32 + c.count - 1) / 16
      if last < log then s.finish c (scanOutcome c).1 (scanOutcome c).2
      else if s.crew.items.any fun (i : HubItem) => decide (i.what = .verify id log) then s
      else
        let ready := (s.bayOfSlot slot).bind fun b =>
          if s.slotMounted slot ∧ s.crew.bays[b].task = .idle then some b else none
        match ready with
        | none => s.wantMount slot none c.cls c.func c.qid (.cmd id)
        | some b =>
          match s.dieBlocked (dieOfBay b) with
          | some st => s.finish c st (scanOutcome c).2
          | none => (s.sendWork (dieOfBay b) 8 c.cls (bayInDie b) c.func c.qid [logWord log 0] (.verify id log)).1
    | _ => s

/-- Begin a scan. -/
def State.scanStart (s : State) (c : Cmd) : State :=
  (s.setCmd { c with wait := .scan (c.address % 2 ^ 32 / 16) }).scanStep c.id

/-- The LOG_DONE of a scanned log: a FAILED log counts, and its record, or a marginal log's, is written while there is room. -/
def State.scanLog (s : State) (id log result passes erased : Nat) : State :=
  match s.cmd id with
  | none => s
  | some c =>
    let margin := bitsOf (c.word 8) 2 0
    let failed := result = 2
    let listed := failed ∨ (margin ≠ 0 ∧ result = 1 ∧ margin ≤ erased)
    let room := c.n2 < c.word 7
    let s := if listed ∧ room then
        s.hostWrite c.func (c.buffer + 8 * c.n2) (leBytes 4 (16 * log) ++ leBytes 1 result ++ leBytes 1 passes ++ leBytes 1 erased
          ++ leBytes 1 0) true
      else s
    s.setCmd { c with n1 := c.n1 + b2n failed, n2 := c.n2 + b2n (listed ∧ room) }

/-! ## MOUNT and MOVE DISC (R470, R472) -/

/-- RESULT of a MOUNT: extents read, keys unwrapped, bay. -/
def mountResult (d : BayDisc) (b : Bay) : Nat :=
  sat16 ((match d.gen with | some g => g.dir.length | none => 0)) * 2 ^ 16 + min d.keysGot 255 * 2 ^ 8 + b.val

/-- A MOUNT completes with the bay that holds its disc. -/
def State.mountDone (s : State) (c : Cmd) (st : Nat) : State :=
  if st ≠ stSuccess then s.finish c st 0
  else
    match s.bayOfSlot (c.address / 2 ^ 32) with
    | some b => match s.crew.bays[b].disc with | some d => s.finish c stSuccess (mountResult d b) | none => s.finish c stFault 0
    | none => s.finish c stFault 0

/-- Begin a MOUNT (R470). -/
def State.mountStart (s : State) (c : Cmd) : State :=
  let slot := c.address / 2 ^ 32
  let bay : Option Bay := if bitOf (c.word 7) 4 then none else some (Fin.ofNat 12 (c.word 7 % 16))
  let busy := match bay with
    | some b => (match s.crew.bays[b].disc with | some d => d.slot != slot | none => false) && (s.bayRecording b || s.genPending b)
    | none => false
  if s.slotMounted slot then s.mountDone c stSuccess
  else if busy then s.finish c stNotPermitted 0
  else (s.setCmd { c with wait := .mount }).wantMount slot bay c.cls c.func c.qid (.cmd c.id)

/-- The transfer of a MOVE DISC: the item goes to the mechanism die (R313, R472). -/
def State.moveGo (s : State) (c : Cmd) : State :=
  match s.dieBlocked 1 with
  | some st => s.finish c st 0
  | none =>
    ((s.setCmd { c with wait := .move }).sendWork 1 6 c.cls 0 c.func c.qid
      [bitsOf (c.word 7) 12 0 * 2 ^ 51 + bitsOf (c.word 8) 12 0 * 2 ^ 38] (.move c.id (bitsOf (c.word 7) 12 0) (bitsOf (c.word 8) 12 0))).1

/-- Begin a MOVE DISC (R313, R373, R472). -/
def State.moveDiscStart (s : State) (c : Cmd) : State :=
  let src := bitsOf (c.word 7) 12 0
  let dst := bitsOf (c.word 8) 12 0
  let seated := if src < 4096 then s.bayOfSlot src else none
  let away := if dst < 4096 then s.bayOfSlot dst else none
  if (src < 4096 && s.slotDirty src) || (dst < 4096 && s.slotDirty dst) then s.finish c stNotPermitted 0
  else if s.yrd.occupied.contains dst ∨ away.isSome then s.finish c stNotPermitted 0
  else
    match seated with
    | some b =>
      (s.setCmd { c with wait := .unmount b }).setHubBay b
        { s.crew.bays[b] with unmountCmds := s.crew.bays[b].unmountCmds ++ [c.id] }
    | none => if s.yrd.occupied.contains src then s.moveGo c else s.finish c stSlotEmpty 0

/-! ## The end of a mount -/

/-- A command goes on after the mount it waited for. -/
def State.continueMount (s : State) (id slot st : Nat) : State :=
  match s.cmd id with
  | none => s
  | some c =>
    match s.vlk.lookups.find? fun k => k.cmd == id && decide (k.at_ = some slot) with
    | some k =>
      s.setLookup { k with at_ := none, read := k.read ++ [slot]
                           failed := if st = stSuccess then k.failed else some (k.failed.getD st) }
    | none =>
      if c.opcode = 0x03 then s.recordMounted c st
      else if c.opcode = 0x07 then (if st = stSuccess then s.scanStep id else s.finish c st (scanOutcome c).2)
      else if c.opcode = 0x84 then s.openMounted c st
      else if c.opcode = 0x88 then s.mountDone c st
      else s

/-- The fills and recordings that only a slot's disc could serve end without it (R353, R359). -/
def State.slotLost (s : State) (slot st : Nat) : State :=
  let s := (s.lnd.misses.filter fun m => m.slot == slot && m.item.isNone && !m.closing).foldl (fun t x =>
    match t.miss x.id with
    | some m => t.fillOver m (.broken st) false false
    | none => t) s
  ((s.linesIn .recording).filter fun e => e.2.slot == slot).foldl (fun t e =>
    if t.crew.items.any fun (i : HubItem) => decide (i.what = .record slot e.2.log) then t
    else (t.settleLine slot e.2.log false).lineSettled slot e.2.log st) s

/-- The background rebuild's mount has ended (R423). -/
def State.rebuildEnded (s : State) (slot st : Nat) : State :=
  let s := { s with vlk := { s.vlk with rebuild := none } }
  if st = stSuccess then
    match s.bayOfSlot slot with
    | some b =>
      let wanted := (s.wantedSlots.any fun x => x.1 == slot) || s.vlk.lookups.any fun k => decide (k.at_ = some slot)
      if s.bayIdle b ∧ !wanted then s.clearBay b 3 0 1023 else s
    | none => s
  else if st = stSlotEmpty then s.mirror slot []
  else { s with vlk := { s.vlk with passed := s.vlk.passed ++ [slot] } }

/-- A mount has ended, well or with a status: everyone who waited for it goes on (R407, R423, R424, R470). -/
def State.mountEnded (s : State) (slot st : Nat) : State :=
  match s.mountOf slot with
  | none => s
  | some j =>
    let s := { s with crew := { s.crew with mounts := s.crew.mounts.filter fun (x : MountJob) => x.slot ≠ slot } }
    let s := j.owners.foldl (fun t o => match o with | .cmd id => t.continueMount id slot st | _ => t) s
    let s := if st ≠ stSuccess then s.slotLost slot st else s
    if j.owners.contains .dir then s.rebuildEnded slot st else s

/-- The status with which a waiting mount fails because no die that could serve it takes work (R37, R38). -/
def State.mountBlocked (s : State) (j : MountJob) : Option Nat :=
  let first : List Bay → Option Nat := fun l =>
    if l.all fun b => (s.dieBlocked (dieOfBay b)).isSome then (l.head?.bind fun b => s.dieBlocked (dieOfBay b)) else none
  match s.bayOfSlot j.slot with
  | some b => s.dieBlocked (dieOfBay b)
  | none =>
    let bays := match j.bay with | some b => [b] | none => (List.finRange 12).filter fun b => s.hasBay b
    if s.code.changer then (match s.dieBlocked 1 with | some st => some st | none => first bays)
    else first (bays.filter fun b => b.val == j.slot)

/-- Fail the waiting mounts that no die can serve. -/
def State.failMounts (s : State) : State :=
  if !s.fieldReady then s
  else (s.crew.mounts.filter fun (j : MountJob) => decide (j.stage = .waiting)).foldl (fun t j =>
    match t.mountBlocked j with
    | some st => t.mountEnded j.slot st
    | none => t) s

/-- Everything that may go on after a change goes on; what no die can serve fails. -/
def State.settle (s : State) : State := s.settleWork.failMounts

/-! ## The end of an unmount (R471) -/

/-- The unmount of a bay has ended: its commands complete or go on, and a mount that waited for the bay takes it. -/
def State.unmountEnded (s : State) (b : Bay) (st : Nat) : State :=
  let x := s.crew.bays[b]
  let disc : Option BayDisc :=
    if st = stSuccess ∧ s.code.changer then none
    else x.disc.map fun d => { d with mounted := false, pendKeys := [], pendExts := [], drawn := none }
  let s := s.setHubBay b { x with disc, task := .idle, unmountCmds := [], genDone := none, genFail := 0 }
  let s := x.unmountCmds.foldl (fun t id =>
    match t.cmd id with
    | none => t
    | some c =>
      let fail := if x.genFail ≠ 0 then x.genFail else st
      if c.opcode = 0x89 then t.finish c fail (x.genDone.getD 0xFFFF)
      else if st ≠ stSuccess then t.finish c st 0
      else t.moveGo c) s
  (s.crew.mounts.filter fun (j : MountJob) => decide (j.stage = .clearing ∧ j.bay = some b)).foldl (fun t j =>
    if st = stSuccess then t.setMount { j with stage := .waiting } else t.mountEnded j.slot st) s

/-- Begin an UNMOUNT (R471). -/
def State.unmountStart (s : State) (c : Cmd) : State :=
  let b : Bay := Fin.ofNat 12 (c.word 7 % 16)
  let x := s.crew.bays[b]
  match x.disc with
  | none => s.finish c stNotPermitted 0
  | some d =>
    if !s.code.changer ∧ !d.mounted ∧ x.task = .idle then s.finish c stSuccess 0xFFFF
    else
      match s.dieBlocked (dieOfBay b) with
      | some st => s.finish c st 0xFFFF
      | none => (s.setCmd { c with wait := .unmount b }).setHubBay b { x with unmountCmds := x.unmountCmds ++ [c.id] }

/-! ## The end of a generation (R412) -/

/-- A generation has been recorded or has failed. -/
def State.genOver (s : State) (b : Bay) (g : GenRun) (st : Nat) : State :=
  let x := s.crew.bays[b]
  let ok := st = stSuccess
  let s := s.setHubBay b { x with
    gens := x.gens.drop 1
    disc := if ok then x.disc.map fun d => { d with gen := some g.gen } else x.disc
    genDone := if ok then some g.gen.gen else x.genDone
    genFail := if ok ∨ x.genFail ≠ 0 then x.genFail else st }
  let s := match s.crew.bays[b].disc with
    | some d => if ok then (s.mirror d.slot (s.extentsOf d)) else s
    | none => s
  match g.cause with
  | .close id => if ok then s else match s.cmd id with | some c => s.setCmd (c.failAt 0 st) | none => s
  | _ => s

/-- One copy of a generation has ended: the next follows, or the generation is over (R67, R412). -/
def State.genCopy (s : State) (b : Bay) (st : Nat) : State :=
  match s.crew.bays[b].gens with
  | [] => s
  | g :: rest =>
    let left := g.layers.drop 1
    if st = stSuccess ∧ left ≠ [] then
      s.setHubBay b { s.crew.bays[b] with gens := { g with layers := left, sent := false } :: rest }
    else s.genOver b g st

/-! ## The end of a work item (R25) -/

/-- A data log has been recorded: it counts in HIGHLOG, and a blank disc's first takes a generation with it (R67, R69). -/
def State.logRecorded (s : State) (slot log cls : Nat) : State :=
  match s.bayOfSlot slot with
  | none => s
  | some b =>
    let k := log / logsPerLayer
    let s := s.mapDisc b fun d => { d with high := d.high.set k (max (d.high.getD k 0) (log % logsPerLayer + 1)) }
    match s.crew.bays[b].disc with
    | some d => if d.gen.isNone ∧ s.crew.bays[b].gens = [] ∧ !d.orphan ∧ d.measured.isSome then s.startGen b .full cls else s
    | none => s

/-- The scale-book records of a slot become STALE; a mail slot has none. -/
def State.stalePlace (s : State) (place : Nat) : State := if place < 4096 then s.staleSlot place else s

/-- The commands of a CRUISE NOW run complete with the run's flags (R340, R473). -/
def State.cruiseEnded (s : State) (id : Nat) (b : Bay) (st : Nat) : State :=
  (s.qen.cmds.filter fun c => c.id == id || (decide (c.wait = .cruise b) && c.done == id + 1)).foldl (fun t c =>
    t.finish c st (if st = stSuccess then s.cru[b].flags else 0)) s

/-- An item has ended with a command status (R25, R38, R354, R360, R424, R446, R470–R473); a disc fetched for a mount that was
given up stays in the bay unmounted. -/
def State.itemEnded (s : State) (x : HubItem) (st : Nat) : State :=
  let ok := st = stSuccess
  match x.what with
  | .fill id =>
    match s.miss id with
    | some m =>
      if m.closing ∨ m.item ≠ some x.item then s
      else if ok then s.refill m
      else s.fillOver m (.broken st) false false
    | none => s
  | .verify id log =>
    match s.cmd id with
    | some c => if ok then (s.setCmd { c with wait := .scan (log + 1) }).scanStep id else s.finish c st (scanOutcome c).2
    | none => s
  | .record slot log =>
    let s := if ok then s.logRecorded slot log x.cls else s
    (s.settleLine slot log ok).lineSettled slot log st
  | .generation b _ => s.genCopy b st
  | .mount slot =>
    match s.mountOf slot, bayOf x.die x.bay with
    | some j, some b =>
      if ok then s.setMount { j with stage := .read }
      else
        let s := s.setTask b .idle
        let s := if st = stMountFailed ∧ s.code.changer then
            (s.setTask b .unmounting).returnDisc b x.cls x.func x.qid else s
        s.mountEnded slot st
    | none, some b => s.setTask b .idle
    | _, none => s
  | .unmount b =>
    if ok ∧ s.code.changer then
      (s.mapDisc b fun d => { d with mounted := false }).returnDisc b x.cls x.func x.qid
    else s.unmountEnded b st
  | .fetch slot =>
    match s.mountOf slot with
    | some j =>
      match j.bay with
      | some b =>
        if !ok then (s.setTask b .idle).mountEnded slot st
        else if j.owners = [] then
          let s := { s with crew := { s.crew with mounts := s.crew.mounts.filter fun (y : MountJob) => y.slot ≠ slot } }
          s.setHubBay b { s.crew.bays[b] with task := .idle, disc := some { slot } }
        else s.spinUp j b
      | none => s
    | none => s
  | .putBack b => s.unmountEnded b st
  | .move id src dst => (if ok then (s.stalePlace src).stalePlace dst else s).finishId id st 0
  | .cruise id => match bayOf x.die x.bay with | some b => s.cruiseEnded id b st | none => s

/-- An item that QUEUE_RESET dropped: what other commands still need of it is asked for again (R24, R446). -/
def State.itemDropped (s : State) (x : HubItem) : State :=
  let again : Nat → State → Option Bay → State := fun slot s b =>
    let s := match b with | some b => s.setTask b .idle | none => s
    match s.mountOf slot with
    | some j =>
      if j.owners = [] then { s with crew := { s.crew with mounts := s.crew.mounts.filter fun (y : MountJob) => y.slot ≠ slot } }
      else s.setMount { j with stage := .waiting }
    | none => s
  match x.what with
  | .fill id =>
    match s.miss id with
    | some m =>
      if m.closing ∨ m.item ≠ some x.item then s
      else
        match m.waiters with
        | r :: _ => (s.setMiss { m with item := none, func := r.func, qid := r.qid }).bump (hubAt .lnd) F.LND_CNT2_REFILLS
        | [] => if m.ranged ∧ s.lnd.range.isSome then s.setMiss { m with item := none } else s.fillOver m (.broken stFault) false false
    | none => s
  | .mount slot => again slot s (bayOf x.die x.bay)
  | .fetch slot => again slot s ((s.mountOf slot).bind (·.bay))
  | .unmount b | .putBack b =>
    let y := s.crew.bays[b]
    s.setHubBay b { y with task := .idle, unmountCmds := y.unmountCmds.filter fun id => (s.cmd id).isSome }
  | .generation b _ => s.genCopy b stFault
  | _ => s

/-- The hub sees a port go DOWN: every item on it ends with one status, and its discs count as unmounted (R37, R38). -/
def State.portLost (s : State) (d : Die) : State :=
  let st := if s.ports[d].signal then stFault else stUnpowered
  let items := s.crew.items.filter fun (x : HubItem) => decide (x.die = d)
  let s := { s with crew := { s.crew with items := s.crew.items.filter fun (x : HubItem) => x.die ≠ d } }
  let s := items.foldl (fun t x => t.itemEnded x st) s
  let s := (s.lnd.misses.filter fun m => m.closing && items.any fun x => decide (x.what = .fill m.id)).foldl (fun t m => t.freeMiss m.id) s
  (baysOfDie d).foldl (fun t b =>
    let x := t.crew.bays[b]
    let t := x.gens.foldl (fun t g => t.genOver b g st) t
    t.mapDisc b fun y => { y with mounted := false }) s

end Sys2Proof.Machine
end

