-- ==== Sys2Proof/Machine/CheckOps.lean ====
section
/-! DEFINITION. The checks of a fetched entry (R14, R399, R431, R432, R456, R457 and the field tables of chapter 15). -/
namespace Sys2Proof.Machine

/-! ## Shared field checks -/

/-- Dwords i to j are 0. -/
def Cmd.zero (c : Cmd) (i j : Nat) : Bool := (List.range (j + 1 - i)).all fun k => c.word (i + k) == 0

/-- A buffer with its alignment that does not wrap past 2⁶⁴ - 1 (R457). -/
def bufferOk (a align len : Nat) : Bool := a % align == 0 && decide (a + len ≤ 2 ^ 64)

/-- A count in its range (R14, R456). -/
def Cmd.counts (c : Cmd) (lo hi : Nat) : Bool := decide (lo ≤ c.count ∧ c.count ≤ hi)

/-- Title-relative boards that stay within 32 bits (R460). -/
def Cmd.offsetOk (c : Cmd) : Bool := decide (c.word 4 + c.count ≤ 2 ^ 32)

/-- The whole SESSION dword, DELIVERY, BUFFER and ADDRESS fields are 0 where a command does not use them (R457). -/
def Cmd.noSession (c : Cmd) : Bool := c.session == 0
def Cmd.noDelivery (c : Cmd) : Bool := c.delivery == 0
def Cmd.noBuffer (c : Cmd) : Bool := c.buffer == 0
def Cmd.noAddress (c : Cmd) : Bool := c.address == 0

/-- None of the four is used. -/
def Cmd.bare (c : Cmd) : Bool := c.noSession && c.noDelivery && c.noBuffer && c.noAddress

/-- A bay number of the vault in dword 7 (R3). -/
def State.bayField (s : State) (c : Cmd) : Bool := decide (c.word 7 ≤ 15) && s.hasBay (c.word 7)

/-- A slot or mail-slot code of the vault (R309, R472). -/
def State.moveCode (s : State) (p : Nat) : Bool := decide (p < s.slots) || decide (4112 ≤ p ∧ p < 4120)

/-! ## Log pages and features -/

/-- Length of a log page, and whether it is for the physical function alone (R484). -/
def pageLength (lid : Nat) : Option (Nat × Bool) :=
  match lid with
  | 1 => some (2064, false) | 2 => some (8208, true) | 3 => some (304, true) | 4 => some (592, true) | 5 => some (784, true)
  | 6 => some (80, true) | 7 => some (72, true) | 8 => some (1024, true) | 9 => some (144, true) | 10 => some (4136, true)
  | _ => none

/-- Whether a feature value lies in its range (R486). -/
def featureValueOk (fid v : Nat) : Bool :=
  match fid with
  | 1 => decide (v % 1024 ≤ 512) && bitsOf v 15 10 == 0 && decide (v < 2 ^ 18)
  | 2 => decide (v ≤ 16384)
  | 3 => decide (1 ≤ bitsOf v 15 8 ∧ bitsOf v 15 8 ≤ 100) && decide (v < 2 ^ 16)
  | 4 => decide (1 ≤ bitsOf v 17 12 ∧ 1 ≤ bitsOf v 11 6 ∧ 1 ≤ bitsOf v 5 0) && decide (v < 2 ^ 18)
  | 5 => decide (v ≤ 1)
  | 6 => true
  | _ => false

/-! ## Fields of each command -/

/-- The fields of a data command are as its table has them. -/
def State.dataFields (s : State) (c : Cmd) : Bool :=
  let vault := s.vaultOk c.address c.count
  match c.opcode with
  | 0x01 => c.counts 1 16384 && decide (c.delivery ≤ 1) && bufferOk c.buffer 64 (4096 * c.count) && c.offsetOk && c.zero 9 15
      && (if c.delivery = 1 then c.wide 7 != 0 && bufferOk (c.wide 7) 32 (32 * c.count) else c.wide 7 == 0)
  | 0x02 => c.counts 1 16384 && c.noDelivery && c.noSession && bufferOk c.buffer 64 (4096 * c.count) && vault && c.zero 7 15
  | 0x03 => c.counts 1 16384 && decide (c.delivery ≤ 1) && bufferOk c.buffer 16 (4112 * c.count) && vault && c.zero 7 15
  | 0x04 => c.counts 1 16384 && c.noBuffer && decide (c.word 7 ≤ 3) && c.zero 8 15
      && (if bitOf (c.word 7) 0 then vault else c.offsetOk)
  | 0x07 => c.counts 1 302080000 && c.noDelivery && c.noSession && vault && decide (c.word 7 ≤ 65536) && decide (c.word 8 ≤ 4)
      && (if c.word 7 = 0 then c.noBuffer else bufferOk c.buffer 8 (8 * c.word 7)) && c.zero 9 15
  | _ => c.bare && c.zero 7 15

/-- The fields of a queue, session, disc or bay command. -/
def State.discFields (s : State) (c : Cmd) : Bool :=
  let f := s.fn c.func
  match c.opcode with
  | 0x80 => c.counts 2 65536 && c.bare && c.word 7 == c.word 7 % 1024 + bitsOf (c.word 7) 17 16 * 2 ^ 16
      && decide (1 ≤ c.word 7 % 1024 ∧ c.word 7 % 1024 ≤ f.pairs) && decide (f.floor ≤ bitsOf (c.word 7) 17 16)
      && c.wide 8 % 4096 == 0 && c.wide 10 % 4096 == 0 && c.word 12 == c.word 12 % 2048 + bitsOf (c.word 12) 16 16 * 2 ^ 16
      && decide (c.word 12 % 2048 < msixSize c.func) && c.zero 13 15
  | 0x81 | 0x82 => c.bare && decide (1 ≤ c.word 7 ∧ c.word 7 ≤ f.pairs) && c.zero 8 15
  | 0x84 => c.noSession && c.noDelivery && c.noAddress && bufferOk c.buffer 8 512 && c.zero 7 15
  | 0x85 => c.noDelivery && c.noBuffer && c.noAddress && c.zero 7 15
  | 0x88 => c.noSession && c.noDelivery && c.noBuffer && s.vaultOk c.address 1 && c.address % 2 ^ 32 == 0
      && decide (c.word 7 < 32) && c.zero 8 15
      && (if bitOf (c.word 7) 4 then c.word 7 % 16 == 0
          else s.hasBay (c.word 7 % 16) && (s.code.changer || c.address / 2 ^ 32 == c.word 7 % 16))
  | 0x89 | 0x8C => c.bare && s.bayField c && c.zero 8 15
  | 0x8A => c.bare && s.moveCode (c.word 7) && s.moveCode (c.word 8) && c.word 7 != c.word 8 && c.zero 9 15
  | 0x8D => c.noSession && c.noDelivery && c.noAddress && bufferOk c.buffer 64 64 && s.bayField c && c.zero 8 15
  | _ => c.bare && c.zero 7 15

/-- The fields of a firmware, log page, feature or register command. -/
def Cmd.deviceFields (c : Cmd) : Bool :=
  let w := c.word 7
  match c.opcode with
  | 0x90 => c.counts 1 256 && c.noSession && c.noDelivery && c.noAddress && bufferOk c.buffer 64 (4096 * c.count)
      && decide (c.word 8 ≤ 1) && c.zero 9 15
  | 0x91 => c.bare && decide (w ≤ 3) && (c.word 10 == 0 || decide (60 ≤ c.word 10 ∧ c.word 10 ≤ 3600)) && c.zero 11 15
  | 0x94 => c.counts 4 65536 && c.count % 4 == 0 && c.noSession && c.noDelivery && c.noAddress && bufferOk c.buffer 4 c.count
      && decide (w < 256) && c.word 8 % 4 == 0 && c.zero 9 15
      && (match pageLength w with | some (n, _) => decide (c.word 8 < n) | none => false)
  | 0x95 => c.bare && w == w % 256 + bitsOf w 21 16 * 2 ^ 16 && featureValueOk (w % 256) (c.word 8) && c.zero 9 15
  | 0x96 => c.bare && w == w % 256 + bitsOf w 21 16 * 2 ^ 16 && decide (1 ≤ w % 256 ∧ w % 256 ≤ 6) && c.zero 8 15
  | 0x98 | 0x99 =>
      let imm := c.opcode == 0x99 && bitOf w 9
      let d := w % 8
      c.counts 1 256 && c.noSession && c.noDelivery && c.noAddress && bitsOf w 7 3 == 0 && bitsOf w 15 10 == 0
      && (c.opcode == 0x99 || !bitOf w 9) && d != 0 && !(d == 1 && bitOf w 8)
      && bitsOf w 31 16 % 4 == 0 && decide (bitsOf w 31 16 + 4 * (c.count - 1) ≤ 0xFFFC)
      && (if imm then c.count == 1 && c.noBuffer else bufferOk c.buffer 4 (4 * c.count))
      && (c.opcode == 0x99 || c.word 8 == 0) && c.zero 9 15
  | _ => c.bare && c.zero 7 15

/-- The range operation of SCRUB RANGE or LANDING RANGE OP (R480). -/
def Cmd.rangeOp (c : Cmd) : Option RangeOp :=
  let w := c.word 7
  (if c.opcode = 0x9A then some RangeKind.scrub else RangeKind.ofCode (bitsOf w 18 16)).map fun kind =>
    { kind, slot := c.address / 2 ^ 32, slots := bitsOf w 12 0, lba := c.address % 2 ^ 32, count := c.count, cls := c.cls
      force := c.opcode == 0x9B && bitOf w 19, cmd := some c.id }

/-- The fields of a range, scale-book or time command. -/
def State.bookFields (s : State) (c : Cmd) : Bool :=
  let w := c.word 7
  match c.opcode with
  | 0x9A | 0x9B =>
      let op := bitsOf w 18 16
      c.counts 1 302080000 && c.noSession && c.noDelivery && bufferOk c.buffer 8 (if c.opcode = 0x9A then 40 else 16)
      && c.zero 8 15 && bitsOf w 15 13 == 0 && decide (1 ≤ bitsOf w 12 0 ∧ bitsOf w 12 0 ≤ 4096) && s.vaultOk c.address 1
      && decide (c.address / 2 ^ 32 + bitsOf w 12 0 ≤ 4096) && decide (c.address % 2 ^ 32 + c.count ≤ lbaEnd)
      && (if c.opcode = 0x9A then decide (w < 2 ^ 13)
          else decide (w < 2 ^ 20) && decide (1 ≤ op ∧ op ≤ 5) && (!bitOf w 19 || op == 1))
  | 0x9C =>
      c.noSession && c.noDelivery && c.noBuffer && decide (w ≤ 1) && c.zero 9 15
      && (if w = 0 then c.noAddress && decide (c.word 8 < 256) && decide (c.word 8 % 16 ≤ c.word 8 / 16)
            && decide (256 * (c.word 8 / 16) < s.slots) && s.code.changer
          else c.counts 1 302080000 && c.offsetOk && decide (c.word 8 < 4096) && decide (c.word 8 < s.slots))
  | 0x9D => c.bare && c.word 7 == 0 && c.zero 10 15
  | _ => c.bare && c.zero 7 15

/-- Opcodes of I/O queues and of management queues (R456). -/
def ioOpcodes : List Nat := [0x01, 0x02, 0x03, 0x04, 0x05, 0x06, 0x07]
def mgmtOpcodes : List Nat :=
  [0x80, 0x81, 0x82, 0x84, 0x85, 0x88, 0x89, 0x8A, 0x8C, 0x8D, 0x90, 0x91, 0x92, 0x93, 0x94, 0x95, 0x96, 0x98, 0x99, 0x9A,
   0x9B, 0x9C, 0x9D]

/-- Opcodes for the physical function alone (R456). -/
def pfOpcodes : List Nat :=
  [0x02, 0x03, 0x07, 0x88, 0x89, 0x8A, 0x8C, 0x8D, 0x90, 0x91, 0x92, 0x93, 0x95, 0x98, 0x99, 0x9A, 0x9B, 0x9C, 0x9D]

/-- The opcode-specific checks: who may send the command, then its fields. -/
def State.fieldStatus (s : State) (c : Cmd) : Option Nat :=
  let op := c.opcode
  let vf := c.func != 0
  let fields := if op < 0x80 then s.dataFields c else if op < 0x90 then s.discFields c
    else if op < 0x9A then c.deviceFields else s.bookFields c
  if vf && pfOpcodes.contains op then some stNotPermitted
  else if vf && op == 0x04 && decide (c.word 7 % 4 ≠ 0) then some stNotPermitted
  else if op == 0x8A && !s.code.changer then some stNotPermitted
  else if vf && op == 0x94 && (match pageLength (c.word 7 % 256) with | some (_, pf) => pf | none => false) then some stNotPermitted
  else if vf && op == 0x96 && (decide (3 < c.word 7 % 256) || bitsOf (c.word 7) 21 16 != c.func) then some stNotPermitted
  else if fields then none else some stInvalidField

/-- In recovery four commands run, GET LOG PAGE for the firmware page alone (R566). -/
def State.recoveryRefused (s : State) (c : Cmd) : Bool :=
  decide (s.fwu.run = .recovery) && !([0x90, 0x91, 0x9D].contains c.opcode || (c.opcode == 0x94 && c.word 7 == 8))

/-- The checks of R432 before the session's, in their order, with recovery's after the opcode's. -/
def State.entryStatus (s : State) (x : Queue) (c : Cmd) : Option Nat :=
  let op := c.opcode
  if bitsOf (c.word 0) 15 14 ≠ 0 ∨ bitsOf (c.word 1) 31 14 ≠ 0 then some stInvalidField
  else if !(if x.qid = 0 then mgmtOpcodes else ioOpcodes).contains op then some stInvalidOpcode
  else if s.recoveryRefused c then some stNotPermitted
  else if (op = 0x02 ∨ op = 0x03) ∧ c.func ≠ 0 then some stNotPermitted
  else if c.seat ∧ op ≠ 0x03 then some stInvalidField
  else if c.cls < (if x.qid = 0 then (s.fn c.func).floor else x.cls) then some stInvalidField
  else s.fieldStatus c

/-! ## Sessions -/

/-- The session of a command whose check of R399 the opcode asks for: with its title, mode and range. -/
def Cmd.sessionAsked (c : Cmd) : Option (Nat × Option Nat) :=
  if c.opcode = 0x01 then some (c.session, some c.delivery)
  else if c.opcode = 0x04 ∧ c.func ≠ 0 then some (c.session, none)
  else if c.opcode = 0x03 ∧ c.delivery = 1 then some (c.session, some 2)
  else none

/-- An uncorrectable context closes its session: its commands complete with SESSION_INVALID and it becomes FREE (R386,
R401). -/
def State.loseSession (s : State) (id : Nat) : State :=
  let s := (s.qen.cmds.filter fun c => decide (c.sess = some id)).foldl (fun t c => (t.dropRead c.id).finish c stSessionInvalid 0) s
  match s.session id with
  | some x => (s.setSession { x with st := .closing }).closeFinal id
  | none => s

/-- The vault lock reads a session's context and its key slot (R386, R396). -/
def State.readContext (s : State) (id : Nat) : State :=
  let (s, a) := s.checkRange 3 (192 * id) 192 5
  let (s, b) := match (s.session id).bind (·.keySlot) with
    | some k => s.checkRange 3 (0x300000 + 64 * k) 64 5
    | none => (s, [])
  (a ++ b).foldl (fun t u => t.setFlips (unitKey 3 u) 0) (if a = [] ∧ b = [] then s else s.loseSession id)

/-- The session check of a command (R399, R401, R462, R463, R469): the command may count on its session, or a status. -/
def State.sessionStep (s : State) (c : Cmd) : State × Cmd × Nat :=
  if c.opcode = 0x85 then
    let s := s.readContext c.session
    match s.session c.session with
    | some x =>
      if x.func = c.func ∧ (x.st = .opened ∨ x.st = .expired) then (s.setSession { x with st := .closing }, c, stSuccess)
      else (s, c, stSessionInvalid)
    | none => (s, c, stSessionInvalid)
  else
    match c.sessionAsked with
    | none => (s, c, stSuccess)
    | some (id, mode) =>
      let s := s.readContext id
      let title := if c.opcode = 0x03 then ((s.session id).map (·.title)).getD 0 else c.word 5
      let first := if c.opcode = 0x03 then ((s.session id).map (·.first)).getD 0 else c.word 4
      let (s, v) := s.checkSession id c.func title mode first (if c.opcode = 0x03 then 1 else c.count)
      (s, if v = stSuccess then { c with sess := some id } else c, v)

/-! ## Taking an entry -/

/-- The sixteen dwords of a submission entry (R431). -/
def entryWords (bs : Bytes) : List Word := (List.range 16).map fun i => BitVec.ofNat 32 (fieldAt bs (4 * i) 4)

/-- A fetched entry is checked: it waits to start, or completes at once (R432). -/
def State.takeEntry (s : State) (x : Queue) (bs : Bytes) : State :=
  let c : Cmd := { id := s.qen.nextCmd, func := x.func, qid := x.qid, dw := entryWords bs, kept := decide (sharedSlots ≤ s.sharedUsed) }
  let s := { s with qen := { s.qen with cmds := s.qen.cmds ++ [c], nextCmd := s.qen.nextCmd + 1 } }
  match s.entryStatus x c with
  | some st => s.finish c st 0
  | none =>
    match s.sessionStep c with
    | (s, c, v) => if v = stSuccess then s.setCmd c else s.finish c v 0

/-- An entry that could not be read completes under its place in the ring (R442). -/
def State.lostEntry (s : State) (x : Queue) (idx : Nat) : State :=
  let p : Post := { cid := s.qen.nextCmd, func := x.func, qid := x.qid, tag := 0xFFFF, status := stAbort, result := 0
                    sqHead := some ((idx + 1) % x.depth) }
  { s with qen := { s.qen with posts := s.qen.posts ++ [p], nextCmd := s.qen.nextCmd + 1 } }

end Sys2Proof.Machine
end

