-- ==== Sys2Proof/Machine/CutOps.lean ====
section
/-! DEFINITION. Cuts of queues (R443–R448, R450, R467, R485, R659): how RESET QUEUE, DELETE QUEUE PAIR, a halt and a lost queue
state end the commands of a queue. -/
namespace Sys2Proof.Machine

/-! ## Discarding -/

/-- A host read is given up: the completions of its outstanding pieces are discarded when they come (R509, R511). -/
def State.killRead (s : State) (r : HostRead) (counted : Bool) : State :=
  let tags := r.pieces.filterMap fun (p : Piece) => match p.st with | .out t => some (t, r.func, counted) | _ => none
  { s with ep := { s.ep with reads := s.ep.reads.erase r, dead := s.ep.dead ++ tags } }

/-- A command's host read is given up. -/
def State.killCmdRead (s : State) (id : Nat) (counted : Bool) : State :=
  match s.ep.reads.find? fun (r : HostRead) => decide (r.what = .cmd id) with
  | some r => s.killRead r counted
  | none => s

/-- The context that an unfinished open took is free again (R398). -/
def State.giveContext (s : State) (c : Cmd) : State := match c.opens with | some i => s.freeSession i | none => s

/-- An unmount that has not begun no longer waits for a command. -/
def State.leaveUnmounts (s : State) (id : Nat) : State :=
  (List.finRange 12).foldl (fun (t : State) b =>
    t.setHubBay b { t.crew.bays[b] with unmountCmds := t.crew.bays[b].unmountCmds.filter (· ≠ id) }) s

/-- A command is discarded: it leaves everything it waited for and posts nothing (R444, R446). -/
def State.discard (s : State) (c : Cmd) : State :=
  let s := (((s.killCmdRead c.id false).giveContext c).leaveUnmounts c.id).dropCmd c.id
  match c.sess with
  | some i => s.closeFinal i
  | none => if c.opcode = 0x85 then s.closeFinal c.session else s

/-- What a discarded command adds to LANDED, PART_LOGS and DISCARDED (R445). -/
def Cmd.cutCounts (c : Cmd) : Nat × Nat := if c.opcode = 0x03 then (b2n (0 < c.landed), c.parts) else (0, 0)

/-- Commands of a queue. -/
def State.cmdsOf (s : State) (f q : Nat) : List Cmd := s.qen.cmds.filter fun c => c.func == f && c.qid == q

/-- Ports that hold work items of a queue. -/
def State.portsOf (s : State) (f q : Nat) : List Nat :=
  ((s.crew.items.filter fun (x : HubItem) => x.func == f && x.qid == q).map fun (x : HubItem) => x.die.val).dedup

/-- The work items of a queue are dropped on every port that holds them: a QUEUE_RESET goes to each (R446, R659). -/
def State.resetPorts (s : State) (f q : Nat) : State :=
  (s.portsOf f q).foldl (fun (t : State) p => t.sendReset (Fin.ofNat 8 p) false 0 f q) s

/-! ## The cut point -/

/-- Whether a cut leaves the queue halted. -/
def CutKind.halts : CutKind → Bool
  | .halt => true
  | .lost => true
  | _ => false

/-- The fetch of a queue under way. -/
def State.fetchOf (s : State) (f q : Nat) : Option (HostRead × Nat × Nat) :=
  s.ep.reads.findSome? fun (r : HostRead) =>
    match r.what with
    | .fetch q' start n => if r.func = f ∧ q' = q then some (r, start, n) else none
    | .cmd _ => none

/-- A cut of a queue (R444, R448): fetch stops, what is not decided is discarded, and its work items are dropped. -/
def State.startCut (s : State) (f q : Nat) (kind : CutKind) : State :=
  match s.queue f q with
  | none => s
  | some x =>
    let fetch := s.fetchOf f q
    let rest := match fetch with | some (_, _, n) => n + ringSpan x.depth x.sqHead x.sqTail
                                 | none => ringSpan x.depth x.sqHead x.sqTail
    let s := match fetch with | some (r, _, _) => s.killRead r false | none => s
    let head := match fetch with | some (_, start, _) => start | none => x.sqHead
    let y : Queue := if kind.halts then { x with st := .halting, sqHead := head }
                     else { x with st := .resetting, sqHead := x.sqTail }
    let s := s.setQueue y
    let cs := s.cmdsOf f q
    let ports := s.portsOf f q
    let s := s.resetPorts f q
    match kind with
    | .lost =>
      let s := cs.foldl (fun (t : State) c => ((t.killCmdRead c.id false).giveContext c).finishId c.id stAbort 0) s
      { s with qen := { s.qen with cuts := s.qen.cuts ++ [{ func := f, qid := q, kind, ports }] } }
    | _ =>
      let s := cs.foldl (fun (t : State) c => t.discard c) s
      let n := cs.length + (if kind.halts then 0 else rest)
      let cut : Cut := { func := f, qid := q, kind, discarded := n, ports
                         landed := (cs.map fun c => c.cutCounts.1).sum, partLogs := (cs.map fun c => c.cutCounts.2).sum }
      ({ s with qen := { s.qen with cuts := s.qen.cuts ++ [cut] } } : State).bumpBy (funAt .qen f) F.QEN_CNT_DISCARDS n

/-- RESULT of a cut (R445). -/
def Cut.result (c : Cut) : Nat := min c.landed 255 * 2 ^ 24 + min c.partLogs 255 * 2 ^ 16 + sat16 c.discarded

/-- Whether a cut is complete: every port has answered and every decided entry is written (R444, R447). -/
def State.cutReady (s : State) (c : Cut) : Bool :=
  c.ports.isEmpty && s.qen.posts.all fun p => p.func != c.func || p.qid != c.qid

/-- The queue's commands that reset or delete it and waited for its halt act now (R467). -/
def State.cutWaiters (s : State) (f q : Nat) : State :=
  match s.qen.cmds.find? fun c => decide (c.wait = .cut) && c.func == f && c.word 7 == q with
  | some c => (s.setCmd { c with wait := .engine }).startCut f q (if c.opcode = 0x81 then .delete c.id else .reset c.id)
  | none => s

/-- A cut is complete: its entry of the error history, then the queue's new state and the RESULT (R443–R448, R485). -/
def State.cutDone (s : State) (c : Cut) : State :=
  let s := { s with qen := { s.qen with cuts := s.qen.cuts.erase c } }
  match s.queue c.func c.qid with
  | none => s
  | some x =>
    let op := match c.kind with | .reset _ => 0x82 | .delete _ => 0x81 | _ => 0
    let e : ErrEntry := { time := s.now, func := c.func, opcode := op, qid := c.qid, tag := 0xFFFF, status := stByReset
                          result := c.result, sqHead := x.sqHead, addr := 0 }
    let s := if c.discarded = 0 then s else s.logError e
    match c.kind with
    | .reset id => (s.setQueue { x with st := .active }).finishId id stSuccess c.result
    | .delete id => (s.dropQueue c.func c.qid).finishId id stSuccess c.result
    | .management => s.dropQueue c.func c.qid
    | .lost => ((s.setQueue { x with st := .halted }).bump (funAt .qen c.func) F.QEN_CNT_HALTS).cutWaiters c.func c.qid
    | .halt =>
      let a := funAt .qen c.func
      let s := ((s.setQueue { x with st := .halted }).put a F.QEN_HALT_RESULT_RESULT c.result).put a F.QEN_HALT_STATUS_DONE 1
      ((s.bump a F.QEN_CNT_HALTS).epEvt 1).cutWaiters c.func c.qid

/-- Cuts other than a halt's that are complete end; a halt ends with HALT_CUT_COMPLETE. -/
def State.cutsReady (s : State) : State :=
  (s.qen.cuts.filter fun (c : Cut) => decide (c.kind ≠ .halt)).foldl (fun (t : State) c =>
    if t.cutReady c then t.cutDone c else t) s

/-- Begin a DELETE QUEUE PAIR or a RESET QUEUE (R443, R467). -/
def State.resetStart (s : State) (c : Cmd) : State :=
  let q := c.word 7
  match s.queue c.func q with
  | none => s.finish c stNotPermitted 0
  | some x =>
    if x.st = .resetting then s.finish c stNotPermitted 0
    else if x.st = .halting then s.setCmd { c with wait := .cut }
    else
      let kind : CutKind := if c.opcode = 0x81 then .delete c.id else .reset c.id
      ((s.setCmd { c with wait := .engine }).startCut c.func q kind).cutsReady

/-! ## Answers of the ports -/

/-- Whether a work item's words are discarded: a QUEUE_RESET that names it is out (R40, R354). -/
def State.underReset (s : State) (x : HubItem) : Bool :=
  (s.ports[x.die].resets.any fun (a : Awaiting) => decide (a.msg.word = (queueResetMsg true x.item 0 0 (a.msg.word.toNat % 65536)).word))
    || s.qen.cuts.any fun (c : Cut) => c.func == x.func && c.qid == x.qid && c.ports.contains x.die.val

/-- An item that its QUEUE_RESET has dropped ends (R24, R446). -/
def State.dropHubItem (s : State) (x : HubItem) : State := (s.closeItem x.die x.item).itemDropped x

/-- Whether a kind of work ends with QUEUE_RESET_DONE: transfers in motion and logs in progress run on (R24, R446). -/
def HubItem.dropsAtOnce (x : HubItem) (partly : Nat) : Bool := x.kind != 6 && (x.kind != 2 || partly == 0)

/-- A port has answered the QUEUE_RESET of a queue (R446). -/
def State.queueCut (s : State) (d : Die) (f q partly : Nat) : State :=
  let s := { s with qen := { s.qen with cuts := s.qen.cuts.map fun (c : Cut) =>
    if c.func = f ∧ c.qid = q then { c with partLogs := c.partLogs + partly, ports := c.ports.erase d.val } else c } }
  let l := s.crew.items.filter fun (x : HubItem) => decide (x.die = d) && x.func == f && x.qid == q && x.dropsAtOnce partly
  l.foldl (fun (t : State) x => t.dropHubItem x) s

/-- A port has answered the QUEUE_RESET of one item: a fill that was given up frees its register (R354). -/
def State.itemCut (s : State) (d : Die) (item : Nat) : State :=
  match s.hubItem d item with
  | none => s
  | some x =>
    match x.what with
    | .fill id =>
      match s.miss id with
      | some m => if m.closing ∧ m.item = some item then (s.closeItem d item).freeMiss id else s.dropHubItem x
      | none => s.closeItem d item
    | _ => s.dropHubItem x

/-- QUEUE_RESET_DONE of a port (R659). -/
def State.resetAnswered (s : State) (d : Die) (seq partly : Nat) : State :=
  let p := s.ports[d]
  match p.resets.find? fun (a : Awaiting) => a.msg.word.toNat % 65536 == seq with
  | none => s
  | some a =>
    let s := { s with ports := s.ports.set d { p with resets := p.resets.erase a } }
    let w := a.msg.word.toNat
    (if bitOf w 63 then s.itemCut d (bitsOf w 62 47) else s.queueCut d (bitsOf w 46 41) (bitsOf w 40 31) partly).cutsReady

/-- Whether a command is a FIELD REGISTER command under way on a port (R482). -/
def Cmd.regsOn (c : Cmd) (d : Die) : Bool :=
  (match c.wait with | .regs _ _ => true | _ => false) && c.word 7 % 8 == d.val

/-- FIELD REGISTER commands under way on a port end with its status (R38, R482). -/
def State.regsLost (s : State) (d : Die) (st : Nat) : State :=
  (s.qen.cmds.filter fun (c : Cmd) => c.regsOn d).foldl (fun (t : State) c => t.finish c st 0) s

/-- The hub's side of a port going DOWN: its items end, and the cuts that awaited its answers go on without them (R38, R659). -/
def State.portGone (s : State) (d : Die) : State :=
  let s := (s.portLost d).regsLost d (if s.ports[d].signal then stFault else stUnpowered)
  let s := { s with
    qen := { s.qen with cuts := s.qen.cuts.map fun (c : Cut) => { c with ports := c.ports.erase d.val } }
    ports := s.ports.set d { s.ports[d] with resets := [], halts := [] } }
  s.cutsReady

end Sys2Proof.Machine
end

