-- ==== Sys2Proof/Machine/KrfOps.lean ====
section
/-! DEFINITION. Kerf ports (R20–R34): flits, the sending end, the receiving end with its refusals, and the message registers. -/
namespace Sys2Proof.Machine

/-! ## Flits and message types -/

/-- The flit of a word (R20). -/
def flitOf (type tag : Nat) (w : Word64) : Flit :=
  BitVec.ofNat 96 (type % 256 * 2 ^ 88 + tag % 256 * 2 ^ 80 + w.toNat * 2 ^ 16 + crc16 (type % 256) (tag % 256) w.toNat)

/-- Fields of a flit (R20). -/
def flitType (f : Flit) : Nat := bitsOf f.toNat 95 88
def flitTag (f : Flit) : Nat := bitsOf f.toNat 87 80
def flitWord (f : Flit) : Word64 := BitVec.ofNat 64 (bitsOf f.toNat 79 16)

/-- Whether a flit's CRC matches (R20, R27). -/
def flitGood (f : Flit) : Bool := crc16 (flitType f) (flitTag f) (flitWord f).toNat == bitsOf f.toNat 15 0

/-- What R23 says of a header type: the side that receives it, none for both; its class, none for the data classes K2–K5; and
the range of LEN. -/
structure MsgInfo where
  dest : Option Side
  cls  : Option KClass
  lo   : Nat := 0
  hi   : Nat := 0
  deriving DecidableEq, Repr

/-- The message types of R23 that are headers. -/
def msgInfo (t : Nat) : Option MsgInfo :=
  match t with
  | 0x01 | 0x03 | 0x05 => some { dest := some .field, cls := some .k0 }
  | 0x02 | 0x04 | 0x06 => some { dest := some .hub, cls := some .k0 }
  | 0x07 | 0x08 => some { dest := none, cls := some .k0 }
  | 0x10 => some { dest := some .field, cls := some .k1 }
  | 0x11 => some { dest := some .field, cls := some .k1, lo := 1, hi := 1 }
  | 0x12 => some { dest := some .hub, cls := some .k1, lo := 1, hi := 1 }
  | 0x13 => some { dest := some .hub, cls := some .k1, hi := 3 }
  | 0x14 => some { dest := some .field, cls := some .k1, lo := 1, hi := 512 }
  | 0x20 => some { dest := some .field, cls := none, hi := 7 }
  | 0x21 => some { dest := some .hub, cls := none, hi := 1 }
  | 0x22 => some { dest := some .hub, cls := none, lo := 513, hi := 513 }
  | 0x23 | 0x24 => some { dest := some .hub, cls := none }
  | 0x28 => some { dest := some .field, cls := none, lo := 514, hi := 514 }
  | _ => none

/-- LEN of a header: the types of more than one word carry it (R21). -/
def MsgInfo.len (i : MsgInfo) (w : Word64) : Nat := if i.hi = 0 then 0 else w.toNat % 1024

/-- The class of a continuation type (R23). -/
def contClass (t : Nat) : Option KClass := if 0x71 ≤ t ∧ t ≤ 0x75 then some (KClass.ofNum (t - 0x70)) else none

/-- The place of a class in a vector of six. -/
def kIdx (k : KClass) : Fin 6 := match k with | .k0 => 0 | .k1 => 1 | .k2 => 2 | .k3 => 3 | .k4 => 4 | .k5 => 5

/-! ## Link words that are not laid out -/

/-- HALT and HALT_DONE: the action, and the bay mask. -/
def haltWord (a : HaltAction) : Nat :=
  match a with
  | .safe => 0 | .release => 2 ^ 60 | .stopBay m => 2 * 2 ^ 60 + m.val * 2 ^ 58 | .resetDie => 3 * 2 ^ 60

/-- The action of a HALT or HALT_DONE word. -/
def haltOf (w : Word64) : HaltAction :=
  match bitsOf w.toNat 61 60 with
  | 0 => .safe | 1 => .release | 2 => .stopBay (Fin.ofNat 4 (bitsOf w.toNat 59 58)) | _ => .resetDie

/-- The HALT and HALT_DONE messages; HALT_DONE carries the die's safe state in bit 0. -/
def haltMsg (a : HaltAction) : Msg := { type := 0x03, word := BitVec.ofNat 64 (haltWord a), cls := .k0 }
def haltDoneMsg (a : HaltAction) (safe : Bool) : Msg := { type := 0x04, word := BitVec.ofNat 64 (haltWord a + b2n safe), cls := .k0 }

/-- The HEARTBEAT and HEARTBEAT_ECHO messages; the echo carries the die's safe state in bit 0 under the time. -/
def beatMsg (time : Nat) : Msg := { type := 0x01, word := BitVec.ofNat 64 time, cls := .k0 }
def echoMsg (time : Nat) (safe : Bool) : Msg := { type := 0x02, word := BitVec.ofNat 64 (2 * time + b2n safe), cls := .k0 }

/-- The REG_READ and REG_WRITE messages (R23): offset, bay and request number. -/
def regWord (off bay req len : Nat) : Word64 :=
  BitVec.ofNat 64 (off % 2 ^ 16 * 2 ^ 48 + bay % 2 * 2 ^ 47 + req % 2 ^ 16 * 2 ^ 31 + len)
def regReadMsg (off bay req : Nat) : Msg := { type := 0x10, word := regWord off bay req 0, cls := .k1 }
def regWriteMsg (off bay req : Nat) (w : Word) : Msg :=
  { type := 0x11, word := regWord off bay req 1, cont := [BitVec.ofNat 64 w.toNat], cls := .k1 }

/-- The REG_DATA message: request number, status, and the value. -/
def regDataMsg (req status value : Nat) : Msg :=
  { type := 0x12, word := BitVec.ofNat 64 (req % 2 ^ 16 * 2 ^ 48 + status % 256 * 2 ^ 40 + 1), cont := [BitVec.ofNat 64 value], cls := .k1 }

/-- The LINK_NAK and CREDIT messages; their words are free values. -/
def nakMsg (w : Nat) : Msg := { type := 0x07, word := BitVec.ofNat 64 w, cls := .k0 }
def creditMsg (w : Nat) : Msg := { type := 0x08, word := BitVec.ofNat 64 w, cls := .k0 }

/-! ## Ports -/

/-- Replace a port. -/
def State.setPort (s : State) (d : Die) (p : Port) : State := { s with ports := s.ports.set d p }

/-- Replace one end of a port. -/
def State.setTxEnd (s : State) (d : Die) (x : Side) (t : TxEnd) : State := s.setPort d (s.ports[d].setTx x t)
def State.setRxEnd (s : State) (d : Die) (x : Side) (r : RxEnd) : State := s.setPort d (s.ports[d].setRx x r)

/-- The other end of a port. -/
def otherSide : Side → Side
  | .hub => .field
  | .field => .hub

/-- Send a LINK_NAK or a CREDIT word. -/
def State.sendNak (s : State) (d : Die) (x : Side) : State := (s.send d x (nakMsg s.freeVal)).drawn
def State.sendCredit (s : State) (d : Die) (x : Side) : State := (s.send d x (creditMsg s.freeVal)).drawn

/-! ## Sending (R22, R29, R30) -/

/-- The first waiting message of a class. -/
def TxEnd.first (t : TxEnd) (k : KClass) : Option Msg := t.queue.find? fun m => decide (m.cls = k)

/-- K0 words that are not acknowledged (R30). -/
def TxEnd.urgent (t : TxEnd) : Nat := (t.replay.filter fun e => decide (1 ≤ flitType e.2 ∧ flitType e.2 ≤ 8)).length

/-- Whether a class has a word to send and may send it (R30). -/
def TxEnd.may (t : TxEnd) (k : KClass) : Bool :=
  (t.first k).isSome && (if k = .k0 then decide (t.urgent < 16) else decide (0 < t.credits[kIdx k]))

/-- The class that the next flit carries, and the round-robin credits left (R22, R438). -/
def TxEnd.pick (t : TxEnd) (weights : Vector Nat 3) : Option (KClass × Vector Nat 3) :=
  let order : List KClass := if t.number % 16 = 0 then [.k0, .k1, .k2] else [.k0, .k2, .k1]
  match order.find? t.may with
  | some k => some (k, t.wrr)
  | none => (classPick weights t.wrr fun c => t.may (KClass.ofNum (c + 2))).map fun (c, w) => (KClass.ofNum (c + 2), w)

/-- Put a flit on the lanes and keep it for replay: the last 128 are kept (R29). -/
def TxEnd.emit (t : TxEnd) (f : Flit) : TxEnd :=
  let r := t.replay ++ [(t.number, f)]
  { t with wire := some f, number := t.number + 1, replay := r.drop (r.length - 128) }

/-- Send the next word of the first message of a class; HEARTBEAT takes device time at transmission (R21, R23, R27, R30). -/
def TxEnd.sendWord (t : TxEnd) (k : KClass) (wrr : Vector Nat 3) (now : Nat) : TxEnd :=
  match t.first k with
  | none => t
  | some m =>
    let i := t.sent[kIdx k]
    let w : Word64 := if i = 0 then (if m.type = 0x01 then BitVec.ofNat 64 now else m.word) else m.cont.getD (i - 1) 0
    let t := t.emit (flitOf (if i = 0 then m.type else 0x70 + k.num) t.tag[kIdx k] w)
    let t := { t with wrr, credits := if k = KClass.k0 then t.credits else t.credits.set (kIdx k) (t.credits[kIdx k] - 1) }
    if i = m.cont.length then
      { t with queue := t.queue.erase m, sent := t.sent.set (kIdx k) 0, tag := t.tag.set (kIdx k) ((t.tag[kIdx k] + 1) % 256) }
    else { t with sent := t.sent.set (kIdx k) (i + 1) }

/-- One flit slot: a replay first, then the class of R22, else IDLE, whose tag and word are free values (R22, R29). -/
def State.flitSlot (s : State) (d : Die) (x : Side) : State :=
  let t := s.ports[d].tx x
  match t.resend with
  | e :: rest => s.setTxEnd d x { t with wire := some e.2, resend := rest }
  | [] =>
    match t.pick s.weights with
    | some (k, w) => s.setTxEnd d x (t.sendWord k w s.now)
    | none => (s.setTxEnd d x (t.emit (flitOf 0 (s.freeVal / 2 ^ 64) (BitVec.ofNat 64 s.freeVal)))).drawn

/-! ## Retrain and DOWN (R29, R33) -/

/-- The port retrains: it keeps its replay buffers; every change of STATE sets EP_EVT_STATUS.KERF (R29, R504). -/
def State.retrain (s : State) (d : Die) : State := (s.setPort d { s.ports[d] with state := .training }).epEvt 5

/-- A LINK_NAK arrives: every flit after the named one is sent again; after three consecutive replays of one flit the port
retrains (R29). -/
def State.nakSeen (s : State) (d : Die) (x : Side) (named : Nat) : State :=
  let t := s.ports[d].tx x
  let l := t.replay.filter fun e => decide (named < e.1)
  let first := l.head?.map (·.1)
  let run := if first.isSome ∧ first = t.nakOf then t.nakRun + 1 else 1
  let s := s.setTxEnd d x { t with resend := l, nakOf := first, nakRun := run }
  if 3 < run then (s.setTxEnd d x { t with resend := l, nakOf := none, nakRun := 0 }).retrain d else s

/-- A CREDIT word arrives: acknowledged flits leave the replay buffer, and each class gains its units of 8 words (R29, R30). -/
def State.creditSeen (s : State) (d : Die) (x : Side) (ack : Nat) (units : Vector Nat 5) : State :=
  let t := s.ports[d].tx x
  let credits : Vector Nat 6 := Vector.ofFn fun (i : Fin 6) =>
    t.credits[i] + (if h : 0 < i.val then 8 * units[i.val - 1]'(by omega) else 0)
  s.setTxEnd d x { t with
    replay := t.replay.filter fun e => decide (ack < e.1)
    resend := t.resend.filter fun e => decide (ack < e.1)
    credits }

/-- The hub treats a port as DOWN (R33, R35, R38, R659): both ends start anew, the hub's items end, and the events of R598. -/
def State.portDown (s : State) (d : Die) : State :=
  let p := s.ports[d]
  if p.state = .down ∨ p.state = .absent then s
  else
    let s := s.setPort d { p with
      state := .down, lanes := 0, safe := true, failed := 0, hubTx := {}, hubRx := {}, fieldTx := {}, fieldRx := {}, owed := none }
    ((((s.portGone d).raiseHub 0x0903 0 d.val).epEvt 5)).settle

/-! ## Refusals (R27, R28) -/

/-- Count a refusal and report it: by the hub, or by the die as an EVENT word (R27, R34). -/
def State.refusal (s : State) (d : Die) (x : Side) (sub type : Nat) : State :=
  match x with
  | .hub => (s.bump (hubAt .krf) F.KRF_ERRCNT_REFUSED d.val).raiseHub 0x0901 sub d.val type
  | .field => (s.bump (dieAt .fkr d) F.FKR_ERRCNT_REFUSED).raiseDie d 0x0901 none sub d.val type 0

/-- The fill that a BOARD_DATA, BOARD_ERASED or LOG_DONE of a die names, when its log is the register's (R144–R146, R353). -/
def State.fillOf (s : State) (d : Die) (w : Word64) : Option Miss :=
  if bitOf w.toNat 20 then none
  else
    (s.miss (bitsOf w.toNat 31 22)).bind fun m =>
      let mine := s.crew.items.any fun (i : HubItem) => decide (i.die = d) && decide (i.what = .fill m.id) && some i.item == m.item
      if !m.closing && mine && m.log == bitsOf w.toNat 63 32 / 16 then some m else none

/-- The effect of a refused message at the hub (R28). -/
def State.refusedAtHub (s : State) (d : Die) (type : Nat) (w : Word64) : State :=
  if type = 0x22 ∨ type = 0x24 then
    match s.fillOf d w with
    | some m => (s.refill m).settle
    | none => s
  else if type = 0x21 then
    let item := bitsOf w.toNat 55 40
    match s.hubItem d item with
    | some x =>
      if x.kind = bitsOf w.toNat 63 56 then (((s.closeItem d item).itemEnded x stFault).sendReset d true item 0 0).settle else s
    | none => s
  else s

/-- The effect of a refused message at a field die: a WORK or RECORD_DATA is answered by WORK_DONE REFUSED (R28). -/
def State.refusedAtDie (s : State) (d : Die) (type : Nat) (w : Word64) (cls : KClass) : State :=
  if type = 0x20 then
    s.send d .field { workDoneMsg (bitsOf w.toNat 63 56) (bitsOf w.toNat 55 40) WStatus.refused.code 0 0 none with cls }
  else if type = 0x28 then
    let item := bitsOf w.toNat 31 16
    if (s.findItem d item).isSome then s.endItem d item .refused
    else s.send d .field { workDoneMsg 2 item WStatus.refused.code 0 0 none with cls }
  else s

/-- A message is refused. -/
def State.refuseMsg (s : State) (d : Die) (x : Side) (sub type : Nat) (w : Word64) (cls : KClass) : State :=
  let s := s.refusal d x sub type
  match x with
  | .hub => s.refusedAtHub d type w
  | .field => s.refusedAtDie d type w cls

/-! ## Receiving (R27, R29, R32, R589) -/

/-- Types that crew firmware receives by its message registers (R32). -/
def softType (t : Nat) : Bool := t == 0x12 || t == 0x13 || t == 0x04 || t == 0x06

/-- One word arrives for the software receive queue of 128 words (R32): the state and whether it found room. -/
def State.softWord (s : State) (d : Die) (type : Nat) (w : Word64) : State × Bool :=
  let p := s.ports[d]
  if p.swRx.length < 128 then (s.setPort d { p with swRx := p.swRx ++ [(type, w)] }, true)
  else ((s.put (hubAt .krf) F.KRF_RXCTL_OVERFLOW 1 d.val).refusal d .hub 6 type, false)

/-- A whole message has been accepted; one for crew firmware that the queue had no room for is lost (R32). -/
def State.accept (s : State) (d : Die) (x : Side) (m : Msg) : State :=
  let keep : State → State := fun s =>
    let r := s.ports[d].rx x
    s.setRxEnd d x { r with inbox := r.inbox ++ [m] }
  if x = .hub ∧ softType m.type then
    let r := (m.cont.map fun w => (0x70 + m.cls.num, w)).foldl
      (fun (e : State × Bool) w => let n := e.1.softWord d w.1 w.2; (n.1, e.2 && n.2)) (s.softWord d m.type m.word)
    if r.2 then keep r.1 else r.1
  else keep s

/-- Whether a die without its firmware accepts a type: heartbeats, halts, loads, link words, and register accesses to FPW
(R589). -/
def romAccepts (type : Nat) (w : Word64) : Bool :=
  type == 0x01 || type == 0x03 || type == 0x07 || type == 0x08 || type == 0x14
    || ((type == 0x10 || type == 0x11) && decide (0x600 ≤ bitsOf w.toNat 63 48 ∧ bitsOf w.toNat 63 48 < 0x700))

/-- Whether a die has started its firmware (R590). -/
def State.dieRuns (s : State) (d : Die) : Bool := decide (s.dies[d].boot = .loaded) || decide (s.dies[d].boot = .running)

/-- What a header type means at a receiving end, if it is permitted there (R23, R27, R589). -/
def State.typeAt (s : State) (d : Die) (x : Side) (t : Nat) (w : Word64) : Option MsgInfo :=
  (msgInfo t).bind fun i =>
    if i.dest = some (otherSide x) then none
    else if x = .field ∧ !s.dieRuns d ∧ !romAccepts t w then none
    else some i

/-- Truncate the open message of a class, if one is open (R27). -/
def State.truncate (s : State) (d : Die) (x : Side) (k : KClass) (sub : Nat) (count : Bool) : State :=
  let r := s.ports[d].rx x
  match r.opens[kIdx k] with
  | some (.taking m _ _) =>
    let s := s.setRxEnd d x { r with opens := r.opens.set (kIdx k) none }
    if count then s.refuseMsg d x sub m.type m.word k
    else match x with | .hub => s.refusedAtHub d m.type m.word | .field => s.refusedAtDie d m.type m.word k
  | some (.skipping _ _) => s.setRxEnd d x { r with opens := r.opens.set (kIdx k) none }
  | none => s

/-- Whether a header's TAG is not the one expected (R27). -/
def tagLate : Option Nat → Nat → Bool
  | some e, tag => e != tag
  | none, _ => false

/-- A good header arrives (R27). -/
def State.headerIn (s : State) (d : Die) (x : Side) (type tag : Nat) (w : Word64) (cls : KClass) : State :=
  match s.typeAt d x type w with
  | none => s.refuseMsg d x 1 type w cls
  | some i =>
    let k := i.cls.getD cls
    let s := s.truncate d x k 4 true
    let n := i.len w
    let r := s.ports[d].rx x
    let skip : Option OpenMsg := if n = 0 then none else some (.skipping tag n)
    let next : Option Nat := some ((tag + 1) % 256)
    if n < i.lo ∨ i.hi < n then
      (s.setRxEnd d x { r with opens := r.opens.set (kIdx k) skip, expect := r.expect.set (kIdx k) next }).refuseMsg d x 2 type w k
    else if tagLate r.expect[kIdx k] tag then
      (s.setRxEnd d x { r with opens := r.opens.set (kIdx k) skip, expect := r.expect.set (kIdx k) none }).refuseMsg d x 3 type w k
    else
      let m : Msg := { type, word := w, cls := k }
      let s := s.setRxEnd d x { r with
        opens := r.opens.set (kIdx k) (if n = 0 then none else some (.taking m tag n)), expect := r.expect.set (kIdx k) next }
      if n = 0 then s.accept d x m else s

/-- A good continuation arrives (R27). -/
def State.contIn (s : State) (d : Die) (x : Side) (type tag : Nat) (w : Word64) (k : KClass) : State :=
  let r := s.ports[d].rx x
  match r.opens[kIdx k] with
  | some (.taking m t need) =>
    if t ≠ tag then (s.refusal d x 4 type).truncate d x k 4 false
    else
      let m := { m with cont := m.cont ++ [w] }
      if need ≤ 1 then (s.setRxEnd d x { r with opens := r.opens.set (kIdx k) none }).accept d x m
      else s.setRxEnd d x { r with opens := r.opens.set (kIdx k) (some (.taking m t (need - 1))) }
  | some (.skipping t left) =>
    if t = tag then
      s.setRxEnd d x { r with opens := r.opens.set (kIdx k) (if left ≤ 1 then none else some (.skipping t (left - 1))) }
    else (s.setRxEnd d x { r with opens := r.opens.set (kIdx k) none }).refusal d x 4 type
  | none => s.refusal d x 4 type

/-- A good flit in its turn: counted towards the CREDIT due once per 64, then taken by its type (R27, R29). -/
def State.goodFlit (s : State) (d : Die) (x : Side) (num : Nat) (f : Flit) (cls : KClass) : State :=
  let r := s.ports[d].rx x
  let due := decide (64 ≤ r.since + 1)
  let s := s.setRxEnd d x { r with good := some num, since := if due then 0 else r.since + 1, waiting := false }
  let s := if due then s.sendCredit d x else s
  let t := flitType f
  if t = 0 then s
  else
    match contClass t with
    | some k => s.contIn d x t (flitTag f) (flitWord f) k
    | none => s.headerIn d x t (flitTag f) (flitWord f) cls

/-- A flit arrives at an end of a port (R27, R29): a bad CRC is counted and answered by LINK_NAK, and only the flit that follows
the last good one is taken. -/
def State.flitIn (s : State) (d : Die) (x : Side) (num : Nat) (f : Flit) (cls : KClass) : State :=
  let p := s.ports[d]
  if p.state ≠ .up then s
  else
    let r := p.rx x
    if !flitGood f then
      let s := s.setRxEnd d x { r with waiting := true }
      let s := match x with
        | .hub => s.bump (hubAt .krf) F.KRF_ERRCNT_REPLAYS d.val
        | .field => s.bump (dieAt .fkr d) F.FKR_ERRCNT_REPLAYS
      s.sendNak d x
    else
      match r.good with
      | some g => if num = g + 1 then s.goodFlit d x num f cls else s
      | none => s.goodFlit d x num f cls

/-- The next continuation of an open message has not come within 2 µs (R27). -/
def State.contTimeout (s : State) (d : Die) (x : Side) (k : KClass) : State :=
  let p := s.ports[d]
  if p.state = .up ∧ !(p.rx x).waiting ∧ (p.tx (otherSide x)).resend = [] then s.truncate d x k 5 true else s

/-! ## Message registers (R31, R32) -/

/-- Words in the software transmit queue: those that software may send and that are not on the lanes yet (R31). -/
def Port.txWords (p : Port) : Nat :=
  let soft := p.hubTx.queue.filter fun m => [0x03, 0x05, 0x10, 0x11, 0x14].contains m.type
  (soft.map fun m => 1 + m.cont.length).sum - (if soft.any fun m => decide (m.cls = .k1) then p.hubTx.sent[(1 : Fin 6)] else 0)
    + (match p.owed with | some (m, _) => 1 + m.cont.length | none => 0)

/-- TXFREE (R31). -/
def Port.txFree (p : Port) : Nat := 64 - p.txWords

/-- A word is queued under a type; false where PUSH is refused (R31). A HALT or QUEUE_RESET awaits its answer (R659). -/
def Port.push (p : Port) (type : Nat) (w : Word64) : Option Port :=
  if p.txFree = 0 then none
  else
    let queue : Port → Msg → Port := fun p m => { p with hubTx := { p.hubTx with queue := p.hubTx.queue ++ [m] } }
    match p.owed with
    | some (m, n) =>
      if type ≠ 0x71 then none
      else
        let m := { m with cont := m.cont ++ [w] }
        some (if n ≤ 1 then queue { p with owed := none } m else { p with owed := some (m, n - 1) })
    | none =>
      let k0 : Msg := { type, word := w, cls := .k0 }
      let k1 : Msg := { type, word := w, cls := .k1 }
      match type with
      | 0x03 => some (queue { p with halts := p.halts ++ [{ msg := k0, sends := 1 }] } k0)
      | 0x05 => some (queue { p with resets := p.resets ++ [{ msg := k0, sends := 1 }] } k0)
      | 0x10 => some (queue p k1)
      | 0x11 | 0x14 => some (if w.toNat % 1024 = 0 then queue p k1 else { p with owed := some (k1, w.toNat % 1024) })
      | _ => none

/-- A write of KRF_Pn_TXCTL (R31). -/
def State.txctlWrite (s : State) (d : Die) (w : Word) : State :=
  let a := hubAt .krf
  let s := if F.KRF_TXCTL_REFUSED.of w = 1 then s.put a F.KRF_TXCTL_REFUSED 0 d.val else s
  let s := s.put a F.KRF_TXCTL_TYPE (F.KRF_TXCTL_TYPE.of w) d.val
  if F.KRF_TXCTL_PUSH.of w = 0 then s
  else
    let data := hiLo (s.get a F.KRF_TXDATA_LO_WORD d.val) (s.get a F.KRF_TXDATA_HI_WORD d.val)
    match s.ports[d].push (F.KRF_TXCTL_TYPE.of w) (BitVec.ofNat 64 data) with
    | some p => s.setPort d p
    | none => s.put a F.KRF_TXCTL_REFUSED 1 d.val

/-- A write of KRF_Pn_RXCTL (R32). -/
def State.rxctlWrite (s : State) (d : Die) (w : Word) : State :=
  let s := if F.KRF_RXCTL_OVERFLOW.of w = 1 then s.put (hubAt .krf) F.KRF_RXCTL_OVERFLOW 0 d.val else s
  if F.KRF_RXCTL_POP.of w = 1 then s.setPort d { s.ports[d] with swRx := s.ports[d].swRx.drop 1 } else s

end Sys2Proof.Machine
end

