-- ==== Sys2Proof/Machine/HubView.lean ====
section
/-! DEFINITION. Registers of the hub as reads show them (R31–R34, R374–R377, R395, R427, R428, R454, R455, R515, R516, R533–R535,
R549, R550, R571, R572, R592, R602–R608): words that other state decides. -/
namespace Sys2Proof.Machine

/-! ## Addresses -/

/-- The block of a 64 KiB frame of a function's BAR0 (R602). -/
def frameBlock (n : Nat) : Option Block :=
  match n with
  | 0 => some .glb | 1 => some .tim | 2 => some .ep | 3 => some .qen | 4 => some .lnd | 5 => some .miu | 6 => some .vlk
  | 7 => some .fwu | 8 => some .pwr | _ => none

/-- A hub register address taken apart: function, block and offset in the block (R602, R603, R607, R608). -/
def hubSplit (a : Nat) : Option (Nat × Block × Nat) :=
  if 0x40000000 ≤ a ∧ a < 0x41000000 then (frameBlock (a / 0x10000 % 0x400)).map fun k => (0, k, a % 0x10000)
  else if 0x41000000 ≤ a ∧ a < 0x41000000 + 63 * 0x40000 then
    (frameBlock ((a - 0x41000000) % 0x40000 / 0x10000)).map fun k => ((a - 0x41000000) / 0x40000 + 1, k, a % 0x10000)
  else if 0x44000000 ≤ a ∧ a < 0x44010000 then some (0, .hic, a - 0x44000000)
  else if 0x44011000 ≤ a ∧ a < 0x44018000 then some (0, .krf, a - 0x44010000)
  else if 0x44040000 ≤ a ∧ a < 0x44061000 then some (0, .skd, a - 0x44040000)
  else none

/-- The hub address of offset o of function f's BAR0 (R607). -/
def barAddr (f o : Nat) : Nat := if f = 0 then 0x40000000 + o else 0x41000000 + 0x40000 * (f - 1) + o

/-- The address of a block's registers: GLB and TIM, and the shared QEN registers, are the physical function's; port 1 of KRF is
the first (R454, R603, R608). -/
def homeOf (f : Nat) (k : Block) (rel : Nat) : Nat :=
  match k with
  | .glb | .tim => hubAt k
  | .qen => if rel < 0x0C then hubAt .qen else funAt .qen f
  | .ep => funAt .ep f
  | .krf => hubAt .krf + 0x1000
  | _ => hubAt k

/-- The register at a hub address: function, block, offset and itself. A virtual function has no EP register from 0x40 on
(R515). -/
def hubFind (a : Nat) : Option (Nat × Block × Nat × Loc) :=
  (hubSplit a).bind fun (f, k, rel) =>
    if f ≠ 0 ∧ k = .ep ∧ 0x40 ≤ rel then none
    else (findReg (homeOf f k rel) k.regs (if k = .krf then rel - 0x1000 else rel)).map fun l => (f, k, rel, l)

/-! ## Words that other state decides -/

/-- The GLB and TIM words (R604, R606). -/
def viewGlb (s : State) (rel : Nat) : Option Nat :=
  if rel = 0 then some (fieldAt s.deviceId 0 4)
  else if rel = 4 then some (b2n (s.pwr.boot == .ready))
  else if rel = 0x10 then some (Config.serial % 2 ^ 32)
  else if rel = 0x14 then some (Config.serial / 2 ^ 32 % 2 ^ 32)
  else none

def viewTim (s : State) (rel : Nat) : Option Nat :=
  if rel = 0 then some (s.now % 2 ^ 32) else if rel = 4 then some (s.now / 2 ^ 32 % 2 ^ 32) else none

/-- Decided entries that a function holds while it may not write (R511). -/
def State.heldPosts (s : State) (f : Nat) : Nat :=
  if s.master f then 0 else (s.qen.posts.filter fun (p : Post) => p.func == f).length

/-- The EP words (R497, R505, R516). -/
def viewEp (s : State) (f rel : Nat) : Option Nat :=
  let x := s.fn f
  let id := s.has (funAt .ep f) F.EP_ORDER_MODE
  if rel = 4 then
    some (sat16 (s.heldPosts f) * 2 ^ 16 + b2n x.cfg.bme * 128 + (if x.d3 then 3 else 0) * 32 + b2n x.cfg.roEn * 16
      + b2n (id && x.cfg.idoReq) * 8 + b2n (id && x.cfg.idoCpl) * 4 + b2n x.cfg.msixEn * 2 + b2n x.cfg.fnMask)
  else if rel = 0x48 then some (s.tagPool * 2 ^ 16 + s.get (hubAt .ep) F.EP_TAG_CFG_RES0)
  else if rel = 0x4C then some (s.tagsOut.length * 2 ^ 16 + s.get (hubAt .ep) F.EP_TAG_STATUS_PEAK)
  else none

/-- Commands of a queue that are fetched and not posted (R437). -/
def State.inFlight (s : State) (p : Nat → Nat → Bool) : Nat :=
  (s.qen.cmds.filter fun c => p c.func c.qid).length + (s.qen.posts.filter fun c => p c.func c.qid).length

/-- The QEN words (R437, R447, R455). -/
def viewQen (s : State) (f rel : Nat) : Option Nat :=
  let a := funAt .qen f
  let q := s.get a F.QEN_QSEL_QID
  let x := s.queue f q
  if rel = 8 then
    let zero : Nat → Nat → Bool := fun g p => match s.queue g p with | some y => y.qid != 0 && y.cls == 0 | none => false
    some (sat16 (s.inFlight fun _ _ => true) * 2 ^ 16 + sat16 (s.inFlight zero))
  else if rel = 0x14 then
    let busy := s.qen.cuts.any fun (c : Cut) => c.func == f && decide (c.kind = .halt)
    some (b2n busy * 2 ^ 31 + s.get a F.QEN_HALT_STATUS_DONE * 2 ^ 30 + s.get a F.QEN_HALT_STATUS_REFUSED * 2 ^ 29
      + s.get a F.QEN_HALT_STATUS_QID)
  else if rel = 0x54 then
    match x with
    | some y => some (y.st.code * 2 ^ 29 + y.cls * 2 ^ 27 + y.depth)
    | none => some 0
  else if rel = 0x58 then match x with | some y => some (y.sqHead * 2 ^ 16 + y.sqTail) | none => some 0
  else if rel = 0x5C then
    match x with
    | some y => some (y.cqTail * 2 ^ 16 + b2n y.phase * 2 ^ 15
        + min (s.inFlight fun g p => g == f && p == q) 32767)
    | none => some 0
  else none

/-- The LND words (R363, R376, R377). -/
def viewLnd (s : State) (rel : Nat) : Option Nat :=
  let a := hubAt .lnd
  if rel = 4 then
    some (s.get a F.LND_STATUS_SETS_LOG2 * 2 ^ 16 + s.get a F.LND_STATUS_CHANNELS * 2 ^ 8 + s.get a F.LND_STATUS_CFG_ERR * 4
      + b2n (!s.lndOn) * 2 + s.get a F.LND_STATUS_READY)
  else if rel = 0x14 then
    some (s.get a F.LND_WIN_WAYS_WAYS * 2 ^ 16 + (List.range 16).foldl (fun m w => m + b2n (s.wayEmpty w) * 2 ^ w) 0)
  else if rel = 0x28 then some (s.get (hubAt .ep) F.EP_BAR2_CFG_APERTURE_LOG2)
  else if rel = 0x50 then
    some (b2n s.lnd.range.isSome * 2 ^ 31 + s.get a F.LND_RANGE_STATUS_DONE * 2 ^ 30 + s.get a F.LND_RANGE_STATUS_ERR_BUSY * 2 ^ 29
      + s.get a F.LND_RANGE_STATUS_ERR_ARG * 2 ^ 28 + s.get a F.LND_RANGE_STATUS_ABORTED * 2 ^ 27
      + s.get a F.LND_RANGE_STATUS_LAST_OP * 2 ^ 24)
  else if rel = 0x70 then some (s.lnd.misses.length * 2 ^ 16 + s.get a F.LND_MSHR_PEAK)
  else if rel = 0x74 then some (sat16 (s.linesIn .dirty).length * 2 ^ 16 + sat16 (s.linesIn .recording).length)
  else none

/-- The VLK words (R397, R400, R406, R421, R428). -/
def viewVlk (s : State) (rel : Nat) : Option Nat :=
  let v := s.vlk
  let x := s.session (s.get (hubAt .vlk) F.VLK_SQ_SEL_SESSION)
  if rel = 4 then some (v.sessions.length * 2 ^ 16 + b2n v.timeSet * 2 + s.get (hubAt .glb) F.GLB_LOCK_LOCK)
  else if rel = 8 then some v.keys.length
  else if rel = 0x0C then some (v.hwm % 2 ^ 32)
  else if rel = 0x10 then some (v.hwm / 2 ^ 32 % 2 ^ 32)
  else if rel = 0x18 then match x with | some y => some (y.st.code * 2 ^ 29 + y.func * 2 ^ 23 + y.modes % 8 * 2 ^ 20) | none => some 0
  else if rel = 0x1C then match x with | some y => some y.title | none => some 0
  else if rel = 0x20 then match x with | some y => some (min y.boards (2 ^ 32 - 1)) | none => some 0
  else if rel = 0x24 then
    some (v.stale.length * 2 ^ 16 + b2n (v.rebuild.isSome || v.lookups.any fun k => k.at_.isSome) * 2 ^ 15)
  else if rel = 0x28 then some (v.extents.length * 2 ^ 14)
  else if rel = 0x2C then some (v.extents.map (·.title)).dedup.length
  else none

/-- MIU_INJECT reads back its ARM bit until the fault has been injected (R394, R396). -/
def viewMiu (s : State) (rel : Nat) : Option Nat :=
  let a := hubAt .miu
  if rel = 0x60 then
    some (s.get a F.MIU_INJECT_ARM * 2 ^ 31 + s.get a F.MIU_INJECT_TARGET * 2 ^ 30 + s.get a F.MIU_INJECT_F1_EN * 2 ^ 15
      + s.get a F.MIU_INJECT_F1 * 2 ^ 8 + s.get a F.MIU_INJECT_F0_EN * 2 ^ 7 + s.get a F.MIU_INJECT_F0)
  else none

/-! ## Firmware -/

/-- Flash address of a bank (R551). -/
def bankAt (b : Fin 2) : Nat := if b = 0 then 0x0400000 else 0x4000000

/-- Bytes of the flash (R551). -/
def State.flash (s : State) (a n : Nat) : Bytes := s.bytesAt (flashAt + a) n

/-- The bank that does not hold the running set (R554). -/
def State.altBank (s : State) : Fin 2 := if s.fwu.bank = 0 then 1 else 0

/-- BUNDLE_VER of a bank's tally (R552). -/
def State.bundleVer (s : State) (b : Fin 2) : Nat := fieldAt (s.flash (bankAt b) 16) 8 8

/-- BUNDLE_VER of the running set; recovery runs none (R566, R572). -/
def State.runVer (s : State) : Nat := if s.fwu.run = .recovery then 0 else s.bundleVer s.fwu.bank

/-- BUNDLE_VER of the other bank; 0 unless LOADED (R572). -/
def State.altVer (s : State) : Nat := if (s.fwu.banks[s.altBank]).st = .loaded then s.bundleVer s.altBank else 0

/-- The content of a journal copy; none when it is not valid (R559, R560). -/
def State.journalCopy (s : State) (i : Nat) : Option Journal :=
  let b := s.flash (0x1000 * i) 64
  match JState.ofCode (fieldAt b 9 1) with
  | some st =>
    if fieldAt b 0 4 = 0x314A5746 ∧ fieldAt b 60 4 = crc32c (b.take 60) then
      some { seq := fieldAt b 4 4, active := if fieldAt b 8 1 = 0 then 0 else 1, st, new := if fieldAt b 10 1 = 0 then 0 else 1
             confirm := bitOf (fieldAt b 11 1) 0, window := fieldAt b 12 2 }
    else none
  | none => none

/-- The copy in use: the valid one whose SEQ is later under serial arithmetic (R560). -/
def State.journalInUse (s : State) : Option Nat :=
  match s.journalCopy 0, s.journalCopy 1 with
  | some a, some b => if 1 ≤ (b.seq + 2 ^ 32 - a.seq) % 2 ^ 32 ∧ (b.seq + 2 ^ 32 - a.seq) % 2 ^ 32 ≤ 2 ^ 31 - 1 then some 1 else some 0
  | some _, none => some 0
  | none, some _ => some 1
  | none, none => none

/-- The journal: its copy in use, or STEADY with ACTIVE = 0 (R560). -/
def State.journal (s : State) : Journal := ((s.journalInUse).bind s.journalCopy).getD {}

/-- Confirmation window shown: the schedule's, else the journal's (R572). -/
def State.fwWindow (s : State) : Nat := match s.fwu.sched with | some x => x.window | none => s.journal.window

/-- Whole seconds left of the confirmation window; 0 unless in trial (R478, R563, R572). -/
def State.windowLeft (s : State) : Nat :=
  if s.fwu.run = .trial then s.journal.window - (s.clock - s.fwu.from_) / 10 ^ 9 else 0

/-- The FWU words (R572). -/
def viewFwu (s : State) (rel : Nat) : Option Nat :=
  let w := s.fwu
  let alt := w.banks[s.altBank]
  let last := w.history.getLast?
  if rel = 0 then
    some (w.run.code * 2 ^ 28 + w.bank.val * 2 ^ 27 + alt.st.code * 2 ^ 24 + b2n w.sched.isSome * 2 ^ 23
      + b2n (w.run == .trial && s.journal.confirm && !w.hostAsked) * 2 ^ 22 + b2n w.tested * 2 ^ 21
      + s.get (hubAt .fwu) F.FWU_STATUS_SETTINGS_RESET * 2 ^ 20
      + (match last with | some h => h.result * 2 ^ 16 + h.reason * 2 ^ 8 | none => 0))
  else if rel = 4 then some (b2n alt.last * 2 ^ 31 + alt.units)
  else if rel = 8 then some ((match w.sched with | some x => x.time | none => 0) % 2 ^ 32)
  else if rel = 0x0C then some ((match w.sched with | some x => x.time | none => 0) / 2 ^ 32 % 2 ^ 32)
  else if rel = 0x10 then some (s.fwWindow % 4096 * 2 ^ 20 + s.windowLeft % 4096)
  else if rel = 0x18 then some (s.runVer % 2 ^ 32)
  else if rel = 0x1C then some (s.runVer / 2 ^ 32 % 2 ^ 32)
  else if rel = 0x20 then some (s.altVer % 2 ^ 32)
  else if rel = 0x24 then some (s.altVer / 2 ^ 32 % 2 ^ 32)
  else if rel = 0x28 then some w.svnFloor
  else none

/-! ## Power -/

/-- Whether a domain is on (R579–R582). -/
def State.domainOn (s : State) (n : Nat) : Bool :=
  if n < 30 then bitOf s.pwr.on n
  else if n < 38 then s.hasDie 1 && (s.dies[(1 : Die)]).power && bitOf (s.dies[(1 : Die)]).on (n - 30)
  else
    let d : Die := Fin.ofNat 8 (2 + (n - 38) / 7)
    decide (n < 80) && s.hasDie d.val && (s.dies[d]).power && bitOf (s.dies[d]).on ((n - 38) % 7)

/-- The PWR words (R592). -/
def viewPwr (s : State) (rel : Nat) : Option Nat :=
  let a := hubAt .pwr
  if rel = 4 then
    some (s.code.domains * 2 ^ 24 + s.get a F.PWR_STATUS_FIELD_FAILED * 8 + s.get a F.PWR_STATUS_FIELD_READY * 4
      + b2n ((List.finRange 8).any fun d => (s.ports[d]).signal) * 2 + b2n s.pwr.aonLost)
  else if rel = 8 then some (2 ^ s.pwr.cause.bit)
  else if 0x10 ≤ rel ∧ rel < 0x1C then
    some ((List.range 32).foldl (fun m i => m + b2n (s.domainOn (8 * (rel - 0x10) + i)) * 2 ^ i) 0)
  else none

/-! ## Core-only blocks -/

/-- A word of 32 sources by a condition. -/
def sourceWord (w : Nat) (p : Nat → Bool) : Nat := (List.range 32).foldl (fun m i => m + b2n (p (32 * w + i)) * 2 ^ i) 0

/-- The HIC words (R522, R534). -/
def viewHic (s : State) (rel : Nat) : Option Nat :=
  if 0xC00 ≤ rel ∧ rel < 0xC60 then some (sourceWord ((rel - 0xC00) / 4) s.hicPending)
  else if 0xC80 ≤ rel ∧ rel < 0xCE0 then some (sourceWord ((rel - 0xC80) / 4) s.hicServing)
  else if 0xD00 ≤ rel ∧ rel < 0xD60 then some (sourceWord ((rel - 0xD00) / 4) fun n => !hicReserved n && s.hicLevel n)
  else if rel = 0xE00 then some (s.pwr.mtime % 2 ^ 32)
  else if rel = 0xE04 then some (s.pwr.mtime / 2 ^ 32 % 2 ^ 32)
  else none

/-- The KRF words of a port (R31–R33). -/
def viewKrf (s : State) (rel : Nat) : Option Nat :=
  let n := rel / 0x1000
  let p := s.ports[n]?.getD {}
  let a := hubAt .krf
  let r := rel % 0x1000
  let head : Nat × Word64 := p.swRx.headD (0, 0)
  if r = 8 then
    some (p.txFree * 2 ^ 24 + s.get a F.KRF_TXCTL_REFUSED n * 2 ^ 17 + s.get a F.KRF_TXCTL_TYPE n)
  else if r = 0x10 then some (head.2.toNat % 2 ^ 32)
  else if r = 0x14 then some (head.2.toNat / 2 ^ 32)
  else if r = 0x18 then
    some (p.swRx.length * 2 ^ 24 + s.get a F.KRF_RXCTL_OVERFLOW n * 2 ^ 17 + b2n (!p.swRx.isEmpty) * 2 ^ 8 + head.1)
  else if r = 0x20 then
    let st := if s.hasDie n then p.state.code else PortState.absent.code
    some (b2n p.signal * 2 ^ 11 + b2n (p.safe || decide (p.state = .down)) * 2 ^ 10 + s.get a F.KRF_STATUS_ECHO_LOST n * 2 ^ 9
      + s.get a F.KRF_STATUS_RETRAINED n * 2 ^ 8 + p.lanes * 8 + st)
  else none

/-- The SKD words (R550). -/
def viewSkd (s : State) (rel : Nat) : Option Nat :=
  let a := hubAt .skd
  if rel = 4 then some ((List.finRange 32).foldl (fun m i => m + b2n (s.skd[i]).active * 2 ^ i.val) 0)
  else if rel < 0x1000 then none
  else
    let c : Fin 32 := Fin.ofNat 32 (rel / 0x1000 - 1)
    let x := s.skd[c]
    let r := rel % 0x1000
    if r = 0x20 then some (s.get a F.SKD_CH_CMD_RESUME c * 4 + b2n x.abort * 2 + b2n x.active)
    else if r = 0x24 then
      some (s.get a F.SKD_CH_STATUS_REFUSED c * 32 + s.get a F.SKD_CH_STATUS_ERR_BUSY c * 16 + b2n x.open_ * 8 + x.code.num)
    else none

/-- A word of the hub that its fields do not hold. -/
def viewHub (s : State) (f : Nat) (k : Block) (rel : Nat) : Option Nat :=
  match k with
  | .glb => viewGlb s rel
  | .tim => viewTim s rel
  | .ep => viewEp s f rel
  | .qen => viewQen s f rel
  | .lnd => viewLnd s rel
  | .miu => viewMiu s rel
  | .vlk => viewVlk s rel
  | .fwu => viewFwu s rel
  | .pwr => viewPwr s rel
  | .hic => viewHic s rel
  | .krf => viewKrf s rel
  | .skd => viewSkd s rel
  | _ => none

/-- The word at a hub register address; an address without a register reads 0 (R494, R602). -/
def State.hubRead (s : State) (a : Nat) : Nat :=
  match hubFind a with
  | none => 0
  | some (f, k, rel, l) =>
    match viewHub s f k rel with
    | some v => v % 2 ^ 32
    | none =>
      let busy := if k = .lnd ∧ rel = 0x2C then s.isWaiting .lndWindow else false
      (s.readWord l).toNat + b2n busy

/-- The word of a hub register by its block and offset. -/
def State.hubWord (s : State) (k : Block) (rel : Nat) : Nat := s.hubRead (hubAt k + rel)

end Sys2Proof.Machine
end

