-- ==== Sys2Proof/Machine/Cruise.lean ====
section
/-! DEFINITION. What the commands of the cruise calibrator do (chapter 10). -/
namespace Sys2Proof.Machine

/-- A write of 1 to CRU_CTL.NOW (R324). -/
def execCruNow (b : Bay) (s : State) : Host.Outcome State Fault Refusal := .next (s.cruRaise b .now)

/-- The 100 ms comparison of both temperatures with their references (R325). -/
def State.cruTempCheck (s : State) (b : Bay) : State :=
  let far := fun (t r : Int) => decide ((s.get (cruA b) F.CRU_CFG_CRU_DELTA : Int) < |t - r|)
  if far (s.geti (bayAt .sfe b) F.SFE_TEMP_TEMP) (s.geti (cruA b) F.CRU_TEMPREF_TOPT_REF) ||
      far s.dies[dieOfBay b].temp (s.geti (cruA b) F.CRU_TEMPREF_TDIE_REF) then s.cruRaise b .temp else s

/-- CRU_TEMP_CHECK (R325). -/
def execCruTempCheck (b : Bay) (s : State) : Host.Outcome State Fault Refusal := .next (s.cruTempCheck b)

/-- A paused run goes on at the item it left (R337): its spot is borrowed again, layer items are dropped when the layer has
changed, and a release that the pause made is not made twice. -/
def State.cruResume (s : State) (b : Bay) (r : CruRun) : State :=
  let layerWork := fun (t : CruTodo) => t.state == .layer
  let moved := decide (s.osv[b].layer ≠ r.layer) && r.todo.any layerWork
  let todo := if moved then r.todo.filter (fun t => !layerWork t) else r.todo
  let x := s.cru[b]
  let s := s.setCru b { x with run := some { r with todo, dropped := r.dropped || moved } }
  if moved then s.cruNext b
  else
    match todo with
    | .release _ :: _ => s.cruAdvance b
    | t :: _ =>
      let s := match t.spot with
        | some k => s.cruBorrow b k
        | none => s
      s.setCru b { s.cru[b] with state := t.state }
    | [] => s.cruNext b

/-- A pending run starts (R324, R325, R327, R329): the staged cruise group is active, references latch, TEMP clears DONE of
the other layers, STARVED clears, and the first spot is borrowed. A paused run goes on instead. -/
def State.cruStart (s : State) (b : Bay) : State :=
  let x := s.cru[b]
  if !cruMayStart s b || !cruFirst s b then s
  else
    match x.run with
    | some r => if x.state = .paused then s.cruResume b r else s
    | none =>
      if x.pending = [] then s
      else
        let s := s.activate (.cruCruise b)
        let a := cruA b
        let trig := x.pending.map (·.1)
        let layer := s.osv[b].layer
        let prev := (s.geti a F.CRU_TEMPREF_TOPT_REF, s.geti a F.CRU_TEMPREF_TDIE_REF)
        let s := (s.put a F.CRU_TEMPREF_TOPT_REF (ofSigned 16 (s.geti (bayAt .sfe b) F.SFE_TEMP_TEMP))).put a
          F.CRU_TEMPREF_TDIE_REF (ofSigned 16 s.dies[dieOfBay b].temp)
        let s := if trig.any (· = .temp) then
            s.put a F.CRU_LAYERS_DONE (s.get a F.CRU_LAYERS_DONE &&& 2 ^ layer) else s
        let s := s.setCru b { x with
          pending := [], items := [], starved := false
          run := some { layer, todo := cruPlan s b trig, items := x.items, now := trig.any (· = .now), prev } }
        s.cruNext b

/-- CRU_RUN_START (R324, R327). -/
def execCruRunStart (b : Bay) (s : State) : Host.Outcome State Fault Refusal := .next (s.cruStart b)

/-- A run has waited longer than CRU_WAIT (R327). -/
def State.cruStarve (s : State) (b : Bay) : State :=
  let x := s.cru[b]
  if x.pending = [] ∨ x.starved then s
  else ((s.setCru b { x with starved := true }).bump (cruA b) F.CRU_CNT2_STARVATIONS).raiseBay b 0x0803 0 0xFFFF 0 0

/-- CRU_STARVED (R327). -/
def execCruStarved (b : Bay) (s : State) : Host.Outcome State Fault Refusal := .next (s.cruStarve b)

/-- CRU_POINT_MEASURED (R331, R332, R334, R335). -/
def execCruPointMeasured (b : Bay) (m : CruMeasured) (s : State) : Host.Outcome State Fault Refusal := .next (s.cruPoint b m)

/-- The spot's commits have taken effect and it is released at a slot boundary (R335, R337). -/
def State.cruRelease (s : State) (b : Bay) : State :=
  match s.cru[b].run with
  | some r =>
    match r.todo with
    | .release k :: _ =>
      let trims := s.isWaiting (.sfeTrim b) && !s.sfe[b].spots[k].trimTaken
      if s.cru[b].borrowed ≠ some k ∨ trims ∨ s.isWaiting (.cruReadPower b) then s else (s.cruReturn b).cruAdvance b
    | _ => s
  | none => s

/-- CRU_SPOT_RELEASE (R335). -/
def execCruSpotRelease (b : Bay) (s : State) : Host.Outcome State Fault Refusal := .next (s.cruRelease b)

/-! ## Taps -/

/-- The live taps of a spot as LAT_LIVETAP shows them, in 1/1,024 (R122, R164): index t of the sixteen-word span and the
value. -/
def liveTaps (s : State) (b : Bay) (k : Fin 7) : List (Nat × Int) :=
  let p := s.lat[b].spots[k]
  let l : Nat → List Int → List (Nat × Int) := fun base v => v.zipIdx.map fun e => (base + e.2, e.1 / 256)
  l 0 p.own ++ l 16 p.inner ++ l 24 p.outer

/-- One reading of every spot's taps (R333). -/
def tapReading (s : State) (b : Bay) : List (List Int) := (List.finRange 7).map fun k => (liveTaps s b k).map (·.2)

/-- The two readings of a spot agree within ±24/1,024 on every tap (R330). -/
def tapsAgree (u v : List Int) : Bool := (u.zip v).all fun p => decide (|p.1 - p.2| ≤ 24)

/-- Stage a spot's means as its new starting taps (R333). -/
def State.stageTaps (s : State) (b : Bay) (layer : Nat) (k : Fin 7) (u v : List Int) : State :=
  (((liveTaps s b k).map (·.1)).zip (u.zip v)).foldl (fun t e =>
    t.stage (bayAt .lat b) F.LAT_TAPTAB_TAP (ofSigned 12 (roundOpen (((e.2.1 + e.2.2 : Int) : Rat) / 2))) (224 * layer + 32 * k + e.1)) s

/-- A reading of the live taps: the first is kept, the second ends the run (R329, R333, R335). -/
def State.cruSnapshot (s : State) (b : Bay) : State :=
  let x := s.cru[b]
  match x.run with
  | none => s
  | some r =>
    match r.todo, r.snap with
    | .snapshot :: _, none =>
      if x.state = .paused then s else s.setCru b { x with run := some { r with snap := some (tapReading s b) } }
    | .snapshot :: _, some first =>
      if x.state = .paused then s
      else
        let now := tapReading s b
        let pairs := (List.finRange 7).map fun k => (k, (first[k.val]?).getD [], (now[k.val]?).getD [])
        let s := pairs.foldl (fun t e =>
          if tapsAgree e.2.1 e.2.2 then t.stageTaps b r.layer e.1 e.2.1 e.2.2 else t.cruFlag b .taps e.1 .disagree) s
        let s := if pairs.any (fun e => tapsAgree e.2.1 e.2.2) then s.cruCommit b (.latTaps b) .taps 0 else s
        s.cruAdvance b
    | _, _ => s

/-- CRU_TAP_SNAPSHOT (R333). -/
def execCruTapSnapshot (b : Bay) (s : State) : Host.Outcome State Fault Refusal := .next (s.cruSnapshot b)

/-- CRU_RUN_ABORT (R337). -/
def execCruRunAbort (b : Bay) (s : State) : Host.Outcome State Fault Refusal := .next (s.cruAbort b)

/-! ## Mount dark phase -/

/-- The first agreeing attempt of a spot, of at most four, with the failed attempts before it (R335). -/
def darkResult (k : Fin 7) : List (Vector DarkMeans 7 × Vector DarkMeans 7) → Nat → Option (List Rat) × Nat
  | [], n => (none, n)
  | (p, q) :: t, n =>
    if 4 ≤ n then (none, n)
    else
      let u := cruDark p[k]
      let v := cruDark q[k]
      if cruAgree .adc u v then (some ((u.zip v).map fun e => (e.1 + e.2) / 2), n) else darkResult k t (n + 1)

/-- All seven spots' ADC trims at once before FOC_EN is set (R332). -/
def State.cruDarkPhase (s : State) (b : Bay) (m : List (Vector DarkMeans 7 × Vector DarkMeans 7)) : State :=
  if !s.has (cruA b) F.CRU_CTL_ENABLE || !cruEnabled s b .adc || s.has (bayAt .osv b) F.TRN_OSV_CTL_FOC_EN then s
  else
    let s := (List.finRange 7).foldl (fun t k =>
      let (v, n) := darkResult k m 0
      let t := t.bumpBy (cruA b) F.CRU_CNT2_ATTEMPTS_FAILED n
      match v with
      | some v => t.cruTake b 0 .adc k v
      | none => t.cruFlag b .adc k .disagree) s
    s.cruCommit b (.sfeTrim b) .adc 0

/-- MOUNT_DARK_PHASE: the means of the attempts in order, each taken twice (R332). -/
def execMountDarkPhase (b : Bay) (m : List (Vector DarkMeans 7 × Vector DarkMeans 7)) (s : State) :
    Host.Outcome State Fault Refusal := .next (s.cruDarkPhase b m)

/-! ## Quality -/

/-- TRES: the rms of TE over the turns since the last update, saturating at 255; a free value when no turn counted (R339). -/
def cruTres (s : State) (x : Cru) : Nat :=
  if x.teN = 0 then s.freeVal % 256 else (clampInt 0 255 (roundOpen (Config.sqrt (x.teSq / x.teN)))).toNat

/-- The bay's figures, recomputed every 100 ms (R339). -/
def State.cruQuality (s : State) (b : Bay) : State :=
  let x := s.cru[b]
  let tres := cruTres s x
  let sT := grade (63 * (20 - (tres : Rat)) / 15)
  let pips := (List.finRange 7).foldl (fun (m : Nat) (k : Fin 7) =>
    if x.borrowed = some k then m else min m (s.get (cruA b) F.CRU_SPOTk_Q_PIPS k)) sT
  let pips := if s.osv[b].t = .locked then pips else 0
  let s := if x.teN = 0 then s.drawn else s
  let s := s.setCru b { x with teSq := 0, teN := 0 }
  ((s.put (cruA b) F.CRU_BAY_Q_TRES tres).put (cruA b) F.CRU_BAY_Q_PIPS pips).put (cruA b) F.CRU_BAY_Q_SEQ
    (s.get (cruA b) F.CRU_BAY_Q_SEQ + 1)

/-- CRU_QUALITY_UPDATE (R339). -/
def execCruQualityUpdate (b : Bay) (s : State) : Host.Outcome State Fault Refusal := .next (s.cruQuality b)

end Sys2Proof.Machine
end

