-- ==== Sys2Proof/Machine/FrontEnd.lean ====
section
/-! DEFINITION. What the commands of the seven-spot front end do (chapter 03). -/
namespace Sys2Proof.Machine

/-! ## The block boundary -/

/-- y₁ of a raw sample in 1/1,024 LSB (R78). -/
def trimmed (gain ofs y : Int) : Int := y * (1024 + gain) - 128 * ofs

/-- E and M over one window of samples, in 1/1,024 LSB (R79, R81). -/
def windowEM (w : List Int) : Rat × Rat :=
  match w with
  | [] => (0, 0)
  | x :: t =>
    let hi := t.foldl max x
    let lo := t.foldl min x
    ((hi : Rat) - lo, ((hi : Rat) + lo) / 2)

/-- The statistics of a block: Ē and M̄ in LSB, n₊ − n₋ (R81). `hist` is newest first with the block's n samples in front,
`b` the asymmetry with 16 fraction bits. -/
def blockStats (hist : List Int) (n win : Nat) (b : Int) : Rat × Rat × Int :=
  let ems := (List.range n).map fun i => windowEM ((hist.drop i).take win)
  let blk := hist.take n
  let pos := (blk.filter fun y => decide (b < 64 * y)).length
  let neg := (blk.filter fun y => decide (64 * y < b)).length
  ((ems.map (·.1)).sum / n / 1024, (ems.map (·.2)).sum / n / 1024, (pos : Int) - neg)

/-- A rate exponent, reduced during acquisition but never below 2 (R84). -/
def rateExp (s : State) (b : Bay) (f : Field) : Nat :=
  let e := s.get (sfeA b) f
  if s.sfe[b].acq then max 2 (e - s.get (sfeA b) F.SFE_LOOPCFG_ACQ_SHIFT) else e

/-- The three loops of a spot updated (R81). -/
def loopUpdate (s : State) (b : Bay) (x : SfeSpot) (env mid : Rat) (n : Int) : SfeSpot :=
  let a := sfeA b
  let ref : Rat := s.get a F.SFE_LOOPCFG_A_REF
  let g := (roundOpen (x.g * (1 + (ref - env) / ref / 2 ^ rateExp s b F.SFE_LOOPCFG_GRATE))).toNat
  let lo := s.get a F.SFE_LOOPLIM_G_MIN
  let hi := s.get a F.SFE_LOOPLIM_G_MAX
  let g := if codeOfGain g < lo then gainOfCode lo else if (hi : Int) < codeOfGain g then gainOfCode hi else g
  let o := clampInt (-32 * 65536) (32 * 65536) (roundOpen (x.o - 65536 * mid / 2 ^ rateExp s b F.SFE_LOOPCFG_ORATE))
  let lim : Int := s.get a F.SFE_LOOPLIM_B_LIM * 8192
  let bb := clampInt (-lim) lim (roundOpen (x.b + 65536 * (n : Rat) / 2 ^ rateExp s b F.SFE_LOOPCFG_ARATE))
  { x with g, o, b := bb }

/-- A pending SFE_SPOTk_LOOP write takes effect (R85). -/
def manualUpdate (x : SfeSpot) : SfeSpot :=
  match x.manual with
  | none => x
  | some w => { x with
      g := gainOfCode (F.SFE_SPOTn_LOOP_PGA.of w)
      o := toSigned 8 (F.SFE_SPOTn_LOOP_OFS.of w) * 16384
      b := toSigned 8 (F.SFE_SPOTn_LOOP_ASYM.of w) * 8192
      manual := none }

/-- Write a spot's PGA and DAC codes, asymmetry and monitors (R81, R113, R114). -/
def State.spotCodes (s : State) (b : Bay) (k : Fin 7) (x : SfeSpot) : State :=
  let a := sfeA b
  let s := ((s.put a F.SFE_SPOTn_LOOP_PGA (clampInt 0 255 (codeOfGain x.g)).toNat k).put a F.SFE_SPOTn_LOOP_OFS
    (ofSigned 8 (clampInt (-128) 127 (roundNear (4 * (x.o : Rat) / 65536)))) k).put a F.SFE_SPOTn_LOOP_ASYM
    (ofSigned 8 (roundOpen ((x.b : Rat) / 8192))) k
  ((s.put a F.SFE_SPOTn_MON_ENV (clampInt 0 255 (roundOpen x.env)).toNat k).put a F.SFE_SPOTn_MON_MID
    (ofSigned 8 (clampInt (-128) 127 (roundOpen x.mid))) k).put a F.SFE_SPOTn_MON_LSLOW
    (ofSigned 8 (clampInt (-128) 127 (roundOpen x.lslow))) k

/-- One spot at a block boundary (R81, R82). -/
def State.spotBlock (s : State) (b : Bay) (k : Fin 7) (raw : List Int) : State :=
  let a := sfeA b
  let x := s.sfe[b].spots[k]
  if !spotOn s b k then s
  else
    let t := sfeT s b
    let gain := toSigned 8 (trimVal s b k F.SFE_TRIMn_ADC_GAIN k)
    let ofs := toSigned 8 (trimVal s b k F.SFE_TRIMn_ADC_OFS k)
    let hist := ((raw.map (trimmed gain ofs)).reverse ++ x.hist).take 600
    let (env, mid, n) := blockStats hist raw.length (bitsToSamples t 24) x.b
    let lw := hist.take (bitsToSamples t 32)
    let lw : Rat := if lw = [] then 0 else (lw.sum : Rat) / lw.length / 1024
    let frozen := x.froze || sfeFrozen s b k
    let x := { x with hist, env, mid, lslow := if x.snag then x.lslow else x.lslow + (lw - x.lslow) / 16 }
    let x := if bitOf (s.get a F.SFE_CTL_MANUAL) k then manualUpdate x else { x with manual := none }
    let x := if frozen then x else loopUpdate s b x env mid n
    let x := { x with froze := sfeFrozen s b k }
    (s.setSpot b k x).spotCodes b k x

/-- A block in which an enabled spot has four or more samples at −64 or +63 (R90). -/
def clippedBlock (s : State) (b : Bay) (raw : Vector (List Int) 7) : Bool :=
  (List.finRange 7).any fun (k : Fin 7) => spotOn s b k && decide (4 ≤ (raw[k].filter fun y => y = -64 || y = 63).length)

/-- SFE_BLOCK_BOUNDARY in the order of R82. -/
def State.sfeBlock (s : State) (b : Bay) (raw : Vector (List Int) 7) : State :=
  let s := if clippedBlock s b raw then
      let ms := s.clock / 1000000
      let t := (s.setSfe b { s.sfe[b] with clipMs := some ms }).bump (sfeA b) F.SFE_CLIPCNT_CLIPS
      if s.sfe[b].clipMs = some ms then t else t.raiseBay b 0x0102 0 0xFFFF 0
    else s
  let s := ((s.activate (.sfeLoop b)).activate (.sfeSnag b)).activate (.sfeForecast b)
  let s := (List.finRange 7).foldl (fun t (k : Fin 7) => t.spotBlock b k raw[k]) s
  let x := s.sfe[b]
  if x.acq then s.setSfe b { x with acqLeft := x.acqLeft - 1 } else s

/-- SFE_BLOCK_BOUNDARY: the raw ADC samples of the block of each spot, oldest first (R78, R82, R90). -/
def execSfeBlockBoundary (b : Bay) (raw : Vector (List Int) 7) (s : State) : Host.Outcome State Fault Refusal :=
  .next (s.sfeBlock b raw)

/-! ## Snags -/

/-- The envelope-drop threshold in LSB (R86). -/
def dropTh (s : State) (b : Bay) : Rat :=
  s.get (sfeA b) F.SFE_SNAGCFG_DROP_TH * s.get (sfeA b) F.SFE_LOOPCFG_A_REF / 256

/-- A detector's condition holds for its persistence: E and L_w of the last channel bits in LSB, newest first (R86, R87). -/
def snagDetected (s : State) (b : Bay) (k : Fin 7) (e lw : List Rat) : Bool :=
  let dn := s.get (sfeA b) F.SFE_SNAGCFG_DROP_N
  let jn := s.get (sfeA b) F.SFE_SNAGCFG_JUMP_N
  let slow := s.sfe[b].spots[k].lslow
  (decide (dn ≤ e.length) && (e.take dn).all fun v => decide (v < dropTh s b)) ||
    (decide (jn ≤ lw.length) && (lw.take jn).all fun v => decide ((s.get (sfeA b) F.SFE_SNAGCFG_JUMP_TH : Rat) < |v - slow|))

/-- A spot's snag flag sets (R86, R87, R94, R96). -/
def State.snagSet (s : State) (b : Bay) (k : Fin 7) (e lw : List Rat) : State :=
  let x := s.sfe[b].spots[k]
  if !spotOn s b k || x.snag || s.sfe[b].holdSeek || s.sfe[b].acq || !snagDetected s b k e lw then s
  else
    let fresh := x.windows.any fun w => w.isOpen && !w.confirmed
    let s := s.setSpot b k { x with
      snag := true, froze := true, longRep := false
      windows := x.windows.map fun w => if w.isOpen then { w with confirmed := true } else w }
    let s := s.bump (sfeA b) F.SFE_CNTn_OWN k
    let s := if fresh then s.bump (sfeA b) F.SFE_CNTn_CONFIRMED k else s
    let s := if k = 3 then { s with osv := s.osv.set b { s.osv[b] with defect := true } } else s
    if fcSource s b = some k.val then s.fcIssue b k else s

/-- SNAG_SET (R86, R87). -/
def execSnagSet (b : Bay) (k : Fin 7) (e lw : List Rat) (s : State) : Host.Outcome State Fault Refusal := .next (s.snagSet b k e lw)

/-- Both clear conditions have held for HOLD × 4 channel bits (R88). -/
def snagOver (s : State) (b : Bay) (k : Fin 7) (e lw : List Rat) : Bool :=
  let n := 4 * s.get (sfeA b) F.SFE_SNAGCFG_HOLD
  let slow := s.sfe[b].spots[k].lslow
  decide (n ≤ e.length) && decide (n ≤ lw.length) && (e.take n).all (fun v => decide (dropTh s b + 4 ≤ v)) &&
    (lw.take n).all fun v => decide (|v - slow| ≤ s.get (sfeA b) F.SFE_SNAGCFG_JUMP_TH)

/-- A spot's snag flag clears (R88, R94). -/
def State.snagClear (s : State) (b : Bay) (k : Fin 7) (e lw : List Rat) : State :=
  let x := s.sfe[b].spots[k]
  if !x.snag || !snagOver s b k e lw then s
  else (s.setSpot b k { x with snag := false, longRep := false, froze := true }).fcClose b k

/-- SNAG_CLEAR (R88). -/
def execSnagClear (b : Bay) (k : Fin 7) (e lw : List Rat) (s : State) : Host.Outcome State Fault Refusal :=
  .next (s.snagClear b k e lw)

/-- A snag has stayed set for SNAG_MAX × 64 channel bits (R89). -/
def State.longSnag (s : State) (b : Bay) (k : Fin 7) : State :=
  let x := s.sfe[b].spots[k]
  if !x.snag || x.longRep then s
  else
    let s := (s.setSpot b k { x with longRep := true }).bump (sfeA b) F.SFE_EVCNT_LONG_SNAGS
    let s := s.raiseBay b 0x0101 0 k 0
    if k = 3 then { s with osv := s.osv.set b { s.osv[b] with longSnag := true } } else s

/-- LONG_SNAG (R89). -/
def execLongSnag (b : Bay) (k : Fin 7) (s : State) : Host.Outcome State Fault Refusal := .next (s.longSnag b k)

/-! ## Forecast windows -/

/-- The earliest scheduled window opens and freezes the spot (R94, R96). -/
def State.fcOpen (s : State) (b : Bay) (k : Fin 7) : State :=
  let x := s.sfe[b].spots[k]
  match (x.windows.filter fun w => !w.isOpen).foldl (fun (m : Option Int) w => some (match m with
      | none => w.opensAt | some t => min t w.opensAt)) none with
  | none => s
  | some t =>
    let s := s.setSpot b k { x with
      froze := true
      windows := x.windows.map fun w => if !w.isOpen && w.opensAt = t then { w with isOpen := true } else w }
    if k = 3 then { s with osv := s.osv.set b { s.osv[b] with defect := true } } else s

/-- FORECAST_WINDOW_OPEN (R94). -/
def execForecastWindowOpen (b : Bay) (k : Fin 7) (s : State) : Host.Outcome State Fault Refusal := .next (s.fcOpen b k)

/-- The open window whose closing comes first closes (R94). -/
def State.fcEnd (s : State) (b : Bay) (k : Fin 7) : State :=
  let x := s.sfe[b].spots[k]
  match (x.windows.filter fun w => w.isOpen).foldl (fun (m : Option Int) w =>
      match m, w.closesAt with
      | none, c => c | some t, some c => some (min t c) | some t, none => some t) none with
  | none => s
  | some t => s.setSpot b k { x with windows := x.windows.filter fun w => !(w.isOpen && w.closesAt = some t) }

/-- FORECAST_WINDOW_CLOSE (R94). -/
def execForecastWindowClose (b : Bay) (k : Fin 7) (s : State) : Host.Outcome State Fault Refusal := .next (s.fcEnd b k)

/-! ## Velocity, temperature, acquisition -/

/-- SFE_VEL_REPLACED: a velocity out of range, or no update for 100 µs (R92). -/
def execSfeVelReplaced (b : Bay) (s : State) : Host.Outcome State Fault Refusal := .next (s.velSuspend b)

/-- A reading of the thermistor's resistance in ohms, or none for an open or short input (R98). -/
def State.thermistorReading (s : State) (b : Bay) (ohm : Option Nat) : State :=
  let t := ohm.map thermistor
  match t with
  | none => s.tempReplace b
  | some c =>
    if c < -20 ∨ 110 < c then s.tempReplace b
    else
      let x := s.sfe[b]
      let ts := x.temps ++ [c]
      if ts.length < 8 then s.setSfe b { x with temps := ts }
      else ((s.setSfe b { x with temps := [] }).put (sfeA b) F.SFE_TEMP_TEMP (ofSigned 12 (roundOpen (16 * ts.sum / 8)))).put
        (sfeA b) F.SFE_TEMP_REPLACED 0

/-- THERMISTOR_READING (R98). -/
def execThermistorReading (b : Bay) (ohm : Option Nat) (s : State) : Host.Outcome State Fault Refusal :=
  .next (s.thermistorReading b ohm)

/-- SFE_TEMP_REPLACED: 10 ms without a completed reading (R98). -/
def execSfeTempReplaced (b : Bay) (s : State) : Host.Outcome State Fault Refusal := .next (s.tempReplace b)

/-- The acquisition's blocks have run: snag detection and forecasts resume (R84). -/
def State.acqEnd (s : State) (b : Bay) : State :=
  let x := s.sfe[b]
  if x.acq ∧ x.acqLeft = 0 then s.setSfe b { x with acq := false } else s

/-- ACQUISITION_END (R84). -/
def execAcquisitionEnd (b : Bay) (s : State) : Host.Outcome State Fault Refusal := .next (s.acqEnd b)

/-! ## Register writes -/

/-- A write to SFE_SPOTk_LOOP acts in manual mode only (R85). -/
def State.spotLoopWrite (s : State) (b : Bay) (k : Fin 7) (w : Word) : State :=
  if bitOf (s.get (sfeA b) F.SFE_CTL_MANUAL) k then s.setSpot b k { s.sfe[b].spots[k] with manual := some w } else s

/-- SFE_SPOT_LOOP_WRITE (R85). -/
def execSfeSpotLoopWrite (b : Bay) (k : Fin 7) (w : Word) (s : State) : Host.Outcome State Fault Refusal :=
  .next (s.spotLoopWrite b k w)

/-- A write to SFE_AFE is ignored while any SPOT_EN bit is 1; RANGE 0b11 is refused (R103). -/
def State.afeWrite (s : State) (b : Bay) (w : Word) : State :=
  let a := sfeA b
  if s.get a F.SFE_CTL_SPOT_EN ≠ 0 ∨ F.SFE_AFE_RANGE.of w = 3 then s
  else ((s.put a F.SFE_AFE_TERM (F.SFE_AFE_TERM.of w)).put a F.SFE_AFE_LPF (F.SFE_AFE_LPF.of w)).put a F.SFE_AFE_RANGE
    (F.SFE_AFE_RANGE.of w)

/-- SFE_AFE_WRITE (R103). -/
def execSfeAfeWrite (b : Bay) (w : Word) (s : State) : Host.Outcome State Fault Refusal := .next (s.afeWrite b w)

end Sys2Proof.Machine
end

