-- ==== Sys2Proof/Machine/RecOps.lean ====
section
/-! DEFINITION. The recording path's shared operations (chapter 05) and its laser-driver link (chapter 24). -/
namespace Sys2Proof.Machine

/-- Address of a bay's REC block. -/
def recA (b : Bay) : Nat := bayAt .rcd b

/-- Replace the recording path of a bay. -/
def State.setRec (s : State) (b : Bay) (x : Rec) : State := { s with recp := s.recp.set b x }

/-- The radius band of a log: of slot 3n on spiral 0; outside the data zone band 0 (R171). -/
def logBand (l : BuiltLog) : Nat := if l.area = 0 then bandOfRadius (swathRadius (areaSwath 0 (3 * l.log))) else 0

/-- Index of REC_PWRTAB of a layer and band (R181). -/
def pwrIndex (layer band : Nat) : Nat := 4 * layer + band

/-- Layer and band of the log being written, or due to be written next; what lies under the beams when there is none (R176,
R230). -/
def dueLog (s : State) (b : Bay) : Nat × Nat :=
  let x := s.recp[b]
  match x.writing, x.built with
  | some w, _ => (w.log.layer, w.band)
  | none, l :: _ => (l.layer, logBand l)
  | none, [] => (s.osv[b].layer, tiltBand s b)

/-- PEAK and BIAS of the log being written, as it started, or of the active table (R172, R176). -/
def tablePeak (s : State) (b : Bay) : Nat :=
  match s.recp[b].writing with
  | some w => F.REC_PWRTAB_PEAK.of w.power
  | none => s.get (recA b) F.REC_PWRTAB_PEAK (pwrIndex (dueLog s b).1 (dueLog s b).2)
def tableBias (s : State) (b : Bay) : Nat :=
  match s.recp[b].writing with
  | some w => F.REC_PWRTAB_BIAS.of w.power
  | none => s.get (recA b) F.REC_PWRTAB_BIAS (pwrIndex (dueLog s b).1 (dueLog s b).2)

/-- The emitters enabled in the laser driver: those of the powered spots, none in the safe state (R36, R644). -/
def emitterOn (s : State) (b : Bay) (k : Nat) : Bool :=
  !s.dies[dieOfBay b].safe && bitOf (s.get (bayAt .sfe b) F.SFE_CTL_SPOT_EN) k

/-- SCALE_MAX, the largest scale among the enabled emitters, or of all when none is (R176). -/
def scaleMax (s : State) (b : Bay) : Nat :=
  let on := (List.finRange 7).filter fun (k : Fin 7) => emitterOn s b k
  let ks : List (Fin 7) := if on = [] then List.finRange 7 else on
  ks.foldl (fun m (k : Fin 7) => max m (s.get (recA b) F.REC_SCALEk_SCALE k)) 0

/-- The eye-safety ceiling on the table's scale (R176). -/
def eyeCeiling (s : State) (b : Bay) : Rat := s.get (recA b) F.REC_LIMIT_EYE_CEIL * 1024 / (scaleMax s b : Rat)

/-- The thermal limit: 4 % of the table PEAK less for each °C of SFE_TEMP above THERM_START (R176). -/
def thermalLimit (s : State) (b : Bay) : Rat :=
  let t : Rat := (s.geti (bayAt .sfe b) F.SFE_TEMP_TEMP : Rat) / 16
  let hot := max 0 (t - s.get (recA b) F.REC_LIMIT_THERM_START)
  max 0 ((tablePeak s b : Rat) * (1 - hot * 4 / 100))

/-- The bay's laser-power selector (R195). -/
def laserSel (b : Bay) : Fin 8 := if bayInDie b = 0 then 1 else 3

/-- S, the selected peak power in 0.05 mW (R175, R176). -/
def laserS (s : State) (b : Bay) : Rat := (s.trn[dieOfBay b].sels[laserSel b].out : Rat) / 65536

/-- The target of an emitter (R175). -/
def emitterTarget (s : State) (b : Bay) (k : Fin 7) : Rat := laserS s b * s.get (recA b) F.REC_SCALEk_SCALE k / 1024

/-- The PEAK level of an emitter: the output of its control loop (R175, R231). -/
def emitterPeak (s : State) (b : Bay) (k : Nat) : Nat :=
  let code := 0x10 + 0x20 * bayInDie b + k
  (clampInt 0 1600 (((s.trn[dieOfBay b].dest.find? (·.1 = code)).map (·.2)).getD 0 / 65536)).toNat

/-- The BIAS level of an emitter, in the ratio of the table entry (R175). -/
def emitterBias (s : State) (b : Bay) (k : Nat) : Nat :=
  let p := tablePeak s b
  if p = 0 then 0 else (roundOpen ((emitterPeak s b k : Rat) * tableBias s b / p)).toNat

/-- The command frame of a turn, 272 bits, first bit sent most significant (R644). -/
def cmdFrame (s : State) (b : Bay) : Nat :=
  let en := (List.range 7).map fun k => emitterOn s b k
  let safe := s.dies[dieOfBay b].safe
  let levels := (List.finRange 7).flatMap fun (k : Fin 7) =>
    if safe then List.replicate 33 false
    else msbBits 11 (readPower s b k) ++ msbBits 11 (emitterBias s b k) ++ msbBits 11 (emitterPeak s b k)
  let body := [s.recp[b].writing.isSome] ++ en ++ levels ++ List.replicate 9 false
  ofMsb (msbBits 16 0xB43C ++ body ++ msbBits 8 (crc8 body))

/-! ## Pulses -/

/-- The pulses of a mark of L channel bits in T/32 from its leading edge: start and end (R170). -/
def markPulses (strat : List Word) (l : Nat) : List (Int × Int) :=
  let c := if l = 1 then 0 else if l = 2 then 1 else if l = 3 then 2 else 3
  let w := strat.getD c 0
  let start := toSigned 8 (F.REC_STRAT_START.of w)
  let first := (start, start + F.REC_STRAT_TOP.of w)
  let last : Int × Int := (32 * ((l : Int) - 1), 32 * ((l : Int) - 1) + F.REC_STRAT_LAST.of w)
  if l = 1 then [first]
  else [first] ++ ((List.range (l - 2)).map fun j => (32 * ((j : Int) + 1), 32 * ((j : Int) + 1) + F.REC_STRAT_MP.of w)) ++ [last]

/-- The marks of a run of channel bits: leading edge and length; a 1 toggles the level, which starts at space (R51, R53). -/
def marksOf : Nat → Option Nat → List Bool → List (Nat × Nat)
  | n, some at_, [] => [(at_, n - at_)]
  | _, none, [] => []
  | n, none, true :: t => marksOf (n + 1) (some n) t
  | n, some at_, true :: t => (at_, n - at_) :: marksOf (n + 1) none t
  | n, m, false :: t => marksOf (n + 1) m t

/-- The channel bits of a log on one beam: its three slots, the running digital sum from 0 (R63, R166). -/
def beamBits (l : BuiltLog) (k : Nat) : List Bool :=
  ((List.range 3).foldl (fun (r : List Bool × Rds) j =>
    let slot := 3 * l.log + j
    let cw := ldpcEncode (l.boards.getD (indexAt k slot) [])
    (List.range 36).foldl (fun (q : List Bool × Rds) f =>
      let (bits, rds) := encodeFrame q.2 (frameAddress l.layer l.area k slot f) (framePayload cw f)
      (q.1 ++ bits, rds)) r) ([], {})).1

/-- The pulses of beam k while a log is written, in T/32 from its first channel bit (R165, R170, R173). -/
def Writing.pulses (w : Writing) (k : Nat) : List (Int × Int) :=
  (marksOf 0 none (beamBits w.log k)).flatMap fun m =>
    (markPulses w.strat m.2).map fun p => (32 * (m.1 : Int) + p.1, 32 * (m.1 : Int) + p.2)

/-! ## Ends of a log -/

/-- The LBA of board 0 of a log, in a system log its number × 32 (R25). -/
def builtLba (l : BuiltLog) : Nat := if l.area = 0 then lbaOfPlace ⟨l.layer, l.log, 0⟩ else l.log * 32

/-- The log in progress stops partly written (R180). -/
def State.recPartial (s : State) (b : Bay) : State :=
  let x := s.recp[b]
  match x.writing with
  | none => s
  | some w =>
    let lba := builtLba w.log
    let s := s.setRec b { x with writing := none, state := .stopped, built := x.built.filter (·.item ≠ w.log.item) }
    let s := s.bump (recA b) F.REC_CNT_LOGS_PARTIAL
    let s := s.raiseBay b 0x0303 0 0xFFFF lba
    (s.endItem (dieOfBay b) w.log.item .partly 0 (some (lba * 2 ^ 32))).logOver (dieOfBay b) w.log.item

/-- A log is not written: its item ends with a status (R166, R176, R180). -/
def State.recRefuse (s : State) (b : Bay) (l : BuiltLog) (st : WStatus) : State :=
  let x := s.recp[b]
  let s := s.setRec b { x with built := x.built.filter (·.item ≠ l.item), items := x.items.filter (·.item ≠ l.item) }
  s.endItem (dieOfBay b) l.item st 0 (some (builtLba l * 2 ^ 32))

/-- The recorder forgets all it holds: safe state, reset of the die, unmount. -/
def State.recClear (s : State) (b : Bay) : State :=
  let x := s.recp[b]
  s.setRec b { x with state := .idle, items := [], built := [], checks := [], writing := none, settled := false, opcDue := false, wi := false }

/-! ## Power tests -/

/-- A power test is due on a layer (R178). -/
def opcNeeded (s : State) (b : Bay) (layer : Nat) : Bool :=
  s.has (recA b) F.REC_CTL_OPC_EN &&
    match s.recp[b].opc.find? (·.layer = layer) with
    | none => true
    | some e => decide ((s.get (recA b) F.REC_OPC_OPC_DELTA : Int) < |s.geti (bayAt .sfe b) F.SFE_TEMP_TEMP - e.temp|)

/-- Write inhibit is called for: an error past its limit or a loop not locked (R177). -/
def wiCause (s : State) (b : Bay) : Bool :=
  let o := s.osv[b]
  decide ((s.get (recA b) F.REC_CTL_WI_TRK : Rat) < |o.te|) || decide ((s.get (recA b) F.REC_CTL_WI_FOC : Rat) < |o.fe|) ||
    o.f != .locked || o.t != .locked

/-- The laser-power selector passes a ceiling: the eye-safety or the thermal limit (R176, R184, R195). -/
def powerLimited (s : State) (b : Bay) : Bool :=
  match s.trn[dieOfBay b].sels[laserSel b].selected with
  | some n => n.val % 24 == 18 || n.val % 24 == 19
  | none => false

/-- The live words of REC_STATUS and REC_OPC (R184, R186). -/
def viewRec (s : State) (b : Bay) (off : Nat) : Option Nat :=
  let x := s.recp[b]
  if off = 0x04 then
    some (b2n x.opcRange * 2 ^ 16 + b2n x.barkOk * 2 ^ 15 + b2n (powerLimited s b) * 2 ^ 14 + b2n x.opcEdge * 2 ^ 13 + b2n x.wi * 2 ^ 12
      + x.state.code)
  else if off = 0x0C then
    some (b2n x.opcDue * 2 ^ 31 + s.get (recA b) F.REC_OPC_OPC_DELTA * 2 ^ 8 + s.get (recA b) F.REC_OPC_MARGIN)
  else none

end Sys2Proof.Machine
end

