-- ==== Sys2Proof/Machine/OsvOps.lean ====
section
/-! DEFINITION. The optical servo's shared operations (chapter 06). -/
namespace Sys2Proof.Machine

/-- Address of a bay's optical servo block. -/
def osvA (b : Bay) : Nat := bayAt .osv b

/-- Replace the optical servo of a bay. -/
def State.setOsv (s : State) (b : Bay) (x : Osv) : State := { s with osv := s.osv.set b x }

/-- A loop slot of a bay: bay 1 uses the number plus 24 (R195). -/
def osvSlot (b : Bay) (n : Nat) : Fin 48 := ⟨(n + 24 * bayInDie b) % 48, Nat.mod_lt _ (by decide)⟩

/-- The sled and SA axes of a bay (R190). -/
def sledAxis (b : Bay) : Fin 8 := if bayInDie b = 0 then 0 else 2
def saAxis (b : Bay) : Fin 8 := if bayInDie b = 0 then 1 else 3

/-- A turn in seconds (R224): TURN_CYC cycles at 400 MHz, or 200 MHz on the mechanism die. -/
def turnTime (s : State) (d : Die) : Rat :=
  s.get (dieAt .trn d) F.TRN_CTL_TURN_CYC / (if d = 1 then 200000000 else 400000000)

/-! ## Errors (R191) -/

/-- How far a scanned setting stands from its active value while one of its points is measured (R330). -/
def cruShift (s : State) (b : Bay) (i : CruItem) : Rat :=
  let x := s.cru[b]
  match x.run with
  | some r =>
    match r.todo with
    | .item j k :: _ =>
      if j = i ∧ x.borrowed = some k then
        (((r.points.length : Int) - 2 + r.centre : Int) : Rat) * (cruScan s b r.layer i k).2 else 0
    | _ => 0
  | none => 0

/-- FOFS of the layer in use, in nm (R191). -/
def osvFofs (s : State) (b : Bay) : Rat :=
  ((s.geti (osvA b) F.TRN_LAYl_FOFS s.osv[b].layer : Rat) + cruShift s b .focus) / 4

/-- SUM_MIN in ADC codes: 1/256 of full scale (R213). -/
def sumMinOf (s : State) (b : Bay) : Rat := s.get (osvA b) F.TRN_FE_CFG_SUM_MIN * 16

/-- SUM3, FE and TE in nm, and the low-signal flag of a turn (R191). -/
def osvErrors (s : State) (b : Bay) (o : ServoObs) : Rat × Rat × Rat × Bool :=
  let sum := o.qa + o.qb + o.qc + o.qd
  let side := o.s4 + o.s2
  let m := sumMinOf s b
  let nfe := if sum < m then 0 else ((o.qa + o.qc) - (o.qb + o.qd)) / sum
  let npp := if sum < m then 0 else ((o.qa + o.qb) - (o.qc + o.qd)) / sum
  let nls := if side < m then 0 else (o.s4 - o.s2) / side
  let fe := s.get (osvA b) F.TRN_FE_CFG_FE_SLOPE * nfe - osvFofs s b
  let te := s.get (osvA b) F.TRN_TE_CFG_TE_SLOPE * (npp - s.geti (osvA b) F.TRN_TE_CFG_K_LS / 256 * nls)
  (sum, fe, te, decide (sum < m) || decide (side < m))

/-- The focus capture band in nm (R215). -/
def fcapBand (s : State) (b : Bay) : Rat := 4 * s.get (osvA b) F.TRN_CAP_CFG_FCAP_BAND

/-- The lock thresholds and the loss threshold in counts of SUM3 (R196, R198, R199). -/
def flockTh (s : State) (b : Bay) : Rat := s.get (osvA b) F.TRN_FE_CFG_FLOCK_TH
def tlockTh (s : State) (b : Bay) : Rat := s.get (osvA b) F.TRN_TE_CFG_TLOCK_TH
def lossLevel (s : State) (b : Bay) : Rat := s.get (osvA b) F.TRN_FE_CFG_LOSS_TH * s.osv[b].sumRef / 100

/-! ## Focus -/

/-- Clear the fault of an owned slot at its owner's restart (R248). -/
def State.slotRestart (s : State) (d : Die) (n : Fin 48) : State :=
  let x := s.trn[d].slots[n]
  if x.st = .fault then
    s.setSlot d n { x with
      st := .held, fe := 0, hi := false
      hand := some (if s.get (dieAt .trn d) F.TRN_Sn_CFG_FAULT_ACT n = 1 then 0 else x.out) }
  else s

/-- A sweep starts from the far end of the lens's range (R196, R197). -/
def State.osvSweep (s : State) (b : Bay) : State :=
  let x := s.osv[b]
  let s := (s.slotRestart (dieOfBay b) (osvSlot b 0)).slotRestart (dieOfBay b) (osvSlot b 1)
  s.setOsv b { x with
    f := .sweep, t := if x.t = .off then .off else .hold
    sweepPos := -32768, peaks := 0, sweepMax := 0, risen := false
    target := if x.counting then 0 else x.layer, longSnag := false, flockRun := 0, fForce := none, tForce := none }

/-- The outcome of the present manoeuvre's owner (R204, R206). -/
def State.moveOutcome (s : State) (b : Bay) (r : MoveReq) (ok : Bool) : State :=
  match r.owner with
  | .item i => s.endItem (dieOfBay b) i (if ok then .done else .fault)
  | .read =>
    if ok then s
    else
      match s.lat[b].logs with
      | l :: rest =>
        let s := s.setLat b { s.lat[b] with logs := rest }
        match l.item with
        | some i => s.endItem (dieOfBay b) i .fault
        | none => s
      | [] => s
  | _ => s

/-- The manoeuvre under way ends. -/
def State.moveEnd (s : State) (b : Bay) (ok : Bool) : State :=
  let x := s.osv[b]
  let s := s.setOsv b { x with move := none, phase := .idle, seeks := 0, fForce := none, tForce := none }
  match x.move with
  | some r => s.moveOutcome b r ok
  | none => s

/-- An attempt of focus has failed: another sweep, or FAILED after the third (R196, R198). -/
def State.focusRetry (s : State) (b : Bay) : State :=
  let x := s.osv[b]
  let s := s.setOsv b { x with tries := min 3 (x.tries + 1) }
  if x.tries + 1 < 3 then s.osvSweep b
  else
    let s := s.moveEnd b false
    let s := s.setOsv b { s.osv[b] with f := .failed, t := .off, pending := none, mount := none }
    ((s.raiseBay b 0x0405 0 0xFFFF 0).endBayItems b .fault).setMounted b false

/-- Tracking is lost (R198). -/
def State.trackLost (s : State) (b : Bay) : State :=
  let x := s.osv[b]
  if x.t = .locked ∨ x.t = .capture ∨ x.t = .jump then
    let s := (s.setOsv b { x with t := .hold, tlockRun := 0, checkDue := false }).bump (osvA b) F.TRN_OSV_CNT_TRK_LOSSES
    let s := s.raiseBay b 0x0404 0 0xFFFF 0
    s.cruInterrupt b
  else s

/-- Write inhibit acts: the log in progress stops (R177, R180). -/
def State.writeInhibit (s : State) (b : Bay) : State :=
  let x := s.recp[b]
  if x.writing.isSome then
    ((s.setRec b { x with wi := true }).bump (recA b) F.REC_CNT2_WI_STOPS).recPartial b
  else s.setRec b { x with wi := true }

/-- Focus is lost (R196, R198): both loops go to HOLD. -/
def State.focusLost (s : State) (b : Bay) : State :=
  let x := s.osv[b]
  let s := (s.setOsv b { x with f := .hold, lowRun := 0, highRun := 0, longSnag := false }).bump (osvA b) F.TRN_OSV_CNT_FOC_LOSSES
  let s := (s.raiseBay b 0x0403 0 0xFFFF 0).cruInterrupt b
  let s := s.trackLost b
  if s.recp[b].writing.isSome then s.writeInhibit b else s

/-- Focus captures (R196). -/
def State.focusCapture (s : State) (b : Bay) (layer : Nat) : State :=
  let s := s.slotRestart (dieOfBay b) (osvSlot b 0)
  s.setOsv b { s.osv[b] with f := .capture, layer, flockRun := 0, fForce := none }

/-- FOC_EN cleared, HALT SAFE or the safe state: OFF, outputs ramping to 0 (R196). -/
def State.osvOff (s : State) (b : Bay) : State :=
  let s := s.moveEnd b false
  let x := s.osv[b]
  let s := match x.pending with
    | some r => s.moveOutcome b r false
    | none => s
  s.setOsv b { s.osv[b] with f := .off, t := .off, pending := none, flockRun := 0, tlockRun := 0, checkDue := false, velValid := false }

/-! ## Layers -/

/-- The SA position of a layer, as scanned while a point is measured (R222, R330). -/
def saOf (s : State) (b : Bay) (layer : Nat) : Int :=
  roundOpen ((s.get (osvA b) F.TRN_LAYl_SA layer : Rat) + cruShift s b .sa)

/-- Move the SA axis towards a layer's position (R202). -/
def State.saMove (s : State) (b : Bay) (layer : Nat) : State :=
  (s.axMoveTo (dieOfBay b) (saAxis b) (saOf s b layer)).setOsv b { s.osv[b] with saDone := false }

/-- The SA axis is at its layer target and at rest (R210). -/
def saAt (s : State) (b : Bay) : Bool :=
  let a := s.axp[dieOfBay b].axes[saAxis b]
  decide (a.p = saOf s b s.osv[b].layer) && (a.st == .idle || a.st == .kept || a.st == .limit)

/-- A kick of n/256 of full scale from a held output (R202, R203, R235). -/
def kickFrom (base : Int) (n : Int) : Int := clampInt (-2147483648) 2147483647 (base + n * 128 * 65536)

/-- Turns of a time in µs (R224). -/
def turnsOf (s : State) (d : Die) (us : Nat) : Nat := (roundOpen ((us : Rat) / 1000000 / turnTime s d)).toNat

/-- One single-layer jump towards the final layer starts (R202). -/
def State.layerKick (s : State) (b : Bay) (final : Nat) : State :=
  let d := dieOfBay b
  let x := s.osv[b]
  let up := decide (x.layer < final)
  let next := if up then x.layer + 1 else x.layer - 1
  let s := (s.sfeHold b).latHold b
  let base := s.trn[d].slots[osvSlot b 0].out
  let amp : Int := s.get (osvA b) F.TRN_LJ_CFG_KICK_AMP
  let s := s.setOsv b { x with
    f := .jump, t := .hold, phase := .layerKick next final, kick := turnsOf s d (s.get (osvA b) F.TRN_LJ_CFG_KICK_T)
    kickBase := base, fForce := some (kickFrom base (if up then -amp else amp)), passedMin := false, sumMin := x.sum3, target := next }
  (s.axMoveTo d (saAxis b) (saOf s b next)).setOsv b { s.osv[b] with saDone := false }

/-! ## Track jumps and seeks -/

/-- Sled follow stops: its output is set to 0 (R201). -/
def State.sledFollowOff (s : State) (b : Bay) : State :=
  let n := osvSlot b 3
  s.setSlot (dieOfBay b) n { s.trn[dieOfBay b].slots[n] with out := 0, hi := false }

/-- A track jump of d turns starts (R203). -/
def State.trackKick (s : State) (b : Bay) (d : Int) : State :=
  let s := (s.sfeHold b).latHold b
  let base := s.trn[dieOfBay b].slots[osvSlot b 1].out
  let amp : Int := s.get (osvA b) F.TRN_SEEK_CFG_TJ_KICK
  let s := s.sledFollowOff b
  s.setOsv b { s.osv[b] with
    t := .jump, phase := .trackKick d, kick := 0, kickBase := base, checkDue := false
    tForce := some (kickFrom base (if 0 < d then amp else -amp)) }

/-- The radius bin of a radius in nm (R204). -/
def binOf (nm : Int) : Nat := (clampInt 0 63 ((nm - 23400000) * 64 / 35100000)).toNat

/-- The centre of a radius bin in nm (R204). -/
def binRadius (i : Nat) : Rat := 23400000 + 35100000 * ((i : Rat) + 1 / 2) / 64

/-- The filled bins of the landing map. -/
def filledBins (m : List (Option Nat)) : List (Rat × Nat) :=
  m.zipIdx.filterMap fun e => e.1.map fun j => (binRadius e.2, j)

/-- The estimated radius of a target slot in nm (R204): interpolated between filled bins on both sides, else counted from the
grid of 2π r / 2.197 mm slots per turn. -/
def seekRadius (m : List (Option Nat)) (area j : Nat) : Rat :=
  let inArea := fun (r : Rat) => decide ((swathRadius (firstGroup area) : Rat) ≤ r ∧ r ≤ (swathRadius (lastGroup area) : Rat))
  let fs := (filledBins m).filter fun e => inArea e.1
  match (fs.filter fun e => decide (e.2 ≤ j)).getLast?, (fs.filter fun e => decide (j < e.2)).head? with
  | some lo, some hi =>
    lo.1 + (hi.1 - lo.1) * ((j : Rat) - lo.2) / ((hi.2 : Rat) - lo.2)
  | _, _ => swathRadius (areaSwath area j)

/-- One seek towards a target on the present layer (R204): a track jump when near, else a coarse seek of the sled. -/
def State.seekStep (s : State) (b : Bay) (area slot : Nat) : State :=
  let d := dieOfBay b
  let x := s.osv[b]
  let short := (s.get (osvA b) F.TRN_SEEK_CFG_LAND_SHORT : Int)
  let near := decide (x.areaNow = area) && x.t == .locked
  let swaths := areaSwath area slot - short - areaSwath area x.slotNow
  let dist := (swaths * 1120).natAbs
  let s := s.setOsv b { x with seeks := x.seeks + 1 }
  if near && dist ≤ 1000 * s.get (osvA b) F.TRN_SEEK_CFG_FINE_RANGE then
    if swaths = 0 then s.setOsv b { s.osv[b] with phase := .landing } else s.trackKick b (7 * swaths)
  else
    let r := seekRadius x.landing area slot / 1000 - 112 / 100 * short
    let target := roundOpen (2 * (r - s.get (osvA b) F.TRN_GEOM_RADIUS_OFS))
    let n := sledAxis b
    let s := (s.sfeHold b).latHold b
    let s := s.setOsv b { s.osv[b] with t := .hold, phase := .coarse, checkDue := false }
    match moveRefusal s d n target with
    | none => s.axGo d n target
    | some _ => s.moveEnd b false

/-- The layer jumps of a manoeuvre are over: what follows (R202, R204). -/
def State.layerArrived (s : State) (b : Bay) : State :=
  match s.osv[b].move with
  | some ⟨.seek _ area slot, _⟩ => s.seekStep b area slot
  | _ => s.moveEnd b true

/-! ## Requests (R206) -/

/-- A manoeuvre starts (R206): the jump group becomes active, a borrowing is given up, the swath's check results end. -/
def State.moveStart (s : State) (b : Bay) (r : MoveReq) : State :=
  let s := s.activate (.osvJump b)
  let s := if r.owner = .retry then s.cruRetry b else s.cruInterrupt b
  let s := s.setRec b { s.recp[b] with checks := [] }
  let s := s.setOsv b { s.osv[b] with move := some r, pending := none, seeks := 0 }
  match r.move with
  | .reacquire => (s.setOsv b { s.osv[b] with tries := 0, phase := .reacquire }).osvSweep b
  | .layer l => if s.osv[b].layer = l then s.moveEnd b true else s.layerKick b l
  | .track d => s.trackKick b d
  | .seek l area slot => if s.osv[b].layer = l then s.seekStep b area slot else s.layerKick b l

/-- A request (R206): it starts, or waits behind the manoeuvre, the log or the recovery under way, replacing what waits; a
request other than REACQUIRE with the focus loop off or failed fails at once. -/
def State.moveRequest (s : State) (b : Bay) (r : MoveReq) : State :=
  let x := s.osv[b]
  let again := r.move = .reacquire
  if ¬ again ∧ (x.f = .off ∨ x.f = .failed) then s.moveOutcome b r false
  else if x.move.isNone ∧ s.recp[b].writing.isNone ∧ (again ∨ x.f = .locked) then s.moveStart b r
  else
    match x.pending with
    | none => s.setOsv b { x with pending := some r }
    | some old =>
      let s := (s.moveOutcome b old false).setOsv b { x with pending := some r }
      (s.put (osvA b) F.TRN_MOVE_REPLACED 1).bump (osvA b) F.TRN_OSV_CNT2_REPLACED

/-! ## Owner's forces on the slots -/

/-- A step towards 0 that ramps full scale to 0 within ms (R36, R196, R204, R209). -/
def rampStep (s : State) (d : Die) (ms : Nat) (v : Int) : Int :=
  let step := max 1 (roundOpen (2147483648 * turnTime s d * 1000 / ms)).natAbs
  if v.natAbs ≤ step then 0 else if 0 < v then v - step else v + step

/-- Force, hold or free a slot as its owner wants it this turn (R236, R237). -/
def State.ownSlot (s : State) (d : Die) (n : Fin 48) (force : Option Int) (hold : Bool) : State :=
  match force with
  | some v => s.setSlot d n { s.trn[d].slots[n] with force := some v, hold := false }
  | none =>
    let s := s.freeSlot d n
    s.setSlot d n { s.trn[d].slots[n] with hold }

/-- What the optical servo does to its four slots at a turn (R196, R199, R201, R209). -/
def State.osvForces (s : State) (b : Bay) : State :=
  let d := dieOfBay b
  let x := s.osv[b]
  let out := fun (n : Nat) => s.trn[d].slots[osvSlot b n].out
  let foc : Option Int × Bool := match x.f with
    | .off | .failed => (some (rampStep s d 2 (out 0)), false)
    | .sweep => (some (clampInt (-2147483648) 2147483647 (roundOpen (x.sweepPos * 65536))), false)
    | .hold => (none, true)
    | .jump => (x.fForce, x.fForce.isNone)
    | .capture | .locked => (none, false)
  let trk : Option Int × Bool := match x.t with
    | .off => (some (rampStep s d 2 (out 1)), false)
    | .hold => if x.phase = .coarse then (some (rampStep s d 1 (out 1)), false) else (none, true)
    | .jump => (x.tForce, x.tForce.isNone)
    | .capture | .locked => (none, false)
  let s := s.ownSlot d (osvSlot b 0) foc.1 foc.2
  let s := s.ownSlot d (osvSlot b 1) trk.1 trk.2
  let s := s.ownSlot d (osvSlot b 2) (if s.has (osvA b) F.TRN_OSV_CTL_TILT_EN then none else some (rampStep s d 20 (out 2))) false
  s.ownSlot d (osvSlot b 3) (if s.has (osvA b) F.TRN_OSV_CTL_SF_EN && x.move.isNone then none else some 0) false

/-! ## Register views and writes -/

/-- The live words of the servo (R210, R211, R220). -/
def viewOsv (s : State) (b : Bay) (off : Nat) : Option Nat :=
  let x := s.osv[b]
  if off = 0x04 then
    some (x.layer % 16 * 2 ^ 28 + x.f.code * 2 ^ 25 + x.t.code * 2 ^ 22 + x.tries % 4 * 2 ^ 20
      + ((x.move.map fun r => r.move.code).getD 0) * 2 ^ 16 + b2n x.pending.isSome * 4 + b2n x.saDone * 2 + b2n x.velValid)
  else if off = 0x34 then some (min x.radius 65535 * 2 ^ 16 + min x.speed 65535)
  else none

/-- FOC_EN rises: the sweep starts with TRIES at 0 (R196). -/
def State.focusOn (s : State) (b : Bay) : State :=
  (s.setOsv b { s.osv[b] with tries := 0 }).osvSweep b

/-- A write of TRN_OSV_CTL (R196, R209). -/
def State.osvCtl (s : State) (b : Bay) (w : Word) : State :=
  let a := osvA b
  let was := s.has a F.TRN_OSV_CTL_FOC_EN
  let on := F.TRN_OSV_CTL_FOC_EN.of w == 1
  let s := (((s.put a F.TRN_OSV_CTL_FOC_EN (b2n on)).put a F.TRN_OSV_CTL_TRK_EN (F.TRN_OSV_CTL_TRK_EN.of w)).put a
    F.TRN_OSV_CTL_TILT_EN (F.TRN_OSV_CTL_TILT_EN.of w)).put a F.TRN_OSV_CTL_SF_EN (F.TRN_OSV_CTL_SF_EN.of w)
  let s := s.put a F.TRN_OSV_CTL_SPIRAL_CHK (F.TRN_OSV_CTL_SPIRAL_CHK.of w)
  let s := if F.TRN_OSV_CTL_TRK_EN.of w = 0 ∧ s.osv[b].t ≠ .off then
      let t := s.cruInterrupt b
      t.setOsv b { t.osv[b] with t := .off, tlockRun := 0, checkDue := false }
    else s
  if on ∧ ¬ was ∧ ¬ s.dies[dieOfBay b].safe then s.focusOn b
  else if ¬ on ∧ was then (s.cruInterrupt b).osvOff b
  else s

end Sys2Proof.Machine
end

