-- ==== Sys2Proof/Machine/Lattice.lean ====
section
/-! DEFINITION. What the commands of the lattice detector do (chapter 04). -/
namespace Sys2Proof.Machine

/-! ## One channel bit -/

/-- The sum of taps, in units of 2⁻¹⁸, times their samples (R121). -/
def tapSum (taps : List Int) (xs : List Rat) : Rat := ((taps.zip xs).map fun e => (e.1 : Rat) * e.2).sum / 262144

/-- The cross taps toward a neighbour are applied and adapt (R123). -/
def crossOn (s : State) (b : Bay) (j : Nat) : Bool :=
  if h : j < 7 then
    let p := s.lat[b].spots[(⟨j, h⟩ : Fin 7)]
    detOn s b j && !spotBorrowed s b j && p.sync != .search && p.sync != .verify
  else false

/-- One LMS update of a set of taps, each held within its bounds; the count is of taps held at a bound (R122). -/
def lmsTaps (mu : Nat) (e : Rat) (taps : List Int) (xs : List Rat) : List Int × Nat :=
  let raw := (taps.zip (xs ++ List.replicate taps.length 0)).map fun p => roundOpen (p.1 - 262144 * e * p.2 / 2 ^ mu)
  (raw.map (clampInt (-524288) 524032), (raw.filter fun t => decide (t < -524288 ∨ 524032 < t)).length)

/-- One channel bit of a spot: the equaliser, the timing loop, the adaptation and the quality sums (R118, R119, R121, R122,
R150). The flag says that the timing bound was passed. -/
def State.latBit (s : State) (b : Bay) (k : Fin 7) (o : BitObs) : State × Bool :=
  let p := s.lat[b].spots[k]
  let aRef : Rat := s.get (sfeA b) F.SFE_LOOPCFG_A_REF
  let h := targetTaps s b
  let inOn := decide (0 < k.val) && crossOn s b (k.val - 1)
  let outOn := crossOn s b (k.val + 1)
  let z := tapSum p.own o.own + (if inOn then tapSum p.inner o.inner else 0) + (if outOn then tapSum p.outer o.outer else 0)
  let levels := (o.level :: p.levels).take 5
  let d := targetValue aRef h levels
  let q := if o.flagged then 0 else (z * p.dPrev - p.zPrev * d) / (aRef * aRef)
  let period := p.period - q / 2 ^ chVal s b k F.LAT_CHCFG_TRK_I
  let tau := p.tau + period - q / 2 ^ chVal s b k F.LAT_CHCFG_TRK_P
  let nominal := sfeT s b
  let lost := decide (period < nominal * 985 / 1000 ∨ nominal * 1015 / 1000 < period)
  let e := z - d
  let mu := chVal s b k F.LAT_CHCFG_EQ_MU
  let (own, c₁) := if o.flagged then (p.own, 0) else lmsTaps mu e p.own o.own
  let (inner, c₂) := if !inOn || o.flagged || o.innerFlagged then (p.inner, 0) else lmsTaps mu e p.inner o.inner
  let (outer, c₃) := if !outOn || o.flagged || o.outerFlagged then (p.outer, 0) else lmsTaps mu e p.outer o.outer
  let crossing := decide (z * p.zPrev < 0)
  let jit := if crossing then p.zPrev / (p.zPrev - z) - 1 / 2 else 0
  let u := p.qual
  let u := if o.flagged then u else { u with sqErr := u.sqErr + e * e, sqErrN := u.sqErrN + 1 }
  let u := if crossing then { u with jit := u.jit + jit * jit, jitN := u.jitN + 1 } else u
  let s := s.setLatSpot b k { p with
    period := if lost then nominal else period
    tau, zPrev := z, dPrev := d, levels, own, inner, outer, qual := u }
  (s.bumpBy (latA b) F.LAT_BOARDCNT_EQ_CLAMP (c₁ + c₂ + c₃), lost)

/-! ## Frame synchronisation -/

/-- The best found candidate within a window: the lowest distance, then the nearest to P (R126). -/
def bestCand (tol : Nat) (win : Option Nat) (cs : List BlazeCand) : Option BlazeCand :=
  (cs.filter fun c => decide (c.dist ≤ tol) && match win with | none => true | some w => decide (c.off.natAbs ≤ w)).foldl
    (fun m c => match m with
      | none => some c
      | some n => if c.dist < n.dist ∨ (c.dist = n.dist ∧ c.off.natAbs < n.off.natAbs) then some c else m) none

/-- Record the frame at an address with its use, the sync state and the miss count. -/
def LatSpot.frameAt (p : LatSpot) (addr : Nat) (use : FrameUse) (st : SyncState) (misses : Nat) : LatSpot :=
  { p with sync := st, misses, addr, frames := { addr, use } :: p.frames }

/-- Mark the board of a frame's slot as an erasure (R127, R130). -/
def LatSpot.mark (p : LatSpot) (addr : Nat) (c : EraseCause) : LatSpot := { p with marked := p.marked ++ [(addrSlot addr, c)] }

/-- A miss (R127, R128): the state and the count after it; the third goes to SEARCH. -/
def missState (n : Nat) : SyncState × Nat := if 3 ≤ n + 1 then (.search, 0) else (.flywheel, n + 1)

/-- One decided frame of a spot (R126–R130): the spot after it, and whether it missed, was a two-alignment decision, had no
winner, and re-entered SEARCH. -/
def syncFrame (p : LatSpot) (tol win : Nat) (inSpan : Bool) (o : FrameObs) : LatSpot × Bool × Bool × Bool × Bool :=
  let pred := nextAddr p.addr
  match p.sync with
  | .search =>
    match bestCand tol none (o.cands.filter fun c => addressPasses c.addr c.check) with
    | some c =>
      if inSpan then
        ({ p.frameAt c.addr .used .verify 0 with slot := addrSlot c.addr, start := frameBits * addrFrame c.addr }, false,
          false, false, false)
      else (p, false, false, false, false)
    | none => (p, false, false, false, false)
  | .verify =>
    match bestCand tol (some 1) o.cands with
    | some c =>
      if addressPasses c.addr c.check ∧ c.addr = pred then (p.frameAt pred .used .locked 0, false, false, false, false)
      else (p.frameAt pred .zero .search 0, false, false, false, false)
    | none => (p.frameAt pred .zero .search 0, false, false, false, false)
  | _ =>
    match bestCand tol (some win) o.cands with
    | none =>
      let (st, n) := missState p.misses
      (p.frameAt pred .fly st n, true, false, false, st == .search)
    | some c =>
      if c.off.natAbs ≤ 1 then
        if addressPasses c.addr c.check ∧ c.addr ≠ pred then
          let (st, n) := missState p.misses
          ((p.frameAt pred .used st n).mark pred .misplaced, true, false, false, st == .search)
        else (p.frameAt pred .used .locked 0, false, false, false, false)
      else
        let okF := decide (addressPasses c.addr c.check ∧ c.addr = pred)
        let okP := decide (addressPasses o.addrP o.checkP ∧ o.addrP = pred)
        if okF then
          let p := { p with frames := p.frames.map fun (r : FrameRec) => if r.addr = p.addr then { r with use := .zero } else r }
          (p.frameAt pred .used .locked 0, false, true, false, false)
        else if okP then (p.frameAt pred .used .locked 0, false, true, false, false)
        else
          let (st, n) := missState p.misses
          ((p.frameAt pred .fly st n).mark pred .syncLost, true, true, true, st == .search)

/-- T lies in the span timing recovery works for (R119). -/
def periodInSpan (t : Rat) : Bool := decide (1111 / 1000 ≤ t ∧ t ≤ 176 / 10)

/-- SYNC_FRAME: the bits of a frame, then the blaze decision (R118–R130). -/
def State.syncFrameOf (s : State) (b : Bay) (k : Fin 7) (o : FrameObs) : State :=
  let a := latA b
  let (s, lost) := o.bits.foldl (fun (r : State × Bool) bit =>
    let (t, l) := r.1.latBit b k bit
    (t, r.2 || l)) (s, false)
  let p := s.lat[b].spots[k]
  if lost then
    let s := s.bump a F.LAT_SPOTk_SYNCCNT_REACQ k
    s.setLatSpot b k { p with sync := .search, misses := 0 }
  else
    let (p, miss, dual, fail, again) := syncFrame p (chVal s b k F.LAT_CHCFG_BLZ_TOL) (chVal s b k F.LAT_CHCFG_BLZ_WIN)
      (periodInSpan (sfeT s b)) o
    let s := s.setLatSpot b k p
    let s := if miss then s.bump a F.LAT_SPOTk_SYNCCNT_MISSES k else s
    let s := if dual then s.bump a F.LAT_SPOTk_SYNCCNT_DUAL k else s
    let s := if fail then s.bump a F.LAT_SPOTk_SYNCCNT_DUAL_FAIL k else s
    let s := if k = 3 ∧ p.sync = .locked then
        s.setOsv b { s.osv[b] with slotNow := addrSlot p.addr, areaNow := addrArea p.addr }
      else s
    if again then s.bump a F.LAT_SPOTk_SYNCCNT_REACQ k else s

/-- SYNC_FRAME (R118–R130). -/
def execSyncFrame (b : Bay) (k : Fin 7) (o : FrameObs) (s : State) : Host.Outcome State Fault Refusal :=
  .next (s.syncFrameOf b k o)

/-- A slot in SEARCH with a low envelope throughout is blank (R132): `area` and `slot` say where the spot is. -/
def State.slotBlank (s : State) (b : Bay) (k : Fin 7) (area slot : Nat) : State :=
  let low := decide (s.sfe[b].spots[k].env < (s.get (sfeA b) F.SFE_SNAGCFG_DROP_TH : Rat) / 256 * s.get (sfeA b) F.SFE_LOOPCFG_A_REF)
  if s.lat[b].spots[k].sync = .search ∧ low then s.boardDecided b k s.osv[b].layer area slot (.erased .blank) else s

/-- SLOT_BLANK (R132). -/
def execSlotBlank (b : Bay) (k : Fin 7) (area slot : Nat) (s : State) : Host.Outcome State Fault Refusal :=
  .next (s.slotBlank b k area slot)

/-! ## Slices -/

/-- A slice of at most 4,096 bits closes (R133–R136). -/
def State.sliceClose (s : State) (b : Bay) (k : Fin 7) (len : Nat) : State :=
  let d := dieOfBay b
  let p := s.lat[b].spots[k]
  let len := min (min len 4096) (slotBits - p.start)
  let sl : Slice := { bay := b, spot := k, cls := sliceClass s b, slot := p.slot, start := p.start, len }
  let ends := slotBits ≤ p.start + len
  let s := s.setLatSpot b k { p with start := if ends then 0 else p.start + len, slot := if ends then p.slot + 1 else p.slot }
  let s := s.sliceBoundary b k
  if !detOn s b k || spotBorrowed s b k || len = 0 then s
  else
    let x := s.latDie[d]
    let mine := x.slices.filter fun e => e.bay = b && e.spot = k
    let s := if mine.length < 4 then s
      else
        match mine with
        | [] => s
        | o :: _ =>
          let p := s.lat[b].spots[k]
          let fs := ((List.range 36).filter fun f => decide (f * frameBits < o.start + o.len ∧ o.start < (f + 1) * frameBits)).map
            fun f => (o.slot, f)
          let s := s.setLatSpot b k { p with dropped := p.dropped ++ fs }
          (s.setLatDie d { x with slices := x.slices.erase o }).bump (latDieA d) F.LAT_ENGCNT_SLICE_DROP
    let y := s.latDie[d]
    (s.setLatDie d { y with slices := y.slices ++ [sl] }).detNext d

/-- SLICE_CLOSE (R133–R136). -/
def execSliceClose (b : Bay) (k : Fin 7) (len : Nat) (s : State) : Host.Outcome State Fault Refusal :=
  .next (s.sliceClose b k len)

/-- L_c of a soft decision after another (R137). -/
def softBit (prev cur : Int) : Int := -(prev.sign * cur.sign * (min cur.natAbs prev.natAbs : Nat))

/-- The channel-bit values of a run of soft decisions (R137). -/
def softBits : Int → List Int → List Int
  | _, [] => []
  | p, v :: t => softBit p v :: softBits v t

/-- The weight of a bit by its own flags (R137). -/
def flagWeight (s : State) (b : Bay) (k : Fin 7) (o : SoftBit) : Nat :=
  min (if o.snag then chVal s b k F.LAT_WEIGHT_SNAG_W else 8) (if o.fcast then chVal s b k F.LAT_WEIGHT_FCAST_W else 8)

/-- The detector finishes its slice and takes the next (R133, R134, R137). -/
def State.sliceDetected (s : State) (d : Die) (r : SliceResult) : State :=
  let x := s.latDie[d]
  match x.current with
  | none => s
  | some sl =>
    let p := s.lat[sl.bay].spots[sl.spot]
    let soft := r.soft.take sl.len
    let vals := (softBits p.lastSoft (soft.map (·.val))).zip (soft.map (flagWeight s sl.bay sl.spot))
    let s := s.setLatSpot sl.bay sl.spot { p with
      soft := p.soft ++ [{ slot := sl.slot, start := sl.start, vals }]
      lastSoft := (soft.getLast?.map (·.val)).getD p.lastSoft
      metrics := r.metrics }
    let s := s.setLatDie d { x with
      current := none
      detBusy := ((s.clock, sl.len * 625 / 16) :: x.detBusy).filter fun e => decide (s.clock < e.1 + 100000) }
    s.detNext d

/-- SLICE_DETECTED (R133, R134). -/
def execSliceDetected (d : Die) (r : SliceResult) (s : State) : Host.Outcome State Fault Refusal := .next (s.sliceDetected d r)

/-! ## Codewords -/

/-- The channel value at a place of a slot: 0 where nothing was detected; weighted, rounded toward zero (R137). -/
def channelAt (soft : List SoftSlice) (fly : Nat) (pos : Nat) : Int :=
  match soft.find? fun e => decide (e.start ≤ pos ∧ pos < e.start + e.vals.length) with
  | none => 0
  | some e =>
    let v := e.vals.getD (pos - e.start) (0, 8)
    (v.1 * (min v.2 fly : Nat)).tdiv 8

/-- M(w) of a word, doubled (R138). -/
def wordScore (lam : List Int) (w : Nat) : Int :=
  ((msbBits 5 w).zip lam).foldl (fun m e => if e.1 then m + e.2 else m - e.2) 0

/-- The four data-bit values of a code word (R138); 0 for an invalid sign word. -/
def wordBits (lam : List Int) : List Int :=
  let signs := ofMsb (lam.map fun v => decide (0 < v))
  if (nibbleOfWord signs).isNone then [0, 0, 0, 0]
  else
    let best := fun (want : Nat → Bool) => (List.range 32).foldl (fun (m : Option Int) w =>
      match nibbleOfWord w with
      | some n => if want n then some (match m with | none => wordScore lam w | some v => max v (wordScore lam w)) else m
      | none => m) none
    (List.range 4).map fun j =>
      let hi := (best fun n => bitOf n (3 - j)).getD 0
      let lo := (best fun n => !bitOf n (3 - j)).getD 0
      clampInt (-31) 31 ((hi - lo).tdiv 2)

/-- The 1,024 payload values of one frame, descrambled (R138). -/
def frameValues (soft : List SoftSlice) (r : FrameRec) (flyW : Nat) : List Int :=
  if r.use = .zero then List.replicate 1024 0
  else
    let fly := if r.use = .fly then flyW else 8
    let base := frameBits * addrFrame r.addr + 107
    let vals := (List.range 256).flatMap fun m =>
      wordBits ((List.range 5).map fun j => channelAt soft fly (base + 5 * m + j))
    List.zipWith (fun v x => if x then -v else v) vals (scramble 1024 (scrambleSeed r.addr))

/-- The 36,864 LDPC input values of a slot: payload bit p of frame f is codeword bit 36p + f; frames not decided are 0 (R138). -/
def codewordLlr (p : LatSpot) (slot flyW : Nat) : List Int :=
  let soft := p.soft.filter (·.slot = slot)
  let frames := (List.range 36).map fun f =>
    match p.frames.find? fun r => addrSlot r.addr = slot && addrFrame r.addr = f with
    | some r => frameValues soft r flyW
    | none => List.replicate 1024 0
  (List.range 1024).flatMap fun i => frames.map fun v => v.getD i 0

/-- Layer and area of a finished slot: of its frames, once the frame after it is decided (R131); of the place being read, for a
slot that the spot passed in SEARCH or disabled, whose values are all 0 (R127, R136). -/
def State.slotPlace (s : State) (b : Bay) (k : Fin 7) (slot : Nat) : Option (Nat × Nat) :=
  let p := s.lat[b].spots[k]
  match p.frames.find? fun r => addrSlot r.addr = slot with
  | some r => if addrSlot p.addr = slot then none else some (addrLayer r.addr, addrArea r.addr)
  | none => if p.sync = .search ∨ detOn s b k = false then some (s.osv[b].layer, s.osv[b].areaNow) else none

/-- The codeword of a finished slot goes to the LDPC queue (R131, R135, R136, R140). -/
def State.spotHandOver (s : State) (b : Bay) (k : Fin 7) (slot : Nat) : State :=
  let d := dieOfBay b
  let p := s.lat[b].spots[k]
  match s.slotPlace b k slot with
  | none => s
  | some (layer, area) =>
    if ¬ s.has (latDieA d) F.LAT_CTL_ENABLE then s
    else
      let llr := codewordLlr p slot (chVal s b k F.LAT_WEIGHT_FLY_W)
      let mark := (p.marked.find? (·.1 = slot)).map (·.2)
      let lostFrames := ((p.dropped.filter (·.1 = slot)).map (·.2)).dedup.length
      let s := s.setLatSpot b k { p with
        frames := p.frames.filter fun q => addrSlot q.addr ≠ slot
        soft := p.soft.filter (·.slot ≠ slot)
        marked := p.marked.filter (·.1 ≠ slot)
        dropped := p.dropped.filter (·.1 ≠ slot) }
      if !detOn s b k || spotBorrowed s b k then s.boardDecided b k layer area slot (.erased .borrowed)
      else if 8 < lostFrames then s.boardDecided b k layer area slot (.erased .overload)
      else
        let x := s.latDie[d]
        if x.ldpc.length < 32 then
          s.setLatDie d { x with ldpc := x.ldpc ++ [{ bay := b, spot := k, layer, area, slot, llr, mark }] }
        else (s.bump (latDieA d) F.LAT_ENGCNT_LDPC_SKIP).boardDecided b k layer area slot (.erased .overload)

/-- CODEWORD_HANDOVER of a slot (R131, R140). -/
def execCodewordHandover (b : Bay) (k : Fin 7) (slot : Nat) (s : State) : Host.Outcome State Fault Refusal :=
  .next (s.spotHandOver b k slot)

/-! ## Decoding -/

/-- The pass that a log is in (R148). -/
def passOf (s : State) (c : Codeword) : Nat :=
  ((s.lat[c.bay].logs.find? fun l => l.layer = c.layer && l.area = c.area && l.log = c.slot / 3).map (·.pass)).getD 0

/-- The iteration limit of a codeword (R139). -/
def iterLimit (s : State) (c : Codeword) : Nat :=
  s.get (latDieA (dieOfBay c.bay)) (if 2 ≤ passOf s c then F.LAT_CTL_RETRY_ITER else F.LAT_CTL_ITER)

/-- Bits whose input sign differs from the decoded bit; inputs of 0 are excluded (R150). -/
def signErrors (llr : List Int) (word : List Bool) : Nat × Nat :=
  (llr.zip word).foldl (fun n e => if e.1 = 0 then n else (n.1 + 1, if decide (0 < e.1) == e.2 then n.2 else n.2 + 1)) (0, 0)

/-- The decoder ends on the oldest codeword (R139, R141, R150). -/
def State.ldpcDone (s : State) (d : Die) (r : LdpcResult) : State :=
  let x := s.latDie[d]
  match x.ldpc with
  | [] => s
  | c :: rest =>
    let limit := iterLimit s c
    let iters := min r.iters limit
    let conv := r.word.length = 36864 && decide (r.iters ≤ limit) && ldpcHolds r.word
    let s := s.setLatDie d { x with
      ldpc := rest
      ldpcBusy := ((s.clock, iters * 192000) :: x.ldpcBusy).filter fun e => decide (s.clock < e.1 + 100000) }
    let p := s.lat[c.bay].spots[c.spot]
    let bd := codewordBytes r.word
    let crc := conv && boardCrcOk bd
    let (bits, errs) := signErrors c.llr r.word
    let q := { p.qual with codewords := p.qual.codewords + 1 }
    let q := if crc then { q with bits := q.bits + bits, errs := q.errs + errs, iters := q.iters + iters, counted := q.counted + 1 }
      else q
    let q := if conv then q else { q with cwFail := q.cwFail + 1 }
    let s := s.setLatSpot c.bay c.spot { p with qual := q }
    let s := if conv then (if crc then s else s.bump (latDieA d) F.LAT_LDPC_CNT_CRC_FAIL)
      else s.bump (latDieA d) F.LAT_LDPC_CNT_CW_FAIL
    let i := indexAt c.spot c.slot
    let parity := decide (16 ≤ i ∧ i < 20)
    let o : BoardOutcome :=
      match c.mark with
      | some m => .erased m
      | none =>
        if !conv then .erased .ldpcFail
        else if !crc then .erased .crcFail
        else if !parity && !headerOk c.layer c.area (c.slot / 3) i bd then .erased .misplaced
        else .decoded bd c.spot iters (passOf s c) (decide (0 < errs))
    s.boardDecided c.bay c.spot c.layer c.area c.slot o

/-- LDPC_DECODE_DONE (R139, R141). -/
def execLdpcDecodeDone (d : Die) (r : LdpcResult) (s : State) : Host.Outcome State Fault Refusal := .next (s.ldpcDone d r)

/-! ## Retries and quality -/

/-- The bay jumps back one swath for its undecodable logs (R148): decoded boards are kept, the borrowing pauses, the turn
engine is asked for the jump. -/
def State.retryJump (s : State) (b : Bay) : State :=
  let x := s.lat[b]
  if !x.logs.any (·.retry) then s
  else
    let keep := fun (o : Option BoardOutcome) => match o with | some (.erased _) => none | o => o
    let logs := x.logs.map fun l =>
      if l.retry then { l with retry := false, pass := l.pass + 1, boards := l.boards.map keep } else l
    let s := (s.setLat b { x with logs, retry := true }).bump (latA b) F.LAT_RETRYCNT_RETRIES
    s.moveRequest b { move := .track (-7), owner := .retry }

/-- RETRY_JUMP_BACK (R148). -/
def execRetryJumpBack (b : Bay) (s : State) : Host.Outcome State Fault Refusal := .next (s.retryJump b)

/-- A mean in a field of w bits, its rounding open; a free value when there was nothing to average (R150). -/
def meanIn (free w : Nat) (scale sum : Rat) (n : Nat) : Nat :=
  if n = 0 then free % 2 ^ w else (clampInt 0 (2 ^ w - 1 : Nat) (roundOpen (scale * sum / n))).toNat

/-- The four quality registers latch and the window starts again (R150, R339). -/
def State.qualityLatch (s : State) (b : Bay) (k : Fin 7) : State :=
  let a := latA b
  let p := s.lat[b].spots[k]
  let q := p.qual
  if q.codewords < chVal s b k F.LAT_CHCFG_BER_WIN then s
  else
    let seq := s.get a F.LAT_SPOTk_QUAL2_SEQ k + 1
    let v := s.freeVal
    let jitter := if q.jitN = 0 then v % 256
      else (clampInt 0 255 (roundOpen (64 * Config.sqrt (q.jit / q.jitN)))).toNat
    let s := if q.counted = 0 ∨ q.sqErrN = 0 ∨ q.jitN = 0 then s.drawn else s
    let s := (s.put a F.LAT_SPOTk_QUAL0_BITS (min q.bits (2 ^ 32 - 1)) k).put a F.LAT_SPOTk_QUAL1_ERRS (min q.errs (2 ^ 32 - 1)) k
    let s := ((s.put a F.LAT_SPOTk_QUAL2_MSE (meanIn (v / 2 ^ 8) 16 256 q.sqErr q.sqErrN) k).put a F.LAT_SPOTk_QUAL2_SEQ seq k).put a
      F.LAT_SPOTk_QUAL2_JITTER jitter k
    let s := ((s.put a F.LAT_SPOTk_QUAL3_ITER_AVG (meanIn (v / 2 ^ 24) 8 8 q.iters q.counted) k).put a F.LAT_SPOTk_QUAL3_SEQ seq k).put a
      F.LAT_SPOTk_QUAL3_CW_FAIL q.cwFail k
    (s.setLatSpot b k { p with qual := {} }).cruSpotQuality b k

/-- QUALITY_WINDOW_LATCH (R150). -/
def execQualityWindowLatch (b : Bay) (k : Fin 7) (s : State) : Host.Outcome State Fault Refusal := .next (s.qualityLatch b k)

end Sys2Proof.Machine
end

