-- ==== Sys2Proof/Machine/Record.lean ====
section
/-! DEFINITION. What the commands of the recording path and of its laser-driver link do (chapters 05 and 24). -/
namespace Sys2Proof.Machine

/-- The recording speed in rpm (R183). -/
def recordRpm (s : State) (b : Bay) : Int :=
  match s.get (recA b) F.REC_CTL_SPEED with
  | 0 => 3000 | 1 => 4500 | _ => 6000

/-- The LBA of board i in its header: 0 in a system log (R165). -/
def recordLba (layer area log i : Nat) : Nat := if area = 0 then lbaOfPlace ⟨layer, log, i⟩ else 0

/-- The supplied board at an INDEX. -/
def suppliedBoard (r : RecItem) (i : Nat) : Option Bytes := (r.boards.find? (·.1 = i)).map (·.2)

/-- The 21 boards of a log (R165, steps 2 to 5). -/
def buildBoards (s : State) (b : Bay) (r : RecItem) : List Bytes :=
  let data := (List.range 16).map fun i =>
    match suppliedBoard r i with
    | some bd => mkBoard (bd.take 12) (bd.drop 16)
    | none => fillBoard (recordLba r.layer r.area r.log i) i r.layer
  let fills := (List.range 16).countP fun i => (suppliedBoard r i).isNone
  data ++ parityBoards data ++
    [addressBoard (recordLba r.layer r.area r.log 0) r.layer r.log (s.dieTime (dieOfBay b)) s.recp[b].recorder fills data]

/-- Every board of the item's MASK has arrived (R24). -/
def boardsArrived (r : RecItem) : Bool := (bitIndices 16 r.mask).all fun i => (suppliedBoard r i).isSome

/-- Build the log of an item (R165, R166): a header that fails stops it, generation 0 waits for no bark measurement, and at
most two complete logs are held; the spindle slews to the recording speed (R167). -/
def State.logBuild (s : State) (b : Bay) (item : Nat) : State :=
  let x := s.recp[b]
  match x.items.find? (·.item = item) with
  | none => s
  | some r =>
    if !boardsArrived r || x.built.any (·.item = item) || decide (2 ≤ x.built.length) then s
    else
      let l : BuiltLog := { item, layer := r.layer, area := r.area, log := r.log, boards := buildBoards s b r }
      if !(r.boards.all fun e => headerOk r.layer r.area r.log e.1 e.2) then
        (s.raiseBay b 0x0301 0 0xFFFF (builtLba l)).recRefuse b l .header
      else if r.area = 1 ∧ r.log = 0 ∧ x.barkOk = false then s.recRefuse b l .noBark
      else
        let s := s.setRec b { x with built := x.built ++ [l] }
        if x.state = .idle ∨ x.state = .stopped then
          (s.setRec b { s.recp[b] with state := .slew, settled := false }).spnRun b (recordRpm s b) s.spn[b].vbr
        else s

/-- RECORD_LOG_BUILD (R165, R166). -/
def execRecordLogBuild (b : Bay) (item : Nat) (s : State) : Host.Outcome State Fault Refusal := .next (s.logBuild b item)

/-- Whether the spindle runs within ±0.1 % of the recording speed (R167). -/
def recordSpeed (s : State) (b : Bay) : Bool :=
  let r : Rat := recordRpm s b
  s.spn[b].valid && decide (1000 * |s.spn[b].speed - r| ≤ r)

/-- The speed has stayed at the recording speed for 20 ms (R167): a power test that is due comes first (R178). -/
def State.speedSettled (s : State) (b : Bay) : State :=
  let x := s.recp[b]
  if x.state = .slew ∧ recordSpeed s b then
    let due := match x.built with
      | l :: _ => x.opcDue || opcNeeded s b l.layer
      | [] => x.opcDue
    s.setRec b { x with settled := true, state := if due then .opc else .check, opcDue := due }
  else s

/-- RECORD_SPEED_SETTLED (R167). -/
def execRecordSpeedSettled (b : Bay) (s : State) : Host.Outcome State Fault Refusal := .next (s.speedSettled b)

/-- A check revolution (R64, R168): the ready logs whose slots hold data marks are not written, the others may be. -/
def State.checkRev (s : State) (b : Bay) (marked : List (Nat × Nat × Nat)) : State :=
  let x := s.recp[b]
  if x.state = .check ∨ x.state = .write then
    let bad := fun (l : BuiltLog) => marked.contains (l.layer, l.area, l.log)
    let due := x.built.filter fun l => (x.writing.map (·.log.item)) ≠ some l.item
    let s := s.setRec b { x with
      state := .write
      checks := x.checks ++ due.map fun l => (l.layer, l.area, l.log, !bad l) }
    (due.filter bad).foldl (fun t l => t.recRefuse b l .notBlank) s
  else s

/-- CHECK_REVOLUTION (R168). -/
def execCheckRevolution (b : Bay) (marked : List (Nat × Nat × Nat)) (s : State) : Host.Outcome State Fault Refusal :=
  .next (s.checkRev b marked)

/-- The log passed its check revolution (R168). -/
def logChecked (x : Rec) (l : BuiltLog) : Bool := x.checks.contains (l.layer, l.area, l.log, true)

/-- S lies more than PWR_TOL below the table's PEAK (R176). -/
def powerShort (s : State) (b : Bay) (peak : Nat) : Bool :=
  decide (laserS s b < (peak : Rat) * (100 - s.get (recA b) F.REC_LIMIT_PWR_TOL) / 100)

/-- Slot 3n of a checked, complete log reaches beam 0 (R169, R172, R176): a power test that its layer needs comes first (R178),
a bay kept from recording refuses it (R182), the strategy set becomes active, a log that the power limits forbid is not started,
and the others enter write mode. -/
def State.logStart (s : State) (b : Bay) (item : Nat) : State :=
  let x := s.recp[b]
  match x.built.find? (·.item = item) with
  | none => s
  | some l =>
    if x.state ≠ .write ∨ x.writing.isSome ∨ logChecked x l = false ∨ s.osv[b].move.isSome ∨ wiCause s b ∨
        s.dies[dieOfBay b].safe then s
    else if s.has (recA b) F.REC_CTL_ENABLE = false then s.recRefuse b l .refused
    else if opcNeeded s b l.layer then s.setRec b { x with opcDue := true, state := .opc }
    else
      let s := (s.activate (.recStrategy b)).cruInterrupt b
      let band := logBand l
      let i := pwrIndex l.layer band
      let word := fun (f : List Field) (n : Nat) =>
        f.foldl (fun (w : Word) g => w ||| BitVec.ofNat 32 (s.get (recA b) g n * 2 ^ g.lo)) 0
      let power := word [F.REC_PWRTAB_PEAK, F.REC_PWRTAB_BIAS] i
      if powerShort s b (F.REC_PWRTAB_PEAK.of power) then
        let s := (s.bump (recA b) F.REC_CNT2_LIMITED_LOGS).raiseBay b 0x0302 0 0xFFFF (builtLba l)
        s.recRefuse b l .powerLimited
      else
        let strat := (List.range 4).map fun c =>
          word [F.REC_STRAT_START, F.REC_STRAT_TOP, F.REC_STRAT_MP, F.REC_STRAT_LAST] (4 * i + c)
        let d := dieOfBay b
        let s := s.setDie d { s.dies[d] with items := s.dies[d].items.map fun w => if w.item = item then { w with begun := true } else w }
        s.setRec b { s.recp[b] with writing := some { log := l, band, power, strat } }

/-- LOG_WRITE_START (R169). -/
def execLogWriteStart (b : Bay) (item : Nat) (s : State) : Host.Outcome State Fault Refusal := .next (s.logStart b item)

/-- The last pulse of slot 3n + 2 on beam 6 has been emitted (R169, R179). -/
def State.logWritten (s : State) (b : Bay) : State :=
  let x := s.recp[b]
  match x.writing with
  | none => s
  | some w =>
    let i := w.log.item
    let built := x.built.filter (·.item ≠ i)
    let s := s.setRec b { x with
      writing := none, built, items := x.items.filter (·.item ≠ i), state := if built = [] then .idle else .write }
    let s := s.bump (recA b) F.REC_CNT_LOGS_WRITTEN
    (s.endItem (dieOfBay b) i .done 0 (some (builtLba w.log * 2 ^ 32))).logOver (dieOfBay b) i

/-- LOG_WRITE_END (R179). -/
def execLogWriteEnd (b : Bay) (s : State) : Host.Outcome State Fault Refusal := .next (s.logWritten b)

/-- WRITE_INHIBIT: an error past its limit or a loop out of lock stops the log (R177, R180). -/
def execWriteInhibit (b : Bay) (s : State) : Host.Outcome State Fault Refusal :=
  .next (if wiCause s b then s.writeInhibit b else s)

/-! ## The laser driver's reports (R174, R645, R646) -/

/-- POWER and STATUS of emitter k in a report of 144 bits, first bit sent most significant. -/
def reportPower (r k : Nat) : Nat := bitsOf r (127 - 16 * k) (116 - 16 * k)
def reportStatus (r k : Nat) : Nat := bitsOf r (115 - 16 * k) (112 - 16 * k)

/-- The frame's SYNC and CRC-8 hold (R645, R646). -/
def reportFrameOk (r : Nat) : Bool := bitsOf r 143 128 == 0x3CB4 && crc8 (msbBits 120 (bitsOf r 127 8)) == bitsOf r 7 0

/-- No power code above 4,000, and no FAULT or OVERTEMP on an enabled emitter (R174, R646). -/
def reportGood (s : State) (b : Bay) (r : Nat) : Bool :=
  (List.range 7).all fun k =>
    decide (reportPower r k ≤ 4000) && (!emitterOn s b k || (!bitOf (reportStatus r k) 3 && !bitOf (reportStatus r k) 2))

/-- A report frame of 144 bits arrives (R174, R645). -/
def State.laserReport (s : State) (b : Bay) (r : Nat) : State :=
  let x := s.recp[b]
  let ok := reportFrameOk r
  let status := if ok then Vector.ofFn fun k : Fin 7 => reportStatus r k else x.status
  if ok && reportGood s b r then
    s.setRec b { x with power := Vector.ofFn fun k : Fin 7 => reportPower r k, status, linkBad := 0, linkTurns := 0, linkFault := false }
  else s.setRec b { x with status, linkBad := min 3 (x.linkBad + 1), linkTurns := 0 }

/-- LASER_REPORT_FRAME (R645). -/
def execLaserReportFrame (b : Bay) (report : Nat) (s : State) : Host.Outcome State Fault Refusal :=
  .next (s.laserReport b report)

/-- The status bits of every emitter in one word. -/
def statusWord (x : Rec) : Nat := (List.finRange 7).foldl (fun w (k : Fin 7) => w + x.status[k] * 2 ^ (4 * k.val)) 0

/-- Three discarded reports or three turns without one: a LASER_LINK fault, which stops a log (R174, R180). -/
def State.laserLink (s : State) (b : Bay) : State :=
  let x := s.recp[b]
  if x.linkFault = false ∧ (3 ≤ x.linkBad ∨ 3 ≤ x.linkTurns) then
    ((s.setRec b { x with linkFault := true }).raiseBay b 0x0305 0 0xFFFF (statusWord x)).recPartial b
  else s

/-- LASER_LINK (R174). -/
def execLaserLink (b : Bay) (s : State) : Host.Outcome State Fault Refusal := .next (s.laserLink b)

/-! ## Power test (R178, R186) -/

/-- The step with the lowest jitter, the first of equals. -/
def bestStep (j : Vector Nat 16) : Nat :=
  ((List.finRange 16).foldl (fun (m : Fin 16) (k : Fin 16) => if j[k] < j[m] then k else m) (0 : Fin 16)).val

/-- The scale of a step: 1,024 × (0.70 + 0.04 s) × MARGIN / 64, rounded (R178). -/
def opcScale (s : State) (b : Bay) (step : Nat) : Int :=
  roundNear (1024 * (70 + 4 * (step : Rat)) / 100 * s.get (recA b) F.REC_OPC_MARGIN / 64)

/-- The layer under test: of a built log whose layer needs one, else of the log due next, or under the beams (R178, R186). -/
def opcLayer (s : State) (b : Bay) : Nat :=
  match s.recp[b].built.find? fun l => opcNeeded s b l.layer with
  | some l => l.layer
  | none => (dueLog s b).1

/-- Keep what the test of a layer leaves: its temperature and the next free slot (R178). -/
def opcKeep (s : State) (b : Bay) (next : Option Nat) : List OpcLayer :=
  let l := opcLayer s b
  let old := s.recp[b].opc.find? (·.layer = l)
  { layer := l, temp := s.geti (sfeA b) F.SFE_TEMP_TEMP, next := next.getD ((old.map (·.next)).getD 0) } ::
    s.recp[b].opc.filter (·.layer ≠ l)

/-- One emitter's result of a power test (R178). -/
def State.opcEmitter (s : State) (b : Bay) (k : Fin 7) (j : Vector Nat 16) : State :=
  let step := bestStep j
  if step = 0 ∨ step = 15 then s.setRec b { s.recp[b] with opcEdge := true }
  else
    let v := opcScale s b step
    if 512 ≤ v ∧ v ≤ 1536 then s.put (recA b) F.REC_SCALEk_SCALE v.toNat k
    else (s.setRec b { s.recp[b] with opcRange := true }).raiseBay b 0x0306 0 k v

/-- A power test ends (R178): with the first of its 16 blank slots and the jitter of every emitter and step, or with no 16
blank slots left. -/
def State.powerTest (s : State) (b : Bay) (first : Option Nat) (jitter : Vector (Vector Nat 16) 7) : State :=
  let x := s.recp[b]
  if x.opcDue = false ∨ x.writing.isSome then s
  else
    let after : RecState := if x.state = .opc then (if x.built = [] then .idle else .check) else x.state
    match first with
    | none =>
      (s.setRec b { x with opcDue := false, state := after, opc := opcKeep s b none }).raiseBay b 0x0304 0 0xFFFF (opcLayer s b)
    | some slot =>
      let s := s.setRec b { x with
        opcDue := false, opcEdge := false, opcRange := false, state := after, opc := opcKeep s b (some (slot + 16)) }
      ((List.finRange 7).foldl (fun t (k : Fin 7) => t.opcEmitter b k jitter[k]) s).bump (recA b) F.REC_CNT2_OPC_RUNS

/-- POWER_TEST (R178). -/
def execPowerTest (b : Bay) (first : Option Nat) (jitter : Vector (Vector Nat 16) 7) (s : State) :
    Host.Outcome State Fault Refusal := .next (s.powerTest b first jitter)

/-- A write of 1 to REC_OPC.RUN: nothing without a disc or with OPC_EN = 0 (R186). -/
def State.opcRun (s : State) (b : Bay) : State :=
  let x := s.recp[b]
  if s.mounted b && s.has (recA b) F.REC_CTL_OPC_EN then
    s.setRec b { x with opcDue := true, state := if x.state = .idle ∨ x.state = .stopped then .opc else x.state }
  else s

/-- REC_OPC_RUN (R186). -/
def execRecOpcRun (b : Bay) (s : State) : Host.Outcome State Fault Refusal := .next (s.opcRun b)

end Sys2Proof.Machine
end

