-- ==== Sys2Proof/Machine/Safe.lean ====
section
/-! DEFINITION. The field safe state and its end (chapter 01). -/
namespace Sys2Proof.Machine

/-- End every open item of a die with one status (R37). -/
def State.endAllItems (s : State) (d : Die) (st : WStatus) : State :=
  (s.dies[d].items.map (·.item)).foldl (fun t i => t.endItem d i st) s

/-- Every slot without SAFE_RUN stops (R249). -/
def State.safeSlots (s : State) (d : Die) : State :=
  (List.finRange 48).foldl (fun t (n : Fin 48) =>
    if t.has (dieAt .trn d) F.TRN_Sn_CFG_ENABLE n && !t.has (dieAt .trn d) F.TRN_Sn_CFG_SAFE_RUN n then
      t.setSlot d n { t.trn[d].slots[n] with st := .safeStop, slewing := false, hand := none }
    else t) s

/-- The functions of a bay stop: lasers and the log in progress, the loops, the calibrator, the detector's logs, the spindle
(R36, R37, R180, R282). -/
def State.bayStops (s : State) (b : Bay) : State :=
  let s := (s.recPartial b).cruAbort b
  let s := ((s.osvOff b).recClear b).sfeHold b
  let s := (s.latHold b)
  let s := s.setLat b { s.lat[b] with logs := [], retry := false, mount := none }
  let s := s.setOsv b { s.osv[b] with mount := none }
  (s.spnSafeStop b).setMounted b false

/-- The yarder's part of entering the safe state: the transfer under way ends with RESULT 7 and status FAULT (R37, R314). -/
def State.yrdSafe (s : State) : State :=
  let y := s.yrd
  match y.job with
  | none => s.setYrd { y with waiting := y.waiting.filter (·.item = none) }
  | some j =>
    let s := s.setYrd { y with last := (j.src, j.dst, 7), job := some { j with item := none }
                               waiting := y.waiting.filter (·.item = none) }
    match j.item with
    | some i => s.endItem 1 i .fault 7 (some (lastWord s.yrd))
    | none => s

/-- Enter the safe state (R36, R37). -/
def State.enterSafe (s : State) (d : Die) : State :=
  if s.dies[d].safe then s
  else
    let s := s.setDie d { s.dies[d] with safe := true, resumed := false }
    let s := (baysOfDie d).foldl (fun t b => t.bayStops b) s
    let s := (s.safeSlots d).stopAxes d
    let s := if d = 1 then s.yrdSafe else s
    (s.endAllItems d .fault).answerResets d

/-- The die's clock holdover ends (R39, R249, R282, R307). -/
def State.clockLost (s : State) (d : Die) : State :=
  let s := s.setDie d { s.dies[d] with clkLost := true }
  let s := { s with
    trn := s.trn.set d { s.trn[d] with clkLost := true }
    axp := s.axp.set d { s.axp[d] with dead := true } }
  (baysOfDie d).foldl (fun t b => t.spnClockLost b) s

/-- Disable a slot in its active and its staged set (R249). -/
def State.slotDisable (s : State) (d : Die) (n : Fin 48) : State :=
  let k := F.TRN_Sn_CFG_ENABLE.key (dieAt .trn d) n 0
  let s := { s with regs := fieldPut s.regs F.TRN_Sn_CFG_ENABLE k 0, staged := fieldPut s.staged F.TRN_Sn_CFG_ENABLE k 0 }
  s.setSlot d n { s.trn[d].slots[n] with st := .off, slewing := false, hand := none, force := none }

/-- Disable a selector in its active and its staged set (R249). -/
def State.selDisable (s : State) (d : Die) (g : Fin 8) : State :=
  let k := F.TRN_SELs_CFG_ENABLE.key (dieAt .trn d) g 0
  let s := { s with regs := fieldPut s.regs F.TRN_SELs_CFG_ENABLE k 0, staged := fieldPut s.staged F.TRN_SELs_CFG_ENABLE k 0 }
  { s with trn := s.trn.set d { s.trn[d] with sels := s.trn[d].sels.set g { s.trn[d].sels[g] with on := false, selected := none } } }

/-- HALT RELEASE: the die leaves the safe state; its loops stay off, its discs unmounted, and a yarder stopped in a transfer
enters FAULT (R37, R249, R307, R314). -/
def State.release (s : State) (d : Die) : State :=
  let s := s.setDie d { s.dies[d] with safe := false }
  let s := (List.finRange 48).foldl (fun t (n : Fin 48) => t.slotDisable d n) s
  let s := (List.finRange 8).foldl (fun t g => t.selDisable d g) s
  if d = 1 then
    let y := s.yrd
    let stuck : Bool := y.state == .transfer || y.state == .homing || (y.state == .doorHold && y.before == .transfer)
    s.setYrd { y with
      state := if stuck then .fault else if y.state = .inventory then .idle else y.state
      invDue := y.invDue || y.state == .inventory
      job := none, motion := none, away := none, scanning := none, homeLeft := [], cycled := y.cycled || stuck }
  else s

end Sys2Proof.Machine
end

