-- ==== Sys2Proof/Machine/Spindle.lean ====
section
/-! DEFINITION. What the commands of the spindle drive and the CEIL input do (chapter 08). Each takes effect in the drive state
its rule names and leaves other states as they are. -/
namespace Sys2Proof.Machine

/-- SPN_CMD RUN (R274, R275). -/
def execSpnRun (b : Bay) (target : Int) (vbr : Nat) (s : State) : Host.Outcome State Fault Refusal :=
  .next (s.spnRun b target (vbr / 1000))

/-- SPN_CMD IDLE (R274). -/
def execSpnIdle (b : Bay) (vbr : Nat) (s : State) : Host.Outcome State Fault Refusal := .next (s.spnIdle b (vbr / 1000))

/-- SPN_CMD STOP (R273, R274). -/
def execSpnStop (b : Bay) (s : State) : Host.Outcome State Fault Refusal := .next (s.spnStop b)

/-- The effect of CLR_FAULT, in STOPPED only (R280). -/
def State.spnClrFault (s : State) (b : Bay) : State :=
  if s.spn[b].state = .stopped then s.setSpn b { s.spn[b] with fault := none } else s

/-- SPN_CTL.CLR_FAULT (R280, R287). -/
def execSpnClrFault (b : Bay) (s : State) : Host.Outcome State Fault Refusal := .next (s.spnClrFault b)

/-- A write of SPN_CTL: clearing ENABLE outside STOPPED is ignored; setting it forgets the last short brake (R273, R287). -/
def State.spnCtlWrite (s : State) (b : Bay) (w : Word) : State :=
  let on := F.SPN_CTL_ENABLE.of w == 1
  let was := s.has (spnA b) F.SPN_CTL_ENABLE
  if !on && was && s.spn[b].state != .stopped then s
  else
    let s := (s.put (spnA b) F.SPN_CTL_ENABLE (b2n on)).put (spnA b) F.SPN_CTL_PARK (F.SPN_CTL_PARK.of w)
    let s := if on && !was then s.setSpn b { s.spn[b] with parked := false } else s
    if F.SPN_CTL_CLR_FAULT.of w = 1 then s.spnClrFault b else s

/-- A write of SPN_CTL (R287). -/
def execSpnCtlWrite (b : Bay) (value : Word) (s : State) : Host.Outcome State Fault Refusal := .next (s.spnCtlWrite b value)

/-- θ_ipd in radians and whether no saturation was seen, from the twelve times (R275); the largest time is the base of the
3 %. -/
def ipdAngle (t : Vector Nat 12) : Rat × Bool :=
  let l := t.toList
  let hi := l.foldl max 0
  let lo := l.foldl min hi
  if 100 * (hi - lo) < 3 * hi then (0, true)
  else
    let k := l.idxOf lo
    let before := (l[(k + 11) % 12]?).getD 0
    let after := (l[(k + 1) % 12]?).getD 0
    let den : Rat := 2 * ((before : Rat) + after - 2 * lo)
    let f : Rat := if den = 0 then Config.ipdFlat l else ((before : Rat) - after) / den
    ((k + f) * twoPi / 12, false)

/-- The end of initial position detection: ALIGN begins (R275). -/
def execIpdDone (b : Bay) (times : Vector Nat 12) (s : State) : Host.Outcome State Fault Refusal :=
  let x := s.spn[b]
  .next <| match x.state with
  | .ipd =>
    let (th, weak) := ipdAngle times
    let s := if weak then s.bump (spnA b) F.SPN_CNT3_IPD_WEAK else s
    (s.setSpn b ({ x with thIpd := th, weak := weak, idRef := spnOpenI s b, iqRef := 0 }.enter .align)).spnForces b
  | _ => s

/-- ALIGN_T expires: OPEN begins at θ_ipd (R276). -/
def execAlignEnd (b : Bay) (s : State) : Host.Outcome State Fault Refusal :=
  let x := s.spn[b]
  .next <| match x.state with
  | .align => (s.setSpn b ({ x with thOpen := x.thIpd, rpmOpen := 0, cycles := 0, holds := true, idRef := 0,
                                    iqRef := spnOpenI s b }.enter .openLoop)).spnForces b
  | _ => s

/-- The hand-over to RUN after eight electrical cycles (R276): the open-loop vector in the observer's frame is kept as slot
4's forced value, which RUN releases. -/
def execOpenHandOver (b : Bay) (s : State) : Host.Outcome State Fault Refusal :=
  let x := s.spn[b]
  .next <|
    if x.state = .openLoop ∧ 8 ≤ x.cycles then
      let de := x.thOpen - x.theta
      let iq := spnOpenI s b * Config.cos de
      let y := { x with idRef := -(spnOpenI s b * Config.sin de), iqRef := iq, ramp := omegaToRpm x.omega, tries := 0,
                        starter := none }
      let s := s.forceSlot (dieOfBay b) (spnSlot b 4) (slotVal (iq * 1000))
      (s.setSpn b (y.enter .run)).spnForces b
    else s

/-- No hand-over within OPEN_T: the attempt fails (R276). -/
def execOpenTimeout (b : Bay) (s : State) : Host.Outcome State Fault Refusal :=
  .next (if s.spn[b].state = .openLoop then (s.spnAttemptFailed b).spnForces b else s)

/-- A passive stop that is followed by a start from rest (R277). -/
def State.spnStopThenIpd (s : State) (b : Bay) (backward : Bool) (rpm : Rat) : State :=
  let x := { s.spn[b] with backward := backward, rpmCross := rpm }
  s.setSpn b { spnPassive s b x with restart := true }

/-- The switch of a catch-spin (R277): the speed from the mean interval of 60° electrical, the angle from the last crossing
advanced at that speed, the observer and the integrators preloaded, no current. -/
def spnCatchSpin (s : State) (b : Bay) (mean : Rat) (angle since : Nat) : Spn :=
  let w := twoPi / 6 * 1000000000 / mean
  let th := (angle : Rat) / 360 * twoPi + w * since / 1000000000
  { s.spn[b] with
    backward := false, catchOn := true, catchCyc := 0, cycles := 0, holds := true, omega := w, theta := th
    fluxA := spnPsi s b * Config.cos th, fluxB := spnPsi s b * Config.sin th
    sd := 0, sq := w * spnPsi s b, idRef := 0, iqRef := 0, rpmCross := omegaToRpm w }

/-- The decision at the end of CATCH_T (R277), with the bridge probe of a start that goes on to IPD. -/
def execCatchDecide (b : Bay) (seen : CatchSeen) (vbr : Nat) (s : State) : Host.Outcome State Fault Refusal :=
  let x := s.spn[b]
  .next <|
    if x.state = .catching ∧ x.catchOn = false then
      match seen with
      | .atRest => ((s.setSpn b { x with backward := false }).spnIpd b (vbr / 1000)).spnForces b
      | .backward => s.spnStopThenIpd b true 0
      | .irregular => s.spnStopThenIpd b false 0
      | .forward n l angle since =>
        let mean : Rat := (l.sum : Rat) / 6
        let rpm := if mean = 0 then 0 else omegaToRpm (twoPi / 6 * 1000000000 / mean)
        if 7 ≤ n ∧ l.length = 6 ∧ 300 < rpm then (s.setSpn b (spnCatchSpin s b mean angle since)).spnForces b
        else s.spnStopThenIpd b false rpm
    else s

/-- The end of a catch-spin's test (R277): RUN after eight cycles of confidence within sixteen, a failed attempt otherwise. -/
def execCatchLock (b : Bay) (s : State) : Host.Outcome State Fault Refusal :=
  let x := s.spn[b]
  .next <|
    if x.state = .catching ∧ x.catchOn then
      if 8 ≤ x.cycles then
        let s := (s.bump (spnA b) F.SPN_CNT_CATCHES).forceSlot (dieOfBay b) (spnSlot b 4) 0
        (s.setSpn b ({ x with ramp := omegaToRpm x.omega, tries := 0, starter := none, catchOn := false }.enter .run)).spnForces b
      else if 16 ≤ x.catchCyc then ((s.bump (spnA b) F.SPN_CNT3_CATCH_FAILS).spnAttemptFailed b).spnForces b
      else s
    else s

/-- Confidence below OBS_LOSS for sixteen periods: FLYWHEEL (R279). -/
def execObserverLoss (b : Bay) (s : State) : Host.Outcome State Fault Refusal :=
  let x := s.spn[b]
  .next <|
    if x.valid ∧ 16 ≤ x.lossRun then
      let y := { x with rpmHeld := x.speed, thFly := x.theta, flyFrom := x.state, cycles := 0, flyCyc := 0, holds := true,
                        idRef := 0, atSpeed := false, lossRun := 0 }
      (s.bump (spnA b) F.SPN_CNT_OBS_LOSSES).setSpn b (y.enter .flywheel)
    else s

/-- The drive relocks (R279): it takes θ̂, returns to the state it left, or stops when a STOP came meanwhile. -/
def execSpnObsRelocked (b : Bay) (s : State) : Host.Outcome State Fault Refusal :=
  let x := s.spn[b]
  .next <|
    if x.state = .flywheel ∧ s.get (spnA b) F.SPN_OBS_RELOCK_CYC ≤ x.cycles then
      let y := { x with ramp := omegaToRpm x.omega }
      let y := if x.mode = .stop then { y with goal := .toStop }.enter .decel else y.enter x.flyFrom
      let s := (s.bump (spnA b) F.SPN_CNT_RELOCKS).setSpn b y
      (s.raiseBay b 0x0503 0 0xFFFF (roundOpen y.speed) 0).spnForces b
    else s

/-- Twenty-four electrical cycles without a relock (R279): COAST and OBS_LOST. -/
def execFlywheelTimeout (b : Bay) (s : State) : Host.Outcome State Fault Refusal :=
  let x := s.spn[b]
  .next <|
    if x.state = .flywheel ∧ 24 ≤ x.flyCyc then
      let t := s.spnFault b .obsLost
      t.setSpn b ({ t.spn[b] with rpmCross := x.rpmHeld }.enter .coast)
    else s

/-- The end of SHORT at 60 rpm: STOPPED, and the start that waited for it; the safe-state controller holds a short after the
clock holdover (R273, R282). -/
def State.shortEnd (s : State) (b : Bay) (vbr : Nat) : State :=
  let x := s.spn[b]
  if x.state = .short ∧ s.dies[dieOfBay b].clkLost = false then
    let s := s.setSpn b ({ x with parked := true, rpmCross := 0 }.enter .stopped)
    if x.restart then ((s.bump (spnA b) F.SPN_CNT_STARTS).spnIpd b (vbr / 1000)).spnForces b else s
  else s

/-- Speed above 12,600 rpm for 1 ms (R280). -/
def execOverspeed (b : Bay) (s : State) : Host.Outcome State Fault Refusal :=
  .next (if 12600 < s.spn[b].speed then (s.spnFaultActive b .overspeed).spnForces b else s)

/-- V_BR below UV_TRIP for 1 ms while switching (R280): all off and COAST. -/
def execUndervoltage (b : Bay) (s : State) : Host.Outcome State Fault Refusal :=
  let x := s.spn[b]
  .next <|
    if x.foc ∧ x.vbr < spnUvTrip s b then
      let t := s.spnFault b .undervoltage
      t.setSpn b ({ t.spn[b] with rpmCross := x.speed }.enter .coast)
    else s

/-- The speed has stayed within 0.5 % of the target (R274). -/
def execAtSpeed (b : Bay) (s : State) : Host.Outcome State Fault Refusal :=
  let x := s.spn[b]
  .next <|
    if x.state = .run ∧ |x.speed - spnTargetRpm s b| ≤ spnTargetRpm s b / 200 then s.setSpn b { x with atSpeed := true }
    else s

/-- The winding temperature once per millisecond (R271). -/
def execWindingTempUpdate (b : Bay) (s : State) : Host.Outcome State Fault Refusal :=
  let x := s.spn[b]
  let mean : Rat := if x.sqN = 0 then 0 else x.sqSum / x.sqN
  let pcu := 3 / 2 * spnRs s b * mean
  let die : Rat := (s.dies[dieOfBay b].temp : Rat) / 16
  let rth := spnQ s b F.SPN_BUDGET_RTH / 10
  let tau := spnQ s b F.SPN_BUDGET_TAU
  .next (s.setSpn b { x with tw := x.tw + 1 / 1000 * (pcu - (x.tw - die) / rth) * rth / tau, sqSum := 0, sqN := 0 })

/-- A refused CEIL reading leaves the filtered value (R283). -/
def State.ceilInvalid (s : State) (x : Int) : State :=
  { s.bump ceilA F.SPN_CEIL_CNT_INVALID with ceil := { s.ceil with raw := x } }

/-- One step of the first-order low pass with time constant TAU, over the time since the last accepted reading (R283). -/
def ceilFilter (s : State) (frac : Rat) : Rat :=
  let tau : Rat := s.get ceilA F.SPN_CEIL_CFG_TAU * 1000000
  let dt : Rat := (s.clock - s.ceil.accepted : Nat)
  s.ceil.frac + (frac - s.ceil.frac) * (1 - Config.exp (-(dt / tau)))

/-- An accepted FRAC (R283): the filter takes it, or restarts from it after a replacement. -/
def State.ceilAccept (s : State) (x frac : Int) : State :=
  let f := if s.ceil.replaced || !s.ceil.valid then (frac : Rat) else ceilFilter s frac
  { s with ceil := { s.ceil with frac := f, raw := x, valid := true, replaced := false, accepted := s.clock } }

/-- A CEIL reading in mode units, with the carrier in Hz in mode DUTY (R283, R285). -/
def execCeilReading (x : Int) (carrier : Nat) (s : State) : Host.Outcome State Fault Refusal :=
  let s := s.activate .spnCeil
  let mode := s.get ceilA F.SPN_CEIL_CFG_MODE
  let lo : Int := s.get ceilA F.SPN_CEIL_SCALE_LO
  let hi : Int := s.get ceilA F.SPN_CEIL_SCALE_HI
  let t : Rat := ((hi : Rat) - lo) / 20
  .next <|
    if mode = 0 then s
    else if mode = 2 ∧ (carrier < 900 ∨ 55000 < carrier) then s.ceilInvalid x
    else if lo ≤ x ∧ x ≤ hi then s.ceilAccept x (roundNear (1024 * ((x : Rat) - lo) / ((hi : Rat) - lo)))
    else if x < lo ∧ (lo : Rat) - t ≤ x then (s.bump ceilA F.SPN_CEIL_CNT_CLAMPS).ceilAccept x 0
    else if hi < x ∧ (x : Rat) ≤ hi + t then (s.bump ceilA F.SPN_CEIL_CNT_CLAMPS).ceilAccept x 1024
    else s.ceilInvalid x

/-- No reading accepted for 50 ms: SAFE_FRAC replaces the value (R283). -/
def execSpnCeilReplaced (s : State) : Host.Outcome State Fault Refusal :=
  .next <|
    if s.get ceilA F.SPN_CEIL_CFG_MODE = 0 ∨ s.ceil.replaced then s
    else
      let f : Nat := s.get ceilA F.SPN_CEIL_CFG_SAFE_FRAC
      let s := s.bump ceilA F.SPN_CEIL_CNT_REPLACEMENTS
      let s := { s with ceil := { s.ceil with frac := f, valid := false, replaced := true } }
      s.raiseDie s.code.ceilDie 0x0504 none 0 0xFFFF 0 0

/-- The owning die sends FRAC every 1 ms unless MODE is OFF (R284). -/
def execSpnCeilValue (s : State) : Host.Outcome State Fault Refusal :=
  .next <|
    if s.get ceilA F.SPN_CEIL_CFG_MODE = 0 then s
    else { s.raiseDie s.code.ceilDie 0x05F0 none 0 0xFFFF (roundOpen s.ceil.frac) 0 with
           ceil := { s.ceil with sentAt := s.clock } }

/-- The relay write of FRAC, which ends STALE (R284). -/
def State.ceilRelay (s : State) (b : Bay) (frac : Nat) : State :=
  (s.put (spnA b) F.SPN_CEIL_IN_FRAC frac).setSpn b { s.spn[b] with stale := false, relayAt := s.clock }

/-- Crew firmware writes the relayed FRAC of 0–1,024 into a bay (R284). -/
def execCeilRelayWrite (b : Bay) (frac : Fin 1025) (s : State) : Host.Outcome State Fault Refusal :=
  .next (s.ceilRelay b frac)

/-- No relay write for 20 ms with RELAY_EN = 1 (R284). -/
def execCeilStale (b : Bay) (s : State) : Host.Outcome State Fault Refusal :=
  .next <|
    if s.has (spnA b) F.SPN_CEIL_IN_RELAY_EN ∧ s.spn[b].stale = false then
      (s.bump (spnA b) F.SPN_CNT3_CEIL_STALE).setSpn b { s.spn[b] with stale := true }
    else s

/-- The safe-state controller short-brakes after the clock holdover, once the crossing interval shows a speed below
STOP_SHORT, and holds the short (R282). -/
def execSafeStateShortBrake (b : Bay) (s : State) : Host.Outcome State Fault Refusal :=
  let x := s.spn[b]
  .next <|
    if x.state = .coast ∧ s.dies[dieOfBay b].clkLost then s.setSpn b (x.enter .short) else s

/-! ## Commit checks and register views -/

/-- The cross-checks of the motor group (R285). -/
def spnMotorOk (s : State) (b : Bay) : Bool :=
  s.spn[b].state == .stopped &&
    decide (10 * s.stagedVal (spnA b) F.SPN_PWM_SHUNT_MIN + 10 * s.stagedVal (spnA b) F.SPN_PWM_DEADTIME ≤ 2000)

/-- The cross-checks of the drive group (R285), in mA and in 0.05 V. -/
def spnDriveOk (s : State) (b : Bay) : Bool :=
  let v := fun f => s.stagedVal (spnA b) f
  let iq := v F.SPN_LIM_IQ_MAX
  decide (iq < v F.SPN_LIM_OC_LIM) && decide (25 * v F.SPN_START_OPEN_I ≤ iq) && decide (v F.SPN_LIM2_ACC_IQ ≤ iq) &&
    decide (v F.SPN_LIM2_DEC_IQ ≤ iq) && decide (v F.SPN_OBS_OBS_LOSS < v F.SPN_OBS_OBS_CONF) &&
    decide (2 * v F.SPN_SUPPLY_UV_TRIP + v F.SPN_SUPPLY_OV_BAND < 2 * v F.SPN_SUPPLY_OV_CLAMP) &&
    decide (v F.SPN_SUPPLY_OV_CLAMP < v F.SPN_SUPPLY_OV_TRIP)

/-- The cross-check of the CEIL group: LO < HI, both within the mode's accepted input (R283, R285); mode OFF accepts no input
and bounds neither. -/
def spnCeilOk (s : State) : Bool :=
  let v := fun f => s.stagedVal ceilA f
  let lo := v F.SPN_CEIL_SCALE_LO
  let hi := v F.SPN_CEIL_SCALE_HI
  decide (lo < hi) &&
    match v F.SPN_CEIL_CFG_MODE with
    | 1 => decide (hi ≤ 3300)
    | 2 => decide (hi ≤ 1000)
    | 3 => decide (100 ≤ lo ∧ hi ≤ 5000)
    | _ => true

/-- A number in a field of so many bits, held at its ends. -/
def toBits (w : Nat) (n : Int) : Nat := (clampInt 0 (2 ^ w - 1 : Nat) n).toNat

/-- A signed number in a field of so many bits, held at its ends. -/
def toSignedBits (w : Nat) (n : Int) : Nat := ofSigned w (clampInt (-(2 ^ (w - 1) : Nat)) (2 ^ (w - 1) - 1 : Nat) n)

/-- The live words of a bay's SPN registers (R266, R287). -/
def viewSpn (s : State) (b : Bay) (off : Nat) : Option Nat :=
  let x := s.spn[b]
  match off with
  | 0x04 => some (x.mode.code * 2 ^ 16 + ofSigned 16 x.target)
  | 0x08 => some (x.state.code * 2 ^ 28 + (x.fault.map SpnFault.code).getD 0 * 2 ^ 24
      + s.get (spnA b) F.SPN_STATUS_REFUSED * 2 ^ 15 + b2n (spnSafe s b) * 2 ^ 14 + b2n (spnClockCfg s b) * 2 ^ 13
      + b2n x.ovClamp * 2 ^ 12 + b2n x.ceilLim * 2 ^ 11 + b2n x.pred2 * 2 ^ 10 + b2n x.atSpeed * 2 ^ 9 + b2n x.valid * 2 ^ 8)
  | 0x0C => some (toBits 16 (roundOpen x.speed) * 2 ^ 16 + toBits 8 (roundOpen x.conf) * 2 ^ 8 + b2n x.backward)
  | 0x10 => some (toSignedBits 16 (roundOpen (x.iqRef * 1000)) * 2 ^ 16 + toSignedBits 16 (roundOpen (x.iq * 1000)))
  | 0x14 => some (toBits 16 (roundOpen (x.vbr * 1000)) * 2 ^ 16 + toSignedBits 16 (roundOpen (x.tw * 16)))
  | 0x18 => some (s.get (spnA b) F.SPN_CEIL_IN_RELAY_EN * 2 ^ 31 + b2n x.stale * 2 ^ 30
      + s.get (spnA b) F.SPN_CEIL_IN_SAFE_FRAC * 2 ^ 16
      + (if s.code = .bz2a then toBits 11 (roundOpen s.ceil.frac) else s.get (spnA b) F.SPN_CEIL_IN_FRAC))
  | _ => none

/-- The live word of SPN_CEIL_STATUS (R290). -/
def viewCeil (s : State) (off : Nat) : Option Nat :=
  match off with
  | 0x90 => some (b2n s.ceil.valid * 2 ^ 31 + b2n s.ceil.replaced * 2 ^ 30 + toBits 11 (roundOpen s.ceil.frac) * 2 ^ 16
      + toBits 16 s.ceil.raw)
  | _ => none

/-- The value and validity of the drive's turn-engine sources 0x05–0x09 of a bay (R267), in their units. -/
def spnSource (s : State) (b : Bay) (k : Nat) : Rat × Bool :=
  let x := s.spn[b]
  match k with
  | 5 => (x.speed, x.valid)
  | 6 => (if x.state = .decel then spnQ s b F.SPN_LIM2_DEC_IQ else spnQ s b F.SPN_LIM2_ACC_IQ, true)
  | 7 => (x.tw * 16, true)
  | 8 => ((spnFrac s b : Rat) * spnQ s b F.SPN_LIM_IQ_MAX / 1024, true)
  | _ => (spnSupplyCeil s b * 1000, true)

end Sys2Proof.Machine
end

