-- ==== Sys2Proof/Machine/TrnOps.lean ====
section
/-! DEFINITION. The turn engine's shared operations (chapter 07). Values are whole numbers with 16 fraction bits. -/
namespace Sys2Proof.Machine

/-- Address of a die's turn engine block. -/
def trnA (d : Die) : Nat := dieAt .trn d

/-- Replace the turn engine of a die. -/
def State.setTrn (s : State) (d : Die) (x : Trn) : State := { s with trn := s.trn.set d x }

/-- Replace a selector. -/
def State.setSel (s : State) (d : Die) (g : Fin 8) (x : TrnSel) : State :=
  { s with trn := s.trn.set d { s.trn[d] with sels := s.trn[d].sels.set g x } }

/-! ## Arithmetic (R229) -/

/-- A value held to signed w bits, and whether it saturated. -/
def satTo (w : Nat) (x : Int) : Int × Bool :=
  let y := clampInt (-(2 ^ (w - 1))) (2 ^ (w - 1) - 1) x
  (y, decide (y ≠ x))

/-- A product of a coefficient with f fraction bits and a value. -/
def coefMul (f : Nat) (c x : Int) : Int := roundOpen ((c * x : Int) / (2 ^ f : Rat))

/-- A 16-bit field as a value with 16 fraction bits. -/
def val16 (i : Int) : Int := i * 65536

/-! ## The settings of a slot -/

/-- The laws (R232, R234, R235). -/
inductive Law where
  | linear | band | composite
  deriving DecidableEq, Repr

/-- The law of a LAW field. -/
def Law.ofNum : Nat → Law
  | 0 => .linear | 1 => .band | _ => .composite

/-- The coefficients of one biquad. -/
structure Biquad where
  b0 : Int
  b1 : Int
  b2 : Int
  a1 : Int
  a2 : Int
  deriving DecidableEq, Repr

/-- A slot's settings in one turn. -/
structure SlotCfg where
  law    : Law
  k      : Int
  kp     : Int
  ki     : Int
  bq     : List Biquad
  outMin : Int
  outMax : Int
  iMin   : Int
  iMax   : Int
  thUp   : Int
  thDn   : Int
  lvlHi  : Int
  lvlLo  : Int
  hyst   : Int
  hoRate : Int
  deriving DecidableEq, Repr

/-- A bank word of a slot. -/
def bankWord (s : State) (d : Die) (bank : Bool) (n : Nat) (fa fb : Field) : Int := s.geti (trnA d) (if bank then fb else fa) n

/-- Biquad i of a bank. -/
def bankBiquad (s : State) (d : Die) (bank : Bool) (n i : Nat) : Biquad :=
  let g := fun (fa fb : Field) => toSigned 32 (s.get (trnA d) (if bank then fb else fa) i n)
  { b0 := g F.TRN_BANKA_B0_B0 F.TRN_BANKB_B0_B0, b1 := g F.TRN_BANKA_B1_B1 F.TRN_BANKB_B1_B1
    b2 := g F.TRN_BANKA_B2_B2 F.TRN_BANKB_B2_B2, a1 := g F.TRN_BANKA_A1_A1 F.TRN_BANKB_A1_A1
    a2 := g F.TRN_BANKA_A2_A2 F.TRN_BANKB_A2_A2 }

/-- The bay of an optical-servo slot: 0–3 of bay 0 and 24–27 of bay 1 (R195). -/
def servoBay (d : Die) (n : Nat) : Option (Bay × Nat) :=
  if n < 4 then (bayOf d 0).map (·, n) else if 24 ≤ n ∧ n < 28 then (bayOf d 1).map (·, n - 24) else none

/-- Thresholds and levels of a slot; those of the optical servo's capture and sled-follow laws come from its own registers
(R201, R235). -/
def slotBand (s : State) (d : Die) (n : Nat) (law : Law) : Int × Int × Int × Int :=
  let own := (val16 (s.geti (trnA d) F.TRN_Sn_TH_TH_UP n), val16 (s.geti (trnA d) F.TRN_Sn_TH_TH_DN n),
    val16 (s.geti (trnA d) F.TRN_Sn_LVL_LVL_HI n), val16 (s.geti (trnA d) F.TRN_Sn_LVL_LVL_LO n))
  match servoBay d n, law with
  | some (b, 0), .composite =>
    let t := val16 (4 * s.get (osvA b) F.TRN_CAP_CFG_FCAP_BAND)
    let l := val16 (128 * s.get (osvA b) F.TRN_CAP_CFG_FCAP_OUT)
    (t, -t, l, -l)
  | some (b, 1), .composite =>
    let t := val16 (s.get (osvA b) F.TRN_CAP_CFG_TCAP_BAND)
    let l := val16 (128 * s.get (osvA b) F.TRN_CAP_CFG_TCAP_OUT)
    (t, -t, l, -l)
  | some (b, 3), .band =>
    let t := val16 (s.get (osvA b) F.TRN_SF_CFG_SF_BAND)
    (t, -t, val16 (s.get (osvA b) F.TRN_SF_CFG_SF_VEL), 0)
  | _, _ => own

/-- The settings of a slot. -/
def slotCfg (s : State) (d : Die) (n : Fin 48) : SlotCfg :=
  let a := trnA d
  let bank := s.has a F.TRN_Sn_CFG_BANK n
  let law := Law.ofNum (s.get a F.TRN_Sn_CFG_LAW n)
  let (up, dn, hi, lo) := slotBand s d n law
  { law
    k := bankWord s d bank n F.TRN_BANKA_K_K F.TRN_BANKB_K_K
    kp := bankWord s d bank n F.TRN_BANKA_KP_KP F.TRN_BANKB_KP_KP
    ki := bankWord s d bank n F.TRN_BANKA_KI_KI F.TRN_BANKB_KI_KI
    bq := (List.range (s.get a F.TRN_Sn_CFG_NB n)).map (bankBiquad s d bank n)
    outMin := val16 (s.geti a F.TRN_Sn_OUTLIM_OUT_MIN n), outMax := val16 (s.geti a F.TRN_Sn_OUTLIM_OUT_MAX n)
    iMin := val16 (s.geti a F.TRN_Sn_ILIM_I_MIN n), iMax := val16 (s.geti a F.TRN_Sn_ILIM_I_MAX n)
    thUp := up, thDn := dn, lvlHi := hi, lvlLo := lo
    hyst := val16 (s.get a F.TRN_Sn_AUX_CB_HYST n), hoRate := val16 (s.get a F.TRN_Sn_IO_HO_RATE n) }

/-! ## The laws -/

/-- One biquad on one input: the output, the two states, and saturation (R232). -/
def biquadStep (q : Biquad) (s1 s2 x : Int) : Int × Int × Int × Bool :=
  let v := satTo 32 (roundOpen ((q.b0 * x : Int) / (2 ^ 28 : Rat) + (s1 : Rat) / 65536))
  let w1 := satTo 48 (roundOpen ((q.b1 * x - q.a1 * v.1 : Int) / (2 ^ 12 : Rat)) + s2)
  let w2 := satTo 48 (roundOpen ((q.b2 * x - q.a2 * v.1 : Int) / (2 ^ 12 : Rat)))
  (v.1, w1.1, w2.1, v.2 || w1.2 || w2.2)

/-- The chain of biquads. -/
def biquads : List Biquad → List Int → List Int → Int → Int × List Int × List Int × Bool
  | q :: qs, a :: as, b :: bs, x =>
    let (v, a', b', f) := biquadStep q a b x
    let (y, as', bs', g) := biquads qs as bs v
    (y, a' :: as', b' :: bs', f || g)
  | _, as, bs, x => (x, as, bs, false)

/-- The proportional path: p of an error, and the slot with its biquad states moved on (R232). -/
def propPath (c : SlotCfg) (x : TrnSlot) (e : Int) : Int × TrnSlot :=
  let p0 := satTo 32 (coefMul 16 c.k e)
  let (p, a, b, f) := biquads c.bq x.s1 x.s2 p0.1
  (p, { x with s1 := a, s2 := b, sat := x.sat || p0.2 || f })

/-- The integrator rule (R233). -/
def integrate (c : SlotCfg) (i d : Int) : Int :=
  if 0 < d then (if c.iMax ≤ i then i else min (i + d) c.iMax)
  else if d < 0 then (if i ≤ c.iMin then i else max (i + d) c.iMin)
  else i

/-- ICLAMP (R233). -/
def iclampOf (c : SlotCfg) (i : Int) : Bool := decide (c.iMax ≤ i) || decide (i ≤ c.iMin)

/-- One step of a slew from y towards u (R242). -/
def slewStep (c : SlotCfg) (y u : Int) : Int × Bool :=
  if |u - y| ≤ c.hoRate then (u, false) else (y + clampInt (-c.hoRate) c.hoRate (u - y), true)

/-- The output of a law's value u, slewing or not; the number of slews begun is the caller's. -/
def emitOut (c : SlotCfg) (x : TrnSlot) (from_ : Int) (slew : Bool) (u : Int) : TrnSlot :=
  if slew then
    let (y, still) := slewStep c from_ u
    { x with out := y, slewing := still }
  else { x with out := u, slewing := false }

/-- KP × p + I, saturated. -/
def linSum (c : SlotCfg) (p i : Int) : Int × Bool := satTo 32 (coefMul 28 c.kp p + i)

/-- The linear law of one evaluation with its hand-over (R232, R233, R242); the second part says whether a slew began. -/
def evalLinear (c : SlotCfg) (x : TrnSlot) (e : Int) (hand : Option Int) : TrnSlot × Bool :=
  let (p, x) := propPath c x e
  match hand with
  | some y =>
    let want := satTo 32 (y - coefMul 28 c.kp p)
    if c.iMin ≤ want.1 ∧ want.1 ≤ c.iMax then
      ({ x with int := want.1, out := y, slewing := false, iclamp := iclampOf c want.1, oclamp := false, sat := x.sat || want.2 }, false)
    else
      let i := clampInt c.iMin c.iMax want.1
      let u := linSum c p i
      let v := clampInt c.outMin c.outMax u.1
      let r := emitOut c x y true v
      ({ r with int := i, iclamp := iclampOf c i, oclamp := decide (v ≠ u.1), sat := r.sat || want.2 || u.2 }, true)
  | none =>
    let dI := satTo 32 (coefMul 28 c.ki p)
    let i := integrate c x.int dI.1
    let u := linSum c p i
    let v := clampInt c.outMin c.outMax u.1
    let r := emitOut c x x.out x.slewing v
    ({ r with int := i, iclamp := iclampOf c i, oclamp := decide (v ≠ u.1), sat := r.sat || dI.2 || u.2 }, false)

/-- The band state after an error (R234). -/
def bandState (c : SlotCfg) (hi : Bool) (e : Int) : Bool := if c.thUp ≤ e then true else if e ≤ c.thDn then false else hi

/-- The band law's output with its hand-over (R234, R242). -/
def evalBand (c : SlotCfg) (x : TrnSlot) (hi : Bool) (hand : Option Int) : TrnSlot × Bool :=
  let u := if hi then c.lvlHi else c.lvlLo
  match hand with
  | some y => ({ emitOut c { x with hi, oclamp := false } y true u with hi }, true)
  | none => (emitOut c { x with hi, oclamp := false } x.out x.slewing u, false)

/-- The composite law: the mode first, then the law of the mode; in BAND the biquads run on and the integrator does not
(R235). -/
def evalComposite (c : SlotCfg) (x : TrnSlot) (e : Int) (hand : Option Int) : TrnSlot × Bool :=
  let enters := !x.band && (decide (c.thUp ≤ e) || decide (e ≤ c.thDn))
  let leaves := x.band && decide (c.thDn + c.hyst < e ∧ e < c.thUp - c.hyst)
  let band := (x.band || enters) && !leaves
  let hand := if enters || leaves then hand <|> some x.out else hand
  if band then
    let (_, y) := propPath c x e
    evalBand c { y with band := true } (bandState c x.hi e) hand
  else evalLinear c { x with band := false } e hand

/-- One evaluation under the law (R232–R235). -/
def evalLaw (c : SlotCfg) (x : TrnSlot) (e : Int) : TrnSlot × Bool :=
  let y := { x with hand := none, sat := false, err := e }
  match c.law with
  | .linear => evalLinear c y e x.hand
  | .band => evalBand c y (bandState c x.hi e) x.hand
  | .composite => evalComposite c y e x.hand

/-- A losing member of a selector: its candidate, the integrator standing (R244). -/
def evalCandidate (c : SlotCfg) (x : TrnSlot) (e : Int) : TrnSlot :=
  let y := { x with hand := none, sat := false, err := e, slewing := false, fe := 0 }
  match c.law with
  | .linear =>
    let (p, z) := propPath c y e
    let u := linSum c p z.int
    { z with out := u.1, sat := z.sat || u.2, iclamp := iclampOf c z.int, oclamp := false }
  | _ =>
    let hi := bandState c x.hi e
    { y with hi, out := if hi then c.lvlHi else c.lvlLo }

/-- A member is selected under R242: it takes over from the selector's previous output. -/
def takeOver (c : SlotCfg) (x : TrnSlot) (prev : Int) : TrnSlot × Bool :=
  match c.law with
  | .linear =>
    -- the candidate is KP × p + I, so KP × p is the candidate less I
    let kpp := x.out - x.int
    let want := satTo 32 (prev - kpp)
    if c.iMin ≤ want.1 ∧ want.1 ≤ c.iMax then
      ({ x with int := want.1, out := prev, slewing := false, iclamp := iclampOf c want.1 }, false)
    else
      let i := clampInt c.iMin c.iMax want.1
      let u := satTo 32 (kpp + i)
      let v := clampInt c.outMin c.outMax u.1
      ({ emitOut c x prev true v with int := i, iclamp := iclampOf c i, oclamp := decide (v ≠ u.1) }, true)
  | _ => (emitOut c x prev true (if x.hi then c.lvlHi else c.lvlLo), true)

/-! ## Destinations -/

/-- The present value of a destination. -/
def destVal (x : Trn) (c : Nat) : Int := ((x.dest.find? (·.1 = c)).map (·.2)).getD 0

/-- Set a destination's value, the codes rising. -/
def destPut : List (Nat × Int) → Nat → Int → List (Nat × Int)
  | [], c, v => [(c, v)]
  | (k, w) :: t, c, v => if k = c then (c, v) :: t else if c < k then (c, v) :: (k, w) :: t else (k, w) :: destPut t c v

/-- The range of a destination in whole units (R231, R312): none where the code is no destination of the die. -/
def destRange (d : Die) (c : Nat) : Option (Int × Int) :=
  if c = 0 ∨ c = 0xFE then some (-32768, 32767)
  else if d = 1 then (if c ≤ 8 then some (-1000000, 1000000) else none)
  else
    let c := if 0x20 ≤ c ∧ c < 0x40 then c - 0x20 else c
    if 1 ≤ c ∧ c ≤ 5 then some (-32768, 32767)
    else if c = 6 then some (-32768, 32767)
    else if 0x10 ≤ c ∧ c ≤ 0x16 then some (0, 1600)
    else none

/-- Whether a code is a source of a die (R230, R312). -/
def sourceOk (d : Die) (c : Nat) : Bool :=
  decide (c = 0) || decide (0x40 ≤ c ∧ c ≤ 0x47) || decide (0x80 ≤ c ∧ c ≤ 0xAF) || decide (c = 0xF0) ||
    if d = 1 then decide (1 ≤ c ∧ c ≤ 6)
    else
      let e := if 0x20 ≤ c ∧ c < 0x40 then c - 0x20 else c
      (decide (1 ≤ e ∧ e ≤ 0x0C) || decide (0x10 ≤ e ∧ e ≤ 0x16) || decide (0x18 ≤ e ∧ e ≤ 0x1E)) && decide (c < 0x40)

/-! ## Commit checks (R228, R231, R239, R243, R250) -/

/-- A slot or selector field as it would stand after a commit of one group: staged there, pending where a set waits, active
elsewhere. -/
def afterCommit (s : State) (d : Die) (who g : Group) (f : Field) (i : Nat) : Nat :=
  if g = who then s.stagedVal (trnA d) f i
  else if s.isWaiting g then fieldIn s.waiting f (f.key (trnA d) i 0)
  else s.get (trnA d) f i

/-- A slot's field after a commit. -/
def slotAfter (s : State) (d : Die) (who : Group) (f : Field) (n : Fin 48) : Nat := afterCommit s d who (.trnSlot d n) f n
/-- A selector's field after a commit. -/
def selAfter (s : State) (d : Die) (who : Group) (f : Field) (g : Fin 8) : Nat := afterCommit s d who (.trnSelector d g) f g

/-- The cost of an enabled slot (R228). -/
def slotCost (law nb : Nat) : Nat := if law = 1 then 8 else 16 + 6 * nb

/-- The load of the worst of 32 turns, by the fields of each slot (R228). -/
def worstLoad (on law nb rate phase : Fin 48 → Nat) : Nat :=
  (List.range 32).foldl (fun m t =>
    max m ((List.finRange 48).foldl (fun c (n : Fin 48) =>
      if on n = 1 ∧ t % 2 ^ rate n = phase n then c + slotCost (law n) (nb n) else c) 0)) 0

/-- The members of a selector after a commit. -/
def membersAfter (s : State) (d : Die) (who : Group) (g : Fin 8) : List (Fin 48) :=
  let m := hiLo (selAfter s d who F.TRN_SELs_MLO_MEMBERS g) (selAfter s d who F.TRN_SELs_MHI_MEMBERS g)
  (List.finRange 48).filter fun n => bitOf m n.val

/-- The selectors enabled after a commit. -/
def selsAfter (s : State) (d : Die) (who : Group) : List (Fin 8) :=
  (List.finRange 8).filter fun g => selAfter s d who F.TRN_SELs_CFG_ENABLE g = 1

/-- R243 holds of every enabled selector after a commit. -/
def selectorsOk (s : State) (d : Die) (who : Group) : Bool :=
  (selsAfter s d who).all fun g =>
    let ms := membersAfter s d who g
    let v := fun f n => slotAfter s d who f n
    decide (1 ≤ ms.length ∧ ms.length ≤ 8) &&
      (ms.all fun n => v F.TRN_Sn_CFG_ENABLE n == 1 && decide (v F.TRN_Sn_CFG_LAW n < 2) && v F.TRN_Sn_IO_DST n == 0xFE) &&
      (match ms with
       | m :: rest => rest.all fun n => v F.TRN_Sn_CFG_RATE n == v F.TRN_Sn_CFG_RATE m && v F.TRN_Sn_CFG_PHASE n == v F.TRN_Sn_CFG_PHASE m
       | [] => true) &&
      (selsAfter s d who).all fun h => h = g || (ms.all fun n => !(membersAfter s d who h).contains n)

/-- Every destination has at most one driver after a commit (R231). -/
def driversOk (s : State) (d : Die) (who : Group) : Bool :=
  let slots := ((List.finRange 48).filter fun n => slotAfter s d who F.TRN_Sn_CFG_ENABLE n = 1).map (slotAfter s d who F.TRN_Sn_IO_DST)
  let sels := (selsAfter s d who).map (selAfter s d who F.TRN_SELs_CFG_DST)
  decide (((slots ++ sels).filter fun c => c ≠ 0 ∧ c ≠ 0xFE).Nodup)

/-- The worst turn after a commit fits the turn (R228). -/
def loadOk (s : State) (d : Die) (who : Group) : Bool :=
  let v := fun f n => slotAfter s d who f n
  decide (worstLoad (v F.TRN_Sn_CFG_ENABLE) (v F.TRN_Sn_CFG_LAW) (v F.TRN_Sn_CFG_NB) (v F.TRN_Sn_CFG_RATE) (v F.TRN_Sn_CFG_PHASE)
    + 40 ≤ s.get (trnA d) F.TRN_CTL_TURN_CYC)

/-- |a2| < 1 and |a1| < 1 + a2 (R239). -/
def biquadStable (q : Biquad) : Bool := decide (|q.a2| < 2 ^ 28 ∧ |q.a1| < 2 ^ 28 + q.a2)

/-- The checks of a slot's commit (R228, R230, R231, R239, R243, R250). -/
def trnSlotOk (s : State) (d : Die) (n : Fin 48) : Bool :=
  let a := trnA d
  let who := Group.trnSlot d n
  let v := fun f => s.stagedVal a f n
  let i := fun f => s.stagedInt a f n
  let law := v F.TRN_Sn_CFG_LAW
  let bank := v F.TRN_Sn_CFG_BANK == 1
  stagedInRange s a .trn who && decide (law < 3) && decide (v F.TRN_Sn_CFG_FAULT_ACT < 3) &&
    sourceOk d (v F.TRN_Sn_CFG_SRC) && sourceOk d (v F.TRN_Sn_IO_SP_SRC) &&
    decide (i F.TRN_Sn_OUTLIM_OUT_MIN < i F.TRN_Sn_OUTLIM_OUT_MAX) &&
    (match destRange d (v F.TRN_Sn_IO_DST) with
     | some (lo, hi) => decide (lo ≤ i F.TRN_Sn_OUTLIM_OUT_MIN ∧ i F.TRN_Sn_OUTLIM_OUT_MAX ≤ hi)
     | none => false) &&
    decide (i F.TRN_Sn_ILIM_I_MIN ≤ i F.TRN_Sn_ILIM_I_MAX) &&
    (law == 0 || (decide (i F.TRN_Sn_TH_TH_DN < i F.TRN_Sn_TH_TH_UP) &&
      [F.TRN_Sn_LVL_LVL_HI, F.TRN_Sn_LVL_LVL_LO].all fun f =>
        decide (i F.TRN_Sn_OUTLIM_OUT_MIN ≤ i f ∧ i f ≤ i F.TRN_Sn_OUTLIM_OUT_MAX))) &&
    (law != 2 || decide (i F.TRN_Sn_TH_TH_DN + (v F.TRN_Sn_AUX_CB_HYST : Int) < i F.TRN_Sn_TH_TH_UP - v F.TRN_Sn_AUX_CB_HYST)) &&
    decide (v F.TRN_Sn_CFG_PHASE < 2 ^ v F.TRN_Sn_CFG_RATE) &&
    ((List.range (v F.TRN_Sn_CFG_NB)).all fun k => biquadStable (bankBiquad s d bank n k)) &&
    loadOk s d who && driversOk s d who && selectorsOk s d who

/-- The checks of a selector's commit (R228, R231, R243, R250, R257). -/
def trnSelectorOk (s : State) (d : Die) (g : Fin 8) : Bool :=
  let a := trnA d
  let who := Group.trnSelector d g
  let dst := s.stagedVal a F.TRN_SELs_CFG_DST g
  stagedInRange s a .trn who && dst != 0xFE &&
    (match destRange d dst with
     | some (lo, hi) => decide (lo ≤ s.stagedInt a F.TRN_SELs_SAFE_SAFE_OUT g ∧ s.stagedInt a F.TRN_SELs_SAFE_SAFE_OUT g ≤ hi)
     | none => false) &&
    loadOk s d who && driversOk s d who && selectorsOk s d who

/-! ## Register views -/

/-- Whether a slot is the selected member of an enabled selector. -/
def slotSelected (s : State) (d : Die) (n : Fin 48) : Bool :=
  (List.finRange 8).any fun g => s.trn[d].sels[g].on && s.trn[d].sels[g].selected == some n

/-- A signed value with 16 fraction bits as a 32-bit pattern. -/
def bits32 (i : Int) : Nat := ofSigned 32 i

/-- The slots in FAULT from first. -/
def faultBits (s : State) (d : Die) (first n : Nat) : Nat :=
  (List.finRange 48).foldl (fun w k =>
    if first ≤ k.val ∧ k.val < first + n ∧ s.trn[d].slots[k].st = .fault then w + 2 ^ (k.val - first) else w) 0

/-- The live words of the turn engine (R252, R253, R255, R257). -/
def viewTrn (s : State) (d : Die) (off : Nat) : Option Nat :=
  let a := trnA d
  let x := s.trn[d]
  if off = 0x04 then
    some (b2n x.clkLost * 4 + b2n s.dies[d].safe * 2 + b2n (s.has a F.TRN_CTL_ENABLE && !x.clkLost && !s.dies[d].clkLost))
  else if off = 0x08 then
    let g := fun (f : Field) (n : Fin 48) => s.get a f n
    some (worstLoad (g F.TRN_Sn_CFG_ENABLE) (g F.TRN_Sn_CFG_LAW) (g F.TRN_Sn_CFG_NB) (g F.TRN_Sn_CFG_RATE) (g F.TRN_Sn_CFG_PHASE) * 2 ^ 16
      + (s.get a F.TRN_CTL_TURN_CYC - 40))
  else if off = 0x0C then some (x.count % 2 ^ 32)
  else if off = 0x10 then some (faultBits s d 0 32)
  else if off = 0x14 then some (faultBits s d 32 16)
  else if 0x100 ≤ off ∧ off < 0x200 ∧ off % 0x20 = 0x14 then
    let g : Fin 8 := ⟨(off - 0x100) / 0x20 % 8, Nat.mod_lt _ (by decide)⟩
    let y := x.sels[g]
    some (ofSigned 16 (clampInt (-32768) 32767 (y.out / 65536)) * 2 ^ 16 + ((y.selected.map (·.val)).getD 63) * 2 ^ 8 + b2n y.empty * 128)
  else if 0x1000 ≤ off ∧ off < 0x1C00 then
    let n : Fin 48 := ⟨(off - 0x1000) / 0x40 % 48, Nat.mod_lt _ (by decide)⟩
    let y := x.slots[n]
    match off % 0x40 with
    | 0x2C => some (y.st.code * 2 ^ 16 + s.get a F.TRN_Sn_CFG_BANK n * 2 ^ 14 + b2n y.band * 2 ^ 13 + b2n y.hi * 2 ^ 12
        + b2n y.slewing * 2 ^ 11 + b2n y.iclamp * 2 ^ 10 + b2n y.oclamp * 2 ^ 9 + b2n (slotSelected s d n) * 2 ^ 8 + b2n y.sat * 2 ^ 7)
    | 0x30 => some (bits32 y.err)
    | 0x34 => some (bits32 y.out)
    | 0x38 => some (bits32 y.int)
    | _ => none
  else none

end Sys2Proof.Machine
end

