-- ==== Sys2Proof/Machine/TurnOps.lean ====
section
/-! DEFINITION. What happens at each turn boundary of a field die (R226). -/
namespace Sys2Proof.Machine

/-! ## Sources (R230, R312) -/

/-- A rational source value with 16 fraction bits. -/
def srcRat (q : Rat) : Int := (satTo 32 (roundOpen (q * 65536))).1

/-- Sources 0x01–0x1E of a bay. -/
def baySource (s : State) (b : Bay) (e : Nat) : Option Int :=
  let o := s.osv[b]
  if e = 1 then some (srcRat o.fe)
  else if e = 2 then some (srcRat o.te)
  else if e = 3 then (if o.t = .locked then some (srcRat o.xFine) else none)
  else if e = 4 then some (srcRat ((s.geti (osvA b) (tiltField (tiltBand s b)) o.layer : Rat) + cruShift s b .tilt))
  else if e ≤ 9 then
    let v := spnSource s b e
    if v.2 then some (srcRat v.1) else none
  else if e = 0x0A then some (val16 (tablePeak s b))
  else if e = 0x0B then some (srcRat (eyeCeiling s b))
  else if e = 0x0C then some (srcRat (thermalLimit s b))
  else if h : 0x10 ≤ e ∧ e ≤ 0x16 then
    if s.recp[b].linkBad = 0 then some (val16 (s.recp[b].power[e - 0x10]'(by omega))) else none
  else if h : 0x18 ≤ e ∧ e ≤ 0x1E then some (srcRat (emitterTarget s b ⟨e - 0x18, by omega⟩))
  else none

/-- Sources 0x01–0x06 of the mechanism die (R312). -/
def mechSource (s : State) (e : Nat) : Option Int :=
  if h : 1 ≤ e ∧ e ≤ 4 then
    let x := s.axp[(1 : Die)].axes[(⟨e - 1, by omega⟩ : Fin 8)]
    if x.homed then some (satTo 32 (val16 x.pos)).1 else none
  else if e = 5 then (if s.yrd.contact then some (satTo 32 (val16 (compression s))).1 else none)
  else if e = 6 then (if s.vmechValid 1 then some (val16 s.dies[(1 : Die)].vmechMv) else none)
  else none

/-- The value of a source, none when it is not valid (R230). -/
def sourceVal (s : State) (d : Die) (c : Nat) : Option Int :=
  if c = 0 then some 0
  else if c = 0xF0 then some (val16 s.trn[d].dieTemp)
  else if h : 0x40 ≤ c ∧ c ≤ 0x47 then some (s.trn[d].sels[(⟨c - 0x40, by omega⟩ : Fin 8)]).out
  else if h : 0x80 ≤ c ∧ c ≤ 0xAF then some (s.trn[d].slots[(⟨c - 0x80, by omega⟩ : Fin 48)]).out
  else if d = 1 then mechSource s c
  else (bayOf d (c / 0x20)).bind fun b => baySource s b (c % 0x20)

/-! ## The optical servo's part (chapter 06) -/

/-- Focus threshold counters and the sweep's maxima of a turn; a defect hold leaves them (R192, R196–R199). -/
def osvCounters (s : State) (b : Bay) (x : Osv) (hold : Bool) : Osv :=
  if hold then x
  else
    let run := fun (c : Bool) (n : Nat) => if c then min (n + 1) 65535 else 0
    let loss := lossLevel s b
    let x := { x with
      flockRun := run (x.f == .capture && decide (|x.fe| < flockTh s b)) x.flockRun
      tlockRun := run (x.t == .capture && decide (|x.te| < tlockTh s b)) x.tlockRun
      lowRun := run (x.f == .locked && decide (x.sum3 < loss)) x.lowRun
      highRun := run (x.f == .hold && decide (loss ≤ x.sum3)) x.highRun }
    let x := if x.f = .sweep then
        let m := max x.sweepMax x.sum3
        { x with sweepMax := m, risen := x.risen || decide (m * 30 / 100 < x.sum3) }
      else x
    if x.refLeft = 0 then x
    else
      let sum := x.refSum + x.sum3
      if x.refLeft = 1 then { x with refLeft := 0, refSum := 0, sumRef := sum / 1024 }
      else { x with refLeft := x.refLeft - 1, refSum := sum }

/-- The sweep's travel in a turn: 4 mm/s over 600 µm (R197). -/
def sweepStep (s : State) (d : Die) : Rat := 4000 * turnTime s d / 600 * 65536

/-- Kicks, brakes and the passing of the minimum between layers, turn by turn (R202, R203). -/
def osvKicks (x : Osv) : Osv :=
  match x.phase with
  | .layerKick _ _ =>
    let left := x.kick - 1
    { x with
      kick := left
      fForce := if left = 0 then some x.kickBase else x.fForce
      passedMin := x.passedMin || decide (x.sumMin < x.sum3)
      sumMin := min x.sumMin x.sum3 }
  | .layerBrake _ _ => { x with kick := x.kick - 1 }
  | .trackKick _ => { x with kick := x.kick + 1 }
  | .trackBrake _ =>
    if x.kick ≤ 1 then { x with kick := 0, tForce := none, t := .capture, tlockRun := 0, phase := .trackCapture }
    else { x with kick := x.kick - 1 }
  | _ => x

/-- No jump or coarse seek is under way (R199). -/
def MovePhase.still : MovePhase → Bool
  | .layerKick _ _ | .layerBrake _ _ | .trackKick _ | .trackBrake _ | .coarse => false
  | _ => true

/-- Radius, velocity and the registers that show them (R193, R220). -/
def State.osvVelocity (s : State) (b : Bay) : State :=
  let x := s.osv[b]
  let pos := (s.axp[dieOfBay b].axes[sledAxis b]).pos
  let r : Rat := (s.get (osvA b) F.TRN_GEOM_RADIUS_OFS : Rat) + pos / 2 + x.xFine
  let valid := s.spn[b].valid
  let f : Rat := s.spn[b].speed / 60
  let v : Rat := twoPi * r / 1000000 * f
  let s := s.setOsv b { x with radius := (roundOpen r).toNat, speed := (roundOpen (f * 100)).toNat, velValid := valid }
  if s.has (sfeA b) F.SFE_VEL_VEL_SRC then s
  else if valid then s.velUpdate b (roundNear (1024 * v)).toNat
  else s

/-- The sled-follow filter at an evaluation of slot 3 (R201). -/
def State.osvFine (s : State) (b : Bay) : State :=
  let d := dieOfBay b
  let n := osvSlot b 3
  let div := 2 ^ s.get (trnA d) F.TRN_Sn_CFG_RATE n
  if s.trn[d].count % div = s.get (trnA d) F.TRN_Sn_CFG_PHASE n then
    let x := s.osv[b]
    let out : Rat := (s.trn[d].slots[osvSlot b 1].out : Rat) / 65536
    let now := out * s.get (osvA b) F.TRN_GEOM_FINE_SENS / 32768
    let tau : Rat := s.get (osvA b) F.TRN_SF_CFG_SF_TAU / 10000
    let k := 1 - Config.exp (-(div : Rat) * turnTime s d / tau)
    s.setOsv b { x with xFine := x.xFine + (now - x.xFine) * k }
  else s

/-- The end of a coarse seek's move, and a sled that has failed (R204). -/
def State.coarseEnd (s : State) (b : Bay) : State :=
  let x := s.osv[b]
  if x.phase = .coarse then
    let d := dieOfBay b
    let n := sledAxis b
    let a := s.axp[d].axes[n]
    if a.st = .idle ∧ a.still then
      let s := if s.has (osvA b) F.TRN_OSV_CTL_SF_EN then
          (s.put (axpA d) F.AXP_An_CTL_MODE 1 n).setAxis d n { a with st := .follow, atSoft := false, softDir := 0 }
        else s
      s.setOsv b { s.osv[b] with phase := .landing }
    else if a.st = .fault ∨ a.st = .limit ∨ a.st = .kept then s.moveEnd b false
    else s
  else s

/-- Tracking capture starts when focus is LOCKED, the SA axis in position and no jump under way (R199). -/
def State.trackStart (s : State) (b : Bay) : State :=
  let x := s.osv[b]
  if s.has (osvA b) F.TRN_OSV_CTL_TRK_EN && x.f == .locked && x.saDone && x.phase.still && (x.t == .off || x.t == .hold) then
    (s.slotRestart (dieOfBay b) (osvSlot b 1)).setOsv b { x with t := .capture, tlockRun := 0 }
  else s

/-- A pending request starts when nothing is under way (R206). -/
def State.pendingStart (s : State) (b : Bay) : State :=
  let x := s.osv[b]
  match x.pending with
  | some r =>
    if x.move.isNone ∧ s.recp[b].writing.isNone ∧ (r.move = .reacquire ∨ x.f = .locked) then s.moveStart b r else s
  | none => s

/-- How many swaths spot 3 lies short of a slot of an area. -/
def swathsShort (s : State) (b : Bay) (area slot : Nat) : Int := areaSwath area slot - areaSwath area s.osv[b].slotNow

/-- The head of the reading's log does not lie ahead on this layer within the landing window: a seek is due (R204). -/
def readSeekDue (s : State) (b : Bay) (l : LogAsm) : Bool :=
  let x := s.osv[b]
  let n := swathsShort s b l.area (3 * l.log)
  decide (x.layer ≠ l.layer) || decide (x.areaNow ≠ l.area) || decide (n < 0) ||
    decide ((s.get (osvA b) F.TRN_SEEK_CFG_LAND_SHORT : Int) + 2 < n)

/-- The bay seeks to the log it reads next (R24, R204). -/
def State.readSeek (s : State) (b : Bay) : State :=
  let x := s.osv[b]
  match s.lat[b].logs with
  | l :: _ =>
    if x.move.isNone && x.pending.isNone && s.recp[b].writing.isNone && x.f == .locked && x.t == .locked && !x.checkDue &&
        !s.lat[b].retry && readSeekDue s b l then
      s.moveStart b { move := .seek l.layer l.area (3 * l.log), owner := .read }
    else s
  | [] => s

/-- The servo of a bay takes a turn's observation (R191–R204). -/
def State.osvTurn (s : State) (b : Bay) (o : ServoObs) : State :=
  let x := s.osv[b]
  let spot := s.sfe[b].spots[(3 : Fin 7)]
  let flags := x.defect || spot.snag || fcActive s b 3
  let hold := flags && x.f != .jump && x.t != .jump
  let (sum, fe, te, low) := osvErrors s b o
  let s := if hold then s.bump (osvA b) F.TRN_OSV_CNT_DEFECT_TURNS else s
  let y := osvCounters s b { x with defect := false, fe, te, sum3 := sum, lowSig := low } hold
  let y := osvKicks y
  let y := if y.f = .sweep then { y with sweepPos := min 32767 (y.sweepPos + sweepStep s (dieOfBay b)) } else y
  let s := s.setOsv b y
  let s := s.setOsv b { s.osv[b] with saDone := saAt s b }
  let s := if y.t = .locked ∧ ¬ hold then
      s.setCru b { s.cru[b] with teSq := s.cru[b].teSq + te * te, teN := s.cru[b].teN + 1 }
    else s
  let s := if s.recp[b].wi ∧ wiCause s b = false then s.setRec b { s.recp[b] with wi := false } else s
  let s := s.setRec b { s.recp[b] with linkTurns := min 3 (s.recp[b].linkTurns + 1), frame := cmdFrame s b }
  (((((s.osvFine b).osvVelocity b).coarseEnd b).trackStart b).pendingStart b).readSeek b

/-- The defect hold of the focus and tracking slots (R192, R226). -/
def State.defectHold (s : State) (b : Bay) (o : Bool) : State :=
  if o then
    let d := dieOfBay b
    let h := fun (t : State) n => t.setSlot d (osvSlot b n) { t.trn[d].slots[osvSlot b n] with hold := true }
    h (h s 0) 1
  else s

/-! ## Settings that change at the boundary -/

/-- The groups that take effect at a turn (R207, R250). -/
def State.turnGroups (s : State) (d : Die) : State :=
  let s := (List.finRange 48).foldl (fun t (n : Fin 48) => t.activate (.trnSlot d n)) s
  let s := (List.finRange 8).foldl (fun t (g : Fin 8) => t.activate (.trnSelector d g)) s
  (baysOfDie d).foldl (fun t b =>
    let t := t.activate (.osvServo b)
    let x := t.osv[b]
    if x.layDue && x.phase.still && t.isWaiting (.osvLayer b) then
      let was := saOf t b x.layer
      let t := (t.activate (.osvLayer b)).setOsv b { x with layDue := false }
      if saOf t b x.layer ≠ was then t.saMove b x.layer else t
    else t) s

/-- A slot as the boundary finds it: enabled, disabled, swapped or stopped (R236–R242, R249). -/
def State.slotBoundary (s : State) (d : Die) (n : Fin 48) : State :=
  let a := trnA d
  let x := s.trn[d].slots[n]
  let bank := s.has a F.TRN_Sn_CFG_BANK n
  if !s.has a F.TRN_Sn_CFG_ENABLE n then
    if x.st = .off then s else s.setSlot d n { x with st := .off, slewing := false, hand := none, bank }
  else if s.dies[d].safe && !s.has a F.TRN_Sn_CFG_SAFE_RUN n then s.setSlot d n { x with st := .safeStop, slewing := false, bank }
  else if x.st = .off then
    let dst := s.get a F.TRN_Sn_IO_DST n
    let y := if dst = 0 ∨ dst = 0xFE then 0 else destVal s.trn[d] dst
    s.setSlot d n { out := y, st := .run, hand := some y, bank, force := x.force, hold := x.hold }
  else if x.bank ≠ bank then s.setSlot d n { x with bank, hand := x.hand <|> some x.out }
  else s

/-! ## Evaluation (R226–R248) -/

/-- A slot is due in this turn (R225). -/
def slotDue (s : State) (d : Die) (n : Fin 48) : Bool :=
  s.trn[d].count % 2 ^ s.get (trnA d) F.TRN_Sn_CFG_RATE n == s.get (trnA d) F.TRN_Sn_CFG_PHASE n

/-- The members of a selector. -/
def selMembers (s : State) (d : Die) (g : Fin 8) : List (Fin 48) :=
  let m := hiLo (s.get (trnA d) F.TRN_SELs_MLO_MEMBERS g) (s.get (trnA d) F.TRN_SELs_MHI_MEMBERS g)
  (List.finRange 48).filter fun n => bitOf m n.val

/-- The enabled selector a slot belongs to. -/
def selOf (s : State) (d : Die) (n : Fin 48) : Option (Fin 8) :=
  (List.finRange 8).find? fun g => s.has (trnA d) F.TRN_SELs_CFG_ENABLE g && (selMembers s d g).contains n

/-- The error of a slot on the sources latched in l: none when one is not valid (R230, R236). -/
def slotError (l s : State) (d : Die) (n : Fin 48) : Option (Int × Int) :=
  let a := trnA d
  let sp := s.get a F.TRN_Sn_IO_SP_SRC n
  match sourceVal l d (s.get a F.TRN_Sn_CFG_SRC n), (if sp = 0 then some (s.geti a F.TRN_Sn_SET_SET n) else sourceVal l d sp) with
  | some m, some p => some (p - m, p)
  | _, _ => none

/-- The following-error counter after an error (R246). -/
def followErr (s : State) (d : Die) (n : Fin 48) (x : TrnSlot) (sp : Int) : TrnSlot × Bool :=
  let a := trnA d
  let lim := s.get a F.TRN_Sn_FERR_FE_LIM n
  if lim = 0 then ({ x with fe := 0 }, false)
  else
    let beyond : Bool := if s.has a F.TRN_Sn_FERR_FE_REL n then decide ((lim : Int) * |sp| < |x.err| * 1024)
      else decide (val16 lim < |x.err|)
    let most := (if s.has a F.TRN_Sn_FERR_FE_UNIT n then 64 else 1) * s.get a F.TRN_Sn_FERR_FE_TIME n
    let fe := if beyond then x.fe + 1 else 0
    ({ x with fe }, decide (most < fe))

/-- What a loop's fault means to its owner: the log in progress, or the tracking lock (R175, R180, R198). -/
def State.ownerFault (s : State) (d : Die) (n : Fin 48) : State :=
  let k := n.val % 24
  match bayOf d (n.val / 24) with
  | some b =>
    if 10 ≤ k ∧ k ≤ 16 then s.recPartial b
    else if k = 1 then s.trackLost b
    else s
  | none => s

/-- A slot faults (R246, R247); the SAFE action is taken at step 5. -/
def State.slotFault (s : State) (d : Die) (n : Fin 48) : State :=
  let a := trnA d
  let x := s.trn[d].slots[n]
  let zero := s.get a F.TRN_Sn_CFG_FAULT_ACT n = 1
  let s := s.raiseDie d 0x0401 (if d = 1 then none else some (n.val / 24)) 0 n.val x.err (bits32 x.out)
  let s := s.setSlot d n { x with
    st := .fault, slewing := false, hand := none
    out := if zero then 0 else x.out
    int := if zero then 0 else x.int }
  (s.bump a F.TRN_Sn_CNT_FAULTS n).ownerFault d n

/-- The forced value of a slot: FORCE with FVAL, else its owner's (R237). -/
def forcedTo (s : State) (d : Die) (n : Fin 48) : Option Int :=
  if s.has (trnA d) F.TRN_Sn_CMD_FORCE n then some (val16 (s.geti (trnA d) F.TRN_Sn_CMD_FVAL n)) else s.trn[d].slots[n].force

/-- Count a saturation and a slew of an evaluation (R229, R242). -/
def State.evalCounts (s : State) (d : Die) (n : Fin 48) (sat slew : Bool) : State :=
  let s := if sat then s.bump (trnA d) F.TRN_ENGCNT_SATS else s
  if slew then s.bump (trnA d) F.TRN_Sn_CNT_SLEWS n else s

/-- The evaluation of one due slot (R226, R236–R238), on the sources latched in l. -/
def State.evalSlot (l s : State) (d : Die) (n : Fin 48) : State :=
  let x := s.trn[d].slots[n]
  let forced := forcedTo s d n
  -- the release of FORCE is a hand-over
  let x := if x.st = .forced ∧ forced.isNone then { x with hand := x.hand <|> some x.out } else x
  match x.st with
  | .off | .fault | .safeStop => s
  | _ =>
    match forced with
    | some v => s.setSlot d n { x with st := .forced, out := v, fe := 0, slewing := false, hand := none }
    | none =>
      match (if x.hold then none else slotError l s d n) with
      | none => (s.setSlot d n { x with st := .held }).bump (trnA d) F.TRN_Sn_CNT_HELD n
      | some (e, sp) =>
        let e' := satTo 32 e
        let c := slotCfg s d n
        match selOf s d n with
        | some g =>
          if s.trn[d].sels[g].on ∧ s.trn[d].sels[g].selected = some n then
            let (y, slew) := evalLaw c x e'.1
            let (z, bad) := followErr s d n y sp
            let s := (s.setSlot d n { z with st := .run, sat := z.sat || e'.2 }).evalCounts d n (z.sat || e'.2) slew
            if bad then s.slotFault d n else s
          else
            let y := evalCandidate c x e'.1
            (s.setSlot d n { y with st := .run, sat := y.sat || e'.2 }).evalCounts d n (y.sat || e'.2) false
        | none =>
          let (y, slew) := evalLaw c x e'.1
          let (z, bad) := followErr s d n y sp
          let s := (s.setSlot d n { z with st := .run, sat := z.sat || e'.2 }).evalCounts d n (z.sat || e'.2) slew
          if bad then s.slotFault d n else s

/-! ## Selectors (R244, R245) -/

/-- The member with the lowest candidate, the lower number on a tie. -/
def lowest (s : State) (d : Die) : List (Fin 48) → Option (Fin 48)
  | [] => none
  | n :: t =>
    match lowest s d t with
    | none => some n
    | some m => if s.trn[d].slots[m].out < s.trn[d].slots[n].out then some m else some n

/-- A member becomes selected under R242, and its output becomes the selector's. -/
def State.select (s : State) (d : Die) (g : Fin 8) (n : Fin 48) (prev : Int) : State :=
  let c := slotCfg s d n
  let (y, slew) := takeOver c s.trn[d].slots[n] prev
  let s := (s.setSlot d n y).evalCounts d n false slew
  let z := s.trn[d].sels[g]
  let s := if z.selected = some n then s else s.bump (trnA d) F.TRN_SELs_CNT_SWITCHES g
  s.setSel d g { z with selected := some n, out := y.out, empty := false, on := true }

/-- The losing linear members track the output (R244). -/
def State.trackLosers (s : State) (d : Die) (g : Fin 8) : State :=
  let z := s.trn[d].sels[g]
  (selMembers s d g).foldl (fun (t : State) (n : Fin 48) =>
    let x := t.trn[d].slots[n]
    if z.selected = some n ∨ x.st = .fault ∨ t.get (trnA d) F.TRN_Sn_CFG_LAW n ≠ 0 then t
    else
      let c := slotCfg t d n
      let i := clampInt c.iMin c.iMax z.out
      t.setSlot d n { x with int := i, iclamp := iclampOf c i }) s

/-- A selector turned on: the linear members' integrators start at the destination's present value (R244). -/
def State.selectorOn (s : State) (d : Die) (g : Fin 8) : State :=
  let v := destVal s.trn[d] (s.get (trnA d) F.TRN_SELs_CFG_DST g)
  let s := (selMembers s d g).foldl (fun (t : State) (n : Fin 48) =>
    if t.get (trnA d) F.TRN_Sn_CFG_LAW n = 0 then t.setSlot d n { t.trn[d].slots[n] with int := v, hand := none } else t) s
  s.setSel d g { s.trn[d].sels[g] with selected := none, out := v, empty := false, on := true }

/-- An enabled selector without a live member takes its safe value (R245). -/
def State.selEmpty (s : State) (d : Die) (g : Fin 8) : State :=
  let a := trnA d
  let z := s.trn[d].sels[g]
  let safe := val16 (s.geti a F.TRN_SELs_SAFE_SAFE_OUT g)
  if z.empty then s.setSel d g { z with out := safe }
  else
    let s := (s.bump a F.TRN_SELs_CNT_EMPTIES g).bump a F.TRN_ENGCNT_SEL_EMPTY
    let s := s.raiseDie d 0x0402 none 0 g.val safe 0
    s.setSel d g { z with out := safe, empty := true, selected := none }

/-- A selector's choice among its live members: the lowest, and another than the selected one once it lies the hysteresis
lower (R244). -/
def State.selPick (s : State) (d : Die) (g : Fin 8) (live : List (Fin 48)) (keep : Option (Fin 48)) : State :=
  let z := s.trn[d].sels[g]
  match keep with
  | none => match lowest s d live with | some n => s.select d g n z.out | none => s
  | some n =>
    let x := s.trn[d].slots[n]
    match lowest s d (live.filter (· ≠ n)) with
    | some m =>
      if s.trn[d].slots[m].out < x.out - val16 (s.get (trnA d) F.TRN_SELs_CFG_HYST g) then s.select d g m z.out
      else s.setSel d g { z with out := x.out }
    | none => s.setSel d g { z with out := x.out }

/-- Resolve a selector whose members were due (R244, R245). -/
def State.resolveSel (s : State) (d : Die) (g : Fin 8) : State :=
  let ms := selMembers s d g
  let z := s.trn[d].sels[g]
  let faulted := fun n => s.trn[d].slots[n].st == .fault
  let live := ms.filter fun n => !faulted n && s.trn[d].slots[n].st != .off && s.trn[d].slots[n].st != .safeStop
  if ms.any fun n => faulted n && s.get (trnA d) F.TRN_Sn_CFG_FAULT_ACT n == 1 then s.setSel d g { z with out := 0 }
  else if live.isEmpty then s.selEmpty d g
  else (s.selPick d g live (z.selected.filter live.contains)).trackLosers d g

/-- Every enabled selector with members due resolves; one newly enabled starts (R244). -/
def State.selectors (s : State) (d : Die) (due : List (Fin 48)) : State :=
  (List.finRange 8).foldl (fun (t : State) (g : Fin 8) =>
    if !t.has (trnA d) F.TRN_SELs_CFG_ENABLE g then
      if t.trn[d].sels[g].on then t.setSel d g { t.trn[d].sels[g] with on := false, selected := none, empty := false } else t
    else if (selMembers t d g).any (due.contains ·) then t.resolveSel d g
    else t) s

/-! ## Outputs (R226, R249) -/

/-- The outputs that reach their destinations at the next boundary. -/
def turnOutputs (s : State) (d : Die) : List (Nat × Int) :=
  let a := trnA d
  let put := fun (m : List (Nat × Int)) c v => if c = 0 ∨ c = 0xFE then m else destPut m c v
  let m := (List.finRange 48).foldl (fun m (n : Fin 48) =>
    let x := s.trn[d].slots[n]
    if x.st = .off ∨ x.st = .safeStop then m else put m (s.get a F.TRN_Sn_IO_DST n) x.out) []
  (List.finRange 8).foldl (fun m (g : Fin 8) =>
    if s.trn[d].sels[g].on then put m (s.get a F.TRN_SELs_CFG_DST g) s.trn[d].sels[g].out else m) m

/-- In the safe state the actuator outputs ramp to 0 within 2 ms and the laser levels are 0 (R36, R249). -/
def safeOutputs (s : State) (d : Die) (driven : List (Nat × Int)) : List (Nat × Int) :=
  if !s.dies[d].safe || d = 1 then driven
  else
    s.trn[d].dest.foldl (fun m (e : Nat × Int) =>
      let c := if 0x20 ≤ e.1 then e.1 - 0x20 else e.1
      if driven.any (·.1 = e.1) then m
      else if 1 ≤ c ∧ c ≤ 4 then destPut m e.1 (rampStep s d 2 e.2)
      else if 0x10 ≤ c ∧ c ≤ 0x16 then destPut m e.1 0
      else m) driven

/-- One turn of a running engine (R226). -/
def State.turnRun (s : State) (d : Die) (adc : Vector ServoObs 2) : State :=
  -- step 1: the last turn's outputs arrive, sources and holds are latched
  let x := s.trn[d]
  let s := s.setTrn d { x with dest := x.next.foldl (fun m e => destPut m e.1 e.2) x.dest, next := [], dieTemp := s.dies[d].temp }
  let holds := (baysOfDie d).map fun b =>
    (s.osv[b].defect || s.sfe[b].spots[(3 : Fin 7)].snag || fcActive s b 3) && s.osv[b].f != .jump && s.osv[b].t != .jump
  let s := ((baysOfDie d).zip adc.toList).foldl (fun t e => t.osvTurn e.1 e.2) s
  let l := s
  -- step 2: settings of this boundary
  let s := s.turnGroups d
  let s := (List.finRange 48).foldl (fun t (n : Fin 48) => t.slotBoundary d n) s
  let s := (List.finRange 8).foldl (fun t (g : Fin 8) =>
    if t.has (trnA d) F.TRN_SELs_CFG_ENABLE g && !t.trn[d].sels[g].on then t.selectorOn d g else t) s
  let s := if s.dies[d].safe then s else (baysOfDie d).foldl (fun t b => t.osvForces b) s
  let s := ((baysOfDie d).zip holds).foldl (fun t e => t.defectHold e.1 e.2) s
  -- steps 3 and 4: due slots in ascending order, then the selectors
  let due := (List.finRange 48).filter fun (n : Fin 48) => s.has (trnA d) F.TRN_Sn_CFG_ENABLE n && slotDue s d n
  let was := (List.finRange 48).filter fun (n : Fin 48) => s.trn[d].slots[n].st = .fault
  let s := due.foldl (fun t n => State.evalSlot l t d n) s
  let s := s.selectors d due
  -- step 6: outputs
  let s := s.setTrn d { s.trn[d] with next := safeOutputs s d (turnOutputs s d), count := (s.trn[d].count + 1) % 2 ^ 32 }
  -- step 5: a fault with action SAFE
  if (List.finRange 48).any fun (n : Fin 48) =>
      s.trn[d].slots[n].st == .fault && !was.contains n && s.get (trnA d) F.TRN_Sn_CFG_FAULT_ACT n == 2 then
    s.enterSafe d
  else s

/-- A turn boundary: nothing while the engine is disabled or its clock has ended (R224, R249). -/
def State.turn (s : State) (d : Die) (adc : Vector ServoObs 2) : State :=
  if s.has (trnA d) F.TRN_CTL_ENABLE && !s.trn[d].clkLost && !s.dies[d].clkLost then s.turnRun d adc else s

end Sys2Proof.Machine
end

