-- ==== Sys2Proof/Machine/Servo.lean ====
section
/-! DEFINITION. What the commands of the optical servo do (chapter 06). -/
namespace Sys2Proof.Machine

/-! ## Focus (R196–R198) -/

/-- FOC_EN is set (R196): the lens withdraws and the sweep starts with TRIES at 0. -/
def State.focEn (s : State) (b : Bay) : State :=
  if s.has (osvA b) F.TRN_OSV_CTL_FOC_EN || s.dies[dieOfBay b].safe then s
  else (s.put (osvA b) F.TRN_OSV_CTL_FOC_EN 1).focusOn b

/-- FOC_EN_SET (R196). -/
def execFocEnSet (b : Bay) (s : State) : Host.Outcome State Fault Refusal := .next (s.focEn b)

/-- A write of TRN_OSV_CTL (R196, R209). -/
def execTrnOsvCtlWrite (b : Bay) (value : Word) (s : State) : Host.Outcome State Fault Refusal := .next (s.osvCtl b value)

/-- A surface peak of a sweep (R196, R197): at the target's peak, with |FE| inside the capture band, the loop captures; a fall
below 15 % of the running maximum after a rise above 30 % counts one peak. -/
def State.surfacePeak (s : State) (b : Bay) : State :=
  let x := s.osv[b]
  if x.f ≠ .sweep ∨ x.risen = false then s
  else if x.counting = false ∧ x.peaks + x.target = 16 ∧ |x.fe| ≤ fcapBand s b ∧ x.sweepMax * 15 / 100 ≤ x.sum3 then
    s.focusCapture b x.target
  else if x.sum3 < x.sweepMax * 15 / 100 then s.setOsv b { x with peaks := x.peaks + 1, risen := false }
  else s

/-- SURFACE_PEAK (R197). -/
def execSurfacePeak (b : Bay) (s : State) : Host.Outcome State Fault Refusal := .next (s.surfacePeak b)

/-- The mount of a bay fails (R194, R197): its item ends MOUNT_FAILED. -/
def State.mountFail (s : State) (b : Bay) : State :=
  let x := s.osv[b]
  let s := s.setOsv b { x with counting := false, mount := none }
  let s := s.setLat b { s.lat[b] with mount := none, logs := s.lat[b].logs.filter fun l => l.item.isSome || !l.system }
  match x.mount with
  | some i => s.endItem (dieOfBay b) i .mountFailed
  | none => s

/-- The sweep has come to the end of its range (R196, R197): a counting sweep of 17 peaks is followed by one that captures
layer 0, any other count fails the mount; a capturing sweep that found no target counts a try. -/
def State.sweepEnd (s : State) (b : Bay) : State :=
  let x := s.osv[b]
  if x.f ≠ .sweep ∨ x.sweepPos < 32767 then s
  else if x.counting then
    if x.peaks = 17 then (s.setOsv b { x with counting := false, layer := 0 }).osvSweep b
    else (s.mountFail b).osvOff b
  else s.focusRetry b

/-- SWEEP_END (R196). -/
def execSweepEnd (b : Bay) (s : State) : Host.Outcome State Fault Refusal := .next (s.sweepEnd b)

/-- |FE| below FLOCK_TH for 32 turns in CAPTURE: LOCKED, and SUM_REF is measured over the next 1,024 turns (R196). -/
def State.focusLock (s : State) (b : Bay) : State :=
  let x := s.osv[b]
  if x.f = .capture ∧ 32 ≤ x.flockRun then
    s.setOsv b { x with f := .locked, refLeft := 1024, refSum := 0, lowRun := 0, highRun := 0, longSnag := false }
  else s

/-- FOCUS_LOCK (R196). -/
def execFocusLock (b : Bay) (s : State) : Host.Outcome State Fault Refusal := .next (s.focusLock b)

/-- No lock within 2 ms of capture (R196). -/
def State.captureTimeout (s : State) (b : Bay) : State :=
  let x := s.osv[b]
  if x.f ≠ .capture then s
  else
    let s := match x.phase with
      | .layerCapture _ _ => s.moveEnd b false
      | _ => s
    s.focusRetry b

/-- CAPTURE_TIMEOUT (R196). -/
def execCaptureTimeout (b : Bay) (s : State) : Host.Outcome State Fault Refusal := .next (s.captureTimeout b)

/-- Focus is lost on low SUM3, on a long snag of spot 3, or on the following-error fault of slot 0 (R198). -/
def State.focusLoss (s : State) (b : Bay) : State :=
  let x := s.osv[b]
  let fault := s.trn[dieOfBay b].slots[osvSlot b 0].st == .fault
  if x.f = .locked ∧ (16 ≤ x.lowRun ∨ x.longSnag ∨ fault) then s.focusLost b else s

/-- TRN_FOCUS_LOST (R198). -/
def execTrnFocusLost (b : Bay) (s : State) : Host.Outcome State Fault Refusal := .next (s.focusLoss b)

/-- SUM3 back above LOSS_TH for 16 turns: CAPTURE (R196). -/
def execHoldRecovery (b : Bay) (s : State) : Host.Outcome State Fault Refusal :=
  .next (if s.osv[b].f = .hold ∧ 16 ≤ s.osv[b].highRun then s.focusCapture b s.osv[b].layer else s)

/-- 200 µs in HOLD without recovery (R196). -/
def execHoldTimeout (b : Bay) (s : State) : Host.Outcome State Fault Refusal :=
  .next (if s.osv[b].f = .hold then s.focusRetry b else s)

/-! ## Tracking (R199, R200) -/

/-- Tracking is locked, and checked where a check is due: what the manoeuvre under way does next (R202–R204). -/
def State.lockDone (s : State) (b : Bay) : State :=
  let x := s.osv[b]
  match x.move with
  | none => s
  | some r =>
    match r.move with
    | .reacquire | .track _ => s.moveEnd b true
    | .layer l => if x.layer = l then s.moveEnd b true else s.layerKick b l
    | .seek l _ _ =>
      if x.layer ≠ l then s.layerKick b l
      else match x.phase with
        | .layerCapture _ _ => s.layerArrived b
        | _ => s.setOsv b { x with phase := .landing }

/-- |TE| below TLOCK_TH for 32 turns: tracking is locked, and the front end and the detector acquire (R84, R151, R199). -/
def State.trackLock (s : State) (b : Bay) : State :=
  let x := s.osv[b]
  if x.t = .capture ∧ 32 ≤ x.tlockRun then
    let check := s.has (osvA b) F.TRN_OSV_CTL_SPIRAL_CHK
    let s := s.setOsv b { x with t := .locked, checkDue := check }
    let s := (s.sfeAcquire b x.layer).latAcquire b x.layer
    if check then s else s.lockDone b
  else s

/-- TRACKING_LOCK (R199). -/
def execTrackingLock (b : Bay) (s : State) : Host.Outcome State Fault Refusal := .next (s.trackLock b)

/-- The turns to the spiral-3 turns from spiral s: at most three in size (R200). -/
def spiralJump (k : Nat) : Int :=
  let d : Int := 3 - k
  if |d| ≤ 3 then d else if 0 < d then d - 7 else d + 7

/-- A layer jump has failed: HOLD, counted, and the manoeuvre ends (R196, R202). -/
def State.jumpFail (s : State) (b : Bay) : State :=
  let s := s.bump (osvA b) F.TRN_OSV_CNT2_JUMP_FAILS
  let s := s.moveEnd b false
  let t := if s.osv[b].t = .off then s.osv[b].t else .hold
  s.setOsv b { s.osv[b] with f := .hold, t, checkDue := false, lowRun := 0, highRun := 0 }

/-- The first address of spot 3 that passes R56 after a lock (R200). -/
def State.spiralCheck (s : State) (b : Bay) (addr check : Nat) : State :=
  let x := s.osv[b]
  if x.checkDue = false ∨ x.t ≠ .locked ∨ addressPasses addr check = false then s
  else
    let s := s.setOsv b { x with checkDue := false, slotNow := addrSlot addr, areaNow := addrArea addr }
    let k := bitsOf addr 41 39
    if addrLayer addr ≠ x.layer then s.jumpFail b
    else if k = 3 then s.lockDone b
    else
      let s := s.bump (osvA b) F.TRN_OSV_CNT2_SPIRAL_CORR
      if x.move.isSome then s.trackKick b (spiralJump k) else s.moveStart b { move := .track (spiralJump k), owner := .spiral }

/-- SPIRAL_CHECK (R200). -/
def execSpiralCheck (b : Bay) (addr check : Nat) (s : State) : Host.Outcome State Fault Refusal :=
  .next (s.spiralCheck b addr check)

/-! ## Mount (R194) -/

/-- The groove search of a mount ends: the sled's place is 23.4 mm and the loops that read are enabled, or the mount fails
(R194, R219). -/
def State.grooveSearch (s : State) (b : Bay) (found : Bool) : State :=
  let x := s.osv[b]
  if x.mount.isNone ∨ x.f ≠ .locked then s
  else if found then
    let pos := (s.axp[dieOfBay b].axes[sledAxis b]).pos
    let ofs := roundOpen (23400 - (pos : Rat) / 2)
    let s := s.put (osvA b) F.TRN_GEOM_RADIUS_OFS ofs.toNat
    let s := s.put (osvA b) F.TRN_OSV_CTL_TRK_EN 1
    (s.put (osvA b) F.TRN_OSV_CTL_TILT_EN 1).put (osvA b) F.TRN_OSV_CTL_SF_EN 1
  else s.mountFail b

/-- GROOVE_SEARCH (R194). -/
def execGrooveSearch (b : Bay) (found : Bool) (s : State) : Host.Outcome State Fault Refusal := .next (s.grooveSearch b found)

/-! ## Manoeuvres (R202–R206, R211) -/

/-- A manoeuvre asked for through TRN_MOVE (R203, R208, R211, R212): a target or a count of turns outside its range changes
nothing, and a track jump past the fine range is not made. -/
def State.moveWrite (s : State) (b : Bay) (m : Manoeuvre) : State :=
  let a := osvA b
  let t := s.put a F.TRN_MOVE_TYPE m.code
  match m with
  | .reacquire => t.moveRequest b { move := m, owner := .register }
  | .layer l => (t.put a F.TRN_MOVE_TGT_LAYER l).moveRequest b { move := m, owner := .register }
  | .track d =>
    if d = 0 ∨ 400 < d.natAbs then s
    else
      let u := t.put a F.TRN_MOVE_TURNS (ofSigned 16 d)
      if 1000 * s.get a F.TRN_SEEK_CFG_FINE_RANGE < 160 * d.natAbs then u
      else u.moveRequest b { move := m, owner := .register }
  | .seek l area slot =>
    if 2 < area then s
    else (((t.put a F.TRN_MOVE_TGT_LAYER l).put a F.TRN_MOVE_TGT_AREA area).put a F.TRN_MOVE_TGT_SLOT slot).moveRequest b
      { move := m, owner := .register }

/-- MOVE_REACQUIRE (R211). -/
def execMoveReacquire (b : Bay) (s : State) : Host.Outcome State Fault Refusal := .next (s.moveWrite b .reacquire)
/-- MOVE_LAYER (R202, R211). -/
def execMoveLayer (b : Bay) (layer : Fin 16) (s : State) : Host.Outcome State Fault Refusal :=
  .next (s.moveWrite b (.layer layer))
/-- MOVE_TRACK (R203, R211). -/
def execMoveTrack (b : Bay) (turns : Int) (s : State) : Host.Outcome State Fault Refusal := .next (s.moveWrite b (.track turns))
/-- MOVE_SEEK (R204, R211). -/
def execMoveSeek (b : Bay) (layer : Fin 16) (area slot : Nat) (s : State) : Host.Outcome State Fault Refusal :=
  .next (s.moveWrite b (.seek layer area slot))

/-- SUM3, having passed its minimum, has risen through 50 % of SUM_REF: the brake starts (R202). -/
def State.layerBrake (s : State) (b : Bay) : State :=
  let x := s.osv[b]
  match x.phase with
  | .layerKick target final =>
    if x.passedMin ∧ x.sumRef / 2 ≤ x.sum3 then
      let amp : Int := s.get (osvA b) F.TRN_LJ_CFG_BRAKE_AMP
      let up := decide (x.layer < target)
      s.setOsv b { x with
        phase := .layerBrake target final, kick := turnsOf s (dieOfBay b) (s.get (osvA b) F.TRN_LJ_CFG_KICK_T)
        fForce := some (kickFrom x.kickBase (if up then amp else -amp)) }
    else s
  | _ => s

/-- LAYER_JUMP_BRAKE (R202). -/
def execLayerJumpBrake (b : Bay) (s : State) : Host.Outcome State Fault Refusal := .next (s.layerBrake b)

/-- The brake has lasted KICK_T: focus captures on the target layer (R202). -/
def State.layerBrakeEnd (s : State) (b : Bay) : State :=
  match s.osv[b].phase with
  | .layerBrake target final =>
    (s.setOsv b { s.osv[b] with phase := .layerCapture target final, kick := 0 }).focusCapture b target
  | _ => s

/-- LAYER_JUMP_BRAKE_END (R202). -/
def execLayerJumpBrakeEnd (b : Bay) (s : State) : Host.Outcome State Fault Refusal := .next (s.layerBrakeEnd b)

/-- A layer jump not complete at LJ_TIMEOUT (R196, R202). -/
def execLjTimeout (b : Bay) (s : State) : Host.Outcome State Fault Refusal :=
  .next (match s.osv[b].phase with
    | .layerKick _ _ | .layerBrake _ _ | .layerCapture _ _ => s.jumpFail b
    | _ => s)

/-- The zero crossings reach |d| − ½ turns: the track jump brakes for as long as it was kicked (R203). -/
def State.trackBrake (s : State) (b : Bay) : State :=
  let x := s.osv[b]
  match x.phase with
  | .trackKick d =>
    let amp : Int := s.get (osvA b) F.TRN_SEEK_CFG_TJ_KICK
    s.setOsv b { x with phase := .trackBrake d, tForce := some (kickFrom x.kickBase (if 0 < d then -amp else amp)) }
  | _ => s

/-- TRACK_JUMP_BRAKE (R203). -/
def execTrackJumpBrake (b : Bay) (s : State) : Host.Outcome State Fault Refusal := .next (s.trackBrake b)

/-- A seek lands on a slot (R204): its radius bin is written; within the window the seek is complete, otherwise a correction
seek follows, at most SEEK_TRIES seeks in all. -/
def State.seekLanding (s : State) (b : Bay) (slot : Nat) : State :=
  let x := s.osv[b]
  match x.phase, x.move with
  | .landing, some ⟨.seek _ area target, _⟩ =>
    if x.t ≠ .locked then s
    else
      let s := s.setOsv b { x with slotNow := slot, landing := x.landing.set (binOf ((x.radius : Int) * 1000)) (some slot) }
      let n := swathsShort s b area target
      if 0 ≤ n ∧ n ≤ (s.get (osvA b) F.TRN_SEEK_CFG_LAND_SHORT : Int) + 2 then s.moveEnd b true
      else if s.get (osvA b) F.TRN_SEEK_CFG_SEEK_TRIES ≤ x.seeks then s.moveEnd b false
      else (s.bump (osvA b) F.TRN_OSV_CNT2_SEEK_RETRIES).seekStep b area target
  | _, _ => s

/-- SEEK_LANDING (R204). -/
def execSeekLanding (b : Bay) (slot : Nat) (s : State) : Host.Outcome State Fault Refusal := .next (s.seekLanding b slot)

end Sys2Proof.Machine
end

