-- ==== Sys2Proof/Machine/Turn.lean ====
section
/-! DEFINITION. What the commands of the turn engine do (chapter 07). -/
namespace Sys2Proof.Machine

/-- A turn boundary of a field die, with the servo channels of its bays averaged over the turn (R226). -/
def execTurn (d : Die) (adc : Vector ServoObs 2) (s : State) : Host.Outcome State Fault Refusal := .next (s.turn d adc)

/-- A write of 1 to TRN_Sn_CMD.CLEAR (R248): the fault ends, the counter returns to 0, the output is handed over. -/
def State.slotClear (s : State) (d : Die) (n : Fin 48) : State :=
  let x := s.trn[d].slots[n]
  if x.st = .fault then
    let prev := if s.get (trnA d) F.TRN_Sn_CFG_FAULT_ACT n = 1 then 0 else x.out
    s.setSlot d n { x with st := .run, fe := 0, hand := some prev }
  else s

/-- TRN_Sn_CMD.CLEAR (R248). -/
def execTrnCmdClear (d : Die) (n : Fin 48) (s : State) : Host.Outcome State Fault Refusal := .next (s.slotClear d n)

/-- A write of TRN_Sn_CMD: FVAL and FORCE, and CLEAR where its bit is written 1 (R237, R248, R255). -/
def State.slotCmd (s : State) (d : Die) (n : Fin 48) (w : Word) : State :=
  let s := (s.put (trnA d) F.TRN_Sn_CMD_FVAL (F.TRN_Sn_CMD_FVAL.of w) n).put (trnA d) F.TRN_Sn_CMD_FORCE (F.TRN_Sn_CMD_FORCE.of w) n
  if F.TRN_Sn_CMD_CLEAR.of w = 1 then s.slotClear d n else s

/-- A write of TRN_Sn_CMD that sets or clears FORCE (R237); the release is a hand-over at the slot's next evaluation. -/
def execTrnCmdForce (d : Die) (n : Fin 48) (value : Word) (s : State) : Host.Outcome State Fault Refusal :=
  .next (s.slotCmd d n value)

/-- A write of TRN_Sn_SET (R255). -/
def execTrnSetWrite (d : Die) (n : Fin 48) (value : Word) (s : State) : Host.Outcome State Fault Refusal :=
  .next (s.put (trnA d) F.TRN_Sn_SET_SET value.toNat n)

/-- Whether any slot of a die is enabled. -/
def anySlotOn (s : State) (d : Die) : Bool := (List.finRange 48).any fun (n : Fin 48) => s.has (trnA d) F.TRN_Sn_CFG_ENABLE n

/-- Whether a TURN_CYC lies in the range of the die (R224). -/
def turnCycOk (d : Die) (n : Nat) : Bool := decide ((if d = 1 then 250 else 500) ≤ n ∧ n ≤ 4000)

/-- A write of TRN_CTL (R224, R252): false where the value lies outside its range and the register keeps its own. -/
def State.trnCtl (s : State) (d : Die) (w : Word) : State × Bool :=
  let a := trnA d
  let on := F.TRN_CTL_ENABLE.of w == 1
  let cyc := F.TRN_CTL_TURN_CYC.of w
  let was := s.has a F.TRN_CTL_ENABLE
  if was && !on && anySlotOn s d then (s, true)
  else if !was && !turnCycOk d cyc then (s, false)
  else
    let s := if was then s else s.put a F.TRN_CTL_TURN_CYC cyc
    let s := s.put a F.TRN_CTL_ENABLE (b2n on)
    (if on && !was then s.setTrn d { s.trn[d] with count := 0 } else s, true)

/-- A write of TRN_CTL (R252). -/
def execTrnCtlWrite (d : Die) (value : Word) (s : State) : Host.Outcome State Fault Refusal := .next (s.trnCtl d value).1

/-- Whether a bank is active, or about to become active by a pending commit (R240). -/
def bankBusy (s : State) (d : Die) (n : Fin 48) (bank : Bool) : Bool :=
  s.has (trnA d) F.TRN_Sn_CFG_BANK n == bank ||
    (s.isWaiting (.trnSlot d n) &&
      (fieldIn s.waiting F.TRN_Sn_CFG_BANK (F.TRN_Sn_CFG_BANK.key (trnA d) n 0) == 1) == bank)

/-- A write of a coefficient bank word (R240, R256): false where the bank is read-only; reserved words ignore it. -/
def State.bankWrite (s : State) (d : Die) (n : Fin 48) (bank : Bool) (off : Nat) (w : Word) : State × Bool :=
  if bankBusy s d n bank then (s, false)
  else
    match findReg (trnA d) regs_trn ((if bank then 0x6000 else 0x4000) + 128 * n.val + off % 128) with
    | some l => (s.writeWord false l w, true)
    | none => (s, true)

/-- A write of a coefficient bank word (R240). -/
def execBankWordWrite (d : Die) (n : Fin 48) (bank : Bool) (off : Nat) (value : Word) (s : State) :
    Host.Outcome State Fault Refusal :=
  .next (s.bankWrite d n bank off value).1

end Sys2Proof.Machine
end

