-- ==== Sys2Proof/Machine/Yarder.lean ====
section
/-! DEFINITION. What the commands of the switch inputs and of the yarder do (chapter 09). -/
namespace Sys2Proof.Machine

/-! ## Switch inputs (R302–R306, R311) -/

/-- A home switch's confirmed level drives the phases of homing (R305). -/
def State.homeEdge (s : State) (d : Die) (n : Fin 8) (level : Bool) (cap : Int) : State :=
  let x := s.axp[d].axes[n]
  if x.st = .homing ∧ x.after.isNone then
    match x.hphase, level with
    | some .release, false => s.setAxis d n { x with after := some (.phase .search) }
    | some .search, true => s.setAxis d n { x with after := some (.phase .backoff) }
    | some .backoff, false =>
      if x.hback.isSome then s
      else s.setAxis d n { x with hback := some (cap - axHomeDir s d n * (s.get (axpA d) F.AXP_An_HOMECFG_BACKOFF n : Int) : Int) }
    | some .approach, true =>
      let shift := s.geti (axpA d) F.AXP_An_HOMEPOS_HOME_POS n - cap
      s.setAxis d n { x with p := x.p + shift, capture := s.geti (axpA d) F.AXP_An_HOMEPOS_HOME_POS n, homed := true,
                             after := some .homed }
    | _, _ => s
  else s

/-- Whether an axis moves towards its low (or high) limit; a group member's direction is its share of the path (R304). -/
def movesTo (s : State) (d : Die) (n : Fin 8) (high : Bool) : Bool :=
  let x := s.axp[d].axes[n]
  let v : Rat := match groupOf s d n with
    | some g => let y := s.axp[d].groups[g]; if y.v = 0 then x.v else y.v * y.delta[n]
    | none => x.v
  if high then decide (0 < v) else decide (v < 0)

/-- A limit's confirmed level: a trip towards the limit stops the axis, or turns the search of homing round once; an
inactive limit lets the axis leave LIMIT (R304, R306). -/
def State.limitEdge (s : State) (d : Die) (n : Fin 8) (high level : Bool) : State :=
  let x := s.axp[d].axes[n]
  if level then
    if !movesTo s d n high then s
    else if x.st = .homing then
      if x.hphase = some .search ∧ x.htrips = 0 then s.setAxis d n { x with htrips := 1, after := some .reverse }
      else s.axFault d n .homingFault
    else
      match groupOf s d n with
      | some g => (s.grpStop d g).axFault d n .limitTrip
      | none => s.axFault d n .limitTrip
  else
    let l := axLims s d n
    if x.st = .limit ∧ ¬ l.1 ∧ ¬ l.2 then
      s.setAxis d n { x with st := if x.kept = x.pos then .idle else .kept }
    else s

/-- More than CHAT_N confirmed edges within CHAT_WIN (R303). -/
def chatters (s : State) (d : Die) (k : Fin 12) : Bool :=
  let n := switchAxis d k
  let win := s.get (axpA d) F.AXP_An_SWCFG_CHAT_WIN n * 1000000
  decide (s.get (axpA d) F.AXP_An_SWCFG_CHAT_N n < ((s.axp[d].sw[k].edges).filter fun t => decide (s.clock < t + win)).length)

/-- HEAD_DISC confirmed inactive while a disc is held in steps 4 to 7: the disc has dropped (R314). -/
def State.discEdge (s : State) (level : Bool) : State :=
  let dropping := match s.yrd.motion with
    | some m => decide (4 ≤ m.step ∧ m.step ≤ 7)
    | none => false
  if !level && s.yrd.holding && dropping && s.yrd.state == .transfer then
    let s := (s.bump yrdA F.YRD_CNT_DROPS).raiseDie 1 0x0712 none 0 0 ((s.yrd.job.map (·.src)).getD 0) 0
    let s := s.yrdFault 3 .fault false
    s.setYrd { s.yrd with holding := false }
  else s

/-- What a confirmed level drives. -/
def State.switchActs (s : State) (d : Die) (k : Fin 12) (level : Bool) (cap : Int) : State :=
  let n := switchAxis d k
  let s := if homeSwitch d n = some k then s.homeEdge d n level cap else s
  let s := match limitSwitches d n with
    | some (lo, hi) => if lo = k then s.limitEdge d n false level else if hi = k then s.limitEdge d n true level else s
    | none => s
  if d = 1 ∧ k = 10 then
    if level then (if s.yrd.gripping then s.gripContact cap else s.setYrd { s.yrd with contact := true, contactAt := cap })
    else s.setYrd { s.yrd with contact := false }
  else if d = 1 ∧ k = 11 then s.discEdge level
  else s

/-- The confirmed change of a switch: the level, CAPTURE, chatter, and what the level drives (R302, R303). -/
def State.switchConfirm (s : State) (d : Die) (k : Fin 12) : State :=
  let x := s.axp[d].sw[k]
  if x.raw = x.level then s
  else
    let n := switchAxis d k
    let cap := x.latch.getD (s.axp[d].axes[n]).pos
    let win := s.get (axpA d) F.AXP_An_SWCFG_CHAT_WIN n * 1000000
    let edges := s.clock :: x.edges.filter fun t => decide (s.clock < t + win)
    let s := s.setSwitch d k { x with level := x.raw, latch := none, edges }
    let s := if d = 1 ∧ k = 11 then s else s.setAxis d n { s.axp[d].axes[n] with capture := cap }
    if chatters s d k ∧ (s.axp[d].axes[n]).st ≠ .fault then
      (match groupOf s d n with | some g => s.grpStop d g | none => s).axFault d n .switchChatter
    else s.switchActs d k x.raw cap

/-- A switch holds its new level for FILT (R302). -/
def execSwitchConfirm (d : Die) (k : Fin 12) (s : State) : Host.Outcome State Fault Refusal :=
  .next (if d = 1 then (s.switchConfirm d k).yrdWatch else s.switchConfirm d k)

/-! ## The yarder -/

/-- A motion of a transfer has completed, or its grip has failed (R313, R314). -/
def execTransferStepDone (s : State) : Host.Outcome State Fault Refusal :=
  .next (if s.yrd.state = .transfer then s.yrdAdvance else s)

/-- HEAD_DISC is not confirmed within 100 ms of the grip (R314). -/
def execHeadDiscTimeout (s : State) : Host.Outcome State Fault Refusal :=
  .next (if s.yrd.state = .transfer ∧ s.yrd.motion = some .comp ∧ headDisc s = false then s.putAway 2 else s)

/-- The door is confirmed open (R315). -/
def State.doorOpen (s : State) : State :=
  if s.yrd.door then s
  else
    let s := (s.bump yrdA F.YRD_CNT_DOOR_OPENS).raiseDie 1 0x0711 none 0 0 0 0
    let s := s.stopAxes 1
    s.setYrd { s.yrd with door := true, before := s.yrd.state, state := .doorHold }

/-- The door is confirmed open: every axis stops, and the yarder holds (R315). -/
def execYrdDoorOpen (s : State) : Host.Outcome State Fault Refusal := .next s.doorOpen

/-- The axes that the door stopped resume; a homing that it ended starts again (R315). -/
def State.axesResume (s : State) : State :=
  let s := (List.finRange 4).foldl (fun t g => if t.axp[(1 : Die)].groups[g].st = .kept then t.grpResume 1 g else t) s
  let s := (List.finRange 8).foldl (fun t n =>
    if (groupOf t 1 n).isNone ∧ t.axp[(1 : Die)].axes[n].st = .kept then t.axResume 1 n else t) s
  let opening := s.yrd.motion == some .openQ || (match s.yrd.away with | some (.gripHome _) => true | _ => false)
  if opening && !(yrdAx s axG).homed then s.gripOpen else s

/-- A transfer whose item ended at DOOR_TIMEOUT goes back: a held disc returns to P, an empty arm parks (R315). -/
def State.transferBack (s : State) : State :=
  match s.yrd.job with
  | none => s
  | some j =>
    let out := fun (m : Motion) => decide (7 ≤ m.step)
    match s.yrd.motion, s.yrd.holding with
    | some m, true =>
      let here := if out m then j.dst else j.src
      let s := s.setYrd { s.yrd with job := some { src := here, dst := j.src, item := none } }
      if armAt s 0 then s.startMotion .toQ else s.startMotion .liftP
    | some m, false =>
      if m = .openQ ∨ m = .riseQ ∨ m = .parkQ then s
      else if s.yrd.gripping then s.putAway 4
      else
        let t := s.setYrd { s.yrd with away := some (.armPark 4), motion := none }
        match t.swing 0 with
        | (u, none) => u
        | (u, some e) => u.yrdFault 4 (axisStatus (some e)) true
    | none, _ => s

/-- The door has stayed closed for DOOR_SETTLE (R314–R317). -/
def State.doorSettled (s : State) : State :=
  if s.yrd.state = .doorHold then
    let y := s.yrd
    let s := s.setYrd { y with door := false, cycled := true, state := y.before,
                               invDue := y.invDue || s.has yrdA F.YRD_CTL_AUTO_INV }
    match y.before with
    | .transfer => let s := s.axesResume; if y.timedOut then s.transferBack else s
    | .inventory =>
      let s := s.axesResume
      let s := s.setYrd { s.yrd with scanning := none }
      s.yrdIdle
    | .homing =>
      match y.homeLeft with
      | n :: _ => s.yrdHome n
      | [] => s
    | .fault => if y.orphan ∧ y.holding then s.placeOrphan else s
    | _ => s.yrdIdle
  else s

/-- The door has stayed closed for DOOR_SETTLE (R315). -/
def execDoorSettled (s : State) : Host.Outcome State Fault Refusal := .next s.doorSettled

/-- The door has stayed open beyond DOOR_TIMEOUT: the item of a transfer ends with MECHANISM_FAULT (R314, R315). -/
def State.doorTimeout (s : State) : State :=
  if s.yrd.state = .doorHold ∧ s.yrd.before = .transfer ∧ s.yrd.timedOut = false then
    match s.yrd.job with
    | none => s
    | some j =>
      let s := s.setYrd { s.yrd with last := (j.src, j.dst, 4), timedOut := true, job := some { j with item := none } }
      match j.item with
      | some i => s.endItem 1 i .fault 4 (some (lastWord s.yrd))
      | none => s
  else s

/-- The door stays open beyond DOOR_TIMEOUT (R315). -/
def execDoorTimeout (s : State) : Host.Outcome State Fault Refusal := .next s.doorTimeout

/-- An inventory is asked for: it runs at once when the yarder is free, from FAULT once the axes have homed and the door has
cycled where that is required, and otherwise when the yarder is next free (R314, R316, R322). -/
def State.inventory (s : State) : State :=
  let s := s.setYrd { s.yrd with invDue := true }
  let leaves := s.yrd.state = .fault ∧ s.yrd.cycled ∧ yrdHomed s ∧ s.yrd.holding = false
  if leaves then s.yrdIdle else s.yrdNext

/-- Crew firmware runs an inventory (R316). -/
def execInventory (s : State) : Host.Outcome State Fault Refusal := .next s.inventory

/-- The occupancy that a scan of a unit found takes the place of what the map held of it (R316). -/
def scanned (y : Yrd) (k : Nat) (seen : List Nat) : List Nat :=
  seen.foldl mapSet (y.occupied.filter fun c => placeDeck c ≠ some k)

/-- A unit's scan ends: its places stand as found, and what waits goes on (R316). -/
def State.deckScanned (s : State) (seen : List Nat) : State :=
  match s.yrd.state, s.yrd.scanning with
  | .inventory, some k =>
    let y := s.yrd
    (s.setYrd { y with occupied := scanned y k (seen.filter fun c => placeDeck c = some k)
                       unscanned := y.unscanned.filter (· ≠ k), scanning := none }).yrdIdle
  | _, _ => s

/-- A deck's scan ends; the places seen occupied are those of HEAD_DISC at its shelves (R316). -/
def execDeckScanned (seen : List Nat) (s : State) : Host.Outcome State Fault Refusal := .next (s.deckScanned seen)

/-- The power-up homing starts: G, T, Z, X, without G when HEAD_DISC shows a disc held (R317). -/
def State.yrdPowerUp (s : State) : State :=
  if s.dies[(1 : Die)].safe ∨ s.yrd.state = .transfer ∨ s.yrd.state = .homing ∨ s.yrd.door then s
  else
    let orphan := headDisc s
    let axes := if orphan then [axT, axZ, axX] else [axG, axT, axZ, axX]
    let s := s.setYrd { s.yrd with state := .homing, orphan, holding := orphan, homeLeft := axes, motion := none, job := none }
    s.yrdHome (if orphan then axT else axG)

/-- The yarder homes at power-up (R317). -/
def execYarderPowerUpHoming (s : State) : Host.Outcome State Fault Refusal := .next s.yrdPowerUp

/-- A write of YRD_CTL (R322): what waits starts when ENABLE sets. -/
def State.yrdCtl (s : State) (w : Word) : State :=
  ((s.put yrdA F.YRD_CTL_ENABLE (F.YRD_CTL_ENABLE.of w)).put yrdA F.YRD_CTL_AUTO_INV (F.YRD_CTL_AUTO_INV.of w)).yrdNext

/-- A write of YRD_CTL (R322). -/
def execYrdCtlWrite (value : Word) (s : State) : Host.Outcome State Fault Refusal := .next (s.yrdCtl value)

end Sys2Proof.Machine
end

