-- ==== Sys2Proof/Machine/FieldRegs.lean ====
section
/-! DEFINITION. Registers of the field dies as REG_READ and REG_WRITE words reach them (R19, R251, R609–R614). -/
namespace Sys2Proof.Machine

/-! ## Commits -/

/-- Whether a group's staged set is consistent: every value in its range, and the cross-checks of its rule (R11). -/
def groupOk (s : State) (g : Group) : Bool :=
  match g with
  | .trnSlot d n => trnSlotOk s d n
  | .trnSelector d g => trnSelectorOk s d g
  | .spnMotor b => stagedInRange s (spnA b) .spn g && spnMotorOk s b
  | .spnDrive b => stagedInRange s (spnA b) .spn g && spnDriveOk s b
  | .spnCeil => stagedInRange s ceilA .spn g && spnCeilOk s
  | .axpAxis d n => stagedInRange s (axpA d) .axp g && axpAxisOk s d n
  | .axpGroup d h => stagedInRange s (axpA d) .axp g && axpGroupOk s d h
  | .yrdGeometry => stagedInRange s (dieAt .yrd 1) .yrd g && yrdGeomOk s
  | .lndWindow => stagedInRange s (hubAt .lnd) .lnd g && s.windowOk
  | _ => bayGroupOk s g

/-- A write to a commit register: REJECT and OVERRUN clear by 1, and COMMIT takes the staged set (R8, R11, R12, R112). -/
def State.commitWrite (s : State) (g : Group) (w : Word) : State :=
  let a := groupCommitAt g
  let s := if bitOf w.toNat 1 then s.put a commitReject 0 else s
  let s := if bitOf w.toNat 2 then s.put a commitOverrun 0 else s
  if bitOf w.toNat 0 then s.commitSet g (groupOk s g) else s

/-- The group of a field block whose commit register stands at a distance from the block's base (R614). -/
def commitAt (k : Block) (d : Die) (b : Option Bay) (rel : Nat) : Option Group :=
  match k with
  | .trn =>
    if 0x1000 ≤ rel ∧ rel < 0x1C00 ∧ rel % 0x40 = 0x20 then some (.trnSlot d (Fin.ofNat 48 ((rel - 0x1000) / 0x40)))
    else if 0x100 ≤ rel ∧ rel < 0x200 ∧ rel % 0x20 = 0x10 then some (.trnSelector d (Fin.ofNat 8 ((rel - 0x100) / 0x20)))
    else none
  | .axp =>
    if rel < 0x400 ∧ rel % 0x80 = 0x4C then some (.axpAxis d (Fin.ofNat 8 (rel / 0x80)))
    else if 0x400 ≤ rel ∧ rel < 0x480 ∧ rel % 0x20 = 0x1C then some (.axpGroup d (Fin.ofNat 4 ((rel - 0x400) / 0x20)))
    else none
  | .yrd => if rel = 0x23C then some .yrdGeometry else none
  | .spn => if rel = 0x8C then some .spnCeil else b.bind fun b =>
      if rel = 0x2C then some (.spnMotor b) else if rel = 0x5C then some (.spnDrive b) else none
  | .sfe => b.bind fun b =>
      if rel = 0x1C then some (.sfeLoop b) else if rel = 0x2C then some (.sfeSnag b)
      else if rel = 0x3C then some (.sfeForecast b) else if rel = 0xA0 then some (.sfeTrim b) else none
  | .lat => b.bind fun b =>
      if rel = 0x11C then some (.latChannel b) else if rel = 0x12C then some (.latTarget b)
      else if rel = 0x13C then some (.latTaps b) else none
  | .rcd => b.bind fun b => if rel = 0x3C then some (.recStrategy b) else none
  | .osv => b.bind fun b =>
      if rel = 0x20 then some (.osvServo b) else if rel = 0x2C then some (.osvJump b)
      else if rel = 0xC0 then some (.osvLayer b) else none
  | .cru => b.bind fun b => if rel = 0x1C then some (.cruCruise b) else if rel = 0x5C then some (.cruReadPower b) else none
  | _ => none

/-! ## Finding a register -/

/-- The blocks of a die's field space outside the turn engine's window (R609, R610). -/
def fieldBlocks (d : Die) : List Block :=
  if d = 1 then [.fpw, .fkr, .spn, .axp, .yrd] else [.lat, .fpw, .fkr, .rcd, .spn, .cru, .sfe, .axp, .osv]

/-- Whether the taps window of a bay space is open (R612). -/
def State.tapsOpen (s : State) (d : Die) (bay : Nat) : Bool :=
  d != 1 && s.has (dieAt .fpw d) (if bay = 0 then F.FPW_WINDOW_TAPS0 else F.FPW_WINDOW_TAPS1)

/-- The CEIL registers of an SPN block (R286). -/
def isCeil (rel : Nat) : Bool := (decide (0x80 ≤ rel ∧ rel ≤ 0x94)) || rel == 0x480 || rel == 0x484

/-- The address that holds a block's registers as a bay space reaches them, and whether a register stands there: die
registers are shared, CEIL and VMECH stand on their owning die alone, and some tap words are reserved (R164, R286, R593, R609,
R610, R612). -/
def State.blockAt (s : State) (k : Block) (d : Die) (bay rel : Nat) : Option Nat :=
  match k with
  | .fpw => if (0x10 ≤ rel ∧ rel ≤ 0x18 ∧ d ≠ s.code.ceilDie) ∨ (rel = 0x20 ∧ d = 1) then none else some (dieAt k d)
  | .fkr | .axp | .yrd | .trn => some (dieAt k d)
  | .spn => if isCeil rel then (if d = s.code.ceilDie ∧ bay = 0 then some ceilA else none)
            else if d = 1 then none else some (dieSpace d.val bay + k.base)
  | .lat =>
    let t := rel / 4 % 32
    if rel < 0x10 then some (dieAt k d)
    else if 0x3000 ≤ rel ∧ (t = 15 ∨ (21 ≤ t ∧ t ≤ 23) ∨ 29 ≤ t) then none
    else some (dieSpace d.val bay + k.base)
  | _ => some (dieSpace d.val bay + k.base)

/-- The register at an offset of a bay space: its block, its distance from the block's base, and itself (R609–R612). -/
def State.fieldFind (s : State) (d : Die) (bay off : Nat) : Option (Block × Nat × Loc) :=
  let ks := if off < 0x8000 then fieldBlocks d else if s.tapsOpen d bay then [.lat] else [.trn]
  ks.findSome? fun k =>
    if off < k.base then none
    else
      let rel := off - k.base
      (s.blockAt k d bay rel).bind fun a => (findReg a k.regs rel).map fun l => (k, rel, l)

/-! ## Reads -/

/-- The live words of the FPW registers (R577, R589, R590, R593). -/
def viewFpw (s : State) (d : Die) (rel : Nat) : Option Nat :=
  let x := s.dies[d]
  if rel = 0 then some (x.boot.code * 2 ^ 30 + b2n x.safe * 2 ^ 29 + x.on % 2 ^ (if d = 1 then 8 else 7))
  else if rel = 8 then some (b2n x.crcFail * 2 ^ 30 + b2n x.seqErr * 2 ^ 29)
  else if rel = 0x18 then some (x.vmechMv % 2 ^ 16 * 2 ^ 16 + b2n x.high * 4 + b2n x.low * 2 + b2n (s.vmechValid d))
  else none

/-- The live word of FKR_STATUS (R34). -/
def viewFkr (s : State) (d : Die) (rel : Nat) : Option Nat :=
  let a := dieAt .fkr d
  if rel = 0x20 then
    some (b2n (s.pwr.boot != .held) * 2 ^ 11 + b2n s.dies[d].safe * 2 ^ 10 + s.get a F.FKR_STATUS_ECHO_LOST * 2 ^ 9
      + s.get a F.FKR_STATUS_RETRAINED * 2 ^ 8 + s.ports[d].lanes * 8 + (if s.ports[d].state = .training then 1 else 2))
  else none

/-- A live word of a field block that its fields do not hold. -/
def viewField (s : State) (k : Block) (d : Die) (bay rel : Nat) : Option Nat :=
  let b := bayOf d bay
  match k with
  | .fpw => viewFpw s d rel
  | .fkr => viewFkr s d rel
  | .axp => viewAxp s d rel
  | .yrd => viewYrd s rel
  | .trn => viewTrn s d rel
  | .spn => if isCeil rel then viewCeil s rel else b.bind fun b => viewSpn s b rel
  | .lat => b.bind fun b => viewLat s b rel
  | .rcd => b.bind fun b => viewRec s b rel
  | .cru => b.bind fun b => viewCru s b rel
  | .sfe => b.bind fun b => viewSfe s b rel
  | .osv => b.bind fun b => viewOsv s b rel
  | _ => none

/-- The word at an offset of a die's bay space; an offset without a register reads 0 (R611). -/
def State.fieldRead (s : State) (d : Die) (bay off : Nat) : Nat :=
  if d = 1 ∧ bay ≠ 0 then 0
  else
    match s.fieldFind d bay off with
    | none => 0
    | some (k, rel, l) =>
      match viewField s k d bay rel with
      | some v => v % 2 ^ 32
      | none =>
        let busy := (commitAt k d (bayOf d bay) rel).elim false s.isWaiting
        (s.readWord l).toNat + b2n busy

/-! ## Writes -/

/-- How a die answers a REG_WRITE. -/
inductive RegStatus where
  | good | invalid | notPermitted
  deriving DecidableEq, Repr

/-- The status code in REG_DATA. -/
def RegStatus.code : RegStatus → Nat
  | .good => 0 | .invalid => 1 | .notPermitted => 2

/-- A write of FPW_BOOT.GO checks the load (R590): nothing without a chunk or once the firmware has started. -/
def State.bootGo (s : State) (d : Die) : State :=
  let x := s.dies[d]
  if x.chunks = [] ∨ x.boot = .loaded ∨ x.boot = .running then s
  else
    let a := dieAt .fpw d
    let s := s.bump a F.FPW_CNT_LOADS
    if s.get a F.FPW_BOOT_CRC_CRC = (x.crc ^^^ 0xFFFFFFFF) then s.setDie d { x with boot := .loaded, crcFail := false }
    else
      let n := x.fails + 1
      let s := s.setDie d { x with crcFail := true, fails := n, failed := x.failed || decide (3 ≤ n) }
      if 3 ≤ n ∧ !x.failed then (s.raiseHub 0x0F03 0 d.val).put (hubAt .pwr) F.PWR_STATUS_FIELD_FAILED 1 else s

/-- A write of SPN_CMD (R266, R274, R287). -/
def State.spnCmdWrite (s : State) (b : Bay) (w : Word) : State :=
  let vbr := s.spn[b].vbr
  match F.SPN_CMD_MODE.of w with
  | 0 => s.spnStop b
  | 1 => s.spnRun b (toSigned 16 (F.SPN_CMD_TARGET.of w)) vbr
  | 2 => s.spnIdle b vbr
  | _ => s.spnRefuse b

/-- A write of AXP_An_CMD (R296, R321). -/
def State.axCmdWrite (s : State) (d : Die) (n : Fin 8) (w : Word) : State :=
  if F.AXP_An_CMD_GO.of w = 0 then s
  else
    match F.AXP_An_CMD_OP.of w with
    | 1 => s.axMoveTo d n (axTarget s d n)
    | 2 => s.axStop d n
    | 3 => s.axResume d n
    | 4 => s.axHome d n
    | 5 => s.axClrFault d n
    | _ => s

/-- A write of AXP_GRPg_CMD (R301, R321). -/
def State.grpCmdWrite (s : State) (d : Die) (g : Fin 4) (w : Word) : State :=
  if F.AXP_GRPg_CMD_GO.of w = 0 then s
  else
    match F.AXP_GRPg_CMD_OP.of w with
    | 1 => s.grpMove d g
    | 2 => s.grpStop d g
    | 3 => s.grpResume d g
    | _ => s

/-- A write of TRN_MOVE: REPLACED clears by 1, and GO asks for the manoeuvre of TYPE to the place that TRN_MOVE_TGT holds
(R206, R211, R212). -/
def State.moveRegWrite (s : State) (b : Bay) (w : Word) : State :=
  let a := bayAt .osv b
  let s := if F.TRN_MOVE_REPLACED.of w = 1 then s.put a F.TRN_MOVE_REPLACED 0 else s
  if F.TRN_MOVE_GO.of w = 0 then
    (s.put a F.TRN_MOVE_TYPE (F.TRN_MOVE_TYPE.of w)).put a F.TRN_MOVE_TURNS (F.TRN_MOVE_TURNS.of w)
  else
    let layer : Fin 16 := Fin.ofNat 16 (s.get a F.TRN_MOVE_TGT_LAYER)
    match F.TRN_MOVE_TYPE.of w with
    | 1 => s.moveWrite b .reacquire
    | 2 => s.moveWrite b (.layer layer)
    | 3 => s.moveWrite b (.track (toSigned 16 (F.TRN_MOVE_TURNS.of w)))
    | 4 => s.moveWrite b (.seek layer (s.get a F.TRN_MOVE_TGT_AREA) (s.get a F.TRN_MOVE_TGT_SLOT))
    | _ => s

/-- A write of CRU_CTL: NOW raises the trigger, and clearing ENABLE aborts a run (R324, R336, R337). -/
def State.cruCtlWrite (s : State) (b : Bay) (l : Loc) (w : Word) : State :=
  let was := s.has (bayAt .cru b) F.CRU_CTL_ENABLE
  let s := s.writeWord false l w
  let s := if was ∧ !s.has (bayAt .cru b) F.CRU_CTL_ENABLE then s.cruAbort b else s
  if F.CRU_CTL_NOW.of w = 1 then s.cruRaise b .now else s

/-- A write of REC_OPC (R186). -/
def State.opcWrite (s : State) (b : Bay) (l : Loc) (w : Word) : State :=
  let s := s.writeWord false l w
  if F.REC_OPC_RUN.of w = 1 then s.opcRun b else s

/-- Whether the calibrator owns the staged or commit register at a live address while it is enabled (R336). -/
def State.calibratorOwns (s : State) (b : Option Bay) (live : Nat) : Bool :=
  match b with
  | none => false
  | some b =>
    s.has (bayAt .cru b) F.CRU_CTL_ENABLE &&
      [Group.sfeTrim b, .latTaps b, .osvLayer b, .cruReadPower b].any fun g =>
        inRanges (groupRanges g) (live * 32) || groupCommitAt g == live

/-- A bank word of the turn engine: its slot, bank and offset (R256, R614). -/
def bankOf (rel : Nat) : Option (Fin 48 × Bool × Nat) :=
  if 0x4000 ≤ rel ∧ rel < 0x5800 then some (Fin.ofNat 48 ((rel - 0x4000) / 0x80), false, rel % 0x80)
  else if 0x6000 ≤ rel ∧ rel < 0x7800 then some (Fin.ofNat 48 ((rel - 0x6000) / 0x80), true, rel % 0x80)
  else none

/-- A write of a turn-engine register that acts (R237, R240, R252, R255). -/
def State.trnRegWrite (s : State) (d : Die) (rel : Nat) (l : Loc) (w : Word) : State × RegStatus :=
  match bankOf rel with
  | some (n, bank, o) => match s.bankWrite d n bank o w with | (t, ok) => (t, if ok then .good else .notPermitted)
  | none =>
    if rel = 0 then match s.trnCtl d w with | (t, ok) => (t, if ok then .good else .invalid)
    else if 0x1000 ≤ rel ∧ rel < 0x1C00 ∧ rel % 0x40 = 0x28 then (s.slotCmd d (Fin.ofNat 48 ((rel - 0x1000) / 0x40)) w, .good)
    else (s.writeWord false l w, .good)

/-- A write of a bay's or die's register that acts. -/
def State.actingWrite (s : State) (k : Block) (d : Die) (b : Option Bay) (rel : Nat) (l : Loc) (w : Word) : State :=
  match k, b with
  | .fpw, _ =>
    if rel = 8 then (if F.FPW_BOOT_GO.of w = 1 then s.bootGo d else s)
    else if rel = 4 then (s.writeWord false l w).keepDieOn d
    else s.writeWord false l w
  | .axp, _ =>
    if rel < 0x400 then
      let n : Fin 8 := Fin.ofNat 8 (rel / 0x80)
      if rel % 0x80 = 0 then s.axCtl d n w else if rel % 0x80 = 4 then s.axCmdWrite d n w else s.writeWord false l w
    else if rel < 0x480 ∧ rel % 0x20 = 4 then s.grpCmdWrite d (Fin.ofNat 4 ((rel - 0x400) / 0x20)) w
    else s.writeWord false l w
  | .yrd, _ => if rel = 0 then s.yrdCtl w else s.writeWord false l w
  | .spn, some b =>
    if rel = 0 then s.spnCtlWrite b w else if rel = 4 then s.spnCmdWrite b w
    else if rel = 0x18 then (s.writeWord false l w).ceilRelay b (F.SPN_CEIL_IN_FRAC.of w)
    else s.writeWord false l w
  | .sfe, some b =>
    if rel = 0 then s.sfeCtl b w else if rel = 8 then s.afeWrite b w else if rel = 0x0C then s.velWrite b w
    else if 0xB0 ≤ rel ∧ rel < 0xE8 ∧ (rel - 0xB0) % 8 = 0 then s.spotLoopWrite b (Fin.ofNat 7 ((rel - 0xB0) / 8)) w
    else s.writeWord false l w
  | .rcd, some b =>
    if rel = 0x0C then s.opcWrite b l w
    else if rel = 8 ∧ s.has (bayAt .rcd b) F.REC_CTL_ENABLE then s else s.writeWord false l w
  | .cru, some b => if rel = 0 then s.cruCtlWrite b l w else s.writeWord false l w
  | .osv, some b => if rel = 0 then s.osvCtl b w else if rel = 8 then s.moveRegWrite b w else s.writeWord false l w
  | _, _ => s.writeWord false l w

/-- A REG_WRITE as the die acts on it (R8, R100, R240, R336, R593, R611). -/
def State.fieldWrite (s : State) (d : Die) (bay off : Nat) (w : Word) : State × RegStatus :=
  if d = 1 ∧ bay ≠ 0 then (s, .good)
  else
    match s.fieldFind d bay off with
    | none => (s, .good)
    | some (k, rel, l) =>
      let b := bayOf d bay
      if s.calibratorOwns b (l.base + rel - (if l.shadow then l.reg.shadow else 0)) then (s, .notPermitted)
      else
        match commitAt k d b rel with
        | some g => (s.commitWrite g w, .good)
        | none =>
          if !l.shadow ∧ !l.inRange w then (s, .invalid)
          else if k = .trn then s.trnRegWrite d rel l w
          else (s.actingWrite k d b rel l w, .good)

end Sys2Proof.Machine
end

