-- ==== Sys2Proof/Machine/KerfField.lean ====
section
/-! DEFINITION. What a field die does with the messages it receives (chapters 01 and 20, R23–R26, R35–R39, R589, R659). -/
namespace Sys2Proof.Machine

/-- A field die takes a message out of its port's inbox; an unpowered die does nothing. -/
def State.dieTakes (s : State) (d : Die) (m : Msg) (act : State → State) : State :=
  if s.dies[d].power then act (s.received d .field m) else s

/-- The same, once the die's firmware has started (R589, R590). -/
def State.dieActs (s : State) (d : Die) (m : Msg) (act : State → State) : State :=
  if s.dieRuns d then s.dieTakes d m act else s

/-! ## Heartbeat and safe state (R35–R39) -/

/-- HEARTBEAT: device time, and its echo; the first after a safe state that heartbeat loss brought raises the event (R35, R37,
R42, R598). -/
def State.heartbeat (s : State) (d : Die) (m : Msg) : State :=
  let x := s.dies[d]
  let back := x.safe && !x.resumed && s.has (dieAt .fkr d) F.FKR_STATUS_ECHO_LOST
  let s := s.setDie d { x with time := m.word.toNat, beat := s.clock, resumed := x.resumed || x.safe }
  let s := if back && s.dieRuns d then s.raiseDie d 0x0904 none 0 d.val 0 0 else s
  s.send d .field (echoMsg m.word.toNat x.safe)

/-- HEARTBEAT (R35). -/
def execHeartbeat (d : Die) (m : Msg) (s : State) : Host.Outcome State Fault Refusal :=
  .next (s.dieTakes d m fun t => t.heartbeat d m)

/-- HEARTBEAT_TIMEOUT: no HEARTBEAT for 100 µs (R34–R36). -/
def execHeartbeatTimeout (d : Die) (s : State) : Host.Outcome State Fault Refusal :=
  .next <|
    if s.dies[d].power then
      let s := s.put (dieAt .fkr d) F.FKR_STATUS_ECHO_LOST 1
      { s with dies := s.dies.set d { s.dies[d] with resumed := false } : State }.enterSafe d
    else s

/-- CLOCK_HOLDOVER_END: lane 0 has stopped for 1 ms (R39, R249, R282, R307). -/
def execClockHoldoverEnd (d : Die) (s : State) : Host.Outcome State Fault Refusal :=
  .next (if s.dies[d].power then s.clockLost d else s)

/-- Answer a HALT whose action is complete (R659). -/
def State.haltAnswer (s : State) (d : Die) (a : HaltAction) : State :=
  s.send d .field (haltDoneMsg a s.dies[d].safe)

/-- HALT_SAFE (R36, R37). -/
def execHaltSafe (d : Die) (m : Msg) (s : State) : Host.Outcome State Fault Refusal :=
  .next (s.dieTakes d m fun t => (t.enterSafe d).haltAnswer d .safe)

/-- HALT RELEASE: the die leaves the safe state once heartbeats have resumed, and a loaded die runs (R37, R590). -/
def State.haltRelease (s : State) (d : Die) : State :=
  let x := s.dies[d]
  if x.safe ∧ x.resumed ∧ s.dieRuns d then
    let s := s.release d
    let s := s.setDie d { s.dies[d] with boot := .running, mounted := Vector.replicate 2 false }
    let s := (baysOfDie d).foldl (fun (t : State) b => t.setRec b { t.recp[b] with recorder := t.deviceId }) s
    { s with
      trn := s.trn.set d { s.trn[d] with clkLost := false }
      axp := s.axp.set d { s.axp[d] with dead := false } }
  else s

/-- HALT_RELEASE (R37). -/
def execHaltRelease (d : Die) (m : Msg) (s : State) : Host.Outcome State Fault Refusal :=
  .next (s.dieTakes d m fun t => (t.haltRelease d).haltAnswer d .release)

/-- STOP_BAY: the bays of the mask stop as the safe state stops them, and their open items end (R23, R36, R37). -/
def State.stopBay (s : State) (d : Die) (mask : Nat) : State :=
  ((baysOfDie d).filter fun b => bitOf mask (bayInDie b)).foldl (fun (t : State) b => (t.bayStops b).endBayItems b .fault) s

/-- HALT_STOP_BAY (R23). -/
def execHaltStopBay (d : Die) (m : Msg) (s : State) : Host.Outcome State Fault Refusal :=
  .next (s.dieTakes d m fun t =>
    let mask : Fin 4 := match haltOf m.word with | .stopBay k => k | _ => 0
    (t.stopBay d mask.val).haltAnswer d (.stopBay mask))

/-! ## Reset of a die (R39, R575, R589, R593) -/

/-- Whether an entry of a register store lies in the field space of a die; the die that owns CEIL has its registers too. -/
def State.inDie (s : State) (d : Die) (k : Nat) : Bool :=
  k / 32 / 0x100000 == d.val || (d == s.code.ceilDie && k / 32 / 0x100000 == 1)

/-- Whether a staged group lies in a die. -/
def groupInDie (g : Group) (d : Die) : Bool := groupCommitAt g / 0x100000 == d.val

/-- The functional blocks of a die at reset; what is mechanical stays: the switch inputs, the disc in the gripper, the door, and
the map that crew firmware keeps. -/
def State.blocksReset (s : State) (d : Die) : State :=
  let bays := baysOfDie d
  let clear {α : Type} (v : Vector α 12) (x : α) : Vector α 12 := bays.foldl (fun (w : Vector α 12) (b : Bay) => w.set b x) v
  let s := { s with
    latDie := s.latDie.set d {}
    trn := s.trn.set d {}
    axp := s.axp.set d { sw := s.axp[d].sw.map fun (k : Switch) => { raw := k.raw, level := k.raw } }
    sfe := clear s.sfe {}
    lat := clear s.lat {}
    recp := clear s.recp {}
    osv := clear s.osv {}
    spn := clear s.spn {}
    cru := clear s.cru {}
    ceil := if d = s.code.ceilDie then {} else s.ceil }
  if d = 1 then
    let y := s.yrd
    s.setYrd { occupied := y.occupied, unscanned := y.unscanned, holding := y.holding, door := y.door, contact := y.contact }
  else s

/-- A die resets and waits in its ROM, in the safe state; FPW_CNT.LOADS outlives every reset but that of power-on (R39, R589,
R590, R593). -/
def State.dieReset (s : State) (d : Die) (powerOn : Bool) : State :=
  let x := s.dies[d]
  let loads := s.get (dieAt .fpw d) F.FPW_CNT_LOADS
  let keep : List (Nat × Nat) → List (Nat × Nat) := fun l => l.filter fun e => !s.inDie d e.1
  let s := { s with
    regs := keep s.regs
    staged := keep s.staged
    waiting := keep s.waiting
    groups := s.groups.filter fun g => !groupInDie g d }
  let s := s.blocksReset d
  let y : DieSt := { power := x.power, time := x.time, temp := x.temp, hot := x.hot }
  let s := s.setDie d (if powerOn then y else { y with fails := x.fails, failed := x.failed })
  if powerOn then s else s.put (dieAt .fpw d) F.FPW_CNT_LOADS loads

/-- HALT RESET_DIE: the die's open items end as on entering the safe state, and it resets (R37, R39, R589). -/
def execHaltResetDie (d : Die) (m : Msg) (s : State) : Host.Outcome State Fault Refusal :=
  .next (s.dieTakes d m fun t => ((t.enterSafe d).dieReset d false).haltAnswer d .resetDie)

/-! ## Firmware load (R589) -/

/-- Parts of a die's firmware: TURN and FIELD on a bay die, TURN and YARD on the mechanism die (R589). -/
def partOf (d : Die) (part : Nat) : Bool := part = 4 || part = (if d = 1 then 6 else 5)

/-- A chunk arrives: the one that comes next in its part is stored, any other refused (R589, R590). -/
def State.fwLoad (s : State) (d : Die) (m : Msg) : State :=
  let x := s.dies[d]
  let w := m.word.toNat
  let part := bitsOf w 63 56
  let chunk := bitsOf w 55 40
  let mine := x.chunks.filter fun e => e.1 == part
  if !partOf d part || s.dieRuns d then s
  else if chunk ≠ mine.length ∨ mine.any (fun e => e.2.2.1) then s.setDie d { x with seqErr := true }
  else s.setDie d { x with
    chunks := x.chunks ++ [(part, chunk, bitOf w 39, m.cont)]
    crc := crc32cUpdate x.crc (m.cont.flatMap fun c => leBytes 8 c.toNat)
    boot := .loading }

/-- FW_LOAD (R589). -/
def execFwLoad (d : Die) (m : Msg) (s : State) : Host.Outcome State Fault Refusal :=
  .next (s.dieTakes d m fun t => t.fwLoad d m)

/-! ## Register accesses (R23, R44, R482, R611) -/

/-- REG_READ (R23). -/
def execRegRead (d : Die) (m : Msg) (s : State) : Host.Outcome State Fault Refusal :=
  let w := m.word.toNat
  .next (s.dieTakes d m fun t =>
    t.send d .field (regDataMsg (bitsOf w 46 31) 0 (t.fieldRead d (b2n (bitOf w 47)) (bitsOf w 63 48))))

/-- REG_WRITE (R23). -/
def execRegWrite (d : Die) (m : Msg) (s : State) : Host.Outcome State Fault Refusal :=
  let w := m.word.toNat
  let v : Word := ((m.cont.headD 0).toNat : BitVec 32)
  .next (s.dieTakes d m fun t =>
    let r := t.fieldWrite d (b2n (bitOf w 47)) (bitsOf w 63 48) v
    r.1.send d .field (regDataMsg (bitsOf w 46 31) r.2.code 0))

/-! ## QUEUE_RESET (R24, R40, R659) -/

/-- What a bay or the yarder holds for an item is given up; a log being written runs on (R169). -/
def State.forgetItem (s : State) (d : Die) (i : Nat) : State :=
  let s := (baysOfDie d).foldl (fun (t : State) b =>
    let mine := t.osv[b].mount = some i
    let t := t.setLat b { t.lat[b] with
      logs := t.lat[b].logs.filter fun l => l.item ≠ some i ∧ !(mine && l.system && l.item.isNone)
      mount := if mine then none else t.lat[b].mount }
    let t := t.setOsv b { t.osv[b] with
      mount := if mine then none else t.osv[b].mount
      pending := if (t.osv[b].pending.map (·.owner)) = some (.item i) then none else t.osv[b].pending }
    let t := t.setRec b { t.recp[b] with
      items := t.recp[b].items.filter (·.item ≠ i)
      built := t.recp[b].built.filter (·.item ≠ i) }
    t.setCru b { t.cru[b] with
      items := t.cru[b].items.filter (· ≠ i)
      run := t.cru[b].run.map fun r => { r with items := r.items.filter (· ≠ i) } }) s
  if d = 1 then s.setYrd { s.yrd with waiting := s.yrd.waiting.filter (·.item ≠ some i) } else s

/-- Whether an item runs on through a QUEUE_RESET: a TRANSFER in motion (R24). -/
def DieItem.inMotion (w : DieItem) : Bool := decide (w.kind = .transfer) && w.begun

/-- Whether an item's log is being written (R169). -/
def State.itemWriting (s : State) (d : Die) (w : DieItem) : Bool :=
  match bayOf d w.bay with
  | some b => (match s.recp[b].writing with | some x => x.log.item == w.item | none => false)
  | none => false

/-- A QUEUE_RESET drops the items it names; it is answered when no log in progress is left among them (R659). -/
def State.queueReset (s : State) (d : Die) (m : Msg) : State :=
  let w := m.word.toNat
  let seq := bitsOf w 15 0
  let x := s.dies[d]
  match x.answers.reverse.find? (·.1 = seq) with
  | some (_, word) => s.send d .field { type := 0x06, word, cls := .k0 }
  | none =>
    if x.waitingResets.any (·.seq = seq) then s
    else
      let named := x.items.filter fun (i : DieItem) =>
        if bitOf w 63 then i.item == bitsOf w 62 47 else i.func == bitsOf w 46 41 && i.qid == bitsOf w 40 31
      let drop := named.filter fun i => !i.inMotion && !s.itemWriting d i
      let logs := named.filter fun i => s.itemWriting d i
      let s := drop.foldl (fun (t : State) i => (t.endItem d i.item .dropped).forgetItem d i.item) s
      let r : WaitingReset := { seq, dropped := drop.length, partly := 0, items := logs.map (·.item) }
      (s.setDie d { s.dies[d] with waitingResets := s.dies[d].waitingResets ++ [r] }).answerResets d

/-- QUEUE_RESET (R659). -/
def execQueueReset (d : Die) (m : Msg) (s : State) : Host.Outcome State Fault Refusal :=
  .next (s.dieActs d m fun t => t.queueReset d m)

/-! ## Work items (R24) -/

/-- The header of a WORK message (R24). -/
structure WorkHead where
  kind : Nat
  item : Nat
  cls  : Nat
  bay  : Nat
  func : Nat
  qid  : Nat
  len  : Nat

/-- The fields of a WORK header word. -/
def workHead (w : Word64) : WorkHead :=
  let n := w.toNat
  { kind := bitsOf n 63 56, item := bitsOf n 55 40, cls := bitsOf n 39 38, bay := bitsOf n 37 37, func := bitsOf n 36 31
    qid := bitsOf n 30 21, len := bitsOf n 9 0 }

/-- The continuation word of a WORK message. -/
def msgFirst (m : Msg) : Nat := (m.cont.headD 0).toNat

/-- LEN and die of a kind (R24). -/
def WorkKind.len : WorkKind → Nat
  | .read | .record | .seek | .transfer | .verify => 1
  | .mount | .unmount | .cruise => 0

/-- Whether an area holds a log number: 1,180,000 in the data zone, 512 in the system zone (R65, R67). -/
def logInRange (area log : Nat) : Bool := (area == 0 && decide (log < logsPerLayer)) || (area == 1 && decide (log < 512))

/-- Whether the continuation word of a kind lies in its range (R24, R212, R309). -/
def WorkKind.inRange (k : WorkKind) (c : Nat) : Bool :=
  let log := bitsOf c 63 32
  let area := bitsOf c 27 26
  match k with
  | .read => logInRange area log && bitsOf c 14 0 == 0 && (!bitOf c 15 || area == 1)
  | .verify => logInRange area log && bitsOf c 25 0 == 0
  | .record => logInRange area log && bitsOf c 9 0 == 0
  | .seek => log == 0 && decide (area ≤ 2)
  | .transfer => bitsOf c 37 0 == 0
  | .mount | .unmount | .cruise => true

/-- A die answers a WORK item with REFUSED (R24, R37). -/
def State.workRefused (s : State) (d : Die) (h : WorkHead) : State :=
  s.send d .field (workDoneMsg h.kind h.item WStatus.refused.code 0 h.cls none)

/-- A die receives a WORK item of a kind: refused for a KIND not listed or of the other kind of die, a wrong LEN, a field out
of range, and in the safe state (R24, R37); otherwise open, and acted on. Items of other kinds are other commands'. -/
def State.workTake (s : State) (d : Die) (m : Msg) (k : WorkKind) (act : WorkHead → State → State) : State :=
  let h := workHead m.word
  if (1 ≤ h.kind ∧ h.kind ≤ 8) ∧ h.kind ≠ k.code then s
  else
    s.dieActs d m fun t =>
      let other := (d == 1) != decide (k = .transfer)
      if h.kind ≠ k.code ∨ other ∨ h.len ≠ k.len ∨ m.cont.length ≠ k.len ∨ !k.inRange (msgFirst m) ∨ (d = 1 ∧ h.bay ≠ 0)
          ∨ t.dies[d].safe then t.workRefused d h
      else
        let i : DieItem := { kind := k, item := h.item, cls := h.cls, bay := h.bay, func := h.func, qid := h.qid, cont := msgFirst m }
        act h (t.setDie d { t.dies[d] with items := t.dies[d].items ++ [i] })

/-- Class-0 work on a bay with CLASS0_HOLD = 1 ends a borrowing, the measurement discarded (R337). -/
def State.class0Work (s : State) (b : Bay) (cls : Nat) : State :=
  if cls = 0 ∧ s.has (cruA b) F.CRU_CTL_CLASS0_HOLD then s.cruInterrupt b else s

/-- The same for a bay's item. -/
def State.bayTake (s : State) (d : Die) (m : Msg) (k : WorkKind) (act : Bay → WorkHead → State → State) : State :=
  s.workTake d m k fun h t => match bayOf d h.bay with | some b => act b h (t.class0Work b h.cls) | none => t

/-- A bay starts an item on a layer whose CRU_LAYERS.DONE bit is 0 (R324). -/
def State.layerTrigger (s : State) (b : Bay) (layer : Nat) : State :=
  if bitOf (s.get (cruA b) F.CRU_LAYERS_DONE) layer then s else s.cruRaise b .layer

/-- A log to be read: behind the bay's others, but class 0 before the lower classes (R24, R134). -/
def State.askLog (s : State) (b : Bay) (l : LogAsm) : State :=
  let old := s.lat[b].logs
  let front := old.takeWhile fun x => x.cls == 0 || x.item.isNone
  s.setLat b { s.lat[b] with logs := if l.cls = 0 then front ++ l :: old.drop front.length else old ++ [l] }

/-- The log that a READ or VERIFY item names. -/
def logOfWork (m : Msg) (h : WorkHead) (verify : Bool) : LogAsm :=
  let c := msgFirst m
  { layer := bitsOf c 31 28, area := bitsOf c 27 26, log := bitsOf c 63 32, item := some h.item, missreg := bitsOf c 25 16
    system := bitsOf c 27 26 == 1, verify, cls := h.cls }

/-- WORK_READ (R24, R142). -/
def execWorkRead (d : Die) (m : Msg) (s : State) : Host.Outcome State Fault Refusal :=
  .next (s.bayTake d m .read fun b h t => (t.askLog b (logOfWork m h false)).layerTrigger b (bitsOf (msgFirst m) 31 28))

/-- WORK_VERIFY (R24, R465). -/
def execWorkVerify (d : Die) (m : Msg) (s : State) : Host.Outcome State Fault Refusal :=
  .next (s.bayTake d m .verify fun b h t => (t.askLog b (logOfWork m h true)).layerTrigger b (bitsOf (msgFirst m) 31 28))

/-- A RECORD item waits for its boards; a bay kept from recording refuses it (R24, R165, R182). -/
def State.recordTake (s : State) (b : Bay) (m : Msg) (h : WorkHead) : State :=
  if s.has (recA b) F.REC_CTL_ENABLE then
    let c := msgFirst m
    let r : RecItem := { item := h.item, cls := h.cls, layer := bitsOf c 31 28, area := bitsOf c 27 26, log := bitsOf c 63 32
                         mask := bitsOf c 25 10 }
    (s.setRec b { s.recp[b] with items := s.recp[b].items ++ [r] }).layerTrigger b r.layer
  else s.endItem (dieOfBay b) h.item .refused

/-- WORK_RECORD (R24, R165). -/
def execWorkRecord (d : Die) (m : Msg) (s : State) : Host.Outcome State Fault Refusal :=
  .next (s.bayTake d m .record fun b h t => t.recordTake b m h)

/-- WORK_SEEK (R24, R204). -/
def execWorkSeek (d : Die) (m : Msg) (s : State) : Host.Outcome State Fault Refusal :=
  .next (s.bayTake d m .seek fun b h t =>
    let c := msgFirst m
    (t.layerTrigger b (bitsOf c 31 28)).moveRequest b
      { move := .seek (bitsOf c 31 28) (bitsOf c 27 26) (bitsOf c 25 0), owner := .item h.item })

/-- A mount begins: the spindle starts towards 12,000 rpm, and the focus sweep that follows counts the surfaces (R194, R197,
R318); a low mechanism supply or a drive that takes no start ends it (R275, R578). -/
def State.mountWork (s : State) (b : Bay) (i : Nat) : State :=
  let d := dieOfBay b
  if vmechLow s then s.endItem d i .unpowered
  else if spnBarred s b then s.endItem d i .fault ((s.spn[b].fault.map SpnFault.code).getD 0)
  else
    let s := s.setMounted b false
    let s := (s.put (osvA b) F.TRN_OSV_CTL_FOC_EN 0).put (osvA b) F.TRN_OSV_CTL_TRK_EN 0
    let s := s.osvOff b
    let s := s.setOsv b { s.osv[b] with mount := some i, counting := true, landing := List.replicate 64 none }
    let s := s.setRec b { s.recp[b] with barkOk := false, opc := [] }
    let s := s.setSpn b { s.spn[b] with starter := some i }
    s.spnRun b 12000 s.spn[b].vbr

/-- WORK_MOUNT (R24, R318). -/
def execWorkMount (d : Die) (m : Msg) (s : State) : Host.Outcome State Fault Refusal :=
  .next (s.bayTake d m .mount fun b h t => t.mountWork b h.item)

/-! ## UNMOUNT (R24, R273) -/

/-- The UNMOUNT under way ends once the spindle stands. -/
def State.unmountOver (s : State) (b : Bay) : State :=
  let d := dieOfBay b
  match s.dies[d].items.find? fun (w : DieItem) => w.bay == bayInDie b && decide (w.kind = .unmount) && w.begun with
  | some w => if s.spn[b].state = .stopped then s.endItem d w.item .done else s
  | none => s

/-- An UNMOUNT takes its turn after the bay's earlier items: the loops go off, the disc counts as unmounted, and the spindle
makes its stop. -/
def State.unmountTake (s : State) (b : Bay) : State :=
  let d := dieOfBay b
  match s.dies[d].items.find? fun (w : DieItem) => w.bay == bayInDie b with
  | some w =>
    if w.kind = .unmount ∧ !w.begun then
      let s := s.itemBegun d (some w.item)
      let s := (s.cruAbort b).recClear b
      let s := (s.put (osvA b) F.TRN_OSV_CTL_FOC_EN 0).put (osvA b) F.TRN_OSV_CTL_TRK_EN 0
      let s := ((s.osvOff b).sfeHold b).latHold b
      let s := s.setOsv b { s.osv[b] with landing := List.replicate 64 none }
      ((s.setMounted b false).spnStop b).unmountOver b
    else s
  | none => s

/-- WORK_UNMOUNT (R24, R273). -/
def execWorkUnmount (d : Die) (m : Msg) (s : State) : Host.Outcome State Fault Refusal :=
  .next (s.bayTake d m .unmount fun b _ t => t.unmountTake b)

/-- A PWM period (R260–R266, R269–R274, R278–R280), in which an UNMOUNT may take its turn. -/
def execPwmPeriod (b : Bay) (shunts : Vector Int 3) (vbr : Nat) (cross : Option Nat) (s : State) :
    Host.Outcome State Fault Refusal := .next ((s.pwmPeriod b shunts vbr cross).unmountTake b)

/-- The end of SHORT (R273), which ends an UNMOUNT. -/
def execShortEnd (b : Bay) (vbr : Nat) (s : State) : Host.Outcome State Fault Refusal :=
  .next ((s.shortEnd b vbr).unmountOver b)

/-! ## TRANSFER and CRUISE -/

/-- WORK_TRANSFER: it waits for the yarder; a low mechanism supply ends it (R313, R578). -/
def execWorkTransfer (d : Die) (m : Msg) (s : State) : Host.Outcome State Fault Refusal :=
  .next (s.workTake d m .transfer fun h t =>
    if vmechLow t then t.endItem d h.item .unpowered
    else
      let c := msgFirst m
      let j : TransferJob := { src := bitsOf c 63 51, dst := bitsOf c 50 38, item := some h.item }
      (t.setYrd { t.yrd with waiting := t.yrd.waiting ++ [j] }).yrdNext)

/-- WORK_CRUISE: the trigger NOW, and the item ends with its run (R324, R340). -/
def execWorkCruise (d : Die) (m : Msg) (s : State) : Host.Outcome State Fault Refusal :=
  .next (s.bayTake d m .cruise fun b h t =>
    (t.setCru b { t.cru[b] with items := t.cru[b].items ++ [h.item] }).cruRaise b .now)

/-! ## RECORD_DATA (R26) -/

/-- A board of an open RECORD item arrives, or is refused (R26, R28). -/
def State.recordData (s : State) (d : Die) (m : Msg) : State :=
  let w := m.word.toNat
  let item := bitsOf w 31 16
  let index := bitsOf w 15 12
  match bayOf d (bitsOf w 11 11) with
  | none => s.refusedAtDie d 0x28 m.word m.cls
  | some b =>
    match s.recp[b].items.find? (·.item = item) with
    | none => s.refusedAtDie d 0x28 m.word m.cls
    | some r =>
      if !bitOf r.mask index || r.boards.any (·.1 = index) then s.refusedAtDie d 0x28 m.word m.cls
      else
        let bs := m.cont.flatMap fun c => leBytes 8 c.toNat
        s.setRec b { s.recp[b] with items := s.recp[b].items.map fun x =>
          if x.item = item then { x with boards := x.boards ++ [(index, bs)] } else x }

/-- RECORD_DATA (R26). -/
def execRecordData (d : Die) (m : Msg) (s : State) : Host.Outcome State Fault Refusal :=
  .next (s.dieActs d m fun t => t.recordData d m)

end Sys2Proof.Machine
end

