-- ==== Sys2Proof/Machine/KerfLink.lean ====
section
/-! DEFINITION. The commands of the kerf links (chapter 01, R20–R35, R38, R576, R659). -/
namespace Sys2Proof.Machine

/-- FLIT_RECEIVE: a flit of a number arrives at an end; `cls` is the class of a header of a data type (R20, R23, R27). -/
def execFlitReceive (d : Die) (at_ : Side) (num : Nat) (flit : Flit) (cls : KClass) (s : State) :
    Host.Outcome State Fault Refusal := .next (s.flitIn d at_ num flit cls)

/-- The first link word of a type leaves an end's inbox. -/
def State.linkWordTaken (s : State) (d : Die) (x : Side) (type : Nat) : State :=
  match (s.ports[d].rx x).inbox.find? (·.type = type) with
  | some m => s.received d x m
  | none => s

/-- LINK_NAK_RECEIVED: the last good flit of the other end is `named` (R29). -/
def execLinkNakReceived (d : Die) (at_ : Side) (named : Nat) (s : State) : Host.Outcome State Fault Refusal :=
  .next (if s.ports[d].state = .up then (s.linkWordTaken d at_ 0x07).nakSeen d at_ named else s)

/-- CREDIT_RECEIVED: the flits up to `ack` are acknowledged, and K1–K5 gain units of 8 words (R29, R30). -/
def execCreditReceived (d : Die) (at_ : Side) (ack : Nat) (units : Vector Nat 5) (s : State) : Host.Outcome State Fault Refusal :=
  .next (if s.ports[d].state = .up then (s.linkWordTaken d at_ 0x08).creditSeen d at_ ack units else s)

/-- CONTINUATION_TIMEOUT (R27). -/
def execContinuationTimeout (d : Die) (at_ : Side) (k : KClass) (s : State) : Host.Outcome State Fault Refusal :=
  .next (s.contTimeout d at_ k)

/-- Lanes with which a port may come back: one on port 1, four, two or one on the others (R20, R29). -/
def lanesOk (d : Die) (lanes : Nat) : Bool := lanes = 1 || (d != 1 && (lanes = 2 || lanes = 4))

/-- The port is UP with its lanes: the die takes its clock from the link again; a retrain shows in RETRAINED at both ends and
raises its event (R29, R33, R34, R39, R598). -/
def State.portUp (s : State) (d : Die) (lanes : Nat) : State :=
  let p := s.ports[d]
  let again := p.lanes != 0
  let s := s.setPort d { p with state := .up, lanes, failed := 0, echo := s.clock }
  let s := s.setDie d { s.dies[d] with clkLost := false, beat := s.clock }
  let s := s.epEvt 5
  if again then
    ((s.put (hubAt .krf) F.KRF_STATUS_RETRAINED 1 d.val).put (dieAt .fkr d) F.FKR_STATUS_RETRAINED 1).raiseHub 0x0902 0 d.val
  else s

/-- A port with a transmitter at its lane 0 trains (R33, R588). -/
def State.trainPort (s : State) (d : Die) : State := (s.setPort d { s.ports[d] with state := .training }).epEvt 5

/-- FLIT_SLOT_TRANSMIT: one flit slot of an end of an UP port (R22, R29, R30). -/
def execFlitSlotTransmit (d : Die) (from_ : Side) (s : State) : Host.Outcome State Fault Refusal :=
  .next (if s.ports[d].state = .up then s.flitSlot d from_ else s)

/-- HEARTBEAT_SEND: a HEARTBEAT on every UP port; its time is taken when its flit is sent (R23, R35). -/
def execHeartbeatSend (s : State) : Host.Outcome State Fault Refusal :=
  .next ((List.finRange 8).foldl (fun (t : State) (d : Die) =>
    if t.ports[d].state = .up then (t.setPort d { t.ports[d] with beat := t.now }).send d .hub (beatMsg t.now) else t) s)

/-- HEARTBEAT_ECHO: the hub takes the die's safe state from the echo (R33, R35). -/
def execHeartbeatEcho (d : Die) (m : Msg) (s : State) : Host.Outcome State Fault Refusal :=
  let s := s.received d .hub m
  .next (s.setPort d { s.ports[d] with safe := bitOf m.word.toNat 0, echo := s.clock }).settle

/-- ECHO_LOST: no echo for 100 µs (R35). -/
def execEchoLost (d : Die) (s : State) : Host.Outcome State Fault Refusal :=
  .next <|
    if s.ports[d].state = .up then
      ((s.put (hubAt .krf) F.KRF_STATUS_ECHO_LOST 1 d.val).setPort d { s.ports[d] with safe := true }).portDown d
    else s

/-- PORT_DOWN: the hub sees a port go DOWN, with or without a transmitter at its lane 0 (R33, R38). -/
def execPortDown (d : Die) (signal : Bool) (s : State) : Host.Outcome State Fault Refusal :=
  .next ((s.setPort d { s.ports[d] with signal }).portDown d)

/-- SIGNAL_RISE: a die's supply is good and its transmitter appears; the port trains while the hub runs (R33, R575, R576,
R638). -/
def execSignalRise (d : Die) (s : State) : Host.Outcome State Fault Refusal :=
  let p := s.ports[d]
  .next <|
    if !s.hasDie d.val || d == 0 || p.state ≠ .down || s.dies[d].hot then s
    else
      let s := (s.setDie d { s.dies[d] with power := true }).setPort d { p with signal := true }
      if s.pwr.boot = .held ∨ s.pwr.boot = .rom then s else s.trainPort d

/-- Send a message again that has had no answer, or give the port up after three sends (R659). -/
def State.sendAgain (s : State) (d : Die) (a : Awaiting) (keep : Port → Awaiting → Port) : State :=
  if a.sends < 3 then (s.setPort d (keep s.ports[d] { a with sends := a.sends + 1 })).send d .hub a.msg
  else s.portDown d

/-- HALT_RESEND: the oldest HALT without an answer (R659). -/
def execHaltResend (d : Die) (s : State) : Host.Outcome State Fault Refusal :=
  .next <|
    match s.ports[d].halts with
    | [] => s
    | a :: rest => s.sendAgain d a fun p x => { p with halts := x :: rest }

/-- QUEUE_RESET_RESEND: the oldest QUEUE_RESET without an answer (R659). -/
def execQueueResetResend (d : Die) (s : State) : Host.Outcome State Fault Refusal :=
  .next <|
    match s.ports[d].resets with
    | [] => s
    | a :: rest => s.sendAgain d a fun p x => { p with resets := x :: rest }

/-- TXCTL_PUSH: a write of KRF_Pn_TXCTL (R31). -/
def execTxctlPush (d : Die) (w : Word) (s : State) : Host.Outcome State Fault Refusal := .next (s.txctlWrite d w)

/-- RXCTL_POP: a write of KRF_Pn_RXCTL (R32). -/
def execRxctlPop (d : Die) (w : Word) (s : State) : Host.Outcome State Fault Refusal := .next (s.rxctlWrite d w)

end Sys2Proof.Machine
end

