-- ==== Sys2Proof/Machine/PageOps.lean ====
section
/-! DEFINITION. What management commands report (R474, R483–R487, R569, R570): bay records, log pages and features. -/
namespace Sys2Proof.Machine

/-! ## The record of a bay (R474) -/

/-- A word of a bay's registers as crew firmware reads it; a die that cannot be reached reads 0. -/
def State.bayWord (s : State) (b : Bay) (off : Nat) : Nat :=
  if s.ports[dieOfBay b].state = .up then s.fieldRead (dieOfBay b) (bayInDie b) off else 0

/-- The state of a bay (R474). -/
def State.bayState (s : State) (b : Bay) : Nat :=
  let x := s.crew.bays[b]
  let kinds := (s.bayItems b).map fun (i : HubItem) => i.kind
  let blocked := s.dieBlocked (dieOfBay b)
  if blocked = some stUnpowered then 7
  else if blocked.isSome ∨ bitsOf (s.bayWord b 0x0A08) 27 24 ≠ 0 ∨ bitsOf (s.bayWord b 0x7804) 27 25 = 6 then 6
  else
    match x.task, x.disc with
    | .mounting, _ => 1
    | .unmounting, _ => 5
    | .idle, none => 0
    | .idle, some d =>
      if kinds.contains 2 then 4 else if !kinds.isEmpty then 3 else if d.mounted then 2 else 8

/-- The 64-byte record of a bay (R474). -/
def State.bayRecord (s : State) (b : Bay) : Bytes :=
  let d := s.crew.bays[b].disc
  let num : (BayDisc → Nat) → Nat := fun f => match d with | some d => f d | none => 0
  leBytes 2 (match d with | some d => d.slot | none => 0xFFFF) ++ leBytes 1 (s.bayState b)
    ++ leBytes 1 (bitsOf (s.bayWord b 0x7804) 31 28) ++ leBytes 2 (bitsOf (s.bayWord b 0x0A0C) 31 16)
    ++ leBytes 1 (bitsOf (s.bayWord b 0x1130) 29 24) ++ leBytes 1 (bitsOf (s.bayWord b 0x0100) 14 8)
    ++ leBytes 8 (num BayDisc.serial) ++ leBytes 4 (bitsOf (s.bayWord b 0x7834) 31 16)
    ++ leBytes 2 (ofSigned 16 (toSigned 12 (s.bayWord b 0x211C % 4096))) ++ leBytes 2 (s.bayItems b).length
    ++ leBytes 4 (num (·.logs)) ++ leBytes 4 (num (·.fails)) ++ leBytes 4 (num (·.passes)) ++ List.replicate 28 0

/-! ## Log pages -/

/-- The 32 bytes of an error-history entry (R485). -/
def ErrEntry.bytes (e : ErrEntry) : Bytes :=
  leBytes 8 e.time ++ leBytes 1 e.func ++ leBytes 1 e.opcode ++ leBytes 2 e.qid ++ leBytes 2 e.tag ++ leBytes 2 e.status
    ++ leBytes 4 e.result ++ leBytes 4 e.sqHead ++ leBytes 8 e.addr

/-- The 32 bytes of an events entry (R594). -/
def EventEntry.bytes (e : EventEntry) : Bytes :=
  leBytes 8 e.time ++ leBytes 1 e.die ++ leBytes 1 e.bay ++ leBytes 2 e.code ++ leBytes 2 e.sub ++ leBytes 2 e.unit
    ++ leBytes 8 e.v1 ++ leBytes 4 e.v2 ++ leBytes 4 e.rep

/-- The 32 bytes of a firmware history entry (R570). -/
def FwHistory.bytes (e : FwHistory) : Bytes :=
  leBytes 8 e.time ++ leBytes 1 e.result ++ leBytes 1 e.reason ++ leBytes 2 e.index ++ leBytes 8 e.ver ++ leBytes 4 e.lost
    ++ List.replicate 8 0

/-- Words of hub registers as bytes. -/
def State.hubBytes (s : State) (k : Block) (l : List Nat) : Bytes := l.flatMap fun o => leBytes 4 (s.hubWord k o)

/-- Offsets of n words. -/
def wordsFrom (o n : Nat) : List Nat := (List.range n).map fun i => o + 4 * i

/-- The parts of a bank's tally, entries 0–7 (R553, R569). -/
def State.partList (s : State) (b : Fin 2) : Bytes :=
  (List.range 8).flatMap fun i =>
    let e := s.flash (bankAt b + 64 + 64 * i) 16
    e.take 1 ++ List.replicate 3 0 ++ (e.drop 4).take 4 ++ (e.drop 12).take 4 ++ List.replicate 4 0

/-- Whether the other bank is LOADED. -/
def State.altLoaded (s : State) : Bool := decide ((s.fwu.banks[s.altBank]).st = .loaded)

/-- The body of the firmware page (R569). -/
def State.firmwareBody (s : State) : Bytes :=
  let zero := List.replicate 128 (0 : Byte)
  s.hubBytes .fwu [0] ++ leBytes 8 s.runVer ++ leBytes 8 s.altVer
    ++ leBytes 4 (if s.fwu.run = .recovery then 0 else fieldAt (s.flash (bankAt s.fwu.bank) 32) 28 4)
    ++ leBytes 4 s.fwu.svnFloor ++ leBytes 8 (match s.fwu.sched with | some x => x.time | none => 0)
    ++ leBytes 2 s.fwWindow ++ leBytes 2 s.windowLeft ++ leBytes 4 s.journal.seq
    ++ leBytes 4 (s.get (hubAt .fwu) F.FWU_SETTINGS_SCHEMA) ++ List.replicate 16 0
    ++ (if s.fwu.run = .recovery then zero else s.partList s.fwu.bank) ++ (if s.altLoaded then s.partList s.altBank else zero)
    ++ List.replicate 176 0 ++ s.fwu.history.flatMap FwHistory.bytes

/-- The place byte of a place code (R484). -/
def State.placeByte (s : State) (p : Nat) : Nat :=
  let y := s.yrd
  let away := (List.finRange 12).any fun b => match s.crew.bays[b].disc with | some d => d.slot == p | none => false
  let moving := y.holding && (match y.job with | some j => j.src == p | none => false)
  let scan := match placeDeck p with | some k => y.unscanned.contains k | none => false
  if p < 4096 ∧ s.slots ≤ p then 0xFF
  else if 4096 ≤ p ∧ p < 4112 then
    (if !s.hasBay (p - 4096) then 0xFF
     else if (s.crew.bays[(Fin.ofNat 12 (p - 4096) : Bay)]).disc.isSome then 1 else 0)
  else if 4112 ≤ p ∧ !s.code.changer then 0xFF
  else if away ∨ moving then 2
  else if scan then 3
  else b2n (y.occupied.contains p)

/-- The body of a log page as a function reads it (R484). -/
def State.pageBody (s : State) (lid f : Nat) : Bytes :=
  match lid with
  | 1 => (s.qen.history.filter fun (e : ErrEntry) => f == 0 || e.func == f).flatMap ErrEntry.bytes
  | 2 => s.pwr.events.flatMap EventEntry.bytes
  | 3 => s.hubBytes .miu [0x10, 0x14, 0x18, 0x1C, 0x20, 8, 0x50] ++ leBytes 4 0 ++ s.hubBytes .miu (wordsFrom 0x100 64)
  | 4 => (List.finRange 12).flatMap fun b =>
      ([0x1130, 0x1120] ++ wordsFrom 0x1160 7 ++ [0x1104, 0x1124, 0x112C]).flatMap fun o => leBytes 4 (s.bayWord b o)
  | 5 => (List.finRange 12).flatMap s.bayRecord
  | 6 => s.hubBytes .lnd ([4, 0x70, 0x74, 0x80, 0x84] ++ wordsFrom 0x88 4 ++ [0x14, 0x30])
  | 7 => (List.range 7).flatMap fun i => s.hubBytes .krf [0x1000 * (i + 1) + 0x20, 0x1000 * (i + 1) + 0x24]
  | 8 => s.firmwareBody
  | 9 => s.hubBytes .vlk (wordsFrom 0x80 32)
  | 10 => (List.range 4120).flatMap fun p => leBytes 1 (s.placeByte p)
  | _ => []

/-- SEQ of a page, advanced when the page differs from its last snapshot (R483). -/
def State.pageSeqNow (s : State) (lid f : Nat) : State × Nat :=
  let body := s.pageBody lid f
  let seq := (assocGet s.pwr.pageSeq lid).getD 0
  let key := 64 * lid + f
  let changed := match assocGet s.pwr.pageLast key with
    | some (n, old) => n == seq && old != body
    | none => false
  let seq := if changed then (seq + 1) % 2 ^ 32 else seq
  ({ s with pwr := { s.pwr with
    pageSeq := if changed then assocPut s.pwr.pageSeq lid seq else s.pwr.pageSeq
    pageLast := assocPut s.pwr.pageLast key (seq, body) } }, seq)

/-- The snapshot of a page: header and body, padded to its length (R483, R484). -/
def State.pageBytes (s : State) (lid f : Nat) : State × Bytes :=
  let len := match pageLength lid with | some (n, _) => n | none => 0
  let body := s.pageBody lid f
  let (s, seq) := s.pageSeqNow lid f
  let head := leBytes 1 lid ++ List.replicate 3 0 ++ leBytes 4 seq ++ leBytes 8 s.now
  (s, (head ++ body ++ List.replicate (len - 16 - body.length) 0).take len)

/-! ## Features (R486, R487) -/

/-- The value of a feature. -/
def State.feature (s : State) (fid f : Nat) : Nat :=
  let x := s.fn f
  match fid with
  | 1 => x.floor * 2 ^ 16 + x.pairs
  | 2 => x.quota
  | 3 => x.coalUs * 2 ^ 8 + x.coalN
  | 4 => s.hubWord .qen 0
  | 5 => s.get (hubAt .vlk) F.VLK_CTL_REBUILD_EN
  | 6 => s.pwr.idleBack * 2 ^ 16 + s.pwr.idleSpin
  | _ => 0

/-- Pairs granted over all functions, with function f's replaced. -/
def State.pairsWith (s : State) (f n : Nat) : Nat :=
  (List.range 64).foldl (fun t g => t + (if g = f then n else (s.fn g).pairs)) 0

/-- Whether a grant would strand an existing queue (R487). -/
def State.strands (s : State) (f pairs floor : Nat) : Bool :=
  s.qen.queues.any fun (x : Queue) => x.func == f && x.qid != 0 && (decide (pairs < x.qid) || decide (x.cls < floor))

/-- Why a feature is not set (R487). -/
def State.featureRefused (s : State) (fid f v : Nat) : Option Nat :=
  if fid ≠ 1 then none
  else if 512 < s.pairsWith f (v % 1024) then some stInvalidField
  else if s.strands f (v % 1024) (bitsOf v 17 16) then some stNotPermitted
  else none

/-- Set a feature. -/
def State.setFeature (s : State) (fid f v : Nat) : State :=
  let x := s.fn f
  match fid with
  | 1 => s.setFn f { x with pairs := v % 1024, floor := bitsOf v 17 16 }
  | 2 => s.setFn f { x with quota := v }
  | 3 => s.setFn f { x with coalN := v % 256, coalUs := bitsOf v 15 8 }
  | 4 =>
    let a := hubAt .qen
    ((s.put a F.QEN_WEIGHTS_W1 (bitsOf v 17 12)).put a F.QEN_WEIGHTS_W2 (bitsOf v 11 6)).put a F.QEN_WEIGHTS_W3 (v % 64)
  | 5 => s.put (hubAt .vlk) F.VLK_CTL_REBUILD_EN v
  | 6 => { s with pwr := { s.pwr with idleSpin := v % 2 ^ 16, idleBack := v / 2 ^ 16 } }
  | _ => s

end Sys2Proof.Machine
end

