-- ==== Sys2Proof/Machine/KerfHub.lean ====
section
/-! DEFINITION. What the hub does with the messages of its field dies (chapters 01, 11, 13, 15, 20 and 21). -/
namespace Sys2Proof.Machine

/-! ## Loading a die's firmware (R576, R588–R590) -/

/-- Send a HALT and await its HALT_DONE (R23, R659). -/
def State.sendHalt (s : State) (d : Die) (a : HaltAction) : State :=
  let p := s.ports[d]
  (s.setPort d { p with halts := p.halts ++ [{ msg := haltMsg a, sends := 1 }] }).send d .hub (haltMsg a)

/-- OFFSET and LENGTH of a part of a bank's bundle (R552, R553). -/
def State.tallyPart (s : State) (b : Fin 2) (type : Nat) : Option (Nat × Nat) :=
  let n := min 16 (fieldAt (s.flash (bankAt b) 8) 6 2)
  ((List.range n).map fun i => s.flash (bankAt b + 64 + 64 * i) 16).findSome? fun e =>
    if fieldAt e 0 1 = type then some (fieldAt e 8 4, fieldAt e 12 4) else none

/-- The words of a byte string, the last filled up with zeros. -/
def wordsOf (bs : Bytes) : List Word64 :=
  (List.range ((bs.length + 7) / 8)).map fun i => BitVec.ofNat 64 (fieldAt bs (8 * i) 8)

/-- The FW_LOAD messages of a part, 4,096 bytes to a chunk (R589). -/
def loadMsgs (part : Nat) (bs : Bytes) : List Msg :=
  let n := (bs.length + 4095) / 4096
  (List.range n).map fun k =>
    let ws := wordsOf ((bs.drop (4096 * k)).take 4096)
    { type := 0x14, word := BitVec.ofNat 64 (part * 2 ^ 56 + k % 65536 * 2 ^ 40 + b2n (k + 1 == n) * 2 ^ 39 + ws.length)
      cont := ws, cls := .k1 }

/-- The load of a die from the running bank (R589, R590): its parts, the CRC of what was sent, GO, and a look at STATE. -/
def State.loadDie (s : State) (d : Die) : State :=
  let part : Nat → List Msg := fun t =>
    match s.tallyPart s.fwu.bank t with
    | some (o, n) => loadMsgs t (s.flash (bankAt s.fwu.bank + o) n)
    | none => []
  let ms := part 4 ++ part (if d = 1 then 6 else 5)
  let crc := crc32c (ms.flatMap fun m => m.cont.flatMap fun w => leBytes 8 w.toNat)
  let l := ms ++ [regWriteMsg 0x60C 0 0xFFFD (BitVec.ofNat 32 crc), regWriteMsg 0x608 0 0xFFFE (BitVec.ofNat 32 (2 ^ 31)),
    regReadMsg 0x600 0 0xFFFF]
  l.foldl (fun (t : State) m => t.send d .hub m) s

/-- Whether the hub loads field dies now: STUMP2 or the crew runs, and not in recovery (R566, R588). -/
def State.loadsDies (s : State) : Bool :=
  (decide (s.pwr.boot = .stump2) || decide (s.pwr.boot = .ready)) && s.fwu.run != .recovery

/-- Crew firmware takes up a die whose port has come UP: reset, load, configuration and release follow (R39, R576). -/
def State.takeUpDie (s : State) (d : Die) : State :=
  if s.loadsDies && !s.dies[d].failed then s.sendHalt d .resetDie else s

/-- The writes that bring the yarder geometry of the settings slot in use back to the mechanism die (R567, R576). -/
def State.geometryMsgs (s : State) : List Msg :=
  match s.fwu.settings[s.fwu.slot] with
  | none => []
  | some x =>
    if x.geometry = [] then []
    else
      let ofs := ((List.range 4).map (0x20 + 4 * ·)) ++ (List.range 72).map (0x100 + 4 * ·)
      (ofs.filterMap fun o => (findReg (dieAt .yrd 1) Block.yrd.regs o).map fun l =>
          regWriteMsg (Block.yrd.base + o + l.reg.shadow) 0 0xFFFB (wordIn x.geometry l))
        ++ [regWriteMsg (Block.yrd.base + 0x23C) 0 0xFFFB 1]

/-- The writes that let the bays of a die record: REC_CTL as after reset, with ENABLE (R182, R189). -/
def recordMsgs : List Msg :=
  [0, 1].map fun bay => regWriteMsg Block.rcd.base bay 0xFFFB (BitVec.ofNat 32 (2 * 2 ^ 16 + 2 ^ 15 + 2 ^ 14 + 40 * 2 ^ 6 + 25))

/-- The answer to the look at STATE: a loaded die is configured and released, any other is reloaded until it has failed
(R189, R567, R576, R590). -/
def State.loadEnded (s : State) (d : Die) (value : Nat) : State :=
  if bitsOf value 31 30 = 2 then
    ((if d = 1 then s.geometryMsgs else recordMsgs).foldl (fun (t : State) m => t.send d .hub m) s).sendHalt d .release
  else if s.dies[d].failed then s
  else s.takeUpDie d

/-- PORT_RETRAIN_END: a training ends with lanes, or fails with none; the second failure in succession takes the port DOWN; a
die whose port was DOWN is taken up (R29, R576). -/
def execPortRetrainEnd (d : Die) (lanes : Nat) (s : State) : Host.Outcome State Fault Refusal :=
  let p := s.ports[d]
  .next <|
    if p.state ≠ .training then s
    else if lanes = 0 then
      if p.failed = 0 then s.setPort d { p with failed := 1 } else s.portDown d
    else if lanesOk d lanes then
      let s := s.portUp d lanes
      if p.lanes = 0 then s.takeUpDie d else s
    else s

/-- HALT_DONE: a halt's action has completed, and a die that has been reset is loaded (R23, R39, R589, R659). -/
def execHaltDone (d : Die) (m : Msg) (s : State) : Host.Outcome State Fault Refusal :=
  let s := s.received d .hub m
  let p := s.ports[d]
  .next <|
    match p.halts.find? fun (a : Awaiting) => decide (haltOf a.msg.word = haltOf m.word) with
    | none => s
    | some a =>
      let s := s.setPort d { p with halts := p.halts.erase a, safe := bitOf m.word.toNat 0 }
      if haltOf m.word = .resetDie ∧ s.loadsDies then s.loadDie d else s.settle

/-- QUEUE_RESET_DONE: its counts serve the cut that waits for it (R40, R444–R446, R659). -/
def execQueueResetDone (d : Die) (m : Msg) (s : State) : Host.Outcome State Fault Refusal :=
  let w := m.word.toNat
  .next (((s.received d .hub m).resetAnswered d (bitsOf w 63 48) (bitsOf w 31 16))).settle

/-! ## FIELD REGISTER READ and WRITE (R3, R38, R482, R611) -/

/-- Words of a FIELD REGISTER command, its die, and the request number of its words. -/
def Cmd.regDie (c : Cmd) : Die := Fin.ofNat 8 (c.word 7)
def Cmd.regReq (c : Cmd) : Nat := c.id % 32768

/-- Value j of a write. -/
def Cmd.regValue (c : Cmd) (j : Nat) : Word :=
  if bitOf (c.word 7) 9 then BitVec.ofNat 32 (c.word 8) else BitVec.ofNat 32 (fieldAt c.data (4 * j) 4)

/-- Send the next word of a FIELD REGISTER command, or complete it: an absent die reads 0 and ignores writes (R3, R482). -/
def State.regsStep (s : State) (id : Nat) : State :=
  match s.cmd id with
  | none => s
  | some c =>
    match c.wait with
    | .regs next _ =>
      let d := c.regDie
      let read := c.opcode = 0x98
      let off := bitsOf (c.word 7) 31 16 + 4 * next
      let bay := bitsOf (c.word 7) 8 8
      if c.count ≤ next then s.finish c stSuccess (if read then c.n1 else 0)
      else if !s.hasDie d.val then
        (if read then s.hostWrite c.func c.buffer (List.replicate (4 * c.count) 0) true else s).finish c stSuccess 0
      else if s.ports[d].state ≠ .up then s.finish c (if s.ports[d].signal then stFault else stUnpowered) 0
      else
        let c := { c with wait := .regs next c.regReq }
        (s.setCmd c).send d .hub (if read then regReadMsg off bay c.regReq else regWriteMsg off bay c.regReq (c.regValue next))
    | _ => s

/-- Crew firmware keeps an accepted yarder geometry in the settings slot in use (R567). -/
def State.saveGeometry (s : State) : State :=
  let r := groupRanges .yrdGeometry
  let store := if s.isWaiting .yrdGeometry then s.waiting else s.regs
  let g := store.filter fun e => inRanges r e.1
  match s.fwu.settings[s.fwu.slot] with
  | some x => { s with fwu := { s.fwu with settings := s.fwu.settings.set s.fwu.slot (some { x with geometry := g, seq := (x.seq + 1) % 2 ^ 32 }) } }
  | none => s

/-- The answer to a word of a FIELD REGISTER command (R482). -/
def State.regAnswer (s : State) (c : Cmd) (next status value : Nat) : State :=
  if c.opcode = 0x98 then
    let s := s.hostWrite c.func (c.buffer + 4 * next) (leBytes 4 value) true
    (s.setCmd { c with n1 := if next = 0 then value else c.n1, wait := .regs (next + 1) c.regReq }).regsStep c.id
  else if status = RegStatus.invalid.code then s.finish c stInvalidField next
  else if status = RegStatus.notPermitted.code then s.finish c stNotPermitted next
  else
    let geometry := c.regDie = 1 ∧ bitsOf (c.word 7) 31 16 + 4 * next = 0x423C ∧ bitOf (c.regValue next).toNat 0
    let s := if geometry ∧ !s.has (groupCommitAt .yrdGeometry) commitReject then s.saveGeometry else s
    (s.setCmd { c with wait := .regs (next + 1) c.regReq }).regsStep c.id

/-- REG_DATA: the next word of the command that waits for it, or the end of a die's load (R482, R590). -/
def State.regData (s : State) (d : Die) (m : Msg) : State :=
  let w := m.word.toNat
  let req := bitsOf w 63 48
  let status := bitsOf w 47 40
  let value := (m.cont.headD 0).toNat % 2 ^ 32
  if req = 0xFFFF then s.loadEnded d value
  else
    match s.qen.cmds.find? fun (c : Cmd) => c.regsOn d && c.regReq == req with
    | some c => (match c.wait with | .regs next _ => s.regAnswer c next status value | _ => s)
    | none => s

/-- REG_DATA (R482). -/
def execRegData (d : Die) (m : Msg) (s : State) : Host.Outcome State Fault Refusal :=
  .next ((s.received d .hub m).regData d m).settle

/-! ## Events (R284, R594) -/

/-- The entry that an EVENT message asks for (R23, R594). -/
def eventEntry (d : Die) (m : Msg) : EventEntry :=
  let w := m.word.toNat
  let last := (m.cont.getD 2 0).toNat
  { time := (m.cont.getD 0 0).toNat, die := d.val, bay := bitsOf w 47 40, code := bitsOf w 63 48, sub := bitsOf w 39 24
    unit := bitsOf last 63 48, v1 := (m.cont.getD 1 0).toNat, v2 := bitsOf last 31 0 }

/-- Crew firmware relays FRAC to every present bay, keeping the other fields of SPN_CEIL_IN (R284). -/
def State.relayFrac (s : State) (frac : Nat) : State :=
  (List.finRange 12).foldl (fun (t : State) b =>
    let d := dieOfBay b
    if !t.hasBay b ∨ t.ports[d].state ≠ .up then t
    else
      let old := t.fieldRead d (bayInDie b) 0xA18
      t.send d .hub (regWriteMsg 0xA18 (bayInDie b) 0xFFFC (BitVec.ofNat 32 (putBits old 10 0 frac)))) s

/-- EVENT: written or merged into the events page; SPN_CEIL_VALUE is relayed instead, where a relay is needed (R284, R594,
R598). -/
def execEvent (d : Die) (m : Msg) (s : State) : Host.Outcome State Fault Refusal :=
  let e := eventEntry d m
  let s := s.received d .hub m
  .next (if e.code = 0x05F0 then (if s.code.changer then s.relayFrac e.v1 else s) else s.logEvent e)

/-! ## Work (R25, R28, R40, R353) -/

/-- WORK_DONE: the item's end decides what it was for; words of an item that a QUEUE_RESET names are discarded, but for
recordings and transfers, which run on (R24, R25, R40, R446). -/
def State.workDone (s : State) (d : Die) (m : Msg) : State :=
  let w := m.word.toNat
  let item := bitsOf w 55 40
  match s.hubItem d item with
  | none => s
  | some x =>
    if x.kind ≠ bitsOf w 63 56 ∨ (s.underReset x && x.kind != 2 && x.kind != 6) then s
    else
      let s := s.closeItem d item
      match WStatus.ofCode (bitsOf w 39 32) with
      | some .dropped => s.itemDropped x
      | some st => s.itemEnded x st.command
      | none => s.itemEnded x stFault

/-- WORK_DONE (R25). -/
def execWorkDone (d : Die) (m : Msg) (s : State) : Host.Outcome State Fault Refusal :=
  .next ((s.received d .hub m).workDone d m).settle

/-- Whether a fill's words are discarded: its item is being dropped (R40, R354). -/
def State.fillDropped (s : State) (m : Miss) : Bool :=
  s.crew.items.any fun (x : HubItem) => decide (x.what = .fill m.id) && some x.item == m.item && s.underReset x

/-- BOARD_DATA: the board goes into the entry of its miss register (R144, R353). -/
def execBoardData (d : Die) (m : Msg) (s : State) : Host.Outcome State Fault Refusal :=
  let s := s.received d .hub m
  .next <|
    match s.fillOf d m.word with
    | some x =>
      if s.fillDropped x then s
      else s.fillBoard x.id (bitsOf m.word.toNat 63 32 % 16) ((m.cont.take 512).flatMap fun w => leBytes 8 w.toNat)
    | none => s

/-- BOARD_ERASED: a board will not come; the log's LOG_DONE decides the fill (R28, R145, R353). -/
def execBoardErased (d : Die) (m : Msg) (s : State) : Host.Outcome State Fault Refusal :=
  .next (s.received d .hub m)

/-- Boards that the entry of a fill holds. -/
def State.boardsHeld (s : State) (m : Miss) : Nat :=
  if !m.begun then 0 else match m.entry with | some e => (s.line e).boards | none => m.got

/-- LOG_DONE of a fill or of a scanned log (R146, R353, R465): a good log that lacks a board is filled again (R353). -/
def State.logDone (s : State) (d : Die) (m : Msg) : State :=
  let w := m.word.toNat
  let lba := bitsOf w 63 32
  let result := bitsOf w 19 18
  let passes := bitsOf w 17 13
  match s.fillOf d m.word with
  | some x =>
    if s.fillDropped x then s
    else if result = 2 then
      let s := if x.begun then s else s.beginFill x
      s.fillOver ((s.miss x.id).getD x) .failed false (decide (1 < passes))
    else if s.boardsHeld x = 0xFFFF then s.fillOver x .good false (decide (1 < passes))
    else s.refill x
  | none =>
    let scan := s.crew.items.find? fun (i : HubItem) =>
      decide (i.die = d) && i.kind == 8 && i.bay == bitsOf w 21 21
        && (match i.what with | .verify _ log => log == lba / 16 | _ => false)
    match scan with
    | some i =>
      if s.underReset i then s
      else (match i.what with | .verify id log => s.scanLog id log result passes (bitsOf w 12 8) | _ => s)
    | none => s

/-- LOG_DONE (R353). -/
def execLogDone (d : Die) (m : Msg) (s : State) : Host.Outcome State Fault Refusal :=
  let s := s.received d .hub m
  .next (if bitOf m.word.toNat 20 then s else (s.logDone d m).settle)

/-! ## System logs (R68, R143) -/

/-- One system board or log as crew firmware collects it: boards and end of the layer-0 log, then of its copy. -/
def SysLog.take (e : SysLog) (m : Msg) : SysLog :=
  let w := m.word.toNat
  let i := bitsOf w 63 32 % 32
  match m.type with
  | 0x22 =>
    let p := (m.cont.take 512).flatMap fun w => leBytes 8 w.toNat
    if e.ended.isNone then { e with boards := assocPut e.boards i p } else { e with copy := assocPut e.copy i p }
  | 0x23 => if e.ended.isNone ∧ bitsOf w 19 16 = 5 then { e with blank := e.blank + 1 } else e
  | 0x24 =>
    if e.ended.isNone then { e with ended := some (bitsOf w 19 18), blank := if bitsOf w 17 13 = 1 then e.blank else 0 }
    else { e with copyEnded := some (bitsOf w 19 18) }
  | _ => e

/-- SYSTEM_BOARD_RECEIVE: a board or the end of a system log during a mount (R68, R143). -/
def execSystemBoardReceive (d : Die) (m : Msg) (s : State) : Host.Outcome State Fault Refusal :=
  let w := m.word.toNat
  let s := s.received d .hub m
  let n := bitsOf w 63 32 / 32
  .next <|
    if !bitOf w 20 then s
    else
      match bayOf d (bitsOf w 21 21) with
      | none => s
      | some b => s.mapDisc b fun x =>
          match x.sys.find? (·.log = n) with
          | some _ => { x with sys := x.sys.map fun (e : SysLog) => if e.log = n then e.take m else e }
          | none => { x with sys := x.sys ++ [({ log := n, boards := [] } : SysLog).take m] }

end Sys2Proof.Machine
end

