-- ==== Sys2Proof/Machine/Landing.lean ====
section
/-! DEFINITION. The commands of the landing and of the integrity unit (chapters 11 and 12). -/
namespace Sys2Proof.Machine

/-- FILL_TIMEOUT: the fill of a register has not ended in time (R354). -/
def execFillTimeout (id : Nat) (s : State) : Host.Outcome State Fault Refusal :=
  match s.miss id with
  | none => .next s
  | some m =>
    if m.closing ∨ m.item = none then .next s
    else .next (((s.bump (hubAt .lnd) F.LND_CNT2_FILL_TIMEOUTS).raiseHub 0x0A01 0 m.slot (16 * m.log)).irq 42 |>.abandonFill m stFault).settle

/-- Whether a parked request would not have to wait again. -/
def State.canRetry (s : State) (p : Request × Park) : Bool :=
  (s.lookup p.1).2 != .parked

/-- The parked request that goes next: class 0 first, then classes 1–3 by the weighted round robin (R352, R438). -/
def State.nextParked (s : State) : Option ((Request × Park) × State) :=
  let l := s.lnd.parked.filter s.canRetry
  match l.find? fun p => p.1.cls == 0 with
  | some p => some (p, s)
  | none =>
    match classPick s.weights s.lnd.credits fun c => l.any fun p => p.1.cls == c with
    | some (c, cr) => (l.find? fun p => p.1.cls == c).map fun p => (p, { s with lnd := { s.lnd with credits := cr } })
    | none => none

/-- Fills that lost their victim take another (R357). -/
def State.victimRetry (s : State) : State :=
  (s.lnd.misses.filter fun m => m.entry.isNone && m.buf.isNone && !m.closing).foldl (fun t m =>
    match t.victim m.slot m.log with
    | (_, some _) => t.otherVictim m
    | (_, none) => t) s

/-- REQUEST_RETRY: what waits for a register, a victim or room is looked up again (R352, R355, R359). -/
def execRequestRetry (s : State) : Host.Outcome State Fault Refusal :=
  let s := s.victimRetry
  let s := s.lnd.room.foldl (fun t id => t.recordMore id) s
  match s.nextParked with
  | none => .next s.settle
  | some (p, s) =>
    .next (({ s with lnd := { s.lnd with parked := s.lnd.parked.erase p } } : State).request p.1).settle

/-- DIRTY_HAND_OVER: a DIRTY entry is handed to the recording path, its words checked on the way (R64, R359, R386). -/
def execDirtyHandOver (e : Nat) (upset : List (Nat × Nat)) (s : State) : Host.Outcome State Fault Refusal :=
  let l := s.line e
  if l.st = .dirty then .next (((s.upset upset).checkTags l.slot l.log).handOverLine e).settle else .next s

/-- LND_RANGE_INVALIDATE (R368–R370). -/
def execLndRangeInvalidate (force : Bool) (cls slots : Nat) (s : State) : Host.Outcome State Fault Refusal :=
  .next (s.rangeStart (some .invalidate) force cls slots)

/-- LND_RANGE_PRELOAD (R368–R370). -/
def execLndRangePreload (force : Bool) (cls slots : Nat) (s : State) : Host.Outcome State Fault Refusal :=
  .next (s.rangeStart (some .preload) force cls slots)

/-- LND_RANGE_PRELOAD_LOCK (R361, R368–R370). -/
def execLndRangePreloadLock (force : Bool) (cls slots : Nat) (s : State) : Host.Outcome State Fault Refusal :=
  .next (s.rangeStart (some .preloadLock) force cls slots)

/-- LND_RANGE_UNLOCK (R361, R368–R370). -/
def execLndRangeUnlock (force : Bool) (cls slots : Nat) (s : State) : Host.Outcome State Fault Refusal :=
  .next (s.rangeStart (some .unlock) force cls slots)

/-- LND_RANGE_CLEAN (R359, R368–R370). -/
def execLndRangeClean (force : Bool) (cls slots : Nat) (s : State) : Host.Outcome State Fault Refusal :=
  .next (s.rangeStart (some .clean) force cls slots)

/-- LND_RANGE_SCRUB (R368–R370, R392). -/
def execLndRangeScrub (force : Bool) (cls slots : Nat) (s : State) : Host.Outcome State Fault Refusal :=
  .next (s.rangeStart (some .scrub) force cls slots)

/-- A write of ABORT: the operation ends at this line boundary (R369). -/
def State.rangeAbort (s : State) : State :=
  if s.lnd.range.isSome then (s.put (hubAt .lnd) F.LND_RANGE_STATUS_ABORTED 1).endRange.settle else s

/-- LND_RANGE_ABORT (R369). -/
def execLndRangeAbort (s : State) : Host.Outcome State Fault Refusal := .next s.rangeAbort

/-- LND_RANGE_DONE: an operation with nothing left to issue or to wait for ends (R15, R369, R370). -/
def execLndRangeDone (s : State) : Host.Outcome State Fault Refusal :=
  match s.lnd.range with
  | none => .next s
  | some x =>
    let preload := x.op.kind = .preload ∨ x.op.kind = .preloadLock
    if x.lines = [] ∧ (!preload ∨ x.op.logs * x.op.slots ≤ x.next) then .next s.endRange.settle else .next s

/-- A write to LND_CTRL (R372). -/
def State.landingEnable (s : State) (en : Bool) : State :=
  if en ∧ !s.has (hubAt .lnd) F.LND_STATUS_READY then s else (s.put (hubAt .lnd) F.LND_CTRL_ENABLE (b2n en)).settle

/-- LND_CTRL_WRITE (R372). -/
def execLndCtrlWrite (en : Bool) (s : State) : Host.Outcome State Fault Refusal := .next (s.landingEnable en)

/-- A write is refused and CFG_ERR set (R362, R363, R375). -/
def State.cfgErr (s : State) : State := s.put (hubAt .lnd) F.LND_STATUS_CFG_ERR 1

/-- A write to LND_WAY_RETIRE (R362, R363). -/
def State.retireWrite (s : State) (w : Word) : State :=
  let a := hubAt .lnd
  let win := s.get a F.LND_WIN_WAYS_WAYS
  let old := s.get a F.LND_WAY_RETIRE_RETIRE
  let new := (waysOf win).foldl (fun r k => putBit r k false) (F.LND_WAY_RETIRE_RETIRE.of w)
  let locked := s.lnd.tags.any fun e => e.2.lock && bitOf new (e.1 % 16) && !bitOf old (e.1 % 16)
  if 12 < s.get a F.LND_CFG_LOCK_MAX + (waysOf win).length + (waysOf new).length ∨ locked then s.cfgErr
  else (s.put a F.LND_WAY_RETIRE_RETIRE new).retireSweep.settle

/-- LND_WAY_RETIRE_WRITE (R362, R363). -/
def execLndWayRetireWrite (w : Word) (s : State) : Host.Outcome State Fault Refusal := .next (s.retireWrite w)

/-- A write to LND_CFG or LND_LIMITS (R362, R375). -/
def State.landingCfg (s : State) (limits : Bool) (w : Word) : State :=
  let a := hubAt .lnd
  if limits then
    if F.LND_LIMITS_DIRTY_MAX.inRange (F.LND_LIMITS_DIRTY_MAX.of w) then
      (s.put a F.LND_LIMITS_DIRTY_MAX (F.LND_LIMITS_DIRTY_MAX.of w)).settle
    else s.cfgErr
  else
    let fs := [F.LND_CFG_LOCK_MAX, F.LND_CFG_RES0, F.LND_CFG_PRELOAD_MSHR, F.LND_CFG_FILL_TIMEOUT]
    let gone := (waysOf (s.get a F.LND_WIN_WAYS_WAYS ||| s.get a F.LND_WAY_RETIRE_RETIRE)).length
    if fs.all (fun f => f.inRange (f.of w)) ∧ F.LND_CFG_LOCK_MAX.of w + gone ≤ 12 then
      (fs.foldl (fun t f => t.put a f (f.of w)) s).settle
    else s.cfgErr

/-- LND_CFG_WRITE: to LND_LIMITS or to LND_CFG (R362, R375). -/
def execLndCfgWrite (limits : Bool) (w : Word) (s : State) : Host.Outcome State Fault Refusal := .next (s.landingCfg limits w)

/-- WINDOW_COMMIT_POINT: the new window becomes active and the held requests are served under it (R366). -/
def execWindowCommitPoint (s : State) : Host.Outcome State Fault Refusal :=
  if s.isWaiting .lndWindow then
    let held := s.lnd.held
    let s := s.commitWindow
    .next (held.foldl (fun (t : State) r => t.winServe r) { s with lnd := { s.lnd with held := [] } }).settle
  else .next s

/-- BAR2_REQUEST: held while a commit waits for its commit point, else served at once (R364, R366). -/
def execBar2Request (r : WinReq) (upset : List (Nat × Nat)) (s : State) : Host.Outcome State Fault Refusal :=
  let s := s.upset upset
  if s.isWaiting .lndWindow then .next { s with lnd := { s.lnd with held := s.lnd.held ++ [r] } } else .next (s.winServe r)

/-- PATROL_BURST: one burst of landing memory is read, checked and mended (R389–R391). -/
def execPatrolBurst (upset : List (Nat × Nat)) (s : State) : Host.Outcome State Fault Refusal :=
  let s := s.upset upset
  if s.has (hubAt .miu) F.MIU_CTL_PATROL_EN ∧ s.has (hubAt .lnd) F.LND_STATUS_READY then
    .next ((s.scrub s.miu.pos 128 6).1.lapWarn.patrolNext)
  else .next s

/-- MIU_INJECT_ARM: a write to MIU_INJECT (R394). -/
def execMiuInjectArm (w : Word) (s : State) : Host.Outcome State Fault Refusal := .next (s.injectWrite w)

end Sys2Proof.Machine
end

