-- ==== Sys2Proof/Machine/SkdOps.lean ====
section
/-! DEFINITION. The skid DMA (R536–R547): descriptors, their checks, starts, ends, aborts and bus errors. -/
namespace Sys2Proof.Machine

/-! ## Descriptor registers -/

/-- The fields of the descriptor in a channel's registers (R537, R550). -/
structure SkdDesc where
  src   : Nat
  dst   : Nat
  len   : Nat
  ctrl  : Nat
  next  : Nat
  deriving DecidableEq, Repr

/-- CTRL fields (R550). -/
def SkdDesc.sinc (d : SkdDesc) : Bool := bitOf d.ctrl 0
def SkdDesc.dinc (d : SkdDesc) : Bool := bitOf d.ctrl 1
def SkdDesc.sw (d : SkdDesc) : Nat := bitsOf d.ctrl 6 4
def SkdDesc.dw (d : SkdDesc) : Nat := bitsOf d.ctrl 10 8
def SkdDesc.burst (d : SkdDesc) : Nat := bitsOf d.ctrl 15 12
def SkdDesc.irq (d : SkdDesc) : Bool := bitOf d.ctrl 16
def SkdDesc.shost (d : SkdDesc) : Bool := bitOf d.ctrl 20
def SkdDesc.dhost (d : SkdDesc) : Bool := bitOf d.ctrl 21
def SkdDesc.func (d : SkdDesc) : Nat := bitsOf d.ctrl 29 24

/-- The fields of SKD_CHc_CTRL (R550). -/
def skdCtrlFields : List Field :=
  [F.SKD_CH_CTRL_FUNC, F.SKD_CH_CTRL_DHOST, F.SKD_CH_CTRL_SHOST, F.SKD_CH_CTRL_IRQ, F.SKD_CH_CTRL_BURST, F.SKD_CH_CTRL_DW,
   F.SKD_CH_CTRL_SW, F.SKD_CH_CTRL_DINC, F.SKD_CH_CTRL_SINC]

/-- The descriptor that a channel's registers hold. -/
def State.skdDesc (s : State) (c : Fin 32) : SkdDesc :=
  let a := hubAt .skd
  { src := hiLo (s.get a F.SKD_CH_SRC_LO_SRC_LO c) (s.get a F.SKD_CH_SRC_HI_SRC_HI c)
    dst := hiLo (s.get a F.SKD_CH_DST_LO_DST_LO c) (s.get a F.SKD_CH_DST_HI_DST_HI c)
    len := s.get a F.SKD_CH_LENGTH_LENGTH c
    ctrl := skdCtrlFields.foldl (fun n f => n + s.get a f c * 2 ^ f.lo) 0
    next := hiLo (s.get a F.SKD_CH_NEXT_LO_NEXT_LO c) (s.get a F.SKD_CH_NEXT_HI_NEXT_HI c) }

/-- Put a descriptor into a channel's registers. -/
def State.putDesc (s : State) (c : Fin 32) (d : SkdDesc) : State :=
  let a := hubAt .skd
  let s := ((s.put a F.SKD_CH_SRC_LO_SRC_LO (d.src % 2 ^ 32) c).put a F.SKD_CH_SRC_HI_SRC_HI (d.src / 2 ^ 32) c)
  let s := ((s.put a F.SKD_CH_DST_LO_DST_LO (d.dst % 2 ^ 32) c).put a F.SKD_CH_DST_HI_DST_HI (d.dst / 2 ^ 32) c)
  let s := ((s.put a F.SKD_CH_NEXT_LO_NEXT_LO (d.next % 2 ^ 32) c).put a F.SKD_CH_NEXT_HI_NEXT_HI (d.next / 2 ^ 32) c)
  skdCtrlFields.foldl (fun (t : State) f => t.put a f (d.ctrl / 2 ^ f.lo) c) (s.put a F.SKD_CH_LENGTH_LENGTH d.len c)

/-- Replace a channel. -/
def State.setSkd (s : State) (c : Fin 32) (x : Skd) : State := { s with skd := s.skd.set c x }

/-- RESIDUE of a channel (R550). -/
def State.residue (s : State) (c : Fin 32) : Nat := s.get (hubAt .skd) F.SKD_CH_RESIDUE_RESIDUE c
def State.putResidue (s : State) (c : Fin 32) (n : Nat) : State := s.put (hubAt .skd) F.SKD_CH_RESIDUE_RESIDUE n c

/-- The initiator group of a channel (R536). -/
def Skd.group (x : Skd) : Nat := if x.open_ then 3 else 2

/-- Hub memory that may hold descriptors: shared scratch and the cores' local memories (R537). -/
def descMemory (a : Nat) : Bool :=
  (decide (scratchAt ≤ a ∧ a + 64 ≤ scratchAt + 0x800000)) || decide (localAt ≤ a ∧ a + 64 ≤ localAt + 0x400000)

/-- The checks of a descriptor whose LENGTH is not 0 (R539). -/
def State.descOk (s : State) (x : Skd) (d : SkdDesc) : Bool :=
  let m := 2 ^ max d.sw d.dw
  bitsOf d.ctrl 3 2 == 0 && !bitOf d.ctrl 7 && !bitOf d.ctrl 11 && bitsOf d.ctrl 19 17 == 0 && bitsOf d.ctrl 23 22 == 0
    && bitsOf d.ctrl 31 30 == 0 && decide (d.sw ≤ 6) && decide (d.dw ≤ 6) && decide (6 ≤ d.burst ∧ d.burst ≤ 12)
    && d.len % m == 0 && d.src % 2 ^ d.sw == 0 && d.dst % 2 ^ d.dw == 0
    && (d.shost || decide (d.src < 2 ^ 44)) && (d.dhost || decide (d.dst < 2 ^ 44))
    && (!(d.shost || d.dhost) || (!x.open_ && s.fnOn d.func))
    && (d.next == 0 || (d.next % 64 == 0 && descMemory d.next))

/-! ## Memory behind hub addresses -/

/-- The memory of a hub address (R520) as R396 numbers it, with the byte address in it. -/
def hubMemory (a : Nat) : Option (Nat × Nat) :=
  if scratchAt ≤ a ∧ a < scratchAt + 0x800000 then some (5, a - scratchAt)
  else if localAt ≤ a ∧ a < localAt + 0x400000 then some (6, a - localAt)
  else if evictAt ≤ a ∧ a < evictAt + 0x200000 then some (1, a - evictAt)
  else if landingAt ≤ a ∧ a < landingAt + 2 ^ 38 then some (0, a - landingAt)
  else none

/-! ## Ends -/

/-- Write RESIDUE and STATUS back into the memory copy of a channel's descriptor, when it has one and the write succeeds (R543,
R545, R547). -/
def State.writeBack (s : State) (c : Fin 32) (residue code : Nat) : State :=
  let x := s.skd[c]
  match x.descAt with
  | none => s
  | some a =>
    match hubMemory a with
    | some (mem, o) =>
      if s.allowed x.group a true then s.storeBytes mem (o + 32) (leBytes 4 residue ++ leBytes 4 code) 3 else s
    | none => s

/-- A chain ends with a code: the channel is idle and its source fires (R543). -/
def State.chainEnd (s : State) (c : Fin 32) (code : SkdCode) : State :=
  let x := s.skd[c]
  (s.setSkd c { x with active := false, code, fetch := none, last := false, abort := false }).irq (c.val + 1)

/-- An aborted chain (R545). -/
def State.abortEnd (s : State) (c : Fin 32) : State :=
  ((s.writeBack c (s.residue c) SkdCode.aborted.num).bump (hubAt .skd) F.SKD_CNT_ABORTS).chainEnd c .aborted

/-- A descriptor that fails its checks ends the chain (R539). -/
def State.descError (s : State) (c : Fin 32) : State :=
  ((s.writeBack c (s.residue c) SkdCode.descError.num).bump (hubAt .skd) F.SKD_CNT_DESC_ERRORS).chainEnd c .descError

/-- The register descriptor has been done: the chain goes on with NEXT, or ends (R543). -/
def State.descNext (s : State) (c : Fin 32) : State :=
  let x := s.skd[c]
  let n := (s.skdDesc c).next
  if n = 0 then s.chainEnd c .done else s.setSkd c { x with last := false, fetch := some n }

/-- The register descriptor completes (R543). -/
def State.descDone (s : State) (c : Fin 32) : State :=
  let s := (s.putResidue c 0).writeBack c 0 SkdCode.done.num
  let s := if (s.skdDesc c).irq then s.irq (c.val + 1) else s
  s.descNext c

/-- A bus error stops every active channel; one that waits for its next descriptor has none with work left to write back
(R547). -/
def State.busError (s : State) : State :=
  let a := hubAt .skd
  let on := (List.finRange 32).filter fun c => (s.skd[c]).active
  let s := s.put a F.SKD_ACTIVE_AT_HALT_STOPPED (on.foldl (fun m c => m + 2 ^ c.val) 0)
  let s := on.foldl (fun (t : State) c =>
    let t := if (t.skd[c]).fetch.isSome then t else t.writeBack c (t.residue c) SkdCode.stopped.num
    let x := t.skd[c]
    t.setSkd c { x with active := false, code := .stopped, fetch := none, last := false, abort := false }) s
  (s.put a F.SKD_STATUS_HALTED 1).bump a F.SKD_CNT_BUS_ERRORS

/-! ## Start and abort -/

/-- A descriptor is in the registers of an active channel: it is checked, or it completes at once (R539, R544, R545). -/
def State.descLoaded (s : State) (c : Fin 32) : State :=
  let x := s.skd[c]
  let d := s.skdDesc c
  let s := s.putResidue c d.len
  if x.abort then s.abortEnd c
  else if d.len = 0 then s.setSkd c { x with last := true }
  else if s.descOk x d then s else s.descError c

/-- A write of START by a core (R536, R543, R546, R547). -/
def State.skdStart (s : State) (c : Fin 32) (resume : Bool) (core : Nat) : State :=
  let a := hubAt .skd
  let x := s.skd[c]
  if s.has a F.SKD_STATUS_HALTED then s.put a F.SKD_CH_STATUS_REFUSED 1 c
  else if x.active then s.put a F.SKD_CH_STATUS_ERR_BUSY 1 c
  else
    let s := s.put a F.SKD_CH_CMD_RESUME (b2n resume) c
    let y : Skd := { x with active := true, code := .running, open_ := decide (6 ≤ core), fetch := none, last := false, abort := false
                            descAt := if resume then x.descAt else none }
    let s := s.setSkd c y
    let d := s.skdDesc c
    if !resume then s.descLoaded c
    else if d.len = 0 then s.setSkd c { y with last := true }
    else if s.residue c = 0 then s.descNext c
    else if s.descOk y d then s else s.descError c

/-- A write of ABORT: the channel stops at the end of its burst (R545). -/
def State.skdAbort (s : State) (c : Fin 32) : State :=
  let x := s.skd[c]
  if x.active then s.setSkd c { x with abort := true } else s

end Sys2Proof.Machine
end

