-- ==== Sys2Proof/Machine/HubRegs.lean ====
section
/-! DEFINITION. Writes and reads of hub registers (R8, R9, R31–R33, R362–R376, R394, R395, R415–R418, R427, R430, R435, R447, R454,
R494, R515, R521, R533–R535, R549, R571, R592, R602–R608), and the rows that name a register or a staged group alone. -/
namespace Sys2Proof.Machine

/-! ## Initiators -/

/-- Who makes an access: its initiator group, and the core when it is one (R416). -/
structure Init where
  group : Nat
  core  : Option Nat := none
  deriving DecidableEq, Repr

/-- An access by a core. -/
def Init.ofCore (c : Nat) : Init := { group := coreGroup c, core := some c }

/-- GLB_LOCK. -/
def State.locked (s : State) : Bool := s.has (hubAt .glb) F.GLB_LOCK_LOCK

/-- Addresses that no access reaches whatever the map grants: what lies outside every row of the hub address space (R520). -/
def hubHolds (a : Nat) : Bool :=
  decide (a < 0x40000) || decide (0x1000000 ≤ a ∧ a < 0x1080000) || decide (localAt ≤ a ∧ a < localAt + 0x400000)
    || decide (scratchAt ≤ a ∧ a < scratchAt + 0x800000) || decide (evictAt ≤ a ∧ a < evictAt + 0x200000)
    || decide (0x40000000 ≤ a ∧ a < 0x44000000) || (hubSplit a).isSome || decide (flashAt ≤ a ∧ a < flashAt + 0x8000000)
    || decide (landingAt ≤ a ∧ a < landingAt + 2 ^ 38)

/-- What open-core code never reaches (R521): the kerf message registers, MIU_INJECT and the root words. -/
def neverOpen (a : Nat) (write : Bool) : Bool :=
  match hubFind a with
  | some (_, .krf, _, _) => true
  | some (_, .miu, 0x60, _) => true
  | some (_, .vlk, rel, _) => decide (0x140 ≤ rel ∧ rel < 0x1C0) && write
  | _ => false

/-- Whether the protection map lets a hub register access through; until GLB_LOCK is set the map is the stump's to write and
holds no crew core back (R415, R416, R520, R521). -/
def State.mayReach (s : State) (i : Init) (a : Nat) (write : Bool) : Bool :=
  hubHolds a && ((i.group == 0 && !s.locked) || s.allowed i.group a write) && !((i.group == 1 || i.group == 3) && neverOpen a write)

/-! ## Queue engine -/

/-- A write of QEN_HALT.GO (R447). -/
def State.haltGo (s : State) (f q : Nat) : State :=
  let a := funAt .qen f
  let busy := s.qen.cuts.any fun (c : Cut) => c.func == f && decide (c.kind = .halt)
  match s.queue f q with
  | none => s.put a F.QEN_HALT_STATUS_REFUSED 1
  | some x =>
    if q = 0 ∨ x.st ≠ .active ∨ busy then s.put a F.QEN_HALT_STATUS_REFUSED 1
    else (s.put a F.QEN_HALT_STATUS_QID q).startCut f q .halt

/-- A write of QEN_HALT (R447, R455). -/
def State.haltWrite (s : State) (f : Nat) (w : Word) : State :=
  let s := s.put (funAt .qen f) F.QEN_HALT_QID (F.QEN_HALT_QID.of w)
  if F.QEN_HALT_GO.of w = 1 then s.haltGo f (F.QEN_HALT_QID.of w) else s

/-- The management pair as the registers describe it (R430). -/
def State.mgmtQueue (s : State) (f : Nat) : Queue :=
  let a := funAt .qen f
  { func := f, qid := 0, depth := s.get a F.QEN_MQ_CTL_DEPTH
    sqBase := hiLo (2 ^ 12 * s.get a F.QEN_MQ_SQ_LO_BASE_LO) (s.get a F.QEN_MQ_SQ_HI_BASE_HI)
    cqBase := hiLo (2 ^ 12 * s.get a F.QEN_MQ_CQ_LO_BASE_LO) (s.get a F.QEN_MQ_CQ_HI_BASE_HI)
    cls := 0, vector := 0, ien := true }

/-- A write of QEN_MQ_CTL (R430, R443, R455): ENABLE makes queue 0 ACTIVE after its checks, or deletes it. -/
def State.mqWrite (s : State) (f : Nat) (w : Word) : State :=
  let a := funAt .qen f
  let s := if F.QEN_MQ_CTL_CFG_ERR.of w = 1 then s.put a F.QEN_MQ_CTL_CFG_ERR 0 else s
  let enable := F.QEN_MQ_CTL_ENABLE.of w = 1
  if s.has a F.QEN_MQ_CTL_ENABLE then
    if enable then s else ((s.put a F.QEN_MQ_CTL_ENABLE 0).startCut f 0 .management).cutsReady
  else
    let s := s.put a F.QEN_MQ_CTL_DEPTH (F.QEN_MQ_CTL_DEPTH.of w)
    if !enable then s
    else
      let x := s.mgmtQueue f
      if 2 ≤ x.depth ∧ x.depth ≤ 4096 ∧ (s.queue f 0).isNone then
        let s := s.put a F.QEN_MQ_CTL_ENABLE 1
        { s with qen := { s.qen with queues := s.qen.queues ++ [x] } }
      else s.put a F.QEN_MQ_CTL_CFG_ERR 1

/-- Queue of a doorbell offset of the QEN block (R435). -/
def doorbellOf (rel : Nat) : Option Nat :=
  if 0x1000 ≤ rel ∧ rel < 0x1000 + 8 * 513 then some ((rel - 0x1000) / 8) else none

/-- A write of one dword of a doorbell: the lower is the SQ part, the upper the CQ part (R435). -/
def State.doorbellWrite (s : State) (f rel : Nat) (w : Word) : State :=
  match doorbellOf rel with
  | none => s
  | some q =>
    if !bitOf w.toNat 31 then s
    else if rel % 8 = 0 then s.tailWrite f q (w.toNat % 65536)
    else s.headWrite f q (w.toNat % 65536)

/-- A read of one dword of a doorbell: the last accepted values (R435). -/
def State.doorbellRead (s : State) (f rel : Nat) : Nat :=
  match (doorbellOf rel).bind fun q => s.queue f q with
  | some x => if rel % 8 = 0 then x.sqTail else x.cqHead
  | none => 0

/-! ## Blocks -/

/-- Blocks in which a write of a value outside a field's range is ignored (R395, R454, R515, R571). -/
def rangedBlock : Block → Bool
  | .qen | .miu | .ep | .fwu => true
  | _ => false

/-- A write of a register without a behaviour of its own; a write of a BL field after GLB_LOCK is ignored and logged (R8, R9). -/
def State.plainWrite (s : State) (i : Init) (a : Nat) (k : Block) (l : Loc) (w : Word) : State :=
  if rangedBlock k && !l.shadow && !l.inRange w then s
  else
    let s := s.writeWord s.locked l w
    if s.locked && l.reg.fields.any (fun f => decide (f.acc = .bl)) then s.pevLog a i.group true true else s

/-- A write of a word of the QEN block of a function (R430, R447, R454). -/
def State.qenWrite (s : State) (i : Init) (a f rel : Nat) (l : Loc) (w : Word) : State :=
  if rel < 0x0C ∧ f ≠ 0 then s
  else if rel = 0x10 then s.haltWrite f w
  else if rel = 0x30 then s.mqWrite f w
  else if 0x34 ≤ rel ∧ rel ≤ 0x40 ∧ s.has (funAt .qen f) F.QEN_MQ_CTL_ENABLE then s
  else s.plainWrite i a .qen l w

/-- A write of LND_RANGE_CTL (R368, R369, R377). -/
def State.rangeWrite (s : State) (w : Word) : State :=
  let busy := s.lnd.range.isSome
  let a := hubAt .lnd
  let s := if busy then s
           else (((s.put a F.LND_RANGE_CTL_FORCE (F.LND_RANGE_CTL_FORCE.of w)).put a F.LND_RANGE_CTL_OP
             (F.LND_RANGE_CTL_OP.of w)).put a F.LND_RANGE_CTL_CLASS (F.LND_RANGE_CTL_CLASS.of w)).put a F.LND_RANGE_CTL_SLOTS
             (F.LND_RANGE_CTL_SLOTS.of w)
  let s := if F.LND_RANGE_CTL_START.of w = 1 then
      s.rangeStart (RangeKind.ofCode (F.LND_RANGE_CTL_OP.of w)) (F.LND_RANGE_CTL_FORCE.of w == 1) (F.LND_RANGE_CTL_CLASS.of w)
        (F.LND_RANGE_CTL_SLOTS.of w)
    else s
  if busy ∧ F.LND_RANGE_CTL_ABORT.of w = 1 then s.rangeAbort else s

/-- A write of a word of the LND block (R362–R377). -/
def State.lndWrite (s : State) (i : Init) (a rel : Nat) (l : Loc) (w : Word) : State :=
  if rel = 0 then s.landingEnable (F.LND_CTRL_ENABLE.of w == 1)
  else if rel = 8 then s.landingCfg false w
  else if rel = 0x0C then s.landingCfg true w
  else if rel = 0x10 then s.retireWrite w
  else if rel = 0x2C then s.commitWrite .lndWindow w
  else if rel = 0x30 then s.put (hubAt .lnd) F.LND_WIN_UR_UR_COUNT 0
  else if rel = 0x40 then s.rangeWrite w
  else if 0x44 ≤ rel ∧ rel ≤ 0x4C ∧ s.lnd.range.isSome then s
  else s.plainWrite i a .lnd l w

/-- A write of VLK_SANDBOX: open cores are held in reset while OPEN_EN is 0; with it their domains come on, their local memory
is zeroed, and their watchdogs start (R388, R419, R531, R580). -/
def State.sandboxWrite (s : State) (i : Init) (a : Nat) (l : Loc) (w : Word) : State :=
  let on := s.has (hubAt .vlk) F.VLK_SANDBOX_OPEN_EN
  let s := s.plainWrite i a .vlk l w
  match on, s.has (hubAt .vlk) F.VLK_SANDBOX_OPEN_EN with
  | true, false => ((((s.hicRelease 6).hicRelease 7).setDomain 8 false).setDomain 9 false)
  | false, true =>
    let s := (s.setDomain 8 true).setDomain 9 true
    { s with
      vlk := { s.vlk with wdogAt := Vector.replicate 2 s.clock }
      mem := s.mem.filter fun c => !decide (localAt + 0x300000 ≤ c.1 ∧ c.1 < localAt + 0x400000) }
  | _, _ => s

/-- A write of a word of the VLK block (R404, R415, R427, R428). -/
def State.vlkWrite (s : State) (i : Init) (a rel : Nat) (l : Loc) (w : Word) : State :=
  if 0x140 ≤ rel ∧ rel < 0x1C0 then
    if s.locked then s.pevLog a i.group true true else s.put (hubAt .vlk) F.VLK_ROOTr_KEY_KEY w.toNat l.i l.j
  else if rel = 0xA00 then s.sandboxWrite i a l w
  else if rel = 0xA04 ∧ F.VLK_DEBUG_LEVEL.of w = 3 ∧ !s.locked then s
  else s.plainWrite i a .vlk l w

/-- A write of a word of the PWR block (R592). -/
def State.pwrWrite (s : State) (i : Init) (a rel : Nat) (l : Loc) (w : Word) : State :=
  if rel = 4 then (if F.PWR_STATUS_AON_LOST.of w = 1 then { s with pwr := { s.pwr with aonLost := false } } else s)
  else (s.plainWrite i a .pwr l w).keepOn

/-- A write of a word of a port's message registers (R31–R33). -/
def State.krfWrite (s : State) (i : Init) (a rel : Nat) (l : Loc) (w : Word) : State :=
  let d : Die := Fin.ofNat 8 (rel / 0x1000)
  if rel % 0x1000 = 8 then s.txctlWrite d w
  else if rel % 0x1000 = 0x18 then s.rxctlWrite d w
  else s.plainWrite i a .krf l w

/-- A write of SKD_CHc_CMD: RESUME, then ABORT, then START (R543, R545, R546). -/
def State.skdCmdWrite (s : State) (c : Fin 32) (core : Nat) (w : Word) : State :=
  let resume := F.SKD_CH_CMD_RESUME.of w
  let s := if (s.skd[c]).active then s else s.put (hubAt .skd) F.SKD_CH_CMD_RESUME resume c
  let s := if F.SKD_CH_CMD_ABORT.of w = 1 then s.skdAbort c else s
  if F.SKD_CH_CMD_START.of w = 1 then s.skdStart c (resume == 1) core else s

/-- A write of a word of the SKD block (R547, R549, R550). -/
def State.skdWrite (s : State) (i : Init) (a rel : Nat) (l : Loc) (w : Word) : State :=
  if rel < 0x1000 then s.plainWrite i a .skd l w
  else
    let c : Fin 32 := Fin.ofNat 32 (rel / 0x1000 - 1)
    let r := rel % 0x1000
    if r = 0x20 then s.skdCmdWrite c (i.core.getD (if i.group = 3 then 6 else 0)) w
    else if r < 0x20 ∧ (s.skd[c]).active then s
    else s.plainWrite i a .skd l w

/-- A write of a word of the EP block (R515, R516). -/
def State.epWrite (s : State) (i : Init) (a rel : Nat) (l : Loc) (w : Word) : State :=
  if rel = 0x4C then s.put (hubAt .ep) F.EP_TAG_STATUS_PEAK 0 else s.plainWrite i a .ep l w

/-- A write of a word of the HIC block; an initiator that is no core writes the trigger and the counters alone (R521, R535). -/
def State.hicBlockWrite (s : State) (i : Init) (rel : Nat) (w : Word) : State :=
  match i.core with
  | some c => s.hicWrite c rel w
  | none => if rel = 0xE10 ∨ rel = 0xE20 then s.hicWrite 0 rel w else s

/-! ## Accesses -/

/-- A write of a word that has reached a hub register address; an address without a register ignores it (R494, R602). -/
def State.hubWrite (s : State) (i : Init) (a : Nat) (w : Word) : State :=
  match hubSplit a with
  | none => s
  | some (f, .qen, rel) =>
    if 0x1000 ≤ rel then s.doorbellWrite f rel w
    else match hubFind a with | some (_, _, _, l) => s.qenWrite i a f rel l w | none => s
  | some (_, .hic, rel) => s.hicBlockWrite i rel w
  | some (f, k, rel) =>
    match hubFind a with
    | none => s
    | some (_, _, _, l) =>
      match k with
      | .glb => if f = 0 then s.plainWrite i a .glb l w else s
      | .tim => s
      | .ep => s.epWrite i a rel l w
      | .lnd => s.lndWrite i a rel l w
      | .miu => if rel = 0x60 then s.injectWrite w else s.plainWrite i a .miu l w
      | .vlk => s.vlkWrite i a rel l w
      | .pwr => s.pwrWrite i a rel l w
      | .krf => s.krfWrite i a rel l w
      | .skd => s.skdWrite i a rel l w
      | _ => s.plainWrite i a k l w

/-- A read of a word that has reached a hub register address: the page of a core is read by that core alone, and a read of
CLAIM claims (R435, R528, R535). -/
def State.hubLoad (s : State) (i : Init) (a : Nat) : State × Nat :=
  match hubSplit a with
  | some (f, .qen, rel) => (s, if 0x1000 ≤ rel then s.doorbellRead f rel else s.hubRead a)
  | some (_, .hic, rel) =>
    if rel < 0x1000 then (s, s.hubRead a)
    else
      let c := rel / 0x1000 - 1
      if i.core ≠ some c then (s, 0)
      else if rel % 0x1000 = 4 then s.hicClaim c
      else (s, s.hubRead a)
  | _ => (s, s.hubRead a)

/-! ## Rows -/

/-- A core's own local memory, through the alias that every core has or at its global address (R520). -/
def ownLocal (core a : Nat) : Option Nat :=
  if 0x1000000 ≤ a ∧ a < 0x1080000 then some (0x80000 * core + (a - 0x1000000))
  else if localAt + 0x80000 * core ≤ a ∧ a < localAt + 0x80000 * (core + 1) then some (a - localAt)
  else none

/-- A word stored by a core: to a register, to shared scratch, where an injection may wait for it, or to local memory; the landing
and the eviction buffer take none (R394, R520). -/
def State.coreStore (s : State) (core a : Nat) (w : Word) : State :=
  match hubMemory a with
  | some (5, m) => (s.storeBytes 5 m (leBytes 4 w.toNat) 2).inject 1 5 m
  | some (6, m) => s.storeBytes 6 m (leBytes 4 w.toNat) 2
  | some _ => s
  | none => s.hubWrite (Init.ofCore core) a w

/-- A core's store as the protection map lets it through: its own local memory is always its own (R416, R418, R517). -/
def State.coreWrite (s : State) (core a : Nat) (w : Word) : State :=
  match ownLocal core a with
  | some m => s.storeBytes 6 m (leBytes 4 w.toNat) 2
  | none => if s.mayReach (Init.ofCore core) a true then s.coreStore core a w else s.pevLog a (coreGroup core) true false

/-- REGISTER_WRITE: a write reaches a register: of a field die as a REG_WRITE brings it, or of the hub by a core, which the
protection map may deny (R8, R9, R416, R418). -/
def execRegisterWrite (d : Die) (core : Fin 8) (bay off : Nat) (w : Word) (s : State) : Host.Outcome State Fault Refusal :=
  .next <|
    if d ≠ 0 then (s.fieldWrite d bay off w).1 else s.coreWrite core off w

/-- COMMIT: a write of 1 to a group's COMMIT (R11, R12). -/
def execCommit (g : Group) (s : State) : Host.Outcome State Fault Refusal := .next (s.commitWrite g 1)

/-- STAGED_SET_ACTIVE: the group's boundary; the window's is its commit point (R11, R366). -/
def execStagedSetActive (g : Group) (s : State) : Host.Outcome State Fault Refusal :=
  if g = .lndWindow then execWindowCommitPoint s else .next (s.activate g)

end Sys2Proof.Machine
end

