-- ==== Sys2Proof/Machine/FwOps.lean ====
section
/-! DEFINITION. Firmware update and boot (chapter 19 and R587, R588): history, journal, the check of a set, settings. -/
namespace Sys2Proof.Machine

/-! ## History (R569, R570) -/

/-- A history entry of a result; the page keeps the newest 16. -/
def State.fwHistory (s : State) (result reason index ver lost : Nat) : State :=
  let e : FwHistory := { time := if s.vlk.timeSet then s.now else 0, result, reason, index, ver, lost }
  let h := s.fwu.history ++ [e]
  ({ s with fwu := { s.fwu with history := h.drop (h.length - 16) } } : State).pageChanged 8

/-- The RESULT codes of a history entry (R570). -/
def resConfirmed : Nat := 1
def resRejected : Nat := 2
def resAbandoned : Nat := 3
def resCancelled : Nat := 4

/-! ## Journal (R559, R560) -/

/-- The 64 bytes of a journal copy (R559). -/
def Journal.bytes (j : Journal) : Bytes :=
  let b := leBytes 4 0x314A5746 ++ leBytes 4 j.seq ++ leBytes 1 j.active.val ++ leBytes 1 j.st.code ++ leBytes 1 j.new.val
    ++ leBytes 1 (b2n j.confirm) ++ leBytes 2 j.window ++ List.replicate 46 0
  b ++ leBytes 4 (crc32c b)

/-- Write the journal: the copy that is not in use, with SEQ one higher (R560); each erase and program raises source 161. -/
def State.writeJournal (s : State) (j : Journal) : State :=
  let i := match s.journalInUse with | some 0 => 1 | _ => 0
  (s.putBytes (flashAt + 0x1000 * i) ({ j with seq := (s.journal.seq + 1) % 2 ^ 32 } : Journal).bytes).irq 161

/-! ## The check of a set (R552, R553, R561) -/

/-- One part entry of a tally (R553). -/
structure Part where
  type   : Nat
  zero   : Bool
  pver   : Nat
  offset : Nat
  length : Nat
  digest : Bytes
  deriving DecidableEq, Repr

/-- The part entry of 64 bytes. -/
def partOfBytes (b : Bytes) : Part :=
  { type := fieldAt b 0 1, zero := fieldAt b 1 3 == 0, pver := fieldAt b 4 4, offset := fieldAt b 8 4, length := fieldAt b 12 4
    digest := (b.drop 16).take 48 }

/-- The parts in use of a tally. -/
def tallyParts (t : Bytes) : List Part :=
  (List.range (fieldAt t 6 2)).map fun i => partOfBytes ((t.drop (64 + 64 * i)).take 64)

/-- The bit of an ordering code in DEVICES (R552). -/
def codeBit : Code → Nat
  | .bz2a => 0 | .bz4c => 1 | .bz6c => 2 | .bz8c => 3

/-- Check 1: format, reserved bytes, and a LOADED bank that holds TOTAL bytes. -/
def formatOk (t : Bytes) (x : Bank) : Bool :=
  let n := fieldAt t 6 2
  fieldAt t 0 4 == 0x594C4154 && fieldAt t 4 2 == 0x0100 && decide (1 ≤ n ∧ n ≤ 16) && decide (fieldAt t 24 1 < 16)
    && zeros t 40 64 && zeros t (64 + 64 * n) 1088 && zeros t 1184 4096 && (tallyParts t).all (·.zero)
    && decide (x.st = .loaded) && decide (fieldAt t 36 4 ≤ 4096 * x.units)

/-- Check 5: every part begins at a 4 KiB boundary past the tally, ends within TOTAL, and overlaps no other. -/
def layoutOk (t : Bytes) : Bool :=
  let l := tallyParts t
  let total := fieldAt t 36 4
  l.all (fun p => p.offset % 4096 == 0 && decide (4096 ≤ p.offset ∧ 1 ≤ p.length ∧ p.offset + p.length ≤ total))
    && l.zipIdx.all fun (p, i) => l.zipIdx.all fun (q, j) =>
      i == j || decide (p.offset + p.length ≤ q.offset) || decide (q.offset + q.length ≤ p.offset)

/-- Check 6: listed types, each once, and every required one. -/
def partsOk (t : Bytes) : Bool :=
  let l := (tallyParts t).map (·.type)
  l.all (fun k => decide (1 ≤ k ∧ k ≤ 8)) && decide l.Nodup && [1, 2, 4, 5, 6, 7, 8].all l.contains

/-- Check 7: the first part whose bytes do not have their DIGEST. -/
def State.badDigest (s : State) (b : Fin 2) (t : Bytes) : Option Nat :=
  (tallyParts t).zipIdx.findSome? fun (p, i) =>
    if Config.sha384 (s.flash (bankAt b + p.offset) p.length) = p.digest then none else some i

/-- The checks 1 to 7 of R561 on a bank, in order: the reason of the first that fails, and the part of a bad digest. -/
def State.checkSet (s : State) (b : Fin 2) : Option (Nat × Nat) :=
  let t := s.flash (bankAt b) 4096
  if !formatOk t s.fwu.banks[b] then some (1, 0)
  else if 1 < fieldAt t 27 1 ∨ !Config.ecdsa (Config.romKey (fieldAt t 27 1)) ((t.drop 1088).take 96) (Config.sha384 (t.take 1088)) then
    some (2, 0)
  else if !bitOf (fieldAt t 24 1) (codeBit s.code) ∨ 0x10 < fieldAt t 25 1 ∨ fieldAt t 26 1 < 0x10 then some (3, 0)
  else if fieldAt t 28 4 < s.fwu.svnFloor ∨ fieldAt t 28 4 < fieldAt t 32 4 then some (4, 0)
  else if !layoutOk t then some (5, 0)
  else if !partsOk t then some (6, 0)
  else (s.badDigest b t).map fun i => (7, i)

/-! ## Confirmation (R563, R564) -/

/-- Commands that wait for the confirmation of the running set. -/
def State.healthWaiters (s : State) : List Cmd := s.qen.cmds.filter fun (c : Cmd) => decide (c.wait = .health)

/-- The set is confirmed: the journal names it, the SVN floor rises, and waiting CONFIRM HEALTH commands complete with the seconds
that were left (R478, R563, R564, R570). -/
def State.confirmSet (s : State) : State :=
  let left := s.windowLeft
  let b := s.fwu.bank
  let floor := fieldAt (s.flash (bankAt b + 32) 4) 0 4
  let s := s.writeJournal { active := b, st := .steady, new := b, window := s.journal.window }
  let s := { s with fwu := { s.fwu with run := .confirmed, svnFloor := max s.fwu.svnFloor floor } }
  let s := s.fwHistory resConfirmed 0 0 s.runVer s.fwu.lost
  let s := { s with fwu := { s.fwu with lost := 0 } }
  s.healthWaiters.foldl (fun (t : State) c => t.finish c stSuccess left) s

/-! ## Settings (R567) -/

/-- The SETTINGS part of a bank's tally: PVER and the part's bytes. -/
def State.settingsPart (s : State) (b : Fin 2) : Nat × Bytes :=
  match (tallyParts (s.flash (bankAt b) 4096)).find? fun p => p.type == 8 with
  | some p => (p.pver % 65536, s.flash (bankAt b + p.offset) p.length)
  | none => (0, [])

/-- The default settings of a schema; the features have the defaults of R486. -/
def State.defaultSettings (s : State) (schema seq : Nat) (part : Bytes) : Settings :=
  { schema, seq, subsysId := fieldAt s.deviceId 0 2, aperture := Config.aperture part }

/-- The better of two slots: of one rank the higher SEQ, else the higher rank. -/
def betterSlot (a b : Fin 2 × Settings) : Fin 2 × Settings :=
  if b.2.schema > a.2.schema ∨ (b.2.schema = a.2.schema ∧ b.2.seq > a.2.seq) then b else a

/-- The best of the valid slots that a condition on the schema admits. -/
def State.bestSlot (s : State) (p : Nat → Bool) : Option (Fin 2 × Settings) :=
  let l : List (Fin 2 × Settings) := (List.finRange 2).filterMap fun i => s.fwu.settings[i].bind fun x => if p x.schema then some (i, x) else none
  match l with
  | [] => none
  | a :: t => some (t.foldl betterSlot a)

/-- The features of a settings slot act. -/
def State.applyFeatures (s : State) (x : Settings) : State :=
  x.features.foldl (fun (t : State) e => t.setFeature (e.1 / 64) (e.1 % 64) e.2) s

/-- The slot that the set named ACTIVE does not use (R567). -/
def State.spareSlot (s : State) : Fin 2 :=
  let own := (s.settingsPart s.journal.active).1
  match s.bestSlot (· == own) with | some (k, _) => k + 1 | none => 0

/-- The running set takes its settings: the slot of its schema, or its defaults written into a slot that it has not read
(R567). -/
def State.takeSettings (s : State) : State :=
  let part := s.settingsPart s.fwu.bank
  let a := hubAt .fwu
  let own := part.1
  match s.bestSlot (· == own) with
  | some (i, x) =>
    (({ s with fwu := { s.fwu with slot := i } } : State).put a F.FWU_SETTINGS_SCHEMA own).put a F.FWU_SETTINGS_FOUND own
      |>.applyFeatures x
  | none =>
    let old := s.bestSlot (decide <| · < own)
    let found := match old with | some (_, x) => x.schema | none => 0
    let i : Fin 2 := match old with | some (k, _) => k + 1 | none => s.spareSlot
    let seq := match old with | some (_, x) => (x.seq + 1) % 2 ^ 32 | none => 0
    let x := s.defaultSettings own seq part.2
    let s := { s with fwu := { s.fwu with slot := i, settings := s.fwu.settings.set i (some x) } }
    let s := ((s.put a F.FWU_SETTINGS_SCHEMA own).put a F.FWU_SETTINGS_FOUND found).put a F.FWU_STATUS_SETTINGS_RESET 1
    (s.raiseHub 0x0E02 0 0xFFFF own found).irq 161

/-- The boot block: of the slot whose schema is the ACTIVE bank's, else of the other valid slot, else the defaults (R587). -/
def State.bootBlock (s : State) : Settings :=
  let part := s.settingsPart s.journal.active
  match s.bestSlot (· == part.1) with
  | some (_, x) => x
  | none =>
    match s.bestSlot (fun _ => true) with
    | some (_, x) => x
    | none => s.defaultSettings part.1 0 part.2

/-- The Subsystem IDs and the BAR2 aperture come from the boot block; an aperture out of range leaves none (R490, R493). -/
def State.applyBootBlock (s : State) : State :=
  let x := s.bootBlock
  let ap := if 20 ≤ x.aperture ∧ x.aperture ≤ 37 then x.aperture else 0
  ({ s with ep := { s.ep with subsysVendor := x.subsysVendor, subsysId := x.subsysId } } : State).put (hubAt .ep)
    F.EP_BAR2_CFG_APERTURE_LOG2 ap

end Sys2Proof.Machine
end

