-- ==== Sys2Proof/Machine/ResetOps.lean ====
section
/-! DEFINITION. Resets of the hub and of functions, Bus Master Enable, and the run of an activation (R450, R505, R508–R511,
R557, R558, R565, R585). -/
namespace Sys2Proof.Machine

/-! ## Reset of the host side (R508, R585) -/

/-- Whether a register's key lies in the hub's part of the address space. -/
def hubKey (k : Nat) : Bool := decide (0x40000000 * 32 ≤ k)

/-- A kerf port after a reset of the hub: both ends start anew; what lane 0 shows stays. -/
def Port.anew (p : Port) : Port := { signal := p.signal }

/-- A schedule that a reset discards takes a history entry (R555). -/
def State.dropSchedule (s : State) : State :=
  match s.fwu.sched with
  | none => s
  | some _ => ({ s with fwu := { s.fwu with sched := none } } : State).fwHistory resCancelled 11 0 s.altVer 0

/-- The endpoint after a reset: an activation and a rollback keep configuration space (R508, R558). -/
def Ep.anew (e : Ep) (keep : Bool) : Ep :=
  if keep then
    { fns := (({} : Ep).fns).mapIdx fun i x => { x with cfg := (e.fns[i]?.getD {}).cfg, d3 := (e.fns[i]?.getD {}).d3 }
      numVfs := e.numVfs, perst := e.perst, subsysVendor := e.subsysVendor, subsysId := e.subsysId, autoBandwidth := e.autoBandwidth }
  else { perst := e.perst }

/-- The whole host side but the always-on domain and the flash is reset; it waits in reset for its boot (R508, R555, R558, R569,
R585, R597). TIM_NOW is loaded from the keeper (R586). -/
def State.hubReset (s : State) (cause : ResetCause) : State :=
  let keep := cause = .activation ∨ cause = .rollback
  let s := if cause = .activation then { s with fwu := { s.fwu with sched := none } } else s.dropSchedule
  let w := s.fwu
  { s with
    regs := s.regs.filter fun e => !hubKey e.1
    staged := s.staged.filter fun e => !hubKey e.1
    waiting := s.waiting.filter fun e => !hubKey e.1
    groups := s.groups.filter (· ≠ .lndWindow)
    ports := s.ports.map Port.anew
    mem := s.mem.filter fun c => decide (flashAt ≤ c.1 ∧ c.1 < flashAt + 0x8000000)
    lnd := {}, miu := {}, vlk := {}, crew := {}, qen := {}, hic := {}
    ep := s.ep.anew keep
    skd := Vector.replicate 32 {}
    skdLast := 31
    fwu := { banks := w.banks, settings := w.settings, slot := w.slot, history := w.history, run := w.run, bank := w.bank
             svnFloor := w.svnFloor, lost := w.lost, notify := w.notify, noFlush := decide (cause = .activation) && w.noFlush }
    dies := s.dies.map fun (x : DieSt) => { x with fails := 0, failed := false }
    pwr := { boot := .held, tripped := s.pwr.tripped, hot := s.pwr.hot, keeper := s.pwr.keeper, frac := s.pwr.frac
             xtal := s.pwr.xtal, lost := s.pwr.lost, ticks := s.pwr.ticks, aonLost := s.pwr.aonLost, cause
             faultN := s.pwr.tripped || s.pwr.hot, events := s.pwr.events, now := s.pwr.keeper } }

/-! ## Commands of a function (R446, R511) -/

/-- Whether a command under way still has host memory to read or write, other than its completion entry (R511). -/
def Cmd.needsHost (c : Cmd) : Bool :=
  let reads := decide (c.st = .checked) || (match c.wait with | .host _ => true | _ => false)
  match c.opcode with
  | 0x01 | 0x02 | 0x8D | 0x94 | 0x98 | 0x9A | 0x9B => true
  | 0x03 => reads || decide (c.wait = .mount)
  | 0x07 => c.word 7 != 0
  | 0x84 | 0x90 => reads
  | 0x99 => !bitOf (c.word 7) 9 && reads
  | _ => false

/-- The work items that serve a command alone: scanned logs, and fills that nobody else waits for. -/
def State.itemsOf (s : State) (c : Cmd) : List HubItem :=
  s.crew.items.filter fun (x : HubItem) =>
    match x.what with
    | .verify id _ => id == c.id
    | .cruise id => id == c.id
    | .fill m => match s.miss m with
      | some y => !y.closing && !y.ranged && y.waiters != [] && y.waiters.all fun (r : Request) => decide (r.owner = .cmd c.id)
      | none => false
    | _ => false

/-- A command is decided early with a status: its work items are dropped as for a discard, its host read is given up (R446,
R450, R458, R511). -/
def State.decideEarly (s : State) (c : Cmd) (st : Nat) (counted : Bool) : State :=
  let items := s.itemsOf c
  let s := (((s.killCmdRead c.id counted).giveContext c).leaveUnmounts c.id).finish c st 0
  items.foldl (fun (t : State) (x : HubItem) => t.sendReset x.die true x.item 0 0) s

/-- A fetch under way is given up: its entries are fetched again later (R511). -/
def State.unfetch (s : State) (r : HostRead) : State :=
  match r.what with
  | .fetch q start _ =>
    let s := s.killRead r true
    match s.queue r.func q with
    | some x => s.setQueue { x with sqHead := start }
    | none => s
  | .cmd _ => s

/-- A function stops issuing requests (R505, R511): fetch stops, and commands that still need host memory are decided
HOST_PATH_HALTED. -/
def State.haltHost (s : State) (f : Nat) : State :=
  let s := (s.ep.reads.filter fun (r : HostRead) => r.func == f).foldl State.unfetch s
  ((s.qen.cmds.filter fun (c : Cmd) => c.func == f && c.needsHost).foldl (fun (t : State) c => t.decideEarly c stHalted true) s).settle

/-- A function may issue requests again: held entries are posted, each with its message (R505, R511). -/
def State.resumeHost (s : State) (f : Nat) : State :=
  if s.master f then
    ((s.qen.queues.filter fun (x : Queue) => x.func == f).foldl (fun (t : State) x => t.postAll x.func x.qid) s).cutsReady
  else s

/-! ## Function-level reset (R509, R510) -/

/-- Counters and orders of a function's EP block, and its management ENABLE and counters (R450, R509, R515). -/
def flrFields : List (Block × Field) :=
  [(.ep, F.EP_ORDER_MODE), (.ep, F.EP_CNT0_CPL_TIMEOUTS), (.ep, F.EP_CNT0_CPL_FAILED), (.ep, F.EP_CNT1_CPL_DISCARDED),
   (.ep, F.EP_CNT1_BAD_ACCESS), (.ep, F.EP_LINK_CNT_RETRAINS), (.ep, F.EP_LINK_CNT_SPEED_CHANGES), (.qen, F.QEN_MQ_CTL_ENABLE),
   (.qen, F.QEN_DB_ERR_COUNT), (.qen, F.QEN_CNT_DISCARDS), (.qen, F.QEN_CNT_HALTS)]

/-- A function-level reset of one function (R509): nothing is posted. -/
def State.functionReset (s : State) (f : Nat) : State :=
  let qs := (s.qen.queues.filter fun (x : Queue) => x.func == f).map (·.qid)
  let s := (s.ep.reads.filter fun (r : HostRead) => r.func == f).foldl (fun (t : State) r => t.killRead r true) s
  let s := qs.foldl (fun (t : State) q => t.resetPorts f q) s
  let s := (s.qen.cmds.filter fun (c : Cmd) => c.func == f).foldl (fun (t : State) c =>
    ((t.giveContext c).leaveUnmounts c.id).dropCmd c.id) s
  let s := { s with
    qen := { s.qen with
      queues := s.qen.queues.filter fun (x : Queue) => x.func ≠ f
      posts := s.qen.posts.filter fun (p : Post) => p.func ≠ f
      cuts := s.qen.cuts.filter fun (c : Cut) => c.func ≠ f }
    ep := { s.ep with msix := s.ep.msix.filter fun e => e.1 / 2048 ≠ f } }
  let s := (s.vlk.sessions.filter fun (x : Session) => x.func == f).foldl (fun (t : State) x => t.freeSession x.id) s
  let s := flrFields.foldl (fun (t : State) e => t.put (funAt e.1 f) e.2 0) s
  (s.setFn f { s.fn f with cfg := {}, d3 := false }).irq 153

/-- VF Enable is cleared: every virtual function is reset and disabled (R508). -/
def State.dropVfs (s : State) : State :=
  let s := (List.range s.ep.numVfs).foldl (fun (t : State) i => t.functionReset (i + 1)) s
  { s with ep := { s.ep with numVfs := 0 } }

/-- The window of the active set is closed at a commit point; its ways keep their content (R510). -/
def State.closeWindow (s : State) : State :=
  let held := s.lnd.held
  let s := s.put (hubAt .lnd) F.LND_WIN_MAP_SIZE_LOG2 0
  held.foldl (fun (t : State) r => t.winServe r) { s with lnd := { s.lnd with held := [] } }

/-- A range operation started by register is aborted (R510). -/
def State.abortOwnRange (s : State) : State :=
  match s.lnd.range with
  | some x => if x.op.cmd = none then s.rangeAbort else s
  | none => s

/-- A reset of a function; the physical function's takes every virtual function with it, closes the window and aborts its range
operation (R508–R510). -/
def State.flr (s : State) (f : Nat) : State :=
  if f = 0 then (((s.dropVfs).functionReset 0).closeWindow).abortOwnRange.settle else (s.functionReset f).settle

/-! ## Activation and rollback (R557, R565) -/

/-- Step 1: fetch stops, the range engine and the cruise runs abort, and nothing new starts but recordings (R557). -/
def State.beginRun (s : State) (a : Activation) : State :=
  let s := { s with fwu := { s.fwu with act := some a, sched := if a.rollback.isSome then s.fwu.sched else none }
                    qen := { s.qen with stopped := true } }
  let s := (s.put (hubAt .fwu) F.FWU_CNT_ACTIVATIONS (min 0xFFFF (s.get (hubAt .fwu) F.FWU_CNT_ACTIVATIONS + b2n a.rollback.isNone)))
  (List.finRange 12).foldl (fun (t : State) b => t.cruAbort b) s.rangeAbort

/-- Whether a command waits for recordings (R440, R449, R557). -/
def State.waitsForMedium (s : State) (c : Cmd) : Bool :=
  ((c.opcode == 0x03 || c.opcode == 0x06) && c.lines != [] && decide (c.wait = .none))
    || (c.opcode == 0x85 && s.closePending c.id)
    || (match c.wait with | .unmount b => s.crew.bays[b].gens != [] | _ => false)

/-- Whether a transfer in motion serves a command (R557). -/
def State.inTransfer (s : State) (c : Cmd) : Bool :=
  decide (c.wait = .move) || (match c.wait with | .unmount b => s.crew.items.any fun (x : HubItem) => decide (x.what = .putBack b) | _ => false)

/-- Decide every command that a condition does not keep (R450, R557). -/
def State.decideAll (s : State) (keep : State → Cmd → Bool) : State :=
  (s.qen.cmds.filter fun c => !keep s c).foldl (fun (t : State) c =>
    t.decideEarly c (if decide (c.wait = .health) then stNotPermitted else stByActivation) false) s

/-- Decided entries of every queue are posted (R557). -/
def State.postEverything (s : State) : State :=
  (s.qen.queues.foldl (fun (t : State) x => t.postAll x.func x.qid) s).cutsReady

/-- Step 2 has ended, and step 3 begins: DIRTY lines are handed over unless the schedule says otherwise (R557). -/
def State.beginFlush (s : State) (a : Activation) : State :=
  let s := s.decideAll fun t c => t.waitsForMedium c || t.inTransfer c || decide (c.wait = .health)
  let s := { s with fwu := { s.fwu with act := some { a with step := .flush } } }
  let keys := (s.linesIn .dirty).map fun e => (e.2.slot, e.2.log)
  (if a.sched.noFlush then s else s.handOverKeys keys).settle

/-- Step 3 has ended: what is still unrecorded is lost, with what the trial set's own activation lost; every waiting command is decided and posted (R557). -/
def State.endFlush (s : State) (a : Activation) : State :=
  let s := { s with fwu := { s.fwu with lost := s.fwu.lost + s.unrecorded, act := some { a with step := .post } } }
  (s.decideAll State.inTransfer).postEverything

/-- Steps 5 and 6: the journal is written and the hub resets (R557–R559, R565). -/
def State.finishRun (s : State) (a : Activation) : State :=
  let s := s.postEverything
  let j := s.journal
  match a.rollback with
  | none =>
    let s := s.writeJournal { active := if s.fwu.run = .recovery then j.active else s.fwu.bank, st := .pending, new := s.altBank
                              confirm := a.sched.confirm, window := a.sched.window }
    let s := { s with fwu := { s.fwu with notify := true, noFlush := a.sched.noFlush } }
    s.hubReset .activation
  | some reason =>
    let ver := s.runVer
    let s := s.writeJournal { active := j.active, st := .steady, new := j.active, window := j.window }
    let s := (s.fwHistory resAbandoned reason 0 ver s.fwu.lost).raiseHub 0x0E03 reason 0xFFFF
    let s := s.bump (hubAt .fwu) F.FWU_CNT_ROLLBACKS
    ({ s with fwu := { s.fwu with lost := 0, notify := true } } : State).hubReset .rollback

end Sys2Proof.Machine
end

