-- ==== Sys2Proof/Machine/Commands.lean ====
section
/-! DEFINITION. What the commands of the queues do once no fence holds them (chapter 15): one row per opcode. Each row names the
command by its number in order of fetch; a row whose command is not there, or is held, does nothing. -/
namespace Sys2Proof.Machine

/-- The command of a row starts, if it can, and everything that may go on after it does. -/
def State.starts (s : State) (id op : Nat) (f : State → Cmd → State) : State :=
  match s.startable id op with
  | some c => (f (s.setCmd c) c).settle
  | none => s

/-! ## Boards (R440, R441, R449, R460–R465) -/

/-- READ (R460). -/
def execRead (id : Nat) (upset : List (Nat × Nat)) (s : State) : Host.Outcome State Fault Refusal :=
  .next ((s.upset upset).starts id 0x01 fun s c => s.startBoards c (c.word 5) c.titleBoards)

/-- The boards of a vault address: index, slot, log and LBA (R66, R461). -/
def Cmd.vaultBoards (c : Cmd) : List (Nat × Nat × Nat × Nat) :=
  (List.range c.count).map fun i =>
    let lba := c.address % 2 ^ 32 + i
    (i, c.address / 2 ^ 32, lba / 16, lba)

/-- READ_RAW (R461). -/
def execReadRaw (id : Nat) (upset : List (Nat × Nat)) (s : State) : Host.Outcome State Fault Refusal :=
  .next ((s.upset upset).starts id 0x02 fun s c =>
    ((s.setCmd { c with boards := c.vaultBoards }).askLogs c.id (logsOf c.vaultBoards)).ifDone c.id)

/-- RECORD (R441, R462). -/
def execRecord (id : Nat) (upset : List (Nat × Nat)) (s : State) : Host.Outcome State Fault Refusal :=
  .next ((s.upset upset).starts id 0x03 State.recordStart)

/-- PRELOAD (R463). -/
def execPreload (id : Nat) (s : State) : Host.Outcome State Fault Refusal :=
  .next (s.starts id 0x04 fun s c =>
    if !s.lndOn then s.finish c stNotPermitted 0
    else if bitOf (c.word 7) 0 then
      let l := logsOf c.vaultBoards
      ((s.setCmd { c with lines := l }).askPreload c.id l).ifDone c.id
    else s.startBoards c (c.word 5) c.titleBoards)

/-- FENCE: it starts only once every earlier command of its SQ has posted (R440, R464). -/
def execFence (id : Nat) (s : State) : Host.Outcome State Fault Refusal :=
  .next (s.starts id 0x05 fun s c => s.finish c stSuccess 0)

/-- The lines that a FLUSH covers: those that a decided RECORD of its SQ has written and that are not yet settled (R449). -/
def State.covered (s : State) (c : Cmd) : List (Nat × Nat) :=
  let mine := s.lnd.writers.filter fun (w : Writer) => w.func == c.func && w.qid == c.qid && (s.cmd w.cmd).isNone
  (mine.map fun (w : Writer) => (w.slot, w.log)).eraseDups.filter fun k =>
    match s.findLine k.1 k.2 with
    | some e => decide ((s.line e).st = .dirty) || decide ((s.line e).st = .recording)
    | none => false

/-- FLUSH (R449, R464). -/
def execFlush (id : Nat) (upset : List (Nat × Nat)) (s : State) : Host.Outcome State Fault Refusal :=
  .next ((s.upset upset).starts id 0x06 fun s c =>
    let l := s.covered c
    ((s.setCmd { c with lines := l }).handOverKeys l).ifDone c.id)

/-- VERIFY_SCAN (R465). -/
def execVerifyScan (id : Nat) (s : State) : Host.Outcome State Fault Refusal := .next (s.starts id 0x07 State.scanStart)

/-! ## Queues and sessions (R443–R446, R466–R469) -/

/-- The queue pair that a CREATE QUEUE PAIR makes (R466). -/
def Cmd.newQueue (c : Cmd) : Queue :=
  { func := c.func, qid := bitsOf (c.word 7) 9 0, depth := c.count, sqBase := c.wide 8, cqBase := c.wide 10
    cls := bitsOf (c.word 7) 17 16, vector := bitsOf (c.word 12) 10 0, ien := bitOf (c.word 12) 16 }

/-- CREATE_QUEUE_PAIR (R466). -/
def execCreateQueuePair (id : Nat) (s : State) : Host.Outcome State Fault Refusal :=
  .next (s.starts id 0x80 fun s c =>
    let x := c.newQueue
    if (s.queue x.func x.qid).isSome then s.finish c stNotPermitted 0
    else ({ s with qen := { s.qen with queues := s.qen.queues ++ [x] } } : State).finish c stSuccess 0)

/-- DELETE_QUEUE_PAIR (R444, R446, R467). -/
def execDeleteQueuePair (id : Nat) (s : State) : Host.Outcome State Fault Refusal := .next (s.starts id 0x81 State.resetStart)

/-- RESET_QUEUE (R444, R446, R467). -/
def execResetQueue (id : Nat) (s : State) : Host.Outcome State Fault Refusal := .next (s.starts id 0x82 State.resetStart)

/-- SESSION_OPEN (R403, R468). -/
def execSessionOpen (id : Nat) (s : State) : Host.Outcome State Fault Refusal := .next (s.starts id 0x84 State.openStart)

/-- SESSION_CLOSE (R401, R412, R469). -/
def execSessionClose (id : Nat) (s : State) : Host.Outcome State Fault Refusal :=
  .next (s.starts id 0x85 fun s c => (s.closeStart c).closeFinal c.session)

/-! ## Discs and bays (R340, R470–R474) -/

/-- MOUNT (R470). -/
def execMount (id : Nat) (s : State) : Host.Outcome State Fault Refusal := .next (s.starts id 0x88 State.mountStart)

/-- UNMOUNT (R471). -/
def execUnmount (id : Nat) (s : State) : Host.Outcome State Fault Refusal := .next (s.starts id 0x89 State.unmountStart)

/-- MOVE_DISC (R472). -/
def execMoveDisc (id : Nat) (s : State) : Host.Outcome State Fault Refusal := .next (s.starts id 0x8A State.moveDiscStart)

/-- The bay of a command. -/
def Cmd.bay (c : Cmd) : Bay := Fin.ofNat 12 (c.word 7 % 16)

/-- CRUISE_NOW: a CRUISE item raises NOW on the bay, joining a pending one there (R340, R473). -/
def execCruiseNow (id : Nat) (s : State) : Host.Outcome State Fault Refusal :=
  .next (s.starts id 0x8C fun s c =>
    let d := dieOfBay c.bay
    match s.dieBlocked d with
    | some st => s.finish c st 0
    | none =>
      let mounted : Bool := match s.crew.bays[c.bay].disc with | some x => x.mounted | none => false
      if !mounted || !s.has (bayAt .cru c.bay) F.CRU_CTL_ENABLE then s.finish c stNotPermitted 0
      else ((s.setCmd { c with wait := .cruise c.bay }).sendWork d 7 c.cls (bayInDie c.bay) c.func c.qid [] (.cruise c.id)).1)

/-- QUERY_BAY (R474). -/
def execQueryBay (id : Nat) (s : State) : Host.Outcome State Fault Refusal :=
  .next (s.starts id 0x8D fun s c =>
    let r := s.bayRecord c.bay
    (s.hostWrite c.func c.buffer r true).finish c stSuccess (fieldAt r 0 4))

/-! ## Firmware (R475–R478) -/

/-- Replace the status of a bank. -/
def State.setBank (s : State) (b : Fin 2) (x : Bank) : State := { s with fwu := { s.fwu with banks := s.fwu.banks.set b x } }

/-- A chunk's status, if it is refused (R475). -/
def State.chunkRefused (s : State) (c : Cmd) : Option Nat :=
  let x := s.fwu.banks[s.altBank]
  let ofs := c.word 7
  if s.fwu.sched.isSome then some stNotPermitted
  else if ofs = 0 then none
  else if x.st = .loaded then some stNotPermitted
  else if ofs ≠ x.units ∨ 15360 < ofs + c.count then some stInvalidField
  else none

/-- BUNDLE_DOWNLOAD: chunks run one at a time in order of fetch; an accepted one is read from the host, then programmed
(R475, R554). -/
def execBundleDownload (id : Nat) (s : State) : Host.Outcome State Fault Refusal :=
  if s.qen.cmds.any fun (x : Cmd) => x.opcode == 0x90 && decide (x.id < id) then .next s
  else .next (s.starts id 0x90 fun s c =>
    match s.chunkRefused c with
    | some st => s.finish c st 0
    | none =>
      let s := if c.word 7 = 0 then s.setBank s.altBank { st := .partly } else s
      (s.setCmd { c with wait := .host 0 }).hostRead c.func c.buffer (4096 * c.count) true (.cmd c.id))

/-- SCHEDULE_ACTIVATION (R476, R566). -/
def execScheduleActivation (id : Nat) (s : State) : Host.Outcome State Fault Refusal :=
  .next (s.starts id 0x91 fun s c =>
    let x : Schedule := { time := c.wide 8, noFlush := bitOf (c.word 7) 0, confirm := bitOf (c.word 7) 1
                          window := if c.word 10 = 0 then 600 else c.word 10 }
    if x.time < s.now + 1000000 then s.finish c stTimePassed 0
    else if !s.vlk.timeSet ∨ !s.altLoaded ∨ s.fwu.sched.isSome ∨ s.fwu.run = .trial then s.finish c stNotPermitted 0
    else ({ s with fwu := { s.fwu with sched := some x } } : State).finish c stSuccess 0)

/-- CANCEL_ACTIVATION (R477). -/
def execCancelActivation (id : Nat) (s : State) : Host.Outcome State Fault Refusal :=
  .next (s.starts id 0x92 fun s c =>
    if s.fwu.sched.isNone then s.finish c stNotPermitted 0
    else ({ s with fwu := { s.fwu with sched := none } } : State).finish c stSuccess 0)

/-- CONFIRM_HEALTH: it waits for the self-tests (R478, R564). -/
def execConfirmHealth (id : Nat) (s : State) : Host.Outcome State Fault Refusal :=
  .next (s.starts id 0x93 fun s c =>
    if s.fwu.run ≠ .trial ∨ !s.journal.confirm then s.finish c stNotPermitted 0
    else
      let s := ({ s with fwu := { s.fwu with hostAsked := true } } : State).setCmd { c with wait := .health }
      if s.fwu.tested then s.confirmSet else s)

/-! ## Pages, features and registers (R482, R483, R486) -/

/-- GET_LOG_PAGE (R483). -/
def execGetLogPage (id : Nat) (s : State) : Host.Outcome State Fault Refusal :=
  .next (s.starts id 0x94 fun s c =>
    match s.pageBytes (c.word 7) c.func with
    | (s, page) =>
      let part := (page.drop (c.word 8)).take c.count
      (s.hostWrite c.func c.buffer (part ++ List.replicate (c.count - part.length) 0) true).finish c stSuccess page.length)

/-- Keep a feature in the settings slot in use (R567). -/
def State.saveFeature (s : State) (fid f v : Nat) : State :=
  match s.fwu.settings[s.fwu.slot] with
  | some x =>
    let y : Settings := { x with features := assocPut x.features (64 * fid + f) v, seq := (x.seq + 1) % 2 ^ 32 }
    { s with fwu := { s.fwu with settings := s.fwu.settings.set s.fwu.slot (some y) } }
  | none => s

/-- FID and FUNC of a feature command; FUNC is ignored for device-wide features (R486). -/
def Cmd.fid (c : Cmd) : Nat := bitsOf (c.word 7) 7 0
def Cmd.target (c : Cmd) : Nat := if c.fid ≤ 3 then bitsOf (c.word 7) 21 16 else 0

/-- SET_FEATURE (R486, R487, R567). -/
def execSetFeature (id : Nat) (s : State) : Host.Outcome State Fault Refusal :=
  .next (s.starts id 0x95 fun s c =>
    match s.featureRefused c.fid c.target (c.word 8) with
    | some st => s.finish c st 0
    | none => ((s.setFeature c.fid c.target (c.word 8)).saveFeature c.fid c.target (c.word 8)).finish c stSuccess 0)

/-- GET_FEATURE (R486). -/
def execGetFeature (id : Nat) (s : State) : Host.Outcome State Fault Refusal :=
  .next (s.starts id 0x96 fun s c => s.finish c stSuccess (s.feature c.fid c.target))

/-- FIELD_REGISTER_READ (R3, R482). -/
def execFieldRegisterRead (id : Nat) (s : State) : Host.Outcome State Fault Refusal :=
  .next (s.starts id 0x98 fun s c => (s.setCmd { c with wait := .regs 0 0 }).regsStep c.id)

/-- FIELD_REGISTER_WRITE: its values come from the entry, or are read from the buffer first (R3, R482). -/
def execFieldRegisterWrite (id : Nat) (s : State) : Host.Outcome State Fault Refusal :=
  .next (s.starts id 0x99 fun s c =>
    if bitOf (c.word 7) 9 then (s.setCmd { c with wait := .regs 0 0 }).regsStep c.id
    else (s.setCmd { c with wait := .host 0 }).hostRead c.func c.buffer (4 * c.count) true (.cmd c.id))

/-- REG_DATA_TIMEOUT: a word of a FIELD REGISTER command has had no answer for 1 ms (R482). -/
def execRegDataTimeout (id : Nat) (s : State) : Host.Outcome State Fault Refusal :=
  match s.cmd id with
  | none => .next s
  | some c => match c.wait with | .regs _ _ => .next (s.finish c stFault 0).settle | _ => .next s

/-! ## The landing, the scale book and time (R371, R426, R479–R481) -/

/-- A range command runs, or waits for the engine (R371, R480). -/
def State.rangeCommand (s : State) (c : Cmd) : State :=
  match c.rangeOp with
  | none => s.finish c stInvalidField 0
  | some o =>
    if (o.kind = .preload ∨ o.kind = .preloadLock) ∧ !s.lndOn then s.finish c stNotPermitted 0
    else (s.setCmd { c with wait := .engine }).commandRange o

/-- SCRUB_RANGE (R371, R480). -/
def execScrubRange (id : Nat) (upset : List (Nat × Nat)) (s : State) : Host.Outcome State Fault Refusal :=
  .next ((s.upset upset).starts id 0x9A State.rangeCommand)

/-- LANDING_RANGE_OP (R371, R480). -/
def execLandingRangeOp (id : Nat) (upset : List (Nat × Nat)) (s : State) : Host.Outcome State Fault Refusal :=
  .next ((s.upset upset).starts id 0x9B State.rangeCommand)

/-- Slots of decks first to last (R423). -/
def deckSlots (first last : Nat) : List Nat := (List.range (256 * (last + 1 - first))).map (256 * first + ·)

/-- SCALE_BOOK_STALE: the slots of the named decks become STALE (R423, R481). -/
def execScaleBookStale (id : Nat) (s : State) : Host.Outcome State Fault Refusal :=
  match s.cmd id with
  | some x =>
    if bitOf (x.word 7) 0 then .next s
    else .next (s.starts id 0x9C fun s c =>
      let l := deckSlots (c.word 8 % 16) (c.word 8 / 16)
      (l.foldl State.staleSlot s).finish c stSuccess l.length)
  | none => .next s

/-- SCALE_BOOK_HINT: a hint is added, the oldest leaving beyond 4,096 (R426, R481). -/
def execScaleBookHint (id : Nat) (s : State) : Host.Outcome State Fault Refusal :=
  match s.cmd id with
  | some x =>
    if !bitOf (x.word 7) 0 then .next s
    else .next (s.starts id 0x9C fun s c =>
      let h := s.vlk.hints ++ [{ title := c.word 5, offset := c.word 4, count := c.count, slot := c.word 8 }]
      ({ s with vlk := { s.vlk with hints := h.drop (h.length - 4096) } } : State).finish c stSuccess 0)
  | none => .next s

/-- SET_TIME (R400, R479, R586). -/
def execSetTime (id : Nat) (s : State) : Host.Outcome State Fault Refusal :=
  .next (s.starts id 0x9D fun s c =>
    let t := c.wide 8
    let s := { s with pwr := { s.pwr with now := t, keeper := t, frac := 0 }, vlk := { s.vlk with timeSet := true } }
    (s.seeTime.irq 162).finish c stSuccess 0)

end Sys2Proof.Machine
end

