-- ==== Sys2Proof/Machine/Endpoint.lean ====
section
/-! DEFINITION. The commands of the host endpoint (chapter 16): accesses to BAR0 and BAR4, Bus Master Enable, power states, resets,
completions of host reads, MSI-X and the link. -/
namespace Sys2Proof.Machine

/-! ## BAR0 and BAR4 (R494, R495, R501, R507, R602) -/

/-- Bytes of a function's BAR0 and BAR4 (R492). -/
def barSize (f : Nat) (four : Bool) : Nat :=
  if four then (if f = 0 then 0x8000 else 0x2000) else if f = 0 then 0x4000000 else 0x40000

/-- Whether an access has one of the two sizes, aligned (R494). -/
def Bar0Req.sized (r : Bar0Req) : Bool := (r.len == 4 && r.off % 4 == 0) || (r.len == 8 && r.off % 8 == 0)

/-- A read that the endpoint answers with data. -/
def State.complete (s : State) (f : Nat) (bs : Bytes) : State :=
  s.emit (.completion f bs (s.has (funAt .ep f) F.EP_ORDER_MODE && (s.fn f).cfg.idoCpl))

/-- An access of another size or alignment: a write is dropped, a read gets Completer Abort (R494). -/
def State.badAccess (s : State) (r : Bar0Req) : State :=
  let a := funAt .ep r.func
  let s := (s.bump a F.EP_CNT1_BAD_ACCESS).put a F.EP_BAD_ACCESS_OFFSET r.off
  if r.value.isSome then s else (s.emit (.abort r.func)).aer r.func .completerAbort

/-- An access to a function that is not there or in D3hot gets Unsupported Request (R505). -/
def State.unsupported (s : State) (r : Bar0Req) : State :=
  let s := if r.value.isSome then s else s.emit (.unsupported r.func)
  s.aer r.func .unsupportedRequest

/-- Word i of the PBA. -/
def State.pbaWord (s : State) (f i : Nat) : Nat :=
  (List.range 32).foldl (fun m k => m + b2n (s.msixEntry f (32 * i + k)).pend * 2 ^ k) 0

/-- A word of BAR4: the MSI-X table and the PBA (R491, R501). -/
def State.tableWord (s : State) (f o : Nat) : Nat :=
  let pba := if f = 0 then 0x4000 else 0x1000
  if o < 16 * msixSize f then
    let e := s.msixEntry f (o / 16)
    if o % 16 = 0 then e.addrLo else if o % 16 = 4 then e.addrHi else if o % 16 = 8 then e.data else e.ctrl
  else if pba ≤ o ∧ o < pba + 4 * ((msixSize f + 31) / 32) then s.pbaWord f ((o - pba) / 4)
  else 0

/-- A write of a word of the MSI-X table; the PBA is read only (R501). -/
def State.tableWrite (s : State) (f o w : Nat) : State :=
  if o < 16 * msixSize f then
    let v := o / 16
    let e := s.msixEntry f v
    s.setMsix f v (if o % 16 = 0 then { e with addrLo := w } else if o % 16 = 4 then { e with addrHi := w }
      else if o % 16 = 8 then { e with data := w } else { e with ctrl := w % 2 })
  else s

/-- Until GLB_STATUS.READY only the GLB and EP registers of BAR0 act (R507). -/
def State.barActs (s : State) (f o : Nat) : Bool :=
  decide (s.pwr.boot = .ready) ||
    (match hubSplit (barAddr f o) with | some (_, .glb, _) => true | some (_, .ep, _) => true | _ => false)

/-- The initiator of BAR0 accesses (R416). -/
def barInit (f : Nat) : Init := { group := if f = 0 then 4 else 5 }

/-- A word read from BAR0. -/
def State.barRead (s : State) (f o : Nat) : State × Nat :=
  if s.barActs f o then s.hubLoad (barInit f) (barAddr f o) else (s, 0)

/-- A word written to BAR0. -/
def State.barWrite (s : State) (f o w : Nat) : State :=
  if s.barActs f o then s.hubWrite (barInit f) (barAddr f o) (BitVec.ofNat 32 w) else s

/-- Offsets and values of the words of an access. -/
def Bar0Req.words (r : Bar0Req) : List (Nat × Nat) :=
  (List.range (r.len / 4)).map fun i => (r.off + 4 * i, r.value.getD 0 / 2 ^ (32 * i) % 2 ^ 32)

/-- An access to BAR0 that the sizes let through; the protection map of a locked part may deny it (R416, R418). -/
def State.bar0 (s : State) (r : Bar0Req) : State :=
  let f := r.func.val
  let write := r.value.isSome
  if s.locked && s.barActs f r.off && !s.mayReach (barInit f) (barAddr f r.off) write then
    let s := s.pevLog (barAddr f r.off) (barInit f).group write false
    if write then s else s.complete f (List.replicate r.len 0)
  else if write then r.words.foldl (fun (t : State) x => t.barWrite f x.1 x.2) s
  else
    match r.words.foldl (fun (x : State × Bytes) (y : Nat × Nat) =>
      match x.1.barRead f y.1 with | (t, v) => (t, x.2 ++ leBytes 4 v)) (s, []) with
    | (t, bs) => t.complete f bs

/-- An access to BAR4. -/
def State.bar4 (s : State) (r : Bar0Req) : State :=
  let f := r.func.val
  if r.value.isSome then r.words.foldl (fun (t : State) x => t.tableWrite f x.1 x.2) s
  else s.complete f (r.words.flatMap fun x => leBytes 4 (s.tableWord f x.1))

/-- BAR0_REQUEST: a Memory Read or Write to BAR0, or to the MSI-X table and PBA of BAR4, in order of arrival (R494, R495, R501,
R505, R507). -/
def execBar0Request (r : Bar0Req) (s : State) : Host.Outcome State Fault Refusal :=
  .next <|
    if s.pwr.boot = .held ∨ barSize r.func r.bar4 ≤ r.off then s
    else if !s.fnOn r.func ∨ (s.fn r.func).d3 then s.unsupported r
    else if !r.sized then s.badAccess r
    else if r.bar4 then s.bar4 r
    else (s.bar0 r).settle

/-! ## Bus Master Enable, power states and resets (R505, R508–R511) -/

/-- BME_CLEAR (R511). -/
def execBmeClear (f : Fin 64) (s : State) : Host.Outcome State Fault Refusal :=
  let x := s.fn f
  .next <|
    if !s.fnOn f ∨ !x.cfg.bme then s
    else ((s.setFn f { x with cfg := { x.cfg with bme := false } }).haltHost f).irq 153

/-- BME_SET: the host sets Bus Master Enable, with the function's other settings as they then stand; on the physical function the
host may enable virtual functions with it (R491, R511). -/
def execBmeSet (f : Fin 64) (cfg : FnCfg) (numVfs : Option (Fin 64)) (s : State) : Host.Outcome State Fault Refusal :=
  .next <|
    if !s.fnOn f then s
    else
      let s := s.setFn f { s.fn f with cfg := { cfg with bme := true } }
      let s := match numVfs with
        | some n => if f = 0 ∧ s.ep.numVfs = 0 then { s with ep := { s.ep with numVfs := n.val } } else s
        | none => s
      ((s.resumeHost f).irq 153).settle

/-- FUNCTION_LEVEL_RESET: Initiate FLR of a function, or the clearing of VF Enable (R508–R510). -/
def execFunctionLevelReset (f : Fin 64) (vfEnableClear : Bool) (s : State) : Host.Outcome State Fault Refusal :=
  .next <| if !s.fnOn f then s else if vfEnableClear then (if f = 0 then s.dropVfs.settle else s) else s.flr f

/-- D3HOT_ENTRY acts as a clearing of Bus Master Enable (R505). -/
def execD3hotEntry (f : Fin 64) (s : State) : Host.Outcome State Fault Refusal :=
  let x := s.fn f
  .next <| if !s.fnOn f ∨ x.d3 then s else ((s.setFn f { x with d3 := true }).haltHost f).irq 153

/-- D0_RETURN keeps every queue, session and table; held entries are posted once Bus Master Enable is 1 too (R505). -/
def execD0Return (f : Fin 64) (s : State) : Host.Outcome State Fault Refusal :=
  let x := s.fn f
  .next <| if !s.fnOn f ∨ !x.d3 then s else (((s.setFn f { x with d3 := false }).resumeHost f).irq 153).settle

/-- PERST_ASSERT: a fundamental reset (R508, R585). -/
def execPerstAssert (s : State) : Host.Outcome State Fault Refusal :=
  let s := s.hubReset .perst
  .next { s with ep := { s.ep with perst := true } }

/-- HOT_RESET: an in-band hot reset, or DL_Down for any other cause (R508, R512). -/
def execHotReset (s : State) : Host.Outcome State Fault Refusal :=
  .next <| if s.ep.perst ∨ s.pwr.boot = .held then s else s.hubReset .hot

/-! ## Completions of host reads (R442, R496–R498, R509, R511) -/

/-- Reads whose command is gone are given up. -/
def State.dropOrphans (s : State) : State :=
  (s.ep.reads.filter fun (r : HostRead) => match r.what with | .cmd id => (s.cmd id).isNone | .fetch _ _ _ => false).foldl
    (fun (t : State) r => t.killRead r false) s

/-- The read and the piece that hold a tag. -/
def State.tagOf (s : State) (tag : Nat) : Option (HostRead × Piece) :=
  s.ep.reads.findSome? fun (r : HostRead) => (r.pieces.find? fun (p : Piece) => decide (p.st = .out tag)).map fun p => (r, p)

/-- Replace the piece of a read that holds a tag. -/
def State.setPiece (s : State) (r : HostRead) (tag : Nat) (p : Piece) : State :=
  { s with ep := { s.ep with reads := s.ep.reads.map fun (x : HostRead) =>
    if x = r then { x with pieces := x.pieces.map fun (y : Piece) => if y.st = .out tag then p else y } else x } }

/-- Whether a completion matches the remainder of its request: its byte count is what is left, and it ends at a multiple of the
read completion boundary or with its request (R498). -/
def fitsPiece (rcb : Nat) (p : Piece) (x : CompletionIn) : Bool :=
  let left := p.len - p.data.length
  let stop := p.addr + p.data.length + x.data.length
  decide (x.count = left ∧ 0 < x.data.length ∧ x.data.length ≤ left) && (x.data.length == left || stop % rcb == 0)

/-- Whether a completion is the last of its request. -/
def CompletionIn.last (x : CompletionIn) : Bool :=
  match x.status with
  | .success => decide (x.count ≤ x.data.length)
  | .poisoned => decide (x.count ≤ x.data.length)
  | _ => true

/-- The error that a failing completion is reported as (R498, R514). -/
def CplStatus.error : CplStatus → AerError
  | .poisoned => .poisoned | .abort => .completerAbort | .success => .unexpectedCompletion | _ => .unsupportedRequest

/-- A read has failed: its command completes with HOST_PATH_ABORT; a fetch is settled at its entries (R442, R498). -/
def State.readFailed (s : State) (r : HostRead) : State :=
  match r.what with
  | .fetch _ _ _ => s
  | .cmd id =>
    match s.cmd id with
    | none => s
    | some c => if c.opcode = 0x84 then s.openFail c 0 stAbort else (s.giveContext c).finish c stAbort 0

/-- A command goes on with the host bytes that have come: a RECORD with each image, any other once it has all (R462, R468, R475,
R482). -/
def State.readGoes (s : State) (r : HostRead) : State :=
  match r.what with
  | .fetch _ _ _ => s
  | .cmd id =>
    match s.cmd id with
    | none => s
    | some c =>
      let all := s.arrived id
      if c.opcode = 0x03 then s.recordMore id
      else if all.length < (r.pieces.map (·.len)).sum then s
      else
        let s := s.dropRead id
        if c.opcode = 0x84 then s.openToken { c with wait := .none } all
        else if c.opcode = 0x90 then s.setCmd { c with data := all, wait := .engine }
        else if c.opcode = 0x99 then (s.setCmd { c with data := all, wait := .regs 0 0 }).regsStep id
        else s

/-- A completion for a tag whose request is given up is discarded; the last one frees the tag (R509, R511). -/
def State.deadCompletion (s : State) (x : CompletionIn) (f : Nat) (counted : Bool) : State :=
  let s := if counted then s.bump (funAt .ep f) F.EP_CNT1_CPL_DISCARDED else s
  if x.last then { s with ep := { s.ep with dead := s.ep.dead.filter fun e => e.1 ≠ x.tag } } else s

/-- COMPLETION_RECEIVED (R497, R498, R509, R511). -/
def execCompletionReceived (x : CompletionIn) (s : State) : Host.Outcome State Fault Refusal :=
  let s := s.dropOrphans
  .next <|
    match s.tagOf x.tag with
    | some (r, p) =>
      if x.status = .success ∧ fitsPiece (s.fn r.func).cfg.rcb p x then
        let data := p.data ++ x.data
        let s := s.setPiece r x.tag { p with data, st := if data.length = p.len then .done else p.st }
        ((s.readGoes r).dropOrphans).settle
      else
        let s := ((s.setPiece r x.tag { p with st := .failed }).bump (funAt .ep r.func) F.EP_CNT0_CPL_FAILED).aer r.func
          x.status.error
        let s := if x.last then s else { s with ep := { s.ep with dead := s.ep.dead ++ [(x.tag, r.func, false)] } }
        ((s.readFailed r).dropOrphans).settle
    | none =>
      match s.ep.dead.find? fun e => e.1 == x.tag with
      | some (_, f, counted) => s.deadCompletion x f counted
      | none => s.aer 0 .unexpectedCompletion

/-- COMPLETION_TIMEOUT: the request of a tag times out, and its tag is free (R491, R497, R498). -/
def execCompletionTimeout (tag : Nat) (s : State) : Host.Outcome State Fault Refusal :=
  let s := s.dropOrphans
  .next <|
    match s.tagOf tag with
    | some (r, p) =>
      let s := ((s.setPiece r tag { p with st := .failed }).bump (funAt .ep r.func) F.EP_CNT0_CPL_TIMEOUTS).aer r.func
        .completionTimeout
      ((s.readFailed r).dropOrphans).settle
    | none => { s with ep := { s.ep with dead := s.ep.dead.filter fun e => e.1 ≠ tag } }

/-- The waiting pieces of a read take free tags. -/
def State.issueRead (s : State) (r : HostRead) : State :=
  let before := s.ep.reads.takeWhile fun (x : HostRead) => x ≠ r
  let after := (s.ep.reads.drop before.length).drop 1
  let t := { s with ep := { s.ep with reads := before ++ after } }
  match issuePieces t r [] r.pieces with
  | (t, ps) => ({ t with ep := { t.ep with reads := before ++ { r with pieces := ps } :: after } } : State).tagPeak

/-- READ_PIECE_ISSUE: pieces that waited for a tag are issued, those of class 0 and of management first (R496, R497). -/
def execReadPieceIssue (s : State) : Host.Outcome State Fault Refusal :=
  let s := s.dropOrphans
  let l := s.ep.reads.filter fun (r : HostRead) => s.master r.func && r.pieces.any fun (p : Piece) => decide (p.st = .waiting)
  .next ((l.filter (·.prior) ++ l.filter fun r => !r.prior).foldl State.issueRead s)

/-! ## MSI-X (R502, R503) -/

/-- MSIX_SEND: a vector with a message to send (R502). -/
def execMsixSend (f : Fin 64) (v : Nat) (s : State) : Host.Outcome State Fault Refusal :=
  .next (if s.fnOn f ∧ v < msixSize f then s.msixFire f v else s)

/-- MSIX_UNMASK: the four conditions of a pending vector hold again, and it sends one message (R502). -/
def execMsixUnmask (f : Fin 64) (v : Nat) (s : State) : Host.Outcome State Fault Refusal :=
  let e := s.msixEntry f v
  .next <|
    if e.pend ∧ s.msixReady f v then
      let s := (s.setMsix f v { e with pend := false }).msixFire f v
      { s with qen := { s.qen with queues := s.qen.queues.map fun (x : Queue) =>
        if x.func = f.val ∧ x.vector = v then { x with msgPend := false } else x } }
    else s

/-! ## The link (R506, R516, R532, R580) -/

/-- Lanes 4 to 7 of the PHY are off while the link has trained at ×4 or narrower, unless they are held on (R580, R583). -/
def State.phyLanes (s : State) (width : Nat) : State :=
  let a := hubAt .pwr
  let narrow := decide (0 < width ∧ width ≤ 4) && s.has a F.PWR_CTL_AUTO && !bitOf (s.get a F.PWR_HOLDw_HOLD) 23
  if narrow then s.setDomain 23 false
  else if bitOf s.pwr.on 23 then s else (s.setDomain 23 true).bump a F.PWR_CNT_WAKES

/-- The link has trained to a rate and width, with the PHY microcode loaded before it or not. -/
def State.linkTrained (s : State) (recovery full : Bool) (rate width : Nat) (flit up : Bool) : State :=
  let a := hubAt .ep
  let fields := fun (t : State) => (t.get a F.EP_LINK_RATE, t.get a F.EP_LINK_WIDTH, t.get a F.EP_LINK_FLIT,
    t.get a F.EP_LINK_EQ_FULL, t.get a F.EP_LINK_UP)
  let old := fields s
  let s := if recovery then s.bump a F.EP_LINK_CNT_RETRAINS else s
  let s := if s.get a F.EP_LINK_RATE ≠ rate % 16 ∨ s.get a F.EP_LINK_WIDTH ≠ width % 16 then s.bump a F.EP_LINK_CNT_SPEED_CHANGES else s
  let s := (((s.put a F.EP_LINK_RATE rate).put a F.EP_LINK_WIDTH width).put a F.EP_LINK_FLIT (b2n flit)).put a F.EP_LINK_UP (b2n up)
  let s := (if full then s.put a F.EP_LINK_EQ_FULL 1 else s).phyLanes width
  if fields s = old then s else s.irq 152

/-- LINK_RECOVERY: the link enters Recovery, or changes rate or width (R516). -/
def execLinkRecovery (recovery : Bool) (rate : Fin 8) (width : Fin 9) (flit up : Bool) (s : State) :
    Host.Outcome State Fault Refusal :=
  .next (if s.pwr.boot = .held then s else s.linkTrained recovery false rate width flit up)

/-- LINK_FULL_RATE_RETRAIN: the PHY part of the running set is loaded, and the link is trained to its highest rate (R506,
R588). -/
def execLinkFullRateRetrain (rate : Fin 8) (width : Fin 9) (flit : Bool) (s : State) : Host.Outcome State Fault Refusal :=
  let b := s.fwu.bank
  let phy := (tallyParts (s.flash (bankAt b) 4096)).find? fun (p : Part) => p.type == 7
  let good : Bool := match phy with
    | some p => decide (Config.sha384 (s.flash (bankAt b + p.offset) p.length) = p.digest)
    | none => false
  .next <|
    if (s.pwr.boot = .stump2 ∨ s.pwr.boot = .ready) ∧ s.fwu.run ≠ .recovery ∧ good = true then
      let s := s.linkTrained true true rate width flit true
      { s with ep := { s.ep with autoBandwidth := true } }
    else s

end Sys2Proof.Machine
end

