-- ==== Sys2Proof/Machine/Interrupt.lean ====
section
/-! DEFINITION. The commands of the interrupt controller (chapter 17). -/
namespace Sys2Proof.Machine

/-- HIC_SOURCE_EVENT: the input of a source that no register of the hub decides takes a level (R525, R526, R532). -/
def execHicSourceEvent (n : Nat) (level : Bool) (s : State) : Host.Outcome State Fault Refusal :=
  .next (if hicReserved n then s else s.hicInput n level)

/-- HIC_CLAIM_READ: a core reads its CLAIM (R527, R528). -/
def execHicClaimRead (c : Fin 8) (s : State) : Host.Outcome State Fault Refusal :=
  match s.hicClaim c with
  | (s, v) => .next { s with hic := { s.hic with value := v } }

/-- HIC_CLAIM_WRITE: a core completes a source (R529). -/
def execHicClaimWrite (c : Fin 8) (n : Fin 1024) (s : State) : Host.Outcome State Fault Refusal := .next (s.hicComplete c n)

/-- HIC_TRIGGER_WRITE raises a software source (R532). -/
def execHicTriggerWrite (n : Nat) (s : State) : Host.Outcome State Fault Refusal := .next (s.hicTrigger n)

/-- HIC_SRC_CFG_WRITE: a core writes the settings of a source; an open core's write is ignored and logged (R521, R525, R530). -/
def execHicSrcCfgWrite (by_ : Fin 8) (n : Fin 256) (w : Word) (s : State) : Host.Outcome State Fault Refusal :=
  .next (s.hicWrite by_ (4 * n.val) w)

/-- MSIP_WRITE: a core writes the MSIP of a core; an open core's write is ignored (R521, R523). -/
def execMsipWrite (by_ c : Fin 8) (w : Word) (s : State) : Host.Outcome State Fault Refusal :=
  .next (s.hicWrite by_ (0x100C + 0x1000 * c.val) w)

/-- MTIMECMP_REACHED: HIC_MTIME reaches the MTIMECMP of a core (R522). -/
def execMtimecmpReached (c : Fin 8) (s : State) : Host.Outcome State Fault Refusal := .next (s.timerCheck c)

end Sys2Proof.Machine
end

