-- ==== Sys2Proof/Machine/Update.lean ====
section
/-! DEFINITION. The commands of firmware update (chapter 19): flash, activation, the check at boot, confirmation and rollback. -/
namespace Sys2Proof.Machine

/-- FLASH_OPERATION_DONE: a flash erase or program ends; the chunk being programmed has all its bytes (R475, R551, R554). -/
def execFlashOperationDone (s : State) : Host.Outcome State Fault Refusal :=
  let s := s.irq 161
  match s.qen.cmds.find? fun (c : Cmd) => c.opcode == 0x90 && decide (c.wait = .engine) with
  | none => .next s
  | some c =>
    let b := s.altBank
    let s := s.putBytes (flashAt + bankAt b + 4096 * c.word 7) c.data
    let units := c.word 7 + c.count
    let last := bitOf (c.word 8) 0
    let s := s.setBank b { st := if last then .loaded else .partly, units, last }
    .next (s.finish c stSuccess units).settle

/-- ACTIVATION_START: TIM_NOW has reached the scheduled TIME (R556, R557). -/
def execActivationStart (s : State) : Host.Outcome State Fault Refusal :=
  match s.fwu.sched with
  | none => .next s
  | some x =>
    if x.time ≤ s.now ∧ s.fwu.act = none ∧ s.pwr.boot = .ready then .next ((s.irq 160).beginRun { sched := x })
    else .next s

/-- The activation or rollback under way, when it stands at a step. -/
def State.actAt (s : State) (p : ActStep) : Option Activation := s.fwu.act.bind fun a => if a.step = p then some a else none

/-- ACTIVATION_DRAIN_DONE: step 2 of the run has ended, step 3 begins (R557). -/
def execActivationDrainDone (s : State) : Host.Outcome State Fault Refusal :=
  match s.actAt .drain with
  | some a => .next (s.beginFlush a)
  | none => .next s

/-- ACTIVATION_FLUSH_DONE: no line is DIRTY or RECORDING, or FLUSH_LIMIT has expired (R557). -/
def execActivationFlushDone (s : State) : Host.Outcome State Fault Refusal :=
  match s.actAt .flush with
  | some a => .next (s.endFlush a)
  | none => .next s

/-- ACTIVATION_RESET: steps 5 and 6, once no transfer runs any more (R557–R559, R565). -/
def execActivationReset (s : State) : Host.Outcome State Fault Refusal :=
  match s.actAt .post with
  | some a => if s.crew.items.any fun (x : HubItem) => x.kind == 6 then .next s else .next (s.finishRun a)
  | none => .next s

/-! ## Boot (R560–R562, R565, R566) -/

/-- The set that ACTIVE names boots, or the device enters recovery: READY sets, and FAULT_N is low (R566, R587, R596). -/
def State.bootActive (s : State) : State :=
  let b := s.journal.active
  let s := { s with fwu := { s.fwu with bank := b } }
  match s.checkSet b with
  | none => { s with fwu := { s.fwu with run := .confirmed } }
  | some _ =>
    let s := if s.fwu.notify then s.epEvt 6 else s
    { s with
      fwu := { s.fwu with run := .recovery, notify := false }
      pwr := { s.pwr with boot := .ready, faultN := true } }

/-- The new set is rejected at boot, and the old one boots (R561, R562, R570). -/
def State.rejectSet (s : State) (reason index : Nat) : State :=
  let j := s.journal
  let s := s.writeJournal { active := j.active, st := .steady, new := j.active, window := j.window }
  let s := s.fwHistory resRejected reason index (s.bundleVer j.new) s.fwu.lost
  let s := ((s.raiseHub 0x0E01 reason 0xFFFF).bump (hubAt .fwu) F.FWU_CNT_REJECTIONS)
  ({ s with fwu := { s.fwu with lost := 0, notify := true } } : State).bootActive

/-- A trial set is found at boot: a reset has ended its trial, and the old set boots (R565, R568, R570). -/
def State.abandonSet (s : State) : State :=
  let j := s.journal
  let s := s.writeJournal { active := j.active, st := .steady, new := j.active, window := j.window }
  let s := s.fwHistory resAbandoned 11 0 (s.bundleVer j.new) s.fwu.lost
  let s := ((s.raiseHub 0x0E03 11 0xFFFF).bump (hubAt .fwu) F.FWU_CNT_ROLLBACKS)
  ({ s with fwu := { s.fwu with lost := 0, notify := true } } : State).bootActive

/-- BOOT_CHECK: the ROM stage writes CHECKING, checks the pending bank, and writes TRIAL or rejects it (R561, R562). -/
def execBootCheck (s : State) : Host.Outcome State Fault Refusal :=
  let j := s.journal
  if s.pwr.boot = .rom ∧ j.st = .pending then
    let s := s.writeJournal { j with st := .checking }
    match s.checkSet j.new with
    | some (reason, index) => .next (s.rejectSet reason index)
    | none =>
      let s := s.writeJournal { j with st := .trial }
      .next { s with fwu := { s.fwu with run := .trial, bank := j.new } }
  else .next s

/-! ## Confirmation and rollback (R563–R565) -/

/-- A present die has passed its self-test: loaded, with its port UP and its turn engine running (R563). -/
def State.dieTested (s : State) (d : Die) : Bool :=
  let b := s.dies[d].boot
  (decide (b = .loaded) || decide (b = .running)) && decide (s.ports[d].state = .up) && s.has (dieAt .trn d) F.TRN_CTL_ENABLE

/-- The self-tests of a trial set (R563). -/
def State.selfTests (s : State) : Bool :=
  s.has (hubAt .miu) F.MIU_STATUS_INIT_DONE && s.has (hubAt .lnd) F.LND_STATUS_READY && s.locked
    && (s.fwu.settings[s.fwu.slot]).isSome
    && (List.finRange 8).all fun d => d == 0 || !s.hasDie d.val || s.dieTested d

/-- A rollback begins, flushing as the schedule of the trial set did (R565). -/
def State.rollback (s : State) (reason : Nat) : State :=
  let x : Schedule := { time := s.now, noFlush := s.fwu.noFlush, confirm := s.journal.confirm, window := s.journal.window }
  s.beginRun { sched := x, rollback := some reason }

/-- Whether a trial set runs and no activation or rollback is under way. -/
def State.onTrial (s : State) : Bool := decide (s.fwu.run = .trial) && decide (s.pwr.boot = .ready) && s.fwu.act.isNone

/-- SELF_TEST_DONE: the tests have passed and the set is confirmed, at once or by CONFIRM HEALTH; or they have failed (R563–R565). -/
def execSelfTestDone (s : State) : Host.Outcome State Fault Refusal :=
  if s.onTrial ∧ !s.fwu.tested then
    if s.selfTests then
      let s := { s with fwu := { s.fwu with tested := true } }
      .next (if !s.journal.confirm ∨ s.fwu.hostAsked then s.confirmSet else s)
    else .next (s.rollback 9)
  else .next s

/-- CONFIRMATION_WINDOW_EXPIRY: the window of an unconfirmed set expires (R504, R565). -/
def execConfirmationWindowExpiry (s : State) : Host.Outcome State Fault Refusal :=
  if s.onTrial then .next ((s.epEvt 6).rollback 10) else .next s

end Sys2Proof.Machine
end

