-- ==== Sys2Proof/Machine/PwrOps.lean ====
section
/-! DEFINITION. Off conditions of power domains (R580–R583), and the trips of supplies and junctions (R575, R585, R638). -/
namespace Sys2Proof.Machine

/-! ## Domains of field dies -/

/-- Whether the drive of a bay may be off: spindle STOPPED, recorder IDLE, focus off (R582). -/
def State.driveIdle (s : State) (b : Bay) : Bool :=
  decide (s.spn[b].state = .stopped) && decide (s.recp[b].state = .idle) && !s.has (bayAt .osv b) F.TRN_OSV_CTL_FOC_EN

/-- Whether place i of a bay die meets its off condition (R582). -/
def State.bayDomainIdle (s : State) (d : Die) (i : Nat) : Bool :=
  let bays := baysOfDie d
  let still := (List.finRange 8).all fun (n : Fin 8) =>
    let a := s.axp[d].axes[n].st
    decide (a = .idle) || decide (a = .kept)
  match i with
  | 1 => bays.all fun b => bayInDie b != 0 || (decide (s.spn[b].state = .stopped) && s.get (bayAt .sfe b) F.SFE_CTL_SPOT_EN == 0)
  | 2 => bays.all fun b => bayInDie b != 1 || (decide (s.spn[b].state = .stopped) && s.get (bayAt .sfe b) F.SFE_CTL_SPOT_EN == 0)
  | 3 => bays.all fun b => !s.has (bayAt .lat b) F.LAT_CTL_ENABLE
  | 4 => !bitOf s.dies[d].on 5 && !bitOf s.dies[d].on 6 && still
  | 5 => bays.all fun b => bayInDie b != 0 || s.driveIdle b
  | 6 => bays.all fun b => bayInDie b != 1 || s.driveIdle b
  | _ => false

/-- Whether place i of the mechanism die meets its off condition (R581). -/
def State.mechDomainIdle (s : State) (i : Nat) : Bool :=
  if 3 ≤ i ∧ i ≤ 6 then s.yrd.state == .idle && !s.yrd.holding
  else i == 7 && s.get ceilA F.SPN_CEIL_CFG_MODE == 0

/-! ## Domains of the hub -/

/-- Whether a function has an ACTIVE I/O queue of fetch class 0 (R580, R584). -/
def State.classZero (s : State) : Bool :=
  s.qen.queues.any fun (x : Queue) => x.qid != 0 && x.cls == 0 && decide (x.st = .active)

/-- Whether an interrupt is pending for a core (R580). -/
def State.coreWoken (s : State) (c : Nat) : Bool :=
  s.hicExternal c || s.hic.timers.contains c || s.has (hubAt .hic) F.HIC_C_MSIP_MSIP c

/-- Whether a hub domain that the power manager or the endpoint switches meets its off condition (R580). -/
def State.hubDomainIdle (s : State) (n : Nat) : Bool :=
  if 2 ≤ n ∧ n ≤ 7 then s.has (hubAt .pwr) F.PWR_CTL_CORE_GATE && !s.coreWoken (n - 2)
  else if n = 18 ∨ n = 19 then !s.classZero
  else if n = 20 ∨ n = 21 ∨ n = 25 then true
  else if n = 23 then
    s.has (hubAt .ep) F.EP_LINK_UP && decide (s.get (hubAt .ep) F.EP_LINK_WIDTH ≤ 4)
  else if n = 29 then s.get (hubAt .vlk) F.VLK_DEBUG_LEVEL == 2
  else false

/-- Whether a domain may be switched off now: its off condition holds, its owner switches, and nothing holds it on (R580–R583,
R592, R593). -/
def State.mayGoOff (s : State) (n : Nat) : Bool :=
  if n < 30 then s.hubDomainIdle n && s.has (hubAt .pwr) F.PWR_CTL_AUTO && !s.held n
  else
    match fieldDomain n with
    | none => false
    | some (d, i) =>
      s.hasDie d.val && (if d = 1 then s.mechDomainIdle i else s.bayDomainIdle d i)
        && s.has (dieAt .fpw d) F.FPW_DOM_AUTO && !bitOf (s.get (dieAt .fpw d) F.FPW_DOM_HOLD) i && !s.held n

/-! ## Trips of a field die (R575, R585, R638) -/

/-- A die is held in reset: its transmitter is gone and its port goes DOWN (R33, R38, R575, R585). -/
def State.dieTrips (s : State) (d : Die) (supply hot : Bool) : State :=
  let s := s.dieReset d supply
  let s := s.setDie d { s.dies[d] with power := false, hot := s.dies[d].hot || hot }
  (s.setPort d { s.ports[d] with signal := false }).portDown d

/-- Whether FFAULT_N is driven low: the die that owns CEIL is in reset, without its firmware, or in its safe state (R596). -/
def State.ffaultN (s : State) : Bool :=
  let x := s.dies[s.code.ceilDie]
  !x.power || x.safe || (decide (x.boot ≠ .loaded) && decide (x.boot ≠ .running))

end Sys2Proof.Machine
end

