-- ==== Sys2Proof/Machine/Power.lean ====
section
/-! DEFINITION. The commands of power, reset and bring-up (chapter 20), of the junctions (R638), of BAY_IDLE (R486) and of JTAG
(R420). -/
namespace Sys2Proof.Machine

/-! ## Boot (R586–R591) -/

/-- A bank whose download did not end is EMPTY at the next boot (R568). -/
def Bank.atBoot (b : Bank) : Bank := if b.st = .partly then {} else b

/-- ROM_STAGE_BOOT: PERST# is deasserted and the supplies are good; the ROM stage settles the journal, writes what the boot block
gives, and boots the ACTIVE set unless a check is pending (R560, R561, R565, R568, R586, R587). -/
def execRomStageBoot (s : State) : Host.Outcome State Fault Refusal :=
  if s.pwr.boot ≠ .held ∨ s.pwr.tripped ∨ s.pwr.hot then .next s
  else
    let s := { s with
      ep := { s.ep with perst := false }
      pwr := { s.pwr with boot := .rom, now := s.pwr.keeper, mtime := 0, on := 2 ^ 30 - 1 - 2 ^ 8 - 2 ^ 9 }
      fwu := { s.fwu with banks := s.fwu.banks.map Bank.atBoot } }
    let s := if s.journalInUse.isNone then s.writeJournal {} else s
    let s := s.applyBootBlock
    match s.journal.st with
    | .steady => .next s.bootActive
    | .pending => .next s
    | .checking => .next (s.rejectSet 8 0)
    | .trial => .next s.abandonSet

/-- The hub domains that the stump switches off at sizing (R580): landing channels not populated, tag banks beyond the
capacity, and kerf groups without a port. -/
def State.sizeDomains (s : State) (channels setsLog2 : Nat) : State :=
  let off : List Nat :=
    ((List.range 4).filter fun i => decide (channels ≤ i)).map (10 + ·)
      ++ ((List.range 4).filter fun k => decide (2 ^ setsLog2 ≤ k * 2 ^ 16)).map (14 + ·)
      ++ (if [1, 2, 3].any s.hasDie then [] else [27]) ++ (if [4, 5, 6, 7].any s.hasDie then [] else [28])
  off.foldl (fun (t : State) n => t.setDomain n false) s

/-- STUMP2_BRING_UP: STUMP2 sizes the landing, takes the running set's settings, trains the ports, writes the protection map and
the other BL registers, and sets GLB_LOCK (R350, R415, R567, R587, R588). -/
def execStump2BringUp (channels : Nat) (setsLog2 : Nat) (writes : List (Nat × Word)) (s : State) :
    Host.Outcome State Fault Refusal :=
  if s.pwr.boot ≠ .rom ∨ s.journal.st = .pending then .next s
  else
    let a := hubAt .lnd
    let s := ((s.put a F.LND_STATUS_CHANNELS channels).put a F.LND_STATUS_SETS_LOG2 setsLog2).sizeDomains channels setsLog2
    let s := s.takeSettings
    let s := { s with pwr := { s.pwr with boot := .stump2 } }
    let s := (List.finRange 8).foldl (fun (t : State) (d : Die) =>
      if d ≠ 0 ∧ t.hasDie d.val ∧ (t.ports[d]).signal then t.trainPort d else t) s
    let s := writes.foldl (fun (t : State) e => t.hubWrite (Init.ofCore 0) e.1 e.2) s
    .next (s.put (hubAt .glb) F.GLB_LOCK_LOCK 1)

/-- MEMORY_INIT_DONE: every word of the landing and of class-B memory has been written coded; with it the hub is ready (R388,
R504, R563, R588). -/
def execMemoryInitDone (s : State) : Host.Outcome State Fault Refusal :=
  if s.pwr.boot ≠ .stump2 then .next s
  else
    let s := (s.put (hubAt .miu) F.MIU_STATUS_INIT_DONE 1).put (hubAt .lnd) F.LND_STATUS_READY 1
    let s := if s.fwu.notify then s.epEvt 6 else s
    .next { s with
      pwr := { s.pwr with boot := .ready }
      fwu := { s.fwu with notify := false, from_ := if s.fwu.run = .trial then s.clock else s.fwu.from_ } }

/-- FPW_BOOT_GO: a write of FPW_BOOT.GO (R590). -/
def execFpwBootGo (d : Die) (s : State) : Host.Outcome State Fault Refusal :=
  .next (if d ≠ 0 ∧ s.hasDie d.val ∧ s.dies[d].power then s.bootGo d else s)

/-- Whether a fitted die with power counts as ready: failed, or running with the sled and solid-angle axes of its bays homed
(R591). -/
def State.dieReady (s : State) (d : Die) : Bool :=
  !s.hasDie d.val || d == 0 || !s.dies[d].power || s.dies[d].failed
    || (decide (s.dies[d].boot = .running) && (d == 1 || (List.finRange 8).all fun (n : Fin 8) =>
          decide (4 ≤ n.val) || s.axp[d].axes[n].homed))

/-- FIELD_READY (R591). -/
def execFieldReady (s : State) : Host.Outcome State Fault Refusal :=
  if s.loadsDies && (List.finRange 8).all s.dieReady then .next (s.put (hubAt .pwr) F.PWR_STATUS_FIELD_READY 1).settle else .next s

/-! ## Supplies and junctions (R575, R585, R586, R596, R638) -/

/-- HOST_SUPPLY_TRIP: a monitor of the host side trips or PGOOD_H is low (R575). -/
def execHostSupplyTrip (s : State) : Host.Outcome State Fault Refusal :=
  .next (({ s with pwr := { s.pwr with tripped := true } } : State).hubReset .supply)

/-- HOST_SUPPLY_RELEASE: rails and PGOOD_H have been good for 1 ms (R575, R596). -/
def execHostSupplyRelease (s : State) : Host.Outcome State Fault Refusal :=
  .next (if s.pwr.tripped then { s with pwr := { s.pwr with tripped := false, faultN := s.pwr.hot } } else s)

/-- FABRIC_PLL_LOCK_TIMEOUT: the host side stays in reset with FAULT_N low (R575, R587). -/
def execFabricPllLockTimeout (s : State) : Host.Outcome State Fault Refusal :=
  .next (if s.pwr.boot = .held then { s with pwr := { s.pwr with tripped := true, faultN := true } } else s)

/-- VAUX_LOSS: the whole host side resets, the keeper with it (R585, R586). -/
def execVauxLoss (s : State) : Host.Outcome State Fault Refusal :=
  let s := s.hubReset .powerOn
  .next { s with pwr := { s.pwr with keeper := 0, frac := 0, now := 0, aonLost := true, xtal := true, lost := false, ticks := 0 } }

/-- FIELD_SUPPLY_TRIP: a monitor of a field die trips or PGOOD_F falls (R575, R585). -/
def execFieldSupplyTrip (d : Die) (s : State) : Host.Outcome State Fault Refusal :=
  .next (if d ≠ 0 ∧ s.hasDie d.val then s.dieTrips d true false else s)

/-- JUNCTION_OVERTEMP: a junction acts as the supply monitor of its side or die (R638). -/
def execJunctionOvertemp (d : Die) (s : State) : Host.Outcome State Fault Refusal :=
  .next <|
    if d = 0 then ({ s with pwr := { s.pwr with hot := true } } : State).hubReset .supply
    else if s.hasDie d.val then s.dieTrips d false true
    else s

/-- JUNCTION_OVERTEMP_RELEASE (R638). -/
def execJunctionOvertempRelease (d : Die) (s : State) : Host.Outcome State Fault Refusal :=
  .next <|
    if d = 0 then { s with pwr := { s.pwr with hot := false, faultN := if s.pwr.hot then s.pwr.tripped else s.pwr.faultN } }
    else s.setDie d { s.dies[d] with hot := false }

/-! ## Mechanism supply (R577, R578) -/

/-- MV from ADC codes of VMECH_SENSE and the divider (R577). -/
def vmechMv (codes : List Nat) (div : Nat) : Nat :=
  if codes.isEmpty then 0
  else (roundOpen ((codes.sum : Rat) / codes.length * 1800 / 4096 * div / 100)).toNat

/-- VMECH_SAMPLE: one conversion of VMECH_SENSE (R577). -/
def execVmechSample (code : Fin 4096) (s : State) : Host.Outcome State Fault Refusal :=
  let d := s.code.ceilDie
  let x := s.dies[d]
  .next <|
    if !x.power then s
    else
      let l := (x.vmech ++ [code.val]).drop (x.vmech.length + 1 - 16)
      s.setDie d { x with
        vmech := l, vmechAt := some s.clock, vmechOk := decide (code.val * 1800 < 1780 * 4096)
        vmechMv := vmechMv l (s.get (dieAt .fpw d) F.FPW_VMECH_DIV_DIV) }

/-- Transfers stop when LOW sets: the one under way as R314 says, the waiting ones without motion (R314, R578). -/
def State.transfersStop (s : State) : State :=
  let s := if s.yrd.job.isSome then s.yrdFault 6 .unpowered true else s
  let l := s.yrd.waiting
  let s := s.setYrd { s.yrd with waiting := [] }
  l.foldl (fun (t : State) j => match j.item with | some i => t.endItem 1 i .unpowered | none => t) s

/-- FPW_VMECH_LOW: LOW sets (R578). -/
def execFpwVmechLow (s : State) : Host.Outcome State Fault Refusal :=
  let d := s.code.ceilDie
  let x := s.dies[d]
  let a := dieAt .fpw d
  .next <|
    if x.power ∧ !x.low ∧ (x.vmechMv < s.get a F.FPW_VMECH_CFG_LOW_MV ∨ !s.vmechValid d) then
      ((((s.setDie d { x with low := true }).bump a F.FPW_CNT_VMECH_LOW).raiseDie d 0x0F01 none 0 0xFFFF x.vmechMv 0).transfersStop)
    else s

/-- VMECH_LOW_CLEAR (R578). -/
def execVmechLowClear (s : State) : Host.Outcome State Fault Refusal :=
  let d := s.code.ceilDie
  let x := s.dies[d]
  .next <|
    if x.low ∧ s.vmechValid d ∧ s.get (dieAt .fpw d) F.FPW_VMECH_CFG_LOW_MV + 200 < x.vmechMv then s.setDie d { x with low := false }
    else s

/-- FPW_VMECH_HIGH: HIGH sets (R578). -/
def execFpwVmechHigh (s : State) : Host.Outcome State Fault Refusal :=
  let d := s.code.ceilDie
  let x := s.dies[d]
  .next <|
    if x.power ∧ !x.high ∧ s.get (dieAt .fpw d) F.FPW_VMECH_CFG_HIGH_MV < x.vmechMv then
      (s.setDie d { x with high := true }).raiseDie d 0x0F02 none 0 0xFFFF x.vmechMv 0
    else s

/-- VMECH_HIGH_CLEAR (R578). -/
def execVmechHighClear (s : State) : Host.Outcome State Fault Refusal :=
  let d := s.code.ceilDie
  let x := s.dies[d]
  .next <|
    if x.high ∧ x.vmechMv + 200 < s.get (dieAt .fpw d) F.FPW_VMECH_CFG_HIGH_MV then s.setDie d { x with high := false } else s

/-! ## Domains (R579–R583) -/

/-- DOMAIN_SWITCH_OFF: a domain whose off condition holds, and which nothing keeps on, is isolated and switched off (R580–R583). -/
def execDomainSwitchOff (n : Fin 80) (s : State) : Host.Outcome State Fault Refusal :=
  .next <|
    if !s.mayGoOff n then s
    else match fieldDomain n with
      | some (d, i) => s.setFieldDomain d i false
      | none => s.setDomain n false

/-- DOMAIN_WAKE: a request meets a domain that is switched off (R583). -/
def execDomainWake (n : Fin 80) (s : State) : Host.Outcome State Fault Refusal := .next (s.wake n)

/-! ## Device time (R586, R601) -/

/-- KEEPER_TICK: a tick of the 32.768 kHz crystal adds 30,517.578125 ns; ten seconds of ticks end a loss (R586, R601). -/
def execKeeperTick (s : State) : Host.Outcome State Fault Refusal :=
  let p := s.pwr
  let f := p.frac + 9699328
  .next { s with pwr := { p with
    keeper := p.keeper + 30517 + f / 2 ^ 24, frac := f % 2 ^ 24, xtal := true, ticks := p.ticks + 1
    lost := p.lost && decide (p.ticks + 1 < 327680) } }

/-- PWR_XTAL_LOST: no tick for 1 ms; raised once, and the keeper is loaded from TIM_NOW while the hub runs (R601). -/
def execPwrXtalLost (s : State) : Host.Outcome State Fault Refusal :=
  let s := if s.pwr.lost then s else s.raiseHub 0x1001 0 0xFFFF
  let p := s.pwr
  let run : Bool := p.boot != .held
  .next { s with pwr := { p with
    lost := true, xtal := false, ticks := 0, keeper := if run then p.now else p.keeper, frac := if run then 0 else p.frac } }

/-! ## Idle bays (R486) -/

/-- BAY_IDLE_SPINDLE: an idle bay's spindle goes to IDLE (R266, R486). -/
def execBayIdleSpindle (b : Bay) (s : State) : Host.Outcome State Fault Refusal :=
  .next <|
    match s.crew.bays[b].disc with
    | some d =>
      if d.mounted ∧ s.bayIdle b ∧ s.pwr.idleSpin ≠ 0 ∧ s.ports[dieOfBay b].state = .up then
        let target := s.get (bayAt .spn b) F.SPN_CMD_TARGET
        s.send (dieOfBay b) .hub (regWriteMsg 0xA04 (bayInDie b) 0xFFFB (BitVec.ofNat 32 (2 * 2 ^ 16 + target)))
      else s
    | none => s

/-- BAY_IDLE_RETURN: an idle bay's disc goes back to its slot (R486). -/
def execBayIdleReturn (b : Bay) (s : State) : Host.Outcome State Fault Refusal :=
  .next <|
    if s.crew.bays[b].disc.isSome ∧ s.bayIdle b ∧ s.pwr.idleBack ≠ 0 ∧ s.code.changer ∧ s.fieldReady then s.clearBay b 3 0 1023 else s

/-! ## JTAG (R416, R418, R420) -/

/-- What VLK_DEBUG.LEVEL lets JTAG reach: every address, the open cores' local memory, or nothing (R420). -/
def State.jtagReaches (s : State) (a : Nat) : Bool :=
  match s.get (hubAt .vlk) F.VLK_DEBUG_LEVEL with
  | 0 => true
  | 1 => decide (localAt + 0x300000 ≤ a ∧ a < localAt + 0x400000)
  | _ => false

/-- A word of a memory or register at a hub address, read or written by JTAG. -/
def State.jtagWord (s : State) (a : Nat) (w : Option Word) : State :=
  let i : Init := { group := 7 }
  match hubMemory a, w with
  | some (mem, o), some w => if mem = 1 then s else s.storeBytes mem o (leBytes 4 w.toNat) 2
  | some (mem, o), none =>
    match s.checkRange mem o 4 2 with
    | (s, bad) => if bad = [] then { s with pwr := { s.pwr with jtag := fieldAt (s.readBytes mem o 4) 0 4 } } else s
  | none, some w => s.hubWrite i a w
  | none, none =>
    if flashAt ≤ a ∧ a < flashAt + 0x8000000 then { s with pwr := { s.pwr with jtag := fieldAt (s.bytesAt a 4) 0 4 } }
    else match s.hubLoad i a with | (s, v) => { s with pwr := { s.pwr with jtag := v } }

/-- JTAG_ACCESS: an access wakes domain 29, and reaches what LEVEL allows and the protection map grants to group 7 (R416, R418,
R420, R580). -/
def execJtagAccess (a : Nat) (w : Option Word) (s : State) : Host.Outcome State Fault Refusal :=
  let a := a / 4 * 4
  .next <|
    if s.pwr.boot = .held then s
    else
      let s := s.wake 29
      if !s.jtagReaches a then s
      else if s.mayReach { group := 7 } a w.isSome then s.jtagWord a w
      else s.pevLog a 7 w.isSome false

end Sys2Proof.Machine
end

