-- ==== Sys2Proof/Machine/Queue.lean ====
section
/-! DEFINITION. The commands of the command queues (chapter 14). -/
namespace Sys2Proof.Machine

/-- DOORBELL_WRITE: a write to a queue pair's doorbell takes the parts whose WR bit is set (R435). -/
def execDoorbellWrite (f : Fin 64) (q : Nat) (tail head : Option Nat) (s : State) : Host.Outcome State Fault Refusal :=
  let s := match tail with | some v => s.tailWrite f q v | none => s
  .next (match head with | some v => s.headWrite f q v | none => s)

/-- Queue state that reads uncorrectable is lost: the queue is halted and its commands complete (R386, R448, R514). -/
def State.loseQueue (s : State) (f q : Nat) : State :=
  ((((s.startCut f q .lost).raiseHub 0x0D02 0 q f).irq 82).aer f .internal).cutsReady

/-- FETCH: the next fetch is granted and issued; the queue's state is read on the way (R386, R436–R438). -/
def execFetch (upset : List (Nat × Nat)) (s : State) : Host.Outcome State Fault Refusal :=
  let s := s.upset upset
  match s.grant with
  | none => .next s
  | some (x, _) =>
    let at_ := 64 * (513 * x.func + x.qid)
    match s.checkRange 4 at_ 64 4 with
    | (s, bad) =>
      if bad = [] then .next s.fetch
      else .next ((bad.foldl (fun (t : State) u => t.setFlips (unitKey 4 u) 0) s).loseQueue x.func x.qid)

/-- Byte i to i + n of a host read, when every byte has come. -/
def readSpan (r : HostRead) (start i n : Nat) : Option Bytes :=
  (List.range n).mapM fun k =>
    (r.pieces.find? fun (p : Piece) => decide (p.addr ≤ start + i + k ∧ start + i + k < p.addr + p.len)).bind fun p =>
      if p.st = .done then p.data[start + i + k - p.addr]? else none

/-- Whether every piece of a read has come or failed. -/
def HostRead.settled (r : HostRead) : Bool := r.pieces.all fun (p : Piece) => decide (p.st = .done) || decide (p.st = .failed)

/-- Take the entries of a fetch in order (R432, R442). -/
def State.takeEntries (s : State) (r : HostRead) (f q start n : Nat) : State :=
  (List.range n).foldl (fun (t : State) k =>
    match t.queue f q with
    | none => t
    | some x =>
      match readSpan r (x.sqBase + 64 * start) (64 * k) 64 with
      | some bs => t.takeEntry x bs
      | none => t.lostEntry x (start + k)) s

/-- ENTRY_RECEIVED: the entries of a queue's fetch have arrived and are checked in order (R399, R432, R442). -/
def execEntryReceived (f : Fin 64) (q : Nat) (upset : List (Nat × Nat)) (s : State) : Host.Outcome State Fault Refusal :=
  match s.fetchOf f q with
  | none => .next s
  | some (r, start, n) =>
    if r.settled then
      let s := s.upset upset
      .next (({ s with ep := { s.ep with reads := s.ep.reads.erase r } } : State).takeEntries r f q start n).settle
    else .next s

/-- COMPLETION_POST: the oldest decided entry of a queue is written, with its message (R433, R434, R440, R444). -/
def execCompletionPost (f : Fin 64) (q : Nat) (s : State) : Host.Outcome State Fault Refusal := .next (s.postOne f q).cutsReady

/-- QEN_HALT: a write of GO with a queue (R447). -/
def execQenHalt (f : Fin 64) (q : Nat) (s : State) : Host.Outcome State Fault Refusal :=
  .next ((s.put (funAt .qen f) F.QEN_HALT_QID q).haltGo f (q % 1024))

/-- HALT_CUT_COMPLETE: a register halt whose ports have answered and whose decided entries are written ends (R447). -/
def execHaltCutComplete (f : Fin 64) (s : State) : Host.Outcome State Fault Refusal :=
  match s.qen.cuts.find? fun (c : Cut) => c.func == f.val && decide (c.kind = .halt) with
  | some c => if s.cutReady c then .next (s.cutDone c).settle else .next s
  | none => .next s

/-- QEN_MQ_CTL_WRITE (R430). -/
def execQenMqCtlWrite (f : Fin 64) (w : Word) (s : State) : Host.Outcome State Fault Refusal := .next (s.mqWrite f w).settle

/-- CQ_COALESCE_TIMEOUT: the message withheld for a completion queue's entries is sent (R486). -/
def execCqCoalesceTimeout (f : Fin 64) (q : Nat) (s : State) : Host.Outcome State Fault Refusal :=
  match s.queue f q with
  | none => .next s
  | some x =>
    if x.withheld = 0 then .next s
    else
      let held := !s.msixReady f x.vector
      .next ((s.setQueue { x with withheld := 0, msgPend := x.msgPend || held }).msixFire f x.vector)

end Sys2Proof.Machine
end

