-- ==== Sys2Proof/Machine/SkidDma.lean ====
section
/-! DEFINITION. The commands of the skid DMA (chapter 18). -/
namespace Sys2Proof.Machine

/-! ## Bursts (R540–R542) -/

/-- The initiator of a channel's accesses (R536). -/
def Skd.init (x : Skd) : Init := { group := x.group }

/-- Address of byte o of a descriptor's source or destination: fixed addresses repeat their access (R541). -/
def skdAddr (base o width : Nat) (inc : Bool) : Nat := if inc then base + o else base + o % 2 ^ width

/-- Bytes to the next 4 KiB boundary of an incrementing address. -/
def skdRoom (a : Nat) (inc : Bool) : Nat := if inc then 4096 - a % 4096 else 4096

/-- Bytes of the next burst of a channel (R540). -/
def State.burstLen (s : State) (c : Fin 32) : Nat :=
  let d := s.skdDesc c
  let o := d.len - s.residue c
  min (s.residue c) (min (2 ^ d.burst) (min (skdRoom (skdAddr d.src o d.sw d.sinc) d.sinc) (skdRoom (skdAddr d.dst o d.dw d.dinc) d.dinc)))

/-- A byte of a hub register word; accesses narrower than a register read 0. -/
def State.regByte (s : State) (i : Init) (width a : Nat) : Byte :=
  if width < 2 then 0 else BitVec.ofNat 8 ((s.hubLoad i (a / 4 * 4)).2 / 2 ^ (8 * (a % 4)))

/-- The bytes that a burst reads from hub addresses; none on a denied access or an uncorrectable word (R541, R547). -/
def State.burstRead (s : State) (x : Skd) (d : SkdDesc) (o n : Nat) : State × Option Bytes :=
  let a := skdAddr d.src o d.sw d.sinc
  let at_ : Nat → Nat := fun k => skdAddr d.src (o + k) d.sw d.sinc
  if !s.mayReach x.init a false then (s.pevLog a x.group false false, none)
  else
    match hubMemory a with
    | some (mem, m) =>
      let span := if d.sinc then n else 2 ^ d.sw
      let low := if d.sinc then m else m / 2 ^ d.sw * 2 ^ d.sw
      match s.checkRange mem low span 3 with
      | (s, bad) =>
        if bad ≠ [] then (s, none)
        else (s, some ((List.range n).flatMap fun k => s.readBytes mem (at_ k + m - a) 1))
    | none =>
      if flashAt ≤ a then (s, some ((List.range n).flatMap fun k => s.bytesAt (at_ k) 1))
      else if a < 0x40000 then (s.drawn, some ((List.range n).map fun k => BitVec.ofNat 8 (s.freeVal / 2 ^ (8 * k))))
      else if a < 0x1080000 then (s.pevLog a x.group false false, none)
      else (s, some ((List.range n).map fun k => s.regByte x.init d.sw (at_ k)))

/-- Write the bytes of one access to hub registers, a word at a time; narrower accesses are ignored. -/
def State.regStore (s : State) (i : Init) (width : Nat) (l : List (Nat × Byte)) : State :=
  if width < 2 then s
  else (l.filter fun e => e.1 % 4 == 0).foldl (fun (t : State) e =>
    let word := (List.range 4).foldl (fun v k => v + ((l.find? fun y => y.1 == e.1 + k).map fun y => y.2.toNat * 2 ^ (8 * k)).getD 0) 0
    t.hubWrite i e.1 (BitVec.ofNat 32 word)) s

/-- Write a burst's bytes to hub addresses; none on a denied access (R520, R541, R547). -/
def State.burstWrite (s : State) (x : Skd) (d : SkdDesc) (o : Nat) (bs : Bytes) : State × Bool :=
  let a := skdAddr d.dst o d.dw d.dinc
  let at_ : Nat → Nat := fun k => skdAddr d.dst (o + k) d.dw d.dinc
  if !s.mayReach x.init a true then (s.pevLog a x.group true false, false)
  else
    match hubMemory a with
    | some (1, _) => (s.pevLog a x.group true false, false)
    | some (mem, m) =>
      let s := if d.dinc then s.storeBytes mem m bs 3
               else bs.zipIdx.foldl (fun (t : State) e => t.storeBytes mem (at_ e.2 + m - a) [e.1] 3) s
      (s, true)
    | none =>
      if flashAt ≤ a ∨ a < 0x1080000 then (s.pevLog a x.group true false, false)
      else
        let w := 2 ^ d.dw
        let parts := (List.range ((bs.length + w - 1) / w)).map fun p =>
          ((bs.drop (p * w)).take w).zipIdx.map fun e => (at_ (p * w + e.2), e.1)
        (parts.foldl (fun (t : State) l => t.regStore x.init d.dw l) s, true)

/-- The bytes of a burst as its source gives them. -/
def State.burstData (s : State) (c : Fin 32) (data : Bytes) : State × Option Bytes :=
  let d := s.skdDesc c
  let n := s.burstLen c
  if d.shost then (s, some ((data ++ List.replicate n 0).take n)) else s.burstRead s.skd[c] d (d.len - s.residue c) n

/-- The bytes of a burst as its destination takes them. -/
def State.burstPut (s : State) (c : Fin 32) (o : Nat) (bs : Bytes) : State × Bool :=
  let d := s.skdDesc c
  if d.dhost then (s.hostWrite d.func (skdAddr d.dst o d.dw d.dinc) bs true, true) else s.burstWrite s.skd[c] d o bs

/-- A burst of n bytes has moved. -/
def State.burstMoved (s : State) (c : Fin 32) (n : Nat) : State :=
  let left := s.residue c - n
  let s := s.putResidue c left
  let y := s.skd[c]
  if left = 0 then s.setSkd c { y with last := true } else if y.abort then s.abortEnd c else s

/-- A burst ends: its bytes have moved, or its write failed. -/
def State.burstEnd (s : State) (c : Fin 32) (n : Nat) (ok : Bool) : State := if ok then s.burstMoved c n else s.busError

/-- The next burst of a channel: host data comes with the row, and host accesses need the function's Bus Master Enable (R538,
R541, R547). -/
def State.burst (s : State) (c : Fin 32) (data : Bytes) : State :=
  let d := s.skdDesc c
  let n := s.burstLen c
  let o := d.len - s.residue c
  if (d.shost || d.dhost) && !s.master d.func then s.busError
  else
    match s.burstData c data with
    | (s, none) => s.busError
    | (s, some bs) => (s.burstPut c o bs).1.burstEnd c n (s.burstPut c o bs).2

/-- Whether a channel has a burst to make. -/
def State.burstDue (s : State) (c : Fin 32) : Bool :=
  (s.skd[c]).active && (s.skd[c]).fetch.isNone && !(s.skd[c]).last

/-- The channel whose burst comes next, in round-robin order (R540). -/
def State.burstTurn (s : State) : Option (Fin 32) :=
  let due := (List.finRange 32).filter s.burstDue
  match due.find? fun (c : Fin 32) => decide (s.skdLast < c.val) with
  | some c => some c
  | none => due.head?

/-! ## Rows -/

/-- SKD_START: a write of START by a core (R536, R543, R546). -/
def execSkdStart (c : Fin 32) (resume : Bool) (core : Fin 8) (s : State) : Host.Outcome State Fault Refusal :=
  .next (s.skdStart c resume core)

/-- SKD_ABORT: a write of ABORT (R545). -/
def execSkdAbort (c : Fin 32) (s : State) : Host.Outcome State Fault Refusal := .next (s.skdAbort c)

/-- SKD_BURST_DONE: the channel whose turn it is makes its burst, with the bytes that its host read returned (R540). -/
def execSkdBurstDone (data : Bytes) (upset : List (Nat × Nat)) (s : State) : Host.Outcome State Fault Refusal :=
  match s.burstTurn with
  | none => .next s
  | some c => .next (({ s.upset upset with skdLast := c.val } : State).burst c data)

/-- SKD_DESCRIPTOR_DONE: the last write of a channel's descriptor has been accepted (R543, R544). -/
def execSkdDescriptorDone (c : Fin 32) (s : State) : Host.Outcome State Fault Refusal :=
  if (s.skd[c]).active ∧ (s.skd[c]).last then .next (s.descDone c) else .next s

/-- The descriptor of 64 bytes (R537). -/
def skdDescOf (bs : Bytes) : SkdDesc :=
  { src := fieldAt bs 0 8, dst := fieldAt bs 8 8, len := fieldAt bs 16 4, ctrl := fieldAt bs 20 4, next := fieldAt bs 24 8 }

/-- SKD_DESCRIPTOR_LOAD: the next descriptor of a channel has been fetched (R539, R545, R547). -/
def execSkdDescriptorLoad (c : Fin 32) (upset : List (Nat × Nat)) (s : State) : Host.Outcome State Fault Refusal :=
  let s := s.upset upset
  let x := s.skd[c]
  match x.active, x.fetch with
  | true, some a =>
    if !s.mayReach x.init a false then .next (s.pevLog a x.group false false).busError
    else
      match hubMemory a with
      | none => .next (s.pevLog a x.group false false).busError
      | some (mem, m) =>
        match s.checkRange mem m 32 3 with
        | (s, bad) =>
          if bad ≠ [] then .next s.busError
          else
            let d := skdDescOf (s.readBytes mem m 32)
            let s := (s.putDesc c d).setSkd c { x with fetch := none, descAt := some a }
            if !x.abort ∧ d.len ≠ 0 ∧ !s.descOk x d then .next ((s.putResidue c d.len).descError c) else .next (s.descLoaded c)
  | _, _ => .next s

/-- SKD_BUS_ERROR: a failed host read or another error of the fabric (R542, R547). -/
def execSkdBusError (s : State) : Host.Outcome State Fault Refusal := .next s.busError

/-- SKD_HALTED_CLEAR: a write of 1 to HALTED (R547, R548). -/
def execSkdHaltedClear (s : State) : Host.Outcome State Fault Refusal := .next (s.put (hubAt .skd) F.SKD_STATUS_HALTED 0)

end Sys2Proof.Machine
end

