-- ==== Sys2Proof/Machine/Vault.lean ====
section
/-! DEFINITION. The commands of the vault lock (chapter 13) and of a disc's mount (chapter 02). -/
namespace Sys2Proof.Machine

/-- OPEN_CORE_WATCHDOG: an open core that left its watchdog unwritten is reset alone (R419, R531). -/
def execOpenCoreWatchdog (i : Fin 2) (s : State) : Host.Outcome State Fault Refusal :=
  if s.has (hubAt .vlk) F.VLK_SANDBOX_OPEN_EN then
    let s := ((s.hicRelease (6 + i.val)).raiseHub 0x0C02 0 (6 + i.val)).irq 57
    .next { s with vlk := { s.vlk with wdogAt := s.vlk.wdogAt.set i s.clock } }
  else .next s

/-- SESSION_CLOSE_FINAL: a CLOSING session whose last command has completed becomes FREE (R401). -/
def execSessionCloseFinal (id : Nat) (s : State) : Host.Outcome State Fault Refusal := .next (s.closeFinal id)

/-- GENERATION_RECORD: the next copy of a bay's generation is sent once every data log of the disc has completed recording
(R67, R412). -/
def execGenerationRecord (b : Bay) (s : State) : Host.Outcome State Fault Refusal :=
  match s.crew.bays[b].gens, s.crew.bays[b].disc with
  | g :: _, some d =>
    if g.sent ∨ !s.fieldReady ∨ s.slotDirty d.slot then .next s
    else
      match s.dieBlocked (dieOfBay b) with
      | some st => .next (s.genOver b g st).settle
      | none => .next (s.sendGen b)
  | _, _ => .next s

/-! ## Bark and mount (R68–R74, R407, R409, R425) -/

/-- The bay's mount goes on to its system logs once the bark is measured (R68, R72). -/
def State.barkMeasured (s : State) (b : Bay) (features : List Int) : State :=
  match s.osv[b].mount with
  | none => s
  | some i =>
    if s.osv[b].f ≠ .locked ∨ s.lat[b].mount.isSome ∨ features.length ≠ 512 then s
    else
      let s := s.setLat b { s.lat[b] with mount := some i, seenLog := false, goodLog := false }
      let s := { s with recp := s.recp.set b { s.recp[b] with barkOk := true } }
      (s.systemLog b 0 0).mapDisc b fun d => { d with measured := some (barkNat (barkSignature features)) }

/-- BARK_MEASURED: eight revolutions over the bark band have given the 512 features (R72). -/
def execBarkMeasured (b : Bay) (features : List Int) (s : State) : Host.Outcome State Fault Refusal :=
  .next (s.barkMeasured b features)

/-- The payloads of a system log that decoded, from layer 0 or else from its copy (R68). -/
def SysLog.decoded (e : SysLog) : Option (List Bytes) :=
  let all : List (Nat × Bytes) → Option (List Bytes) := fun l => (List.range 16).mapM fun i => assocGet l i
  let good : Option Nat → Bool := fun r => match r with | some v => v != 2 | none => false
  if good e.ended then all e.boards else if good e.copyEnded then all e.copy else none

/-- The generation that a system log's payloads hold (R69–R71). -/
def generationOf (l : List Bytes) : Generation :=
  let p := l.headD []
  { version := fieldAt p 4 2, gen := fieldAt p 6 2, serial := fieldAt p 8 8, time := fieldAt p 16 8
    recorder := (p.drop 24).take 16, highLog := (List.range 16).map fun k => fieldAt p (44 + 4 * k) 4
    helper := fieldAt (l.getD 1 []) 4 20 % 2 ^ 145, keys := (parseKeys l).map (·.2), dir := parseDir l }

/-- The active generation of a disc as its system logs show it (R68). -/
def BayDisc.active (d : BayDisc) : Option Generation :=
  let l := d.sys.filterMap fun (e : SysLog) => e.decoded.map fun p => (e.log, generationOf p)
  (l.foldl (fun (b : Option (Nat × Generation)) x =>
    match b with | some y => if y.1 < x.1 then some x else b | none => some x) none).map (·.2)

/-- The disc as the mount finds it: with a generation, new, or with data and no titles (R68, R73, R409). -/
def State.discRead (s : State) (d : BayDisc) (dataBlank : Bool) : State × BayDisc :=
  match d.active with
  | some g =>
    (s, { d with gen := some g, orphan := false, drawn := none, mounted := true, high := g.highLog
                 bark := d.measured.bind fun m => barkRecover m g.helper })
  | none =>
    if dataBlank then
      (s.drawn, { d with gen := none, orphan := false, drawn := some (s.freeVal % 2 ^ 64), mounted := true, bark := d.measured
                         high := List.replicate 16 0 })
    else (s, { d with gen := none, orphan := true, drawn := none, mounted := true, bark := none, high := List.replicate 16 0 })

/-- The requests of a command for the logs of one slot leave the landing. -/
def State.leaveSlot (s : State) (id slot : Nat) : State :=
  let mine : Request → Bool := fun r => decide (r.owner = .cmd id) && r.slot == slot
  let l := s.lnd
  { s with lnd := { l with
    misses := l.misses.map fun (m : Miss) => { m with waiters := m.waiters.filter fun r => !mine r }
    parked := l.parked.filter fun p => !mine p.1 } }

/-- A command of a title that had resolved to a slot is resolved again (R425). -/
def State.resolveAgain (s : State) (c : Cmd) (slot : Nat) : State :=
  let boards : List Nat :=
    if c.opcode = 0x01 then (c.boards.filter fun x => x.2.1 == slot).map fun x => c.word 4 + x.1
    else if c.opcode = 0x04 ∧ !bitOf (c.word 7) 0 ∧ c.lines.any (fun k => k.1 == slot) then c.titleBoards
    else []
  if boards = [] then s
  else
    let s := s.leaveSlot c.id slot
    let c := { c with boards := c.boards.filter (fun x => x.2.1 != slot), lines := c.lines.filter fun k => k.1 != slot }
    match s.vlk.lookups.find? fun (k : Lookup) => k.cmd == c.id with
    | some k =>
      let rest := boards.filter fun b => (s.resolve (c.word 5) b).isNone
      let s := (s.setCmd c).setLookup { k with boards := k.boards ++ rest }
      s.takeBoards c.id (c.word 5) [] (boards.filter fun b => (s.resolve (c.word 5) b).isSome)
    | none => s.startBoards c (c.word 5) boards

/-- A slot holds another disc than the one recorded for it (R425). -/
def State.serialChanged (s : State) (slot : Nat) : State :=
  (s.bump (hubAt .vlk) F.VLK_CNT3_SERIAL_MISMATCH).moveInvalidate slot

/-- The vault lock takes in a mounted disc: its keys, its SERIAL and its directory (R71, R407, R421, R425). -/
def State.discTaken (s : State) (b : Bay) (d : BayDisc) : State :=
  let old := assocGet s.vlk.serials d.slot
  let changed := match old with | some n => n != d.serial | none => false
  let s := if changed then s.serialChanged d.slot else s
  match s.readDirectory d with
  | (s, n) =>
    let s := s.setHubBay b { s.crew.bays[b] with disc := some { d with keysGot := n }, task := .idle }
    let s := d.ignored.foldl (fun (t : State) e => t.raiseHub 0x0C03 0 d.slot e.title) s
    if changed then s.qen.cmds.foldl (fun (t : State) x => match t.cmd x.id with | some c => t.resolveAgain c d.slot | none => t) s
    else s

/-- A mount fails after its disc was read: the disc goes back (R69, R470). -/
def State.mountRefused (s : State) (j : MountJob) (b : Bay) : State :=
  let s := s.setTask b .idle
  let s := if s.code.changer then (s.setTask b .unmounting).returnDisc b j.cls j.func j.qid else s
  s.mountEnded j.slot stMountFailed

/-- MOUNT_COMPLETE: the system logs of a mounted disc have been read: its signature, keys, SERIAL and directory are taken in,
and everyone who waited goes on (R68–R74, R407, R409, R425). -/
def execMountComplete (slot : Nat) (dataBlank : Bool) (s : State) : Host.Outcome State Fault Refusal :=
  match s.mountOf slot with
  | none => .next s
  | some j =>
    match (if j.stage = .read then j.bay else none) with
    | none => .next s
    | some b =>
      match s.crew.bays[b].disc with
      | none => .next s
      | some d =>
        match s.discRead d dataBlank with
        | (s, d) =>
          let newer : Bool := match d.gen with | some g => decide (1 < g.version / 256) | none => false
          if newer then .next (s.mountRefused j b).settle
          else .next ((s.discTaken b d).mountEnded slot stSuccess).settle

/-! ## Directory reads (R423, R424) -/

/-- Count a directory read. -/
def State.dirRead (s : State) : State := s.bump (hubAt .vlk) F.VLK_CNT2_DIR_READS

/-- The disc of a slot, mounted. -/
def State.mountedDisc (s : State) (slot : Nat) : Option BayDisc :=
  (s.bayOfSlot slot).bind fun b => s.crew.bays[b].disc.bind fun d => if d.mounted then some d else none

/-- BACKGROUND_DIRECTORY_READ: the rebuild reads the lowest stale slot that it does not pass over, while no lookup runs
(R423). -/
def execBackgroundDirectoryRead (s : State) : Host.Outcome State Fault Refusal :=
  let v := s.vlk
  let free := s.has (hubAt .vlk) F.VLK_CTL_REBUILD_EN && v.rebuild.isNone && v.lookups.isEmpty
  match (if free then least (v.stale.filter fun n => !v.passed.contains n) else none) with
  | none => .next s
  | some slot =>
    match s.mountedDisc slot with
    | some d => .next (s.dirRead.readDirectory d).1.settle
    | none =>
      let s := { s with vlk := { s.vlk with rebuild := some slot } }
      .next (s.dirRead.wantMount slot none 3 0 1023 .dir).settle

/-- The rebuild's read whose disc is not yet seated is given up for a lookup; its slot stays STALE (R424). -/
def State.yieldRebuild (s : State) : State :=
  match s.vlk.rebuild.bind s.mountOf with
  | none => s
  | some j =>
    if j.stage = .reading ∨ j.stage = .read then s
    else ({ s with vlk := { s.vlk with rebuild := none } } : State).setMount { j with owners := j.owners.filter (· ≠ MountOwner.dir) }

/-- A lookup that has read every stale slot ends with its boards not found (R424). -/
def State.lookupFailed (s : State) (k : Lookup) (c : Cmd) (rest : List Nat) : State :=
  if c.opcode = 0x84 then (s.dropLookup c.id).openFound c k.read k.failed
  else (s.failBoards c.id (k.failed.getD stInvalidField) rest).lookupOver c.id

/-- One step of a lookup: what is covered is asked for, and the next stale slot is read (R424). -/
def State.lookupStep (s : State) (k : Lookup) (c : Cmd) : State :=
  let found := k.boards.filter fun b => (s.findExtent k.read k.title b).isSome
  let rest := k.boards.filter fun b => (s.findExtent k.read k.title b).isNone
  if c.opcode = 0x84 ∧ found ≠ [] then (s.dropLookup c.id).openFound c k.read k.failed
  else
    let s := if c.opcode = 0x84 then s else s.takeBoards c.id k.title k.read found
    let k := { k with boards := rest }
    let s := s.setLookup k
    if rest = [] then s.lookupOver c.id
    else
      match s.nextSlot k with
      | none => s.lookupFailed k c rest
      | some slot =>
        match s.mountedDisc slot with
        | some d => (s.dirRead.readDirectory d).1.setLookup { k with read := k.read ++ [slot] }
        | none =>
          ((s.dirRead.yieldRebuild).setLookup { k with at_ := some slot }).wantMount slot none k.cls k.func k.qid (.cmd c.id)

/-- FOREGROUND_LOOKUP: the lookup of a command goes on with the next slot in its order (R424). -/
def execForegroundLookup (id : Nat) (s : State) : Host.Outcome State Fault Refusal :=
  match s.vlk.lookups.find? (fun (k : Lookup) => k.cmd == id), s.cmd id with
  | some k, some c => if k.at_.isSome then .next s else .next (s.lookupStep k c).settle
  | _, _ => .next s

end Sys2Proof.Machine
end

