-- ==== Sys2Proof/Machine/Dispatch.lean ====
section
/-! DEFINITION. What each command does, one arm per constructor. -/
namespace Sys2Proof.Machine

/-- The effect of a command on everything but the queue. -/
def exec (i : Instr) (s : State) : Host.Outcome State Fault Refusal :=
  match i with
  | .registerWrite d core bay off w => Sys2Proof.Machine.execRegisterWrite d core bay off w s
  | .commit g => Sys2Proof.Machine.execCommit g s
  | .stagedSetActive g => Sys2Proof.Machine.execStagedSetActive g s
  | .flitReceive d at_ num flit cls => Sys2Proof.Machine.execFlitReceive d at_ num flit cls s
  | .linkNakReceived d at_ named => Sys2Proof.Machine.execLinkNakReceived d at_ named s
  | .creditReceived d at_ ack units => Sys2Proof.Machine.execCreditReceived d at_ ack units s
  | .continuationTimeout d at_ k => Sys2Proof.Machine.execContinuationTimeout d at_ k s
  | .portRetrainEnd d lanes => Sys2Proof.Machine.execPortRetrainEnd d lanes s
  | .flitSlotTransmit d from_ => Sys2Proof.Machine.execFlitSlotTransmit d from_ s
  | .heartbeatSend => Sys2Proof.Machine.execHeartbeatSend s
  | .heartbeat d m => Sys2Proof.Machine.execHeartbeat d m s
  | .heartbeatEcho d m => Sys2Proof.Machine.execHeartbeatEcho d m s
  | .echoLost d => Sys2Proof.Machine.execEchoLost d s
  | .heartbeatTimeout d => Sys2Proof.Machine.execHeartbeatTimeout d s
  | .clockHoldoverEnd d => Sys2Proof.Machine.execClockHoldoverEnd d s
  | .portDown d signal => Sys2Proof.Machine.execPortDown d signal s
  | .signalRise d => Sys2Proof.Machine.execSignalRise d s
  | .haltSafe d m => Sys2Proof.Machine.execHaltSafe d m s
  | .haltRelease d m => Sys2Proof.Machine.execHaltRelease d m s
  | .haltStopBay d m => Sys2Proof.Machine.execHaltStopBay d m s
  | .haltResetDie d m => Sys2Proof.Machine.execHaltResetDie d m s
  | .haltDone d m => Sys2Proof.Machine.execHaltDone d m s
  | .haltResend d => Sys2Proof.Machine.execHaltResend d s
  | .queueReset d m => Sys2Proof.Machine.execQueueReset d m s
  | .queueResetDone d m => Sys2Proof.Machine.execQueueResetDone d m s
  | .queueResetResend d => Sys2Proof.Machine.execQueueResetResend d s
  | .regRead d m => Sys2Proof.Machine.execRegRead d m s
  | .regWrite d m => Sys2Proof.Machine.execRegWrite d m s
  | .regData d m => Sys2Proof.Machine.execRegData d m s
  | .event d m => Sys2Proof.Machine.execEvent d m s
  | .fwLoad d m => Sys2Proof.Machine.execFwLoad d m s
  | .workRead d m => Sys2Proof.Machine.execWorkRead d m s
  | .workRecord d m => Sys2Proof.Machine.execWorkRecord d m s
  | .workSeek d m => Sys2Proof.Machine.execWorkSeek d m s
  | .workMount d m => Sys2Proof.Machine.execWorkMount d m s
  | .workUnmount d m => Sys2Proof.Machine.execWorkUnmount d m s
  | .workTransfer d m => Sys2Proof.Machine.execWorkTransfer d m s
  | .workCruise d m => Sys2Proof.Machine.execWorkCruise d m s
  | .workVerify d m => Sys2Proof.Machine.execWorkVerify d m s
  | .workDone d m => Sys2Proof.Machine.execWorkDone d m s
  | .recordData d m => Sys2Proof.Machine.execRecordData d m s
  | .boardData d m => Sys2Proof.Machine.execBoardData d m s
  | .boardErased d m => Sys2Proof.Machine.execBoardErased d m s
  | .logDone d m => Sys2Proof.Machine.execLogDone d m s
  | .systemBoardReceive d m => Sys2Proof.Machine.execSystemBoardReceive d m s
  | .txctlPush d w => Sys2Proof.Machine.execTxctlPush d w s
  | .rxctlPop d w => Sys2Proof.Machine.execRxctlPop d w s
  | .sfeBlockBoundary b raw => Sys2Proof.Machine.execSfeBlockBoundary b raw s
  | .snagSet b k e lw => Sys2Proof.Machine.execSnagSet b k e lw s
  | .snagClear b k e lw => Sys2Proof.Machine.execSnagClear b k e lw s
  | .longSnag b k => Sys2Proof.Machine.execLongSnag b k s
  | .forecastWindowOpen b k => Sys2Proof.Machine.execForecastWindowOpen b k s
  | .forecastWindowClose b k => Sys2Proof.Machine.execForecastWindowClose b k s
  | .sfeVelReplaced b => Sys2Proof.Machine.execSfeVelReplaced b s
  | .thermistorReading b ohm => Sys2Proof.Machine.execThermistorReading b ohm s
  | .sfeTempReplaced b => Sys2Proof.Machine.execSfeTempReplaced b s
  | .acquisitionEnd b => Sys2Proof.Machine.execAcquisitionEnd b s
  | .sfeSpotLoopWrite b k w => Sys2Proof.Machine.execSfeSpotLoopWrite b k w s
  | .sfeAfeWrite b w => Sys2Proof.Machine.execSfeAfeWrite b w s
  | .syncFrame b k o => Sys2Proof.Machine.execSyncFrame b k o s
  | .slotBlank b k area slot => Sys2Proof.Machine.execSlotBlank b k area slot s
  | .sliceClose b k len => Sys2Proof.Machine.execSliceClose b k len s
  | .sliceDetected d r => Sys2Proof.Machine.execSliceDetected d r s
  | .codewordHandover b k slot => Sys2Proof.Machine.execCodewordHandover b k slot s
  | .ldpcDecodeDone d r => Sys2Proof.Machine.execLdpcDecodeDone d r s
  | .retryJumpBack b => Sys2Proof.Machine.execRetryJumpBack b s
  | .qualityWindowLatch b k => Sys2Proof.Machine.execQualityWindowLatch b k s
  | .recordLogBuild b item => Sys2Proof.Machine.execRecordLogBuild b item s
  | .recordSpeedSettled b => Sys2Proof.Machine.execRecordSpeedSettled b s
  | .checkRevolution b marked => Sys2Proof.Machine.execCheckRevolution b marked s
  | .logWriteStart b item => Sys2Proof.Machine.execLogWriteStart b item s
  | .logWriteEnd b => Sys2Proof.Machine.execLogWriteEnd b s
  | .writeInhibit b => Sys2Proof.Machine.execWriteInhibit b s
  | .laserReportFrame b report => Sys2Proof.Machine.execLaserReportFrame b report s
  | .laserLink b => Sys2Proof.Machine.execLaserLink b s
  | .powerTest b first jitter => Sys2Proof.Machine.execPowerTest b first jitter s
  | .recOpcRun b => Sys2Proof.Machine.execRecOpcRun b s
  | .turn d adc => Sys2Proof.Machine.execTurn d adc s
  | .trnCmdClear d n => Sys2Proof.Machine.execTrnCmdClear d n s
  | .trnCmdForce d n value => Sys2Proof.Machine.execTrnCmdForce d n value s
  | .trnSetWrite d n value => Sys2Proof.Machine.execTrnSetWrite d n value s
  | .trnCtlWrite d value => Sys2Proof.Machine.execTrnCtlWrite d value s
  | .bankWordWrite d n bank off value => Sys2Proof.Machine.execBankWordWrite d n bank off value s
  | .focEnSet b => Sys2Proof.Machine.execFocEnSet b s
  | .trnOsvCtlWrite b value => Sys2Proof.Machine.execTrnOsvCtlWrite b value s
  | .surfacePeak b => Sys2Proof.Machine.execSurfacePeak b s
  | .sweepEnd b => Sys2Proof.Machine.execSweepEnd b s
  | .focusLock b => Sys2Proof.Machine.execFocusLock b s
  | .captureTimeout b => Sys2Proof.Machine.execCaptureTimeout b s
  | .trnFocusLost b => Sys2Proof.Machine.execTrnFocusLost b s
  | .holdRecovery b => Sys2Proof.Machine.execHoldRecovery b s
  | .holdTimeout b => Sys2Proof.Machine.execHoldTimeout b s
  | .trackingLock b => Sys2Proof.Machine.execTrackingLock b s
  | .spiralCheck b addr check => Sys2Proof.Machine.execSpiralCheck b addr check s
  | .grooveSearch b found => Sys2Proof.Machine.execGrooveSearch b found s
  | .moveReacquire b => Sys2Proof.Machine.execMoveReacquire b s
  | .moveLayer b layer => Sys2Proof.Machine.execMoveLayer b layer s
  | .moveTrack b turns => Sys2Proof.Machine.execMoveTrack b turns s
  | .moveSeek b layer area slot => Sys2Proof.Machine.execMoveSeek b layer area slot s
  | .layerJumpBrake b => Sys2Proof.Machine.execLayerJumpBrake b s
  | .layerJumpBrakeEnd b => Sys2Proof.Machine.execLayerJumpBrakeEnd b s
  | .ljTimeout b => Sys2Proof.Machine.execLjTimeout b s
  | .trackJumpBrake b => Sys2Proof.Machine.execTrackJumpBrake b s
  | .seekLanding b slot => Sys2Proof.Machine.execSeekLanding b slot s
  | .pwmPeriod b shunts vbr cross => Sys2Proof.Machine.execPwmPeriod b shunts vbr cross s
  | .spnRun b target vbr => Sys2Proof.Machine.execSpnRun b target vbr s
  | .spnIdle b vbr => Sys2Proof.Machine.execSpnIdle b vbr s
  | .spnStop b => Sys2Proof.Machine.execSpnStop b s
  | .spnClrFault b => Sys2Proof.Machine.execSpnClrFault b s
  | .spnCtlWrite b value => Sys2Proof.Machine.execSpnCtlWrite b value s
  | .ipdDone b times => Sys2Proof.Machine.execIpdDone b times s
  | .alignEnd b => Sys2Proof.Machine.execAlignEnd b s
  | .openHandOver b => Sys2Proof.Machine.execOpenHandOver b s
  | .openTimeout b => Sys2Proof.Machine.execOpenTimeout b s
  | .catchDecide b seen vbr => Sys2Proof.Machine.execCatchDecide b seen vbr s
  | .catchLock b => Sys2Proof.Machine.execCatchLock b s
  | .observerLoss b => Sys2Proof.Machine.execObserverLoss b s
  | .spnObsRelocked b => Sys2Proof.Machine.execSpnObsRelocked b s
  | .flywheelTimeout b => Sys2Proof.Machine.execFlywheelTimeout b s
  | .shortEnd b vbr => Sys2Proof.Machine.execShortEnd b vbr s
  | .overspeed b => Sys2Proof.Machine.execOverspeed b s
  | .undervoltage b => Sys2Proof.Machine.execUndervoltage b s
  | .atSpeed b => Sys2Proof.Machine.execAtSpeed b s
  | .windingTempUpdate b => Sys2Proof.Machine.execWindingTempUpdate b s
  | .ceilReading x carrier => Sys2Proof.Machine.execCeilReading x carrier s
  | .spnCeilReplaced => Sys2Proof.Machine.execSpnCeilReplaced s
  | .spnCeilValue => Sys2Proof.Machine.execSpnCeilValue s
  | .ceilRelayWrite b frac => Sys2Proof.Machine.execCeilRelayWrite b frac s
  | .ceilStale b => Sys2Proof.Machine.execCeilStale b s
  | .profileTick d => Sys2Proof.Machine.execProfileTick d s
  | .axpMove d n => Sys2Proof.Machine.execAxpMove d n s
  | .axpStop d n => Sys2Proof.Machine.execAxpStop d n s
  | .axpResume d n => Sys2Proof.Machine.execAxpResume d n s
  | .axpHome d n => Sys2Proof.Machine.execAxpHome d n s
  | .axpClrFault d n => Sys2Proof.Machine.execAxpClrFault d n s
  | .axpCtlWrite d n value => Sys2Proof.Machine.execAxpCtlWrite d n value s
  | .grpMove d g => Sys2Proof.Machine.execGrpMove d g s
  | .grpStop d g => Sys2Proof.Machine.execGrpStop d g s
  | .grpResume d g => Sys2Proof.Machine.execGrpResume d g s
  | .switchRawEdge d k active => Sys2Proof.Machine.execSwitchRawEdge d k active s
  | .switchConfirm d k => Sys2Proof.Machine.execSwitchConfirm d k s
  | .transferStepDone => Sys2Proof.Machine.execTransferStepDone s
  | .headDiscTimeout => Sys2Proof.Machine.execHeadDiscTimeout s
  | .yrdDoorOpen => Sys2Proof.Machine.execYrdDoorOpen s
  | .doorSettled => Sys2Proof.Machine.execDoorSettled s
  | .doorTimeout => Sys2Proof.Machine.execDoorTimeout s
  | .inventory => Sys2Proof.Machine.execInventory s
  | .deckScanned seen => Sys2Proof.Machine.execDeckScanned seen s
  | .yarderPowerUpHoming => Sys2Proof.Machine.execYarderPowerUpHoming s
  | .yrdCtlWrite value => Sys2Proof.Machine.execYrdCtlWrite value s
  | .cruNow b => Sys2Proof.Machine.execCruNow b s
  | .cruTempCheck b => Sys2Proof.Machine.execCruTempCheck b s
  | .cruRunStart b => Sys2Proof.Machine.execCruRunStart b s
  | .cruStarved b => Sys2Proof.Machine.execCruStarved b s
  | .cruPointMeasured b m => Sys2Proof.Machine.execCruPointMeasured b m s
  | .cruSpotRelease b => Sys2Proof.Machine.execCruSpotRelease b s
  | .cruTapSnapshot b => Sys2Proof.Machine.execCruTapSnapshot b s
  | .cruRunAbort b => Sys2Proof.Machine.execCruRunAbort b s
  | .mountDarkPhase b m => Sys2Proof.Machine.execMountDarkPhase b m s
  | .cruQualityUpdate b => Sys2Proof.Machine.execCruQualityUpdate b s
  | .fillTimeout id => Sys2Proof.Machine.execFillTimeout id s
  | .requestRetry => Sys2Proof.Machine.execRequestRetry s
  | .dirtyHandOver e upset => Sys2Proof.Machine.execDirtyHandOver e upset s
  | .lndRangeInvalidate force cls slots => Sys2Proof.Machine.execLndRangeInvalidate force cls slots s
  | .lndRangePreload force cls slots => Sys2Proof.Machine.execLndRangePreload force cls slots s
  | .lndRangePreloadLock force cls slots => Sys2Proof.Machine.execLndRangePreloadLock force cls slots s
  | .lndRangeUnlock force cls slots => Sys2Proof.Machine.execLndRangeUnlock force cls slots s
  | .lndRangeClean force cls slots => Sys2Proof.Machine.execLndRangeClean force cls slots s
  | .lndRangeScrub force cls slots => Sys2Proof.Machine.execLndRangeScrub force cls slots s
  | .lndRangeAbort => Sys2Proof.Machine.execLndRangeAbort s
  | .lndRangeDone => Sys2Proof.Machine.execLndRangeDone s
  | .lndCtrlWrite en => Sys2Proof.Machine.execLndCtrlWrite en s
  | .lndWayRetireWrite w => Sys2Proof.Machine.execLndWayRetireWrite w s
  | .lndCfgWrite limits w => Sys2Proof.Machine.execLndCfgWrite limits w s
  | .windowCommitPoint => Sys2Proof.Machine.execWindowCommitPoint s
  | .bar2Request r upset => Sys2Proof.Machine.execBar2Request r upset s
  | .patrolBurst upset => Sys2Proof.Machine.execPatrolBurst upset s
  | .miuInjectArm w => Sys2Proof.Machine.execMiuInjectArm w s
  | .openCoreWatchdog k => Sys2Proof.Machine.execOpenCoreWatchdog k s
  | .sessionCloseFinal id => Sys2Proof.Machine.execSessionCloseFinal id s
  | .generationRecord b => Sys2Proof.Machine.execGenerationRecord b s
  | .backgroundDirectoryRead => Sys2Proof.Machine.execBackgroundDirectoryRead s
  | .foregroundLookup id => Sys2Proof.Machine.execForegroundLookup id s
  | .mountComplete slot dataBlank => Sys2Proof.Machine.execMountComplete slot dataBlank s
  | .barkMeasured b features => Sys2Proof.Machine.execBarkMeasured b features s
  | .doorbellWrite f q tail head => Sys2Proof.Machine.execDoorbellWrite f q tail head s
  | .fetch upset => Sys2Proof.Machine.execFetch upset s
  | .entryReceived f q upset => Sys2Proof.Machine.execEntryReceived f q upset s
  | .completionPost f q => Sys2Proof.Machine.execCompletionPost f q s
  | .qenHalt f q => Sys2Proof.Machine.execQenHalt f q s
  | .haltCutComplete f => Sys2Proof.Machine.execHaltCutComplete f s
  | .qenMqCtlWrite f w => Sys2Proof.Machine.execQenMqCtlWrite f w s
  | .read id upset => Sys2Proof.Machine.execRead id upset s
  | .readRaw id upset => Sys2Proof.Machine.execReadRaw id upset s
  | .record id upset => Sys2Proof.Machine.execRecord id upset s
  | .preload id => Sys2Proof.Machine.execPreload id s
  | .fence id => Sys2Proof.Machine.execFence id s
  | .flush id upset => Sys2Proof.Machine.execFlush id upset s
  | .verifyScan id => Sys2Proof.Machine.execVerifyScan id s
  | .createQueuePair id => Sys2Proof.Machine.execCreateQueuePair id s
  | .deleteQueuePair id => Sys2Proof.Machine.execDeleteQueuePair id s
  | .resetQueue id => Sys2Proof.Machine.execResetQueue id s
  | .sessionOpen id => Sys2Proof.Machine.execSessionOpen id s
  | .sessionClose id => Sys2Proof.Machine.execSessionClose id s
  | .mount id => Sys2Proof.Machine.execMount id s
  | .unmount id => Sys2Proof.Machine.execUnmount id s
  | .moveDisc id => Sys2Proof.Machine.execMoveDisc id s
  | .cruiseNow id => Sys2Proof.Machine.execCruiseNow id s
  | .queryBay id => Sys2Proof.Machine.execQueryBay id s
  | .bundleDownload id => Sys2Proof.Machine.execBundleDownload id s
  | .scheduleActivation id => Sys2Proof.Machine.execScheduleActivation id s
  | .cancelActivation id => Sys2Proof.Machine.execCancelActivation id s
  | .confirmHealth id => Sys2Proof.Machine.execConfirmHealth id s
  | .getLogPage id => Sys2Proof.Machine.execGetLogPage id s
  | .setFeature id => Sys2Proof.Machine.execSetFeature id s
  | .getFeature id => Sys2Proof.Machine.execGetFeature id s
  | .fieldRegisterRead id => Sys2Proof.Machine.execFieldRegisterRead id s
  | .fieldRegisterWrite id => Sys2Proof.Machine.execFieldRegisterWrite id s
  | .regDataTimeout id => Sys2Proof.Machine.execRegDataTimeout id s
  | .scrubRange id upset => Sys2Proof.Machine.execScrubRange id upset s
  | .landingRangeOp id upset => Sys2Proof.Machine.execLandingRangeOp id upset s
  | .scaleBookStale id => Sys2Proof.Machine.execScaleBookStale id s
  | .scaleBookHint id => Sys2Proof.Machine.execScaleBookHint id s
  | .setTime id => Sys2Proof.Machine.execSetTime id s
  | .bar0Request r => Sys2Proof.Machine.execBar0Request r s
  | .bmeClear f => Sys2Proof.Machine.execBmeClear f s
  | .bmeSet f cfg numVfs => Sys2Proof.Machine.execBmeSet f cfg numVfs s
  | .functionLevelReset f vfEnableClear => Sys2Proof.Machine.execFunctionLevelReset f vfEnableClear s
  | .d3hotEntry f => Sys2Proof.Machine.execD3hotEntry f s
  | .d0Return f => Sys2Proof.Machine.execD0Return f s
  | .perstAssert => Sys2Proof.Machine.execPerstAssert s
  | .hotReset => Sys2Proof.Machine.execHotReset s
  | .completionReceived x => Sys2Proof.Machine.execCompletionReceived x s
  | .completionTimeout tag => Sys2Proof.Machine.execCompletionTimeout tag s
  | .readPieceIssue => Sys2Proof.Machine.execReadPieceIssue s
  | .msixSend f v => Sys2Proof.Machine.execMsixSend f v s
  | .msixUnmask f v => Sys2Proof.Machine.execMsixUnmask f v s
  | .linkFullRateRetrain rate width flit => Sys2Proof.Machine.execLinkFullRateRetrain rate width flit s
  | .hicSourceEvent n level => Sys2Proof.Machine.execHicSourceEvent n level s
  | .hicClaimRead c => Sys2Proof.Machine.execHicClaimRead c s
  | .hicClaimWrite c n => Sys2Proof.Machine.execHicClaimWrite c n s
  | .hicTriggerWrite n => Sys2Proof.Machine.execHicTriggerWrite n s
  | .hicSrcCfgWrite by_ n w => Sys2Proof.Machine.execHicSrcCfgWrite by_ n w s
  | .msipWrite by_ c w => Sys2Proof.Machine.execMsipWrite by_ c w s
  | .mtimecmpReached c => Sys2Proof.Machine.execMtimecmpReached c s
  | .skdStart c resume core => Sys2Proof.Machine.execSkdStart c resume core s
  | .skdAbort c => Sys2Proof.Machine.execSkdAbort c s
  | .skdBurstDone data upset => Sys2Proof.Machine.execSkdBurstDone data upset s
  | .skdDescriptorDone c => Sys2Proof.Machine.execSkdDescriptorDone c s
  | .skdDescriptorLoad c upset => Sys2Proof.Machine.execSkdDescriptorLoad c upset s
  | .skdBusError => Sys2Proof.Machine.execSkdBusError s
  | .skdHaltedClear => Sys2Proof.Machine.execSkdHaltedClear s
  | .flashOperationDone => Sys2Proof.Machine.execFlashOperationDone s
  | .activationStart => Sys2Proof.Machine.execActivationStart s
  | .activationDrainDone => Sys2Proof.Machine.execActivationDrainDone s
  | .activationFlushDone => Sys2Proof.Machine.execActivationFlushDone s
  | .activationReset => Sys2Proof.Machine.execActivationReset s
  | .bootCheck => Sys2Proof.Machine.execBootCheck s
  | .selfTestDone => Sys2Proof.Machine.execSelfTestDone s
  | .confirmationWindowExpiry => Sys2Proof.Machine.execConfirmationWindowExpiry s
  | .romStageBoot => Sys2Proof.Machine.execRomStageBoot s
  | .stump2BringUp channels setsLog2 writes => Sys2Proof.Machine.execStump2BringUp channels setsLog2 writes s
  | .memoryInitDone => Sys2Proof.Machine.execMemoryInitDone s
  | .fpwBootGo d => Sys2Proof.Machine.execFpwBootGo d s
  | .fieldReady => Sys2Proof.Machine.execFieldReady s
  | .hostSupplyTrip => Sys2Proof.Machine.execHostSupplyTrip s
  | .hostSupplyRelease => Sys2Proof.Machine.execHostSupplyRelease s
  | .vauxLoss => Sys2Proof.Machine.execVauxLoss s
  | .fieldSupplyTrip d => Sys2Proof.Machine.execFieldSupplyTrip d s
  | .junctionOvertemp d => Sys2Proof.Machine.execJunctionOvertemp d s
  | .junctionOvertempRelease d => Sys2Proof.Machine.execJunctionOvertempRelease d s
  | .vmechSample code => Sys2Proof.Machine.execVmechSample code s
  | .fpwVmechLow => Sys2Proof.Machine.execFpwVmechLow s
  | .vmechLowClear => Sys2Proof.Machine.execVmechLowClear s
  | .fpwVmechHigh => Sys2Proof.Machine.execFpwVmechHigh s
  | .vmechHighClear => Sys2Proof.Machine.execVmechHighClear s
  | .domainSwitchOff n => Sys2Proof.Machine.execDomainSwitchOff n s
  | .domainWake n => Sys2Proof.Machine.execDomainWake n s
  | .keeperTick => Sys2Proof.Machine.execKeeperTick s
  | .pwrXtalLost => Sys2Proof.Machine.execPwrXtalLost s
  | .bayIdleSpindle b => Sys2Proof.Machine.execBayIdleSpindle b s
  | .bayIdleReturn b => Sys2Proof.Machine.execBayIdleReturn b s
  | .safeStateShortBrake b => Sys2Proof.Machine.execSafeStateShortBrake b s
  | .cqCoalesceTimeout f q => Sys2Proof.Machine.execCqCoalesceTimeout f q s
  | .fabricPllLockTimeout => Sys2Proof.Machine.execFabricPllLockTimeout s
  | .linkRecovery recovery rate width flit up => Sys2Proof.Machine.execLinkRecovery recovery rate width flit up s
  | .jtagAccess a w => Sys2Proof.Machine.execJtagAccess a w s

end Sys2Proof.Machine
end

