-- ==== Sys2Proof/Safety.lean ====
section
/-! DEFINITION. What the statements speak of: runs that go on, the two sides of the barrier, and which commands stay on
theirs. -/
namespace Sys2Proof.Machine

/-- The command completes, in a state with a property. -/
def Completes (i : Instr) (s : State) (p : State → Prop) : Prop := ∃ t, exec i s = .next t ∧ p t

/-- The functional blocks of the hub, die 0: its memories, the landing, the integrity unit, the vault lock, crew firmware, the
queue engine, the endpoint, the interrupt controller, the skid DMA, firmware update and power (the table of R17). -/
def State.hub (s : State) :
    List Host.Cell × Landing × Miu × Vlk × Crew × Qen × Ep × Hic × Vector Skd 32 × Nat × Fwu × Pwr :=
  (s.mem, s.lnd, s.miu, s.vlk, s.crew, s.qen, s.ep, s.hic, s.skd, s.skdLast, s.fwu, s.pwr)

/-- The functional blocks of the field dies (the table of R17). -/
def State.field (s : State) : Vector Sfe 12 × Vector LatDie 8 × Vector LatBay 12 × Vector Rec 12 × Vector Osv 12 ×
    Vector Trn 8 × Vector Spn 12 × Ceil × Vector Axp 8 × Yrd × Vector Cru 12 :=
  (s.sfe, s.latDie, s.lat, s.recp, s.osv, s.trn, s.spn, s.ceil, s.axp, s.yrd, s.cru)

/-- Commands that act on the field side of the barrier, or on the registers of a port alone. -/
def onField : Instr → Bool
  | .commit .. | .creditReceived .. | .heartbeatSend | .heartbeat .. | .heartbeatTimeout .. | .clockHoldoverEnd ..
  | .haltSafe .. | .haltRelease .. | .haltStopBay .. | .haltResetDie .. | .queueReset .. | .regRead .. | .fwLoad ..
  | .workRead .. | .workRecord .. | .workSeek .. | .workMount .. | .workUnmount .. | .workTransfer .. | .workCruise ..
  | .workVerify .. | .recordData .. | .boardErased .. | .txctlPush .. | .rxctlPop .. | .sfeBlockBoundary ..
  | .snagSet .. | .snagClear .. | .longSnag .. | .forecastWindowOpen .. | .forecastWindowClose .. | .sfeVelReplaced ..
  | .thermistorReading .. | .sfeTempReplaced .. | .acquisitionEnd .. | .sfeSpotLoopWrite .. | .sfeAfeWrite ..
  | .syncFrame .. | .slotBlank .. | .sliceClose .. | .sliceDetected .. | .codewordHandover .. | .ldpcDecodeDone ..
  | .retryJumpBack .. | .qualityWindowLatch .. | .recordLogBuild .. | .recordSpeedSettled .. | .checkRevolution ..
  | .logWriteStart .. | .logWriteEnd .. | .writeInhibit .. | .laserReportFrame .. | .laserLink .. | .powerTest ..
  | .recOpcRun .. | .turn .. | .trnCmdClear .. | .trnCmdForce .. | .trnSetWrite .. | .trnCtlWrite ..
  | .bankWordWrite .. | .focEnSet .. | .trnOsvCtlWrite .. | .surfacePeak .. | .sweepEnd .. | .focusLock ..
  | .captureTimeout .. | .trnFocusLost .. | .holdRecovery .. | .holdTimeout .. | .trackingLock .. | .spiralCheck ..
  | .grooveSearch .. | .moveReacquire .. | .moveLayer .. | .moveTrack .. | .moveSeek .. | .layerJumpBrake ..
  | .layerJumpBrakeEnd .. | .ljTimeout .. | .trackJumpBrake .. | .seekLanding .. | .pwmPeriod .. | .spnRun ..
  | .spnIdle .. | .spnStop .. | .spnClrFault .. | .spnCtlWrite .. | .ipdDone .. | .alignEnd .. | .openHandOver ..
  | .openTimeout .. | .catchDecide .. | .catchLock .. | .observerLoss .. | .spnObsRelocked .. | .flywheelTimeout ..
  | .shortEnd .. | .overspeed .. | .undervoltage .. | .atSpeed .. | .windingTempUpdate .. | .ceilReading ..
  | .spnCeilReplaced | .spnCeilValue | .ceilRelayWrite .. | .ceilStale .. | .profileTick .. | .axpMove ..
  | .axpStop .. | .axpResume .. | .axpHome .. | .axpClrFault .. | .axpCtlWrite .. | .grpMove .. | .grpStop ..
  | .grpResume .. | .switchRawEdge .. | .switchConfirm .. | .transferStepDone | .headDiscTimeout | .yrdDoorOpen
  | .doorSettled | .doorTimeout | .inventory | .deckScanned .. | .yarderPowerUpHoming | .yrdCtlWrite .. | .cruNow ..
  | .cruTempCheck .. | .cruRunStart .. | .cruStarved .. | .cruPointMeasured .. | .cruSpotRelease ..
  | .cruTapSnapshot .. | .cruRunAbort .. | .mountDarkPhase .. | .cruQualityUpdate .. | .miuInjectArm ..
  | .skdHaltedClear | .vmechSample .. | .fpwVmechLow | .vmechLowClear | .fpwVmechHigh | .vmechHighClear
  | .bayIdleSpindle .. | .safeStateShortBrake .. => true
  | _ => false

/-- Commands that act on the hub side of the barrier, or on the words of a port alone. -/
def onHub : Instr → Bool
  | .commit .. | .stagedSetActive .. | .flitReceive .. | .linkNakReceived .. | .creditReceived ..
  | .continuationTimeout .. | .portRetrainEnd .. | .flitSlotTransmit .. | .heartbeatSend | .heartbeat ..
  | .heartbeatEcho .. | .echoLost .. | .portDown .. | .signalRise .. | .haltDone .. | .haltResend ..
  | .queueResetDone .. | .queueResetResend .. | .regRead .. | .regData .. | .event .. | .fwLoad .. | .workDone ..
  | .boardData .. | .boardErased .. | .logDone .. | .systemBoardReceive .. | .txctlPush .. | .rxctlPop ..
  | .sfeAfeWrite .. | .trnSetWrite .. | .bankWordWrite .. | .fillTimeout .. | .requestRetry | .dirtyHandOver ..
  | .lndRangeInvalidate .. | .lndRangePreload .. | .lndRangePreloadLock .. | .lndRangeUnlock .. | .lndRangeClean ..
  | .lndRangeScrub .. | .lndRangeAbort | .lndRangeDone | .lndCtrlWrite .. | .lndWayRetireWrite .. | .lndCfgWrite ..
  | .windowCommitPoint | .bar2Request .. | .patrolBurst .. | .miuInjectArm .. | .openCoreWatchdog ..
  | .sessionCloseFinal .. | .generationRecord .. | .backgroundDirectoryRead | .foregroundLookup .. | .mountComplete ..
  | .doorbellWrite .. | .fetch .. | .entryReceived .. | .completionPost .. | .qenHalt .. | .haltCutComplete ..
  | .qenMqCtlWrite .. | .read .. | .readRaw .. | .record .. | .preload .. | .fence .. | .flush .. | .verifyScan ..
  | .createQueuePair .. | .deleteQueuePair .. | .resetQueue .. | .sessionOpen .. | .sessionClose .. | .mount ..
  | .unmount .. | .moveDisc .. | .cruiseNow .. | .queryBay .. | .bundleDownload .. | .scheduleActivation ..
  | .cancelActivation .. | .confirmHealth .. | .getLogPage .. | .setFeature .. | .getFeature ..
  | .fieldRegisterRead .. | .fieldRegisterWrite .. | .regDataTimeout .. | .scrubRange .. | .landingRangeOp ..
  | .scaleBookStale .. | .scaleBookHint .. | .setTime .. | .bar0Request .. | .bmeClear .. | .bmeSet ..
  | .functionLevelReset .. | .d3hotEntry .. | .d0Return .. | .perstAssert | .hotReset | .completionReceived ..
  | .completionTimeout .. | .readPieceIssue | .msixSend .. | .msixUnmask .. | .linkFullRateRetrain ..
  | .hicSourceEvent .. | .hicClaimRead .. | .hicClaimWrite .. | .hicTriggerWrite .. | .hicSrcCfgWrite ..
  | .msipWrite .. | .mtimecmpReached .. | .skdStart .. | .skdAbort .. | .skdBurstDone .. | .skdDescriptorDone ..
  | .skdDescriptorLoad .. | .skdBusError | .skdHaltedClear | .flashOperationDone | .activationDrainDone
  | .activationFlushDone | .activationReset | .bootCheck | .romStageBoot | .stump2BringUp .. | .memoryInitDone
  | .fpwBootGo .. | .fieldReady | .hostSupplyTrip | .hostSupplyRelease | .vauxLoss | .junctionOvertempRelease ..
  | .vmechSample .. | .vmechLowClear | .fpwVmechHigh | .vmechHighClear | .domainSwitchOff .. | .keeperTick
  | .pwrXtalLost | .bayIdleSpindle .. | .bayIdleReturn .. | .cqCoalesceTimeout .. | .fabricPllLockTimeout
  | .linkRecovery .. => true
  | _ => false

end Sys2Proof.Machine
end

