-- ==== Sys2Proof/Certificates/Slice0/Obligations.lean ====
section
/-! DEFINITION. The statements: what the commands, the operations behind them and every step do. Each docstring names the rules of
the spec that it rests on. -/

section
open Sys2Proof Sys2Proof.Machine

/-- StepRunsFront: a step with a command at the front of the queue is that command's effect on the state with the queue's
rest; on an empty queue the step is an idle nanosecond (the model's choice, log entry 2). -/
def Obligations.StepRunsFront : Prop :=
  (∀ (c : Instr) (rest : List Instr) (s : State), step { s with pending := c :: rest } = exec c { s with pending := rest })
  ∧ ∀ s : State, s.pending = [] → step s = .next (idle s)

/-- ResetState (R41, R350, R485, R504, R515, R559, R571, R572, R586, R592): after reset the host side waits in reset with
nothing queued, no memory listed, no function enabled and no schedule; a register reads as its table says, here some of them.
-/
def Obligations.ResetState : Prop :=
  let s := State.reset
  s.pending = [] ∧ s.mem = [] ∧ Memory.wf s.mem ∧ s.pwr.boot = .held ∧ s.pwr.cause = .powerOn ∧ s.fwu.sched = none ∧ s.qen.queues = []
  ∧ s.vlk.sessions = [] ∧ s.ep.numVfs = 0 ∧ (∀ f : Fin 64, s.master f = false) ∧ (∀ d : Die, (s.dies[d]).boot = .romWait)
  ∧ (∀ d : Die, (s.dies[d]).safe = true) ∧ s.get (hubAt .fwu) F.FWU_CFG_FLUSH_LIMIT = 60 ∧ s.has (hubAt .pwr) F.PWR_CTL_AUTO = true
  ∧ (∀ d : Die, d ≠ 0 → s.get (dieAt .fpw d) F.FPW_VMECH_CFG_LOW_MV = 10200 ∧ s.get (dieAt .fpw d) F.FPW_VMECH_CFG_HIGH_MV = 13800)
  ∧ (∀ b : Bay, (s.spn[b]).state = .stopped ∧ (s.recp[b]).state = .idle)

/-- EveryStepGoesOn: every step answers a next state, and every command is taken from the front of the queue: afterwards the
queue holds what stood behind it (the model's choice: nothing of this block stops it). -/
def Obligations.EveryStepGoesOn : Prop :=
  ∀ (s : State), ∃ t, step s = .next t ∧ t.pending = s.pending.tail

/-- MemoryCanonical: hub memory keeps its canonical form through every step: addresses rise and no listed byte is 0. -/
def Obligations.MemoryCanonical : Prop :=
  ∀ (s t : State), Memory.wf s.mem → step s = .next t → Memory.wf t.mem

/-- TheBarrierHolds (R17–R20): a command that acts on the field side leaves every block of the hub as it was, and one that
acts on the hub side leaves every block of the field dies as it was; what passes between them passes through the ports. -/
def Obligations.TheBarrierHolds : Prop :=
  ∀ (c : Instr) (s t : State), exec c s = .next t → (onField c = true → t.hub = s.hub) ∧ (onHub c = true → t.field = s.field)

/-- RegisterWrites (R3, R8, R12, R418, R592, R611): a write of a word acts on a field by the field's access type, on one
store, and on no other key. Second: REGISTER_WRITE to a die's register that has no behaviour of its own writes its fields; a
value outside a range, or an offset without a register, changes nothing; a hub write that the map denies is logged. -/
def Obligations.RegisterWrites : Prop :=
  (∀ (locked : Bool) (l : Loc) (w : Word) (s : State) (f : Field),
    let t := writeField locked l w s f
    let k := f.key l.base l.i l.j
    t = { s with regs := t.regs, staged := t.staged }
    ∧ (∀ (g : Field) (n : Nat), n ≠ k → fieldIn t.regs g n = fieldIn s.regs g n ∧ fieldIn t.staged g n = fieldIn s.staged g n)
    ∧ (f.acc = .rw ∨ (f.acc = .bl ∧ locked = false) → t.staged = s.staged ∧ fieldIn t.regs f k = f.of w)
    ∧ (f.acc = .bl ∧ locked = true → t = s)
    ∧ (f.acc = .w1c → t.staged = s.staged ∧ fieldIn t.regs f k = fieldIn s.regs f k &&& (2 ^ f.width - 1 - f.of w))
    ∧ (f.acc = .w1s → t.staged = s.staged ∧ fieldIn t.regs f k = (fieldIn s.regs f k ||| f.of w) % 2 ^ f.width)
    ∧ (f.acc = .st → t.regs = s.regs ∧ fieldIn t.staged f k = f.of w)
    ∧ (f.acc = .ro → t.staged = s.staged ∧ (l.reg.counter = false → t = s) ∧ (l.reg.counter = true → fieldIn t.regs f k = 0))
    ∧ (f.acc = .wo ∨ f.acc = .sc → t = s))
  ∧ (∀ (d : Die) (core : Fin 8) (bay off : Nat) (w : Word) (s : State),
    (d ≠ 0 → ¬(d = 1 ∧ bay ≠ 0) →
      (s.fieldFind d bay off = none → exec (.registerWrite d core bay off w) s = .next s)
      ∧ ∀ (k : Block) (rel : Nat) (l : Loc), s.fieldFind d bay off = some (k, rel, l) → k = .lat ∨ k = .fkr →
          commitAt k d (bayOf d bay) rel = none →
          s.calibratorOwns (bayOf d bay) (l.base + rel - (if l.shadow then l.reg.shadow else 0)) = false →
          exec (.registerWrite d core bay off w) s = .next (if l.shadow ∨ l.inRange w then s.writeWord false l w else s))
    ∧ (d = 0 → s.mayReach (Init.ofCore core) off true = false →
        exec (.registerWrite d core bay off w) s = .next (s.pevLog off (coreGroup core) true false))
    ∧ (d = 0 → s.mayReach (Init.ofCore core) off true = true → ∀ (rel a : Nat) (k : Block) (l : Loc),
        hubSplit off = some (0, .fwu, rel) → hubFind off = some (a, k, rel, l) → s.locked = false →
        exec (.registerWrite d core bay off w) s = .next (if l.shadow ∨ l.inRange w then s.writeWord false l w else s)))

/-- StagedGroups (R11, R12): COMMIT takes the staged set into the pending set when it is consistent, sets REJECT when it is
not, and OVERRUN while a set waits; nothing else changes. Second: at its boundary a group's pending set becomes active as a
whole, and no value outside the group changes; without a pending set nothing happens. The window's boundary is
WINDOW_COMMIT_POINT. -/
def Obligations.StagedGroups : Prop :=
  (∀ (g : Group) (s : State),
    (s.isWaiting g = true → exec (.commit g) s = .next (s.put (groupCommitAt g) commitOverrun 1))
    ∧ (s.isWaiting g = false → groupOk s g = false → exec (.commit g) s = .next (s.put (groupCommitAt g) commitReject 1))
    ∧ (s.isWaiting g = false → groupOk s g = true → Completes (.commit g) s fun t =>
        t = { s with waiting := t.waiting, groups := t.groups } ∧ t.isWaiting g = true
        ∧ ∀ k, storeGet t.waiting k = if inRanges (groupRanges g) k then storeGet s.staged k else storeGet s.waiting k))
  ∧ (∀ (g : Group) (s : State), g ≠ .lndWindow →
    (s.isWaiting g = false → exec (.stagedSetActive g) s = .next s)
    ∧ (s.isWaiting g = true → Completes (.stagedSetActive g) s fun t =>
        t = { s with regs := t.regs, waiting := t.waiting, groups := t.groups } ∧ t.isWaiting g = false
        ∧ (∀ h, h ≠ g → t.isWaiting h = s.isWaiting h)
        ∧ ∀ k, storeGet t.regs k = (if inRanges (groupRanges g) k then storeGet s.waiting k else storeGet s.regs k)
            ∧ storeGet t.waiting k = (if inRanges (groupRanges g) k then none else storeGet s.waiting k)))

/-- FlitReceived (R20, R27–R29): a flit of a type, a tag and a word reads back as they are, and its CRC matches. Second: a
flit at an end of a port that is not UP, or out of its turn, changes nothing; a bad CRC counts in REPLAYS and is answered by
LINK_NAK; a good IDLE moves the turn alone; a good HEARTBEAT in its turn is a message for the die; a TYPE that no table lists
is counted in REFUSED and reported. -/
def Obligations.FlitReceived : Prop :=
  (∀ (type tag : Nat) (w : Word64), type < 256 → tag < 256 →
    flitType (flitOf type tag w) = type ∧ flitTag (flitOf type tag w) = tag ∧ flitWord (flitOf type tag w) = w
    ∧ flitGood (flitOf type tag w) = true)
  ∧ (∀ (d : Die) (num tag type : Nat) (w : Word64) (f : Flit) (k : KClass) (s : State),
    let r := s.ports[d].fieldRx
    let turn := s.ports[d].state = .up ∧ (∀ g, r.good = some g → num = g + 1) ∧ r.since + 1 < 64
    let seen : RxEnd := { r with good := some num, since := r.since + 1, waiting := false }
    (∀ x, s.ports[d].state ≠ .up → exec (.flitReceive d x num f k) s = .next s)
    ∧ (∀ x g, flitGood f = true → (s.ports[d].rx x).good = some g → num ≠ g + 1 → exec (.flitReceive d x num f k) s = .next s)
    ∧ (s.ports[d].state = .up → flitGood f = false →
        exec (.flitReceive d .field num f k) s = .next
          (((s.setRxEnd d .field { r with waiting := true }).bump (dieAt .fkr d) F.FKR_ERRCNT_REPLAYS).sendNak d .field)
        ∧ exec (.flitReceive d .hub num f k) s = .next
          (((s.setRxEnd d .hub { s.ports[d].hubRx with waiting := true }).bump (hubAt .krf) F.KRF_ERRCNT_REPLAYS d.val).sendNak
            d .hub))
    ∧ (turn → tag < 256 → exec (.flitReceive d .field num (flitOf 0 tag w) k) s = .next (s.setRxEnd d .field seen))
    ∧ (turn → tag < 256 → r.opens[(0 : Fin 6)] = none → tagLate r.expect[(0 : Fin 6)] tag = false →
        exec (.flitReceive d .field num (flitOf 0x01 tag w) k) s = .next (s.setRxEnd d .field { seen with
          expect := r.expect.set (0 : Fin 6) (some ((tag + 1) % 256)), inbox := r.inbox ++ [{ type := 0x01, word := w, cls := .k0 }] }))
    ∧ (turn → tag < 256 → type < 256 → type ≠ 0 → contClass type = none → msgInfo type = none →
        exec (.flitReceive d .field num (flitOf type tag w) k) s = .next
          (((s.setRxEnd d .field seen).bump (dieAt .fkr d) F.FKR_ERRCNT_REFUSED).raiseDie d 0x0901 none 1 d.val type 0)))

/-- FlitsSent (R22, R27, R29, R30): a LINK_NAK has every flit after the named one sent again, in order, from a replay buffer
that is kept, and the fourth time for one flit the port retrains; a CREDIT word releases the acknowledged flits and adds
units of eight words to the credits of K1–K5 alone; a continuation that has not come in time truncates the open message.
Second: in a slot of an UP port a replay goes first, then a waiting K0 word that may go, and with nothing to send an IDLE
flit; each new flit takes the next number and enters the replay buffer of 128. -/
def Obligations.FlitsSent : Prop :=
  (∀ (d : Die) (x : Side) (named ack : Nat) (units : Vector Nat 5) (k : KClass) (s : State),
    let e := s.ports[d].tx x
    let later := e.replay.filter fun f => decide (named < f.1)
    (s.ports[d].state ≠ .up → exec (.linkNakReceived d x named) s = .next s ∧ exec (.creditReceived d x ack units) s = .next s
      ∧ exec (.continuationTimeout d x k) s = .next s)
    ∧ (s.ports[d].state = .up → Completes (.linkNakReceived d x named) s fun t =>
        (t.ports[d].tx x).resend = later ∧ (t.ports[d].tx x).replay = e.replay ∧ (t.ports[d].tx x).queue = e.queue
        ∧ (t.ports[d].state = if later ≠ [] ∧ (later.head?.map (·.1)) = e.nakOf ∧ 3 ≤ e.nakRun then .training else .up)
        ∧ ∀ c, c ≠ d → t.ports[c] = s.ports[c])
    ∧ (s.ports[d].state = .up → Completes (.creditReceived d x ack units) s fun t =>
        t = { s with ports := t.ports } ∧ (∀ c, c ≠ d → t.ports[c] = s.ports[c])
        ∧ (t.ports[d].tx x).replay = e.replay.filter (fun f => decide (ack < f.1)) ∧ (t.ports[d].tx x).queue = e.queue
        ∧ (t.ports[d].tx x).credits[(0 : Fin 6)] = e.credits[(0 : Fin 6)]
        ∧ ∀ i : Fin 5, (t.ports[d].tx x).credits[i.succ] = e.credits[i.succ] + 8 * units[i])
    ∧ (s.ports[d].state = .up → (s.ports[d].rx .field).waiting = false → s.ports[d].hubTx.resend = [] →
        ∀ m tag need, s.ports[d].fieldRx.opens[kIdx k] = some (.taking m tag need) → m.type = 0x10 ∨ m.type = 0x11 →
        exec (.continuationTimeout d .field k) s = .next
          (((s.setRxEnd d .field { s.ports[d].fieldRx with opens := s.ports[d].fieldRx.opens.set (kIdx k) none }).bump
            (dieAt .fkr d) F.FKR_ERRCNT_REFUSED).raiseDie d 0x0901 none 5 d.val m.type 0)))
  ∧ (∀ (d : Die) (x : Side) (s : State),
    let e := s.ports[d].tx x
    (s.ports[d].state ≠ .up → exec (.flitSlotTransmit d x) s = .next s)
    ∧ (s.ports[d].state = .up → ∀ f rest, e.resend = f :: rest →
        exec (.flitSlotTransmit d x) s = .next (s.setTxEnd d x { e with wire := some f.2, resend := rest }))
    ∧ (s.ports[d].state = .up → e.resend = [] → Completes (.flitSlotTransmit d x) s fun t =>
        t = { s with ports := t.ports, free := t.free } ∧ (∀ c, c ≠ d → t.ports[c] = s.ports[c])
        ∧ (t.ports[d].tx x).number = e.number + 1 ∧ (t.ports[d].tx x).replay.length ≤ 128
        ∧ (∃ f, (t.ports[d].tx x).wire = some f ∧ (t.ports[d].tx x).replay.getLast? = some (e.number, f) ∧ flitGood f = true
            ∧ (∀ m, e.first .k0 = some m → e.may .k0 = true → e.sent[(0 : Fin 6)] = 0 → m.cont = [] → m.type < 256 →
                flitType f = m.type ∧ (t.ports[d].tx x).queue = e.queue.erase m)
            ∧ ((∀ c, e.may c = false) → flitType f = 0 ∧ (t.ports[d].tx x).queue = e.queue))))

/-- PortsAndHeartbeats (R23, R29, R33–R39, R42, R575, R576, R659): a training ends with the lanes that came back, or is tried
once more and then takes the port DOWN; a lost echo takes an UP port DOWN with SAFE set; the hub sees a port go DOWN; a
transmitter that appears powers its die, and its port trains while the hub runs. Second: HEARTBEAT_SEND queues device time on
every UP port and on no other; a powered die takes its time from a HEARTBEAT and answers with the echo of that time and its
safe state; the hub takes the safe state from the echo; 100 µs without a HEARTBEAT set ECHO_LOST and bring the safe state; 1
ms without lane 0 stops the turn engine and the axes. -/
def Obligations.PortsAndHeartbeats : Prop :=
  (∀ (d : Die) (lanes : Nat) (signal : Bool) (s : State),
    let p := s.ports[d]
    (p.state ≠ .training → exec (.portRetrainEnd d lanes) s = .next s)
    ∧ (p.state = .training → p.failed = 0 → exec (.portRetrainEnd d 0) s = .next (s.setPort d { p with failed := 1 }))
    ∧ (p.state = .training → p.failed ≠ 0 → exec (.portRetrainEnd d 0) s = .next (s.portDown d))
    ∧ (p.state = .training → lanesOk d lanes = true → p.lanes ≠ 0 → Completes (.portRetrainEnd d lanes) s fun t =>
        t.ports[d] = { p with state := .up, lanes, failed := 0, echo := s.clock } ∧ (∀ c, c ≠ d → t.ports[c] = s.ports[c])
        ∧ t.dies[d] = { s.dies[d] with clkLost := false, beat := s.clock } ∧ (∀ c, c ≠ d → t.dies[c] = s.dies[c])
        ∧ t.field = s.field)
    ∧ (p.state ≠ .up → exec (.echoLost d) s = .next s)
    ∧ (p.state = .up → exec (.echoLost d) s = .next
        (((s.put (hubAt .krf) F.KRF_STATUS_ECHO_LOST 1 d.val).setPort d { p with safe := true }).portDown d))
    ∧ (exec (.portDown d signal) s = .next ((s.setPort d { p with signal }).portDown d))
    ∧ (p.state = .down ∨ p.state = .absent → exec (.portDown d signal) s = .next (s.setPort d { p with signal }))
    ∧ (s.hasDie d.val = false ∨ d = 0 ∨ p.state ≠ .down ∨ s.dies[d].hot = true → exec (.signalRise d) s = .next s)
    ∧ (s.hasDie d.val = true → d ≠ 0 → p.state = .down → s.dies[d].hot = false →
        let u := (s.setDie d { s.dies[d] with power := true }).setPort d { p with signal := true }
        exec (.signalRise d) s = .next (if s.pwr.boot = .held ∨ s.pwr.boot = .rom then u else u.trainPort d)))
  ∧ (∀ (d : Die) (m : Msg) (s : State),
    (Completes .heartbeatSend s fun t => t = { s with ports := t.ports } ∧ ∀ c : Die,
        (s.ports[c].state ≠ .up → t.ports[c] = s.ports[c])
        ∧ (s.ports[c].state = .up → t.ports[c] = { s.ports[c] with
            beat := s.now, hubTx := { s.ports[c].hubTx with queue := s.ports[c].hubTx.queue ++ [beatMsg s.now] } }))
    ∧ (s.dies[d].power = false → exec (.heartbeat d m) s = .next s ∧ exec (.heartbeatTimeout d) s = .next s
        ∧ exec (.clockHoldoverEnd d) s = .next s)
    ∧ (s.dies[d].power = true → Completes (.heartbeat d m) s fun t =>
        t = { s with ports := t.ports, dies := t.dies } ∧ (∀ c, c ≠ d → t.dies[c] = s.dies[c] ∧ t.ports[c] = s.ports[c])
        ∧ t.dies[d] = { s.dies[d] with time := m.word.toNat, beat := s.clock, resumed := s.dies[d].resumed || s.dies[d].safe }
        ∧ t.ports[d].fieldTx.queue.getLast? = some (echoMsg m.word.toNat s.dies[d].safe))
    ∧ (let u := s.received d .hub m
       exec (.heartbeatEcho d m) s = .next (u.setPort d { u.ports[d] with safe := bitOf m.word.toNat 0, echo := s.clock }).settle)
    ∧ (s.dies[d].power = true →
        let u := (s.put (dieAt .fkr d) F.FKR_STATUS_ECHO_LOST 1).setDie d { s.dies[d] with resumed := false }
        exec (.heartbeatTimeout d) s = .next (if s.dies[d].safe then u else u.enterSafe d))
    ∧ (s.dies[d].power = true → Completes (.clockHoldoverEnd d) s fun t =>
        t = { s with dies := t.dies, trn := t.trn, axp := t.axp, spn := t.spn, ports := t.ports, regs := t.regs }
        ∧ t.trn[d] = { s.trn[d] with clkLost := true } ∧ t.axp[d] = { s.axp[d] with dead := true } ∧ t.dies[d].clkLost = true))

/-- HaltsAndResets (R23, R24, R36, R37, R39, R40, R169, R589, R590, R659): a powered die acts on a HALT and answers HALT_DONE
with its action: SAFE and RESET_DIE enter the safe state, RESET_DIE resets the die as well, STOP_BAY stops the bays of its
mask, and RELEASE ends the safe state of a die that runs its firmware and has heard a heartbeat, and of no other; an
unpowered die does nothing. The hub drops an answered HALT, and repeats one without answer twice before the port counts as
DOWN. Second: a QUEUE_RESET whose number the die has answered gets the same answer again; a new one drops what it names, and
is answered when no log in progress is left among it; a die whose firmware does not run takes none. The hub's cut takes the
counts of QUEUE_RESET_DONE, and the hub repeats a QUEUE_RESET without answer twice. -/
def Obligations.HaltsAndResets : Prop :=
  (∀ (d : Die) (m : Msg) (s : State),
    let u := s.received d .field m
    (s.dies[d].power = false → exec (.haltSafe d m) s = .next s ∧ exec (.haltRelease d m) s = .next s
      ∧ exec (.haltStopBay d m) s = .next s ∧ exec (.haltResetDie d m) s = .next s)
    ∧ (s.dies[d].power = true →
        exec (.haltSafe d m) s = .next ((u.enterSafe d).haltAnswer d .safe)
        ∧ exec (.haltResetDie d m) s = .next (((u.enterSafe d).dieReset d false).haltAnswer d .resetDie))
    ∧ (s.dies[d].power = true → s.dies[d].safe = true →
        exec (.haltSafe d m) s = .next (u.send d .field (haltDoneMsg .safe true)))
    ∧ (s.dies[d].power = true → ∀ k : Fin 4, haltOf m.word = .stopBay k →
        exec (.haltStopBay d m) s = .next ((((baysOfDie d).filter fun b => bitOf k.val (bayInDie b)).foldl
          (fun (t : State) b => (t.bayStops b).endBayItems b .fault) u).haltAnswer d (.stopBay k)))
    ∧ (s.dies[d].power = true → s.dies[d].safe = false ∨ s.dies[d].resumed = false ∨ s.dieRuns d = false →
        exec (.haltRelease d m) s = .next (u.send d .field (haltDoneMsg .release s.dies[d].safe)))
    ∧ (s.dies[d].power = true → s.dies[d].safe = true → s.dies[d].resumed = true → s.dieRuns d = true →
        Completes (.haltRelease d m) s fun t =>
          t.dies[d] = { s.dies[d] with safe := false, boot := .running, mounted := Vector.replicate 2 false }
          ∧ t.trn[d].clkLost = false ∧ t.axp[d].dead = false ∧ t.spn = s.spn ∧ t.osv = s.osv ∧ t.lat = s.lat
          ∧ t.ports[d].fieldTx.queue.getLast? = some (haltDoneMsg .release false))
    ∧ (s.ports[d].halts = [] → exec (.haltResend d) s = .next s)
    ∧ (∀ a rest, s.ports[d].halts = a :: rest → 3 ≤ a.sends → exec (.haltResend d) s = .next (s.portDown d))
    ∧ (∀ a rest, s.ports[d].halts = a :: rest → a.sends < 3 → exec (.haltResend d) s = .next
        ((s.setPort d { s.ports[d] with halts := { a with sends := a.sends + 1 } :: rest }).send d .hub a.msg))
    ∧ (let v := s.received d .hub m
       ((∀ a ∈ v.ports[d].halts, haltOf a.msg.word ≠ haltOf m.word) → exec (.haltDone d m) s = .next v)
       ∧ ∀ a rest, v.ports[d].halts = a :: rest → haltOf a.msg.word = haltOf m.word →
          let x := v.setPort d { v.ports[d] with halts := rest, safe := bitOf m.word.toNat 0 }
          exec (.haltDone d m) s = .next (if haltOf m.word = .resetDie ∧ s.loadsDies = true then x.loadDie d else x.settle)))
  ∧ (∀ (d : Die) (m : Msg) (s : State),
    let u := s.received d .field m
    let seq := bitsOf m.word.toNat 15 0
    (s.dies[d].power = false ∨ s.dieRuns d = false → exec (.queueReset d m) s = .next s)
    ∧ (s.dies[d].power = true → s.dieRuns d = true → ∀ n w, s.dies[d].answers.reverse.find? (·.1 = seq) = some (n, w) →
        exec (.queueReset d m) s = .next (u.send d .field { type := 0x06, word := w, cls := .k0 }))
    ∧ (s.dies[d].power = true → s.dieRuns d = true → s.dies[d].answers.reverse.find? (·.1 = seq) = none →
        s.dies[d].waitingResets = [] → s.dies[d].items = [] → Completes (.queueReset d m) s fun t =>
          t = { s with dies := t.dies, ports := t.ports } ∧ t.dies[d].waitingResets = []
          ∧ (t.dies[d].answers.getLast? = some (seq, (queueResetDoneMsg seq 0 0).word))
          ∧ t.ports[d].fieldTx.queue.getLast? = some (queueResetDoneMsg seq 0 0))
    ∧ (exec (.queueResetDone d m) s = .next
        ((s.received d .hub m).resetAnswered d (bitsOf m.word.toNat 63 48) (bitsOf m.word.toNat 31 16)).settle)
    ∧ (s.ports[d].resets = [] → exec (.queueResetResend d) s = .next s)
    ∧ (∀ a rest, s.ports[d].resets = a :: rest → 3 ≤ a.sends → exec (.queueResetResend d) s = .next (s.portDown d))
    ∧ (∀ a rest, s.ports[d].resets = a :: rest → a.sends < 3 → exec (.queueResetResend d) s = .next
        ((s.setPort d { s.ports[d] with resets := { a with sends := a.sends + 1 } :: rest }).send d .hub a.msg)))

/-- MessageWords (R3, R23, R31, R32, R284, R482, R589, R594): a powered die answers REG_READ with the register's value and
REG_WRITE with how it took the write; a chunk of firmware that comes next in its part is stored, any other sets SEQ_ERR
alone; the hub takes a REG_DATA for the command that waits for it, and an EVENT into the events page, or relays CEIL's value.
Second: a write of TXCTL without PUSH keeps TYPE alone; PUSH queues the TXDATA word where the queue and the type allow it,
and sets REFUSED where not; POP drops the oldest received word, and OVERFLOW clears by 1. -/
def Obligations.MessageWords : Prop :=
  (∀ (d : Die) (m : Msg) (s : State),
    let u := s.received d .field m
    let v := s.received d .hub m
    let w := m.word.toNat
    let mine := s.dies[d].chunks.filter fun e => e.1 == bitsOf w 63 56
    (s.dies[d].power = false → exec (.regRead d m) s = .next s ∧ exec (.regWrite d m) s = .next s ∧ exec (.fwLoad d m) s = .next s)
    ∧ (s.dies[d].power = true →
        exec (.regRead d m) s = .next (u.send d .field
          (regDataMsg (bitsOf w 46 31) 0 (u.fieldRead d (b2n (bitOf w 47)) (bitsOf w 63 48))))
        ∧ let r := u.fieldWrite d (b2n (bitOf w 47)) (bitsOf w 63 48) (((m.cont.headD 0).toNat : Nat) : BitVec 32)
          exec (.regWrite d m) s = .next (r.1.send d .field (regDataMsg (bitsOf w 46 31) r.2.code 0)))
    ∧ (s.dies[d].power = true → partOf d (bitsOf w 63 56) = true → s.dieRuns d = false →
        (bitsOf w 55 40 = mine.length → mine.any (fun e => e.2.2.1) = false →
          exec (.fwLoad d m) s = .next (u.setDie d { s.dies[d] with
            chunks := s.dies[d].chunks ++ [(bitsOf w 63 56, bitsOf w 55 40, bitOf w 39, m.cont)]
            crc := crc32cUpdate s.dies[d].crc (m.cont.flatMap fun c => leBytes 8 c.toNat)
            boot := .loading }))
        ∧ (bitsOf w 55 40 ≠ mine.length → exec (.fwLoad d m) s = .next (u.setDie d { s.dies[d] with seqErr := true })))
    ∧ (∀ c next n, bitsOf w 63 48 ≠ 0xFFFF → (c.wait = .regs next n) →
        (v.qen.cmds.find? fun (c : Cmd) => c.regsOn d && c.regReq == bitsOf w 63 48) = some c →
        exec (.regData d m) s = .next (v.regAnswer c next (bitsOf w 47 40) ((m.cont.headD 0).toNat % 2 ^ 32)).settle)
    ∧ (bitsOf w 63 48 = 0xFFFF → exec (.regData d m) s = .next (v.loadEnded d ((m.cont.headD 0).toNat % 2 ^ 32)).settle)
    ∧ (bitsOf w 63 48 ≠ 0x05F0 → exec (.event d m) s = .next (v.logEvent (eventEntry d m)))
    ∧ (bitsOf w 63 48 = 0x05F0 → exec (.event d m) s = .next
        (if s.code.changer then v.relayFrac (eventEntry d m).v1 else v)))
  ∧ (∀ (d : Die) (w : Word) (s : State),
    let a := hubAt .krf
    let data := hiLo (s.get a F.KRF_TXDATA_LO_WORD d.val) (s.get a F.KRF_TXDATA_HI_WORD d.val)
    let u := s.put a F.KRF_TXCTL_TYPE (F.KRF_TXCTL_TYPE.of w) d.val
    (F.KRF_TXCTL_REFUSED.of w = 0 → F.KRF_TXCTL_PUSH.of w = 0 → exec (.txctlPush d w) s = .next u)
    ∧ (F.KRF_TXCTL_REFUSED.of w = 0 → F.KRF_TXCTL_PUSH.of w = 1 →
        (∀ p, s.ports[d].push (F.KRF_TXCTL_TYPE.of w) (BitVec.ofNat 64 data) = some p →
          exec (.txctlPush d w) s = .next (u.setPort d p))
        ∧ (s.ports[d].push (F.KRF_TXCTL_TYPE.of w) (BitVec.ofNat 64 data) = none →
          exec (.txctlPush d w) s = .next (u.put a F.KRF_TXCTL_REFUSED 1 d.val)))
    ∧ (s.ports[d].txFree = 0 → ∀ type x, s.ports[d].push type x = none)
    ∧ (0 < s.ports[d].txFree → s.ports[d].owed = none → ∀ x : Word64, s.ports[d].push 0x10 x = some { s.ports[d] with
        hubTx := { s.ports[d].hubTx with queue := s.ports[d].hubTx.queue ++ [{ type := 0x10, word := x, cls := .k1 }] } })
    ∧ (F.KRF_RXCTL_OVERFLOW.of w = 0 → exec (.rxctlPop d w) s = .next
        (if F.KRF_RXCTL_POP.of w = 1 then s.setPort d { s.ports[d] with swRx := s.ports[d].swRx.drop 1 } else s))
    ∧ (F.KRF_RXCTL_OVERFLOW.of w = 1 → F.KRF_RXCTL_POP.of w = 0 →
        exec (.rxctlPop d w) s = .next (s.put a F.KRF_RXCTL_OVERFLOW 0 d.val)))

/-- WorkTaken (R24–R26, R28, R37, R142, R165, R204, R212, R313, R318, R324): a WORK item outside the kinds of its die, with a
wrong length or a field out of range, or while the die is in its safe state, is answered REFUSED; any other is open, with its
effect on the bay: a log to read or to verify, a log to record once its boards are there, a manoeuvre, a mount, an unmount
after the bay's earlier items, a calibration, or a transfer of the yarder. A board of an open RECORD item is kept with it. -/
def Obligations.WorkTaken : Prop :=
  ∀ (d : Die) (m : Msg) (s : State),
    let h := workHead m.word
    let c := msgFirst m
    let u := s.received d .field m
    let can (k : WorkKind) : Prop := s.dies[d].power = true ∧ s.dieRuns d = true ∧ h.kind = k.code ∧ (d = 1 ↔ k = .transfer)
    let good (k : WorkKind) : Prop := can k ∧ h.len = k.len ∧ m.cont.length = k.len ∧ k.inRange c = true ∧ s.dies[d].safe = false
    let open0 (k : WorkKind) : State := u.setDie d { s.dies[d] with items := s.dies[d].items ++
      [{ kind := k, item := h.item, cls := h.cls, bay := h.bay, func := h.func, qid := h.qid, cont := c }] }
    let opened (b : Bay) (k : WorkKind) : State := (open0 k).class0Work b h.cls
    (s.dies[d].power = false ∨ s.dieRuns d = false → exec (.workRead d m) s = .next s ∧ exec (.workRecord d m) s = .next s
      ∧ exec (.workSeek d m) s = .next s ∧ exec (.workMount d m) s = .next s ∧ exec (.workUnmount d m) s = .next s
      ∧ exec (.workTransfer d m) s = .next s ∧ exec (.workCruise d m) s = .next s ∧ exec (.workVerify d m) s = .next s
      ∧ exec (.recordData d m) s = .next s)
    ∧ (can .read → s.dies[d].safe = true → exec (.workRead d m) s = .next (u.workRefused d h))
    ∧ (can .transfer → s.dies[d].safe = true → exec (.workTransfer d m) s = .next (u.workRefused d h))
    ∧ (∀ b, bayOf d h.bay = some b →
        (good .read → exec (.workRead d m) s = .next
          (((opened b .read).askLog b (logOfWork m h false)).layerTrigger b (bitsOf c 31 28)))
        ∧ (good .verify → exec (.workVerify d m) s = .next
          (((opened b .verify).askLog b (logOfWork m h true)).layerTrigger b (bitsOf c 31 28)))
        ∧ (good .record → s.has (recA b) F.REC_CTL_ENABLE = true → exec (.workRecord d m) s = .next
          (((opened b .record).setRec b { s.recp[b] with items := s.recp[b].items ++
            [{ item := h.item, cls := h.cls, layer := bitsOf c 31 28, area := bitsOf c 27 26, log := bitsOf c 63 32
               mask := bitsOf c 25 10 }] }).layerTrigger b (bitsOf c 31 28)))
        ∧ (good .record → s.has (recA b) F.REC_CTL_ENABLE = false →
          exec (.workRecord d m) s = .next ((opened b .record).endItem (dieOfBay b) h.item .refused))
        ∧ (good .seek → exec (.workSeek d m) s = .next (((opened b .seek).layerTrigger b (bitsOf c 31 28)).moveRequest b
            { move := .seek (bitsOf c 31 28) (bitsOf c 27 26) (bitsOf c 25 0), owner := .item h.item }))
        ∧ (good .mount → exec (.workMount d m) s = .next ((opened b .mount).mountWork b h.item))
        ∧ (good .unmount → exec (.workUnmount d m) s = .next ((opened b .unmount).unmountTake b))
        ∧ (good .cruise →
          let v := opened b .cruise
          let x := v.cru[b]
          exec (.workCruise d m) s = .next ((v.setCru b { x with items := x.items ++ [h.item] }).cruRaise b .now)))
    ∧ (good .transfer → h.bay = 0 → vmechLow s = false → exec (.workTransfer d m) s = .next
        (((open0 .transfer).setYrd { s.yrd with waiting := s.yrd.waiting ++
          [{ src := bitsOf c 63 51, dst := bitsOf c 50 38, item := some h.item }] }).yrdNext))
    ∧ (s.dies[d].power = true → s.dieRuns d = true → ∀ b r, bayOf d (bitsOf m.word.toNat 11 11) = some b →
        s.recp[b].items.find? (·.item = bitsOf m.word.toNat 31 16) = some r → bitOf r.mask (bitsOf m.word.toNat 15 12) = true →
        (∀ x ∈ r.boards, x.1 ≠ bitsOf m.word.toNat 15 12) →
        let new := (bitsOf m.word.toNat 15 12, m.cont.flatMap fun c => leBytes 8 c.toNat)
        exec (.recordData d m) s = .next (u.setRec b { s.recp[b] with
          items := s.recp[b].items.map fun x =>
            if x.item = bitsOf m.word.toNat 31 16 then { x with boards := x.boards ++ [new] } else x }))

/-- WorkAnswers (R25, R28, R40, R68, R143–R146, R353, R465): the hub takes the end of an item once, and turns its status into
the command's; words of an item that it no longer knows, or that a QUEUE_RESET names, change nothing but the inbox; a board
goes into the entry of its miss register; a failed log, or one whose boards are all held, ends its fill, and any other is
filled again; words of the system zone go to the disc that is being read. -/
def Obligations.WorkAnswers : Prop :=
  ∀ (d : Die) (m : Msg) (s : State),
    let v := s.received d .hub m
    let w := m.word.toNat
    (v.hubItem d (bitsOf w 55 40) = none → exec (.workDone d m) s = .next v.settle)
    ∧ (∀ x, v.hubItem d (bitsOf w 55 40) = some x → x.kind = bitsOf w 63 56 → v.underReset x = false →
        let n := v.closeItem d (bitsOf w 55 40)
        (∀ st, WStatus.ofCode (bitsOf w 39 32) = some st → st ≠ .dropped →
          exec (.workDone d m) s = .next (n.itemEnded x st.command).settle)
        ∧ (WStatus.ofCode (bitsOf w 39 32) = some .dropped → exec (.workDone d m) s = .next (n.itemDropped x).settle)
        ∧ (WStatus.ofCode (bitsOf w 39 32) = none → exec (.workDone d m) s = .next (n.itemEnded x stFault).settle))
    ∧ (∀ x, v.hubItem d (bitsOf w 55 40) = some x → x.kind = bitsOf w 63 56 → v.underReset x = true → x.kind ≠ 2 → x.kind ≠ 6 →
        exec (.workDone d m) s = .next v.settle)
    ∧ (v.fillOf d m.word = none → exec (.boardData d m) s = .next v)
    ∧ (∀ x, v.fillOf d m.word = some x → exec (.boardData d m) s = .next (if v.fillDropped x = true then v else
        v.fillBoard x.id (bitsOf w 63 32 % 16) ((m.cont.take 512).flatMap fun w => leBytes 8 w.toNat)))
    ∧ exec (.boardErased d m) s = .next v
    ∧ (bitOf w 20 = true → exec (.logDone d m) s = .next v)
    ∧ (∀ x, v.fillOf d m.word = some x → v.fillDropped x = false →
        (bitsOf w 19 18 ≠ 2 → v.boardsHeld x = 0xFFFF →
          exec (.logDone d m) s = .next (v.fillOver x .good false (decide (1 < bitsOf w 17 13))).settle)
        ∧ (bitsOf w 19 18 ≠ 2 → v.boardsHeld x ≠ 0xFFFF → exec (.logDone d m) s = .next (v.refill x).settle)
        ∧ (bitsOf w 19 18 = 2 → x.begun = true →
          exec (.logDone d m) s = .next (v.fillOver ((v.miss x.id).getD x) .failed false (decide (1 < bitsOf w 17 13))).settle))
    ∧ (bitOf w 20 = false → exec (.systemBoardReceive d m) s = .next v)
    ∧ (bitOf w 20 = true → ∀ b, bayOf d (bitsOf w 21 21) = some b → Completes (.systemBoardReceive d m) s fun t =>
        t = { s with ports := t.ports, crew := t.crew } ∧ ∀ x, s.crew.bays[b].disc = some x →
          (∀ e ∈ x.sys, e.log ≠ bitsOf w 63 32 / 32) →
            t.crew.bays[b].disc = some { x with sys := x.sys ++
              [({ log := bitsOf w 63 32 / 32, boards := [] } : SysLog).take m] })

/-- LogPlaces (R63): the 21 boards of a log stand in its three slots of the seven spirals, each spiral carrying exactly
three; the place of a board names it, and the address board moves to another spiral from one log to the next. -/
def Obligations.LogPlaces : Prop :=
  ∀ n i k j : Nat, i < 21 → k < 7 → j < 3 →
    spiralOf n i < 7 ∧ 3 * n ≤ slotOf n i ∧ slotOf n i ≤ 3 * n + 2
    ∧ spiralOf n i = (i + n) % 7 ∧ slotOf n i = 3 * n + i / 7
    ∧ indexAt (spiralOf n i) (slotOf n i) = i
    ∧ indexAt k (3 * n + j) < 21 ∧ spiralOf n (indexAt k (3 * n + j)) = k ∧ slotOf n (indexAt k (3 * n + j)) = 3 * n + j
    ∧ spiralOf (n + 1) 20 ≠ spiralOf n 20

/-- LbaPlaces (R65): layer, log and INDEX of an LBA are its own, and lead back to it. -/
def Obligations.LbaPlaces : Prop :=
  (∀ a, a < lbaEnd → lbaOfPlace (placeOfLba a) = a ∧ (placeOfLba a).layer < 16 ∧ (placeOfLba a).log < logsPerLayer
    ∧ (placeOfLba a).index < 16)
  ∧ ∀ p : Place, p.layer < 16 → p.log < logsPerLayer → p.index < 16 → lbaOfPlace p < lbaEnd ∧ placeOfLba (lbaOfPlace p) = p

/-- ModulationReads (R51–R53): whatever the running digital sum before them, nibbles recorded as channel words read back as
they were; the words hold no nine 0s in a row, so that no run is longer than nine channel bits; and the sum after them is the
sum of the levels recorded. -/
def Obligations.ModulationReads : Prop :=
  ∀ (r : Rds) (ns : List Nat), (∀ n ∈ ns, n < 16) →
    let e := encodeNibbles r ns
    e.1.length = 5 * ns.length
    ∧ (∀ i, i < ns.length → nibbleOfWord (ofMsb ((e.1.drop (5 * i)).take 5)) = ns[i]?)
    ∧ (∀ i, ¬(List.replicate 9 false).IsPrefix (e.1.drop i))
    ∧ e.2 = r.bits e.1

/-- FrontEnd (R81–R85, R90, R98, R103): a block boundary leaves a disabled spot alone; an enabled spot whose freeze was
active keeps gain, offset and asymmetry, unless a manual value waits for it, and any other takes those its loops give from
the block's own statistics; the blocks of an acquisition run down; and nothing outside the bay's front end, its registers,
and the event of a clipped block changes. Second: eight good thermistor readings give SFE_TEMP, and one that is out of range,
open or late is replaced by the die's temperature; an acquisition ends when its blocks have run; a SPOT_LOOP write waits for
the block boundary in manual mode and is ignored outside it; an AFE write is ignored while a spot is powered, and for RANGE
0b11. -/
def Obligations.FrontEnd : Prop :=
  (∀ (b : Bay) (raw : Vector (List Int) 7) (s : State), s.isWaiting (.sfeLoop b) = false → s.isWaiting (.sfeSnag b) = false →
    s.isWaiting (.sfeForecast b) = false → clippedBlock s b raw = false →
    Completes (.sfeBlockBoundary b raw) s fun t =>
      t = { s with regs := t.regs, sfe := t.sfe } ∧ (∀ c, c ≠ b → t.sfe[c] = s.sfe[c])
      ∧ t.sfe[b].acqLeft = (if s.sfe[b].acq then s.sfe[b].acqLeft - 1 else s.sfe[b].acqLeft)
      ∧ t.sfe[b].acq = s.sfe[b].acq ∧ t.sfe[b].velOk = s.sfe[b].velOk
      ∧ ∀ k : Fin 7,
          let x := s.sfe[b].spots[k]
          let y := t.sfe[b].spots[k]
          y.snag = x.snag ∧ y.windows = x.windows
          ∧ (spotOn s b k = false → y = x)
          ∧ (spotOn s b k = true → x.froze = true ∨ sfeFrozen s b k = true → x.manual = none →
              y.g = x.g ∧ y.o = x.o ∧ y.b = x.b)
          ∧ (spotOn s b k = true → bitOf (s.get (sfeA b) F.SFE_CTL_MANUAL) k = true → ∀ w, x.manual = some w →
              y.g = gainOfCode (F.SFE_SPOTn_LOOP_PGA.of w) ∧ y.o = toSigned 8 (F.SFE_SPOTn_LOOP_OFS.of w) * 16384
              ∧ y.b = toSigned 8 (F.SFE_SPOTn_LOOP_ASYM.of w) * 8192 ∧ y.manual = none)
          ∧ (spotOn s b k = true → x.froze = false → sfeFrozen s b k = false →
              let hist := ((raw[k].map (trimmed (toSigned 8 (trimVal s b k F.SFE_TRIMn_ADC_GAIN k))
                (toSigned 8 (trimVal s b k F.SFE_TRIMn_ADC_OFS k)))).reverse ++ x.hist).take 600
              let st := blockStats hist raw[k].length (bitsToSamples (sfeT s b) 24) x.b
              let z := loopUpdate s b x st.1 st.2.1 st.2.2
              y.g = z.g ∧ y.o = z.o ∧ y.b = z.b))
  ∧ (∀ (b : Bay) (k : Fin 7) (ohm : Nat) (w : Word) (s : State),
    let a := sfeA b
    let x := s.sfe[b]
    let c := thermistor ohm
    let ts := x.temps ++ [c]
    exec (.thermistorReading b (some ohm)) s = .next
        (if c < -20 ∨ 110 < c then s.tempReplace b
         else if ts.length < 8 then s.setSfe b { x with temps := ts }
         else ((s.setSfe b { x with temps := [] }).put a F.SFE_TEMP_TEMP (ofSigned 12 (roundOpen (16 * ts.sum / 8)))).put a
          F.SFE_TEMP_REPLACED 0)
    ∧ exec (.sfeTempReplaced b) s = .next (s.tempReplace b)
    ∧ (∀ i, i = Instr.sfeTempReplaced b ∨ i = .thermistorReading b none →
        Completes i s fun t =>
          t = { s with regs := t.regs, sfe := t.sfe, ports := t.ports } ∧ t.sfe[b].temps = []
          ∧ t.get a F.SFE_TEMP_TEMP = ofSigned 12 s.dies[dieOfBay b].temp ∧ t.get a F.SFE_TEMP_REPLACED = 1
          ∧ t.get a F.SFE_EVCNT_TEMP_REPL = min (s.get a F.SFE_EVCNT_TEMP_REPL + 1) 255
          ∧ (x.tempSec = some (s.clock / 1000000000) → t.ports = s.ports))
    ∧ (x.acq = true → x.acqLeft = 0 → exec (.acquisitionEnd b) s = .next (s.setSfe b { x with acq := false }))
    ∧ (x.acq = false ∨ x.acqLeft ≠ 0 → exec (.acquisitionEnd b) s = .next s)
    ∧ exec (.sfeSpotLoopWrite b k w) s = .next
        (if bitOf (s.get a F.SFE_CTL_MANUAL) k then s.setSpot b k { x.spots[k] with manual := some w } else s)
    ∧ exec (.sfeAfeWrite b w) s = .next
        (if s.get a F.SFE_CTL_SPOT_EN ≠ 0 ∨ F.SFE_AFE_RANGE.of w = 3 then s
         else ((s.put a F.SFE_AFE_TERM (F.SFE_AFE_TERM.of w)).put a F.SFE_AFE_LPF (F.SFE_AFE_LPF.of w)).put a F.SFE_AFE_RANGE
           (F.SFE_AFE_RANGE.of w)))

/-- SnagsAndForecasts (R83, R86–R89, R92–R96): a spot's flag sets only on an enabled spot outside a hold and an acquisition
whose detector held for its persistence, and freezes the spot; it clears only after both conditions of R88; a long snag is
counted and reported once. Second: a scheduled window opens and freezes its spot without setting its flag; an open window
with a closing ends, and no window without one does; a lost velocity suspends forecasts once, is counted and reported. -/
def Obligations.SnagsAndForecasts : Prop :=
  (∀ (b : Bay) (k : Fin 7) (e lw : List Rat) (s : State),
    let x := s.sfe[b].spots[k]
    (spotOn s b k = false ∨ x.snag = true ∨ s.sfe[b].holdSeek = true ∨ s.sfe[b].acq = true ∨ snagDetected s b k e lw = false →
        exec (.snagSet b k e lw) s = .next s)
    ∧ (spotOn s b k = true → x.snag = false → s.sfe[b].holdSeek = false → s.sfe[b].acq = false →
        snagDetected s b k e lw = true → Completes (.snagSet b k e lw) s fun t =>
          t = { s with regs := t.regs, sfe := t.sfe, osv := t.osv } ∧ (∀ c, c ≠ b → t.sfe[c] = s.sfe[c] ∧ t.osv[c] = s.osv[c])
          ∧ t.sfe[b].spots[k].snag = true ∧ sfeFrozen t b k = true
          ∧ t.get (sfeA b) F.SFE_CNTn_OWN k = min (s.get (sfeA b) F.SFE_CNTn_OWN k + 1) 0xFFFF
          ∧ (∀ j, j ≠ k → t.sfe[b].spots[j].snag = s.sfe[b].spots[j].snag))
    ∧ (x.snag = false ∨ snagOver s b k e lw = false → exec (.snagClear b k e lw) s = .next s)
    ∧ (x.snag = true → snagOver s b k e lw = true → Completes (.snagClear b k e lw) s fun t =>
        t = { s with sfe := t.sfe } ∧ (∀ c, c ≠ b → t.sfe[c] = s.sfe[c]) ∧ t.sfe[b].spots[k].snag = false
        ∧ t.sfe[b].spots[k].windows = x.windows
        ∧ ∀ j, j ≠ k → t.sfe[b].spots[j].snag = s.sfe[b].spots[j].snag)
    ∧ (x.snag = false ∨ x.longRep = true → exec (.longSnag b k) s = .next s)
    ∧ (x.snag = true → x.longRep = false → Completes (.longSnag b k) s fun t =>
        t = { s with regs := t.regs, sfe := t.sfe, osv := t.osv, ports := t.ports }
        ∧ t.sfe[b].spots[k] = { x with longRep := true }
        ∧ t.get (sfeA b) F.SFE_EVCNT_LONG_SNAGS = min (s.get (sfeA b) F.SFE_EVCNT_LONG_SNAGS + 1) 255
        ∧ t.osv[b].longSnag = (s.osv[b].longSnag || decide (k = 3))
        ∧ t.ports[dieOfBay b].fieldTx.queue = s.ports[dieOfBay b].fieldTx.queue ++
            [eventMsg (s.dieTime (dieOfBay b)) 0x0101 (some (bayInDie b)) 0 k 0 0]))
  ∧ (∀ (b : Bay) (k : Fin 7) (w : FcWindow) (s : State),
    let x := s.sfe[b].spots[k]
    ((∀ v ∈ x.windows, v.isOpen = true) → exec (.forecastWindowOpen b k) s = .next s)
    ∧ (x.windows = [w] → w.isOpen = false → Completes (.forecastWindowOpen b k) s fun t =>
        t = { s with sfe := t.sfe, osv := t.osv } ∧ (∀ c, c ≠ b → t.sfe[c] = s.sfe[c] ∧ t.osv[c] = s.osv[c])
        ∧ t.sfe[b].spots[k] = { x with froze := true, windows := [{ w with isOpen := true }] }
        ∧ ∀ j, j ≠ k → t.sfe[b].spots[j] = s.sfe[b].spots[j])
    ∧ ((∀ v ∈ x.windows, v.isOpen = false ∨ v.closesAt = none) → exec (.forecastWindowClose b k) s = .next s)
    ∧ (∀ c, x.windows = [w] → w.isOpen = true → w.closesAt = some c →
        exec (.forecastWindowClose b k) s = .next (s.setSpot b k { x with windows := [] }))
    ∧ (s.sfe[b].velOk = false → exec (.sfeVelReplaced b) s = .next s)
    ∧ (s.sfe[b].velOk = true → exec (.sfeVelReplaced b) s = .next
        (((s.setSfe b { s.sfe[b] with velOk := false, velLast := s.get (sfeA b) F.SFE_VEL_VEL }).bump (sfeA b)
          F.SFE_EVCNT_VEL_REPL).raiseBay b 0x0103 0 0xFFFF 0)))

/-- Synchronisation (R118, R119, R126–R130, R132): what one frame makes of a spot's sync state. Second: SYNC_FRAME takes the
frame's bits, and then the step of the sync state, or SEARCH on a timing loss, counted in REACQ; SLOT_BLANK erases a board as
BLANK on a spot in SEARCH with a low envelope, and on no other. -/
def Obligations.Synchronisation : Prop :=
  (∀ (p : LatSpot) (tol win : Nat) (inSpan : Bool) (o : FrameObs),
    let r := syncFrame p tol win inSpan o
    let q := r.1
    let next := nextAddr p.addr
    let good (c : BlazeCand) : Prop := addressPasses c.addr c.check = true
    let missed := if 3 ≤ p.misses + 1 then SyncState.search else .flywheel
    (p.sync = .search → (∀ c ∈ o.cands, c.dist ≤ tol → ¬ good c) ∨ inSpan = false → q = p ∧ r.2 = (false, false, false, false))
    ∧ (p.sync = .search → inSpan = true → (∃ c ∈ o.cands, c.dist ≤ tol ∧ good c) →
        q.sync = .verify ∧ q.misses = 0 ∧ ∃ c ∈ o.cands, c.dist ≤ tol ∧ good c ∧ q.addr = c.addr
          ∧ q.frames = { addr := c.addr, use := .used } :: p.frames)
    ∧ (∀ c, p.sync = .verify → bestCand tol (some 1) o.cands = some c → good c → c.addr = next →
        q.sync = .locked ∧ q.addr = next ∧ q.frames = { addr := next, use := .used } :: p.frames)
    ∧ (p.sync = .verify → (∀ c, bestCand tol (some 1) o.cands = some c → ¬ good c ∨ c.addr ≠ next) →
        q.sync = .search ∧ q.frames = { addr := next, use := .zero } :: p.frames)
    ∧ (p.sync = .locked ∨ p.sync = .flywheel →
        q.addr = next ∧ (q.sync = .locked → q.misses = 0) ∧ (q.sync ≠ .locked → q.sync = missed ∧ r.2.1 = true)
        ∧ (bestCand tol (some win) o.cands = none → q.sync = missed ∧ q.marked = p.marked
            ∧ q.frames = { addr := next, use := .fly } :: p.frames ∧ r.2.2.1 = false)
        ∧ ∀ c, bestCand tol (some win) o.cands = some c →
          (c.off.natAbs ≤ 1 → ¬ good c ∨ c.addr = next →
            q.sync = .locked ∧ q.marked = p.marked ∧ q.frames = { addr := next, use := .used } :: p.frames)
          ∧ (c.off.natAbs ≤ 1 → good c → c.addr ≠ next →
            q.sync = missed ∧ q.marked = p.marked ++ [(addrSlot next, .misplaced)])
          ∧ (1 < c.off.natAbs → r.2.2.1 = true
            ∧ (good c → c.addr = next → q.sync = .locked ∧ q.marked = p.marked
                ∧ ∀ f ∈ q.frames.drop 1, f.addr = p.addr → f.use = .zero)
            ∧ (¬(good c ∧ c.addr = next) → addressPasses o.addrP o.checkP = true → o.addrP = next →
                q.sync = .locked ∧ q.frames = { addr := next, use := .used } :: p.frames)
            ∧ (¬(good c ∧ c.addr = next) → ¬(addressPasses o.addrP o.checkP = true ∧ o.addrP = next) →
                q.sync = missed ∧ q.marked = p.marked ++ [(addrSlot next, .syncLost)] ∧ r.2.2.2.1 = true))))
  ∧ (∀ (b : Bay) (k : Fin 7) (o : FrameObs) (area slot : Nat) (s : State),
    let r := o.bits.foldl (fun (r : State × Bool) bit => ((r.1.latBit b k bit).1, r.2 || (r.1.latBit b k bit).2)) (s, false)
    let p := r.1.lat[b].spots[k]
    let z := syncFrame p (chVal r.1 b k F.LAT_CHCFG_BLZ_TOL) (chVal r.1 b k F.LAT_CHCFG_BLZ_WIN) (periodInSpan (sfeT r.1 b)) o
    (r.2 = true → exec (.syncFrame b k o) s = .next
        ((r.1.bump (latA b) F.LAT_SPOTk_SYNCCNT_REACQ k).setLatSpot b k { p with sync := .search, misses := 0 }))
    ∧ (r.2 = false → Completes (.syncFrame b k o) s fun t =>
        t = { s with regs := t.regs, lat := t.lat, osv := t.osv } ∧ (∀ c, c ≠ b → t.lat[c] = s.lat[c])
        ∧ t.lat[b].spots[k] = z.1 ∧ (∀ j, j ≠ k → t.lat[b].spots[j] = s.lat[b].spots[j])
        ∧ (z.2.1 = true → t.get (latA b) F.LAT_SPOTk_SYNCCNT_MISSES k =
            min (s.get (latA b) F.LAT_SPOTk_SYNCCNT_MISSES k + 1) 255))
    ∧ (s.lat[b].spots[k].sync ≠ .search → exec (.slotBlank b k area slot) s = .next s)
    ∧ (s.lat[b].spots[k].sync = .search →
        s.sfe[b].spots[k].env < (s.get (sfeA b) F.SFE_SNAGCFG_DROP_TH : Rat) / 256 * s.get (sfeA b) F.SFE_LOOPCFG_A_REF →
        exec (.slotBlank b k area slot) s = .next (s.boardDecided b k s.osv[b].layer area slot (.erased .blank))))

/-- SlicesAndCodewords (R131, R133–R137, R139–R141, R148, R150): a slice ends after at most 4,096 bits and at the end of its
slot, where the next slot begins; the slices of a disabled or borrowed spot are not detected; the detector works on one
slice, and keeps its soft values with their weights and its path metrics for the next. Second: a finished slot's values go to
the LDPC queue of 32 once the frame after the slot is decided, or its board is erased; a word counts as decoded only when it
satisfies every parity check within the iteration limit, its CRC passes and its header stands in its place; without a log to
read again no jump is asked for; the quality registers latch when the window is full, with one sequence number in both
copies. -/
def Obligations.SlicesAndCodewords : Prop :=
  (∀ (b : Bay) (k : Fin 7) (len : Nat) (d : Die) (r : SliceResult) (s : State),
    let p := s.lat[b].spots[k]
    let n := min (min len 4096) (slotBits - p.start)
    let ends := slotBits ≤ p.start + n
    (Completes (.sliceClose b k len) s fun t =>
      t.lat[b].spots[k].start = (if ends then 0 else p.start + n) ∧ t.lat[b].spots[k].slot = (if ends then p.slot + 1 else p.slot)
      ∧ t.lat[b].spots[k].soft = p.soft ∧ (∀ c, c ≠ b → t.lat[c] = s.lat[c]) ∧ t.ports = s.ports ∧ t.dies = s.dies
      ∧ (detOn s b k = false ∨ spotBorrowed s b k = true → t.latDie = s.latDie))
    ∧ (s.latDie[d].current = none → exec (.sliceDetected d r) s = .next s)
    ∧ (∀ sl, s.latDie[d].current = some sl → Completes (.sliceDetected d r) s fun t =>
        let q := s.lat[sl.bay].spots[sl.spot]
        let soft := r.soft.take sl.len
        let vals := (softBits q.lastSoft (soft.map (·.val))).zip (soft.map (flagWeight s sl.bay sl.spot))
        t = { s with lat := t.lat, latDie := t.latDie } ∧ (∀ c, c ≠ d → t.latDie[c] = s.latDie[c])
        ∧ t.lat[sl.bay].spots[sl.spot] = { q with
            soft := q.soft ++ [{ slot := sl.slot, start := sl.start, vals }]
            lastSoft := (soft.getLast?.map (·.val)).getD q.lastSoft, metrics := r.metrics }
        ∧ (s.latDie[d].slices = [] → t.latDie[d].current = none ∧ t.latDie[d].slices = [])
        ∧ (∀ x, s.latDie[d].slices.find? (·.cls = 0) = some x → s.has (latDieA d) F.LAT_CTL_ENABLE = true →
            t.latDie[d].current = some x ∧ t.latDie[d].slices = s.latDie[d].slices.erase x)))
  ∧ (∀ (b : Bay) (k : Fin 7) (slot : Nat) (d : Die) (r : LdpcResult) (s : State),
    let p := s.lat[b].spots[k]
    (s.slotPlace b k slot = none ∨ s.has (latDieA (dieOfBay b)) F.LAT_CTL_ENABLE = false →
        exec (.codewordHandover b k slot) s = .next s)
    ∧ (∀ layer area, s.slotPlace b k slot = some (layer, area) → s.has (latDieA (dieOfBay b)) F.LAT_CTL_ENABLE = true →
        let u := s.setLatSpot b k { p with
          frames := p.frames.filter fun q => addrSlot q.addr ≠ slot, soft := p.soft.filter (·.slot ≠ slot)
          marked := p.marked.filter (·.1 ≠ slot), dropped := p.dropped.filter (·.1 ≠ slot) }
        let lost := ((p.dropped.filter (·.1 = slot)).map (·.2)).dedup.length
        let x := s.latDie[dieOfBay b]
        (detOn s b k = false ∨ spotBorrowed s b k = true →
          exec (.codewordHandover b k slot) s = .next (u.boardDecided b k layer area slot (.erased .borrowed)))
        ∧ (detOn s b k = true → spotBorrowed s b k = false → 8 < lost →
          exec (.codewordHandover b k slot) s = .next (u.boardDecided b k layer area slot (.erased .overload)))
        ∧ (detOn s b k = true → spotBorrowed s b k = false → lost ≤ 8 → x.ldpc.length < 32 →
          exec (.codewordHandover b k slot) s = .next (u.setLatDie (dieOfBay b) { x with ldpc := x.ldpc ++
            [{ bay := b, spot := k, layer, area, slot, llr := codewordLlr p slot (chVal s b k F.LAT_WEIGHT_FLY_W)
               mark := (p.marked.find? (·.1 = slot)).map (·.2) }] }))
        ∧ (detOn s b k = true → spotBorrowed s b k = false → lost ≤ 8 → 32 ≤ x.ldpc.length →
          exec (.codewordHandover b k slot) s = .next ((u.bump (latDieA (dieOfBay b)) F.LAT_ENGCNT_LDPC_SKIP).boardDecided
            b k layer area slot (.erased .overload))))
    ∧ (s.latDie[d].ldpc = [] → exec (.ldpcDecodeDone d r) s = .next s)
    ∧ (∀ c rest, s.latDie[d].ldpc = c :: rest → ∃ u : State,
        u = { s with latDie := u.latDie, lat := u.lat, regs := u.regs } ∧ u.latDie[d].ldpc = rest
        ∧ (∀ e, e ≠ d → u.latDie[e] = s.latDie[e])
        ∧ ∃ o, exec (.ldpcDecodeDone d r) s = .next (u.boardDecided c.bay c.spot c.layer c.area c.slot o)
          ∧ (∀ m, c.mark = some m → o = .erased m)
          ∧ (c.mark = none → ldpcHolds r.word = false ∨ iterLimit s c < r.iters → o = .erased .ldpcFail)
          ∧ (∀ bs x n q e, o = .decoded bs x n q e → ldpcHolds r.word = true ∧ r.iters ≤ iterLimit s c
              ∧ bs = codewordBytes r.word ∧ boardCrcOk bs = true))
    ∧ ((∀ l ∈ s.lat[b].logs, l.retry = false) → exec (.retryJumpBack b) s = .next s)
    ∧ ((∃ l ∈ s.lat[b].logs, l.retry = true) → ∃ u : State, u = { s with lat := u.lat, regs := u.regs }
        ∧ u.lat[b].retry = true ∧ (∀ l ∈ u.lat[b].logs, l.retry = false) ∧ (∀ c, c ≠ b → u.lat[c] = s.lat[c])
        ∧ u.get (latA b) F.LAT_RETRYCNT_RETRIES = min (s.get (latA b) F.LAT_RETRYCNT_RETRIES + 1) 0xFFFF
        ∧ exec (.retryJumpBack b) s = .next (u.moveRequest b { move := .track (-7), owner := .retry }))
    ∧ (p.qual.codewords < chVal s b k F.LAT_CHCFG_BER_WIN → exec (.qualityWindowLatch b k) s = .next s)
    ∧ (chVal s b k F.LAT_CHCFG_BER_WIN ≤ p.qual.codewords → ∃ u : State,
        u = { s with lat := u.lat, regs := u.regs, free := u.free } ∧ u.lat[b].spots[k] = { p with qual := {} }
        ∧ u.get (latA b) F.LAT_SPOTk_QUAL2_SEQ k = (s.get (latA b) F.LAT_SPOTk_QUAL2_SEQ k + 1) % 256
        ∧ u.get (latA b) F.LAT_SPOTk_QUAL3_SEQ k = (s.get (latA b) F.LAT_SPOTk_QUAL2_SEQ k + 1) % 256
        ∧ u.get (latA b) F.LAT_SPOTk_QUAL3_CW_FAIL k = p.qual.cwFail % 0x10000
        ∧ exec (.qualityWindowLatch b k) s = .next (u.cruSpotQuality b k)))

/-- Recording (R64, R165–R169, R172, R175–R180, R182): a log is built once all its boards have arrived, and at most two are
held; a header out of its place ends the item with its event, generation 0 waits for a bark measurement; a settled speed
leads to the check, through a power test that is due; logs with marked slots are not written; a checked log starts only
within its power and with the loops locked, and takes the strategy of its layer and band; its end counts and is reported.
Second: when slot 3n of a log reaches beam 0, a log that has not passed its check, or comes while another is written, a
manoeuvre runs or a loop is out of its limits, does not start; a bay kept from recording refuses it; a power test that its
layer needs comes first; a log past its power limit ends with its event; and any other is written, with the strategy that its
layer and band have then. Write inhibit stops nothing while both loops are within their limits. -/
def Obligations.Recording : Prop :=
  (∀ (b : Bay) (item : Nat) (marked : List (Nat × Nat × Nat)) (s : State),
    let x := s.recp[b]
    let d := dieOfBay b
    (x.items.find? (·.item = item) = none → exec (.recordLogBuild b item) s = .next s)
    ∧ (∀ r, x.items.find? (·.item = item) = some r →
        boardsArrived r = false ∨ (∃ l ∈ x.built, l.item = item) ∨ 2 ≤ x.built.length → exec (.recordLogBuild b item) s = .next s)
    ∧ (∀ r, x.items.find? (·.item = item) = some r → boardsArrived r = true → (∀ l ∈ x.built, l.item ≠ item) → x.built.length < 2 →
        let l : BuiltLog := { item, layer := r.layer, area := r.area, log := r.log, boards := buildBoards s b r }
        ((∃ e ∈ r.boards, headerOk r.layer r.area r.log e.1 e.2 = false) → exec (.recordLogBuild b item) s = .next
          ((s.raiseBay b 0x0301 0 0xFFFF (builtLba l)).recRefuse b l .header))
        ∧ ((∀ e ∈ r.boards, headerOk r.layer r.area r.log e.1 e.2 = true) → r.area = 1 → r.log = 0 → x.barkOk = false →
          exec (.recordLogBuild b item) s = .next (s.recRefuse b l .noBark))
        ∧ ((∀ e ∈ r.boards, headerOk r.layer r.area r.log e.1 e.2 = true) → ¬(r.area = 1 ∧ r.log = 0) ∨ x.barkOk = true →
          x.state ≠ .idle → x.state ≠ .stopped →
          exec (.recordLogBuild b item) s = .next (s.setRec b { x with built := x.built ++ [l] })))
    ∧ (x.state ≠ .slew ∨ recordSpeed s b = false → exec (.recordSpeedSettled b) s = .next s)
    ∧ (x.state = .slew → recordSpeed s b = true →
        (x.opcDue = true → exec (.recordSpeedSettled b) s = .next (s.setRec b { x with settled := true, state := .opc }))
        ∧ (x.opcDue = false → ∀ l rest, x.built = l :: rest → opcNeeded s b l.layer = false →
          exec (.recordSpeedSettled b) s = .next (s.setRec b { x with settled := true, state := .check })))
    ∧ (x.state ≠ .check → x.state ≠ .write → exec (.checkRevolution b marked) s = .next s)
    ∧ (x.state = .check ∨ x.state = .write → x.writing = none → (∀ l ∈ x.built, (l.layer, l.area, l.log) ∉ marked) →
        exec (.checkRevolution b marked) s = .next (s.setRec b { x with
          state := .write, checks := x.checks ++ x.built.map fun l => (l.layer, l.area, l.log, true) }))
    ∧ (∀ l, x.state = .check ∨ x.state = .write → x.writing = none → x.built = [l] → (l.layer, l.area, l.log) ∈ marked →
        exec (.checkRevolution b marked) s = .next ((s.setRec b { x with
          state := .write, checks := x.checks ++ [(l.layer, l.area, l.log, false)] }).recRefuse b l .notBlank))
    ∧ (x.writing = none → exec (.logWriteEnd b) s = .next s)
    ∧ (∀ w, x.writing = some w → ∃ u : State, u = { s with recp := u.recp, regs := u.regs }
        ∧ u.recp[b].writing = none ∧ (∀ l ∈ u.recp[b].built, l.item ≠ w.log.item) ∧ (∀ c, c ≠ b → u.recp[c] = s.recp[c])
        ∧ u.get (recA b) F.REC_CNT_LOGS_WRITTEN = min (s.get (recA b) F.REC_CNT_LOGS_WRITTEN + 1) 0xFFFFFF
        ∧ exec (.logWriteEnd b) s = .next
          ((u.endItem d w.log.item .done 0 (some (builtLba w.log * 2 ^ 32))).logOver d w.log.item)))
  ∧ (∀ (b : Bay) (item : Nat) (s : State),
    let x := s.recp[b]
    let d := dieOfBay b
    (x.built.find? (·.item = item) = none → exec (.logWriteStart b item) s = .next s)
    ∧ (∀ l, x.built.find? (·.item = item) = some l →
        let ready := x.state = .write ∧ x.writing = none ∧ logChecked x l = true ∧ s.osv[b].move = none ∧ wiCause s b = false
          ∧ s.dies[d].safe = false
        let u := (s.activate (.recStrategy b)).cruInterrupt b
        let i := pwrIndex l.layer (logBand l)
        (¬ ready → exec (.logWriteStart b item) s = .next s)
        ∧ (ready → s.has (recA b) F.REC_CTL_ENABLE = false → exec (.logWriteStart b item) s = .next (s.recRefuse b l .refused))
        ∧ (ready → s.has (recA b) F.REC_CTL_ENABLE = true → opcNeeded s b l.layer = true →
          exec (.logWriteStart b item) s = .next (s.setRec b { x with opcDue := true, state := .opc }))
        ∧ (ready → s.has (recA b) F.REC_CTL_ENABLE = true → opcNeeded s b l.layer = false →
          powerShort u b (u.get (recA b) F.REC_PWRTAB_PEAK i) = false → Completes (.logWriteStart b item) s fun t =>
            t = { u with recp := t.recp, dies := t.dies } ∧ (∀ c, c ≠ b → t.recp[c] = u.recp[c])
            ∧ ∃ w, t.recp[b] = { u.recp[b] with writing := some w } ∧ w.log = l ∧ w.band = logBand l
              ∧ F.REC_PWRTAB_PEAK.of w.power = u.get (recA b) F.REC_PWRTAB_PEAK i
              ∧ F.REC_PWRTAB_BIAS.of w.power = u.get (recA b) F.REC_PWRTAB_BIAS i))
    ∧ (wiCause s b = false → exec (.writeInhibit b) s = .next s)
    ∧ (wiCause s b = true → exec (.writeInhibit b) s = .next (s.writeInhibit b)))

/-- LaserLink (R174, R178, R186, R645, R646): a good report is taken and clears the count of bad ones, any other counts
towards three; the fault, raised once, stops the log; a power test with no blank slots keeps every scale and reports so, and
any other counts and leaves the next free slot; RUN starts nothing without a disc or with tests off. -/
def Obligations.LaserLink : Prop :=
  ∀ (b : Bay) (report slot : Nat) (jitter : Vector (Vector Nat 16) 7) (s : State),
    let x := s.recp[b]
    (Completes (.laserReportFrame b report) s fun t =>
      t = { s with recp := t.recp } ∧ (∀ c, c ≠ b → t.recp[c] = s.recp[c]) ∧ t.recp[b].linkTurns = 0
      ∧ (reportFrameOk report = true → reportGood s b report = true →
          t.recp[b].linkBad = 0 ∧ t.recp[b].linkFault = false ∧ ∀ k : Fin 7, t.recp[b].power[k] = reportPower report k)
      ∧ (reportFrameOk report = false ∨ reportGood s b report = false →
          t.recp[b].linkBad = min 3 (x.linkBad + 1) ∧ t.recp[b].power = x.power ∧ t.recp[b].linkFault = x.linkFault))
    ∧ (x.linkFault = true ∨ (x.linkBad < 3 ∧ x.linkTurns < 3) → exec (.laserLink b) s = .next s)
    ∧ (x.linkFault = false → 3 ≤ x.linkBad ∨ 3 ≤ x.linkTurns → exec (.laserLink b) s = .next
        (((s.setRec b { x with linkFault := true }).raiseBay b 0x0305 0 0xFFFF (statusWord x)).recPartial b))
    ∧ (x.opcDue = false ∨ x.writing ≠ none → exec (.powerTest b (some slot) jitter) s = .next s
        ∧ exec (.powerTest b none jitter) s = .next s)
    ∧ (x.opcDue = true → x.writing = none → Completes (.powerTest b none jitter) s fun t =>
        t = { s with recp := t.recp, ports := t.ports } ∧ t.recp[b].opcDue = false
        ∧ ∃ e ∈ t.recp[b].opc, e.layer = opcLayer s b ∧ e.temp = s.geti (sfeA b) F.SFE_TEMP_TEMP)
    ∧ (x.opcDue = true → x.writing = none → Completes (.powerTest b (some slot) jitter) s fun t =>
        t = { s with recp := t.recp, regs := t.regs, ports := t.ports } ∧ t.recp[b].opcDue = false
        ∧ (∃ e ∈ t.recp[b].opc, e.layer = opcLayer s b ∧ e.next = slot + 16)
        ∧ t.get (recA b) F.REC_CNT2_OPC_RUNS = min (s.get (recA b) F.REC_CNT2_OPC_RUNS + 1) 0xFFFF
        ∧ ∀ k : Fin 7, let i := bestStep jitter[k]
            t.get (recA b) F.REC_SCALEk_SCALE k = (if i ≠ 0 ∧ i ≠ 15 ∧ 512 ≤ opcScale s b i ∧ opcScale s b i ≤ 1536 then
              (opcScale s b i).toNat else s.get (recA b) F.REC_SCALEk_SCALE k))
    ∧ (s.mounted b = false ∨ s.has (recA b) F.REC_CTL_OPC_EN = false → exec (.recOpcRun b) s = .next s)
    ∧ (s.mounted b = true → s.has (recA b) F.REC_CTL_OPC_EN = true → exec (.recOpcRun b) s = .next (s.setRec b { x with
        opcDue := true, state := if x.state = .idle ∨ x.state = .stopped then .opc else x.state }))

/-- FocusStates (R196–R198, R202): each event of the focus loop acts in the states of R196 and in no other: FOC_EN starts the
sweep with TRIES at 0; the target's peak captures; a sweep or a capture that fails, or 200 µs in HOLD, counts a try, and the
third ends in FAILED; 32 turns lock; a loss holds both loops, and 16 good turns capture again; a counting sweep at mount goes
on at 17 peaks. -/
def Obligations.FocusStates : Prop :=
  ∀ (b : Bay) (value : Word) (s : State),
    let x := s.osv[b]
    let d := dieOfBay b
    let ends := x.f = .sweep ∧ 32767 ≤ x.sweepPos
    let fault := s.trn[d].slots[osvSlot b 0].st = .fault
    let retried (u : State) (t : State) : Prop :=
      t.osv[b].tries = x.tries + 1 ∧ t.osv[b].f = .sweep ∧ t.osv[b].target = u.osv[b].layer ∧ t.dies = u.dies
    (s.has (osvA b) F.TRN_OSV_CTL_FOC_EN = true ∨ s.dies[d].safe = true → exec (.focEnSet b) s = .next s)
    ∧ (s.has (osvA b) F.TRN_OSV_CTL_FOC_EN = false → s.dies[d].safe = false → Completes (.focEnSet b) s fun t =>
        t = { s.put (osvA b) F.TRN_OSV_CTL_FOC_EN 1 with osv := t.osv, trn := t.trn } ∧ (∀ c, c ≠ b → t.osv[c] = s.osv[c])
        ∧ t.osv[b].f = .sweep ∧ t.osv[b].tries = 0 ∧ t.osv[b].sweepPos = -32768 ∧ t.osv[b].peaks = 0)
    ∧ (s.has (osvA b) F.TRN_OSV_CTL_FOC_EN = true → F.TRN_OSV_CTL_FOC_EN.of value = 0 →
        Completes (.trnOsvCtlWrite b value) s fun t =>
          t.osv[b].f = .off ∧ t.osv[b].t = .off ∧ t.osv[b].move = none ∧ t.osv[b].pending = none)
    ∧ (F.TRN_OSV_CTL_FOC_EN.of value = 1 → F.TRN_OSV_CTL_TRK_EN.of value = 1 → s.has (osvA b) F.TRN_OSV_CTL_FOC_EN = true →
        exec (.trnOsvCtlWrite b value) s = .next
          (((((s.put (osvA b) F.TRN_OSV_CTL_FOC_EN 1).put (osvA b) F.TRN_OSV_CTL_TRK_EN 1).put (osvA b) F.TRN_OSV_CTL_TILT_EN
            (F.TRN_OSV_CTL_TILT_EN.of value)).put (osvA b) F.TRN_OSV_CTL_SF_EN (F.TRN_OSV_CTL_SF_EN.of value)).put (osvA b)
            F.TRN_OSV_CTL_SPIRAL_CHK (F.TRN_OSV_CTL_SPIRAL_CHK.of value)))
    ∧ (x.f ≠ .sweep ∨ x.risen = false → exec (.surfacePeak b) s = .next s)
    ∧ (x.f = .sweep → x.risen = true → x.counting = false → x.peaks + x.target = 16 → |x.fe| ≤ fcapBand s b →
        x.sweepMax * 15 / 100 ≤ x.sum3 → Completes (.surfacePeak b) s fun t =>
          t = { s with osv := t.osv, trn := t.trn } ∧ (∀ c, c ≠ b → t.osv[c] = s.osv[c])
          ∧ t.osv[b] = { x with f := .capture, layer := x.target, flockRun := 0, fForce := none })
    ∧ (x.f = .sweep → x.risen = true → x.sum3 < x.sweepMax * 15 / 100 →
        exec (.surfacePeak b) s = .next (s.setOsv b { x with peaks := x.peaks + 1, risen := false }))
    ∧ (¬ ends → exec (.sweepEnd b) s = .next s)
    ∧ (ends → x.counting = true → x.peaks = 17 → Completes (.sweepEnd b) s fun t =>
        t.osv[b].f = .sweep ∧ t.osv[b].counting = false ∧ t.osv[b].target = 0 ∧ t.dies = s.dies)
    ∧ (ends → x.counting = true → x.peaks ≠ 17 → exec (.sweepEnd b) s = .next ((s.mountFail b).osvOff b))
    ∧ (ends → x.counting = false → x.tries < 2 → Completes (.sweepEnd b) s (retried s))
    ∧ (ends → x.counting = false → 2 ≤ x.tries → Completes (.sweepEnd b) s fun t =>
        t.osv[b].f = .failed ∧ t.osv[b].t = .off ∧ t.osv[b].tries = 3 ∧ t.osv[b].pending = none)
    ∧ (x.f ≠ .capture → exec (.captureTimeout b) s = .next s)
    ∧ (x.f = .capture → x.counting = false → x.phase = .idle → x.tries < 2 → Completes (.captureTimeout b) s (retried s))
    ∧ (x.f = .capture → 2 ≤ x.tries → Completes (.captureTimeout b) s fun t => t.osv[b].f = .failed ∧ t.osv[b].tries = 3)
    ∧ (¬(x.f = .capture ∧ 32 ≤ x.flockRun) → exec (.focusLock b) s = .next s)
    ∧ (x.f = .capture → 32 ≤ x.flockRun → exec (.focusLock b) s = .next (s.setOsv b { x with
        f := .locked, refLeft := 1024, refSum := 0, lowRun := 0, highRun := 0, longSnag := false }))
    ∧ (¬(x.f = .locked ∧ (16 ≤ x.lowRun ∨ x.longSnag = true ∨ fault)) → exec (.trnFocusLost b) s = .next s)
    ∧ (x.f = .locked → 16 ≤ x.lowRun ∨ x.longSnag = true ∨ fault → Completes (.trnFocusLost b) s fun t =>
        t.osv[b].f = .hold ∧ (x.t = .locked ∨ x.t = .capture ∨ x.t = .jump → t.osv[b].t = .hold)
        ∧ t.get (osvA b) F.TRN_OSV_CNT_FOC_LOSSES = min (s.get (osvA b) F.TRN_OSV_CNT_FOC_LOSSES + 1) 255)
    ∧ (¬(x.f = .hold ∧ 16 ≤ x.highRun) → exec (.holdRecovery b) s = .next s)
    ∧ (x.f = .hold → 16 ≤ x.highRun → Completes (.holdRecovery b) s fun t =>
        t = { s with osv := t.osv, trn := t.trn } ∧ t.osv[b] = { x with f := .capture, flockRun := 0, fForce := none }
        ∧ ∀ c, c ≠ b → t.osv[c] = s.osv[c])
    ∧ (x.f ≠ .hold → exec (.holdTimeout b) s = .next s)
    ∧ (x.f = .hold → x.counting = false → x.tries < 2 → Completes (.holdTimeout b) s (retried s))
    ∧ (x.f = .hold → 2 ≤ x.tries → Completes (.holdTimeout b) s fun t => t.osv[b].f = .failed ∧ t.osv[b].tries = 3)

/-- TrackingAndMoves (R194, R199, R200, R202–R204, R206, R211): 32 turns below the threshold lock tracking; the first good
address after a lock passes the check on spiral 3 of the layer in use, has the line jump on any other spiral, and fails a
layer jump on another layer; the groove found sets the sled's radius and turns the loops on; with focus off a manoeuvre fails
at once; a register's request for a layer or a track waits while one is under way; brakes answer kicks with the opposite
sign; a jump that is not over fails; a landing within its window ends a seek and any other is corrected, SEEK_TRIES times at
most. -/
def Obligations.TrackingAndMoves : Prop :=
  ∀ (b : Bay) (found : Bool) (layer : Fin 16) (turns : Int) (area slot addr check : Nat) (s : State),
    let x := s.osv[b]
    let d := dieOfBay b
    let a := osvA b
    let due := x.checkDue = true ∧ x.t = .locked ∧ addressPasses addr check = true
    let k := bitsOf addr 41 39
    let y : Osv := { x with checkDue := false, slotNow := addrSlot addr, areaNow := addrArea addr }
    let amp : Int := s.get a F.TRN_LJ_CFG_BRAKE_AMP
    let kick : Int := s.get a F.TRN_SEEK_CFG_TJ_KICK
    (¬(x.t = .capture ∧ 32 ≤ x.tlockRun) → exec (.trackingLock b) s = .next s)
    ∧ (x.t = .capture → 32 ≤ x.tlockRun → s.has a F.TRN_OSV_CTL_SPIRAL_CHK = true → exec (.trackingLock b) s = .next
        (((s.setOsv b { x with t := .locked, checkDue := true }).sfeAcquire b x.layer).latAcquire b x.layer))
    ∧ (x.t = .capture → 32 ≤ x.tlockRun → s.has a F.TRN_OSV_CTL_SPIRAL_CHK = false → x.move = none →
        exec (.trackingLock b) s = .next
          (((s.setOsv b { x with t := .locked, checkDue := false }).sfeAcquire b x.layer).latAcquire b x.layer))
    ∧ (¬ due → exec (.spiralCheck b addr check) s = .next s)
    ∧ (due → addrLayer addr = x.layer → k = 3 → exec (.spiralCheck b addr check) s = .next ((s.setOsv b y).lockDone b))
    ∧ (due → addrLayer addr = x.layer → k ≠ 3 → x.move ≠ none → exec (.spiralCheck b addr check) s = .next
        (((s.setOsv b y).bump a F.TRN_OSV_CNT2_SPIRAL_CORR).trackKick b (spiralJump k)))
    ∧ (k < 7 → |spiralJump k| ≤ 3 ∧ (7 : Int) ∣ (k + spiralJump k - 3))
    ∧ (due → addrLayer addr ≠ x.layer → Completes (.spiralCheck b addr check) s fun t =>
        t.osv[b].f = .hold ∧ t.osv[b].move = none ∧ t.get a F.TRN_OSV_CNT2_JUMP_FAILS = min (s.get a F.TRN_OSV_CNT2_JUMP_FAILS + 1) 255)
    ∧ (x.mount = none ∨ x.f ≠ .locked → exec (.grooveSearch b found) s = .next s)
    ∧ (x.mount ≠ none → x.f = .locked → exec (.grooveSearch b false) s = .next (s.mountFail b)
        ∧ Completes (.grooveSearch b true) s fun t => t = { s with regs := t.regs }
          ∧ t.has a F.TRN_OSV_CTL_TRK_EN = true ∧ t.has a F.TRN_OSV_CTL_TILT_EN = true ∧ t.has a F.TRN_OSV_CTL_SF_EN = true)
    ∧ (x.f = .off ∨ x.f = .failed → turns ≠ 0 → turns.natAbs ≤ 400 → area ≤ 2 →
        exec (.moveLayer b layer) s = .next ((s.put a F.TRN_MOVE_TYPE 2).put a F.TRN_MOVE_TGT_LAYER layer)
        ∧ exec (.moveTrack b turns) s = .next ((s.put a F.TRN_MOVE_TYPE 3).put a F.TRN_MOVE_TURNS (ofSigned 16 turns))
        ∧ exec (.moveSeek b layer area slot) s = .next ((((s.put a F.TRN_MOVE_TYPE 4).put a F.TRN_MOVE_TGT_LAYER layer).put a
            F.TRN_MOVE_TGT_AREA area).put a F.TRN_MOVE_TGT_SLOT slot))
    ∧ (turns = 0 ∨ 400 < turns.natAbs → exec (.moveTrack b turns) s = .next s)
    ∧ (2 < area → exec (.moveSeek b layer area slot) s = .next s)
    ∧ (x.f = .locked → x.move ≠ none → x.pending = none →
        let r (m : Manoeuvre) : Osv := { x with pending := some { move := m, owner := .register } }
        exec (.moveReacquire b) s = .next ((s.put a F.TRN_MOVE_TYPE 1).setOsv b (r .reacquire))
        ∧ exec (.moveLayer b layer) s = .next (((s.put a F.TRN_MOVE_TYPE 2).put a F.TRN_MOVE_TGT_LAYER layer).setOsv b (r (.layer layer))))
    ∧ (x.f = .locked → x.move = none → s.recp[b].writing = none → exec (.moveReacquire b) s = .next
        ((s.put a F.TRN_MOVE_TYPE 1).moveStart b { move := .reacquire, owner := .register }))
    ∧ (x.f = .locked → x.move = none → s.recp[b].writing = none → turns ≠ 0 → turns.natAbs ≤ 400 →
        160 * turns.natAbs ≤ 1000 * s.get a F.TRN_SEEK_CFG_FINE_RANGE → exec (.moveTrack b turns) s = .next
          (((s.put a F.TRN_MOVE_TYPE 3).put a F.TRN_MOVE_TURNS (ofSigned 16 turns)).moveStart b
            { move := .track turns, owner := .register }))
    ∧ ((∀ t f, x.phase ≠ .layerKick t f) ∨ x.passedMin = false ∨ x.sum3 < x.sumRef / 2 → exec (.layerJumpBrake b) s = .next s)
    ∧ (∀ t f, x.phase = .layerKick t f → x.passedMin = true → x.sumRef / 2 ≤ x.sum3 → exec (.layerJumpBrake b) s = .next
        (s.setOsv b { x with
          phase := .layerBrake t f, kick := turnsOf s d (s.get a F.TRN_LJ_CFG_KICK_T)
          fForce := some (kickFrom x.kickBase (if x.layer < t then amp else -amp)) }))
    ∧ ((∀ t f, x.phase ≠ .layerBrake t f) → exec (.layerJumpBrakeEnd b) s = .next s)
    ∧ (∀ t f, x.phase = .layerBrake t f → Completes (.layerJumpBrakeEnd b) s fun u =>
        u = { s with osv := u.osv, trn := u.trn } ∧ (∀ c, c ≠ b → u.osv[c] = s.osv[c])
        ∧ u.osv[b] = { x with phase := .layerCapture t f, kick := 0, f := .capture, layer := t, flockRun := 0, fForce := none })
    ∧ ((∀ t f, x.phase ≠ .layerKick t f ∧ x.phase ≠ .layerBrake t f ∧ x.phase ≠ .layerCapture t f) →
        exec (.ljTimeout b) s = .next s)
    ∧ (∀ t f, x.phase = .layerKick t f ∨ x.phase = .layerBrake t f ∨ x.phase = .layerCapture t f →
        Completes (.ljTimeout b) s fun u => u.osv[b].f = .hold ∧ u.osv[b].move = none
          ∧ u.get a F.TRN_OSV_CNT2_JUMP_FAILS = min (s.get a F.TRN_OSV_CNT2_JUMP_FAILS + 1) 255)
    ∧ ((∀ n, x.phase ≠ .trackKick n) → exec (.trackJumpBrake b) s = .next s)
    ∧ (∀ n, x.phase = .trackKick n → exec (.trackJumpBrake b) s = .next (s.setOsv b { x with
        phase := .trackBrake n, tForce := some (kickFrom x.kickBase (if 0 < n then -kick else kick)) }))
    ∧ (x.phase ≠ .landing ∨ x.move = none ∨ x.t ≠ .locked → exec (.seekLanding b slot) s = .next s)
    ∧ (∀ l target o, x.phase = .landing → x.t = .locked → x.move = some ⟨.seek l area target, o⟩ →
        let u := s.setOsv b { x with slotNow := slot, landing := x.landing.set (binOf ((x.radius : Int) * 1000)) (some slot) }
        let n := areaSwath area target - areaSwath area slot
        let short := (s.get a F.TRN_SEEK_CFG_LAND_SHORT : Int)
        (0 ≤ n → n ≤ short + 2 → exec (.seekLanding b slot) s = .next (u.moveEnd b true))
        ∧ (n < 0 ∨ short + 2 < n → s.get a F.TRN_SEEK_CFG_SEEK_TRIES ≤ x.seeks →
          exec (.seekLanding b slot) s = .next (u.moveEnd b false))
        ∧ (n < 0 ∨ short + 2 < n → x.seeks < s.get a F.TRN_SEEK_CFG_SEEK_TRIES → exec (.seekLanding b slot) s = .next
          ((u.bump a F.TRN_OSV_CNT2_SEEK_RETRIES).seekStep b area target)))

/-- SlotLaws (R232–R235, R242, R244): the laws of a slot. The integrator stops in the direction that would carry it past a
limit and can otherwise move; the output keeps its limits, and moves by at most HO_RATE an evaluation while it slews; the
band law is hysteretic; the composite law is in BAND past its thresholds, where its integrator stands, and in LIN well inside
them; a linear hand-over that no clamp forbids starts from the outgoing value. Second: of a list of members in rising order
the lowest output is taken, the lower number on a tie. -/
def Obligations.SlotLaws : Prop :=
  (∀ (c : SlotCfg) (x : TrnSlot) (e : Int),
    let r := (evalLaw c x e).1
    let p := (propPath c { x with hand := none, sat := false, err := e } e).1
    let want := x.hand.map fun y => (satTo 32 (y - coefMul 28 c.kp p)).1
    r.hand = none ∧ r.err = e
    ∧ (c.law = .linear → x.hand = none →
        (c.iMin ≤ x.int → x.int ≤ c.iMax → c.iMin ≤ r.int ∧ r.int ≤ c.iMax) ∧ (c.iMax ≤ x.int → r.int ≤ x.int)
        ∧ (x.int ≤ c.iMin → x.int ≤ r.int) ∧ (x.slewing = false → c.outMin ≤ c.outMax → c.outMin ≤ r.out ∧ r.out ≤ c.outMax)
        ∧ (x.slewing = true → 0 ≤ c.hoRate → |r.out - x.out| ≤ c.hoRate))
    ∧ (c.law = .linear → ∀ y i, x.hand = some y → want = some i → c.iMin ≤ i → i ≤ c.iMax →
        r.out = y ∧ r.int = i ∧ r.slewing = false)
    ∧ (c.law = .band → x.hand = none →
        (c.thUp ≤ e → r.hi = true) ∧ (e < c.thUp → e ≤ c.thDn → r.hi = false) ∧ (c.thDn < e → e < c.thUp → r.hi = x.hi)
        ∧ r.int = x.int ∧ (x.slewing = false → r.out = if r.hi then c.lvlHi else c.lvlLo))
    ∧ (c.law = .band → ∀ y, x.hand = some y → 0 ≤ c.hoRate → |r.out - y| ≤ c.hoRate)
    ∧ (c.law = .composite → 0 ≤ c.hyst →
        (c.thUp ≤ e ∨ e ≤ c.thDn → r.band = true ∧ r.int = x.int) ∧ (c.thDn + c.hyst < e → e < c.thUp - c.hyst → r.band = false)))
  ∧ (∀ (s : State) (d : Die) (ns : List (Fin 48)) (n : Fin 48), ns.Pairwise (· < ·) → lowest s d ns = some n →
    n ∈ ns ∧ ∀ m ∈ ns, s.trn[d].slots[n].out ≤ s.trn[d].slots[m].out
      ∧ (s.trn[d].slots[m].out = s.trn[d].slots[n].out → n ≤ m))

/-- TurnRegisters (R224, R226, R236–R240, R248, R252, R255): without ENABLE, or without a clock, there is no turn; in a turn
the outputs of the last one reach their destinations, and the count goes on; CLEAR ends a fault with a hand-over from 0 or
from the last output and does nothing to any other slot; FVAL, FORCE and SET take what is written; TRN_CTL keeps TURN_CYC
while it runs and ENABLE while a slot is enabled, refuses a TURN_CYC out of range, and starts the count at 0; a bank that is
active, or about to be, is read-only. -/
def Obligations.TurnRegisters : Prop :=
  ∀ (d : Die) (n : Fin 48) (adc : Vector ServoObs 2) (bank : Bool) (off : Nat) (w : Word) (s : State),
    let x := s.trn[d]
    let y := x.slots[n]
    let a := trnA d
    let on := F.TRN_CTL_ENABLE.of w
    let cyc := F.TRN_CTL_TURN_CYC.of w
    let runs := s.has a F.TRN_CTL_ENABLE = true ∧ x.clkLost = false ∧ s.dies[d].clkLost = false
    (¬ runs → exec (.turn d adc) s = .next s)
    ∧ (runs → Completes (.turn d adc) s fun t =>
        t.trn[d].count = (x.count + 1) % 2 ^ 32 ∧ t.trn[d].dest = x.next.foldl (fun m e => destPut m e.1 e.2) x.dest
        ∧ t.trn[d].dieTemp = s.dies[d].temp ∧ ∀ c, c ≠ d → t.trn[c] = s.trn[c])
    ∧ (y.st ≠ .fault → exec (.trnCmdClear d n) s = .next s)
    ∧ (y.st = .fault → exec (.trnCmdClear d n) s = .next (s.setSlot d n { y with
        st := .run, fe := 0, hand := some (if s.get a F.TRN_Sn_CFG_FAULT_ACT n = 1 then 0 else y.out) }))
    ∧ (F.TRN_Sn_CMD_CLEAR.of w = 0 → exec (.trnCmdForce d n w) s = .next ((s.put a F.TRN_Sn_CMD_FVAL
        (F.TRN_Sn_CMD_FVAL.of w) n).put a F.TRN_Sn_CMD_FORCE (F.TRN_Sn_CMD_FORCE.of w) n))
    ∧ exec (.trnSetWrite d n w) s = .next (s.put a F.TRN_Sn_SET_SET w.toNat n)
    ∧ (s.has a F.TRN_CTL_ENABLE = true → on = 0 → (∃ k : Fin 48, s.has a F.TRN_Sn_CFG_ENABLE k = true) →
        exec (.trnCtlWrite d w) s = .next s)
    ∧ (s.has a F.TRN_CTL_ENABLE = true → on = 1 → exec (.trnCtlWrite d w) s = .next (s.put a F.TRN_CTL_ENABLE 1))
    ∧ (s.has a F.TRN_CTL_ENABLE = true → on = 0 → (∀ k : Fin 48, s.has a F.TRN_Sn_CFG_ENABLE k = false) →
        exec (.trnCtlWrite d w) s = .next (s.put a F.TRN_CTL_ENABLE 0))
    ∧ (s.has a F.TRN_CTL_ENABLE = false → cyc < (if d = 1 then 250 else 500) ∨ 4000 < cyc → exec (.trnCtlWrite d w) s = .next s)
    ∧ (s.has a F.TRN_CTL_ENABLE = false → (if d = 1 then 250 else 500) ≤ cyc → cyc ≤ 4000 →
        let u := (s.put a F.TRN_CTL_TURN_CYC cyc).put a F.TRN_CTL_ENABLE on
        exec (.trnCtlWrite d w) s = .next (if on = 1 then u.setTrn d { x with count := 0 } else u))
    ∧ (s.has a F.TRN_Sn_CFG_BANK n = bank → exec (.bankWordWrite d n bank off w) s = .next s)
    ∧ (s.has a F.TRN_Sn_CFG_BANK n ≠ bank → s.isWaiting (.trnSlot d n) = false → ∀ l,
        findReg a regs_trn ((if bank then 0x6000 else 0x4000) + 128 * n.val + off % 128) = some l →
        exec (.bankWordWrite d n bank off w) s = .next (s.writeWord false l w))
    ∧ (findReg a regs_trn ((if bank then 0x6000 else 0x4000) + 128 * n.val + off % 128) = none →
        exec (.bankWordWrite d n bank off w) s = .next s)

/-- SpindleCommands (R273, R274, R280, R287): a RUN outside its range, or a RUN or IDLE that the drive's conditions bar, is
refused and counted and the command kept; a RUN in RUN ramps from the speed, or passes through DECEL when it lies far below;
in DECEL a target at or above the speed returns to RUN; STOP starts an active stop from RUN and DECEL and a passive one from
a start, and is refused in the safe state; CLR_FAULT acts in STOPPED alone; ENABLE cannot be cleared outside STOPPED. -/
def Obligations.SpindleCommands : Prop :=
  ∀ (b : Bay) (target : Int) (vbr : Nat) (w : Word) (s : State),
    let x := s.spn[b]
    let refused := (s.put (spnA b) F.SPN_STATUS_REFUSED 1).bump (spnA b) F.SPN_CNT2_REFUSED
    let y : Spn := { x with mode := .run, target := target }
    let z : Spn := { x with mode := .stop, target := 0, restart := false, starter := none }
    let ctl := (s.put (spnA b) F.SPN_CTL_ENABLE (F.SPN_CTL_ENABLE.of w)).put (spnA b) F.SPN_CTL_PARK (F.SPN_CTL_PARK.of w)
    let n := x.speed
    (target < 1000 ∨ 12000 < target ∨ spnBarred s b = true → exec (.spnRun b target vbr) s = .next refused)
    ∧ (x.fault ≠ none ∨ spnClockCfg s b = true ∨ s.has (spnA b) F.SPN_CTL_ENABLE = false ∨ s.dies[dieOfBay b].safe = true →
        exec (.spnRun b target vbr) s = .next refused ∧ exec (.spnIdle b vbr) s = .next refused)
    ∧ (1000 ≤ target → target ≤ 12000 → spnBarred s b = false →
        (x.state = .run → n - spnDecBand s b ≤ target → exec (.spnRun b target vbr) s = .next
          ((s.setSpn b { y with ramp := n, atSpeed := false }).spnForces b))
        ∧ (x.state = .run → (target : Rat) < n - spnDecBand s b → exec (.spnRun b target vbr) s = .next
          ((s.setSpn b { y with goal := .toSpeed target, atSpeed := false, state := .decel }).spnForces b))
        ∧ (x.state = .decel → n ≤ target → exec (.spnRun b target vbr) s = .next
          ((s.setSpn b { y with ramp := n, atSpeed := false, state := .run }).spnForces b))
        ∧ (x.state = .stopped → s.has (spnA b) F.SPN_CTL_PARK = true → x.parked = true → spnUvTrip s b ≤ (vbr : Rat) / 1000 →
          Completes (.spnRun b target vbr) s fun t =>
            t = { s.bump (spnA b) F.SPN_CNT_STARTS with spn := t.spn, trn := t.trn } ∧ (∀ c, c ≠ b → t.spn[c] = s.spn[c])
            ∧ t.spn[b].state = .ipd ∧ t.spn[b].target = target ∧ t.spn[b].tries = 0)
        ∧ (x.state = .stopped → s.has (spnA b) F.SPN_CTL_PARK = false ∨ x.parked = false → Completes (.spnRun b target vbr) s fun t =>
            t = { s.bump (spnA b) F.SPN_CNT_STARTS with spn := t.spn, trn := t.trn } ∧ (∀ c, c ≠ b → t.spn[c] = s.spn[c])
            ∧ t.spn[b].state = .catching ∧ t.spn[b].catchOn = false))
    ∧ (spnBarred s b = false → x.state = .run → n - spnDecBand s b ≤ spnQ s b F.SPN_RUN_IDLE_RPM → exec (.spnIdle b vbr) s = .next
        ((s.setSpn b { x with mode := .idle, target := 0, ramp := n, atSpeed := false }).spnForces b))
    ∧ (s.dies[dieOfBay b].safe = true → exec (.spnStop b) s = .next refused)
    ∧ (s.dies[dieOfBay b].safe = false →
        (x.state = .run ∨ x.state = .decel → exec (.spnStop b) s = .next
          ((s.setSpn b { z with goal := .toStop, atSpeed := false, idRef := 0, state := .decel }).spnForces b))
        ∧ (x.state = .stopped ∨ x.state = .coast ∨ x.state = .short ∨ x.state = .flywheel →
          exec (.spnStop b) s = .next (s.setSpn b z))
        ∧ (x.state = .align → 1000 ≤ spnStopShort s b → Completes (.spnStop b) s fun t =>
            t = { s with spn := t.spn } ∧ t.spn[b].state = .short ∧ t.spn[b].mode = .stop ∧ ∀ c, c ≠ b → t.spn[c] = s.spn[c]))
    ∧ (x.state ≠ .stopped → exec (.spnClrFault b) s = .next s)
    ∧ (x.state = .stopped → exec (.spnClrFault b) s = .next (s.setSpn b { x with fault := none }))
    ∧ (F.SPN_CTL_ENABLE.of w = 0 → s.has (spnA b) F.SPN_CTL_ENABLE = true → x.state ≠ .stopped →
        exec (.spnCtlWrite b w) s = .next s)
    ∧ (F.SPN_CTL_CLR_FAULT.of w = 0 → F.SPN_CTL_ENABLE.of w = 0 → x.state = .stopped → exec (.spnCtlWrite b w) s = .next ctl)
    ∧ (F.SPN_CTL_CLR_FAULT.of w = 0 → F.SPN_CTL_ENABLE.of w = 1 → exec (.spnCtlWrite b w) s = .next
        (if s.has (spnA b) F.SPN_CTL_ENABLE = true then ctl else ctl.setSpn b { x with parked := false }))

/-- SpindleStarts (R269, R271, R273, R275–R277, R279, R280, R282): each event of a start, of the observer's loss and of a
stop acts in the state its rule names and in no other: IPD leads to ALIGN, ALIGN to OPEN, eight cycles of confidence from
OPEN or CATCH to RUN with slot 4 released from the present current, a loss to FLYWHEEL, a relock back or to the stop that was
asked for, 24 cycles without one to COAST with OBS_LOST, SHORT to STOPPED; a failed attempt stops and starts again, or ends
the start. -/
def Obligations.SpindleStarts : Prop :=
  ∀ (b : Bay) (times : Vector Nat 12) (seen : CatchSeen) (vbr : Nat) (s : State),
    let x := s.spn[b]
    let d := dieOfBay b
    let failed (t : State) : Prop := t.spn[b].tries = x.tries + 1
      ∧ (s.get (spnA b) F.SPN_START2_START_TRIES ≤ x.tries + 1 → t.spn[b].fault ≠ none)
      ∧ (x.tries + 1 < s.get (spnA b) F.SPN_START2_START_TRIES → t.spn[b].restart = true)
      ∧ (t.spn[b].state = .coast ∨ t.spn[b].state = .short)
    (x.state ≠ .ipd → exec (.ipdDone b times) s = .next s)
    ∧ (x.state = .ipd → Completes (.ipdDone b times) s fun t =>
        t = { s with spn := t.spn, trn := t.trn, regs := t.regs } ∧ t.spn[b].state = .align ∧ t.spn[b].thIpd = (ipdAngle times).1
        ∧ t.spn[b].weak = (ipdAngle times).2 ∧ ∀ c, c ≠ b → t.spn[c] = s.spn[c])
    ∧ (x.state ≠ .align → exec (.alignEnd b) s = .next s)
    ∧ (x.state = .align → Completes (.alignEnd b) s fun t =>
        t = { s with spn := t.spn, trn := t.trn } ∧ (∀ c, c ≠ b → t.spn[c] = s.spn[c])
        ∧ t.spn[b] = { x with thOpen := x.thIpd, rpmOpen := 0, cycles := 0, holds := true, idRef := 0, iqRef := spnOpenI s b,
                              state := .openLoop })
    ∧ (¬(x.state = .openLoop ∧ 8 ≤ x.cycles) → exec (.openHandOver b) s = .next s)
    ∧ (x.state = .openLoop → 8 ≤ x.cycles → x.mode = .run → Completes (.openHandOver b) s fun t =>
        let iq := spnOpenI s b * Config.cos (x.thOpen - x.theta)
        t = { s with spn := t.spn, trn := t.trn } ∧ (∀ c, c ≠ b → t.spn[c] = s.spn[c])
        ∧ t.spn[b].state = .run ∧ t.spn[b].iqRef = iq ∧ t.trn[d].slots[spnSlot b 4].force = none
        ∧ t.trn[d].slots[spnSlot b 4].hand = some (slotVal (iq * 1000)) ∧ t.trn[d].slots[spnSlot b 5].force = some (slotVal 20000))
    ∧ (x.state ≠ .openLoop → exec (.openTimeout b) s = .next s)
    ∧ (x.state = .openLoop → Completes (.openTimeout b) s failed)
    ∧ (¬(x.state = .catching ∧ x.catchOn = false) → exec (.catchDecide b seen vbr) s = .next s)
    ∧ (x.state = .catching → x.catchOn = false → spnUvTrip s b ≤ (vbr : Rat) / 1000 →
        Completes (.catchDecide b .atRest vbr) s fun t => t.spn[b].state = .ipd ∧ t.spn[b].backward = false)
    ∧ (x.state = .catching → x.catchOn = false → 0 < spnStopShort s b → Completes (.catchDecide b .backward vbr) s fun t =>
        t = { s with spn := t.spn } ∧ t.spn[b].backward = true ∧ t.spn[b].restart = true ∧ t.spn[b].state = .short)
    ∧ (x.state = .catching → x.catchOn = false → 0 < spnStopShort s b → Completes (.catchDecide b .irregular vbr) s fun t =>
        t = { s with spn := t.spn } ∧ t.spn[b].backward = false ∧ t.spn[b].restart = true ∧ t.spn[b].state = .short)
    ∧ (¬(x.state = .catching ∧ x.catchOn = true) ∨ (x.cycles < 8 ∧ x.catchCyc < 16) → exec (.catchLock b) s = .next s)
    ∧ (x.state = .catching → x.catchOn = true → 8 ≤ x.cycles → x.mode = .run → Completes (.catchLock b) s fun t =>
        t = { s.bump (spnA b) F.SPN_CNT_CATCHES with spn := t.spn, trn := t.trn } ∧ t.spn[b].state = .run ∧ t.spn[b].tries = 0
        ∧ t.trn[d].slots[spnSlot b 4].force = none ∧ t.trn[d].slots[spnSlot b 4].hand = some 0)
    ∧ (x.state = .catching → x.catchOn = true → x.cycles < 8 → 16 ≤ x.catchCyc → Completes (.catchLock b) s failed)
    ∧ (¬(x.valid = true ∧ 16 ≤ x.lossRun) → exec (.observerLoss b) s = .next s)
    ∧ (x.valid = true → 16 ≤ x.lossRun → exec (.observerLoss b) s = .next ((s.bump (spnA b) F.SPN_CNT_OBS_LOSSES).setSpn b { x with
        rpmHeld := x.speed, thFly := x.theta, flyFrom := x.state, cycles := 0, flyCyc := 0, holds := true, idRef := 0
        atSpeed := false, lossRun := 0, state := .flywheel }))
    ∧ (¬(x.state = .flywheel ∧ s.get (spnA b) F.SPN_OBS_RELOCK_CYC ≤ x.cycles) → exec (.spnObsRelocked b) s = .next s)
    ∧ (x.state = .flywheel → s.get (spnA b) F.SPN_OBS_RELOCK_CYC ≤ x.cycles → Completes (.spnObsRelocked b) s fun t =>
        (x.mode = .stop → t.spn[b].state = .decel ∧ t.spn[b].goal = .toStop)
        ∧ (x.mode ≠ .stop → t.spn[b].state = x.flyFrom) ∧ (∀ c, c ≠ b → t.spn[c] = s.spn[c])
        ∧ t.get (spnA b) F.SPN_CNT_RELOCKS = min (s.get (spnA b) F.SPN_CNT_RELOCKS + 1) 255)
    ∧ (¬(x.state = .flywheel ∧ 24 ≤ x.flyCyc) → exec (.flywheelTimeout b) s = .next s)
    ∧ (x.state = .flywheel → 24 ≤ x.flyCyc → x.fault = none → Completes (.flywheelTimeout b) s fun t =>
        t.spn[b].state = .coast ∧ t.spn[b].fault = some .obsLost ∧ t.spn[b].rpmCross = x.rpmHeld ∧ t.mounted b = false)
    ∧ (¬(x.state = .short ∧ s.dies[d].clkLost = false) → exec (.shortEnd b vbr) s = .next s)
    ∧ (x.state = .short → s.dies[d].clkLost = false → x.restart = false → exec (.shortEnd b vbr) s = .next
        (s.setSpn b ({ x with parked := true, rpmCross := 0 }.enter .stopped)))
    ∧ (¬(x.state = .coast ∧ s.dies[d].clkLost = true) → exec (.safeStateShortBrake b) s = .next s)
    ∧ (x.state = .coast → s.dies[d].clkLost = true → exec (.safeStateShortBrake b) s = .next (s.setSpn b (x.enter .short)))

/-- SpindlePeriodsAndCeil (R260, R261, R264, R271, R272, R274, R280, R283, R284, R578): without its clock the drive has no
period; in a period the torque demand is latched and the duties that were loaded before take effect; the duties loaded next
always leave one channel measured, and reconstructed currents sum to 0; outside DECEL the current reference is never negative
for a demand that is not; the events of speed, supply and temperature act where their conditions hold. Second: a reading in
mode OFF does nothing; a carrier or a reading too far out is refused and leaves the filtered value; the first reading after a
replacement, inside the span or up to a twentieth of it beyond an end, restarts the filter and ends the replacement;
SAFE_FRAC replaces the value once; the owning die sends its value unless the mode is OFF; a relayed value ends STALE, and
only a bay with the relay timeout enters it. -/
def Obligations.SpindlePeriodsAndCeil : Prop :=
  (∀ (b : Bay) (raw : Vector Int 3) (vbr : Nat) (cross : Option Nat) (x' : Spn) (s : State),
    let x := s.spn[b]
    let d := dieOfBay b
    let t := spnTargetRpm s b
    let i := (spnCurrents s b raw).1
    (spnClockCfg s b = true ∨ s.dies[d].clkLost = true → exec (.pwmPeriod b raw vbr cross) s = .next s)
    ∧ (spnClockCfg s b = false → s.dies[d].clkLost = false → Completes (.pwmPeriod b raw vbr cross) s fun u =>
        u.spn[b].demand = spnDemand s b ∧ (∀ c, c ≠ b → u.spn[c] = s.spn[c]) ∧ (∀ e, e ≠ d → u.trn[e] = s.trn[e])
        ∧ (x.state = .stopped → u.spn[b].state = .stopped ∧ u.spn[b].duty = x.next ∧ u.dies = s.dies))
    ∧ (∃ k : Fin 3, spnMeasured s b (spnDuties s b x').1.next[k] = true)
    ∧ ((spnCurrents s b raw).2 ≠ 3 → (spnCurrents s b raw).2 ≠ 0 → i.1 + i.2.1 + i.2.2 = 0)
    ∧ (x'.state ≠ .decel → x'.state ≠ .flywheel → 0 ≤ x'.demand → 0 ≤ (spnRefs s b x').iqRef)
    ∧ (x.speed ≤ 12600 → exec (.overspeed b) s = .next s)
    ∧ (12600 < x.speed → x.fault = none → Completes (.overspeed b) s fun u =>
        u.spn[b].fault = some .overspeed ∧ u.mounted b = false
        ∧ (x.state = .run ∨ x.state = .decel → u.spn[b].state = .decel ∧ u.spn[b].goal = .toStop))
    ∧ (¬(x.foc = true ∧ x.vbr < spnUvTrip s b) → exec (.undervoltage b) s = .next s)
    ∧ (x.foc = true → x.vbr < spnUvTrip s b → x.fault = none → Completes (.undervoltage b) s fun u =>
        u.spn[b].state = .coast ∧ u.spn[b].fault = some .undervoltage ∧ u.spn[b].rpmCross = x.speed ∧ u.mounted b = false)
    ∧ (¬(x.state = .run ∧ |x.speed - t| ≤ t / 200) → exec (.atSpeed b) s = .next s)
    ∧ (x.state = .run → |x.speed - t| ≤ t / 200 → exec (.atSpeed b) s = .next (s.setSpn b { x with atSpeed := true }))
    ∧ Completes (.windingTempUpdate b) s fun u =>
        u = { s with spn := u.spn } ∧ (∀ c, c ≠ b → u.spn[c] = s.spn[c]) ∧ u.spn[b] = { x with tw := u.spn[b].tw, sqSum := 0, sqN := 0 }
        ∧ (x.sqSum = 0 → s.get (spnA b) F.SPN_BUDGET_RTH ≠ 0 → u.spn[b].tw =
          x.tw - (x.tw - s.dies[d].temp / 16) / (1000 * s.get (spnA b) F.SPN_BUDGET_TAU)))
  ∧ (∀ (b : Bay) (x : Int) (carrier : Nat) (frac : Fin 1025) (s : State), s.isWaiting .spnCeil = false →
    let mode := s.get ceilA F.SPN_CEIL_CFG_MODE
    let lo : Int := s.get ceilA F.SPN_CEIL_SCALE_LO
    let hi : Int := s.get ceilA F.SPN_CEIL_SCALE_HI
    let bad : State := { s.bump ceilA F.SPN_CEIL_CNT_INVALID with ceil := { s.ceil with raw := x } }
    let taken (u : State) (f : Rat) : State := { u with ceil := { s.ceil with
      frac := f, raw := x, valid := true, replaced := false, accepted := s.clock } }
    let fits := mode ≠ 0 ∧ (mode = 2 → 900 ≤ carrier ∧ carrier ≤ 55000)
    let clamp := s.bump ceilA F.SPN_CEIL_CNT_CLAMPS
    (mode = 0 → exec (.ceilReading x carrier) s = .next s)
    ∧ (mode = 2 → carrier < 900 ∨ 55000 < carrier → exec (.ceilReading x carrier) s = .next bad)
    ∧ (mode ≠ 0 → 20 * x < 20 * lo - (hi - lo) ∨ 20 * hi + (hi - lo) < 20 * x → lo < hi →
        exec (.ceilReading x carrier) s = .next bad)
    ∧ (fits → s.ceil.replaced = true ∨ s.ceil.valid = false → lo < hi →
        (lo ≤ x → x ≤ hi → exec (.ceilReading x carrier) s = .next
          (taken s (roundNear (1024 * ((x : Rat) - lo) / ((hi : Rat) - lo)))))
        ∧ (x < lo → 20 * lo - (hi - lo) ≤ 20 * x → exec (.ceilReading x carrier) s = .next (taken clamp 0))
        ∧ (hi < x → 20 * x ≤ 20 * hi + (hi - lo) → exec (.ceilReading x carrier) s = .next (taken clamp 1024)))
    ∧ (mode = 0 ∨ s.ceil.replaced = true → exec .spnCeilReplaced s = .next s)
    ∧ (mode ≠ 0 → s.ceil.replaced = false → Completes .spnCeilReplaced s fun t =>
        t = { s.bump ceilA F.SPN_CEIL_CNT_REPLACEMENTS with ceil := t.ceil, ports := t.ports }
        ∧ t.ceil = { s.ceil with frac := s.get ceilA F.SPN_CEIL_CFG_SAFE_FRAC, valid := false, replaced := true })
    ∧ (mode = 0 → exec .spnCeilValue s = .next s)
    ∧ (mode ≠ 0 → Completes .spnCeilValue s fun t =>
        t = { s with ceil := { s.ceil with sentAt := s.clock }, ports := t.ports } ∧ ∀ c, c ≠ s.code.ceilDie → t.ports[c] = s.ports[c])
    ∧ exec (.ceilRelayWrite b frac) s = .next
        ((s.put (spnA b) F.SPN_CEIL_IN_FRAC frac).setSpn b { s.spn[b] with stale := false, relayAt := s.clock })
    ∧ (s.has (spnA b) F.SPN_CEIL_IN_RELAY_EN = false ∨ s.spn[b].stale = true → exec (.ceilStale b) s = .next s)
    ∧ (s.has (spnA b) F.SPN_CEIL_IN_RELAY_EN = true → s.spn[b].stale = false → exec (.ceilStale b) s = .next
        ((s.bump (spnA b) F.SPN_CNT3_CEIL_STALE).setSpn b { s.spn[b] with stale := true })))

/-- AxesMove (R293, R294, R296–R299, R301, R303–R307): a tick of a motion towards a target, towards a velocity or towards
rest changes the acceleration by at most a tick of the jerk and never takes it past its limit; a body at rest on its target
stays. Second: MOVE, STOP, RESUME, HOME and CLR_FAULT of an axis act in the states of R296, and are refused, with the
register's flag, the count and the code, where a rule refuses them; a disabled axis stops and keeps nothing; modes past
FOLLOW change nothing; after the holdover there is no tick. -/
def Obligations.AxesMove : Prop :=
  (∀ (l : Limits) (t w : Rat) (k : Kin), 0 < l.a → 0 < l.j → |k.a| ≤ l.a →
    let fits (q : Kin) : Prop := |q.a| ≤ l.a ∧ |q.a - k.a| ≤ l.j * tick
    fits (stepTo l t k) ∧ fits (stepVel l w k) ∧ fits (stepStop l k)
    ∧ (k.v = 0 → k.a = 0 → stepStop l k = k ∧ (k.p = t → stepTo l t k = k)))
  ∧ (∀ (d : Die) (n : Fin 8) (w : Word) (s : State),
    let x := s.axp[d].axes[n]
    let a := axpA d
    let t := axTarget s d n
    let on := axEnabled s d n = true
    let homed := s.has a F.AXP_An_HOMECFG_HOME_EN n = true → x.homed = true
    let refused (r : AxRefuse) : State :=
      ((s.put a F.AXP_An_STATUS_REFUSED 1 n).bump a F.AXP_An_CNT_REFUSALS n).setAxis d n { x with refuse := some r }
    let ctl := ((s.put a F.AXP_An_CTL_ENABLE (F.AXP_An_CTL_ENABLE.of w) n).put a F.AXP_An_CTL_DIR_INV
      (F.AXP_An_CTL_DIR_INV.of w) n).put a F.AXP_An_CTL_MODE (F.AXP_An_CTL_MODE.of w) n
    (s.axp[d].dead = true → d ≠ 1 → exec (.profileTick d) s = .next s)
    ∧ (s.axp[d].dead = false → d ≠ 1 → Completes (.profileTick d) s fun u =>
        (∀ e, e ≠ d → u.axp[e] = s.axp[e]) ∧ u.dies = s.dies ∧ u.trn = s.trn ∧ u.yrd = s.yrd)
    ∧ (¬ on → exec (.axpMove d n) s = .next (refused .disabled) ∧ exec (.axpResume d n) s = .next (refused .disabled)
        ∧ exec (.axpHome d n) s = .next (refused .disabled))
    ∧ (on → groupOf s d n ≠ none → exec (.axpMove d n) s = .next (refused .busy)
        ∧ exec (.axpResume d n) s = .next (refused .busy) ∧ exec (.axpHome d n) s = .next (refused .busy)
        ∧ exec (.axpStop d n) s = .next (refused .busy) ∧ exec (.axpClrFault d n) s = .next (refused .busy))
    ∧ (on → groupOf s d n = none → ¬ homed → exec (.axpMove d n) s = .next (refused .notHomed)
        ∧ exec (.axpResume d n) s = .next (refused .notHomed))
    ∧ (on → groupOf s d n = none → homed → t < axSoftMin s d n ∨ axSoftMax s d n < t →
        exec (.axpMove d n) s = .next (refused .targetUnreachable))
    ∧ (moveRefusal s d n t = none →
        (x.st = .idle ∨ x.st = .kept ∨ x.st = .moving → exec (.axpMove d n) s = .next
          (s.setAxis d n { x with st := .moving, target := t, after := none, kept := 0, fault := none }))
        ∧ (x.st = .stopping → exec (.axpMove d n) s = .next (s.setAxis d n { x with target := t, after := some .move }))
        ∧ (x.st = .follow → exec (.axpMove d n) s = .next ((s.put a F.AXP_An_CTL_MODE 0 n).setAxis d n { x with
          st := .moving, target := t, after := none, atSoft := false }))
        ∧ (x.st = .homing ∨ x.st = .fault → exec (.axpMove d n) s = .next (refused .busy)))
    ∧ (groupOf s d n = none →
        (x.st = .moving → exec (.axpStop d n) s = .next (s.setAxis d n { x with st := .stopping, after := some .keep }))
        ∧ (x.st = .homing → exec (.axpStop d n) s = .next
          (s.setAxis d n { x with homed := false, hphase := none, st := .stopping, after := some .drop }))
        ∧ (x.st = .follow → exec (.axpStop d n) s = .next (s.setAxis d n { x with st := .stopping, after := some .drop }))
        ∧ (x.st = .idle ∨ x.st = .kept → Completes (.axpStop d n) s (· = s.setAxis d n x)))
    ∧ (on → groupOf s d n = none → homed →
        (x.st = .kept → towardsLimit s d n x.kept = false → exec (.axpResume d n) s = .next
          (s.setAxis d n { x with st := .moving, target := x.kept, after := none }))
        ∧ (x.st = .kept → towardsLimit s d n x.kept = true → exec (.axpResume d n) s = .next (refused .limit))
        ∧ (x.st = .idle ∨ x.st = .moving ∨ x.st = .stopping → exec (.axpResume d n) s = .next (refused .nothingKept)))
    ∧ (on → groupOf s d n = none → x.st = .idle ∨ x.st = .kept → Completes (.axpHome d n) s fun u =>
        u = { s with axp := u.axp } ∧ (∀ e, e ≠ d → u.axp[e] = s.axp[e])
        ∧ u.axp[d].axes[n] = { x with
            st := .homing, homed := false, reversed := false, htrips := 0, kept := 0, hstart := x.p, hback := none, after := none
            hphase := some (if swOn s d (homeSwitch d n) then .release else .search) })
    ∧ (groupOf s d n = none → (x.st ≠ .fault → exec (.axpClrFault d n) s = .next s)
        ∧ (x.st = .fault → x.fault ≠ some .switchChatter ∨ chatterQuiet s d n = true → exec (.axpClrFault d n) s = .next
          (s.setAxis d n { x with st := .idle, fault := none, hphase := none })))
    ∧ (2 ≤ F.AXP_An_CTL_MODE.of w → exec (.axpCtlWrite d n w) s = .next s)
    ∧ (F.AXP_An_CTL_MODE.of w < 2 → F.AXP_An_CTL_ENABLE.of w = 0 → on → groupOf s d n = none →
        Completes (.axpCtlWrite d n w) s fun u => u = { ctl with axp := u.axp } ∧ (∀ e, e ≠ d → u.axp[e] = s.axp[e])
          ∧ u.axp[d].axes[n] = { x with
              st := .idle, hphase := none, kept := 0, atSoft := false, after := if x.v = 0 ∧ x.a = 0 then none else some .drop })
    ∧ (F.AXP_An_CTL_MODE.of w = 1 → F.AXP_An_CTL_ENABLE.of w = 1 → x.st = .idle ∨ x.st = .moving →
        exec (.axpCtlWrite d n w) s = .next
          (ctl.setAxis d n { x with st := .follow, after := none, kept := 0, atSoft := false, softDir := 0 })))

/-- GroupsAndSwitches (R300–R306): a group's MOVE is refused for a member that may not move, waits where the group moves, and
otherwise starts a straight line of the longest distance; STOP and RESUME act on the whole path; the first raw edge towards a
new level latches the position, later ones keep it, and a confirmed change takes the latched position into CAPTURE. -/
def Obligations.GroupsAndSwitches : Prop :=
  ∀ (d : Die) (g : Fin 4) (k : Fin 12) (active : Bool) (s : State),
    let x := s.axp[d].groups[g]
    let y := s.axp[d].sw[k]
    let n := switchAxis d k
    let refused (r : AxRefuse) : State := (s.put (axpA d) F.AXP_GRPg_STATUS_REFUSED 1 g).setGrp d g { x with refuse := some r }
    (s.has (axpA d) F.AXP_GRPg_CFG_ENABLE g = false → exec (.grpMove d g) s = .next (refused .disabled)
      ∧ exec (.grpResume d g) s = .next (refused .disabled))
    ∧ (∀ r, grpRefusal s d g = some r → exec (.grpMove d g) s = .next (refused r))
    ∧ (s.has (axpA d) F.AXP_GRPg_CFG_ENABLE g = true → ∀ m ∈ grpMembers s d g, axEnabled s d m = false ∨
        axTarget s d m < axSoftMin s d m ∨ axSoftMax s d m < axTarget s d m → ∃ r, exec (.grpMove d g) s = .next (refused r))
    ∧ (grpRefusal s d g = none →
        (x.st = .moving ∨ x.st = .stopping → exec (.grpMove d g) s = .next (s.setGrp d g { x with st := .stopping, again := true }))
        ∧ (x.st = .idle ∨ x.st = .kept → Completes (.grpMove d g) s fun t =>
          t = { s with axp := t.axp } ∧ (∀ e, e ≠ d → t.axp[e] = s.axp[e]) ∧ (∀ h, h ≠ g → t.axp[d].groups[h] = s.axp[d].groups[h])
          ∧ t.axp[d].groups[g].s = 0
          ∧ (∀ m ∈ grpMembers s d g, t.axp[d].groups[g].delta[m] = axTarget s d m - s.axp[d].axes[m].pos
              ∧ (t.axp[d].groups[g].delta[m]).natAbs ≤ t.axp[d].groups[g].len)
          ∧ (t.axp[d].groups[g].len ≠ 0 → t.axp[d].groups[g].st = .moving ∧ ∀ m ∈ grpMembers s d g, t.axp[d].axes[m].st = .moving)))
    ∧ (x.st = .moving ∨ x.st = .stopping → exec (.grpStop d g) s = .next (s.setGrp d g { x with st := .stopping, again := false }))
    ∧ (x.st = .idle ∨ x.st = .kept → exec (.grpStop d g) s = .next s)
    ∧ (s.has (axpA d) F.AXP_GRPg_CFG_ENABLE g = true → x.st ≠ .kept → exec (.grpResume d g) s = .next (refused .nothingKept))
    ∧ (grpResumeRefusal s d g = none → Completes (.grpResume d g) s fun t =>
        t = { s with axp := t.axp } ∧ (∀ e, e ≠ d → t.axp[e] = s.axp[e]) ∧ t.axp[d].groups[g] = { x with st := .moving }
        ∧ ∀ m ∈ grpMembers s d g, t.axp[d].axes[m] = { s.axp[d].axes[m] with st := .moving })
    ∧ exec (.switchRawEdge d k active) s = .next (s.setSwitch d k { y with
        raw := active, lastRaw := some s.clock
        latch := if active = y.level ∨ y.latch ≠ none then y.latch else some s.axp[d].axes[n].pos })
    ∧ (d ≠ 1 → y.raw = y.level → exec (.switchConfirm d k) s = .next s)
    ∧ (d ≠ 1 → y.raw ≠ y.level → Completes (.switchConfirm d k) s fun t =>
        (∀ e, e ≠ d → t.axp[e] = s.axp[e]) ∧ t.axp[d].sw[k].level = y.raw ∧ t.axp[d].sw[k].latch = none
        ∧ (∀ h, h ≠ k → t.axp[d].sw[h] = s.axp[d].sw[h])
        ∧ ((s.axp[d].axes[n]).st ≠ .homing → t.axp[d].axes[n].capture = y.latch.getD s.axp[d].axes[n].pos))

/-- YarderWork (R308, R310, R313–R317, R322): the steps of a transfer go on only in a transfer; a grip without a disc is put
away; the door's opening stops every axis, counts and holds the yarder once, its settling takes the yarder back to what it
did, and its timeout ends the transfer's item alone; a scan replaces what the map held of its unit; the power-up sequence
homes G first unless a disc is held, and not in the safe state; ENABLE and AUTO_INV take what is written. -/
def Obligations.YarderWork : Prop :=
  ∀ (seen : List Nat) (w : Word) (s : State),
    let y := s.yrd
    let free := s.axp[(1 : Die)].axes[axG]
    (y.state ≠ .transfer → exec .transferStepDone s = .next s)
    ∧ (∀ m j n, y.state = .transfer → y.away = none → y.motion = some m → y.job = some j → motionDone s m j = true →
        m ≠ .comp → m ≠ .openQ → m.next = some n → exec .transferStepDone s = .next (s.startMotion n))
    ∧ (∀ j, y.state = .transfer → y.away = none → y.motion = some .parkQ → y.job = some j → motionDone s .parkQ j = true →
        exec .transferStepDone s = .next (s.transferEnd 0 .done).yrdIdle)
    ∧ (¬(y.state = .transfer ∧ y.motion = some .comp ∧ headDisc s = false) → exec .headDiscTimeout s = .next s)
    ∧ (y.state = .transfer → y.motion = some .comp → headDisc s = false → Completes .headDiscTimeout s fun t =>
        t = { s with yrd := t.yrd, regs := t.regs, staged := t.staged, axp := t.axp }
        ∧ t.yrd = { y with gripping := false, away := some (.gripHome 2), motion := none }
        ∧ t.axp[(1 : Die)].axes[axG].st = .homing)
    ∧ (y.door = true → exec .yrdDoorOpen s = .next s)
    ∧ (y.door = false → Completes .yrdDoorOpen s fun t =>
        t = { s.bump yrdA F.YRD_CNT_DOOR_OPENS with yrd := t.yrd, axp := t.axp, ports := t.ports }
        ∧ t.yrd = { y with door := true, before := y.state, state := .doorHold } ∧ ∀ e : Die, e ≠ 1 → t.axp[e] = s.axp[e])
    ∧ (y.state ≠ .doorHold → exec .doorSettled s = .next s)
    ∧ (y.state = .doorHold → y.before = .fault → y.orphan = false → exec .doorSettled s = .next (s.setYrd { y with
        door := false, cycled := true, state := .fault, invDue := y.invDue || s.has yrdA F.YRD_CTL_AUTO_INV }))
    ∧ (y.state = .doorHold → y.before = .idle → exec .doorSettled s = .next (s.setYrd { y with
        door := false, cycled := true, state := .idle, invDue := y.invDue || s.has yrdA F.YRD_CTL_AUTO_INV }).yrdIdle)
    ∧ (¬(y.state = .doorHold ∧ y.before = .transfer ∧ y.timedOut = false ∧ y.job ≠ none) → exec .doorTimeout s = .next s)
    ∧ (∀ j, y.state = .doorHold → y.before = .transfer → y.timedOut = false → y.job = some j → Completes .doorTimeout s fun t =>
        t = { s with yrd := t.yrd, dies := t.dies, ports := t.ports }
        ∧ t.yrd = { y with last := (j.src, j.dst, 4), timedOut := true, job := some { j with item := none } })
    ∧ (y.state ≠ .idle → y.state ≠ .fault → exec .inventory s = .next (s.setYrd { y with invDue := true }))
    ∧ (y.state = .fault → y.cycled = false → exec .inventory s = .next (s.setYrd { y with invDue := true }))
    ∧ (y.state ≠ .inventory ∨ y.scanning = none → exec (.deckScanned seen) s = .next s)
    ∧ (∀ k, y.state = .inventory → y.scanning = some k → exec (.deckScanned seen) s = .next (s.setYrd { y with
        occupied := scanned y k (seen.filter fun c => placeDeck c = some k), unscanned := y.unscanned.filter (· ≠ k)
        scanning := none }).yrdIdle)
    ∧ (∀ k c, c ∈ scanned y k (seen.filter fun c => placeDeck c = some k) ↔
        (placeDeck c = some k ∧ c ∈ seen) ∨ (placeDeck c ≠ some k ∧ c ∈ y.occupied))
    ∧ (s.dies[(1 : Die)].safe = true ∨ y.state = .transfer ∨ y.state = .homing ∨ y.door = true →
        exec .yarderPowerUpHoming s = .next s)
    ∧ (s.dies[(1 : Die)].safe = false → y.state = .idle ∨ y.state = .fault → y.door = false → headDisc s = false →
        axEnabled s 1 axG = true → groupOf s 1 axG = none → free.st = .idle → Completes .yarderPowerUpHoming s fun t =>
          t = { s with yrd := t.yrd, axp := t.axp } ∧ t.axp[(1 : Die)].axes[axG].st = .homing
          ∧ t.yrd = { y with state := .homing, orphan := false, holding := false, homeLeft := [axG, axT, axZ, axX]
                             motion := none, job := none })
    ∧ exec (.yrdCtlWrite w) s = .next
        ((s.put yrdA F.YRD_CTL_ENABLE (F.YRD_CTL_ENABLE.of w)).put yrdA F.YRD_CTL_AUTO_INV (F.YRD_CTL_AUTO_INV.of w)).yrdNext

/-- CruiseCalibration (R323–R335, R337, R339, R343): a trigger pends once; a temperature that has moved raises TEMP; a run
starts only when R327 allows it on its bay, takes what pends, latches both references and borrows its first spot; a run that
waits too long is reported once; a release waits for the spot's commits; a first tap reading is kept; an abort returns the
references and ends the bay's calibrations. Second: a point with too few bits is repeated four times and then fails the
attempt; four points of a scan are kept, and the fifth gives the fitted place, or fails; a second measurement that agrees
becomes the item's result with the mean of both, and any other counts a failed attempt; the dark phase at mount is skipped
once the focus loop is on; the bay's figures are renewed with a new sequence number, and read no pips while tracking is not
locked. -/
def Obligations.CruiseCalibration : Prop :=
  (∀ (b : Bay) (s : State),
    let x := s.cru[b]
    let a := cruA b
    let topt := s.geti (bayAt .sfe b) F.SFE_TEMP_TEMP
    let tdie := s.dies[dieOfBay b].temp
    let delta : Int := s.get a F.CRU_CFG_CRU_DELTA
    let pend (t : CruTrigger) : State := s.setCru b { x with
      pending := x.pending ++ [(t, s.clock)], state := if x.run = none then .wait else x.state }
    (x.pending.any (·.1 = .now) = true → exec (.cruNow b) s = .next s)
    ∧ (x.pending.any (·.1 = .now) = false → exec (.cruNow b) s = .next (pend .now))
    ∧ (|topt - s.geti a F.CRU_TEMPREF_TOPT_REF| ≤ delta → |tdie - s.geti a F.CRU_TEMPREF_TDIE_REF| ≤ delta →
        exec (.cruTempCheck b) s = .next s)
    ∧ (delta < |topt - s.geti a F.CRU_TEMPREF_TOPT_REF| ∨ delta < |tdie - s.geti a F.CRU_TEMPREF_TDIE_REF| →
        (s.has a F.CRU_CTL_AUTO = true → x.pending.any (·.1 = .temp) = false → exec (.cruTempCheck b) s = .next (pend .temp))
        ∧ (s.has a F.CRU_CTL_AUTO = false → exec (.cruTempCheck b) s = .next s))
    ∧ (cruMayStart s b = false ∨ cruFirst s b = false ∨ (x.run = none ∧ x.pending = []) → exec (.cruRunStart b) s = .next s)
    ∧ (cruMayStart s b = true → s.has a F.CRU_CTL_ENABLE = true ∧ s.mounted b = true ∧ s.osv[b].f = .locked ∧ s.osv[b].t = .locked
        ∧ s.recp[b].state = .idle ∧ s.lat[b].retry = false ∧ s.osv[b].move = none
        ∧ ∀ o, otherBay b = some o → s.cru[o].borrowed = none)
    ∧ (cruMayStart s b = true → cruFirst s b = true → x.run = none → x.pending ≠ [] → s.isWaiting (.cruCruise b) = false →
        ∀ i k rest, cruPlan s b (x.pending.map (·.1)) = .item i k :: rest → i ≠ .taps → Completes (.cruRunStart b) s fun t =>
          t = { s with cru := t.cru, regs := t.regs, sfe := t.sfe } ∧ (∀ c, c ≠ b → t.cru[c] = s.cru[c])
          ∧ t.cru[b].pending = [] ∧ t.cru[b].starved = false ∧ t.cru[b].borrowed = some k
          ∧ ∃ r, t.cru[b].run = some r ∧ r.layer = s.osv[b].layer ∧ r.todo = .item i k :: rest ∧ r.items = x.items ∧ r.attempt = 1
              ∧ r.prev = (s.geti a F.CRU_TEMPREF_TOPT_REF, s.geti a F.CRU_TEMPREF_TDIE_REF))
    ∧ (x.pending = [] ∨ x.starved = true → exec (.cruStarved b) s = .next s)
    ∧ (x.pending ≠ [] → x.starved = false → exec (.cruStarved b) s = .next
        (((s.setCru b { x with starved := true }).bump a F.CRU_CNT2_STARVATIONS).raiseBay b 0x0803 0 0xFFFF 0 0))
    ∧ (∀ r k rest, x.run = some r → r.todo = .release k :: rest → x.borrowed ≠ some k ∨ s.isWaiting (.cruReadPower b) = true →
        exec (.cruSpotRelease b) s = .next s)
    ∧ (∀ r k rest, x.run = some r → r.todo = .release k :: rest → x.borrowed = some k → s.isWaiting (.cruReadPower b) = false →
        s.isWaiting (.sfeTrim b) = false → exec (.cruSpotRelease b) s = .next ((s.cruReturn b).cruAdvance b))
    ∧ (x.run = none → exec (.cruSpotRelease b) s = .next s ∧ exec (.cruTapSnapshot b) s = .next s)
    ∧ (∀ r rest, x.run = some r → r.todo = .snapshot :: rest → r.snap = none → x.state ≠ .paused →
        exec (.cruTapSnapshot b) s = .next (s.setCru b { x with run := some { r with snap := some (tapReading s b) } }))
    ∧ (∀ r, x.run = some r → x.items = [] → r.items = [] → x.borrowed = none → exec (.cruRunAbort b) s = .next
        ((((s.put a F.CRU_TEMPREF_TOPT_REF (ofSigned 16 r.prev.1)).put a F.CRU_TEMPREF_TDIE_REF (ofSigned 16 r.prev.2)).bump a
          F.CRU_CNT2_ABORTS).setCru b { x with state := .idle, pending := [], run := none, starved := false }))
    ∧ (x.run = none → x.items = [] → x.borrowed = none → exec (.cruRunAbort b) s = .next
        (s.setCru b { x with state := .idle, pending := [], starved := false })))
  ∧ (∀ (b : Bay) (m : CruMeasured) (dark : List (Vector DarkMeans 7 × Vector DarkMeans 7)) (s : State),
    let x := s.cru[b]
    let a := cruA b
    (x.run = none ∨ x.borrowed = none → exec (.cruPointMeasured b m) s = .next s)
    ∧ (∀ r i k rest, x.run = some r → x.borrowed ≠ none → r.todo = .item i k :: rest →
        (r.repeats < 4 → exec (.cruPointMeasured b .tooFew) s = .next
          (s.setCru b { x with run := some { r with repeats := r.repeats + 1 } }))
        ∧ (4 ≤ r.repeats → r.attempt < 4 → exec (.cruPointMeasured b .tooFew) s = .next
          ((s.bump a F.CRU_CNT2_ATTEMPTS_FAILED).setCru b { x with
            cause := some .noData
            run := some { r with attempt := r.attempt + 1, first := none, points := [], centre := 0, repeats := 0 } }))
        ∧ (∀ j, i = .focus ∨ i = .sa ∨ i = .tilt ∨ i = .rpwr → r.points.length < 4 →
          exec (.cruPointMeasured b (.jitter j)) s = .next
            (s.setCru b { x with run := some { r with points := r.points ++ [j], repeats := 0 } }))
        ∧ (∀ j q, i = .focus ∨ i = .sa ∨ i = .tilt ∨ i = .rpwr → 4 ≤ r.points.length → cruFit (r.points ++ [j]) = some q →
          r.first = none → exec (.cruPointMeasured b (.jitter j)) s = .next (s.setCru b { x with run := some { r with
            first := some [(cruScan s b r.layer i k).1 + (q + r.centre) * (cruScan s b r.layer i k).2]
            points := [], centre := 0, repeats := 0 } }))
        ∧ (∀ j, i = .focus ∨ i = .sa ∨ i = .tilt ∨ i = .rpwr → 4 ≤ r.points.length → cruFit (r.points ++ [j]) = none →
          r.attempt < 4 → exec (.cruPointMeasured b (.jitter j)) s = .next ((s.bump a F.CRU_CNT2_ATTEMPTS_FAILED).setCru b { x with
            cause := some .fit
            run := some { r with attempt := r.attempt + 1, first := none, points := [], repeats := 0
                                 centre := r.centre + cruLowest (r.points ++ [j]) } }))
        ∧ (∀ v u, i = .asym → r.first = some u → cruAgree .asym u [v] = true → exec (.cruPointMeasured b (.median v)) s = .next
          ((s.cruTake b r.layer .asym k ((u.zip [v]).map fun p => (p.1 + p.2) / 2)).cruAdvance b))
        ∧ (∀ v u, i = .asym → r.first = some u → cruAgree .asym u [v] = false → r.attempt < 4 →
          exec (.cruPointMeasured b (.median v)) s = .next ((s.bump a F.CRU_CNT2_ATTEMPTS_FAILED).setCru b { x with
            cause := some .disagree
            run := some { r with attempt := r.attempt + 1, first := none, points := [], centre := 0, repeats := 0 } })))
    ∧ (∀ j0 j1 j2 j3 j4 q : Rat, cruFit [j0, j1, j2, j3, j4] = some q → |q| ≤ 5 / 2
        ∧ 2 * ((2 * j0 - j1 - 2 * j2 - j3 + 2 * j4) / 14) * q + (2 * j4 + j3 - j1 - 2 * j0) / 10 = 0)
    ∧ (s.has (bayAt .osv b) F.TRN_OSV_CTL_FOC_EN = true ∨ s.has a F.CRU_CTL_ENABLE = false ∨ cruEnabled s b .adc = false →
        exec (.mountDarkPhase b dark) s = .next s)
    ∧ (s.has (bayAt .osv b) F.TRN_OSV_CTL_FOC_EN = false → s.has a F.CRU_CTL_ENABLE = true → cruEnabled s b .adc = true →
        Completes (.mountDarkPhase b dark) s fun t =>
          t = { s with cru := t.cru, regs := t.regs, staged := t.staged, waiting := t.waiting, groups := t.groups, ports := t.ports }
          ∧ ∀ c, c ≠ b → t.cru[c] = s.cru[c])
    ∧ Completes (.cruQualityUpdate b) s fun t =>
        t = { s with cru := t.cru, regs := t.regs, free := t.free } ∧ t.cru[b] = { x with teSq := 0, teN := 0 }
        ∧ (∀ c, c ≠ b → t.cru[c] = s.cru[c]) ∧ (s.osv[b].t ≠ .locked → t.get a F.CRU_BAY_Q_PIPS = 0)
        ∧ t.get a F.CRU_BAY_Q_SEQ = (s.get a F.CRU_BAY_Q_SEQ + 1) % 256
        ∧ (s.osv[b].t = .locked → ∀ k : Fin 7, x.borrowed ≠ some k → t.get a F.CRU_BAY_Q_PIPS ≤ s.get a F.CRU_SPOTk_Q_PIPS k))

/-- FillsAndHandOvers (R352, R354, R359, R386): the time of a fill ends a miss register that waits for its item, and no
other: it counts, is reported with the slot and first LBA, raises source 42, and its waiters fail with MECHANISM_FAULT; a
hand-over acts on DIRTY entries alone, and one whose words read good becomes RECORDING with every board present, absent ones
zero, the boards there unchanged; a line with an uncorrectable word is lost and reported; with nothing that waits a retry
does nothing. -/
def Obligations.FillsAndHandOvers : Prop :=
  ∀ (id e : Nat) (s : State),
    let l := s.line e
    let o := s.handOver e
    (s.miss id = none → exec (.fillTimeout id) s = .next s)
    ∧ (∀ m, s.miss id = some m → m.closing = true ∨ m.item = none → exec (.fillTimeout id) s = .next s)
    ∧ (∀ m, s.miss id = some m → m.closing = false → m.item ≠ none → exec (.fillTimeout id) s = .next
        ((((s.bump (hubAt .lnd) F.LND_CNT2_FILL_TIMEOUTS).raiseHub 0x0A01 0 m.slot (16 * m.log)).irq 42).abandonFill m stFault).settle)
    ∧ (l.st ≠ .dirty → exec (.dirtyHandOver e []) s = .next s)
    ∧ (l.st = .dirty → s.miu.flips = [] → Memory.wf s.mem = true → exec (.dirtyHandOver e []) s = .next o.1.settle
        ∧ o.2 = true ∧ o.1.line e = { l with st := .recording, boards := 0xFFFF }
        ∧ (∀ i k, i < 16 → k < 4096 → cellGet o.1.mem (landingAt + entryAt e i + k) =
            if bitOf l.boards i then cellGet s.mem (landingAt + entryAt e i + k) else 0)
        ∧ (∀ a, a < landingAt + 65536 * e ∨ landingAt + 65536 * (e + 1) ≤ a → cellGet o.1.mem a = cellGet s.mem a)
        ∧ o.1 = { s with mem := o.1.mem, lnd := { s.lnd with tags := o.1.lnd.tags } })
    ∧ (l.st = .dirty → (s.checkRange 0 (entryAt e 0) 65536 0).2 ≠ [] → o.2 = false)
    ∧ (s.lnd.misses = [] → s.lnd.room = [] → s.lnd.parked = [] → exec .requestRetry s = .next s.settle)
    ∧ (s.fieldReady = false → s.lnd.range = none → s.settle = s)

/-- RangeEngine (R361, R368–R371): a START while an operation runs is ignored and sets ERR_BUSY; a refused one keeps the
parameters and sets ERR_ARG; an accepted one clears the summaries and walks the lines of its range; INVALIDATE passes by a
reserved entry, counts what it must not touch, and empties a CLEAN line, a locked one only with FORCE and keeping its lock;
UNLOCK clears LOCK; an operation with nothing left to do ends with DONE; ABORT ends it and sets ABORTED; nothing else
follows. -/
def Obligations.RangeEngine : Prop :=
  ∀ (force : Bool) (cls slots : Nat) (s : State),
    let a := hubAt .lnd
    let s1 := ((s.put a F.LND_RANGE_CTL_FORCE (b2n force)).put a F.LND_RANGE_CTL_CLASS cls).put a F.LND_RANGE_CTL_SLOTS slots
    let o (k : RangeKind) : RangeOp := { kind := k, slot := s.get a F.LND_RANGE_SLOT_SLOT, slots, lba := s.get a F.LND_RANGE_LBA_LBA
                                         count := s.get a F.LND_RANGE_COUNT_COUNT, cls, force }
    let runs (c : Instr) (k : RangeKind) : Prop :=
      (s.lnd.range ≠ none → exec c s = .next (s.put a F.LND_RANGE_STATUS_ERR_BUSY 1))
      ∧ (s.lnd.range = none → 4096 < (o k).slot + slots ∨ 302080000 < (o k).lba + (o k).count
            ∨ (s.has a F.LND_CTRL_ENABLE = false ∧ (k = .preload ∨ k = .preloadLock)) →
          exec c s = .next ((s1.put a F.LND_RANGE_CTL_OP k.code).put a F.LND_RANGE_STATUS_ERR_ARG 1))
      ∧ (s.lnd.range = none → (o k).slot + slots ≤ 4096 → (o k).lba + (o k).count ≤ 302080000 →
            s.has a F.LND_CTRL_ENABLE = true ∨ (k ≠ .preload ∧ k ≠ .preloadLock) →
          exec c s = .next ((s1.put a F.LND_RANGE_CTL_OP k.code).startRange (o k)))
    let ended (t : State) : Prop := s.lnd.queue = [] → (∀ x, s.lnd.range = some x → x.op.cmd = none) →
      s.fieldReady = false → t.lnd.range = none ∧ t.lnd.tags = s.lnd.tags ∧ t.mem = s.mem ∧ t.has a F.LND_RANGE_STATUS_DONE = true
    runs (.lndRangeInvalidate force cls slots) .invalidate ∧ runs (.lndRangePreload force cls slots) .preload
    ∧ runs (.lndRangePreloadLock force cls slots) .preloadLock ∧ runs (.lndRangeUnlock force cls slots) .unlock
    ∧ runs (.lndRangeClean force cls slots) .clean ∧ runs (.lndRangeScrub force cls slots) .scrub
    ∧ (∀ e, let l := s.line e
        let inv := invalidateEntry force s (e, l)
        (l.st = .invalid → inv = s)
        ∧ (l.st = .dirty ∨ l.st = .recording → inv = s.bump a F.LND_RANGE_SUM1_SKIP_DIRTY)
        ∧ (l.st = .filling ∨ l.st = .evicting → inv = s.bump a F.LND_RANGE_SUM2_SKIP_BUSY)
        ∧ (l.st = .clean → l.lock = true → force = false → inv = s.bump a F.LND_RANGE_SUM1_SKIP_LOCKED)
        ∧ (l.st = .clean → l.lock = true → force = true → inv.line e = { slot := l.slot, log := l.log, lock := true }
            ∧ inv.get a F.LND_RANGE_SUM3_FORCED_LOCKED = min (s.get a F.LND_RANGE_SUM3_FORCED_LOCKED + 1) 65535)
        ∧ (l.st = .clean → l.lock = false → inv.line e = {}
            ∧ inv.get a F.LND_RANGE_SUM0_LINES_DONE = min (s.get a F.LND_RANGE_SUM0_LINES_DONE + 1) (2 ^ 32 - 1))
        ∧ (unlockEntry s (e, l)).line e = (if l.st = .invalid ∧ l.lock = true then {} else { l with lock := false })
        ∧ ∀ e', e' ≠ e → inv.line e' = s.line e' ∧ (unlockEntry s (e, l)).line e' = s.line e')
    ∧ (s.lnd.range = none → exec .lndRangeAbort s = .next s ∧ exec .lndRangeDone s = .next s)
    ∧ (s.lnd.range ≠ none → Completes .lndRangeAbort s fun t =>
        t = ((s.put a F.LND_RANGE_STATUS_ABORTED 1).endRange).settle ∧ (ended t ∧ (s.lnd.queue = [] →
          (∀ x, s.lnd.range = some x → x.op.cmd = none) → s.fieldReady = false → t.has a F.LND_RANGE_STATUS_ABORTED = true)))
    ∧ (∀ x, s.lnd.range = some x →
        let more := x.lines ≠ [] ∨ ((x.op.kind = .preload ∨ x.op.kind = .preloadLock) ∧ x.next < x.op.logs * x.op.slots)
        (more → exec .lndRangeDone s = .next s)
        ∧ (¬more → Completes .lndRangeDone s fun t => t = s.endRange.settle ∧ ended t))

/-- LandingRegisters (R362–R364, R366, R367, R372, R375): ENABLE cannot be set before READY; a value outside a field's range,
or one that would leave a set fewer than four ordinary ways, or retire a way with a locked entry, is ignored and sets
CFG_ERR; retired ways drop their INVALID and CLEAN entries at once and keep the others; RETIRE bits of window ways ignore
writes. Second: a request that comes while a commit waits is held; one served in the window reads the bytes of its place, or
stores its data there and nowhere else; one outside the window, or to no window, is refused whole, counted, and recorded with
its offset and requester; the commit point acts only while a commit waits, and then serves what was held. -/
def Obligations.LandingRegisters : Prop :=
  (∀ (en limits : Bool) (w : Word) (s : State),
    let a := hubAt .lnd
    let err := s.put a F.LND_STATUS_CFG_ERR 1
    let win := s.get a F.LND_WIN_WAYS_WAYS
    let old := s.get a F.LND_WAY_RETIRE_RETIRE
    let n := (waysOf win).length
    let new := (waysOf win).foldl (fun r k => putBit r k false) (F.LND_WAY_RETIRE_RETIRE.of w)
    let locked := ∃ e ∈ s.lnd.tags, e.2.lock = true ∧ bitOf new (e.1 % 16) = true ∧ bitOf old (e.1 % 16) = false
    let cfg := ((((s.put a F.LND_CFG_LOCK_MAX (F.LND_CFG_LOCK_MAX.of w)).put a F.LND_CFG_RES0 (F.LND_CFG_RES0.of w)).put a
      F.LND_CFG_PRELOAD_MSHR (F.LND_CFG_PRELOAD_MSHR.of w)).put a F.LND_CFG_FILL_TIMEOUT (F.LND_CFG_FILL_TIMEOUT.of w))
    let cfgOk := F.LND_CFG_LOCK_MAX.of w ≤ 12 ∧ 1 ≤ F.LND_CFG_PRELOAD_MSHR.of w ∧ 5 ≤ F.LND_CFG_FILL_TIMEOUT.of w
      ∧ F.LND_CFG_LOCK_MAX.of w + (waysOf (win ||| old)).length ≤ 12
    (s.has a F.LND_STATUS_READY = false → exec (.lndCtrlWrite true) s = .next s)
    ∧ (en = false ∨ s.has a F.LND_STATUS_READY = true →
        exec (.lndCtrlWrite en) s = .next (s.put a F.LND_CTRL_ENABLE (b2n en)).settle)
    ∧ (12 < s.get a F.LND_CFG_LOCK_MAX + n + (waysOf new).length ∨ locked → exec (.lndWayRetireWrite w) s = .next err)
    ∧ (s.get a F.LND_CFG_LOCK_MAX + n + (waysOf new).length ≤ 12 → ¬locked →
        let t := (s.put a F.LND_WAY_RETIRE_RETIRE new).retireSweep
        exec (.lndWayRetireWrite w) s = .next t.settle
        ∧ ((∀ x ∈ s.lnd.tags, s.line x.1 = x.2) → ∀ e, t.line e =
            if bitOf new (e % 16) ∧ ((s.line e).st = .invalid ∨ (s.line e).st = .clean) then {} else s.line e))
    ∧ (∀ k < 16, bitOf win k = true → bitOf new k = false)
    ∧ (cfgOk → exec (.lndCfgWrite false w) s = .next cfg.settle) ∧ (¬cfgOk → exec (.lndCfgWrite false w) s = .next err)
    ∧ (64 ≤ F.LND_LIMITS_DIRTY_MAX.of w →
        exec (.lndCfgWrite true w) s = .next (s.put a F.LND_LIMITS_DIRTY_MAX (F.LND_LIMITS_DIRTY_MAX.of w)).settle)
    ∧ (F.LND_LIMITS_DIRTY_MAX.of w < 64 → exec (.lndCfgWrite true w) s = .next err))
  ∧ (∀ (r : WinReq) (s : State),
    let a := hubAt .lnd
    let held := s.lnd.held
    (s.isWaiting .lndWindow = true →
      exec (.bar2Request r []) s = .next { s with lnd := { s.lnd with held := held ++ [r] } }
      ∧ exec .windowCommitPoint s = .next (held.foldl (fun (t : State) r => t.winServe r)
          { s.commitWindow with lnd := { s.commitWindow.lnd with held := [] } }).settle)
    ∧ (s.isWaiting .lndWindow = false → exec .windowCommitPoint s = .next s
      ∧ exec (.bar2Request r []) s = .next (s.winServe r)
      ∧ ((s.fn 0).d3 = false → r.poisoned = false → s.pwr.boot = .ready →
        (∀ p, s.windowAddr r.ofs r.len = some p → s.allowed 6 (landingAt + p) r.data.isSome = true → s.miu.flips = [] →
            Memory.wf s.mem = true → s.has (hubAt .miu) F.MIU_INJECT_ARM = false →
          (∀ bs, r.data = some bs → Completes (.bar2Request r []) s fun t =>
            t = { s with mem := t.mem }
            ∧ (∀ k (h : k < bs.length), cellGet t.mem (landingAt + p + k) = bs[k])
            ∧ ∀ q, q < landingAt + p ∨ landingAt + p + bs.length ≤ q → cellGet t.mem q = cellGet s.mem q)
          ∧ (r.data = none → Completes (.bar2Request r []) s fun t =>
            t = { s with ep := t.ep } ∧ t.ep.fns = s.ep.fns))
        ∧ (s.windowAddr r.ofs r.len = none → Completes (.bar2Request r []) s fun t =>
            t.mem = s.mem ∧ t.lnd = s.lnd
            ∧ t.get a F.LND_WIN_UR_UR_COUNT = min (s.get a F.LND_WIN_UR_UR_COUNT + 1) 65535
            ∧ t.get a F.LND_WIN_UR_LAST_RID = r.rid % 65536
            ∧ t.get a F.LND_WIN_UR_OFS_LO_OFS_LO = r.ofs % 2 ^ 32))))

/-- ErrorsCorrected (R381, R382): a class-A word whose syndrome is 0 is good, one whose syndrome is a column has that bit
mended, any other is uncorrectable, so that every single flipped bit is mended and every two are found; a class-B block is
judged by the rows and columns whose parity fails: none, it is good; one row and one column, their bit is mended; one row or
one column alone, its check bit is mended; any other pattern is uncorrectable, as are any two bad data bits. -/
def Obligations.ErrorsCorrected : Prop :=
  (∀ m : Nat,
    (syndrome m = 0 → checkA m = .good) ∧ (∀ i, i < 72 → syndrome m = column i → checkA m = .mended (2 ^ i))
    ∧ (syndrome m ≠ 0 → (∀ i, i < 72 → syndrome m ≠ column i) → checkA m = .bad))
  ∧ (∀ i, i < 72 → checkA (2 ^ i) = .mended (2 ^ i)) ∧ (∀ i j, i < j → j < 72 → checkA (2 ^ i + 2 ^ j) = .bad)
  ∧ (∀ m : Nat,
    let odd (p : Nat → Bool) (check : Nat) : Prop := ((Finset.range 8).filter (fun k => p k = true)).card % 2 ≠ (m.testBit check).toNat
    let row (r : Nat) : Prop := r < 8 ∧ odd (fun c => m.testBit (8 * r + c)) (64 + r)
    let col (c : Nat) : Prop := c < 8 ∧ odd (fun r => m.testBit (8 * r + c)) (72 + c)
    ((∀ r, ¬row r) → (∀ c, ¬col c) → checkB m = .good)
    ∧ (∀ r c, (∀ x, row x ↔ x = r) → (∀ x, col x ↔ x = c) → checkB m = .mended (2 ^ (8 * r + c)))
    ∧ (∀ r, (∀ x, row x ↔ x = r) → (∀ c, ¬col c) → checkB m = .mended (2 ^ (64 + r)))
    ∧ (∀ c, (∀ r, ¬row r) → (∀ x, col x ↔ x = c) → checkB m = .mended (2 ^ (72 + c)))
    ∧ (∀ x y, x ≠ y → (row x ∧ row y) ∨ (col x ∧ col y) → checkB m = .bad))
  ∧ ∀ i j, i < j → j < 64 → checkB (2 ^ i + 2 ^ j) = .bad

/-- Integrity (R383, R389–R391, R394): a patrol burst of memory that holds no error only moves on by 128 bytes, from the last
one back to 0 with the lap counted and timed; it does nothing while PATROL_EN or READY is 0; MIU_INJECT takes a write whose
bits lie within its target and refuses one that does not, ARM left as it was; and a corrected error changes no memory. -/
def Obligations.Integrity : Prop :=
  ∀ (w : Word) (s : State),
    let m := hubAt .miu
    let top := if F.MIU_INJECT_TARGET.of w = 1 then 63 else 71
    let on := s.has m F.MIU_CTL_PATROL_EN = true ∧ s.has (hubAt .lnd) F.LND_STATUS_READY = true
    let lap := (s.clock - s.miu.lapAt + 50000000) / 100000000
    (¬on → exec (.patrolBurst []) s = .next s)
    ∧ (on → s.miu.flips = [] → s.clock ≤ s.miu.lapAt + s.get m F.MIU_CTL_LAP_WARN * 60000000000 →
        (s.miu.pos + 128 < s.lndBytes → exec (.patrolBurst []) s = .next
          (({ s with miu := { s.miu with pos := s.miu.pos + 128 } } : State).put m F.MIU_PATROL_POS_POS ((s.miu.pos + 128) / 65536)))
        ∧ (s.lndBytes ≤ s.miu.pos + 128 → exec (.patrolBurst []) s = .next
          { ((s.put m F.MIU_LAP_TIME_LAP lap).bump m F.MIU_CNT_LAPS).put m F.MIU_PATROL_POS_POS 0 with
            miu := { s.miu with pos := 0, lapAt := s.clock, warned := false } }))
    ∧ (top < F.MIU_INJECT_F0.of w ∨ top < F.MIU_INJECT_F1.of w → exec (.miuInjectArm w) s = .next s)
    ∧ (F.MIU_INJECT_F0.of w ≤ top → F.MIU_INJECT_F1.of w ≤ top → exec (.miuInjectArm w) s = .next
        ((((((s.put m F.MIU_INJECT_ARM (F.MIU_INJECT_ARM.of w)).put m F.MIU_INJECT_TARGET (F.MIU_INJECT_TARGET.of w)).put m
          F.MIU_INJECT_F1_EN (F.MIU_INJECT_F1_EN.of w)).put m F.MIU_INJECT_F1 (F.MIU_INJECT_F1.of w)).put m
          F.MIU_INJECT_F0_EN (F.MIU_INJECT_F0_EN.of w)).put m F.MIU_INJECT_F0 (F.MIU_INJECT_F0.of w)))
    ∧ (∀ mem a n req, ((s.checkRange mem a n req).1).mem = s.mem ∧ ((s.checkRange mem a n req).1).miu.flips = s.miu.flips)

/-- Sessions (R398–R401): a check of a session gives SESSION_INVALID unless the context is OPEN, of the command's function
and before its EXPIRY, then NOT_PERMITTED unless its title, delivery mode and range allow it; a failure counts, a session
found too late becomes EXPIRED; rights are judged at the latest device time seen, which never goes back. Second: the last
step of a close frees a CLOSING context that no command counts on any more, its key with it, and it joins the free contexts
behind the others; on any other context it does nothing. -/
def Obligations.Sessions : Prop :=
  (∀ (s : State) (id f title off count : Nat) (mode : Option Nat),
    let T := max s.now s.vlk.hwm
    let r := s.checkSession id f title mode off count
    let refusals := min (s.get (hubAt .vlk) F.VLK_CNT1_REFUSALS + 1) 65535
    r.1.vlk.hwm = T
    ∧ (s.session id = none → r.2 = stSessionInvalid ∧ r.1.get (hubAt .vlk) F.VLK_CNT1_REFUSALS = refusals)
    ∧ ∀ x, s.session id = some x →
        let live := x.st = .opened ∧ x.func = f ∧ s.vlk.timeSet = true ∧ T < x.expiry
        let granted := x.title = title ∧ (∀ m, mode = some m → bitOf x.modes m = true) ∧ x.first ≤ off ∧ off + count - 1 ≤ x.last
        (live → granted → r.2 = stSuccess ∧ r.1 = { s with vlk := { s.vlk with hwm := T } })
        ∧ (live → ¬granted → r.2 = stNotPermitted ∧ r.1.session id = some { x with refused := x.refused + 1 })
        ∧ (¬live → r.2 = stSessionInvalid ∧ r.1.session id = some { x with
            refused := x.refused + 1, st := if x.st = .opened ∧ x.func = f then .expired else x.st })
        ∧ (¬(live ∧ granted) → r.1.get (hubAt .vlk) F.VLK_CNT1_REFUSALS = refusals))
  ∧ (∀ (id : Nat) (s : State),
    (s.session id = none → exec (.sessionCloseFinal id) s = .next s)
    ∧ (∀ x, s.session id = some x → x.st ≠ .closing ∨ (∃ c ∈ s.qen.cmds, c.sess = some id) →
        exec (.sessionCloseFinal id) s = .next s)
    ∧ (∀ x, s.session id = some x → x.st = .closing → s.qen.cmds = [] → exec (.sessionCloseFinal id) s = .next
        { s with vlk := { s.vlk with sessions := s.vlk.sessions.filter fun y => y.id ≠ id, freed := s.vlk.freed ++ [id] } })
    ∧ (∀ i, s.freeContext = some i → (s.vlk.fresh < 16384 → i = s.vlk.fresh) ∧ (16384 ≤ s.vlk.fresh → s.vlk.freed.head? = some i)))

/-- BoardsResolve (R422): a board resolves to a VALID extent that covers it, one on a mounted disc where there is one, and
among those the lowest slot; it resolves to none only when no VALID extent covers it. -/
def Obligations.BoardsResolve : Prop :=
  ∀ (s : State) (title board : Nat),
    let good (e : Extent) : Prop := e ∈ s.vlk.extents ∧ e.st = .valid ∧ e.title = title ∧ e.offset ≤ board ∧ board < e.offset + e.count
    (∀ e, s.resolve title board = some e → good e
      ∧ ∀ x, good x → (s.slotMounted x.slot = true → s.slotMounted e.slot = true)
        ∧ (s.slotMounted x.slot = s.slotMounted e.slot → e.slot ≤ x.slot))
    ∧ (s.resolve title board = none → ∀ x, ¬good x)

/-- MountsAndLookups (R68, R72, R412, R419, R423–R425, R531): the open cores' watchdog acts while OPEN_EN is 1; a bark with
512 features goes on to the system logs of a bay that mounts and is locked; a mount ends once its logs are read, well with a
generation of a version it knows; the rebuild and a lookup read the lowest stale slot in their order; a generation's copy
goes out once the disc's lines are recorded; nothing of these happens otherwise. -/
def Obligations.MountsAndLookups : Prop :=
  ∀ (k : Fin 2) (b : Bay) (slot id : Nat) (dataBlank : Bool) (features : List Int) (s : State),
    let v := s.vlk
    let open_ := s.has (hubAt .vlk) F.VLK_SANDBOX_OPEN_EN
    let free := s.has (hubAt .vlk) F.VLK_CTL_REBUILD_EN = true ∧ v.rebuild = none ∧ v.lookups = []
    let next := least (v.stale.filter fun n => !v.passed.contains n)
    let x := s.crew.bays[b]
    (open_ = false → exec (.openCoreWatchdog k) s = .next s)
    ∧ (open_ = true → Completes (.openCoreWatchdog k) s fun t =>
        t.vlk = { v with wdogAt := v.wdogAt.set k s.clock } ∧ t.lnd = s.lnd ∧ t.mem = s.mem
        ∧ (∀ e ∈ t.hic.serv, e ∈ s.hic.serv ∧ e.2 ≠ 6 + k.val)
        ∧ t.get (hubAt .hic) F.HIC_C_THRESHOLD_THRESHOLD (6 + k.val) = 0 ∧ t.get (hubAt .hic) F.HIC_C_RUNPRI_RUNPRI (6 + k.val) = 0)
    ∧ (s.osv[b].mount = none ∨ s.osv[b].f ≠ .locked ∨ features.length ≠ 512 ∨ s.lat[b].mount ≠ none →
        exec (.barkMeasured b features) s = .next s)
    ∧ (∀ i, s.osv[b].mount = some i → s.osv[b].f = .locked → features.length = 512 → s.lat[b].mount = none →
        Completes (.barkMeasured b features) s fun t =>
          t.lat[b].mount = some i ∧ t.recp[b].barkOk = true
          ∧ t.crew.bays[b].disc = x.disc.map fun d => { d with measured := some (barkNat (barkSignature features)) })
    ∧ (s.mountOf slot = none → exec (.mountComplete slot dataBlank) s = .next s)
    ∧ (∀ j, s.mountOf slot = some j → j.stage ≠ .read ∨ j.bay = none → exec (.mountComplete slot dataBlank) s = .next s)
    ∧ (∀ j, s.mountOf slot = some j → j.stage = .read → ∀ y, j.bay = some y → ∀ d, s.crew.bays[y].disc = some d →
        let r := s.discRead d dataBlank
        (∀ g, r.2.gen = some g → 1 < g.version / 256 → exec (.mountComplete slot dataBlank) s = .next (r.1.mountRefused j y).settle)
        ∧ ((∀ g, r.2.gen = some g → g.version / 256 ≤ 1) →
            exec (.mountComplete slot dataBlank) s = .next ((r.1.discTaken y r.2).mountEnded slot stSuccess).settle)
        ∧ (d.active = none → dataBlank = true → r.2.mounted = true ∧ r.2.gen = none ∧ r.2.drawn = some (s.freeVal % 2 ^ 64))
        ∧ (d.active = none → dataBlank = false → r.2.mounted = true ∧ r.2.orphan = true ∧ r.2.bark = none)
        ∧ (∀ g, d.active = some g → r.2.gen = some g ∧ r.2.bark = d.measured.bind fun m => barkRecover m g.helper))
    ∧ (¬free ∨ next = none → exec .backgroundDirectoryRead s = .next s)
    ∧ (∀ n, free → next = some n →
        (n ∈ v.stale ∧ n ∉ v.passed ∧ ∀ y ∈ v.stale, y ∉ v.passed → n ≤ y)
        ∧ (∀ d, s.mountedDisc n = some d → exec .backgroundDirectoryRead s = .next ((s.dirRead.readDirectory d).1).settle)
        ∧ (s.mountedDisc n = none → exec .backgroundDirectoryRead s = .next
            (({ s with vlk := { v with rebuild := some n } } : State).dirRead.wantMount n none 3 0 1023 .dir).settle))
    ∧ (s.cmd id = none ∨ v.lookups.find? (fun (k : Lookup) => k.cmd == id) = none → exec (.foregroundLookup id) s = .next s)
    ∧ (∀ k c, v.lookups.find? (fun (k : Lookup) => k.cmd == id) = some k → s.cmd id = some c →
        (k.at_ ≠ none → exec (.foregroundLookup id) s = .next s)
        ∧ (k.at_ = none → exec (.foregroundLookup id) s = .next (s.lookupStep k c).settle))
    ∧ (x.gens = [] ∨ x.disc = none → exec (.generationRecord b) s = .next s)
    ∧ (∀ g rest d, x.gens = g :: rest → x.disc = some d →
        (g.sent = true ∨ s.fieldReady = false ∨ s.slotDirty d.slot = true → exec (.generationRecord b) s = .next s)
        ∧ (g.sent = false → s.fieldReady = true → s.slotDirty d.slot = false →
          (∀ st, s.dieBlocked (dieOfBay b) = some st → exec (.generationRecord b) s = .next (s.genOver b g st).settle)
          ∧ (s.dieBlocked (dieOfBay b) = none → g.layers ≠ [] → Completes (.generationRecord b) s fun t =>
              t.crew.bays[b].gens = { g with sent := true } :: rest ∧ t.crew.items.length = s.crew.items.length + 1)))

/-- DoorbellsAndFetch (R435–R438): a part whose WR bit is 0 does nothing; a tail or head equal to or above the depth, a head
that would release entries not written, and any part of a queue that does not exist are refused: counted, the queue recorded,
the pointer unchanged; any other part takes the pointer and nothing else. Second: with no queue to fetch a fetch does
nothing; else the queue granted is one that waits: a management queue on every sixteenth fetch where one waits; else a
class-0 queue where one waits, another I/O queue where none does, and a management queue only when no I/O queue waits; the
fetch takes from one to FETCH_MAX entries, never across the ring's end nor past the tail, and the head moves past them. -/
def Obligations.DoorbellsAndFetch : Prop :=
  (∀ (f : Fin 64) (q v : Nat) (s : State),
    let a := funAt .qen f
    let refused (t : State) : Prop := t.qen = s.qen ∧ t.get a F.QEN_DB_ERR_COUNT = min (s.get a F.QEN_DB_ERR_COUNT + 1) 65535
      ∧ t.get a F.QEN_DB_ERR_LAST_Q = q % 1024 ∧ t.lnd = s.lnd ∧ t.ep.fns = s.ep.fns
    exec (.doorbellWrite f q none none) s = .next s
    ∧ (s.queue f q = none → Completes (.doorbellWrite f q (some v) none) s refused
        ∧ Completes (.doorbellWrite f q none (some v)) s refused)
    ∧ (∀ x, s.queue f q = some x →
        let away := ringSpan x.depth x.cqHead x.cqTail < ringSpan x.depth x.cqHead v
        (x.depth ≤ v → Completes (.doorbellWrite f q (some v) none) s refused)
        ∧ (v < x.depth → exec (.doorbellWrite f q (some v) none) s = .next (s.setQueue { x with sqTail := v })
            ∧ (s.setQueue { x with sqTail := v }).queue f q = some { x with sqTail := v })
        ∧ (x.depth ≤ v ∨ away → Completes (.doorbellWrite f q none (some v)) s refused)
        ∧ (v < x.depth → ¬away → Completes (.doorbellWrite f q none (some v)) s fun t =>
            t = { s with qen := t.qen, ep := { s.ep with msix := t.ep.msix } }
            ∧ t.queue f q = some { x with cqHead := v, msgPend := x.msgPend && decide (v ≠ x.cqTail) })))
  ∧ (∀ (s : State),
    let l := s.qen.queues.filter s.fetchable
    (l = [] → exec (.fetch []) s = .next s)
    ∧ (l ≠ [] → ∃ x t, s.grant = some (x, t) ∧ x ∈ l
        ∧ (s.qen.fetchNo % 16 = 0 → (∃ y ∈ l, y.qid = 0) → x.qid = 0)
        ∧ (¬(s.qen.fetchNo % 16 = 0 ∧ ∃ y ∈ l, y.qid = 0) →
            ((∃ y ∈ l, y.qid ≠ 0 ∧ y.cls = 0) → x.qid ≠ 0 ∧ x.cls = 0))
        ∧ t.qen.fetchNo = s.qen.fetchNo + 1
        ∧ (let k := min (t.fetchSpan x) (t.slotsFor x)
           0 < k ∧ k ≤ t.get (hubAt .qen) F.QEN_FETCH_CFG_FETCH_MAX ∧ x.sqHead + k ≤ x.depth ∧ k ≤ ringSpan x.depth x.sqHead x.sqTail
           ∧ (s.miu.flips = [] → Completes (.fetch []) s fun u =>
               u.queue x.func x.qid = some { x with sqHead := (x.sqHead + k) % x.depth }
               ∧ u.qen.cmds = s.qen.cmds ∧ u.qen.posts = s.qen.posts ∧ u.mem = s.mem ∧ u.lnd = s.lnd))))

/-- EntriesAndCompletions (R432–R434, R439, R442, R486): a fetch is taken in once all of it has come, in the order of its
entries; a decided entry is written only where its CQ has room and its function may write, as one 16-byte write with the
phase, and the tail moves on, the phase turning at the ring's end; a withheld message goes out at its time. -/
def Obligations.EntriesAndCompletions : Prop :=
  ∀ (f : Fin 64) (q : Nat) (s : State),
    let t := s.postOne f q
    (s.fetchOf f q = none → exec (.entryReceived f q []) s = .next s)
    ∧ (∀ r start n, s.fetchOf f q = some (r, start, n) →
        (r.settled = false → exec (.entryReceived f q []) s = .next s)
        ∧ (r.settled = true → exec (.entryReceived f q []) s = .next
            (({ s with ep := { s.ep with reads := s.ep.reads.erase r } } : State).takeEntries r f q start n).settle))
    ∧ exec (.completionPost f q) s = .next t.cutsReady
    ∧ (s.queue f q = none ∨ (∀ p ∈ s.qen.posts, ¬(p.func = f ∧ p.qid = q)) ∨ s.master f = false → t = s)
    ∧ (∀ x p, s.queue f q = some x → s.qen.posts.find? (fun p => p.func == f.val && p.qid == q) = some p →
        (x.cqRoom = false → t = s)
        ∧ (x.cqRoom = true → s.master f = true → 16 ≤ (s.fn f).cfg.mps → x.cqBase % 16 = 0 → x.func = f →
            t.qen.posts = s.qen.posts.erase p
            ∧ (∃ ro ido, s.ep.out ++ [Tlp.write f (x.cqBase + 16 * x.cqTail)
                (completionBytes p (p.sqHead.getD x.sqHead) x.phase) ro ido] <+: t.ep.out ∧ ro = false)
            ∧ (completionBytes p (p.sqHead.getD x.sqHead) x.phase).length = 16
            ∧ ∃ y, t.queue f q = some y ∧ y.sqHead = x.sqHead ∧ y.sqTail = x.sqTail ∧ y.cqHead = x.cqHead
              ∧ (x.cqTail + 1 = x.depth → y.cqTail = 0 ∧ y.phase = !x.phase)
              ∧ (x.cqTail + 1 ≠ x.depth → y.cqTail = x.cqTail + 1 ∧ y.phase = x.phase)))
    ∧ (s.queue f q = none → exec (.cqCoalesceTimeout f q) s = .next s)
    ∧ (∀ x, s.queue f q = some x →
        (x.withheld = 0 → exec (.cqCoalesceTimeout f q) s = .next s)
        ∧ (x.withheld ≠ 0 → Completes (.cqCoalesceTimeout f q) s fun t =>
            t = { s with qen := t.qen, ep := t.ep } ∧ t.queue f q = some { x with withheld := 0, msgPend := x.msgPend || !s.msixReady x.func x.vector }))

/-- QueueCuts (R430, R443–R447): a halt of queue 0, of a queue that is not ACTIVE, or while one is BUSY is REFUSED; another
one puts the queue into HALTING with none of its commands left, those decided kept; the cut ends when every port has answered
and every decided entry is written: the queue is then HALTED, RESULT holds the counts, DONE is set; ENABLE of the management
pair makes queue 0 ACTIVE once its depth is 2–4,096, sets CFG_ERR when it is not, and its base and depth stay while it is
set. -/
def Obligations.QueueCuts : Prop :=
  ∀ (f : Fin 64) (q : Nat) (w : Word) (s : State),
    let a := funAt .qen f
    let busy := s.qen.cuts.any fun (c : Cut) => c.func == f.val && decide (c.kind = .halt)
    let s0 := s.put a F.QEN_HALT_QID q
    let en := F.QEN_MQ_CTL_ENABLE.of w = 1
    let dep := F.QEN_MQ_CTL_DEPTH.of w
    (s.queue f (q % 1024) = none ∨ q % 1024 = 0 ∨ (∃ x, s.queue f (q % 1024) = some x ∧ x.st ≠ .active) ∨ busy = true →
        exec (.qenHalt f q) s = .next (s0.put a F.QEN_HALT_STATUS_REFUSED 1))
    ∧ (∀ x, s.queue f (q % 1024) = some x → q % 1024 ≠ 0 → x.st = .active → busy = false → Completes (.qenHalt f q) s fun t =>
        (∃ y, t.queue f (q % 1024) = some y ∧ y.st = .halting ∧ y.sqTail = x.sqTail ∧ y.cqTail = x.cqTail ∧ y.phase = x.phase)
        ∧ (∀ c ∈ t.qen.cmds, ¬(c.func = f ∧ c.qid = q % 1024)) ∧ (∀ p ∈ s.qen.posts, p ∈ t.qen.posts)
        ∧ ∃ c ∈ t.qen.cuts, c.func = f ∧ c.qid = q % 1024 ∧ c.kind = .halt)
    ∧ ((∀ c ∈ s.qen.cuts, ¬(c.func = f ∧ c.kind = .halt)) → exec (.haltCutComplete f) s = .next s)
    ∧ (∀ c x, s.qen.cuts.find? (fun (c : Cut) => c.func == f.val && decide (c.kind = .halt)) = some c → s.queue f c.qid = some x →
        (c.ports ≠ [] ∨ (∃ p ∈ s.qen.posts, p.func = f ∧ p.qid = c.qid) → exec (.haltCutComplete f) s = .next s)
        ∧ (c.ports = [] → (∀ p ∈ s.qen.posts, ¬(p.func = f ∧ p.qid = c.qid)) →
            let t := s.cutDone c
            exec (.haltCutComplete f) s = .next t.settle
            ∧ ((∀ d ∈ s.qen.cmds, d.wait ≠ .cut) → t.queue f c.qid = some { x with st := .halted } ∧ t.has a F.QEN_HALT_STATUS_DONE = true
                ∧ t.get a F.QEN_HALT_RESULT_RESULT = c.result % 2 ^ 32
                ∧ t.get a F.QEN_CNT_HALTS = min (s.get a F.QEN_CNT_HALTS + 1) 65535)))
    ∧ (F.QEN_MQ_CTL_CFG_ERR.of w = 0 →
        (s.has a F.QEN_MQ_CTL_ENABLE = true → en → exec (.qenMqCtlWrite f w) s = .next s.settle)
        ∧ (s.has a F.QEN_MQ_CTL_ENABLE = true → ¬en → exec (.qenMqCtlWrite f w) s = .next
            (((s.put a F.QEN_MQ_CTL_ENABLE 0).startCut f 0 .management).cutsReady).settle)
        ∧ (s.has a F.QEN_MQ_CTL_ENABLE = false → ¬en → exec (.qenMqCtlWrite f w) s = .next (s.put a F.QEN_MQ_CTL_DEPTH dep).settle)
        ∧ (s.has a F.QEN_MQ_CTL_ENABLE = false → en → dep < 2 ∨ 4096 < dep → exec (.qenMqCtlWrite f w) s = .next
            ((s.put a F.QEN_MQ_CTL_DEPTH dep).put a F.QEN_MQ_CTL_CFG_ERR 1).settle)
        ∧ (s.has a F.QEN_MQ_CTL_ENABLE = false → en → 2 ≤ dep → dep ≤ 4096 → s.queue f 0 = none →
            let t := (s.put a F.QEN_MQ_CTL_DEPTH dep).put a F.QEN_MQ_CTL_ENABLE 1
            ∃ x, exec (.qenMqCtlWrite f w) s = .next ({ t with qen := { t.qen with queues := t.qen.queues ++ [x] } } : State).settle
              ∧ x.st = .active ∧ x.func = f ∧ x.qid = 0 ∧ x.depth = dep ∧ x.phase = true ∧ x.sqHead = 0 ∧ x.cqTail = 0
              ∧ x.sqBase = 2 ^ 32 * s.get a F.QEN_MQ_SQ_HI_BASE_HI + 2 ^ 12 * s.get a F.QEN_MQ_SQ_LO_BASE_LO))

/-- CommandsAndFences (R439, R440, R444, R458, R597): deciding a command that is in flight takes it out of flight and puts
its status and RESULT behind the completions already decided; a command that is not in flight cannot be decided again.
Second: a command starts only once; a FENCE, and a command with FENCE_BEFORE, waits until every command fetched before it
from its SQ has posted, and every command waits for a FENCE fetched before it; a row whose command is not in flight, has
another opcode, has started or must wait does nothing. -/
def Obligations.CommandsAndFences : Prop :=
  (∀ (s : State) (c : Cmd) (st r : Nat),
    (s.cmd c.id = none → s.finish c st r = s)
    ∧ (s.cmd c.id ≠ none → (s.finish c st r).cmd c.id = none
        ∧ (∃ p, (s.finish c st r).qen.posts = s.qen.posts ++ [p] ∧ p.status = st ∧ p.result = r ∧ p.func = c.func ∧ p.qid = c.qid
            ∧ p.tag = c.tag ∧ p.cid = c.id)
        ∧ (∀ id, id ≠ c.id → (s.finish c st r).cmd id = s.cmd id)
        ∧ (s.finish c st r).mem = s.mem ∧ (s.finish c st r).qen.queues = s.qen.queues))
  ∧ (∀ (id : Nat) (s : State),
    let before (c : Cmd) (p : Nat → Prop) : Prop :=
      (∃ x ∈ s.qen.cmds, x.func = c.func ∧ x.qid = c.qid ∧ x.id < c.id ∧ p x.opcode)
      ∨ ∃ x ∈ s.qen.posts, x.func = c.func ∧ x.qid = c.qid ∧ x.cid < c.id ∧ p x.opcode
    let waits (op : Nat) : Prop := ∀ c, s.cmd id = some c → c.st ≠ .checked ∨ c.opcode ≠ op
      ∨ before c (fun o => o = 0x05) ∨ ((c.fenceBefore = true ∨ c.opcode = 0x05) ∧ before c fun _ => True)
    (∀ op, s.startable id op = none ↔ waits op)
    ∧ (waits 0x01 → exec (.read id []) s = .next s) ∧ (waits 0x02 → exec (.readRaw id []) s = .next s)
    ∧ (waits 0x03 → exec (.record id []) s = .next s) ∧ (waits 0x04 → exec (.preload id) s = .next s)
    ∧ (waits 0x05 → exec (.fence id) s = .next s) ∧ (waits 0x06 → exec (.flush id []) s = .next s)
    ∧ (waits 0x07 → exec (.verifyScan id) s = .next s) ∧ (waits 0x80 → exec (.createQueuePair id) s = .next s)
    ∧ (waits 0x81 → exec (.deleteQueuePair id) s = .next s) ∧ (waits 0x82 → exec (.resetQueue id) s = .next s)
    ∧ (waits 0x84 → exec (.sessionOpen id) s = .next s) ∧ (waits 0x85 → exec (.sessionClose id) s = .next s)
    ∧ (waits 0x88 → exec (.mount id) s = .next s) ∧ (waits 0x89 → exec (.unmount id) s = .next s)
    ∧ (waits 0x8A → exec (.moveDisc id) s = .next s) ∧ (waits 0x8C → exec (.cruiseNow id) s = .next s)
    ∧ (waits 0x8D → exec (.queryBay id) s = .next s) ∧ (waits 0x90 → exec (.bundleDownload id) s = .next s)
    ∧ (waits 0x91 → exec (.scheduleActivation id) s = .next s) ∧ (waits 0x92 → exec (.cancelActivation id) s = .next s)
    ∧ (waits 0x93 → exec (.confirmHealth id) s = .next s) ∧ (waits 0x94 → exec (.getLogPage id) s = .next s)
    ∧ (waits 0x95 → exec (.setFeature id) s = .next s) ∧ (waits 0x96 → exec (.getFeature id) s = .next s)
    ∧ (waits 0x98 → exec (.fieldRegisterRead id) s = .next s) ∧ (waits 0x99 → exec (.fieldRegisterWrite id) s = .next s)
    ∧ (waits 0x9A → exec (.scrubRange id []) s = .next s) ∧ (waits 0x9B → exec (.landingRangeOp id []) s = .next s)
    ∧ (waits 0x9C → exec (.scaleBookStale id) s = .next s ∧ exec (.scaleBookHint id) s = .next s)
    ∧ (waits 0x9D → exec (.setTime id) s = .next s))

/-- DataCommands (R372, R441, R449, R460–R465): what a command that moves boards does when it starts: READ resolves its
boards, READ RAW asks for those of its vault address, RECORD is refused where R358 says so and else reads its images, PRELOAD
is refused while the landing is disabled, FENCE succeeds with RESULT 0, FLUSH hands over and awaits what it covers, VERIFY
SCAN scans from its first log. -/
def Obligations.DataCommands : Prop :=
  ∀ (id : Nat) (c : Cmd) (s : State), s.cmd id = some c → c.st = .checked → s.mayStart c = true →
    let c := { c with st := .running }
    let t := s.setCmd c
    let slot := c.address / 2 ^ 32
    let refused := ∃ k ∈ c.recordLogs, s.recordRefused k.1 k.2 = true
    (c.opcode = 0x01 → exec (.read id []) s = .next (t.startBoards c (c.word 5) c.titleBoards).settle)
    ∧ (c.opcode = 0x02 → exec (.readRaw id []) s = .next
        (((t.setCmd { c with boards := c.vaultBoards }).askLogs c.id (logsOf c.vaultBoards)).ifDone c.id).settle)
    ∧ (c.opcode = 0x03 → refused → exec (.record id []) s = .next (t.finish c stNotPermitted 0).settle)
    ∧ (c.opcode = 0x03 → ¬refused → c.delivery = 0 → s.slotMounted slot = false → Completes (.record id []) s fun u =>
        u = ((t.setCmd { c with wait := .host 0 }).hostRead c.func c.buffer (4112 * c.count) (c.cls = 0) (.cmd c.id)).settle)
    ∧ (c.opcode = 0x03 → ¬refused → c.delivery = 1 → s.slotMounted slot = false → exec (.record id []) s = .next
        ((t.setCmd { c with wait := .mount }).wantMount slot none c.cls c.func c.qid (.cmd c.id)).settle)
    ∧ (c.opcode = 0x04 → s.lndOn = false → exec (.preload id) s = .next (t.finish c stNotPermitted 0).settle)
    ∧ (c.opcode = 0x04 → s.lndOn = true → bitOf (c.word 7) 0 = true → exec (.preload id) s = .next
        (((t.setCmd { c with lines := logsOf c.vaultBoards }).askPreload c.id (logsOf c.vaultBoards)).ifDone c.id).settle)
    ∧ (c.opcode = 0x04 → s.lndOn = true → bitOf (c.word 7) 0 = false → exec (.preload id) s = .next
        (t.startBoards c (c.word 5) c.titleBoards).settle)
    ∧ (c.opcode = 0x05 → exec (.fence id) s = .next (t.finish c stSuccess 0).settle)
    ∧ (c.opcode = 0x06 → exec (.flush id []) s = .next
        (((t.setCmd { c with lines := t.covered c }).handOverKeys (t.covered c)).ifDone c.id).settle)
    ∧ (c.opcode = 0x06 → (∀ w ∈ s.lnd.writers, ¬(w.func = c.func ∧ w.qid = c.qid)) → s.lnd.range = none → s.fieldReady = false →
        c.wait = .none → c.boards = [] → c.fail = none → c.n1 = 0 →
        exec (.flush id []) s = .next ((t.setCmd { c with lines := [] }).finish { c with lines := [] } stSuccess 0))
    ∧ (c.opcode = 0x07 → exec (.verifyScan id) s = .next
        ((t.setCmd { c with wait := .scan (c.address % 2 ^ 32 / 16) }).scanStep id).settle)

/-- QueueAndBookCommands (R371, R400, R401, R403, R423, R426, R443, R466–R469, R480–R482): CREATE QUEUE PAIR makes an ACTIVE
pair of its entry's settings, or NOT_PERMITTED where one exists; DELETE and RESET are NOT_PERMITTED on a queue that is ABSENT
or RESETTING, wait for one that is HALTING, and else begin their cut; SESSION OPEN fails with reason TIME before SET TIME,
and else reads its token; SESSION CLOSE records what is pending, then closes. Second: a range command that finds the engine
busy waits behind the others, and else starts; PRELOAD operations are NOT_PERMITTED while the landing is disabled; STALE
marks every slot of the named decks and returns their number; a hint takes its place behind the others, of which 4,096 are
kept; a register command without its answer ends with MECHANISM_FAULT, and no other command does. -/
def Obligations.QueueAndBookCommands : Prop :=
  (∀ (id : Nat) (c : Cmd) (s : State), s.cmd id = some c → c.st = .checked → s.mayStart c = true →
    let c := { c with st := .running }
    let t := s.setCmd c
    let x : Queue := { func := c.func, qid := c.word 7 % 1024, depth := c.count, sqBase := 2 ^ 32 * c.word 9 + c.word 8
                       cqBase := 2 ^ 32 * c.word 11 + c.word 10, cls := bitsOf (c.word 7) 17 16, vector := bitsOf (c.word 12) 10 0
                       ien := bitOf (c.word 12) 16 }
    let q := c.word 7
    let no := (t.finish c stNotPermitted 0).settle
    (c.opcode = 0x80 → s.queue x.func x.qid ≠ none → exec (.createQueuePair id) s = .next no)
    ∧ (c.opcode = 0x80 → s.queue x.func x.qid = none → exec (.createQueuePair id) s = .next
        (({ t with qen := { t.qen with queues := s.qen.queues ++ [x] } } : State).finish c stSuccess 0).settle)
    ∧ (∀ r ∈ [(Instr.deleteQueuePair id, 0x81, CutKind.delete c.id), (Instr.resetQueue id, 0x82, CutKind.reset c.id)],
        c.opcode = r.2.1 →
        (s.queue c.func q = none ∨ (∃ y, s.queue c.func q = some y ∧ y.st = .resetting) → exec r.1 s = .next no)
        ∧ (∀ y, s.queue c.func q = some y → y.st = .halting → exec r.1 s = .next (t.setCmd { c with wait := .cut }).settle)
        ∧ (∀ y, s.queue c.func q = some y → y.st = .active ∨ y.st = .halted → exec r.1 s = .next
            (((t.setCmd { c with wait := .engine }).startCut c.func q r.2.2).cutsReady).settle))
    ∧ (c.opcode = 0x84 → s.vlk.timeSet = false → c.opens = none → exec (.sessionOpen id) s = .next
        (((t.bump (hubAt .vlk) F.VLK_CNT0_OPEN_FAILS).finish c stNotPermitted (7 * 2 ^ 24)).dropRead c.id).settle)
    ∧ (c.opcode = 0x84 → s.vlk.timeSet = true → exec (.sessionOpen id) s = .next
        ((t.setCmd { c with wait := .host 0 }).hostRead c.func c.buffer 512 true (.cmd c.id)).settle)
    ∧ (c.opcode = 0x85 → exec (.sessionClose id) s = .next ((t.closeStart c).closeFinal c.session).settle))
  ∧ (∀ (id : Nat) (c : Cmd) (s : State), s.cmd id = some c →
    (((∀ i j, c.wait ≠ .regs i j) → exec (.regDataTimeout id) s = .next s)
      ∧ ∀ i j, c.wait = .regs i j → exec (.regDataTimeout id) s = .next (s.finish c stFault 0).settle)
    ∧ (c.st = .checked → s.mayStart c = true →
    let c := { c with st := .running }
    let t := s.setCmd c
    let u := t.setCmd { c with wait := .engine }
    let w := c.word 7
    let o (k : RangeKind) : RangeOp := { kind := k, slot := c.address / 2 ^ 32, slots := bitsOf w 12 0, lba := c.address % 2 ^ 32
                                         count := c.count, cls := c.cls, force := c.opcode == 0x9B && bitOf w 19, cmd := some c.id }
    let queued (k : RangeKind) := ({ u with lnd := { u.lnd with queue := u.lnd.queue ++ [o k] } } : State).settle
    let first := c.word 8 % 16
    let last := c.word 8 / 16
    (c.opcode = 0x9A → s.lnd.range ≠ none → exec (.scrubRange id []) s = .next (queued .scrub))
    ∧ (c.opcode = 0x9A → s.lnd.range = none → exec (.scrubRange id []) s = .next (u.startRange (o .scrub)).settle)
    ∧ (∀ k, c.opcode = 0x9B → RangeKind.ofCode (bitsOf w 18 16) = some k →
        (s.lndOn = false → k = .preload ∨ k = .preloadLock →
          exec (.landingRangeOp id []) s = .next (t.finish c stNotPermitted 0).settle)
        ∧ (s.lndOn = true ∨ (k ≠ .preload ∧ k ≠ .preloadLock) →
          (s.lnd.range ≠ none → exec (.landingRangeOp id []) s = .next (queued k))
          ∧ (s.lnd.range = none → exec (.landingRangeOp id []) s = .next (u.startRange (o k)).settle)))
    ∧ (c.opcode = 0x9C → bitOf w 0 = true → exec (.scaleBookStale id) s = .next s
        ∧ (let h := t.vlk.hints ++ [{ title := c.word 5, offset := c.word 4, count := c.count, slot := c.word 8 }]
           let v : State := { t with vlk := { t.vlk with hints := h.drop (t.vlk.hints.length - 4095) } }
           exec (.scaleBookHint id) s = .next (v.finish c stSuccess 0).settle))
    ∧ (c.opcode = 0x9C → bitOf w 0 = false → exec (.scaleBookHint id) s = .next s
        ∧ (deckSlots first last).length = 256 * (last + 1 - first)
        ∧ (∀ n, n ∈ deckSlots first last ↔ 256 * first ≤ n ∧ n < 256 * (last + 1))
        ∧ exec (.scaleBookStale id) s = .next (((deckSlots first last).foldl State.staleSlot t).finish c stSuccess
            (256 * (last + 1 - first))).settle)))

/-- DiscCommands (R340, R470–R474): MOUNT of a mounted disc completes with its bay, of a bay that records or has a generation
pending is NOT_PERMITTED, and else waits for a mount; UNMOUNT of an empty bay is NOT_PERMITTED, and else waits for the bay's
work to end; MOVE DISC is refused while either slot has lines to record, or its destination is taken, or its source is empty;
CRUISE NOW sends its item to a mounted, enabled bay; QUERY BAY writes its record and returns its first four bytes. -/
def Obligations.DiscCommands : Prop :=
  ∀ (id : Nat) (c : Cmd) (s : State), s.cmd id = some c → c.st = .checked → s.mayStart c = true →
    let c := { c with st := .running }
    let t := s.setCmd c
    let slot := c.address / 2 ^ 32
    let any := bitOf (c.word 7) 4
    let b : Bay := Fin.ofNat 12 (c.word 7 % 16)
    let named : Option Bay := if any then none else some b
    let src := bitsOf (c.word 7) 12 0
    let dst := bitsOf (c.word 8) 12 0
    let no := (t.finish c stNotPermitted 0).settle
    let dirty := (src < 4096 ∧ s.slotDirty src = true) ∨ (dst < 4096 ∧ s.slotDirty dst = true)
    let taken := dst ∈ s.yrd.occupied ∨ (dst < 4096 ∧ s.bayOfSlot dst ≠ none)
    let x := s.crew.bays[b]
    (c.opcode = 0x88 → s.slotMounted slot = true → exec (.mount id) s = .next (t.mountDone c stSuccess).settle)
    ∧ (c.opcode = 0x88 → s.slotMounted slot = false → any = false → (∃ d, x.disc = some d ∧ d.slot ≠ slot) →
        s.bayRecording b = true ∨ s.genPending b = true → exec (.mount id) s = .next no)
    ∧ (c.opcode = 0x88 → s.slotMounted slot = false → any = true ∨ (s.bayRecording b = false ∧ s.genPending b = false) →
        exec (.mount id) s = .next ((t.setCmd { c with wait := .mount }).wantMount slot named c.cls c.func c.qid (.cmd c.id)).settle)
    ∧ (c.opcode = 0x89 → x.disc = none → exec (.unmount id) s = .next no)
    ∧ (c.opcode = 0x89 → x.disc ≠ none → s.code.changer = true → s.dieBlocked (dieOfBay b) = none → exec (.unmount id) s = .next
        ((t.setCmd { c with wait := .unmount b }).setHubBay b { x with unmountCmds := x.unmountCmds ++ [c.id] }).settle)
    ∧ (∀ st, c.opcode = 0x89 → x.disc ≠ none → s.code.changer = true → s.dieBlocked (dieOfBay b) = some st →
        exec (.unmount id) s = .next (t.finish c st 0xFFFF).settle)
    ∧ (c.opcode = 0x8A → dirty ∨ taken → exec (.moveDisc id) s = .next no)
    ∧ (c.opcode = 0x8A → ¬dirty → ¬taken → src < 4096 → ∀ y, s.bayOfSlot src = some y → exec (.moveDisc id) s = .next
        ((t.setCmd { c with wait := .unmount y }).setHubBay y
          { s.crew.bays[y] with unmountCmds := s.crew.bays[y].unmountCmds ++ [c.id] }).settle)
    ∧ (c.opcode = 0x8A → ¬dirty → ¬taken → s.bayOfSlot src = none → src ∉ s.yrd.occupied → exec (.moveDisc id) s = .next
        (t.finish c stSlotEmpty 0).settle)
    ∧ (c.opcode = 0x8A → ¬dirty → ¬taken → s.bayOfSlot src = none → src ∈ s.yrd.occupied → exec (.moveDisc id) s = .next
        (t.moveGo c).settle)
    ∧ (∀ st, c.opcode = 0x8C → s.dieBlocked (dieOfBay b) = some st → exec (.cruiseNow id) s = .next (t.finish c st 0).settle)
    ∧ (c.opcode = 0x8C → s.dieBlocked (dieOfBay b) = none → (∀ d, x.disc = some d → d.mounted = false)
          ∨ s.has (bayAt .cru b) F.CRU_CTL_ENABLE = false → exec (.cruiseNow id) s = .next no)
    ∧ (∀ d, c.opcode = 0x8C → s.dieBlocked (dieOfBay b) = none → x.disc = some d → d.mounted = true →
        s.has (bayAt .cru b) F.CRU_CTL_ENABLE = true → exec (.cruiseNow id) s = .next
          ((t.setCmd { c with wait := .cruise b }).sendWork (dieOfBay b) 7 c.cls (bayInDie b) c.func c.qid [] (.cruise c.id)).1.settle)
    ∧ (c.opcode = 0x8D → (t.bayRecord b).length = 64 ∧ exec (.queryBay id) s = .next
        ((t.hostWrite c.func c.buffer (t.bayRecord b) true).finish c stSuccess (fieldAt (t.bayRecord b) 0 4)).settle)

/-- DeviceCommands (R475–R479, R482, R483, R486): what the firmware, page, feature, register and time commands do when they
start, and what refuses them. -/
def Obligations.DeviceCommands : Prop :=
  ∀ (id : Nat) (c : Cmd) (s : State), s.cmd id = some c → c.st = .checked → s.mayStart c = true →
    let c := { c with st := .running }
    let t := s.setCmd c
    let fw := s.fwu
    let x := fw.banks[s.altBank]
    let no := (t.finish c stNotPermitted 0).settle
    let done (u : State) := (u.finish c stSuccess 0).settle
    let first := ∀ y ∈ s.qen.cmds, y.opcode = 0x90 → id ≤ y.id
    let chunk (u : State) := ((u.setCmd { c with wait := .host 0 }).hostRead c.func c.buffer (4096 * c.count) true (.cmd c.id)).settle
    let sched : Schedule := { time := 2 ^ 32 * c.word 9 + c.word 8, noFlush := bitOf (c.word 7) 0, confirm := bitOf (c.word 7) 1
                              window := if c.word 10 = 0 then 600 else c.word 10 }
    let fid := c.word 7 % 256
    let tgt := if fid ≤ 3 then bitsOf (c.word 7) 21 16 else 0
    let p := t.pageBytes (c.word 7) c.func
    (c.opcode = 0x90 → ¬first → exec (.bundleDownload id) s = .next s)
    ∧ (c.opcode = 0x90 → first → fw.sched ≠ none → exec (.bundleDownload id) s = .next no)
    ∧ (c.opcode = 0x90 → first → fw.sched = none → c.word 7 = 0 → exec (.bundleDownload id) s = .next
        (chunk { t with fwu := { fw with banks := fw.banks.set s.altBank { st := .partly } } }))
    ∧ (c.opcode = 0x90 → first → fw.sched = none → c.word 7 ≠ 0 →
        (x.st = .loaded → exec (.bundleDownload id) s = .next no)
        ∧ (x.st ≠ .loaded → c.word 7 ≠ x.units ∨ 15360 < c.word 7 + c.count →
            exec (.bundleDownload id) s = .next (t.finish c stInvalidField 0).settle)
        ∧ (x.st ≠ .loaded → c.word 7 = x.units → c.word 7 + c.count ≤ 15360 → exec (.bundleDownload id) s = .next (chunk t)))
    ∧ (c.opcode = 0x91 → sched.time < s.now + 1000000 → exec (.scheduleActivation id) s = .next (t.finish c stTimePassed 0).settle)
    ∧ (c.opcode = 0x91 → s.now + 1000000 ≤ sched.time →
        (s.vlk.timeSet = false ∨ s.altLoaded = false ∨ fw.sched ≠ none ∨ fw.run = .trial → exec (.scheduleActivation id) s = .next no)
        ∧ (s.vlk.timeSet = true → s.altLoaded = true → fw.sched = none → fw.run ≠ .trial →
            exec (.scheduleActivation id) s = .next (done { t with fwu := { fw with sched := some sched } })))
    ∧ (c.opcode = 0x92 → fw.sched = none → exec (.cancelActivation id) s = .next no)
    ∧ (c.opcode = 0x92 → fw.sched ≠ none → exec (.cancelActivation id) s = .next (done { t with fwu := { fw with sched := none } }))
    ∧ (c.opcode = 0x93 → fw.run ≠ .trial ∨ s.journal.confirm = false → exec (.confirmHealth id) s = .next no)
    ∧ (c.opcode = 0x93 → fw.run = .trial → s.journal.confirm = true →
        let u := ({ t with fwu := { fw with hostAsked := true } } : State).setCmd { c with wait := .health }
        (fw.tested = false → exec (.confirmHealth id) s = .next u.settle)
        ∧ (fw.tested = true → exec (.confirmHealth id) s = .next u.confirmSet.settle))
    ∧ (c.opcode = 0x94 →
        let part := (p.2.drop (c.word 8)).take c.count
        let sent := part ++ List.replicate (c.count - part.length) 0
        sent.length = c.count ∧ exec (.getLogPage id) s = .next
          ((p.1.hostWrite c.func c.buffer sent true).finish c stSuccess p.2.length).settle)
    ∧ (∀ st, c.opcode = 0x95 → s.featureRefused fid tgt (c.word 8) = some st →
        exec (.setFeature id) s = .next (t.finish c st 0).settle)
    ∧ (c.opcode = 0x95 → s.featureRefused fid tgt (c.word 8) = none → Completes (.setFeature id) s fun u =>
        u = done ((t.setFeature fid tgt (c.word 8)).saveFeature fid tgt (c.word 8)))
    ∧ (c.opcode = 0x96 → exec (.getFeature id) s = .next (t.finish c stSuccess (s.feature fid tgt)).settle)
    ∧ (c.opcode = 0x98 → exec (.fieldRegisterRead id) s = .next ((t.setCmd { c with wait := .regs 0 0 }).regsStep c.id).settle)
    ∧ (c.opcode = 0x99 → bitOf (c.word 7) 9 = true → exec (.fieldRegisterWrite id) s = .next
        ((t.setCmd { c with wait := .regs 0 0 }).regsStep c.id).settle)
    ∧ (c.opcode = 0x99 → bitOf (c.word 7) 9 = false → exec (.fieldRegisterWrite id) s = .next
        ((t.setCmd { c with wait := .host 0 }).hostRead c.func c.buffer (4 * c.count) true (.cmd c.id)).settle)
    ∧ (c.opcode = 0x9D → s.hicSense 162 = 2 → Completes (.setTime id) s fun u =>
        let v := 2 ^ 32 * c.word 9 + c.word 8
        u = done ({ t with pwr := { s.pwr with now := v, keeper := v, frac := 0 }
                           vlk := { s.vlk with timeSet := true, hwm := max v s.vlk.hwm } }.hicEdge 162))

/-- HostAccesses (R492, R494, R495, R501, R505, R507, R602): an access past the end of its BAR, or while the part waits in
reset, has no effect; one to a function that is not there or sleeps gets Unsupported Request; one of another size or
alignment writes nothing and reads Completer Abort, and is counted; in BAR4 a write reaches the MSI-X table alone and a read
answers data; in BAR0 a write of 4 bytes writes the register, one of 8 bytes writes the low register and then the next, a
read answers the registers' data; before READY only GLB and EP registers act, and what a locked part's map denies is logged
and reads zero. -/
def Obligations.HostAccesses : Prop :=
  ∀ (r : Bar0Req) (s : State),
    let f := r.func.val
    let gone := s.pwr.boot = .held ∨ barSize f r.bar4 ≤ r.off
    let off := s.fnOn f = false ∨ (s.fn f).d3 = true
    let sized := (r.len = 4 ∧ r.off % 4 = 0) ∨ (r.len = 8 ∧ r.off % 8 = 0)
    let at_ := barAddr f r.off
    let denied := s.locked = true ∧ s.barActs f r.off = true ∧ s.mayReach (barInit f) at_ r.value.isSome = false
    let bad := (s.bump (funAt .ep f) F.EP_CNT1_BAD_ACCESS).put (funAt .ep f) F.EP_BAD_ACCESS_OFFSET r.off
    (gone → exec (.bar0Request r) s = .next s)
    ∧ (¬gone → off →
        (r.value ≠ none → exec (.bar0Request r) s = .next (s.aer f .unsupportedRequest))
        ∧ (r.value = none → exec (.bar0Request r) s = .next ((s.emit (.unsupported f)).aer f .unsupportedRequest)))
    ∧ (¬gone → ¬off → ¬sized →
        (r.value ≠ none → exec (.bar0Request r) s = .next bad)
        ∧ (r.value = none → exec (.bar0Request r) s = .next ((bad.emit (.abort f)).aer f .completerAbort)))
    ∧ (¬gone → ¬off → sized → r.bar4 = true → Completes (.bar0Request r) s fun t =>
        t = { s with ep := t.ep }
        ∧ (r.value ≠ none → t.ep = { s.ep with msix := t.ep.msix } ∧ (16 * msixSize f ≤ r.off → t = s))
        ∧ (r.value = none → ∃ bs ido, bs.length = r.len ∧ t = s.emit (.completion f bs ido)))
    ∧ (¬gone → ¬off → sized → r.bar4 = false →
        (denied →
          let t := s.pevLog at_ (barInit f).group r.value.isSome false
          (r.value ≠ none → exec (.bar0Request r) s = .next t.settle)
          ∧ (r.value = none → exec (.bar0Request r) s = .next (t.complete f (List.replicate r.len 0)).settle))
        ∧ (¬denied →
          (∀ v, r.value = some v → s.barActs f r.off = true →
            (r.len = 4 → exec (.bar0Request r) s = .next (s.hubWrite (barInit f) at_ (BitVec.ofNat 32 v)).settle)
            ∧ (r.len = 8 →
              let t := s.hubWrite (barInit f) at_ (BitVec.ofNat 32 v)
              t.barActs f (r.off + 4) = true → exec (.bar0Request r) s = .next
                (t.hubWrite (barInit f) (barAddr f (r.off + 4)) (BitVec.ofNat 32 (v / 2 ^ 32))).settle))
          ∧ (r.value = none → s.barActs f r.off = true → r.len = 4 →
            let x := s.hubLoad (barInit f) at_
            exec (.bar0Request r) s = .next (x.1.complete f (leBytes 4 x.2)).settle)
          ∧ (s.barActs f r.off = false → s.barActs f (r.off + 4) = false →
            (r.value ≠ none → exec (.bar0Request r) s = .next s.settle)
            ∧ (r.value = none → exec (.bar0Request r) s = .next (s.complete f (List.replicate r.len 0)).settle))))
    ∧ (s.pwr.boot = .ready → s.barActs f r.off = true)

/-- PowerStatesAndResets (R505, R508–R511, R585): clearing Bus Master Enable and entering D3hot stop the function's host
requests; setting it and returning to D0 let them go on; a function-level reset leaves the function no queue, decided entry,
session, cut or MSI-X entry, and its Bus Master Enable 0; PERST# and a hot reset reset the whole host side, which waits in
reset, and keep the flash, the field and the always-on domain. -/
def Obligations.PowerStatesAndResets : Prop :=
  ∀ (f : Fin 64) (cfg : FnCfg) (n : Option (Fin 64)) (s : State),
    let x := s.fn f
    let on := s.fnOn f = true
    let whole (t : State) (cause : ResetCause) : Prop :=
      t.pwr.boot = .held ∧ t.pwr.cause = cause ∧ t.qen = {} ∧ t.crew = {} ∧ t.vlk = {} ∧ t.hic = {} ∧ t.miu = {} ∧ t.lnd = {}
      ∧ t.ep.out = [] ∧ t.ep.reads = [] ∧ t.ep.msix = [] ∧ t.ep.numVfs = 0 ∧ (∀ g : Fin 64, t.master g = false)
      ∧ t.field = s.field ∧ t.pwr.keeper = s.pwr.keeper ∧ t.pwr.now = s.pwr.keeper ∧ t.pwr.aonLost = s.pwr.aonLost
      ∧ t.fwu.banks = s.fwu.banks ∧ t.fwu.sched = none
      ∧ (∀ a, ¬(flashAt ≤ a ∧ a < flashAt + 0x8000000) → cellGet t.mem a = 0)
      ∧ (s.fwu.sched = none → ∀ a, flashAt ≤ a → a < flashAt + 0x8000000 → cellGet t.mem a = cellGet s.mem a)
    let stop (y : Fn) : State := ((s.setFn f y).haltHost f).irq 153
    let go (t : State) : State := ((t.resumeHost f).irq 153).settle
    let flr := s.functionReset f
    (s.fnOn f = false → exec (.bmeClear f) s = .next s ∧ exec (.bmeSet f cfg n) s = .next s ∧ exec (.d3hotEntry f) s = .next s
        ∧ exec (.d0Return f) s = .next s ∧ (∀ b, exec (.functionLevelReset f b) s = .next s))
    ∧ (x.cfg.bme = false → exec (.bmeClear f) s = .next s) ∧ (x.d3 = true → exec (.d3hotEntry f) s = .next s)
    ∧ (x.d3 = false → exec (.d0Return f) s = .next s)
    ∧ (on → x.cfg.bme = true → exec (.bmeClear f) s = .next (stop { x with cfg := { x.cfg with bme := false } }))
    ∧ (on → x.d3 = false → exec (.d3hotEntry f) s = .next (stop { x with d3 := true }))
    ∧ (on → f ≠ 0 ∨ s.ep.numVfs ≠ 0 ∨ n = none →
        exec (.bmeSet f cfg n) s = .next (go (s.setFn f { x with cfg := { cfg with bme := true } })))
    ∧ (∀ k, f = 0 → s.ep.numVfs = 0 → n = some k →
        let t := s.setFn f { x with cfg := { cfg with bme := true } }
        exec (.bmeSet f cfg n) s = .next (go { t with ep := { t.ep with numVfs := k } }))
    ∧ (on → x.d3 = true → exec (.d0Return f) s = .next (go (s.setFn f { x with d3 := false })))
    ∧ (on → f ≠ 0 → exec (.functionLevelReset f false) s = .next flr.settle)
    ∧ (f = 0 → exec (.functionLevelReset f false) s = .next ((s.dropVfs.functionReset 0).closeWindow.abortOwnRange).settle)
    ∧ ((∀ y ∈ flr.qen.queues, y.func ≠ f) ∧ (∀ p ∈ flr.qen.posts, p.func ≠ f)
        ∧ (∀ y ∈ flr.qen.cuts, y.func ≠ f) ∧ (∀ y ∈ flr.vlk.sessions, y.func ≠ f) ∧ (∀ e ∈ flr.ep.msix, e.1 / 2048 ≠ f)
        ∧ flr.master f = false ∧ flr.ep.out = s.ep.out)
    ∧ (on → f ≠ 0 → exec (.functionLevelReset f true) s = .next s)
    ∧ (f = 0 → exec (.functionLevelReset f true) s = .next s.dropVfs.settle ∧ s.dropVfs.ep.numVfs = 0)
    ∧ Completes .perstAssert s (fun t => t.ep.perst = true ∧ whole t .perst)
    ∧ (s.ep.perst = true ∨ s.pwr.boot = .held → exec .hotReset s = .next s)
    ∧ (s.ep.perst = false → s.pwr.boot ≠ .held → Completes .hotReset s fun t => t.ep.perst = false ∧ whole t .hot)

/-- HostReadsAndMessages (R442, R491, R496–R498, R501–R503, R506, R509, R511, R516, R532, R580): reads whose command is gone
are given up first; a completion for a tag in nobody's hands is an unexpected completion, one for a given-up request is
discarded, and its last frees the tag; one that matches its request brings its bytes, any other fails the request; a timeout
fails it and frees the tag; waiting pieces take tags, those of class 0 and of management first. Second: a vector sends one
write of its data where its four conditions hold and else sets its pending bit; a pending vector whose conditions hold again
sends one message and its bit clears; training shows its rate, width and form and counts a change; the first full-rate
training after boot needs the PHY part of a running set. -/
def Obligations.HostReadsAndMessages : Prop :=
  (∀ (x : CompletionIn) (tag : Nat) (s : State), (∀ r ∈ s.ep.reads, ∀ id, r.what = .cmd id → s.cmd id ≠ none) →
    let ready (r : HostRead) : Prop := s.master r.func = true ∧ ∃ p ∈ r.pieces, p.st = .waiting
    (s.tagOf x.tag = none → (∀ e ∈ s.ep.dead, e.1 ≠ x.tag) → exec (.completionReceived x) s = .next (s.aer 0 .unexpectedCompletion))
    ∧ (∀ f counted, s.tagOf x.tag = none → s.ep.dead.find? (fun e => e.1 == x.tag) = some (x.tag, f, counted) →
        Completes (.completionReceived x) s fun t =>
          (counted = true → t.get (funAt .ep f) F.EP_CNT1_CPL_DISCARDED = min (s.get (funAt .ep f) F.EP_CNT1_CPL_DISCARDED + 1) 65535)
          ∧ (counted = false → t.regs = s.regs)
          ∧ (x.last = true → ∀ e ∈ t.ep.dead, e.1 ≠ x.tag) ∧ (x.last = false → t.ep = s.ep)
          ∧ t = { s with ep := t.ep, regs := t.regs })
    ∧ (∀ r p, s.tagOf x.tag = some (r, p) →
        (x.status = .success → fitsPiece (s.fn r.func).cfg.rcb p x = true →
          let data := p.data ++ x.data
          let q : Piece := { p with data := data, st := if data.length = p.len then .done else p.st }
          exec (.completionReceived x) s = .next ((((s.setPiece r x.tag q).readGoes r).dropOrphans).settle))
        ∧ (x.status ≠ .success ∨ fitsPiece (s.fn r.func).cfg.rcb p x = false → x.last = true →
          let t := ((s.setPiece r x.tag { p with st := .failed }).bump (funAt .ep r.func) F.EP_CNT0_CPL_FAILED).aer r.func x.status.error
          exec (.completionReceived x) s = .next (((t.readFailed r).dropOrphans).settle)))
    ∧ (s.tagOf tag = none → Completes (.completionTimeout tag) s fun t => (∀ e ∈ t.ep.dead, e.1 ≠ tag)
        ∧ (∀ e, e.1 ≠ tag → (e ∈ t.ep.dead ↔ e ∈ s.ep.dead)) ∧ t = { s with ep := { s.ep with dead := t.ep.dead } })
    ∧ (∀ r p, s.tagOf tag = some (r, p) →
        let t := ((s.setPiece r tag { p with st := .failed }).bump (funAt .ep r.func) F.EP_CNT0_CPL_TIMEOUTS).aer r.func .completionTimeout
        exec (.completionTimeout tag) s = .next (((t.readFailed r).dropOrphans).settle))
    ∧ ((∀ r ∈ s.ep.reads, ¬ready r) → exec .readPieceIssue s = .next s)
    ∧ (∀ r, s.ep.reads = [r] → ready r → exec .readPieceIssue s = .next (s.issueRead r))
    ∧ (∀ r r' : HostRead, s.ep.reads = [r, r'] → ready r → ready r' → r.prior = false → r'.prior = true →
        exec .readPieceIssue s = .next ((s.issueRead r').issueRead r)))
  ∧ (∀ (f : Fin 64) (v : Nat) (rec flit up : Bool) (rate : Fin 8) (width : Fin 9) (s : State),
    let e := s.msixEntry f v
    let a := hubAt .ep
    let sent := s.emit (.message f v (e.addrLo / 4 * 4 + 2 ^ 32 * e.addrHi) e.data)
    let loaded := (s.pwr.boot = .stump2 ∨ s.pwr.boot = .ready) ∧ s.fwu.run ≠ .recovery
    let part := (tallyParts (s.flash (bankAt s.fwu.bank) 4096)).find? fun (p : Part) => p.type == 7
    let shows (t : State) (r w : Nat) (fl u : Bool) : Prop := t.get a F.EP_LINK_RATE = r ∧ t.get a F.EP_LINK_WIDTH = w
      ∧ t.has a F.EP_LINK_FLIT = fl ∧ t.has a F.EP_LINK_UP = u
    let counted (n : Nat) (b : Bool) : Nat := min (n + b2n b) 65535
    (s.fnOn f = false ∨ msixSize f ≤ v → exec (.msixSend f v) s = .next s)
    ∧ (s.fnOn f = true → v < msixSize f →
        (s.msixReady f v = true → exec (.msixSend f v) s = .next sent)
        ∧ (s.msixReady f v = false → exec (.msixSend f v) s = .next (s.setMsix f v { e with pend := true })))
    ∧ (e.pend = false ∨ s.msixReady f v = false → exec (.msixUnmask f v) s = .next s)
    ∧ (e.pend = true → s.msixReady f v = true → Completes (.msixUnmask f v) s fun t =>
        t.ep.out = s.ep.out ++ [.message f v (e.addrLo / 4 * 4 + 2 ^ 32 * e.addrHi) e.data]
        ∧ t = { s with ep := t.ep, qen := t.qen } ∧ (∀ q ∈ t.qen.queues, q.func = f → q.vector = v → q.msgPend = false))
    ∧ (s.pwr.boot = .held → exec (.linkRecovery rec rate width flit up) s = .next s)
    ∧ (s.pwr.boot ≠ .held → Completes (.linkRecovery rec rate width flit up) s fun t => shows t rate width flit up
        ∧ t.get a F.EP_LINK_CNT_RETRAINS = counted (s.get a F.EP_LINK_CNT_RETRAINS) rec
        ∧ t.get a F.EP_LINK_CNT_SPEED_CHANGES = counted (s.get a F.EP_LINK_CNT_SPEED_CHANGES)
            (s.get a F.EP_LINK_RATE ≠ rate.val || s.get a F.EP_LINK_WIDTH ≠ width.val)
        ∧ t.mem = s.mem ∧ t.qen = s.qen ∧ t.ep = s.ep)
    ∧ (¬loaded ∨ part = none → exec (.linkFullRateRetrain rate width flit) s = .next s)
    ∧ (∀ p, loaded → part = some p → Completes (.linkFullRateRetrain rate width flit) s fun t =>
        let whole := Config.sha384 (s.flash (bankAt s.fwu.bank + p.offset) p.length) = p.digest
        (¬whole → t = s)
        ∧ (whole → shows t rate width flit true
          ∧ t.has a F.EP_LINK_EQ_FULL = true ∧ t.ep = { s.ep with autoBandwidth := true } ∧ t.mem = s.mem)))

/-- Interrupts (R521–R530, R532, R535): a level of a source that is new to it is an event of an edge source; an event of a
source that is idle makes it pending, one while it is pending or already latched is merged, one in service is latched; a
claim gives the eligible source of the highest priority, of equal ones the lowest ID, takes it into service and raises
RUNPRI, and with none eligible reads 1,023 and counts; a completion of a source that the core does not hold is counted,
another one takes it out of service; only software sources are triggered, only crew cores write settings and MSIP, and what
an open core writes there is logged; a core's timer is pending while the time is at or past its compare value. -/
def Obligations.Interrupts : Prop :=
  ∀ (n : Nat) (level : Bool) (c by_ : Fin 8) (id : Fin 1024) (k : Fin 256) (w : Word) (s : State),
    let a := hubAt .hic
    let lv := s.hic.levels
    let seen : State := { s with hic := { s.hic with levels := if level then lv ++ [n] else lv.filter (· ≠ n) } }
    let sense := s.hicSense n
    let edge := (sense = 2 ∧ level = true) ∨ (sense = 3 ∧ level = false) ∨ sense = 4
    let merged (t : State) : State := t.bump a F.HIC_CNT_EDGES_MERGED
    let above := max (s.get a F.HIC_C_THRESHOLD_THRESHOLD c) (s.get a F.HIC_C_RUNPRI_RUNPRI c)
    let eligible (m : Nat) : Prop := m < 256 ∧ s.hicPending m = true ∧ bitOf (s.hicTarget m) c = true ∧ above < s.hicPrio m
    let crew := by_.val < 6
    (hicReserved n = true ∨ s.hic.levels.contains n = level → exec (.hicSourceEvent n level) s = .next s)
    ∧ (hicReserved n = false → s.hic.levels.contains n ≠ level →
        (¬edge → exec (.hicSourceEvent n level) s = .next seen)
        ∧ (edge → s.hicServing n = true → n ∉ s.hic.latched → exec (.hicSourceEvent n level) s = .next
            { seen with hic := { seen.hic with latched := s.hic.latched ++ [n] } })
        ∧ (edge → s.hicServing n = true → n ∈ s.hic.latched → exec (.hicSourceEvent n level) s = .next (merged seen))
        ∧ (edge → s.hicServing n = false → n ∈ s.hic.pend → exec (.hicSourceEvent n level) s = .next (merged seen))
        ∧ (edge → s.hicServing n = false → n ∉ s.hic.pend → exec (.hicSourceEvent n level) s = .next
            { seen with hic := { seen.hic with pend := s.hic.pend ++ [n] } }))
    ∧ ((∀ m, ¬eligible m) → Completes (.hicClaimRead c) s fun t => t.hic = { s.hic with value := 1023 }
        ∧ t.get a F.HIC_C_CORE_CNT_SPURIOUS c = min (s.get a F.HIC_C_CORE_CNT_SPURIOUS c + 1) 65535)
    ∧ (∀ m, eligible m → (∀ m', eligible m' → s.hicPrio m' ≤ s.hicPrio m) → (∀ m', eligible m' → m' < m → s.hicPrio m' < s.hicPrio m) →
        Completes (.hicClaimRead c) s fun t =>
          t.hic.value = m ∧ t.hic.serv = s.hic.serv ++ [(m, c.val)] ∧ m ∉ t.hic.pend ∧ (∀ m', m' ≠ m → (m' ∈ t.hic.pend ↔ m' ∈ s.hic.pend))
          ∧ t.hic.latched = s.hic.latched ∧ t.get a F.HIC_C_RUNPRI_RUNPRI c = s.hicPrio m ∧ t.get a F.HIC_C_RUNPRI_LAST c = m
          ∧ t.get a F.HIC_C_CORE_CNT_CLAIMS c = min (s.get a F.HIC_C_CORE_CNT_CLAIMS c + 1) 65535)
    ∧ (id.val = 0 ∨ id.val = 1023 ∨ (id.val, c.val) ∉ s.hic.serv →
        exec (.hicClaimWrite c id) s = .next (s.bump a F.HIC_CNT_BAD_COMPLETE))
    ∧ (id.val ≠ 0 → id.val ≠ 1023 → (id.val, c.val) ∈ s.hic.serv → Completes (.hicClaimWrite c id) s fun t =>
        (id.val, c.val) ∉ t.hic.serv ∧ (∀ e, e ≠ (id.val, c.val) → (e ∈ t.hic.serv ↔ e ∈ s.hic.serv)) ∧ id.val ∉ t.hic.latched
        ∧ (id.val ∈ s.hic.latched → 2 ≤ s.hicSense id → t.hic.pend = s.hic.pend ++ [id.val])
        ∧ (id.val ∉ s.hic.latched ∨ s.hicSense id < 2 → t.hic.pend = s.hic.pend))
    ∧ (n < 192 ∨ 255 < n → exec (.hicTriggerWrite n) s = .next s)
    ∧ (192 ≤ n → n ≤ 255 → exec (.hicTriggerWrite n) s = .next (s.irq n))
    ∧ (¬crew → exec (.hicSrcCfgWrite by_ k w) s = .next (s.pevLog (a + 4 * k.val) 1 true false))
    ∧ (crew → hicReserved k = true → exec (.hicSrcCfgWrite by_ k w) s = .next s)
    ∧ (crew → hicReserved k = false → k.val < 256 → Completes (.hicSrcCfgWrite by_ k w) s fun t =>
        t.hicPrio k = F.HIC_SRCn_CFG_PRIORITY.of w ∧ t.hicTarget k = F.HIC_SRCn_CFG_TARGET.of w
        ∧ (F.HIC_SRCn_CFG_SENSE.of w < 5 → t.hicSense k = F.HIC_SRCn_CFG_SENSE.of w)
        ∧ (5 ≤ F.HIC_SRCn_CFG_SENSE.of w → t.hicSense k = s.hicSense k)
        ∧ (F.HIC_SRCn_CFG_SENSE.of w < 5 → F.HIC_SRCn_CFG_SENSE.of w ≠ s.hicSense k → s.hicServing k = false → k.val ∉ t.hic.pend)
        ∧ t.hic.serv = s.hic.serv)
    ∧ (crew → exec (.msipWrite by_ c w) s = .next (s.put a F.HIC_C_MSIP_MSIP (F.HIC_C_MSIP_MSIP.of w) c))
    ∧ (¬crew → c = by_ → exec (.msipWrite by_ c w) s = .next (s.pevLog (a + 0x100C + 0x1000 * c.val) 1 true false))
    ∧ (¬crew → c ≠ by_ → exec (.msipWrite by_ c w) s = .next s)
    ∧ Completes (.mtimecmpReached c) s fun t =>
        (c.val ∈ t.hic.timers ↔ s.mtimecmp c ≤ s.pwr.mtime) ∧ (∀ d, d ≠ c.val → (d ∈ t.hic.timers ↔ d ∈ s.hic.timers))
        ∧ t = { s with hic := { s.hic with timers := t.hic.timers } }

/-- SkidTransfers (R536–R548): START is refused while HALTED, and of an active channel; another one makes the channel active,
its descriptor checked, and ends it DESC_ERROR where a check fails; ABORT marks an active channel; the channel whose turn it
is makes its burst, RESIDUE falls by the bytes moved, and a burst that may not be made is a bus error; a descriptor whose
last write is accepted has RESIDUE 0 and code DONE, and the chain ends or goes on with NEXT; a next descriptor that may not
be read is a bus error; a bus error stops every active channel with their bits shown and sets HALTED; writing 1 to HALTED
clears it. -/
def Obligations.SkidTransfers : Prop :=
  ∀ (c : Fin 32) (resume : Bool) (core : Fin 8) (data : Bytes) (s : State),
    let a := hubAt .skd
    let x := s.skd[c]
    let d := s.skdDesc c
    let halted := s.has a F.SKD_STATUS_HALTED = true
    let stopped (t : State) : Prop := (∀ e : Fin 32, (t.skd[e]).active = false) ∧ t.has a F.SKD_STATUS_HALTED = true
      ∧ (∀ e : Fin 32, (s.skd[e]).active = true → (t.skd[e]).code = .stopped)
      ∧ (∀ e : Fin 32, (s.skd[e]).active = false → t.skd[e] = s.skd[e])
    (halted → exec (.skdStart c resume core) s = .next (s.put a F.SKD_CH_STATUS_REFUSED 1 c))
    ∧ (¬halted → x.active = true → exec (.skdStart c resume core) s = .next (s.put a F.SKD_CH_STATUS_ERR_BUSY 1 c))
    ∧ (¬halted → x.active = false → resume = false → Completes (.skdStart c resume core) s fun t =>
        let y : Skd := { x with open_ := decide (6 ≤ core.val) }
        t.skdDesc c = d ∧ t.mem = s.mem ∧ (∀ e : Fin 32, e ≠ c → t.skd[e] = s.skd[e])
        ∧ (d.len = 0 → (t.skd[c]).active = true ∧ (t.skd[c]).last = true)
        ∧ (d.len ≠ 0 → s.descOk y d = true → (t.skd[c]).active = true ∧ (t.skd[c]).last = false ∧ (t.skd[c]).code = .running
            ∧ (t.skd[c]).open_ = decide (6 ≤ core.val) ∧ t.residue c = d.len)
        ∧ (d.len ≠ 0 → s.descOk y d = false → (t.skd[c]).active = false ∧ (t.skd[c]).code = .descError
            ∧ t.get a F.SKD_CNT_DESC_ERRORS = min (s.get a F.SKD_CNT_DESC_ERRORS + 1) 255))
    ∧ (x.active = false → exec (.skdAbort c) s = .next s)
    ∧ (x.active = true → exec (.skdAbort c) s = .next (s.setSkd c { x with abort := true }))
    ∧ ((∀ e : Fin 32, s.burstDue e = false) → exec (.skdBurstDone data []) s = .next s)
    ∧ (s.burstTurn = some c → s.burstDue c = true ∧
        (let t := { s with skdLast := c.val }
         let n := s.burstLen c
         let bs := (data ++ List.replicate n 0).take n
         (d.shost = true ∨ d.dhost = true → s.master d.func = false → exec (.skdBurstDone data []) s = .next t.busError)
         ∧ (d.shost = true → d.dhost = true → s.master d.func = true → exec (.skdBurstDone data []) s = .next
            ((t.hostWrite d.func (skdAddr d.dst (d.len - s.residue c) d.dw d.dinc) bs true).burstMoved c n))
         ∧ (n < s.residue c → x.abort = false → (t.burstMoved c n) = t.putResidue c (s.residue c - n))))
    ∧ ((x.active = false ∨ x.last = false) → exec (.skdDescriptorDone c) s = .next s)
    ∧ (x.active = true → x.last = true → x.descAt = none → d.irq = false → Completes (.skdDescriptorDone c) s fun t =>
        t.residue c = 0 ∧ t.mem = s.mem
        ∧ (d.next = 0 → (t.skd[c]).active = false ∧ (t.skd[c]).code = .done)
        ∧ (d.next ≠ 0 → (t.skd[c]).active = true ∧ (t.skd[c]).fetch = some d.next ∧ (t.skd[c]).last = false))
    ∧ (x.active = false ∨ x.fetch = none → exec (.skdDescriptorLoad c []) s = .next s)
    ∧ (∀ p, x.active = true → x.fetch = some p →
        (s.mayReach x.init p false = false ∨ hubMemory p = none →
          exec (.skdDescriptorLoad c []) s = .next (s.pevLog p x.group false false).busError)
        ∧ (∀ mem m, s.mayReach x.init p false = true → hubMemory p = some (mem, m) → (s.checkRange mem m 32 3).2 = [] → x.abort = false →
            let u := (s.checkRange mem m 32 3).1
            let e := skdDescOf (u.readBytes mem m 32)
            e.len ≠ 0 → u.descOk x e = true → exec (.skdDescriptorLoad c []) s = .next
              (((u.putDesc c e).setSkd c { x with fetch := none, descAt := some p }).descLoaded c)))
    ∧ Completes .skdBusError s stopped
    ∧ exec .skdHaltedClear s = .next (s.put a F.SKD_STATUS_HALTED 0)

/-- FirmwareUpdate (R475, R551, R554, R556–R566): the end of a flash operation fires source 161, and programs the waiting
chunk into the inactive bank, which is LOADED after the chunk that carries LAST and PARTIAL before it; a scheduled activation
starts once TIM_NOW reaches its TIME: fetch stops; its steps follow one another, none without the step before it, and the
reset of step 6 waits for a transfer; that reset leaves the host side held with cause ACTIVATION or ROLLBACK, and no
activation or schedule of its own. Second: the check at boot runs only while the journal shows PENDING; a set that passes is
on trial under its own bank and the journal shows TRIAL, one that fails is rejected with its reason; self-tests count once,
of a trial set that nothing replaces; passed, they confirm the set unless CONFIRM HEALTH is awaited; failed, or the window
expired, the device rolls back; confirmation makes the journal name the running bank, STEADY, and never lowers the SVN floor.
-/
def Obligations.FirmwareUpdate : Prop :=
  (∀ (s : State),
    let loads := fun (c : Cmd) => c.opcode == 0x90 && decide (c.wait = .engine)
    (s.qen.cmds.find? loads = none → exec .flashOperationDone s = .next (s.irq 161))
    ∧ (∀ c, s.qen.cmds.find? loads = some c →
        let t := s.irq 161
        let u := t.putBytes (flashAt + bankAt t.altBank + 4096 * c.word 7) c.data
        let last := bitOf (c.word 8) 0
        exec .flashOperationDone s = .next ((u.setBank t.altBank
          { st := if last then .loaded else .partly, units := c.word 7 + c.count, last }).finish c stSuccess (c.word 7 + c.count)).settle)
    ∧ (s.fwu.sched = none → exec .activationStart s = .next s)
    ∧ (∀ x, s.fwu.sched = some x →
        (s.now < x.time ∨ s.fwu.act ≠ none ∨ s.pwr.boot ≠ .ready → exec .activationStart s = .next s)
        ∧ (x.time ≤ s.now → s.fwu.act = none → s.pwr.boot = .ready →
            exec .activationStart s = .next ((s.irq 160).beginRun { sched := x })))
    ∧ ((∀ x, s.fwu.act = some x → x.step ≠ .drain) → exec .activationDrainDone s = .next s)
    ∧ ((∀ x, s.fwu.act = some x → x.step ≠ .flush) → exec .activationFlushDone s = .next s)
    ∧ ((∀ x, s.fwu.act = some x → x.step ≠ .post) → exec .activationReset s = .next s)
    ∧ (∀ x, s.fwu.act = some x →
        (x.step = .drain → exec .activationDrainDone s = .next (s.beginFlush x))
        ∧ (x.step = .flush → exec .activationFlushDone s = .next (s.endFlush x))
        ∧ (x.step = .post → (∃ y ∈ s.crew.items, y.kind = 6) → exec .activationReset s = .next s)
        ∧ (x.step = .post → (∀ y ∈ s.crew.items, y.kind ≠ 6) → Completes .activationReset s fun t =>
            t.pwr.boot = .held ∧ t.fwu.act = none ∧ t.fwu.sched = none ∧ t.fwu.notify = true ∧ t.qen = {} ∧ t.crew = {}
            ∧ t.field = s.field ∧ t.pwr.cause = (if x.rollback = none then .activation else .rollback))))
  ∧ (∀ (s : State),
    let j := s.journal
    let t := s.writeJournal { j with st := .checking }
    let pend := s.pwr.boot = .rom ∧ j.st = .pending
    let tested := { s with fwu := { s.fwu with tested := true } }
    (¬pend → exec .bootCheck s = .next s)
    ∧ (pend → exec .bootCheck s = .next (match t.checkSet j.new with
        | some (r, i) => t.rejectSet r i
        | none =>
          let v := t.writeJournal { j with st := .trial }
          { v with fwu := { v.fwu with run := .trial, bank := j.new } }))
    ∧ (s.onTrial = false ∨ s.fwu.tested = true → exec .selfTestDone s = .next s)
    ∧ (s.onTrial = true → s.fwu.tested = false →
        (s.selfTests = false → exec .selfTestDone s = .next (s.rollback 9))
        ∧ (s.selfTests = true → s.journal.confirm = true → s.fwu.hostAsked = false → exec .selfTestDone s = .next tested)
        ∧ (s.selfTests = true → (s.journal.confirm = false ∨ s.fwu.hostAsked = true) →
            exec .selfTestDone s = .next tested.confirmSet))
    ∧ (s.onTrial = false → exec .confirmationWindowExpiry s = .next s)
    ∧ (s.onTrial = true → exec .confirmationWindowExpiry s = .next ((s.epEvt 6).rollback 10))
    ∧ s.fwu.svnFloor ≤ s.confirmSet.fwu.svnFloor
    ∧ (s.healthWaiters = [] → s.confirmSet.fwu.run = .confirmed ∧ s.confirmSet.fwu.lost = 0))

/-- BootStages (R560, R561, R565–R568, R587, R588, R590, R591): the ROM stage runs only from reset with supplies good, takes
device time from the keeper, empties a partial bank, and boots as the journal says; STUMP2 runs only after the ROM stage, and
leaves GLB_LOCK set; with the memories initialised the hub is READY; a GO without a chunk, or once the firmware runs, does
nothing, a good CRC loads the die, and a bad one counts an attempt and fails the die at the third; FIELD_READY needs every
powered die ready. -/
def Obligations.BootStages : Prop :=
  ∀ (channels sets : Nat) (w : List (Nat × Word)) (d : Die) (s : State),
    let x := s.dies[d]
    let a := dieAt .fpw d
    let fitted := d ≠ 0 ∧ s.hasDie d.val = true ∧ x.power = true
    let idle := x.chunks = [] ∨ x.boot = .loaded ∨ x.boot = .running
    let good := s.get a F.FPW_BOOT_CRC_CRC = (x.crc ^^^ 0xFFFFFFFF)
    let rom : State := { s with
      ep := { s.ep with perst := false }
      pwr := { s.pwr with boot := .rom, now := s.pwr.keeper, mtime := 0, on := 2 ^ 30 - 1 - 2 ^ 8 - 2 ^ 9 }
      fwu := { s.fwu with banks := s.fwu.banks.map Bank.atBoot } }
    let settled := (if rom.journalInUse.isNone then rom.writeJournal {} else rom).applyBootBlock
    let holds := s.pwr.boot = .held ∧ s.pwr.tripped = false ∧ s.pwr.hot = false
    (¬holds → exec .romStageBoot s = .next s)
    ∧ (holds → settled.journal.st = .steady → exec .romStageBoot s = .next settled.bootActive)
    ∧ (holds → settled.journal.st = .pending → exec .romStageBoot s = .next settled)
    ∧ (holds → settled.journal.st = .checking → exec .romStageBoot s = .next (settled.rejectSet 8 0))
    ∧ (holds → settled.journal.st = .trial → exec .romStageBoot s = .next settled.abandonSet)
    ∧ (∀ b : Bank, b.st = .partly → b.atBoot.st = .empty ∧ b.atBoot.units = 0)
    ∧ (s.pwr.boot ≠ .rom ∨ s.journal.st = .pending → exec (.stump2BringUp channels sets w) s = .next s)
    ∧ (s.pwr.boot = .rom → s.journal.st ≠ .pending → Completes (.stump2BringUp channels sets w) s fun t => t.locked = true)
    ∧ (s.pwr.boot ≠ .stump2 → exec .memoryInitDone s = .next s)
    ∧ (s.pwr.boot = .stump2 → Completes .memoryInitDone s fun t =>
        t.pwr.boot = .ready ∧ t.fwu.notify = false ∧ t.mem = s.mem ∧ t.qen = s.qen
        ∧ (s.fwu.notify = false → t.has (hubAt .miu) F.MIU_STATUS_INIT_DONE = true ∧ t.has (hubAt .lnd) F.LND_STATUS_READY = true))
    ∧ (¬fitted ∨ idle → exec (.fpwBootGo d) s = .next s)
    ∧ (fitted → ¬idle → good → Completes (.fpwBootGo d) s fun t => t.dies[d] = { x with boot := .loaded, crcFail := false }
        ∧ t.get a F.FPW_CNT_LOADS = min (s.get a F.FPW_CNT_LOADS + 1) 255 ∧ (∀ e : Die, e ≠ d → t.dies[e] = s.dies[e]))
    ∧ (fitted → ¬idle → ¬good → Completes (.fpwBootGo d) s fun t =>
        t.dies[d] = { x with crcFail := true, fails := x.fails + 1, failed := x.failed || decide (3 ≤ x.fails + 1) }
        ∧ (3 ≤ x.fails + 1 → x.failed = false → t.has (hubAt .pwr) F.PWR_STATUS_FIELD_FAILED = true))
    ∧ (s.loadsDies = false ∨ (∃ e : Die, s.dieReady e = false) → exec .fieldReady s = .next s)
    ∧ (s.loadsDies = true → (∀ e : Die, s.dieReady e = true) →
        exec .fieldReady s = .next (s.put (hubAt .pwr) F.PWR_STATUS_FIELD_READY 1).settle)

/-- SuppliesAndTime (R575, R577, R578, R585, R586, R596, R601, R638): a trip of the host side resets it and drives FAULT_N
low until it is released; VAUX_H loss resets it with the keeper at 0; a trip of a field die resets that die and takes its
power; MV is the mean of at most 16 codes; LOW and HIGH set and clear across their thresholds; a tick of the crystal adds its
part of device time; the loss of the crystal is raised once, and the keeper then follows TIM_NOW while the hub runs. -/
def Obligations.SuppliesAndTime : Prop :=
  ∀ (d : Die) (code : Fin 4096) (s : State),
    let p := s.pwr
    let fitted := d ≠ 0 ∧ s.hasDie d.val = true
    let y := s.dies[s.code.ceilDie]
    let a := dieAt .fpw s.code.ceilDie
    let low := s.get a F.FPW_VMECH_CFG_LOW_MV
    let high := s.get a F.FPW_VMECH_CFG_HIGH_MV
    let valid := s.vmechValid s.code.ceilDie = true
    Completes .hostSupplyTrip s (fun t => t.pwr.boot = .held ∧ t.pwr.tripped = true ∧ t.pwr.faultN = true ∧ t.pwr.cause = .supply
        ∧ t.pwr.keeper = p.keeper ∧ t.qen = {} ∧ t.field = s.field)
    ∧ (p.tripped = false → exec .hostSupplyRelease s = .next s)
    ∧ (p.tripped = true → exec .hostSupplyRelease s = .next { s with pwr := { p with tripped := false, faultN := p.hot } })
    ∧ (p.boot ≠ .held → exec .fabricPllLockTimeout s = .next s)
    ∧ (p.boot = .held → exec .fabricPllLockTimeout s = .next { s with pwr := { p with tripped := true, faultN := true } })
    ∧ Completes .vauxLoss s (fun t => t.pwr.boot = .held ∧ t.pwr.keeper = 0 ∧ t.pwr.now = 0 ∧ t.pwr.aonLost = true
        ∧ t.pwr.cause = .powerOn ∧ t.qen = {} ∧ t.field = s.field)
    ∧ (¬fitted → exec (.fieldSupplyTrip d) s = .next s)
    ∧ (fitted → exec (.fieldSupplyTrip d) s = .next (s.dieTrips d true false))
    ∧ Completes (.junctionOvertemp 0) s (fun t => t.pwr.boot = .held ∧ t.pwr.hot = true ∧ t.pwr.faultN = true ∧ t.pwr.cause = .supply)
    ∧ (d ≠ 0 → s.hasDie d.val = false → exec (.junctionOvertemp d) s = .next s)
    ∧ (fitted → exec (.junctionOvertemp d) s = .next (s.dieTrips d false true))
    ∧ (d ≠ 0 → exec (.junctionOvertempRelease d) s = .next (s.setDie d { s.dies[d] with hot := false }))
    ∧ exec (.junctionOvertempRelease 0) s = .next
        { s with pwr := { p with hot := false, faultN := if p.hot then p.tripped else p.faultN } }
    ∧ (y.power = false → exec (.vmechSample code) s = .next s)
    ∧ (y.power = true → Completes (.vmechSample code) s fun t =>
        let z := t.dies[s.code.ceilDie]
        z.vmech = (y.vmech ++ [code.val]).drop (y.vmech.length + 1 - 16) ∧ (y.vmech.length ≤ 16 → z.vmech.length ≤ 16)
        ∧ (z.vmechOk = true ↔ code.val * 1800 < 1780 * 4096) ∧ z.vmechAt = some s.clock
        ∧ z.vmechMv = vmechMv z.vmech (s.get a F.FPW_VMECH_DIV_DIV) ∧ (∀ e : Die, e ≠ s.code.ceilDie → t.dies[e] = s.dies[e]))
    ∧ (y.power = false ∨ y.low = true ∨ (low ≤ y.vmechMv ∧ valid) → exec .fpwVmechLow s = .next s)
    ∧ (y.power = true → y.low = false → y.vmechMv < low ∨ ¬valid → exec .fpwVmechLow s = .next
        (((s.setDie s.code.ceilDie { y with low := true }).bump a F.FPW_CNT_VMECH_LOW).raiseDie s.code.ceilDie 0x0F01 none 0 0xFFFF
          y.vmechMv 0).transfersStop)
    ∧ (y.low = false ∨ ¬valid ∨ y.vmechMv ≤ low + 200 → exec .vmechLowClear s = .next s)
    ∧ (y.low = true → valid → low + 200 < y.vmechMv →
        exec .vmechLowClear s = .next (s.setDie s.code.ceilDie { y with low := false }))
    ∧ (y.power = false ∨ y.high = true ∨ y.vmechMv ≤ high → exec .fpwVmechHigh s = .next s)
    ∧ (y.power = true → y.high = false → high < y.vmechMv → exec .fpwVmechHigh s = .next
        ((s.setDie s.code.ceilDie { y with high := true }).raiseDie s.code.ceilDie 0x0F02 none 0 0xFFFF y.vmechMv 0))
    ∧ (y.high = false ∨ high ≤ y.vmechMv + 200 → exec .vmechHighClear s = .next s)
    ∧ (y.high = true → y.vmechMv + 200 < high →
        exec .vmechHighClear s = .next (s.setDie s.code.ceilDie { y with high := false }))
    ∧ (p.frac < 2 ^ 24 → Completes .keeperTick s fun t =>
        t.pwr.keeper * 2 ^ 24 + t.pwr.frac = p.keeper * 2 ^ 24 + p.frac + 512000000000 ∧ t.pwr.frac < 2 ^ 24
        ∧ t.pwr.ticks = p.ticks + 1 ∧ t.pwr.now = p.now ∧ t.mem = s.mem ∧ t.qen = s.qen)
    ∧ (p.lost = true → Completes .pwrXtalLost s fun t => t.pwr.lost = true ∧ t.pwr.events = p.events ∧ t.pwr.ticks = 0
        ∧ (p.boot ≠ .held → t.pwr.keeper = p.now) ∧ (p.boot = .held → t.pwr.keeper = p.keeper))
    ∧ (p.lost = false → Completes .pwrXtalLost s fun t => t.pwr.lost = true
        ∧ (p.boot ≠ .held → t.pwr.keeper = t.pwr.now) ∧ (p.boot = .held → t.pwr.keeper = p.keeper))

/-- DomainsIdleBaysAndJtag (R416, R418, R420, R486, R580–R583): a domain whose off condition does not hold, or that is held,
does not go off, another one does; a request wakes a domain that is off, and is counted; an idle bay's spindle is told to
idle and its disc goes back only where the times of R486 are set; JTAG reaches what the debug level lets it, and what the map
denies is logged. -/
def Obligations.DomainsIdleBaysAndJtag : Prop :=
  ∀ (n : Fin 80) (b : Bay) (x : Nat) (w : Option Word) (s : State),
    let z := s.crew.bays[b]
    let goes := s.crew.bays[b].disc ≠ none ∧ s.bayIdle b = true ∧ s.pwr.idleBack ≠ 0 ∧ s.code.changer = true ∧ s.fieldReady = true
    let y := x / 4 * 4
    let t := s.wake 29
    (s.mayGoOff n = false → exec (.domainSwitchOff n) s = .next s)
    ∧ (s.held n = true → s.mayGoOff n = false)
    ∧ (s.mayGoOff n = true → n.val < 30 → exec (.domainSwitchOff n) s = .next (s.setDomain n false))
    ∧ (∀ d i, s.mayGoOff n = true → fieldDomain n = some (d, i) → exec (.domainSwitchOff n) s = .next (s.setFieldDomain d i false))
    ∧ exec (.domainWake n) s = .next (s.wake n)
    ∧ (n.val < 30 → hubWakes n = false ∨ bitOf s.pwr.on n = true → s.wake n = s)
    ∧ (n.val < 30 → hubWakes n = true → bitOf s.pwr.on n = false → s.pwr.boot ≠ .held → bitOf (s.wake n).pwr.on n = true
        ∧ (s.wake n).get (hubAt .pwr) F.PWR_CNT_WAKES = min (s.get (hubAt .pwr) F.PWR_CNT_WAKES + 1) 65535
        ∧ (s.wake n).get (hubAt .pwr) F.PWR_CNT_WAKE_WAITS = min (s.get (hubAt .pwr) F.PWR_CNT_WAKE_WAITS + 1) 65535)
    ∧ (z.disc = none → exec (.bayIdleSpindle b) s = .next s)
    ∧ (∀ e, z.disc = some e →
        let ok := e.mounted = true ∧ s.bayIdle b = true ∧ s.pwr.idleSpin ≠ 0 ∧ s.ports[dieOfBay b].state = .up
        (¬ok → exec (.bayIdleSpindle b) s = .next s)
        ∧ (ok → exec (.bayIdleSpindle b) s = .next (s.send (dieOfBay b) .hub (regWriteMsg 0xA04 (bayInDie b) 0xFFFB
            (BitVec.ofNat 32 (2 * 2 ^ 16 + s.get (bayAt .spn b) F.SPN_CMD_TARGET))))))
    ∧ (¬goes → exec (.bayIdleReturn b) s = .next s)
    ∧ (goes → exec (.bayIdleReturn b) s = .next (s.clearBay b 3 0 1023))
    ∧ (s.pwr.boot = .held → exec (.jtagAccess x w) s = .next s)
    ∧ (s.pwr.boot ≠ .held → t.jtagReaches y = false → exec (.jtagAccess x w) s = .next t)
    ∧ (s.pwr.boot ≠ .held → t.jtagReaches y = true → t.mayReach { group := 7 } y w.isSome = false →
        exec (.jtagAccess x w) s = .next (t.pevLog y 7 w.isSome false))
    ∧ (s.pwr.boot ≠ .held → t.jtagReaches y = true → t.mayReach { group := 7 } y w.isSome = true →
        exec (.jtagAccess x w) s = .next (t.jtagWord y w))

/-- TurnCommitAddress (R613): the commit register of slot n stands at r = 0x20 of the slot's register set, at field address
0x9020 + 0x40n of every bay space whose window shows the turn engine. -/
def Obligations.TurnCommitAddress : Prop :=
  ∀ (s : State) (d : Die) (bay : Nat) (n : Fin 48), d ≠ 0 → bay < 2 → (d = 1 → bay = 0) → s.tapsOpen d bay = false →
    groupCommitAt (.trnSlot d n) = dieAt .trn d + 0x1000 + 0x40 * n.val + 0x20
    ∧ ∃ l, s.fieldFind d bay (0x9020 + 0x40 * n.val) = some (.trn, 0x1000 + 0x40 * n.val + 0x20, l)
      ∧ commitAt .trn d (bayOf d bay) (0x1000 + 0x40 * n.val + 0x20) = some (.trnSlot d n)

end
end

