-- ==== Sys2Proof/Laws/FieldBase.lean ====
section
/-! SUPPORT. The part of the state that commands of the other side of the barrier leave alone: the rules that the lemmas of
this folder use. -/
namespace Sys2Proof.Machine

theorem State.field_fold (s : State) : (s.sfe, s.latDie, s.lat, s.recp, s.osv, s.trn, s.spn, s.ceil, s.axp, s.yrd, s.cru) =
    s.field := by
  unfold State.field; exact Eq.refl _

theorem State.field_mk x0 x1 x2 x3 x4 x5 x6 x7 x8 x9 x10 x11 x12 x13 x14 x15 x16 x17 x18 x19 x20 x21 x22 x23 x24 x25 x26 x27
    x28 x29 x30 x31 x32 : (State.mk x0 x1 x2 x3 x4 x5 x6 x7 x8 x9 x10 x11 x12 x13 x14 x15 x16 x17 x18 x19 x20 x21 x22 x23 x24
    x25 x26 x27 x28 x29 x30 x31 x32).field = (x10, x11, x12, x13, x14, x15, x16, x17, x18, x19, x20) := by
  unfold State.field; exact Eq.refl _

theorem State.field_ite (c : Prop) [Decidable c] (a b : State) : (if c then a else b).field = if c then a.field else b.field
    := by
  split <;> rfl

theorem State.field_fst_ite {α : Type} (c : Prop) [Decidable c] (a b : State × α) :
    (if c then a else b).1.field = if c then a.1.field else b.1.field := by
  split <;> rfl

theorem State.field_foldl {α : Type} (f : State → α → State) (l : List α) (s : State) (h : ∀ t x, (f t x).field = t.field) :
    (l.foldl f s).field = s.field := by
  induction l generalizing s with
  | nil => rfl
  | cons x l ih => rw [List.foldl_cons, ih, h]

theorem State.field_foldl_fst {α β : Type} (f : State × β → α → State × β) (l : List α) (p : State × β)
    (h : ∀ t y x, (f (t, y) x).1.field = t.field) : (l.foldl f p).1.field = p.1.field := by
  induction l generalizing p with
  | nil => rfl
  | cons x l ih => rw [List.foldl_cons, ih]; exact h _ _ x

end Sys2Proof.Machine
end

