-- ==== Sys2Proof/Laws/Field1.lean ====
section
/-! SUPPORT. Commands of the hub side leave the field dies alone: lemmas of Ops, Groups, HubOps, Domains, MiuOps, LndOps,
VlkOps, QenOps. -/
namespace Sys2Proof.Machine

set_option linter.unusedSimpArgs false
set_option linter.unusedTactic false
set_option linter.unnecessarySeqFocus false
set_option linter.unreachableTactic false

theorem State.drawn_field (s : State) : (State.drawn s).field = s.field := by
  unfold State.drawn
  simp only [↓State.field_mk, ↓State.field_fold]

theorem State.put_field (s : State) (a : Nat) (f : Field) (v : Nat) (i : Nat) (j : Nat) : (State.put s a f v i j).field =
    s.field := by
  unfold State.put
  simp only [↓State.field_mk, ↓State.field_fold]

theorem State.bumpBy_field (s : State) (a : Nat) (f : Field) (n : Nat) (i : Nat) (j : Nat) : (State.bumpBy s a f n i j).field
    = s.field := by
  unfold State.bumpBy
  simp only [↓State.put_field]

theorem State.bump_field (s : State) (a : Nat) (f : Field) (i : Nat) (j : Nat) : (State.bump s a f i j).field = s.field := by
  unfold State.bump
  simp only [↓State.bumpBy_field]

theorem writeField_field (locked : Bool) (l : Loc) (w : Word) (s : State) (f : Field) : (writeField locked l w s f).field =
    s.field := by
  unfold writeField
  (repeat' split) <;> simp only [↓State.field_mk, ↓State.field_fold]

theorem State.writeWord_field (s : State) (locked : Bool) (l : Loc) (w : Word) : (State.writeWord s locked l w).field =
    s.field := by
  unfold State.writeWord
  (repeat' split) <;> simp_all [↓State.field_ite, ↓writeField_field, State.field_foldl]

theorem State.send_field (s : State) (d : Die) (from_ : Side) (m : Msg) : (State.send s d from_ m).field = s.field := by
  unfold State.send
  simp only [↓State.field_mk, ↓State.field_fold]

theorem State.received_field (s : State) (d : Die) (at_ : Side) (m : Msg) : (State.received s d at_ m).field = s.field := by
  unfold State.received
  simp only [↓State.field_mk, ↓State.field_fold]

theorem State.setDie_field (s : State) (d : Die) (x : DieSt) : (State.setDie s d x).field = s.field := by
  unfold State.setDie
  simp only [↓State.field_mk, ↓State.field_fold]

theorem State.raiseDie_field (s : State) (d : Die) (code : Nat) (bay : Option Nat) (sub unit : Nat) (v1 : Int) (v2 : Nat) :
    (State.raiseDie s d code bay sub unit v1 v2).field = s.field := by
  unfold State.raiseDie
  simp only [↓State.send_field]

theorem State.dropItem_field (s : State) (d : Die) (item : Nat) : (State.dropItem s d item).field = s.field := by
  unfold State.dropItem
  simp only [↓State.setDie_field]

theorem State.endItem_field (s : State) (d : Die) (item : Nat) (st : WStatus) (cause : Nat) (cont : Option Nat) :
    (State.endItem s d item st cause cont).field = s.field := by
  unfold State.endItem
  grind [State.field_mk, State.send_field, State.dropItem_field]

theorem State.activate_field (s : State) (g : Group) : (State.activate s g).field = s.field := by
  unfold State.activate
  (repeat' split) <;> simp only [↓State.field_mk, ↓State.field_fold]

theorem State.commitSet_field (s : State) (g : Group) (consistent : Bool) : (State.commitSet s g consistent).field = s.field
    := by
  unfold State.commitSet
  (repeat' split) <;> simp only [↓State.field_mk, ↓State.field_fold, ↓State.put_field]

theorem State.putBytes_field (s : State) (a : Nat) (bs : Bytes) : (State.putBytes s a bs).field = s.field := by
  unfold State.putBytes
  simp only [↓State.field_mk, ↓State.field_fold]

theorem State.setDomain_field (s : State) (n : Nat) (on : Bool) : (State.setDomain s n on).field = s.field := by
  unfold State.setDomain
  simp only [↓State.field_mk, ↓State.field_fold]

theorem State.setFn_field (s : State) (f : Nat) (x : Fn) : (State.setFn s f x).field = s.field := by
  unfold State.setFn
  simp only [↓State.field_mk, ↓State.field_fold]

theorem State.hicEdge_field (s : State) (n : Nat) : (State.hicEdge s n).field = s.field := by
  unfold State.hicEdge
  (repeat' split) <;> simp only [↓State.field_mk, ↓State.field_fold, ↓State.bump_field]

theorem State.irq_field (s : State) (n : Nat) : (State.irq s n).field = s.field := by
  unfold State.irq
  grind [State.field_mk, State.hicEdge_field]

theorem State.emit_field (s : State) (p : Tlp) : (State.emit s p).field = s.field := by
  unfold State.emit
  simp only [↓State.field_mk, ↓State.field_fold]

theorem State.aer_field (s : State) (f : Nat) (e : AerError) : (State.aer s f e).field = s.field := by
  unfold State.aer
  simp only [↓State.field_mk, ↓State.field_fold]

theorem State.hostWrite_field (s : State) (f a : Nat) (bs : Bytes) (data : Bool) : (State.hostWrite s f a bs data).field =
    s.field := by
  unfold State.hostWrite
  (repeat' split) <;> simp_all [↓State.emit_field, State.field_foldl]

theorem State.tagPeak_field (s : State) : (State.tagPeak s).field = s.field := by
  unfold State.tagPeak
  simp only [↓State.put_field]

theorem issuePieces_field (s : State) (r : HostRead) (l done : List Piece) : (issuePieces s r done l).1.field = s.field := by
  induction l generalizing done s with
  | nil => rfl
  | cons p t ih =>
    unfold issuePieces
    split
    · simp only []
      split
      · rfl
      · simp only [ih, State.emit_field]
    · simp only [ih]

theorem State.hostRead_field (s : State) (f a len : Nat) (prior : Bool) (what : ReadFor) : (State.hostRead s f a len prior
    what).field = s.field := by
  unfold State.hostRead
  simp only [↓State.field_mk, ↓State.field_fold, ↓State.tagPeak_field, ↓issuePieces_field]

theorem State.setMsix_field (s : State) (f v : Nat) (e : MsixEntry) : (State.setMsix s f v e).field = s.field := by
  unfold State.setMsix
  simp only [↓State.field_mk, ↓State.field_fold]

theorem State.msixFire_field (s : State) (f v : Nat) : (State.msixFire s f v).field = s.field := by
  unfold State.msixFire
  grind [State.field_mk, State.emit_field, State.setMsix_field]

theorem State.epEvt_field (s : State) (i : Nat) : (State.epEvt s i).field = s.field := by
  unfold State.epEvt
  grind [State.field_mk, State.put_field, State.msixFire_field]

theorem State.pageChanged_field (s : State) (lid : Nat) : (State.pageChanged s lid).field = s.field := by
  unfold State.pageChanged
  simp only [↓State.field_mk, ↓State.field_fold]

theorem State.logEvent_field (s : State) (e : EventEntry) : (State.logEvent s e).field = s.field := by
  unfold State.logEvent
  simp only [↓State.field_mk, ↓State.field_fold, ↓State.field_ite, ↓State.field_fst_ite, ↓State.epEvt_field, ↓State.pageChanged_field]
  (repeat' split) <;> simp only [↓State.field_mk, ↓State.field_fold, ↓State.field_ite, ↓State.field_fst_ite, ↓State.epEvt_field, ↓State.pageChanged_field, ite_self]

theorem State.raiseHub_field (s : State) (code sub unit : Nat) (v1 : Nat) (v2 : Nat) : (State.raiseHub s code sub unit v1
    v2).field = s.field := by
  unfold State.raiseHub
  simp only [↓State.logEvent_field]

theorem State.pevLog_field (s : State) (addr group : Nat) (write bl : Bool) : (State.pevLog s addr group write bl).field =
    s.field := by
  unfold State.pevLog
  simp only [↓State.put_field, ↓State.irq_field, ↓State.epEvt_field, ↓State.pageChanged_field]

theorem State.setFieldDomain_field (s : State) (d : Die) (i : Nat) (on : Bool) : (State.setFieldDomain s d i on).field =
    s.field := by
  unfold State.setFieldDomain
  simp only [↓State.setDie_field]

theorem State.keepOn_field (s : State) : (State.keepOn s).field = s.field := by
  unfold State.keepOn
  extract_lets a l
  have hl : ∀ n ∈ l, n < 30 := fun n h => List.mem_range.1 (List.mem_of_mem_filter h)
  clear_value l
  induction l generalizing s with
  | nil => rfl
  | cons n l ih =>
    rw [List.foldl_cons, ih _ fun m h => hl m (List.mem_cons_of_mem _ h)]
    unfold State.comeOn
    have hn := hl n List.mem_cons_self
    simp only [hn, if_true]
    split
    · rw [State.bump_field, State.setDomain_field]
    · rfl

theorem State.setFlips_field (s : State) (k v : Nat) : (State.setFlips s k v).field = s.field := by
  unfold State.setFlips
  simp only [↓State.field_mk, ↓State.field_fold]

theorem State.upset_field (s : State) (l : List (Nat × Nat)) : (State.upset s l).field = s.field := by
  unfold State.upset
  (repeat' split) <;> simp_all [↓State.setFlips_field, State.field_foldl]

theorem State.miuEntry_field (s : State) (n kind mem req addr syn : Nat) : (State.miuEntry s n kind mem req addr syn).field =
    s.field := by
  unfold State.miuEntry
  simp only [↓State.put_field, ↓State.pageChanged_field]

theorem State.miuLog_field (s : State) (kind mem req addr syn : Nat) : (State.miuLog s kind mem req addr syn).field = s.field
    := by
  unfold State.miuLog
  (repeat' split) <;> simp_all [↓State.field_mk, ↓State.field_fold, ↓State.field_ite, ↓State.put_field, ↓State.miuEntry_field]

theorem State.countUe_field (s : State) (kind mem req addr flips : Nat) : (State.countUe s kind mem req addr flips).field =
    s.field := by
  unfold State.countUe
  grind [State.field_mk, State.put_field, State.bump_field, State.epEvt_field, State.miuLog_field]

theorem State.countCe_field (s : State) (mem req addr flips : Nat) : (State.countCe s mem req addr flips).field = s.field :=
    by
  unfold State.countCe
  grind [State.field_mk, State.put_field, State.bump_field, State.epEvt_field, State.pageChanged_field, State.miuLog_field]

theorem State.checkRange_field (s : State) (mem a n req : Nat) : (State.checkRange s mem a n req).1.field = s.field := by
  unfold State.checkRange
  simp only []
  (repeat' split) <;> (try refine (State.field_foldl_fst _ _ _ fun t y x => ?_).trans ?_) <;> (try dsimp only) <;> (repeat' split) <;> (try simp only []) <;> grind [State.field_mk, State.countUe_field, State.countCe_field]

theorem State.writeBytes_field (s : State) (mem a : Nat) (bs : Bytes) : (State.writeBytes s mem a bs).field = s.field := by
  unfold State.writeBytes
  simp only [↓State.field_mk, ↓State.field_fold, ↓State.putBytes_field]

theorem State.mergeUnit_field (s : State) (mem a : Nat) (bs : Bytes) (req : Nat) : (State.mergeUnit s mem a bs req).field =
    s.field := by
  unfold State.mergeUnit
  grind [State.field, State.field, State.bump_field, State.countUe_field, State.countCe_field, State.writeBytes_field]

theorem State.storeBytes_field (s : State) (mem a : Nat) (bs : Bytes) (req : Nat) : (State.storeBytes s mem a bs req).field =
    s.field := by
  unfold State.storeBytes
  (repeat' split) <;> simp_all [↓State.mergeUnit_field, State.field_foldl]

theorem State.inject_field (s : State) (target mem a : Nat) : (State.inject s target mem a).field = s.field := by
  unfold State.inject
  grind [State.field_mk, State.put_field, State.setFlips_field]

theorem State.setLine_field (s : State) (e : Nat) (l : Line) : (State.setLine s e l).field = s.field := by
  unfold State.setLine
  simp only [↓State.field_mk, ↓State.field_fold]

theorem State.retireSweep_field (s : State) : (State.retireSweep s).field = s.field := by
  unfold State.retireSweep
  (repeat' split) <;> simp_all [↓State.field_ite, ↓State.setLine_field, State.field_foldl]

theorem State.setMiss_field (s : State) (m : Miss) : (State.setMiss s m).field = s.field := by
  unfold State.setMiss
  simp only [↓State.field_mk, ↓State.field_fold]

theorem State.freeMiss_field (s : State) (id : Nat) : (State.freeMiss s id).field = s.field := by
  unfold State.freeMiss
  simp only [↓State.field_mk, ↓State.field_fold]

theorem State.victim_field (s : State) (slot log : Nat) : (State.victim s slot log).1.field = s.field := by
  unfold State.victim
  simp only []
  (repeat' split) <;> (try refine (State.field_foldl _ _ _ fun t x => ?_).trans ?_) <;> (try dsimp only) <;> (repeat' split) <;> (try simp only []) <;> grind [State.field_mk, State.setLine_field]

theorem State.park_field (s : State) (r : Request) (why : Park) : (State.park s r why).field = s.field := by
  unfold State.park
  (repeat' split) <;> simp only [↓State.field_mk, ↓State.field_fold, ↓State.bump_field]

theorem State.addMiss_field (s : State) (m : Miss) : (State.addMiss s m).field = s.field := by
  unfold State.addMiss
  simp only [↓State.field_mk, ↓State.field_fold, ↓State.put_field, ↓State.bump_field]

theorem State.allocMiss_field (s : State) (r : Request) : (State.allocMiss s r).1.field = s.field := by
  unfold State.allocMiss
  grind [State.field_mk, State.setLine_field, State.victim_field, State.park_field, State.addMiss_field]

theorem State.joinMiss_field (s : State) (m : Miss) (r : Request) : (State.joinMiss s m r).1.field = s.field := by
  unfold State.joinMiss
  grind [State.field_mk, State.bump_field, State.setMiss_field, State.park_field]

theorem State.otherVictim_field (s : State) (m : Miss) : (State.otherVictim s m).field = s.field := by
  unfold State.otherVictim
  grind [State.field_mk, State.bump_field, State.setLine_field, State.setMiss_field, State.victim_field]

theorem State.lookupOn_field (s : State) (r : Request) : (State.lookupOn s r).1.field = s.field := by
  unfold State.lookupOn
  grind [State.field_mk, State.bump_field, State.setLine_field, State.park_field, State.addMiss_field, State.allocMiss_field, State.joinMiss_field, State.otherVictim_field]

theorem State.lookupOff_field (s : State) (r : Request) : (State.lookupOff s r).1.field = s.field := by
  unfold State.lookupOff
  simp only [↓State.field_mk, ↓State.field_fold, ↓State.field_ite, ↓State.field_fst_ite, ↓State.park_field, ↓State.addMiss_field, ↓State.joinMiss_field]
  (repeat' split) <;> simp only [↓State.field_mk, ↓State.field_fold, ↓State.field_ite, ↓State.field_fst_ite, ↓State.park_field, ↓State.addMiss_field, ↓State.joinMiss_field, ite_self]

theorem State.lookup_field (s : State) (r : Request) : (State.lookup s r).1.field = s.field := by
  unfold State.lookup
  grind [State.field_mk, State.lookupOn_field, State.lookupOff_field]

theorem State.copyVictim_field (s : State) (e : Nat) : (State.copyVictim s e).field = s.field := by
  unfold State.copyVictim
  grind [State.field, State.field, State.checkRange_field, State.writeBytes_field]

theorem State.beginFill_field (s : State) (m : Miss) : (State.beginFill s m).field = s.field := by
  unfold State.beginFill
  grind [State.field, State.field, State.setLine_field, State.setMiss_field, State.copyVictim_field]

theorem State.fillBoard_field (s : State) (id i : Nat) (bs : Bytes) : (State.fillBoard s id i bs).field = s.field := by
  unfold State.fillBoard
  grind [State.field, State.field, State.writeBytes_field, State.setLine_field, State.setMiss_field, State.beginFill_field]

theorem State.endFill_field (s : State) (m : Miss) (how : FillEnd) (closing : Bool) : (State.endFill s m how closing).field =
    s.field := by
  unfold State.endFill
  grind [State.field_mk, State.bump_field, State.setLine_field, State.retireSweep_field, State.setMiss_field, State.freeMiss_field]

theorem State.dirtyEntry_field (s : State) (slot log : Nat) : (State.dirtyEntry s slot log).1.field = s.field := by
  unfold State.dirtyEntry
  grind [State.field_mk, State.bump_field, State.setLine_field, State.victim_field]

theorem State.dirtyBoard_field (s : State) (e lba : Nat) (head payload : Bytes) : (State.dirtyBoard s e lba head
    payload).field = s.field := by
  unfold State.dirtyBoard
  simp only [↓State.field_mk, ↓State.field_fold, ↓State.writeBytes_field, ↓State.setLine_field]

theorem State.dropHeads_field (s : State) (slot log : Nat) : (State.dropHeads s slot log).field = s.field := by
  unfold State.dropHeads
  simp only [↓State.field_mk, ↓State.field_fold]

theorem State.handOver_field (s : State) (e : Nat) : (State.handOver s e).1.field = s.field := by
  unfold State.handOver
  simp only []
  (repeat' split) <;> (try refine (State.field_foldl _ _ _ fun t x => ?_).trans ?_) <;> (try dsimp only) <;> (repeat' split) <;> (try simp only []) <;> grind [State.field, State.field, State.raiseHub_field, State.checkRange_field, State.writeBytes_field, State.setLine_field, State.retireSweep_field, State.dropHeads_field]

theorem State.settleLine_field (s : State) (slot log : Nat) (ok : Bool) : (State.settleLine s slot log ok).field = s.field :=
    by
  unfold State.settleLine
  grind [State.field_mk, State.setLine_field, State.retireSweep_field, State.dropHeads_field]

theorem State.moveInvalidate_field (s : State) (slot : Nat) : (State.moveInvalidate s slot).field = s.field := by
  unfold State.moveInvalidate
  (repeat' split) <;> simp_all [↓State.field_mk, ↓State.field_fold, ↓State.field_ite, ↓State.bump_field, ↓State.setLine_field, State.field_foldl]

theorem State.seeTime_field (s : State) : (State.seeTime s).field = s.field := by
  unfold State.seeTime
  simp only [↓State.field_mk, ↓State.field_fold]

theorem State.setSession_field (s : State) (x : Session) : (State.setSession s x).field = s.field := by
  unfold State.setSession
  simp only [↓State.field_mk, ↓State.field_fold]

theorem State.freeSession_field (s : State) (id : Nat) : (State.freeSession s id).field = s.field := by
  unfold State.freeSession
  simp only [↓State.field_mk, ↓State.field_fold]

theorem State.takeContext_field (s : State) (x : Session) : (State.takeContext s x).field = s.field := by
  unfold State.takeContext
  simp only [↓State.field_mk, ↓State.field_fold]

theorem State.checkSession_field (s : State) (id f title : Nat) (mode : Option Nat) (off count : Nat) : (State.checkSession s
    id f title mode off count).1.field = s.field := by
  unfold State.checkSession
  grind [State.field_mk, State.bump_field, State.seeTime_field, State.setSession_field]

theorem State.installKey_field (s : State) (title : Nat) (key : Bytes) : (State.installKey s title key).1.field = s.field :=
    by
  unfold State.installKey
  simp only [↓State.field_mk, ↓State.field_fold, ↓State.field_ite, ↓State.field_fst_ite, ↓State.bump_field]
  (repeat' split) <;> simp only [↓State.field_mk, ↓State.field_fold, ↓State.field_ite, ↓State.field_fst_ite, ↓State.bump_field, ite_self]

theorem State.keyConflict_field (s : State) (unit title : Nat) : (State.keyConflict s unit title).field = s.field := by
  unfold State.keyConflict
  simp only [↓State.bump_field, ↓State.raiseHub_field]

theorem State.staleSlot_field (s : State) (slot : Nat) : (State.staleSlot s slot).field = s.field := by
  unfold State.staleSlot
  simp only [↓State.field_mk, ↓State.field_fold, ↓State.moveInvalidate_field]

theorem State.mirror_field (s : State) (slot : Nat) (exts : List Extent) : (State.mirror s slot exts).field = s.field := by
  unfold State.mirror
  (repeat' split) <;> simp_all [↓State.field_mk, ↓State.field_fold, ↓State.field_ite, ↓State.bump_field, State.field_foldl]

theorem State.setQueue_field (s : State) (x : Queue) : (State.setQueue s x).field = s.field := by
  unfold State.setQueue
  simp only [↓State.field_mk, ↓State.field_fold]

theorem State.dropQueue_field (s : State) (f q : Nat) : (State.dropQueue s f q).field = s.field := by
  unfold State.dropQueue
  simp only [↓State.field_mk, ↓State.field_fold]

theorem State.setCmd_field (s : State) (c : Cmd) : (State.setCmd s c).field = s.field := by
  unfold State.setCmd
  simp only [↓State.field_mk, ↓State.field_fold]

theorem State.leaveRequests_field (s : State) (id : Nat) : (State.leaveRequests s id).field = s.field := by
  unfold State.leaveRequests
  simp only [↓State.field_mk, ↓State.field_fold]

theorem State.dropCmd_field (s : State) (id : Nat) : (State.dropCmd s id).field = s.field := by
  unfold State.dropCmd
  simp only [↓State.field_mk, ↓State.field_fold, ↓State.leaveRequests_field]

theorem State.finish_field (s : State) (c : Cmd) (status result : Nat) : (State.finish s c status result).field = s.field :=
    by
  unfold State.finish
  simp only [↓State.field_mk, ↓State.field_fold, ↓State.field_ite]
  grind [State.field_mk, State.setSession_field, State.dropCmd_field]

theorem State.finishId_field (s : State) (id status result : Nat) : (State.finishId s id status result).field = s.field := by
  unfold State.finishId
  grind [State.field_mk, State.finish_field]

theorem State.signal_field (s : State) (x : Queue) : (State.signal s x).field = s.field := by
  unfold State.signal
  grind [State.field_mk, State.msixFire_field, State.setQueue_field]

theorem State.logError_field (s : State) (e : ErrEntry) : (State.logError s e).field = s.field := by
  unfold State.logError
  simp only [↓State.field_mk, ↓State.field_fold, ↓State.pageChanged_field]

theorem State.postEntry_field (s : State) (x : Queue) (p : Post) : (State.postEntry s x p).field = s.field := by
  unfold State.postEntry
  (repeat' split) <;> simp only [↓State.field_mk, ↓State.field_fold, ↓State.hostWrite_field, ↓State.signal_field, ↓State.logError_field]

theorem State.postOne_field (s : State) (f q : Nat) : (State.postOne s f q).field = s.field := by
  unfold State.postOne
  grind [State.field_mk, State.postEntry_field]

theorem State.postAll_field (s : State) (f q : Nat) : (State.postAll s f q).field = s.field := by
  unfold State.postAll
  (repeat' split) <;> simp_all [↓State.postOne_field, State.field_foldl]

theorem State.doorbellRefused_field (s : State) (f q : Nat) : (State.doorbellRefused s f q).field = s.field := by
  unfold State.doorbellRefused
  simp only [↓State.put_field, ↓State.bump_field, ↓State.irq_field, ↓State.raiseHub_field]

theorem State.tailWrite_field (s : State) (f q v : Nat) : (State.tailWrite s f q v).field = s.field := by
  unfold State.tailWrite
  grind [State.field_mk, State.setQueue_field, State.doorbellRefused_field]

theorem State.headWrite_field (s : State) (f q v : Nat) : (State.headWrite s f q v).field = s.field := by
  unfold State.headWrite
  grind [State.field_mk, State.setMsix_field, State.setQueue_field, State.doorbellRefused_field]

theorem State.grant_field (s t : State) (x : Queue) (h : s.grant = some (x, t)) : t.field = s.field := by
  unfold State.grant at h
  have hmap : ∀ (r : Option (Queue × State)) (y : Queue) (u : State), (∀ y u, r = some (y, u) → u.field = s.field) →
      (r.map fun (x, t) => (x, { t with qen := { t.qen with fetchNo := t.qen.fetchNo + 1 } })) = some (y, u) → u.field = s.field := by
    intro r y u hr hy
    obtain ⟨⟨a, b⟩, hab, he⟩ := Option.map_eq_some_iff.1 hy
    have := hr a b hab
    cases he
    exact this
  simp only [] at h
  have hm : ∀ y u, ((roundRobin ((s.qen.queues.filter s.fetchable).filter fun x => x.qid == 0) s.qen.lastMq).map fun x =>
      (x, { s with qen := { s.qen with lastMq := 513 * x.func } })) = some (y, u) → u.field = s.field := by
    intro y u hy
    obtain ⟨a, ha, he⟩ := Option.map_eq_some_iff.1 hy
    cases he
    rfl
  split at h
  · exact hmap _ _ _ hm h
  · split at h
    · exact hmap _ _ _ (by intro y u hy; cases hy; rfl) h
    · split at h
      · refine hmap _ _ _ (fun y u hy => ?_) h
        obtain ⟨a, ha, he⟩ := Option.map_eq_some_iff.1 hy
        cases he
        rfl
      · exact hmap _ _ _ hm h

theorem State.fetch_field (s : State) : (State.fetch s).field = s.field := by
  unfold State.fetch
  grind [State.field_mk, State.hostRead_field, State.setQueue_field, State.grant_field]

end Sys2Proof.Machine
end

