-- ==== Sys2Proof/Laws/Field2.lean ====
section
/-! SUPPORT. Commands of the hub side leave the field dies alone: lemmas of DataOps, CrewOps, RangeOps, Turn, FrontEnd,
FieldRegs, DirOps, IngestOps, SessOps. -/
namespace Sys2Proof.Machine

set_option linter.unusedSimpArgs false
set_option linter.unusedTactic false
set_option linter.unnecessarySeqFocus false
set_option linter.unreachableTactic false

theorem State.ifDone_field (s : State) (id : Nat) : (State.ifDone s id).field = s.field := by
  unfold State.ifDone
  grind [State.field_mk, State.finish_field]

theorem State.zeroTags_field (s : State) (c : Cmd) (l : List Nat) : (State.zeroTags s c l).field = s.field := by
  unfold State.zeroTags
  (repeat' split) <;> simp_all [↓State.hostWrite_field, State.field_foldl]

theorem State.failLog_field (s : State) (id slot log st : Nat) : (State.failLog s id slot log st).field = s.field := by
  unfold State.failLog
  grind [State.field_mk, State.setCmd_field, State.ifDone_field, State.zeroTags_field]

theorem State.failRequest_field (s : State) (r : Request) (st : Nat) : (State.failRequest s r st).field = s.field := by
  unfold State.failRequest
  grind [State.field_mk, State.failLog_field]

theorem State.deliverBoard_field (s : State) (c : Cmd) (i slot lba : Nat) (payload : Bytes) : (State.deliverBoard s c i slot
    lba payload).field = s.field := by
  unfold State.deliverBoard
  grind [State.field_mk, State.hostWrite_field, State.setSession_field]

theorem State.deliverAll_field (s : State) (c : Cmd) (mem base : Nat) (l : List (Nat × Nat × Nat × Nat)) : (State.deliverAll
    s c mem base l).field = s.field := by
  unfold State.deliverAll
  (repeat' split) <;> simp_all [↓State.deliverBoard_field, State.field_foldl]

theorem State.checkBoards_field (s : State) (mem base : Nat) (l : List (Nat × Nat × Nat × Nat)) : (State.checkBoards s mem
    base l).1.field = s.field := by
  unfold State.checkBoards
  simp only []
  (repeat' split) <;> (try refine (State.field_foldl_fst _ _ _ fun t y x => ?_).trans ?_) <;> (try dsimp only) <;> (repeat' split) <;> (try simp only []) <;> grind [State.field_mk, State.checkRange_field]

theorem State.refetch_field (s : State) (r : Request) (e : Nat) (bad : List Nat) : (State.refetch s r e bad).field = s.field
    := by
  unfold State.refetch
  grind [State.field_mk, State.setLine_field, State.park_field, State.addMiss_field]

theorem State.serveEntry_field (s : State) (r : Request) (e : Nat) (filled multi : Bool) : (State.serveEntry s r e filled
    multi).field = s.field := by
  unfold State.serveEntry
  grind [State.field_mk, State.setCmd_field, State.ifDone_field, State.zeroTags_field, State.deliverAll_field, State.checkBoards_field, State.refetch_field]

theorem State.serveCopy_field (s : State) (r : Request) (idx : Nat) (filled multi : Bool) : (State.serveCopy s r idx filled
    multi).1.field = s.field := by
  unfold State.serveCopy
  (repeat' split) <;> simp_all [↓State.field_mk, ↓State.field_fold, ↓State.field_fst_ite, ↓State.setCmd_field, ↓State.ifDone_field, ↓State.deliverAll_field, ↓State.checkBoards_field]

theorem State.rangeLine_field (s : State) (slot log : Nat) (ok : Bool) : (State.rangeLine s slot log ok).field = s.field :=
    by
  unfold State.rangeLine
  (repeat' split) <;> simp only [↓State.field_mk, ↓State.field_fold, ↓State.bump_field]

theorem State.preloadEnd_field (s : State) (slot log : Nat) (how : FillEnd) : (State.preloadEnd s slot log how).field =
    s.field := by
  unfold State.preloadEnd
  simp only []
  (repeat' split) <;> (try refine (State.field_foldl _ _ _ fun t x => ?_).trans ?_) <;> (try dsimp only) <;> (repeat' split) <;> (try simp only []) <;> grind [State.field_mk, State.setCmd_field, State.ifDone_field, State.rangeLine_field]

theorem State.request_field (s : State) (r : Request) : (State.request s r).field = s.field := by
  unfold State.request
  (repeat' split) <;> grind [State.field_mk, State.bump_field, State.lookup_field, State.setCmd_field, State.failRequest_field, State.serveEntry_field, State.serveCopy_field, State.preloadEnd_field]

theorem State.fillOver_field (s : State) (m : Miss) (how : FillEnd) (closing multi : Bool) : (State.fillOver s m how closing
    multi).field = s.field := by
  unfold State.fillOver
  (repeat' split) <;> simp_all [↓State.field_ite, ↓State.endFill_field, ↓State.failRequest_field, ↓State.serveEntry_field, ↓State.serveCopy_field, ↓State.preloadEnd_field, State.field_foldl]

theorem State.writersGone_field (s : State) (slot log : Nat) (ok : Bool) : (State.writersGone s slot log ok).field = s.field
    := by
  unfold State.writersGone
  (repeat' split) <;> simp only [↓State.field_mk, ↓State.field_fold]

theorem State.lineSettled_field (s : State) (slot log st : Nat) : (State.lineSettled s slot log st).field = s.field := by
  unfold State.lineSettled
  simp only []
  (repeat' split) <;> (try refine (State.field_foldl _ _ _ fun t x => ?_).trans ?_) <;> (try dsimp only) <;> (repeat' split) <;> (try simp only []) <;> grind [State.field_mk, State.bump_field, State.setCmd_field, State.ifDone_field, State.writersGone_field]

theorem State.handOverLine_field (s : State) (e : Nat) : (State.handOverLine s e).field = s.field := by
  unfold State.handOverLine
  grind [State.field, State.field, State.handOver_field, State.lineSettled_field]

theorem State.handOverKeys_field (s : State) (ks : List (Nat × Nat)) : (State.handOverKeys s ks).field = s.field := by
  exact State.field_foldl _ _ _ fun t x => by
    split
    · exact State.handOverLine_field _ _
    · rfl

theorem State.sendWork_field (s : State) (d : Die) (kind cls bay func qid : Nat) (cont : List Nat) (what : Purpose) :
    (State.sendWork s d kind cls bay func qid cont what).1.field = s.field := by
  unfold State.sendWork
  simp only [↓State.field_mk, ↓State.field_fold, ↓State.send_field]

theorem State.closeItem_field (s : State) (d : Die) (item : Nat) : (State.closeItem s d item).field = s.field := by
  unfold State.closeItem
  simp only [↓State.field_mk, ↓State.field_fold]

theorem State.sendReset_field (s : State) (d : Die) (one : Bool) (item func qid : Nat) : (State.sendReset s d one item func
    qid).field = s.field := by
  unfold State.sendReset
  simp only [↓State.field_mk, ↓State.field_fold, ↓State.send_field]

theorem State.setHubBay_field (s : State) (b : Bay) (x : HubBay) : (State.setHubBay s b x).field = s.field := by
  unfold State.setHubBay
  simp only [↓State.field_mk, ↓State.field_fold]

theorem State.mapDisc_field (s : State) (b : Bay) (f : BayDisc → BayDisc) : (State.mapDisc s b f).field = s.field := by
  unfold State.mapDisc
  simp only [↓State.setHubBay_field]

theorem State.sendFill_field (s : State) (m : Miss) (b : Bay) : (State.sendFill s m b).field = s.field := by
  unfold State.sendFill
  simp only [↓State.setMiss_field, ↓State.sendWork_field]

theorem State.sendRecord_field (s : State) (e : Nat) (b : Bay) (cls func qid : Nat) : (State.sendRecord s e b cls func
    qid).field = s.field := by
  unfold State.sendRecord
  (repeat' split) <;> simp_all [↓State.send_field, ↓State.sendWork_field, State.field_foldl]

theorem State.pumpFills_field (s : State) : (State.pumpFills s).field = s.field := by
  refine State.field_foldl _ _ _ fun t x => ?_
  split
  · rfl
  · split
    · rfl
    · split
      · rfl
      · split
        · simp only [State.fillOver_field]
        · split
          · simp only [State.sendFill_field]
          · rfl

theorem State.pumpRecords_field (s : State) : (State.pumpRecords s).field = s.field := by
  unfold State.pumpRecords
  simp only []
  (repeat' split) <;> (try refine (State.field_foldl _ _ _ fun t x => ?_).trans ?_) <;> (try dsimp only) <;> (repeat' split) <;> (try simp only []) <;> grind [State.field_mk, State.settleLine_field, State.lineSettled_field, State.sendRecord_field]

theorem State.wantMount_field (s : State) (slot : Nat) (bay : Option Bay) (cls func qid : Nat) (o : MountOwner) :
    (State.wantMount s slot bay cls func qid o).field = s.field := by
  unfold State.wantMount
  (repeat' split) <;> simp only [↓State.field_mk, ↓State.field_fold]

theorem State.setMount_field (s : State) (j : MountJob) : (State.setMount s j).field = s.field := by
  unfold State.setMount
  simp only [↓State.field_mk, ↓State.field_fold]

theorem State.setTask_field (s : State) (b : Bay) (t : BayTask) : (State.setTask s b t).field = s.field := by
  unfold State.setTask
  simp only [↓State.setHubBay_field]

theorem State.spinUp_field (s : State) (j : MountJob) (b : Bay) : (State.spinUp s j b).field = s.field := by
  unfold State.spinUp
  simp only [↓State.sendWork_field, ↓State.setHubBay_field, ↓State.setMount_field]

theorem State.fetchDisc_field (s : State) (j : MountJob) (b : Bay) : (State.fetchDisc s j b).field = s.field := by
  unfold State.fetchDisc
  simp only [↓State.sendWork_field, ↓State.setMount_field, ↓State.setTask_field]

theorem State.returnDisc_field (s : State) (b : Bay) (cls func qid : Nat) : (State.returnDisc s b cls func qid).field =
    s.field := by
  unfold State.returnDisc
  grind [State.field_mk, State.sendWork_field]

theorem State.clearBay_field (s : State) (b : Bay) (cls func qid : Nat) : (State.clearBay s b cls func qid).field = s.field
    := by
  unfold State.clearBay
  grind [State.field_mk, State.sendWork_field, State.setTask_field, State.returnDisc_field]

theorem State.startMount_field (s : State) (j : MountJob) : (State.startMount s j).field = s.field := by
  unfold State.startMount
  grind [State.field_mk, State.setMount_field, State.spinUp_field, State.fetchDisc_field, State.clearBay_field]

theorem State.pumpMounts_field (s : State) : (State.pumpMounts s).field = s.field := by
  unfold State.pumpMounts
  simp only [↓State.field_mk, ↓State.field_fold, ↓State.field_ite, ↓State.field_fst_ite, ↓State.startMount_field]
  (repeat' split) <;> (try refine (State.field_foldl _ _ _ fun t x => ?_).trans ?_) <;> (try dsimp only) <;> (repeat' split) <;> (try simp only [↓State.field_mk, ↓State.field_fold, ↓State.field_ite, ↓State.field_fst_ite, ↓State.startMount_field]) <;> grind [State.field_mk, State.startMount_field]

theorem State.wantMounts_field (s : State) : (State.wantMounts s).field = s.field := by
  unfold State.wantMounts
  (repeat' split) <;> simp_all [↓State.field_ite, ↓State.wantMount_field, State.field_foldl]

theorem State.startGen_field (s : State) (b : Bay) (cause : GenCause) (cls : Nat) : (State.startGen s b cause cls).field =
    s.field := by
  unfold State.startGen
  grind [State.field_mk, State.setHubBay_field]

theorem State.sendGen_field (s : State) (b : Bay) : (State.sendGen s b).field = s.field := by
  unfold State.sendGen
  simp only []
  (repeat' split) <;> (try refine (State.field_foldl _ _ _ fun t x => ?_).trans ?_) <;> (try dsimp only) <;> (repeat' split) <;> (try simp only []) <;> grind [State.field_mk, State.send_field, State.sendWork_field, State.setHubBay_field]

theorem State.pumpUnmount_field (s : State) (b : Bay) : (State.pumpUnmount s b).field = s.field := by
  unfold State.pumpUnmount
  grind [State.field_mk, State.clearBay_field, State.startGen_field]

theorem State.pump_field (s : State) : (State.pump s).field = s.field := by
  unfold State.pump
  (repeat' split) <;> simp_all [↓State.pumpFills_field, ↓State.pumpRecords_field, ↓State.pumpMounts_field, ↓State.wantMounts_field, ↓State.pumpUnmount_field, State.field_foldl]

theorem State.abandonFill_field (s : State) (m : Miss) (st : Nat) : (State.abandonFill s m st).field = s.field := by
  unfold State.abandonFill
  grind [State.field_mk, State.fillOver_field, State.sendReset_field]

theorem State.refill_field (s : State) (m : Miss) : (State.refill s m).field = s.field := by
  unfold State.refill
  grind [State.field_mk, State.bump_field, State.setMiss_field, State.abandonFill_field]

theorem State.loseTag_field (s : State) (e : Nat) : (State.loseTag s e).field = s.field := by
  unfold State.loseTag
  grind [State.field_mk, State.raiseHub_field, State.setLine_field, State.dropHeads_field, State.lineSettled_field, State.refill_field]

theorem State.checkTags_field (s : State) (slot log : Nat) : (State.checkTags s slot log).field = s.field := by
  unfold State.checkTags
  (repeat' split) <;> simp_all [↓State.field_ite, ↓State.setFlips_field, ↓State.checkRange_field, ↓State.loseTag_field, State.field_foldl]

theorem State.rangeDid_field (s : State) (n : Nat) : (State.rangeDid s n).field = s.field := by
  unfold State.rangeDid
  simp only [↓State.bumpBy_field]

theorem invalidateEntry_field (force : Bool) (s : State) (x : Nat × Line) : (invalidateEntry force s x).field = s.field := by
  unfold invalidateEntry
  grind [State.field_mk, State.bump_field, State.setLine_field, State.rangeDid_field]

theorem unlockEntry_field (s : State) (x : Nat × Line) : (unlockEntry s x).field = s.field := by
  unfold unlockEntry
  grind [State.field_mk, State.setLine_field, State.rangeDid_field]

theorem State.scrub_field (s : State) (a n req : Nat) : (State.scrub s a n req).1.field = s.field := by
  unfold State.scrub
  simp only []
  (repeat' split) <;> (try refine (State.field_foldl_fst _ _ _ fun t y x => ?_).trans ?_) <;> (try dsimp only) <;> (repeat' split) <;> (try simp only []) <;> grind [State.field, State.field, State.countUe_field, State.countCe_field, State.writeBytes_field]

theorem State.putWide_field (s : State) (a : Nat) (lo hi : Field) (v : Nat) : (State.putWide s a lo hi v).field = s.field :=
    by
  unfold State.putWide
  simp only [↓State.put_field]

theorem scrubEntry_field (s : State) (x : Nat × Line) : (scrubEntry s x).field = s.field := by
  unfold scrubEntry
  grind [State.field, State.field, State.bumpBy_field, State.rangeDid_field, State.scrub_field, State.putWide_field]

theorem State.tagWalk_field (s : State) (o : RangeOp) : (State.tagWalk s o).field = s.field := by
  unfold State.tagWalk
  (repeat' split) <;> simp_all [↓State.field_mk, ↓State.field_fold, ↓State.handOverKeys_field, ↓State.rangeDid_field, ↓invalidateEntry_field, ↓unlockEntry_field, ↓scrubEntry_field, State.field_foldl]

theorem pumpRangeN_field (n : Nat) (s : State) : (pumpRangeN n s).field = s.field := by
  induction n generalizing s with
  | zero => rfl
  | succ n ih =>
    unfold pumpRangeN
    split
    · rfl
    · simp only []
      split
      · rfl
      · split
        · rw [ih]; rfl
        · rw [ih, State.request_field, State.rangeDid_field]; rfl

theorem State.pumpRange_field (s : State) : (State.pumpRange s).field = s.field := by
  unfold State.pumpRange
  grind [State.field_mk, pumpRangeN_field]

theorem State.settleWork_field (s : State) : (State.settleWork s).field = s.field := by
  unfold State.settleWork
  simp only [↓State.pump_field, ↓State.pumpRange_field]

theorem State.startRange_field (s : State) (o : RangeOp) : (State.startRange s o).field = s.field := by
  unfold State.startRange
  (repeat' split) <;> simp_all [↓State.field_mk, ↓State.field_fold, ↓State.put_field, ↓State.tagWalk_field, ↓State.settleWork_field]

theorem State.rangeStart_field (s : State) (kind : Option RangeKind) (force : Bool) (cls slots : Nat) : (State.rangeStart s
    kind force cls slots).field = s.field := by
  unfold State.rangeStart
  grind [State.field, State.field, State.put_field, State.startRange_field]

theorem startWaiting_field (l : List RangeOp) (s : State) : (startWaiting l s).field = s.field := by
  induction l generalizing s with
  | nil => rfl
  | cons o rest ih =>
    unfold startWaiting
    grind [State.field, State.field, State.startRange_field, State.finish_field]

theorem State.nextRange_field (s : State) : (State.nextRange s).field = s.field := by
  unfold State.nextRange
  simp only [↓State.field_mk, ↓State.field_fold, ↓State.field_ite, ↓startWaiting_field]

theorem State.endRange_field (s : State) : (State.endRange s).field = s.field := by
  unfold State.endRange
  grind [State.field, State.field, State.put_field, State.hostWrite_field, State.epEvt_field, State.finish_field, State.nextRange_field]

theorem State.commandRange_field (s : State) (o : RangeOp) : (State.commandRange s o).field = s.field := by
  unfold State.commandRange
  grind [State.field, State.field, State.startRange_field]

theorem State.commitWindow_field (s : State) : (State.commitWindow s).field = s.field := by
  unfold State.commitWindow
  (repeat' split) <;> simp_all [↓State.put_field, ↓State.activate_field, State.field_foldl]

theorem State.winRefused_field (s : State) (r : WinReq) : (State.winRefused s r).field = s.field := by
  unfold State.winRefused
  grind [State.field_mk, State.put_field, State.bump_field, State.emit_field, State.aer_field, State.putWide_field]

theorem State.winServe_field (s : State) (r : WinReq) : (State.winServe s r).field = s.field := by
  unfold State.winServe
  simp only [↓State.emit_field, ↓State.aer_field, ↓State.winRefused_field]
  (repeat' split) <;> (try refine (State.field_foldl _ _ _ fun t x => ?_).trans ?_) <;> (try dsimp only) <;> (repeat' split) <;> (try simp only [↓State.emit_field, ↓State.aer_field, ↓State.winRefused_field]) <;> grind [State.field, State.field, State.emit_field, State.aer_field, State.pevLog_field, State.checkRange_field, State.storeBytes_field, State.inject_field, State.winRefused_field]

theorem State.lapWarn_field (s : State) : (State.lapWarn s).field = s.field := by
  unfold State.lapWarn
  (repeat' split) <;> simp_all [↓State.field_mk, ↓State.field_fold, ↓State.field_ite, ↓State.put_field, ↓State.raiseHub_field]

theorem State.patrolNext_field (s : State) : (State.patrolNext s).field = s.field := by
  unfold State.patrolNext
  simp only [↓State.field_mk, ↓State.field_fold, ↓State.field_ite, ↓State.put_field, ↓State.bump_field, ite_self]

theorem State.injectWrite_field (s : State) (w : Word) : (State.injectWrite s w).field = s.field := by
  unfold State.injectWrite
  (repeat' split) <;> simp_all [↓State.field_ite, ↓State.put_field]

theorem execTrnSetWrite_field (d : Die) (n : Fin 48) (value : Word) (s : State) : ∃ t, (execTrnSetWrite d n value s) = .next
    t ∧ t.field = s.field := by
  unfold execTrnSetWrite
  (repeat' split) <;> exact ⟨_, rfl, by simp only [↓State.put_field]⟩

theorem State.bankWrite_field (s : State) (d : Die) (n : Fin 48) (bank : Bool) (off : Nat) (w : Word) : (State.bankWrite s d
    n bank off w).1.field = s.field := by
  unfold State.bankWrite
  grind [State.field_mk, State.writeWord_field]

theorem execBankWordWrite_field (d : Die) (n : Fin 48) (bank : Bool) (off : Nat) (value : Word) (s : State) : ∃ t,
    (execBankWordWrite d n bank off value s) = .next t ∧ t.field = s.field := by
  unfold execBankWordWrite
  (repeat' split) <;> exact ⟨_, rfl, by simp only [↓State.bankWrite_field]⟩

theorem State.afeWrite_field (s : State) (b : Bay) (w : Word) : (State.afeWrite s b w).field = s.field := by
  unfold State.afeWrite
  grind [State.field_mk, State.put_field]

theorem execSfeAfeWrite_field (b : Bay) (w : Word) (s : State) : ∃ t, (execSfeAfeWrite b w s) = .next t ∧ t.field = s.field
    := by
  unfold execSfeAfeWrite
  (repeat' split) <;> exact ⟨_, rfl, by simp only [↓State.afeWrite_field]⟩

theorem State.commitWrite_field (s : State) (g : Group) (w : Word) : (State.commitWrite s g w).field = s.field := by
  unfold State.commitWrite
  grind [State.field_mk, State.put_field, State.commitSet_field]

theorem State.bootGo_field (s : State) (d : Die) : (State.bootGo s d).field = s.field := by
  unfold State.bootGo
  grind [State.field_mk, State.put_field, State.bump_field, State.setDie_field, State.raiseHub_field]

theorem State.installKeys_field (s : State) (slot : Nat) (bark : Option Nat) (keys : List KeyEntry) : (State.installKeys s
    slot bark keys).1.field = s.field := by
  refine State.field_foldl_fst _ _ _ fun t y k => ?_
  dsimp only
  split
  · rfl
  · rename_i key _
    have h := State.installKey_field t k.title key
    split
    · rename_i u c he
      rw [he] at h
      exact (State.keyConflict_field _ _ _).trans h
    · rename_i u c he
      rw [he] at h
      exact h

theorem State.readDirectory_field (s : State) (d : BayDisc) : (State.readDirectory s d).1.field = s.field := by
  unfold State.readDirectory
  simp only [↓State.field_mk, ↓State.field_fold, ↓State.mirror_field, ↓State.installKeys_field]

theorem State.askLogs_field (s : State) (id : Nat) (logs : List (Nat × Nat)) : (State.askLogs s id logs).field = s.field :=
    by
  unfold State.askLogs
  simp only []
  (repeat' split) <;> (try refine (State.field_foldl _ _ _ fun t x => ?_).trans ?_) <;> (try dsimp only) <;> (repeat' split) <;> (try simp only []) <;> grind [State.field_mk, State.request_field, State.checkTags_field]

theorem State.askPreload_field (s : State) (id : Nat) (logs : List (Nat × Nat)) : (State.askPreload s id logs).field =
    s.field := by
  refine State.field_foldl _ _ _ fun t k => ?_
  split
  · rfl
  · split
    · rfl
    · rw [State.request_field, State.checkTags_field]

theorem State.takeBoards_field (s : State) (id title : Nat) (read boards : List Nat) : (State.takeBoards s id title read
    boards).field = s.field := by
  unfold State.takeBoards
  grind [State.field_mk, State.setCmd_field, State.askLogs_field, State.askPreload_field]

theorem State.setLookup_field (s : State) (k : Lookup) : (State.setLookup s k).field = s.field := by
  unfold State.setLookup
  simp only [↓State.field_mk, ↓State.field_fold]

theorem State.dropLookup_field (s : State) (id : Nat) : (State.dropLookup s id).field = s.field := by
  unfold State.dropLookup
  simp only [↓State.field_mk, ↓State.field_fold]

theorem State.addLookup_field (s : State) (c : Cmd) (title : Nat) (boards : List Nat) : (State.addLookup s c title
    boards).field = s.field := by
  unfold State.addLookup
  simp only [↓State.field_mk, ↓State.field_fold, ↓State.bump_field]

theorem State.startBoards_field (s : State) (c : Cmd) (title : Nat) (boards : List Nat) : (State.startBoards s c title
    boards).field = s.field := by
  unfold State.startBoards
  grind [State.field_mk, State.setCmd_field, State.ifDone_field, State.takeBoards_field, State.addLookup_field]

theorem State.failBoards_field (s : State) (id st : Nat) (boards : List Nat) : (State.failBoards s id st boards).field =
    s.field := by
  unfold State.failBoards
  grind [State.field_mk, State.setCmd_field, State.zeroTags_field]

theorem State.lookupOver_field (s : State) (id : Nat) : (State.lookupOver s id).field = s.field := by
  unfold State.lookupOver
  grind [State.field_mk, State.setCmd_field, State.ifDone_field, State.dropLookup_field]

theorem State.bindKey_field (s : State) (b : Bay) (title : Nat) (key : Bytes) : (State.bindKey s b title key).field = s.field
    := by
  unfold State.bindKey
  grind [State.field_mk, State.mapDisc_field]

theorem State.dropRead_field (s : State) (id : Nat) : (State.dropRead s id).field = s.field := by
  unfold State.dropRead
  simp only [↓State.field_mk, ↓State.field_fold]

theorem State.recordGo_field (s : State) (c : Cmd) : (State.recordGo s c).field = s.field := by
  unfold State.recordGo
  grind [State.field_mk, State.hostRead_field, State.setCmd_field, State.finish_field]

theorem State.recordStart_field (s : State) (c : Cmd) : (State.recordStart s c).field = s.field := by
  unfold State.recordStart
  (repeat' split) <;> simp_all [↓State.field_ite, ↓State.setQueue_field, ↓State.setCmd_field, ↓State.finish_field, ↓State.wantMount_field, ↓State.recordGo_field]

theorem State.encryptBoard_field (s : State) (c : Cmd) (b : Bay) (lba : Nat) (payload : Bytes) : (State.encryptBoard s c b
    lba payload).1.field = s.field := by
  unfold State.encryptBoard
  grind [State.field_mk, State.setSession_field, State.mapDisc_field, State.bindKey_field]

theorem State.landBoard_field (s : State) (c : Cmd) (e lba : Nat) (head payload : Bytes) : (State.landBoard s c e lba head
    payload).field = s.field := by
  unfold State.landBoard
  grind [State.field, State.field, State.inject_field, State.dirtyBoard_field, State.setCmd_field, State.handOverLine_field]

theorem State.genIfFull_field (s : State) (b : Bay) (cls : Nat) : (State.genIfFull s b cls).field = s.field := by
  unfold State.genIfFull
  grind [State.field_mk, State.startGen_field]

theorem State.acceptImage_field (s : State) (c : Cmd) (i : Nat) (img : Bytes) : (State.acceptImage s c i img).1.field =
    s.field := by
  unfold State.acceptImage
  grind [State.field, State.field, State.dirtyEntry_field, State.setCmd_field, State.finish_field, State.wantMount_field, State.checkTags_field, State.encryptBoard_field, State.landBoard_field, State.genIfFull_field]

theorem State.recordEnd_field (s : State) (c : Cmd) : (State.recordEnd s c).field = s.field := by
  unfold State.recordEnd
  grind [State.field, State.field, State.setCmd_field, State.ifDone_field, State.handOverKeys_field, State.dropRead_field]

theorem recordImages_field (n : Nat) (s : State) (id : Nat) : (recordImages n s id).field = s.field := by
  induction n generalizing s with
  | zero => rfl
  | succ n ih =>
    unfold recordImages
    split
    · rfl
    · rename_i c _
      split
      · split
        · exact State.recordEnd_field _ _
        · extract_lets img
          split
          · rfl
          · have h := State.acceptImage_field s c c.done img
            split <;> rename_i u he <;> rw [he] at h
            · exact (ih u).trans h
            · exact h
      · rfl

theorem State.recordMore_field (s : State) (id : Nat) : (State.recordMore s id).field = s.field := by
  unfold State.recordMore
  grind [State.field, State.field, recordImages_field]

theorem State.recordMounted_field (s : State) (c : Cmd) (st : Nat) : (State.recordMounted s c st).field = s.field := by
  unfold State.recordMounted
  grind [State.field, State.field, State.setCmd_field, State.finish_field, State.recordGo_field, State.recordMore_field]

theorem State.openFail_field (s : State) (c : Cmd) (reason st : Nat) : (State.openFail s c reason st).field = s.field := by
  unfold State.openFail
  grind [State.field_mk, State.bump_field, State.freeSession_field, State.finish_field, State.dropRead_field]

theorem State.openDone_field (s : State) (c : Cmd) (x : Session) (idx : Nat) : (State.openDone s c x idx).field = s.field :=
    by
  unfold State.openDone
  simp only [↓State.bump_field, ↓State.setSession_field, ↓State.finish_field, ↓State.dropRead_field]

theorem State.openKey_field (s : State) (c : Cmd) (x : Session) (read : List Nat) : (State.openKey s c x read).field =
    s.field := by
  unfold State.openKey
  (repeat' split) <;> grind [State.field_mk, State.installKey_field, State.setCmd_field, State.wantMount_field, State.openFail_field, State.openDone_field]

theorem State.openContext_field (s : State) (c : Cmd) (x : Session) (bind : Option Bytes) (read : List Nat) :
    (State.openContext s c x bind read).field = s.field := by
  unfold State.openContext
  grind [State.field_mk, State.takeContext_field, State.installKey_field, State.keyConflict_field, State.setCmd_field, State.grant_field, State.openFail_field, State.openDone_field, State.openKey_field]

theorem State.openToken_field (s : State) (c : Cmd) (token : Bytes) : (State.openToken s c token).field = s.field := by
  unfold State.openToken
  grind [State.field_mk, State.seeTime_field, State.setCmd_field, State.grant_field, State.addLookup_field, State.openFail_field, State.openContext_field]

theorem State.openStart_field (s : State) (c : Cmd) : (State.openStart s c).field = s.field := by
  unfold State.openStart
  grind [State.field_mk, State.hostRead_field, State.setCmd_field, State.openFail_field]

theorem State.openFound_field (s : State) (c : Cmd) (read : List Nat) (failed : Option Nat) : (State.openFound s c read
    failed).field = s.field := by
  unfold State.openFound
  grind [State.field_mk, State.grant_field, State.openFail_field, State.openContext_field]

theorem State.openMounted_field (s : State) (c : Cmd) (st : Nat) : (State.openMounted s c st).field = s.field := by
  unfold State.openMounted
  grind [State.field_mk, State.openFail_field, State.openDone_field]

theorem State.closeStart_field (s : State) (c : Cmd) : (State.closeStart s c).field = s.field := by
  unfold State.closeStart
  simp only []
  (repeat' split) <;> (try refine (State.field_foldl _ _ _ fun t x => ?_).trans ?_) <;> (try dsimp only) <;> (repeat' split) <;> (try simp only []) <;> grind [State.field_mk, State.setCmd_field, State.startGen_field]

theorem State.closeFinal_field (s : State) (id : Nat) : (State.closeFinal s id).field = s.field := by
  unfold State.closeFinal
  grind [State.field_mk, State.freeSession_field, State.finish_field]

end Sys2Proof.Machine
end

