-- ==== Sys2Proof/Laws/Field3.lean ====
section
/-! SUPPORT. Commands of the hub side leave the field dies alone: lemmas of MountOps, CheckOps, CutOps, KrfOps, Landing,
KerfField. -/
namespace Sys2Proof.Machine

set_option linter.unusedSimpArgs false
set_option linter.unusedTactic false
set_option linter.unnecessarySeqFocus false
set_option linter.unreachableTactic false

theorem State.scanStep_field (s : State) (id : Nat) : (State.scanStep s id).field = s.field := by
  unfold State.scanStep
  simp only [↓State.field_mk, ↓State.field_fold, ↓State.field_ite, ↓State.field_fst_ite, ↓State.finish_field,
      ↓State.sendWork_field, ↓State.wantMount_field]
  (repeat' split) <;> simp only [↓State.field_mk, ↓State.field_fold, ↓State.field_ite, ↓State.field_fst_ite,
      ↓State.finish_field, ↓State.sendWork_field, ↓State.wantMount_field, ite_self]

theorem State.scanStart_field (s : State) (c : Cmd) : (State.scanStart s c).field = s.field := by
  unfold State.scanStart
  simp only [↓State.setCmd_field, ↓State.scanStep_field]

theorem State.scanLog_field (s : State) (id log result passes erased : Nat) : (State.scanLog s id log result passes
    erased).field = s.field := by
  unfold State.scanLog
  grind [State.field_mk, State.hostWrite_field, State.setCmd_field]

theorem State.mountDone_field (s : State) (c : Cmd) (st : Nat) : (State.mountDone s c st).field = s.field := by
  unfold State.mountDone
  grind [State.field_mk, State.finish_field]

theorem State.mountStart_field (s : State) (c : Cmd) : (State.mountStart s c).field = s.field := by
  unfold State.mountStart
  grind [State.field_mk, State.setCmd_field, State.finish_field, State.wantMount_field, State.mountDone_field]

theorem State.moveGo_field (s : State) (c : Cmd) : (State.moveGo s c).field = s.field := by
  unfold State.moveGo
  grind [State.field_mk, State.setCmd_field, State.finish_field, State.sendWork_field]

theorem State.moveDiscStart_field (s : State) (c : Cmd) : (State.moveDiscStart s c).field = s.field := by
  unfold State.moveDiscStart
  grind [State.field_mk, State.setCmd_field, State.finish_field, State.setHubBay_field, State.moveGo_field]

theorem State.continueMount_field (s : State) (id slot st : Nat) : (State.continueMount s id slot st).field = s.field := by
  unfold State.continueMount
  grind [State.field, State.field, State.finish_field, State.setLookup_field, State.recordMounted_field, State.openMounted_field, State.scanStep_field, State.mountDone_field]

theorem State.slotLost_field (s : State) (slot st : Nat) : (State.slotLost s slot st).field = s.field := by
  unfold State.slotLost
  refine (State.field_foldl _ _ _ fun t e => ?_).trans (State.field_foldl _ _ _ fun t e => ?_)
  · split
    · rfl
    · rw [State.lineSettled_field, State.settleLine_field]
  · split
    · exact State.fillOver_field _ _ _ _ _
    · rfl

theorem State.rebuildEnded_field (s : State) (slot st : Nat) : (State.rebuildEnded s slot st).field = s.field := by
  unfold State.rebuildEnded
  simp only [↓State.field_mk, ↓State.field_fold, ↓State.field_ite, ↓State.field_fst_ite, ↓State.mirror_field, ↓State.clearBay_field]
  (repeat' split) <;> simp only [↓State.field_mk, ↓State.field_fold, ↓State.field_ite, ↓State.field_fst_ite, ↓State.mirror_field, ↓State.clearBay_field, ite_self]

theorem State.mountEnded_field (s : State) (slot st : Nat) : (State.mountEnded s slot st).field = s.field := by
  have h2 : ∀ (l : List MountOwner) (u : State), (l.foldl (fun t o => match o with | .cmd id => t.continueMount id slot st | _ => t) u).field = u.field :=
    fun l u => State.field_foldl _ _ _ fun t o => by
      split
      · exact State.continueMount_field _ _ _ _
      · rfl
  unfold State.mountEnded
  split
  · rfl
  · simp only [↓State.field_ite, State.rebuildEnded_field, State.slotLost_field, ite_self]
    refine (h2 _ _).trans ?_
    rw [State.field_mk, State.field_fold]

theorem State.failMounts_field (s : State) : (State.failMounts s).field = s.field := by
  unfold State.failMounts
  split
  · rfl
  · refine State.field_foldl _ _ _ fun t j => ?_
    split
    · exact State.mountEnded_field _ _ _
    · rfl

theorem State.settle_field (s : State) : (State.settle s).field = s.field := by
  unfold State.settle
  simp only [↓State.settleWork_field, ↓State.failMounts_field]

theorem State.unmountEnded_field (s : State) (b : Bay) (st : Nat) : (State.unmountEnded s b st).field = s.field := by
  have h1 : ∀ (l : List Nat) (f : Cmd → Nat) (r : Nat) (u : State), (l.foldl (fun t id =>
      match t.cmd id with
      | none => t
      | some c => if c.opcode = 0x89 then t.finish c (f c) r else if st ≠ stSuccess then t.finish c st 0 else t.moveGo c) u).field = u.field :=
    fun l f r u => State.field_foldl _ _ _ fun t id => by
      split
      · rfl
      · simp only [↓State.field_ite, State.finish_field, State.moveGo_field, ite_self]
  unfold State.unmountEnded
  refine (State.field_foldl _ _ _ fun t j => ?_).trans ((h1 _ (fun _ => _) _ _).trans ((State.setHubBay_field _ _ _)))
  split
  · exact (State.setMount_field _ _)
  · exact State.mountEnded_field _ _ _

theorem State.unmountStart_field (s : State) (c : Cmd) : (State.unmountStart s c).field = s.field := by
  unfold State.unmountStart
  grind [State.field_mk, State.setCmd_field, State.finish_field, State.setHubBay_field]

theorem State.genOver_field (s : State) (b : Bay) (g : GenRun) (st : Nat) : (State.genOver s b g st).field = s.field := by
  unfold State.genOver
  grind [State.field_mk, State.mirror_field, State.setCmd_field, State.setHubBay_field]

theorem State.genCopy_field (s : State) (b : Bay) (st : Nat) : (State.genCopy s b st).field = s.field := by
  unfold State.genCopy
  grind [State.field_mk, State.setHubBay_field, State.genOver_field]

theorem State.logRecorded_field (s : State) (slot log cls : Nat) : (State.logRecorded s slot log cls).field = s.field := by
  unfold State.logRecorded
  grind [State.field_mk, State.mapDisc_field, State.startGen_field]

theorem State.stalePlace_field (s : State) (place : Nat) : (State.stalePlace s place).field = s.field := by
  unfold State.stalePlace
  grind [State.field_mk, State.staleSlot_field]

theorem State.cruiseEnded_field (s : State) (id : Nat) (b : Bay) (st : Nat) : (State.cruiseEnded s id b st).field = s.field
    := by
  unfold State.cruiseEnded
  (repeat' split) <;> simp_all [↓State.finish_field, State.field_foldl]

theorem State.itemEnded_field (s : State) (x : HubItem) (st : Nat) : (State.itemEnded s x st).field = s.field := by
  unfold State.itemEnded
  simp only [↓State.field_mk, ↓State.field_fold, ↓State.field_ite, ↓State.field_fst_ite, ↓State.settleLine_field,
      ↓State.setCmd_field, ↓State.finish_field, ↓State.finishId_field, ↓State.fetch_field, ↓State.fillOver_field,
      ↓State.lineSettled_field, ↓State.setHubBay_field, ↓State.mapDisc_field, ↓State.setMount_field, ↓State.setTask_field,
      ↓State.spinUp_field, ↓State.returnDisc_field, ↓State.refill_field, ↓State.scanStep_field, ↓State.mountEnded_field,
      ↓State.unmountEnded_field, ↓State.genCopy_field, ↓State.logRecorded_field, ↓State.stalePlace_field,
      ↓State.cruiseEnded_field]
  (repeat' split) <;> simp only [↓State.field_mk, ↓State.field_fold, ↓State.field_ite, ↓State.field_fst_ite,
      ↓State.settleLine_field, ↓State.setCmd_field, ↓State.finish_field, ↓State.finishId_field, ↓State.fetch_field,
      ↓State.fillOver_field, ↓State.lineSettled_field, ↓State.setHubBay_field, ↓State.mapDisc_field, ↓State.setMount_field,
      ↓State.setTask_field, ↓State.spinUp_field, ↓State.returnDisc_field, ↓State.refill_field, ↓State.scanStep_field,
      ↓State.mountEnded_field, ↓State.unmountEnded_field, ↓State.genCopy_field, ↓State.logRecorded_field,
      ↓State.stalePlace_field, ↓State.cruiseEnded_field, ite_self]

theorem State.itemDropped_field (s : State) (x : HubItem) : (State.itemDropped s x).field = s.field := by
  unfold State.itemDropped
  simp only [↓State.field_mk, ↓State.field_fold, ↓State.field_ite, ↓State.field_fst_ite, ↓State.bump_field,
      ↓State.setMiss_field, ↓State.fetch_field, ↓State.fillOver_field, ↓State.setHubBay_field, ↓State.setMount_field,
      ↓State.setTask_field, ↓State.genCopy_field]
  (repeat' split) <;> simp only [↓State.field_mk, ↓State.field_fold, ↓State.field_ite, ↓State.field_fst_ite,
      ↓State.bump_field, ↓State.setMiss_field, ↓State.fetch_field, ↓State.fillOver_field, ↓State.setHubBay_field,
      ↓State.setMount_field, ↓State.setTask_field, ↓State.genCopy_field, ite_self]

theorem State.portLost_field (s : State) (d : Die) : (State.portLost s d).field = s.field := by
  unfold State.portLost
  (repeat' split) <;> simp_all [↓State.field_mk, ↓State.field_fold, ↓State.freeMiss_field, ↓State.mapDisc_field, ↓State.genOver_field, ↓State.itemEnded_field, State.field_foldl]

theorem State.loseSession_field (s : State) (id : Nat) : (State.loseSession s id).field = s.field := by
  unfold State.loseSession
  extract_lets s1
  have h1 : s1.field = s.field := State.field_foldl _ _ _ fun t c => by
    rw [State.finish_field, State.dropRead_field]
  clear_value s1
  split
  · rw [State.closeFinal_field, State.setSession_field, h1]
  · exact h1

theorem State.readContext_field (s : State) (id : Nat) : (State.readContext s id).field = s.field := by
  unfold State.readContext
  simp only []
  (repeat' split) <;> (try refine (State.field_foldl _ _ _ fun t x => ?_).trans ?_) <;> (try dsimp only) <;> (repeat' split) <;> (try simp only []) <;> grind [State.field_mk, State.setFlips_field, State.checkRange_field, State.loseSession_field]

theorem State.sessionStep_field (s : State) (c : Cmd) : (State.sessionStep s c).1.field = s.field := by
  unfold State.sessionStep
  grind [State.field_mk, State.setSession_field, State.checkSession_field, State.readContext_field]

theorem State.takeEntry_field (s : State) (x : Queue) (bs : Bytes) : (State.takeEntry s x bs).field = s.field := by
  unfold State.takeEntry
  simp only [↓State.field_mk, ↓State.field_fold, ↓State.field_ite, ↓State.field_fst_ite, ↓State.setCmd_field, ↓State.finish_field, ↓State.sessionStep_field]
  (repeat' split) <;> simp only [↓State.field_mk, ↓State.field_fold, ↓State.field_ite, ↓State.field_fst_ite, ↓State.setCmd_field, ↓State.finish_field, ↓State.sessionStep_field, ite_self]

theorem State.lostEntry_field (s : State) (x : Queue) (idx : Nat) : (State.lostEntry s x idx).field = s.field := by
  unfold State.lostEntry
  simp only [↓State.field_mk, ↓State.field_fold]

theorem State.killRead_field (s : State) (r : HostRead) (counted : Bool) : (State.killRead s r counted).field = s.field := by
  unfold State.killRead
  simp only [↓State.field_mk, ↓State.field_fold]

theorem State.killCmdRead_field (s : State) (id : Nat) (counted : Bool) : (State.killCmdRead s id counted).field = s.field :=
    by
  unfold State.killCmdRead
  grind [State.field_mk, State.killRead_field]

theorem State.giveContext_field (s : State) (c : Cmd) : (State.giveContext s c).field = s.field := by
  unfold State.giveContext
  grind [State.field_mk, State.freeSession_field]

theorem State.leaveUnmounts_field (s : State) (id : Nat) : (State.leaveUnmounts s id).field = s.field := by
  unfold State.leaveUnmounts
  (repeat' split) <;> simp_all [↓State.setHubBay_field, State.field_foldl]

theorem State.discard_field (s : State) (c : Cmd) : (State.discard s c).field = s.field := by
  unfold State.discard
  grind [State.field_mk, State.dropCmd_field, State.closeFinal_field, State.killCmdRead_field, State.giveContext_field, State.leaveUnmounts_field]

theorem State.resetPorts_field (s : State) (f q : Nat) : (State.resetPorts s f q).field = s.field := by
  unfold State.resetPorts
  (repeat' split) <;> simp_all [↓State.sendReset_field, State.field_foldl]

theorem State.startCut_field (s : State) (f q : Nat) (kind : CutKind) : (State.startCut s f q kind).field = s.field := by
  unfold State.startCut
  simp only []
  (repeat' split) <;> (try refine (State.field_foldl _ _ _ fun t x => ?_).trans ?_) <;> (try dsimp only) <;> (repeat' split) <;> (try simp only []) <;> grind [State.field_mk, State.bumpBy_field, State.setQueue_field, State.finishId_field, State.fetch_field, State.killRead_field, State.killCmdRead_field, State.giveContext_field, State.discard_field, State.resetPorts_field]

theorem State.cutWaiters_field (s : State) (f q : Nat) : (State.cutWaiters s f q).field = s.field := by
  unfold State.cutWaiters
  grind [State.field_mk, State.setCmd_field, State.startCut_field]

theorem State.cutDone_field (s : State) (c : Cut) : (State.cutDone s c).field = s.field := by
  unfold State.cutDone
  simp only [↓State.field_mk, ↓State.field_fold, ↓State.field_ite, ↓State.field_fst_ite, ↓State.put_field, ↓State.bump_field, ↓State.epEvt_field, ↓State.setQueue_field, ↓State.dropQueue_field, ↓State.finishId_field, ↓State.logError_field, ↓State.cutWaiters_field]
  (repeat' split) <;> simp only [↓State.field_mk, ↓State.field_fold, ↓State.field_ite, ↓State.field_fst_ite, ↓State.put_field, ↓State.bump_field, ↓State.epEvt_field, ↓State.setQueue_field, ↓State.dropQueue_field, ↓State.finishId_field, ↓State.logError_field, ↓State.cutWaiters_field, ite_self]

theorem State.cutsReady_field (s : State) : (State.cutsReady s).field = s.field := by
  unfold State.cutsReady
  (repeat' split) <;> simp_all [↓State.field_ite, ↓State.cutDone_field, State.field_foldl]

theorem State.resetStart_field (s : State) (c : Cmd) : (State.resetStart s c).field = s.field := by
  unfold State.resetStart
  grind [State.field_mk, State.setCmd_field, State.finish_field, State.startCut_field, State.cutsReady_field]

theorem State.dropHubItem_field (s : State) (x : HubItem) : (State.dropHubItem s x).field = s.field := by
  unfold State.dropHubItem
  simp only [↓State.closeItem_field, ↓State.itemDropped_field]

theorem State.queueCut_field (s : State) (d : Die) (f q partly : Nat) : (State.queueCut s d f q partly).field = s.field := by
  unfold State.queueCut
  (repeat' split) <;> simp_all [↓State.field_mk, ↓State.field_fold, ↓State.dropHubItem_field, State.field_foldl]

theorem State.itemCut_field (s : State) (d : Die) (item : Nat) : (State.itemCut s d item).field = s.field := by
  unfold State.itemCut
  grind [State.field_mk, State.freeMiss_field, State.closeItem_field, State.dropHubItem_field]

theorem State.resetAnswered_field (s : State) (d : Die) (seq partly : Nat) : (State.resetAnswered s d seq partly).field =
    s.field := by
  unfold State.resetAnswered
  simp only [↓State.field_mk, ↓State.field_fold, ↓State.field_ite, ↓State.field_fst_ite, ↓State.cutsReady_field, ↓State.queueCut_field, ↓State.itemCut_field]
  (repeat' split) <;> simp only [↓State.field_mk, ↓State.field_fold, ↓State.field_ite, ↓State.field_fst_ite, ↓State.cutsReady_field, ↓State.queueCut_field, ↓State.itemCut_field, ite_self]

theorem State.regsLost_field (s : State) (d : Die) (st : Nat) : (State.regsLost s d st).field = s.field := by
  unfold State.regsLost
  (repeat' split) <;> simp_all [↓State.finish_field, State.field_foldl]

theorem State.portGone_field (s : State) (d : Die) : (State.portGone s d).field = s.field := by
  unfold State.portGone
  simp only [↓State.field_mk, ↓State.field_fold, ↓State.portLost_field, ↓State.cutsReady_field, ↓State.regsLost_field]

theorem State.setPort_field (s : State) (d : Die) (p : Port) : (State.setPort s d p).field = s.field := by
  unfold State.setPort
  simp only [↓State.field_mk, ↓State.field_fold]

theorem State.setTxEnd_field (s : State) (d : Die) (x : Side) (t : TxEnd) : (State.setTxEnd s d x t).field = s.field := by
  unfold State.setTxEnd
  simp only [↓State.setPort_field]

theorem State.setRxEnd_field (s : State) (d : Die) (x : Side) (r : RxEnd) : (State.setRxEnd s d x r).field = s.field := by
  unfold State.setRxEnd
  simp only [↓State.setPort_field]

theorem State.sendNak_field (s : State) (d : Die) (x : Side) : (State.sendNak s d x).field = s.field := by
  unfold State.sendNak
  simp only [↓State.drawn_field, ↓State.send_field]

theorem State.sendCredit_field (s : State) (d : Die) (x : Side) : (State.sendCredit s d x).field = s.field := by
  unfold State.sendCredit
  simp only [↓State.drawn_field, ↓State.send_field]

theorem State.flitSlot_field (s : State) (d : Die) (x : Side) : (State.flitSlot s d x).field = s.field := by
  unfold State.flitSlot
  grind [State.field_mk, State.drawn_field, State.emit_field, State.setTxEnd_field]

theorem State.retrain_field (s : State) (d : Die) : (State.retrain s d).field = s.field := by
  unfold State.retrain
  simp only [↓State.epEvt_field, ↓State.setPort_field]

theorem State.nakSeen_field (s : State) (d : Die) (x : Side) (named : Nat) : (State.nakSeen s d x named).field = s.field :=
    by
  unfold State.nakSeen
  grind [State.field_mk, State.setTxEnd_field, State.retrain_field]

theorem State.creditSeen_field (s : State) (d : Die) (x : Side) (ack : Nat) (units : Vector Nat 5) : (State.creditSeen s d x
    ack units).field = s.field := by
  unfold State.creditSeen
  simp only [↓State.setTxEnd_field]

theorem State.portDown_field (s : State) (d : Die) : (State.portDown s d).field = s.field := by
  unfold State.portDown
  grind [State.field, State.field, State.epEvt_field, State.raiseHub_field, State.settle_field, State.portGone_field, State.setPort_field]

theorem State.refusal_field (s : State) (d : Die) (x : Side) (sub type : Nat) : (State.refusal s d x sub type).field =
    s.field := by
  unfold State.refusal
  grind [State.field_mk, State.bump_field, State.raiseDie_field, State.raiseHub_field]

theorem State.refusedAtHub_field (s : State) (d : Die) (type : Nat) (w : Word64) : (State.refusedAtHub s d type w).field =
    s.field := by
  unfold State.refusedAtHub
  grind [State.field, State.field, State.closeItem_field, State.sendReset_field, State.refill_field, State.settle_field, State.itemEnded_field]

theorem State.refusedAtDie_field (s : State) (d : Die) (type : Nat) (w : Word64) (cls : KClass) : (State.refusedAtDie s d
    type w cls).field = s.field := by
  unfold State.refusedAtDie
  grind [State.field_mk, State.send_field, State.endItem_field]

theorem State.refuseMsg_field (s : State) (d : Die) (x : Side) (sub type : Nat) (w : Word64) (cls : KClass) :
    (State.refuseMsg s d x sub type w cls).field = s.field := by
  unfold State.refuseMsg
  grind [State.field, State.field, State.refusal_field, State.refusedAtHub_field, State.refusedAtDie_field]

theorem State.softWord_field (s : State) (d : Die) (type : Nat) (w : Word64) : (State.softWord s d type w).1.field = s.field
    := by
  unfold State.softWord
  grind [State.field_mk, State.put_field, State.setPort_field, State.refusal_field]

theorem State.accept_field (s : State) (d : Die) (x : Side) (m : Msg) : (State.accept s d x m).field = s.field := by
  unfold State.accept
  simp only []
  (repeat' split) <;> (try refine (State.field_foldl_fst _ _ _ fun t y x => ?_).trans ?_) <;> (try dsimp only) <;> (repeat' split) <;> (try simp only []) <;> grind [State.field_mk, State.setRxEnd_field, State.softWord_field]

theorem State.truncate_field (s : State) (d : Die) (x : Side) (k : KClass) (sub : Nat) (count : Bool) : (State.truncate s d x
    k sub count).field = s.field := by
  unfold State.truncate
  grind [State.field, State.field, State.setRxEnd_field, State.refusedAtHub_field, State.refusedAtDie_field, State.refuseMsg_field]

theorem State.headerIn_field (s : State) (d : Die) (x : Side) (type tag : Nat) (w : Word64) (cls : KClass) : (State.headerIn
    s d x type tag w cls).field = s.field := by
  unfold State.headerIn
  grind [State.field, State.field, State.setRxEnd_field, State.refuseMsg_field, State.accept_field, State.truncate_field]

theorem State.contIn_field (s : State) (d : Die) (x : Side) (type tag : Nat) (w : Word64) (k : KClass) : (State.contIn s d x
    type tag w k).field = s.field := by
  unfold State.contIn
  grind [State.field, State.field, State.setRxEnd_field, State.refusal_field, State.accept_field, State.truncate_field]

theorem State.goodFlit_field (s : State) (d : Die) (x : Side) (num : Nat) (f : Flit) (cls : KClass) : (State.goodFlit s d x
    num f cls).field = s.field := by
  unfold State.goodFlit
  grind [State.field, State.field, State.setRxEnd_field, State.sendCredit_field, State.headerIn_field, State.contIn_field]

theorem State.flitIn_field (s : State) (d : Die) (x : Side) (num : Nat) (f : Flit) (cls : KClass) : (State.flitIn s d x num f
    cls).field = s.field := by
  unfold State.flitIn
  grind [State.field, State.field, State.bump_field, State.setRxEnd_field, State.sendNak_field, State.goodFlit_field]

theorem State.contTimeout_field (s : State) (d : Die) (x : Side) (k : KClass) : (State.contTimeout s d x k).field = s.field
    := by
  unfold State.contTimeout
  grind [State.field, State.field, State.truncate_field]

theorem State.txctlWrite_field (s : State) (d : Die) (w : Word) : (State.txctlWrite s d w).field = s.field := by
  unfold State.txctlWrite
  grind [State.field_mk, State.put_field, State.setPort_field]

theorem State.rxctlWrite_field (s : State) (d : Die) (w : Word) : (State.rxctlWrite s d w).field = s.field := by
  unfold State.rxctlWrite
  grind [State.field_mk, State.put_field, State.setPort_field]

theorem execFillTimeout_field (id : Nat) (s : State) : ∃ t, (execFillTimeout id s) = .next t ∧ t.field = s.field := by
  unfold execFillTimeout
  (repeat' split) <;> exact ⟨_, rfl, by simp only [↓State.field_mk, ↓State.field_fold, ↓State.field_ite, ↓State.field_fst_ite, ↓State.bump_field, ↓State.irq_field, ↓State.raiseHub_field, ↓State.abandonFill_field, ↓State.settle_field]⟩

theorem State.nextParked_field (s t : State) (p : Request × Park) (h : s.nextParked = some (p, t)) : t.field = s.field := by
  unfold State.nextParked at h
  simp only [] at h
  split at h
  · cases h; rfl
  · split at h
    · obtain ⟨a, ha, he⟩ := Option.map_eq_some_iff.1 h
      cases he
      rfl
    · cases h

theorem State.victimRetry_field (s : State) : (State.victimRetry s).field = s.field := by
  refine State.field_foldl _ _ _ fun t m => ?_
  split
  · exact State.otherVictim_field _ _
  · rfl

theorem execRequestRetry_field (s : State) : ∃ t, (execRequestRetry s) = .next t ∧ t.field = s.field := by
  have h1 : ∀ (l : List Nat) (u : State), (l.foldl (fun (t : State) id => t.recordMore id) u).field = u.field :=
    fun l u => State.field_foldl _ _ _ fun t e => State.recordMore_field _ _
  unfold execRequestRetry
  extract_lets s1 s2
  have a1 : s2.field = s.field := (h1 _ _).trans (State.victimRetry_field _)
  clear_value s2
  split
  · exact ⟨_, rfl, (State.settle_field _).trans a1⟩
  · rename_i p u he
    have a3 := State.nextParked_field _ _ _ he
    refine ⟨_, rfl, (State.settle_field _).trans (.trans (.trans (State.request_field _ _) ?_) a1)⟩
    rw [State.field_mk, State.field_fold]
    exact a3

theorem execDirtyHandOver_field (e : Nat) (upset : List (Nat × Nat)) (s : State) : ∃ t, (execDirtyHandOver e upset s) = .next
    t ∧ t.field = s.field := by
  unfold execDirtyHandOver
  grind [State.field_mk, State.upset_field, State.handOverLine_field, State.checkTags_field, State.settle_field]

theorem execLndRangeInvalidate_field (force : Bool) (cls slots : Nat) (s : State) : ∃ t, (execLndRangeInvalidate force cls
    slots s) = .next t ∧ t.field = s.field := by
  unfold execLndRangeInvalidate
  (repeat' split) <;> exact ⟨_, rfl, by simp only [↓State.field_mk, ↓State.field_fold, ↓State.field_ite, ↓State.field_fst_ite, ↓State.rangeStart_field]⟩

theorem execLndRangePreload_field (force : Bool) (cls slots : Nat) (s : State) : ∃ t, (execLndRangePreload force cls slots s)
    = .next t ∧ t.field = s.field := by
  unfold execLndRangePreload
  (repeat' split) <;> exact ⟨_, rfl, by simp only [↓State.field_mk, ↓State.field_fold, ↓State.field_ite, ↓State.field_fst_ite, ↓State.rangeStart_field]⟩

theorem execLndRangePreloadLock_field (force : Bool) (cls slots : Nat) (s : State) : ∃ t, (execLndRangePreloadLock force cls
    slots s) = .next t ∧ t.field = s.field := by
  unfold execLndRangePreloadLock
  (repeat' split) <;> exact ⟨_, rfl, by simp only [↓State.field_mk, ↓State.field_fold, ↓State.field_ite, ↓State.field_fst_ite, ↓State.rangeStart_field]⟩

theorem execLndRangeUnlock_field (force : Bool) (cls slots : Nat) (s : State) : ∃ t, (execLndRangeUnlock force cls slots s) =
    .next t ∧ t.field = s.field := by
  unfold execLndRangeUnlock
  (repeat' split) <;> exact ⟨_, rfl, by simp only [↓State.field_mk, ↓State.field_fold, ↓State.field_ite, ↓State.field_fst_ite, ↓State.rangeStart_field]⟩

theorem execLndRangeClean_field (force : Bool) (cls slots : Nat) (s : State) : ∃ t, (execLndRangeClean force cls slots s) =
    .next t ∧ t.field = s.field := by
  unfold execLndRangeClean
  (repeat' split) <;> exact ⟨_, rfl, by simp only [↓State.field_mk, ↓State.field_fold, ↓State.field_ite, ↓State.field_fst_ite, ↓State.rangeStart_field]⟩

theorem execLndRangeScrub_field (force : Bool) (cls slots : Nat) (s : State) : ∃ t, (execLndRangeScrub force cls slots s) =
    .next t ∧ t.field = s.field := by
  unfold execLndRangeScrub
  (repeat' split) <;> exact ⟨_, rfl, by simp only [↓State.field_mk, ↓State.field_fold, ↓State.field_ite, ↓State.field_fst_ite, ↓State.scrub_field, ↓State.rangeStart_field]⟩

theorem State.rangeAbort_field (s : State) : (State.rangeAbort s).field = s.field := by
  unfold State.rangeAbort
  grind [State.field, State.field, State.put_field, State.endRange_field, State.settle_field]

theorem execLndRangeAbort_field (s : State) : ∃ t, (execLndRangeAbort s) = .next t ∧ t.field = s.field := by
  unfold execLndRangeAbort
  (repeat' split) <;> exact ⟨_, rfl, by simp only [↓State.field_mk, ↓State.field_fold, ↓State.field_ite, ↓State.field_fst_ite, ↓State.rangeAbort_field]⟩

theorem execLndRangeDone_field (s : State) : ∃ t, (execLndRangeDone s) = .next t ∧ t.field = s.field := by
  unfold execLndRangeDone
  grind [State.field_mk, State.endRange_field, State.settle_field]

theorem State.landingEnable_field (s : State) (en : Bool) : (State.landingEnable s en).field = s.field := by
  unfold State.landingEnable
  grind [State.field, State.field, State.put_field, State.settle_field]

theorem execLndCtrlWrite_field (en : Bool) (s : State) : ∃ t, (execLndCtrlWrite en s) = .next t ∧ t.field = s.field := by
  unfold execLndCtrlWrite
  (repeat' split) <;> exact ⟨_, rfl, by simp only [↓State.field_mk, ↓State.field_fold, ↓State.field_ite, ↓State.field_fst_ite, ↓State.landingEnable_field]⟩

theorem State.cfgErr_field (s : State) : (State.cfgErr s).field = s.field := by
  unfold State.cfgErr
  simp only [↓State.put_field]

theorem State.retireWrite_field (s : State) (w : Word) : (State.retireWrite s w).field = s.field := by
  unfold State.retireWrite
  grind [State.field, State.field, State.put_field, State.retireSweep_field, State.settle_field, State.cfgErr_field]

theorem execLndWayRetireWrite_field (w : Word) (s : State) : ∃ t, (execLndWayRetireWrite w s) = .next t ∧ t.field = s.field
    := by
  unfold execLndWayRetireWrite
  (repeat' split) <;> exact ⟨_, rfl, by simp only [↓State.field_mk, ↓State.field_fold, ↓State.field_ite, ↓State.field_fst_ite, ↓State.retireWrite_field]⟩

theorem State.landingCfg_field (s : State) (limits : Bool) (w : Word) : (State.landingCfg s limits w).field = s.field := by
  unfold State.landingCfg
  grind [State.field, State.field, State.put_field, State.settle_field, State.cfgErr_field]

theorem execLndCfgWrite_field (limits : Bool) (w : Word) (s : State) : ∃ t, (execLndCfgWrite limits w s) = .next t ∧ t.field
    = s.field := by
  unfold execLndCfgWrite
  (repeat' split) <;> exact ⟨_, rfl, by simp only [↓State.field_mk, ↓State.field_fold, ↓State.field_ite, ↓State.field_fst_ite, ↓State.landingCfg_field]⟩

theorem execWindowCommitPoint_field (s : State) : ∃ t, (execWindowCommitPoint s) = .next t ∧ t.field = s.field := by
  unfold execWindowCommitPoint
  (repeat' split) <;> exact ⟨_, rfl, by simp [↓State.field_mk, ↓State.field_fold, ↓State.field_ite, ↓State.field_fst_ite,
      ↓State.commitWindow_field, ↓State.winServe_field, ↓State.settle_field, State.field_foldl]⟩

theorem execBar2Request_field (r : WinReq) (upset : List (Nat × Nat)) (s : State) : ∃ t, (execBar2Request r upset s) = .next
    t ∧ t.field = s.field := by
  unfold execBar2Request
  grind [State.field, State.upset_field, State.winServe_field]

theorem execPatrolBurst_field (upset : List (Nat × Nat)) (s : State) : ∃ t, (execPatrolBurst upset s) = .next t ∧ t.field =
    s.field := by
  unfold execPatrolBurst
  grind [State.field_mk, State.upset_field, State.scrub_field, State.lapWarn_field, State.patrolNext_field]

theorem execMiuInjectArm_field (w : Word) (s : State) : ∃ t, (execMiuInjectArm w s) = .next t ∧ t.field = s.field := by
  unfold execMiuInjectArm
  (repeat' split) <;> exact ⟨_, rfl, by simp only [↓State.injectWrite_field]⟩

theorem State.dieTakes_field (s : State) (d : Die) (m : Msg) (act : State → State) (h : ∀ t, (act t).field = t.field) :
    (s.dieTakes d m act).field = s.field := by
  unfold State.dieTakes
  split
  · exact (h _).trans (State.received_field _ _ _ _)
  · rfl

theorem State.heartbeat_field (s : State) (d : Die) (m : Msg) : (State.heartbeat s d m).field = s.field := by
  unfold State.heartbeat
  grind [State.field_mk, State.send_field, State.setDie_field, State.raiseDie_field]

theorem execHeartbeat_field (d : Die) (m : Msg) (s : State) : ∃ t, (execHeartbeat d m s) = .next t ∧ t.field = s.field := by
  unfold execHeartbeat
  exact ⟨_, rfl, State.dieTakes_field _ _ _ _ fun t => by simp only [↓State.heartbeat_field]⟩

theorem State.fwLoad_field (s : State) (d : Die) (m : Msg) : (State.fwLoad s d m).field = s.field := by
  unfold State.fwLoad
  grind [State.field_mk, State.setDie_field]

theorem execFwLoad_field (d : Die) (m : Msg) (s : State) : ∃ t, (execFwLoad d m s) = .next t ∧ t.field = s.field := by
  unfold execFwLoad
  exact ⟨_, rfl, State.dieTakes_field _ _ _ _ fun t => by simp only [↓State.fwLoad_field]⟩

theorem execRegRead_field (d : Die) (m : Msg) (s : State) : ∃ t, (execRegRead d m s) = .next t ∧ t.field = s.field := by
  unfold execRegRead
  exact ⟨_, rfl, State.dieTakes_field _ _ _ _ fun t => by simp only [↓State.send_field]⟩

end Sys2Proof.Machine
end

