-- ==== Sys2Proof/Laws/Field4.lean ====
section
/-! SUPPORT. Commands of the hub side leave the field dies alone: lemmas of KerfLink, PageOps, KerfHub, HicOps, SkdOps,
HubRegs, SkidDma, FwOps. -/
namespace Sys2Proof.Machine

set_option linter.unusedSimpArgs false
set_option linter.unusedTactic false
set_option linter.unnecessarySeqFocus false
set_option linter.unreachableTactic false

theorem execFlitReceive_field (d : Die) (at_ : Side) (num : Nat) (flit : Flit) (cls : KClass) (s : State) : ∃ t,
    (execFlitReceive d at_ num flit cls s) = .next t ∧ t.field = s.field := by
  unfold execFlitReceive
  (repeat' split) <;> exact ⟨_, rfl, by simp only [↓State.field_mk, ↓State.field_fold, ↓State.field_ite, ↓State.field_fst_ite, ↓State.flitIn_field]⟩

theorem State.linkWordTaken_field (s : State) (d : Die) (x : Side) (type : Nat) : (State.linkWordTaken s d x type).field =
    s.field := by
  unfold State.linkWordTaken
  grind [State.field_mk, State.received_field]

theorem execLinkNakReceived_field (d : Die) (at_ : Side) (named : Nat) (s : State) : ∃ t, (execLinkNakReceived d at_ named s)
    = .next t ∧ t.field = s.field := by
  unfold execLinkNakReceived
  (repeat' split) <;> exact ⟨_, rfl, by simp only [↓State.nakSeen_field, ↓State.linkWordTaken_field]⟩

theorem execCreditReceived_field (d : Die) (at_ : Side) (ack : Nat) (units : Vector Nat 5) (s : State) : ∃ t,
    (execCreditReceived d at_ ack units s) = .next t ∧ t.field = s.field := by
  unfold execCreditReceived
  (repeat' split) <;> exact ⟨_, rfl, by simp only [↓State.creditSeen_field, ↓State.linkWordTaken_field]⟩

theorem execContinuationTimeout_field (d : Die) (at_ : Side) (k : KClass) (s : State) : ∃ t, (execContinuationTimeout d at_ k
    s) = .next t ∧ t.field = s.field := by
  unfold execContinuationTimeout
  (repeat' split) <;> exact ⟨_, rfl, by simp only [↓State.field_mk, ↓State.field_fold, ↓State.field_ite, ↓State.field_fst_ite, ↓State.contTimeout_field]⟩

theorem State.portUp_field (s : State) (d : Die) (lanes : Nat) : (State.portUp s d lanes).field = s.field := by
  unfold State.portUp
  grind [State.field_mk, State.put_field, State.setDie_field, State.epEvt_field, State.raiseHub_field, State.setPort_field]

theorem State.trainPort_field (s : State) (d : Die) : (State.trainPort s d).field = s.field := by
  unfold State.trainPort
  simp only [↓State.epEvt_field, ↓State.setPort_field]

theorem execFlitSlotTransmit_field (d : Die) (from_ : Side) (s : State) : ∃ t, (execFlitSlotTransmit d from_ s) = .next t ∧
    t.field = s.field := by
  unfold execFlitSlotTransmit
  (repeat' split) <;> exact ⟨_, rfl, by simp only [↓State.flitSlot_field]⟩

theorem execHeartbeatSend_field (s : State) : ∃ t, (execHeartbeatSend s) = .next t ∧ t.field = s.field := by
  unfold execHeartbeatSend
  (repeat' split) <;> exact ⟨_, rfl, by simp [↓State.field_ite, ↓State.send_field, ↓State.setPort_field, State.field_foldl]⟩

theorem execHeartbeatEcho_field (d : Die) (m : Msg) (s : State) : ∃ t, (execHeartbeatEcho d m s) = .next t ∧ t.field =
    s.field := by
  unfold execHeartbeatEcho
  (repeat' split) <;> exact ⟨_, rfl, by simp only [↓State.field_mk, ↓State.field_fold, ↓State.field_ite, ↓State.field_fst_ite, ↓State.received_field, ↓State.settle_field, ↓State.setPort_field]⟩

theorem execEchoLost_field (d : Die) (s : State) : ∃ t, (execEchoLost d s) = .next t ∧ t.field = s.field := by
  unfold execEchoLost
  (repeat' split) <;> exact ⟨_, rfl, by simp only [↓State.field_mk, ↓State.field_fold, ↓State.field_ite, ↓State.field_fst_ite, ↓State.put_field, ↓State.setPort_field, ↓State.portDown_field]⟩

theorem execPortDown_field (d : Die) (signal : Bool) (s : State) : ∃ t, (execPortDown d signal s) = .next t ∧ t.field =
    s.field := by
  unfold execPortDown
  (repeat' split) <;> exact ⟨_, rfl, by simp only [↓State.field_mk, ↓State.field_fold, ↓State.field_ite, ↓State.field_fst_ite, ↓State.signal_field, ↓State.setPort_field, ↓State.portDown_field]⟩

theorem execSignalRise_field (d : Die) (s : State) : ∃ t, (execSignalRise d s) = .next t ∧ t.field = s.field := by
  unfold execSignalRise
  (repeat' split) <;> exact ⟨_, rfl, by simp [↓State.field_ite, ↓State.setDie_field, ↓State.setPort_field, ↓State.trainPort_field]⟩

theorem State.sendAgain_field (s : State) (d : Die) (a : Awaiting) (keep : Port → Awaiting → Port) : (State.sendAgain s d a
    keep).field = s.field := by
  unfold State.sendAgain
  grind [State.field, State.field, State.send_field, State.setPort_field, State.portDown_field]

theorem execHaltResend_field (d : Die) (s : State) : ∃ t, (execHaltResend d s) = .next t ∧ t.field = s.field := by
  unfold execHaltResend
  (repeat' split) <;> exact ⟨_, rfl, by simp only [↓State.field_mk, ↓State.field_fold, ↓State.field_ite, ↓State.field_fst_ite, ↓State.sendAgain_field]⟩

theorem execQueueResetResend_field (d : Die) (s : State) : ∃ t, (execQueueResetResend d s) = .next t ∧ t.field = s.field :=
    by
  unfold execQueueResetResend
  (repeat' split) <;> exact ⟨_, rfl, by simp only [↓State.field_mk, ↓State.field_fold, ↓State.field_ite, ↓State.field_fst_ite, ↓State.sendAgain_field]⟩

theorem execTxctlPush_field (d : Die) (w : Word) (s : State) : ∃ t, (execTxctlPush d w s) = .next t ∧ t.field = s.field := by
  unfold execTxctlPush
  (repeat' split) <;> exact ⟨_, rfl, by simp only [↓State.txctlWrite_field]⟩

theorem execRxctlPop_field (d : Die) (w : Word) (s : State) : ∃ t, (execRxctlPop d w s) = .next t ∧ t.field = s.field := by
  unfold execRxctlPop
  (repeat' split) <;> exact ⟨_, rfl, by simp only [↓State.rxctlWrite_field]⟩

theorem State.pageSeqNow_field (s : State) (lid f : Nat) : (State.pageSeqNow s lid f).1.field = s.field := by
  unfold State.pageSeqNow
  simp only [↓State.field_mk, ↓State.field_fold]

theorem State.pageBytes_field (s : State) (lid f : Nat) : (State.pageBytes s lid f).1.field = s.field := by
  unfold State.pageBytes
  simp only [↓State.pageSeqNow_field]

theorem State.setFeature_field (s : State) (fid f v : Nat) : (State.setFeature s fid f v).field = s.field := by
  unfold State.setFeature
  (repeat' split) <;> simp only [↓State.field_mk, ↓State.field_fold, ↓State.put_field, ↓State.setFn_field]

theorem State.sendHalt_field (s : State) (d : Die) (a : HaltAction) : (State.sendHalt s d a).field = s.field := by
  unfold State.sendHalt
  simp only [↓State.send_field, ↓State.setPort_field]

theorem State.loadDie_field (s : State) (d : Die) : (State.loadDie s d).field = s.field := by
  unfold State.loadDie
  (repeat' split) <;> simp_all [↓State.send_field, State.field_foldl]

theorem State.takeUpDie_field (s : State) (d : Die) : (State.takeUpDie s d).field = s.field := by
  unfold State.takeUpDie
  grind [State.field_mk, State.sendHalt_field]

theorem State.loadEnded_field (s : State) (d : Die) (value : Nat) : (State.loadEnded s d value).field = s.field := by
  unfold State.loadEnded
  (repeat' split) <;> simp_all [↓State.send_field, ↓State.sendHalt_field, ↓State.takeUpDie_field, State.field_foldl]

theorem execPortRetrainEnd_field (d : Die) (lanes : Nat) (s : State) : ∃ t, (execPortRetrainEnd d lanes s) = .next t ∧
    t.field = s.field := by
  unfold execPortRetrainEnd
  (repeat' split) <;> exact ⟨_, rfl, by simp [↓State.field_mk, ↓State.field_fold, ↓State.field_ite, ↓State.field_fst_ite,
      ↓State.setPort_field, ↓State.portDown_field, ↓State.portUp_field, ↓State.takeUpDie_field, State.field_foldl]⟩

theorem execHaltDone_field (d : Die) (m : Msg) (s : State) : ∃ t, (execHaltDone d m s) = .next t ∧ t.field = s.field := by
  unfold execHaltDone
  grind [State.field_mk, State.received_field, State.settle_field, State.setPort_field, State.loadDie_field]

theorem execQueueResetDone_field (d : Die) (m : Msg) (s : State) : ∃ t, (execQueueResetDone d m s) = .next t ∧ t.field =
    s.field := by
  unfold execQueueResetDone
  (repeat' split) <;> exact ⟨_, rfl, by simp only [↓State.field_mk, ↓State.field_fold, ↓State.field_ite, ↓State.field_fst_ite, ↓State.received_field, ↓State.settle_field, ↓State.resetAnswered_field]⟩

theorem State.regsStep_field (s : State) (id : Nat) : (State.regsStep s id).field = s.field := by
  unfold State.regsStep
  grind [State.field_mk, State.send_field, State.hostWrite_field, State.setCmd_field, State.finish_field, State.signal_field]

theorem State.saveGeometry_field (s : State) : (State.saveGeometry s).field = s.field := by
  unfold State.saveGeometry
  (repeat' split) <;> simp only [↓State.field_mk, ↓State.field_fold]

theorem State.regAnswer_field (s : State) (c : Cmd) (next status value : Nat) : (State.regAnswer s c next status value).field
    = s.field := by
  unfold State.regAnswer
  grind [State.field_mk, State.hostWrite_field, State.setCmd_field, State.finish_field, State.regsStep_field, State.saveGeometry_field]

theorem State.regData_field (s : State) (d : Die) (m : Msg) : (State.regData s d m).field = s.field := by
  unfold State.regData
  grind [State.field_mk, State.loadEnded_field, State.regAnswer_field]

theorem execRegData_field (d : Die) (m : Msg) (s : State) : ∃ t, (execRegData d m s) = .next t ∧ t.field = s.field := by
  unfold execRegData
  (repeat' split) <;> exact ⟨_, rfl, by simp only [↓State.field_mk, ↓State.field_fold, ↓State.field_ite, ↓State.field_fst_ite, ↓State.received_field, ↓State.settle_field, ↓State.regData_field]⟩

theorem State.relayFrac_field (s : State) (frac : Nat) : (State.relayFrac s frac).field = s.field := by
  unfold State.relayFrac
  (repeat' split) <;> simp_all [↓State.field_ite, ↓State.send_field, State.field_foldl]

theorem execEvent_field (d : Die) (m : Msg) (s : State) : ∃ t, (execEvent d m s) = .next t ∧ t.field = s.field := by
  unfold execEvent
  (repeat' split) <;> exact ⟨_, rfl, by simp [↓State.field_ite, ↓State.received_field, ↓State.logEvent_field, ↓State.relayFrac_field]⟩

theorem State.workDone_field (s : State) (d : Die) (m : Msg) : (State.workDone s d m).field = s.field := by
  unfold State.workDone
  grind [State.field, State.field, State.closeItem_field, State.itemEnded_field, State.itemDropped_field]

theorem execWorkDone_field (d : Die) (m : Msg) (s : State) : ∃ t, (execWorkDone d m s) = .next t ∧ t.field = s.field := by
  unfold execWorkDone
  (repeat' split) <;> exact ⟨_, rfl, by simp only [↓State.field_mk, ↓State.field_fold, ↓State.field_ite, ↓State.field_fst_ite, ↓State.received_field, ↓State.settle_field, ↓State.workDone_field]⟩

theorem execBoardData_field (d : Die) (m : Msg) (s : State) : ∃ t, (execBoardData d m s) = .next t ∧ t.field = s.field := by
  unfold execBoardData
  grind [State.field_mk, State.received_field, State.fillBoard_field]

theorem execBoardErased_field (d : Die) (m : Msg) (s : State) : ∃ t, (execBoardErased d m s) = .next t ∧ t.field = s.field :=
    by
  unfold execBoardErased
  (repeat' split) <;> exact ⟨_, rfl, by simp only [↓State.received_field]⟩

theorem State.logDone_field (s : State) (d : Die) (m : Msg) : (State.logDone s d m).field = s.field := by
  unfold State.logDone
  grind [State.field_mk, State.beginFill_field, State.fillOver_field, State.refill_field, State.scanLog_field]

theorem execLogDone_field (d : Die) (m : Msg) (s : State) : ∃ t, (execLogDone d m s) = .next t ∧ t.field = s.field := by
  unfold execLogDone
  (repeat' split) <;> exact ⟨_, rfl, by simp only [↓State.field_mk, ↓State.field_fold, ↓State.field_ite, ↓State.field_fst_ite, ↓State.received_field, ↓State.settle_field, ↓State.logDone_field]⟩

theorem execSystemBoardReceive_field (d : Die) (m : Msg) (s : State) : ∃ t, (execSystemBoardReceive d m s) = .next t ∧
    t.field = s.field := by
  unfold execSystemBoardReceive
  grind [State.field_mk, State.received_field, State.mapDisc_field]

theorem State.hicClaim_field (s : State) (c : Nat) : (State.hicClaim s c).1.field = s.field := by
  unfold State.hicClaim
  (repeat' split) <;> simp only [↓State.field_mk, ↓State.field_fold, ↓State.put_field, ↓State.bump_field]

theorem State.runPri_field (s : State) (c : Nat) : (State.runPri s c).field = s.field := by
  unfold State.runPri
  simp only [↓State.put_field]

theorem State.hicComplete_field (s : State) (c n : Nat) : (State.hicComplete s c n).field = s.field := by
  unfold State.hicComplete
  (repeat' split) <;> simp only [↓State.field_mk, ↓State.field_fold, ↓State.bump_field, ↓State.runPri_field]

theorem State.hicInput_field (s : State) (n : Nat) (level : Bool) : (State.hicInput s n level).field = s.field := by
  unfold State.hicInput
  (repeat' split) <;> simp_all [↓State.field_mk, ↓State.field_fold, ↓State.field_ite, ↓State.hicEdge_field]

theorem State.hicTrigger_field (s : State) (n : Nat) : (State.hicTrigger s n).field = s.field := by
  unfold State.hicTrigger
  grind [State.field_mk, State.irq_field]

theorem State.hicConfig_field (s : State) (n : Nat) (w : Word) : (State.hicConfig s n w).field = s.field := by
  unfold State.hicConfig
  (repeat' split) <;> simp_all [↓State.field_mk, ↓State.field_fold, ↓State.field_ite, ↓State.put_field]

theorem State.timerCheck_field (s : State) (c : Nat) : (State.timerCheck s c).field = s.field := by
  simp only [State.timerCheck, State.field_mk, State.field_fold]

theorem State.hicDenied_field (s : State) (rel : Nat) : (State.hicDenied s rel).field = s.field := by
  unfold State.hicDenied
  simp only [↓State.pevLog_field]

theorem State.pageWrite_field (s : State) (by_ c r : Nat) (w : Word) : (State.pageWrite s by_ c r w).field = s.field := by
  unfold State.pageWrite
  grind [State.field_mk, State.put_field, State.hicComplete_field, State.timerCheck_field, State.hicDenied_field]

theorem State.hicWrite_field (s : State) (by_ rel : Nat) (w : Word) : (State.hicWrite s by_ rel w).field = s.field := by
  unfold State.hicWrite
  grind [State.field_mk, State.put_field, State.hicTrigger_field, State.hicConfig_field, State.hicDenied_field, State.pageWrite_field]

theorem State.hicRelease_field (s : State) (c : Nat) : (State.hicRelease s c).field = s.field := by
  unfold State.hicRelease
  (repeat' split) <;> simp_all [↓State.put_field, ↓State.hicComplete_field, ↓State.timerCheck_field, State.field_foldl]

theorem State.putDesc_field (s : State) (c : Fin 32) (d : SkdDesc) : (State.putDesc s c d).field = s.field := by
  unfold State.putDesc
  (repeat' split) <;> simp_all [↓State.put_field, State.field_foldl]

theorem State.setSkd_field (s : State) (c : Fin 32) (x : Skd) : (State.setSkd s c x).field = s.field := by
  unfold State.setSkd
  simp only [↓State.field_mk, ↓State.field_fold]

theorem State.putResidue_field (s : State) (c : Fin 32) (n : Nat) : (State.putResidue s c n).field = s.field := by
  unfold State.putResidue
  simp only [↓State.put_field]

theorem State.writeBack_field (s : State) (c : Fin 32) (residue code : Nat) : (State.writeBack s c residue code).field =
    s.field := by
  unfold State.writeBack
  grind [State.field, State.field, State.storeBytes_field]

theorem State.chainEnd_field (s : State) (c : Fin 32) (code : SkdCode) : (State.chainEnd s c code).field = s.field := by
  unfold State.chainEnd
  simp only [↓State.irq_field, ↓State.setSkd_field]

theorem State.abortEnd_field (s : State) (c : Fin 32) : (State.abortEnd s c).field = s.field := by
  unfold State.abortEnd
  simp only [↓State.bump_field, ↓State.writeBack_field, ↓State.chainEnd_field]

theorem State.descError_field (s : State) (c : Fin 32) : (State.descError s c).field = s.field := by
  unfold State.descError
  simp only [↓State.bump_field, ↓State.writeBack_field, ↓State.chainEnd_field]

theorem State.descNext_field (s : State) (c : Fin 32) : (State.descNext s c).field = s.field := by
  unfold State.descNext
  (repeat' split) <;> simp_all [↓State.field_ite, ↓State.setSkd_field, ↓State.chainEnd_field]

theorem State.descDone_field (s : State) (c : Fin 32) : (State.descDone s c).field = s.field := by
  unfold State.descDone
  (repeat' split) <;> simp_all [↓State.field_ite, ↓State.irq_field, ↓State.putResidue_field, ↓State.writeBack_field, ↓State.descNext_field]

theorem State.busError_field (s : State) : (State.busError s).field = s.field := by
  unfold State.busError
  (repeat' split) <;> simp_all [↓State.field_mk, ↓State.field_fold, ↓State.field_ite, ↓State.put_field, ↓State.bump_field, ↓State.fetch_field, ↓State.setSkd_field, ↓State.writeBack_field, State.field_foldl]

theorem State.descLoaded_field (s : State) (c : Fin 32) : (State.descLoaded s c).field = s.field := by
  unfold State.descLoaded
  (repeat' split) <;> simp_all [↓State.field_ite, ↓State.setSkd_field, ↓State.putResidue_field, ↓State.abortEnd_field, ↓State.descError_field]

theorem State.skdStart_field (s : State) (c : Fin 32) (resume : Bool) (core : Nat) : (State.skdStart s c resume core).field =
    s.field := by
  unfold State.skdStart
  (repeat' split) <;> simp_all [↓State.field_ite, ↓State.put_field, ↓State.setSkd_field, ↓State.descError_field, ↓State.descNext_field, ↓State.descLoaded_field]

theorem State.skdAbort_field (s : State) (c : Fin 32) : (State.skdAbort s c).field = s.field := by
  unfold State.skdAbort
  grind [State.field_mk, State.setSkd_field]

theorem State.haltGo_field (s : State) (f q : Nat) : (State.haltGo s f q).field = s.field := by
  unfold State.haltGo
  grind [State.field_mk, State.put_field, State.startCut_field]

theorem State.haltWrite_field (s : State) (f : Nat) (w : Word) : (State.haltWrite s f w).field = s.field := by
  unfold State.haltWrite
  grind [State.field_mk, State.put_field, State.haltGo_field]

theorem State.mqWrite_field (s : State) (f : Nat) (w : Word) : (State.mqWrite s f w).field = s.field := by
  unfold State.mqWrite
  (repeat' split) <;> simp_all [↓State.field_mk, ↓State.field_fold, ↓State.field_ite, ↓State.put_field, ↓State.startCut_field, ↓State.cutsReady_field]

theorem State.doorbellWrite_field (s : State) (f rel : Nat) (w : Word) : (State.doorbellWrite s f rel w).field = s.field :=
    by
  unfold State.doorbellWrite
  grind [State.field_mk, State.tailWrite_field, State.headWrite_field]

theorem State.plainWrite_field (s : State) (i : Init) (a : Nat) (k : Block) (l : Loc) (w : Word) : (State.plainWrite s i a k
    l w).field = s.field := by
  unfold State.plainWrite
  grind [State.field_mk, State.writeWord_field, State.pevLog_field]

theorem State.qenWrite_field (s : State) (i : Init) (a f rel : Nat) (l : Loc) (w : Word) : (State.qenWrite s i a f rel l
    w).field = s.field := by
  unfold State.qenWrite
  grind [State.field_mk, State.haltWrite_field, State.mqWrite_field, State.plainWrite_field]

theorem State.rangeWrite_field (s : State) (w : Word) : (State.rangeWrite s w).field = s.field := by
  unfold State.rangeWrite
  grind [State.field, State.field, State.put_field, State.rangeStart_field, State.rangeAbort_field]

theorem State.lndWrite_field (s : State) (i : Init) (a rel : Nat) (l : Loc) (w : Word) : (State.lndWrite s i a rel l w).field
    = s.field := by
  unfold State.lndWrite
  grind [State.field, State.field, State.put_field, State.commitWrite_field, State.landingEnable_field, State.retireWrite_field, State.landingCfg_field, State.plainWrite_field, State.rangeWrite_field]

theorem State.sandboxWrite_field (s : State) (i : Init) (a : Nat) (l : Loc) (w : Word) : (State.sandboxWrite s i a l w).field
    = s.field := by
  unfold State.sandboxWrite
  grind [State.field, State.field, State.setDomain_field, State.hicRelease_field, State.plainWrite_field]

theorem State.vlkWrite_field (s : State) (i : Init) (a rel : Nat) (l : Loc) (w : Word) : (State.vlkWrite s i a rel l w).field
    = s.field := by
  unfold State.vlkWrite
  grind [State.field, State.field, State.put_field, State.pevLog_field, State.plainWrite_field, State.sandboxWrite_field]

theorem State.pwrWrite_field (s : State) (i : Init) (a rel : Nat) (l : Loc) (w : Word) : (State.pwrWrite s i a rel l w).field
    = s.field := by
  unfold State.pwrWrite
  (repeat' split) <;> simp only [↓State.field_mk, ↓State.field_fold, ↓State.field_ite, ↓State.field_fst_ite, ↓State.keepOn_field, ↓State.plainWrite_field]

theorem State.krfWrite_field (s : State) (i : Init) (a rel : Nat) (l : Loc) (w : Word) : (State.krfWrite s i a rel l w).field
    = s.field := by
  unfold State.krfWrite
  grind [State.field_mk, State.txctlWrite_field, State.rxctlWrite_field, State.plainWrite_field]

theorem State.skdCmdWrite_field (s : State) (c : Fin 32) (core : Nat) (w : Word) : (State.skdCmdWrite s c core w).field =
    s.field := by
  unfold State.skdCmdWrite
  grind [State.field, State.field, State.put_field, State.skdStart_field, State.skdAbort_field]

theorem State.skdWrite_field (s : State) (i : Init) (a rel : Nat) (l : Loc) (w : Word) : (State.skdWrite s i a rel l w).field
    = s.field := by
  unfold State.skdWrite
  grind [State.field, State.field, State.plainWrite_field, State.skdCmdWrite_field]

theorem State.epWrite_field (s : State) (i : Init) (a rel : Nat) (l : Loc) (w : Word) : (State.epWrite s i a rel l w).field =
    s.field := by
  unfold State.epWrite
  grind [State.field_mk, State.put_field, State.plainWrite_field]

theorem State.hicBlockWrite_field (s : State) (i : Init) (rel : Nat) (w : Word) : (State.hicBlockWrite s i rel w).field =
    s.field := by
  unfold State.hicBlockWrite
  grind [State.field_mk, State.hicWrite_field]

theorem State.hubWrite_field (s : State) (i : Init) (a : Nat) (w : Word) : (State.hubWrite s i a w).field = s.field := by
  unfold State.hubWrite
  grind [State.field, State.field, State.injectWrite_field, State.doorbellWrite_field, State.plainWrite_field, State.qenWrite_field, State.lndWrite_field, State.vlkWrite_field, State.pwrWrite_field, State.krfWrite_field, State.skdWrite_field, State.epWrite_field, State.hicBlockWrite_field]

theorem State.hubLoad_field (s : State) (i : Init) (a : Nat) : (State.hubLoad s i a).1.field = s.field := by
  unfold State.hubLoad
  grind [State.field_mk, State.hicClaim_field]

theorem execCommit_field (g : Group) (s : State) : ∃ t, (execCommit g s) = .next t ∧ t.field = s.field := by
  unfold execCommit
  (repeat' split) <;> exact ⟨_, rfl, by simp only [↓State.commitWrite_field]⟩

theorem execStagedSetActive_field (g : Group) (s : State) : ∃ t, (execStagedSetActive g s) = .next t ∧ t.field = s.field :=
    by
  unfold execStagedSetActive
  split
  · exact execWindowCommitPoint_field s
  · exact ⟨_, rfl, State.activate_field _ _⟩

theorem State.burstRead_field (s : State) (x : Skd) (d : SkdDesc) (o n : Nat) : (State.burstRead s x d o n).1.field = s.field
    := by
  unfold State.burstRead
  grind [State.field_mk, State.drawn_field, State.pevLog_field, State.checkRange_field]

theorem State.regStore_field (s : State) (i : Init) (width : Nat) (l : List (Nat × Byte)) : (State.regStore s i width
    l).field = s.field := by
  unfold State.regStore
  (repeat' split) <;> simp_all [↓State.hubWrite_field, State.field_foldl]

theorem State.burstWrite_field (s : State) (x : Skd) (d : SkdDesc) (o : Nat) (bs : Bytes) : (State.burstWrite s x d o
    bs).1.field = s.field := by
  have h1 : ∀ (l : List (Byte × Nat)) (mem : Nat) (f : Nat → Nat) (u : State),
      (l.foldl (fun (t : State) e => t.storeBytes mem (f e.2) [e.1] 3) u).field = u.field :=
    fun l mem f u => State.field_foldl _ _ _ fun t e => State.storeBytes_field _ _ _ _ _
  have h2 : ∀ (l : List (List (Nat × Byte))) (i : Init) (w : Nat) (u : State), (l.foldl (fun (t : State) l => t.regStore i w l) u).field = u.field :=
    fun l i w u => State.field_foldl _ _ _ fun t e => State.regStore_field _ _ _ _
  unfold State.burstWrite
  extract_lets a at_
  split
  · exact (State.pevLog_field _ _ _ _ _)
  · split
    · exact (State.pevLog_field _ _ _ _ _)
    · rename_i mem m _ _
      have h3 : (if d.dinc then s.storeBytes mem m bs 3 else bs.zipIdx.foldl (fun (t : State) e => t.storeBytes mem (at_ e.2 + m - a) [e.1] 3) s).field = s.field := by
        split
        · exact State.storeBytes_field _ _ _ _ _
        · exact h1 _ _ (fun k => at_ k + m - a) _
      exact h3
    · split
      · exact (State.pevLog_field _ _ _ _ _)
      · exact h2 _ _ _ _

theorem State.burstData_field (s : State) (c : Fin 32) (data : Bytes) : (State.burstData s c data).1.field = s.field := by
  unfold State.burstData
  extract_lets d n
  split
  · rfl
  · exact State.burstRead_field _ _ _ _ _

theorem State.burstPut_field (s : State) (c : Fin 32) (o : Nat) (bs : Bytes) : (State.burstPut s c o bs).1.field = s.field :=
    by
  unfold State.burstPut
  extract_lets d
  split
  · exact (State.hostWrite_field _ _ _ _ _)
  · exact State.burstWrite_field _ _ _ _ _

theorem State.burstMoved_field (s : State) (c : Fin 32) (n : Nat) : (State.burstMoved s c n).field = s.field := by
  unfold State.burstMoved
  grind [State.field, State.field, State.setSkd_field, State.putResidue_field, State.abortEnd_field]

theorem State.burstEnd_field (s : State) (c : Fin 32) (n : Nat) (ok : Bool) : (State.burstEnd s c n ok).field = s.field := by
  unfold State.burstEnd
  grind [State.field, State.field, State.busError_field, State.burstMoved_field]

theorem State.burst_field (s : State) (c : Fin 32) (data : Bytes) : (State.burst s c data).field = s.field := by
  unfold State.burst
  extract_lets d n o
  split
  · exact State.busError_field _
  · have h1 := (State.burstData_field s c data)
    generalize s.burstData c data = r at h1 ⊢
    obtain ⟨u, v⟩ := r
    cases v with
    | none => exact (State.busError_field _).trans h1
    | some bs => exact (State.burstEnd_field _ _ _ _).trans ((State.burstPut_field _ _ _ _).trans h1)

theorem execSkdStart_field (c : Fin 32) (resume : Bool) (core : Fin 8) (s : State) : ∃ t, (execSkdStart c resume core s) =
    .next t ∧ t.field = s.field := by
  unfold execSkdStart
  (repeat' split) <;> exact ⟨_, rfl, by simp only [↓State.field_mk, ↓State.field_fold, ↓State.field_ite, ↓State.field_fst_ite, ↓State.skdStart_field]⟩

theorem execSkdAbort_field (c : Fin 32) (s : State) : ∃ t, (execSkdAbort c s) = .next t ∧ t.field = s.field := by
  unfold execSkdAbort
  (repeat' split) <;> exact ⟨_, rfl, by simp only [↓State.skdAbort_field]⟩

theorem execSkdBurstDone_field (data : Bytes) (upset : List (Nat × Nat)) (s : State) : ∃ t, (execSkdBurstDone data upset s) =
    .next t ∧ t.field = s.field := by
  unfold execSkdBurstDone
  (repeat' split) <;> exact ⟨_, rfl, by simp only [↓State.field_mk, ↓State.field_fold, ↓State.field_ite, ↓State.field_fst_ite, ↓State.upset_field, ↓State.burst_field]⟩

theorem execSkdDescriptorDone_field (c : Fin 32) (s : State) : ∃ t, (execSkdDescriptorDone c s) = .next t ∧ t.field = s.field
    := by
  unfold execSkdDescriptorDone
  (repeat' split) <;> exact ⟨_, rfl, by simp only [↓State.field_mk, ↓State.field_fold, ↓State.field_ite, ↓State.field_fst_ite, ↓State.descDone_field]⟩

theorem execSkdDescriptorLoad_field (c : Fin 32) (upset : List (Nat × Nat)) (s : State) : ∃ t, (execSkdDescriptorLoad c upset
    s) = .next t ∧ t.field = s.field := by
  unfold execSkdDescriptorLoad
  grind [State.field_mk, State.pevLog_field, State.upset_field, State.checkRange_field, State.fetch_field,
      State.putDesc_field, State.setSkd_field, State.putResidue_field, State.descError_field, State.busError_field,
      State.descLoaded_field]

theorem execSkdBusError_field (s : State) : ∃ t, (execSkdBusError s) = .next t ∧ t.field = s.field := by
  unfold execSkdBusError
  (repeat' split) <;> exact ⟨_, rfl, by simp only [↓State.field_mk, ↓State.field_fold, ↓State.field_ite, ↓State.field_fst_ite, ↓State.busError_field]⟩

theorem execSkdHaltedClear_field (s : State) : ∃ t, (execSkdHaltedClear s) = .next t ∧ t.field = s.field := by
  unfold execSkdHaltedClear
  (repeat' split) <;> exact ⟨_, rfl, by simp only [↓State.put_field]⟩

theorem State.fwHistory_field (s : State) (result reason index ver lost : Nat) : (State.fwHistory s result reason index ver
    lost).field = s.field := by
  unfold State.fwHistory
  simp only [↓State.field_mk, ↓State.field_fold, ↓State.pageChanged_field]

theorem State.writeJournal_field (s : State) (j : Journal) : (State.writeJournal s j).field = s.field := by
  unfold State.writeJournal
  simp only [↓State.putBytes_field, ↓State.irq_field]

theorem State.confirmSet_field (s : State) : (State.confirmSet s).field = s.field := by
  unfold State.confirmSet
  (repeat' split) <;> simp_all [↓State.field_mk, ↓State.field_fold, ↓State.finish_field, ↓State.fwHistory_field, ↓State.writeJournal_field, State.field_foldl]

theorem State.applyFeatures_field (s : State) (x : Settings) : (State.applyFeatures s x).field = s.field := by
  unfold State.applyFeatures
  (repeat' split) <;> simp_all [↓State.setFeature_field, State.field_foldl]

theorem State.takeSettings_field (s : State) : (State.takeSettings s).field = s.field := by
  unfold State.takeSettings
  simp only [↓State.field_mk, ↓State.field_fold, ↓State.field_ite, ↓State.field_fst_ite, ↓State.put_field, ↓State.irq_field, ↓State.raiseHub_field, ↓State.applyFeatures_field]
  (repeat' split) <;> simp only [↓State.field_mk, ↓State.field_fold, ↓State.field_ite, ↓State.field_fst_ite, ↓State.put_field, ↓State.irq_field, ↓State.raiseHub_field, ↓State.applyFeatures_field, ite_self]

theorem State.applyBootBlock_field (s : State) : (State.applyBootBlock s).field = s.field := by
  unfold State.applyBootBlock
  simp only [↓State.field_mk, ↓State.field_fold, ↓State.put_field]

end Sys2Proof.Machine
end

