-- ==== Sys2Proof/Laws/Field5.lean ====
section
/-! SUPPORT. Commands of the hub side leave the field dies alone: lemmas of ResetOps, Queue, Vault, Commands, Endpoint. -/
namespace Sys2Proof.Machine

set_option linter.unusedSimpArgs false
set_option linter.unusedTactic false
set_option linter.unnecessarySeqFocus false
set_option linter.unreachableTactic false

theorem State.dropSchedule_field (s : State) : (State.dropSchedule s).field = s.field := by
  unfold State.dropSchedule
  (repeat' split) <;> simp only [↓State.field_mk, ↓State.field_fold, ↓State.fwHistory_field]

theorem State.hubReset_field (s : State) (cause : ResetCause) : (State.hubReset s cause).field = s.field := by
  unfold State.hubReset
  grind [State.field, State.field, State.dropSchedule_field]

theorem State.decideEarly_field (s : State) (c : Cmd) (st : Nat) (counted : Bool) : (State.decideEarly s c st counted).field
    = s.field := by
  unfold State.decideEarly
  (repeat' split) <;> simp_all [↓State.finish_field, ↓State.sendReset_field, ↓State.killCmdRead_field, ↓State.giveContext_field, ↓State.leaveUnmounts_field, State.field_foldl]

theorem State.unfetch_field (s : State) (r : HostRead) : (State.unfetch s r).field = s.field := by
  unfold State.unfetch
  grind [State.field_mk, State.setQueue_field, State.fetch_field, State.killRead_field]

theorem State.haltHost_field (s : State) (f : Nat) : (State.haltHost s f).field = s.field := by
  unfold State.haltHost
  (repeat' split) <;> simp_all [↓State.settle_field, ↓State.decideEarly_field, ↓State.unfetch_field, State.field_foldl]

theorem State.resumeHost_field (s : State) (f : Nat) : (State.resumeHost s f).field = s.field := by
  unfold State.resumeHost
  (repeat' split) <;> simp_all [↓State.postAll_field, ↓State.cutsReady_field, State.field_foldl]

theorem State.functionReset_field (s : State) (f : Nat) : (State.functionReset s f).field = s.field := by
  unfold State.functionReset
  (repeat' split) <;> simp_all [↓State.field_mk, ↓State.field_fold, ↓State.put_field, ↓State.setFn_field, ↓State.irq_field, ↓State.freeSession_field, ↓State.dropCmd_field, ↓State.killRead_field, ↓State.giveContext_field, ↓State.leaveUnmounts_field, ↓State.resetPorts_field, State.field_foldl]

theorem State.dropVfs_field (s : State) : (State.dropVfs s).field = s.field := by
  unfold State.dropVfs
  (repeat' split) <;> simp_all [↓State.field_mk, ↓State.field_fold, ↓State.functionReset_field, State.field_foldl]

theorem State.closeWindow_field (s : State) : (State.closeWindow s).field = s.field := by
  unfold State.closeWindow
  (repeat' split) <;> simp_all [↓State.field_mk, ↓State.field_fold, ↓State.put_field, ↓State.winServe_field, State.field_foldl]

theorem State.abortOwnRange_field (s : State) : (State.abortOwnRange s).field = s.field := by
  unfold State.abortOwnRange
  grind [State.field, State.field, State.rangeAbort_field]

theorem State.flr_field (s : State) (f : Nat) : (State.flr s f).field = s.field := by
  unfold State.flr
  grind [State.field, State.field, State.settle_field, State.functionReset_field, State.dropVfs_field, State.closeWindow_field, State.abortOwnRange_field]

theorem State.decideAll_field (s : State) (keep : State → Cmd → Bool) : (State.decideAll s keep).field = s.field := by
  unfold State.decideAll
  (repeat' split) <;> simp_all [↓State.decideEarly_field, State.field_foldl]

theorem State.postEverything_field (s : State) : (State.postEverything s).field = s.field := by
  unfold State.postEverything
  (repeat' split) <;> simp_all [↓State.postAll_field, ↓State.cutsReady_field, State.field_foldl]

theorem State.beginFlush_field (s : State) (a : Activation) : (State.beginFlush s a).field = s.field := by
  unfold State.beginFlush
  grind [State.field, State.field, State.handOverKeys_field, State.settle_field, State.decideAll_field]

theorem State.endFlush_field (s : State) (a : Activation) : (State.endFlush s a).field = s.field := by
  unfold State.endFlush
  simp only [↓State.field_mk, ↓State.field_fold, ↓State.decideAll_field, ↓State.postEverything_field]

theorem State.finishRun_field (s : State) (a : Activation) : (State.finishRun s a).field = s.field := by
  unfold State.finishRun
  grind [State.field, State.field, State.bump_field, State.raiseHub_field, State.fwHistory_field, State.writeJournal_field, State.hubReset_field, State.postEverything_field]

theorem execDoorbellWrite_field (f : Fin 64) (q : Nat) (tail head : Option Nat) (s : State) : ∃ t, (execDoorbellWrite f q
    tail head s) = .next t ∧ t.field = s.field := by
  unfold execDoorbellWrite
  (repeat' split) <;> exact ⟨_, rfl, by simp only [↓State.tailWrite_field, ↓State.headWrite_field]⟩

theorem State.loseQueue_field (s : State) (f q : Nat) : (State.loseQueue s f q).field = s.field := by
  unfold State.loseQueue
  simp only [↓State.irq_field, ↓State.aer_field, ↓State.raiseHub_field, ↓State.startCut_field, ↓State.cutsReady_field]

theorem execFetch_field (upset : List (Nat × Nat)) (s : State) : ∃ t, (execFetch upset s) = .next t ∧ t.field = s.field := by
  have h1 : ∀ (l : List Nat) (u : State), (l.foldl (fun (t : State) v => t.setFlips (unitKey 4 v) 0) u).field = u.field :=
    fun l u => State.field_foldl _ _ _ fun t v => State.setFlips_field _ _ _
  unfold execFetch
  dsimp only
  split
  · exact ⟨_, rfl, State.upset_field _ _⟩
  · rename_i x _ _
    have h2 := State.checkRange_field (s.upset upset) 4 (64 * (513 * x.func + x.qid)) 64 4
    rw [State.upset_field] at h2
    split
    · exact ⟨_, rfl, (State.fetch_field _).trans h2⟩
    · exact ⟨_, rfl, (State.loseQueue_field _ _ _).trans ((h1 _ _).trans h2)⟩

theorem State.takeEntries_field (s : State) (r : HostRead) (f q start n : Nat) : (State.takeEntries s r f q start n).field =
    s.field := by
  refine State.field_foldl _ _ _ fun t k => ?_
  split
  · rfl
  · split
    · exact State.takeEntry_field _ _ _
    · exact State.lostEntry_field _ _ _

theorem execEntryReceived_field (f : Fin 64) (q : Nat) (upset : List (Nat × Nat)) (s : State) : ∃ t, (execEntryReceived f q
    upset s) = .next t ∧ t.field = s.field := by
  unfold execEntryReceived
  (repeat' split) <;> exact ⟨_, rfl, by simp only [↓State.field_mk, ↓State.field_fold, ↓State.field_ite, ↓State.field_fst_ite, ↓State.upset_field, ↓State.settle_field, ↓State.takeEntries_field]⟩

theorem execCompletionPost_field (f : Fin 64) (q : Nat) (s : State) : ∃ t, (execCompletionPost f q s) = .next t ∧ t.field =
    s.field := by
  unfold execCompletionPost
  (repeat' split) <;> exact ⟨_, rfl, by simp only [↓State.postOne_field, ↓State.cutsReady_field]⟩

theorem execQenHalt_field (f : Fin 64) (q : Nat) (s : State) : ∃ t, (execQenHalt f q s) = .next t ∧ t.field = s.field := by
  unfold execQenHalt
  (repeat' split) <;> exact ⟨_, rfl, by simp only [↓State.put_field, ↓State.haltGo_field]⟩

theorem execHaltCutComplete_field (f : Fin 64) (s : State) : ∃ t, (execHaltCutComplete f s) = .next t ∧ t.field = s.field :=
    by
  unfold execHaltCutComplete
  (repeat' split) <;> exact ⟨_, rfl, by simp only [↓State.field_mk, ↓State.field_fold, ↓State.field_ite, ↓State.field_fst_ite, ↓State.settle_field, ↓State.cutDone_field]⟩

theorem execQenMqCtlWrite_field (f : Fin 64) (w : Word) (s : State) : ∃ t, (execQenMqCtlWrite f w s) = .next t ∧ t.field =
    s.field := by
  unfold execQenMqCtlWrite
  (repeat' split) <;> exact ⟨_, rfl, by simp only [↓State.field_mk, ↓State.field_fold, ↓State.field_ite, ↓State.field_fst_ite, ↓State.settle_field, ↓State.mqWrite_field]⟩

theorem execCqCoalesceTimeout_field (f : Fin 64) (q : Nat) (s : State) : ∃ t, (execCqCoalesceTimeout f q s) = .next t ∧
    t.field = s.field := by
  unfold execCqCoalesceTimeout
  (repeat' split) <;> exact ⟨_, rfl, by simp only [↓State.msixFire_field, ↓State.setQueue_field]⟩

theorem execOpenCoreWatchdog_field (i : Fin 2) (s : State) : ∃ t, (execOpenCoreWatchdog i s) = .next t ∧ t.field = s.field :=
    by
  unfold execOpenCoreWatchdog
  (repeat' split) <;> exact ⟨_, rfl, by simp only [↓State.field_mk, ↓State.field_fold, ↓State.irq_field, ↓State.raiseHub_field, ↓State.hicRelease_field]⟩

theorem execSessionCloseFinal_field (id : Nat) (s : State) : ∃ t, (execSessionCloseFinal id s) = .next t ∧ t.field = s.field
    := by
  unfold execSessionCloseFinal
  (repeat' split) <;> exact ⟨_, rfl, by simp only [↓State.closeFinal_field]⟩

theorem execGenerationRecord_field (b : Bay) (s : State) : ∃ t, (execGenerationRecord b s) = .next t ∧ t.field = s.field :=
    by
  unfold execGenerationRecord
  (repeat' split) <;> exact ⟨_, rfl, by simp only [↓State.field_mk, ↓State.field_fold, ↓State.field_ite, ↓State.field_fst_ite, ↓State.sendGen_field, ↓State.settle_field, ↓State.genOver_field]⟩

theorem State.discRead_field (s : State) (d : BayDisc) (dataBlank : Bool) : (State.discRead s d dataBlank).1.field = s.field
    := by
  unfold State.discRead
  grind [State.field_mk, State.drawn_field]

theorem State.leaveSlot_field (s : State) (id slot : Nat) : (State.leaveSlot s id slot).field = s.field := by
  unfold State.leaveSlot
  simp only [↓State.field_mk, ↓State.field_fold]

theorem State.resolveAgain_field (s : State) (c : Cmd) (slot : Nat) : (State.resolveAgain s c slot).field = s.field := by
  unfold State.resolveAgain
  grind [State.field_mk, State.setCmd_field, State.takeBoards_field, State.setLookup_field, State.startBoards_field, State.leaveSlot_field]

theorem State.serialChanged_field (s : State) (slot : Nat) : (State.serialChanged s slot).field = s.field := by
  unfold State.serialChanged
  simp only [↓State.bump_field, ↓State.moveInvalidate_field]

theorem State.discTaken_field (s : State) (b : Bay) (d : BayDisc) : (State.discTaken s b d).field = s.field := by
  have hi : ∀ (l : List DirEntry) (slot : Nat) (u : State), (l.foldl (fun (t : State) e => t.raiseHub 0x0C03 0 slot e.title) u).field = u.field :=
    fun l slot u => State.field_foldl _ _ _ fun t e => State.raiseHub_field _ _ _ _ _ _
  have hc : ∀ (l : List Cmd) (slot : Nat) (u : State), (l.foldl (fun (t : State) x => match t.cmd x.id with | some c => t.resolveAgain c slot | none => t) u).field = u.field :=
    fun l slot u => State.field_foldl _ _ _ fun t e => by
      split
      · exact State.resolveAgain_field _ _ _
      · rfl
  have hs : ∀ b : Bool, (if b then s.serialChanged d.slot else s).field = s.field := fun b => by
    split
    · exact State.serialChanged_field _ _
    · rfl
  unfold State.discTaken
  extract_lets old changed s1
  have h1 : s1.field = s.field := hs _
  clear_value s1
  have h2 := (State.readDirectory_field s1 d).trans h1
  split
  rename_i u n he
  rw [he] at h2
  dsimp only
  split
  · exact (hc _ _ _).trans ((hi _ _ _).trans ((State.setHubBay_field _ _ _).trans h2))
  · exact (hi _ _ _).trans ((State.setHubBay_field _ _ _).trans h2)

theorem State.mountRefused_field (s : State) (j : MountJob) (b : Bay) : (State.mountRefused s j b).field = s.field := by
  unfold State.mountRefused
  grind [State.field, State.field, State.setTask_field, State.returnDisc_field, State.mountEnded_field]

theorem execMountComplete_field (slot : Nat) (dataBlank : Bool) (s : State) : ∃ t, (execMountComplete slot dataBlank s) =
    .next t ∧ t.field = s.field := by
  unfold execMountComplete
  grind [State.field_mk, State.mountEnded_field, State.settle_field, State.discRead_field, State.discTaken_field,
      State.mountRefused_field]

theorem State.dirRead_field (s : State) : (State.dirRead s).field = s.field := by
  unfold State.dirRead
  simp only [↓State.bump_field]

theorem execBackgroundDirectoryRead_field (s : State) : ∃ t, (execBackgroundDirectoryRead s) = .next t ∧ t.field = s.field :=
    by
  unfold execBackgroundDirectoryRead
  grind [State.field, State.wantMount_field, State.readDirectory_field, State.settle_field, State.dirRead_field]

theorem State.yieldRebuild_field (s : State) : (State.yieldRebuild s).field = s.field := by
  unfold State.yieldRebuild
  (repeat' split) <;> simp only [↓State.field_mk, ↓State.field_fold, ↓State.setMount_field]

theorem State.lookupFailed_field (s : State) (k : Lookup) (c : Cmd) (rest : List Nat) : (State.lookupFailed s k c rest).field
    = s.field := by
  unfold State.lookupFailed
  grind [State.field_mk, State.dropLookup_field, State.failBoards_field, State.lookupOver_field, State.openFound_field]

theorem State.lookupStep_field (s : State) (k : Lookup) (c : Cmd) : (State.lookupStep s k c).field = s.field := by
  unfold State.lookupStep
  grind [State.field_mk, State.wantMount_field, State.readDirectory_field, State.takeBoards_field, State.setLookup_field, State.dropLookup_field, State.lookupOver_field, State.openFound_field, State.dirRead_field, State.yieldRebuild_field, State.lookupFailed_field]

theorem execForegroundLookup_field (id : Nat) (s : State) : ∃ t, (execForegroundLookup id s) = .next t ∧ t.field = s.field :=
    by
  unfold execForegroundLookup
  (repeat' split) <;> exact ⟨_, rfl, by simp only [↓State.field_mk, ↓State.field_fold, ↓State.field_ite, ↓State.field_fst_ite, ↓State.settle_field, ↓State.lookupStep_field]⟩

theorem State.starts_field (s : State) (id op : Nat) (f : State → Cmd → State) (h : ∀ t c, (f t c).field = t.field) :
    (s.starts id op f).field = s.field := by
  unfold State.starts
  split
  · exact (State.settle_field _).trans ((h _ _).trans ((State.setCmd_field _ _)))
  · rfl

theorem execRead_field (id : Nat) (upset : List (Nat × Nat)) (s : State) : ∃ t, (execRead id upset s) = .next t ∧ t.field =
    s.field := by
  unfold execRead
  exact ⟨_, rfl, (State.starts_field _ _ _ _ fun t c => by simp only [↓State.field_mk, ↓State.field_fold, ↓State.field_ite,
      ↓State.field_fst_ite, ↓State.upset_field, ↓State.startBoards_field]).trans (State.upset_field _ _)⟩

theorem execReadRaw_field (id : Nat) (upset : List (Nat × Nat)) (s : State) : ∃ t, (execReadRaw id upset s) = .next t ∧
    t.field = s.field := by
  unfold execReadRaw
  exact ⟨_, rfl, (State.starts_field _ _ _ _ fun t c => by simp only [↓State.field_mk, ↓State.field_fold, ↓State.field_ite,
      ↓State.field_fst_ite, ↓State.upset_field, ↓State.setCmd_field, ↓State.ifDone_field, ↓State.askLogs_field]).trans
      (State.upset_field _ _)⟩

theorem execRecord_field (id : Nat) (upset : List (Nat × Nat)) (s : State) : ∃ t, (execRecord id upset s) = .next t ∧ t.field
    = s.field := by
  unfold execRecord
  exact ⟨_, rfl, (State.starts_field _ _ _ _ fun t c => by simp only [↓State.field_mk, ↓State.field_fold, ↓State.field_ite,
      ↓State.field_fst_ite, ↓State.upset_field, ↓State.recordStart_field]).trans (State.upset_field _ _)⟩

theorem execPreload_field (id : Nat) (s : State) : ∃ t, (execPreload id s) = .next t ∧ t.field = s.field := by
  unfold execPreload
  exact ⟨_, rfl, State.starts_field _ _ _ _ fun t c => by grind [State.field_mk, State.setCmd_field, State.finish_field,
      State.ifDone_field, State.askPreload_field, State.startBoards_field]⟩

theorem execFence_field (id : Nat) (s : State) : ∃ t, (execFence id s) = .next t ∧ t.field = s.field := by
  unfold execFence
  exact ⟨_, rfl, State.starts_field _ _ _ _ fun t c => by simp only [↓State.field_mk, ↓State.field_fold, ↓State.field_ite, ↓State.field_fst_ite, ↓State.finish_field]⟩

theorem execFlush_field (id : Nat) (upset : List (Nat × Nat)) (s : State) : ∃ t, (execFlush id upset s) = .next t ∧ t.field =
    s.field := by
  unfold execFlush
  exact ⟨_, rfl, (State.starts_field _ _ _ _ fun t c => by simp only [↓State.field_mk, ↓State.field_fold, ↓State.field_ite,
      ↓State.field_fst_ite, ↓State.upset_field, ↓State.setCmd_field, ↓State.ifDone_field, ↓State.handOverKeys_field]).trans
      (State.upset_field _ _)⟩

theorem execVerifyScan_field (id : Nat) (s : State) : ∃ t, (execVerifyScan id s) = .next t ∧ t.field = s.field := by
  unfold execVerifyScan
  exact ⟨_, rfl, State.starts_field _ _ _ _ fun t c => by simp only [↓State.field_mk, ↓State.field_fold, ↓State.field_ite, ↓State.field_fst_ite, ↓State.scanStart_field]⟩

theorem execCreateQueuePair_field (id : Nat) (s : State) : ∃ t, (execCreateQueuePair id s) = .next t ∧ t.field = s.field :=
    by
  unfold execCreateQueuePair
  refine ⟨_, rfl, State.starts_field _ _ _ _ fun t c => ?_⟩
  dsimp only
  split
  · exact State.finish_field _ _ _ _
  · exact (State.finish_field _ _ _ _).trans rfl

theorem execDeleteQueuePair_field (id : Nat) (s : State) : ∃ t, (execDeleteQueuePair id s) = .next t ∧ t.field = s.field :=
    by
  unfold execDeleteQueuePair
  exact ⟨_, rfl, State.starts_field _ _ _ _ fun t c => by simp only [↓State.field_mk, ↓State.field_fold, ↓State.field_ite, ↓State.field_fst_ite, ↓State.resetStart_field]⟩

theorem execResetQueue_field (id : Nat) (s : State) : ∃ t, (execResetQueue id s) = .next t ∧ t.field = s.field := by
  unfold execResetQueue
  exact ⟨_, rfl, State.starts_field _ _ _ _ fun t c => by simp only [↓State.field_mk, ↓State.field_fold, ↓State.field_ite, ↓State.field_fst_ite, ↓State.resetStart_field]⟩

theorem execSessionOpen_field (id : Nat) (s : State) : ∃ t, (execSessionOpen id s) = .next t ∧ t.field = s.field := by
  unfold execSessionOpen
  exact ⟨_, rfl, State.starts_field _ _ _ _ fun t c => by simp only [↓State.field_mk, ↓State.field_fold, ↓State.field_ite, ↓State.field_fst_ite, ↓State.openStart_field]⟩

theorem execSessionClose_field (id : Nat) (s : State) : ∃ t, (execSessionClose id s) = .next t ∧ t.field = s.field := by
  unfold execSessionClose
  exact ⟨_, rfl, State.starts_field _ _ _ _ fun t c => by simp only [↓State.field_mk, ↓State.field_fold, ↓State.field_ite, ↓State.field_fst_ite, ↓State.closeStart_field, ↓State.closeFinal_field]⟩

theorem execMount_field (id : Nat) (s : State) : ∃ t, (execMount id s) = .next t ∧ t.field = s.field := by
  unfold execMount
  exact ⟨_, rfl, State.starts_field _ _ _ _ fun t c => by simp only [↓State.field_mk, ↓State.field_fold, ↓State.field_ite, ↓State.field_fst_ite, ↓State.mountStart_field]⟩

theorem execUnmount_field (id : Nat) (s : State) : ∃ t, (execUnmount id s) = .next t ∧ t.field = s.field := by
  unfold execUnmount
  exact ⟨_, rfl, State.starts_field _ _ _ _ fun t c => by simp only [↓State.field_mk, ↓State.field_fold, ↓State.field_ite, ↓State.field_fst_ite, ↓State.unmountStart_field]⟩

theorem execMoveDisc_field (id : Nat) (s : State) : ∃ t, (execMoveDisc id s) = .next t ∧ t.field = s.field := by
  unfold execMoveDisc
  exact ⟨_, rfl, State.starts_field _ _ _ _ fun t c => by simp only [↓State.field_mk, ↓State.field_fold, ↓State.field_ite, ↓State.field_fst_ite, ↓State.moveDiscStart_field]⟩

theorem execCruiseNow_field (id : Nat) (s : State) : ∃ t, (execCruiseNow id s) = .next t ∧ t.field = s.field := by
  unfold execCruiseNow
  exact ⟨_, rfl, State.starts_field _ _ _ _ fun t c => by grind [State.field_mk, State.setCmd_field, State.finish_field,
      State.sendWork_field]⟩

theorem execQueryBay_field (id : Nat) (s : State) : ∃ t, (execQueryBay id s) = .next t ∧ t.field = s.field := by
  unfold execQueryBay
  exact ⟨_, rfl, State.starts_field _ _ _ _ fun t c => by simp only [↓State.field_mk, ↓State.field_fold, ↓State.field_ite, ↓State.field_fst_ite, ↓State.hostWrite_field, ↓State.finish_field]⟩

theorem State.setBank_field (s : State) (b : Fin 2) (x : Bank) : (State.setBank s b x).field = s.field := by
  unfold State.setBank
  simp only [↓State.field_mk, ↓State.field_fold]

theorem execBundleDownload_field (id : Nat) (s : State) : ∃ t, (execBundleDownload id s) = .next t ∧ t.field = s.field := by
  have h1 : ∀ (p : Prop) [Decidable p] (b : Fin 2) (x : Bank) (u : State), (if p then u.setBank b x else u).field = u.field := fun p _ b x u => by
    split
    · exact State.setBank_field _ _ _
    · rfl
  have h2 : ∀ (t : State) (c : Cmd), (match t.chunkRefused c with
      | some st => t.finish c st 0
      | none => ((if c.word 7 = 0 then t.setBank t.altBank { st := .partly } else t).setCmd { c with wait := .host 0 }).hostRead c.func
          c.buffer (4096 * c.count) true (.cmd c.id)).field = t.field := fun t c => by
    split
    · exact State.finish_field _ _ _ _
    · exact (State.hostRead_field _ _ _ _ _ _).trans ((State.setCmd_field _ _).trans (h1 _ _ _ _))
  unfold execBundleDownload
  split
  · exact ⟨_, rfl, rfl⟩
  · exact ⟨_, rfl, State.starts_field _ _ _ _ fun t c => h2 t c⟩

theorem execScheduleActivation_field (id : Nat) (s : State) : ∃ t, (execScheduleActivation id s) = .next t ∧ t.field =
    s.field := by
  unfold execScheduleActivation
  refine ⟨_, rfl, State.starts_field _ _ _ _ fun t c => ?_⟩
  extract_lets x
  split
  · exact State.finish_field _ _ _ _
  · split
    · exact State.finish_field _ _ _ _
    · exact (State.finish_field _ _ _ _).trans rfl

theorem execCancelActivation_field (id : Nat) (s : State) : ∃ t, (execCancelActivation id s) = .next t ∧ t.field = s.field :=
    by
  unfold execCancelActivation
  exact ⟨_, rfl, State.starts_field _ _ _ _ fun t c => by (repeat' split) <;> simp only [↓State.field_mk, ↓State.field_fold,
      ↓State.field_ite, ↓State.field_fst_ite, ↓State.finish_field]⟩

theorem execConfirmHealth_field (id : Nat) (s : State) : ∃ t, (execConfirmHealth id s) = .next t ∧ t.field = s.field := by
  unfold execConfirmHealth
  exact ⟨_, rfl, State.starts_field _ _ _ _ fun t c => by grind [State.field, State.setCmd_field, State.finish_field, State.confirmSet_field]⟩

theorem execGetLogPage_field (id : Nat) (s : State) : ∃ t, (execGetLogPage id s) = .next t ∧ t.field = s.field := by
  unfold execGetLogPage
  exact ⟨_, rfl, State.starts_field _ _ _ _ fun t c => by simp only [↓State.field_mk, ↓State.field_fold, ↓State.field_ite, ↓State.field_fst_ite, ↓State.hostWrite_field, ↓State.finish_field, ↓State.pageBytes_field]⟩

theorem State.saveFeature_field (s : State) (fid f v : Nat) : (State.saveFeature s fid f v).field = s.field := by
  unfold State.saveFeature
  (repeat' split) <;> simp only [↓State.field_mk, ↓State.field_fold]

theorem execSetFeature_field (id : Nat) (s : State) : ∃ t, (execSetFeature id s) = .next t ∧ t.field = s.field := by
  unfold execSetFeature
  exact ⟨_, rfl, State.starts_field _ _ _ _ fun t c => by grind [State.field_mk, State.finish_field, State.setFeature_field,
      State.saveFeature_field]⟩

theorem execGetFeature_field (id : Nat) (s : State) : ∃ t, (execGetFeature id s) = .next t ∧ t.field = s.field := by
  unfold execGetFeature
  exact ⟨_, rfl, State.starts_field _ _ _ _ fun t c => by simp only [↓State.field_mk, ↓State.field_fold, ↓State.field_ite, ↓State.field_fst_ite, ↓State.finish_field]⟩

theorem execFieldRegisterRead_field (id : Nat) (s : State) : ∃ t, (execFieldRegisterRead id s) = .next t ∧ t.field = s.field
    := by
  unfold execFieldRegisterRead
  exact ⟨_, rfl, State.starts_field _ _ _ _ fun t c => by simp only [↓State.field_mk, ↓State.field_fold, ↓State.field_ite, ↓State.field_fst_ite, ↓State.setCmd_field, ↓State.regsStep_field]⟩

theorem execFieldRegisterWrite_field (id : Nat) (s : State) : ∃ t, (execFieldRegisterWrite id s) = .next t ∧ t.field =
    s.field := by
  unfold execFieldRegisterWrite
  exact ⟨_, rfl, State.starts_field _ _ _ _ fun t c => by grind [State.field_mk, State.hostRead_field, State.setCmd_field,
      State.regsStep_field]⟩

theorem execRegDataTimeout_field (id : Nat) (s : State) : ∃ t, (execRegDataTimeout id s) = .next t ∧ t.field = s.field := by
  unfold execRegDataTimeout
  (repeat' split) <;> exact ⟨_, rfl, by simp only [↓State.field_mk, ↓State.field_fold, ↓State.field_ite, ↓State.field_fst_ite, ↓State.finish_field, ↓State.settle_field]⟩

theorem State.rangeCommand_field (s : State) (c : Cmd) : (State.rangeCommand s c).field = s.field := by
  unfold State.rangeCommand
  grind [State.field, State.field, State.setCmd_field, State.finish_field, State.commandRange_field]

theorem execScrubRange_field (id : Nat) (upset : List (Nat × Nat)) (s : State) : ∃ t, (execScrubRange id upset s) = .next t ∧
    t.field = s.field := by
  unfold execScrubRange
  exact ⟨_, rfl, (State.starts_field _ _ _ _ fun t c => by simp only [↓State.field_mk, ↓State.field_fold, ↓State.field_ite,
      ↓State.field_fst_ite, ↓State.upset_field, ↓State.rangeCommand_field]).trans (State.upset_field _ _)⟩

theorem execLandingRangeOp_field (id : Nat) (upset : List (Nat × Nat)) (s : State) : ∃ t, (execLandingRangeOp id upset s) =
    .next t ∧ t.field = s.field := by
  unfold execLandingRangeOp
  exact ⟨_, rfl, (State.starts_field _ _ _ _ fun t c => by simp only [↓State.field_mk, ↓State.field_fold, ↓State.field_ite,
      ↓State.field_fst_ite, ↓State.upset_field, ↓State.rangeCommand_field]).trans (State.upset_field _ _)⟩

theorem execScaleBookStale_field (id : Nat) (s : State) : ∃ t, (execScaleBookStale id s) = .next t ∧ t.field = s.field := by
  have h1 : ∀ (l : List Nat) (u : State), (l.foldl State.staleSlot u).field = u.field :=
    fun l u => State.field_foldl _ _ _ fun t x => State.staleSlot_field _ _
  have h2 : ∀ (l : List Nat) (t : State) (c : Cmd) (a b : Nat), ((l.foldl State.staleSlot t).finish c a b).field = t.field :=
    fun l t c a b => (State.finish_field _ _ _ _).trans (h1 _ _)
  unfold execScaleBookStale
  split
  · split
    · exact ⟨_, rfl, rfl⟩
    · exact ⟨_, rfl, State.starts_field _ _ _ _ fun t c => h2 _ _ _ _ _⟩
  · exact ⟨_, rfl, rfl⟩

theorem execScaleBookHint_field (id : Nat) (s : State) : ∃ t, (execScaleBookHint id s) = .next t ∧ t.field = s.field := by
  have h2 : ∀ (l : List Hint) (t : State) (c : Cmd) (a b : Nat),
      (({ t with vlk := { t.vlk with hints := l } } : State).finish c a b).field = t.field := fun l t c a b => by
    rw [State.finish_field, State.field_mk, State.field_fold]
  unfold execScaleBookHint
  split
  · split
    · exact ⟨_, rfl, rfl⟩
    · exact ⟨_, rfl, State.starts_field _ _ _ _ fun t c => h2 _ _ _ _ _⟩
  · exact ⟨_, rfl, rfl⟩

theorem execSetTime_field (id : Nat) (s : State) : ∃ t, (execSetTime id s) = .next t ∧ t.field = s.field := by
  unfold execSetTime
  exact ⟨_, rfl, State.starts_field _ _ _ _ fun t c => by simp only [↓State.field_mk, ↓State.field_fold, ↓State.field_ite, ↓State.field_fst_ite, ↓State.irq_field, ↓State.seeTime_field, ↓State.finish_field]⟩

theorem State.complete_field (s : State) (f : Nat) (bs : Bytes) : (State.complete s f bs).field = s.field := by
  unfold State.complete
  simp only [↓State.emit_field]

theorem State.badAccess_field (s : State) (r : Bar0Req) : (State.badAccess s r).field = s.field := by
  unfold State.badAccess
  grind [State.field_mk, State.put_field, State.bump_field, State.emit_field, State.aer_field]

theorem State.unsupported_field (s : State) (r : Bar0Req) : (State.unsupported s r).field = s.field := by
  unfold State.unsupported
  grind [State.field_mk, State.emit_field, State.aer_field]

theorem State.tableWrite_field (s : State) (f o w : Nat) : (State.tableWrite s f o w).field = s.field := by
  unfold State.tableWrite
  grind [State.field_mk, State.setMsix_field]

theorem State.barRead_field (s : State) (f o : Nat) : (State.barRead s f o).1.field = s.field := by
  unfold State.barRead
  grind [State.field_mk, State.hubLoad_field]

theorem State.barWrite_field (s : State) (f o w : Nat) : (State.barWrite s f o w).field = s.field := by
  unfold State.barWrite
  grind [State.field, State.field, State.hubWrite_field]

theorem State.bar0_field (s : State) (r : Bar0Req) : (State.bar0 s r).field = s.field := by
  have h1 : ∀ (l : List (Nat × Nat)) (f : Nat) (u : State), (l.foldl (fun (t : State) x => t.barWrite f x.1 x.2) u).field = u.field :=
    fun l f u => State.field_foldl _ _ _ fun t x => State.barWrite_field _ _ _ _
  have h2 : ∀ (l : List (Nat × Nat)) (f : Nat) (p : State × Bytes), (l.foldl (fun (x : State × Bytes) (y : Nat × Nat) =>
      match x.1.barRead f y.1 with | (t, v) => (t, x.2 ++ leBytes 4 v)) p).1.field = p.1.field :=
    fun l f p => State.field_foldl_fst _ _ _ fun t y x => (State.barRead_field t f x.1)
  unfold State.bar0
  extract_lets f write s1
  have h3 : s1.field = s.field := (State.pevLog_field _ _ _ _ _)
  clear_value s1
  split
  · split
    · exact h3
    · exact ((State.complete_field _ _ _)).trans h3
  · split
    · exact h1 _ _ _
    · exact ((State.complete_field _ _ _)).trans (h2 _ _ _)

theorem State.bar4_field (s : State) (r : Bar0Req) : (State.bar4 s r).field = s.field := by
  unfold State.bar4
  (repeat' split) <;> simp_all [↓State.complete_field, ↓State.tableWrite_field, State.field_foldl]

theorem execBar0Request_field (r : Bar0Req) (s : State) : ∃ t, (execBar0Request r s) = .next t ∧ t.field = s.field := by
  unfold execBar0Request
  (repeat' split) <;> exact ⟨_, rfl, by simp only [↓State.field_mk, ↓State.field_fold, ↓State.field_ite, ↓State.field_fst_ite, ↓State.settle_field, ↓State.badAccess_field, ↓State.unsupported_field, ↓State.bar0_field, ↓State.bar4_field]⟩

theorem execBmeClear_field (f : Fin 64) (s : State) : ∃ t, (execBmeClear f s) = .next t ∧ t.field = s.field := by
  unfold execBmeClear
  (repeat' split) <;> exact ⟨_, rfl, by simp [↓State.field_mk, ↓State.field_fold, ↓State.field_ite, ↓State.field_fst_ite,
      ↓State.setFn_field, ↓State.irq_field, ↓State.haltHost_field, State.field_foldl]⟩

theorem execBmeSet_field (f : Fin 64) (cfg : FnCfg) (numVfs : Option (Fin 64)) (s : State) : ∃ t, (execBmeSet f cfg numVfs s)
    = .next t ∧ t.field = s.field := by
  unfold execBmeSet
  (repeat' split) <;> exact ⟨_, rfl, by simp [↓State.field_mk, ↓State.field_fold, ↓State.field_ite, ↓State.field_fst_ite,
      ↓State.setFn_field, ↓State.irq_field, ↓State.settle_field, ↓State.resumeHost_field, State.field_foldl]⟩

theorem execFunctionLevelReset_field (f : Fin 64) (vfEnableClear : Bool) (s : State) : ∃ t, (execFunctionLevelReset f
    vfEnableClear s) = .next t ∧ t.field = s.field := by
  unfold execFunctionLevelReset
  (repeat' split) <;> exact ⟨_, rfl, by simp only [↓State.field_mk, ↓State.field_fold, ↓State.field_ite, ↓State.field_fst_ite, ↓State.settle_field, ↓State.dropVfs_field, ↓State.flr_field]⟩

theorem execD3hotEntry_field (f : Fin 64) (s : State) : ∃ t, (execD3hotEntry f s) = .next t ∧ t.field = s.field := by
  unfold execD3hotEntry
  (repeat' split) <;> exact ⟨_, rfl, by simp [↓State.field_mk, ↓State.field_fold, ↓State.field_ite, ↓State.field_fst_ite,
      ↓State.setFn_field, ↓State.irq_field, ↓State.haltHost_field, State.field_foldl]⟩

theorem execD0Return_field (f : Fin 64) (s : State) : ∃ t, (execD0Return f s) = .next t ∧ t.field = s.field := by
  unfold execD0Return
  (repeat' split) <;> exact ⟨_, rfl, by simp [↓State.field_mk, ↓State.field_fold, ↓State.field_ite, ↓State.field_fst_ite,
      ↓State.setFn_field, ↓State.irq_field, ↓State.settle_field, ↓State.resumeHost_field, State.field_foldl]⟩

theorem execPerstAssert_field (s : State) : ∃ t, (execPerstAssert s) = .next t ∧ t.field = s.field := by
  unfold execPerstAssert
  (repeat' split) <;> exact ⟨_, rfl, by simp only [↓State.field_mk, ↓State.field_fold, ↓State.field_ite, ↓State.field_fst_ite, ↓State.hubReset_field]⟩

theorem execHotReset_field (s : State) : ∃ t, (execHotReset s) = .next t ∧ t.field = s.field := by
  unfold execHotReset
  (repeat' split) <;> exact ⟨_, rfl, by simp only [↓State.field_mk, ↓State.field_fold, ↓State.field_ite, ↓State.field_fst_ite, ↓State.hubReset_field]⟩

theorem State.dropOrphans_field (s : State) : (State.dropOrphans s).field = s.field := by
  unfold State.dropOrphans
  (repeat' split) <;> simp_all [↓State.killRead_field, State.field_foldl]

theorem State.setPiece_field (s : State) (r : HostRead) (tag : Nat) (p : Piece) : (State.setPiece s r tag p).field = s.field
    := by
  unfold State.setPiece
  simp only [↓State.field_mk, ↓State.field_fold]

theorem State.readFailed_field (s : State) (r : HostRead) : (State.readFailed s r).field = s.field := by
  unfold State.readFailed
  grind [State.field_mk, State.finish_field, State.fetch_field, State.openFail_field, State.giveContext_field]

theorem State.readGoes_field (s : State) (r : HostRead) : (State.readGoes s r).field = s.field := by
  unfold State.readGoes
  grind [State.field, State.field, State.setCmd_field, State.fetch_field, State.dropRead_field, State.recordMore_field, State.openToken_field, State.regsStep_field]

theorem State.deadCompletion_field (s : State) (x : CompletionIn) (f : Nat) (counted : Bool) : (State.deadCompletion s x f
    counted).field = s.field := by
  unfold State.deadCompletion
  (repeat' split) <;> simp only [↓State.field_mk, ↓State.field_fold, ↓State.bump_field]

theorem execCompletionReceived_field (x : CompletionIn) (s : State) : ∃ t, (execCompletionReceived x s) = .next t ∧ t.field =
    s.field := by
  unfold execCompletionReceived
  grind [State.field, State.bump_field, State.aer_field, State.settle_field, State.dropOrphans_field, State.setPiece_field,
      State.readFailed_field, State.readGoes_field, State.deadCompletion_field]

theorem execCompletionTimeout_field (tag : Nat) (s : State) : ∃ t, (execCompletionTimeout tag s) = .next t ∧ t.field =
    s.field := by
  unfold execCompletionTimeout
  grind [State.field, State.bump_field, State.aer_field, State.settle_field, State.dropOrphans_field, State.setPiece_field,
      State.readFailed_field]

theorem State.issueRead_field (s : State) (r : HostRead) : (State.issueRead s r).field = s.field := by
  unfold State.issueRead
  simp only [↓State.field_mk, ↓State.field_fold, ↓State.tagPeak_field, ↓issuePieces_field]

theorem execReadPieceIssue_field (s : State) : ∃ t, (execReadPieceIssue s) = .next t ∧ t.field = s.field := by
  unfold execReadPieceIssue
  (repeat' split) <;> exact ⟨_, rfl, by simp [↓State.dropOrphans_field, ↓State.issueRead_field, State.field_foldl]⟩

theorem execMsixSend_field (f : Fin 64) (v : Nat) (s : State) : ∃ t, (execMsixSend f v s) = .next t ∧ t.field = s.field := by
  unfold execMsixSend
  (repeat' split) <;> exact ⟨_, rfl, by simp only [↓State.msixFire_field]⟩

theorem execMsixUnmask_field (f : Fin 64) (v : Nat) (s : State) : ∃ t, (execMsixUnmask f v s) = .next t ∧ t.field = s.field
    := by
  unfold execMsixUnmask
  (repeat' split) <;> exact ⟨_, rfl, by simp [↓State.field_mk, ↓State.field_fold, ↓State.field_ite, ↓State.setMsix_field, ↓State.msixFire_field]⟩

theorem State.phyLanes_field (s : State) (width : Nat) : (State.phyLanes s width).field = s.field := by
  unfold State.phyLanes
  grind [State.field_mk, State.bump_field, State.setDomain_field]

theorem State.linkTrained_field (s : State) (recovery full : Bool) (rate width : Nat) (flit up : Bool) : (State.linkTrained s
    recovery full rate width flit up).field = s.field := by
  unfold State.linkTrained
  grind [State.field_mk, State.put_field, State.bump_field, State.irq_field, State.phyLanes_field]

theorem execLinkRecovery_field (recovery : Bool) (rate : Fin 8) (width : Fin 9) (flit up : Bool) (s : State) : ∃ t,
    (execLinkRecovery recovery rate width flit up s) = .next t ∧ t.field = s.field := by
  unfold execLinkRecovery
  (repeat' split) <;> exact ⟨_, rfl, by simp only [↓State.linkTrained_field]⟩

theorem execLinkFullRateRetrain_field (rate : Fin 8) (width : Fin 9) (flit : Bool) (s : State) : ∃ t,
    (execLinkFullRateRetrain rate width flit s) = .next t ∧ t.field = s.field := by
  unfold execLinkFullRateRetrain
  (repeat' split) <;> exact ⟨_, rfl, by simp [↓State.field_mk, ↓State.field_fold, ↓State.field_ite, ↓State.linkTrained_field]⟩

end Sys2Proof.Machine
end

