-- ==== Sys2Proof/Laws/Field6.lean ====
section
/-! SUPPORT. Commands of the hub side leave the field dies alone: lemmas of Interrupt, Update, Power. -/
namespace Sys2Proof.Machine

set_option linter.unusedSimpArgs false
set_option linter.unusedTactic false
set_option linter.unnecessarySeqFocus false
set_option linter.unreachableTactic false

theorem execHicSourceEvent_field (n : Nat) (level : Bool) (s : State) : ∃ t, (execHicSourceEvent n level s) = .next t ∧
    t.field = s.field := by
  unfold execHicSourceEvent
  (repeat' split) <;> exact ⟨_, rfl, by simp only [↓State.hicInput_field]⟩

theorem execHicClaimRead_field (c : Fin 8) (s : State) : ∃ t, (execHicClaimRead c s) = .next t ∧ t.field = s.field := by
  unfold execHicClaimRead
  have h := State.hicClaim_field s c
  split
  rename_i u v he
  rw [he] at h
  exact ⟨_, rfl, by rw [State.field_mk, State.field_fold]; exact h⟩

theorem execHicClaimWrite_field (c : Fin 8) (n : Fin 1024) (s : State) : ∃ t, (execHicClaimWrite c n s) = .next t ∧ t.field =
    s.field := by
  unfold execHicClaimWrite
  (repeat' split) <;> exact ⟨_, rfl, by simp only [↓State.hicComplete_field]⟩

theorem execHicTriggerWrite_field (n : Nat) (s : State) : ∃ t, (execHicTriggerWrite n s) = .next t ∧ t.field = s.field := by
  unfold execHicTriggerWrite
  (repeat' split) <;> exact ⟨_, rfl, by simp only [↓State.hicTrigger_field]⟩

theorem execHicSrcCfgWrite_field (by_ : Fin 8) (n : Fin 256) (w : Word) (s : State) : ∃ t, (execHicSrcCfgWrite by_ n w s) =
    .next t ∧ t.field = s.field := by
  unfold execHicSrcCfgWrite
  (repeat' split) <;> exact ⟨_, rfl, by simp only [↓State.hicWrite_field]⟩

theorem execMsipWrite_field (by_ c : Fin 8) (w : Word) (s : State) : ∃ t, (execMsipWrite by_ c w s) = .next t ∧ t.field =
    s.field := by
  unfold execMsipWrite
  (repeat' split) <;> exact ⟨_, rfl, by simp only [↓State.hicWrite_field]⟩

theorem execMtimecmpReached_field (c : Fin 8) (s : State) : ∃ t, (execMtimecmpReached c s) = .next t ∧ t.field = s.field :=
    by
  unfold execMtimecmpReached
  (repeat' split) <;> exact ⟨_, rfl, by simp only [↓State.timerCheck_field]⟩

theorem execFlashOperationDone_field (s : State) : ∃ t, (execFlashOperationDone s) = .next t ∧ t.field = s.field := by
  unfold execFlashOperationDone
  grind [State.field_mk, State.putBytes_field, State.irq_field, State.finish_field, State.settle_field, State.setBank_field]

theorem execActivationDrainDone_field (s : State) : ∃ t, (execActivationDrainDone s) = .next t ∧ t.field = s.field := by
  unfold execActivationDrainDone
  (repeat' split) <;> exact ⟨_, rfl, by simp only [↓State.field_mk, ↓State.field_fold, ↓State.field_ite, ↓State.field_fst_ite, ↓State.beginFlush_field]⟩

theorem execActivationFlushDone_field (s : State) : ∃ t, (execActivationFlushDone s) = .next t ∧ t.field = s.field := by
  unfold execActivationFlushDone
  (repeat' split) <;> exact ⟨_, rfl, by simp only [↓State.endFlush_field]⟩

theorem execActivationReset_field (s : State) : ∃ t, (execActivationReset s) = .next t ∧ t.field = s.field := by
  unfold execActivationReset
  (repeat' split) <;> exact ⟨_, rfl, by simp only [↓State.field_mk, ↓State.field_fold, ↓State.field_ite, ↓State.field_fst_ite, ↓State.finishRun_field]⟩

theorem State.bootActive_field (s : State) : (State.bootActive s).field = s.field := by
  unfold State.bootActive
  simp only [↓State.field_mk, ↓State.field_fold, ↓State.field_ite, ↓State.field_fst_ite, ↓State.epEvt_field]
  (repeat' split) <;> simp only [↓State.field_mk, ↓State.field_fold, ↓State.field_ite, ↓State.field_fst_ite, ↓State.epEvt_field, ite_self]

theorem State.rejectSet_field (s : State) (reason index : Nat) : (State.rejectSet s reason index).field = s.field := by
  unfold State.rejectSet
  simp only [↓State.field_mk, ↓State.field_fold, ↓State.bump_field, ↓State.raiseHub_field, ↓State.fwHistory_field, ↓State.writeJournal_field, ↓State.bootActive_field]

theorem State.abandonSet_field (s : State) : (State.abandonSet s).field = s.field := by
  unfold State.abandonSet
  simp only [↓State.field_mk, ↓State.field_fold, ↓State.bump_field, ↓State.raiseHub_field, ↓State.fwHistory_field, ↓State.writeJournal_field, ↓State.bootActive_field]

theorem execBootCheck_field (s : State) : ∃ t, (execBootCheck s) = .next t ∧ t.field = s.field := by
  unfold execBootCheck
  grind [State.field, State.writeJournal_field, State.rejectSet_field]

theorem execRomStageBoot_field (s : State) : ∃ t, (execRomStageBoot s) = .next t ∧ t.field = s.field := by
  unfold execRomStageBoot
  grind [State.field, State.writeJournal_field, State.applyBootBlock_field, State.bootActive_field, State.rejectSet_field,
      State.abandonSet_field]

theorem State.sizeDomains_field (s : State) (channels setsLog2 : Nat) : (State.sizeDomains s channels setsLog2).field =
    s.field := by
  unfold State.sizeDomains
  (repeat' split) <;> simp_all [↓State.setDomain_field, State.field_foldl]

theorem execStump2BringUp_field (channels : Nat) (setsLog2 : Nat) (writes : List (Nat × Word)) (s : State) : ∃ t,
    (execStump2BringUp channels setsLog2 writes s) = .next t ∧ t.field = s.field := by
  unfold execStump2BringUp
  (repeat' split) <;> exact ⟨_, rfl, by simp [↓State.field_mk, ↓State.field_fold, ↓State.field_ite, ↓State.field_fst_ite,
      ↓State.put_field, ↓State.signal_field, ↓State.trainPort_field, ↓State.hubWrite_field, ↓State.takeSettings_field,
      ↓State.sizeDomains_field, State.field_foldl]⟩

theorem execMemoryInitDone_field (s : State) : ∃ t, (execMemoryInitDone s) = .next t ∧ t.field = s.field := by
  unfold execMemoryInitDone
  (repeat' split) <;> exact ⟨_, rfl, by simp [↓State.field_mk, ↓State.field_fold, ↓State.field_ite, ↓State.put_field, ↓State.epEvt_field]⟩

theorem execFpwBootGo_field (d : Die) (s : State) : ∃ t, (execFpwBootGo d s) = .next t ∧ t.field = s.field := by
  unfold execFpwBootGo
  (repeat' split) <;> exact ⟨_, rfl, by simp only [↓State.bootGo_field]⟩

theorem execFieldReady_field (s : State) : ∃ t, (execFieldReady s) = .next t ∧ t.field = s.field := by
  unfold execFieldReady
  (repeat' split) <;> exact ⟨_, rfl, by simp only [↓State.field_mk, ↓State.field_fold, ↓State.field_ite, ↓State.field_fst_ite, ↓State.put_field, ↓State.settle_field]⟩

theorem execHostSupplyTrip_field (s : State) : ∃ t, (execHostSupplyTrip s) = .next t ∧ t.field = s.field := by
  unfold execHostSupplyTrip
  (repeat' split) <;> exact ⟨_, rfl, by simp only [↓State.field_mk, ↓State.field_fold, ↓State.field_ite, ↓State.field_fst_ite, ↓State.hubReset_field]⟩

theorem execHostSupplyRelease_field (s : State) : ∃ t, (execHostSupplyRelease s) = .next t ∧ t.field = s.field := by
  unfold execHostSupplyRelease
  (repeat' split) <;> exact ⟨_, rfl, by simp only [↓State.field_mk, ↓State.field_fold]⟩

theorem execFabricPllLockTimeout_field (s : State) : ∃ t, (execFabricPllLockTimeout s) = .next t ∧ t.field = s.field := by
  unfold execFabricPllLockTimeout
  (repeat' split) <;> exact ⟨_, rfl, by simp only [↓State.field_mk, ↓State.field_fold]⟩

theorem execVauxLoss_field (s : State) : ∃ t, (execVauxLoss s) = .next t ∧ t.field = s.field := by
  unfold execVauxLoss
  (repeat' split) <;> exact ⟨_, rfl, by simp only [↓State.field_mk, ↓State.field_fold, ↓State.field_ite, ↓State.field_fst_ite, ↓State.hubReset_field]⟩

theorem execJunctionOvertempRelease_field (d : Die) (s : State) : ∃ t, (execJunctionOvertempRelease d s) = .next t ∧ t.field
    = s.field := by
  unfold execJunctionOvertempRelease
  (repeat' split) <;> exact ⟨_, rfl, by simp only [↓State.field_mk, ↓State.field_fold, ↓State.setDie_field]⟩

theorem execVmechSample_field (code : Fin 4096) (s : State) : ∃ t, (execVmechSample code s) = .next t ∧ t.field = s.field :=
    by
  unfold execVmechSample
  (repeat' split) <;> exact ⟨_, rfl, by simp [↓State.field_ite, ↓State.setDie_field]⟩

theorem execVmechLowClear_field (s : State) : ∃ t, (execVmechLowClear s) = .next t ∧ t.field = s.field := by
  unfold execVmechLowClear
  (repeat' split) <;> exact ⟨_, rfl, by simp [↓State.field_ite, ↓State.setDie_field]⟩

theorem execFpwVmechHigh_field (s : State) : ∃ t, (execFpwVmechHigh s) = .next t ∧ t.field = s.field := by
  unfold execFpwVmechHigh
  (repeat' split) <;> exact ⟨_, rfl, by simp [↓State.field_ite, ↓State.setDie_field, ↓State.raiseDie_field]⟩

theorem execVmechHighClear_field (s : State) : ∃ t, (execVmechHighClear s) = .next t ∧ t.field = s.field := by
  unfold execVmechHighClear
  (repeat' split) <;> exact ⟨_, rfl, by simp [↓State.field_ite, ↓State.setDie_field]⟩

theorem execDomainSwitchOff_field (n : Fin 80) (s : State) : ∃ t, (execDomainSwitchOff n s) = .next t ∧ t.field = s.field :=
    by
  unfold execDomainSwitchOff
  (repeat' split) <;> exact ⟨_, rfl, by simp only [↓State.setDomain_field, ↓State.setFieldDomain_field]⟩

theorem execKeeperTick_field (s : State) : ∃ t, (execKeeperTick s) = .next t ∧ t.field = s.field := by
  unfold execKeeperTick
  exact ⟨_, rfl, by simp only [↓State.field_mk, ↓State.field_fold]⟩

theorem execPwrXtalLost_field (s : State) : ∃ t, (execPwrXtalLost s) = .next t ∧ t.field = s.field := by
  unfold execPwrXtalLost
  (repeat' split) <;> exact ⟨_, rfl, by simp only [↓State.field_mk, ↓State.field_fold, ↓State.raiseHub_field]⟩

theorem execBayIdleSpindle_field (b : Bay) (s : State) : ∃ t, (execBayIdleSpindle b s) = .next t ∧ t.field = s.field := by
  unfold execBayIdleSpindle
  (repeat' split) <;> exact ⟨_, rfl, by simp only [↓State.send_field]⟩

theorem execBayIdleReturn_field (b : Bay) (s : State) : ∃ t, (execBayIdleReturn b s) = .next t ∧ t.field = s.field := by
  unfold execBayIdleReturn
  (repeat' split) <;> exact ⟨_, rfl, by simp only [↓State.clearBay_field]⟩

end Sys2Proof.Machine
end

