-- ==== Sys2Proof/Laws/HubBase.lean ====
section
/-! SUPPORT. The part of the state that commands of the other side of the barrier leave alone: the rules that the lemmas of
this folder use. -/
namespace Sys2Proof.Machine

theorem State.hub_fold (s : State) : (s.mem, s.lnd, s.miu, s.vlk, s.crew, s.qen, s.ep, s.hic, s.skd, s.skdLast, s.fwu, s.pwr)
    = s.hub := by
  unfold State.hub; exact Eq.refl _

theorem State.hub_mk x0 x1 x2 x3 x4 x5 x6 x7 x8 x9 x10 x11 x12 x13 x14 x15 x16 x17 x18 x19 x20 x21 x22 x23 x24 x25 x26 x27
    x28 x29 x30 x31 x32 : (State.mk x0 x1 x2 x3 x4 x5 x6 x7 x8 x9 x10 x11 x12 x13 x14 x15 x16 x17 x18 x19 x20 x21 x22 x23 x24
    x25 x26 x27 x28 x29 x30 x31 x32).hub = (x21, x22, x23, x24, x25, x26, x27, x28, x29, x30, x31, x32) := by
  unfold State.hub; exact Eq.refl _

theorem State.hub_ite (c : Prop) [Decidable c] (a b : State) : (if c then a else b).hub = if c then a.hub else b.hub := by
  split <;> rfl

theorem State.hub_fst_ite {α : Type} (c : Prop) [Decidable c] (a b : State × α) :
    (if c then a else b).1.hub = if c then a.1.hub else b.1.hub := by
  split <;> rfl

theorem State.hub_foldl {α : Type} (f : State → α → State) (l : List α) (s : State) (h : ∀ t x, (f t x).hub = t.hub) :
    (l.foldl f s).hub = s.hub := by
  induction l generalizing s with
  | nil => rfl
  | cons x l ih => rw [List.foldl_cons, ih, h]

theorem State.hub_foldl_fst {α β : Type} (f : State × β → α → State × β) (l : List α) (p : State × β)
    (h : ∀ t y x, (f (t, y) x).1.hub = t.hub) : (l.foldl f p).1.hub = p.1.hub := by
  induction l generalizing p with
  | nil => rfl
  | cons x l ih => rw [List.foldl_cons, ih]; exact h _ _ x

end Sys2Proof.Machine
end

