-- ==== Sys2Proof/Laws/Hub1.lean ====
section
/-! SUPPORT. Commands of the field side leave the hub alone: lemmas of Ops, Groups, RangeOps, SfeOps, SpnOps, Spindle,
AxpOps. -/
namespace Sys2Proof.Machine

set_option linter.unusedSimpArgs false
set_option linter.unusedTactic false
set_option linter.unnecessarySeqFocus false
set_option linter.unreachableTactic false

theorem State.drawn_hub (s : State) : (State.drawn s).hub = s.hub := by
  unfold State.drawn
  simp only [↓State.hub_mk, ↓State.hub_fold]

theorem State.put_hub (s : State) (a : Nat) (f : Field) (v : Nat) (i : Nat) (j : Nat) : (State.put s a f v i j).hub = s.hub
    := by
  unfold State.put
  simp only [↓State.hub_mk, ↓State.hub_fold]

theorem State.bumpBy_hub (s : State) (a : Nat) (f : Field) (n : Nat) (i : Nat) (j : Nat) : (State.bumpBy s a f n i j).hub =
    s.hub := by
  unfold State.bumpBy
  simp only [↓State.put_hub]

theorem State.bump_hub (s : State) (a : Nat) (f : Field) (i : Nat) (j : Nat) : (State.bump s a f i j).hub = s.hub := by
  unfold State.bump
  simp only [↓State.bumpBy_hub]

theorem writeField_hub (locked : Bool) (l : Loc) (w : Word) (s : State) (f : Field) : (writeField locked l w s f).hub = s.hub
    := by
  unfold writeField
  (repeat' split) <;> simp only [↓State.hub_mk, ↓State.hub_fold]

theorem State.writeWord_hub (s : State) (locked : Bool) (l : Loc) (w : Word) : (State.writeWord s locked l w).hub = s.hub :=
    by
  unfold State.writeWord
  (repeat' split) <;> simp_all [↓State.hub_ite, ↓writeField_hub, State.hub_foldl]

theorem State.send_hub (s : State) (d : Die) (from_ : Side) (m : Msg) : (State.send s d from_ m).hub = s.hub := by
  unfold State.send
  simp only [↓State.hub_mk, ↓State.hub_fold]

theorem State.received_hub (s : State) (d : Die) (at_ : Side) (m : Msg) : (State.received s d at_ m).hub = s.hub := by
  unfold State.received
  simp only [↓State.hub_mk, ↓State.hub_fold]

theorem State.setDie_hub (s : State) (d : Die) (x : DieSt) : (State.setDie s d x).hub = s.hub := by
  unfold State.setDie
  simp only [↓State.hub_mk, ↓State.hub_fold]

theorem State.raiseDie_hub (s : State) (d : Die) (code : Nat) (bay : Option Nat) (sub unit : Nat) (v1 : Int) (v2 : Nat) :
    (State.raiseDie s d code bay sub unit v1 v2).hub = s.hub := by
  unfold State.raiseDie
  simp only [↓State.send_hub]

theorem State.raiseBay_hub (s : State) (b : Bay) (code sub unit : Nat) (v1 : Int) (v2 : Nat) : (State.raiseBay s b code sub
    unit v1 v2).hub = s.hub := by
  unfold State.raiseBay
  simp only [↓State.raiseDie_hub]

theorem State.dropItem_hub (s : State) (d : Die) (item : Nat) : (State.dropItem s d item).hub = s.hub := by
  unfold State.dropItem
  simp only [↓State.setDie_hub]

theorem State.endItem_hub (s : State) (d : Die) (item : Nat) (st : WStatus) (cause : Nat) (cont : Option Nat) :
    (State.endItem s d item st cause cont).hub = s.hub := by
  unfold State.endItem
  grind [State.hub_mk, State.send_hub, State.dropItem_hub]

theorem State.endBayItems_hub (s : State) (b : Bay) (st : WStatus) (cause : Nat) : (State.endBayItems s b st cause).hub =
    s.hub := by
  unfold State.endBayItems
  simp only [↓State.hub_mk, ↓State.hub_fold, ↓State.hub_ite, ↓State.hub_fst_ite, ↓State.endItem_hub]
  (repeat' split) <;> (try refine (State.hub_foldl _ _ _ fun t x => ?_).trans ?_) <;> (try dsimp only) <;> (repeat' split) <;> (try simp only [↓State.hub_mk, ↓State.hub_fold, ↓State.hub_ite, ↓State.hub_fst_ite, ↓State.endItem_hub]) <;> grind [State.hub_mk, State.endItem_hub]

theorem State.answerResets_hub (s : State) (d : Die) : (State.answerResets s d).hub = s.hub := by
  unfold State.answerResets
  (repeat' split) <;> simp_all [↓State.send_hub, ↓State.setDie_hub, State.hub_foldl]

theorem State.logOver_hub (s : State) (d : Die) (item : Nat) : (State.logOver s d item).hub = s.hub := by
  unfold State.logOver
  simp only [↓State.setDie_hub, ↓State.answerResets_hub]

theorem State.setMounted_hub (s : State) (b : Bay) (m : Bool) : (State.setMounted s b m).hub = s.hub := by
  unfold State.setMounted
  simp only [↓State.setDie_hub]

theorem State.activate_hub (s : State) (g : Group) : (State.activate s g).hub = s.hub := by
  unfold State.activate
  (repeat' split) <;> simp only [↓State.hub_mk, ↓State.hub_fold]

theorem State.commitSet_hub (s : State) (g : Group) (consistent : Bool) : (State.commitSet s g consistent).hub = s.hub := by
  unfold State.commitSet
  (repeat' split) <;> simp only [↓State.hub_mk, ↓State.hub_fold, ↓State.put_hub]

theorem State.injectWrite_hub (s : State) (w : Word) : (State.injectWrite s w).hub = s.hub := by
  unfold State.injectWrite
  (repeat' split) <;> simp_all [↓State.hub_ite, ↓State.put_hub]

theorem State.setSfe_hub (s : State) (b : Bay) (x : Sfe) : (State.setSfe s b x).hub = s.hub := by
  unfold State.setSfe
  simp only [↓State.hub_mk, ↓State.hub_fold]

theorem State.setSpot_hub (s : State) (b : Bay) (k : Fin 7) (x : SfeSpot) : (State.setSpot s b k x).hub = s.hub := by
  unfold State.setSpot
  simp only [↓State.setSfe_hub]

theorem State.fcIssue_hub (s : State) (b : Bay) (src : Nat) : (State.fcIssue s b src).hub = s.hub := by
  unfold State.fcIssue
  (repeat' split) <;> simp_all [↓State.hub_ite, ↓State.bump_hub, ↓State.setSpot_hub, State.hub_foldl]

theorem State.fcClose_hub (s : State) (b : Bay) (src : Nat) : (State.fcClose s b src).hub = s.hub := by
  unfold State.fcClose
  (repeat' split) <;> simp_all [↓State.setSpot_hub, State.hub_foldl]

theorem State.velSuspend_hub (s : State) (b : Bay) : (State.velSuspend s b).hub = s.hub := by
  unfold State.velSuspend
  grind [State.hub_mk, State.bump_hub, State.raiseBay_hub, State.setSfe_hub]

theorem State.velUpdate_hub (s : State) (b : Bay) (v : Nat) : (State.velUpdate s b v).hub = s.hub := by
  unfold State.velUpdate
  grind [State.hub_mk, State.put_hub, State.setSfe_hub, State.velSuspend_hub]

theorem State.sfeHold_hub (s : State) (b : Bay) : (State.sfeHold s b).hub = s.hub := by
  unfold State.sfeHold
  simp only [↓State.setSfe_hub]

theorem State.sfeAcquire_hub (s : State) (b : Bay) (layer : Nat) : (State.sfeAcquire s b layer).hub = s.hub := by
  unfold State.sfeAcquire
  (repeat' split) <;> simp_all [↓State.put_hub, ↓State.setSfe_hub, ↓State.setSpot_hub, State.hub_foldl]

theorem State.tempReplace_hub (s : State) (b : Bay) : (State.tempReplace s b).hub = s.hub := by
  unfold State.tempReplace
  grind [State.hub_mk, State.put_hub, State.bump_hub, State.raiseBay_hub, State.setSfe_hub]

theorem State.setSpn_hub (s : State) (b : Bay) (x : Spn) : (State.setSpn s b x).hub = s.hub := by
  unfold State.setSpn
  simp only [↓State.hub_mk, ↓State.hub_fold]

theorem State.setSlot_hub (s : State) (d : Die) (n : Fin 48) (x : TrnSlot) : (State.setSlot s d n x).hub = s.hub := by
  unfold State.setSlot
  simp only [↓State.hub_mk, ↓State.hub_fold]

theorem State.forceSlot_hub (s : State) (d : Die) (n : Fin 48) (v : Int) : (State.forceSlot s d n v).hub = s.hub := by
  unfold State.forceSlot
  simp only [↓State.setSlot_hub]

theorem State.freeSlot_hub (s : State) (d : Die) (n : Fin 48) : (State.freeSlot s d n).hub = s.hub := by
  unfold State.freeSlot
  grind [State.hub_mk, State.setSlot_hub]

theorem State.spnForces_hub (s : State) (b : Bay) : (State.spnForces s b).hub = s.hub := by
  unfold State.spnForces
  grind [State.hub_mk, State.forceSlot_hub, State.freeSlot_hub]

theorem State.spnSets_hub (s : State) (b : Bay) : (State.spnSets s b).hub = s.hub := by
  unfold State.spnSets
  simp only [↓State.put_hub]

theorem State.spnFault_hub (s : State) (b : Bay) (f : SpnFault) : (State.spnFault s b f).hub = s.hub := by
  unfold State.spnFault
  simp only [↓State.bump_hub, ↓State.raiseBay_hub, ↓State.endBayItems_hub, ↓State.setMounted_hub, ↓State.setSpn_hub]

theorem State.spnFaultOff_hub (s : State) (b : Bay) (f : SpnFault) : (State.spnFaultOff s b f).hub = s.hub := by
  unfold State.spnFaultOff
  simp only [↓State.setSpn_hub, ↓State.spnFault_hub]

theorem State.spnFaultActive_hub (s : State) (b : Bay) (f : SpnFault) : (State.spnFaultActive s b f).hub = s.hub := by
  unfold State.spnFaultActive
  simp only [↓State.setSpn_hub, ↓State.spnFault_hub]

theorem State.spnIpd_hub (s : State) (b : Bay) (vbr : Rat) : (State.spnIpd s b vbr).hub = s.hub := by
  unfold State.spnIpd
  grind [State.hub_mk, State.endItem_hub, State.setSpn_hub, State.spnFault_hub]

theorem State.spnStart_hub (s : State) (b : Bay) (vbr : Rat) : (State.spnStart s b vbr).hub = s.hub := by
  unfold State.spnStart
  grind [State.hub_mk, State.bump_hub, State.setSpn_hub, State.spnIpd_hub]

theorem State.spnAttemptFailed_hub (s : State) (b : Bay) : (State.spnAttemptFailed s b).hub = s.hub := by
  unfold State.spnAttemptFailed
  grind [State.hub_mk, State.setSpn_hub, State.spnFaultOff_hub]

theorem State.spnRefuse_hub (s : State) (b : Bay) : (State.spnRefuse s b).hub = s.hub := by
  unfold State.spnRefuse
  simp only [↓State.put_hub, ↓State.bump_hub]

theorem State.spnGo_hub (s : State) (b : Bay) (m : SpnMode) (target : Int) (vbr : Rat) : (State.spnGo s b m target vbr).hub =
    s.hub := by
  unfold State.spnGo
  grind [State.hub_mk, State.setSpn_hub, State.spnStart_hub]

theorem State.spnRun_hub (s : State) (b : Bay) (target : Int) (vbr : Rat) : (State.spnRun s b target vbr).hub = s.hub := by
  unfold State.spnRun
  grind [State.hub_mk, State.spnForces_hub, State.spnRefuse_hub, State.spnGo_hub]

theorem State.spnIdle_hub (s : State) (b : Bay) (vbr : Rat) : (State.spnIdle s b vbr).hub = s.hub := by
  unfold State.spnIdle
  grind [State.hub_mk, State.spnForces_hub, State.spnRefuse_hub, State.spnGo_hub]

theorem State.spnStop_hub (s : State) (b : Bay) : (State.spnStop s b).hub = s.hub := by
  unfold State.spnStop
  grind [State.hub_mk, State.setSpn_hub, State.spnForces_hub, State.spnRefuse_hub]

theorem State.spnSafeStop_hub (s : State) (b : Bay) : (State.spnSafeStop s b).hub = s.hub := by
  unfold State.spnSafeStop
  simp only [↓State.setSpn_hub, ↓State.spnForces_hub]

theorem State.spnClockLost_hub (s : State) (b : Bay) : (State.spnClockLost s b).hub = s.hub := by
  unfold State.spnClockLost
  grind [State.hub_mk, State.setSpn_hub]

theorem State.spnFoc_hub (s : State) (b : Bay) (raw : Vector Int 3) : (State.spnFoc s b raw).hub = s.hub := by
  unfold State.spnFoc
  grind [State.hub_mk, State.bump_hub, State.setSpn_hub, State.spnFaultOff_hub]

theorem State.spnOver_hub (s : State) (b : Bay) : (State.spnOver s b).hub = s.hub := by
  unfold State.spnOver
  grind [State.hub_mk, State.bump_hub, State.raiseBay_hub, State.setSpn_hub]

theorem State.spnLoop_hub (s : State) (b : Bay) : (State.spnLoop s b).hub = s.hub := by
  unfold State.spnLoop
  grind [State.hub_mk, State.spnFaultActive_hub]

theorem State.pwmPeriod_hub (s : State) (b : Bay) (raw : Vector Int 3) (vbrMv : Nat) (cross : Option Nat) : (State.pwmPeriod
    s b raw vbrMv cross).hub = s.hub := by
  unfold State.pwmPeriod
  grind [State.hub_mk, State.activate_hub, State.setSpn_hub, State.spnForces_hub, State.spnSets_hub, State.spnFoc_hub, State.spnOver_hub, State.spnLoop_hub]

theorem execSpnRun_hub (b : Bay) (target : Int) (vbr : Nat) (s : State) : ∃ t, (execSpnRun b target vbr s) = .next t ∧ t.hub
    = s.hub := by
  unfold execSpnRun
  (repeat' split) <;> exact ⟨_, rfl, by simp only [↓State.spnRun_hub]⟩

theorem execSpnIdle_hub (b : Bay) (vbr : Nat) (s : State) : ∃ t, (execSpnIdle b vbr s) = .next t ∧ t.hub = s.hub := by
  unfold execSpnIdle
  (repeat' split) <;> exact ⟨_, rfl, by simp only [↓State.spnIdle_hub]⟩

theorem execSpnStop_hub (b : Bay) (s : State) : ∃ t, (execSpnStop b s) = .next t ∧ t.hub = s.hub := by
  unfold execSpnStop
  (repeat' split) <;> exact ⟨_, rfl, by simp only [↓State.spnStop_hub]⟩

theorem State.spnClrFault_hub (s : State) (b : Bay) : (State.spnClrFault s b).hub = s.hub := by
  unfold State.spnClrFault
  grind [State.hub_mk, State.setSpn_hub]

theorem execSpnClrFault_hub (b : Bay) (s : State) : ∃ t, (execSpnClrFault b s) = .next t ∧ t.hub = s.hub := by
  unfold execSpnClrFault
  (repeat' split) <;> exact ⟨_, rfl, by simp only [↓State.spnClrFault_hub]⟩

theorem State.spnCtlWrite_hub (s : State) (b : Bay) (w : Word) : (State.spnCtlWrite s b w).hub = s.hub := by
  unfold State.spnCtlWrite
  grind [State.hub_mk, State.put_hub, State.setSpn_hub, State.spnClrFault_hub]

theorem execSpnCtlWrite_hub (b : Bay) (value : Word) (s : State) : ∃ t, (execSpnCtlWrite b value s) = .next t ∧ t.hub = s.hub
    := by
  unfold execSpnCtlWrite
  (repeat' split) <;> exact ⟨_, rfl, by simp only [↓State.spnCtlWrite_hub]⟩

theorem execIpdDone_hub (b : Bay) (times : Vector Nat 12) (s : State) : ∃ t, (execIpdDone b times s) = .next t ∧ t.hub =
    s.hub := by
  unfold execIpdDone
  grind [State.hub_mk, State.bump_hub, State.setSpn_hub, State.spnForces_hub]

theorem execAlignEnd_hub (b : Bay) (s : State) : ∃ t, (execAlignEnd b s) = .next t ∧ t.hub = s.hub := by
  unfold execAlignEnd
  grind [State.hub_mk, State.setSpn_hub, State.spnForces_hub]

theorem execOpenHandOver_hub (b : Bay) (s : State) : ∃ t, (execOpenHandOver b s) = .next t ∧ t.hub = s.hub := by
  unfold execOpenHandOver
  (repeat' split) <;> exact ⟨_, rfl, by simp [↓State.hub_ite, ↓State.setSpn_hub, ↓State.forceSlot_hub, ↓State.spnForces_hub]⟩

theorem execOpenTimeout_hub (b : Bay) (s : State) : ∃ t, (execOpenTimeout b s) = .next t ∧ t.hub = s.hub := by
  unfold execOpenTimeout
  (repeat' split) <;> exact ⟨_, rfl, by simp only [↓State.spnForces_hub, ↓State.spnAttemptFailed_hub]⟩

theorem State.spnStopThenIpd_hub (s : State) (b : Bay) (backward : Bool) (rpm : Rat) : (State.spnStopThenIpd s b backward
    rpm).hub = s.hub := by
  unfold State.spnStopThenIpd
  simp only [↓State.setSpn_hub]

theorem execCatchDecide_hub (b : Bay) (seen : CatchSeen) (vbr : Nat) (s : State) : ∃ t, (execCatchDecide b seen vbr s) =
    .next t ∧ t.hub = s.hub := by
  unfold execCatchDecide
  (repeat' split) <;> exact ⟨_, rfl, by simp [↓State.hub_ite, ↓State.setSpn_hub, ↓State.spnForces_hub, ↓State.spnIpd_hub, ↓State.spnStopThenIpd_hub]⟩

theorem execCatchLock_hub (b : Bay) (s : State) : ∃ t, (execCatchLock b s) = .next t ∧ t.hub = s.hub := by
  unfold execCatchLock
  (repeat' split) <;> exact ⟨_, rfl, by simp [↓State.hub_ite, ↓State.bump_hub, ↓State.setSpn_hub, ↓State.forceSlot_hub, ↓State.spnForces_hub, ↓State.spnAttemptFailed_hub]⟩

theorem execObserverLoss_hub (b : Bay) (s : State) : ∃ t, (execObserverLoss b s) = .next t ∧ t.hub = s.hub := by
  unfold execObserverLoss
  (repeat' split) <;> exact ⟨_, rfl, by simp [↓State.hub_ite, ↓State.bump_hub, ↓State.setSpn_hub]⟩

theorem execSpnObsRelocked_hub (b : Bay) (s : State) : ∃ t, (execSpnObsRelocked b s) = .next t ∧ t.hub = s.hub := by
  unfold execSpnObsRelocked
  (repeat' split) <;> exact ⟨_, rfl, by simp [↓State.hub_ite, ↓State.bump_hub, ↓State.raiseBay_hub, ↓State.setSpn_hub, ↓State.spnForces_hub]⟩

theorem execFlywheelTimeout_hub (b : Bay) (s : State) : ∃ t, (execFlywheelTimeout b s) = .next t ∧ t.hub = s.hub := by
  unfold execFlywheelTimeout
  (repeat' split) <;> exact ⟨_, rfl, by simp [↓State.hub_ite, ↓State.setSpn_hub, ↓State.spnFault_hub]⟩

theorem State.shortEnd_hub (s : State) (b : Bay) (vbr : Nat) : (State.shortEnd s b vbr).hub = s.hub := by
  unfold State.shortEnd
  grind [State.hub_mk, State.bump_hub, State.setSpn_hub, State.spnForces_hub, State.spnIpd_hub]

theorem execOverspeed_hub (b : Bay) (s : State) : ∃ t, (execOverspeed b s) = .next t ∧ t.hub = s.hub := by
  unfold execOverspeed
  (repeat' split) <;> exact ⟨_, rfl, by simp only [↓State.spnForces_hub, ↓State.spnFaultActive_hub]⟩

theorem execUndervoltage_hub (b : Bay) (s : State) : ∃ t, (execUndervoltage b s) = .next t ∧ t.hub = s.hub := by
  unfold execUndervoltage
  (repeat' split) <;> exact ⟨_, rfl, by simp [↓State.hub_ite, ↓State.setSpn_hub, ↓State.spnFault_hub]⟩

theorem execAtSpeed_hub (b : Bay) (s : State) : ∃ t, (execAtSpeed b s) = .next t ∧ t.hub = s.hub := by
  unfold execAtSpeed
  (repeat' split) <;> exact ⟨_, rfl, by simp [↓State.hub_ite, ↓State.setSpn_hub]⟩

theorem execWindingTempUpdate_hub (b : Bay) (s : State) : ∃ t, (execWindingTempUpdate b s) = .next t ∧ t.hub = s.hub := by
  unfold execWindingTempUpdate
  (repeat' split) <;> exact ⟨_, rfl, by simp only [↓State.setSpn_hub]⟩

theorem State.ceilInvalid_hub (s : State) (x : Int) : (State.ceilInvalid s x).hub = s.hub := by
  unfold State.ceilInvalid
  simp only [↓State.hub_mk, ↓State.hub_fold, ↓State.bump_hub]

theorem State.ceilAccept_hub (s : State) (x frac : Int) : (State.ceilAccept s x frac).hub = s.hub := by
  unfold State.ceilAccept
  simp only [↓State.hub_mk, ↓State.hub_fold]

theorem execCeilReading_hub (x : Int) (carrier : Nat) (s : State) : ∃ t, (execCeilReading x carrier s) = .next t ∧ t.hub =
    s.hub := by
  unfold execCeilReading
  (repeat' split) <;> exact ⟨_, rfl, by simp [↓State.hub_ite, ↓State.bump_hub, ↓State.activate_hub, ↓State.ceilInvalid_hub, ↓State.ceilAccept_hub]⟩

theorem execSpnCeilReplaced_hub (s : State) : ∃ t, (execSpnCeilReplaced s) = .next t ∧ t.hub = s.hub := by
  unfold execSpnCeilReplaced
  (repeat' split) <;> exact ⟨_, rfl, by simp only [↓State.hub_mk, ↓State.hub_fold, ↓State.bump_hub, ↓State.raiseDie_hub]⟩

theorem execSpnCeilValue_hub (s : State) : ∃ t, (execSpnCeilValue s) = .next t ∧ t.hub = s.hub := by
  unfold execSpnCeilValue
  (repeat' split) <;> exact ⟨_, rfl, by simp only [↓State.hub_mk, ↓State.hub_fold, ↓State.raiseDie_hub]⟩

theorem State.ceilRelay_hub (s : State) (b : Bay) (frac : Nat) : (State.ceilRelay s b frac).hub = s.hub := by
  unfold State.ceilRelay
  simp only [↓State.put_hub, ↓State.setSpn_hub]

theorem execCeilRelayWrite_hub (b : Bay) (frac : Fin 1025) (s : State) : ∃ t, (execCeilRelayWrite b frac s) = .next t ∧ t.hub
    = s.hub := by
  unfold execCeilRelayWrite
  (repeat' split) <;> exact ⟨_, rfl, by simp only [↓State.ceilRelay_hub]⟩

theorem execCeilStale_hub (b : Bay) (s : State) : ∃ t, (execCeilStale b s) = .next t ∧ t.hub = s.hub := by
  unfold execCeilStale
  (repeat' split) <;> exact ⟨_, rfl, by simp only [↓State.bump_hub, ↓State.setSpn_hub]⟩

theorem execSafeStateShortBrake_hub (b : Bay) (s : State) : ∃ t, (execSafeStateShortBrake b s) = .next t ∧ t.hub = s.hub :=
    by
  unfold execSafeStateShortBrake
  (repeat' split) <;> exact ⟨_, rfl, by simp [↓State.hub_ite, ↓State.setSpn_hub]⟩

theorem State.setAxis_hub (s : State) (d : Die) (n : Fin 8) (x : Axis) : (State.setAxis s d n x).hub = s.hub := by
  unfold State.setAxis
  simp only [↓State.hub_mk, ↓State.hub_fold]

theorem State.setGrp_hub (s : State) (d : Die) (g : Fin 4) (x : Grp) : (State.setGrp s d g x).hub = s.hub := by
  unfold State.setGrp
  simp only [↓State.hub_mk, ↓State.hub_fold]

theorem State.setSwitch_hub (s : State) (d : Die) (k : Fin 12) (x : Switch) : (State.setSwitch s d k x).hub = s.hub := by
  unfold State.setSwitch
  simp only [↓State.hub_mk, ↓State.hub_fold]

theorem State.axRefuse_hub (s : State) (d : Die) (n : Fin 8) (r : AxRefuse) : (State.axRefuse s d n r).hub = s.hub := by
  unfold State.axRefuse
  simp only [↓State.put_hub, ↓State.bump_hub, ↓State.setAxis_hub]

theorem State.axGo_hub (s : State) (d : Die) (n : Fin 8) (t : Int) : (State.axGo s d n t).hub = s.hub := by
  unfold State.axGo
  grind [State.hub_mk, State.put_hub, State.setAxis_hub]

theorem State.axMoveTo_hub (s : State) (d : Die) (n : Fin 8) (t : Int) : (State.axMoveTo s d n t).hub = s.hub := by
  unfold State.axMoveTo
  grind [State.hub_mk, State.axRefuse_hub, State.axGo_hub]

theorem State.axStop_hub (s : State) (d : Die) (n : Fin 8) : (State.axStop s d n).hub = s.hub := by
  unfold State.axStop
  simp only [↓State.setAxis_hub]

theorem State.axResume_hub (s : State) (d : Die) (n : Fin 8) : (State.axResume s d n).hub = s.hub := by
  unfold State.axResume
  grind [State.hub_mk, State.setAxis_hub, State.axRefuse_hub]

theorem State.axPhase_hub (s : State) (d : Die) (n : Fin 8) (p : HPhase) : (State.axPhase s d n p).hub = s.hub := by
  unfold State.axPhase
  simp only [↓State.setAxis_hub]

theorem State.axHome_hub (s : State) (d : Die) (n : Fin 8) : (State.axHome s d n).hub = s.hub := by
  unfold State.axHome
  grind [State.hub_mk, State.setAxis_hub, State.axRefuse_hub, State.axPhase_hub]

theorem State.axFault_hub (s : State) (d : Die) (n : Fin 8) (f : AxFault) : (State.axFault s d n f).hub = s.hub := by
  unfold State.axFault
  grind [State.hub_mk, State.bump_hub, State.raiseDie_hub, State.setAxis_hub]

theorem State.axDisable_hub (s : State) (d : Die) (n : Fin 8) : (State.axDisable s d n).hub = s.hub := by
  unfold State.axDisable
  simp only [↓State.setAxis_hub]

theorem State.grpRefuse_hub (s : State) (d : Die) (g : Fin 4) (r : AxRefuse) : (State.grpRefuse s d g r).hub = s.hub := by
  unfold State.grpRefuse
  simp only [↓State.put_hub, ↓State.setGrp_hub]

theorem State.grpStart_hub (s : State) (d : Die) (g : Fin 4) : (State.grpStart s d g).hub = s.hub := by
  unfold State.grpStart
  (repeat' split) <;> simp_all [↓State.hub_ite, ↓State.setAxis_hub, ↓State.setGrp_hub, State.hub_foldl]

theorem State.grpMove_hub (s : State) (d : Die) (g : Fin 4) : (State.grpMove s d g).hub = s.hub := by
  unfold State.grpMove
  grind [State.hub_mk, State.setGrp_hub, State.grpRefuse_hub, State.grpStart_hub]

theorem State.grpStop_hub (s : State) (d : Die) (g : Fin 4) : (State.grpStop s d g).hub = s.hub := by
  unfold State.grpStop
  grind [State.hub_mk, State.setGrp_hub]

theorem State.grpResume_hub (s : State) (d : Die) (g : Fin 4) : (State.grpResume s d g).hub = s.hub := by
  unfold State.grpResume
  (repeat' split) <;> simp_all [↓State.hub_ite, ↓State.setAxis_hub, ↓State.setGrp_hub, ↓State.grpRefuse_hub, State.hub_foldl]

theorem State.stopAxes_hub (s : State) (d : Die) : (State.stopAxes s d).hub = s.hub := by
  unfold State.stopAxes
  (repeat' split) <;> simp_all [↓State.hub_ite, ↓State.axStop_hub, ↓State.grpStop_hub, State.hub_foldl]

theorem State.axRest_hub (s : State) (d : Die) (n : Fin 8) : (State.axRest s d n).hub = s.hub := by
  unfold State.axRest
  grind [State.hub_mk, State.bump_hub, State.setAxis_hub, State.axPhase_hub]

theorem State.axTick_hub (s : State) (d : Die) (n : Fin 8) : (State.axTick s d n).hub = s.hub := by
  unfold State.axTick
  simp only [↓State.hub_mk, ↓State.hub_fold, ↓State.hub_ite, ↓State.hub_fst_ite, ↓State.activate_hub, ↓State.setAxis_hub, ↓State.axFault_hub, ↓State.axRest_hub]
  (repeat' split) <;> simp only [↓State.hub_mk, ↓State.hub_fold, ↓State.hub_ite, ↓State.hub_fst_ite, ↓State.activate_hub, ↓State.setAxis_hub, ↓State.axFault_hub, ↓State.axRest_hub, ite_self]

theorem State.grpTick_hub (s : State) (d : Die) (g : Fin 4) : (State.grpTick s d g).hub = s.hub := by
  have hp : ∀ (f : State → Fin 8 → Axis) (l : List (Fin 8)) (t : State),
      (l.foldl (fun t n => t.setAxis d n (f t n)) t).hub = t.hub :=
    fun f l t => State.hub_foldl _ _ _ fun _ _ => State.setAxis_hub _ _ _ _
  unfold State.grpTick
  extract_lets ms s1 x l k place rest q1 t1 q2 y2 t2
  have h1 : s1.hub = s.hub := by simp only [s1, ↓State.hub_ite, ↓State.activate_hub, ite_self]
  have h2 : ∀ t q, (place t q).hub = t.hub := fun t q => hp _ _ _
  have hr : ∀ t q, (rest t q).hub = t.hub := fun t q => hp _ _ _
  have h3 : t1.hub = s.hub := (h2 _ _).trans ((State.setGrp_hub _ _ _ _).trans h1)
  have h4 : t2.hub = s.hub := (h2 _ _).trans ((State.setGrp_hub _ _ _ _).trans h1)
  clear_value s1 place rest t1 t2
  split
  · simp only [↓State.hub_ite, hr, State.setGrp_hub, ite_self, h3]
  · simp only [↓State.hub_ite, hr, State.setGrp_hub, State.grpStart_hub, ite_self, h4]
  · exact h1

theorem State.profileTick_hub (s : State) (d : Die) : (State.profileTick s d).hub = s.hub := by
  unfold State.profileTick
  split
  · rfl
  · refine (State.hub_foldl _ _ _ fun t x => ?_).trans (State.hub_foldl _ _ _ fun t x => State.grpTick_hub _ _ _)
    split
    · split
      · rfl
      · exact State.axTick_hub _ _ _
    · exact State.axTick_hub _ _ _

end Sys2Proof.Machine
end

