-- ==== Sys2Proof/Laws/Hub2.lean ====
section
/-! SUPPORT. Commands of the field side leave the hub alone: lemmas of YrdOps, CruOps, RecOps, LatOps, OsvOps, Lattice. -/
namespace Sys2Proof.Machine

set_option linter.unusedSimpArgs false
set_option linter.unusedTactic false
set_option linter.unnecessarySeqFocus false
set_option linter.unreachableTactic false

theorem State.setYrd_hub (s : State) (y : Yrd) : (State.setYrd s y).hub = s.hub := by
  unfold State.setYrd
  simp only [↓State.hub_mk, ↓State.hub_fold]

theorem State.aim_hub (s : State) (n : Fin 8) (t : Int) : (State.aim s n t).hub = s.hub := by
  unfold State.aim
  simp only [↓State.put_hub]

theorem State.moveXZ_hub (s : State) (x z : Int) : (State.moveXZ s x z).1.hub = s.hub := by
  unfold State.moveXZ
  grind [State.hub_mk, State.axRefuse_hub, State.axMoveTo_hub, State.grpRefuse_hub, State.grpMove_hub, State.aim_hub]

theorem State.swing_hub (s : State) (t : Int) : (State.swing s t).1.hub = s.hub := by
  unfold State.swing
  grind [State.hub_mk, State.axRefuse_hub, State.axMoveTo_hub, State.aim_hub]

theorem State.gripSlot_hub (s : State) (on : Bool) : (State.gripSlot s on).hub = s.hub := by
  unfold State.gripSlot
  simp only [↓State.hub_mk, ↓State.hub_fold]

theorem State.gripStart_hub (s : State) : (State.gripStart s).hub = s.hub := by
  unfold State.gripStart
  simp only [↓State.put_hub, ↓State.setAxis_hub, ↓State.setYrd_hub, ↓State.gripSlot_hub]

theorem State.gripContact_hub (s : State) (at_ : Int) : (State.gripContact s at_).hub = s.hub := by
  unfold State.gripContact
  grind [State.hub_mk, State.put_hub, State.setSlot_hub, State.setYrd_hub]

theorem State.gripOpen_hub (s : State) : (State.gripOpen s).hub = s.hub := by
  unfold State.gripOpen
  simp only [↓State.put_hub, ↓State.setAxis_hub, ↓State.setYrd_hub, ↓State.gripSlot_hub]

theorem State.transferEnd_hub (s : State) (result : Nat) (st : WStatus) : (State.transferEnd s result st).hub = s.hub := by
  unfold State.transferEnd
  grind [State.hub_mk, State.bump_hub, State.endItem_hub, State.setYrd_hub]

theorem State.yrdFault_hub (s : State) (result : Nat) (st : WStatus) (cycled : Bool) : (State.yrdFault s result st
    cycled).hub = s.hub := by
  unfold State.yrdFault
  simp only [↓State.stopAxes_hub, ↓State.setYrd_hub, ↓State.transferEnd_hub]

theorem State.putAway_hub (s : State) (result : Nat) : (State.putAway s result).hub = s.hub := by
  unfold State.putAway
  simp only [↓State.setYrd_hub, ↓State.gripOpen_hub]

theorem State.startMotion_hub (s : State) (m : Motion) : (State.startMotion s m).hub = s.hub := by
  unfold State.startMotion
  grind [State.hub_mk, State.setYrd_hub, State.moveXZ_hub, State.swing_hub, State.gripStart_hub, State.gripOpen_hub, State.yrdFault_hub]

theorem State.scan_hub (s : State) (k : Nat) : (State.scan s k).hub = s.hub := by
  unfold State.scan
  simp only [↓State.setYrd_hub]

theorem State.transferRefuse_hub (s : State) (j : TransferJob) (st : WStatus) (cause : Nat) : (State.transferRefuse s j st
    cause).hub = s.hub := by
  unfold State.transferRefuse
  grind [State.hub_mk, State.endItem_hub]

theorem State.itemBegun_hub (s : State) (d : Die) (i : Option Nat) : (State.itemBegun s d i).hub = s.hub := by
  unfold State.itemBegun
  grind [State.hub_mk, State.setDie_hub]

theorem yrdTake_hub (s : State) (l : List TransferJob) : (yrdTake s l).hub = s.hub := by
  induction l generalizing s with
  | nil =>
    unfold yrdTake
    split
    · exact State.scan_hub _ _
    · rfl
  | cons j rest ih =>
    unfold yrdTake
    split
    · exact State.scan_hub _ _
    · simp only []
      (repeat' split) <;> simp only [ih, State.transferRefuse_hub, State.setYrd_hub, State.startMotion_hub, State.itemBegun_hub]

theorem State.yrdNext_hub (s : State) : (State.yrdNext s).hub = s.hub := by
  unfold State.yrdNext
  grind [State.hub_mk, State.activate_hub, State.setYrd_hub, yrdTake_hub]

theorem State.yrdIdle_hub (s : State) : (State.yrdIdle s).hub = s.hub := by
  unfold State.yrdIdle
  simp only [↓State.setYrd_hub, ↓State.yrdNext_hub]

theorem State.yrdAdvance_hub (s : State) : (State.yrdAdvance s).hub = s.hub := by
  unfold State.yrdAdvance
  grind [State.hub_mk, State.setYrd_hub, State.swing_hub, State.transferEnd_hub, State.yrdFault_hub, State.putAway_hub, State.startMotion_hub, State.yrdIdle_hub]

theorem State.yrdWatch_hub (s : State) : (State.yrdWatch s).hub = s.hub := by
  unfold State.yrdWatch
  grind [State.hub_mk, State.yrdFault_hub]

theorem State.placeOrphan_hub (s : State) : (State.placeOrphan s).hub = s.hub := by
  unfold State.placeOrphan
  grind [State.hub_mk, State.raiseDie_hub, State.setYrd_hub, State.startMotion_hub]

theorem State.yrdHome_hub (s : State) (n : Fin 8) : (State.yrdHome s n).hub = s.hub := by
  unfold State.yrdHome
  grind [State.hub_mk, State.axHome_hub, State.yrdFault_hub]

theorem State.yrdHoming_hub (s : State) : (State.yrdHoming s).hub = s.hub := by
  unfold State.yrdHoming
  grind [State.hub_mk, State.setYrd_hub, State.yrdIdle_hub, State.placeOrphan_hub, State.yrdHome_hub]

theorem State.setCru_hub (s : State) (b : Bay) (x : Cru) : (State.setCru s b x).hub = s.hub := by
  unfold State.setCru
  simp only [↓State.hub_mk, ↓State.hub_fold]

theorem State.cruRaise_hub (s : State) (b : Bay) (t : CruTrigger) : (State.cruRaise s b t).hub = s.hub := by
  unfold State.cruRaise
  grind [State.hub_mk, State.setCru_hub]

theorem State.putMask_hub (s : State) (a : Nat) (f : Field) (k : Nat) (v : Bool) : (State.putMask s a f k v).hub = s.hub :=
    by
  unfold State.putMask
  simp only [↓State.put_hub]

theorem State.cruBorrow_hub (s : State) (b : Bay) (k : Fin 7) : (State.cruBorrow s b k).hub = s.hub := by
  unfold State.cruBorrow
  simp only [↓State.hub_mk, ↓State.hub_fold, ↓State.setCru_hub, ↓State.putMask_hub]

theorem State.cruReturn_hub (s : State) (b : Bay) : (State.cruReturn s b).hub = s.hub := by
  unfold State.cruReturn
  grind [State.hub_mk, State.setCru_hub, State.putMask_hub]

theorem State.cruFlag_hub (s : State) (b : Bay) (i : CruItem) (k : Fin 7) (c : CruCause) : (State.cruFlag s b i k c).hub =
    s.hub := by
  unfold State.cruFlag
  simp only [↓State.bump_hub, ↓State.raiseBay_hub, ↓State.setCru_hub, ↓State.putMask_hub]

theorem State.stage_hub (s : State) (a : Nat) (f : Field) (v : Nat) (i : Nat) (j : Nat) : (State.stage s a f v i j).hub =
    s.hub := by
  unfold State.stage
  simp only [↓State.hub_mk, ↓State.hub_fold]

theorem State.cruTake_hub (s : State) (b : Bay) (layer : Nat) (i : CruItem) (k : Fin 7) (v : List Rat) : (State.cruTake s b
    layer i k v).hub = s.hub := by
  unfold State.cruTake
  grind [State.hub_mk, State.put_hub, State.setCru_hub, State.cruFlag_hub, State.stage_hub]

theorem State.cruCommit_hub (s : State) (b : Bay) (g : Group) (i : CruItem) (k : Fin 7) : (State.cruCommit s b g i k).hub =
    s.hub := by
  unfold State.cruCommit
  grind [State.hub_mk, State.commitSet_hub, State.cruFlag_hub]

theorem State.cruFinishSpot_hub (s : State) (b : Bay) (k : Fin 7) : (State.cruFinishSpot s b k).hub = s.hub := by
  unfold State.cruFinishSpot
  simp only [↓State.hub_mk, ↓State.hub_fold, ↓State.put_hub, ↓State.cruCommit_hub]

theorem State.cruEndRun_hub (s : State) (b : Bay) (r : CruRun) : (State.cruEndRun s b r).hub = s.hub := by
  unfold State.cruEndRun
  (repeat' split) <;> simp_all [↓State.put_hub, ↓State.bump_hub, ↓State.raiseBay_hub, ↓State.endItem_hub, ↓State.setCru_hub, ↓State.cruReturn_hub, State.hub_foldl]

theorem State.cruNext_hub (s : State) (b : Bay) : (State.cruNext s b).hub = s.hub := by
  unfold State.cruNext
  grind [State.hub_mk, State.setCru_hub, State.cruBorrow_hub, State.cruCommit_hub, State.cruFinishSpot_hub, State.cruEndRun_hub]

theorem State.cruAdvance_hub (s : State) (b : Bay) : (State.cruAdvance s b).hub = s.hub := by
  unfold State.cruAdvance
  simp only [↓State.setCru_hub, ↓State.cruNext_hub]

theorem State.cruAttemptFailed_hub (s : State) (b : Bay) (i : CruItem) (k : Fin 7) (c : CruCause) (centre : Int) :
    (State.cruAttemptFailed s b i k c centre).hub = s.hub := by
  unfold State.cruAttemptFailed
  grind [State.hub_mk, State.bump_hub, State.setCru_hub, State.cruFlag_hub, State.cruAdvance_hub]

theorem State.cruMeasured_hub (s : State) (b : Bay) (i : CruItem) (k : Fin 7) (v : List Rat) : (State.cruMeasured s b i k
    v).hub = s.hub := by
  unfold State.cruMeasured
  grind [State.hub_mk, State.setCru_hub, State.cruTake_hub, State.cruAdvance_hub, State.cruAttemptFailed_hub]

theorem State.cruPoint_hub (s : State) (b : Bay) (m : CruMeasured) : (State.cruPoint s b m).hub = s.hub := by
  unfold State.cruPoint
  grind [State.hub_mk, State.setCru_hub, State.cruAttemptFailed_hub, State.cruMeasured_hub]

theorem State.cruPause_hub (s : State) (b : Bay) (point : Bool) : (State.cruPause s b point).hub = s.hub := by
  unfold State.cruPause
  grind [State.hub_mk, State.setCru_hub, State.cruReturn_hub]

theorem State.cruRetry_hub (s : State) (b : Bay) : (State.cruRetry s b).hub = s.hub := by
  unfold State.cruRetry
  grind [State.hub_mk, State.bump_hub, State.cruPause_hub]

theorem State.cruInterrupt_hub (s : State) (b : Bay) : (State.cruInterrupt s b).hub = s.hub := by
  unfold State.cruInterrupt
  grind [State.hub_mk, State.cruPause_hub]

theorem State.cruAbort_hub (s : State) (b : Bay) : (State.cruAbort s b).hub = s.hub := by
  unfold State.cruAbort
  simp only []
  (repeat' split) <;> (try refine (State.hub_foldl _ _ _ fun t x => ?_).trans ?_) <;> (try dsimp only) <;> (repeat' split) <;> (try simp only []) <;> grind [State.hub_mk, State.put_hub, State.bump_hub, State.endItem_hub, State.setCru_hub, State.cruReturn_hub]

theorem State.cruSpotQuality_hub (s : State) (b : Bay) (k : Fin 7) : (State.cruSpotQuality s b k).hub = s.hub := by
  unfold State.cruSpotQuality
  grind [State.hub_mk, State.put_hub]

theorem State.setRec_hub (s : State) (b : Bay) (x : Rec) : (State.setRec s b x).hub = s.hub := by
  unfold State.setRec
  simp only [↓State.hub_mk, ↓State.hub_fold]

theorem State.recPartial_hub (s : State) (b : Bay) : (State.recPartial s b).hub = s.hub := by
  unfold State.recPartial
  grind [State.hub_mk, State.bump_hub, State.raiseBay_hub, State.endItem_hub, State.logOver_hub, State.setRec_hub]

theorem State.recRefuse_hub (s : State) (b : Bay) (l : BuiltLog) (st : WStatus) : (State.recRefuse s b l st).hub = s.hub :=
    by
  unfold State.recRefuse
  simp only [↓State.endItem_hub, ↓State.setRec_hub]

theorem State.recClear_hub (s : State) (b : Bay) : (State.recClear s b).hub = s.hub := by
  unfold State.recClear
  simp only [↓State.setRec_hub]

theorem State.setLat_hub (s : State) (b : Bay) (x : LatBay) : (State.setLat s b x).hub = s.hub := by
  unfold State.setLat
  simp only [↓State.hub_mk, ↓State.hub_fold]

theorem State.setLatSpot_hub (s : State) (b : Bay) (k : Fin 7) (x : LatSpot) : (State.setLatSpot s b k x).hub = s.hub := by
  unfold State.setLatSpot
  simp only [↓State.setLat_hub]

theorem State.setLatDie_hub (s : State) (d : Die) (x : LatDie) : (State.setLatDie s d x).hub = s.hub := by
  unfold State.setLatDie
  simp only [↓State.hub_mk, ↓State.hub_fold]

theorem State.countErased_hub (s : State) (b : Bay) : (State.countErased s b).hub = s.hub := by
  unfold State.countErased
  simp only [↓State.bump_hub]

theorem State.sendBoard_hub (s : State) (b : Bay) (l : LogAsm) (i : Nat) (bd : Bytes) (status : Nat) : (State.sendBoard s b l
    i bd status).hub = s.hub := by
  unfold State.sendBoard
  grind [State.hub_mk, State.send_hub]

theorem State.systemLog_hub (s : State) (b : Bay) (layer n : Nat) : (State.systemLog s b layer n).hub = s.hub := by
  unfold State.systemLog
  simp only [↓State.setLat_hub]

theorem State.mountEnd_hub (s : State) (b : Bay) : (State.mountEnd s b).hub = s.hub := by
  unfold State.mountEnd
  simp only [↓State.hub_mk, ↓State.hub_fold, ↓State.hub_ite, ↓State.hub_fst_ite, ↓State.endItem_hub, ↓State.setMounted_hub, ↓State.cruRaise_hub, ↓State.setLat_hub]
  (repeat' split) <;> simp only [↓State.hub_mk, ↓State.hub_fold, ↓State.hub_ite, ↓State.hub_fst_ite, ↓State.endItem_hub, ↓State.setMounted_hub, ↓State.cruRaise_hub, ↓State.setLat_hub, ite_self]

theorem State.mountLog_hub (s : State) (b : Bay) (l : LogAsm) (result : Nat) : (State.mountLog s b l result).hub = s.hub :=
    by
  unfold State.mountLog
  grind [State.hub_mk, State.setLat_hub, State.systemLog_hub, State.mountEnd_hub]

theorem State.logEnd_hub (s : State) (b : Bay) (l : LogAsm) (result : Nat) : (State.logEnd s b l result).hub = s.hub := by
  unfold State.logEnd
  (repeat' split) <;> simp_all [↓State.bump_hub, ↓State.send_hub, ↓State.endItem_hub, ↓State.setLat_hub, ↓State.mountLog_hub, State.hub_foldl]

theorem State.putLog_hub (s : State) (b : Bay) (l : LogAsm) : (State.putLog s b l).hub = s.hub := by
  unfold State.putLog
  simp only [↓State.setLat_hub]

theorem State.logUndecodable_hub (s : State) (b : Bay) (l : LogAsm) : (State.logUndecodable s b l).hub = s.hub := by
  unfold State.logUndecodable
  grind [State.hub_mk, State.logEnd_hub, State.putLog_hub]

theorem State.assemble_hub (s : State) (b : Bay) (l : LogAsm) : (State.assemble s b l).hub = s.hub := by
  unfold State.assemble
  (repeat' split) <;> simp_all [↓State.hub_ite, ↓State.bump_hub, ↓State.sendBoard_hub, ↓State.logEnd_hub, ↓State.logUndecodable_hub, State.hub_foldl]

theorem State.boardDecided_hub (s : State) (b : Bay) (k : Fin 7) (layer area slot : Nat) (o : BoardOutcome) :
    (State.boardDecided s b k layer area slot o).hub = s.hub := by
  unfold State.boardDecided
  grind [State.hub_mk, State.setLat_hub, State.countErased_hub, State.sendBoard_hub, State.putLog_hub, State.assemble_hub]

theorem State.detNext_hub (s : State) (d : Die) : (State.detNext s d).hub = s.hub := by
  unfold State.detNext
  grind [State.hub_mk, State.setLatDie_hub]

theorem State.sliceBoundary_hub (s : State) (b : Bay) (k : Fin 7) : (State.sliceBoundary s b k).hub = s.hub := by
  unfold State.sliceBoundary
  simp only [↓State.hub_mk, ↓State.hub_fold, ↓State.hub_ite, ↓State.hub_fst_ite, ↓State.activate_hub, ↓State.setSfe_hub, ↓State.setSpot_hub, ↓State.setLat_hub, ↓State.setLatSpot_hub]
  (repeat' split) <;> simp only [↓State.hub_mk, ↓State.hub_fold, ↓State.hub_ite, ↓State.hub_fst_ite, ↓State.activate_hub, ↓State.setSfe_hub, ↓State.setSpot_hub, ↓State.setLat_hub, ↓State.setLatSpot_hub, ite_self]

theorem State.latHold_hub (s : State) (b : Bay) : (State.latHold s b).hub = s.hub := by
  unfold State.latHold
  simp only [↓State.setLat_hub]

theorem State.latAcquire_hub (s : State) (b : Bay) (layer : Nat) : (State.latAcquire s b layer).hub = s.hub := by
  unfold State.latAcquire
  (repeat' split) <;> simp_all [↓State.setLat_hub, ↓State.setLatSpot_hub, State.hub_foldl]

theorem State.setOsv_hub (s : State) (b : Bay) (x : Osv) : (State.setOsv s b x).hub = s.hub := by
  unfold State.setOsv
  simp only [↓State.hub_mk, ↓State.hub_fold]

theorem State.slotRestart_hub (s : State) (d : Die) (n : Fin 48) : (State.slotRestart s d n).hub = s.hub := by
  unfold State.slotRestart
  grind [State.hub_mk, State.setSlot_hub]

theorem State.osvSweep_hub (s : State) (b : Bay) : (State.osvSweep s b).hub = s.hub := by
  unfold State.osvSweep
  simp only [↓State.setOsv_hub, ↓State.slotRestart_hub]

theorem State.moveOutcome_hub (s : State) (b : Bay) (r : MoveReq) (ok : Bool) : (State.moveOutcome s b r ok).hub = s.hub :=
    by
  unfold State.moveOutcome
  grind [State.hub_mk, State.endItem_hub, State.setLat_hub]

theorem State.moveEnd_hub (s : State) (b : Bay) (ok : Bool) : (State.moveEnd s b ok).hub = s.hub := by
  unfold State.moveEnd
  grind [State.hub_mk, State.setOsv_hub, State.moveOutcome_hub]

theorem State.focusRetry_hub (s : State) (b : Bay) : (State.focusRetry s b).hub = s.hub := by
  unfold State.focusRetry
  grind [State.hub_mk, State.raiseBay_hub, State.endBayItems_hub, State.setMounted_hub, State.setOsv_hub, State.osvSweep_hub, State.moveEnd_hub]

theorem State.trackLost_hub (s : State) (b : Bay) : (State.trackLost s b).hub = s.hub := by
  unfold State.trackLost
  grind [State.hub_mk, State.bump_hub, State.raiseBay_hub, State.cruInterrupt_hub, State.setOsv_hub]

theorem State.writeInhibit_hub (s : State) (b : Bay) : (State.writeInhibit s b).hub = s.hub := by
  unfold State.writeInhibit
  grind [State.hub_mk, State.bump_hub, State.setRec_hub, State.recPartial_hub]

theorem State.focusLost_hub (s : State) (b : Bay) : (State.focusLost s b).hub = s.hub := by
  unfold State.focusLost
  grind [State.hub_mk, State.bump_hub, State.raiseBay_hub, State.cruInterrupt_hub, State.setOsv_hub, State.trackLost_hub, State.writeInhibit_hub]

theorem State.focusCapture_hub (s : State) (b : Bay) (layer : Nat) : (State.focusCapture s b layer).hub = s.hub := by
  unfold State.focusCapture
  simp only [↓State.setOsv_hub, ↓State.slotRestart_hub]

theorem State.osvOff_hub (s : State) (b : Bay) : (State.osvOff s b).hub = s.hub := by
  unfold State.osvOff
  grind [State.hub_mk, State.setOsv_hub, State.moveOutcome_hub, State.moveEnd_hub]

theorem State.saMove_hub (s : State) (b : Bay) (layer : Nat) : (State.saMove s b layer).hub = s.hub := by
  unfold State.saMove
  simp only [↓State.axMoveTo_hub, ↓State.setOsv_hub]

theorem State.layerKick_hub (s : State) (b : Bay) (final : Nat) : (State.layerKick s b final).hub = s.hub := by
  unfold State.layerKick
  simp only [↓State.sfeHold_hub, ↓State.axMoveTo_hub, ↓State.latHold_hub, ↓State.setOsv_hub]

theorem State.sledFollowOff_hub (s : State) (b : Bay) : (State.sledFollowOff s b).hub = s.hub := by
  unfold State.sledFollowOff
  simp only [↓State.setSlot_hub]

theorem State.trackKick_hub (s : State) (b : Bay) (d : Int) : (State.trackKick s b d).hub = s.hub := by
  unfold State.trackKick
  simp only [↓State.sfeHold_hub, ↓State.latHold_hub, ↓State.setOsv_hub, ↓State.sledFollowOff_hub]

theorem State.seekStep_hub (s : State) (b : Bay) (area slot : Nat) : (State.seekStep s b area slot).hub = s.hub := by
  unfold State.seekStep
  grind [State.hub_mk, State.sfeHold_hub, State.axGo_hub, State.latHold_hub, State.setOsv_hub, State.moveEnd_hub, State.trackKick_hub]

theorem State.layerArrived_hub (s : State) (b : Bay) : (State.layerArrived s b).hub = s.hub := by
  unfold State.layerArrived
  grind [State.hub_mk, State.moveEnd_hub, State.seekStep_hub]

theorem State.moveStart_hub (s : State) (b : Bay) (r : MoveReq) : (State.moveStart s b r).hub = s.hub := by
  unfold State.moveStart
  grind [State.hub_mk, State.activate_hub, State.cruRetry_hub, State.cruInterrupt_hub, State.setRec_hub, State.setOsv_hub, State.osvSweep_hub, State.moveEnd_hub, State.layerKick_hub, State.trackKick_hub, State.seekStep_hub]

theorem State.moveRequest_hub (s : State) (b : Bay) (r : MoveReq) : (State.moveRequest s b r).hub = s.hub := by
  unfold State.moveRequest
  grind [State.hub_mk, State.put_hub, State.bump_hub, State.setOsv_hub, State.moveOutcome_hub, State.moveStart_hub]

theorem State.ownSlot_hub (s : State) (d : Die) (n : Fin 48) (force : Option Int) (hold : Bool) : (State.ownSlot s d n force
    hold).hub = s.hub := by
  unfold State.ownSlot
  grind [State.hub_mk, State.setSlot_hub, State.freeSlot_hub]

theorem State.osvForces_hub (s : State) (b : Bay) : (State.osvForces s b).hub = s.hub := by
  unfold State.osvForces
  simp only [↓State.ownSlot_hub]

theorem State.focusOn_hub (s : State) (b : Bay) : (State.focusOn s b).hub = s.hub := by
  unfold State.focusOn
  simp only [↓State.setOsv_hub, ↓State.osvSweep_hub]

theorem State.osvCtl_hub (s : State) (b : Bay) (w : Word) : (State.osvCtl s b w).hub = s.hub := by
  unfold State.osvCtl
  grind [State.hub_mk, State.put_hub, State.cruInterrupt_hub, State.setOsv_hub, State.osvOff_hub, State.focusOn_hub]

theorem State.latBit_hub (s : State) (b : Bay) (k : Fin 7) (o : BitObs) : (State.latBit s b k o).1.hub = s.hub := by
  unfold State.latBit
  simp only [↓State.bumpBy_hub, ↓State.setLatSpot_hub]

theorem State.syncFrameOf_hub (s : State) (b : Bay) (k : Fin 7) (o : FrameObs) : (State.syncFrameOf s b k o).hub = s.hub :=
    by
  unfold State.syncFrameOf
  simp only [↓State.hub_mk, ↓State.hub_fold, ↓State.hub_ite, ↓State.hub_fst_ite, ↓State.bump_hub, ↓State.setLatSpot_hub, ↓State.setOsv_hub, ↓State.latBit_hub]
  (repeat' split) <;> (try refine (State.hub_foldl_fst _ _ _ fun t y x => ?_).trans ?_) <;> (try dsimp only) <;> (repeat' split) <;> (try simp only [↓State.hub_mk, ↓State.hub_fold, ↓State.hub_ite, ↓State.hub_fst_ite, ↓State.bump_hub, ↓State.setLatSpot_hub, ↓State.setOsv_hub, ↓State.latBit_hub]) <;> grind [State.hub_mk, State.bump_hub, State.setLatSpot_hub, State.setOsv_hub, State.latBit_hub]

theorem execSyncFrame_hub (b : Bay) (k : Fin 7) (o : FrameObs) (s : State) : ∃ t, (execSyncFrame b k o s) = .next t ∧ t.hub =
    s.hub := by
  unfold execSyncFrame
  (repeat' split) <;> exact ⟨_, rfl, by simp only [↓State.hub_mk, ↓State.hub_fold, ↓State.hub_ite, ↓State.hub_fst_ite, ↓State.syncFrameOf_hub]⟩

theorem State.slotBlank_hub (s : State) (b : Bay) (k : Fin 7) (area slot : Nat) : (State.slotBlank s b k area slot).hub =
    s.hub := by
  unfold State.slotBlank
  grind [State.hub_mk, State.boardDecided_hub]

theorem execSlotBlank_hub (b : Bay) (k : Fin 7) (area slot : Nat) (s : State) : ∃ t, (execSlotBlank b k area slot s) = .next
    t ∧ t.hub = s.hub := by
  unfold execSlotBlank
  (repeat' split) <;> exact ⟨_, rfl, by simp only [↓State.slotBlank_hub]⟩

theorem State.sliceClose_hub (s : State) (b : Bay) (k : Fin 7) (len : Nat) : (State.sliceClose s b k len).hub = s.hub := by
  unfold State.sliceClose
  grind [State.hub_mk, State.bump_hub, State.setLatSpot_hub, State.setLatDie_hub, State.detNext_hub, State.sliceBoundary_hub]

theorem execSliceClose_hub (b : Bay) (k : Fin 7) (len : Nat) (s : State) : ∃ t, (execSliceClose b k len s) = .next t ∧ t.hub
    = s.hub := by
  unfold execSliceClose
  (repeat' split) <;> exact ⟨_, rfl, by simp only [↓State.sliceClose_hub]⟩

theorem State.sliceDetected_hub (s : State) (d : Die) (r : SliceResult) : (State.sliceDetected s d r).hub = s.hub := by
  unfold State.sliceDetected
  grind [State.hub_mk, State.setLatSpot_hub, State.setLatDie_hub, State.detNext_hub]

theorem execSliceDetected_hub (d : Die) (r : SliceResult) (s : State) : ∃ t, (execSliceDetected d r s) = .next t ∧ t.hub =
    s.hub := by
  unfold execSliceDetected
  (repeat' split) <;> exact ⟨_, rfl, by simp only [↓State.sliceDetected_hub]⟩

theorem State.spotHandOver_hub (s : State) (b : Bay) (k : Fin 7) (slot : Nat) : (State.spotHandOver s b k slot).hub = s.hub
    := by
  unfold State.spotHandOver
  grind [State.hub_mk, State.bump_hub, State.setLatSpot_hub, State.setLatDie_hub, State.boardDecided_hub]

theorem execCodewordHandover_hub (b : Bay) (k : Fin 7) (slot : Nat) (s : State) : ∃ t, (execCodewordHandover b k slot s) =
    .next t ∧ t.hub = s.hub := by
  unfold execCodewordHandover
  (repeat' split) <;> exact ⟨_, rfl, by simp only [↓State.spotHandOver_hub]⟩

theorem State.ldpcDone_hub (s : State) (d : Die) (r : LdpcResult) : (State.ldpcDone s d r).hub = s.hub := by
  unfold State.ldpcDone
  simp only [↓State.hub_mk, ↓State.hub_fold, ↓State.hub_ite, ↓State.hub_fst_ite, ↓State.bump_hub, ↓State.setLatSpot_hub, ↓State.setLatDie_hub, ↓State.boardDecided_hub]
  (repeat' split) <;> simp only [↓State.hub_mk, ↓State.hub_fold, ↓State.hub_ite, ↓State.hub_fst_ite, ↓State.bump_hub, ↓State.setLatSpot_hub, ↓State.setLatDie_hub, ↓State.boardDecided_hub, ite_self]

theorem execLdpcDecodeDone_hub (d : Die) (r : LdpcResult) (s : State) : ∃ t, (execLdpcDecodeDone d r s) = .next t ∧ t.hub =
    s.hub := by
  unfold execLdpcDecodeDone
  (repeat' split) <;> exact ⟨_, rfl, by simp only [↓State.ldpcDone_hub]⟩

theorem State.retryJump_hub (s : State) (b : Bay) : (State.retryJump s b).hub = s.hub := by
  unfold State.retryJump
  grind [State.hub_mk, State.bump_hub, State.setLat_hub, State.moveRequest_hub]

theorem execRetryJumpBack_hub (b : Bay) (s : State) : ∃ t, (execRetryJumpBack b s) = .next t ∧ t.hub = s.hub := by
  unfold execRetryJumpBack
  (repeat' split) <;> exact ⟨_, rfl, by simp only [↓State.retryJump_hub]⟩

theorem State.qualityLatch_hub (s : State) (b : Bay) (k : Fin 7) : (State.qualityLatch s b k).hub = s.hub := by
  unfold State.qualityLatch
  grind [State.hub_mk, State.drawn_hub, State.put_hub, State.cruSpotQuality_hub, State.setLatSpot_hub]

theorem execQualityWindowLatch_hub (b : Bay) (k : Fin 7) (s : State) : ∃ t, (execQualityWindowLatch b k s) = .next t ∧ t.hub
    = s.hub := by
  unfold execQualityWindowLatch
  (repeat' split) <;> exact ⟨_, rfl, by simp only [↓State.qualityLatch_hub]⟩

end Sys2Proof.Machine
end

