-- ==== Sys2Proof/Laws/Hub3.lean ====
section
/-! SUPPORT. Commands of the field side leave the hub alone: lemmas of Record, Safe, TrnOps, TurnOps, Turn, Servo. -/
namespace Sys2Proof.Machine

set_option linter.unusedSimpArgs false
set_option linter.unusedTactic false
set_option linter.unnecessarySeqFocus false
set_option linter.unreachableTactic false

theorem State.logBuild_hub (s : State) (b : Bay) (item : Nat) : (State.logBuild s b item).hub = s.hub := by
  unfold State.logBuild
  grind [State.hub_mk, State.raiseBay_hub, State.spnRun_hub, State.setRec_hub, State.recRefuse_hub]

theorem execRecordLogBuild_hub (b : Bay) (item : Nat) (s : State) : ∃ t, (execRecordLogBuild b item s) = .next t ∧ t.hub =
    s.hub := by
  unfold execRecordLogBuild
  (repeat' split) <;> exact ⟨_, rfl, by simp only [↓State.logBuild_hub]⟩

theorem State.speedSettled_hub (s : State) (b : Bay) : (State.speedSettled s b).hub = s.hub := by
  unfold State.speedSettled
  grind [State.hub_mk, State.setRec_hub]

theorem execRecordSpeedSettled_hub (b : Bay) (s : State) : ∃ t, (execRecordSpeedSettled b s) = .next t ∧ t.hub = s.hub := by
  unfold execRecordSpeedSettled
  (repeat' split) <;> exact ⟨_, rfl, by simp only [↓State.speedSettled_hub]⟩

theorem State.checkRev_hub (s : State) (b : Bay) (marked : List (Nat × Nat × Nat)) : (State.checkRev s b marked).hub = s.hub
    := by
  unfold State.checkRev
  (repeat' split) <;> simp_all [↓State.hub_ite, ↓State.setRec_hub, ↓State.recRefuse_hub, State.hub_foldl]

theorem execCheckRevolution_hub (b : Bay) (marked : List (Nat × Nat × Nat)) (s : State) : ∃ t, (execCheckRevolution b marked
    s) = .next t ∧ t.hub = s.hub := by
  unfold execCheckRevolution
  (repeat' split) <;> exact ⟨_, rfl, by simp only [↓State.checkRev_hub]⟩

theorem State.logStart_hub (s : State) (b : Bay) (item : Nat) : (State.logStart s b item).hub = s.hub := by
  unfold State.logStart
  grind [State.hub_mk, State.bump_hub, State.setDie_hub, State.raiseBay_hub, State.activate_hub, State.cruInterrupt_hub, State.setRec_hub, State.recRefuse_hub]

theorem execLogWriteStart_hub (b : Bay) (item : Nat) (s : State) : ∃ t, (execLogWriteStart b item s) = .next t ∧ t.hub =
    s.hub := by
  unfold execLogWriteStart
  (repeat' split) <;> exact ⟨_, rfl, by simp only [↓State.logStart_hub]⟩

theorem State.logWritten_hub (s : State) (b : Bay) : (State.logWritten s b).hub = s.hub := by
  unfold State.logWritten
  grind [State.hub_mk, State.bump_hub, State.endItem_hub, State.logOver_hub, State.setRec_hub]

theorem execLogWriteEnd_hub (b : Bay) (s : State) : ∃ t, (execLogWriteEnd b s) = .next t ∧ t.hub = s.hub := by
  unfold execLogWriteEnd
  (repeat' split) <;> exact ⟨_, rfl, by simp only [↓State.logWritten_hub]⟩

theorem execWriteInhibit_hub (b : Bay) (s : State) : ∃ t, (execWriteInhibit b s) = .next t ∧ t.hub = s.hub := by
  unfold execWriteInhibit
  (repeat' split) <;> exact ⟨_, rfl, by simp only [↓State.writeInhibit_hub]⟩

theorem State.laserReport_hub (s : State) (b : Bay) (r : Nat) : (State.laserReport s b r).hub = s.hub := by
  unfold State.laserReport
  grind [State.hub_mk, State.setRec_hub]

theorem execLaserReportFrame_hub (b : Bay) (report : Nat) (s : State) : ∃ t, (execLaserReportFrame b report s) = .next t ∧
    t.hub = s.hub := by
  unfold execLaserReportFrame
  (repeat' split) <;> exact ⟨_, rfl, by simp only [↓State.laserReport_hub]⟩

theorem State.laserLink_hub (s : State) (b : Bay) : (State.laserLink s b).hub = s.hub := by
  unfold State.laserLink
  grind [State.hub_mk, State.raiseBay_hub, State.setRec_hub, State.recPartial_hub]

theorem execLaserLink_hub (b : Bay) (s : State) : ∃ t, (execLaserLink b s) = .next t ∧ t.hub = s.hub := by
  unfold execLaserLink
  (repeat' split) <;> exact ⟨_, rfl, by simp only [↓State.laserLink_hub]⟩

theorem State.opcEmitter_hub (s : State) (b : Bay) (k : Fin 7) (j : Vector Nat 16) : (State.opcEmitter s b k j).hub = s.hub
    := by
  unfold State.opcEmitter
  grind [State.hub_mk, State.put_hub, State.raiseBay_hub, State.setRec_hub]

theorem State.powerTest_hub (s : State) (b : Bay) (first : Option Nat) (jitter : Vector (Vector Nat 16) 7) : (State.powerTest
    s b first jitter).hub = s.hub := by
  unfold State.powerTest
  (repeat' split) <;> simp_all [↓State.hub_ite, ↓State.bump_hub, ↓State.raiseBay_hub, ↓State.setRec_hub, ↓State.opcEmitter_hub, State.hub_foldl]

theorem execPowerTest_hub (b : Bay) (first : Option Nat) (jitter : Vector (Vector Nat 16) 7) (s : State) : ∃ t,
    (execPowerTest b first jitter s) = .next t ∧ t.hub = s.hub := by
  unfold execPowerTest
  (repeat' split) <;> exact ⟨_, rfl, by simp only [↓State.powerTest_hub]⟩

theorem State.opcRun_hub (s : State) (b : Bay) : (State.opcRun s b).hub = s.hub := by
  unfold State.opcRun
  grind [State.hub_mk, State.setRec_hub]

theorem execRecOpcRun_hub (b : Bay) (s : State) : ∃ t, (execRecOpcRun b s) = .next t ∧ t.hub = s.hub := by
  unfold execRecOpcRun
  (repeat' split) <;> exact ⟨_, rfl, by simp only [↓State.opcRun_hub]⟩

theorem State.endAllItems_hub (s : State) (d : Die) (st : WStatus) : (State.endAllItems s d st).hub = s.hub := by
  unfold State.endAllItems
  (repeat' split) <;> simp_all [↓State.endItem_hub, State.hub_foldl]

theorem State.safeSlots_hub (s : State) (d : Die) : (State.safeSlots s d).hub = s.hub := by
  unfold State.safeSlots
  (repeat' split) <;> simp_all [↓State.hub_ite, ↓State.setSlot_hub, State.hub_foldl]

theorem State.bayStops_hub (s : State) (b : Bay) : (State.bayStops s b).hub = s.hub := by
  unfold State.bayStops
  simp only [↓State.setMounted_hub, ↓State.sfeHold_hub, ↓State.spnSafeStop_hub, ↓State.cruAbort_hub, ↓State.recPartial_hub, ↓State.recClear_hub, ↓State.setLat_hub, ↓State.latHold_hub, ↓State.setOsv_hub, ↓State.osvOff_hub]

theorem State.yrdSafe_hub (s : State) : (State.yrdSafe s).hub = s.hub := by
  unfold State.yrdSafe
  grind [State.hub_mk, State.endItem_hub, State.setYrd_hub]

theorem State.enterSafe_hub (s : State) (d : Die) : (State.enterSafe s d).hub = s.hub := by
  unfold State.enterSafe
  (repeat' split) <;> simp_all [↓State.setDie_hub, ↓State.answerResets_hub, ↓State.stopAxes_hub, ↓State.endAllItems_hub, ↓State.safeSlots_hub, ↓State.bayStops_hub, ↓State.yrdSafe_hub, State.hub_foldl]

theorem State.clockLost_hub (s : State) (d : Die) : (State.clockLost s d).hub = s.hub := by
  unfold State.clockLost
  (repeat' split) <;> simp_all [↓State.hub_mk, ↓State.hub_fold, ↓State.setDie_hub, ↓State.spnClockLost_hub, State.hub_foldl]

theorem State.slotDisable_hub (s : State) (d : Die) (n : Fin 48) : (State.slotDisable s d n).hub = s.hub := by
  unfold State.slotDisable
  simp only [↓State.hub_mk, ↓State.hub_fold, ↓State.setSlot_hub]

theorem State.selDisable_hub (s : State) (d : Die) (g : Fin 8) : (State.selDisable s d g).hub = s.hub := by
  unfold State.selDisable
  simp only [↓State.hub_mk, ↓State.hub_fold]

theorem State.release_hub (s : State) (d : Die) : (State.release s d).hub = s.hub := by
  unfold State.release
  (repeat' split) <;> simp_all [↓State.setDie_hub, ↓State.setYrd_hub, ↓State.slotDisable_hub, ↓State.selDisable_hub, State.hub_foldl]

theorem State.setTrn_hub (s : State) (d : Die) (x : Trn) : (State.setTrn s d x).hub = s.hub := by
  unfold State.setTrn
  simp only [↓State.hub_mk, ↓State.hub_fold]

theorem State.setSel_hub (s : State) (d : Die) (g : Fin 8) (x : TrnSel) : (State.setSel s d g x).hub = s.hub := by
  unfold State.setSel
  simp only [↓State.hub_mk, ↓State.hub_fold]

theorem State.osvVelocity_hub (s : State) (b : Bay) : (State.osvVelocity s b).hub = s.hub := by
  unfold State.osvVelocity
  grind [State.hub_mk, State.velUpdate_hub, State.setOsv_hub]

theorem State.osvFine_hub (s : State) (b : Bay) : (State.osvFine s b).hub = s.hub := by
  unfold State.osvFine
  grind [State.hub_mk, State.setOsv_hub]

theorem State.coarseEnd_hub (s : State) (b : Bay) : (State.coarseEnd s b).hub = s.hub := by
  unfold State.coarseEnd
  grind [State.hub_mk, State.put_hub, State.setAxis_hub, State.setOsv_hub, State.moveEnd_hub]

theorem State.trackStart_hub (s : State) (b : Bay) : (State.trackStart s b).hub = s.hub := by
  unfold State.trackStart
  grind [State.hub_mk, State.setOsv_hub, State.slotRestart_hub]

theorem State.pendingStart_hub (s : State) (b : Bay) : (State.pendingStart s b).hub = s.hub := by
  unfold State.pendingStart
  grind [State.hub_mk, State.moveStart_hub]

theorem State.readSeek_hub (s : State) (b : Bay) : (State.readSeek s b).hub = s.hub := by
  unfold State.readSeek
  grind [State.hub_mk, State.moveStart_hub]

theorem State.osvTurn_hub (s : State) (b : Bay) (o : ServoObs) : (State.osvTurn s b o).hub = s.hub := by
  unfold State.osvTurn
  grind [State.hub_mk, State.bump_hub, State.setCru_hub, State.setRec_hub, State.setOsv_hub, State.osvVelocity_hub, State.osvFine_hub, State.coarseEnd_hub, State.trackStart_hub, State.pendingStart_hub, State.readSeek_hub]

theorem State.defectHold_hub (s : State) (b : Bay) (o : Bool) : (State.defectHold s b o).hub = s.hub := by
  unfold State.defectHold
  grind [State.hub_mk, State.setSlot_hub]

theorem State.turnGroups_hub (s : State) (d : Die) : (State.turnGroups s d).hub = s.hub := by
  unfold State.turnGroups
  (repeat' split) <;> simp_all [↓State.hub_ite, ↓State.activate_hub, ↓State.setOsv_hub, ↓State.saMove_hub, State.hub_foldl]

theorem State.slotBoundary_hub (s : State) (d : Die) (n : Fin 48) : (State.slotBoundary s d n).hub = s.hub := by
  unfold State.slotBoundary
  grind [State.hub_mk, State.setSlot_hub]

theorem State.ownerFault_hub (s : State) (d : Die) (n : Fin 48) : (State.ownerFault s d n).hub = s.hub := by
  unfold State.ownerFault
  grind [State.hub_mk, State.recPartial_hub, State.trackLost_hub]

theorem State.slotFault_hub (s : State) (d : Die) (n : Fin 48) : (State.slotFault s d n).hub = s.hub := by
  unfold State.slotFault
  simp only [↓State.bump_hub, ↓State.raiseDie_hub, ↓State.setSlot_hub, ↓State.ownerFault_hub]

theorem State.evalCounts_hub (s : State) (d : Die) (n : Fin 48) (sat slew : Bool) : (State.evalCounts s d n sat slew).hub =
    s.hub := by
  unfold State.evalCounts
  grind [State.hub_mk, State.bump_hub]

theorem State.evalSlot_hub (l s : State) (d : Die) (n : Fin 48) : (State.evalSlot l s d n).hub = s.hub := by
  unfold State.evalSlot
  grind [State.hub_mk, State.bump_hub, State.setSlot_hub, State.slotFault_hub, State.evalCounts_hub]

theorem State.select_hub (s : State) (d : Die) (g : Fin 8) (n : Fin 48) (prev : Int) : (State.select s d g n prev).hub =
    s.hub := by
  unfold State.select
  grind [State.hub_mk, State.bump_hub, State.setSlot_hub, State.setSel_hub, State.evalCounts_hub]

theorem State.trackLosers_hub (s : State) (d : Die) (g : Fin 8) : (State.trackLosers s d g).hub = s.hub := by
  unfold State.trackLosers
  (repeat' split) <;> simp_all [↓State.hub_ite, ↓State.setSlot_hub, State.hub_foldl]

theorem State.selectorOn_hub (s : State) (d : Die) (g : Fin 8) : (State.selectorOn s d g).hub = s.hub := by
  unfold State.selectorOn
  (repeat' split) <;> simp_all [↓State.hub_ite, ↓State.setSlot_hub, ↓State.setSel_hub, State.hub_foldl]

theorem State.selEmpty_hub (s : State) (d : Die) (g : Fin 8) : (State.selEmpty s d g).hub = s.hub := by
  unfold State.selEmpty
  grind [State.hub_mk, State.bump_hub, State.raiseDie_hub, State.setSel_hub]

theorem State.selPick_hub (s : State) (d : Die) (g : Fin 8) (live : List (Fin 48)) (keep : Option (Fin 48)) : (State.selPick
    s d g live keep).hub = s.hub := by
  unfold State.selPick
  grind [State.hub_mk, State.setSel_hub, State.select_hub]

theorem State.resolveSel_hub (s : State) (d : Die) (g : Fin 8) : (State.resolveSel s d g).hub = s.hub := by
  unfold State.resolveSel
  grind [State.hub_mk, State.setSel_hub, State.trackLosers_hub, State.selEmpty_hub, State.selPick_hub]

theorem State.selectors_hub (s : State) (d : Die) (due : List (Fin 48)) : (State.selectors s d due).hub = s.hub := by
  unfold State.selectors
  (repeat' split) <;> simp_all [↓State.hub_ite, ↓State.setSel_hub, ↓State.resolveSel_hub, State.hub_foldl]

theorem State.turnRun_hub (s : State) (d : Die) (adc : Vector ServoObs 2) : (State.turnRun s d adc).hub = s.hub := by
  unfold State.turnRun
  (repeat' split) <;> simp_all [↓State.hub_ite, ↓State.osvForces_hub, ↓State.enterSafe_hub, ↓State.setTrn_hub, ↓State.osvTurn_hub, ↓State.defectHold_hub, ↓State.turnGroups_hub, ↓State.slotBoundary_hub, ↓State.evalSlot_hub, ↓State.selectorOn_hub, ↓State.selectors_hub, State.hub_foldl]

theorem State.turn_hub (s : State) (d : Die) (adc : Vector ServoObs 2) : (State.turn s d adc).hub = s.hub := by
  unfold State.turn
  grind [State.hub_mk, State.turnRun_hub]

theorem execTurn_hub (d : Die) (adc : Vector ServoObs 2) (s : State) : ∃ t, (execTurn d adc s) = .next t ∧ t.hub = s.hub :=
    by
  unfold execTurn
  (repeat' split) <;> exact ⟨_, rfl, by simp only [↓State.turn_hub]⟩

theorem State.slotClear_hub (s : State) (d : Die) (n : Fin 48) : (State.slotClear s d n).hub = s.hub := by
  unfold State.slotClear
  grind [State.hub_mk, State.setSlot_hub]

theorem execTrnCmdClear_hub (d : Die) (n : Fin 48) (s : State) : ∃ t, (execTrnCmdClear d n s) = .next t ∧ t.hub = s.hub := by
  unfold execTrnCmdClear
  (repeat' split) <;> exact ⟨_, rfl, by simp only [↓State.slotClear_hub]⟩

theorem State.slotCmd_hub (s : State) (d : Die) (n : Fin 48) (w : Word) : (State.slotCmd s d n w).hub = s.hub := by
  unfold State.slotCmd
  grind [State.hub_mk, State.put_hub, State.slotClear_hub]

theorem execTrnCmdForce_hub (d : Die) (n : Fin 48) (value : Word) (s : State) : ∃ t, (execTrnCmdForce d n value s) = .next t
    ∧ t.hub = s.hub := by
  unfold execTrnCmdForce
  (repeat' split) <;> exact ⟨_, rfl, by simp only [↓State.slotCmd_hub]⟩

theorem execTrnSetWrite_hub (d : Die) (n : Fin 48) (value : Word) (s : State) : ∃ t, (execTrnSetWrite d n value s) = .next t
    ∧ t.hub = s.hub := by
  unfold execTrnSetWrite
  (repeat' split) <;> exact ⟨_, rfl, by simp only [↓State.put_hub]⟩

theorem State.trnCtl_hub (s : State) (d : Die) (w : Word) : (State.trnCtl s d w).1.hub = s.hub := by
  unfold State.trnCtl
  grind [State.hub_mk, State.put_hub, State.setTrn_hub]

theorem execTrnCtlWrite_hub (d : Die) (value : Word) (s : State) : ∃ t, (execTrnCtlWrite d value s) = .next t ∧ t.hub = s.hub
    := by
  unfold execTrnCtlWrite
  (repeat' split) <;> exact ⟨_, rfl, by simp only [↓State.trnCtl_hub]⟩

theorem State.bankWrite_hub (s : State) (d : Die) (n : Fin 48) (bank : Bool) (off : Nat) (w : Word) : (State.bankWrite s d n
    bank off w).1.hub = s.hub := by
  unfold State.bankWrite
  grind [State.hub_mk, State.writeWord_hub]

theorem execBankWordWrite_hub (d : Die) (n : Fin 48) (bank : Bool) (off : Nat) (value : Word) (s : State) : ∃ t,
    (execBankWordWrite d n bank off value s) = .next t ∧ t.hub = s.hub := by
  unfold execBankWordWrite
  (repeat' split) <;> exact ⟨_, rfl, by simp only [↓State.bankWrite_hub]⟩

theorem State.focEn_hub (s : State) (b : Bay) : (State.focEn s b).hub = s.hub := by
  unfold State.focEn
  grind [State.hub_mk, State.put_hub, State.focusOn_hub]

theorem execFocEnSet_hub (b : Bay) (s : State) : ∃ t, (execFocEnSet b s) = .next t ∧ t.hub = s.hub := by
  unfold execFocEnSet
  (repeat' split) <;> exact ⟨_, rfl, by simp only [↓State.focEn_hub]⟩

theorem execTrnOsvCtlWrite_hub (b : Bay) (value : Word) (s : State) : ∃ t, (execTrnOsvCtlWrite b value s) = .next t ∧ t.hub =
    s.hub := by
  unfold execTrnOsvCtlWrite
  (repeat' split) <;> exact ⟨_, rfl, by simp only [↓State.osvCtl_hub]⟩

theorem State.surfacePeak_hub (s : State) (b : Bay) : (State.surfacePeak s b).hub = s.hub := by
  unfold State.surfacePeak
  grind [State.hub_mk, State.setOsv_hub, State.focusCapture_hub]

theorem execSurfacePeak_hub (b : Bay) (s : State) : ∃ t, (execSurfacePeak b s) = .next t ∧ t.hub = s.hub := by
  unfold execSurfacePeak
  (repeat' split) <;> exact ⟨_, rfl, by simp only [↓State.surfacePeak_hub]⟩

theorem State.mountFail_hub (s : State) (b : Bay) : (State.mountFail s b).hub = s.hub := by
  unfold State.mountFail
  grind [State.hub_mk, State.endItem_hub, State.setLat_hub, State.setOsv_hub]

theorem State.sweepEnd_hub (s : State) (b : Bay) : (State.sweepEnd s b).hub = s.hub := by
  unfold State.sweepEnd
  grind [State.hub_mk, State.setOsv_hub, State.osvSweep_hub, State.focusRetry_hub, State.osvOff_hub, State.mountFail_hub]

theorem execSweepEnd_hub (b : Bay) (s : State) : ∃ t, (execSweepEnd b s) = .next t ∧ t.hub = s.hub := by
  unfold execSweepEnd
  (repeat' split) <;> exact ⟨_, rfl, by simp only [↓State.sweepEnd_hub]⟩

theorem State.focusLock_hub (s : State) (b : Bay) : (State.focusLock s b).hub = s.hub := by
  unfold State.focusLock
  grind [State.hub_mk, State.setOsv_hub]

theorem execFocusLock_hub (b : Bay) (s : State) : ∃ t, (execFocusLock b s) = .next t ∧ t.hub = s.hub := by
  unfold execFocusLock
  (repeat' split) <;> exact ⟨_, rfl, by simp only [↓State.focusLock_hub]⟩

theorem State.captureTimeout_hub (s : State) (b : Bay) : (State.captureTimeout s b).hub = s.hub := by
  unfold State.captureTimeout
  grind [State.hub_mk, State.moveEnd_hub, State.focusRetry_hub]

theorem execCaptureTimeout_hub (b : Bay) (s : State) : ∃ t, (execCaptureTimeout b s) = .next t ∧ t.hub = s.hub := by
  unfold execCaptureTimeout
  (repeat' split) <;> exact ⟨_, rfl, by simp only [↓State.captureTimeout_hub]⟩

theorem State.focusLoss_hub (s : State) (b : Bay) : (State.focusLoss s b).hub = s.hub := by
  unfold State.focusLoss
  grind [State.hub_mk, State.focusLost_hub]

theorem execTrnFocusLost_hub (b : Bay) (s : State) : ∃ t, (execTrnFocusLost b s) = .next t ∧ t.hub = s.hub := by
  unfold execTrnFocusLost
  (repeat' split) <;> exact ⟨_, rfl, by simp only [↓State.focusLoss_hub]⟩

theorem execHoldRecovery_hub (b : Bay) (s : State) : ∃ t, (execHoldRecovery b s) = .next t ∧ t.hub = s.hub := by
  unfold execHoldRecovery
  (repeat' split) <;> exact ⟨_, rfl, by simp only [↓State.focusCapture_hub]⟩

theorem execHoldTimeout_hub (b : Bay) (s : State) : ∃ t, (execHoldTimeout b s) = .next t ∧ t.hub = s.hub := by
  unfold execHoldTimeout
  (repeat' split) <;> exact ⟨_, rfl, by simp only [↓State.focusRetry_hub]⟩

theorem State.lockDone_hub (s : State) (b : Bay) : (State.lockDone s b).hub = s.hub := by
  unfold State.lockDone
  grind [State.hub_mk, State.setOsv_hub, State.moveEnd_hub, State.layerKick_hub, State.layerArrived_hub]

theorem State.trackLock_hub (s : State) (b : Bay) : (State.trackLock s b).hub = s.hub := by
  unfold State.trackLock
  grind [State.hub_mk, State.sfeAcquire_hub, State.latAcquire_hub, State.setOsv_hub, State.lockDone_hub]

theorem execTrackingLock_hub (b : Bay) (s : State) : ∃ t, (execTrackingLock b s) = .next t ∧ t.hub = s.hub := by
  unfold execTrackingLock
  (repeat' split) <;> exact ⟨_, rfl, by simp only [↓State.trackLock_hub]⟩

theorem State.jumpFail_hub (s : State) (b : Bay) : (State.jumpFail s b).hub = s.hub := by
  unfold State.jumpFail
  simp only [↓State.bump_hub, ↓State.setOsv_hub, ↓State.moveEnd_hub]

theorem State.spiralCheck_hub (s : State) (b : Bay) (addr check : Nat) : (State.spiralCheck s b addr check).hub = s.hub := by
  unfold State.spiralCheck
  grind [State.hub_mk, State.bump_hub, State.setOsv_hub, State.trackKick_hub, State.moveStart_hub, State.lockDone_hub, State.jumpFail_hub]

theorem execSpiralCheck_hub (b : Bay) (addr check : Nat) (s : State) : ∃ t, (execSpiralCheck b addr check s) = .next t ∧
    t.hub = s.hub := by
  unfold execSpiralCheck
  (repeat' split) <;> exact ⟨_, rfl, by simp only [↓State.spiralCheck_hub]⟩

theorem State.grooveSearch_hub (s : State) (b : Bay) (found : Bool) : (State.grooveSearch s b found).hub = s.hub := by
  unfold State.grooveSearch
  grind [State.hub_mk, State.put_hub, State.mountFail_hub]

theorem execGrooveSearch_hub (b : Bay) (found : Bool) (s : State) : ∃ t, (execGrooveSearch b found s) = .next t ∧ t.hub =
    s.hub := by
  unfold execGrooveSearch
  (repeat' split) <;> exact ⟨_, rfl, by simp only [↓State.grooveSearch_hub]⟩

theorem State.moveWrite_hub (s : State) (b : Bay) (m : Manoeuvre) : (State.moveWrite s b m).hub = s.hub := by
  unfold State.moveWrite
  grind [State.hub_mk, State.put_hub, State.moveRequest_hub]

theorem execMoveReacquire_hub (b : Bay) (s : State) : ∃ t, (execMoveReacquire b s) = .next t ∧ t.hub = s.hub := by
  unfold execMoveReacquire
  (repeat' split) <;> exact ⟨_, rfl, by simp only [↓State.moveWrite_hub]⟩

theorem execMoveLayer_hub (b : Bay) (layer : Fin 16) (s : State) : ∃ t, (execMoveLayer b layer s) = .next t ∧ t.hub = s.hub
    := by
  unfold execMoveLayer
  (repeat' split) <;> exact ⟨_, rfl, by simp only [↓State.moveWrite_hub]⟩

theorem execMoveTrack_hub (b : Bay) (turns : Int) (s : State) : ∃ t, (execMoveTrack b turns s) = .next t ∧ t.hub = s.hub :=
    by
  unfold execMoveTrack
  (repeat' split) <;> exact ⟨_, rfl, by simp only [↓State.moveWrite_hub]⟩

theorem execMoveSeek_hub (b : Bay) (layer : Fin 16) (area slot : Nat) (s : State) : ∃ t, (execMoveSeek b layer area slot s) =
    .next t ∧ t.hub = s.hub := by
  unfold execMoveSeek
  (repeat' split) <;> exact ⟨_, rfl, by simp only [↓State.moveWrite_hub]⟩

theorem State.layerBrake_hub (s : State) (b : Bay) : (State.layerBrake s b).hub = s.hub := by
  unfold State.layerBrake
  grind [State.hub_mk, State.setOsv_hub, State.layerKick_hub]

theorem execLayerJumpBrake_hub (b : Bay) (s : State) : ∃ t, (execLayerJumpBrake b s) = .next t ∧ t.hub = s.hub := by
  unfold execLayerJumpBrake
  (repeat' split) <;> exact ⟨_, rfl, by simp only [↓State.layerBrake_hub]⟩

theorem State.layerBrakeEnd_hub (s : State) (b : Bay) : (State.layerBrakeEnd s b).hub = s.hub := by
  unfold State.layerBrakeEnd
  grind [State.hub_mk, State.setOsv_hub, State.focusCapture_hub, State.layerBrake_hub]

theorem execLayerJumpBrakeEnd_hub (b : Bay) (s : State) : ∃ t, (execLayerJumpBrakeEnd b s) = .next t ∧ t.hub = s.hub := by
  unfold execLayerJumpBrakeEnd
  (repeat' split) <;> exact ⟨_, rfl, by simp only [↓State.layerBrakeEnd_hub]⟩

theorem execLjTimeout_hub (b : Bay) (s : State) : ∃ t, (execLjTimeout b s) = .next t ∧ t.hub = s.hub := by
  unfold execLjTimeout
  (repeat' split) <;> exact ⟨_, rfl, by simp only [↓State.jumpFail_hub]⟩

theorem State.trackBrake_hub (s : State) (b : Bay) : (State.trackBrake s b).hub = s.hub := by
  unfold State.trackBrake
  grind [State.hub_mk, State.setOsv_hub, State.trackKick_hub]

theorem execTrackJumpBrake_hub (b : Bay) (s : State) : ∃ t, (execTrackJumpBrake b s) = .next t ∧ t.hub = s.hub := by
  unfold execTrackJumpBrake
  (repeat' split) <;> exact ⟨_, rfl, by simp only [↓State.trackBrake_hub]⟩

theorem State.seekLanding_hub (s : State) (b : Bay) (slot : Nat) : (State.seekLanding s b slot).hub = s.hub := by
  unfold State.seekLanding
  grind [State.hub_mk, State.bump_hub, State.setOsv_hub, State.moveEnd_hub, State.seekStep_hub]

theorem execSeekLanding_hub (b : Bay) (slot : Nat) (s : State) : ∃ t, (execSeekLanding b slot s) = .next t ∧ t.hub = s.hub :=
    by
  unfold execSeekLanding
  (repeat' split) <;> exact ⟨_, rfl, by simp only [↓State.seekLanding_hub]⟩

end Sys2Proof.Machine
end

