-- ==== Sys2Proof/Laws/Hub4.lean ====
section
/-! SUPPORT. Commands of the field side leave the hub alone: lemmas of Yarder, FrontEnd, Axes, Cruise, FieldRegs, KrfOps,
Landing. -/
namespace Sys2Proof.Machine

set_option linter.unusedSimpArgs false
set_option linter.unusedTactic false
set_option linter.unnecessarySeqFocus false
set_option linter.unreachableTactic false

theorem State.homeEdge_hub (s : State) (d : Die) (n : Fin 8) (level : Bool) (cap : Int) : (State.homeEdge s d n level
    cap).hub = s.hub := by
  unfold State.homeEdge
  grind [State.hub_mk, State.setAxis_hub, State.release_hub]

theorem State.limitEdge_hub (s : State) (d : Die) (n : Fin 8) (high level : Bool) : (State.limitEdge s d n high level).hub =
    s.hub := by
  unfold State.limitEdge
  grind [State.hub_mk, State.setAxis_hub, State.axFault_hub, State.grpStop_hub]

theorem State.discEdge_hub (s : State) (level : Bool) : (State.discEdge s level).hub = s.hub := by
  unfold State.discEdge
  grind [State.hub_mk, State.bump_hub, State.raiseDie_hub, State.setYrd_hub, State.yrdFault_hub]

theorem State.switchActs_hub (s : State) (d : Die) (k : Fin 12) (level : Bool) (cap : Int) : (State.switchActs s d k level
    cap).hub = s.hub := by
  unfold State.switchActs
  grind [State.hub_mk, State.setYrd_hub, State.gripContact_hub, State.homeEdge_hub, State.limitEdge_hub, State.discEdge_hub]

theorem State.switchConfirm_hub (s : State) (d : Die) (k : Fin 12) : (State.switchConfirm s d k).hub = s.hub := by
  unfold State.switchConfirm
  simp only [↓State.hub_mk, ↓State.hub_fold, ↓State.hub_ite, ↓State.hub_fst_ite, ↓State.setAxis_hub, ↓State.setSwitch_hub, ↓State.axFault_hub, ↓State.grpStop_hub, ↓State.switchActs_hub]
  (repeat' split) <;> simp only [↓State.hub_mk, ↓State.hub_fold, ↓State.hub_ite, ↓State.hub_fst_ite, ↓State.setAxis_hub, ↓State.setSwitch_hub, ↓State.axFault_hub, ↓State.grpStop_hub, ↓State.switchActs_hub, ite_self]

theorem execSwitchConfirm_hub (d : Die) (k : Fin 12) (s : State) : ∃ t, (execSwitchConfirm d k s) = .next t ∧ t.hub = s.hub
    := by
  unfold execSwitchConfirm
  (repeat' split) <;> exact ⟨_, rfl, by simp only [↓State.yrdWatch_hub, ↓State.switchConfirm_hub]⟩

theorem execTransferStepDone_hub (s : State) : ∃ t, (execTransferStepDone s) = .next t ∧ t.hub = s.hub := by
  unfold execTransferStepDone
  (repeat' split) <;> exact ⟨_, rfl, by simp only [↓State.yrdAdvance_hub]⟩

theorem execHeadDiscTimeout_hub (s : State) : ∃ t, (execHeadDiscTimeout s) = .next t ∧ t.hub = s.hub := by
  unfold execHeadDiscTimeout
  (repeat' split) <;> exact ⟨_, rfl, by simp only [↓State.putAway_hub]⟩

theorem State.doorOpen_hub (s : State) : (State.doorOpen s).hub = s.hub := by
  unfold State.doorOpen
  grind [State.hub_mk, State.bump_hub, State.raiseDie_hub, State.stopAxes_hub, State.setYrd_hub]

theorem execYrdDoorOpen_hub (s : State) : ∃ t, (execYrdDoorOpen s) = .next t ∧ t.hub = s.hub := by
  unfold execYrdDoorOpen
  (repeat' split) <;> exact ⟨_, rfl, by simp only [↓State.doorOpen_hub]⟩

theorem State.axesResume_hub (s : State) : (State.axesResume s).hub = s.hub := by
  unfold State.axesResume
  (repeat' split) <;> simp_all [↓State.hub_ite, ↓State.axResume_hub, ↓State.grpResume_hub, ↓State.gripOpen_hub, State.hub_foldl]

theorem State.transferBack_hub (s : State) : (State.transferBack s).hub = s.hub := by
  unfold State.transferBack
  grind [State.hub_mk, State.setYrd_hub, State.swing_hub, State.yrdFault_hub, State.putAway_hub, State.startMotion_hub]

theorem State.doorSettled_hub (s : State) : (State.doorSettled s).hub = s.hub := by
  unfold State.doorSettled
  grind [State.hub_mk, State.setYrd_hub, State.yrdIdle_hub, State.placeOrphan_hub, State.yrdHome_hub, State.axesResume_hub, State.transferBack_hub]

theorem execDoorSettled_hub (s : State) : ∃ t, (execDoorSettled s) = .next t ∧ t.hub = s.hub := by
  unfold execDoorSettled
  (repeat' split) <;> exact ⟨_, rfl, by simp only [↓State.doorSettled_hub]⟩

theorem State.doorTimeout_hub (s : State) : (State.doorTimeout s).hub = s.hub := by
  unfold State.doorTimeout
  grind [State.hub_mk, State.endItem_hub, State.setYrd_hub]

theorem execDoorTimeout_hub (s : State) : ∃ t, (execDoorTimeout s) = .next t ∧ t.hub = s.hub := by
  unfold execDoorTimeout
  (repeat' split) <;> exact ⟨_, rfl, by simp only [↓State.doorTimeout_hub]⟩

theorem State.inventory_hub (s : State) : (State.inventory s).hub = s.hub := by
  unfold State.inventory
  grind [State.hub_mk, State.setYrd_hub, State.yrdNext_hub, State.yrdIdle_hub]

theorem execInventory_hub (s : State) : ∃ t, (execInventory s) = .next t ∧ t.hub = s.hub := by
  unfold execInventory
  (repeat' split) <;> exact ⟨_, rfl, by simp only [↓State.inventory_hub]⟩

theorem State.deckScanned_hub (s : State) (seen : List Nat) : (State.deckScanned s seen).hub = s.hub := by
  unfold State.deckScanned
  grind [State.hub_mk, State.setYrd_hub, State.yrdIdle_hub, State.inventory_hub]

theorem execDeckScanned_hub (seen : List Nat) (s : State) : ∃ t, (execDeckScanned seen s) = .next t ∧ t.hub = s.hub := by
  unfold execDeckScanned
  (repeat' split) <;> exact ⟨_, rfl, by simp only [↓State.deckScanned_hub]⟩

theorem State.yrdPowerUp_hub (s : State) : (State.yrdPowerUp s).hub = s.hub := by
  unfold State.yrdPowerUp
  grind [State.hub_mk, State.setYrd_hub, State.yrdHome_hub]

theorem execYarderPowerUpHoming_hub (s : State) : ∃ t, (execYarderPowerUpHoming s) = .next t ∧ t.hub = s.hub := by
  unfold execYarderPowerUpHoming
  (repeat' split) <;> exact ⟨_, rfl, by simp only [↓State.yrdPowerUp_hub]⟩

theorem State.yrdCtl_hub (s : State) (w : Word) : (State.yrdCtl s w).hub = s.hub := by
  unfold State.yrdCtl
  simp only [↓State.put_hub, ↓State.yrdNext_hub]

theorem execYrdCtlWrite_hub (value : Word) (s : State) : ∃ t, (execYrdCtlWrite value s) = .next t ∧ t.hub = s.hub := by
  unfold execYrdCtlWrite
  (repeat' split) <;> exact ⟨_, rfl, by simp only [↓State.yrdCtl_hub]⟩

theorem State.spotCodes_hub (s : State) (b : Bay) (k : Fin 7) (x : SfeSpot) : (State.spotCodes s b k x).hub = s.hub := by
  unfold State.spotCodes
  simp only [↓State.put_hub]

theorem State.spotBlock_hub (s : State) (b : Bay) (k : Fin 7) (raw : List Int) : (State.spotBlock s b k raw).hub = s.hub :=
    by
  unfold State.spotBlock
  grind [State.hub_mk, State.setSpot_hub, State.spotCodes_hub]

theorem State.sfeBlock_hub (s : State) (b : Bay) (raw : Vector (List Int) 7) : (State.sfeBlock s b raw).hub = s.hub := by
  unfold State.sfeBlock
  (repeat' split) <;> simp_all [↓State.hub_ite, ↓State.bump_hub, ↓State.raiseBay_hub, ↓State.activate_hub, ↓State.setSfe_hub, ↓State.spotBlock_hub, State.hub_foldl]

theorem execSfeBlockBoundary_hub (b : Bay) (raw : Vector (List Int) 7) (s : State) : ∃ t, (execSfeBlockBoundary b raw s) =
    .next t ∧ t.hub = s.hub := by
  unfold execSfeBlockBoundary
  (repeat' split) <;> exact ⟨_, rfl, by simp only [↓State.sfeBlock_hub]⟩

theorem State.snagSet_hub (s : State) (b : Bay) (k : Fin 7) (e lw : List Rat) : (State.snagSet s b k e lw).hub = s.hub := by
  unfold State.snagSet
  (repeat' split) <;> simp_all [↓State.hub_mk, ↓State.hub_fold, ↓State.hub_ite, ↓State.bump_hub, ↓State.setSpot_hub, ↓State.fcIssue_hub]

theorem execSnagSet_hub (b : Bay) (k : Fin 7) (e lw : List Rat) (s : State) : ∃ t, (execSnagSet b k e lw s) = .next t ∧ t.hub
    = s.hub := by
  unfold execSnagSet
  (repeat' split) <;> exact ⟨_, rfl, by simp only [↓State.snagSet_hub]⟩

theorem State.snagClear_hub (s : State) (b : Bay) (k : Fin 7) (e lw : List Rat) : (State.snagClear s b k e lw).hub = s.hub :=
    by
  unfold State.snagClear
  grind [State.hub_mk, State.setSpot_hub, State.fcClose_hub]

theorem execSnagClear_hub (b : Bay) (k : Fin 7) (e lw : List Rat) (s : State) : ∃ t, (execSnagClear b k e lw s) = .next t ∧
    t.hub = s.hub := by
  unfold execSnagClear
  (repeat' split) <;> exact ⟨_, rfl, by simp only [↓State.snagClear_hub]⟩

theorem State.longSnag_hub (s : State) (b : Bay) (k : Fin 7) : (State.longSnag s b k).hub = s.hub := by
  unfold State.longSnag
  (repeat' split) <;> simp_all [↓State.hub_mk, ↓State.hub_fold, ↓State.hub_ite, ↓State.bump_hub, ↓State.raiseBay_hub, ↓State.setSpot_hub]

theorem execLongSnag_hub (b : Bay) (k : Fin 7) (s : State) : ∃ t, (execLongSnag b k s) = .next t ∧ t.hub = s.hub := by
  unfold execLongSnag
  (repeat' split) <;> exact ⟨_, rfl, by simp only [↓State.longSnag_hub]⟩

theorem State.fcOpen_hub (s : State) (b : Bay) (k : Fin 7) : (State.fcOpen s b k).hub = s.hub := by
  unfold State.fcOpen
  simp only [↓State.hub_mk, ↓State.hub_fold, ↓State.hub_ite, ↓State.hub_fst_ite, ↓State.setSpot_hub]
  (repeat' split) <;> simp only [↓State.hub_mk, ↓State.hub_fold, ↓State.hub_ite, ↓State.hub_fst_ite, ↓State.setSpot_hub, ite_self]

theorem execForecastWindowOpen_hub (b : Bay) (k : Fin 7) (s : State) : ∃ t, (execForecastWindowOpen b k s) = .next t ∧ t.hub
    = s.hub := by
  unfold execForecastWindowOpen
  (repeat' split) <;> exact ⟨_, rfl, by simp only [↓State.fcOpen_hub]⟩

theorem State.fcEnd_hub (s : State) (b : Bay) (k : Fin 7) : (State.fcEnd s b k).hub = s.hub := by
  unfold State.fcEnd
  grind [State.hub_mk, State.setSpot_hub]

theorem execForecastWindowClose_hub (b : Bay) (k : Fin 7) (s : State) : ∃ t, (execForecastWindowClose b k s) = .next t ∧
    t.hub = s.hub := by
  unfold execForecastWindowClose
  (repeat' split) <;> exact ⟨_, rfl, by simp only [↓State.fcEnd_hub]⟩

theorem execSfeVelReplaced_hub (b : Bay) (s : State) : ∃ t, (execSfeVelReplaced b s) = .next t ∧ t.hub = s.hub := by
  unfold execSfeVelReplaced
  (repeat' split) <;> exact ⟨_, rfl, by simp only [↓State.velSuspend_hub]⟩

theorem State.thermistorReading_hub (s : State) (b : Bay) (ohm : Option Nat) : (State.thermistorReading s b ohm).hub = s.hub
    := by
  unfold State.thermistorReading
  grind [State.hub_mk, State.put_hub, State.setSfe_hub, State.tempReplace_hub]

theorem execThermistorReading_hub (b : Bay) (ohm : Option Nat) (s : State) : ∃ t, (execThermistorReading b ohm s) = .next t ∧
    t.hub = s.hub := by
  unfold execThermistorReading
  (repeat' split) <;> exact ⟨_, rfl, by simp only [↓State.thermistorReading_hub]⟩

theorem execSfeTempReplaced_hub (b : Bay) (s : State) : ∃ t, (execSfeTempReplaced b s) = .next t ∧ t.hub = s.hub := by
  unfold execSfeTempReplaced
  (repeat' split) <;> exact ⟨_, rfl, by simp only [↓State.tempReplace_hub]⟩

theorem State.acqEnd_hub (s : State) (b : Bay) : (State.acqEnd s b).hub = s.hub := by
  unfold State.acqEnd
  grind [State.hub_mk, State.setSfe_hub]

theorem execAcquisitionEnd_hub (b : Bay) (s : State) : ∃ t, (execAcquisitionEnd b s) = .next t ∧ t.hub = s.hub := by
  unfold execAcquisitionEnd
  (repeat' split) <;> exact ⟨_, rfl, by simp only [↓State.acqEnd_hub]⟩

theorem State.spotLoopWrite_hub (s : State) (b : Bay) (k : Fin 7) (w : Word) : (State.spotLoopWrite s b k w).hub = s.hub :=
    by
  unfold State.spotLoopWrite
  grind [State.hub_mk, State.setSpot_hub]

theorem execSfeSpotLoopWrite_hub (b : Bay) (k : Fin 7) (w : Word) (s : State) : ∃ t, (execSfeSpotLoopWrite b k w s) = .next t
    ∧ t.hub = s.hub := by
  unfold execSfeSpotLoopWrite
  (repeat' split) <;> exact ⟨_, rfl, by simp only [↓State.spotLoopWrite_hub]⟩

theorem State.afeWrite_hub (s : State) (b : Bay) (w : Word) : (State.afeWrite s b w).hub = s.hub := by
  unfold State.afeWrite
  grind [State.hub_mk, State.put_hub]

theorem execSfeAfeWrite_hub (b : Bay) (w : Word) (s : State) : ∃ t, (execSfeAfeWrite b w s) = .next t ∧ t.hub = s.hub := by
  unfold execSfeAfeWrite
  (repeat' split) <;> exact ⟨_, rfl, by simp only [↓State.afeWrite_hub]⟩

theorem execProfileTick_hub (d : Die) (s : State) : ∃ t, (execProfileTick d s) = .next t ∧ t.hub = s.hub := by
  unfold execProfileTick
  (repeat' split) <;> exact ⟨_, rfl, by simp only [↓State.profileTick_hub, ↓State.yrdWatch_hub, ↓State.yrdHoming_hub]⟩

theorem execAxpMove_hub (d : Die) (n : Fin 8) (s : State) : ∃ t, (execAxpMove d n s) = .next t ∧ t.hub = s.hub := by
  unfold execAxpMove
  (repeat' split) <;> exact ⟨_, rfl, by simp only [↓State.axMoveTo_hub]⟩

theorem execAxpStop_hub (d : Die) (n : Fin 8) (s : State) : ∃ t, (execAxpStop d n s) = .next t ∧ t.hub = s.hub := by
  unfold execAxpStop
  (repeat' split) <;> exact ⟨_, rfl, by simp only [↓State.axRefuse_hub, ↓State.axStop_hub]⟩

theorem execAxpResume_hub (d : Die) (n : Fin 8) (s : State) : ∃ t, (execAxpResume d n s) = .next t ∧ t.hub = s.hub := by
  unfold execAxpResume
  (repeat' split) <;> exact ⟨_, rfl, by simp only [↓State.axResume_hub]⟩

theorem execAxpHome_hub (d : Die) (n : Fin 8) (s : State) : ∃ t, (execAxpHome d n s) = .next t ∧ t.hub = s.hub := by
  unfold execAxpHome
  (repeat' split) <;> exact ⟨_, rfl, by simp only [↓State.axHome_hub]⟩

theorem State.axClrFault_hub (s : State) (d : Die) (n : Fin 8) : (State.axClrFault s d n).hub = s.hub := by
  unfold State.axClrFault
  grind [State.hub_mk, State.setAxis_hub, State.axRefuse_hub]

theorem execAxpClrFault_hub (d : Die) (n : Fin 8) (s : State) : ∃ t, (execAxpClrFault d n s) = .next t ∧ t.hub = s.hub := by
  unfold execAxpClrFault
  (repeat' split) <;> exact ⟨_, rfl, by simp only [↓State.axClrFault_hub]⟩

theorem State.axCtl_hub (s : State) (d : Die) (n : Fin 8) (w : Word) : (State.axCtl s d n w).hub = s.hub := by
  unfold State.axCtl
  grind [State.hub_mk, State.put_hub, State.setAxis_hub, State.axDisable_hub, State.grpStop_hub]

theorem execAxpCtlWrite_hub (d : Die) (n : Fin 8) (value : Word) (s : State) : ∃ t, (execAxpCtlWrite d n value s) = .next t ∧
    t.hub = s.hub := by
  unfold execAxpCtlWrite
  (repeat' split) <;> exact ⟨_, rfl, by simp only [↓State.axCtl_hub]⟩

theorem execGrpMove_hub (d : Die) (g : Fin 4) (s : State) : ∃ t, (execGrpMove d g s) = .next t ∧ t.hub = s.hub := by
  unfold execGrpMove
  (repeat' split) <;> exact ⟨_, rfl, by simp only [↓State.grpMove_hub]⟩

theorem execGrpStop_hub (d : Die) (g : Fin 4) (s : State) : ∃ t, (execGrpStop d g s) = .next t ∧ t.hub = s.hub := by
  unfold execGrpStop
  (repeat' split) <;> exact ⟨_, rfl, by simp only [↓State.grpStop_hub]⟩

theorem execGrpResume_hub (d : Die) (g : Fin 4) (s : State) : ∃ t, (execGrpResume d g s) = .next t ∧ t.hub = s.hub := by
  unfold execGrpResume
  (repeat' split) <;> exact ⟨_, rfl, by simp only [↓State.grpResume_hub]⟩

theorem execSwitchRawEdge_hub (d : Die) (k : Fin 12) (active : Bool) (s : State) : ∃ t, (execSwitchRawEdge d k active s) =
    .next t ∧ t.hub = s.hub := by
  unfold execSwitchRawEdge
  (repeat' split) <;> exact ⟨_, rfl, by simp only [↓State.setSwitch_hub]⟩

theorem execCruNow_hub (b : Bay) (s : State) : ∃ t, (execCruNow b s) = .next t ∧ t.hub = s.hub := by
  unfold execCruNow
  (repeat' split) <;> exact ⟨_, rfl, by simp only [↓State.cruRaise_hub]⟩

theorem State.cruTempCheck_hub (s : State) (b : Bay) : (State.cruTempCheck s b).hub = s.hub := by
  unfold State.cruTempCheck
  grind [State.hub_mk, State.cruRaise_hub]

theorem execCruTempCheck_hub (b : Bay) (s : State) : ∃ t, (execCruTempCheck b s) = .next t ∧ t.hub = s.hub := by
  unfold execCruTempCheck
  (repeat' split) <;> exact ⟨_, rfl, by simp only [↓State.cruTempCheck_hub]⟩

theorem State.cruResume_hub (s : State) (b : Bay) (r : CruRun) : (State.cruResume s b r).hub = s.hub := by
  unfold State.cruResume
  grind [State.hub_mk, State.setCru_hub, State.cruBorrow_hub, State.cruNext_hub, State.cruAdvance_hub, State.release_hub]

theorem State.cruStart_hub (s : State) (b : Bay) : (State.cruStart s b).hub = s.hub := by
  unfold State.cruStart
  grind [State.hub_mk, State.put_hub, State.activate_hub, State.setCru_hub, State.cruNext_hub, State.cruResume_hub]

theorem execCruRunStart_hub (b : Bay) (s : State) : ∃ t, (execCruRunStart b s) = .next t ∧ t.hub = s.hub := by
  unfold execCruRunStart
  (repeat' split) <;> exact ⟨_, rfl, by simp only [↓State.cruStart_hub]⟩

theorem State.cruStarve_hub (s : State) (b : Bay) : (State.cruStarve s b).hub = s.hub := by
  unfold State.cruStarve
  grind [State.hub_mk, State.bump_hub, State.raiseBay_hub, State.setCru_hub]

theorem execCruStarved_hub (b : Bay) (s : State) : ∃ t, (execCruStarved b s) = .next t ∧ t.hub = s.hub := by
  unfold execCruStarved
  (repeat' split) <;> exact ⟨_, rfl, by simp only [↓State.cruStarve_hub]⟩

theorem execCruPointMeasured_hub (b : Bay) (m : CruMeasured) (s : State) : ∃ t, (execCruPointMeasured b m s) = .next t ∧
    t.hub = s.hub := by
  unfold execCruPointMeasured
  (repeat' split) <;> exact ⟨_, rfl, by simp only [↓State.cruPoint_hub]⟩

theorem State.cruRelease_hub (s : State) (b : Bay) : (State.cruRelease s b).hub = s.hub := by
  unfold State.cruRelease
  grind [State.hub_mk, State.cruReturn_hub, State.cruAdvance_hub, State.release_hub]

theorem execCruSpotRelease_hub (b : Bay) (s : State) : ∃ t, (execCruSpotRelease b s) = .next t ∧ t.hub = s.hub := by
  unfold execCruSpotRelease
  (repeat' split) <;> exact ⟨_, rfl, by simp only [↓State.cruRelease_hub]⟩

theorem State.stageTaps_hub (s : State) (b : Bay) (layer : Nat) (k : Fin 7) (u v : List Int) : (State.stageTaps s b layer k u
    v).hub = s.hub := by
  unfold State.stageTaps
  (repeat' split) <;> simp_all [↓State.stage_hub, State.hub_foldl]

theorem State.cruSnapshot_hub (s : State) (b : Bay) : (State.cruSnapshot s b).hub = s.hub := by
  unfold State.cruSnapshot
  extract_lets x
  split
  · rfl
  · rename_i r _
    have h1 : ∀ l : List (Fin 7 × List Int × List Int), (l.foldl (fun t e =>
        if tapsAgree e.2.1 e.2.2 then t.stageTaps b r.layer e.1 e.2.1 e.2.2 else t.cruFlag b .taps e.1 .disagree) s).hub = s.hub :=
      fun l => State.hub_foldl _ _ _ fun t e => by
        split
        · exact State.stageTaps_hub _ _ _ _ _ _
        · exact State.cruFlag_hub _ _ _ _ _
    split
    · split
      · rfl
      · exact State.setCru_hub _ _ _
    · split
      · rfl
      · simp only [State.cruAdvance_hub, ↓State.hub_ite, State.cruCommit_hub, h1, ite_self]
    · rfl

theorem execCruTapSnapshot_hub (b : Bay) (s : State) : ∃ t, (execCruTapSnapshot b s) = .next t ∧ t.hub = s.hub := by
  unfold execCruTapSnapshot
  (repeat' split) <;> exact ⟨_, rfl, by simp only [↓State.cruSnapshot_hub]⟩

theorem execCruRunAbort_hub (b : Bay) (s : State) : ∃ t, (execCruRunAbort b s) = .next t ∧ t.hub = s.hub := by
  unfold execCruRunAbort
  (repeat' split) <;> exact ⟨_, rfl, by simp only [↓State.cruAbort_hub]⟩

theorem State.cruDarkPhase_hub (s : State) (b : Bay) (m : List (Vector DarkMeans 7 × Vector DarkMeans 7)) :
    (State.cruDarkPhase s b m).hub = s.hub := by
  unfold State.cruDarkPhase
  simp only [↓State.hub_mk, ↓State.hub_fold, ↓State.hub_ite, ↓State.hub_fst_ite, ↓State.bumpBy_hub, ↓State.cruFlag_hub, ↓State.cruTake_hub, ↓State.cruCommit_hub]
  (repeat' split) <;> (try refine (State.hub_foldl _ _ _ fun t x => ?_).trans ?_) <;> (try dsimp only) <;> (repeat' split) <;> (try simp only [↓State.hub_mk, ↓State.hub_fold, ↓State.hub_ite, ↓State.hub_fst_ite, ↓State.bumpBy_hub, ↓State.cruFlag_hub, ↓State.cruTake_hub, ↓State.cruCommit_hub]) <;> grind [State.hub_mk, State.bumpBy_hub, State.cruFlag_hub, State.cruTake_hub, State.cruCommit_hub]

theorem execMountDarkPhase_hub (b : Bay) (m : List (Vector DarkMeans 7 × Vector DarkMeans 7)) (s : State) : ∃ t,
    (execMountDarkPhase b m s) = .next t ∧ t.hub = s.hub := by
  unfold execMountDarkPhase
  (repeat' split) <;> exact ⟨_, rfl, by simp only [↓State.cruDarkPhase_hub]⟩

theorem State.cruQuality_hub (s : State) (b : Bay) : (State.cruQuality s b).hub = s.hub := by
  unfold State.cruQuality
  grind [State.hub_mk, State.drawn_hub, State.put_hub, State.setCru_hub]

theorem execCruQualityUpdate_hub (b : Bay) (s : State) : ∃ t, (execCruQualityUpdate b s) = .next t ∧ t.hub = s.hub := by
  unfold execCruQualityUpdate
  (repeat' split) <;> exact ⟨_, rfl, by simp only [↓State.cruQuality_hub]⟩

theorem State.commitWrite_hub (s : State) (g : Group) (w : Word) : (State.commitWrite s g w).hub = s.hub := by
  unfold State.commitWrite
  grind [State.hub_mk, State.put_hub, State.commitSet_hub]

theorem State.setPort_hub (s : State) (d : Die) (p : Port) : (State.setPort s d p).hub = s.hub := by
  unfold State.setPort
  simp only [↓State.hub_mk, ↓State.hub_fold]

theorem State.setTxEnd_hub (s : State) (d : Die) (x : Side) (t : TxEnd) : (State.setTxEnd s d x t).hub = s.hub := by
  unfold State.setTxEnd
  simp only [↓State.setPort_hub]

theorem State.creditSeen_hub (s : State) (d : Die) (x : Side) (ack : Nat) (units : Vector Nat 5) : (State.creditSeen s d x
    ack units).hub = s.hub := by
  unfold State.creditSeen
  simp only [↓State.setTxEnd_hub]

theorem State.refusedAtDie_hub (s : State) (d : Die) (type : Nat) (w : Word64) (cls : KClass) : (State.refusedAtDie s d type
    w cls).hub = s.hub := by
  unfold State.refusedAtDie
  grind [State.hub_mk, State.send_hub, State.endItem_hub]

theorem State.txctlWrite_hub (s : State) (d : Die) (w : Word) : (State.txctlWrite s d w).hub = s.hub := by
  unfold State.txctlWrite
  grind [State.hub_mk, State.put_hub, State.setPort_hub]

theorem State.rxctlWrite_hub (s : State) (d : Die) (w : Word) : (State.rxctlWrite s d w).hub = s.hub := by
  unfold State.rxctlWrite
  grind [State.hub_mk, State.put_hub, State.setPort_hub]

theorem execMiuInjectArm_hub (w : Word) (s : State) : ∃ t, (execMiuInjectArm w s) = .next t ∧ t.hub = s.hub := by
  unfold execMiuInjectArm
  (repeat' split) <;> exact ⟨_, rfl, by simp only [↓State.injectWrite_hub]⟩

end Sys2Proof.Machine
end

