-- ==== Sys2Proof/Laws/Hub5.lean ====
section
/-! SUPPORT. Commands of the field side leave the hub alone: lemmas of KerfField, KerfLink, KerfHub, HubRegs, SkidDma, Power.
-/
namespace Sys2Proof.Machine

set_option linter.unusedSimpArgs false
set_option linter.unusedTactic false
set_option linter.unnecessarySeqFocus false
set_option linter.unreachableTactic false

theorem State.dieTakes_hub (s : State) (d : Die) (m : Msg) (act : State → State) (h : ∀ t, (act t).hub = t.hub) : (s.dieTakes
    d m act).hub = s.hub := by
  unfold State.dieTakes
  split
  · exact (h _).trans (State.received_hub _ _ _ _)
  · rfl

theorem State.dieActs_hub (s : State) (d : Die) (m : Msg) (act : State → State) (h : ∀ t, (act t).hub = t.hub) : (s.dieActs d
    m act).hub = s.hub := by
  unfold State.dieActs
  split
  · exact State.dieTakes_hub _ _ _ _ h
  · rfl

theorem State.heartbeat_hub (s : State) (d : Die) (m : Msg) : (State.heartbeat s d m).hub = s.hub := by
  unfold State.heartbeat
  grind [State.hub_mk, State.send_hub, State.setDie_hub, State.raiseDie_hub]

theorem execHeartbeat_hub (d : Die) (m : Msg) (s : State) : ∃ t, (execHeartbeat d m s) = .next t ∧ t.hub = s.hub := by
  unfold execHeartbeat
  exact ⟨_, rfl, State.dieTakes_hub _ _ _ _ fun t => by simp only [↓State.heartbeat_hub]⟩

theorem execHeartbeatTimeout_hub (d : Die) (s : State) : ∃ t, (execHeartbeatTimeout d s) = .next t ∧ t.hub = s.hub := by
  unfold execHeartbeatTimeout
  (repeat' split) <;> exact ⟨_, rfl, by simp only [↓State.hub_mk, ↓State.hub_fold, ↓State.put_hub, ↓State.enterSafe_hub]⟩

theorem execClockHoldoverEnd_hub (d : Die) (s : State) : ∃ t, (execClockHoldoverEnd d s) = .next t ∧ t.hub = s.hub := by
  unfold execClockHoldoverEnd
  (repeat' split) <;> exact ⟨_, rfl, by simp only [↓State.clockLost_hub]⟩

theorem State.haltAnswer_hub (s : State) (d : Die) (a : HaltAction) : (State.haltAnswer s d a).hub = s.hub := by
  unfold State.haltAnswer
  simp only [↓State.send_hub]

theorem execHaltSafe_hub (d : Die) (m : Msg) (s : State) : ∃ t, (execHaltSafe d m s) = .next t ∧ t.hub = s.hub := by
  unfold execHaltSafe
  exact ⟨_, rfl, State.dieTakes_hub _ _ _ _ fun t => by simp only [↓State.enterSafe_hub, ↓State.haltAnswer_hub]⟩

theorem State.haltRelease_hub (s : State) (d : Die) : (State.haltRelease s d).hub = s.hub := by
  unfold State.haltRelease
  (repeat' split) <;> simp_all [↓State.hub_mk, ↓State.hub_fold, ↓State.hub_ite, ↓State.setDie_hub, ↓State.setRec_hub, ↓State.release_hub, State.hub_foldl]

theorem execHaltRelease_hub (d : Die) (m : Msg) (s : State) : ∃ t, (execHaltRelease d m s) = .next t ∧ t.hub = s.hub := by
  unfold execHaltRelease
  exact ⟨_, rfl, State.dieTakes_hub _ _ _ _ fun t => by simp only [↓State.haltAnswer_hub, ↓State.haltRelease_hub]⟩

theorem State.stopBay_hub (s : State) (d : Die) (mask : Nat) : (State.stopBay s d mask).hub = s.hub := by
  unfold State.stopBay
  (repeat' split) <;> simp_all [↓State.endBayItems_hub, ↓State.bayStops_hub, State.hub_foldl]

theorem execHaltStopBay_hub (d : Die) (m : Msg) (s : State) : ∃ t, (execHaltStopBay d m s) = .next t ∧ t.hub = s.hub := by
  unfold execHaltStopBay
  exact ⟨_, rfl, State.dieTakes_hub _ _ _ _ fun t => by simp only [↓State.haltAnswer_hub, ↓State.stopBay_hub]⟩

theorem State.blocksReset_hub (s : State) (d : Die) : (State.blocksReset s d).hub = s.hub := by
  unfold State.blocksReset
  (repeat' split) <;> simp only [↓State.hub_mk, ↓State.hub_fold, ↓State.setYrd_hub]

theorem State.dieReset_hub (s : State) (d : Die) (powerOn : Bool) : (State.dieReset s d powerOn).hub = s.hub := by
  unfold State.dieReset
  (repeat' split) <;> simp only [↓State.hub_mk, ↓State.hub_fold, ↓State.put_hub, ↓State.setDie_hub, ↓State.blocksReset_hub]

theorem execHaltResetDie_hub (d : Die) (m : Msg) (s : State) : ∃ t, (execHaltResetDie d m s) = .next t ∧ t.hub = s.hub := by
  unfold execHaltResetDie
  exact ⟨_, rfl, State.dieTakes_hub _ _ _ _ fun t => by simp only [↓State.enterSafe_hub, ↓State.haltAnswer_hub, ↓State.dieReset_hub]⟩

theorem State.fwLoad_hub (s : State) (d : Die) (m : Msg) : (State.fwLoad s d m).hub = s.hub := by
  unfold State.fwLoad
  grind [State.hub_mk, State.setDie_hub]

theorem execFwLoad_hub (d : Die) (m : Msg) (s : State) : ∃ t, (execFwLoad d m s) = .next t ∧ t.hub = s.hub := by
  unfold execFwLoad
  exact ⟨_, rfl, State.dieTakes_hub _ _ _ _ fun t => by simp only [↓State.fwLoad_hub]⟩

theorem execRegRead_hub (d : Die) (m : Msg) (s : State) : ∃ t, (execRegRead d m s) = .next t ∧ t.hub = s.hub := by
  unfold execRegRead
  exact ⟨_, rfl, State.dieTakes_hub _ _ _ _ fun t => by simp only [↓State.send_hub]⟩

theorem State.forgetItem_hub (s : State) (d : Die) (i : Nat) : (State.forgetItem s d i).hub = s.hub := by
  unfold State.forgetItem
  (repeat' split) <;> simp_all [↓State.setYrd_hub, ↓State.setCru_hub, ↓State.setRec_hub, ↓State.setLat_hub, ↓State.setOsv_hub, State.hub_foldl]

theorem State.queueReset_hub (s : State) (d : Die) (m : Msg) : (State.queueReset s d m).hub = s.hub := by
  have h1 : ∀ (l : List DieItem) (u : State), (l.foldl (fun (t : State) i => (t.endItem d i.item .dropped).forgetItem d i.item) u).hub = u.hub :=
    fun l u => State.hub_foldl _ _ _ fun t i => by rw [State.forgetItem_hub, State.endItem_hub]
  unfold State.queueReset
  dsimp only
  split
  · exact State.send_hub _ _ _ _
  · split
    · rfl
    · rw [State.answerResets_hub, State.setDie_hub, h1]

theorem execQueueReset_hub (d : Die) (m : Msg) (s : State) : ∃ t, (execQueueReset d m s) = .next t ∧ t.hub = s.hub := by
  unfold execQueueReset
  exact ⟨_, rfl, State.dieActs_hub _ _ _ _ fun t => by simp only [↓State.queueReset_hub]⟩

theorem State.workRefused_hub (s : State) (d : Die) (h : WorkHead) : (State.workRefused s d h).hub = s.hub := by
  unfold State.workRefused
  simp only [↓State.send_hub]

theorem State.workTake_hub (s : State) (d : Die) (m : Msg) (k : WorkKind) (act : WorkHead → State → State) (h : ∀ w t, (act w
    t).hub = t.hub) : (s.workTake d m k act).hub = s.hub := by
  unfold State.workTake
  extract_lets w
  split
  · rfl
  · refine State.dieActs_hub _ _ _ _ fun t => ?_
    extract_lets other i
    split
    · exact State.workRefused_hub _ _ _
    · exact (h _ _).trans (State.setDie_hub _ _ _)

theorem State.class0Work_hub (s : State) (b : Bay) (cls : Nat) : (State.class0Work s b cls).hub = s.hub := by
  unfold State.class0Work
  grind [State.hub_mk, State.cruInterrupt_hub]

theorem State.bayTake_hub (s : State) (d : Die) (m : Msg) (k : WorkKind) (act : Bay → WorkHead → State → State) (h : ∀ b w t,
    (act b w t).hub = t.hub) : (s.bayTake d m k act).hub = s.hub := by
  exact State.workTake_hub _ _ _ _ _ fun w t => by
    split
    · exact (h _ _ _).trans (State.class0Work_hub _ _ _)
    · rfl

theorem State.layerTrigger_hub (s : State) (b : Bay) (layer : Nat) : (State.layerTrigger s b layer).hub = s.hub := by
  unfold State.layerTrigger
  grind [State.hub_mk, State.cruRaise_hub]

theorem State.askLog_hub (s : State) (b : Bay) (l : LogAsm) : (State.askLog s b l).hub = s.hub := by
  unfold State.askLog
  simp only [↓State.setLat_hub]

theorem execWorkRead_hub (d : Die) (m : Msg) (s : State) : ∃ t, (execWorkRead d m s) = .next t ∧ t.hub = s.hub := by
  unfold execWorkRead
  exact ⟨_, rfl, State.bayTake_hub _ _ _ _ _ fun b w t => by simp only [↓State.layerTrigger_hub, ↓State.askLog_hub]⟩

theorem execWorkVerify_hub (d : Die) (m : Msg) (s : State) : ∃ t, (execWorkVerify d m s) = .next t ∧ t.hub = s.hub := by
  unfold execWorkVerify
  exact ⟨_, rfl, State.bayTake_hub _ _ _ _ _ fun b w t => by simp only [↓State.layerTrigger_hub, ↓State.askLog_hub]⟩

theorem State.recordTake_hub (s : State) (b : Bay) (m : Msg) (h : WorkHead) : (State.recordTake s b m h).hub = s.hub := by
  unfold State.recordTake
  grind [State.hub_mk, State.endItem_hub, State.setRec_hub, State.layerTrigger_hub]

theorem execWorkRecord_hub (d : Die) (m : Msg) (s : State) : ∃ t, (execWorkRecord d m s) = .next t ∧ t.hub = s.hub := by
  unfold execWorkRecord
  exact ⟨_, rfl, State.bayTake_hub _ _ _ _ _ fun b w t => by simp only [↓State.hub_mk, ↓State.hub_fold, ↓State.hub_ite, ↓State.hub_fst_ite, ↓State.recordTake_hub]⟩

theorem execWorkSeek_hub (d : Die) (m : Msg) (s : State) : ∃ t, (execWorkSeek d m s) = .next t ∧ t.hub = s.hub := by
  unfold execWorkSeek
  exact ⟨_, rfl, State.bayTake_hub _ _ _ _ _ fun b w t => by simp only [↓State.moveRequest_hub, ↓State.layerTrigger_hub]⟩

theorem State.mountWork_hub (s : State) (b : Bay) (i : Nat) : (State.mountWork s b i).hub = s.hub := by
  unfold State.mountWork
  grind [State.hub_mk, State.put_hub, State.endItem_hub, State.setMounted_hub, State.setSpn_hub, State.spnRun_hub, State.setRec_hub, State.setOsv_hub, State.osvOff_hub]

theorem execWorkMount_hub (d : Die) (m : Msg) (s : State) : ∃ t, (execWorkMount d m s) = .next t ∧ t.hub = s.hub := by
  unfold execWorkMount
  exact ⟨_, rfl, State.bayTake_hub _ _ _ _ _ fun b w t => by simp only [↓State.mountWork_hub]⟩

theorem State.unmountOver_hub (s : State) (b : Bay) : (State.unmountOver s b).hub = s.hub := by
  unfold State.unmountOver
  grind [State.hub_mk, State.endItem_hub]

theorem State.unmountTake_hub (s : State) (b : Bay) : (State.unmountTake s b).hub = s.hub := by
  unfold State.unmountTake
  grind [State.hub_mk, State.put_hub, State.setMounted_hub, State.sfeHold_hub, State.spnStop_hub, State.itemBegun_hub, State.cruAbort_hub, State.recClear_hub, State.latHold_hub, State.setOsv_hub, State.osvOff_hub, State.unmountOver_hub]

theorem execWorkUnmount_hub (d : Die) (m : Msg) (s : State) : ∃ t, (execWorkUnmount d m s) = .next t ∧ t.hub = s.hub := by
  unfold execWorkUnmount
  exact ⟨_, rfl, State.bayTake_hub _ _ _ _ _ fun b w t => by simp only [↓State.unmountTake_hub]⟩

theorem execPwmPeriod_hub (b : Bay) (shunts : Vector Int 3) (vbr : Nat) (cross : Option Nat) (s : State) : ∃ t,
    (execPwmPeriod b shunts vbr cross s) = .next t ∧ t.hub = s.hub := by
  unfold execPwmPeriod
  (repeat' split) <;> exact ⟨_, rfl, by simp only [↓State.pwmPeriod_hub, ↓State.unmountTake_hub]⟩

theorem execShortEnd_hub (b : Bay) (vbr : Nat) (s : State) : ∃ t, (execShortEnd b vbr s) = .next t ∧ t.hub = s.hub := by
  unfold execShortEnd
  (repeat' split) <;> exact ⟨_, rfl, by simp only [↓State.shortEnd_hub, ↓State.unmountOver_hub]⟩

theorem execWorkTransfer_hub (d : Die) (m : Msg) (s : State) : ∃ t, (execWorkTransfer d m s) = .next t ∧ t.hub = s.hub := by
  unfold execWorkTransfer
  exact ⟨_, rfl, State.workTake_hub _ _ _ _ _ fun w t => by grind [State.hub_mk, State.endItem_hub, State.setYrd_hub, State.yrdNext_hub]⟩

theorem execWorkCruise_hub (d : Die) (m : Msg) (s : State) : ∃ t, (execWorkCruise d m s) = .next t ∧ t.hub = s.hub := by
  unfold execWorkCruise
  exact ⟨_, rfl, State.bayTake_hub _ _ _ _ _ fun b w t => by simp only [↓State.setCru_hub, ↓State.cruRaise_hub]⟩

theorem State.recordData_hub (s : State) (d : Die) (m : Msg) : (State.recordData s d m).hub = s.hub := by
  unfold State.recordData
  grind [State.hub_mk, State.setRec_hub, State.refusedAtDie_hub]

theorem execRecordData_hub (d : Die) (m : Msg) (s : State) : ∃ t, (execRecordData d m s) = .next t ∧ t.hub = s.hub := by
  unfold execRecordData
  exact ⟨_, rfl, State.dieActs_hub _ _ _ _ fun t => by simp only [↓State.recordData_hub]⟩

theorem State.linkWordTaken_hub (s : State) (d : Die) (x : Side) (type : Nat) : (State.linkWordTaken s d x type).hub = s.hub
    := by
  unfold State.linkWordTaken
  grind [State.hub_mk, State.received_hub]

theorem execCreditReceived_hub (d : Die) (at_ : Side) (ack : Nat) (units : Vector Nat 5) (s : State) : ∃ t,
    (execCreditReceived d at_ ack units s) = .next t ∧ t.hub = s.hub := by
  unfold execCreditReceived
  (repeat' split) <;> exact ⟨_, rfl, by simp only [↓State.creditSeen_hub, ↓State.linkWordTaken_hub]⟩

theorem execHeartbeatSend_hub (s : State) : ∃ t, (execHeartbeatSend s) = .next t ∧ t.hub = s.hub := by
  unfold execHeartbeatSend
  (repeat' split) <;> exact ⟨_, rfl, by simp [↓State.hub_ite, ↓State.send_hub, ↓State.setPort_hub, State.hub_foldl]⟩

theorem execTxctlPush_hub (d : Die) (w : Word) (s : State) : ∃ t, (execTxctlPush d w s) = .next t ∧ t.hub = s.hub := by
  unfold execTxctlPush
  (repeat' split) <;> exact ⟨_, rfl, by simp only [↓State.txctlWrite_hub]⟩

theorem execRxctlPop_hub (d : Die) (w : Word) (s : State) : ∃ t, (execRxctlPop d w s) = .next t ∧ t.hub = s.hub := by
  unfold execRxctlPop
  (repeat' split) <;> exact ⟨_, rfl, by simp only [↓State.rxctlWrite_hub]⟩

theorem execBoardErased_hub (d : Die) (m : Msg) (s : State) : ∃ t, (execBoardErased d m s) = .next t ∧ t.hub = s.hub := by
  unfold execBoardErased
  (repeat' split) <;> exact ⟨_, rfl, by simp only [↓State.received_hub]⟩

theorem execCommit_hub (g : Group) (s : State) : ∃ t, (execCommit g s) = .next t ∧ t.hub = s.hub := by
  unfold execCommit
  (repeat' split) <;> exact ⟨_, rfl, by simp only [↓State.commitWrite_hub]⟩

theorem execSkdHaltedClear_hub (s : State) : ∃ t, (execSkdHaltedClear s) = .next t ∧ t.hub = s.hub := by
  unfold execSkdHaltedClear
  (repeat' split) <;> exact ⟨_, rfl, by simp only [↓State.put_hub]⟩

theorem execVmechSample_hub (code : Fin 4096) (s : State) : ∃ t, (execVmechSample code s) = .next t ∧ t.hub = s.hub := by
  unfold execVmechSample
  (repeat' split) <;> exact ⟨_, rfl, by simp [↓State.hub_ite, ↓State.setDie_hub]⟩

theorem State.transfersStop_hub (s : State) : (State.transfersStop s).hub = s.hub := by
  unfold State.transfersStop
  simp only []
  (repeat' split) <;> (try refine (State.hub_foldl _ _ _ fun t x => ?_).trans ?_) <;> (try dsimp only) <;> (repeat' split) <;> (try simp only []) <;> grind [State.hub_mk, State.endItem_hub, State.setYrd_hub, State.yrdFault_hub]

theorem execFpwVmechLow_hub (s : State) : ∃ t, (execFpwVmechLow s) = .next t ∧ t.hub = s.hub := by
  unfold execFpwVmechLow
  (repeat' split) <;> exact ⟨_, rfl, by simp [↓State.hub_ite, ↓State.bump_hub, ↓State.setDie_hub, ↓State.raiseDie_hub, ↓State.transfersStop_hub]⟩

theorem execVmechLowClear_hub (s : State) : ∃ t, (execVmechLowClear s) = .next t ∧ t.hub = s.hub := by
  unfold execVmechLowClear
  (repeat' split) <;> exact ⟨_, rfl, by simp [↓State.hub_ite, ↓State.setDie_hub]⟩

theorem execFpwVmechHigh_hub (s : State) : ∃ t, (execFpwVmechHigh s) = .next t ∧ t.hub = s.hub := by
  unfold execFpwVmechHigh
  (repeat' split) <;> exact ⟨_, rfl, by simp [↓State.hub_ite, ↓State.setDie_hub, ↓State.raiseDie_hub]⟩

theorem execVmechHighClear_hub (s : State) : ∃ t, (execVmechHighClear s) = .next t ∧ t.hub = s.hub := by
  unfold execVmechHighClear
  (repeat' split) <;> exact ⟨_, rfl, by simp [↓State.hub_ite, ↓State.setDie_hub]⟩

theorem execBayIdleSpindle_hub (b : Bay) (s : State) : ∃ t, (execBayIdleSpindle b s) = .next t ∧ t.hub = s.hub := by
  unfold execBayIdleSpindle
  (repeat' split) <;> exact ⟨_, rfl, by simp only [↓State.send_hub]⟩

end Sys2Proof.Machine
end

