-- ==== Sys2Proof/Laws/Memory.lean ====
section
/-! SUPPORT. Laws of the hub's memory: its canonical form, and reads after writes. -/
namespace Sys2Proof.Machine

theorem Memory.wf_cons {k : Nat} {v : Byte} {m : List Host.Cell} :
    Memory.wf ((k, v) :: m) = true ↔ v ≠ 0 ∧ (∀ c ∈ m.head?, k < c.1) ∧ Memory.wf m = true := by
  cases m with
  | nil => simp [Memory.wf]
  | cons c t => obtain ⟨k', v'⟩ := c; simp [Memory.wf, and_assoc]

/-- The first address after a write is no lower than both the first before and the one written. -/
theorem cellPut_head {m : List Host.Cell} {a k : Nat} {x : Byte} (hk : k < a) (hm : ∀ c ∈ m.head?, k < c.1)
    (hw : Memory.wf m = true) : ∀ c ∈ (cellPut m a x).head?, k < c.1 := by
  cases m with
  | nil => unfold cellPut; split <;> simp [hk]
  | cons c t =>
    obtain ⟨k', v'⟩ := c
    have hk' : k < k' := hm (k', v') (by simp)
    have ht : ∀ c ∈ t.head?, k' < c.1 := (Memory.wf_cons.1 hw).2.1
    unfold cellPut
    split_ifs <;> try (simp [hk, hk']; done)
    intro c hc
    exact lt_trans hk' (ht c hc)

/-- A write keeps the canonical form. -/
theorem cellPut_wf {m : List Host.Cell} (a : Nat) (x : Byte) (hw : Memory.wf m = true) : Memory.wf (cellPut m a x) = true := by
  induction m with
  | nil => unfold cellPut; split <;> simp_all [Memory.wf]
  | cons c t ih =>
    obtain ⟨k, v⟩ := c
    obtain ⟨hv, hh, ht⟩ := Memory.wf_cons.1 hw
    unfold cellPut
    split_ifs with h1 h2 h3 h4
    · exact ht
    · exact Memory.wf_cons.2 ⟨h2, by rw [← h1]; exact hh, ht⟩
    · exact hw
    · exact Memory.wf_cons.2 ⟨h4, by simp [h3], hw⟩
    · exact Memory.wf_cons.2 ⟨hv, cellPut_head (by omega) hh ht, ih ht⟩

/-- Writes of bytes keep the canonical form. -/
theorem cellsPut_wf (bs : Bytes) : ∀ {m : List Host.Cell} (a : Nat), Memory.wf m = true → Memory.wf (cellsPut m a bs) = true := by
  induction bs with
  | nil => intro m a h; exact h
  | cons x t ih => intro m a h; exact ih _ (cellPut_wf a x h)

theorem Memory.wf_lower {k : Nat} {m : List Host.Cell} (hw : Memory.wf m = true) (hh : ∀ c ∈ m.head?, k < c.1) :
    ∀ c ∈ m, k < c.1 := by
  induction m generalizing k with
  | nil => simp
  | cons c t ih =>
    obtain ⟨k', v⟩ := c
    obtain ⟨-, h2, h3⟩ := Memory.wf_cons.1 hw
    have hk : k < k' := hh (k', v) (by simp)
    intro d hd
    rcases List.mem_cons.1 hd with rfl | hd
    · exact hk
    · exact lt_trans hk (ih h3 h2 d hd)

/-- Dropping addresses keeps the canonical form. -/
theorem filter_wf {m : List Host.Cell} (p : Host.Cell → Bool) (hw : Memory.wf m = true) : Memory.wf (m.filter p) = true := by
  induction m with
  | nil => rfl
  | cons c t ih =>
    obtain ⟨k, v⟩ := c
    obtain ⟨hv, hh, ht⟩ := Memory.wf_cons.1 hw
    rw [List.filter_cons]
    split
    · refine Memory.wf_cons.2 ⟨hv, fun c hc => ?_, ih ht⟩
      exact Memory.wf_lower ht hh c (List.mem_filter.1 (List.mem_of_mem_head? hc)).1
    · exact ih ht

/-- A byte not listed below the first address reads as 0. -/
theorem cellGet_below {m : List Host.Cell} {b : Nat} (hw : Memory.wf m = true) (h : ∀ c ∈ m.head?, b < c.1) : cellGet m b = 0 := by
  cases m with
  | nil => rfl
  | cons c t =>
    obtain ⟨k, v⟩ := c
    have := h (k, v) (by simp)
    simp only [cellGet]
    rw [if_neg (by omega), if_pos this]

/-- The byte written reads back. -/
theorem cellGet_cellPut_same {m : List Host.Cell} (a : Nat) (x : Byte) (hw : Memory.wf m = true) : cellGet (cellPut m a x) a = x := by
  induction m with
  | nil => unfold cellPut; split <;> simp_all [cellGet]
  | cons c t ih =>
    obtain ⟨k, v⟩ := c
    obtain ⟨hv, hh, ht⟩ := Memory.wf_cons.1 hw
    unfold cellPut
    split_ifs with h1 h2 h3 h4
    · rw [h2]; exact cellGet_below ht (by rw [← h1]; exact hh)
    · simp [cellGet]
    · rw [h4]; exact cellGet_below hw (by simp [h3])
    · simp [cellGet]
    · simp only [cellGet]; rw [if_neg h1, if_neg h3]; exact ih ht

/-- Every other byte reads as before. -/
theorem cellGet_cellPut_other {m : List Host.Cell} {a b : Nat} (x : Byte) (hw : Memory.wf m = true) (hb : b ≠ a) :
    cellGet (cellPut m a x) b = cellGet m b := by
  induction m with
  | nil => unfold cellPut; split <;> simp [cellGet]; omega
  | cons c t ih =>
    obtain ⟨k, v⟩ := c
    obtain ⟨hv, hh, ht⟩ := Memory.wf_cons.1 hw
    have low : b < k → cellGet t b = 0 := fun h => cellGet_below ht (fun c hc => lt_trans h (hh c hc))
    unfold cellPut
    split_ifs with h1 h2 h3 h4 <;> simp only [cellGet]
    · subst h1; rw [if_neg (Ne.symm hb)]; split_ifs with h
      · exact low h
      · rfl
    · subst h1; rw [if_neg (Ne.symm hb), if_neg (Ne.symm hb)]
    · rw [if_neg (Ne.symm hb)]
      split_ifs <;> first | rfl | omega
    · rw [ih ht]

end Sys2Proof.Machine
end

