-- ==== Sys2Proof/Laws/Kept.lean ====
section
/-! SUPPORT. What no command changes (the queue's rest, the ordering code and the clock), and that every operation keeps the
canonical form of memory: the projections and the rules that the other files of this folder state their lemmas with. -/
namespace Sys2Proof.Machine

/-- The part of the state that no command changes. -/
def State.kept3 (s : State) : List Instr × Code × Nat := (s.pending, s.code, s.clock)

/-- The same with memory, for operations that store nothing. -/
def State.kept (s : State) : List Instr × Code × Nat × List Host.Cell := (s.pending, s.code, s.clock, s.mem)

/-- The memory of a state is in its canonical form. -/
def State.memWf (s : State) : Prop := Memory.wf s.mem = true

theorem State.kept_fold (s : State) : (s.pending, s.code, s.clock, s.mem) = s.kept := by unfold State.kept; exact Eq.refl _

theorem State.kept3_fold (s : State) : (s.pending, s.code, s.clock) = s.kept3 := by unfold State.kept3; exact Eq.refl _

theorem State.kept_mk x0 x1 x2 x3 x4 x5 x6 x7 x8 x9 x10 x11 x12 x13 x14 x15 x16 x17 x18 x19 x20 x21 x22 x23 x24 x25 x26 x27
    x28 x29 x30 x31 x32 : (State.mk x0 x1 x2 x3 x4 x5 x6 x7 x8 x9 x10 x11 x12 x13 x14 x15 x16 x17 x18 x19 x20 x21 x22 x23 x24
    x25 x26 x27 x28 x29 x30 x31 x32).kept = (x0, x1, x2, x21) := by unfold State.kept; exact Eq.refl _

theorem State.kept3_mk x0 x1 x2 x3 x4 x5 x6 x7 x8 x9 x10 x11 x12 x13 x14 x15 x16 x17 x18 x19 x20 x21 x22 x23 x24 x25 x26 x27
    x28 x29 x30 x31 x32 : (State.mk x0 x1 x2 x3 x4 x5 x6 x7 x8 x9 x10 x11 x12 x13 x14 x15 x16 x17 x18 x19 x20 x21 x22 x23 x24
    x25 x26 x27 x28 x29 x30 x31 x32).kept3 = (x0, x1, x2) := by unfold State.kept3; exact Eq.refl _

theorem State.memWf_mk x0 x1 x2 x3 x4 x5 x6 x7 x8 x9 x10 x11 x12 x13 x14 x15 x16 x17 x18 x19 x20 x21 x22 x23 x24 x25 x26 x27
    x28 x29 x30 x31 x32 : (State.mk x0 x1 x2 x3 x4 x5 x6 x7 x8 x9 x10 x11 x12 x13 x14 x15 x16 x17 x18 x19 x20 x21 x22 x23 x24
    x25 x26 x27 x28 x29 x30 x31 x32).memWf = (Memory.wf x21 = true) := by unfold State.memWf; exact Eq.refl _

theorem State.memWf_fold (s : State) : (Memory.wf s.mem = true) = s.memWf := by unfold State.memWf; exact Eq.refl _

theorem State.kept_ite (c : Prop) [Decidable c] (a b : State) : (if c then a else b).kept = if c then a.kept else b.kept :=
    by
  split <;> rfl

theorem State.kept3_ite (c : Prop) [Decidable c] (a b : State) : (if c then a else b).kept3 = if c then a.kept3 else b.kept3
    := by
  split <;> rfl

theorem State.kept_fst_ite {α : Type} (c : Prop) [Decidable c] (a b : State × α) :
    (if c then a else b).1.kept = if c then a.1.kept else b.1.kept := by
  split <;> rfl

theorem State.kept3_of {s t : State} (h : t.kept = s.kept) : t.kept3 = s.kept3 := by
  simp only [State.kept, State.kept3, Prod.mk.injEq] at *
  exact ⟨h.1, h.2.1, h.2.2.1⟩

theorem State.memWf_of {s t : State} (h : t.kept = s.kept) : t.memWf ↔ s.memWf := by
  simp only [State.kept, State.memWf, Prod.mk.injEq] at *
  rw [h.2.2.2]

theorem State.kept_foldl {α : Type} (f : State → α → State) (l : List α) (s : State) (h : ∀ t x, (f t x).kept = t.kept) :
    (l.foldl f s).kept = s.kept := by
  induction l generalizing s with
  | nil => rfl
  | cons x l ih => rw [List.foldl_cons, ih, h]

theorem State.kept_foldl_fst {α β : Type} (f : State × β → α → State × β) (l : List α) (p : State × β)
    (h : ∀ t y x, (f (t, y) x).1.kept = t.kept) : (l.foldl f p).1.kept = p.1.kept := by
  induction l generalizing p with
  | nil => rfl
  | cons x l ih => rw [List.foldl_cons, ih]; exact h _ _ x

theorem State.kept3_foldl_fst {α β : Type} (f : State × β → α → State × β) (l : List α) (p : State × β)
    (h : ∀ t y x, (f (t, y) x).1.kept3 = t.kept3) : (l.foldl f p).1.kept3 = p.1.kept3 := by
  induction l generalizing p with
  | nil => rfl
  | cons x l ih => rw [List.foldl_cons, ih]; exact h _ _ x

theorem State.memWf_foldl_fst {α β : Type} (f : State × β → α → State × β) (l : List α) (p : State × β)
    (h : ∀ t y x, t.memWf → (f (t, y) x).1.memWf) (hm : p.1.memWf) : (l.foldl f p).1.memWf := by
  induction l generalizing p with
  | nil => exact hm
  | cons x l ih => rw [List.foldl_cons]; exact ih _ (h _ _ x hm)

theorem State.kept3_foldl {α : Type} (f : State → α → State) (l : List α) (s : State) (h : ∀ t x, (f t x).kept3 = t.kept3) :
    (l.foldl f s).kept3 = s.kept3 := by
  induction l generalizing s with
  | nil => rfl
  | cons x l ih => rw [List.foldl_cons, ih, h]

theorem State.memWf_foldl {α : Type} (f : State → α → State) (l : List α) (s : State) (h : ∀ t x, t.memWf → (f t x).memWf)
    (hm : s.memWf) : (l.foldl f s).memWf := by
  induction l generalizing s with
  | nil => exact hm
  | cons x l ih => rw [List.foldl_cons]; exact ih _ (h _ _ hm)

end Sys2Proof.Machine
end

