-- ==== Sys2Proof/Laws/KeptOps.lean ====
section
/-! SUPPORT. What no command changes, and the form of memory: lemmas of Ops. -/
namespace Sys2Proof.Machine

set_option linter.unusedSimpArgs false
set_option linter.unusedTactic false
set_option linter.unnecessarySeqFocus false
set_option linter.unreachableTactic false
set_option linter.tactic.unusedName false

theorem State.drawn_kept (s : State) : (State.drawn s).kept = s.kept := by
  unfold State.drawn
  simp only [↓State.kept_mk, ↓State.kept_fold]

theorem State.put_kept (s : State) (a : Nat) (f : Field) (v : Nat) (i : Nat) (j : Nat) : (State.put s a f v i j).kept =
    s.kept := by
  unfold State.put
  simp only [↓State.kept_mk, ↓State.kept_fold]

theorem State.bumpBy_kept (s : State) (a : Nat) (f : Field) (n : Nat) (i : Nat) (j : Nat) : (State.bumpBy s a f n i j).kept =
    s.kept := by
  unfold State.bumpBy
  simp only [↓State.put_kept]

theorem State.bump_kept (s : State) (a : Nat) (f : Field) (i : Nat) (j : Nat) : (State.bump s a f i j).kept = s.kept := by
  unfold State.bump
  simp only [↓State.bumpBy_kept]

theorem writeField_kept (locked : Bool) (l : Loc) (w : Word) (s : State) (f : Field) : (writeField locked l w s f).kept =
    s.kept := by
  unfold writeField
  (repeat' split) <;> simp only [↓State.kept_mk, ↓State.kept_fold]

theorem State.writeWord_kept (s : State) (locked : Bool) (l : Loc) (w : Word) : (State.writeWord s locked l w).kept = s.kept
    := by
  unfold State.writeWord
  (repeat' split) <;> simp_all [↓State.kept_ite, ↓writeField_kept, State.kept_foldl]

theorem State.send_kept (s : State) (d : Die) (from_ : Side) (m : Msg) : (State.send s d from_ m).kept = s.kept := by
  unfold State.send
  simp only [↓State.kept_mk, ↓State.kept_fold]

theorem State.received_kept (s : State) (d : Die) (at_ : Side) (m : Msg) : (State.received s d at_ m).kept = s.kept := by
  unfold State.received
  simp only [↓State.kept_mk, ↓State.kept_fold]

theorem State.setDie_kept (s : State) (d : Die) (x : DieSt) : (State.setDie s d x).kept = s.kept := by
  unfold State.setDie
  simp only [↓State.kept_mk, ↓State.kept_fold]

theorem State.raiseDie_kept (s : State) (d : Die) (code : Nat) (bay : Option Nat) (sub unit : Nat) (v1 : Int) (v2 : Nat) :
    (State.raiseDie s d code bay sub unit v1 v2).kept = s.kept := by
  unfold State.raiseDie
  simp only [↓State.send_kept]

theorem State.raiseBay_kept (s : State) (b : Bay) (code sub unit : Nat) (v1 : Int) (v2 : Nat) : (State.raiseBay s b code sub
    unit v1 v2).kept = s.kept := by
  unfold State.raiseBay
  simp only [↓State.raiseDie_kept]

theorem State.dropItem_kept (s : State) (d : Die) (item : Nat) : (State.dropItem s d item).kept = s.kept := by
  unfold State.dropItem
  simp only [↓State.setDie_kept]

theorem State.endItem_kept (s : State) (d : Die) (item : Nat) (st : WStatus) (cause : Nat) (cont : Option Nat) :
    (State.endItem s d item st cause cont).kept = s.kept := by
  unfold State.endItem
  grind [State.kept_mk, State.send_kept, State.dropItem_kept]

theorem State.endBayItems_kept (s : State) (b : Bay) (st : WStatus) (cause : Nat) : (State.endBayItems s b st cause).kept =
    s.kept := by
  unfold State.endBayItems
  simp only [↓State.kept_mk, ↓State.kept_fold, ↓State.kept_ite, ↓State.kept_fst_ite, ↓State.endItem_kept]
  (repeat' split) <;> (try refine (State.kept_foldl _ _ _ fun t x => ?_).trans ?_) <;> (try dsimp only) <;> (repeat' split)
      <;> (try simp only [↓State.kept_mk, ↓State.kept_fold, ↓State.kept_ite, ↓State.kept_fst_ite, ↓State.endItem_kept]) <;>
      grind [State.kept_mk, State.endItem_kept]

theorem State.answerResets_kept (s : State) (d : Die) : (State.answerResets s d).kept = s.kept := by
  unfold State.answerResets
  (repeat' split) <;> simp_all [↓State.send_kept, ↓State.setDie_kept, State.kept_foldl]

theorem State.logOver_kept (s : State) (d : Die) (item : Nat) : (State.logOver s d item).kept = s.kept := by
  unfold State.logOver
  simp only [↓State.setDie_kept, ↓State.answerResets_kept]

theorem State.setMounted_kept (s : State) (b : Bay) (m : Bool) : (State.setMounted s b m).kept = s.kept := by
  unfold State.setMounted
  simp only [↓State.setDie_kept]

end Sys2Proof.Machine
end

