-- ==== Sys2Proof/Laws/KeptGroups.lean ====
section
/-! SUPPORT. What no command changes, and the form of memory: lemmas of Groups. -/
namespace Sys2Proof.Machine

set_option linter.unusedSimpArgs false
set_option linter.unusedTactic false
set_option linter.unnecessarySeqFocus false
set_option linter.unreachableTactic false
set_option linter.tactic.unusedName false

theorem State.activate_kept (s : State) (g : Group) : (State.activate s g).kept = s.kept := by
  unfold State.activate
  (repeat' split) <;> simp only [↓State.kept_mk, ↓State.kept_fold]

theorem State.commitSet_kept (s : State) (g : Group) (consistent : Bool) : (State.commitSet s g consistent).kept = s.kept :=
    by
  unfold State.commitSet
  (repeat' split) <;> simp only [↓State.kept_mk, ↓State.kept_fold, ↓State.put_kept]

end Sys2Proof.Machine
end

