-- ==== Sys2Proof/Laws/KeptHubOps.lean ====
section
/-! SUPPORT. What no command changes, and the form of memory: lemmas of HubOps. -/
namespace Sys2Proof.Machine

set_option linter.unusedSimpArgs false
set_option linter.unusedTactic false
set_option linter.unnecessarySeqFocus false
set_option linter.unreachableTactic false
set_option linter.tactic.unusedName false

theorem State.putBytes_kept3 (s : State) (a : Nat) (bs : Bytes) : (State.putBytes s a bs).kept3 = s.kept3 := by
  unfold State.putBytes
  simp only [↓State.kept3_mk, ↓State.kept3_fold]

theorem State.putBytes_memWf (s : State) (a : Nat) (bs : Bytes) (hm : s.memWf) : (State.putBytes s a bs).memWf := by
  exact cellsPut_wf _ _ hm

theorem State.setDomain_kept (s : State) (n : Nat) (on : Bool) : (State.setDomain s n on).kept = s.kept := by
  unfold State.setDomain
  simp only [↓State.kept_mk, ↓State.kept_fold]

theorem State.setFn_kept (s : State) (f : Nat) (x : Fn) : (State.setFn s f x).kept = s.kept := by
  unfold State.setFn
  simp only [↓State.kept_mk, ↓State.kept_fold]

theorem State.hicEdge_kept (s : State) (n : Nat) : (State.hicEdge s n).kept = s.kept := by
  unfold State.hicEdge
  (repeat' split) <;> simp only [↓State.kept_mk, ↓State.kept_fold, ↓State.bump_kept]

theorem State.irq_kept (s : State) (n : Nat) : (State.irq s n).kept = s.kept := by
  unfold State.irq
  grind [State.kept_mk, State.hicEdge_kept]

theorem State.emit_kept (s : State) (p : Tlp) : (State.emit s p).kept = s.kept := by
  unfold State.emit
  simp only [↓State.kept_mk, ↓State.kept_fold]

theorem State.aer_kept (s : State) (f : Nat) (e : AerError) : (State.aer s f e).kept = s.kept := by
  unfold State.aer
  simp only [↓State.kept_mk, ↓State.kept_fold]

theorem State.hostWrite_kept (s : State) (f a : Nat) (bs : Bytes) (data : Bool) : (State.hostWrite s f a bs data).kept =
    s.kept := by
  unfold State.hostWrite
  (repeat' split) <;> simp_all [↓State.emit_kept, State.kept_foldl]

theorem State.tagPeak_kept (s : State) : (State.tagPeak s).kept = s.kept := by
  unfold State.tagPeak
  simp only [↓State.put_kept]

theorem issuePieces_kept (s : State) (r : HostRead) (l done : List Piece) : (issuePieces s r done l).1.kept = s.kept := by
  induction l generalizing done s with
  | nil => rfl
  | cons p t ih =>
    unfold issuePieces
    split
    · simp only []
      split
      · rfl
      · simp only [ih, State.emit_kept]
    · simp only [ih]

theorem State.hostRead_kept (s : State) (f a len : Nat) (prior : Bool) (what : ReadFor) : (State.hostRead s f a len prior
    what).kept = s.kept := by
  unfold State.hostRead
  simp only [↓State.kept_mk, ↓State.kept_fold, ↓State.tagPeak_kept, ↓issuePieces_kept]

theorem State.setMsix_kept (s : State) (f v : Nat) (e : MsixEntry) : (State.setMsix s f v e).kept = s.kept := by
  unfold State.setMsix
  simp only [↓State.kept_mk, ↓State.kept_fold]

theorem State.msixFire_kept (s : State) (f v : Nat) : (State.msixFire s f v).kept = s.kept := by
  unfold State.msixFire
  grind [State.kept_mk, State.emit_kept, State.setMsix_kept]

theorem State.epEvt_kept (s : State) (i : Nat) : (State.epEvt s i).kept = s.kept := by
  unfold State.epEvt
  grind [State.kept_mk, State.put_kept, State.msixFire_kept]

theorem State.pageChanged_kept (s : State) (lid : Nat) : (State.pageChanged s lid).kept = s.kept := by
  unfold State.pageChanged
  simp only [↓State.kept_mk, ↓State.kept_fold]

theorem State.logEvent_kept (s : State) (e : EventEntry) : (State.logEvent s e).kept = s.kept := by
  unfold State.logEvent
  simp only [↓State.kept_mk, ↓State.kept_fold, ↓State.kept_ite, ↓State.kept_fst_ite, ↓State.epEvt_kept,
      ↓State.pageChanged_kept]
  (repeat' split) <;> simp only [↓State.kept_mk, ↓State.kept_fold, ↓State.kept_ite, ↓State.kept_fst_ite, ↓State.epEvt_kept,
      ↓State.pageChanged_kept, ite_self]

theorem State.raiseHub_kept (s : State) (code sub unit : Nat) (v1 : Nat) (v2 : Nat) : (State.raiseHub s code sub unit v1
    v2).kept = s.kept := by
  unfold State.raiseHub
  simp only [↓State.logEvent_kept]

theorem State.pevLog_kept (s : State) (addr group : Nat) (write bl : Bool) : (State.pevLog s addr group write bl).kept =
    s.kept := by
  unfold State.pevLog
  simp only [↓State.put_kept, ↓State.irq_kept, ↓State.epEvt_kept, ↓State.pageChanged_kept]

end Sys2Proof.Machine
end

