-- ==== Sys2Proof/Laws/KeptDomains.lean ====
section
/-! SUPPORT. What no command changes, and the form of memory: lemmas of Domains. -/
namespace Sys2Proof.Machine

set_option linter.unusedSimpArgs false
set_option linter.unusedTactic false
set_option linter.unnecessarySeqFocus false
set_option linter.unreachableTactic false
set_option linter.tactic.unusedName false

theorem State.setFieldDomain_kept (s : State) (d : Die) (i : Nat) (on : Bool) : (State.setFieldDomain s d i on).kept = s.kept
    := by
  unfold State.setFieldDomain
  simp only [↓State.setDie_kept]

theorem State.wakeLive_kept (s : State) (d : Die) (i : Nat) : (State.wakeLive s d i).kept = s.kept := by
  unfold State.wakeLive
  simp only [↓State.kept_mk, ↓State.kept_fold]
  (repeat' split) <;> (try refine (State.kept_foldl _ _ _ fun t x => ?_).trans ?_) <;> (try dsimp only) <;> (repeat' split)
      <;> (try simp only [↓State.kept_mk, ↓State.kept_fold]) <;> grind [State.kept_mk, State.turn_kept]

theorem State.comeOn_kept (s : State) (n : Nat) : (State.comeOn s n).kept = s.kept := by
  unfold State.comeOn
  grind [State.kept_mk, State.bump_kept, State.setDomain_kept, State.setFieldDomain_kept, State.wakeLive_kept]

theorem State.wake_kept (s : State) (n : Nat) : (State.wake s n).kept = s.kept := by
  unfold State.wake
  grind [State.kept_mk, State.bump_kept, State.comeOn_kept]

theorem State.keepOn_kept (s : State) : (State.keepOn s).kept = s.kept := by
  unfold State.keepOn
  (repeat' split) <;> simp_all [↓State.kept_mk, ↓State.kept_fold, ↓State.kept_ite, ↓State.kept_fst_ite, ↓State.comeOn_kept,
      State.kept_foldl]

theorem State.keepDieOn_kept (s : State) (d : Die) : (State.keepDieOn s d).kept = s.kept := by
  unfold State.keepDieOn
  (repeat' split) <;> simp_all [↓State.kept_mk, ↓State.kept_fold, ↓State.kept_ite, ↓State.kept_fst_ite, ↓State.comeOn_kept,
      State.kept_foldl]

end Sys2Proof.Machine
end

