-- ==== Sys2Proof/Laws/KeptMiuOps.lean ====
section
/-! SUPPORT. What no command changes, and the form of memory: lemmas of MiuOps. -/
namespace Sys2Proof.Machine

set_option linter.unusedSimpArgs false
set_option linter.unusedTactic false
set_option linter.unnecessarySeqFocus false
set_option linter.unreachableTactic false
set_option linter.tactic.unusedName false

theorem State.setFlips_kept (s : State) (k v : Nat) : (State.setFlips s k v).kept = s.kept := by
  unfold State.setFlips
  simp only [↓State.kept_mk, ↓State.kept_fold]

theorem State.upset_kept (s : State) (l : List (Nat × Nat)) : (State.upset s l).kept = s.kept := by
  unfold State.upset
  (repeat' split) <;> simp_all [↓State.setFlips_kept, State.kept_foldl]

theorem State.miuEntry_kept (s : State) (n kind mem req addr syn : Nat) : (State.miuEntry s n kind mem req addr syn).kept =
    s.kept := by
  unfold State.miuEntry
  simp only [↓State.put_kept, ↓State.pageChanged_kept]

theorem State.miuLog_kept (s : State) (kind mem req addr syn : Nat) : (State.miuLog s kind mem req addr syn).kept = s.kept :=
    by
  unfold State.miuLog
  (repeat' split) <;> simp_all [↓State.kept_mk, ↓State.kept_fold, ↓State.kept_ite, ↓State.put_kept, ↓State.miuEntry_kept]

theorem State.countUe_kept (s : State) (kind mem req addr flips : Nat) : (State.countUe s kind mem req addr flips).kept =
    s.kept := by
  unfold State.countUe
  grind [State.kept_mk, State.put_kept, State.bump_kept, State.epEvt_kept, State.miuLog_kept]

theorem State.countCe_kept (s : State) (mem req addr flips : Nat) : (State.countCe s mem req addr flips).kept = s.kept := by
  unfold State.countCe
  grind [State.kept_mk, State.put_kept, State.bump_kept, State.epEvt_kept, State.pageChanged_kept, State.miuLog_kept]

theorem State.checkRange_kept (s : State) (mem a n req : Nat) : (State.checkRange s mem a n req).1.kept = s.kept := by
  unfold State.checkRange
  simp only []
  (repeat' split) <;> (try refine (State.kept_foldl_fst _ _ _ fun t y x => ?_).trans ?_) <;> (try dsimp only) <;> (repeat'
      split) <;> (try simp only []) <;> grind [State.kept_mk, State.countUe_kept, State.countCe_kept]

theorem State.writeBytes_kept3 (s : State) (mem a : Nat) (bs : Bytes) : (State.writeBytes s mem a bs).kept3 = s.kept3 := by
  unfold State.writeBytes
  simp only [↓State.kept3_mk, ↓State.kept3_fold, ↓State.putBytes_kept3]

theorem State.writeBytes_memWf (s : State) (mem a : Nat) (bs : Bytes) (hm : s.memWf) : (State.writeBytes s mem a bs).memWf :=
    by
  unfold State.writeBytes
  simp only [↓State.memWf_mk, ↓State.memWf_fold, State.putBytes_memWf, hm]

theorem State.mergeUnit_kept3 (s : State) (mem a : Nat) (bs : Bytes) (req : Nat) : (State.mergeUnit s mem a bs req).kept3 =
    s.kept3 := by
  unfold State.mergeUnit
  grind [State.kept3, State.kept, State.bump_kept, State.countUe_kept, State.countCe_kept, State.writeBytes_kept3]

theorem State.mergeUnit_memWf (s : State) (mem a : Nat) (bs : Bytes) (req : Nat) (hm : s.memWf) : (State.mergeUnit s mem a bs
    req).memWf := by
  unfold State.mergeUnit
  grind [State.memWf, State.kept, State.bump_kept, State.countUe_kept, State.countCe_kept, State.writeBytes_memWf]

theorem State.storeBytes_kept3 (s : State) (mem a : Nat) (bs : Bytes) (req : Nat) : (State.storeBytes s mem a bs req).kept3 =
    s.kept3 := by
  unfold State.storeBytes
  (repeat' split) <;> simp_all [↓State.mergeUnit_kept3, State.kept3_foldl]

theorem State.storeBytes_memWf (s : State) (mem a : Nat) (bs : Bytes) (req : Nat) (hm : s.memWf) : (State.storeBytes s mem a
    bs req).memWf := by
  unfold State.storeBytes
  (repeat' split) <;> simp_all [State.mergeUnit_memWf, State.memWf_foldl]

theorem State.inject_kept (s : State) (target mem a : Nat) : (State.inject s target mem a).kept = s.kept := by
  unfold State.inject
  grind [State.kept_mk, State.put_kept, State.setFlips_kept]

end Sys2Proof.Machine
end

