-- ==== Sys2Proof/Laws/KeptLndOps.lean ====
section
/-! SUPPORT. What no command changes, and the form of memory: lemmas of LndOps. -/
namespace Sys2Proof.Machine

set_option linter.unusedSimpArgs false
set_option linter.unusedTactic false
set_option linter.unnecessarySeqFocus false
set_option linter.unreachableTactic false
set_option linter.tactic.unusedName false

theorem State.setLine_kept (s : State) (e : Nat) (l : Line) : (State.setLine s e l).kept = s.kept := by
  unfold State.setLine
  simp only [↓State.kept_mk, ↓State.kept_fold]

theorem State.retireSweep_kept (s : State) : (State.retireSweep s).kept = s.kept := by
  unfold State.retireSweep
  (repeat' split) <;> simp_all [↓State.kept_ite, ↓State.setLine_kept, State.kept_foldl]

theorem State.setMiss_kept (s : State) (m : Miss) : (State.setMiss s m).kept = s.kept := by
  unfold State.setMiss
  simp only [↓State.kept_mk, ↓State.kept_fold]

theorem State.freeMiss_kept (s : State) (id : Nat) : (State.freeMiss s id).kept = s.kept := by
  unfold State.freeMiss
  simp only [↓State.kept_mk, ↓State.kept_fold]

theorem State.victim_kept (s : State) (slot log : Nat) : (State.victim s slot log).1.kept = s.kept := by
  unfold State.victim
  simp only []
  (repeat' split) <;> (try refine (State.kept_foldl _ _ _ fun t x => ?_).trans ?_) <;> (try dsimp only) <;> (repeat' split)
      <;> (try simp only []) <;> grind [State.kept_mk, State.setLine_kept]

theorem State.park_kept (s : State) (r : Request) (why : Park) : (State.park s r why).kept = s.kept := by
  unfold State.park
  (repeat' split) <;> simp only [↓State.kept_mk, ↓State.kept_fold, ↓State.bump_kept]

theorem State.addMiss_kept (s : State) (m : Miss) : (State.addMiss s m).kept = s.kept := by
  unfold State.addMiss
  simp only [↓State.kept_mk, ↓State.kept_fold, ↓State.put_kept, ↓State.bump_kept]

theorem State.allocMiss_kept (s : State) (r : Request) : (State.allocMiss s r).1.kept = s.kept := by
  unfold State.allocMiss
  grind [State.kept_mk, State.setLine_kept, State.victim_kept, State.park_kept, State.addMiss_kept]

theorem State.joinMiss_kept (s : State) (m : Miss) (r : Request) : (State.joinMiss s m r).1.kept = s.kept := by
  unfold State.joinMiss
  grind [State.kept_mk, State.bump_kept, State.setMiss_kept, State.park_kept]

theorem State.otherVictim_kept (s : State) (m : Miss) : (State.otherVictim s m).kept = s.kept := by
  unfold State.otherVictim
  grind [State.kept_mk, State.bump_kept, State.setLine_kept, State.setMiss_kept, State.victim_kept]

theorem State.lookupOn_kept (s : State) (r : Request) : (State.lookupOn s r).1.kept = s.kept := by
  unfold State.lookupOn
  grind [State.kept_mk, State.bump_kept, State.setLine_kept, State.park_kept, State.addMiss_kept, State.allocMiss_kept,
      State.joinMiss_kept, State.otherVictim_kept]

theorem State.lookupOff_kept (s : State) (r : Request) : (State.lookupOff s r).1.kept = s.kept := by
  unfold State.lookupOff
  simp only [↓State.kept_mk, ↓State.kept_fold, ↓State.kept_ite, ↓State.kept_fst_ite, ↓State.park_kept, ↓State.addMiss_kept,
      ↓State.joinMiss_kept]
  (repeat' split) <;> simp only [↓State.kept_mk, ↓State.kept_fold, ↓State.kept_ite, ↓State.kept_fst_ite, ↓State.park_kept,
      ↓State.addMiss_kept, ↓State.joinMiss_kept, ite_self]

theorem State.lookup_kept (s : State) (r : Request) : (State.lookup s r).1.kept = s.kept := by
  unfold State.lookup
  grind [State.kept_mk, State.lookupOn_kept, State.lookupOff_kept]

theorem State.copyVictim_kept3 (s : State) (e : Nat) : (State.copyVictim s e).kept3 = s.kept3 := by
  unfold State.copyVictim
  grind [State.kept3, State.kept, State.checkRange_kept, State.writeBytes_kept3]

theorem State.copyVictim_memWf (s : State) (e : Nat) (hm : s.memWf) : (State.copyVictim s e).memWf := by
  unfold State.copyVictim
  grind [State.memWf, State.kept, State.checkRange_kept, State.writeBytes_memWf]

theorem State.beginFill_kept3 (s : State) (m : Miss) : (State.beginFill s m).kept3 = s.kept3 := by
  unfold State.beginFill
  grind [State.kept3, State.kept, State.setLine_kept, State.setMiss_kept, State.copyVictim_kept3]

theorem State.beginFill_memWf (s : State) (m : Miss) (hm : s.memWf) : (State.beginFill s m).memWf := by
  unfold State.beginFill
  grind [State.memWf, State.kept, State.setLine_kept, State.setMiss_kept, State.copyVictim_memWf]

theorem State.fillBoard_kept3 (s : State) (id i : Nat) (bs : Bytes) : (State.fillBoard s id i bs).kept3 = s.kept3 := by
  unfold State.fillBoard
  grind [State.kept3, State.kept, State.writeBytes_kept3, State.setLine_kept, State.setMiss_kept, State.beginFill_kept3]

theorem State.fillBoard_memWf (s : State) (id i : Nat) (bs : Bytes) (hm : s.memWf) : (State.fillBoard s id i bs).memWf := by
  unfold State.fillBoard
  grind [State.memWf, State.kept, State.writeBytes_memWf, State.setLine_kept, State.setMiss_kept, State.beginFill_memWf]

theorem State.endFill_kept (s : State) (m : Miss) (how : FillEnd) (closing : Bool) : (State.endFill s m how closing).kept =
    s.kept := by
  unfold State.endFill
  grind [State.kept_mk, State.bump_kept, State.setLine_kept, State.retireSweep_kept, State.setMiss_kept, State.freeMiss_kept]

theorem State.dirtyEntry_kept (s : State) (slot log : Nat) : (State.dirtyEntry s slot log).1.kept = s.kept := by
  unfold State.dirtyEntry
  grind [State.kept_mk, State.bump_kept, State.setLine_kept, State.victim_kept]

theorem State.dirtyBoard_kept3 (s : State) (e lba : Nat) (head payload : Bytes) : (State.dirtyBoard s e lba head
    payload).kept3 = s.kept3 := by
  unfold State.dirtyBoard
  simp only [↓State.kept3_mk, ↓State.kept3_fold, ↓State.writeBytes_kept3, ↓State.kept3_of (State.setLine_kept _ _ _)]

theorem State.dirtyBoard_memWf (s : State) (e lba : Nat) (head payload : Bytes) (hm : s.memWf) : (State.dirtyBoard s e lba
    head payload).memWf := by
  unfold State.dirtyBoard
  simp only [↓State.memWf_mk, ↓State.memWf_fold, State.writeBytes_memWf, ↓State.memWf_of (State.setLine_kept _ _ _), hm]

theorem State.dropHeads_kept (s : State) (slot log : Nat) : (State.dropHeads s slot log).kept = s.kept := by
  unfold State.dropHeads
  simp only [↓State.kept_mk, ↓State.kept_fold]

theorem State.handOver_kept3 (s : State) (e : Nat) : (State.handOver s e).1.kept3 = s.kept3 := by
  unfold State.handOver
  simp only []
  (repeat' split) <;> (try refine (State.kept3_foldl _ _ _ fun t x => ?_).trans ?_) <;> (try dsimp only) <;> (repeat' split)
      <;> (try simp only []) <;> grind [State.kept3, State.kept, State.raiseHub_kept, State.checkRange_kept,
      State.writeBytes_kept3, State.setLine_kept, State.retireSweep_kept, State.dropHeads_kept]

theorem State.handOver_memWf (s : State) (e : Nat) (hm : s.memWf) : (State.handOver s e).1.memWf := by
  unfold State.handOver
  simp only [↓State.memWf_mk, ↓State.memWf_fold, ↓State.memWf_of (State.raiseHub_kept _ _ _ _ _ _), ↓State.memWf_of
      (State.checkRange_kept _ _ _ _ _), State.writeBytes_memWf, ↓State.memWf_of (State.setLine_kept _ _ _), ↓State.memWf_of
      (State.retireSweep_kept _), ↓State.memWf_of (State.dropHeads_kept _ _ _), hm]
  (repeat' split) <;> (try refine State.memWf_foldl _ _ _ (fun t x hm => ?_) ?_) <;> (try dsimp only) <;> (repeat' split) <;>
      (try simp only [↓State.memWf_mk, ↓State.memWf_fold, ↓State.memWf_of (State.raiseHub_kept _ _ _ _ _ _), ↓State.memWf_of
      (State.checkRange_kept _ _ _ _ _), State.writeBytes_memWf, ↓State.memWf_of (State.setLine_kept _ _ _), ↓State.memWf_of
      (State.retireSweep_kept _), ↓State.memWf_of (State.dropHeads_kept _ _ _), hm]) <;> grind [State.memWf, State.kept,
      State.raiseHub_kept, State.checkRange_kept, State.writeBytes_memWf, State.setLine_kept, State.retireSweep_kept,
      State.dropHeads_kept]

theorem State.settleLine_kept (s : State) (slot log : Nat) (ok : Bool) : (State.settleLine s slot log ok).kept = s.kept := by
  unfold State.settleLine
  grind [State.kept_mk, State.setLine_kept, State.retireSweep_kept, State.dropHeads_kept]

theorem State.moveInvalidate_kept (s : State) (slot : Nat) : (State.moveInvalidate s slot).kept = s.kept := by
  unfold State.moveInvalidate
  (repeat' split) <;> simp_all [↓State.kept_mk, ↓State.kept_fold, ↓State.kept_ite, ↓State.bump_kept, ↓State.setLine_kept,
      State.kept_foldl]

end Sys2Proof.Machine
end

