-- ==== Sys2Proof/Laws/KeptVlkOps.lean ====
section
/-! SUPPORT. What no command changes, and the form of memory: lemmas of VlkOps. -/
namespace Sys2Proof.Machine

set_option linter.unusedSimpArgs false
set_option linter.unusedTactic false
set_option linter.unnecessarySeqFocus false
set_option linter.unreachableTactic false
set_option linter.tactic.unusedName false

theorem State.seeTime_kept (s : State) : (State.seeTime s).kept = s.kept := by
  unfold State.seeTime
  simp only [↓State.kept_mk, ↓State.kept_fold]

theorem State.setSession_kept (s : State) (x : Session) : (State.setSession s x).kept = s.kept := by
  unfold State.setSession
  simp only [↓State.kept_mk, ↓State.kept_fold]

theorem State.freeSession_kept (s : State) (id : Nat) : (State.freeSession s id).kept = s.kept := by
  unfold State.freeSession
  simp only [↓State.kept_mk, ↓State.kept_fold]

theorem State.takeContext_kept (s : State) (x : Session) : (State.takeContext s x).kept = s.kept := by
  unfold State.takeContext
  simp only [↓State.kept_mk, ↓State.kept_fold]

theorem State.checkSession_kept (s : State) (id f title : Nat) (mode : Option Nat) (off count : Nat) : (State.checkSession s
    id f title mode off count).1.kept = s.kept := by
  unfold State.checkSession
  grind [State.kept_mk, State.bump_kept, State.seeTime_kept, State.setSession_kept]

theorem State.installKey_kept (s : State) (title : Nat) (key : Bytes) : (State.installKey s title key).1.kept = s.kept := by
  unfold State.installKey
  simp only [↓State.kept_mk, ↓State.kept_fold, ↓State.kept_ite, ↓State.kept_fst_ite, ↓State.bump_kept]
  (repeat' split) <;> simp only [↓State.kept_mk, ↓State.kept_fold, ↓State.kept_ite, ↓State.kept_fst_ite, ↓State.bump_kept,
      ite_self]

theorem State.keyConflict_kept (s : State) (unit title : Nat) : (State.keyConflict s unit title).kept = s.kept := by
  unfold State.keyConflict
  simp only [↓State.bump_kept, ↓State.raiseHub_kept]

theorem State.staleSlot_kept (s : State) (slot : Nat) : (State.staleSlot s slot).kept = s.kept := by
  unfold State.staleSlot
  simp only [↓State.kept_mk, ↓State.kept_fold, ↓State.moveInvalidate_kept]

theorem State.mirror_kept (s : State) (slot : Nat) (exts : List Extent) : (State.mirror s slot exts).kept = s.kept := by
  unfold State.mirror
  (repeat' split) <;> simp_all [↓State.kept_mk, ↓State.kept_fold, ↓State.kept_ite, ↓State.bump_kept, State.kept_foldl]

end Sys2Proof.Machine
end

