-- ==== Sys2Proof/Laws/KeptQenOps.lean ====
section
/-! SUPPORT. What no command changes, and the form of memory: lemmas of QenOps. -/
namespace Sys2Proof.Machine

set_option linter.unusedSimpArgs false
set_option linter.unusedTactic false
set_option linter.unnecessarySeqFocus false
set_option linter.unreachableTactic false
set_option linter.tactic.unusedName false

theorem State.setQueue_kept (s : State) (x : Queue) : (State.setQueue s x).kept = s.kept := by
  unfold State.setQueue
  simp only [↓State.kept_mk, ↓State.kept_fold]

theorem State.dropQueue_kept (s : State) (f q : Nat) : (State.dropQueue s f q).kept = s.kept := by
  unfold State.dropQueue
  simp only [↓State.kept_mk, ↓State.kept_fold]

theorem State.setCmd_kept (s : State) (c : Cmd) : (State.setCmd s c).kept = s.kept := by
  unfold State.setCmd
  simp only [↓State.kept_mk, ↓State.kept_fold]

theorem State.leaveRequests_kept (s : State) (id : Nat) : (State.leaveRequests s id).kept = s.kept := by
  unfold State.leaveRequests
  simp only [↓State.kept_mk, ↓State.kept_fold]

theorem State.dropCmd_kept (s : State) (id : Nat) : (State.dropCmd s id).kept = s.kept := by
  unfold State.dropCmd
  simp only [↓State.kept_mk, ↓State.kept_fold, ↓State.leaveRequests_kept]

theorem State.finish_kept (s : State) (c : Cmd) (status result : Nat) : (State.finish s c status result).kept = s.kept := by
  unfold State.finish
  simp only [↓State.kept_mk, ↓State.kept_fold, ↓State.kept_ite]
  grind [State.kept_mk, State.setSession_kept, State.dropCmd_kept]

theorem State.finishId_kept (s : State) (id status result : Nat) : (State.finishId s id status result).kept = s.kept := by
  unfold State.finishId
  grind [State.kept_mk, State.finish_kept]

theorem State.signal_kept (s : State) (x : Queue) : (State.signal s x).kept = s.kept := by
  unfold State.signal
  grind [State.kept_mk, State.msixFire_kept, State.setQueue_kept]

theorem State.logError_kept (s : State) (e : ErrEntry) : (State.logError s e).kept = s.kept := by
  unfold State.logError
  simp only [↓State.kept_mk, ↓State.kept_fold, ↓State.pageChanged_kept]

theorem State.postEntry_kept (s : State) (x : Queue) (p : Post) : (State.postEntry s x p).kept = s.kept := by
  unfold State.postEntry
  (repeat' split) <;> simp only [↓State.kept_mk, ↓State.kept_fold, ↓State.hostWrite_kept, ↓State.signal_kept,
      ↓State.logError_kept]

theorem State.postOne_kept (s : State) (f q : Nat) : (State.postOne s f q).kept = s.kept := by
  unfold State.postOne
  grind [State.kept_mk, State.postEntry_kept]

theorem State.postAll_kept (s : State) (f q : Nat) : (State.postAll s f q).kept = s.kept := by
  unfold State.postAll
  (repeat' split) <;> simp_all [↓State.postOne_kept, State.kept_foldl]

theorem State.doorbellRefused_kept (s : State) (f q : Nat) : (State.doorbellRefused s f q).kept = s.kept := by
  unfold State.doorbellRefused
  simp only [↓State.put_kept, ↓State.bump_kept, ↓State.irq_kept, ↓State.raiseHub_kept]

theorem State.tailWrite_kept (s : State) (f q v : Nat) : (State.tailWrite s f q v).kept = s.kept := by
  unfold State.tailWrite
  grind [State.kept_mk, State.setQueue_kept, State.doorbellRefused_kept]

theorem State.headWrite_kept (s : State) (f q v : Nat) : (State.headWrite s f q v).kept = s.kept := by
  unfold State.headWrite
  grind [State.kept_mk, State.setMsix_kept, State.setQueue_kept, State.doorbellRefused_kept]

theorem State.grant_kept (s t : State) (x : Queue) (h : s.grant = some (x, t)) : t.kept = s.kept := by
  unfold State.grant at h
  have hmap : ∀ (r : Option (Queue × State)) (y : Queue) (u : State), (∀ y u, r = some (y, u) → u.kept = s.kept) →
      (r.map fun (x, t) => (x, { t with qen := { t.qen with fetchNo := t.qen.fetchNo + 1 } })) = some (y, u) → u.kept = s.kept := by
    intro r y u hr hy
    obtain ⟨⟨a, b⟩, hab, he⟩ := Option.map_eq_some_iff.1 hy
    have := hr a b hab
    cases he
    exact this
  simp only [] at h
  have hm : ∀ y u, ((roundRobin ((s.qen.queues.filter s.fetchable).filter fun x => x.qid == 0) s.qen.lastMq).map fun x =>
      (x, { s with qen := { s.qen with lastMq := 513 * x.func } })) = some (y, u) → u.kept = s.kept := by
    intro y u hy
    obtain ⟨a, ha, he⟩ := Option.map_eq_some_iff.1 hy
    cases he
    rfl
  split at h
  · exact hmap _ _ _ hm h
  · split at h
    · exact hmap _ _ _ (by intro y u hy; cases hy; rfl) h
    · split at h
      · refine hmap _ _ _ (fun y u hy => ?_) h
        obtain ⟨a, ha, he⟩ := Option.map_eq_some_iff.1 hy
        cases he
        rfl
      · exact hmap _ _ _ hm h

theorem State.fetch_kept (s : State) : (State.fetch s).kept = s.kept := by
  unfold State.fetch
  grind [State.kept_mk, State.hostRead_kept, State.setQueue_kept, State.grant_kept]

end Sys2Proof.Machine
end

