-- ==== Sys2Proof/Laws/KeptDataOps.lean ====
section
/-! SUPPORT. What no command changes, and the form of memory: lemmas of DataOps. -/
namespace Sys2Proof.Machine

set_option linter.unusedSimpArgs false
set_option linter.unusedTactic false
set_option linter.unnecessarySeqFocus false
set_option linter.unreachableTactic false
set_option linter.tactic.unusedName false

theorem State.ifDone_kept (s : State) (id : Nat) : (State.ifDone s id).kept = s.kept := by
  unfold State.ifDone
  grind [State.kept_mk, State.finish_kept]

theorem State.zeroTags_kept (s : State) (c : Cmd) (l : List Nat) : (State.zeroTags s c l).kept = s.kept := by
  unfold State.zeroTags
  (repeat' split) <;> simp_all [↓State.hostWrite_kept, State.kept_foldl]

theorem State.failLog_kept (s : State) (id slot log st : Nat) : (State.failLog s id slot log st).kept = s.kept := by
  unfold State.failLog
  grind [State.kept_mk, State.setCmd_kept, State.ifDone_kept, State.zeroTags_kept]

theorem State.failRequest_kept (s : State) (r : Request) (st : Nat) : (State.failRequest s r st).kept = s.kept := by
  unfold State.failRequest
  grind [State.kept_mk, State.failLog_kept]

theorem State.deliverBoard_kept (s : State) (c : Cmd) (i slot lba : Nat) (payload : Bytes) : (State.deliverBoard s c i slot
    lba payload).kept = s.kept := by
  unfold State.deliverBoard
  grind [State.kept_mk, State.hostWrite_kept, State.setSession_kept]

theorem State.deliverAll_kept (s : State) (c : Cmd) (mem base : Nat) (l : List (Nat × Nat × Nat × Nat)) : (State.deliverAll s
    c mem base l).kept = s.kept := by
  unfold State.deliverAll
  (repeat' split) <;> simp_all [↓State.deliverBoard_kept, State.kept_foldl]

theorem State.checkBoards_kept (s : State) (mem base : Nat) (l : List (Nat × Nat × Nat × Nat)) : (State.checkBoards s mem
    base l).1.kept = s.kept := by
  unfold State.checkBoards
  simp only []
  (repeat' split) <;> (try refine (State.kept_foldl_fst _ _ _ fun t y x => ?_).trans ?_) <;> (try dsimp only) <;> (repeat'
      split) <;> (try simp only []) <;> grind [State.kept_mk, State.checkRange_kept]

theorem State.refetch_kept (s : State) (r : Request) (e : Nat) (bad : List Nat) : (State.refetch s r e bad).kept = s.kept :=
    by
  unfold State.refetch
  grind [State.kept_mk, State.setLine_kept, State.park_kept, State.addMiss_kept]

theorem State.serveEntry_kept (s : State) (r : Request) (e : Nat) (filled multi : Bool) : (State.serveEntry s r e filled
    multi).kept = s.kept := by
  unfold State.serveEntry
  grind [State.kept_mk, State.setCmd_kept, State.ifDone_kept, State.zeroTags_kept, State.deliverAll_kept,
      State.checkBoards_kept, State.refetch_kept]

theorem State.serveCopy_kept (s : State) (r : Request) (idx : Nat) (filled multi : Bool) : (State.serveCopy s r idx filled
    multi).1.kept = s.kept := by
  unfold State.serveCopy
  (repeat' split) <;> simp_all [↓State.kept_mk, ↓State.kept_fold, ↓State.kept_fst_ite, ↓State.setCmd_kept,
      ↓State.ifDone_kept, ↓State.deliverAll_kept, ↓State.checkBoards_kept]

theorem State.rangeLine_kept (s : State) (slot log : Nat) (ok : Bool) : (State.rangeLine s slot log ok).kept = s.kept := by
  unfold State.rangeLine
  (repeat' split) <;> simp only [↓State.kept_mk, ↓State.kept_fold, ↓State.bump_kept]

theorem State.preloadEnd_kept (s : State) (slot log : Nat) (how : FillEnd) : (State.preloadEnd s slot log how).kept = s.kept
    := by
  unfold State.preloadEnd
  simp only []
  (repeat' split) <;> (try refine (State.kept_foldl _ _ _ fun t x => ?_).trans ?_) <;> (try dsimp only) <;> (repeat' split)
      <;> (try simp only []) <;> grind [State.kept_mk, State.setCmd_kept, State.ifDone_kept, State.rangeLine_kept]

theorem State.request_kept (s : State) (r : Request) : (State.request s r).kept = s.kept := by
  unfold State.request
  (repeat' split) <;> grind [State.kept_mk, State.bump_kept, State.lookup_kept, State.setCmd_kept, State.failRequest_kept,
      State.serveEntry_kept, State.serveCopy_kept, State.preloadEnd_kept]

theorem State.fillOver_kept (s : State) (m : Miss) (how : FillEnd) (closing multi : Bool) : (State.fillOver s m how closing
    multi).kept = s.kept := by
  unfold State.fillOver
  (repeat' split) <;> simp_all [↓State.kept_ite, ↓State.endFill_kept, ↓State.failRequest_kept, ↓State.serveEntry_kept,
      ↓State.serveCopy_kept, ↓State.preloadEnd_kept, State.kept_foldl]

theorem State.writersGone_kept (s : State) (slot log : Nat) (ok : Bool) : (State.writersGone s slot log ok).kept = s.kept :=
    by
  unfold State.writersGone
  (repeat' split) <;> simp only [↓State.kept_mk, ↓State.kept_fold]

theorem State.lineSettled_kept (s : State) (slot log st : Nat) : (State.lineSettled s slot log st).kept = s.kept := by
  unfold State.lineSettled
  simp only []
  (repeat' split) <;> (try refine (State.kept_foldl _ _ _ fun t x => ?_).trans ?_) <;> (try dsimp only) <;> (repeat' split)
      <;> (try simp only []) <;> grind [State.kept_mk, State.bump_kept, State.setCmd_kept, State.ifDone_kept,
      State.writersGone_kept]

theorem State.handOverLine_kept3 (s : State) (e : Nat) : (State.handOverLine s e).kept3 = s.kept3 := by
  unfold State.handOverLine
  grind [State.kept3, State.kept, State.handOver_kept3, State.lineSettled_kept]

theorem State.handOverLine_memWf (s : State) (e : Nat) (hm : s.memWf) : (State.handOverLine s e).memWf := by
  unfold State.handOverLine
  grind [State.memWf, State.kept, State.handOver_memWf, State.lineSettled_kept]

theorem State.handOverKeys_kept3 (s : State) (ks : List (Nat × Nat)) : (State.handOverKeys s ks).kept3 = s.kept3 := by
  exact State.kept3_foldl _ _ _ fun t x => by
    split
    · exact State.handOverLine_kept3 _ _
    · rfl

theorem State.handOverKeys_memWf (s : State) (ks : List (Nat × Nat)) (hm : s.memWf) : (State.handOverKeys s ks).memWf := by
  exact State.memWf_foldl _ _ _ (fun t x h => by
    split
    · exact State.handOverLine_memWf _ _ h
    · exact h) hm

end Sys2Proof.Machine
end

