-- ==== Sys2Proof/Laws/KeptCrewOps.lean ====
section
/-! SUPPORT. What no command changes, and the form of memory: lemmas of CrewOps. -/
namespace Sys2Proof.Machine

set_option linter.unusedSimpArgs false
set_option linter.unusedTactic false
set_option linter.unnecessarySeqFocus false
set_option linter.unreachableTactic false
set_option linter.tactic.unusedName false

theorem State.sendWork_kept (s : State) (d : Die) (kind cls bay func qid : Nat) (cont : List Nat) (what : Purpose) :
    (State.sendWork s d kind cls bay func qid cont what).1.kept = s.kept := by
  unfold State.sendWork
  simp only [↓State.kept_mk, ↓State.kept_fold, ↓State.send_kept]

theorem State.closeItem_kept (s : State) (d : Die) (item : Nat) : (State.closeItem s d item).kept = s.kept := by
  unfold State.closeItem
  simp only [↓State.kept_mk, ↓State.kept_fold]

theorem State.sendReset_kept (s : State) (d : Die) (one : Bool) (item func qid : Nat) : (State.sendReset s d one item func
    qid).kept = s.kept := by
  unfold State.sendReset
  simp only [↓State.kept_mk, ↓State.kept_fold, ↓State.send_kept]

theorem State.setHubBay_kept (s : State) (b : Bay) (x : HubBay) : (State.setHubBay s b x).kept = s.kept := by
  unfold State.setHubBay
  simp only [↓State.kept_mk, ↓State.kept_fold]

theorem State.mapDisc_kept (s : State) (b : Bay) (f : BayDisc → BayDisc) : (State.mapDisc s b f).kept = s.kept := by
  unfold State.mapDisc
  simp only [↓State.setHubBay_kept]

theorem State.sendFill_kept (s : State) (m : Miss) (b : Bay) : (State.sendFill s m b).kept = s.kept := by
  unfold State.sendFill
  simp only [↓State.setMiss_kept, ↓State.sendWork_kept]

theorem State.sendRecord_kept (s : State) (e : Nat) (b : Bay) (cls func qid : Nat) : (State.sendRecord s e b cls func
    qid).kept = s.kept := by
  unfold State.sendRecord
  (repeat' split) <;> simp_all [↓State.send_kept, ↓State.sendWork_kept, State.kept_foldl]

theorem State.pumpFills_kept (s : State) : (State.pumpFills s).kept = s.kept := by
  refine State.kept_foldl _ _ _ fun t x => ?_
  split
  · rfl
  · split
    · rfl
    · split
      · rfl
      · split
        · simp only [State.fillOver_kept]
        · split
          · simp only [State.sendFill_kept]
          · rfl

theorem State.pumpRecords_kept (s : State) : (State.pumpRecords s).kept = s.kept := by
  unfold State.pumpRecords
  simp only []
  (repeat' split) <;> (try refine (State.kept_foldl _ _ _ fun t x => ?_).trans ?_) <;> (try dsimp only) <;> (repeat' split)
      <;> (try simp only []) <;> grind [State.kept_mk, State.settleLine_kept, State.lineSettled_kept, State.sendRecord_kept]

theorem State.wantMount_kept (s : State) (slot : Nat) (bay : Option Bay) (cls func qid : Nat) (o : MountOwner) :
    (State.wantMount s slot bay cls func qid o).kept = s.kept := by
  unfold State.wantMount
  (repeat' split) <;> simp only [↓State.kept_mk, ↓State.kept_fold]

theorem State.setMount_kept (s : State) (j : MountJob) : (State.setMount s j).kept = s.kept := by
  unfold State.setMount
  simp only [↓State.kept_mk, ↓State.kept_fold]

theorem State.setTask_kept (s : State) (b : Bay) (t : BayTask) : (State.setTask s b t).kept = s.kept := by
  unfold State.setTask
  simp only [↓State.setHubBay_kept]

theorem State.spinUp_kept (s : State) (j : MountJob) (b : Bay) : (State.spinUp s j b).kept = s.kept := by
  unfold State.spinUp
  simp only [↓State.sendWork_kept, ↓State.setHubBay_kept, ↓State.setMount_kept]

theorem State.fetchDisc_kept (s : State) (j : MountJob) (b : Bay) : (State.fetchDisc s j b).kept = s.kept := by
  unfold State.fetchDisc
  simp only [↓State.sendWork_kept, ↓State.setMount_kept, ↓State.setTask_kept]

theorem State.returnDisc_kept (s : State) (b : Bay) (cls func qid : Nat) : (State.returnDisc s b cls func qid).kept = s.kept
    := by
  unfold State.returnDisc
  grind [State.kept_mk, State.sendWork_kept]

theorem State.clearBay_kept (s : State) (b : Bay) (cls func qid : Nat) : (State.clearBay s b cls func qid).kept = s.kept :=
    by
  unfold State.clearBay
  grind [State.kept_mk, State.sendWork_kept, State.setTask_kept, State.returnDisc_kept]

theorem State.startMount_kept (s : State) (j : MountJob) : (State.startMount s j).kept = s.kept := by
  unfold State.startMount
  grind [State.kept_mk, State.setMount_kept, State.spinUp_kept, State.fetchDisc_kept, State.clearBay_kept]

theorem State.pumpMounts_kept (s : State) : (State.pumpMounts s).kept = s.kept := by
  unfold State.pumpMounts
  simp only [↓State.kept_mk, ↓State.kept_fold, ↓State.kept_ite, ↓State.kept_fst_ite, ↓State.startMount_kept]
  (repeat' split) <;> (try refine (State.kept_foldl _ _ _ fun t x => ?_).trans ?_) <;> (try dsimp only) <;> (repeat' split)
      <;> (try simp only [↓State.kept_mk, ↓State.kept_fold, ↓State.kept_ite, ↓State.kept_fst_ite, ↓State.startMount_kept])
      <;> grind [State.kept_mk, State.startMount_kept]

theorem State.wantMounts_kept (s : State) : (State.wantMounts s).kept = s.kept := by
  unfold State.wantMounts
  (repeat' split) <;> simp_all [↓State.kept_ite, ↓State.wantMount_kept, State.kept_foldl]

theorem State.startGen_kept (s : State) (b : Bay) (cause : GenCause) (cls : Nat) : (State.startGen s b cause cls).kept =
    s.kept := by
  unfold State.startGen
  grind [State.kept_mk, State.setHubBay_kept]

theorem State.sendGen_kept (s : State) (b : Bay) : (State.sendGen s b).kept = s.kept := by
  unfold State.sendGen
  simp only []
  (repeat' split) <;> (try refine (State.kept_foldl _ _ _ fun t x => ?_).trans ?_) <;> (try dsimp only) <;> (repeat' split)
      <;> (try simp only []) <;> grind [State.kept_mk, State.send_kept, State.sendWork_kept, State.setHubBay_kept]

theorem State.pumpUnmount_kept (s : State) (b : Bay) : (State.pumpUnmount s b).kept = s.kept := by
  unfold State.pumpUnmount
  grind [State.kept_mk, State.clearBay_kept, State.startGen_kept]

theorem State.pump_kept (s : State) : (State.pump s).kept = s.kept := by
  unfold State.pump
  (repeat' split) <;> simp_all [↓State.pumpFills_kept, ↓State.pumpRecords_kept, ↓State.pumpMounts_kept,
      ↓State.wantMounts_kept, ↓State.pumpUnmount_kept, State.kept_foldl]

end Sys2Proof.Machine
end

