-- ==== Sys2Proof/Laws/KeptRangeOps.lean ====
section
/-! SUPPORT. What no command changes, and the form of memory: lemmas of RangeOps. -/
namespace Sys2Proof.Machine

set_option linter.unusedSimpArgs false
set_option linter.unusedTactic false
set_option linter.unnecessarySeqFocus false
set_option linter.unreachableTactic false
set_option linter.tactic.unusedName false

theorem State.abandonFill_kept (s : State) (m : Miss) (st : Nat) : (State.abandonFill s m st).kept = s.kept := by
  unfold State.abandonFill
  grind [State.kept_mk, State.fillOver_kept, State.sendReset_kept]

theorem State.refill_kept (s : State) (m : Miss) : (State.refill s m).kept = s.kept := by
  unfold State.refill
  grind [State.kept_mk, State.bump_kept, State.setMiss_kept, State.abandonFill_kept]

theorem State.loseTag_kept (s : State) (e : Nat) : (State.loseTag s e).kept = s.kept := by
  unfold State.loseTag
  grind [State.kept_mk, State.raiseHub_kept, State.setLine_kept, State.dropHeads_kept, State.lineSettled_kept,
      State.refill_kept]

theorem State.checkTags_kept (s : State) (slot log : Nat) : (State.checkTags s slot log).kept = s.kept := by
  unfold State.checkTags
  (repeat' split) <;> simp_all [↓State.kept_ite, ↓State.setFlips_kept, ↓State.checkRange_kept, ↓State.loseTag_kept,
      State.kept_foldl]

theorem State.rangeDid_kept (s : State) (n : Nat) : (State.rangeDid s n).kept = s.kept := by
  unfold State.rangeDid
  simp only [↓State.bumpBy_kept]

theorem invalidateEntry_kept (force : Bool) (s : State) (x : Nat × Line) : (invalidateEntry force s x).kept = s.kept := by
  unfold invalidateEntry
  grind [State.kept_mk, State.bump_kept, State.setLine_kept, State.rangeDid_kept]

theorem unlockEntry_kept (s : State) (x : Nat × Line) : (unlockEntry s x).kept = s.kept := by
  unfold unlockEntry
  grind [State.kept_mk, State.setLine_kept, State.rangeDid_kept]

theorem State.scrub_kept3 (s : State) (a n req : Nat) : (State.scrub s a n req).1.kept3 = s.kept3 := by
  unfold State.scrub
  simp only []
  (repeat' split) <;> (try refine (State.kept3_foldl_fst _ _ _ fun t y x => ?_).trans ?_) <;> (try dsimp only) <;> (repeat'
      split) <;> (try simp only []) <;> grind [State.kept3, State.kept, State.countUe_kept, State.countCe_kept,
      State.writeBytes_kept3]

theorem State.scrub_memWf (s : State) (a n req : Nat) (hm : s.memWf) : (State.scrub s a n req).1.memWf := by
  unfold State.scrub
  simp only [↓State.memWf_mk, ↓State.memWf_fold, ↓State.memWf_of (State.countUe_kept _ _ _ _ _ _), ↓State.memWf_of
      (State.countCe_kept _ _ _ _ _), State.writeBytes_memWf, hm]
  (repeat' split) <;> (try refine State.memWf_foldl_fst _ _ _ (fun t y x hm => ?_) ?_) <;> (try dsimp only) <;> (repeat'
      split) <;> (try simp only [↓State.memWf_mk, ↓State.memWf_fold, ↓State.memWf_of (State.countUe_kept _ _ _ _ _ _),
      ↓State.memWf_of (State.countCe_kept _ _ _ _ _), State.writeBytes_memWf, hm]) <;> grind [State.memWf, State.kept,
      State.countUe_kept, State.countCe_kept, State.writeBytes_memWf]

theorem State.putWide_kept (s : State) (a : Nat) (lo hi : Field) (v : Nat) : (State.putWide s a lo hi v).kept = s.kept := by
  unfold State.putWide
  simp only [↓State.put_kept]

theorem scrubEntry_kept3 (s : State) (x : Nat × Line) : (scrubEntry s x).kept3 = s.kept3 := by
  unfold scrubEntry
  grind [State.kept3, State.kept, State.bumpBy_kept, State.rangeDid_kept, State.scrub_kept3, State.putWide_kept]

theorem scrubEntry_memWf (s : State) (x : Nat × Line) (hm : s.memWf) : (scrubEntry s x).memWf := by
  unfold scrubEntry
  grind [State.memWf, State.kept, State.bumpBy_kept, State.rangeDid_kept, State.scrub_memWf, State.putWide_kept]

theorem State.tagWalk_kept3 (s : State) (o : RangeOp) : (State.tagWalk s o).kept3 = s.kept3 := by
  unfold State.tagWalk
  (repeat' split) <;> simp_all [↓State.kept3_mk, ↓State.kept3_fold, ↓State.handOverKeys_kept3, ↓State.kept3_of
      (State.rangeDid_kept _ _), ↓State.kept3_of (invalidateEntry_kept _ _ _), ↓State.kept3_of (unlockEntry_kept _ _),
      ↓scrubEntry_kept3, State.kept3_foldl]

theorem State.tagWalk_memWf (s : State) (o : RangeOp) (hm : s.memWf) : (State.tagWalk s o).memWf := by
  unfold State.tagWalk
  (repeat' split) <;> simp_all [↓State.memWf_mk, ↓State.memWf_fold, State.handOverKeys_memWf, ↓State.memWf_of
      (State.rangeDid_kept _ _), ↓State.memWf_of (invalidateEntry_kept _ _ _), ↓State.memWf_of (unlockEntry_kept _ _),
      scrubEntry_memWf, State.memWf_foldl]

theorem pumpRangeN_kept (n : Nat) (s : State) : (pumpRangeN n s).kept = s.kept := by
  induction n generalizing s with
  | zero => rfl
  | succ n ih =>
    unfold pumpRangeN
    split
    · rfl
    · simp only []
      split
      · rfl
      · split
        · rw [ih]; rfl
        · rw [ih, State.request_kept, State.rangeDid_kept]; rfl

theorem State.pumpRange_kept (s : State) : (State.pumpRange s).kept = s.kept := by
  unfold State.pumpRange
  grind [State.kept_mk, pumpRangeN_kept]

theorem State.settleWork_kept (s : State) : (State.settleWork s).kept = s.kept := by
  unfold State.settleWork
  simp only [↓State.pump_kept, ↓State.pumpRange_kept]

theorem State.startRange_kept3 (s : State) (o : RangeOp) : (State.startRange s o).kept3 = s.kept3 := by
  unfold State.startRange
  (repeat' split) <;> simp_all [↓State.kept3_mk, ↓State.kept3_fold, ↓State.kept3_of (State.put_kept _ _ _ _ _ _),
      ↓State.tagWalk_kept3, ↓State.kept3_of (State.settleWork_kept _)]

theorem State.startRange_memWf (s : State) (o : RangeOp) (hm : s.memWf) : (State.startRange s o).memWf := by
  unfold State.startRange
  refine (State.memWf_of (State.settleWork_kept _)).2 (State.tagWalk_memWf _ _ ?_)
  have hz : ∀ (l : List Field) (a : Nat) (t : State), (l.foldl (fun t f => t.put a f 0) t).kept = t.kept :=
    fun l a t => State.kept_foldl _ _ _ fun _ _ => State.put_kept _ _ _ _ _ _
  refine (State.memWf_of (s := s) ?_).2 hm
  simp only [↓State.kept_mk, ↓State.kept_fold, ↓State.put_kept, ↓State.kept_ite, ↓hz, ite_self]

theorem State.rangeStart_kept3 (s : State) (kind : Option RangeKind) (force : Bool) (cls slots : Nat) : (State.rangeStart s
    kind force cls slots).kept3 = s.kept3 := by
  unfold State.rangeStart
  grind [State.kept3, State.kept, State.put_kept, State.startRange_kept3]

theorem State.rangeStart_memWf (s : State) (kind : Option RangeKind) (force : Bool) (cls slots : Nat) (hm : s.memWf) :
    (State.rangeStart s kind force cls slots).memWf := by
  unfold State.rangeStart
  grind [State.memWf, State.kept, State.put_kept, State.startRange_memWf]

theorem startWaiting_kept3 (l : List RangeOp) (s : State) : (startWaiting l s).kept3 = s.kept3 := by
  induction l generalizing s with
  | nil => rfl
  | cons o rest ih =>
    unfold startWaiting
    grind [State.kept3, State.kept, State.startRange_kept3, State.finish_kept]

theorem startWaiting_memWf (l : List RangeOp) (s : State) (hm : s.memWf) : (startWaiting l s).memWf := by
  induction l generalizing s with
  | nil => exact hm
  | cons o rest ih =>
    unfold startWaiting
    grind [State.memWf, State.kept, State.startRange_memWf, State.finish_kept]

theorem State.nextRange_kept3 (s : State) : (State.nextRange s).kept3 = s.kept3 := by
  unfold State.nextRange
  simp only [↓State.kept3_mk, ↓State.kept3_fold, ↓State.kept3_ite, ↓startWaiting_kept3]

theorem State.nextRange_memWf (s : State) (hm : s.memWf) : (State.nextRange s).memWf := by
  unfold State.nextRange
  simp only [↓State.memWf_mk, ↓State.memWf_fold, startWaiting_memWf, hm]

theorem State.endRange_kept3 (s : State) : (State.endRange s).kept3 = s.kept3 := by
  unfold State.endRange
  grind [State.kept3, State.kept, State.put_kept, State.hostWrite_kept, State.epEvt_kept, State.finish_kept,
      State.nextRange_kept3]

theorem State.endRange_memWf (s : State) (hm : s.memWf) : (State.endRange s).memWf := by
  unfold State.endRange
  grind [State.memWf, State.kept, State.put_kept, State.hostWrite_kept, State.epEvt_kept, State.finish_kept,
      State.nextRange_memWf]

theorem State.commandRange_kept3 (s : State) (o : RangeOp) : (State.commandRange s o).kept3 = s.kept3 := by
  unfold State.commandRange
  grind [State.kept3, State.kept, State.startRange_kept3]

theorem State.commandRange_memWf (s : State) (o : RangeOp) (hm : s.memWf) : (State.commandRange s o).memWf := by
  unfold State.commandRange
  grind [State.memWf, State.kept, State.startRange_memWf]

theorem State.commitWindow_kept (s : State) : (State.commitWindow s).kept = s.kept := by
  unfold State.commitWindow
  (repeat' split) <;> simp_all [↓State.put_kept, ↓State.activate_kept, State.kept_foldl]

theorem State.winRefused_kept (s : State) (r : WinReq) : (State.winRefused s r).kept = s.kept := by
  unfold State.winRefused
  grind [State.kept_mk, State.put_kept, State.bump_kept, State.emit_kept, State.aer_kept, State.putWide_kept]

theorem State.winServe_kept3 (s : State) (r : WinReq) : (State.winServe s r).kept3 = s.kept3 := by
  unfold State.winServe
  simp only [↓State.kept3_of (State.emit_kept _ _), ↓State.kept3_of (State.aer_kept _ _ _), ↓State.kept3_of
      (State.winRefused_kept _ _)]
  (repeat' split) <;> (try refine (State.kept3_foldl _ _ _ fun t x => ?_).trans ?_) <;> (try dsimp only) <;> (repeat' split)
      <;> (try simp only [↓State.kept3_of (State.emit_kept _ _), ↓State.kept3_of (State.aer_kept _ _ _), ↓State.kept3_of
      (State.winRefused_kept _ _)]) <;> grind [State.kept3, State.kept, State.emit_kept, State.aer_kept, State.pevLog_kept,
      State.checkRange_kept, State.storeBytes_kept3, State.inject_kept, State.winRefused_kept]

theorem State.winServe_memWf (s : State) (r : WinReq) (hm : s.memWf) : (State.winServe s r).memWf := by
  unfold State.winServe
  simp only [↓State.memWf_mk, ↓State.memWf_fold, ↓State.memWf_of (State.emit_kept _ _), ↓State.memWf_of (State.aer_kept _ _
      _), ↓State.memWf_of (State.pevLog_kept _ _ _ _ _), ↓State.memWf_of (State.checkRange_kept _ _ _ _ _),
      State.storeBytes_memWf, ↓State.memWf_of (State.inject_kept _ _ _ _), ↓State.memWf_of (State.winRefused_kept _ _), hm]
  (repeat' split) <;> (try refine State.memWf_foldl _ _ _ (fun t x hm => ?_) ?_) <;> (try dsimp only) <;> (repeat' split) <;>
      (try simp only [↓State.memWf_mk, ↓State.memWf_fold, ↓State.memWf_of (State.emit_kept _ _), ↓State.memWf_of
      (State.aer_kept _ _ _), ↓State.memWf_of (State.pevLog_kept _ _ _ _ _), ↓State.memWf_of (State.checkRange_kept _ _ _ _
      _), State.storeBytes_memWf, ↓State.memWf_of (State.inject_kept _ _ _ _), ↓State.memWf_of (State.winRefused_kept _ _),
      hm]) <;> grind [State.memWf, State.kept, State.emit_kept, State.aer_kept, State.pevLog_kept, State.checkRange_kept,
      State.storeBytes_memWf, State.inject_kept, State.winRefused_kept]

theorem State.lapWarn_kept (s : State) : (State.lapWarn s).kept = s.kept := by
  unfold State.lapWarn
  (repeat' split) <;> simp_all [↓State.kept_mk, ↓State.kept_fold, ↓State.kept_ite, ↓State.put_kept, ↓State.raiseHub_kept]

theorem State.patrolNext_kept (s : State) : (State.patrolNext s).kept = s.kept := by
  unfold State.patrolNext
  simp only [↓State.kept_mk, ↓State.kept_fold, ↓State.kept_ite, ↓State.put_kept, ↓State.bump_kept, ite_self]

theorem State.injectWrite_kept (s : State) (w : Word) : (State.injectWrite s w).kept = s.kept := by
  unfold State.injectWrite
  (repeat' split) <;> simp_all [↓State.kept_ite, ↓State.put_kept]

end Sys2Proof.Machine
end

