-- ==== Sys2Proof/Laws/KeptSfeOps.lean ====
section
/-! SUPPORT. What no command changes, and the form of memory: lemmas of SfeOps. -/
namespace Sys2Proof.Machine

set_option linter.unusedSimpArgs false
set_option linter.unusedTactic false
set_option linter.unnecessarySeqFocus false
set_option linter.unreachableTactic false
set_option linter.tactic.unusedName false

theorem State.setSfe_kept (s : State) (b : Bay) (x : Sfe) : (State.setSfe s b x).kept = s.kept := by
  unfold State.setSfe
  simp only [↓State.kept_mk, ↓State.kept_fold]

theorem State.setSpot_kept (s : State) (b : Bay) (k : Fin 7) (x : SfeSpot) : (State.setSpot s b k x).kept = s.kept := by
  unfold State.setSpot
  simp only [↓State.setSfe_kept]

theorem State.fcIssue_kept (s : State) (b : Bay) (src : Nat) : (State.fcIssue s b src).kept = s.kept := by
  unfold State.fcIssue
  (repeat' split) <;> simp_all [↓State.kept_ite, ↓State.bump_kept, ↓State.setSpot_kept, State.kept_foldl]

theorem State.fcClose_kept (s : State) (b : Bay) (src : Nat) : (State.fcClose s b src).kept = s.kept := by
  unfold State.fcClose
  (repeat' split) <;> simp_all [↓State.setSpot_kept, State.kept_foldl]

theorem State.velSuspend_kept (s : State) (b : Bay) : (State.velSuspend s b).kept = s.kept := by
  unfold State.velSuspend
  grind [State.kept_mk, State.bump_kept, State.raiseBay_kept, State.setSfe_kept]

theorem State.velUpdate_kept (s : State) (b : Bay) (v : Nat) : (State.velUpdate s b v).kept = s.kept := by
  unfold State.velUpdate
  grind [State.kept_mk, State.put_kept, State.setSfe_kept, State.velSuspend_kept]

theorem State.velWrite_kept (s : State) (b : Bay) (w : Word) : (State.velWrite s b w).kept = s.kept := by
  unfold State.velWrite
  grind [State.kept_mk, State.put_kept, State.velUpdate_kept]

theorem State.sfeHold_kept (s : State) (b : Bay) : (State.sfeHold s b).kept = s.kept := by
  unfold State.sfeHold
  simp only [↓State.setSfe_kept]

theorem State.sfeAcquire_kept (s : State) (b : Bay) (layer : Nat) : (State.sfeAcquire s b layer).kept = s.kept := by
  unfold State.sfeAcquire
  (repeat' split) <;> simp_all [↓State.put_kept, ↓State.setSfe_kept, ↓State.setSpot_kept, State.kept_foldl]

theorem State.tempReplace_kept (s : State) (b : Bay) : (State.tempReplace s b).kept = s.kept := by
  unfold State.tempReplace
  grind [State.kept_mk, State.put_kept, State.bump_kept, State.raiseBay_kept, State.setSfe_kept]

theorem State.sfeCtl_kept (s : State) (b : Bay) (w : Word) : (State.sfeCtl s b w).kept = s.kept := by
  unfold State.sfeCtl
  (repeat' split) <;> simp_all [↓State.put_kept, ↓State.setSpot_kept, State.kept_foldl]

end Sys2Proof.Machine
end

