-- ==== Sys2Proof/Laws/KeptSpnOps.lean ====
section
/-! SUPPORT. What no command changes, and the form of memory: lemmas of SpnOps. -/
namespace Sys2Proof.Machine

set_option linter.unusedSimpArgs false
set_option linter.unusedTactic false
set_option linter.unnecessarySeqFocus false
set_option linter.unreachableTactic false
set_option linter.tactic.unusedName false

theorem State.setSpn_kept (s : State) (b : Bay) (x : Spn) : (State.setSpn s b x).kept = s.kept := by
  unfold State.setSpn
  simp only [↓State.kept_mk, ↓State.kept_fold]

theorem State.setSlot_kept (s : State) (d : Die) (n : Fin 48) (x : TrnSlot) : (State.setSlot s d n x).kept = s.kept := by
  unfold State.setSlot
  simp only [↓State.kept_mk, ↓State.kept_fold]

theorem State.forceSlot_kept (s : State) (d : Die) (n : Fin 48) (v : Int) : (State.forceSlot s d n v).kept = s.kept := by
  unfold State.forceSlot
  simp only [↓State.setSlot_kept]

theorem State.freeSlot_kept (s : State) (d : Die) (n : Fin 48) : (State.freeSlot s d n).kept = s.kept := by
  unfold State.freeSlot
  grind [State.kept_mk, State.setSlot_kept]

theorem State.spnForces_kept (s : State) (b : Bay) : (State.spnForces s b).kept = s.kept := by
  unfold State.spnForces
  grind [State.kept_mk, State.forceSlot_kept, State.freeSlot_kept]

theorem State.spnSets_kept (s : State) (b : Bay) : (State.spnSets s b).kept = s.kept := by
  unfold State.spnSets
  simp only [↓State.put_kept]

theorem State.spnFault_kept (s : State) (b : Bay) (f : SpnFault) : (State.spnFault s b f).kept = s.kept := by
  unfold State.spnFault
  simp only [↓State.bump_kept, ↓State.raiseBay_kept, ↓State.endBayItems_kept, ↓State.setMounted_kept, ↓State.setSpn_kept]

theorem State.spnFaultOff_kept (s : State) (b : Bay) (f : SpnFault) : (State.spnFaultOff s b f).kept = s.kept := by
  unfold State.spnFaultOff
  simp only [↓State.setSpn_kept, ↓State.spnFault_kept]

theorem State.spnFaultActive_kept (s : State) (b : Bay) (f : SpnFault) : (State.spnFaultActive s b f).kept = s.kept := by
  unfold State.spnFaultActive
  simp only [↓State.setSpn_kept, ↓State.spnFault_kept]

theorem State.spnIpd_kept (s : State) (b : Bay) (vbr : Rat) : (State.spnIpd s b vbr).kept = s.kept := by
  unfold State.spnIpd
  grind [State.kept_mk, State.endItem_kept, State.setSpn_kept, State.spnFault_kept]

theorem State.spnStart_kept (s : State) (b : Bay) (vbr : Rat) : (State.spnStart s b vbr).kept = s.kept := by
  unfold State.spnStart
  grind [State.kept_mk, State.bump_kept, State.setSpn_kept, State.spnIpd_kept]

theorem State.spnAttemptFailed_kept (s : State) (b : Bay) : (State.spnAttemptFailed s b).kept = s.kept := by
  unfold State.spnAttemptFailed
  grind [State.kept_mk, State.setSpn_kept, State.spnFaultOff_kept]

theorem State.spnRefuse_kept (s : State) (b : Bay) : (State.spnRefuse s b).kept = s.kept := by
  unfold State.spnRefuse
  simp only [↓State.put_kept, ↓State.bump_kept]

theorem State.spnGo_kept (s : State) (b : Bay) (m : SpnMode) (target : Int) (vbr : Rat) : (State.spnGo s b m target vbr).kept
    = s.kept := by
  unfold State.spnGo
  grind [State.kept_mk, State.setSpn_kept, State.spnStart_kept]

theorem State.spnRun_kept (s : State) (b : Bay) (target : Int) (vbr : Rat) : (State.spnRun s b target vbr).kept = s.kept :=
    by
  unfold State.spnRun
  grind [State.kept_mk, State.spnForces_kept, State.spnRefuse_kept, State.spnGo_kept]

theorem State.spnIdle_kept (s : State) (b : Bay) (vbr : Rat) : (State.spnIdle s b vbr).kept = s.kept := by
  unfold State.spnIdle
  grind [State.kept_mk, State.spnForces_kept, State.spnRefuse_kept, State.spnGo_kept]

theorem State.spnStop_kept (s : State) (b : Bay) : (State.spnStop s b).kept = s.kept := by
  unfold State.spnStop
  grind [State.kept_mk, State.setSpn_kept, State.spnForces_kept, State.spnRefuse_kept]

theorem State.spnSafeStop_kept (s : State) (b : Bay) : (State.spnSafeStop s b).kept = s.kept := by
  unfold State.spnSafeStop
  simp only [↓State.setSpn_kept, ↓State.spnForces_kept]

theorem State.spnClockLost_kept (s : State) (b : Bay) : (State.spnClockLost s b).kept = s.kept := by
  unfold State.spnClockLost
  grind [State.kept_mk, State.setSpn_kept]

theorem State.spnFoc_kept (s : State) (b : Bay) (raw : Vector Int 3) : (State.spnFoc s b raw).kept = s.kept := by
  unfold State.spnFoc
  grind [State.kept_mk, State.bump_kept, State.setSpn_kept, State.spnFaultOff_kept]

theorem State.spnOver_kept (s : State) (b : Bay) : (State.spnOver s b).kept = s.kept := by
  unfold State.spnOver
  grind [State.kept_mk, State.bump_kept, State.raiseBay_kept, State.setSpn_kept]

theorem State.spnLoop_kept (s : State) (b : Bay) : (State.spnLoop s b).kept = s.kept := by
  unfold State.spnLoop
  grind [State.kept_mk, State.spnFaultActive_kept]

theorem State.pwmPeriod_kept (s : State) (b : Bay) (raw : Vector Int 3) (vbrMv : Nat) (cross : Option Nat) : (State.pwmPeriod
    s b raw vbrMv cross).kept = s.kept := by
  unfold State.pwmPeriod
  grind [State.kept_mk, State.activate_kept, State.setSpn_kept, State.spnForces_kept, State.spnSets_kept, State.spnFoc_kept,
      State.spnOver_kept, State.spnLoop_kept]

end Sys2Proof.Machine
end

