-- ==== Sys2Proof/Laws/KeptSpindle.lean ====
section
/-! SUPPORT. What no command changes, and the form of memory: lemmas of Spindle. -/
namespace Sys2Proof.Machine

set_option linter.unusedSimpArgs false
set_option linter.unusedTactic false
set_option linter.unnecessarySeqFocus false
set_option linter.unreachableTactic false
set_option linter.tactic.unusedName false

theorem execSpnRun_kept (b : Bay) (target : Int) (vbr : Nat) (s : State) : ∃ t, (execSpnRun b target vbr s) = .next t ∧
    t.kept = s.kept := by
  unfold execSpnRun
  (repeat' split) <;> exact ⟨_, rfl, by simp only [↓State.spnRun_kept]⟩

theorem execSpnIdle_kept (b : Bay) (vbr : Nat) (s : State) : ∃ t, (execSpnIdle b vbr s) = .next t ∧ t.kept = s.kept := by
  unfold execSpnIdle
  (repeat' split) <;> exact ⟨_, rfl, by simp only [↓State.spnIdle_kept]⟩

theorem execSpnStop_kept (b : Bay) (s : State) : ∃ t, (execSpnStop b s) = .next t ∧ t.kept = s.kept := by
  unfold execSpnStop
  (repeat' split) <;> exact ⟨_, rfl, by simp only [↓State.spnStop_kept]⟩

theorem State.spnClrFault_kept (s : State) (b : Bay) : (State.spnClrFault s b).kept = s.kept := by
  unfold State.spnClrFault
  grind [State.kept_mk, State.setSpn_kept]

theorem execSpnClrFault_kept (b : Bay) (s : State) : ∃ t, (execSpnClrFault b s) = .next t ∧ t.kept = s.kept := by
  unfold execSpnClrFault
  (repeat' split) <;> exact ⟨_, rfl, by simp only [↓State.spnClrFault_kept]⟩

theorem State.spnCtlWrite_kept (s : State) (b : Bay) (w : Word) : (State.spnCtlWrite s b w).kept = s.kept := by
  unfold State.spnCtlWrite
  grind [State.kept_mk, State.put_kept, State.setSpn_kept, State.spnClrFault_kept]

theorem execSpnCtlWrite_kept (b : Bay) (value : Word) (s : State) : ∃ t, (execSpnCtlWrite b value s) = .next t ∧ t.kept =
    s.kept := by
  unfold execSpnCtlWrite
  (repeat' split) <;> exact ⟨_, rfl, by simp only [↓State.spnCtlWrite_kept]⟩

theorem execIpdDone_kept (b : Bay) (times : Vector Nat 12) (s : State) : ∃ t, (execIpdDone b times s) = .next t ∧ t.kept =
    s.kept := by
  unfold execIpdDone
  grind [State.kept_mk, State.bump_kept, State.setSpn_kept, State.spnForces_kept]

theorem execAlignEnd_kept (b : Bay) (s : State) : ∃ t, (execAlignEnd b s) = .next t ∧ t.kept = s.kept := by
  unfold execAlignEnd
  grind [State.kept_mk, State.setSpn_kept, State.spnForces_kept]

theorem execOpenHandOver_kept (b : Bay) (s : State) : ∃ t, (execOpenHandOver b s) = .next t ∧ t.kept = s.kept := by
  unfold execOpenHandOver
  (repeat' split) <;> exact ⟨_, rfl, by simp [↓State.kept_ite, ↓State.setSpn_kept, ↓State.forceSlot_kept,
      ↓State.spnForces_kept]⟩

theorem execOpenTimeout_kept (b : Bay) (s : State) : ∃ t, (execOpenTimeout b s) = .next t ∧ t.kept = s.kept := by
  unfold execOpenTimeout
  (repeat' split) <;> exact ⟨_, rfl, by simp only [↓State.spnForces_kept, ↓State.spnAttemptFailed_kept]⟩

theorem State.spnStopThenIpd_kept (s : State) (b : Bay) (backward : Bool) (rpm : Rat) : (State.spnStopThenIpd s b backward
    rpm).kept = s.kept := by
  unfold State.spnStopThenIpd
  simp only [↓State.setSpn_kept]

theorem execCatchDecide_kept (b : Bay) (seen : CatchSeen) (vbr : Nat) (s : State) : ∃ t, (execCatchDecide b seen vbr s) =
    .next t ∧ t.kept = s.kept := by
  unfold execCatchDecide
  (repeat' split) <;> exact ⟨_, rfl, by simp [↓State.kept_ite, ↓State.setSpn_kept, ↓State.spnForces_kept, ↓State.spnIpd_kept,
      ↓State.spnStopThenIpd_kept]⟩

theorem execCatchLock_kept (b : Bay) (s : State) : ∃ t, (execCatchLock b s) = .next t ∧ t.kept = s.kept := by
  unfold execCatchLock
  (repeat' split) <;> exact ⟨_, rfl, by simp [↓State.kept_ite, ↓State.bump_kept, ↓State.setSpn_kept, ↓State.forceSlot_kept,
      ↓State.spnForces_kept, ↓State.spnAttemptFailed_kept]⟩

theorem execObserverLoss_kept (b : Bay) (s : State) : ∃ t, (execObserverLoss b s) = .next t ∧ t.kept = s.kept := by
  unfold execObserverLoss
  (repeat' split) <;> exact ⟨_, rfl, by simp [↓State.kept_ite, ↓State.bump_kept, ↓State.setSpn_kept]⟩

theorem execSpnObsRelocked_kept (b : Bay) (s : State) : ∃ t, (execSpnObsRelocked b s) = .next t ∧ t.kept = s.kept := by
  unfold execSpnObsRelocked
  (repeat' split) <;> exact ⟨_, rfl, by simp [↓State.kept_ite, ↓State.bump_kept, ↓State.raiseBay_kept, ↓State.setSpn_kept,
      ↓State.spnForces_kept]⟩

theorem execFlywheelTimeout_kept (b : Bay) (s : State) : ∃ t, (execFlywheelTimeout b s) = .next t ∧ t.kept = s.kept := by
  unfold execFlywheelTimeout
  (repeat' split) <;> exact ⟨_, rfl, by simp [↓State.kept_ite, ↓State.setSpn_kept, ↓State.spnFault_kept]⟩

theorem State.shortEnd_kept (s : State) (b : Bay) (vbr : Nat) : (State.shortEnd s b vbr).kept = s.kept := by
  unfold State.shortEnd
  grind [State.kept_mk, State.bump_kept, State.setSpn_kept, State.spnForces_kept, State.spnIpd_kept]

theorem execOverspeed_kept (b : Bay) (s : State) : ∃ t, (execOverspeed b s) = .next t ∧ t.kept = s.kept := by
  unfold execOverspeed
  (repeat' split) <;> exact ⟨_, rfl, by simp only [↓State.spnForces_kept, ↓State.spnFaultActive_kept]⟩

theorem execUndervoltage_kept (b : Bay) (s : State) : ∃ t, (execUndervoltage b s) = .next t ∧ t.kept = s.kept := by
  unfold execUndervoltage
  (repeat' split) <;> exact ⟨_, rfl, by simp [↓State.kept_ite, ↓State.setSpn_kept, ↓State.spnFault_kept]⟩

theorem execAtSpeed_kept (b : Bay) (s : State) : ∃ t, (execAtSpeed b s) = .next t ∧ t.kept = s.kept := by
  unfold execAtSpeed
  (repeat' split) <;> exact ⟨_, rfl, by simp [↓State.kept_ite, ↓State.setSpn_kept]⟩

theorem execWindingTempUpdate_kept (b : Bay) (s : State) : ∃ t, (execWindingTempUpdate b s) = .next t ∧ t.kept = s.kept := by
  unfold execWindingTempUpdate
  (repeat' split) <;> exact ⟨_, rfl, by simp only [↓State.setSpn_kept]⟩

theorem State.ceilInvalid_kept (s : State) (x : Int) : (State.ceilInvalid s x).kept = s.kept := by
  unfold State.ceilInvalid
  simp only [↓State.kept_mk, ↓State.kept_fold, ↓State.bump_kept]

theorem State.ceilAccept_kept (s : State) (x frac : Int) : (State.ceilAccept s x frac).kept = s.kept := by
  unfold State.ceilAccept
  simp only [↓State.kept_mk, ↓State.kept_fold]

theorem execCeilReading_kept (x : Int) (carrier : Nat) (s : State) : ∃ t, (execCeilReading x carrier s) = .next t ∧ t.kept =
    s.kept := by
  unfold execCeilReading
  (repeat' split) <;> exact ⟨_, rfl, by simp [↓State.kept_ite, ↓State.bump_kept, ↓State.activate_kept,
      ↓State.ceilInvalid_kept, ↓State.ceilAccept_kept]⟩

theorem execSpnCeilReplaced_kept (s : State) : ∃ t, (execSpnCeilReplaced s) = .next t ∧ t.kept = s.kept := by
  unfold execSpnCeilReplaced
  (repeat' split) <;> exact ⟨_, rfl, by simp only [↓State.kept_mk, ↓State.kept_fold, ↓State.bump_kept, ↓State.raiseDie_kept]⟩

theorem execSpnCeilValue_kept (s : State) : ∃ t, (execSpnCeilValue s) = .next t ∧ t.kept = s.kept := by
  unfold execSpnCeilValue
  (repeat' split) <;> exact ⟨_, rfl, by simp only [↓State.kept_mk, ↓State.kept_fold, ↓State.raiseDie_kept]⟩

theorem State.ceilRelay_kept (s : State) (b : Bay) (frac : Nat) : (State.ceilRelay s b frac).kept = s.kept := by
  unfold State.ceilRelay
  simp only [↓State.put_kept, ↓State.setSpn_kept]

theorem execCeilRelayWrite_kept (b : Bay) (frac : Fin 1025) (s : State) : ∃ t, (execCeilRelayWrite b frac s) = .next t ∧
    t.kept = s.kept := by
  unfold execCeilRelayWrite
  (repeat' split) <;> exact ⟨_, rfl, by simp only [↓State.ceilRelay_kept]⟩

theorem execCeilStale_kept (b : Bay) (s : State) : ∃ t, (execCeilStale b s) = .next t ∧ t.kept = s.kept := by
  unfold execCeilStale
  (repeat' split) <;> exact ⟨_, rfl, by simp only [↓State.bump_kept, ↓State.setSpn_kept]⟩

theorem execSafeStateShortBrake_kept (b : Bay) (s : State) : ∃ t, (execSafeStateShortBrake b s) = .next t ∧ t.kept = s.kept
    := by
  unfold execSafeStateShortBrake
  (repeat' split) <;> exact ⟨_, rfl, by simp [↓State.kept_ite, ↓State.setSpn_kept]⟩

end Sys2Proof.Machine
end

