-- ==== Sys2Proof/Laws/KeptAxpOps.lean ====
section
/-! SUPPORT. What no command changes, and the form of memory: lemmas of AxpOps. -/
namespace Sys2Proof.Machine

set_option linter.unusedSimpArgs false
set_option linter.unusedTactic false
set_option linter.unnecessarySeqFocus false
set_option linter.unreachableTactic false
set_option linter.tactic.unusedName false

theorem State.setAxis_kept (s : State) (d : Die) (n : Fin 8) (x : Axis) : (State.setAxis s d n x).kept = s.kept := by
  unfold State.setAxis
  simp only [↓State.kept_mk, ↓State.kept_fold]

theorem State.setGrp_kept (s : State) (d : Die) (g : Fin 4) (x : Grp) : (State.setGrp s d g x).kept = s.kept := by
  unfold State.setGrp
  simp only [↓State.kept_mk, ↓State.kept_fold]

theorem State.setSwitch_kept (s : State) (d : Die) (k : Fin 12) (x : Switch) : (State.setSwitch s d k x).kept = s.kept := by
  unfold State.setSwitch
  simp only [↓State.kept_mk, ↓State.kept_fold]

theorem State.axRefuse_kept (s : State) (d : Die) (n : Fin 8) (r : AxRefuse) : (State.axRefuse s d n r).kept = s.kept := by
  unfold State.axRefuse
  simp only [↓State.put_kept, ↓State.bump_kept, ↓State.setAxis_kept]

theorem State.axGo_kept (s : State) (d : Die) (n : Fin 8) (t : Int) : (State.axGo s d n t).kept = s.kept := by
  unfold State.axGo
  grind [State.kept_mk, State.put_kept, State.setAxis_kept]

theorem State.axMoveTo_kept (s : State) (d : Die) (n : Fin 8) (t : Int) : (State.axMoveTo s d n t).kept = s.kept := by
  unfold State.axMoveTo
  grind [State.kept_mk, State.axRefuse_kept, State.axGo_kept]

theorem State.axStop_kept (s : State) (d : Die) (n : Fin 8) : (State.axStop s d n).kept = s.kept := by
  unfold State.axStop
  simp only [↓State.setAxis_kept]

theorem State.axResume_kept (s : State) (d : Die) (n : Fin 8) : (State.axResume s d n).kept = s.kept := by
  unfold State.axResume
  grind [State.kept_mk, State.setAxis_kept, State.axRefuse_kept]

theorem State.axPhase_kept (s : State) (d : Die) (n : Fin 8) (p : HPhase) : (State.axPhase s d n p).kept = s.kept := by
  unfold State.axPhase
  simp only [↓State.setAxis_kept]

theorem State.axHome_kept (s : State) (d : Die) (n : Fin 8) : (State.axHome s d n).kept = s.kept := by
  unfold State.axHome
  grind [State.kept_mk, State.setAxis_kept, State.axRefuse_kept, State.axPhase_kept]

theorem State.axFault_kept (s : State) (d : Die) (n : Fin 8) (f : AxFault) : (State.axFault s d n f).kept = s.kept := by
  unfold State.axFault
  grind [State.kept_mk, State.bump_kept, State.raiseDie_kept, State.setAxis_kept]

theorem State.axDisable_kept (s : State) (d : Die) (n : Fin 8) : (State.axDisable s d n).kept = s.kept := by
  unfold State.axDisable
  simp only [↓State.setAxis_kept]

theorem State.grpRefuse_kept (s : State) (d : Die) (g : Fin 4) (r : AxRefuse) : (State.grpRefuse s d g r).kept = s.kept := by
  unfold State.grpRefuse
  simp only [↓State.put_kept, ↓State.setGrp_kept]

theorem State.grpStart_kept (s : State) (d : Die) (g : Fin 4) : (State.grpStart s d g).kept = s.kept := by
  unfold State.grpStart
  (repeat' split) <;> simp_all [↓State.kept_ite, ↓State.setAxis_kept, ↓State.setGrp_kept, State.kept_foldl]

theorem State.grpMove_kept (s : State) (d : Die) (g : Fin 4) : (State.grpMove s d g).kept = s.kept := by
  unfold State.grpMove
  grind [State.kept_mk, State.setGrp_kept, State.grpRefuse_kept, State.grpStart_kept]

theorem State.grpStop_kept (s : State) (d : Die) (g : Fin 4) : (State.grpStop s d g).kept = s.kept := by
  unfold State.grpStop
  grind [State.kept_mk, State.setGrp_kept]

theorem State.grpResume_kept (s : State) (d : Die) (g : Fin 4) : (State.grpResume s d g).kept = s.kept := by
  unfold State.grpResume
  (repeat' split) <;> simp_all [↓State.kept_ite, ↓State.setAxis_kept, ↓State.setGrp_kept, ↓State.grpRefuse_kept,
      State.kept_foldl]

theorem State.stopAxes_kept (s : State) (d : Die) : (State.stopAxes s d).kept = s.kept := by
  unfold State.stopAxes
  (repeat' split) <;> simp_all [↓State.kept_ite, ↓State.axStop_kept, ↓State.grpStop_kept, State.kept_foldl]

theorem State.axRest_kept (s : State) (d : Die) (n : Fin 8) : (State.axRest s d n).kept = s.kept := by
  unfold State.axRest
  grind [State.kept_mk, State.bump_kept, State.setAxis_kept, State.axPhase_kept]

theorem State.axTick_kept (s : State) (d : Die) (n : Fin 8) : (State.axTick s d n).kept = s.kept := by
  unfold State.axTick
  simp only [↓State.kept_mk, ↓State.kept_fold, ↓State.kept_ite, ↓State.kept_fst_ite, ↓State.activate_kept,
      ↓State.setAxis_kept, ↓State.axFault_kept, ↓State.axRest_kept]
  (repeat' split) <;> simp only [↓State.kept_mk, ↓State.kept_fold, ↓State.kept_ite, ↓State.kept_fst_ite,
      ↓State.activate_kept, ↓State.setAxis_kept, ↓State.axFault_kept, ↓State.axRest_kept, ite_self]

theorem State.grpTick_kept (s : State) (d : Die) (g : Fin 4) : (State.grpTick s d g).kept = s.kept := by
  have hp : ∀ (f : State → Fin 8 → Axis) (l : List (Fin 8)) (t : State),
      (l.foldl (fun t n => t.setAxis d n (f t n)) t).kept = t.kept :=
    fun f l t => State.kept_foldl _ _ _ fun _ _ => State.setAxis_kept _ _ _ _
  unfold State.grpTick
  extract_lets ms s1 x l k place rest q1 t1 q2 y2 t2
  have h1 : s1.kept = s.kept := by simp only [s1, ↓State.kept_ite, ↓State.activate_kept, ite_self]
  have h2 : ∀ t q, (place t q).kept = t.kept := fun t q => hp _ _ _
  have hr : ∀ t q, (rest t q).kept = t.kept := fun t q => hp _ _ _
  have h3 : t1.kept = s.kept := (h2 _ _).trans ((State.setGrp_kept _ _ _ _).trans h1)
  have h4 : t2.kept = s.kept := (h2 _ _).trans ((State.setGrp_kept _ _ _ _).trans h1)
  clear_value s1 place rest t1 t2
  split
  · simp only [↓State.kept_ite, hr, State.setGrp_kept, ite_self, h3]
  · simp only [↓State.kept_ite, hr, State.setGrp_kept, State.grpStart_kept, ite_self, h4]
  · exact h1

theorem State.profileTick_kept (s : State) (d : Die) : (State.profileTick s d).kept = s.kept := by
  unfold State.profileTick
  split
  · rfl
  · refine (State.kept_foldl _ _ _ fun t x => ?_).trans (State.kept_foldl _ _ _ fun t x => State.grpTick_kept _ _ _)
    split
    · split
      · rfl
      · exact State.axTick_kept _ _ _
    · exact State.axTick_kept _ _ _

end Sys2Proof.Machine
end

