-- ==== Sys2Proof/Laws/KeptYrdOps.lean ====
section
/-! SUPPORT. What no command changes, and the form of memory: lemmas of YrdOps. -/
namespace Sys2Proof.Machine

set_option linter.unusedSimpArgs false
set_option linter.unusedTactic false
set_option linter.unnecessarySeqFocus false
set_option linter.unreachableTactic false
set_option linter.tactic.unusedName false

theorem State.setYrd_kept (s : State) (y : Yrd) : (State.setYrd s y).kept = s.kept := by
  unfold State.setYrd
  simp only [↓State.kept_mk, ↓State.kept_fold]

theorem State.aim_kept (s : State) (n : Fin 8) (t : Int) : (State.aim s n t).kept = s.kept := by
  unfold State.aim
  simp only [↓State.put_kept]

theorem State.moveXZ_kept (s : State) (x z : Int) : (State.moveXZ s x z).1.kept = s.kept := by
  unfold State.moveXZ
  grind [State.kept_mk, State.axRefuse_kept, State.axMoveTo_kept, State.grpRefuse_kept, State.grpMove_kept, State.aim_kept]

theorem State.swing_kept (s : State) (t : Int) : (State.swing s t).1.kept = s.kept := by
  unfold State.swing
  grind [State.kept_mk, State.axRefuse_kept, State.axMoveTo_kept, State.aim_kept]

theorem State.gripSlot_kept (s : State) (on : Bool) : (State.gripSlot s on).kept = s.kept := by
  unfold State.gripSlot
  simp only [↓State.kept_mk, ↓State.kept_fold]

theorem State.gripStart_kept (s : State) : (State.gripStart s).kept = s.kept := by
  unfold State.gripStart
  simp only [↓State.put_kept, ↓State.setAxis_kept, ↓State.setYrd_kept, ↓State.gripSlot_kept]

theorem State.gripContact_kept (s : State) (at_ : Int) : (State.gripContact s at_).kept = s.kept := by
  unfold State.gripContact
  grind [State.kept_mk, State.put_kept, State.setSlot_kept, State.setYrd_kept]

theorem State.gripOpen_kept (s : State) : (State.gripOpen s).kept = s.kept := by
  unfold State.gripOpen
  simp only [↓State.put_kept, ↓State.setAxis_kept, ↓State.setYrd_kept, ↓State.gripSlot_kept]

theorem State.transferEnd_kept (s : State) (result : Nat) (st : WStatus) : (State.transferEnd s result st).kept = s.kept :=
    by
  unfold State.transferEnd
  grind [State.kept_mk, State.bump_kept, State.endItem_kept, State.setYrd_kept]

theorem State.yrdFault_kept (s : State) (result : Nat) (st : WStatus) (cycled : Bool) : (State.yrdFault s result st
    cycled).kept = s.kept := by
  unfold State.yrdFault
  simp only [↓State.stopAxes_kept, ↓State.setYrd_kept, ↓State.transferEnd_kept]

theorem State.putAway_kept (s : State) (result : Nat) : (State.putAway s result).kept = s.kept := by
  unfold State.putAway
  simp only [↓State.setYrd_kept, ↓State.gripOpen_kept]

theorem State.startMotion_kept (s : State) (m : Motion) : (State.startMotion s m).kept = s.kept := by
  unfold State.startMotion
  grind [State.kept_mk, State.setYrd_kept, State.moveXZ_kept, State.swing_kept, State.gripStart_kept, State.gripOpen_kept,
      State.yrdFault_kept]

theorem State.scan_kept (s : State) (k : Nat) : (State.scan s k).kept = s.kept := by
  unfold State.scan
  simp only [↓State.setYrd_kept]

theorem State.transferRefuse_kept (s : State) (j : TransferJob) (st : WStatus) (cause : Nat) : (State.transferRefuse s j st
    cause).kept = s.kept := by
  unfold State.transferRefuse
  grind [State.kept_mk, State.endItem_kept]

theorem State.itemBegun_kept (s : State) (d : Die) (i : Option Nat) : (State.itemBegun s d i).kept = s.kept := by
  unfold State.itemBegun
  grind [State.kept_mk, State.setDie_kept]

theorem yrdTake_kept (s : State) (l : List TransferJob) : (yrdTake s l).kept = s.kept := by
  induction l generalizing s with
  | nil =>
    unfold yrdTake
    split
    · exact State.scan_kept _ _
    · rfl
  | cons j rest ih =>
    unfold yrdTake
    split
    · exact State.scan_kept _ _
    · simp only []
      (repeat' split) <;> simp only [ih, State.transferRefuse_kept, State.setYrd_kept, State.startMotion_kept, State.itemBegun_kept]

theorem State.yrdNext_kept (s : State) : (State.yrdNext s).kept = s.kept := by
  unfold State.yrdNext
  grind [State.kept_mk, State.activate_kept, State.setYrd_kept, yrdTake_kept]

theorem State.yrdIdle_kept (s : State) : (State.yrdIdle s).kept = s.kept := by
  unfold State.yrdIdle
  simp only [↓State.setYrd_kept, ↓State.yrdNext_kept]

theorem State.yrdAdvance_kept (s : State) : (State.yrdAdvance s).kept = s.kept := by
  unfold State.yrdAdvance
  grind [State.kept_mk, State.setYrd_kept, State.swing_kept, State.transferEnd_kept, State.yrdFault_kept, State.putAway_kept,
      State.startMotion_kept, State.yrdIdle_kept]

theorem State.yrdWatch_kept (s : State) : (State.yrdWatch s).kept = s.kept := by
  unfold State.yrdWatch
  grind [State.kept_mk, State.yrdFault_kept]

theorem State.placeOrphan_kept (s : State) : (State.placeOrphan s).kept = s.kept := by
  unfold State.placeOrphan
  grind [State.kept_mk, State.raiseDie_kept, State.setYrd_kept, State.startMotion_kept]

theorem State.yrdHome_kept (s : State) (n : Fin 8) : (State.yrdHome s n).kept = s.kept := by
  unfold State.yrdHome
  grind [State.kept_mk, State.axHome_kept, State.yrdFault_kept]

theorem State.yrdHoming_kept (s : State) : (State.yrdHoming s).kept = s.kept := by
  unfold State.yrdHoming
  grind [State.kept_mk, State.setYrd_kept, State.yrdIdle_kept, State.placeOrphan_kept, State.yrdHome_kept]

end Sys2Proof.Machine
end

