-- ==== Sys2Proof/Laws/KeptCruOps.lean ====
section
/-! SUPPORT. What no command changes, and the form of memory: lemmas of CruOps. -/
namespace Sys2Proof.Machine

set_option linter.unusedSimpArgs false
set_option linter.unusedTactic false
set_option linter.unnecessarySeqFocus false
set_option linter.unreachableTactic false
set_option linter.tactic.unusedName false

theorem State.setCru_kept (s : State) (b : Bay) (x : Cru) : (State.setCru s b x).kept = s.kept := by
  unfold State.setCru
  simp only [↓State.kept_mk, ↓State.kept_fold]

theorem State.cruRaise_kept (s : State) (b : Bay) (t : CruTrigger) : (State.cruRaise s b t).kept = s.kept := by
  unfold State.cruRaise
  grind [State.kept_mk, State.setCru_kept]

theorem State.putMask_kept (s : State) (a : Nat) (f : Field) (k : Nat) (v : Bool) : (State.putMask s a f k v).kept = s.kept
    := by
  unfold State.putMask
  simp only [↓State.put_kept]

theorem State.cruBorrow_kept (s : State) (b : Bay) (k : Fin 7) : (State.cruBorrow s b k).kept = s.kept := by
  unfold State.cruBorrow
  simp only [↓State.kept_mk, ↓State.kept_fold, ↓State.setCru_kept, ↓State.putMask_kept]

theorem State.cruReturn_kept (s : State) (b : Bay) : (State.cruReturn s b).kept = s.kept := by
  unfold State.cruReturn
  grind [State.kept_mk, State.setCru_kept, State.putMask_kept]

theorem State.cruFlag_kept (s : State) (b : Bay) (i : CruItem) (k : Fin 7) (c : CruCause) : (State.cruFlag s b i k c).kept =
    s.kept := by
  unfold State.cruFlag
  simp only [↓State.bump_kept, ↓State.raiseBay_kept, ↓State.setCru_kept, ↓State.putMask_kept]

theorem State.stage_kept (s : State) (a : Nat) (f : Field) (v : Nat) (i : Nat) (j : Nat) : (State.stage s a f v i j).kept =
    s.kept := by
  unfold State.stage
  simp only [↓State.kept_mk, ↓State.kept_fold]

theorem State.cruTake_kept (s : State) (b : Bay) (layer : Nat) (i : CruItem) (k : Fin 7) (v : List Rat) : (State.cruTake s b
    layer i k v).kept = s.kept := by
  unfold State.cruTake
  grind [State.kept_mk, State.put_kept, State.setCru_kept, State.cruFlag_kept, State.stage_kept]

theorem State.cruCommit_kept (s : State) (b : Bay) (g : Group) (i : CruItem) (k : Fin 7) : (State.cruCommit s b g i k).kept =
    s.kept := by
  unfold State.cruCommit
  grind [State.kept_mk, State.commitSet_kept, State.cruFlag_kept]

theorem State.cruFinishSpot_kept (s : State) (b : Bay) (k : Fin 7) : (State.cruFinishSpot s b k).kept = s.kept := by
  unfold State.cruFinishSpot
  simp only [↓State.kept_mk, ↓State.kept_fold, ↓State.put_kept, ↓State.cruCommit_kept]

theorem State.cruEndRun_kept (s : State) (b : Bay) (r : CruRun) : (State.cruEndRun s b r).kept = s.kept := by
  unfold State.cruEndRun
  (repeat' split) <;> simp_all [↓State.put_kept, ↓State.bump_kept, ↓State.raiseBay_kept, ↓State.endItem_kept,
      ↓State.setCru_kept, ↓State.cruReturn_kept, State.kept_foldl]

theorem State.cruNext_kept (s : State) (b : Bay) : (State.cruNext s b).kept = s.kept := by
  unfold State.cruNext
  grind [State.kept_mk, State.setCru_kept, State.cruBorrow_kept, State.cruCommit_kept, State.cruFinishSpot_kept,
      State.cruEndRun_kept]

theorem State.cruAdvance_kept (s : State) (b : Bay) : (State.cruAdvance s b).kept = s.kept := by
  unfold State.cruAdvance
  simp only [↓State.setCru_kept, ↓State.cruNext_kept]

theorem State.cruAttemptFailed_kept (s : State) (b : Bay) (i : CruItem) (k : Fin 7) (c : CruCause) (centre : Int) :
    (State.cruAttemptFailed s b i k c centre).kept = s.kept := by
  unfold State.cruAttemptFailed
  grind [State.kept_mk, State.bump_kept, State.setCru_kept, State.cruFlag_kept, State.cruAdvance_kept]

theorem State.cruMeasured_kept (s : State) (b : Bay) (i : CruItem) (k : Fin 7) (v : List Rat) : (State.cruMeasured s b i k
    v).kept = s.kept := by
  unfold State.cruMeasured
  grind [State.kept_mk, State.setCru_kept, State.cruTake_kept, State.cruAdvance_kept, State.cruAttemptFailed_kept]

theorem State.cruPoint_kept (s : State) (b : Bay) (m : CruMeasured) : (State.cruPoint s b m).kept = s.kept := by
  unfold State.cruPoint
  grind [State.kept_mk, State.setCru_kept, State.cruAttemptFailed_kept, State.cruMeasured_kept]

theorem State.cruPause_kept (s : State) (b : Bay) (point : Bool) : (State.cruPause s b point).kept = s.kept := by
  unfold State.cruPause
  grind [State.kept_mk, State.setCru_kept, State.cruReturn_kept]

theorem State.cruRetry_kept (s : State) (b : Bay) : (State.cruRetry s b).kept = s.kept := by
  unfold State.cruRetry
  grind [State.kept_mk, State.bump_kept, State.cruPause_kept]

theorem State.cruInterrupt_kept (s : State) (b : Bay) : (State.cruInterrupt s b).kept = s.kept := by
  unfold State.cruInterrupt
  grind [State.kept_mk, State.cruPause_kept]

theorem State.cruAbort_kept (s : State) (b : Bay) : (State.cruAbort s b).kept = s.kept := by
  unfold State.cruAbort
  simp only []
  (repeat' split) <;> (try refine (State.kept_foldl _ _ _ fun t x => ?_).trans ?_) <;> (try dsimp only) <;> (repeat' split)
      <;> (try simp only []) <;> grind [State.kept_mk, State.put_kept, State.bump_kept, State.endItem_kept,
      State.setCru_kept, State.cruReturn_kept]

theorem State.cruSpotQuality_kept (s : State) (b : Bay) (k : Fin 7) : (State.cruSpotQuality s b k).kept = s.kept := by
  unfold State.cruSpotQuality
  grind [State.kept_mk, State.put_kept]

end Sys2Proof.Machine
end

