-- ==== Sys2Proof/Laws/KeptRecOps.lean ====
section
/-! SUPPORT. What no command changes, and the form of memory: lemmas of RecOps. -/
namespace Sys2Proof.Machine

set_option linter.unusedSimpArgs false
set_option linter.unusedTactic false
set_option linter.unnecessarySeqFocus false
set_option linter.unreachableTactic false
set_option linter.tactic.unusedName false

theorem State.setRec_kept (s : State) (b : Bay) (x : Rec) : (State.setRec s b x).kept = s.kept := by
  unfold State.setRec
  simp only [↓State.kept_mk, ↓State.kept_fold]

theorem State.recPartial_kept (s : State) (b : Bay) : (State.recPartial s b).kept = s.kept := by
  unfold State.recPartial
  grind [State.kept_mk, State.bump_kept, State.raiseBay_kept, State.endItem_kept, State.logOver_kept, State.setRec_kept]

theorem State.recRefuse_kept (s : State) (b : Bay) (l : BuiltLog) (st : WStatus) : (State.recRefuse s b l st).kept = s.kept
    := by
  unfold State.recRefuse
  simp only [↓State.endItem_kept, ↓State.setRec_kept]

theorem State.recClear_kept (s : State) (b : Bay) : (State.recClear s b).kept = s.kept := by
  unfold State.recClear
  simp only [↓State.setRec_kept]

end Sys2Proof.Machine
end

