-- ==== Sys2Proof/Laws/KeptLatOps.lean ====
section
/-! SUPPORT. What no command changes, and the form of memory: lemmas of LatOps. -/
namespace Sys2Proof.Machine

set_option linter.unusedSimpArgs false
set_option linter.unusedTactic false
set_option linter.unnecessarySeqFocus false
set_option linter.unreachableTactic false
set_option linter.tactic.unusedName false

theorem State.setLat_kept (s : State) (b : Bay) (x : LatBay) : (State.setLat s b x).kept = s.kept := by
  unfold State.setLat
  simp only [↓State.kept_mk, ↓State.kept_fold]

theorem State.setLatSpot_kept (s : State) (b : Bay) (k : Fin 7) (x : LatSpot) : (State.setLatSpot s b k x).kept = s.kept :=
    by
  unfold State.setLatSpot
  simp only [↓State.setLat_kept]

theorem State.setLatDie_kept (s : State) (d : Die) (x : LatDie) : (State.setLatDie s d x).kept = s.kept := by
  unfold State.setLatDie
  simp only [↓State.kept_mk, ↓State.kept_fold]

theorem State.countErased_kept (s : State) (b : Bay) : (State.countErased s b).kept = s.kept := by
  unfold State.countErased
  simp only [↓State.bump_kept]

theorem State.sendBoard_kept (s : State) (b : Bay) (l : LogAsm) (i : Nat) (bd : Bytes) (status : Nat) : (State.sendBoard s b
    l i bd status).kept = s.kept := by
  unfold State.sendBoard
  grind [State.kept_mk, State.send_kept]

theorem State.systemLog_kept (s : State) (b : Bay) (layer n : Nat) : (State.systemLog s b layer n).kept = s.kept := by
  unfold State.systemLog
  simp only [↓State.setLat_kept]

theorem State.mountEnd_kept (s : State) (b : Bay) : (State.mountEnd s b).kept = s.kept := by
  unfold State.mountEnd
  simp only [↓State.kept_mk, ↓State.kept_fold, ↓State.kept_ite, ↓State.kept_fst_ite, ↓State.endItem_kept,
      ↓State.setMounted_kept, ↓State.cruRaise_kept, ↓State.setLat_kept]
  (repeat' split) <;> simp only [↓State.kept_mk, ↓State.kept_fold, ↓State.kept_ite, ↓State.kept_fst_ite, ↓State.endItem_kept,
      ↓State.setMounted_kept, ↓State.cruRaise_kept, ↓State.setLat_kept, ite_self]

theorem State.mountLog_kept (s : State) (b : Bay) (l : LogAsm) (result : Nat) : (State.mountLog s b l result).kept = s.kept
    := by
  unfold State.mountLog
  grind [State.kept_mk, State.setLat_kept, State.systemLog_kept, State.mountEnd_kept]

theorem State.logEnd_kept (s : State) (b : Bay) (l : LogAsm) (result : Nat) : (State.logEnd s b l result).kept = s.kept := by
  unfold State.logEnd
  (repeat' split) <;> simp_all [↓State.bump_kept, ↓State.send_kept, ↓State.endItem_kept, ↓State.setLat_kept,
      ↓State.mountLog_kept, State.kept_foldl]

theorem State.putLog_kept (s : State) (b : Bay) (l : LogAsm) : (State.putLog s b l).kept = s.kept := by
  unfold State.putLog
  simp only [↓State.setLat_kept]

theorem State.logUndecodable_kept (s : State) (b : Bay) (l : LogAsm) : (State.logUndecodable s b l).kept = s.kept := by
  unfold State.logUndecodable
  grind [State.kept_mk, State.logEnd_kept, State.putLog_kept]

theorem State.assemble_kept (s : State) (b : Bay) (l : LogAsm) : (State.assemble s b l).kept = s.kept := by
  unfold State.assemble
  (repeat' split) <;> simp_all [↓State.kept_ite, ↓State.bump_kept, ↓State.sendBoard_kept, ↓State.logEnd_kept,
      ↓State.logUndecodable_kept, State.kept_foldl]

theorem State.boardDecided_kept (s : State) (b : Bay) (k : Fin 7) (layer area slot : Nat) (o : BoardOutcome) :
    (State.boardDecided s b k layer area slot o).kept = s.kept := by
  unfold State.boardDecided
  grind [State.kept_mk, State.setLat_kept, State.countErased_kept, State.sendBoard_kept, State.putLog_kept,
      State.assemble_kept]

theorem State.detNext_kept (s : State) (d : Die) : (State.detNext s d).kept = s.kept := by
  unfold State.detNext
  grind [State.kept_mk, State.setLatDie_kept]

theorem State.sliceBoundary_kept (s : State) (b : Bay) (k : Fin 7) : (State.sliceBoundary s b k).kept = s.kept := by
  unfold State.sliceBoundary
  simp only [↓State.kept_mk, ↓State.kept_fold, ↓State.kept_ite, ↓State.kept_fst_ite, ↓State.activate_kept,
      ↓State.setSfe_kept, ↓State.setSpot_kept, ↓State.setLat_kept, ↓State.setLatSpot_kept]
  (repeat' split) <;> simp only [↓State.kept_mk, ↓State.kept_fold, ↓State.kept_ite, ↓State.kept_fst_ite,
      ↓State.activate_kept, ↓State.setSfe_kept, ↓State.setSpot_kept, ↓State.setLat_kept, ↓State.setLatSpot_kept, ite_self]

theorem State.latHold_kept (s : State) (b : Bay) : (State.latHold s b).kept = s.kept := by
  unfold State.latHold
  simp only [↓State.setLat_kept]

theorem State.latAcquire_kept (s : State) (b : Bay) (layer : Nat) : (State.latAcquire s b layer).kept = s.kept := by
  unfold State.latAcquire
  (repeat' split) <;> simp_all [↓State.setLat_kept, ↓State.setLatSpot_kept, State.kept_foldl]

end Sys2Proof.Machine
end

