-- ==== Sys2Proof/Laws/KeptOsvOps.lean ====
section
/-! SUPPORT. What no command changes, and the form of memory: lemmas of OsvOps. -/
namespace Sys2Proof.Machine

set_option linter.unusedSimpArgs false
set_option linter.unusedTactic false
set_option linter.unnecessarySeqFocus false
set_option linter.unreachableTactic false
set_option linter.tactic.unusedName false

theorem State.setOsv_kept (s : State) (b : Bay) (x : Osv) : (State.setOsv s b x).kept = s.kept := by
  unfold State.setOsv
  simp only [↓State.kept_mk, ↓State.kept_fold]

theorem State.slotRestart_kept (s : State) (d : Die) (n : Fin 48) : (State.slotRestart s d n).kept = s.kept := by
  unfold State.slotRestart
  grind [State.kept_mk, State.setSlot_kept]

theorem State.osvSweep_kept (s : State) (b : Bay) : (State.osvSweep s b).kept = s.kept := by
  unfold State.osvSweep
  simp only [↓State.setOsv_kept, ↓State.slotRestart_kept]

theorem State.moveOutcome_kept (s : State) (b : Bay) (r : MoveReq) (ok : Bool) : (State.moveOutcome s b r ok).kept = s.kept
    := by
  unfold State.moveOutcome
  grind [State.kept_mk, State.endItem_kept, State.setLat_kept]

theorem State.moveEnd_kept (s : State) (b : Bay) (ok : Bool) : (State.moveEnd s b ok).kept = s.kept := by
  unfold State.moveEnd
  grind [State.kept_mk, State.setOsv_kept, State.moveOutcome_kept]

theorem State.focusRetry_kept (s : State) (b : Bay) : (State.focusRetry s b).kept = s.kept := by
  unfold State.focusRetry
  grind [State.kept_mk, State.raiseBay_kept, State.endBayItems_kept, State.setMounted_kept, State.setOsv_kept,
      State.osvSweep_kept, State.moveEnd_kept]

theorem State.trackLost_kept (s : State) (b : Bay) : (State.trackLost s b).kept = s.kept := by
  unfold State.trackLost
  grind [State.kept_mk, State.bump_kept, State.raiseBay_kept, State.cruInterrupt_kept, State.setOsv_kept]

theorem State.writeInhibit_kept (s : State) (b : Bay) : (State.writeInhibit s b).kept = s.kept := by
  unfold State.writeInhibit
  grind [State.kept_mk, State.bump_kept, State.setRec_kept, State.recPartial_kept]

theorem State.focusLost_kept (s : State) (b : Bay) : (State.focusLost s b).kept = s.kept := by
  unfold State.focusLost
  grind [State.kept_mk, State.bump_kept, State.raiseBay_kept, State.cruInterrupt_kept, State.setOsv_kept,
      State.trackLost_kept, State.writeInhibit_kept]

theorem State.focusCapture_kept (s : State) (b : Bay) (layer : Nat) : (State.focusCapture s b layer).kept = s.kept := by
  unfold State.focusCapture
  simp only [↓State.setOsv_kept, ↓State.slotRestart_kept]

theorem State.osvOff_kept (s : State) (b : Bay) : (State.osvOff s b).kept = s.kept := by
  unfold State.osvOff
  grind [State.kept_mk, State.setOsv_kept, State.moveOutcome_kept, State.moveEnd_kept]

theorem State.saMove_kept (s : State) (b : Bay) (layer : Nat) : (State.saMove s b layer).kept = s.kept := by
  unfold State.saMove
  simp only [↓State.axMoveTo_kept, ↓State.setOsv_kept]

theorem State.layerKick_kept (s : State) (b : Bay) (final : Nat) : (State.layerKick s b final).kept = s.kept := by
  unfold State.layerKick
  simp only [↓State.sfeHold_kept, ↓State.axMoveTo_kept, ↓State.latHold_kept, ↓State.setOsv_kept]

theorem State.sledFollowOff_kept (s : State) (b : Bay) : (State.sledFollowOff s b).kept = s.kept := by
  unfold State.sledFollowOff
  simp only [↓State.setSlot_kept]

theorem State.trackKick_kept (s : State) (b : Bay) (d : Int) : (State.trackKick s b d).kept = s.kept := by
  unfold State.trackKick
  simp only [↓State.sfeHold_kept, ↓State.latHold_kept, ↓State.setOsv_kept, ↓State.sledFollowOff_kept]

theorem State.seekStep_kept (s : State) (b : Bay) (area slot : Nat) : (State.seekStep s b area slot).kept = s.kept := by
  unfold State.seekStep
  grind [State.kept_mk, State.sfeHold_kept, State.axGo_kept, State.latHold_kept, State.setOsv_kept, State.moveEnd_kept,
      State.trackKick_kept]

theorem State.layerArrived_kept (s : State) (b : Bay) : (State.layerArrived s b).kept = s.kept := by
  unfold State.layerArrived
  grind [State.kept_mk, State.moveEnd_kept, State.seekStep_kept]

theorem State.moveStart_kept (s : State) (b : Bay) (r : MoveReq) : (State.moveStart s b r).kept = s.kept := by
  unfold State.moveStart
  grind [State.kept_mk, State.activate_kept, State.cruRetry_kept, State.cruInterrupt_kept, State.setRec_kept,
      State.setOsv_kept, State.osvSweep_kept, State.moveEnd_kept, State.layerKick_kept, State.trackKick_kept,
      State.seekStep_kept]

theorem State.moveRequest_kept (s : State) (b : Bay) (r : MoveReq) : (State.moveRequest s b r).kept = s.kept := by
  unfold State.moveRequest
  grind [State.kept_mk, State.put_kept, State.bump_kept, State.setOsv_kept, State.moveOutcome_kept, State.moveStart_kept]

theorem State.ownSlot_kept (s : State) (d : Die) (n : Fin 48) (force : Option Int) (hold : Bool) : (State.ownSlot s d n force
    hold).kept = s.kept := by
  unfold State.ownSlot
  grind [State.kept_mk, State.setSlot_kept, State.freeSlot_kept]

theorem State.osvForces_kept (s : State) (b : Bay) : (State.osvForces s b).kept = s.kept := by
  unfold State.osvForces
  simp only [↓State.ownSlot_kept]

theorem State.focusOn_kept (s : State) (b : Bay) : (State.focusOn s b).kept = s.kept := by
  unfold State.focusOn
  simp only [↓State.setOsv_kept, ↓State.osvSweep_kept]

theorem State.osvCtl_kept (s : State) (b : Bay) (w : Word) : (State.osvCtl s b w).kept = s.kept := by
  unfold State.osvCtl
  grind [State.kept_mk, State.put_kept, State.cruInterrupt_kept, State.setOsv_kept, State.osvOff_kept, State.focusOn_kept]

end Sys2Proof.Machine
end

