-- ==== Sys2Proof/Laws/KeptLattice.lean ====
section
/-! SUPPORT. What no command changes, and the form of memory: lemmas of Lattice. -/
namespace Sys2Proof.Machine

set_option linter.unusedSimpArgs false
set_option linter.unusedTactic false
set_option linter.unnecessarySeqFocus false
set_option linter.unreachableTactic false
set_option linter.tactic.unusedName false

theorem State.latBit_kept (s : State) (b : Bay) (k : Fin 7) (o : BitObs) : (State.latBit s b k o).1.kept = s.kept := by
  unfold State.latBit
  simp only [↓State.bumpBy_kept, ↓State.setLatSpot_kept]

theorem State.syncFrameOf_kept (s : State) (b : Bay) (k : Fin 7) (o : FrameObs) : (State.syncFrameOf s b k o).kept = s.kept
    := by
  unfold State.syncFrameOf
  simp only [↓State.kept_mk, ↓State.kept_fold, ↓State.kept_ite, ↓State.kept_fst_ite, ↓State.bump_kept,
      ↓State.setLatSpot_kept, ↓State.setOsv_kept, ↓State.latBit_kept]
  (repeat' split) <;> (try refine (State.kept_foldl_fst _ _ _ fun t y x => ?_).trans ?_) <;> (try dsimp only) <;> (repeat'
      split) <;> (try simp only [↓State.kept_mk, ↓State.kept_fold, ↓State.kept_ite, ↓State.kept_fst_ite, ↓State.bump_kept,
      ↓State.setLatSpot_kept, ↓State.setOsv_kept, ↓State.latBit_kept]) <;> grind [State.kept_mk, State.bump_kept,
      State.setLatSpot_kept, State.setOsv_kept, State.latBit_kept]

theorem execSyncFrame_kept (b : Bay) (k : Fin 7) (o : FrameObs) (s : State) : ∃ t, (execSyncFrame b k o s) = .next t ∧ t.kept
    = s.kept := by
  unfold execSyncFrame
  (repeat' split) <;> exact ⟨_, rfl, by simp only [↓State.kept_mk, ↓State.kept_fold, ↓State.kept_ite, ↓State.kept_fst_ite,
      ↓State.syncFrameOf_kept]⟩

theorem State.slotBlank_kept (s : State) (b : Bay) (k : Fin 7) (area slot : Nat) : (State.slotBlank s b k area slot).kept =
    s.kept := by
  unfold State.slotBlank
  grind [State.kept_mk, State.boardDecided_kept]

theorem execSlotBlank_kept (b : Bay) (k : Fin 7) (area slot : Nat) (s : State) : ∃ t, (execSlotBlank b k area slot s) = .next
    t ∧ t.kept = s.kept := by
  unfold execSlotBlank
  (repeat' split) <;> exact ⟨_, rfl, by simp only [↓State.slotBlank_kept]⟩

theorem State.sliceClose_kept (s : State) (b : Bay) (k : Fin 7) (len : Nat) : (State.sliceClose s b k len).kept = s.kept :=
    by
  unfold State.sliceClose
  grind [State.kept_mk, State.bump_kept, State.setLatSpot_kept, State.setLatDie_kept, State.detNext_kept,
      State.sliceBoundary_kept]

theorem execSliceClose_kept (b : Bay) (k : Fin 7) (len : Nat) (s : State) : ∃ t, (execSliceClose b k len s) = .next t ∧
    t.kept = s.kept := by
  unfold execSliceClose
  (repeat' split) <;> exact ⟨_, rfl, by simp only [↓State.sliceClose_kept]⟩

theorem State.sliceDetected_kept (s : State) (d : Die) (r : SliceResult) : (State.sliceDetected s d r).kept = s.kept := by
  unfold State.sliceDetected
  grind [State.kept_mk, State.setLatSpot_kept, State.setLatDie_kept, State.detNext_kept]

theorem execSliceDetected_kept (d : Die) (r : SliceResult) (s : State) : ∃ t, (execSliceDetected d r s) = .next t ∧ t.kept =
    s.kept := by
  unfold execSliceDetected
  (repeat' split) <;> exact ⟨_, rfl, by simp only [↓State.sliceDetected_kept]⟩

theorem State.spotHandOver_kept (s : State) (b : Bay) (k : Fin 7) (slot : Nat) : (State.spotHandOver s b k slot).kept =
    s.kept := by
  unfold State.spotHandOver
  grind [State.kept_mk, State.bump_kept, State.setLatSpot_kept, State.setLatDie_kept, State.boardDecided_kept]

theorem execCodewordHandover_kept (b : Bay) (k : Fin 7) (slot : Nat) (s : State) : ∃ t, (execCodewordHandover b k slot s) =
    .next t ∧ t.kept = s.kept := by
  unfold execCodewordHandover
  (repeat' split) <;> exact ⟨_, rfl, by simp only [↓State.spotHandOver_kept]⟩

theorem State.ldpcDone_kept (s : State) (d : Die) (r : LdpcResult) : (State.ldpcDone s d r).kept = s.kept := by
  unfold State.ldpcDone
  simp only [↓State.kept_mk, ↓State.kept_fold, ↓State.kept_ite, ↓State.kept_fst_ite, ↓State.bump_kept,
      ↓State.setLatSpot_kept, ↓State.setLatDie_kept, ↓State.boardDecided_kept]
  (repeat' split) <;> simp only [↓State.kept_mk, ↓State.kept_fold, ↓State.kept_ite, ↓State.kept_fst_ite, ↓State.bump_kept,
      ↓State.setLatSpot_kept, ↓State.setLatDie_kept, ↓State.boardDecided_kept, ite_self]

theorem execLdpcDecodeDone_kept (d : Die) (r : LdpcResult) (s : State) : ∃ t, (execLdpcDecodeDone d r s) = .next t ∧ t.kept =
    s.kept := by
  unfold execLdpcDecodeDone
  (repeat' split) <;> exact ⟨_, rfl, by simp only [↓State.ldpcDone_kept]⟩

theorem State.retryJump_kept (s : State) (b : Bay) : (State.retryJump s b).kept = s.kept := by
  unfold State.retryJump
  grind [State.kept_mk, State.bump_kept, State.setLat_kept, State.moveRequest_kept]

theorem execRetryJumpBack_kept (b : Bay) (s : State) : ∃ t, (execRetryJumpBack b s) = .next t ∧ t.kept = s.kept := by
  unfold execRetryJumpBack
  (repeat' split) <;> exact ⟨_, rfl, by simp only [↓State.retryJump_kept]⟩

theorem State.qualityLatch_kept (s : State) (b : Bay) (k : Fin 7) : (State.qualityLatch s b k).kept = s.kept := by
  unfold State.qualityLatch
  grind [State.kept_mk, State.drawn_kept, State.put_kept, State.cruSpotQuality_kept, State.setLatSpot_kept]

theorem execQualityWindowLatch_kept (b : Bay) (k : Fin 7) (s : State) : ∃ t, (execQualityWindowLatch b k s) = .next t ∧
    t.kept = s.kept := by
  unfold execQualityWindowLatch
  (repeat' split) <;> exact ⟨_, rfl, by simp only [↓State.qualityLatch_kept]⟩

end Sys2Proof.Machine
end

