-- ==== Sys2Proof/Laws/KeptRecord.lean ====
section
/-! SUPPORT. What no command changes, and the form of memory: lemmas of Record. -/
namespace Sys2Proof.Machine

set_option linter.unusedSimpArgs false
set_option linter.unusedTactic false
set_option linter.unnecessarySeqFocus false
set_option linter.unreachableTactic false
set_option linter.tactic.unusedName false

theorem State.logBuild_kept (s : State) (b : Bay) (item : Nat) : (State.logBuild s b item).kept = s.kept := by
  unfold State.logBuild
  grind [State.kept_mk, State.raiseBay_kept, State.spnRun_kept, State.setRec_kept, State.recRefuse_kept]

theorem execRecordLogBuild_kept (b : Bay) (item : Nat) (s : State) : ∃ t, (execRecordLogBuild b item s) = .next t ∧ t.kept =
    s.kept := by
  unfold execRecordLogBuild
  (repeat' split) <;> exact ⟨_, rfl, by simp only [↓State.logBuild_kept]⟩

theorem State.speedSettled_kept (s : State) (b : Bay) : (State.speedSettled s b).kept = s.kept := by
  unfold State.speedSettled
  grind [State.kept_mk, State.setRec_kept]

theorem execRecordSpeedSettled_kept (b : Bay) (s : State) : ∃ t, (execRecordSpeedSettled b s) = .next t ∧ t.kept = s.kept :=
    by
  unfold execRecordSpeedSettled
  (repeat' split) <;> exact ⟨_, rfl, by simp only [↓State.speedSettled_kept]⟩

theorem State.checkRev_kept (s : State) (b : Bay) (marked : List (Nat × Nat × Nat)) : (State.checkRev s b marked).kept =
    s.kept := by
  unfold State.checkRev
  (repeat' split) <;> simp_all [↓State.kept_ite, ↓State.setRec_kept, ↓State.recRefuse_kept, State.kept_foldl]

theorem execCheckRevolution_kept (b : Bay) (marked : List (Nat × Nat × Nat)) (s : State) : ∃ t, (execCheckRevolution b marked
    s) = .next t ∧ t.kept = s.kept := by
  unfold execCheckRevolution
  (repeat' split) <;> exact ⟨_, rfl, by simp only [↓State.checkRev_kept]⟩

theorem State.logStart_kept (s : State) (b : Bay) (item : Nat) : (State.logStart s b item).kept = s.kept := by
  unfold State.logStart
  grind [State.kept_mk, State.bump_kept, State.setDie_kept, State.raiseBay_kept, State.activate_kept,
      State.cruInterrupt_kept, State.setRec_kept, State.recRefuse_kept]

theorem execLogWriteStart_kept (b : Bay) (item : Nat) (s : State) : ∃ t, (execLogWriteStart b item s) = .next t ∧ t.kept =
    s.kept := by
  unfold execLogWriteStart
  (repeat' split) <;> exact ⟨_, rfl, by simp only [↓State.logStart_kept]⟩

theorem State.logWritten_kept (s : State) (b : Bay) : (State.logWritten s b).kept = s.kept := by
  unfold State.logWritten
  grind [State.kept_mk, State.bump_kept, State.endItem_kept, State.logOver_kept, State.setRec_kept]

theorem execLogWriteEnd_kept (b : Bay) (s : State) : ∃ t, (execLogWriteEnd b s) = .next t ∧ t.kept = s.kept := by
  unfold execLogWriteEnd
  (repeat' split) <;> exact ⟨_, rfl, by simp only [↓State.logWritten_kept]⟩

theorem execWriteInhibit_kept (b : Bay) (s : State) : ∃ t, (execWriteInhibit b s) = .next t ∧ t.kept = s.kept := by
  unfold execWriteInhibit
  (repeat' split) <;> exact ⟨_, rfl, by simp only [↓State.writeInhibit_kept]⟩

theorem State.laserReport_kept (s : State) (b : Bay) (r : Nat) : (State.laserReport s b r).kept = s.kept := by
  unfold State.laserReport
  grind [State.kept_mk, State.setRec_kept]

theorem execLaserReportFrame_kept (b : Bay) (report : Nat) (s : State) : ∃ t, (execLaserReportFrame b report s) = .next t ∧
    t.kept = s.kept := by
  unfold execLaserReportFrame
  (repeat' split) <;> exact ⟨_, rfl, by simp only [↓State.laserReport_kept]⟩

theorem State.laserLink_kept (s : State) (b : Bay) : (State.laserLink s b).kept = s.kept := by
  unfold State.laserLink
  grind [State.kept_mk, State.raiseBay_kept, State.setRec_kept, State.recPartial_kept]

theorem execLaserLink_kept (b : Bay) (s : State) : ∃ t, (execLaserLink b s) = .next t ∧ t.kept = s.kept := by
  unfold execLaserLink
  (repeat' split) <;> exact ⟨_, rfl, by simp only [↓State.laserLink_kept]⟩

theorem State.opcEmitter_kept (s : State) (b : Bay) (k : Fin 7) (j : Vector Nat 16) : (State.opcEmitter s b k j).kept =
    s.kept := by
  unfold State.opcEmitter
  grind [State.kept_mk, State.put_kept, State.raiseBay_kept, State.setRec_kept]

theorem State.powerTest_kept (s : State) (b : Bay) (first : Option Nat) (jitter : Vector (Vector Nat 16) 7) :
    (State.powerTest s b first jitter).kept = s.kept := by
  unfold State.powerTest
  (repeat' split) <;> simp_all [↓State.kept_ite, ↓State.bump_kept, ↓State.raiseBay_kept, ↓State.setRec_kept,
      ↓State.opcEmitter_kept, State.kept_foldl]

theorem execPowerTest_kept (b : Bay) (first : Option Nat) (jitter : Vector (Vector Nat 16) 7) (s : State) : ∃ t,
    (execPowerTest b first jitter s) = .next t ∧ t.kept = s.kept := by
  unfold execPowerTest
  (repeat' split) <;> exact ⟨_, rfl, by simp only [↓State.powerTest_kept]⟩

theorem State.opcRun_kept (s : State) (b : Bay) : (State.opcRun s b).kept = s.kept := by
  unfold State.opcRun
  grind [State.kept_mk, State.setRec_kept]

theorem execRecOpcRun_kept (b : Bay) (s : State) : ∃ t, (execRecOpcRun b s) = .next t ∧ t.kept = s.kept := by
  unfold execRecOpcRun
  (repeat' split) <;> exact ⟨_, rfl, by simp only [↓State.opcRun_kept]⟩

end Sys2Proof.Machine
end

