-- ==== Sys2Proof/Laws/KeptSafe.lean ====
section
/-! SUPPORT. What no command changes, and the form of memory: lemmas of Safe. -/
namespace Sys2Proof.Machine

set_option linter.unusedSimpArgs false
set_option linter.unusedTactic false
set_option linter.unnecessarySeqFocus false
set_option linter.unreachableTactic false
set_option linter.tactic.unusedName false

theorem State.endAllItems_kept (s : State) (d : Die) (st : WStatus) : (State.endAllItems s d st).kept = s.kept := by
  unfold State.endAllItems
  (repeat' split) <;> simp_all [↓State.endItem_kept, State.kept_foldl]

theorem State.safeSlots_kept (s : State) (d : Die) : (State.safeSlots s d).kept = s.kept := by
  unfold State.safeSlots
  (repeat' split) <;> simp_all [↓State.kept_ite, ↓State.setSlot_kept, State.kept_foldl]

theorem State.bayStops_kept (s : State) (b : Bay) : (State.bayStops s b).kept = s.kept := by
  unfold State.bayStops
  simp only [↓State.setMounted_kept, ↓State.sfeHold_kept, ↓State.spnSafeStop_kept, ↓State.cruAbort_kept,
      ↓State.recPartial_kept, ↓State.recClear_kept, ↓State.setLat_kept, ↓State.latHold_kept, ↓State.setOsv_kept,
      ↓State.osvOff_kept]

theorem State.yrdSafe_kept (s : State) : (State.yrdSafe s).kept = s.kept := by
  unfold State.yrdSafe
  grind [State.kept_mk, State.endItem_kept, State.setYrd_kept]

theorem State.enterSafe_kept (s : State) (d : Die) : (State.enterSafe s d).kept = s.kept := by
  unfold State.enterSafe
  (repeat' split) <;> simp_all [↓State.setDie_kept, ↓State.answerResets_kept, ↓State.stopAxes_kept, ↓State.endAllItems_kept,
      ↓State.safeSlots_kept, ↓State.bayStops_kept, ↓State.yrdSafe_kept, State.kept_foldl]

theorem State.clockLost_kept (s : State) (d : Die) : (State.clockLost s d).kept = s.kept := by
  unfold State.clockLost
  (repeat' split) <;> simp_all [↓State.kept_mk, ↓State.kept_fold, ↓State.setDie_kept, ↓State.spnClockLost_kept,
      State.kept_foldl]

theorem State.slotDisable_kept (s : State) (d : Die) (n : Fin 48) : (State.slotDisable s d n).kept = s.kept := by
  unfold State.slotDisable
  simp only [↓State.kept_mk, ↓State.kept_fold, ↓State.setSlot_kept]

theorem State.selDisable_kept (s : State) (d : Die) (g : Fin 8) : (State.selDisable s d g).kept = s.kept := by
  unfold State.selDisable
  simp only [↓State.kept_mk, ↓State.kept_fold]

theorem State.release_kept (s : State) (d : Die) : (State.release s d).kept = s.kept := by
  unfold State.release
  (repeat' split) <;> simp_all [↓State.setDie_kept, ↓State.setYrd_kept, ↓State.slotDisable_kept, ↓State.selDisable_kept,
      State.kept_foldl]

end Sys2Proof.Machine
end

