-- ==== Sys2Proof/Laws/KeptTrnOps.lean ====
section
/-! SUPPORT. What no command changes, and the form of memory: lemmas of TrnOps. -/
namespace Sys2Proof.Machine

set_option linter.unusedSimpArgs false
set_option linter.unusedTactic false
set_option linter.unnecessarySeqFocus false
set_option linter.unreachableTactic false
set_option linter.tactic.unusedName false

theorem State.setTrn_kept (s : State) (d : Die) (x : Trn) : (State.setTrn s d x).kept = s.kept := by
  unfold State.setTrn
  simp only [↓State.kept_mk, ↓State.kept_fold]

theorem State.setSel_kept (s : State) (d : Die) (g : Fin 8) (x : TrnSel) : (State.setSel s d g x).kept = s.kept := by
  unfold State.setSel
  simp only [↓State.kept_mk, ↓State.kept_fold]

end Sys2Proof.Machine
end

