-- ==== Sys2Proof/Laws/KeptTurnOps.lean ====
section
/-! SUPPORT. What no command changes, and the form of memory: lemmas of TurnOps. -/
namespace Sys2Proof.Machine

set_option linter.unusedSimpArgs false
set_option linter.unusedTactic false
set_option linter.unnecessarySeqFocus false
set_option linter.unreachableTactic false
set_option linter.tactic.unusedName false

theorem State.osvVelocity_kept (s : State) (b : Bay) : (State.osvVelocity s b).kept = s.kept := by
  unfold State.osvVelocity
  grind [State.kept_mk, State.velUpdate_kept, State.setOsv_kept]

theorem State.osvFine_kept (s : State) (b : Bay) : (State.osvFine s b).kept = s.kept := by
  unfold State.osvFine
  grind [State.kept_mk, State.setOsv_kept]

theorem State.coarseEnd_kept (s : State) (b : Bay) : (State.coarseEnd s b).kept = s.kept := by
  unfold State.coarseEnd
  grind [State.kept_mk, State.put_kept, State.setAxis_kept, State.setOsv_kept, State.moveEnd_kept]

theorem State.trackStart_kept (s : State) (b : Bay) : (State.trackStart s b).kept = s.kept := by
  unfold State.trackStart
  grind [State.kept_mk, State.setOsv_kept, State.slotRestart_kept]

theorem State.pendingStart_kept (s : State) (b : Bay) : (State.pendingStart s b).kept = s.kept := by
  unfold State.pendingStart
  grind [State.kept_mk, State.moveStart_kept]

theorem State.readSeek_kept (s : State) (b : Bay) : (State.readSeek s b).kept = s.kept := by
  unfold State.readSeek
  grind [State.kept_mk, State.moveStart_kept]

theorem State.osvTurn_kept (s : State) (b : Bay) (o : ServoObs) : (State.osvTurn s b o).kept = s.kept := by
  unfold State.osvTurn
  grind [State.kept_mk, State.bump_kept, State.setCru_kept, State.setRec_kept, State.setOsv_kept, State.osvVelocity_kept,
      State.osvFine_kept, State.coarseEnd_kept, State.trackStart_kept, State.pendingStart_kept, State.readSeek_kept]

theorem State.defectHold_kept (s : State) (b : Bay) (o : Bool) : (State.defectHold s b o).kept = s.kept := by
  unfold State.defectHold
  grind [State.kept_mk, State.setSlot_kept]

theorem State.turnGroups_kept (s : State) (d : Die) : (State.turnGroups s d).kept = s.kept := by
  unfold State.turnGroups
  (repeat' split) <;> simp_all [↓State.kept_ite, ↓State.activate_kept, ↓State.setOsv_kept, ↓State.saMove_kept,
      State.kept_foldl]

theorem State.slotBoundary_kept (s : State) (d : Die) (n : Fin 48) : (State.slotBoundary s d n).kept = s.kept := by
  unfold State.slotBoundary
  grind [State.kept_mk, State.setSlot_kept]

theorem State.ownerFault_kept (s : State) (d : Die) (n : Fin 48) : (State.ownerFault s d n).kept = s.kept := by
  unfold State.ownerFault
  grind [State.kept_mk, State.recPartial_kept, State.trackLost_kept]

theorem State.slotFault_kept (s : State) (d : Die) (n : Fin 48) : (State.slotFault s d n).kept = s.kept := by
  unfold State.slotFault
  simp only [↓State.bump_kept, ↓State.raiseDie_kept, ↓State.setSlot_kept, ↓State.ownerFault_kept]

theorem State.evalCounts_kept (s : State) (d : Die) (n : Fin 48) (sat slew : Bool) : (State.evalCounts s d n sat slew).kept =
    s.kept := by
  unfold State.evalCounts
  grind [State.kept_mk, State.bump_kept]

theorem State.evalSlot_kept (l s : State) (d : Die) (n : Fin 48) : (State.evalSlot l s d n).kept = s.kept := by
  unfold State.evalSlot
  grind [State.kept_mk, State.bump_kept, State.setSlot_kept, State.slotFault_kept, State.evalCounts_kept]

theorem State.select_kept (s : State) (d : Die) (g : Fin 8) (n : Fin 48) (prev : Int) : (State.select s d g n prev).kept =
    s.kept := by
  unfold State.select
  grind [State.kept_mk, State.bump_kept, State.setSlot_kept, State.setSel_kept, State.evalCounts_kept]

theorem State.trackLosers_kept (s : State) (d : Die) (g : Fin 8) : (State.trackLosers s d g).kept = s.kept := by
  unfold State.trackLosers
  (repeat' split) <;> simp_all [↓State.kept_ite, ↓State.setSlot_kept, State.kept_foldl]

theorem State.selectorOn_kept (s : State) (d : Die) (g : Fin 8) : (State.selectorOn s d g).kept = s.kept := by
  unfold State.selectorOn
  (repeat' split) <;> simp_all [↓State.kept_ite, ↓State.setSlot_kept, ↓State.setSel_kept, State.kept_foldl]

theorem State.selEmpty_kept (s : State) (d : Die) (g : Fin 8) : (State.selEmpty s d g).kept = s.kept := by
  unfold State.selEmpty
  grind [State.kept_mk, State.bump_kept, State.raiseDie_kept, State.setSel_kept]

theorem State.selPick_kept (s : State) (d : Die) (g : Fin 8) (live : List (Fin 48)) (keep : Option (Fin 48)) : (State.selPick
    s d g live keep).kept = s.kept := by
  unfold State.selPick
  grind [State.kept_mk, State.setSel_kept, State.select_kept]

theorem State.resolveSel_kept (s : State) (d : Die) (g : Fin 8) : (State.resolveSel s d g).kept = s.kept := by
  unfold State.resolveSel
  grind [State.kept_mk, State.setSel_kept, State.trackLosers_kept, State.selEmpty_kept, State.selPick_kept]

theorem State.selectors_kept (s : State) (d : Die) (due : List (Fin 48)) : (State.selectors s d due).kept = s.kept := by
  unfold State.selectors
  (repeat' split) <;> simp_all [↓State.kept_ite, ↓State.setSel_kept, ↓State.resolveSel_kept, State.kept_foldl]

theorem State.turnRun_kept (s : State) (d : Die) (adc : Vector ServoObs 2) : (State.turnRun s d adc).kept = s.kept := by
  unfold State.turnRun
  (repeat' split) <;> simp_all [↓State.kept_ite, ↓State.osvForces_kept, ↓State.enterSafe_kept, ↓State.setTrn_kept,
      ↓State.osvTurn_kept, ↓State.defectHold_kept, ↓State.turnGroups_kept, ↓State.slotBoundary_kept, ↓State.evalSlot_kept,
      ↓State.selectorOn_kept, ↓State.selectors_kept, State.kept_foldl]

theorem State.turn_kept (s : State) (d : Die) (adc : Vector ServoObs 2) : (State.turn s d adc).kept = s.kept := by
  unfold State.turn
  grind [State.kept_mk, State.turnRun_kept]

end Sys2Proof.Machine
end

