-- ==== Sys2Proof/Laws/KeptTurn.lean ====
section
/-! SUPPORT. What no command changes, and the form of memory: lemmas of Turn. -/
namespace Sys2Proof.Machine

set_option linter.unusedSimpArgs false
set_option linter.unusedTactic false
set_option linter.unnecessarySeqFocus false
set_option linter.unreachableTactic false
set_option linter.tactic.unusedName false

theorem execTurn_kept (d : Die) (adc : Vector ServoObs 2) (s : State) : ∃ t, (execTurn d adc s) = .next t ∧ t.kept = s.kept
    := by
  unfold execTurn
  (repeat' split) <;> exact ⟨_, rfl, by simp only [↓State.turn_kept]⟩

theorem State.slotClear_kept (s : State) (d : Die) (n : Fin 48) : (State.slotClear s d n).kept = s.kept := by
  unfold State.slotClear
  grind [State.kept_mk, State.setSlot_kept]

theorem execTrnCmdClear_kept (d : Die) (n : Fin 48) (s : State) : ∃ t, (execTrnCmdClear d n s) = .next t ∧ t.kept = s.kept :=
    by
  unfold execTrnCmdClear
  (repeat' split) <;> exact ⟨_, rfl, by simp only [↓State.slotClear_kept]⟩

theorem State.slotCmd_kept (s : State) (d : Die) (n : Fin 48) (w : Word) : (State.slotCmd s d n w).kept = s.kept := by
  unfold State.slotCmd
  grind [State.kept_mk, State.put_kept, State.slotClear_kept]

theorem execTrnCmdForce_kept (d : Die) (n : Fin 48) (value : Word) (s : State) : ∃ t, (execTrnCmdForce d n value s) = .next t
    ∧ t.kept = s.kept := by
  unfold execTrnCmdForce
  (repeat' split) <;> exact ⟨_, rfl, by simp only [↓State.slotCmd_kept]⟩

theorem execTrnSetWrite_kept (d : Die) (n : Fin 48) (value : Word) (s : State) : ∃ t, (execTrnSetWrite d n value s) = .next t
    ∧ t.kept = s.kept := by
  unfold execTrnSetWrite
  (repeat' split) <;> exact ⟨_, rfl, by simp only [↓State.put_kept]⟩

theorem State.trnCtl_kept (s : State) (d : Die) (w : Word) : (State.trnCtl s d w).1.kept = s.kept := by
  unfold State.trnCtl
  grind [State.kept_mk, State.put_kept, State.setTrn_kept]

theorem execTrnCtlWrite_kept (d : Die) (value : Word) (s : State) : ∃ t, (execTrnCtlWrite d value s) = .next t ∧ t.kept =
    s.kept := by
  unfold execTrnCtlWrite
  (repeat' split) <;> exact ⟨_, rfl, by simp only [↓State.trnCtl_kept]⟩

theorem State.bankWrite_kept (s : State) (d : Die) (n : Fin 48) (bank : Bool) (off : Nat) (w : Word) : (State.bankWrite s d n
    bank off w).1.kept = s.kept := by
  unfold State.bankWrite
  grind [State.kept_mk, State.writeWord_kept]

theorem execBankWordWrite_kept (d : Die) (n : Fin 48) (bank : Bool) (off : Nat) (value : Word) (s : State) : ∃ t,
    (execBankWordWrite d n bank off value s) = .next t ∧ t.kept = s.kept := by
  unfold execBankWordWrite
  (repeat' split) <;> exact ⟨_, rfl, by simp only [↓State.bankWrite_kept]⟩

end Sys2Proof.Machine
end

