-- ==== Sys2Proof/Laws/KeptServo.lean ====
section
/-! SUPPORT. What no command changes, and the form of memory: lemmas of Servo. -/
namespace Sys2Proof.Machine

set_option linter.unusedSimpArgs false
set_option linter.unusedTactic false
set_option linter.unnecessarySeqFocus false
set_option linter.unreachableTactic false
set_option linter.tactic.unusedName false

theorem State.focEn_kept (s : State) (b : Bay) : (State.focEn s b).kept = s.kept := by
  unfold State.focEn
  grind [State.kept_mk, State.put_kept, State.focusOn_kept]

theorem execFocEnSet_kept (b : Bay) (s : State) : ∃ t, (execFocEnSet b s) = .next t ∧ t.kept = s.kept := by
  unfold execFocEnSet
  (repeat' split) <;> exact ⟨_, rfl, by simp only [↓State.focEn_kept]⟩

theorem execTrnOsvCtlWrite_kept (b : Bay) (value : Word) (s : State) : ∃ t, (execTrnOsvCtlWrite b value s) = .next t ∧ t.kept
    = s.kept := by
  unfold execTrnOsvCtlWrite
  (repeat' split) <;> exact ⟨_, rfl, by simp only [↓State.osvCtl_kept]⟩

theorem State.surfacePeak_kept (s : State) (b : Bay) : (State.surfacePeak s b).kept = s.kept := by
  unfold State.surfacePeak
  grind [State.kept_mk, State.setOsv_kept, State.focusCapture_kept]

theorem execSurfacePeak_kept (b : Bay) (s : State) : ∃ t, (execSurfacePeak b s) = .next t ∧ t.kept = s.kept := by
  unfold execSurfacePeak
  (repeat' split) <;> exact ⟨_, rfl, by simp only [↓State.surfacePeak_kept]⟩

theorem State.mountFail_kept (s : State) (b : Bay) : (State.mountFail s b).kept = s.kept := by
  unfold State.mountFail
  grind [State.kept_mk, State.endItem_kept, State.setLat_kept, State.setOsv_kept]

theorem State.sweepEnd_kept (s : State) (b : Bay) : (State.sweepEnd s b).kept = s.kept := by
  unfold State.sweepEnd
  grind [State.kept_mk, State.setOsv_kept, State.osvSweep_kept, State.focusRetry_kept, State.osvOff_kept,
      State.mountFail_kept]

theorem execSweepEnd_kept (b : Bay) (s : State) : ∃ t, (execSweepEnd b s) = .next t ∧ t.kept = s.kept := by
  unfold execSweepEnd
  (repeat' split) <;> exact ⟨_, rfl, by simp only [↓State.sweepEnd_kept]⟩

theorem State.focusLock_kept (s : State) (b : Bay) : (State.focusLock s b).kept = s.kept := by
  unfold State.focusLock
  grind [State.kept_mk, State.setOsv_kept]

theorem execFocusLock_kept (b : Bay) (s : State) : ∃ t, (execFocusLock b s) = .next t ∧ t.kept = s.kept := by
  unfold execFocusLock
  (repeat' split) <;> exact ⟨_, rfl, by simp only [↓State.focusLock_kept]⟩

theorem State.captureTimeout_kept (s : State) (b : Bay) : (State.captureTimeout s b).kept = s.kept := by
  unfold State.captureTimeout
  grind [State.kept_mk, State.moveEnd_kept, State.focusRetry_kept]

theorem execCaptureTimeout_kept (b : Bay) (s : State) : ∃ t, (execCaptureTimeout b s) = .next t ∧ t.kept = s.kept := by
  unfold execCaptureTimeout
  (repeat' split) <;> exact ⟨_, rfl, by simp only [↓State.captureTimeout_kept]⟩

theorem State.focusLoss_kept (s : State) (b : Bay) : (State.focusLoss s b).kept = s.kept := by
  unfold State.focusLoss
  grind [State.kept_mk, State.focusLost_kept]

theorem execTrnFocusLost_kept (b : Bay) (s : State) : ∃ t, (execTrnFocusLost b s) = .next t ∧ t.kept = s.kept := by
  unfold execTrnFocusLost
  (repeat' split) <;> exact ⟨_, rfl, by simp only [↓State.focusLoss_kept]⟩

theorem execHoldRecovery_kept (b : Bay) (s : State) : ∃ t, (execHoldRecovery b s) = .next t ∧ t.kept = s.kept := by
  unfold execHoldRecovery
  (repeat' split) <;> exact ⟨_, rfl, by simp only [↓State.focusCapture_kept]⟩

theorem execHoldTimeout_kept (b : Bay) (s : State) : ∃ t, (execHoldTimeout b s) = .next t ∧ t.kept = s.kept := by
  unfold execHoldTimeout
  (repeat' split) <;> exact ⟨_, rfl, by simp only [↓State.focusRetry_kept]⟩

theorem State.lockDone_kept (s : State) (b : Bay) : (State.lockDone s b).kept = s.kept := by
  unfold State.lockDone
  grind [State.kept_mk, State.setOsv_kept, State.moveEnd_kept, State.layerKick_kept, State.layerArrived_kept]

theorem State.trackLock_kept (s : State) (b : Bay) : (State.trackLock s b).kept = s.kept := by
  unfold State.trackLock
  grind [State.kept_mk, State.sfeAcquire_kept, State.latAcquire_kept, State.setOsv_kept, State.lockDone_kept]

theorem execTrackingLock_kept (b : Bay) (s : State) : ∃ t, (execTrackingLock b s) = .next t ∧ t.kept = s.kept := by
  unfold execTrackingLock
  (repeat' split) <;> exact ⟨_, rfl, by simp only [↓State.trackLock_kept]⟩

theorem State.jumpFail_kept (s : State) (b : Bay) : (State.jumpFail s b).kept = s.kept := by
  unfold State.jumpFail
  simp only [↓State.bump_kept, ↓State.setOsv_kept, ↓State.moveEnd_kept]

theorem State.spiralCheck_kept (s : State) (b : Bay) (addr check : Nat) : (State.spiralCheck s b addr check).kept = s.kept :=
    by
  unfold State.spiralCheck
  grind [State.kept_mk, State.bump_kept, State.setOsv_kept, State.trackKick_kept, State.moveStart_kept, State.lockDone_kept,
      State.jumpFail_kept]

theorem execSpiralCheck_kept (b : Bay) (addr check : Nat) (s : State) : ∃ t, (execSpiralCheck b addr check s) = .next t ∧
    t.kept = s.kept := by
  unfold execSpiralCheck
  (repeat' split) <;> exact ⟨_, rfl, by simp only [↓State.spiralCheck_kept]⟩

theorem State.grooveSearch_kept (s : State) (b : Bay) (found : Bool) : (State.grooveSearch s b found).kept = s.kept := by
  unfold State.grooveSearch
  grind [State.kept_mk, State.put_kept, State.mountFail_kept]

theorem execGrooveSearch_kept (b : Bay) (found : Bool) (s : State) : ∃ t, (execGrooveSearch b found s) = .next t ∧ t.kept =
    s.kept := by
  unfold execGrooveSearch
  (repeat' split) <;> exact ⟨_, rfl, by simp only [↓State.grooveSearch_kept]⟩

theorem State.moveWrite_kept (s : State) (b : Bay) (m : Manoeuvre) : (State.moveWrite s b m).kept = s.kept := by
  unfold State.moveWrite
  grind [State.kept_mk, State.put_kept, State.moveRequest_kept]

theorem execMoveReacquire_kept (b : Bay) (s : State) : ∃ t, (execMoveReacquire b s) = .next t ∧ t.kept = s.kept := by
  unfold execMoveReacquire
  (repeat' split) <;> exact ⟨_, rfl, by simp only [↓State.moveWrite_kept]⟩

theorem execMoveLayer_kept (b : Bay) (layer : Fin 16) (s : State) : ∃ t, (execMoveLayer b layer s) = .next t ∧ t.kept =
    s.kept := by
  unfold execMoveLayer
  (repeat' split) <;> exact ⟨_, rfl, by simp only [↓State.moveWrite_kept]⟩

theorem execMoveTrack_kept (b : Bay) (turns : Int) (s : State) : ∃ t, (execMoveTrack b turns s) = .next t ∧ t.kept = s.kept
    := by
  unfold execMoveTrack
  (repeat' split) <;> exact ⟨_, rfl, by simp only [↓State.moveWrite_kept]⟩

theorem execMoveSeek_kept (b : Bay) (layer : Fin 16) (area slot : Nat) (s : State) : ∃ t, (execMoveSeek b layer area slot s)
    = .next t ∧ t.kept = s.kept := by
  unfold execMoveSeek
  (repeat' split) <;> exact ⟨_, rfl, by simp only [↓State.moveWrite_kept]⟩

theorem State.layerBrake_kept (s : State) (b : Bay) : (State.layerBrake s b).kept = s.kept := by
  unfold State.layerBrake
  grind [State.kept_mk, State.setOsv_kept, State.layerKick_kept]

theorem execLayerJumpBrake_kept (b : Bay) (s : State) : ∃ t, (execLayerJumpBrake b s) = .next t ∧ t.kept = s.kept := by
  unfold execLayerJumpBrake
  (repeat' split) <;> exact ⟨_, rfl, by simp only [↓State.layerBrake_kept]⟩

theorem State.layerBrakeEnd_kept (s : State) (b : Bay) : (State.layerBrakeEnd s b).kept = s.kept := by
  unfold State.layerBrakeEnd
  grind [State.kept_mk, State.setOsv_kept, State.focusCapture_kept, State.layerBrake_kept]

theorem execLayerJumpBrakeEnd_kept (b : Bay) (s : State) : ∃ t, (execLayerJumpBrakeEnd b s) = .next t ∧ t.kept = s.kept := by
  unfold execLayerJumpBrakeEnd
  (repeat' split) <;> exact ⟨_, rfl, by simp only [↓State.layerBrakeEnd_kept]⟩

theorem execLjTimeout_kept (b : Bay) (s : State) : ∃ t, (execLjTimeout b s) = .next t ∧ t.kept = s.kept := by
  unfold execLjTimeout
  (repeat' split) <;> exact ⟨_, rfl, by simp only [↓State.jumpFail_kept]⟩

theorem State.trackBrake_kept (s : State) (b : Bay) : (State.trackBrake s b).kept = s.kept := by
  unfold State.trackBrake
  grind [State.kept_mk, State.setOsv_kept, State.trackKick_kept]

theorem execTrackJumpBrake_kept (b : Bay) (s : State) : ∃ t, (execTrackJumpBrake b s) = .next t ∧ t.kept = s.kept := by
  unfold execTrackJumpBrake
  (repeat' split) <;> exact ⟨_, rfl, by simp only [↓State.trackBrake_kept]⟩

theorem State.seekLanding_kept (s : State) (b : Bay) (slot : Nat) : (State.seekLanding s b slot).kept = s.kept := by
  unfold State.seekLanding
  grind [State.kept_mk, State.bump_kept, State.setOsv_kept, State.moveEnd_kept, State.seekStep_kept]

theorem execSeekLanding_kept (b : Bay) (slot : Nat) (s : State) : ∃ t, (execSeekLanding b slot s) = .next t ∧ t.kept = s.kept
    := by
  unfold execSeekLanding
  (repeat' split) <;> exact ⟨_, rfl, by simp only [↓State.seekLanding_kept]⟩

end Sys2Proof.Machine
end

