-- ==== Sys2Proof/Laws/KeptYarder.lean ====
section
/-! SUPPORT. What no command changes, and the form of memory: lemmas of Yarder. -/
namespace Sys2Proof.Machine

set_option linter.unusedSimpArgs false
set_option linter.unusedTactic false
set_option linter.unnecessarySeqFocus false
set_option linter.unreachableTactic false
set_option linter.tactic.unusedName false

theorem State.homeEdge_kept (s : State) (d : Die) (n : Fin 8) (level : Bool) (cap : Int) : (State.homeEdge s d n level
    cap).kept = s.kept := by
  unfold State.homeEdge
  grind [State.kept_mk, State.setAxis_kept, State.release_kept]

theorem State.limitEdge_kept (s : State) (d : Die) (n : Fin 8) (high level : Bool) : (State.limitEdge s d n high level).kept
    = s.kept := by
  unfold State.limitEdge
  grind [State.kept_mk, State.setAxis_kept, State.axFault_kept, State.grpStop_kept]

theorem State.discEdge_kept (s : State) (level : Bool) : (State.discEdge s level).kept = s.kept := by
  unfold State.discEdge
  grind [State.kept_mk, State.bump_kept, State.raiseDie_kept, State.setYrd_kept, State.yrdFault_kept]

theorem State.switchActs_kept (s : State) (d : Die) (k : Fin 12) (level : Bool) (cap : Int) : (State.switchActs s d k level
    cap).kept = s.kept := by
  unfold State.switchActs
  grind [State.kept_mk, State.setYrd_kept, State.gripContact_kept, State.homeEdge_kept, State.limitEdge_kept,
      State.discEdge_kept]

theorem State.switchConfirm_kept (s : State) (d : Die) (k : Fin 12) : (State.switchConfirm s d k).kept = s.kept := by
  unfold State.switchConfirm
  simp only [↓State.kept_mk, ↓State.kept_fold, ↓State.kept_ite, ↓State.kept_fst_ite, ↓State.setAxis_kept,
      ↓State.setSwitch_kept, ↓State.axFault_kept, ↓State.grpStop_kept, ↓State.switchActs_kept]
  (repeat' split) <;> simp only [↓State.kept_mk, ↓State.kept_fold, ↓State.kept_ite, ↓State.kept_fst_ite, ↓State.setAxis_kept,
      ↓State.setSwitch_kept, ↓State.axFault_kept, ↓State.grpStop_kept, ↓State.switchActs_kept, ite_self]

theorem execSwitchConfirm_kept (d : Die) (k : Fin 12) (s : State) : ∃ t, (execSwitchConfirm d k s) = .next t ∧ t.kept =
    s.kept := by
  unfold execSwitchConfirm
  (repeat' split) <;> exact ⟨_, rfl, by simp only [↓State.yrdWatch_kept, ↓State.switchConfirm_kept]⟩

theorem execTransferStepDone_kept (s : State) : ∃ t, (execTransferStepDone s) = .next t ∧ t.kept = s.kept := by
  unfold execTransferStepDone
  (repeat' split) <;> exact ⟨_, rfl, by simp only [↓State.yrdAdvance_kept]⟩

theorem execHeadDiscTimeout_kept (s : State) : ∃ t, (execHeadDiscTimeout s) = .next t ∧ t.kept = s.kept := by
  unfold execHeadDiscTimeout
  (repeat' split) <;> exact ⟨_, rfl, by simp only [↓State.putAway_kept]⟩

theorem State.doorOpen_kept (s : State) : (State.doorOpen s).kept = s.kept := by
  unfold State.doorOpen
  grind [State.kept_mk, State.bump_kept, State.raiseDie_kept, State.stopAxes_kept, State.setYrd_kept]

theorem execYrdDoorOpen_kept (s : State) : ∃ t, (execYrdDoorOpen s) = .next t ∧ t.kept = s.kept := by
  unfold execYrdDoorOpen
  (repeat' split) <;> exact ⟨_, rfl, by simp only [↓State.doorOpen_kept]⟩

theorem State.axesResume_kept (s : State) : (State.axesResume s).kept = s.kept := by
  unfold State.axesResume
  (repeat' split) <;> simp_all [↓State.kept_ite, ↓State.axResume_kept, ↓State.grpResume_kept, ↓State.gripOpen_kept,
      State.kept_foldl]

theorem State.transferBack_kept (s : State) : (State.transferBack s).kept = s.kept := by
  unfold State.transferBack
  grind [State.kept_mk, State.setYrd_kept, State.swing_kept, State.yrdFault_kept, State.putAway_kept, State.startMotion_kept]

theorem State.doorSettled_kept (s : State) : (State.doorSettled s).kept = s.kept := by
  unfold State.doorSettled
  grind [State.kept_mk, State.setYrd_kept, State.yrdIdle_kept, State.placeOrphan_kept, State.yrdHome_kept,
      State.axesResume_kept, State.transferBack_kept]

theorem execDoorSettled_kept (s : State) : ∃ t, (execDoorSettled s) = .next t ∧ t.kept = s.kept := by
  unfold execDoorSettled
  (repeat' split) <;> exact ⟨_, rfl, by simp only [↓State.doorSettled_kept]⟩

theorem State.doorTimeout_kept (s : State) : (State.doorTimeout s).kept = s.kept := by
  unfold State.doorTimeout
  grind [State.kept_mk, State.endItem_kept, State.setYrd_kept]

theorem execDoorTimeout_kept (s : State) : ∃ t, (execDoorTimeout s) = .next t ∧ t.kept = s.kept := by
  unfold execDoorTimeout
  (repeat' split) <;> exact ⟨_, rfl, by simp only [↓State.doorTimeout_kept]⟩

theorem State.inventory_kept (s : State) : (State.inventory s).kept = s.kept := by
  unfold State.inventory
  grind [State.kept_mk, State.setYrd_kept, State.yrdNext_kept, State.yrdIdle_kept]

theorem execInventory_kept (s : State) : ∃ t, (execInventory s) = .next t ∧ t.kept = s.kept := by
  unfold execInventory
  (repeat' split) <;> exact ⟨_, rfl, by simp only [↓State.inventory_kept]⟩

theorem State.deckScanned_kept (s : State) (seen : List Nat) : (State.deckScanned s seen).kept = s.kept := by
  unfold State.deckScanned
  grind [State.kept_mk, State.setYrd_kept, State.yrdIdle_kept, State.inventory_kept]

theorem execDeckScanned_kept (seen : List Nat) (s : State) : ∃ t, (execDeckScanned seen s) = .next t ∧ t.kept = s.kept := by
  unfold execDeckScanned
  (repeat' split) <;> exact ⟨_, rfl, by simp only [↓State.deckScanned_kept]⟩

theorem State.yrdPowerUp_kept (s : State) : (State.yrdPowerUp s).kept = s.kept := by
  unfold State.yrdPowerUp
  grind [State.kept_mk, State.setYrd_kept, State.yrdHome_kept]

theorem execYarderPowerUpHoming_kept (s : State) : ∃ t, (execYarderPowerUpHoming s) = .next t ∧ t.kept = s.kept := by
  unfold execYarderPowerUpHoming
  (repeat' split) <;> exact ⟨_, rfl, by simp only [↓State.yrdPowerUp_kept]⟩

theorem State.yrdCtl_kept (s : State) (w : Word) : (State.yrdCtl s w).kept = s.kept := by
  unfold State.yrdCtl
  simp only [↓State.put_kept, ↓State.yrdNext_kept]

theorem execYrdCtlWrite_kept (value : Word) (s : State) : ∃ t, (execYrdCtlWrite value s) = .next t ∧ t.kept = s.kept := by
  unfold execYrdCtlWrite
  (repeat' split) <;> exact ⟨_, rfl, by simp only [↓State.yrdCtl_kept]⟩

end Sys2Proof.Machine
end

