-- ==== Sys2Proof/Laws/KeptFrontEnd.lean ====
section
/-! SUPPORT. What no command changes, and the form of memory: lemmas of FrontEnd. -/
namespace Sys2Proof.Machine

set_option linter.unusedSimpArgs false
set_option linter.unusedTactic false
set_option linter.unnecessarySeqFocus false
set_option linter.unreachableTactic false
set_option linter.tactic.unusedName false

theorem State.spotCodes_kept (s : State) (b : Bay) (k : Fin 7) (x : SfeSpot) : (State.spotCodes s b k x).kept = s.kept := by
  unfold State.spotCodes
  simp only [↓State.put_kept]

theorem State.spotBlock_kept (s : State) (b : Bay) (k : Fin 7) (raw : List Int) : (State.spotBlock s b k raw).kept = s.kept
    := by
  unfold State.spotBlock
  grind [State.kept_mk, State.setSpot_kept, State.spotCodes_kept]

theorem State.sfeBlock_kept (s : State) (b : Bay) (raw : Vector (List Int) 7) : (State.sfeBlock s b raw).kept = s.kept := by
  unfold State.sfeBlock
  (repeat' split) <;> simp_all [↓State.kept_ite, ↓State.bump_kept, ↓State.raiseBay_kept, ↓State.activate_kept,
      ↓State.setSfe_kept, ↓State.spotBlock_kept, State.kept_foldl]

theorem execSfeBlockBoundary_kept (b : Bay) (raw : Vector (List Int) 7) (s : State) : ∃ t, (execSfeBlockBoundary b raw s) =
    .next t ∧ t.kept = s.kept := by
  unfold execSfeBlockBoundary
  (repeat' split) <;> exact ⟨_, rfl, by simp only [↓State.sfeBlock_kept]⟩

theorem State.snagSet_kept (s : State) (b : Bay) (k : Fin 7) (e lw : List Rat) : (State.snagSet s b k e lw).kept = s.kept :=
    by
  unfold State.snagSet
  (repeat' split) <;> simp_all [↓State.kept_mk, ↓State.kept_fold, ↓State.kept_ite, ↓State.bump_kept, ↓State.setSpot_kept,
      ↓State.fcIssue_kept]

theorem execSnagSet_kept (b : Bay) (k : Fin 7) (e lw : List Rat) (s : State) : ∃ t, (execSnagSet b k e lw s) = .next t ∧
    t.kept = s.kept := by
  unfold execSnagSet
  (repeat' split) <;> exact ⟨_, rfl, by simp only [↓State.snagSet_kept]⟩

theorem State.snagClear_kept (s : State) (b : Bay) (k : Fin 7) (e lw : List Rat) : (State.snagClear s b k e lw).kept = s.kept
    := by
  unfold State.snagClear
  grind [State.kept_mk, State.setSpot_kept, State.fcClose_kept]

theorem execSnagClear_kept (b : Bay) (k : Fin 7) (e lw : List Rat) (s : State) : ∃ t, (execSnagClear b k e lw s) = .next t ∧
    t.kept = s.kept := by
  unfold execSnagClear
  (repeat' split) <;> exact ⟨_, rfl, by simp only [↓State.snagClear_kept]⟩

theorem State.longSnag_kept (s : State) (b : Bay) (k : Fin 7) : (State.longSnag s b k).kept = s.kept := by
  unfold State.longSnag
  (repeat' split) <;> simp_all [↓State.kept_mk, ↓State.kept_fold, ↓State.kept_ite, ↓State.bump_kept, ↓State.raiseBay_kept,
      ↓State.setSpot_kept]

theorem execLongSnag_kept (b : Bay) (k : Fin 7) (s : State) : ∃ t, (execLongSnag b k s) = .next t ∧ t.kept = s.kept := by
  unfold execLongSnag
  (repeat' split) <;> exact ⟨_, rfl, by simp only [↓State.longSnag_kept]⟩

theorem State.fcOpen_kept (s : State) (b : Bay) (k : Fin 7) : (State.fcOpen s b k).kept = s.kept := by
  unfold State.fcOpen
  simp only [↓State.kept_mk, ↓State.kept_fold, ↓State.kept_ite, ↓State.kept_fst_ite, ↓State.setSpot_kept]
  (repeat' split) <;> simp only [↓State.kept_mk, ↓State.kept_fold, ↓State.kept_ite, ↓State.kept_fst_ite, ↓State.setSpot_kept,
      ite_self]

theorem execForecastWindowOpen_kept (b : Bay) (k : Fin 7) (s : State) : ∃ t, (execForecastWindowOpen b k s) = .next t ∧
    t.kept = s.kept := by
  unfold execForecastWindowOpen
  (repeat' split) <;> exact ⟨_, rfl, by simp only [↓State.fcOpen_kept]⟩

theorem State.fcEnd_kept (s : State) (b : Bay) (k : Fin 7) : (State.fcEnd s b k).kept = s.kept := by
  unfold State.fcEnd
  grind [State.kept_mk, State.setSpot_kept]

theorem execForecastWindowClose_kept (b : Bay) (k : Fin 7) (s : State) : ∃ t, (execForecastWindowClose b k s) = .next t ∧
    t.kept = s.kept := by
  unfold execForecastWindowClose
  (repeat' split) <;> exact ⟨_, rfl, by simp only [↓State.fcEnd_kept]⟩

theorem execSfeVelReplaced_kept (b : Bay) (s : State) : ∃ t, (execSfeVelReplaced b s) = .next t ∧ t.kept = s.kept := by
  unfold execSfeVelReplaced
  (repeat' split) <;> exact ⟨_, rfl, by simp only [↓State.velSuspend_kept]⟩

theorem State.thermistorReading_kept (s : State) (b : Bay) (ohm : Option Nat) : (State.thermistorReading s b ohm).kept =
    s.kept := by
  unfold State.thermistorReading
  grind [State.kept_mk, State.put_kept, State.setSfe_kept, State.tempReplace_kept]

theorem execThermistorReading_kept (b : Bay) (ohm : Option Nat) (s : State) : ∃ t, (execThermistorReading b ohm s) = .next t
    ∧ t.kept = s.kept := by
  unfold execThermistorReading
  (repeat' split) <;> exact ⟨_, rfl, by simp only [↓State.thermistorReading_kept]⟩

theorem execSfeTempReplaced_kept (b : Bay) (s : State) : ∃ t, (execSfeTempReplaced b s) = .next t ∧ t.kept = s.kept := by
  unfold execSfeTempReplaced
  (repeat' split) <;> exact ⟨_, rfl, by simp only [↓State.tempReplace_kept]⟩

theorem State.acqEnd_kept (s : State) (b : Bay) : (State.acqEnd s b).kept = s.kept := by
  unfold State.acqEnd
  grind [State.kept_mk, State.setSfe_kept]

theorem execAcquisitionEnd_kept (b : Bay) (s : State) : ∃ t, (execAcquisitionEnd b s) = .next t ∧ t.kept = s.kept := by
  unfold execAcquisitionEnd
  (repeat' split) <;> exact ⟨_, rfl, by simp only [↓State.acqEnd_kept]⟩

theorem State.spotLoopWrite_kept (s : State) (b : Bay) (k : Fin 7) (w : Word) : (State.spotLoopWrite s b k w).kept = s.kept
    := by
  unfold State.spotLoopWrite
  grind [State.kept_mk, State.setSpot_kept]

theorem execSfeSpotLoopWrite_kept (b : Bay) (k : Fin 7) (w : Word) (s : State) : ∃ t, (execSfeSpotLoopWrite b k w s) = .next
    t ∧ t.kept = s.kept := by
  unfold execSfeSpotLoopWrite
  (repeat' split) <;> exact ⟨_, rfl, by simp only [↓State.spotLoopWrite_kept]⟩

theorem State.afeWrite_kept (s : State) (b : Bay) (w : Word) : (State.afeWrite s b w).kept = s.kept := by
  unfold State.afeWrite
  grind [State.kept_mk, State.put_kept]

theorem execSfeAfeWrite_kept (b : Bay) (w : Word) (s : State) : ∃ t, (execSfeAfeWrite b w s) = .next t ∧ t.kept = s.kept :=
    by
  unfold execSfeAfeWrite
  (repeat' split) <;> exact ⟨_, rfl, by simp only [↓State.afeWrite_kept]⟩

end Sys2Proof.Machine
end

