-- ==== Sys2Proof/Laws/KeptAxes.lean ====
section
/-! SUPPORT. What no command changes, and the form of memory: lemmas of Axes. -/
namespace Sys2Proof.Machine

set_option linter.unusedSimpArgs false
set_option linter.unusedTactic false
set_option linter.unnecessarySeqFocus false
set_option linter.unreachableTactic false
set_option linter.tactic.unusedName false

theorem execProfileTick_kept (d : Die) (s : State) : ∃ t, (execProfileTick d s) = .next t ∧ t.kept = s.kept := by
  unfold execProfileTick
  (repeat' split) <;> exact ⟨_, rfl, by simp only [↓State.profileTick_kept, ↓State.yrdWatch_kept, ↓State.yrdHoming_kept]⟩

theorem execAxpMove_kept (d : Die) (n : Fin 8) (s : State) : ∃ t, (execAxpMove d n s) = .next t ∧ t.kept = s.kept := by
  unfold execAxpMove
  (repeat' split) <;> exact ⟨_, rfl, by simp only [↓State.axMoveTo_kept]⟩

theorem execAxpStop_kept (d : Die) (n : Fin 8) (s : State) : ∃ t, (execAxpStop d n s) = .next t ∧ t.kept = s.kept := by
  unfold execAxpStop
  (repeat' split) <;> exact ⟨_, rfl, by simp only [↓State.axRefuse_kept, ↓State.axStop_kept]⟩

theorem execAxpResume_kept (d : Die) (n : Fin 8) (s : State) : ∃ t, (execAxpResume d n s) = .next t ∧ t.kept = s.kept := by
  unfold execAxpResume
  (repeat' split) <;> exact ⟨_, rfl, by simp only [↓State.axResume_kept]⟩

theorem execAxpHome_kept (d : Die) (n : Fin 8) (s : State) : ∃ t, (execAxpHome d n s) = .next t ∧ t.kept = s.kept := by
  unfold execAxpHome
  (repeat' split) <;> exact ⟨_, rfl, by simp only [↓State.axHome_kept]⟩

theorem State.axClrFault_kept (s : State) (d : Die) (n : Fin 8) : (State.axClrFault s d n).kept = s.kept := by
  unfold State.axClrFault
  grind [State.kept_mk, State.setAxis_kept, State.axRefuse_kept]

theorem execAxpClrFault_kept (d : Die) (n : Fin 8) (s : State) : ∃ t, (execAxpClrFault d n s) = .next t ∧ t.kept = s.kept :=
    by
  unfold execAxpClrFault
  (repeat' split) <;> exact ⟨_, rfl, by simp only [↓State.axClrFault_kept]⟩

theorem State.axCtl_kept (s : State) (d : Die) (n : Fin 8) (w : Word) : (State.axCtl s d n w).kept = s.kept := by
  unfold State.axCtl
  grind [State.kept_mk, State.put_kept, State.setAxis_kept, State.axDisable_kept, State.grpStop_kept]

theorem execAxpCtlWrite_kept (d : Die) (n : Fin 8) (value : Word) (s : State) : ∃ t, (execAxpCtlWrite d n value s) = .next t
    ∧ t.kept = s.kept := by
  unfold execAxpCtlWrite
  (repeat' split) <;> exact ⟨_, rfl, by simp only [↓State.axCtl_kept]⟩

theorem execGrpMove_kept (d : Die) (g : Fin 4) (s : State) : ∃ t, (execGrpMove d g s) = .next t ∧ t.kept = s.kept := by
  unfold execGrpMove
  (repeat' split) <;> exact ⟨_, rfl, by simp only [↓State.grpMove_kept]⟩

theorem execGrpStop_kept (d : Die) (g : Fin 4) (s : State) : ∃ t, (execGrpStop d g s) = .next t ∧ t.kept = s.kept := by
  unfold execGrpStop
  (repeat' split) <;> exact ⟨_, rfl, by simp only [↓State.grpStop_kept]⟩

theorem execGrpResume_kept (d : Die) (g : Fin 4) (s : State) : ∃ t, (execGrpResume d g s) = .next t ∧ t.kept = s.kept := by
  unfold execGrpResume
  (repeat' split) <;> exact ⟨_, rfl, by simp only [↓State.grpResume_kept]⟩

theorem execSwitchRawEdge_kept (d : Die) (k : Fin 12) (active : Bool) (s : State) : ∃ t, (execSwitchRawEdge d k active s) =
    .next t ∧ t.kept = s.kept := by
  unfold execSwitchRawEdge
  (repeat' split) <;> exact ⟨_, rfl, by simp only [↓State.setSwitch_kept]⟩

end Sys2Proof.Machine
end

