-- ==== Sys2Proof/Laws/KeptCruise.lean ====
section
/-! SUPPORT. What no command changes, and the form of memory: lemmas of Cruise. -/
namespace Sys2Proof.Machine

set_option linter.unusedSimpArgs false
set_option linter.unusedTactic false
set_option linter.unnecessarySeqFocus false
set_option linter.unreachableTactic false
set_option linter.tactic.unusedName false

theorem execCruNow_kept (b : Bay) (s : State) : ∃ t, (execCruNow b s) = .next t ∧ t.kept = s.kept := by
  unfold execCruNow
  (repeat' split) <;> exact ⟨_, rfl, by simp only [↓State.cruRaise_kept]⟩

theorem State.cruTempCheck_kept (s : State) (b : Bay) : (State.cruTempCheck s b).kept = s.kept := by
  unfold State.cruTempCheck
  grind [State.kept_mk, State.cruRaise_kept]

theorem execCruTempCheck_kept (b : Bay) (s : State) : ∃ t, (execCruTempCheck b s) = .next t ∧ t.kept = s.kept := by
  unfold execCruTempCheck
  (repeat' split) <;> exact ⟨_, rfl, by simp only [↓State.cruTempCheck_kept]⟩

theorem State.cruResume_kept (s : State) (b : Bay) (r : CruRun) : (State.cruResume s b r).kept = s.kept := by
  unfold State.cruResume
  grind [State.kept_mk, State.setCru_kept, State.cruBorrow_kept, State.cruNext_kept, State.cruAdvance_kept,
      State.release_kept]

theorem State.cruStart_kept (s : State) (b : Bay) : (State.cruStart s b).kept = s.kept := by
  unfold State.cruStart
  grind [State.kept_mk, State.put_kept, State.activate_kept, State.setCru_kept, State.cruNext_kept, State.cruResume_kept]

theorem execCruRunStart_kept (b : Bay) (s : State) : ∃ t, (execCruRunStart b s) = .next t ∧ t.kept = s.kept := by
  unfold execCruRunStart
  (repeat' split) <;> exact ⟨_, rfl, by simp only [↓State.cruStart_kept]⟩

theorem State.cruStarve_kept (s : State) (b : Bay) : (State.cruStarve s b).kept = s.kept := by
  unfold State.cruStarve
  grind [State.kept_mk, State.bump_kept, State.raiseBay_kept, State.setCru_kept]

theorem execCruStarved_kept (b : Bay) (s : State) : ∃ t, (execCruStarved b s) = .next t ∧ t.kept = s.kept := by
  unfold execCruStarved
  (repeat' split) <;> exact ⟨_, rfl, by simp only [↓State.cruStarve_kept]⟩

theorem execCruPointMeasured_kept (b : Bay) (m : CruMeasured) (s : State) : ∃ t, (execCruPointMeasured b m s) = .next t ∧
    t.kept = s.kept := by
  unfold execCruPointMeasured
  (repeat' split) <;> exact ⟨_, rfl, by simp only [↓State.cruPoint_kept]⟩

theorem State.cruRelease_kept (s : State) (b : Bay) : (State.cruRelease s b).kept = s.kept := by
  unfold State.cruRelease
  grind [State.kept_mk, State.cruReturn_kept, State.cruAdvance_kept, State.release_kept]

theorem execCruSpotRelease_kept (b : Bay) (s : State) : ∃ t, (execCruSpotRelease b s) = .next t ∧ t.kept = s.kept := by
  unfold execCruSpotRelease
  (repeat' split) <;> exact ⟨_, rfl, by simp only [↓State.cruRelease_kept]⟩

theorem State.stageTaps_kept (s : State) (b : Bay) (layer : Nat) (k : Fin 7) (u v : List Int) : (State.stageTaps s b layer k
    u v).kept = s.kept := by
  unfold State.stageTaps
  (repeat' split) <;> simp_all [↓State.stage_kept, State.kept_foldl]

theorem State.cruSnapshot_kept (s : State) (b : Bay) : (State.cruSnapshot s b).kept = s.kept := by
  unfold State.cruSnapshot
  extract_lets x
  split
  · rfl
  · rename_i r _
    have h1 : ∀ l : List (Fin 7 × List Int × List Int), (l.foldl (fun t e =>
        if tapsAgree e.2.1 e.2.2 then t.stageTaps b r.layer e.1 e.2.1 e.2.2 else t.cruFlag b .taps e.1 .disagree) s).kept = s.kept :=
      fun l => State.kept_foldl _ _ _ fun t e => by
        split
        · exact State.stageTaps_kept _ _ _ _ _ _
        · exact State.cruFlag_kept _ _ _ _ _
    split
    · split
      · rfl
      · exact State.setCru_kept _ _ _
    · split
      · rfl
      · simp only [State.cruAdvance_kept, ↓State.kept_ite, State.cruCommit_kept, h1, ite_self]
    · rfl

theorem execCruTapSnapshot_kept (b : Bay) (s : State) : ∃ t, (execCruTapSnapshot b s) = .next t ∧ t.kept = s.kept := by
  unfold execCruTapSnapshot
  (repeat' split) <;> exact ⟨_, rfl, by simp only [↓State.cruSnapshot_kept]⟩

theorem execCruRunAbort_kept (b : Bay) (s : State) : ∃ t, (execCruRunAbort b s) = .next t ∧ t.kept = s.kept := by
  unfold execCruRunAbort
  (repeat' split) <;> exact ⟨_, rfl, by simp only [↓State.cruAbort_kept]⟩

theorem State.cruDarkPhase_kept (s : State) (b : Bay) (m : List (Vector DarkMeans 7 × Vector DarkMeans 7)) :
    (State.cruDarkPhase s b m).kept = s.kept := by
  unfold State.cruDarkPhase
  simp only [↓State.kept_mk, ↓State.kept_fold, ↓State.kept_ite, ↓State.kept_fst_ite, ↓State.bumpBy_kept, ↓State.cruFlag_kept,
      ↓State.cruTake_kept, ↓State.cruCommit_kept]
  (repeat' split) <;> (try refine (State.kept_foldl _ _ _ fun t x => ?_).trans ?_) <;> (try dsimp only) <;> (repeat' split)
      <;> (try simp only [↓State.kept_mk, ↓State.kept_fold, ↓State.kept_ite, ↓State.kept_fst_ite, ↓State.bumpBy_kept,
      ↓State.cruFlag_kept, ↓State.cruTake_kept, ↓State.cruCommit_kept]) <;> grind [State.kept_mk, State.bumpBy_kept,
      State.cruFlag_kept, State.cruTake_kept, State.cruCommit_kept]

theorem execMountDarkPhase_kept (b : Bay) (m : List (Vector DarkMeans 7 × Vector DarkMeans 7)) (s : State) : ∃ t,
    (execMountDarkPhase b m s) = .next t ∧ t.kept = s.kept := by
  unfold execMountDarkPhase
  (repeat' split) <;> exact ⟨_, rfl, by simp only [↓State.cruDarkPhase_kept]⟩

theorem State.cruQuality_kept (s : State) (b : Bay) : (State.cruQuality s b).kept = s.kept := by
  unfold State.cruQuality
  grind [State.kept_mk, State.drawn_kept, State.put_kept, State.setCru_kept]

theorem execCruQualityUpdate_kept (b : Bay) (s : State) : ∃ t, (execCruQualityUpdate b s) = .next t ∧ t.kept = s.kept := by
  unfold execCruQualityUpdate
  (repeat' split) <;> exact ⟨_, rfl, by simp only [↓State.cruQuality_kept]⟩

end Sys2Proof.Machine
end

