-- ==== Sys2Proof/Laws/KeptFieldRegs.lean ====
section
/-! SUPPORT. What no command changes, and the form of memory: lemmas of FieldRegs. -/
namespace Sys2Proof.Machine

set_option linter.unusedSimpArgs false
set_option linter.unusedTactic false
set_option linter.unnecessarySeqFocus false
set_option linter.unreachableTactic false
set_option linter.tactic.unusedName false

theorem State.commitWrite_kept (s : State) (g : Group) (w : Word) : (State.commitWrite s g w).kept = s.kept := by
  unfold State.commitWrite
  grind [State.kept_mk, State.put_kept, State.commitSet_kept]

theorem State.bootGo_kept (s : State) (d : Die) : (State.bootGo s d).kept = s.kept := by
  unfold State.bootGo
  grind [State.kept_mk, State.put_kept, State.bump_kept, State.setDie_kept, State.raiseHub_kept]

theorem State.spnCmdWrite_kept (s : State) (b : Bay) (w : Word) : (State.spnCmdWrite s b w).kept = s.kept := by
  unfold State.spnCmdWrite
  grind [State.kept_mk, State.spnRefuse_kept, State.spnRun_kept, State.spnIdle_kept, State.spnStop_kept]

theorem State.axCmdWrite_kept (s : State) (d : Die) (n : Fin 8) (w : Word) : (State.axCmdWrite s d n w).kept = s.kept := by
  unfold State.axCmdWrite
  grind [State.kept_mk, State.axMoveTo_kept, State.axStop_kept, State.axResume_kept, State.axHome_kept,
      State.axClrFault_kept]

theorem State.grpCmdWrite_kept (s : State) (d : Die) (g : Fin 4) (w : Word) : (State.grpCmdWrite s d g w).kept = s.kept := by
  unfold State.grpCmdWrite
  grind [State.kept_mk, State.grpMove_kept, State.grpStop_kept, State.grpResume_kept]

theorem State.moveRegWrite_kept (s : State) (b : Bay) (w : Word) : (State.moveRegWrite s b w).kept = s.kept := by
  unfold State.moveRegWrite
  grind [State.kept_mk, State.put_kept, State.moveWrite_kept]

theorem State.cruCtlWrite_kept (s : State) (b : Bay) (l : Loc) (w : Word) : (State.cruCtlWrite s b l w).kept = s.kept := by
  unfold State.cruCtlWrite
  grind [State.kept_mk, State.writeWord_kept, State.cruRaise_kept, State.cruAbort_kept]

theorem State.opcWrite_kept (s : State) (b : Bay) (l : Loc) (w : Word) : (State.opcWrite s b l w).kept = s.kept := by
  unfold State.opcWrite
  grind [State.kept_mk, State.writeWord_kept, State.opcRun_kept]

theorem State.trnRegWrite_kept (s : State) (d : Die) (rel : Nat) (l : Loc) (w : Word) : (State.trnRegWrite s d rel l
    w).1.kept = s.kept := by
  unfold State.trnRegWrite
  grind [State.kept_mk, State.writeWord_kept, State.slotCmd_kept, State.trnCtl_kept, State.bankWrite_kept]

theorem State.actingWrite_kept (s : State) (k : Block) (d : Die) (b : Option Bay) (rel : Nat) (l : Loc) (w : Word) :
    (State.actingWrite s k d b rel l w).kept = s.kept := by
  unfold State.actingWrite
  grind [State.kept_mk, State.writeWord_kept, State.keepDieOn_kept, State.velWrite_kept, State.sfeCtl_kept,
      State.spnCtlWrite_kept, State.ceilRelay_kept, State.osvCtl_kept, State.yrdCtl_kept, State.spotLoopWrite_kept,
      State.afeWrite_kept, State.axCtl_kept, State.bootGo_kept, State.spnCmdWrite_kept, State.axCmdWrite_kept,
      State.grpCmdWrite_kept, State.moveRegWrite_kept, State.cruCtlWrite_kept, State.opcWrite_kept]

theorem State.fieldWrite_kept (s : State) (d : Die) (bay off : Nat) (w : Word) : (State.fieldWrite s d bay off w).1.kept =
    s.kept := by
  unfold State.fieldWrite
  grind [State.kept_mk, State.commitWrite_kept, State.trnRegWrite_kept, State.actingWrite_kept]

end Sys2Proof.Machine
end

