-- ==== Sys2Proof/Laws/KeptDirOps.lean ====
section
/-! SUPPORT. What no command changes, and the form of memory: lemmas of DirOps. -/
namespace Sys2Proof.Machine

set_option linter.unusedSimpArgs false
set_option linter.unusedTactic false
set_option linter.unnecessarySeqFocus false
set_option linter.unreachableTactic false
set_option linter.tactic.unusedName false

theorem State.installKeys_kept (s : State) (slot : Nat) (bark : Option Nat) (keys : List KeyEntry) : (State.installKeys s
    slot bark keys).1.kept = s.kept := by
  refine State.kept_foldl_fst _ _ _ fun t y k => ?_
  dsimp only
  split
  · rfl
  · rename_i key _
    have h := State.installKey_kept t k.title key
    split
    · rename_i u c he
      rw [he] at h
      exact (State.keyConflict_kept _ _ _).trans h
    · rename_i u c he
      rw [he] at h
      exact h

theorem State.readDirectory_kept (s : State) (d : BayDisc) : (State.readDirectory s d).1.kept = s.kept := by
  unfold State.readDirectory
  simp only [↓State.kept_mk, ↓State.kept_fold, ↓State.mirror_kept, ↓State.installKeys_kept]

theorem State.askLogs_kept (s : State) (id : Nat) (logs : List (Nat × Nat)) : (State.askLogs s id logs).kept = s.kept := by
  unfold State.askLogs
  simp only []
  (repeat' split) <;> (try refine (State.kept_foldl _ _ _ fun t x => ?_).trans ?_) <;> (try dsimp only) <;> (repeat' split)
      <;> (try simp only []) <;> grind [State.kept_mk, State.request_kept, State.checkTags_kept]

theorem State.askPreload_kept (s : State) (id : Nat) (logs : List (Nat × Nat)) : (State.askPreload s id logs).kept = s.kept
    := by
  refine State.kept_foldl _ _ _ fun t k => ?_
  split
  · rfl
  · split
    · rfl
    · rw [State.request_kept, State.checkTags_kept]

theorem State.takeBoards_kept (s : State) (id title : Nat) (read boards : List Nat) : (State.takeBoards s id title read
    boards).kept = s.kept := by
  unfold State.takeBoards
  grind [State.kept_mk, State.setCmd_kept, State.askLogs_kept, State.askPreload_kept]

theorem State.setLookup_kept (s : State) (k : Lookup) : (State.setLookup s k).kept = s.kept := by
  unfold State.setLookup
  simp only [↓State.kept_mk, ↓State.kept_fold]

theorem State.dropLookup_kept (s : State) (id : Nat) : (State.dropLookup s id).kept = s.kept := by
  unfold State.dropLookup
  simp only [↓State.kept_mk, ↓State.kept_fold]

theorem State.addLookup_kept (s : State) (c : Cmd) (title : Nat) (boards : List Nat) : (State.addLookup s c title
    boards).kept = s.kept := by
  unfold State.addLookup
  simp only [↓State.kept_mk, ↓State.kept_fold, ↓State.bump_kept]

theorem State.startBoards_kept (s : State) (c : Cmd) (title : Nat) (boards : List Nat) : (State.startBoards s c title
    boards).kept = s.kept := by
  unfold State.startBoards
  grind [State.kept_mk, State.setCmd_kept, State.ifDone_kept, State.takeBoards_kept, State.addLookup_kept]

theorem State.failBoards_kept (s : State) (id st : Nat) (boards : List Nat) : (State.failBoards s id st boards).kept = s.kept
    := by
  unfold State.failBoards
  grind [State.kept_mk, State.setCmd_kept, State.zeroTags_kept]

theorem State.lookupOver_kept (s : State) (id : Nat) : (State.lookupOver s id).kept = s.kept := by
  unfold State.lookupOver
  grind [State.kept_mk, State.setCmd_kept, State.ifDone_kept, State.dropLookup_kept]

theorem State.bindKey_kept (s : State) (b : Bay) (title : Nat) (key : Bytes) : (State.bindKey s b title key).kept = s.kept :=
    by
  unfold State.bindKey
  grind [State.kept_mk, State.mapDisc_kept]

end Sys2Proof.Machine
end

