-- ==== Sys2Proof/Laws/KeptIngestOps.lean ====
section
/-! SUPPORT. What no command changes, and the form of memory: lemmas of IngestOps. -/
namespace Sys2Proof.Machine

set_option linter.unusedSimpArgs false
set_option linter.unusedTactic false
set_option linter.unnecessarySeqFocus false
set_option linter.unreachableTactic false
set_option linter.tactic.unusedName false

theorem State.dropRead_kept (s : State) (id : Nat) : (State.dropRead s id).kept = s.kept := by
  unfold State.dropRead
  simp only [↓State.kept_mk, ↓State.kept_fold]

theorem State.recordGo_kept (s : State) (c : Cmd) : (State.recordGo s c).kept = s.kept := by
  unfold State.recordGo
  grind [State.kept_mk, State.hostRead_kept, State.setCmd_kept, State.finish_kept]

theorem State.recordStart_kept (s : State) (c : Cmd) : (State.recordStart s c).kept = s.kept := by
  unfold State.recordStart
  (repeat' split) <;> simp_all [↓State.kept_ite, ↓State.setQueue_kept, ↓State.setCmd_kept, ↓State.finish_kept,
      ↓State.wantMount_kept, ↓State.recordGo_kept]

theorem State.encryptBoard_kept (s : State) (c : Cmd) (b : Bay) (lba : Nat) (payload : Bytes) : (State.encryptBoard s c b lba
    payload).1.kept = s.kept := by
  unfold State.encryptBoard
  grind [State.kept_mk, State.setSession_kept, State.mapDisc_kept, State.bindKey_kept]

theorem State.landBoard_kept3 (s : State) (c : Cmd) (e lba : Nat) (head payload : Bytes) : (State.landBoard s c e lba head
    payload).kept3 = s.kept3 := by
  unfold State.landBoard
  grind [State.kept3, State.kept, State.inject_kept, State.dirtyBoard_kept3, State.setCmd_kept, State.handOverLine_kept3]

theorem State.landBoard_memWf (s : State) (c : Cmd) (e lba : Nat) (head payload : Bytes) (hm : s.memWf) : (State.landBoard s
    c e lba head payload).memWf := by
  unfold State.landBoard
  grind [State.memWf, State.kept, State.inject_kept, State.dirtyBoard_memWf, State.setCmd_kept, State.handOverLine_memWf]

theorem State.genIfFull_kept (s : State) (b : Bay) (cls : Nat) : (State.genIfFull s b cls).kept = s.kept := by
  unfold State.genIfFull
  grind [State.kept_mk, State.startGen_kept]

theorem State.acceptImage_kept3 (s : State) (c : Cmd) (i : Nat) (img : Bytes) : (State.acceptImage s c i img).1.kept3 =
    s.kept3 := by
  unfold State.acceptImage
  grind [State.kept3, State.kept, State.dirtyEntry_kept, State.setCmd_kept, State.finish_kept, State.wantMount_kept,
      State.checkTags_kept, State.encryptBoard_kept, State.landBoard_kept3, State.genIfFull_kept]

theorem State.acceptImage_memWf (s : State) (c : Cmd) (i : Nat) (img : Bytes) (hm : s.memWf) : (State.acceptImage s c i
    img).1.memWf := by
  unfold State.acceptImage
  grind [State.memWf, State.kept, State.dirtyEntry_kept, State.setCmd_kept, State.finish_kept, State.wantMount_kept,
      State.checkTags_kept, State.encryptBoard_kept, State.landBoard_memWf, State.genIfFull_kept]

theorem State.recordEnd_kept3 (s : State) (c : Cmd) : (State.recordEnd s c).kept3 = s.kept3 := by
  unfold State.recordEnd
  grind [State.kept3, State.kept, State.setCmd_kept, State.ifDone_kept, State.handOverKeys_kept3, State.dropRead_kept]

theorem State.recordEnd_memWf (s : State) (c : Cmd) (hm : s.memWf) : (State.recordEnd s c).memWf := by
  unfold State.recordEnd
  grind [State.memWf, State.kept, State.setCmd_kept, State.ifDone_kept, State.handOverKeys_memWf, State.dropRead_kept]

theorem recordImages_kept3 (n : Nat) (s : State) (id : Nat) : (recordImages n s id).kept3 = s.kept3 := by
  induction n generalizing s with
  | zero => rfl
  | succ n ih =>
    unfold recordImages
    split
    · rfl
    · rename_i c _
      split
      · split
        · exact State.recordEnd_kept3 _ _
        · extract_lets img
          split
          · rfl
          · have h := State.acceptImage_kept3 s c c.done img
            split <;> rename_i u he <;> rw [he] at h
            · exact (ih u).trans h
            · exact h
      · rfl

theorem recordImages_memWf (n : Nat) (s : State) (id : Nat) (hm : s.memWf) : (recordImages n s id).memWf := by
  induction n generalizing s with
  | zero => exact hm
  | succ n ih =>
    unfold recordImages
    split
    · exact hm
    · rename_i c _
      split
      · split
        · exact State.recordEnd_memWf _ _ hm
        · extract_lets img
          split
          · exact hm
          · have h := State.acceptImage_memWf s c c.done img hm
            split <;> rename_i u he <;> rw [he] at h
            · exact ih u h
            · exact h
      · exact hm

theorem State.recordMore_kept3 (s : State) (id : Nat) : (State.recordMore s id).kept3 = s.kept3 := by
  unfold State.recordMore
  grind [State.kept3, State.kept, recordImages_kept3]

theorem State.recordMore_memWf (s : State) (id : Nat) (hm : s.memWf) : (State.recordMore s id).memWf := by
  unfold State.recordMore
  grind [State.memWf, State.kept, recordImages_memWf]

theorem State.recordMounted_kept3 (s : State) (c : Cmd) (st : Nat) : (State.recordMounted s c st).kept3 = s.kept3 := by
  unfold State.recordMounted
  grind [State.kept3, State.kept, State.setCmd_kept, State.finish_kept, State.recordGo_kept, State.recordMore_kept3]

theorem State.recordMounted_memWf (s : State) (c : Cmd) (st : Nat) (hm : s.memWf) : (State.recordMounted s c st).memWf := by
  unfold State.recordMounted
  grind [State.memWf, State.kept, State.setCmd_kept, State.finish_kept, State.recordGo_kept, State.recordMore_memWf]

end Sys2Proof.Machine
end

