-- ==== Sys2Proof/Laws/KeptSessOps.lean ====
section
/-! SUPPORT. What no command changes, and the form of memory: lemmas of SessOps. -/
namespace Sys2Proof.Machine

set_option linter.unusedSimpArgs false
set_option linter.unusedTactic false
set_option linter.unnecessarySeqFocus false
set_option linter.unreachableTactic false
set_option linter.tactic.unusedName false

theorem State.openFail_kept (s : State) (c : Cmd) (reason st : Nat) : (State.openFail s c reason st).kept = s.kept := by
  unfold State.openFail
  grind [State.kept_mk, State.bump_kept, State.freeSession_kept, State.finish_kept, State.dropRead_kept]

theorem State.openDone_kept (s : State) (c : Cmd) (x : Session) (idx : Nat) : (State.openDone s c x idx).kept = s.kept := by
  unfold State.openDone
  simp only [↓State.bump_kept, ↓State.setSession_kept, ↓State.finish_kept, ↓State.dropRead_kept]

theorem State.openKey_kept (s : State) (c : Cmd) (x : Session) (read : List Nat) : (State.openKey s c x read).kept = s.kept
    := by
  unfold State.openKey
  (repeat' split) <;> grind [State.kept_mk, State.installKey_kept, State.setCmd_kept, State.wantMount_kept,
      State.openFail_kept, State.openDone_kept]

theorem State.openContext_kept (s : State) (c : Cmd) (x : Session) (bind : Option Bytes) (read : List Nat) :
    (State.openContext s c x bind read).kept = s.kept := by
  unfold State.openContext
  grind [State.kept_mk, State.takeContext_kept, State.installKey_kept, State.keyConflict_kept, State.setCmd_kept,
      State.grant_kept, State.openFail_kept, State.openDone_kept, State.openKey_kept]

theorem State.openToken_kept (s : State) (c : Cmd) (token : Bytes) : (State.openToken s c token).kept = s.kept := by
  unfold State.openToken
  grind [State.kept_mk, State.seeTime_kept, State.setCmd_kept, State.grant_kept, State.addLookup_kept, State.openFail_kept,
      State.openContext_kept]

theorem State.openStart_kept (s : State) (c : Cmd) : (State.openStart s c).kept = s.kept := by
  unfold State.openStart
  grind [State.kept_mk, State.hostRead_kept, State.setCmd_kept, State.openFail_kept]

theorem State.openFound_kept (s : State) (c : Cmd) (read : List Nat) (failed : Option Nat) : (State.openFound s c read
    failed).kept = s.kept := by
  unfold State.openFound
  grind [State.kept_mk, State.grant_kept, State.openFail_kept, State.openContext_kept]

theorem State.openMounted_kept (s : State) (c : Cmd) (st : Nat) : (State.openMounted s c st).kept = s.kept := by
  unfold State.openMounted
  grind [State.kept_mk, State.openFail_kept, State.openDone_kept]

theorem State.closeStart_kept (s : State) (c : Cmd) : (State.closeStart s c).kept = s.kept := by
  unfold State.closeStart
  simp only []
  (repeat' split) <;> (try refine (State.kept_foldl _ _ _ fun t x => ?_).trans ?_) <;> (try dsimp only) <;> (repeat' split)
      <;> (try simp only []) <;> grind [State.kept_mk, State.setCmd_kept, State.startGen_kept]

theorem State.closeFinal_kept (s : State) (id : Nat) : (State.closeFinal s id).kept = s.kept := by
  unfold State.closeFinal
  grind [State.kept_mk, State.freeSession_kept, State.finish_kept]

end Sys2Proof.Machine
end

