-- ==== Sys2Proof/Laws/KeptMountOps.lean ====
section
/-! SUPPORT. What no command changes, and the form of memory: lemmas of MountOps. -/
namespace Sys2Proof.Machine

set_option linter.unusedSimpArgs false
set_option linter.unusedTactic false
set_option linter.unnecessarySeqFocus false
set_option linter.unreachableTactic false
set_option linter.tactic.unusedName false

theorem State.scanStep_kept (s : State) (id : Nat) : (State.scanStep s id).kept = s.kept := by
  unfold State.scanStep
  simp only [↓State.kept_mk, ↓State.kept_fold, ↓State.kept_ite, ↓State.kept_fst_ite, ↓State.finish_kept,
      ↓State.sendWork_kept, ↓State.wantMount_kept, ↓State.scan_kept]
  (repeat' split) <;> simp only [↓State.kept_mk, ↓State.kept_fold, ↓State.kept_ite, ↓State.kept_fst_ite, ↓State.finish_kept,
      ↓State.sendWork_kept, ↓State.wantMount_kept, ↓State.scan_kept, ite_self]

theorem State.scanStart_kept (s : State) (c : Cmd) : (State.scanStart s c).kept = s.kept := by
  unfold State.scanStart
  simp only [↓State.setCmd_kept, ↓State.scanStep_kept]

theorem State.scanLog_kept (s : State) (id log result passes erased : Nat) : (State.scanLog s id log result passes
    erased).kept = s.kept := by
  unfold State.scanLog
  grind [State.kept_mk, State.hostWrite_kept, State.setCmd_kept]

theorem State.mountDone_kept (s : State) (c : Cmd) (st : Nat) : (State.mountDone s c st).kept = s.kept := by
  unfold State.mountDone
  grind [State.kept_mk, State.finish_kept]

theorem State.mountStart_kept (s : State) (c : Cmd) : (State.mountStart s c).kept = s.kept := by
  unfold State.mountStart
  grind [State.kept_mk, State.setCmd_kept, State.finish_kept, State.wantMount_kept, State.mountDone_kept]

theorem State.moveGo_kept (s : State) (c : Cmd) : (State.moveGo s c).kept = s.kept := by
  unfold State.moveGo
  grind [State.kept_mk, State.setCmd_kept, State.finish_kept, State.sendWork_kept]

theorem State.moveDiscStart_kept (s : State) (c : Cmd) : (State.moveDiscStart s c).kept = s.kept := by
  unfold State.moveDiscStart
  grind [State.kept_mk, State.setCmd_kept, State.finish_kept, State.setHubBay_kept, State.moveGo_kept]

theorem State.continueMount_kept3 (s : State) (id slot st : Nat) : (State.continueMount s id slot st).kept3 = s.kept3 := by
  unfold State.continueMount
  grind [State.kept3, State.kept, State.finish_kept, State.setLookup_kept, State.recordMounted_kept3, State.openMounted_kept,
      State.scanStep_kept, State.mountDone_kept]

theorem State.continueMount_memWf (s : State) (id slot st : Nat) (hm : s.memWf) : (State.continueMount s id slot st).memWf :=
    by
  unfold State.continueMount
  grind [State.memWf, State.kept, State.finish_kept, State.setLookup_kept, State.recordMounted_memWf, State.openMounted_kept,
      State.scanStep_kept, State.mountDone_kept]

theorem State.slotLost_kept (s : State) (slot st : Nat) : (State.slotLost s slot st).kept = s.kept := by
  unfold State.slotLost
  refine (State.kept_foldl _ _ _ fun t e => ?_).trans (State.kept_foldl _ _ _ fun t e => ?_)
  · split
    · rfl
    · rw [State.lineSettled_kept, State.settleLine_kept]
  · split
    · exact State.fillOver_kept _ _ _ _ _
    · rfl

theorem State.rebuildEnded_kept (s : State) (slot st : Nat) : (State.rebuildEnded s slot st).kept = s.kept := by
  unfold State.rebuildEnded
  simp only [↓State.kept_mk, ↓State.kept_fold, ↓State.kept_ite, ↓State.kept_fst_ite, ↓State.mirror_kept,
      ↓State.clearBay_kept]
  (repeat' split) <;> simp only [↓State.kept_mk, ↓State.kept_fold, ↓State.kept_ite, ↓State.kept_fst_ite, ↓State.mirror_kept,
      ↓State.clearBay_kept, ite_self]

theorem State.mountEnded_kept3 (s : State) (slot st : Nat) : (State.mountEnded s slot st).kept3 = s.kept3 := by
  have h2 : ∀ (l : List MountOwner) (u : State), (l.foldl (fun t o => match o with | .cmd id => t.continueMount id slot st | _ => t) u).kept3 = u.kept3 :=
    fun l u => State.kept3_foldl _ _ _ fun t o => by
      split
      · exact State.continueMount_kept3 _ _ _ _
      · rfl
  unfold State.mountEnded
  split
  · rfl
  · simp only [↓State.kept3_ite, State.kept3_of (State.rebuildEnded_kept _ _ _), State.kept3_of (State.slotLost_kept _ _ _), ite_self]
    refine (h2 _ _).trans ?_
    rw [State.kept3_mk, State.kept3_fold]

theorem State.mountEnded_memWf (s : State) (slot st : Nat) (hm : s.memWf) : (State.mountEnded s slot st).memWf := by
  unfold State.mountEnded
  split
  · exact hm
  · rename_i j _
    have h2 : ∀ u : State, u.memWf → (j.owners.foldl (fun t o => match o with | .cmd id => t.continueMount id slot st | _ => t) u).memWf :=
      fun u hu => State.memWf_foldl _ _ _ (fun t o h => by
        split
        · exact State.continueMount_memWf _ _ _ _ h
        · exact h) hu
    have h0 := h2 { s with crew := { s.crew with mounts := s.crew.mounts.filter fun (x : MountJob) => x.slot ≠ slot } } hm
    simp only []
    generalize List.foldl _ _ _ = u at h0 ⊢
    (repeat' split) <;> simp only [State.memWf_of (State.rebuildEnded_kept _ _ _), State.memWf_of (State.slotLost_kept _ _ _), h0]

theorem State.failMounts_kept3 (s : State) : (State.failMounts s).kept3 = s.kept3 := by
  unfold State.failMounts
  simp only [↓State.kept3_mk, ↓State.kept3_fold, ↓State.kept3_ite, ↓State.kept3_of (State.stage_kept _ _ _ _ _ _),
      ↓State.mountEnded_kept3]
  (repeat' split) <;> (try refine (State.kept3_foldl _ _ _ fun t x => ?_).trans ?_) <;> (try dsimp only) <;> (repeat' split)
      <;> (try simp only [↓State.kept3_mk, ↓State.kept3_fold, ↓State.kept3_ite, ↓State.kept3_of (State.stage_kept _ _ _ _ _
      _), ↓State.mountEnded_kept3]) <;> grind [State.kept3, State.kept, State.stage_kept, State.mountEnded_kept3]

theorem State.failMounts_memWf (s : State) (hm : s.memWf) : (State.failMounts s).memWf := by
  unfold State.failMounts
  split
  · exact hm
  · exact State.memWf_foldl _ _ _ (fun t j h => by
      split
      · exact State.mountEnded_memWf _ _ _ h
      · exact h) hm

theorem State.settle_kept3 (s : State) : (State.settle s).kept3 = s.kept3 := by
  unfold State.settle
  simp only [↓State.kept3_of (State.settleWork_kept _), ↓State.failMounts_kept3]

theorem State.settle_memWf (s : State) (hm : s.memWf) : (State.settle s).memWf := by
  unfold State.settle
  simp only [↓State.memWf_of (State.settleWork_kept _), State.failMounts_memWf, hm]

theorem State.unmountEnded_kept3 (s : State) (b : Bay) (st : Nat) : (State.unmountEnded s b st).kept3 = s.kept3 := by
  have h1 : ∀ (l : List Nat) (f : Cmd → Nat) (r : Nat) (u : State), (l.foldl (fun t id =>
      match t.cmd id with
      | none => t
      | some c => if c.opcode = 0x89 then t.finish c (f c) r else if st ≠ stSuccess then t.finish c st 0 else t.moveGo c) u).kept3 = u.kept3 :=
    fun l f r u => State.kept3_foldl _ _ _ fun t id => by
      split
      · rfl
      · simp only [↓State.kept3_ite, State.kept3_of (State.finish_kept _ _ _ _), State.kept3_of (State.moveGo_kept _ _), ite_self]
  unfold State.unmountEnded
  refine (State.kept3_foldl _ _ _ fun t j => ?_).trans ((h1 _ (fun _ => _) _ _).trans (State.kept3_of (State.setHubBay_kept _ _ _)))
  split
  · exact State.kept3_of (State.setMount_kept _ _)
  · exact State.mountEnded_kept3 _ _ _

theorem State.unmountEnded_memWf (s : State) (b : Bay) (st : Nat) (hm : s.memWf) : (State.unmountEnded s b st).memWf := by
  have h1 : ∀ (l : List Nat) (f : Cmd → Nat) (r : Nat) (u : State), u.memWf → (l.foldl (fun t id =>
      match t.cmd id with
      | none => t
      | some c => if c.opcode = 0x89 then t.finish c (f c) r else if st ≠ stSuccess then t.finish c st 0 else t.moveGo c) u).memWf :=
    fun l f r u hu => State.memWf_foldl _ _ _ (fun t id h => by
      split
      · exact h
      · split
        · exact (State.memWf_of (State.finish_kept _ _ _ _)).2 h
        · split
          · exact (State.memWf_of (State.finish_kept _ _ _ _)).2 h
          · exact (State.memWf_of (State.moveGo_kept _ _)).2 h) hu
  unfold State.unmountEnded
  refine State.memWf_foldl _ _ _ (fun t j h => ?_) (h1 _ (fun _ => _) _ _ ((State.memWf_of (State.setHubBay_kept _ _ _)).2 hm))
  split
  · exact (State.memWf_of (State.setMount_kept _ _)).2 h
  · exact State.mountEnded_memWf _ _ _ h

theorem State.unmountStart_kept (s : State) (c : Cmd) : (State.unmountStart s c).kept = s.kept := by
  unfold State.unmountStart
  grind [State.kept_mk, State.setCmd_kept, State.finish_kept, State.setHubBay_kept]

theorem State.genOver_kept (s : State) (b : Bay) (g : GenRun) (st : Nat) : (State.genOver s b g st).kept = s.kept := by
  unfold State.genOver
  grind [State.kept_mk, State.mirror_kept, State.setCmd_kept, State.setHubBay_kept]

theorem State.genCopy_kept (s : State) (b : Bay) (st : Nat) : (State.genCopy s b st).kept = s.kept := by
  unfold State.genCopy
  grind [State.kept_mk, State.setHubBay_kept, State.genOver_kept]

theorem State.logRecorded_kept (s : State) (slot log cls : Nat) : (State.logRecorded s slot log cls).kept = s.kept := by
  unfold State.logRecorded
  grind [State.kept_mk, State.mapDisc_kept, State.startGen_kept]

theorem State.stalePlace_kept (s : State) (place : Nat) : (State.stalePlace s place).kept = s.kept := by
  unfold State.stalePlace
  grind [State.kept_mk, State.staleSlot_kept]

theorem State.cruiseEnded_kept (s : State) (id : Nat) (b : Bay) (st : Nat) : (State.cruiseEnded s id b st).kept = s.kept :=
    by
  unfold State.cruiseEnded
  (repeat' split) <;> simp_all [↓State.finish_kept, State.kept_foldl]

theorem State.itemEnded_kept3 (s : State) (x : HubItem) (st : Nat) : (State.itemEnded s x st).kept3 = s.kept3 := by
  unfold State.itemEnded
  grind [State.kept3, State.kept, State.settleLine_kept, State.setCmd_kept, State.finish_kept, State.finishId_kept,
      State.fetch_kept, State.fillOver_kept, State.lineSettled_kept, State.setHubBay_kept, State.mapDisc_kept,
      State.setMount_kept, State.setTask_kept, State.spinUp_kept, State.returnDisc_kept, State.refill_kept, State.scan_kept,
      State.stage_kept, State.scanStep_kept, State.mountEnded_kept3, State.unmountEnded_kept3, State.genCopy_kept,
      State.logRecorded_kept, State.stalePlace_kept, State.cruiseEnded_kept]

theorem State.itemEnded_memWf (s : State) (x : HubItem) (st : Nat) (hm : s.memWf) : (State.itemEnded s x st).memWf := by
  unfold State.itemEnded
  grind [State.memWf, State.kept, State.settleLine_kept, State.setCmd_kept, State.finish_kept, State.finishId_kept,
      State.fetch_kept, State.fillOver_kept, State.lineSettled_kept, State.setHubBay_kept, State.mapDisc_kept,
      State.setMount_kept, State.setTask_kept, State.spinUp_kept, State.returnDisc_kept, State.refill_kept, State.scan_kept,
      State.stage_kept, State.scanStep_kept, State.mountEnded_memWf, State.unmountEnded_memWf, State.genCopy_kept,
      State.logRecorded_kept, State.stalePlace_kept, State.cruiseEnded_kept]

theorem State.itemDropped_kept (s : State) (x : HubItem) : (State.itemDropped s x).kept = s.kept := by
  unfold State.itemDropped
  simp only [↓State.kept_mk, ↓State.kept_fold, ↓State.kept_ite, ↓State.kept_fst_ite, ↓State.bump_kept, ↓State.setMiss_kept,
      ↓State.fetch_kept, ↓State.fillOver_kept, ↓State.setHubBay_kept, ↓State.setMount_kept, ↓State.setTask_kept,
      ↓State.stage_kept, ↓State.genCopy_kept]
  (repeat' split) <;> simp only [↓State.kept_mk, ↓State.kept_fold, ↓State.kept_ite, ↓State.kept_fst_ite, ↓State.bump_kept,
      ↓State.setMiss_kept, ↓State.fetch_kept, ↓State.fillOver_kept, ↓State.setHubBay_kept, ↓State.setMount_kept,
      ↓State.setTask_kept, ↓State.stage_kept, ↓State.genCopy_kept, ite_self]

theorem State.portLost_kept3 (s : State) (d : Die) : (State.portLost s d).kept3 = s.kept3 := by
  unfold State.portLost
  (repeat' split) <;> simp_all [↓State.kept3_mk, ↓State.kept3_fold, ↓State.kept3_of (State.freeMiss_kept _ _),
      ↓State.kept3_of (State.mapDisc_kept _ _ _), ↓State.kept3_of (State.genOver_kept _ _ _ _), ↓State.itemEnded_kept3,
      State.kept3_foldl]

theorem State.portLost_memWf (s : State) (d : Die) (hm : s.memWf) : (State.portLost s d).memWf := by
  have h1 : ∀ (l : List HubItem) (st : Nat) (u : State), u.memWf → (l.foldl (fun t x => t.itemEnded x st) u).memWf :=
    fun l st u hu => State.memWf_foldl _ _ _ (fun t x h => State.itemEnded_memWf _ _ _ h) hu
  have h2 : ∀ (l : List Miss) (u : State), u.memWf → (l.foldl (fun t m => t.freeMiss m.id) u).memWf :=
    fun l u hu => State.memWf_foldl _ _ _ (fun t m h => (State.memWf_of (State.freeMiss_kept _ _)).2 h) hu
  have h3 : ∀ (l : List GenRun) (b : Bay) (st : Nat) (u : State), u.memWf → (l.foldl (fun t g => t.genOver b g st) u).memWf :=
    fun l b st u hu => State.memWf_foldl _ _ _ (fun t g h => (State.memWf_of (State.genOver_kept _ _ _ _)).2 h) hu
  unfold State.portLost
  refine State.memWf_foldl _ _ _ (fun t b h => ?_) (h2 _ _ (h1 _ _ _ ?_))
  · exact (State.memWf_of (State.mapDisc_kept _ _ _)).2 (h3 _ _ _ _ h)
  · simp only [State.memWf_mk, State.memWf_fold]
    exact hm

end Sys2Proof.Machine
end

