-- ==== Sys2Proof/Laws/KeptCheckOps.lean ====
section
/-! SUPPORT. What no command changes, and the form of memory: lemmas of CheckOps. -/
namespace Sys2Proof.Machine

set_option linter.unusedSimpArgs false
set_option linter.unusedTactic false
set_option linter.unnecessarySeqFocus false
set_option linter.unreachableTactic false
set_option linter.tactic.unusedName false

theorem State.loseSession_kept (s : State) (id : Nat) : (State.loseSession s id).kept = s.kept := by
  unfold State.loseSession
  extract_lets s1
  have h1 : s1.kept = s.kept := State.kept_foldl _ _ _ fun t c => by
    rw [State.finish_kept, State.dropRead_kept]
  clear_value s1
  split
  · rw [State.closeFinal_kept, State.setSession_kept, h1]
  · exact h1

theorem State.readContext_kept (s : State) (id : Nat) : (State.readContext s id).kept = s.kept := by
  unfold State.readContext
  simp only []
  (repeat' split) <;> (try refine (State.kept_foldl _ _ _ fun t x => ?_).trans ?_) <;> (try dsimp only) <;> (repeat' split)
      <;> (try simp only []) <;> grind [State.kept_mk, State.setFlips_kept, State.checkRange_kept, State.loseSession_kept]

theorem State.sessionStep_kept (s : State) (c : Cmd) : (State.sessionStep s c).1.kept = s.kept := by
  unfold State.sessionStep
  grind [State.kept_mk, State.setSession_kept, State.checkSession_kept, State.readContext_kept]

theorem State.takeEntry_kept (s : State) (x : Queue) (bs : Bytes) : (State.takeEntry s x bs).kept = s.kept := by
  unfold State.takeEntry
  simp only [↓State.kept_mk, ↓State.kept_fold, ↓State.kept_ite, ↓State.kept_fst_ite, ↓State.setCmd_kept, ↓State.finish_kept,
      ↓State.sessionStep_kept]
  (repeat' split) <;> simp only [↓State.kept_mk, ↓State.kept_fold, ↓State.kept_ite, ↓State.kept_fst_ite, ↓State.setCmd_kept,
      ↓State.finish_kept, ↓State.sessionStep_kept, ite_self]

theorem State.lostEntry_kept (s : State) (x : Queue) (idx : Nat) : (State.lostEntry s x idx).kept = s.kept := by
  unfold State.lostEntry
  simp only [↓State.kept_mk, ↓State.kept_fold]

end Sys2Proof.Machine
end

