-- ==== Sys2Proof/Laws/KeptCutOps.lean ====
section
/-! SUPPORT. What no command changes, and the form of memory: lemmas of CutOps. -/
namespace Sys2Proof.Machine

set_option linter.unusedSimpArgs false
set_option linter.unusedTactic false
set_option linter.unnecessarySeqFocus false
set_option linter.unreachableTactic false
set_option linter.tactic.unusedName false

theorem State.killRead_kept (s : State) (r : HostRead) (counted : Bool) : (State.killRead s r counted).kept = s.kept := by
  unfold State.killRead
  simp only [↓State.kept_mk, ↓State.kept_fold]

theorem State.killCmdRead_kept (s : State) (id : Nat) (counted : Bool) : (State.killCmdRead s id counted).kept = s.kept := by
  unfold State.killCmdRead
  grind [State.kept_mk, State.killRead_kept]

theorem State.giveContext_kept (s : State) (c : Cmd) : (State.giveContext s c).kept = s.kept := by
  unfold State.giveContext
  grind [State.kept_mk, State.freeSession_kept]

theorem State.leaveUnmounts_kept (s : State) (id : Nat) : (State.leaveUnmounts s id).kept = s.kept := by
  unfold State.leaveUnmounts
  (repeat' split) <;> simp_all [↓State.setHubBay_kept, State.kept_foldl]

theorem State.discard_kept (s : State) (c : Cmd) : (State.discard s c).kept = s.kept := by
  unfold State.discard
  grind [State.kept_mk, State.dropCmd_kept, State.closeFinal_kept, State.killCmdRead_kept, State.giveContext_kept,
      State.leaveUnmounts_kept]

theorem State.resetPorts_kept (s : State) (f q : Nat) : (State.resetPorts s f q).kept = s.kept := by
  unfold State.resetPorts
  (repeat' split) <;> simp_all [↓State.sendReset_kept, State.kept_foldl]

theorem State.startCut_kept (s : State) (f q : Nat) (kind : CutKind) : (State.startCut s f q kind).kept = s.kept := by
  unfold State.startCut
  simp only []
  (repeat' split) <;> (try refine (State.kept_foldl _ _ _ fun t x => ?_).trans ?_) <;> (try dsimp only) <;> (repeat' split)
      <;> (try simp only []) <;> grind [State.kept_mk, State.bumpBy_kept, State.setQueue_kept, State.finishId_kept,
      State.fetch_kept, State.killRead_kept, State.killCmdRead_kept, State.giveContext_kept, State.discard_kept,
      State.resetPorts_kept]

theorem State.cutWaiters_kept (s : State) (f q : Nat) : (State.cutWaiters s f q).kept = s.kept := by
  unfold State.cutWaiters
  grind [State.kept_mk, State.setCmd_kept, State.startCut_kept]

theorem State.cutDone_kept (s : State) (c : Cut) : (State.cutDone s c).kept = s.kept := by
  unfold State.cutDone
  simp only [↓State.kept_mk, ↓State.kept_fold, ↓State.kept_ite, ↓State.kept_fst_ite, ↓State.put_kept, ↓State.bump_kept,
      ↓State.epEvt_kept, ↓State.setQueue_kept, ↓State.dropQueue_kept, ↓State.finishId_kept, ↓State.logError_kept,
      ↓State.cutWaiters_kept]
  (repeat' split) <;> simp only [↓State.kept_mk, ↓State.kept_fold, ↓State.kept_ite, ↓State.kept_fst_ite, ↓State.put_kept,
      ↓State.bump_kept, ↓State.epEvt_kept, ↓State.setQueue_kept, ↓State.dropQueue_kept, ↓State.finishId_kept,
      ↓State.logError_kept, ↓State.cutWaiters_kept, ite_self]

theorem State.cutsReady_kept (s : State) : (State.cutsReady s).kept = s.kept := by
  unfold State.cutsReady
  (repeat' split) <;> simp_all [↓State.kept_ite, ↓State.cutDone_kept, State.kept_foldl]

theorem State.resetStart_kept (s : State) (c : Cmd) : (State.resetStart s c).kept = s.kept := by
  unfold State.resetStart
  grind [State.kept_mk, State.setCmd_kept, State.finish_kept, State.startCut_kept, State.cutsReady_kept]

theorem State.dropHubItem_kept (s : State) (x : HubItem) : (State.dropHubItem s x).kept = s.kept := by
  unfold State.dropHubItem
  simp only [↓State.closeItem_kept, ↓State.itemDropped_kept]

theorem State.queueCut_kept (s : State) (d : Die) (f q partly : Nat) : (State.queueCut s d f q partly).kept = s.kept := by
  unfold State.queueCut
  (repeat' split) <;> simp_all [↓State.kept_mk, ↓State.kept_fold, ↓State.dropHubItem_kept, State.kept_foldl]

theorem State.itemCut_kept (s : State) (d : Die) (item : Nat) : (State.itemCut s d item).kept = s.kept := by
  unfold State.itemCut
  grind [State.kept_mk, State.freeMiss_kept, State.closeItem_kept, State.dropHubItem_kept]

theorem State.resetAnswered_kept (s : State) (d : Die) (seq partly : Nat) : (State.resetAnswered s d seq partly).kept =
    s.kept := by
  unfold State.resetAnswered
  simp only [↓State.kept_mk, ↓State.kept_fold, ↓State.kept_ite, ↓State.kept_fst_ite, ↓State.cutsReady_kept,
      ↓State.queueCut_kept, ↓State.itemCut_kept]
  (repeat' split) <;> simp only [↓State.kept_mk, ↓State.kept_fold, ↓State.kept_ite, ↓State.kept_fst_ite,
      ↓State.cutsReady_kept, ↓State.queueCut_kept, ↓State.itemCut_kept, ite_self]

theorem State.regsLost_kept (s : State) (d : Die) (st : Nat) : (State.regsLost s d st).kept = s.kept := by
  unfold State.regsLost
  (repeat' split) <;> simp_all [↓State.finish_kept, State.kept_foldl]

theorem State.portGone_kept3 (s : State) (d : Die) : (State.portGone s d).kept3 = s.kept3 := by
  unfold State.portGone
  simp only [↓State.kept3_mk, ↓State.kept3_fold, ↓State.portLost_kept3, ↓State.kept3_of (State.cutsReady_kept _),
      ↓State.kept3_of (State.regsLost_kept _ _ _)]

theorem State.portGone_memWf (s : State) (d : Die) (hm : s.memWf) : (State.portGone s d).memWf := by
  unfold State.portGone
  simp only [↓State.memWf_mk, ↓State.memWf_fold, State.portLost_memWf, ↓State.memWf_of (State.cutsReady_kept _),
      ↓State.memWf_of (State.regsLost_kept _ _ _), hm]

end Sys2Proof.Machine
end

