-- ==== Sys2Proof/Laws/KeptKrfOps.lean ====
section
/-! SUPPORT. What no command changes, and the form of memory: lemmas of KrfOps. -/
namespace Sys2Proof.Machine

set_option linter.unusedSimpArgs false
set_option linter.unusedTactic false
set_option linter.unnecessarySeqFocus false
set_option linter.unreachableTactic false
set_option linter.tactic.unusedName false

theorem State.setPort_kept (s : State) (d : Die) (p : Port) : (State.setPort s d p).kept = s.kept := by
  unfold State.setPort
  simp only [↓State.kept_mk, ↓State.kept_fold]

theorem State.setTxEnd_kept (s : State) (d : Die) (x : Side) (t : TxEnd) : (State.setTxEnd s d x t).kept = s.kept := by
  unfold State.setTxEnd
  simp only [↓State.setPort_kept]

theorem State.setRxEnd_kept (s : State) (d : Die) (x : Side) (r : RxEnd) : (State.setRxEnd s d x r).kept = s.kept := by
  unfold State.setRxEnd
  simp only [↓State.setPort_kept]

theorem State.sendNak_kept (s : State) (d : Die) (x : Side) : (State.sendNak s d x).kept = s.kept := by
  unfold State.sendNak
  simp only [↓State.drawn_kept, ↓State.send_kept]

theorem State.sendCredit_kept (s : State) (d : Die) (x : Side) : (State.sendCredit s d x).kept = s.kept := by
  unfold State.sendCredit
  simp only [↓State.drawn_kept, ↓State.send_kept]

theorem State.flitSlot_kept (s : State) (d : Die) (x : Side) : (State.flitSlot s d x).kept = s.kept := by
  unfold State.flitSlot
  grind [State.kept_mk, State.drawn_kept, State.emit_kept, State.setTxEnd_kept]

theorem State.retrain_kept (s : State) (d : Die) : (State.retrain s d).kept = s.kept := by
  unfold State.retrain
  simp only [↓State.epEvt_kept, ↓State.setPort_kept]

theorem State.nakSeen_kept (s : State) (d : Die) (x : Side) (named : Nat) : (State.nakSeen s d x named).kept = s.kept := by
  unfold State.nakSeen
  grind [State.kept_mk, State.setTxEnd_kept, State.retrain_kept]

theorem State.creditSeen_kept (s : State) (d : Die) (x : Side) (ack : Nat) (units : Vector Nat 5) : (State.creditSeen s d x
    ack units).kept = s.kept := by
  unfold State.creditSeen
  simp only [↓State.setTxEnd_kept]

theorem State.portDown_kept3 (s : State) (d : Die) : (State.portDown s d).kept3 = s.kept3 := by
  unfold State.portDown
  grind [State.kept3, State.kept, State.epEvt_kept, State.raiseHub_kept, State.settle_kept3, State.portGone_kept3,
      State.setPort_kept]

theorem State.portDown_memWf (s : State) (d : Die) (hm : s.memWf) : (State.portDown s d).memWf := by
  unfold State.portDown
  grind [State.memWf, State.kept, State.epEvt_kept, State.raiseHub_kept, State.settle_memWf, State.portGone_memWf,
      State.setPort_kept]

theorem State.refusal_kept (s : State) (d : Die) (x : Side) (sub type : Nat) : (State.refusal s d x sub type).kept = s.kept
    := by
  unfold State.refusal
  grind [State.kept_mk, State.bump_kept, State.raiseDie_kept, State.raiseHub_kept]

theorem State.refusedAtHub_kept3 (s : State) (d : Die) (type : Nat) (w : Word64) : (State.refusedAtHub s d type w).kept3 =
    s.kept3 := by
  unfold State.refusedAtHub
  grind [State.kept3, State.kept, State.closeItem_kept, State.sendReset_kept, State.refill_kept, State.settle_kept3,
      State.itemEnded_kept3]

theorem State.refusedAtHub_memWf (s : State) (d : Die) (type : Nat) (w : Word64) (hm : s.memWf) : (State.refusedAtHub s d
    type w).memWf := by
  unfold State.refusedAtHub
  grind [State.memWf, State.kept, State.closeItem_kept, State.sendReset_kept, State.refill_kept, State.settle_memWf,
      State.itemEnded_memWf]

theorem State.refusedAtDie_kept (s : State) (d : Die) (type : Nat) (w : Word64) (cls : KClass) : (State.refusedAtDie s d type
    w cls).kept = s.kept := by
  unfold State.refusedAtDie
  grind [State.kept_mk, State.send_kept, State.endItem_kept]

theorem State.refuseMsg_kept3 (s : State) (d : Die) (x : Side) (sub type : Nat) (w : Word64) (cls : KClass) :
    (State.refuseMsg s d x sub type w cls).kept3 = s.kept3 := by
  unfold State.refuseMsg
  grind [State.kept3, State.kept, State.refusal_kept, State.refusedAtHub_kept3, State.refusedAtDie_kept]

theorem State.refuseMsg_memWf (s : State) (d : Die) (x : Side) (sub type : Nat) (w : Word64) (cls : KClass) (hm : s.memWf) :
    (State.refuseMsg s d x sub type w cls).memWf := by
  unfold State.refuseMsg
  grind [State.memWf, State.kept, State.refusal_kept, State.refusedAtHub_memWf, State.refusedAtDie_kept]

theorem State.softWord_kept (s : State) (d : Die) (type : Nat) (w : Word64) : (State.softWord s d type w).1.kept = s.kept :=
    by
  unfold State.softWord
  grind [State.kept_mk, State.put_kept, State.setPort_kept, State.refusal_kept]

theorem State.accept_kept (s : State) (d : Die) (x : Side) (m : Msg) : (State.accept s d x m).kept = s.kept := by
  unfold State.accept
  simp only []
  (repeat' split) <;> (try refine (State.kept_foldl_fst _ _ _ fun t y x => ?_).trans ?_) <;> (try dsimp only) <;> (repeat'
      split) <;> (try simp only []) <;> grind [State.kept_mk, State.setRxEnd_kept, State.softWord_kept]

theorem State.truncate_kept3 (s : State) (d : Die) (x : Side) (k : KClass) (sub : Nat) (count : Bool) : (State.truncate s d x
    k sub count).kept3 = s.kept3 := by
  unfold State.truncate
  grind [State.kept3, State.kept, State.setRxEnd_kept, State.refusedAtHub_kept3, State.refusedAtDie_kept,
      State.refuseMsg_kept3]

theorem State.truncate_memWf (s : State) (d : Die) (x : Side) (k : KClass) (sub : Nat) (count : Bool) (hm : s.memWf) :
    (State.truncate s d x k sub count).memWf := by
  unfold State.truncate
  grind [State.memWf, State.kept, State.setRxEnd_kept, State.refusedAtHub_memWf, State.refusedAtDie_kept,
      State.refuseMsg_memWf]

theorem State.headerIn_kept3 (s : State) (d : Die) (x : Side) (type tag : Nat) (w : Word64) (cls : KClass) : (State.headerIn
    s d x type tag w cls).kept3 = s.kept3 := by
  unfold State.headerIn
  grind [State.kept3, State.kept, State.setRxEnd_kept, State.refuseMsg_kept3, State.accept_kept, State.truncate_kept3]

theorem State.headerIn_memWf (s : State) (d : Die) (x : Side) (type tag : Nat) (w : Word64) (cls : KClass) (hm : s.memWf) :
    (State.headerIn s d x type tag w cls).memWf := by
  unfold State.headerIn
  grind [State.memWf, State.kept, State.setRxEnd_kept, State.refuseMsg_memWf, State.accept_kept, State.truncate_memWf]

theorem State.contIn_kept3 (s : State) (d : Die) (x : Side) (type tag : Nat) (w : Word64) (k : KClass) : (State.contIn s d x
    type tag w k).kept3 = s.kept3 := by
  unfold State.contIn
  grind [State.kept3, State.kept, State.setRxEnd_kept, State.refusal_kept, State.accept_kept, State.truncate_kept3]

theorem State.contIn_memWf (s : State) (d : Die) (x : Side) (type tag : Nat) (w : Word64) (k : KClass) (hm : s.memWf) :
    (State.contIn s d x type tag w k).memWf := by
  unfold State.contIn
  grind [State.memWf, State.kept, State.setRxEnd_kept, State.refusal_kept, State.accept_kept, State.truncate_memWf]

theorem State.goodFlit_kept3 (s : State) (d : Die) (x : Side) (num : Nat) (f : Flit) (cls : KClass) : (State.goodFlit s d x
    num f cls).kept3 = s.kept3 := by
  unfold State.goodFlit
  grind [State.kept3, State.kept, State.setRxEnd_kept, State.sendCredit_kept, State.headerIn_kept3, State.contIn_kept3]

theorem State.goodFlit_memWf (s : State) (d : Die) (x : Side) (num : Nat) (f : Flit) (cls : KClass) (hm : s.memWf) :
    (State.goodFlit s d x num f cls).memWf := by
  unfold State.goodFlit
  grind [State.memWf, State.kept, State.setRxEnd_kept, State.sendCredit_kept, State.headerIn_memWf, State.contIn_memWf]

theorem State.flitIn_kept3 (s : State) (d : Die) (x : Side) (num : Nat) (f : Flit) (cls : KClass) : (State.flitIn s d x num f
    cls).kept3 = s.kept3 := by
  unfold State.flitIn
  grind [State.kept3, State.kept, State.bump_kept, State.setRxEnd_kept, State.sendNak_kept, State.goodFlit_kept3]

theorem State.flitIn_memWf (s : State) (d : Die) (x : Side) (num : Nat) (f : Flit) (cls : KClass) (hm : s.memWf) :
    (State.flitIn s d x num f cls).memWf := by
  unfold State.flitIn
  grind [State.memWf, State.kept, State.bump_kept, State.setRxEnd_kept, State.sendNak_kept, State.goodFlit_memWf]

theorem State.contTimeout_kept3 (s : State) (d : Die) (x : Side) (k : KClass) : (State.contTimeout s d x k).kept3 = s.kept3
    := by
  unfold State.contTimeout
  grind [State.kept3, State.kept, State.truncate_kept3]

theorem State.contTimeout_memWf (s : State) (d : Die) (x : Side) (k : KClass) (hm : s.memWf) : (State.contTimeout s d x
    k).memWf := by
  unfold State.contTimeout
  grind [State.memWf, State.kept, State.truncate_memWf]

theorem State.txctlWrite_kept (s : State) (d : Die) (w : Word) : (State.txctlWrite s d w).kept = s.kept := by
  unfold State.txctlWrite
  grind [State.kept_mk, State.put_kept, State.setPort_kept]

theorem State.rxctlWrite_kept (s : State) (d : Die) (w : Word) : (State.rxctlWrite s d w).kept = s.kept := by
  unfold State.rxctlWrite
  grind [State.kept_mk, State.put_kept, State.setPort_kept]

end Sys2Proof.Machine
end

