-- ==== Sys2Proof/Laws/KeptLanding.lean ====
section
/-! SUPPORT. What no command changes, and the form of memory: lemmas of Landing. -/
namespace Sys2Proof.Machine

set_option linter.unusedSimpArgs false
set_option linter.unusedTactic false
set_option linter.unnecessarySeqFocus false
set_option linter.unreachableTactic false
set_option linter.tactic.unusedName false

theorem execFillTimeout_ok (id : Nat) (s : State) : ∃ t, (execFillTimeout id s) = .next t ∧ t.kept3 = s.kept3 ∧ (s.memWf →
    t.memWf) := by
  unfold execFillTimeout
  (repeat' split) <;> exact ⟨_, rfl, by simp only [↓State.kept3_of (State.bump_kept _ _ _ _ _), ↓State.kept3_of
      (State.irq_kept _ _), ↓State.kept3_of (State.raiseHub_kept _ _ _ _ _ _), ↓State.kept3_of (State.abandonFill_kept _ _
      _), ↓State.settle_kept3], fun hm => by simp only [↓State.memWf_of (State.bump_kept _ _ _ _ _), ↓State.memWf_of
      (State.irq_kept _ _), ↓State.memWf_of (State.raiseHub_kept _ _ _ _ _ _), ↓State.memWf_of (State.abandonFill_kept _ _
      _), State.settle_memWf, hm]⟩

theorem State.nextParked_kept (s t : State) (p : Request × Park) (h : s.nextParked = some (p, t)) : t.kept = s.kept := by
  unfold State.nextParked at h
  simp only [] at h
  split at h
  · cases h; rfl
  · split at h
    · obtain ⟨a, ha, he⟩ := Option.map_eq_some_iff.1 h
      cases he
      rfl
    · cases h

theorem State.victimRetry_kept (s : State) : (State.victimRetry s).kept = s.kept := by
  refine State.kept_foldl _ _ _ fun t m => ?_
  split
  · exact State.otherVictim_kept _ _
  · rfl

theorem execRequestRetry_ok (s : State) : ∃ t, (execRequestRetry s) = .next t ∧ t.kept3 = s.kept3 ∧ (s.memWf → t.memWf) := by
  have h1 : ∀ (l : List Nat) (u : State), (l.foldl (fun (t : State) id => t.recordMore id) u).kept3 = u.kept3 :=
    fun l u => State.kept3_foldl _ _ _ fun t e => State.recordMore_kept3 _ _
  have h2 : ∀ (l : List Nat) (u : State), u.memWf → (l.foldl (fun (t : State) id => t.recordMore id) u).memWf :=
    fun l u hu => State.memWf_foldl _ _ _ (fun t e h => State.recordMore_memWf _ _ h) hu
  unfold execRequestRetry
  extract_lets s1 s2
  have a1 : s2.kept3 = s.kept3 := (h1 _ _).trans (State.kept3_of (State.victimRetry_kept _))
  have a2 : s.memWf → s2.memWf := fun hm => h2 _ _ ((State.memWf_of (State.victimRetry_kept _)).2 hm)
  clear_value s2
  split
  · exact ⟨_, rfl, (State.settle_kept3 _).trans a1, fun hm => State.settle_memWf _ (a2 hm)⟩
  · rename_i p u he
    have a3 := State.nextParked_kept _ _ _ he
    refine ⟨_, rfl, ?_, fun hm => State.settle_memWf _ ?_⟩
    · refine (State.settle_kept3 _).trans (.trans (State.kept3_of (.trans (State.request_kept _ _) ?_)) a1)
      rw [State.kept_mk, State.kept_fold]
      exact a3
    · refine (State.memWf_of (.trans (State.request_kept _ _) ?_)).2 (a2 hm)
      rw [State.kept_mk, State.kept_fold]
      exact a3

theorem execDirtyHandOver_ok (e : Nat) (upset : List (Nat × Nat)) (s : State) : ∃ t, (execDirtyHandOver e upset s) = .next t
    ∧ t.kept3 = s.kept3 ∧ (s.memWf → t.memWf) := by
  unfold execDirtyHandOver
  grind [State.memWf, State.kept, State.kept3, State.upset_kept, State.handOverLine_kept3, State.handOverLine_memWf,
      State.checkTags_kept, State.settle_kept3, State.settle_memWf]

theorem execLndRangeInvalidate_ok (force : Bool) (cls slots : Nat) (s : State) : ∃ t, (execLndRangeInvalidate force cls slots
    s) = .next t ∧ t.kept3 = s.kept3 ∧ (s.memWf → t.memWf) := by
  unfold execLndRangeInvalidate
  (repeat' split) <;> exact ⟨_, rfl, by simp only [↓State.rangeStart_kept3], fun hm => by simp only [State.rangeStart_memWf,
      hm]⟩

theorem execLndRangePreload_ok (force : Bool) (cls slots : Nat) (s : State) : ∃ t, (execLndRangePreload force cls slots s) =
    .next t ∧ t.kept3 = s.kept3 ∧ (s.memWf → t.memWf) := by
  unfold execLndRangePreload
  (repeat' split) <;> exact ⟨_, rfl, by simp only [↓State.rangeStart_kept3], fun hm => by simp only [State.rangeStart_memWf,
      hm]⟩

theorem execLndRangePreloadLock_ok (force : Bool) (cls slots : Nat) (s : State) : ∃ t, (execLndRangePreloadLock force cls
    slots s) = .next t ∧ t.kept3 = s.kept3 ∧ (s.memWf → t.memWf) := by
  unfold execLndRangePreloadLock
  (repeat' split) <;> exact ⟨_, rfl, by simp only [↓State.rangeStart_kept3], fun hm => by simp only [State.rangeStart_memWf,
      hm]⟩

theorem execLndRangeUnlock_ok (force : Bool) (cls slots : Nat) (s : State) : ∃ t, (execLndRangeUnlock force cls slots s) =
    .next t ∧ t.kept3 = s.kept3 ∧ (s.memWf → t.memWf) := by
  unfold execLndRangeUnlock
  (repeat' split) <;> exact ⟨_, rfl, by simp only [↓State.rangeStart_kept3], fun hm => by simp only [State.rangeStart_memWf,
      hm]⟩

theorem execLndRangeClean_ok (force : Bool) (cls slots : Nat) (s : State) : ∃ t, (execLndRangeClean force cls slots s) =
    .next t ∧ t.kept3 = s.kept3 ∧ (s.memWf → t.memWf) := by
  unfold execLndRangeClean
  (repeat' split) <;> exact ⟨_, rfl, by simp only [↓State.rangeStart_kept3], fun hm => by simp only [State.rangeStart_memWf,
      hm]⟩

theorem execLndRangeScrub_ok (force : Bool) (cls slots : Nat) (s : State) : ∃ t, (execLndRangeScrub force cls slots s) =
    .next t ∧ t.kept3 = s.kept3 ∧ (s.memWf → t.memWf) := by
  unfold execLndRangeScrub
  (repeat' split) <;> exact ⟨_, rfl, by simp only [↓State.rangeStart_kept3], fun hm => by simp only [State.rangeStart_memWf,
      hm]⟩

theorem State.rangeAbort_kept3 (s : State) : (State.rangeAbort s).kept3 = s.kept3 := by
  unfold State.rangeAbort
  grind [State.kept3, State.kept, State.put_kept, State.endRange_kept3, State.settle_kept3]

theorem State.rangeAbort_memWf (s : State) (hm : s.memWf) : (State.rangeAbort s).memWf := by
  unfold State.rangeAbort
  grind [State.memWf, State.kept, State.put_kept, State.endRange_memWf, State.settle_memWf]

theorem execLndRangeAbort_ok (s : State) : ∃ t, (execLndRangeAbort s) = .next t ∧ t.kept3 = s.kept3 ∧ (s.memWf → t.memWf) :=
    by
  unfold execLndRangeAbort
  (repeat' split) <;> exact ⟨_, rfl, by simp only [↓State.rangeAbort_kept3], fun hm => by simp only [State.rangeAbort_memWf,
      hm]⟩

theorem execLndRangeDone_ok (s : State) : ∃ t, (execLndRangeDone s) = .next t ∧ t.kept3 = s.kept3 ∧ (s.memWf → t.memWf) := by
  unfold execLndRangeDone
  grind [State.memWf, State.kept, State.kept3, State.endRange_kept3, State.endRange_memWf, State.settle_kept3,
      State.settle_memWf]

theorem State.landingEnable_kept3 (s : State) (en : Bool) : (State.landingEnable s en).kept3 = s.kept3 := by
  unfold State.landingEnable
  grind [State.kept3, State.kept, State.put_kept, State.settle_kept3]

theorem State.landingEnable_memWf (s : State) (en : Bool) (hm : s.memWf) : (State.landingEnable s en).memWf := by
  unfold State.landingEnable
  grind [State.memWf, State.kept, State.put_kept, State.settle_memWf]

theorem execLndCtrlWrite_ok (en : Bool) (s : State) : ∃ t, (execLndCtrlWrite en s) = .next t ∧ t.kept3 = s.kept3 ∧ (s.memWf →
    t.memWf) := by
  unfold execLndCtrlWrite
  (repeat' split) <;> exact ⟨_, rfl, by simp only [↓State.landingEnable_kept3], fun hm => by simp only
      [State.landingEnable_memWf, hm]⟩

theorem State.cfgErr_kept (s : State) : (State.cfgErr s).kept = s.kept := by
  unfold State.cfgErr
  simp only [↓State.put_kept]

theorem State.retireWrite_kept3 (s : State) (w : Word) : (State.retireWrite s w).kept3 = s.kept3 := by
  unfold State.retireWrite
  grind [State.kept3, State.kept, State.put_kept, State.retireSweep_kept, State.settle_kept3, State.cfgErr_kept]

theorem State.retireWrite_memWf (s : State) (w : Word) (hm : s.memWf) : (State.retireWrite s w).memWf := by
  unfold State.retireWrite
  grind [State.memWf, State.kept, State.put_kept, State.retireSweep_kept, State.settle_memWf, State.cfgErr_kept]

theorem execLndWayRetireWrite_ok (w : Word) (s : State) : ∃ t, (execLndWayRetireWrite w s) = .next t ∧ t.kept3 = s.kept3 ∧
    (s.memWf → t.memWf) := by
  unfold execLndWayRetireWrite
  (repeat' split) <;> exact ⟨_, rfl, by simp only [↓State.retireWrite_kept3], fun hm => by simp only
      [State.retireWrite_memWf, hm]⟩

theorem State.landingCfg_kept3 (s : State) (limits : Bool) (w : Word) : (State.landingCfg s limits w).kept3 = s.kept3 := by
  unfold State.landingCfg
  grind [State.kept3, State.kept, State.put_kept, State.settle_kept3, State.cfgErr_kept]

theorem State.landingCfg_memWf (s : State) (limits : Bool) (w : Word) (hm : s.memWf) : (State.landingCfg s limits w).memWf :=
    by
  unfold State.landingCfg
  grind [State.memWf, State.kept, State.put_kept, State.settle_memWf, State.cfgErr_kept]

theorem execLndCfgWrite_ok (limits : Bool) (w : Word) (s : State) : ∃ t, (execLndCfgWrite limits w s) = .next t ∧ t.kept3 =
    s.kept3 ∧ (s.memWf → t.memWf) := by
  unfold execLndCfgWrite
  (repeat' split) <;> exact ⟨_, rfl, by simp only [↓State.landingCfg_kept3], fun hm => by simp only [State.landingCfg_memWf,
      hm]⟩

theorem execWindowCommitPoint_ok (s : State) : ∃ t, (execWindowCommitPoint s) = .next t ∧ t.kept3 = s.kept3 ∧ (s.memWf →
    t.memWf) := by
  have h1 : ∀ (l : List WinReq) (u : State), (l.foldl (fun (t : State) r => t.winServe r) u).kept3 = u.kept3 :=
    fun l u => State.kept3_foldl _ _ _ fun t e => State.winServe_kept3 _ _
  have h2 : ∀ (l : List WinReq) (u : State), u.memWf → (l.foldl (fun (t : State) r => t.winServe r) u).memWf :=
    fun l u hu => State.memWf_foldl _ _ _ (fun t e h => State.winServe_memWf _ _ h) hu
  unfold execWindowCommitPoint
  split
  · refine ⟨_, rfl, ?_, fun hm => ?_⟩
    · rw [State.settle_kept3, h1, State.kept3_mk, State.kept3_fold]
      exact State.kept3_of (State.commitWindow_kept _)
    · refine State.settle_memWf _ (h2 _ _ ?_)
      rw [State.memWf_mk, State.memWf_fold]
      exact (State.memWf_of (State.commitWindow_kept _)).2 hm
  · exact ⟨_, rfl, rfl, id⟩

theorem execBar2Request_ok (r : WinReq) (upset : List (Nat × Nat)) (s : State) : ∃ t, (execBar2Request r upset s) = .next t ∧
    t.kept3 = s.kept3 ∧ (s.memWf → t.memWf) := by
  unfold execBar2Request
  grind [State.memWf, State.kept, State.kept3, State.upset_kept, State.winServe_kept3, State.winServe_memWf]

theorem execPatrolBurst_ok (upset : List (Nat × Nat)) (s : State) : ∃ t, (execPatrolBurst upset s) = .next t ∧ t.kept3 =
    s.kept3 ∧ (s.memWf → t.memWf) := by
  unfold execPatrolBurst
  grind [State.memWf, State.kept, State.kept3, State.upset_kept, State.scrub_kept3, State.scrub_memWf, State.lapWarn_kept,
      State.patrolNext_kept]

theorem execMiuInjectArm_kept (w : Word) (s : State) : ∃ t, (execMiuInjectArm w s) = .next t ∧ t.kept = s.kept := by
  unfold execMiuInjectArm
  (repeat' split) <;> exact ⟨_, rfl, by simp only [↓State.injectWrite_kept]⟩

end Sys2Proof.Machine
end

