-- ==== Sys2Proof/Laws/KeptKerfField.lean ====
section
/-! SUPPORT. What no command changes, and the form of memory: lemmas of KerfField. -/
namespace Sys2Proof.Machine

set_option linter.unusedSimpArgs false
set_option linter.unusedTactic false
set_option linter.unnecessarySeqFocus false
set_option linter.unreachableTactic false
set_option linter.tactic.unusedName false

theorem State.dieTakes_kept (s : State) (d : Die) (m : Msg) (act : State → State) (h : ∀ t, (act t).kept = t.kept) :
    (s.dieTakes d m act).kept = s.kept := by
  unfold State.dieTakes
  split
  · exact (h _).trans (State.received_kept _ _ _ _)
  · rfl

theorem State.dieActs_kept (s : State) (d : Die) (m : Msg) (act : State → State) (h : ∀ t, (act t).kept = t.kept) :
    (s.dieActs d m act).kept = s.kept := by
  unfold State.dieActs
  split
  · exact State.dieTakes_kept _ _ _ _ h
  · rfl

theorem State.heartbeat_kept (s : State) (d : Die) (m : Msg) : (State.heartbeat s d m).kept = s.kept := by
  unfold State.heartbeat
  grind [State.kept_mk, State.send_kept, State.setDie_kept, State.raiseDie_kept]

theorem execHeartbeat_kept (d : Die) (m : Msg) (s : State) : ∃ t, (execHeartbeat d m s) = .next t ∧ t.kept = s.kept := by
  unfold execHeartbeat
  exact ⟨_, rfl, State.dieTakes_kept _ _ _ _ fun t => by simp only [↓State.heartbeat_kept]⟩

theorem execHeartbeatTimeout_kept (d : Die) (s : State) : ∃ t, (execHeartbeatTimeout d s) = .next t ∧ t.kept = s.kept := by
  unfold execHeartbeatTimeout
  (repeat' split) <;> exact ⟨_, rfl, by simp only [↓State.kept_mk, ↓State.kept_fold, ↓State.put_kept, ↓State.enterSafe_kept]⟩

theorem execClockHoldoverEnd_kept (d : Die) (s : State) : ∃ t, (execClockHoldoverEnd d s) = .next t ∧ t.kept = s.kept := by
  unfold execClockHoldoverEnd
  (repeat' split) <;> exact ⟨_, rfl, by simp only [↓State.clockLost_kept]⟩

theorem State.haltAnswer_kept (s : State) (d : Die) (a : HaltAction) : (State.haltAnswer s d a).kept = s.kept := by
  unfold State.haltAnswer
  simp only [↓State.send_kept]

theorem execHaltSafe_kept (d : Die) (m : Msg) (s : State) : ∃ t, (execHaltSafe d m s) = .next t ∧ t.kept = s.kept := by
  unfold execHaltSafe
  exact ⟨_, rfl, State.dieTakes_kept _ _ _ _ fun t => by simp only [↓State.enterSafe_kept, ↓State.haltAnswer_kept]⟩

theorem State.haltRelease_kept (s : State) (d : Die) : (State.haltRelease s d).kept = s.kept := by
  unfold State.haltRelease
  (repeat' split) <;> simp_all [↓State.kept_mk, ↓State.kept_fold, ↓State.kept_ite, ↓State.setDie_kept, ↓State.setRec_kept,
      ↓State.release_kept, State.kept_foldl]

theorem execHaltRelease_kept (d : Die) (m : Msg) (s : State) : ∃ t, (execHaltRelease d m s) = .next t ∧ t.kept = s.kept := by
  unfold execHaltRelease
  exact ⟨_, rfl, State.dieTakes_kept _ _ _ _ fun t => by simp only [↓State.haltAnswer_kept, ↓State.haltRelease_kept]⟩

theorem State.stopBay_kept (s : State) (d : Die) (mask : Nat) : (State.stopBay s d mask).kept = s.kept := by
  unfold State.stopBay
  (repeat' split) <;> simp_all [↓State.endBayItems_kept, ↓State.bayStops_kept, State.kept_foldl]

theorem execHaltStopBay_kept (d : Die) (m : Msg) (s : State) : ∃ t, (execHaltStopBay d m s) = .next t ∧ t.kept = s.kept := by
  unfold execHaltStopBay
  exact ⟨_, rfl, State.dieTakes_kept _ _ _ _ fun t => by simp only [↓State.haltAnswer_kept, ↓State.stopBay_kept]⟩

theorem State.blocksReset_kept (s : State) (d : Die) : (State.blocksReset s d).kept = s.kept := by
  unfold State.blocksReset
  (repeat' split) <;> simp only [↓State.kept_mk, ↓State.kept_fold, ↓State.setYrd_kept]

theorem State.dieReset_kept (s : State) (d : Die) (powerOn : Bool) : (State.dieReset s d powerOn).kept = s.kept := by
  unfold State.dieReset
  (repeat' split) <;> simp only [↓State.kept_mk, ↓State.kept_fold, ↓State.put_kept, ↓State.setDie_kept,
      ↓State.blocksReset_kept]

theorem execHaltResetDie_kept (d : Die) (m : Msg) (s : State) : ∃ t, (execHaltResetDie d m s) = .next t ∧ t.kept = s.kept :=
    by
  unfold execHaltResetDie
  exact ⟨_, rfl, State.dieTakes_kept _ _ _ _ fun t => by simp only [↓State.enterSafe_kept, ↓State.haltAnswer_kept,
      ↓State.dieReset_kept]⟩

theorem State.fwLoad_kept (s : State) (d : Die) (m : Msg) : (State.fwLoad s d m).kept = s.kept := by
  unfold State.fwLoad
  grind [State.kept_mk, State.setDie_kept]

theorem execFwLoad_kept (d : Die) (m : Msg) (s : State) : ∃ t, (execFwLoad d m s) = .next t ∧ t.kept = s.kept := by
  unfold execFwLoad
  exact ⟨_, rfl, State.dieTakes_kept _ _ _ _ fun t => by simp only [↓State.fwLoad_kept]⟩

theorem execRegRead_kept (d : Die) (m : Msg) (s : State) : ∃ t, (execRegRead d m s) = .next t ∧ t.kept = s.kept := by
  unfold execRegRead
  exact ⟨_, rfl, State.dieTakes_kept _ _ _ _ fun t => by simp only [↓State.send_kept]⟩

theorem execRegWrite_kept (d : Die) (m : Msg) (s : State) : ∃ t, (execRegWrite d m s) = .next t ∧ t.kept = s.kept := by
  unfold execRegWrite
  exact ⟨_, rfl, State.dieTakes_kept _ _ _ _ fun t => by simp only [↓State.send_kept, ↓State.fieldWrite_kept]⟩

theorem State.forgetItem_kept (s : State) (d : Die) (i : Nat) : (State.forgetItem s d i).kept = s.kept := by
  unfold State.forgetItem
  (repeat' split) <;> simp_all [↓State.setYrd_kept, ↓State.setCru_kept, ↓State.setRec_kept, ↓State.setLat_kept,
      ↓State.setOsv_kept, State.kept_foldl]

theorem State.queueReset_kept (s : State) (d : Die) (m : Msg) : (State.queueReset s d m).kept = s.kept := by
  have h1 : ∀ (l : List DieItem) (u : State), (l.foldl (fun (t : State) i => (t.endItem d i.item .dropped).forgetItem d i.item) u).kept = u.kept :=
    fun l u => State.kept_foldl _ _ _ fun t i => by rw [State.forgetItem_kept, State.endItem_kept]
  unfold State.queueReset
  dsimp only
  split
  · exact State.send_kept _ _ _ _
  · split
    · rfl
    · rw [State.answerResets_kept, State.setDie_kept, h1]

theorem execQueueReset_kept (d : Die) (m : Msg) (s : State) : ∃ t, (execQueueReset d m s) = .next t ∧ t.kept = s.kept := by
  unfold execQueueReset
  exact ⟨_, rfl, State.dieActs_kept _ _ _ _ fun t => by simp only [↓State.queueReset_kept]⟩

theorem State.workRefused_kept (s : State) (d : Die) (h : WorkHead) : (State.workRefused s d h).kept = s.kept := by
  unfold State.workRefused
  simp only [↓State.send_kept]

theorem State.workTake_kept (s : State) (d : Die) (m : Msg) (k : WorkKind) (act : WorkHead → State → State) (h : ∀ w t, (act
    w t).kept = t.kept) : (s.workTake d m k act).kept = s.kept := by
  unfold State.workTake
  extract_lets w
  split
  · rfl
  · refine State.dieActs_kept _ _ _ _ fun t => ?_
    extract_lets other i
    split
    · exact State.workRefused_kept _ _ _
    · exact (h _ _).trans (State.setDie_kept _ _ _)

theorem State.class0Work_kept (s : State) (b : Bay) (cls : Nat) : (State.class0Work s b cls).kept = s.kept := by
  unfold State.class0Work
  grind [State.kept_mk, State.cruInterrupt_kept]

theorem State.bayTake_kept (s : State) (d : Die) (m : Msg) (k : WorkKind) (act : Bay → WorkHead → State → State) (h : ∀ b w
    t, (act b w t).kept = t.kept) : (s.bayTake d m k act).kept = s.kept := by
  exact State.workTake_kept _ _ _ _ _ fun w t => by
    split
    · exact (h _ _ _).trans (State.class0Work_kept _ _ _)
    · rfl

theorem State.layerTrigger_kept (s : State) (b : Bay) (layer : Nat) : (State.layerTrigger s b layer).kept = s.kept := by
  unfold State.layerTrigger
  grind [State.kept_mk, State.cruRaise_kept]

theorem State.askLog_kept (s : State) (b : Bay) (l : LogAsm) : (State.askLog s b l).kept = s.kept := by
  unfold State.askLog
  simp only [↓State.setLat_kept]

theorem execWorkRead_kept (d : Die) (m : Msg) (s : State) : ∃ t, (execWorkRead d m s) = .next t ∧ t.kept = s.kept := by
  unfold execWorkRead
  exact ⟨_, rfl, State.bayTake_kept _ _ _ _ _ fun b w t => by simp only [↓State.layerTrigger_kept, ↓State.askLog_kept]⟩

theorem execWorkVerify_kept (d : Die) (m : Msg) (s : State) : ∃ t, (execWorkVerify d m s) = .next t ∧ t.kept = s.kept := by
  unfold execWorkVerify
  exact ⟨_, rfl, State.bayTake_kept _ _ _ _ _ fun b w t => by simp only [↓State.layerTrigger_kept, ↓State.askLog_kept]⟩

theorem State.recordTake_kept (s : State) (b : Bay) (m : Msg) (h : WorkHead) : (State.recordTake s b m h).kept = s.kept := by
  unfold State.recordTake
  grind [State.kept_mk, State.endItem_kept, State.setRec_kept, State.layerTrigger_kept]

theorem execWorkRecord_kept (d : Die) (m : Msg) (s : State) : ∃ t, (execWorkRecord d m s) = .next t ∧ t.kept = s.kept := by
  unfold execWorkRecord
  exact ⟨_, rfl, State.bayTake_kept _ _ _ _ _ fun b w t => by simp only [↓State.kept_mk, ↓State.kept_fold, ↓State.kept_ite,
      ↓State.kept_fst_ite, ↓State.recordTake_kept]⟩

theorem execWorkSeek_kept (d : Die) (m : Msg) (s : State) : ∃ t, (execWorkSeek d m s) = .next t ∧ t.kept = s.kept := by
  unfold execWorkSeek
  exact ⟨_, rfl, State.bayTake_kept _ _ _ _ _ fun b w t => by simp only [↓State.moveRequest_kept, ↓State.layerTrigger_kept]⟩

theorem State.mountWork_kept (s : State) (b : Bay) (i : Nat) : (State.mountWork s b i).kept = s.kept := by
  unfold State.mountWork
  grind [State.kept_mk, State.put_kept, State.endItem_kept, State.setMounted_kept, State.setSpn_kept, State.spnRun_kept,
      State.setRec_kept, State.setOsv_kept, State.osvOff_kept]

theorem execWorkMount_kept (d : Die) (m : Msg) (s : State) : ∃ t, (execWorkMount d m s) = .next t ∧ t.kept = s.kept := by
  unfold execWorkMount
  exact ⟨_, rfl, State.bayTake_kept _ _ _ _ _ fun b w t => by simp only [↓State.mountWork_kept]⟩

theorem State.unmountOver_kept (s : State) (b : Bay) : (State.unmountOver s b).kept = s.kept := by
  unfold State.unmountOver
  grind [State.kept_mk, State.endItem_kept]

theorem State.unmountTake_kept (s : State) (b : Bay) : (State.unmountTake s b).kept = s.kept := by
  unfold State.unmountTake
  grind [State.kept_mk, State.put_kept, State.setMounted_kept, State.sfeHold_kept, State.spnStop_kept, State.itemBegun_kept,
      State.cruAbort_kept, State.recClear_kept, State.latHold_kept, State.setOsv_kept, State.osvOff_kept,
      State.unmountOver_kept]

theorem execWorkUnmount_kept (d : Die) (m : Msg) (s : State) : ∃ t, (execWorkUnmount d m s) = .next t ∧ t.kept = s.kept := by
  unfold execWorkUnmount
  exact ⟨_, rfl, State.bayTake_kept _ _ _ _ _ fun b w t => by simp only [↓State.unmountTake_kept]⟩

theorem execPwmPeriod_kept (b : Bay) (shunts : Vector Int 3) (vbr : Nat) (cross : Option Nat) (s : State) : ∃ t,
    (execPwmPeriod b shunts vbr cross s) = .next t ∧ t.kept = s.kept := by
  unfold execPwmPeriod
  (repeat' split) <;> exact ⟨_, rfl, by simp only [↓State.pwmPeriod_kept, ↓State.unmountTake_kept]⟩

theorem execShortEnd_kept (b : Bay) (vbr : Nat) (s : State) : ∃ t, (execShortEnd b vbr s) = .next t ∧ t.kept = s.kept := by
  unfold execShortEnd
  (repeat' split) <;> exact ⟨_, rfl, by simp only [↓State.shortEnd_kept, ↓State.unmountOver_kept]⟩

theorem execWorkTransfer_kept (d : Die) (m : Msg) (s : State) : ∃ t, (execWorkTransfer d m s) = .next t ∧ t.kept = s.kept :=
    by
  unfold execWorkTransfer
  exact ⟨_, rfl, State.workTake_kept _ _ _ _ _ fun w t => by grind [State.kept_mk, State.endItem_kept, State.setYrd_kept,
      State.yrdNext_kept]⟩

theorem execWorkCruise_kept (d : Die) (m : Msg) (s : State) : ∃ t, (execWorkCruise d m s) = .next t ∧ t.kept = s.kept := by
  unfold execWorkCruise
  exact ⟨_, rfl, State.bayTake_kept _ _ _ _ _ fun b w t => by simp only [↓State.setCru_kept, ↓State.cruRaise_kept]⟩

theorem State.recordData_kept (s : State) (d : Die) (m : Msg) : (State.recordData s d m).kept = s.kept := by
  unfold State.recordData
  grind [State.kept_mk, State.setRec_kept, State.refusedAtDie_kept]

theorem execRecordData_kept (d : Die) (m : Msg) (s : State) : ∃ t, (execRecordData d m s) = .next t ∧ t.kept = s.kept := by
  unfold execRecordData
  exact ⟨_, rfl, State.dieActs_kept _ _ _ _ fun t => by simp only [↓State.recordData_kept]⟩

end Sys2Proof.Machine
end

