-- ==== Sys2Proof/Laws/KeptKerfLink.lean ====
section
/-! SUPPORT. What no command changes, and the form of memory: lemmas of KerfLink. -/
namespace Sys2Proof.Machine

set_option linter.unusedSimpArgs false
set_option linter.unusedTactic false
set_option linter.unnecessarySeqFocus false
set_option linter.unreachableTactic false
set_option linter.tactic.unusedName false

theorem execFlitReceive_ok (d : Die) (at_ : Side) (num : Nat) (flit : Flit) (cls : KClass) (s : State) : ∃ t,
    (execFlitReceive d at_ num flit cls s) = .next t ∧ t.kept3 = s.kept3 ∧ (s.memWf → t.memWf) := by
  unfold execFlitReceive
  (repeat' split) <;> exact ⟨_, rfl, by simp only [↓State.flitIn_kept3], fun hm => by simp only [State.flitIn_memWf, hm]⟩

theorem State.linkWordTaken_kept (s : State) (d : Die) (x : Side) (type : Nat) : (State.linkWordTaken s d x type).kept =
    s.kept := by
  unfold State.linkWordTaken
  grind [State.kept_mk, State.received_kept]

theorem execLinkNakReceived_kept (d : Die) (at_ : Side) (named : Nat) (s : State) : ∃ t, (execLinkNakReceived d at_ named s)
    = .next t ∧ t.kept = s.kept := by
  unfold execLinkNakReceived
  (repeat' split) <;> exact ⟨_, rfl, by simp only [↓State.nakSeen_kept, ↓State.linkWordTaken_kept]⟩

theorem execCreditReceived_kept (d : Die) (at_ : Side) (ack : Nat) (units : Vector Nat 5) (s : State) : ∃ t,
    (execCreditReceived d at_ ack units s) = .next t ∧ t.kept = s.kept := by
  unfold execCreditReceived
  (repeat' split) <;> exact ⟨_, rfl, by simp only [↓State.creditSeen_kept, ↓State.linkWordTaken_kept]⟩

theorem execContinuationTimeout_ok (d : Die) (at_ : Side) (k : KClass) (s : State) : ∃ t, (execContinuationTimeout d at_ k s)
    = .next t ∧ t.kept3 = s.kept3 ∧ (s.memWf → t.memWf) := by
  unfold execContinuationTimeout
  (repeat' split) <;> exact ⟨_, rfl, by simp only [↓State.contTimeout_kept3], fun hm => by simp only
      [State.contTimeout_memWf, hm]⟩

theorem State.portUp_kept (s : State) (d : Die) (lanes : Nat) : (State.portUp s d lanes).kept = s.kept := by
  unfold State.portUp
  grind [State.kept_mk, State.put_kept, State.setDie_kept, State.epEvt_kept, State.raiseHub_kept, State.setPort_kept]

theorem State.trainPort_kept (s : State) (d : Die) : (State.trainPort s d).kept = s.kept := by
  unfold State.trainPort
  simp only [↓State.epEvt_kept, ↓State.setPort_kept]

theorem execFlitSlotTransmit_kept (d : Die) (from_ : Side) (s : State) : ∃ t, (execFlitSlotTransmit d from_ s) = .next t ∧
    t.kept = s.kept := by
  unfold execFlitSlotTransmit
  (repeat' split) <;> exact ⟨_, rfl, by simp only [↓State.flitSlot_kept]⟩

theorem execHeartbeatSend_kept (s : State) : ∃ t, (execHeartbeatSend s) = .next t ∧ t.kept = s.kept := by
  unfold execHeartbeatSend
  (repeat' split) <;> exact ⟨_, rfl, by simp [↓State.kept_ite, ↓State.send_kept, ↓State.setPort_kept, State.kept_foldl]⟩

theorem execHeartbeatEcho_ok (d : Die) (m : Msg) (s : State) : ∃ t, (execHeartbeatEcho d m s) = .next t ∧ t.kept3 = s.kept3 ∧
    (s.memWf → t.memWf) := by
  unfold execHeartbeatEcho
  (repeat' split) <;> exact ⟨_, rfl, by simp only [↓State.kept3_of (State.received_kept _ _ _ _), ↓State.settle_kept3,
      ↓State.kept3_of (State.setPort_kept _ _ _)], fun hm => by simp only [↓State.memWf_of (State.received_kept _ _ _ _),
      State.settle_memWf, ↓State.memWf_of (State.setPort_kept _ _ _), hm]⟩

theorem execEchoLost_ok (d : Die) (s : State) : ∃ t, (execEchoLost d s) = .next t ∧ t.kept3 = s.kept3 ∧ (s.memWf → t.memWf)
    := by
  unfold execEchoLost
  (repeat' split) <;> exact ⟨_, rfl, by simp only [↓State.kept3_of (State.put_kept _ _ _ _ _ _), ↓State.kept3_of
      (State.setPort_kept _ _ _), ↓State.portDown_kept3], fun hm => by simp only [↓State.memWf_of (State.put_kept _ _ _ _ _
      _), ↓State.memWf_of (State.setPort_kept _ _ _), State.portDown_memWf, hm]⟩

theorem execPortDown_ok (d : Die) (signal : Bool) (s : State) : ∃ t, (execPortDown d signal s) = .next t ∧ t.kept3 = s.kept3
    ∧ (s.memWf → t.memWf) := by
  unfold execPortDown
  (repeat' split) <;> exact ⟨_, rfl, by simp only [↓State.kept3_of (State.setPort_kept _ _ _), ↓State.portDown_kept3], fun hm
      => by simp only [↓State.memWf_of (State.setPort_kept _ _ _), State.portDown_memWf, hm]⟩

theorem execSignalRise_kept (d : Die) (s : State) : ∃ t, (execSignalRise d s) = .next t ∧ t.kept = s.kept := by
  unfold execSignalRise
  (repeat' split) <;> exact ⟨_, rfl, by simp [↓State.kept_ite, ↓State.setDie_kept, ↓State.setPort_kept,
      ↓State.trainPort_kept]⟩

theorem State.sendAgain_kept3 (s : State) (d : Die) (a : Awaiting) (keep : Port → Awaiting → Port) : (State.sendAgain s d a
    keep).kept3 = s.kept3 := by
  unfold State.sendAgain
  grind [State.kept3, State.kept, State.send_kept, State.setPort_kept, State.portDown_kept3]

theorem State.sendAgain_memWf (s : State) (d : Die) (a : Awaiting) (keep : Port → Awaiting → Port) (hm : s.memWf) :
    (State.sendAgain s d a keep).memWf := by
  unfold State.sendAgain
  grind [State.memWf, State.kept, State.send_kept, State.setPort_kept, State.portDown_memWf]

theorem execHaltResend_ok (d : Die) (s : State) : ∃ t, (execHaltResend d s) = .next t ∧ t.kept3 = s.kept3 ∧ (s.memWf →
    t.memWf) := by
  unfold execHaltResend
  (repeat' split) <;> exact ⟨_, rfl, by simp only [↓State.sendAgain_kept3], fun hm => by simp only [State.sendAgain_memWf,
      hm]⟩

theorem execQueueResetResend_ok (d : Die) (s : State) : ∃ t, (execQueueResetResend d s) = .next t ∧ t.kept3 = s.kept3 ∧
    (s.memWf → t.memWf) := by
  unfold execQueueResetResend
  (repeat' split) <;> exact ⟨_, rfl, by simp only [↓State.sendAgain_kept3], fun hm => by simp only [State.sendAgain_memWf,
      hm]⟩

theorem execTxctlPush_kept (d : Die) (w : Word) (s : State) : ∃ t, (execTxctlPush d w s) = .next t ∧ t.kept = s.kept := by
  unfold execTxctlPush
  (repeat' split) <;> exact ⟨_, rfl, by simp only [↓State.txctlWrite_kept]⟩

theorem execRxctlPop_kept (d : Die) (w : Word) (s : State) : ∃ t, (execRxctlPop d w s) = .next t ∧ t.kept = s.kept := by
  unfold execRxctlPop
  (repeat' split) <;> exact ⟨_, rfl, by simp only [↓State.rxctlWrite_kept]⟩

end Sys2Proof.Machine
end

