-- ==== Sys2Proof/Laws/KeptPageOps.lean ====
section
/-! SUPPORT. What no command changes, and the form of memory: lemmas of PageOps. -/
namespace Sys2Proof.Machine

set_option linter.unusedSimpArgs false
set_option linter.unusedTactic false
set_option linter.unnecessarySeqFocus false
set_option linter.unreachableTactic false
set_option linter.tactic.unusedName false

theorem State.pageSeqNow_kept (s : State) (lid f : Nat) : (State.pageSeqNow s lid f).1.kept = s.kept := by
  unfold State.pageSeqNow
  simp only [↓State.kept_mk, ↓State.kept_fold]

theorem State.pageBytes_kept (s : State) (lid f : Nat) : (State.pageBytes s lid f).1.kept = s.kept := by
  unfold State.pageBytes
  simp only [↓State.pageSeqNow_kept]

theorem State.setFeature_kept (s : State) (fid f v : Nat) : (State.setFeature s fid f v).kept = s.kept := by
  unfold State.setFeature
  (repeat' split) <;> simp only [↓State.kept_mk, ↓State.kept_fold, ↓State.put_kept, ↓State.setFn_kept]

end Sys2Proof.Machine
end

