-- ==== Sys2Proof/Laws/KeptKerfHub.lean ====
section
/-! SUPPORT. What no command changes, and the form of memory: lemmas of KerfHub. -/
namespace Sys2Proof.Machine

set_option linter.unusedSimpArgs false
set_option linter.unusedTactic false
set_option linter.unnecessarySeqFocus false
set_option linter.unreachableTactic false
set_option linter.tactic.unusedName false

theorem State.sendHalt_kept (s : State) (d : Die) (a : HaltAction) : (State.sendHalt s d a).kept = s.kept := by
  unfold State.sendHalt
  simp only [↓State.send_kept, ↓State.setPort_kept]

theorem State.loadDie_kept (s : State) (d : Die) : (State.loadDie s d).kept = s.kept := by
  unfold State.loadDie
  (repeat' split) <;> simp_all [↓State.send_kept, State.kept_foldl]

theorem State.takeUpDie_kept (s : State) (d : Die) : (State.takeUpDie s d).kept = s.kept := by
  unfold State.takeUpDie
  grind [State.kept_mk, State.sendHalt_kept]

theorem State.loadEnded_kept (s : State) (d : Die) (value : Nat) : (State.loadEnded s d value).kept = s.kept := by
  unfold State.loadEnded
  (repeat' split) <;> simp_all [↓State.send_kept, ↓State.sendHalt_kept, ↓State.takeUpDie_kept, State.kept_foldl]

theorem execPortRetrainEnd_ok (d : Die) (lanes : Nat) (s : State) : ∃ t, (execPortRetrainEnd d lanes s) = .next t ∧ t.kept3 =
    s.kept3 ∧ (s.memWf → t.memWf) := by
  unfold execPortRetrainEnd
  grind [State.memWf, State.kept, State.kept3, State.setPort_kept, State.portDown_kept3, State.portDown_memWf,
      State.portUp_kept, State.takeUpDie_kept]

theorem execHaltDone_ok (d : Die) (m : Msg) (s : State) : ∃ t, (execHaltDone d m s) = .next t ∧ t.kept3 = s.kept3 ∧ (s.memWf
    → t.memWf) := by
  unfold execHaltDone
  grind [State.memWf, State.kept, State.kept3, State.received_kept, State.settle_kept3, State.settle_memWf,
      State.setPort_kept, State.loadDie_kept]

theorem execQueueResetDone_ok (d : Die) (m : Msg) (s : State) : ∃ t, (execQueueResetDone d m s) = .next t ∧ t.kept3 = s.kept3
    ∧ (s.memWf → t.memWf) := by
  unfold execQueueResetDone
  (repeat' split) <;> exact ⟨_, rfl, by simp only [↓State.kept3_of (State.received_kept _ _ _ _), ↓State.settle_kept3,
      ↓State.kept3_of (State.resetAnswered_kept _ _ _ _)], fun hm => by simp only [↓State.memWf_of (State.received_kept _ _ _
      _), State.settle_memWf, ↓State.memWf_of (State.resetAnswered_kept _ _ _ _), hm]⟩

theorem State.regsStep_kept (s : State) (id : Nat) : (State.regsStep s id).kept = s.kept := by
  unfold State.regsStep
  grind [State.kept_mk, State.send_kept, State.hostWrite_kept, State.setCmd_kept, State.finish_kept, State.signal_kept]

theorem State.saveGeometry_kept (s : State) : (State.saveGeometry s).kept = s.kept := by
  unfold State.saveGeometry
  (repeat' split) <;> simp only [↓State.kept_mk, ↓State.kept_fold]

theorem State.regAnswer_kept (s : State) (c : Cmd) (next status value : Nat) : (State.regAnswer s c next status value).kept =
    s.kept := by
  unfold State.regAnswer
  grind [State.kept_mk, State.hostWrite_kept, State.setCmd_kept, State.finish_kept, State.regsStep_kept,
      State.saveGeometry_kept]

theorem State.regData_kept (s : State) (d : Die) (m : Msg) : (State.regData s d m).kept = s.kept := by
  unfold State.regData
  grind [State.kept_mk, State.loadEnded_kept, State.regAnswer_kept]

theorem execRegData_ok (d : Die) (m : Msg) (s : State) : ∃ t, (execRegData d m s) = .next t ∧ t.kept3 = s.kept3 ∧ (s.memWf →
    t.memWf) := by
  unfold execRegData
  (repeat' split) <;> exact ⟨_, rfl, by simp only [↓State.kept3_of (State.received_kept _ _ _ _), ↓State.settle_kept3,
      ↓State.kept3_of (State.regData_kept _ _ _)], fun hm => by simp only [↓State.memWf_of (State.received_kept _ _ _ _),
      State.settle_memWf, ↓State.memWf_of (State.regData_kept _ _ _), hm]⟩

theorem State.relayFrac_kept (s : State) (frac : Nat) : (State.relayFrac s frac).kept = s.kept := by
  unfold State.relayFrac
  (repeat' split) <;> simp_all [↓State.kept_ite, ↓State.send_kept, State.kept_foldl]

theorem execEvent_kept (d : Die) (m : Msg) (s : State) : ∃ t, (execEvent d m s) = .next t ∧ t.kept = s.kept := by
  unfold execEvent
  (repeat' split) <;> exact ⟨_, rfl, by simp [↓State.kept_ite, ↓State.received_kept, ↓State.logEvent_kept,
      ↓State.relayFrac_kept]⟩

theorem State.workDone_kept3 (s : State) (d : Die) (m : Msg) : (State.workDone s d m).kept3 = s.kept3 := by
  unfold State.workDone
  grind [State.kept3, State.kept, State.closeItem_kept, State.itemEnded_kept3, State.itemDropped_kept]

theorem State.workDone_memWf (s : State) (d : Die) (m : Msg) (hm : s.memWf) : (State.workDone s d m).memWf := by
  unfold State.workDone
  grind [State.memWf, State.kept, State.closeItem_kept, State.itemEnded_memWf, State.itemDropped_kept]

theorem execWorkDone_ok (d : Die) (m : Msg) (s : State) : ∃ t, (execWorkDone d m s) = .next t ∧ t.kept3 = s.kept3 ∧ (s.memWf
    → t.memWf) := by
  unfold execWorkDone
  (repeat' split) <;> exact ⟨_, rfl, by simp only [↓State.kept3_of (State.received_kept _ _ _ _), ↓State.settle_kept3,
      ↓State.workDone_kept3], fun hm => by simp only [↓State.memWf_of (State.received_kept _ _ _ _), State.settle_memWf,
      State.workDone_memWf, hm]⟩

theorem execBoardData_ok (d : Die) (m : Msg) (s : State) : ∃ t, (execBoardData d m s) = .next t ∧ t.kept3 = s.kept3 ∧
    (s.memWf → t.memWf) := by
  unfold execBoardData
  grind [State.memWf, State.kept, State.kept3, State.received_kept, State.fillBoard_kept3, State.fillBoard_memWf]

theorem execBoardErased_kept (d : Die) (m : Msg) (s : State) : ∃ t, (execBoardErased d m s) = .next t ∧ t.kept = s.kept := by
  unfold execBoardErased
  (repeat' split) <;> exact ⟨_, rfl, by simp only [↓State.received_kept]⟩

theorem State.logDone_kept3 (s : State) (d : Die) (m : Msg) : (State.logDone s d m).kept3 = s.kept3 := by
  unfold State.logDone
  grind [State.kept3, State.kept, State.beginFill_kept3, State.fillOver_kept, State.refill_kept, State.scan_kept,
      State.scanLog_kept]

theorem State.logDone_memWf (s : State) (d : Die) (m : Msg) (hm : s.memWf) : (State.logDone s d m).memWf := by
  unfold State.logDone
  grind [State.memWf, State.kept, State.beginFill_memWf, State.fillOver_kept, State.refill_kept, State.scan_kept,
      State.scanLog_kept]

theorem execLogDone_ok (d : Die) (m : Msg) (s : State) : ∃ t, (execLogDone d m s) = .next t ∧ t.kept3 = s.kept3 ∧ (s.memWf →
    t.memWf) := by
  unfold execLogDone
  (repeat' split) <;> exact ⟨_, rfl, by simp only [↓State.kept3_of (State.received_kept _ _ _ _), ↓State.settle_kept3,
      ↓State.logDone_kept3], fun hm => by simp only [↓State.memWf_of (State.received_kept _ _ _ _), State.settle_memWf,
      State.logDone_memWf, hm]⟩

theorem execSystemBoardReceive_kept (d : Die) (m : Msg) (s : State) : ∃ t, (execSystemBoardReceive d m s) = .next t ∧ t.kept
    = s.kept := by
  unfold execSystemBoardReceive
  grind [State.kept_mk, State.received_kept, State.mapDisc_kept]

end Sys2Proof.Machine
end

