-- ==== Sys2Proof/Laws/KeptHicOps.lean ====
section
/-! SUPPORT. What no command changes, and the form of memory: lemmas of HicOps. -/
namespace Sys2Proof.Machine

set_option linter.unusedSimpArgs false
set_option linter.unusedTactic false
set_option linter.unnecessarySeqFocus false
set_option linter.unreachableTactic false
set_option linter.tactic.unusedName false

theorem State.hicClaim_kept (s : State) (c : Nat) : (State.hicClaim s c).1.kept = s.kept := by
  unfold State.hicClaim
  (repeat' split) <;> simp only [↓State.kept_mk, ↓State.kept_fold, ↓State.put_kept, ↓State.bump_kept]

theorem State.runPri_kept (s : State) (c : Nat) : (State.runPri s c).kept = s.kept := by
  unfold State.runPri
  simp only [↓State.put_kept]

theorem State.hicComplete_kept (s : State) (c n : Nat) : (State.hicComplete s c n).kept = s.kept := by
  unfold State.hicComplete
  (repeat' split) <;> simp only [↓State.kept_mk, ↓State.kept_fold, ↓State.bump_kept, ↓State.runPri_kept]

theorem State.hicInput_kept (s : State) (n : Nat) (level : Bool) : (State.hicInput s n level).kept = s.kept := by
  unfold State.hicInput
  (repeat' split) <;> simp_all [↓State.kept_mk, ↓State.kept_fold, ↓State.kept_ite, ↓State.hicEdge_kept]

theorem State.hicTrigger_kept (s : State) (n : Nat) : (State.hicTrigger s n).kept = s.kept := by
  unfold State.hicTrigger
  grind [State.kept_mk, State.irq_kept]

theorem State.hicConfig_kept (s : State) (n : Nat) (w : Word) : (State.hicConfig s n w).kept = s.kept := by
  unfold State.hicConfig
  (repeat' split) <;> simp_all [↓State.kept_mk, ↓State.kept_fold, ↓State.kept_ite, ↓State.put_kept]

theorem State.timerCheck_kept (s : State) (c : Nat) : (State.timerCheck s c).kept = s.kept := by
  simp only [State.timerCheck, State.kept_mk, State.kept_fold]

theorem State.hicDenied_kept (s : State) (rel : Nat) : (State.hicDenied s rel).kept = s.kept := by
  unfold State.hicDenied
  simp only [↓State.pevLog_kept]

theorem State.pageWrite_kept (s : State) (by_ c r : Nat) (w : Word) : (State.pageWrite s by_ c r w).kept = s.kept := by
  unfold State.pageWrite
  grind [State.kept_mk, State.put_kept, State.hicComplete_kept, State.timerCheck_kept, State.hicDenied_kept]

theorem State.hicWrite_kept (s : State) (by_ rel : Nat) (w : Word) : (State.hicWrite s by_ rel w).kept = s.kept := by
  unfold State.hicWrite
  grind [State.kept_mk, State.put_kept, State.hicTrigger_kept, State.hicConfig_kept, State.hicDenied_kept,
      State.pageWrite_kept]

theorem State.hicRelease_kept (s : State) (c : Nat) : (State.hicRelease s c).kept = s.kept := by
  unfold State.hicRelease
  (repeat' split) <;> simp_all [↓State.put_kept, ↓State.hicComplete_kept, ↓State.timerCheck_kept, State.kept_foldl]

end Sys2Proof.Machine
end

