-- ==== Sys2Proof/Laws/KeptSkdOps.lean ====
section
/-! SUPPORT. What no command changes, and the form of memory: lemmas of SkdOps. -/
namespace Sys2Proof.Machine

set_option linter.unusedSimpArgs false
set_option linter.unusedTactic false
set_option linter.unnecessarySeqFocus false
set_option linter.unreachableTactic false
set_option linter.tactic.unusedName false

theorem State.putDesc_kept (s : State) (c : Fin 32) (d : SkdDesc) : (State.putDesc s c d).kept = s.kept := by
  unfold State.putDesc
  (repeat' split) <;> simp_all [↓State.put_kept, State.kept_foldl]

theorem State.setSkd_kept (s : State) (c : Fin 32) (x : Skd) : (State.setSkd s c x).kept = s.kept := by
  unfold State.setSkd
  simp only [↓State.kept_mk, ↓State.kept_fold]

theorem State.putResidue_kept (s : State) (c : Fin 32) (n : Nat) : (State.putResidue s c n).kept = s.kept := by
  unfold State.putResidue
  simp only [↓State.put_kept]

theorem State.writeBack_kept3 (s : State) (c : Fin 32) (residue code : Nat) : (State.writeBack s c residue code).kept3 =
    s.kept3 := by
  unfold State.writeBack
  grind [State.kept3, State.kept, State.storeBytes_kept3]

theorem State.writeBack_memWf (s : State) (c : Fin 32) (residue code : Nat) (hm : s.memWf) : (State.writeBack s c residue
    code).memWf := by
  unfold State.writeBack
  grind [State.memWf, State.kept, State.storeBytes_memWf]

theorem State.chainEnd_kept (s : State) (c : Fin 32) (code : SkdCode) : (State.chainEnd s c code).kept = s.kept := by
  unfold State.chainEnd
  simp only [↓State.irq_kept, ↓State.setSkd_kept]

theorem State.abortEnd_kept3 (s : State) (c : Fin 32) : (State.abortEnd s c).kept3 = s.kept3 := by
  unfold State.abortEnd
  simp only [↓State.kept3_of (State.bump_kept _ _ _ _ _), ↓State.writeBack_kept3, ↓State.kept3_of (State.chainEnd_kept _ _
      _)]

theorem State.abortEnd_memWf (s : State) (c : Fin 32) (hm : s.memWf) : (State.abortEnd s c).memWf := by
  unfold State.abortEnd
  simp only [↓State.memWf_of (State.bump_kept _ _ _ _ _), State.writeBack_memWf, ↓State.memWf_of (State.chainEnd_kept _ _ _),
      hm]

theorem State.descError_kept3 (s : State) (c : Fin 32) : (State.descError s c).kept3 = s.kept3 := by
  unfold State.descError
  simp only [↓State.kept3_of (State.bump_kept _ _ _ _ _), ↓State.writeBack_kept3, ↓State.kept3_of (State.chainEnd_kept _ _
      _)]

theorem State.descError_memWf (s : State) (c : Fin 32) (hm : s.memWf) : (State.descError s c).memWf := by
  unfold State.descError
  simp only [↓State.memWf_of (State.bump_kept _ _ _ _ _), State.writeBack_memWf, ↓State.memWf_of (State.chainEnd_kept _ _ _),
      hm]

theorem State.descNext_kept (s : State) (c : Fin 32) : (State.descNext s c).kept = s.kept := by
  unfold State.descNext
  (repeat' split) <;> simp_all [↓State.kept_ite, ↓State.setSkd_kept, ↓State.chainEnd_kept]

theorem State.descDone_kept3 (s : State) (c : Fin 32) : (State.descDone s c).kept3 = s.kept3 := by
  unfold State.descDone
  (repeat' split) <;> simp_all [↓State.kept3_ite, ↓State.kept3_of (State.irq_kept _ _), ↓State.kept3_of
      (State.putResidue_kept _ _ _), ↓State.writeBack_kept3, ↓State.kept3_of (State.descNext_kept _ _)]

theorem State.descDone_memWf (s : State) (c : Fin 32) (hm : s.memWf) : (State.descDone s c).memWf := by
  unfold State.descDone
  simp only [↓State.memWf_mk, ↓State.memWf_fold, ↓State.memWf_of (State.irq_kept _ _), ↓State.memWf_of (State.putResidue_kept
      _ _ _), State.writeBack_memWf, ↓State.memWf_of (State.descNext_kept _ _), hm]
  (repeat' split) <;> simp only [↓State.memWf_mk, ↓State.memWf_fold, ↓State.memWf_of (State.irq_kept _ _), ↓State.memWf_of
      (State.putResidue_kept _ _ _), State.writeBack_memWf, ↓State.memWf_of (State.descNext_kept _ _), hm, ite_self]

theorem State.busError_kept3 (s : State) : (State.busError s).kept3 = s.kept3 := by
  unfold State.busError
  (repeat' split) <;> simp_all [↓State.kept3_mk, ↓State.kept3_fold, ↓State.kept3_ite, ↓State.kept3_of (State.put_kept _ _ _ _
      _ _), ↓State.kept3_of (State.bump_kept _ _ _ _ _), ↓State.kept3_of (State.fetch_kept _), ↓State.kept3_of
      (State.setSkd_kept _ _ _), ↓State.writeBack_kept3, State.kept3_foldl]

theorem State.busError_memWf (s : State) (hm : s.memWf) : (State.busError s).memWf := by
  unfold State.busError
  simp only [↓State.memWf_mk, ↓State.memWf_fold, ↓State.memWf_of (State.put_kept _ _ _ _ _ _), ↓State.memWf_of
      (State.bump_kept _ _ _ _ _), ↓State.memWf_of (State.fetch_kept _), ↓State.memWf_of (State.setSkd_kept _ _ _),
      State.writeBack_memWf, hm]
  (repeat' split) <;> (try refine State.memWf_foldl _ _ _ (fun t x hm => ?_) ?_) <;> (try dsimp only) <;> (repeat' split) <;>
      (try simp only [↓State.memWf_mk, ↓State.memWf_fold, ↓State.memWf_of (State.put_kept _ _ _ _ _ _), ↓State.memWf_of
      (State.bump_kept _ _ _ _ _), ↓State.memWf_of (State.fetch_kept _), ↓State.memWf_of (State.setSkd_kept _ _ _),
      State.writeBack_memWf, hm]) <;> grind [State.memWf, State.kept, State.put_kept, State.bump_kept, State.fetch_kept,
      State.setSkd_kept, State.writeBack_memWf]

theorem State.descLoaded_kept3 (s : State) (c : Fin 32) : (State.descLoaded s c).kept3 = s.kept3 := by
  unfold State.descLoaded
  (repeat' split) <;> simp_all [↓State.kept3_ite, ↓State.kept3_of (State.setSkd_kept _ _ _), ↓State.kept3_of
      (State.putResidue_kept _ _ _), ↓State.abortEnd_kept3, ↓State.descError_kept3]

theorem State.descLoaded_memWf (s : State) (c : Fin 32) (hm : s.memWf) : (State.descLoaded s c).memWf := by
  unfold State.descLoaded
  simp only [↓State.memWf_mk, ↓State.memWf_fold, ↓State.memWf_of (State.setSkd_kept _ _ _), ↓State.memWf_of
      (State.putResidue_kept _ _ _), State.abortEnd_memWf, State.descError_memWf, hm]
  (repeat' split) <;> simp only [↓State.memWf_mk, ↓State.memWf_fold, ↓State.memWf_of (State.setSkd_kept _ _ _),
      ↓State.memWf_of (State.putResidue_kept _ _ _), State.abortEnd_memWf, State.descError_memWf, hm, ite_self]

theorem State.skdStart_kept3 (s : State) (c : Fin 32) (resume : Bool) (core : Nat) : (State.skdStart s c resume core).kept3 =
    s.kept3 := by
  unfold State.skdStart
  (repeat' split) <;> simp_all [↓State.kept3_ite, ↓State.kept3_of (State.put_kept _ _ _ _ _ _), ↓State.kept3_of
      (State.setSkd_kept _ _ _), ↓State.descError_kept3, ↓State.kept3_of (State.descNext_kept _ _), ↓State.descLoaded_kept3]

theorem State.skdStart_memWf (s : State) (c : Fin 32) (resume : Bool) (core : Nat) (hm : s.memWf) : (State.skdStart s c
    resume core).memWf := by
  unfold State.skdStart
  simp only [↓State.memWf_mk, ↓State.memWf_fold, ↓State.memWf_of (State.put_kept _ _ _ _ _ _), ↓State.memWf_of
      (State.fetch_kept _), ↓State.memWf_of (State.setSkd_kept _ _ _), State.descError_memWf, ↓State.memWf_of
      (State.descNext_kept _ _), State.descLoaded_memWf, hm]
  (repeat' split) <;> simp only [↓State.memWf_mk, ↓State.memWf_fold, ↓State.memWf_of (State.put_kept _ _ _ _ _ _),
      ↓State.memWf_of (State.fetch_kept _), ↓State.memWf_of (State.setSkd_kept _ _ _), State.descError_memWf, ↓State.memWf_of
      (State.descNext_kept _ _), State.descLoaded_memWf, hm, ite_self]

theorem State.skdAbort_kept (s : State) (c : Fin 32) : (State.skdAbort s c).kept = s.kept := by
  unfold State.skdAbort
  grind [State.kept_mk, State.setSkd_kept]

end Sys2Proof.Machine
end

