-- ==== Sys2Proof/Laws/KeptHubRegs.lean ====
section
/-! SUPPORT. What no command changes, and the form of memory: lemmas of HubRegs. -/
namespace Sys2Proof.Machine

set_option linter.unusedSimpArgs false
set_option linter.unusedTactic false
set_option linter.unnecessarySeqFocus false
set_option linter.unreachableTactic false
set_option linter.tactic.unusedName false

theorem State.haltGo_kept (s : State) (f q : Nat) : (State.haltGo s f q).kept = s.kept := by
  unfold State.haltGo
  grind [State.kept_mk, State.put_kept, State.startCut_kept]

theorem State.haltWrite_kept (s : State) (f : Nat) (w : Word) : (State.haltWrite s f w).kept = s.kept := by
  unfold State.haltWrite
  grind [State.kept_mk, State.put_kept, State.haltGo_kept]

theorem State.mqWrite_kept (s : State) (f : Nat) (w : Word) : (State.mqWrite s f w).kept = s.kept := by
  unfold State.mqWrite
  (repeat' split) <;> simp_all [↓State.kept_mk, ↓State.kept_fold, ↓State.kept_ite, ↓State.put_kept, ↓State.startCut_kept,
      ↓State.cutsReady_kept]

theorem State.doorbellWrite_kept (s : State) (f rel : Nat) (w : Word) : (State.doorbellWrite s f rel w).kept = s.kept := by
  unfold State.doorbellWrite
  grind [State.kept_mk, State.tailWrite_kept, State.headWrite_kept]

theorem State.plainWrite_kept (s : State) (i : Init) (a : Nat) (k : Block) (l : Loc) (w : Word) : (State.plainWrite s i a k l
    w).kept = s.kept := by
  unfold State.plainWrite
  grind [State.kept_mk, State.writeWord_kept, State.pevLog_kept]

theorem State.qenWrite_kept (s : State) (i : Init) (a f rel : Nat) (l : Loc) (w : Word) : (State.qenWrite s i a f rel l
    w).kept = s.kept := by
  unfold State.qenWrite
  grind [State.kept_mk, State.haltWrite_kept, State.mqWrite_kept, State.plainWrite_kept]

theorem State.rangeWrite_kept3 (s : State) (w : Word) : (State.rangeWrite s w).kept3 = s.kept3 := by
  unfold State.rangeWrite
  grind [State.kept3, State.kept, State.put_kept, State.rangeStart_kept3, State.rangeAbort_kept3]

theorem State.rangeWrite_memWf (s : State) (w : Word) (hm : s.memWf) : (State.rangeWrite s w).memWf := by
  unfold State.rangeWrite
  grind [State.memWf, State.kept, State.put_kept, State.rangeStart_memWf, State.rangeAbort_memWf]

theorem State.lndWrite_kept3 (s : State) (i : Init) (a rel : Nat) (l : Loc) (w : Word) : (State.lndWrite s i a rel l w).kept3
    = s.kept3 := by
  unfold State.lndWrite
  grind [State.kept3, State.kept, State.put_kept, State.commitWrite_kept, State.landingEnable_kept3, State.retireWrite_kept3,
      State.landingCfg_kept3, State.plainWrite_kept, State.rangeWrite_kept3]

theorem State.lndWrite_memWf (s : State) (i : Init) (a rel : Nat) (l : Loc) (w : Word) (hm : s.memWf) : (State.lndWrite s i a
    rel l w).memWf := by
  unfold State.lndWrite
  grind [State.memWf, State.kept, State.put_kept, State.commitWrite_kept, State.landingEnable_memWf, State.retireWrite_memWf,
      State.landingCfg_memWf, State.plainWrite_kept, State.rangeWrite_memWf]

theorem State.sandboxWrite_kept3 (s : State) (i : Init) (a : Nat) (l : Loc) (w : Word) : (State.sandboxWrite s i a l w).kept3
    = s.kept3 := by
  unfold State.sandboxWrite
  grind [State.kept3, State.kept, State.setDomain_kept, State.hicRelease_kept, State.plainWrite_kept]

theorem State.sandboxWrite_memWf (s : State) (i : Init) (a : Nat) (l : Loc) (w : Word) (hm : s.memWf) : (State.sandboxWrite s
    i a l w).memWf := by
  unfold State.sandboxWrite
  dsimp only
  have h1 : (s.plainWrite i a .vlk l w).memWf := (State.memWf_of (State.plainWrite_kept _ _ _ _ _ _)).2 hm
  split
  · simp only [State.memWf_of (State.setDomain_kept _ _ _), State.memWf_of (State.hicRelease_kept _ _), h1]
  · rw [State.memWf_mk]
    refine filter_wf _ ?_
    rw [State.memWf_fold]
    simp only [State.memWf_of (State.setDomain_kept _ _ _), h1]
  · exact h1

theorem State.vlkWrite_kept3 (s : State) (i : Init) (a rel : Nat) (l : Loc) (w : Word) : (State.vlkWrite s i a rel l w).kept3
    = s.kept3 := by
  unfold State.vlkWrite
  grind [State.kept3, State.kept, State.put_kept, State.pevLog_kept, State.plainWrite_kept, State.sandboxWrite_kept3]

theorem State.vlkWrite_memWf (s : State) (i : Init) (a rel : Nat) (l : Loc) (w : Word) (hm : s.memWf) : (State.vlkWrite s i a
    rel l w).memWf := by
  unfold State.vlkWrite
  grind [State.memWf, State.kept, State.put_kept, State.pevLog_kept, State.plainWrite_kept, State.sandboxWrite_memWf]

theorem State.pwrWrite_kept (s : State) (i : Init) (a rel : Nat) (l : Loc) (w : Word) : (State.pwrWrite s i a rel l w).kept =
    s.kept := by
  unfold State.pwrWrite
  (repeat' split) <;> simp only [↓State.kept_mk, ↓State.kept_fold, ↓State.kept_ite, ↓State.kept_fst_ite, ↓State.keepOn_kept,
      ↓State.plainWrite_kept]

theorem State.krfWrite_kept (s : State) (i : Init) (a rel : Nat) (l : Loc) (w : Word) : (State.krfWrite s i a rel l w).kept =
    s.kept := by
  unfold State.krfWrite
  grind [State.kept_mk, State.txctlWrite_kept, State.rxctlWrite_kept, State.plainWrite_kept]

theorem State.skdCmdWrite_kept3 (s : State) (c : Fin 32) (core : Nat) (w : Word) : (State.skdCmdWrite s c core w).kept3 =
    s.kept3 := by
  unfold State.skdCmdWrite
  grind [State.kept3, State.kept, State.put_kept, State.skdStart_kept3, State.skdAbort_kept]

theorem State.skdCmdWrite_memWf (s : State) (c : Fin 32) (core : Nat) (w : Word) (hm : s.memWf) : (State.skdCmdWrite s c core
    w).memWf := by
  unfold State.skdCmdWrite
  grind [State.memWf, State.kept, State.put_kept, State.skdStart_memWf, State.skdAbort_kept]

theorem State.skdWrite_kept3 (s : State) (i : Init) (a rel : Nat) (l : Loc) (w : Word) : (State.skdWrite s i a rel l w).kept3
    = s.kept3 := by
  unfold State.skdWrite
  grind [State.kept3, State.kept, State.plainWrite_kept, State.skdCmdWrite_kept3]

theorem State.skdWrite_memWf (s : State) (i : Init) (a rel : Nat) (l : Loc) (w : Word) (hm : s.memWf) : (State.skdWrite s i a
    rel l w).memWf := by
  unfold State.skdWrite
  grind [State.memWf, State.kept, State.plainWrite_kept, State.skdCmdWrite_memWf]

theorem State.epWrite_kept (s : State) (i : Init) (a rel : Nat) (l : Loc) (w : Word) : (State.epWrite s i a rel l w).kept =
    s.kept := by
  unfold State.epWrite
  grind [State.kept_mk, State.put_kept, State.plainWrite_kept]

theorem State.hicBlockWrite_kept (s : State) (i : Init) (rel : Nat) (w : Word) : (State.hicBlockWrite s i rel w).kept =
    s.kept := by
  unfold State.hicBlockWrite
  grind [State.kept_mk, State.hicWrite_kept]

theorem State.hubWrite_kept3 (s : State) (i : Init) (a : Nat) (w : Word) : (State.hubWrite s i a w).kept3 = s.kept3 := by
  unfold State.hubWrite
  grind [State.kept3, State.kept, State.injectWrite_kept, State.doorbellWrite_kept, State.plainWrite_kept,
      State.qenWrite_kept, State.lndWrite_kept3, State.vlkWrite_kept3, State.pwrWrite_kept, State.krfWrite_kept,
      State.skdWrite_kept3, State.epWrite_kept, State.hicBlockWrite_kept]

theorem State.hubWrite_memWf (s : State) (i : Init) (a : Nat) (w : Word) (hm : s.memWf) : (State.hubWrite s i a w).memWf :=
    by
  unfold State.hubWrite
  grind [State.memWf, State.kept, State.injectWrite_kept, State.doorbellWrite_kept, State.plainWrite_kept,
      State.qenWrite_kept, State.lndWrite_memWf, State.vlkWrite_memWf, State.pwrWrite_kept, State.krfWrite_kept,
      State.skdWrite_memWf, State.epWrite_kept, State.hicBlockWrite_kept]

theorem State.hubLoad_kept (s : State) (i : Init) (a : Nat) : (State.hubLoad s i a).1.kept = s.kept := by
  unfold State.hubLoad
  grind [State.kept_mk, State.hicClaim_kept]

theorem State.coreStore_kept3 (s : State) (core a : Nat) (w : Word) : (State.coreStore s core a w).kept3 = s.kept3 := by
  unfold State.coreStore
  grind [State.kept3, State.kept, State.storeBytes_kept3, State.inject_kept, State.hubWrite_kept3]

theorem State.coreStore_memWf (s : State) (core a : Nat) (w : Word) (hm : s.memWf) : (State.coreStore s core a w).memWf := by
  unfold State.coreStore
  grind [State.memWf, State.kept, State.storeBytes_memWf, State.inject_kept, State.hubWrite_memWf]

theorem State.coreWrite_kept3 (s : State) (core a : Nat) (w : Word) : (State.coreWrite s core a w).kept3 = s.kept3 := by
  unfold State.coreWrite
  grind [State.kept3, State.kept, State.pevLog_kept, State.storeBytes_kept3, State.coreStore_kept3]

theorem State.coreWrite_memWf (s : State) (core a : Nat) (w : Word) (hm : s.memWf) : (State.coreWrite s core a w).memWf := by
  unfold State.coreWrite
  grind [State.memWf, State.kept, State.pevLog_kept, State.storeBytes_memWf, State.coreStore_memWf]

theorem execRegisterWrite_ok (d : Die) (core : Fin 8) (bay off : Nat) (w : Word) (s : State) : ∃ t, (execRegisterWrite d core
    bay off w s) = .next t ∧ t.kept3 = s.kept3 ∧ (s.memWf → t.memWf) := by
  unfold execRegisterWrite
  (repeat' split) <;> exact ⟨_, rfl, by simp only [↓State.kept3_mk, ↓State.kept3_fold, ↓State.kept3_ite, ↓State.kept3_of
      (State.fieldWrite_kept _ _ _ _ _), ↓State.coreWrite_kept3], fun hm => by simp only [↓State.memWf_mk, ↓State.memWf_fold,
      ↓State.memWf_of (State.fieldWrite_kept _ _ _ _ _), State.coreWrite_memWf, hm]⟩

theorem execCommit_kept (g : Group) (s : State) : ∃ t, (execCommit g s) = .next t ∧ t.kept = s.kept := by
  unfold execCommit
  (repeat' split) <;> exact ⟨_, rfl, by simp only [↓State.commitWrite_kept]⟩

theorem execStagedSetActive_ok (g : Group) (s : State) : ∃ t, (execStagedSetActive g s) = .next t ∧ t.kept3 = s.kept3 ∧
    (s.memWf → t.memWf) := by
  unfold execStagedSetActive
  split
  · exact execWindowCommitPoint_ok s
  · exact ⟨_, rfl, State.kept3_of (State.activate_kept _ _), (State.memWf_of (State.activate_kept _ _)).2⟩

end Sys2Proof.Machine
end

