-- ==== Sys2Proof/Laws/KeptSkidDma.lean ====
section
/-! SUPPORT. What no command changes, and the form of memory: lemmas of SkidDma. -/
namespace Sys2Proof.Machine

set_option linter.unusedSimpArgs false
set_option linter.unusedTactic false
set_option linter.unnecessarySeqFocus false
set_option linter.unreachableTactic false
set_option linter.tactic.unusedName false

theorem State.burstRead_kept (s : State) (x : Skd) (d : SkdDesc) (o n : Nat) : (State.burstRead s x d o n).1.kept = s.kept :=
    by
  unfold State.burstRead
  grind [State.kept_mk, State.drawn_kept, State.pevLog_kept, State.checkRange_kept]

theorem State.regStore_kept3 (s : State) (i : Init) (width : Nat) (l : List (Nat × Byte)) : (State.regStore s i width
    l).kept3 = s.kept3 := by
  unfold State.regStore
  (repeat' split) <;> simp_all [↓State.hubWrite_kept3, State.kept3_foldl]

theorem State.regStore_memWf (s : State) (i : Init) (width : Nat) (l : List (Nat × Byte)) (hm : s.memWf) : (State.regStore s
    i width l).memWf := by
  unfold State.regStore
  (repeat' split) <;> simp_all [State.hubWrite_memWf, State.memWf_foldl]

theorem State.burstWrite_kept3 (s : State) (x : Skd) (d : SkdDesc) (o : Nat) (bs : Bytes) : (State.burstWrite s x d o
    bs).1.kept3 = s.kept3 := by
  have h1 : ∀ (l : List (Byte × Nat)) (mem : Nat) (f : Nat → Nat) (u : State),
      (l.foldl (fun (t : State) e => t.storeBytes mem (f e.2) [e.1] 3) u).kept3 = u.kept3 :=
    fun l mem f u => State.kept3_foldl _ _ _ fun t e => State.storeBytes_kept3 _ _ _ _ _
  have h2 : ∀ (l : List (List (Nat × Byte))) (i : Init) (w : Nat) (u : State), (l.foldl (fun (t : State) l => t.regStore i w l) u).kept3 = u.kept3 :=
    fun l i w u => State.kept3_foldl _ _ _ fun t e => State.regStore_kept3 _ _ _ _
  unfold State.burstWrite
  extract_lets a at_
  split
  · exact State.kept3_of (State.pevLog_kept _ _ _ _ _)
  · split
    · exact State.kept3_of (State.pevLog_kept _ _ _ _ _)
    · rename_i mem m _ _
      have h3 : (if d.dinc then s.storeBytes mem m bs 3 else bs.zipIdx.foldl (fun (t : State) e => t.storeBytes mem (at_ e.2 + m - a) [e.1] 3) s).kept3 = s.kept3 := by
        split
        · exact State.storeBytes_kept3 _ _ _ _ _
        · exact h1 _ _ (fun k => at_ k + m - a) _
      exact h3
    · split
      · exact State.kept3_of (State.pevLog_kept _ _ _ _ _)
      · exact h2 _ _ _ _

theorem State.burstWrite_memWf (s : State) (x : Skd) (d : SkdDesc) (o : Nat) (bs : Bytes) (hm : s.memWf) : (State.burstWrite
    s x d o bs).1.memWf := by
  have h1 : ∀ (l : List (Byte × Nat)) (mem : Nat) (f : Nat → Nat) (u : State), u.memWf →
      (l.foldl (fun (t : State) e => t.storeBytes mem (f e.2) [e.1] 3) u).memWf :=
    fun l mem f u hu => State.memWf_foldl _ _ _ (fun t e h => State.storeBytes_memWf _ _ _ _ _ h) hu
  have h2 : ∀ (l : List (List (Nat × Byte))) (i : Init) (w : Nat) (u : State), u.memWf → (l.foldl (fun (t : State) l => t.regStore i w l) u).memWf :=
    fun l i w u hu => State.memWf_foldl _ _ _ (fun t e h => State.regStore_memWf _ _ _ _ h) hu
  unfold State.burstWrite
  extract_lets a at_
  split
  · exact (State.memWf_of (State.pevLog_kept _ _ _ _ _)).2 hm
  · split
    · exact (State.memWf_of (State.pevLog_kept _ _ _ _ _)).2 hm
    · rename_i mem m _ _
      have h3 : (if d.dinc then s.storeBytes mem m bs 3 else bs.zipIdx.foldl (fun (t : State) e => t.storeBytes mem (at_ e.2 + m - a) [e.1] 3) s).memWf := by
        split
        · exact State.storeBytes_memWf _ _ _ _ _ hm
        · exact h1 _ _ (fun k => at_ k + m - a) _ hm
      exact h3
    · split
      · exact (State.memWf_of (State.pevLog_kept _ _ _ _ _)).2 hm
      · exact h2 _ _ _ _ hm

theorem State.burstData_kept (s : State) (c : Fin 32) (data : Bytes) : (State.burstData s c data).1.kept = s.kept := by
  unfold State.burstData
  extract_lets d n
  split
  · rfl
  · exact State.burstRead_kept _ _ _ _ _

theorem State.burstPut_kept3 (s : State) (c : Fin 32) (o : Nat) (bs : Bytes) : (State.burstPut s c o bs).1.kept3 = s.kept3 :=
    by
  unfold State.burstPut
  extract_lets d
  split
  · exact State.kept3_of (State.hostWrite_kept _ _ _ _ _)
  · exact State.burstWrite_kept3 _ _ _ _ _

theorem State.burstPut_memWf (s : State) (c : Fin 32) (o : Nat) (bs : Bytes) (hm : s.memWf) : (State.burstPut s c o
    bs).1.memWf := by
  unfold State.burstPut
  extract_lets d
  split
  · exact (State.memWf_of (State.hostWrite_kept _ _ _ _ _)).2 hm
  · exact State.burstWrite_memWf _ _ _ _ _ hm

theorem State.burstMoved_kept3 (s : State) (c : Fin 32) (n : Nat) : (State.burstMoved s c n).kept3 = s.kept3 := by
  unfold State.burstMoved
  grind [State.kept3, State.kept, State.setSkd_kept, State.putResidue_kept, State.abortEnd_kept3]

theorem State.burstMoved_memWf (s : State) (c : Fin 32) (n : Nat) (hm : s.memWf) : (State.burstMoved s c n).memWf := by
  unfold State.burstMoved
  grind [State.memWf, State.kept, State.setSkd_kept, State.putResidue_kept, State.abortEnd_memWf]

theorem State.burstEnd_kept3 (s : State) (c : Fin 32) (n : Nat) (ok : Bool) : (State.burstEnd s c n ok).kept3 = s.kept3 := by
  unfold State.burstEnd
  grind [State.kept3, State.kept, State.busError_kept3, State.burstMoved_kept3]

theorem State.burstEnd_memWf (s : State) (c : Fin 32) (n : Nat) (ok : Bool) (hm : s.memWf) : (State.burstEnd s c n ok).memWf
    := by
  unfold State.burstEnd
  grind [State.memWf, State.kept, State.busError_memWf, State.burstMoved_memWf]

theorem State.burst_kept3 (s : State) (c : Fin 32) (data : Bytes) : (State.burst s c data).kept3 = s.kept3 := by
  unfold State.burst
  extract_lets d n o
  split
  · exact State.busError_kept3 _
  · have h1 := State.kept3_of (State.burstData_kept s c data)
    generalize s.burstData c data = r at h1 ⊢
    obtain ⟨u, v⟩ := r
    cases v with
    | none => exact (State.busError_kept3 _).trans h1
    | some bs => exact (State.burstEnd_kept3 _ _ _ _).trans ((State.burstPut_kept3 _ _ _ _).trans h1)

theorem State.burst_memWf (s : State) (c : Fin 32) (data : Bytes) (hm : s.memWf) : (State.burst s c data).memWf := by
  unfold State.burst
  extract_lets d n o
  split
  · exact State.busError_memWf _ hm
  · have h1 := (State.memWf_of (State.burstData_kept s c data)).2 hm
    generalize s.burstData c data = r at h1 ⊢
    obtain ⟨u, v⟩ := r
    cases v with
    | none => exact State.busError_memWf _ h1
    | some bs => exact State.burstEnd_memWf _ _ _ _ (State.burstPut_memWf _ _ _ _ h1)

theorem execSkdStart_ok (c : Fin 32) (resume : Bool) (core : Fin 8) (s : State) : ∃ t, (execSkdStart c resume core s) = .next
    t ∧ t.kept3 = s.kept3 ∧ (s.memWf → t.memWf) := by
  unfold execSkdStart
  (repeat' split) <;> exact ⟨_, rfl, by simp only [↓State.skdStart_kept3], fun hm => by simp only [State.skdStart_memWf, hm]⟩

theorem execSkdAbort_kept (c : Fin 32) (s : State) : ∃ t, (execSkdAbort c s) = .next t ∧ t.kept = s.kept := by
  unfold execSkdAbort
  (repeat' split) <;> exact ⟨_, rfl, by simp only [↓State.skdAbort_kept]⟩

theorem execSkdBurstDone_ok (data : Bytes) (upset : List (Nat × Nat)) (s : State) : ∃ t, (execSkdBurstDone data upset s) =
    .next t ∧ t.kept3 = s.kept3 ∧ (s.memWf → t.memWf) := by
  unfold execSkdBurstDone
  grind [State.memWf, State.kept, State.kept3, State.upset_kept, State.burst_kept3, State.burst_memWf]

theorem execSkdDescriptorDone_ok (c : Fin 32) (s : State) : ∃ t, (execSkdDescriptorDone c s) = .next t ∧ t.kept3 = s.kept3 ∧
    (s.memWf → t.memWf) := by
  unfold execSkdDescriptorDone
  (repeat' split) <;> exact ⟨_, rfl, by simp only [↓State.descDone_kept3], fun hm => by simp only [State.descDone_memWf, hm]⟩

theorem execSkdDescriptorLoad_ok (c : Fin 32) (upset : List (Nat × Nat)) (s : State) : ∃ t, (execSkdDescriptorLoad c upset s)
    = .next t ∧ t.kept3 = s.kept3 ∧ (s.memWf → t.memWf) := by
  unfold execSkdDescriptorLoad
  grind [State.memWf, State.kept, State.kept3, State.pevLog_kept, State.upset_kept, State.checkRange_kept, State.fetch_kept,
      State.putDesc_kept, State.setSkd_kept, State.putResidue_kept, State.descError_kept3, State.descError_memWf,
      State.busError_kept3, State.busError_memWf, State.descLoaded_kept3, State.descLoaded_memWf]

theorem execSkdBusError_ok (s : State) : ∃ t, (execSkdBusError s) = .next t ∧ t.kept3 = s.kept3 ∧ (s.memWf → t.memWf) := by
  unfold execSkdBusError
  (repeat' split) <;> exact ⟨_, rfl, by simp only [↓State.busError_kept3], fun hm => by simp only [State.busError_memWf, hm]⟩

theorem execSkdHaltedClear_kept (s : State) : ∃ t, (execSkdHaltedClear s) = .next t ∧ t.kept = s.kept := by
  unfold execSkdHaltedClear
  (repeat' split) <;> exact ⟨_, rfl, by simp only [↓State.put_kept]⟩

end Sys2Proof.Machine
end

