-- ==== Sys2Proof/Laws/KeptFwOps.lean ====
section
/-! SUPPORT. What no command changes, and the form of memory: lemmas of FwOps. -/
namespace Sys2Proof.Machine

set_option linter.unusedSimpArgs false
set_option linter.unusedTactic false
set_option linter.unnecessarySeqFocus false
set_option linter.unreachableTactic false
set_option linter.tactic.unusedName false

theorem State.fwHistory_kept (s : State) (result reason index ver lost : Nat) : (State.fwHistory s result reason index ver
    lost).kept = s.kept := by
  unfold State.fwHistory
  simp only [↓State.kept_mk, ↓State.kept_fold, ↓State.pageChanged_kept]

theorem State.writeJournal_kept3 (s : State) (j : Journal) : (State.writeJournal s j).kept3 = s.kept3 := by
  unfold State.writeJournal
  simp only [↓State.putBytes_kept3, ↓State.kept3_of (State.irq_kept _ _)]

theorem State.writeJournal_memWf (s : State) (j : Journal) (hm : s.memWf) : (State.writeJournal s j).memWf := by
  unfold State.writeJournal
  simp only [State.putBytes_memWf, ↓State.memWf_of (State.irq_kept _ _), hm]

theorem State.confirmSet_kept3 (s : State) : (State.confirmSet s).kept3 = s.kept3 := by
  unfold State.confirmSet
  (repeat' split) <;> simp_all [↓State.kept3_mk, ↓State.kept3_fold, ↓State.kept3_of (State.finish_kept _ _ _ _),
      ↓State.kept3_of (State.fwHistory_kept _ _ _ _ _ _), ↓State.writeJournal_kept3, State.kept3_foldl]

theorem State.confirmSet_memWf (s : State) (hm : s.memWf) : (State.confirmSet s).memWf := by
  unfold State.confirmSet
  simp only [↓State.memWf_mk, ↓State.memWf_fold, ↓State.memWf_of (State.finish_kept _ _ _ _), ↓State.memWf_of
      (State.fwHistory_kept _ _ _ _ _ _), State.writeJournal_memWf, hm]
  (repeat' split) <;> (try refine State.memWf_foldl _ _ _ (fun t x hm => ?_) ?_) <;> (try dsimp only) <;> (repeat' split) <;>
      (try simp only [↓State.memWf_mk, ↓State.memWf_fold, ↓State.memWf_of (State.finish_kept _ _ _ _), ↓State.memWf_of
      (State.fwHistory_kept _ _ _ _ _ _), State.writeJournal_memWf, hm]) <;> grind [State.memWf, State.kept,
      State.finish_kept, State.fwHistory_kept, State.writeJournal_memWf]

theorem State.applyFeatures_kept (s : State) (x : Settings) : (State.applyFeatures s x).kept = s.kept := by
  unfold State.applyFeatures
  (repeat' split) <;> simp_all [↓State.setFeature_kept, State.kept_foldl]

theorem State.takeSettings_kept (s : State) : (State.takeSettings s).kept = s.kept := by
  unfold State.takeSettings
  simp only [↓State.kept_mk, ↓State.kept_fold, ↓State.kept_ite, ↓State.kept_fst_ite, ↓State.put_kept, ↓State.irq_kept,
      ↓State.raiseHub_kept, ↓State.applyFeatures_kept]
  (repeat' split) <;> simp only [↓State.kept_mk, ↓State.kept_fold, ↓State.kept_ite, ↓State.kept_fst_ite, ↓State.put_kept,
      ↓State.irq_kept, ↓State.raiseHub_kept, ↓State.applyFeatures_kept, ite_self]

theorem State.applyBootBlock_kept (s : State) : (State.applyBootBlock s).kept = s.kept := by
  unfold State.applyBootBlock
  simp only [↓State.kept_mk, ↓State.kept_fold, ↓State.put_kept]

end Sys2Proof.Machine
end

