-- ==== Sys2Proof/Laws/KeptResetOps.lean ====
section
/-! SUPPORT. What no command changes, and the form of memory: lemmas of ResetOps. -/
namespace Sys2Proof.Machine

set_option linter.unusedSimpArgs false
set_option linter.unusedTactic false
set_option linter.unnecessarySeqFocus false
set_option linter.unreachableTactic false
set_option linter.tactic.unusedName false

theorem State.dropSchedule_kept (s : State) : (State.dropSchedule s).kept = s.kept := by
  unfold State.dropSchedule
  (repeat' split) <;> simp only [↓State.kept_mk, ↓State.kept_fold, ↓State.fwHistory_kept]

theorem State.hubReset_kept3 (s : State) (cause : ResetCause) : (State.hubReset s cause).kept3 = s.kept3 := by
  unfold State.hubReset
  grind [State.kept3, State.kept, State.dropSchedule_kept]

theorem State.hubReset_memWf (s : State) (cause : ResetCause) (hm : s.memWf) : (State.hubReset s cause).memWf := by
  have h0 : (if cause = .activation then { s with fwu := { s.fwu with sched := none } } else s.dropSchedule).memWf := by
    split
    · simp only [State.memWf_mk, State.memWf_fold, hm]
    · exact (State.memWf_of (State.dropSchedule_kept _)).2 hm
  unfold State.hubReset
  simp only [State.memWf_mk]
  exact filter_wf _ h0

theorem State.decideEarly_kept (s : State) (c : Cmd) (st : Nat) (counted : Bool) : (State.decideEarly s c st counted).kept =
    s.kept := by
  unfold State.decideEarly
  (repeat' split) <;> simp_all [↓State.finish_kept, ↓State.sendReset_kept, ↓State.killCmdRead_kept, ↓State.giveContext_kept,
      ↓State.leaveUnmounts_kept, State.kept_foldl]

theorem State.unfetch_kept (s : State) (r : HostRead) : (State.unfetch s r).kept = s.kept := by
  unfold State.unfetch
  grind [State.kept_mk, State.setQueue_kept, State.fetch_kept, State.killRead_kept]

theorem State.haltHost_kept3 (s : State) (f : Nat) : (State.haltHost s f).kept3 = s.kept3 := by
  unfold State.haltHost
  (repeat' split) <;> simp_all [↓State.settle_kept3, ↓State.kept3_of (State.decideEarly_kept _ _ _ _), ↓State.kept3_of
      (State.unfetch_kept _ _), State.kept3_foldl]

theorem State.haltHost_memWf (s : State) (f : Nat) (hm : s.memWf) : (State.haltHost s f).memWf := by
  have h1 : ∀ (l : List HostRead) (u : State), u.memWf → (l.foldl State.unfetch u).memWf :=
    fun l u hu => State.memWf_foldl _ _ _ (fun t r h => (State.memWf_of (State.unfetch_kept _ _)).2 h) hu
  unfold State.haltHost
  exact State.settle_memWf _ (State.memWf_foldl _ _ _ (fun t c h => (State.memWf_of (State.decideEarly_kept _ _ _ _)).2 h) (h1 _ _ hm))

theorem State.resumeHost_kept (s : State) (f : Nat) : (State.resumeHost s f).kept = s.kept := by
  unfold State.resumeHost
  (repeat' split) <;> simp_all [↓State.postAll_kept, ↓State.cutsReady_kept, State.kept_foldl]

theorem State.functionReset_kept (s : State) (f : Nat) : (State.functionReset s f).kept = s.kept := by
  unfold State.functionReset
  (repeat' split) <;> simp_all [↓State.kept_mk, ↓State.kept_fold, ↓State.put_kept, ↓State.setFn_kept, ↓State.irq_kept,
      ↓State.freeSession_kept, ↓State.dropCmd_kept, ↓State.killRead_kept, ↓State.giveContext_kept, ↓State.leaveUnmounts_kept,
      ↓State.resetPorts_kept, State.kept_foldl]

theorem State.dropVfs_kept (s : State) : (State.dropVfs s).kept = s.kept := by
  unfold State.dropVfs
  (repeat' split) <;> simp_all [↓State.kept_mk, ↓State.kept_fold, ↓State.functionReset_kept, State.kept_foldl]

theorem State.closeWindow_kept3 (s : State) : (State.closeWindow s).kept3 = s.kept3 := by
  unfold State.closeWindow
  (repeat' split) <;> simp_all [↓State.kept3_mk, ↓State.kept3_fold, ↓State.kept3_of (State.put_kept _ _ _ _ _ _),
      ↓State.winServe_kept3, State.kept3_foldl]

theorem State.closeWindow_memWf (s : State) (hm : s.memWf) : (State.closeWindow s).memWf := by
  unfold State.closeWindow
  simp only [↓State.memWf_mk, ↓State.memWf_fold, ↓State.memWf_of (State.put_kept _ _ _ _ _ _), State.winServe_memWf, hm]
  (repeat' split) <;> (try refine State.memWf_foldl _ _ _ (fun t x hm => ?_) ?_) <;> (try dsimp only) <;> (repeat' split) <;>
      (try simp only [↓State.memWf_mk, ↓State.memWf_fold, ↓State.memWf_of (State.put_kept _ _ _ _ _ _), State.winServe_memWf,
      hm]) <;> grind [State.memWf, State.kept, State.put_kept, State.winServe_memWf]

theorem State.abortOwnRange_kept3 (s : State) : (State.abortOwnRange s).kept3 = s.kept3 := by
  unfold State.abortOwnRange
  grind [State.kept3, State.kept, State.rangeAbort_kept3]

theorem State.abortOwnRange_memWf (s : State) (hm : s.memWf) : (State.abortOwnRange s).memWf := by
  unfold State.abortOwnRange
  grind [State.memWf, State.kept, State.rangeAbort_memWf]

theorem State.flr_kept3 (s : State) (f : Nat) : (State.flr s f).kept3 = s.kept3 := by
  unfold State.flr
  grind [State.kept3, State.kept, State.settle_kept3, State.functionReset_kept, State.dropVfs_kept, State.closeWindow_kept3,
      State.abortOwnRange_kept3]

theorem State.flr_memWf (s : State) (f : Nat) (hm : s.memWf) : (State.flr s f).memWf := by
  unfold State.flr
  grind [State.memWf, State.kept, State.settle_memWf, State.functionReset_kept, State.dropVfs_kept, State.closeWindow_memWf,
      State.abortOwnRange_memWf]

theorem State.beginRun_kept3 (s : State) (a : Activation) : (State.beginRun s a).kept3 = s.kept3 := by
  unfold State.beginRun
  (repeat' split) <;> simp_all [↓State.kept3_mk, ↓State.kept3_fold, ↓State.kept3_of (State.put_kept _ _ _ _ _ _),
      ↓State.kept3_of (State.cruAbort_kept _ _), ↓State.rangeAbort_kept3, State.kept3_foldl]

theorem State.beginRun_memWf (s : State) (a : Activation) (hm : s.memWf) : (State.beginRun s a).memWf := by
  unfold State.beginRun
  (repeat' split) <;> simp_all [↓State.memWf_mk, ↓State.memWf_fold, ↓State.memWf_of (State.put_kept _ _ _ _ _ _),
      ↓State.memWf_of (State.cruAbort_kept _ _), State.rangeAbort_memWf, State.memWf_foldl]

theorem State.decideAll_kept (s : State) (keep : State → Cmd → Bool) : (State.decideAll s keep).kept = s.kept := by
  unfold State.decideAll
  (repeat' split) <;> simp_all [↓State.decideEarly_kept, State.kept_foldl]

theorem State.postEverything_kept (s : State) : (State.postEverything s).kept = s.kept := by
  unfold State.postEverything
  (repeat' split) <;> simp_all [↓State.postAll_kept, ↓State.cutsReady_kept, State.kept_foldl]

theorem State.beginFlush_kept3 (s : State) (a : Activation) : (State.beginFlush s a).kept3 = s.kept3 := by
  unfold State.beginFlush
  grind [State.kept3, State.kept, State.handOverKeys_kept3, State.settle_kept3, State.decideAll_kept]

theorem State.beginFlush_memWf (s : State) (a : Activation) (hm : s.memWf) : (State.beginFlush s a).memWf := by
  unfold State.beginFlush
  grind [State.memWf, State.kept, State.handOverKeys_memWf, State.settle_memWf, State.decideAll_kept]

theorem State.endFlush_kept (s : State) (a : Activation) : (State.endFlush s a).kept = s.kept := by
  unfold State.endFlush
  simp only [↓State.kept_mk, ↓State.kept_fold, ↓State.decideAll_kept, ↓State.postEverything_kept]

theorem State.finishRun_kept3 (s : State) (a : Activation) : (State.finishRun s a).kept3 = s.kept3 := by
  unfold State.finishRun
  grind [State.kept3, State.kept, State.bump_kept, State.raiseHub_kept, State.fwHistory_kept, State.writeJournal_kept3,
      State.hubReset_kept3, State.postEverything_kept]

theorem State.finishRun_memWf (s : State) (a : Activation) (hm : s.memWf) : (State.finishRun s a).memWf := by
  unfold State.finishRun
  grind [State.memWf, State.kept, State.bump_kept, State.raiseHub_kept, State.fwHistory_kept, State.writeJournal_memWf,
      State.hubReset_memWf, State.postEverything_kept]

end Sys2Proof.Machine
end

