-- ==== Sys2Proof/Laws/KeptQueue.lean ====
section
/-! SUPPORT. What no command changes, and the form of memory: lemmas of Queue. -/
namespace Sys2Proof.Machine

set_option linter.unusedSimpArgs false
set_option linter.unusedTactic false
set_option linter.unnecessarySeqFocus false
set_option linter.unreachableTactic false
set_option linter.tactic.unusedName false

theorem execDoorbellWrite_kept (f : Fin 64) (q : Nat) (tail head : Option Nat) (s : State) : ∃ t, (execDoorbellWrite f q tail
    head s) = .next t ∧ t.kept = s.kept := by
  unfold execDoorbellWrite
  (repeat' split) <;> exact ⟨_, rfl, by simp only [↓State.tailWrite_kept, ↓State.headWrite_kept]⟩

theorem State.loseQueue_kept (s : State) (f q : Nat) : (State.loseQueue s f q).kept = s.kept := by
  unfold State.loseQueue
  simp only [↓State.irq_kept, ↓State.aer_kept, ↓State.raiseHub_kept, ↓State.startCut_kept, ↓State.cutsReady_kept]

theorem execFetch_kept (upset : List (Nat × Nat)) (s : State) : ∃ t, (execFetch upset s) = .next t ∧ t.kept = s.kept := by
  have h1 : ∀ (l : List Nat) (u : State), (l.foldl (fun (t : State) v => t.setFlips (unitKey 4 v) 0) u).kept = u.kept :=
    fun l u => State.kept_foldl _ _ _ fun t v => State.setFlips_kept _ _ _
  unfold execFetch
  dsimp only
  split
  · exact ⟨_, rfl, State.upset_kept _ _⟩
  · rename_i x _ _
    have h2 := State.checkRange_kept (s.upset upset) 4 (64 * (513 * x.func + x.qid)) 64 4
    rw [State.upset_kept] at h2
    split
    · exact ⟨_, rfl, (State.fetch_kept _).trans h2⟩
    · exact ⟨_, rfl, (State.loseQueue_kept _ _ _).trans ((h1 _ _).trans h2)⟩

theorem State.takeEntries_kept (s : State) (r : HostRead) (f q start n : Nat) : (State.takeEntries s r f q start n).kept =
    s.kept := by
  refine State.kept_foldl _ _ _ fun t k => ?_
  split
  · rfl
  · split
    · exact State.takeEntry_kept _ _ _
    · exact State.lostEntry_kept _ _ _

theorem execEntryReceived_ok (f : Fin 64) (q : Nat) (upset : List (Nat × Nat)) (s : State) : ∃ t, (execEntryReceived f q
    upset s) = .next t ∧ t.kept3 = s.kept3 ∧ (s.memWf → t.memWf) := by
  unfold execEntryReceived
  (repeat' split) <;> exact ⟨_, rfl, by simp only [↓State.kept3_mk, ↓State.kept3_fold, ↓State.kept3_of (State.upset_kept _
      _), ↓State.settle_kept3, ↓State.kept3_of (State.takeEntries_kept _ _ _ _ _ _)], fun hm => by simp only
      [↓State.memWf_mk, ↓State.memWf_fold, ↓State.memWf_of (State.upset_kept _ _), State.settle_memWf, ↓State.memWf_of
      (State.takeEntries_kept _ _ _ _ _ _), hm]⟩

theorem execCompletionPost_kept (f : Fin 64) (q : Nat) (s : State) : ∃ t, (execCompletionPost f q s) = .next t ∧ t.kept =
    s.kept := by
  unfold execCompletionPost
  (repeat' split) <;> exact ⟨_, rfl, by simp only [↓State.postOne_kept, ↓State.cutsReady_kept]⟩

theorem execQenHalt_kept (f : Fin 64) (q : Nat) (s : State) : ∃ t, (execQenHalt f q s) = .next t ∧ t.kept = s.kept := by
  unfold execQenHalt
  (repeat' split) <;> exact ⟨_, rfl, by simp only [↓State.put_kept, ↓State.haltGo_kept]⟩

theorem execHaltCutComplete_ok (f : Fin 64) (s : State) : ∃ t, (execHaltCutComplete f s) = .next t ∧ t.kept3 = s.kept3 ∧
    (s.memWf → t.memWf) := by
  unfold execHaltCutComplete
  (repeat' split) <;> exact ⟨_, rfl, by simp only [↓State.settle_kept3, ↓State.kept3_of (State.cutDone_kept _ _)], fun hm =>
      by simp only [State.settle_memWf, ↓State.memWf_of (State.cutDone_kept _ _), hm]⟩

theorem execQenMqCtlWrite_ok (f : Fin 64) (w : Word) (s : State) : ∃ t, (execQenMqCtlWrite f w s) = .next t ∧ t.kept3 =
    s.kept3 ∧ (s.memWf → t.memWf) := by
  unfold execQenMqCtlWrite
  (repeat' split) <;> exact ⟨_, rfl, by simp only [↓State.settle_kept3, ↓State.kept3_of (State.mqWrite_kept _ _ _)], fun hm
      => by simp only [State.settle_memWf, ↓State.memWf_of (State.mqWrite_kept _ _ _), hm]⟩

theorem execCqCoalesceTimeout_kept (f : Fin 64) (q : Nat) (s : State) : ∃ t, (execCqCoalesceTimeout f q s) = .next t ∧ t.kept
    = s.kept := by
  unfold execCqCoalesceTimeout
  (repeat' split) <;> exact ⟨_, rfl, by simp only [↓State.msixFire_kept, ↓State.setQueue_kept]⟩

end Sys2Proof.Machine
end

