-- ==== Sys2Proof/Laws/KeptVault.lean ====
section
/-! SUPPORT. What no command changes, and the form of memory: lemmas of Vault. -/
namespace Sys2Proof.Machine

set_option linter.unusedSimpArgs false
set_option linter.unusedTactic false
set_option linter.unnecessarySeqFocus false
set_option linter.unreachableTactic false
set_option linter.tactic.unusedName false

theorem execOpenCoreWatchdog_kept (i : Fin 2) (s : State) : ∃ t, (execOpenCoreWatchdog i s) = .next t ∧ t.kept = s.kept := by
  unfold execOpenCoreWatchdog
  (repeat' split) <;> exact ⟨_, rfl, by simp only [↓State.kept_mk, ↓State.kept_fold, ↓State.irq_kept, ↓State.raiseHub_kept,
      ↓State.hicRelease_kept]⟩

theorem execSessionCloseFinal_kept (id : Nat) (s : State) : ∃ t, (execSessionCloseFinal id s) = .next t ∧ t.kept = s.kept :=
    by
  unfold execSessionCloseFinal
  (repeat' split) <;> exact ⟨_, rfl, by simp only [↓State.closeFinal_kept]⟩

theorem execGenerationRecord_ok (b : Bay) (s : State) : ∃ t, (execGenerationRecord b s) = .next t ∧ t.kept3 = s.kept3 ∧
    (s.memWf → t.memWf) := by
  unfold execGenerationRecord
  (repeat' split) <;> exact ⟨_, rfl, by simp only [↓State.kept3_of (State.sendGen_kept _ _), ↓State.settle_kept3,
      ↓State.kept3_of (State.genOver_kept _ _ _ _)], fun hm => by simp only [↓State.memWf_of (State.sendGen_kept _ _),
      State.settle_memWf, ↓State.memWf_of (State.genOver_kept _ _ _ _), hm]⟩

theorem State.barkMeasured_kept (s : State) (b : Bay) (features : List Int) : (State.barkMeasured s b features).kept = s.kept
    := by
  unfold State.barkMeasured
  (repeat' split) <;> simp only [↓State.kept_mk, ↓State.kept_fold, ↓State.mapDisc_kept, ↓State.setLat_kept,
      ↓State.systemLog_kept]

theorem execBarkMeasured_kept (b : Bay) (features : List Int) (s : State) : ∃ t, (execBarkMeasured b features s) = .next t ∧
    t.kept = s.kept := by
  unfold execBarkMeasured
  (repeat' split) <;> exact ⟨_, rfl, by simp only [↓State.barkMeasured_kept]⟩

theorem State.discRead_kept (s : State) (d : BayDisc) (dataBlank : Bool) : (State.discRead s d dataBlank).1.kept = s.kept :=
    by
  unfold State.discRead
  grind [State.kept_mk, State.drawn_kept]

theorem State.leaveSlot_kept (s : State) (id slot : Nat) : (State.leaveSlot s id slot).kept = s.kept := by
  unfold State.leaveSlot
  simp only [↓State.kept_mk, ↓State.kept_fold]

theorem State.resolveAgain_kept (s : State) (c : Cmd) (slot : Nat) : (State.resolveAgain s c slot).kept = s.kept := by
  unfold State.resolveAgain
  grind [State.kept_mk, State.setCmd_kept, State.takeBoards_kept, State.setLookup_kept, State.startBoards_kept,
      State.leaveSlot_kept]

theorem State.serialChanged_kept (s : State) (slot : Nat) : (State.serialChanged s slot).kept = s.kept := by
  unfold State.serialChanged
  simp only [↓State.bump_kept, ↓State.moveInvalidate_kept]

theorem State.discTaken_kept (s : State) (b : Bay) (d : BayDisc) : (State.discTaken s b d).kept = s.kept := by
  have hi : ∀ (l : List DirEntry) (slot : Nat) (u : State), (l.foldl (fun (t : State) e => t.raiseHub 0x0C03 0 slot e.title) u).kept = u.kept :=
    fun l slot u => State.kept_foldl _ _ _ fun t e => State.raiseHub_kept _ _ _ _ _ _
  have hc : ∀ (l : List Cmd) (slot : Nat) (u : State), (l.foldl (fun (t : State) x => match t.cmd x.id with | some c => t.resolveAgain c slot | none => t) u).kept = u.kept :=
    fun l slot u => State.kept_foldl _ _ _ fun t e => by
      split
      · exact State.resolveAgain_kept _ _ _
      · rfl
  have hs : ∀ b : Bool, (if b then s.serialChanged d.slot else s).kept = s.kept := fun b => by
    split
    · exact State.serialChanged_kept _ _
    · rfl
  unfold State.discTaken
  extract_lets old changed s1
  have h1 : s1.kept = s.kept := hs _
  clear_value s1
  have h2 := (State.readDirectory_kept s1 d).trans h1
  split
  rename_i u n he
  rw [he] at h2
  dsimp only
  split
  · exact (hc _ _ _).trans ((hi _ _ _).trans ((State.setHubBay_kept _ _ _).trans h2))
  · exact (hi _ _ _).trans ((State.setHubBay_kept _ _ _).trans h2)

theorem State.mountRefused_kept3 (s : State) (j : MountJob) (b : Bay) : (State.mountRefused s j b).kept3 = s.kept3 := by
  unfold State.mountRefused
  grind [State.kept3, State.kept, State.setTask_kept, State.returnDisc_kept, State.mountEnded_kept3]

theorem State.mountRefused_memWf (s : State) (j : MountJob) (b : Bay) (hm : s.memWf) : (State.mountRefused s j b).memWf := by
  unfold State.mountRefused
  grind [State.memWf, State.kept, State.setTask_kept, State.returnDisc_kept, State.mountEnded_memWf]

theorem execMountComplete_ok (slot : Nat) (dataBlank : Bool) (s : State) : ∃ t, (execMountComplete slot dataBlank s) = .next
    t ∧ t.kept3 = s.kept3 ∧ (s.memWf → t.memWf) := by
  unfold execMountComplete
  grind [State.memWf, State.kept, State.kept3, State.stage_kept, State.mountEnded_kept3, State.mountEnded_memWf,
      State.settle_kept3, State.settle_memWf, State.discRead_kept, State.discTaken_kept, State.mountRefused_kept3,
      State.mountRefused_memWf]

theorem State.dirRead_kept (s : State) : (State.dirRead s).kept = s.kept := by
  unfold State.dirRead
  simp only [↓State.bump_kept]

theorem execBackgroundDirectoryRead_ok (s : State) : ∃ t, (execBackgroundDirectoryRead s) = .next t ∧ t.kept3 = s.kept3 ∧
    (s.memWf → t.memWf) := by
  unfold execBackgroundDirectoryRead
  grind [State.memWf, State.kept, State.kept3, State.wantMount_kept, State.readDirectory_kept, State.settle_kept3,
      State.settle_memWf, State.dirRead_kept]

theorem State.yieldRebuild_kept (s : State) : (State.yieldRebuild s).kept = s.kept := by
  unfold State.yieldRebuild
  (repeat' split) <;> simp only [↓State.kept_mk, ↓State.kept_fold, ↓State.setMount_kept]

theorem State.lookupFailed_kept (s : State) (k : Lookup) (c : Cmd) (rest : List Nat) : (State.lookupFailed s k c rest).kept =
    s.kept := by
  unfold State.lookupFailed
  grind [State.kept_mk, State.dropLookup_kept, State.failBoards_kept, State.lookupOver_kept, State.openFound_kept]

theorem State.lookupStep_kept (s : State) (k : Lookup) (c : Cmd) : (State.lookupStep s k c).kept = s.kept := by
  unfold State.lookupStep
  grind [State.kept_mk, State.wantMount_kept, State.readDirectory_kept, State.takeBoards_kept, State.setLookup_kept,
      State.dropLookup_kept, State.lookupOver_kept, State.openFound_kept, State.dirRead_kept, State.yieldRebuild_kept,
      State.lookupFailed_kept]

theorem execForegroundLookup_ok (id : Nat) (s : State) : ∃ t, (execForegroundLookup id s) = .next t ∧ t.kept3 = s.kept3 ∧
    (s.memWf → t.memWf) := by
  unfold execForegroundLookup
  (repeat' split) <;> exact ⟨_, rfl, by simp only [↓State.settle_kept3, ↓State.kept3_of (State.lookupStep_kept _ _ _)], fun
      hm => by simp only [State.settle_memWf, ↓State.memWf_of (State.lookupStep_kept _ _ _), hm]⟩

end Sys2Proof.Machine
end

