-- ==== Sys2Proof/Laws/KeptCommands.lean ====
section
/-! SUPPORT. What no command changes, and the form of memory: lemmas of Commands. -/
namespace Sys2Proof.Machine

set_option linter.unusedSimpArgs false
set_option linter.unusedTactic false
set_option linter.unnecessarySeqFocus false
set_option linter.unreachableTactic false
set_option linter.tactic.unusedName false

theorem State.starts_kept3 (s : State) (id op : Nat) (f : State → Cmd → State) (h : ∀ t c, (f t c).kept3 = t.kept3) :
    (s.starts id op f).kept3 = s.kept3 := by
  unfold State.starts
  split
  · exact (State.settle_kept3 _).trans ((h _ _).trans (State.kept3_of (State.setCmd_kept _ _)))
  · rfl

theorem State.starts_memWf (s : State) (id op : Nat) (f : State → Cmd → State) (h : ∀ t c, t.memWf → (f t c).memWf) (hm :
    s.memWf) : (s.starts id op f).memWf := by
  unfold State.starts
  split
  · exact State.settle_memWf _ (h _ _ ((State.memWf_of (State.setCmd_kept _ _)).2 hm))
  · exact hm

theorem execRead_ok (id : Nat) (upset : List (Nat × Nat)) (s : State) : ∃ t, (execRead id upset s) = .next t ∧ t.kept3 =
    s.kept3 ∧ (s.memWf → t.memWf) := by
  unfold execRead
  exact ⟨_, rfl, (State.starts_kept3 _ _ _ _ fun t c => by simp only [↓State.kept3_of (State.startBoards_kept _ _ _
      _)]).trans (State.kept3_of (State.upset_kept _ _)), fun hm => State.starts_memWf _ _ _ _ (fun t c hm => by simp only
      [↓State.memWf_of (State.startBoards_kept _ _ _ _), hm]) ((State.memWf_of (State.upset_kept _ _)).2 hm)⟩

theorem execReadRaw_ok (id : Nat) (upset : List (Nat × Nat)) (s : State) : ∃ t, (execReadRaw id upset s) = .next t ∧ t.kept3
    = s.kept3 ∧ (s.memWf → t.memWf) := by
  unfold execReadRaw
  exact ⟨_, rfl, (State.starts_kept3 _ _ _ _ fun t c => by simp only [↓State.kept3_of (State.setCmd_kept _ _),
      ↓State.kept3_of (State.ifDone_kept _ _), ↓State.kept3_of (State.askLogs_kept _ _ _)]).trans (State.kept3_of
      (State.upset_kept _ _)), fun hm => State.starts_memWf _ _ _ _ (fun t c hm => by simp only [↓State.memWf_of
      (State.setCmd_kept _ _), ↓State.memWf_of (State.ifDone_kept _ _), ↓State.memWf_of (State.askLogs_kept _ _ _), hm])
      ((State.memWf_of (State.upset_kept _ _)).2 hm)⟩

theorem execRecord_ok (id : Nat) (upset : List (Nat × Nat)) (s : State) : ∃ t, (execRecord id upset s) = .next t ∧ t.kept3 =
    s.kept3 ∧ (s.memWf → t.memWf) := by
  unfold execRecord
  exact ⟨_, rfl, (State.starts_kept3 _ _ _ _ fun t c => by simp only [↓State.kept3_of (State.recordStart_kept _ _)]).trans
      (State.kept3_of (State.upset_kept _ _)), fun hm => State.starts_memWf _ _ _ _ (fun t c hm => by simp only
      [↓State.memWf_of (State.recordStart_kept _ _), hm]) ((State.memWf_of (State.upset_kept _ _)).2 hm)⟩

theorem execPreload_ok (id : Nat) (s : State) : ∃ t, (execPreload id s) = .next t ∧ t.kept3 = s.kept3 ∧ (s.memWf → t.memWf)
    := by
  unfold execPreload
  exact ⟨_, rfl, State.starts_kept3 _ _ _ _ fun t c => by grind [State.memWf, State.kept, State.kept3, State.setCmd_kept,
      State.finish_kept, State.ifDone_kept, State.askPreload_kept, State.startBoards_kept], fun hm => State.starts_memWf _ _
      _ _ (fun t c hm => by grind [State.memWf, State.kept, State.kept3, State.setCmd_kept, State.finish_kept,
      State.ifDone_kept, State.askPreload_kept, State.startBoards_kept]) hm⟩

theorem execFence_ok (id : Nat) (s : State) : ∃ t, (execFence id s) = .next t ∧ t.kept3 = s.kept3 ∧ (s.memWf → t.memWf) := by
  unfold execFence
  exact ⟨_, rfl, State.starts_kept3 _ _ _ _ fun t c => by simp only [↓State.kept3_of (State.finish_kept _ _ _ _)], fun hm =>
      State.starts_memWf _ _ _ _ (fun t c hm => by simp only [↓State.memWf_of (State.finish_kept _ _ _ _), hm]) hm⟩

theorem execFlush_ok (id : Nat) (upset : List (Nat × Nat)) (s : State) : ∃ t, (execFlush id upset s) = .next t ∧ t.kept3 =
    s.kept3 ∧ (s.memWf → t.memWf) := by
  unfold execFlush
  exact ⟨_, rfl, (State.starts_kept3 _ _ _ _ fun t c => by simp only [↓State.kept3_of (State.setCmd_kept _ _),
      ↓State.kept3_of (State.ifDone_kept _ _), ↓State.handOverKeys_kept3]).trans (State.kept3_of (State.upset_kept _ _)), fun
      hm => State.starts_memWf _ _ _ _ (fun t c hm => by simp only [↓State.memWf_of (State.setCmd_kept _ _), ↓State.memWf_of
      (State.ifDone_kept _ _), State.handOverKeys_memWf, hm]) ((State.memWf_of (State.upset_kept _ _)).2 hm)⟩

theorem execVerifyScan_ok (id : Nat) (s : State) : ∃ t, (execVerifyScan id s) = .next t ∧ t.kept3 = s.kept3 ∧ (s.memWf →
    t.memWf) := by
  unfold execVerifyScan
  exact ⟨_, rfl, State.starts_kept3 _ _ _ _ fun t c => by simp only [↓State.kept3_of (State.scanStart_kept _ _)], fun hm =>
      State.starts_memWf _ _ _ _ (fun t c hm => by simp only [↓State.memWf_of (State.scanStart_kept _ _), hm]) hm⟩

theorem execCreateQueuePair_ok (id : Nat) (s : State) : ∃ t, (execCreateQueuePair id s) = .next t ∧ t.kept3 = s.kept3 ∧
    (s.memWf → t.memWf) := by
  unfold execCreateQueuePair
  exact ⟨_, rfl, State.starts_kept3 _ _ _ _ fun t c => by grind [State.memWf, State.kept, State.kept3, State.finish_kept],
      fun hm => State.starts_memWf _ _ _ _ (fun t c hm => by grind [State.memWf, State.kept, State.kept3, State.finish_kept])
      hm⟩

theorem execDeleteQueuePair_ok (id : Nat) (s : State) : ∃ t, (execDeleteQueuePair id s) = .next t ∧ t.kept3 = s.kept3 ∧
    (s.memWf → t.memWf) := by
  unfold execDeleteQueuePair
  exact ⟨_, rfl, State.starts_kept3 _ _ _ _ fun t c => by simp only [↓State.kept3_of (State.resetStart_kept _ _)], fun hm =>
      State.starts_memWf _ _ _ _ (fun t c hm => by simp only [↓State.memWf_of (State.resetStart_kept _ _), hm]) hm⟩

theorem execResetQueue_ok (id : Nat) (s : State) : ∃ t, (execResetQueue id s) = .next t ∧ t.kept3 = s.kept3 ∧ (s.memWf →
    t.memWf) := by
  unfold execResetQueue
  exact ⟨_, rfl, State.starts_kept3 _ _ _ _ fun t c => by simp only [↓State.kept3_of (State.resetStart_kept _ _)], fun hm =>
      State.starts_memWf _ _ _ _ (fun t c hm => by simp only [↓State.memWf_of (State.resetStart_kept _ _), hm]) hm⟩

theorem execSessionOpen_ok (id : Nat) (s : State) : ∃ t, (execSessionOpen id s) = .next t ∧ t.kept3 = s.kept3 ∧ (s.memWf →
    t.memWf) := by
  unfold execSessionOpen
  exact ⟨_, rfl, State.starts_kept3 _ _ _ _ fun t c => by simp only [↓State.kept3_of (State.openStart_kept _ _)], fun hm =>
      State.starts_memWf _ _ _ _ (fun t c hm => by simp only [↓State.memWf_of (State.openStart_kept _ _), hm]) hm⟩

theorem execSessionClose_ok (id : Nat) (s : State) : ∃ t, (execSessionClose id s) = .next t ∧ t.kept3 = s.kept3 ∧ (s.memWf →
    t.memWf) := by
  unfold execSessionClose
  exact ⟨_, rfl, State.starts_kept3 _ _ _ _ fun t c => by simp only [↓State.kept3_of (State.closeStart_kept _ _),
      ↓State.kept3_of (State.closeFinal_kept _ _)], fun hm => State.starts_memWf _ _ _ _ (fun t c hm => by simp only
      [↓State.memWf_of (State.closeStart_kept _ _), ↓State.memWf_of (State.closeFinal_kept _ _), hm]) hm⟩

theorem execMount_ok (id : Nat) (s : State) : ∃ t, (execMount id s) = .next t ∧ t.kept3 = s.kept3 ∧ (s.memWf → t.memWf) := by
  unfold execMount
  exact ⟨_, rfl, State.starts_kept3 _ _ _ _ fun t c => by simp only [↓State.kept3_of (State.mountStart_kept _ _)], fun hm =>
      State.starts_memWf _ _ _ _ (fun t c hm => by simp only [↓State.memWf_of (State.mountStart_kept _ _), hm]) hm⟩

theorem execUnmount_ok (id : Nat) (s : State) : ∃ t, (execUnmount id s) = .next t ∧ t.kept3 = s.kept3 ∧ (s.memWf → t.memWf)
    := by
  unfold execUnmount
  exact ⟨_, rfl, State.starts_kept3 _ _ _ _ fun t c => by simp only [↓State.kept3_of (State.unmountStart_kept _ _)], fun hm
      => State.starts_memWf _ _ _ _ (fun t c hm => by simp only [↓State.memWf_of (State.unmountStart_kept _ _), hm]) hm⟩

theorem execMoveDisc_ok (id : Nat) (s : State) : ∃ t, (execMoveDisc id s) = .next t ∧ t.kept3 = s.kept3 ∧ (s.memWf → t.memWf)
    := by
  unfold execMoveDisc
  exact ⟨_, rfl, State.starts_kept3 _ _ _ _ fun t c => by simp only [↓State.kept3_of (State.moveDiscStart_kept _ _)], fun hm
      => State.starts_memWf _ _ _ _ (fun t c hm => by simp only [↓State.memWf_of (State.moveDiscStart_kept _ _), hm]) hm⟩

theorem execCruiseNow_ok (id : Nat) (s : State) : ∃ t, (execCruiseNow id s) = .next t ∧ t.kept3 = s.kept3 ∧ (s.memWf →
    t.memWf) := by
  unfold execCruiseNow
  exact ⟨_, rfl, State.starts_kept3 _ _ _ _ fun t c => by grind [State.memWf, State.kept, State.kept3, State.setCmd_kept,
      State.finish_kept, State.sendWork_kept], fun hm => State.starts_memWf _ _ _ _ (fun t c hm => by grind [State.memWf,
      State.kept, State.kept3, State.setCmd_kept, State.finish_kept, State.sendWork_kept]) hm⟩

theorem execQueryBay_ok (id : Nat) (s : State) : ∃ t, (execQueryBay id s) = .next t ∧ t.kept3 = s.kept3 ∧ (s.memWf → t.memWf)
    := by
  unfold execQueryBay
  exact ⟨_, rfl, State.starts_kept3 _ _ _ _ fun t c => by simp only [↓State.kept3_of (State.hostWrite_kept _ _ _ _ _),
      ↓State.kept3_of (State.finish_kept _ _ _ _)], fun hm => State.starts_memWf _ _ _ _ (fun t c hm => by simp only
      [↓State.memWf_of (State.hostWrite_kept _ _ _ _ _), ↓State.memWf_of (State.finish_kept _ _ _ _), hm]) hm⟩

theorem State.setBank_kept (s : State) (b : Fin 2) (x : Bank) : (State.setBank s b x).kept = s.kept := by
  unfold State.setBank
  simp only [↓State.kept_mk, ↓State.kept_fold]

theorem execBundleDownload_ok (id : Nat) (s : State) : ∃ t, (execBundleDownload id s) = .next t ∧ t.kept3 = s.kept3 ∧
    (s.memWf → t.memWf) := by
  have h1 : ∀ (p : Prop) [Decidable p] (b : Fin 2) (x : Bank) (u : State), (if p then u.setBank b x else u).kept = u.kept := fun p _ b x u => by
    split
    · exact State.setBank_kept _ _ _
    · rfl
  have h2 : ∀ (t : State) (c : Cmd), (match t.chunkRefused c with
      | some st => t.finish c st 0
      | none => ((if c.word 7 = 0 then t.setBank t.altBank { st := .partly } else t).setCmd { c with wait := .host 0 }).hostRead c.func
          c.buffer (4096 * c.count) true (.cmd c.id)).kept = t.kept := fun t c => by
    split
    · exact State.finish_kept _ _ _ _
    · exact (State.hostRead_kept _ _ _ _ _ _).trans ((State.setCmd_kept _ _).trans (h1 _ _ _ _))
  unfold execBundleDownload
  split
  · exact ⟨_, rfl, rfl, fun h => h⟩
  · exact ⟨_, rfl, State.starts_kept3 _ _ _ _ fun t c => State.kept3_of (h2 t c),
      State.starts_memWf _ _ _ _ fun t c => (State.memWf_of (h2 t c)).2⟩

theorem execScheduleActivation_ok (id : Nat) (s : State) : ∃ t, (execScheduleActivation id s) = .next t ∧ t.kept3 = s.kept3 ∧
    (s.memWf → t.memWf) := by
  unfold execScheduleActivation
  exact ⟨_, rfl, State.starts_kept3 _ _ _ _ fun t c => by grind [State.memWf, State.kept, State.kept3, State.finish_kept],
      fun hm => State.starts_memWf _ _ _ _ (fun t c hm => by grind [State.memWf, State.kept, State.kept3, State.finish_kept])
      hm⟩

theorem execCancelActivation_ok (id : Nat) (s : State) : ∃ t, (execCancelActivation id s) = .next t ∧ t.kept3 = s.kept3 ∧
    (s.memWf → t.memWf) := by
  unfold execCancelActivation
  exact ⟨_, rfl, State.starts_kept3 _ _ _ _ fun t c => by grind [State.memWf, State.kept, State.kept3, State.finish_kept],
      fun hm => State.starts_memWf _ _ _ _ (fun t c hm => by grind [State.memWf, State.kept, State.kept3, State.finish_kept])
      hm⟩

theorem execConfirmHealth_ok (id : Nat) (s : State) : ∃ t, (execConfirmHealth id s) = .next t ∧ t.kept3 = s.kept3 ∧ (s.memWf
    → t.memWf) := by
  unfold execConfirmHealth
  exact ⟨_, rfl, State.starts_kept3 _ _ _ _ fun t c => by grind [State.memWf, State.kept, State.kept3, State.setCmd_kept,
      State.finish_kept, State.confirmSet_kept3], fun hm => State.starts_memWf _ _ _ _ (fun t c hm => by grind [State.memWf,
      State.kept, State.kept3, State.setCmd_kept, State.finish_kept, State.confirmSet_memWf]) hm⟩

theorem execGetLogPage_ok (id : Nat) (s : State) : ∃ t, (execGetLogPage id s) = .next t ∧ t.kept3 = s.kept3 ∧ (s.memWf →
    t.memWf) := by
  unfold execGetLogPage
  exact ⟨_, rfl, State.starts_kept3 _ _ _ _ fun t c => by simp only [↓State.kept3_of (State.hostWrite_kept _ _ _ _ _),
      ↓State.kept3_of (State.finish_kept _ _ _ _), ↓State.kept3_of (State.pageBytes_kept _ _ _)], fun hm =>
      State.starts_memWf _ _ _ _ (fun t c hm => by simp only [↓State.memWf_of (State.hostWrite_kept _ _ _ _ _),
      ↓State.memWf_of (State.finish_kept _ _ _ _), ↓State.memWf_of (State.pageBytes_kept _ _ _), hm]) hm⟩

theorem State.saveFeature_kept (s : State) (fid f v : Nat) : (State.saveFeature s fid f v).kept = s.kept := by
  unfold State.saveFeature
  (repeat' split) <;> simp only [↓State.kept_mk, ↓State.kept_fold]

theorem execSetFeature_ok (id : Nat) (s : State) : ∃ t, (execSetFeature id s) = .next t ∧ t.kept3 = s.kept3 ∧ (s.memWf →
    t.memWf) := by
  unfold execSetFeature
  exact ⟨_, rfl, State.starts_kept3 _ _ _ _ fun t c => by grind [State.memWf, State.kept, State.kept3, State.finish_kept,
      State.setFeature_kept, State.saveFeature_kept], fun hm => State.starts_memWf _ _ _ _ (fun t c hm => by grind
      [State.memWf, State.kept, State.kept3, State.finish_kept, State.setFeature_kept, State.saveFeature_kept]) hm⟩

theorem execGetFeature_ok (id : Nat) (s : State) : ∃ t, (execGetFeature id s) = .next t ∧ t.kept3 = s.kept3 ∧ (s.memWf →
    t.memWf) := by
  unfold execGetFeature
  exact ⟨_, rfl, State.starts_kept3 _ _ _ _ fun t c => by simp only [↓State.kept3_of (State.finish_kept _ _ _ _)], fun hm =>
      State.starts_memWf _ _ _ _ (fun t c hm => by simp only [↓State.memWf_of (State.finish_kept _ _ _ _), hm]) hm⟩

theorem execFieldRegisterRead_ok (id : Nat) (s : State) : ∃ t, (execFieldRegisterRead id s) = .next t ∧ t.kept3 = s.kept3 ∧
    (s.memWf → t.memWf) := by
  unfold execFieldRegisterRead
  exact ⟨_, rfl, State.starts_kept3 _ _ _ _ fun t c => by simp only [↓State.kept3_of (State.setCmd_kept _ _), ↓State.kept3_of
      (State.regsStep_kept _ _)], fun hm => State.starts_memWf _ _ _ _ (fun t c hm => by simp only [↓State.memWf_of
      (State.setCmd_kept _ _), ↓State.memWf_of (State.regsStep_kept _ _), hm]) hm⟩

theorem execFieldRegisterWrite_ok (id : Nat) (s : State) : ∃ t, (execFieldRegisterWrite id s) = .next t ∧ t.kept3 = s.kept3 ∧
    (s.memWf → t.memWf) := by
  unfold execFieldRegisterWrite
  exact ⟨_, rfl, State.starts_kept3 _ _ _ _ fun t c => by grind [State.memWf, State.kept, State.kept3, State.hostRead_kept,
      State.setCmd_kept, State.regsStep_kept], fun hm => State.starts_memWf _ _ _ _ (fun t c hm => by grind [State.memWf,
      State.kept, State.kept3, State.hostRead_kept, State.setCmd_kept, State.regsStep_kept]) hm⟩

theorem execRegDataTimeout_ok (id : Nat) (s : State) : ∃ t, (execRegDataTimeout id s) = .next t ∧ t.kept3 = s.kept3 ∧
    (s.memWf → t.memWf) := by
  unfold execRegDataTimeout
  (repeat' split) <;> exact ⟨_, rfl, by simp only [↓State.kept3_of (State.finish_kept _ _ _ _), ↓State.settle_kept3], fun hm
      => by simp only [↓State.memWf_of (State.finish_kept _ _ _ _), State.settle_memWf, hm]⟩

theorem State.rangeCommand_kept3 (s : State) (c : Cmd) : (State.rangeCommand s c).kept3 = s.kept3 := by
  unfold State.rangeCommand
  grind [State.kept3, State.kept, State.setCmd_kept, State.finish_kept, State.commandRange_kept3]

theorem State.rangeCommand_memWf (s : State) (c : Cmd) (hm : s.memWf) : (State.rangeCommand s c).memWf := by
  unfold State.rangeCommand
  grind [State.memWf, State.kept, State.setCmd_kept, State.finish_kept, State.commandRange_memWf]

theorem execScrubRange_ok (id : Nat) (upset : List (Nat × Nat)) (s : State) : ∃ t, (execScrubRange id upset s) = .next t ∧
    t.kept3 = s.kept3 ∧ (s.memWf → t.memWf) := by
  unfold execScrubRange
  exact ⟨_, rfl, (State.starts_kept3 _ _ _ _ fun t c => by simp only [↓State.rangeCommand_kept3]).trans (State.kept3_of
      (State.upset_kept _ _)), fun hm => State.starts_memWf _ _ _ _ (fun t c hm => by simp only [State.rangeCommand_memWf,
      hm]) ((State.memWf_of (State.upset_kept _ _)).2 hm)⟩

theorem execLandingRangeOp_ok (id : Nat) (upset : List (Nat × Nat)) (s : State) : ∃ t, (execLandingRangeOp id upset s) =
    .next t ∧ t.kept3 = s.kept3 ∧ (s.memWf → t.memWf) := by
  unfold execLandingRangeOp
  exact ⟨_, rfl, (State.starts_kept3 _ _ _ _ fun t c => by simp only [↓State.rangeCommand_kept3]).trans (State.kept3_of
      (State.upset_kept _ _)), fun hm => State.starts_memWf _ _ _ _ (fun t c hm => by simp only [State.rangeCommand_memWf,
      hm]) ((State.memWf_of (State.upset_kept _ _)).2 hm)⟩

theorem execScaleBookStale_ok (id : Nat) (s : State) : ∃ t, (execScaleBookStale id s) = .next t ∧ t.kept3 = s.kept3 ∧
    (s.memWf → t.memWf) := by
  have h1 : ∀ (l : List Nat) (u : State), (l.foldl State.staleSlot u).kept = u.kept :=
    fun l u => State.kept_foldl _ _ _ fun t x => State.staleSlot_kept _ _
  have h2 : ∀ (l : List Nat) (t : State) (c : Cmd) (a b : Nat), ((l.foldl State.staleSlot t).finish c a b).kept = t.kept :=
    fun l t c a b => (State.finish_kept _ _ _ _).trans (h1 _ _)
  unfold execScaleBookStale
  split
  · split
    · exact ⟨_, rfl, rfl, fun h => h⟩
    · exact ⟨_, rfl, State.starts_kept3 _ _ _ _ fun t c => State.kept3_of (h2 _ _ _ _ _),
        State.starts_memWf _ _ _ _ fun t c => (State.memWf_of (h2 _ _ _ _ _)).2⟩
  · exact ⟨_, rfl, rfl, fun h => h⟩

theorem execScaleBookHint_ok (id : Nat) (s : State) : ∃ t, (execScaleBookHint id s) = .next t ∧ t.kept3 = s.kept3 ∧ (s.memWf
    → t.memWf) := by
  have h2 : ∀ (l : List Hint) (t : State) (c : Cmd) (a b : Nat),
      (({ t with vlk := { t.vlk with hints := l } } : State).finish c a b).kept = t.kept := fun l t c a b => by
    rw [State.finish_kept, State.kept_mk, State.kept_fold]
  unfold execScaleBookHint
  split
  · split
    · exact ⟨_, rfl, rfl, fun h => h⟩
    · exact ⟨_, rfl, State.starts_kept3 _ _ _ _ fun t c => State.kept3_of (h2 _ _ _ _ _),
        State.starts_memWf _ _ _ _ fun t c => (State.memWf_of (h2 _ _ _ _ _)).2⟩
  · exact ⟨_, rfl, rfl, fun h => h⟩

theorem execSetTime_ok (id : Nat) (s : State) : ∃ t, (execSetTime id s) = .next t ∧ t.kept3 = s.kept3 ∧ (s.memWf → t.memWf)
    := by
  unfold execSetTime
  exact ⟨_, rfl, State.starts_kept3 _ _ _ _ fun t c => by simp only [↓State.kept3_mk, ↓State.kept3_fold, ↓State.kept3_of
      (State.irq_kept _ _), ↓State.kept3_of (State.seeTime_kept _), ↓State.kept3_of (State.finish_kept _ _ _ _)], fun hm =>
      State.starts_memWf _ _ _ _ (fun t c hm => by simp only [↓State.memWf_mk, ↓State.memWf_fold, ↓State.memWf_of
      (State.irq_kept _ _), ↓State.memWf_of (State.seeTime_kept _), ↓State.memWf_of (State.finish_kept _ _ _ _), hm]) hm⟩

end Sys2Proof.Machine
end

