-- ==== Sys2Proof/Laws/KeptEndpoint.lean ====
section
/-! SUPPORT. What no command changes, and the form of memory: lemmas of Endpoint. -/
namespace Sys2Proof.Machine

set_option linter.unusedSimpArgs false
set_option linter.unusedTactic false
set_option linter.unnecessarySeqFocus false
set_option linter.unreachableTactic false
set_option linter.tactic.unusedName false

theorem State.complete_kept (s : State) (f : Nat) (bs : Bytes) : (State.complete s f bs).kept = s.kept := by
  unfold State.complete
  simp only [↓State.emit_kept]

theorem State.badAccess_kept (s : State) (r : Bar0Req) : (State.badAccess s r).kept = s.kept := by
  unfold State.badAccess
  grind [State.kept_mk, State.put_kept, State.bump_kept, State.emit_kept, State.aer_kept]

theorem State.unsupported_kept (s : State) (r : Bar0Req) : (State.unsupported s r).kept = s.kept := by
  unfold State.unsupported
  grind [State.kept_mk, State.emit_kept, State.aer_kept]

theorem State.tableWrite_kept (s : State) (f o w : Nat) : (State.tableWrite s f o w).kept = s.kept := by
  unfold State.tableWrite
  grind [State.kept_mk, State.setMsix_kept]

theorem State.barRead_kept (s : State) (f o : Nat) : (State.barRead s f o).1.kept = s.kept := by
  unfold State.barRead
  grind [State.kept_mk, State.hubLoad_kept]

theorem State.barWrite_kept3 (s : State) (f o w : Nat) : (State.barWrite s f o w).kept3 = s.kept3 := by
  unfold State.barWrite
  grind [State.kept3, State.kept, State.hubWrite_kept3]

theorem State.barWrite_memWf (s : State) (f o w : Nat) (hm : s.memWf) : (State.barWrite s f o w).memWf := by
  unfold State.barWrite
  grind [State.memWf, State.kept, State.hubWrite_memWf]

theorem State.bar0_kept3 (s : State) (r : Bar0Req) : (State.bar0 s r).kept3 = s.kept3 := by
  have h1 : ∀ (l : List (Nat × Nat)) (f : Nat) (u : State), (l.foldl (fun (t : State) x => t.barWrite f x.1 x.2) u).kept3 = u.kept3 :=
    fun l f u => State.kept3_foldl _ _ _ fun t x => State.barWrite_kept3 _ _ _ _
  have h2 : ∀ (l : List (Nat × Nat)) (f : Nat) (p : State × Bytes), (l.foldl (fun (x : State × Bytes) (y : Nat × Nat) =>
      match x.1.barRead f y.1 with | (t, v) => (t, x.2 ++ leBytes 4 v)) p).1.kept3 = p.1.kept3 :=
    fun l f p => State.kept3_foldl_fst _ _ _ fun t y x => State.kept3_of (State.barRead_kept t f x.1)
  unfold State.bar0
  extract_lets f write s1
  have h3 : s1.kept3 = s.kept3 := State.kept3_of (State.pevLog_kept _ _ _ _ _)
  clear_value s1
  split
  · split
    · exact h3
    · exact (State.kept3_of (State.complete_kept _ _ _)).trans h3
  · split
    · exact h1 _ _ _
    · exact (State.kept3_of (State.complete_kept _ _ _)).trans (h2 _ _ _)

theorem State.bar0_memWf (s : State) (r : Bar0Req) (hm : s.memWf) : (State.bar0 s r).memWf := by
  unfold State.bar0
  extract_lets f write
  split
  · split
    · exact (State.memWf_of (State.pevLog_kept _ _ _ _ _)).2 hm
    · exact (State.memWf_of (State.complete_kept _ _ _)).2 ((State.memWf_of (State.pevLog_kept _ _ _ _ _)).2 hm)
  · split
    · exact State.memWf_foldl _ _ _ (fun t x h => State.barWrite_memWf _ _ _ _ h) hm
    · have h := State.memWf_foldl_fst (fun (x : State × Bytes) (y : Nat × Nat) =>
        match x.1.barRead f y.1 with | (t, v) => (t, x.2 ++ leBytes 4 v)) r.words (s, []) (fun t y x ht =>
          (State.memWf_of (State.barRead_kept t f x.1)).2 ht) hm
      split
      rename_i he
      rw [he] at h
      exact (State.memWf_of (State.complete_kept _ _ _)).2 h

theorem State.bar4_kept (s : State) (r : Bar0Req) : (State.bar4 s r).kept = s.kept := by
  unfold State.bar4
  (repeat' split) <;> simp_all [↓State.complete_kept, ↓State.tableWrite_kept, State.kept_foldl]

theorem execBar0Request_ok (r : Bar0Req) (s : State) : ∃ t, (execBar0Request r s) = .next t ∧ t.kept3 = s.kept3 ∧ (s.memWf →
    t.memWf) := by
  unfold execBar0Request
  (repeat' split) <;> exact ⟨_, rfl, by simp only [↓State.settle_kept3, ↓State.kept3_of (State.badAccess_kept _ _),
      ↓State.kept3_of (State.unsupported_kept _ _), ↓State.bar0_kept3, ↓State.kept3_of (State.bar4_kept _ _)], fun hm => by
      simp only [State.settle_memWf, ↓State.memWf_of (State.badAccess_kept _ _), ↓State.memWf_of (State.unsupported_kept _
      _), State.bar0_memWf, ↓State.memWf_of (State.bar4_kept _ _), hm]⟩

theorem execBmeClear_ok (f : Fin 64) (s : State) : ∃ t, (execBmeClear f s) = .next t ∧ t.kept3 = s.kept3 ∧ (s.memWf →
    t.memWf) := by
  unfold execBmeClear
  grind [State.memWf, State.kept, State.kept3, State.setFn_kept, State.irq_kept, State.haltHost_kept3, State.haltHost_memWf]

theorem execBmeSet_ok (f : Fin 64) (cfg : FnCfg) (numVfs : Option (Fin 64)) (s : State) : ∃ t, (execBmeSet f cfg numVfs s) =
    .next t ∧ t.kept3 = s.kept3 ∧ (s.memWf → t.memWf) := by
  unfold execBmeSet
  grind [State.memWf, State.kept, State.kept3, State.setFn_kept, State.irq_kept, State.settle_kept3, State.settle_memWf,
      State.resumeHost_kept]

theorem execFunctionLevelReset_ok (f : Fin 64) (vfEnableClear : Bool) (s : State) : ∃ t, (execFunctionLevelReset f
    vfEnableClear s) = .next t ∧ t.kept3 = s.kept3 ∧ (s.memWf → t.memWf) := by
  unfold execFunctionLevelReset
  (repeat' split) <;> exact ⟨_, rfl, by simp only [↓State.settle_kept3, ↓State.kept3_of (State.dropVfs_kept _),
      ↓State.flr_kept3], fun hm => by simp only [State.settle_memWf, ↓State.memWf_of (State.dropVfs_kept _), State.flr_memWf,
      hm]⟩

theorem execD3hotEntry_ok (f : Fin 64) (s : State) : ∃ t, (execD3hotEntry f s) = .next t ∧ t.kept3 = s.kept3 ∧ (s.memWf →
    t.memWf) := by
  unfold execD3hotEntry
  grind [State.memWf, State.kept, State.kept3, State.setFn_kept, State.irq_kept, State.haltHost_kept3, State.haltHost_memWf]

theorem execD0Return_ok (f : Fin 64) (s : State) : ∃ t, (execD0Return f s) = .next t ∧ t.kept3 = s.kept3 ∧ (s.memWf →
    t.memWf) := by
  unfold execD0Return
  grind [State.memWf, State.kept, State.kept3, State.setFn_kept, State.irq_kept, State.settle_kept3, State.settle_memWf,
      State.resumeHost_kept]

theorem execPerstAssert_ok (s : State) : ∃ t, (execPerstAssert s) = .next t ∧ t.kept3 = s.kept3 ∧ (s.memWf → t.memWf) := by
  unfold execPerstAssert
  (repeat' split) <;> exact ⟨_, rfl, by simp only [↓State.kept3_mk, ↓State.kept3_fold, ↓State.hubReset_kept3], fun hm => by
      simp only [↓State.memWf_mk, ↓State.memWf_fold, State.hubReset_memWf, hm]⟩

theorem execHotReset_ok (s : State) : ∃ t, (execHotReset s) = .next t ∧ t.kept3 = s.kept3 ∧ (s.memWf → t.memWf) := by
  unfold execHotReset
  (repeat' split) <;> exact ⟨_, rfl, by simp only [↓State.hubReset_kept3], fun hm => by simp only [State.hubReset_memWf, hm]⟩

theorem State.dropOrphans_kept (s : State) : (State.dropOrphans s).kept = s.kept := by
  unfold State.dropOrphans
  (repeat' split) <;> simp_all [↓State.killRead_kept, State.kept_foldl]

theorem State.setPiece_kept (s : State) (r : HostRead) (tag : Nat) (p : Piece) : (State.setPiece s r tag p).kept = s.kept :=
    by
  unfold State.setPiece
  simp only [↓State.kept_mk, ↓State.kept_fold]

theorem State.readFailed_kept (s : State) (r : HostRead) : (State.readFailed s r).kept = s.kept := by
  unfold State.readFailed
  grind [State.kept_mk, State.finish_kept, State.fetch_kept, State.openFail_kept, State.giveContext_kept]

theorem State.readGoes_kept3 (s : State) (r : HostRead) : (State.readGoes s r).kept3 = s.kept3 := by
  unfold State.readGoes
  grind [State.kept3, State.kept, State.setCmd_kept, State.fetch_kept, State.dropRead_kept, State.recordMore_kept3,
      State.openToken_kept, State.regsStep_kept]

theorem State.readGoes_memWf (s : State) (r : HostRead) (hm : s.memWf) : (State.readGoes s r).memWf := by
  unfold State.readGoes
  grind [State.memWf, State.kept, State.setCmd_kept, State.fetch_kept, State.dropRead_kept, State.recordMore_memWf,
      State.openToken_kept, State.regsStep_kept]

theorem State.deadCompletion_kept (s : State) (x : CompletionIn) (f : Nat) (counted : Bool) : (State.deadCompletion s x f
    counted).kept = s.kept := by
  unfold State.deadCompletion
  (repeat' split) <;> simp only [↓State.kept_mk, ↓State.kept_fold, ↓State.bump_kept]

theorem execCompletionReceived_ok (x : CompletionIn) (s : State) : ∃ t, (execCompletionReceived x s) = .next t ∧ t.kept3 =
    s.kept3 ∧ (s.memWf → t.memWf) := by
  unfold execCompletionReceived
  grind [State.memWf, State.kept, State.kept3, State.bump_kept, State.aer_kept, State.settle_kept3, State.settle_memWf,
      State.dropOrphans_kept, State.setPiece_kept, State.readFailed_kept, State.readGoes_kept3, State.readGoes_memWf,
      State.deadCompletion_kept]

theorem execCompletionTimeout_ok (tag : Nat) (s : State) : ∃ t, (execCompletionTimeout tag s) = .next t ∧ t.kept3 = s.kept3 ∧
    (s.memWf → t.memWf) := by
  unfold execCompletionTimeout
  grind [State.memWf, State.kept, State.kept3, State.bump_kept, State.aer_kept, State.settle_kept3, State.settle_memWf,
      State.dropOrphans_kept, State.setPiece_kept, State.readFailed_kept]

theorem State.issueRead_kept (s : State) (r : HostRead) : (State.issueRead s r).kept = s.kept := by
  unfold State.issueRead
  simp only [↓State.kept_mk, ↓State.kept_fold, ↓State.tagPeak_kept, ↓issuePieces_kept]

theorem execReadPieceIssue_kept (s : State) : ∃ t, (execReadPieceIssue s) = .next t ∧ t.kept = s.kept := by
  unfold execReadPieceIssue
  (repeat' split) <;> exact ⟨_, rfl, by simp [↓State.dropOrphans_kept, ↓State.issueRead_kept, State.kept_foldl]⟩

theorem execMsixSend_kept (f : Fin 64) (v : Nat) (s : State) : ∃ t, (execMsixSend f v s) = .next t ∧ t.kept = s.kept := by
  unfold execMsixSend
  (repeat' split) <;> exact ⟨_, rfl, by simp only [↓State.msixFire_kept]⟩

theorem execMsixUnmask_kept (f : Fin 64) (v : Nat) (s : State) : ∃ t, (execMsixUnmask f v s) = .next t ∧ t.kept = s.kept :=
    by
  unfold execMsixUnmask
  (repeat' split) <;> exact ⟨_, rfl, by simp [↓State.kept_mk, ↓State.kept_fold, ↓State.kept_ite, ↓State.setMsix_kept,
      ↓State.msixFire_kept]⟩

theorem State.phyLanes_kept (s : State) (width : Nat) : (State.phyLanes s width).kept = s.kept := by
  unfold State.phyLanes
  grind [State.kept_mk, State.bump_kept, State.setDomain_kept]

theorem State.linkTrained_kept (s : State) (recovery full : Bool) (rate width : Nat) (flit up : Bool) : (State.linkTrained s
    recovery full rate width flit up).kept = s.kept := by
  unfold State.linkTrained
  grind [State.kept_mk, State.put_kept, State.bump_kept, State.irq_kept, State.phyLanes_kept]

theorem execLinkRecovery_kept (recovery : Bool) (rate : Fin 8) (width : Fin 9) (flit up : Bool) (s : State) : ∃ t,
    (execLinkRecovery recovery rate width flit up s) = .next t ∧ t.kept = s.kept := by
  unfold execLinkRecovery
  (repeat' split) <;> exact ⟨_, rfl, by simp only [↓State.linkTrained_kept]⟩

theorem execLinkFullRateRetrain_kept (rate : Fin 8) (width : Fin 9) (flit : Bool) (s : State) : ∃ t, (execLinkFullRateRetrain
    rate width flit s) = .next t ∧ t.kept = s.kept := by
  unfold execLinkFullRateRetrain
  (repeat' split) <;> exact ⟨_, rfl, by simp [↓State.kept_mk, ↓State.kept_fold, ↓State.kept_ite, ↓State.linkTrained_kept]⟩

end Sys2Proof.Machine
end

