-- ==== Sys2Proof/Laws/KeptInterrupt.lean ====
section
/-! SUPPORT. What no command changes, and the form of memory: lemmas of Interrupt. -/
namespace Sys2Proof.Machine

set_option linter.unusedSimpArgs false
set_option linter.unusedTactic false
set_option linter.unnecessarySeqFocus false
set_option linter.unreachableTactic false
set_option linter.tactic.unusedName false

theorem execHicSourceEvent_kept (n : Nat) (level : Bool) (s : State) : ∃ t, (execHicSourceEvent n level s) = .next t ∧ t.kept
    = s.kept := by
  unfold execHicSourceEvent
  (repeat' split) <;> exact ⟨_, rfl, by simp only [↓State.hicInput_kept]⟩

theorem execHicClaimRead_kept (c : Fin 8) (s : State) : ∃ t, (execHicClaimRead c s) = .next t ∧ t.kept = s.kept := by
  unfold execHicClaimRead
  have h := State.hicClaim_kept s c
  split
  rename_i u v he
  rw [he] at h
  exact ⟨_, rfl, by rw [State.kept_mk, State.kept_fold]; exact h⟩

theorem execHicClaimWrite_kept (c : Fin 8) (n : Fin 1024) (s : State) : ∃ t, (execHicClaimWrite c n s) = .next t ∧ t.kept =
    s.kept := by
  unfold execHicClaimWrite
  (repeat' split) <;> exact ⟨_, rfl, by simp only [↓State.hicComplete_kept]⟩

theorem execHicTriggerWrite_kept (n : Nat) (s : State) : ∃ t, (execHicTriggerWrite n s) = .next t ∧ t.kept = s.kept := by
  unfold execHicTriggerWrite
  (repeat' split) <;> exact ⟨_, rfl, by simp only [↓State.hicTrigger_kept]⟩

theorem execHicSrcCfgWrite_kept (by_ : Fin 8) (n : Fin 256) (w : Word) (s : State) : ∃ t, (execHicSrcCfgWrite by_ n w s) =
    .next t ∧ t.kept = s.kept := by
  unfold execHicSrcCfgWrite
  (repeat' split) <;> exact ⟨_, rfl, by simp only [↓State.hicWrite_kept]⟩

theorem execMsipWrite_kept (by_ c : Fin 8) (w : Word) (s : State) : ∃ t, (execMsipWrite by_ c w s) = .next t ∧ t.kept =
    s.kept := by
  unfold execMsipWrite
  (repeat' split) <;> exact ⟨_, rfl, by simp only [↓State.hicWrite_kept]⟩

theorem execMtimecmpReached_kept (c : Fin 8) (s : State) : ∃ t, (execMtimecmpReached c s) = .next t ∧ t.kept = s.kept := by
  unfold execMtimecmpReached
  (repeat' split) <;> exact ⟨_, rfl, by simp only [↓State.timerCheck_kept]⟩

end Sys2Proof.Machine
end

