-- ==== Sys2Proof/Laws/KeptUpdate.lean ====
section
/-! SUPPORT. What no command changes, and the form of memory: lemmas of Update. -/
namespace Sys2Proof.Machine

set_option linter.unusedSimpArgs false
set_option linter.unusedTactic false
set_option linter.unnecessarySeqFocus false
set_option linter.unreachableTactic false
set_option linter.tactic.unusedName false

theorem execFlashOperationDone_ok (s : State) : ∃ t, (execFlashOperationDone s) = .next t ∧ t.kept3 = s.kept3 ∧ (s.memWf →
    t.memWf) := by
  unfold execFlashOperationDone
  grind [State.memWf, State.kept, State.kept3, State.putBytes_kept3, State.putBytes_memWf, State.irq_kept, State.finish_kept,
      State.settle_kept3, State.settle_memWf, State.setBank_kept]

theorem execActivationStart_ok (s : State) : ∃ t, (execActivationStart s) = .next t ∧ t.kept3 = s.kept3 ∧ (s.memWf → t.memWf)
    := by
  unfold execActivationStart
  (repeat' split) <;> exact ⟨_, rfl, by simp only [↓State.kept3_of (State.irq_kept _ _), ↓State.beginRun_kept3], fun hm => by
      simp only [↓State.memWf_of (State.irq_kept _ _), State.beginRun_memWf, hm]⟩

theorem execActivationDrainDone_ok (s : State) : ∃ t, (execActivationDrainDone s) = .next t ∧ t.kept3 = s.kept3 ∧ (s.memWf →
    t.memWf) := by
  unfold execActivationDrainDone
  (repeat' split) <;> exact ⟨_, rfl, by simp only [↓State.beginFlush_kept3], fun hm => by simp only [State.beginFlush_memWf,
      hm]⟩

theorem execActivationFlushDone_kept (s : State) : ∃ t, (execActivationFlushDone s) = .next t ∧ t.kept = s.kept := by
  unfold execActivationFlushDone
  (repeat' split) <;> exact ⟨_, rfl, by simp only [↓State.endFlush_kept]⟩

theorem execActivationReset_ok (s : State) : ∃ t, (execActivationReset s) = .next t ∧ t.kept3 = s.kept3 ∧ (s.memWf → t.memWf)
    := by
  unfold execActivationReset
  (repeat' split) <;> exact ⟨_, rfl, by simp only [↓State.finishRun_kept3], fun hm => by simp only [State.finishRun_memWf,
      hm]⟩

theorem State.bootActive_kept (s : State) : (State.bootActive s).kept = s.kept := by
  unfold State.bootActive
  simp only [↓State.kept_mk, ↓State.kept_fold, ↓State.kept_ite, ↓State.kept_fst_ite, ↓State.epEvt_kept]
  (repeat' split) <;> simp only [↓State.kept_mk, ↓State.kept_fold, ↓State.kept_ite, ↓State.kept_fst_ite, ↓State.epEvt_kept,
      ite_self]

theorem State.rejectSet_kept3 (s : State) (reason index : Nat) : (State.rejectSet s reason index).kept3 = s.kept3 := by
  unfold State.rejectSet
  simp only [↓State.kept3_mk, ↓State.kept3_fold, ↓State.kept3_of (State.bump_kept _ _ _ _ _), ↓State.kept3_of
      (State.raiseHub_kept _ _ _ _ _ _), ↓State.kept3_of (State.fwHistory_kept _ _ _ _ _ _), ↓State.writeJournal_kept3,
      ↓State.kept3_of (State.bootActive_kept _)]

theorem State.rejectSet_memWf (s : State) (reason index : Nat) (hm : s.memWf) : (State.rejectSet s reason index).memWf := by
  unfold State.rejectSet
  simp only [↓State.memWf_mk, ↓State.memWf_fold, ↓State.memWf_of (State.bump_kept _ _ _ _ _), ↓State.memWf_of
      (State.raiseHub_kept _ _ _ _ _ _), ↓State.memWf_of (State.fwHistory_kept _ _ _ _ _ _), State.writeJournal_memWf,
      ↓State.memWf_of (State.bootActive_kept _), hm]

theorem State.abandonSet_kept3 (s : State) : (State.abandonSet s).kept3 = s.kept3 := by
  unfold State.abandonSet
  simp only [↓State.kept3_mk, ↓State.kept3_fold, ↓State.kept3_of (State.bump_kept _ _ _ _ _), ↓State.kept3_of
      (State.raiseHub_kept _ _ _ _ _ _), ↓State.kept3_of (State.fwHistory_kept _ _ _ _ _ _), ↓State.writeJournal_kept3,
      ↓State.kept3_of (State.bootActive_kept _)]

theorem State.abandonSet_memWf (s : State) (hm : s.memWf) : (State.abandonSet s).memWf := by
  unfold State.abandonSet
  simp only [↓State.memWf_mk, ↓State.memWf_fold, ↓State.memWf_of (State.bump_kept _ _ _ _ _), ↓State.memWf_of
      (State.raiseHub_kept _ _ _ _ _ _), ↓State.memWf_of (State.fwHistory_kept _ _ _ _ _ _), State.writeJournal_memWf,
      ↓State.memWf_of (State.bootActive_kept _), hm]

theorem execBootCheck_ok (s : State) : ∃ t, (execBootCheck s) = .next t ∧ t.kept3 = s.kept3 ∧ (s.memWf → t.memWf) := by
  unfold execBootCheck
  grind [State.memWf, State.kept, State.kept3, State.writeJournal_kept3, State.writeJournal_memWf, State.rejectSet_kept3,
      State.rejectSet_memWf]

theorem State.rollback_kept3 (s : State) (reason : Nat) : (State.rollback s reason).kept3 = s.kept3 := by
  unfold State.rollback
  simp only [↓State.beginRun_kept3]

theorem State.rollback_memWf (s : State) (reason : Nat) (hm : s.memWf) : (State.rollback s reason).memWf := by
  unfold State.rollback
  simp only [State.beginRun_memWf, hm]

theorem execSelfTestDone_ok (s : State) : ∃ t, (execSelfTestDone s) = .next t ∧ t.kept3 = s.kept3 ∧ (s.memWf → t.memWf) := by
  unfold execSelfTestDone
  grind [State.memWf, State.kept, State.kept3, State.confirmSet_kept3, State.confirmSet_memWf, State.rollback_kept3,
      State.rollback_memWf]

theorem execConfirmationWindowExpiry_ok (s : State) : ∃ t, (execConfirmationWindowExpiry s) = .next t ∧ t.kept3 = s.kept3 ∧
    (s.memWf → t.memWf) := by
  unfold execConfirmationWindowExpiry
  (repeat' split) <;> exact ⟨_, rfl, by simp only [↓State.kept3_of (State.epEvt_kept _ _), ↓State.rollback_kept3], fun hm =>
      by simp only [↓State.memWf_of (State.epEvt_kept _ _), State.rollback_memWf, hm]⟩

end Sys2Proof.Machine
end

