-- ==== Sys2Proof/Laws/KeptPwrOps.lean ====
section
/-! SUPPORT. What no command changes, and the form of memory: lemmas of PwrOps. -/
namespace Sys2Proof.Machine

set_option linter.unusedSimpArgs false
set_option linter.unusedTactic false
set_option linter.unnecessarySeqFocus false
set_option linter.unreachableTactic false
set_option linter.tactic.unusedName false

theorem State.dieTrips_kept3 (s : State) (d : Die) (supply hot : Bool) : (State.dieTrips s d supply hot).kept3 = s.kept3 :=
    by
  unfold State.dieTrips
  simp only [↓State.kept3_of (State.setDie_kept _ _ _), ↓State.kept3_of (State.setPort_kept _ _ _), ↓State.portDown_kept3,
      ↓State.kept3_of (State.dieReset_kept _ _ _)]

theorem State.dieTrips_memWf (s : State) (d : Die) (supply hot : Bool) (hm : s.memWf) : (State.dieTrips s d supply hot).memWf
    := by
  unfold State.dieTrips
  simp only [↓State.memWf_of (State.setDie_kept _ _ _), ↓State.memWf_of (State.setPort_kept _ _ _), State.portDown_memWf,
      ↓State.memWf_of (State.dieReset_kept _ _ _), hm]

end Sys2Proof.Machine
end

