-- ==== Sys2Proof/Laws/KeptPower.lean ====
section
/-! SUPPORT. What no command changes, and the form of memory: lemmas of Power. -/
namespace Sys2Proof.Machine

set_option linter.unusedSimpArgs false
set_option linter.unusedTactic false
set_option linter.unnecessarySeqFocus false
set_option linter.unreachableTactic false
set_option linter.tactic.unusedName false

theorem execRomStageBoot_ok (s : State) : ∃ t, (execRomStageBoot s) = .next t ∧ t.kept3 = s.kept3 ∧ (s.memWf → t.memWf) := by
  unfold execRomStageBoot
  grind [State.memWf, State.kept, State.kept3, State.writeJournal_kept3, State.writeJournal_memWf, State.applyBootBlock_kept,
      State.bootActive_kept, State.rejectSet_kept3, State.rejectSet_memWf, State.abandonSet_kept3, State.abandonSet_memWf]

theorem State.sizeDomains_kept (s : State) (channels setsLog2 : Nat) : (State.sizeDomains s channels setsLog2).kept = s.kept
    := by
  unfold State.sizeDomains
  (repeat' split) <;> simp_all [↓State.setDomain_kept, State.kept_foldl]

theorem execStump2BringUp_ok (channels : Nat) (setsLog2 : Nat) (writes : List (Nat × Word)) (s : State) : ∃ t,
    (execStump2BringUp channels setsLog2 writes s) = .next t ∧ t.kept3 = s.kept3 ∧ (s.memWf → t.memWf) := by
  have h1 : ∀ (l : List Die) (p : State → Die → Prop) [∀ t d, Decidable (p t d)] (u : State),
      (l.foldl (fun (t : State) (d : Die) => if p t d then t.trainPort d else t) u).kept = u.kept :=
    fun l p _ u => State.kept_foldl _ _ _ fun t d => by
      split
      · exact State.trainPort_kept _ _
      · rfl
  have h2 : ∀ (l : List (Nat × Word)) (u : State), (l.foldl (fun (t : State) e => t.hubWrite (Init.ofCore 0) e.1 e.2) u).kept3 = u.kept3 :=
    fun l u => State.kept3_foldl _ _ _ fun t e => State.hubWrite_kept3 _ _ _ _
  have h3 : ∀ (l : List (Nat × Word)) (u : State), u.memWf → (l.foldl (fun (t : State) e => t.hubWrite (Init.ofCore 0) e.1 e.2) u).memWf :=
    fun l u hu => State.memWf_foldl _ _ _ (fun t e h => State.hubWrite_memWf _ _ _ _ h) hu
  unfold execStump2BringUp
  split
  · exact ⟨_, rfl, rfl, id⟩
  · refine ⟨_, rfl, ?_, fun hm => ?_⟩
    · rw [State.kept3_of (State.put_kept _ _ _ _ _ _), h2]
      refine State.kept3_of ((h1 _ (fun t d => _) _).trans ?_)
      simp only [State.kept_mk, State.kept_fold, State.takeSettings_kept, State.sizeDomains_kept, State.put_kept]
    · refine (State.memWf_of (State.put_kept _ _ _ _ _ _)).2 (h3 _ _ ?_)
      refine (State.memWf_of ((h1 _ (fun t d => _) _).trans ?_)).2 hm
      simp only [State.kept_mk, State.kept_fold, State.takeSettings_kept, State.sizeDomains_kept, State.put_kept]

theorem execMemoryInitDone_kept (s : State) : ∃ t, (execMemoryInitDone s) = .next t ∧ t.kept = s.kept := by
  unfold execMemoryInitDone
  (repeat' split) <;> exact ⟨_, rfl, by simp [↓State.kept_mk, ↓State.kept_fold, ↓State.kept_ite, ↓State.put_kept,
      ↓State.epEvt_kept]⟩

theorem execFpwBootGo_kept (d : Die) (s : State) : ∃ t, (execFpwBootGo d s) = .next t ∧ t.kept = s.kept := by
  unfold execFpwBootGo
  (repeat' split) <;> exact ⟨_, rfl, by simp only [↓State.bootGo_kept]⟩

theorem execFieldReady_ok (s : State) : ∃ t, (execFieldReady s) = .next t ∧ t.kept3 = s.kept3 ∧ (s.memWf → t.memWf) := by
  unfold execFieldReady
  (repeat' split) <;> exact ⟨_, rfl, by simp only [↓State.kept3_of (State.put_kept _ _ _ _ _ _), ↓State.settle_kept3], fun hm
      => by simp only [↓State.memWf_of (State.put_kept _ _ _ _ _ _), State.settle_memWf, hm]⟩

theorem execHostSupplyTrip_ok (s : State) : ∃ t, (execHostSupplyTrip s) = .next t ∧ t.kept3 = s.kept3 ∧ (s.memWf → t.memWf)
    := by
  unfold execHostSupplyTrip
  grind [State.memWf, State.kept, State.kept3, State.hubReset_kept3, State.hubReset_memWf]

theorem execHostSupplyRelease_kept (s : State) : ∃ t, (execHostSupplyRelease s) = .next t ∧ t.kept = s.kept := by
  unfold execHostSupplyRelease
  (repeat' split) <;> exact ⟨_, rfl, by simp only [↓State.kept_mk, ↓State.kept_fold]⟩

theorem execFabricPllLockTimeout_kept (s : State) : ∃ t, (execFabricPllLockTimeout s) = .next t ∧ t.kept = s.kept := by
  unfold execFabricPllLockTimeout
  (repeat' split) <;> exact ⟨_, rfl, by simp only [↓State.kept_mk, ↓State.kept_fold]⟩

theorem execVauxLoss_ok (s : State) : ∃ t, (execVauxLoss s) = .next t ∧ t.kept3 = s.kept3 ∧ (s.memWf → t.memWf) := by
  unfold execVauxLoss
  (repeat' split) <;> exact ⟨_, rfl, by simp only [↓State.kept3_mk, ↓State.kept3_fold, ↓State.hubReset_kept3], fun hm => by
      simp only [↓State.memWf_mk, ↓State.memWf_fold, State.hubReset_memWf, hm]⟩

theorem execFieldSupplyTrip_ok (d : Die) (s : State) : ∃ t, (execFieldSupplyTrip d s) = .next t ∧ t.kept3 = s.kept3 ∧
    (s.memWf → t.memWf) := by
  unfold execFieldSupplyTrip
  (repeat' split) <;> exact ⟨_, rfl, by simp only [↓State.dieTrips_kept3], fun hm => by simp only [State.dieTrips_memWf, hm]⟩

theorem execJunctionOvertemp_ok (d : Die) (s : State) : ∃ t, (execJunctionOvertemp d s) = .next t ∧ t.kept3 = s.kept3 ∧
    (s.memWf → t.memWf) := by
  unfold execJunctionOvertemp
  grind [State.memWf, State.kept, State.kept3, State.hubReset_kept3, State.hubReset_memWf, State.dieTrips_kept3,
      State.dieTrips_memWf]

theorem execJunctionOvertempRelease_kept (d : Die) (s : State) : ∃ t, (execJunctionOvertempRelease d s) = .next t ∧ t.kept =
    s.kept := by
  unfold execJunctionOvertempRelease
  (repeat' split) <;> exact ⟨_, rfl, by simp only [↓State.kept_mk, ↓State.kept_fold, ↓State.setDie_kept]⟩

theorem execVmechSample_kept (code : Fin 4096) (s : State) : ∃ t, (execVmechSample code s) = .next t ∧ t.kept = s.kept := by
  unfold execVmechSample
  (repeat' split) <;> exact ⟨_, rfl, by simp [↓State.kept_ite, ↓State.setDie_kept]⟩

theorem State.transfersStop_kept (s : State) : (State.transfersStop s).kept = s.kept := by
  unfold State.transfersStop
  simp only []
  (repeat' split) <;> (try refine (State.kept_foldl _ _ _ fun t x => ?_).trans ?_) <;> (try dsimp only) <;> (repeat' split)
      <;> (try simp only []) <;> grind [State.kept_mk, State.endItem_kept, State.setYrd_kept, State.yrdFault_kept]

theorem execFpwVmechLow_kept (s : State) : ∃ t, (execFpwVmechLow s) = .next t ∧ t.kept = s.kept := by
  unfold execFpwVmechLow
  (repeat' split) <;> exact ⟨_, rfl, by simp [↓State.kept_ite, ↓State.bump_kept, ↓State.setDie_kept, ↓State.raiseDie_kept,
      ↓State.transfersStop_kept]⟩

theorem execVmechLowClear_kept (s : State) : ∃ t, (execVmechLowClear s) = .next t ∧ t.kept = s.kept := by
  unfold execVmechLowClear
  (repeat' split) <;> exact ⟨_, rfl, by simp [↓State.kept_ite, ↓State.setDie_kept]⟩

theorem execFpwVmechHigh_kept (s : State) : ∃ t, (execFpwVmechHigh s) = .next t ∧ t.kept = s.kept := by
  unfold execFpwVmechHigh
  (repeat' split) <;> exact ⟨_, rfl, by simp [↓State.kept_ite, ↓State.setDie_kept, ↓State.raiseDie_kept]⟩

theorem execVmechHighClear_kept (s : State) : ∃ t, (execVmechHighClear s) = .next t ∧ t.kept = s.kept := by
  unfold execVmechHighClear
  (repeat' split) <;> exact ⟨_, rfl, by simp [↓State.kept_ite, ↓State.setDie_kept]⟩

theorem execDomainSwitchOff_kept (n : Fin 80) (s : State) : ∃ t, (execDomainSwitchOff n s) = .next t ∧ t.kept = s.kept := by
  unfold execDomainSwitchOff
  (repeat' split) <;> exact ⟨_, rfl, by simp only [↓State.setDomain_kept, ↓State.setFieldDomain_kept]⟩

theorem execDomainWake_kept (n : Fin 80) (s : State) : ∃ t, (execDomainWake n s) = .next t ∧ t.kept = s.kept := by
  unfold execDomainWake
  (repeat' split) <;> exact ⟨_, rfl, by simp only [↓State.wake_kept]⟩

theorem execKeeperTick_kept (s : State) : ∃ t, (execKeeperTick s) = .next t ∧ t.kept = s.kept := by
  unfold execKeeperTick
  exact ⟨_, rfl, by simp only [↓State.kept_mk, ↓State.kept_fold]⟩

theorem execPwrXtalLost_kept (s : State) : ∃ t, (execPwrXtalLost s) = .next t ∧ t.kept = s.kept := by
  unfold execPwrXtalLost
  (repeat' split) <;> exact ⟨_, rfl, by simp only [↓State.kept_mk, ↓State.kept_fold, ↓State.raiseHub_kept]⟩

theorem execBayIdleSpindle_kept (b : Bay) (s : State) : ∃ t, (execBayIdleSpindle b s) = .next t ∧ t.kept = s.kept := by
  unfold execBayIdleSpindle
  (repeat' split) <;> exact ⟨_, rfl, by simp only [↓State.send_kept]⟩

theorem execBayIdleReturn_kept (b : Bay) (s : State) : ∃ t, (execBayIdleReturn b s) = .next t ∧ t.kept = s.kept := by
  unfold execBayIdleReturn
  (repeat' split) <;> exact ⟨_, rfl, by simp only [↓State.clearBay_kept]⟩

theorem State.jtagWord_kept3 (s : State) (a : Nat) (w : Option Word) : (State.jtagWord s a w).kept3 = s.kept3 := by
  unfold State.jtagWord
  grind [State.kept3, State.kept, State.checkRange_kept, State.storeBytes_kept3, State.hubWrite_kept3, State.hubLoad_kept]

theorem State.jtagWord_memWf (s : State) (a : Nat) (w : Option Word) (hm : s.memWf) : (State.jtagWord s a w).memWf := by
  unfold State.jtagWord
  grind [State.memWf, State.kept, State.checkRange_kept, State.storeBytes_memWf, State.hubWrite_memWf, State.hubLoad_kept]

theorem execJtagAccess_ok (a : Nat) (w : Option Word) (s : State) : ∃ t, (execJtagAccess a w s) = .next t ∧ t.kept3 = s.kept3
    ∧ (s.memWf → t.memWf) := by
  unfold execJtagAccess
  grind [State.memWf, State.kept, State.kept3, State.pevLog_kept, State.wake_kept, State.jtagWord_kept3,
      State.jtagWord_memWf]

end Sys2Proof.Machine
end

