-- ==== Sys2Proof/Laws/State.lean ====
section
/-! SUPPORT. What each update of the state leaves alone, field by field, and what it reads back as. -/
namespace Sys2Proof.Machine

variable (s : State)

/-! ## State.put -/

@[simp] theorem put_pending (a : Nat) (f : Field) (v i j : Nat) : (s.put a f v i j).pending = s.pending := rfl
@[simp] theorem put_code (a : Nat) (f : Field) (v i j : Nat) : (s.put a f v i j).code = s.code := rfl
@[simp] theorem put_clock (a : Nat) (f : Field) (v i j : Nat) : (s.put a f v i j).clock = s.clock := rfl
@[simp] theorem put_free (a : Nat) (f : Field) (v i j : Nat) : (s.put a f v i j).free = s.free := rfl
@[simp] theorem put_staged (a : Nat) (f : Field) (v i j : Nat) : (s.put a f v i j).staged = s.staged := rfl
@[simp] theorem put_waiting (a : Nat) (f : Field) (v i j : Nat) : (s.put a f v i j).waiting = s.waiting := rfl
@[simp] theorem put_groups (a : Nat) (f : Field) (v i j : Nat) : (s.put a f v i j).groups = s.groups := rfl
@[simp] theorem put_ports (a : Nat) (f : Field) (v i j : Nat) : (s.put a f v i j).ports = s.ports := rfl
@[simp] theorem put_dies (a : Nat) (f : Field) (v i j : Nat) : (s.put a f v i j).dies = s.dies := rfl
@[simp] theorem put_sfe (a : Nat) (f : Field) (v i j : Nat) : (s.put a f v i j).sfe = s.sfe := rfl
@[simp] theorem put_latDie (a : Nat) (f : Field) (v i j : Nat) : (s.put a f v i j).latDie = s.latDie := rfl
@[simp] theorem put_lat (a : Nat) (f : Field) (v i j : Nat) : (s.put a f v i j).lat = s.lat := rfl
@[simp] theorem put_recp (a : Nat) (f : Field) (v i j : Nat) : (s.put a f v i j).recp = s.recp := rfl
@[simp] theorem put_osv (a : Nat) (f : Field) (v i j : Nat) : (s.put a f v i j).osv = s.osv := rfl
@[simp] theorem put_trn (a : Nat) (f : Field) (v i j : Nat) : (s.put a f v i j).trn = s.trn := rfl
@[simp] theorem put_spn (a : Nat) (f : Field) (v i j : Nat) : (s.put a f v i j).spn = s.spn := rfl
@[simp] theorem put_ceil (a : Nat) (f : Field) (v i j : Nat) : (s.put a f v i j).ceil = s.ceil := rfl
@[simp] theorem put_axp (a : Nat) (f : Field) (v i j : Nat) : (s.put a f v i j).axp = s.axp := rfl
@[simp] theorem put_yrd (a : Nat) (f : Field) (v i j : Nat) : (s.put a f v i j).yrd = s.yrd := rfl
@[simp] theorem put_cru (a : Nat) (f : Field) (v i j : Nat) : (s.put a f v i j).cru = s.cru := rfl
@[simp] theorem put_mem (a : Nat) (f : Field) (v i j : Nat) : (s.put a f v i j).mem = s.mem := rfl
@[simp] theorem put_lnd (a : Nat) (f : Field) (v i j : Nat) : (s.put a f v i j).lnd = s.lnd := rfl
@[simp] theorem put_miu (a : Nat) (f : Field) (v i j : Nat) : (s.put a f v i j).miu = s.miu := rfl
@[simp] theorem put_vlk (a : Nat) (f : Field) (v i j : Nat) : (s.put a f v i j).vlk = s.vlk := rfl
@[simp] theorem put_crew (a : Nat) (f : Field) (v i j : Nat) : (s.put a f v i j).crew = s.crew := rfl
@[simp] theorem put_qen (a : Nat) (f : Field) (v i j : Nat) : (s.put a f v i j).qen = s.qen := rfl
@[simp] theorem put_ep (a : Nat) (f : Field) (v i j : Nat) : (s.put a f v i j).ep = s.ep := rfl
@[simp] theorem put_hic (a : Nat) (f : Field) (v i j : Nat) : (s.put a f v i j).hic = s.hic := rfl
@[simp] theorem put_skd (a : Nat) (f : Field) (v i j : Nat) : (s.put a f v i j).skd = s.skd := rfl
@[simp] theorem put_skdLast (a : Nat) (f : Field) (v i j : Nat) : (s.put a f v i j).skdLast = s.skdLast := rfl
@[simp] theorem put_fwu (a : Nat) (f : Field) (v i j : Nat) : (s.put a f v i j).fwu = s.fwu := rfl
@[simp] theorem put_pwr (a : Nat) (f : Field) (v i j : Nat) : (s.put a f v i j).pwr = s.pwr := rfl

/-! ## State.bumpBy -/

@[simp] theorem bumpBy_pending (a : Nat) (f : Field) (n i j : Nat) : (s.bumpBy a f n i j).pending = s.pending := rfl
@[simp] theorem bumpBy_code (a : Nat) (f : Field) (n i j : Nat) : (s.bumpBy a f n i j).code = s.code := rfl
@[simp] theorem bumpBy_clock (a : Nat) (f : Field) (n i j : Nat) : (s.bumpBy a f n i j).clock = s.clock := rfl
@[simp] theorem bumpBy_free (a : Nat) (f : Field) (n i j : Nat) : (s.bumpBy a f n i j).free = s.free := rfl
@[simp] theorem bumpBy_staged (a : Nat) (f : Field) (n i j : Nat) : (s.bumpBy a f n i j).staged = s.staged := rfl
@[simp] theorem bumpBy_waiting (a : Nat) (f : Field) (n i j : Nat) : (s.bumpBy a f n i j).waiting = s.waiting := rfl
@[simp] theorem bumpBy_groups (a : Nat) (f : Field) (n i j : Nat) : (s.bumpBy a f n i j).groups = s.groups := rfl
@[simp] theorem bumpBy_ports (a : Nat) (f : Field) (n i j : Nat) : (s.bumpBy a f n i j).ports = s.ports := rfl
@[simp] theorem bumpBy_dies (a : Nat) (f : Field) (n i j : Nat) : (s.bumpBy a f n i j).dies = s.dies := rfl
@[simp] theorem bumpBy_sfe (a : Nat) (f : Field) (n i j : Nat) : (s.bumpBy a f n i j).sfe = s.sfe := rfl
@[simp] theorem bumpBy_latDie (a : Nat) (f : Field) (n i j : Nat) : (s.bumpBy a f n i j).latDie = s.latDie := rfl
@[simp] theorem bumpBy_lat (a : Nat) (f : Field) (n i j : Nat) : (s.bumpBy a f n i j).lat = s.lat := rfl
@[simp] theorem bumpBy_recp (a : Nat) (f : Field) (n i j : Nat) : (s.bumpBy a f n i j).recp = s.recp := rfl
@[simp] theorem bumpBy_osv (a : Nat) (f : Field) (n i j : Nat) : (s.bumpBy a f n i j).osv = s.osv := rfl
@[simp] theorem bumpBy_trn (a : Nat) (f : Field) (n i j : Nat) : (s.bumpBy a f n i j).trn = s.trn := rfl
@[simp] theorem bumpBy_spn (a : Nat) (f : Field) (n i j : Nat) : (s.bumpBy a f n i j).spn = s.spn := rfl
@[simp] theorem bumpBy_ceil (a : Nat) (f : Field) (n i j : Nat) : (s.bumpBy a f n i j).ceil = s.ceil := rfl
@[simp] theorem bumpBy_axp (a : Nat) (f : Field) (n i j : Nat) : (s.bumpBy a f n i j).axp = s.axp := rfl
@[simp] theorem bumpBy_yrd (a : Nat) (f : Field) (n i j : Nat) : (s.bumpBy a f n i j).yrd = s.yrd := rfl
@[simp] theorem bumpBy_cru (a : Nat) (f : Field) (n i j : Nat) : (s.bumpBy a f n i j).cru = s.cru := rfl
@[simp] theorem bumpBy_mem (a : Nat) (f : Field) (n i j : Nat) : (s.bumpBy a f n i j).mem = s.mem := rfl
@[simp] theorem bumpBy_lnd (a : Nat) (f : Field) (n i j : Nat) : (s.bumpBy a f n i j).lnd = s.lnd := rfl
@[simp] theorem bumpBy_miu (a : Nat) (f : Field) (n i j : Nat) : (s.bumpBy a f n i j).miu = s.miu := rfl
@[simp] theorem bumpBy_vlk (a : Nat) (f : Field) (n i j : Nat) : (s.bumpBy a f n i j).vlk = s.vlk := rfl
@[simp] theorem bumpBy_crew (a : Nat) (f : Field) (n i j : Nat) : (s.bumpBy a f n i j).crew = s.crew := rfl
@[simp] theorem bumpBy_qen (a : Nat) (f : Field) (n i j : Nat) : (s.bumpBy a f n i j).qen = s.qen := rfl
@[simp] theorem bumpBy_ep (a : Nat) (f : Field) (n i j : Nat) : (s.bumpBy a f n i j).ep = s.ep := rfl
@[simp] theorem bumpBy_hic (a : Nat) (f : Field) (n i j : Nat) : (s.bumpBy a f n i j).hic = s.hic := rfl
@[simp] theorem bumpBy_skd (a : Nat) (f : Field) (n i j : Nat) : (s.bumpBy a f n i j).skd = s.skd := rfl
@[simp] theorem bumpBy_skdLast (a : Nat) (f : Field) (n i j : Nat) : (s.bumpBy a f n i j).skdLast = s.skdLast := rfl
@[simp] theorem bumpBy_fwu (a : Nat) (f : Field) (n i j : Nat) : (s.bumpBy a f n i j).fwu = s.fwu := rfl
@[simp] theorem bumpBy_pwr (a : Nat) (f : Field) (n i j : Nat) : (s.bumpBy a f n i j).pwr = s.pwr := rfl

/-! ## State.bump -/

@[simp] theorem bump_pending (a : Nat) (f : Field) (i j : Nat) : (s.bump a f i j).pending = s.pending := rfl
@[simp] theorem bump_code (a : Nat) (f : Field) (i j : Nat) : (s.bump a f i j).code = s.code := rfl
@[simp] theorem bump_clock (a : Nat) (f : Field) (i j : Nat) : (s.bump a f i j).clock = s.clock := rfl
@[simp] theorem bump_free (a : Nat) (f : Field) (i j : Nat) : (s.bump a f i j).free = s.free := rfl
@[simp] theorem bump_staged (a : Nat) (f : Field) (i j : Nat) : (s.bump a f i j).staged = s.staged := rfl
@[simp] theorem bump_waiting (a : Nat) (f : Field) (i j : Nat) : (s.bump a f i j).waiting = s.waiting := rfl
@[simp] theorem bump_groups (a : Nat) (f : Field) (i j : Nat) : (s.bump a f i j).groups = s.groups := rfl
@[simp] theorem bump_ports (a : Nat) (f : Field) (i j : Nat) : (s.bump a f i j).ports = s.ports := rfl
@[simp] theorem bump_dies (a : Nat) (f : Field) (i j : Nat) : (s.bump a f i j).dies = s.dies := rfl
@[simp] theorem bump_sfe (a : Nat) (f : Field) (i j : Nat) : (s.bump a f i j).sfe = s.sfe := rfl
@[simp] theorem bump_latDie (a : Nat) (f : Field) (i j : Nat) : (s.bump a f i j).latDie = s.latDie := rfl
@[simp] theorem bump_lat (a : Nat) (f : Field) (i j : Nat) : (s.bump a f i j).lat = s.lat := rfl
@[simp] theorem bump_recp (a : Nat) (f : Field) (i j : Nat) : (s.bump a f i j).recp = s.recp := rfl
@[simp] theorem bump_osv (a : Nat) (f : Field) (i j : Nat) : (s.bump a f i j).osv = s.osv := rfl
@[simp] theorem bump_trn (a : Nat) (f : Field) (i j : Nat) : (s.bump a f i j).trn = s.trn := rfl
@[simp] theorem bump_spn (a : Nat) (f : Field) (i j : Nat) : (s.bump a f i j).spn = s.spn := rfl
@[simp] theorem bump_ceil (a : Nat) (f : Field) (i j : Nat) : (s.bump a f i j).ceil = s.ceil := rfl
@[simp] theorem bump_axp (a : Nat) (f : Field) (i j : Nat) : (s.bump a f i j).axp = s.axp := rfl
@[simp] theorem bump_yrd (a : Nat) (f : Field) (i j : Nat) : (s.bump a f i j).yrd = s.yrd := rfl
@[simp] theorem bump_cru (a : Nat) (f : Field) (i j : Nat) : (s.bump a f i j).cru = s.cru := rfl
@[simp] theorem bump_mem (a : Nat) (f : Field) (i j : Nat) : (s.bump a f i j).mem = s.mem := rfl
@[simp] theorem bump_lnd (a : Nat) (f : Field) (i j : Nat) : (s.bump a f i j).lnd = s.lnd := rfl
@[simp] theorem bump_miu (a : Nat) (f : Field) (i j : Nat) : (s.bump a f i j).miu = s.miu := rfl
@[simp] theorem bump_vlk (a : Nat) (f : Field) (i j : Nat) : (s.bump a f i j).vlk = s.vlk := rfl
@[simp] theorem bump_crew (a : Nat) (f : Field) (i j : Nat) : (s.bump a f i j).crew = s.crew := rfl
@[simp] theorem bump_qen (a : Nat) (f : Field) (i j : Nat) : (s.bump a f i j).qen = s.qen := rfl
@[simp] theorem bump_ep (a : Nat) (f : Field) (i j : Nat) : (s.bump a f i j).ep = s.ep := rfl
@[simp] theorem bump_hic (a : Nat) (f : Field) (i j : Nat) : (s.bump a f i j).hic = s.hic := rfl
@[simp] theorem bump_skd (a : Nat) (f : Field) (i j : Nat) : (s.bump a f i j).skd = s.skd := rfl
@[simp] theorem bump_skdLast (a : Nat) (f : Field) (i j : Nat) : (s.bump a f i j).skdLast = s.skdLast := rfl
@[simp] theorem bump_fwu (a : Nat) (f : Field) (i j : Nat) : (s.bump a f i j).fwu = s.fwu := rfl
@[simp] theorem bump_pwr (a : Nat) (f : Field) (i j : Nat) : (s.bump a f i j).pwr = s.pwr := rfl

/-! ## State.stage -/

@[simp] theorem stage_pending (a : Nat) (f : Field) (v i j : Nat) : (s.stage a f v i j).pending = s.pending := rfl
@[simp] theorem stage_code (a : Nat) (f : Field) (v i j : Nat) : (s.stage a f v i j).code = s.code := rfl
@[simp] theorem stage_clock (a : Nat) (f : Field) (v i j : Nat) : (s.stage a f v i j).clock = s.clock := rfl
@[simp] theorem stage_free (a : Nat) (f : Field) (v i j : Nat) : (s.stage a f v i j).free = s.free := rfl
@[simp] theorem stage_regs (a : Nat) (f : Field) (v i j : Nat) : (s.stage a f v i j).regs = s.regs := rfl
@[simp] theorem stage_waiting (a : Nat) (f : Field) (v i j : Nat) : (s.stage a f v i j).waiting = s.waiting := rfl
@[simp] theorem stage_groups (a : Nat) (f : Field) (v i j : Nat) : (s.stage a f v i j).groups = s.groups := rfl
@[simp] theorem stage_ports (a : Nat) (f : Field) (v i j : Nat) : (s.stage a f v i j).ports = s.ports := rfl
@[simp] theorem stage_dies (a : Nat) (f : Field) (v i j : Nat) : (s.stage a f v i j).dies = s.dies := rfl
@[simp] theorem stage_sfe (a : Nat) (f : Field) (v i j : Nat) : (s.stage a f v i j).sfe = s.sfe := rfl
@[simp] theorem stage_latDie (a : Nat) (f : Field) (v i j : Nat) : (s.stage a f v i j).latDie = s.latDie := rfl
@[simp] theorem stage_lat (a : Nat) (f : Field) (v i j : Nat) : (s.stage a f v i j).lat = s.lat := rfl
@[simp] theorem stage_recp (a : Nat) (f : Field) (v i j : Nat) : (s.stage a f v i j).recp = s.recp := rfl
@[simp] theorem stage_osv (a : Nat) (f : Field) (v i j : Nat) : (s.stage a f v i j).osv = s.osv := rfl
@[simp] theorem stage_trn (a : Nat) (f : Field) (v i j : Nat) : (s.stage a f v i j).trn = s.trn := rfl
@[simp] theorem stage_spn (a : Nat) (f : Field) (v i j : Nat) : (s.stage a f v i j).spn = s.spn := rfl
@[simp] theorem stage_ceil (a : Nat) (f : Field) (v i j : Nat) : (s.stage a f v i j).ceil = s.ceil := rfl
@[simp] theorem stage_axp (a : Nat) (f : Field) (v i j : Nat) : (s.stage a f v i j).axp = s.axp := rfl
@[simp] theorem stage_yrd (a : Nat) (f : Field) (v i j : Nat) : (s.stage a f v i j).yrd = s.yrd := rfl
@[simp] theorem stage_cru (a : Nat) (f : Field) (v i j : Nat) : (s.stage a f v i j).cru = s.cru := rfl
@[simp] theorem stage_mem (a : Nat) (f : Field) (v i j : Nat) : (s.stage a f v i j).mem = s.mem := rfl
@[simp] theorem stage_lnd (a : Nat) (f : Field) (v i j : Nat) : (s.stage a f v i j).lnd = s.lnd := rfl
@[simp] theorem stage_miu (a : Nat) (f : Field) (v i j : Nat) : (s.stage a f v i j).miu = s.miu := rfl
@[simp] theorem stage_vlk (a : Nat) (f : Field) (v i j : Nat) : (s.stage a f v i j).vlk = s.vlk := rfl
@[simp] theorem stage_crew (a : Nat) (f : Field) (v i j : Nat) : (s.stage a f v i j).crew = s.crew := rfl
@[simp] theorem stage_qen (a : Nat) (f : Field) (v i j : Nat) : (s.stage a f v i j).qen = s.qen := rfl
@[simp] theorem stage_ep (a : Nat) (f : Field) (v i j : Nat) : (s.stage a f v i j).ep = s.ep := rfl
@[simp] theorem stage_hic (a : Nat) (f : Field) (v i j : Nat) : (s.stage a f v i j).hic = s.hic := rfl
@[simp] theorem stage_skd (a : Nat) (f : Field) (v i j : Nat) : (s.stage a f v i j).skd = s.skd := rfl
@[simp] theorem stage_skdLast (a : Nat) (f : Field) (v i j : Nat) : (s.stage a f v i j).skdLast = s.skdLast := rfl
@[simp] theorem stage_fwu (a : Nat) (f : Field) (v i j : Nat) : (s.stage a f v i j).fwu = s.fwu := rfl
@[simp] theorem stage_pwr (a : Nat) (f : Field) (v i j : Nat) : (s.stage a f v i j).pwr = s.pwr := rfl
@[simp] theorem stage_get (a : Nat) (f : Field) (v i j : Nat) (a' : Nat) (f' : Field) (i' j' : Nat) : (s.stage a f v i j).get a' f' i' j' = s.get a' f' i' j' := rfl
@[simp] theorem stage_has (a : Nat) (f : Field) (v i j : Nat) (a' : Nat) (f' : Field) (i' j' : Nat) : (s.stage a f v i j).has a' f' i' j' = s.has a' f' i' j' := rfl

/-! ## State.drawn -/

@[simp] theorem drawn_pending : (s.drawn).pending = s.pending := rfl
@[simp] theorem drawn_code : (s.drawn).code = s.code := rfl
@[simp] theorem drawn_clock : (s.drawn).clock = s.clock := rfl
@[simp] theorem drawn_regs : (s.drawn).regs = s.regs := rfl
@[simp] theorem drawn_staged : (s.drawn).staged = s.staged := rfl
@[simp] theorem drawn_waiting : (s.drawn).waiting = s.waiting := rfl
@[simp] theorem drawn_groups : (s.drawn).groups = s.groups := rfl
@[simp] theorem drawn_ports : (s.drawn).ports = s.ports := rfl
@[simp] theorem drawn_dies : (s.drawn).dies = s.dies := rfl
@[simp] theorem drawn_sfe : (s.drawn).sfe = s.sfe := rfl
@[simp] theorem drawn_latDie : (s.drawn).latDie = s.latDie := rfl
@[simp] theorem drawn_lat : (s.drawn).lat = s.lat := rfl
@[simp] theorem drawn_recp : (s.drawn).recp = s.recp := rfl
@[simp] theorem drawn_osv : (s.drawn).osv = s.osv := rfl
@[simp] theorem drawn_trn : (s.drawn).trn = s.trn := rfl
@[simp] theorem drawn_spn : (s.drawn).spn = s.spn := rfl
@[simp] theorem drawn_ceil : (s.drawn).ceil = s.ceil := rfl
@[simp] theorem drawn_axp : (s.drawn).axp = s.axp := rfl
@[simp] theorem drawn_yrd : (s.drawn).yrd = s.yrd := rfl
@[simp] theorem drawn_cru : (s.drawn).cru = s.cru := rfl
@[simp] theorem drawn_mem : (s.drawn).mem = s.mem := rfl
@[simp] theorem drawn_lnd : (s.drawn).lnd = s.lnd := rfl
@[simp] theorem drawn_miu : (s.drawn).miu = s.miu := rfl
@[simp] theorem drawn_vlk : (s.drawn).vlk = s.vlk := rfl
@[simp] theorem drawn_crew : (s.drawn).crew = s.crew := rfl
@[simp] theorem drawn_qen : (s.drawn).qen = s.qen := rfl
@[simp] theorem drawn_ep : (s.drawn).ep = s.ep := rfl
@[simp] theorem drawn_hic : (s.drawn).hic = s.hic := rfl
@[simp] theorem drawn_skd : (s.drawn).skd = s.skd := rfl
@[simp] theorem drawn_skdLast : (s.drawn).skdLast = s.skdLast := rfl
@[simp] theorem drawn_fwu : (s.drawn).fwu = s.fwu := rfl
@[simp] theorem drawn_pwr : (s.drawn).pwr = s.pwr := rfl
@[simp] theorem drawn_get (a' : Nat) (f' : Field) (i' j' : Nat) : (s.drawn).get a' f' i' j' = s.get a' f' i' j' := rfl
@[simp] theorem drawn_has (a' : Nat) (f' : Field) (i' j' : Nat) : (s.drawn).has a' f' i' j' = s.has a' f' i' j' := rfl

/-! ## State.setDie -/

@[simp] theorem setDie_pending (d : Die) (x : DieSt) : (s.setDie d x).pending = s.pending := rfl
@[simp] theorem setDie_code (d : Die) (x : DieSt) : (s.setDie d x).code = s.code := rfl
@[simp] theorem setDie_clock (d : Die) (x : DieSt) : (s.setDie d x).clock = s.clock := rfl
@[simp] theorem setDie_free (d : Die) (x : DieSt) : (s.setDie d x).free = s.free := rfl
@[simp] theorem setDie_regs (d : Die) (x : DieSt) : (s.setDie d x).regs = s.regs := rfl
@[simp] theorem setDie_staged (d : Die) (x : DieSt) : (s.setDie d x).staged = s.staged := rfl
@[simp] theorem setDie_waiting (d : Die) (x : DieSt) : (s.setDie d x).waiting = s.waiting := rfl
@[simp] theorem setDie_groups (d : Die) (x : DieSt) : (s.setDie d x).groups = s.groups := rfl
@[simp] theorem setDie_ports (d : Die) (x : DieSt) : (s.setDie d x).ports = s.ports := rfl
@[simp] theorem setDie_sfe (d : Die) (x : DieSt) : (s.setDie d x).sfe = s.sfe := rfl
@[simp] theorem setDie_latDie (d : Die) (x : DieSt) : (s.setDie d x).latDie = s.latDie := rfl
@[simp] theorem setDie_lat (d : Die) (x : DieSt) : (s.setDie d x).lat = s.lat := rfl
@[simp] theorem setDie_recp (d : Die) (x : DieSt) : (s.setDie d x).recp = s.recp := rfl
@[simp] theorem setDie_osv (d : Die) (x : DieSt) : (s.setDie d x).osv = s.osv := rfl
@[simp] theorem setDie_trn (d : Die) (x : DieSt) : (s.setDie d x).trn = s.trn := rfl
@[simp] theorem setDie_spn (d : Die) (x : DieSt) : (s.setDie d x).spn = s.spn := rfl
@[simp] theorem setDie_ceil (d : Die) (x : DieSt) : (s.setDie d x).ceil = s.ceil := rfl
@[simp] theorem setDie_axp (d : Die) (x : DieSt) : (s.setDie d x).axp = s.axp := rfl
@[simp] theorem setDie_yrd (d : Die) (x : DieSt) : (s.setDie d x).yrd = s.yrd := rfl
@[simp] theorem setDie_cru (d : Die) (x : DieSt) : (s.setDie d x).cru = s.cru := rfl
@[simp] theorem setDie_mem (d : Die) (x : DieSt) : (s.setDie d x).mem = s.mem := rfl
@[simp] theorem setDie_lnd (d : Die) (x : DieSt) : (s.setDie d x).lnd = s.lnd := rfl
@[simp] theorem setDie_miu (d : Die) (x : DieSt) : (s.setDie d x).miu = s.miu := rfl
@[simp] theorem setDie_vlk (d : Die) (x : DieSt) : (s.setDie d x).vlk = s.vlk := rfl
@[simp] theorem setDie_crew (d : Die) (x : DieSt) : (s.setDie d x).crew = s.crew := rfl
@[simp] theorem setDie_qen (d : Die) (x : DieSt) : (s.setDie d x).qen = s.qen := rfl
@[simp] theorem setDie_ep (d : Die) (x : DieSt) : (s.setDie d x).ep = s.ep := rfl
@[simp] theorem setDie_hic (d : Die) (x : DieSt) : (s.setDie d x).hic = s.hic := rfl
@[simp] theorem setDie_skd (d : Die) (x : DieSt) : (s.setDie d x).skd = s.skd := rfl
@[simp] theorem setDie_skdLast (d : Die) (x : DieSt) : (s.setDie d x).skdLast = s.skdLast := rfl
@[simp] theorem setDie_fwu (d : Die) (x : DieSt) : (s.setDie d x).fwu = s.fwu := rfl
@[simp] theorem setDie_pwr (d : Die) (x : DieSt) : (s.setDie d x).pwr = s.pwr := rfl
@[simp] theorem setDie_get (d : Die) (x : DieSt) (a' : Nat) (f' : Field) (i' j' : Nat) : (s.setDie d x).get a' f' i' j' = s.get a' f' i' j' := rfl
@[simp] theorem setDie_has (d : Die) (x : DieSt) (a' : Nat) (f' : Field) (i' j' : Nat) : (s.setDie d x).has a' f' i' j' = s.has a' f' i' j' := rfl

/-! ## State.dropItem -/

@[simp] theorem dropItem_pending (d : Die) (n : Nat) : (s.dropItem d n).pending = s.pending := rfl
@[simp] theorem dropItem_code (d : Die) (n : Nat) : (s.dropItem d n).code = s.code := rfl
@[simp] theorem dropItem_clock (d : Die) (n : Nat) : (s.dropItem d n).clock = s.clock := rfl
@[simp] theorem dropItem_free (d : Die) (n : Nat) : (s.dropItem d n).free = s.free := rfl
@[simp] theorem dropItem_regs (d : Die) (n : Nat) : (s.dropItem d n).regs = s.regs := rfl
@[simp] theorem dropItem_staged (d : Die) (n : Nat) : (s.dropItem d n).staged = s.staged := rfl
@[simp] theorem dropItem_waiting (d : Die) (n : Nat) : (s.dropItem d n).waiting = s.waiting := rfl
@[simp] theorem dropItem_groups (d : Die) (n : Nat) : (s.dropItem d n).groups = s.groups := rfl
@[simp] theorem dropItem_ports (d : Die) (n : Nat) : (s.dropItem d n).ports = s.ports := rfl
@[simp] theorem dropItem_sfe (d : Die) (n : Nat) : (s.dropItem d n).sfe = s.sfe := rfl
@[simp] theorem dropItem_latDie (d : Die) (n : Nat) : (s.dropItem d n).latDie = s.latDie := rfl
@[simp] theorem dropItem_lat (d : Die) (n : Nat) : (s.dropItem d n).lat = s.lat := rfl
@[simp] theorem dropItem_recp (d : Die) (n : Nat) : (s.dropItem d n).recp = s.recp := rfl
@[simp] theorem dropItem_osv (d : Die) (n : Nat) : (s.dropItem d n).osv = s.osv := rfl
@[simp] theorem dropItem_trn (d : Die) (n : Nat) : (s.dropItem d n).trn = s.trn := rfl
@[simp] theorem dropItem_spn (d : Die) (n : Nat) : (s.dropItem d n).spn = s.spn := rfl
@[simp] theorem dropItem_ceil (d : Die) (n : Nat) : (s.dropItem d n).ceil = s.ceil := rfl
@[simp] theorem dropItem_axp (d : Die) (n : Nat) : (s.dropItem d n).axp = s.axp := rfl
@[simp] theorem dropItem_yrd (d : Die) (n : Nat) : (s.dropItem d n).yrd = s.yrd := rfl
@[simp] theorem dropItem_cru (d : Die) (n : Nat) : (s.dropItem d n).cru = s.cru := rfl
@[simp] theorem dropItem_mem (d : Die) (n : Nat) : (s.dropItem d n).mem = s.mem := rfl
@[simp] theorem dropItem_lnd (d : Die) (n : Nat) : (s.dropItem d n).lnd = s.lnd := rfl
@[simp] theorem dropItem_miu (d : Die) (n : Nat) : (s.dropItem d n).miu = s.miu := rfl
@[simp] theorem dropItem_vlk (d : Die) (n : Nat) : (s.dropItem d n).vlk = s.vlk := rfl
@[simp] theorem dropItem_crew (d : Die) (n : Nat) : (s.dropItem d n).crew = s.crew := rfl
@[simp] theorem dropItem_qen (d : Die) (n : Nat) : (s.dropItem d n).qen = s.qen := rfl
@[simp] theorem dropItem_ep (d : Die) (n : Nat) : (s.dropItem d n).ep = s.ep := rfl
@[simp] theorem dropItem_hic (d : Die) (n : Nat) : (s.dropItem d n).hic = s.hic := rfl
@[simp] theorem dropItem_skd (d : Die) (n : Nat) : (s.dropItem d n).skd = s.skd := rfl
@[simp] theorem dropItem_skdLast (d : Die) (n : Nat) : (s.dropItem d n).skdLast = s.skdLast := rfl
@[simp] theorem dropItem_fwu (d : Die) (n : Nat) : (s.dropItem d n).fwu = s.fwu := rfl
@[simp] theorem dropItem_pwr (d : Die) (n : Nat) : (s.dropItem d n).pwr = s.pwr := rfl
@[simp] theorem dropItem_get (d : Die) (n : Nat) (a' : Nat) (f' : Field) (i' j' : Nat) : (s.dropItem d n).get a' f' i' j' = s.get a' f' i' j' := rfl
@[simp] theorem dropItem_has (d : Die) (n : Nat) (a' : Nat) (f' : Field) (i' j' : Nat) : (s.dropItem d n).has a' f' i' j' = s.has a' f' i' j' := rfl

/-! ## State.setPort -/

@[simp] theorem setPort_pending (d : Die) (p : Port) : (s.setPort d p).pending = s.pending := rfl
@[simp] theorem setPort_code (d : Die) (p : Port) : (s.setPort d p).code = s.code := rfl
@[simp] theorem setPort_clock (d : Die) (p : Port) : (s.setPort d p).clock = s.clock := rfl
@[simp] theorem setPort_free (d : Die) (p : Port) : (s.setPort d p).free = s.free := rfl
@[simp] theorem setPort_regs (d : Die) (p : Port) : (s.setPort d p).regs = s.regs := rfl
@[simp] theorem setPort_staged (d : Die) (p : Port) : (s.setPort d p).staged = s.staged := rfl
@[simp] theorem setPort_waiting (d : Die) (p : Port) : (s.setPort d p).waiting = s.waiting := rfl
@[simp] theorem setPort_groups (d : Die) (p : Port) : (s.setPort d p).groups = s.groups := rfl
@[simp] theorem setPort_dies (d : Die) (p : Port) : (s.setPort d p).dies = s.dies := rfl
@[simp] theorem setPort_sfe (d : Die) (p : Port) : (s.setPort d p).sfe = s.sfe := rfl
@[simp] theorem setPort_latDie (d : Die) (p : Port) : (s.setPort d p).latDie = s.latDie := rfl
@[simp] theorem setPort_lat (d : Die) (p : Port) : (s.setPort d p).lat = s.lat := rfl
@[simp] theorem setPort_recp (d : Die) (p : Port) : (s.setPort d p).recp = s.recp := rfl
@[simp] theorem setPort_osv (d : Die) (p : Port) : (s.setPort d p).osv = s.osv := rfl
@[simp] theorem setPort_trn (d : Die) (p : Port) : (s.setPort d p).trn = s.trn := rfl
@[simp] theorem setPort_spn (d : Die) (p : Port) : (s.setPort d p).spn = s.spn := rfl
@[simp] theorem setPort_ceil (d : Die) (p : Port) : (s.setPort d p).ceil = s.ceil := rfl
@[simp] theorem setPort_axp (d : Die) (p : Port) : (s.setPort d p).axp = s.axp := rfl
@[simp] theorem setPort_yrd (d : Die) (p : Port) : (s.setPort d p).yrd = s.yrd := rfl
@[simp] theorem setPort_cru (d : Die) (p : Port) : (s.setPort d p).cru = s.cru := rfl
@[simp] theorem setPort_mem (d : Die) (p : Port) : (s.setPort d p).mem = s.mem := rfl
@[simp] theorem setPort_lnd (d : Die) (p : Port) : (s.setPort d p).lnd = s.lnd := rfl
@[simp] theorem setPort_miu (d : Die) (p : Port) : (s.setPort d p).miu = s.miu := rfl
@[simp] theorem setPort_vlk (d : Die) (p : Port) : (s.setPort d p).vlk = s.vlk := rfl
@[simp] theorem setPort_crew (d : Die) (p : Port) : (s.setPort d p).crew = s.crew := rfl
@[simp] theorem setPort_qen (d : Die) (p : Port) : (s.setPort d p).qen = s.qen := rfl
@[simp] theorem setPort_ep (d : Die) (p : Port) : (s.setPort d p).ep = s.ep := rfl
@[simp] theorem setPort_hic (d : Die) (p : Port) : (s.setPort d p).hic = s.hic := rfl
@[simp] theorem setPort_skd (d : Die) (p : Port) : (s.setPort d p).skd = s.skd := rfl
@[simp] theorem setPort_skdLast (d : Die) (p : Port) : (s.setPort d p).skdLast = s.skdLast := rfl
@[simp] theorem setPort_fwu (d : Die) (p : Port) : (s.setPort d p).fwu = s.fwu := rfl
@[simp] theorem setPort_pwr (d : Die) (p : Port) : (s.setPort d p).pwr = s.pwr := rfl
@[simp] theorem setPort_get (d : Die) (p : Port) (a' : Nat) (f' : Field) (i' j' : Nat) : (s.setPort d p).get a' f' i' j' = s.get a' f' i' j' := rfl
@[simp] theorem setPort_has (d : Die) (p : Port) (a' : Nat) (f' : Field) (i' j' : Nat) : (s.setPort d p).has a' f' i' j' = s.has a' f' i' j' := rfl

/-! ## State.setTxEnd -/

@[simp] theorem setTxEnd_pending (d : Die) (x : Side) (t : TxEnd) : (s.setTxEnd d x t).pending = s.pending := rfl
@[simp] theorem setTxEnd_code (d : Die) (x : Side) (t : TxEnd) : (s.setTxEnd d x t).code = s.code := rfl
@[simp] theorem setTxEnd_clock (d : Die) (x : Side) (t : TxEnd) : (s.setTxEnd d x t).clock = s.clock := rfl
@[simp] theorem setTxEnd_free (d : Die) (x : Side) (t : TxEnd) : (s.setTxEnd d x t).free = s.free := rfl
@[simp] theorem setTxEnd_regs (d : Die) (x : Side) (t : TxEnd) : (s.setTxEnd d x t).regs = s.regs := rfl
@[simp] theorem setTxEnd_staged (d : Die) (x : Side) (t : TxEnd) : (s.setTxEnd d x t).staged = s.staged := rfl
@[simp] theorem setTxEnd_waiting (d : Die) (x : Side) (t : TxEnd) : (s.setTxEnd d x t).waiting = s.waiting := rfl
@[simp] theorem setTxEnd_groups (d : Die) (x : Side) (t : TxEnd) : (s.setTxEnd d x t).groups = s.groups := rfl
@[simp] theorem setTxEnd_dies (d : Die) (x : Side) (t : TxEnd) : (s.setTxEnd d x t).dies = s.dies := rfl
@[simp] theorem setTxEnd_sfe (d : Die) (x : Side) (t : TxEnd) : (s.setTxEnd d x t).sfe = s.sfe := rfl
@[simp] theorem setTxEnd_latDie (d : Die) (x : Side) (t : TxEnd) : (s.setTxEnd d x t).latDie = s.latDie := rfl
@[simp] theorem setTxEnd_lat (d : Die) (x : Side) (t : TxEnd) : (s.setTxEnd d x t).lat = s.lat := rfl
@[simp] theorem setTxEnd_recp (d : Die) (x : Side) (t : TxEnd) : (s.setTxEnd d x t).recp = s.recp := rfl
@[simp] theorem setTxEnd_osv (d : Die) (x : Side) (t : TxEnd) : (s.setTxEnd d x t).osv = s.osv := rfl
@[simp] theorem setTxEnd_trn (d : Die) (x : Side) (t : TxEnd) : (s.setTxEnd d x t).trn = s.trn := rfl
@[simp] theorem setTxEnd_spn (d : Die) (x : Side) (t : TxEnd) : (s.setTxEnd d x t).spn = s.spn := rfl
@[simp] theorem setTxEnd_ceil (d : Die) (x : Side) (t : TxEnd) : (s.setTxEnd d x t).ceil = s.ceil := rfl
@[simp] theorem setTxEnd_axp (d : Die) (x : Side) (t : TxEnd) : (s.setTxEnd d x t).axp = s.axp := rfl
@[simp] theorem setTxEnd_yrd (d : Die) (x : Side) (t : TxEnd) : (s.setTxEnd d x t).yrd = s.yrd := rfl
@[simp] theorem setTxEnd_cru (d : Die) (x : Side) (t : TxEnd) : (s.setTxEnd d x t).cru = s.cru := rfl
@[simp] theorem setTxEnd_mem (d : Die) (x : Side) (t : TxEnd) : (s.setTxEnd d x t).mem = s.mem := rfl
@[simp] theorem setTxEnd_lnd (d : Die) (x : Side) (t : TxEnd) : (s.setTxEnd d x t).lnd = s.lnd := rfl
@[simp] theorem setTxEnd_miu (d : Die) (x : Side) (t : TxEnd) : (s.setTxEnd d x t).miu = s.miu := rfl
@[simp] theorem setTxEnd_vlk (d : Die) (x : Side) (t : TxEnd) : (s.setTxEnd d x t).vlk = s.vlk := rfl
@[simp] theorem setTxEnd_crew (d : Die) (x : Side) (t : TxEnd) : (s.setTxEnd d x t).crew = s.crew := rfl
@[simp] theorem setTxEnd_qen (d : Die) (x : Side) (t : TxEnd) : (s.setTxEnd d x t).qen = s.qen := rfl
@[simp] theorem setTxEnd_ep (d : Die) (x : Side) (t : TxEnd) : (s.setTxEnd d x t).ep = s.ep := rfl
@[simp] theorem setTxEnd_hic (d : Die) (x : Side) (t : TxEnd) : (s.setTxEnd d x t).hic = s.hic := rfl
@[simp] theorem setTxEnd_skd (d : Die) (x : Side) (t : TxEnd) : (s.setTxEnd d x t).skd = s.skd := rfl
@[simp] theorem setTxEnd_skdLast (d : Die) (x : Side) (t : TxEnd) : (s.setTxEnd d x t).skdLast = s.skdLast := rfl
@[simp] theorem setTxEnd_fwu (d : Die) (x : Side) (t : TxEnd) : (s.setTxEnd d x t).fwu = s.fwu := rfl
@[simp] theorem setTxEnd_pwr (d : Die) (x : Side) (t : TxEnd) : (s.setTxEnd d x t).pwr = s.pwr := rfl
@[simp] theorem setTxEnd_get (d : Die) (x : Side) (t : TxEnd) (a' : Nat) (f' : Field) (i' j' : Nat) : (s.setTxEnd d x t).get a' f' i' j' = s.get a' f' i' j' := rfl
@[simp] theorem setTxEnd_has (d : Die) (x : Side) (t : TxEnd) (a' : Nat) (f' : Field) (i' j' : Nat) : (s.setTxEnd d x t).has a' f' i' j' = s.has a' f' i' j' := rfl

/-! ## State.setRxEnd -/

@[simp] theorem setRxEnd_pending (d : Die) (x : Side) (r : RxEnd) : (s.setRxEnd d x r).pending = s.pending := rfl
@[simp] theorem setRxEnd_code (d : Die) (x : Side) (r : RxEnd) : (s.setRxEnd d x r).code = s.code := rfl
@[simp] theorem setRxEnd_clock (d : Die) (x : Side) (r : RxEnd) : (s.setRxEnd d x r).clock = s.clock := rfl
@[simp] theorem setRxEnd_free (d : Die) (x : Side) (r : RxEnd) : (s.setRxEnd d x r).free = s.free := rfl
@[simp] theorem setRxEnd_regs (d : Die) (x : Side) (r : RxEnd) : (s.setRxEnd d x r).regs = s.regs := rfl
@[simp] theorem setRxEnd_staged (d : Die) (x : Side) (r : RxEnd) : (s.setRxEnd d x r).staged = s.staged := rfl
@[simp] theorem setRxEnd_waiting (d : Die) (x : Side) (r : RxEnd) : (s.setRxEnd d x r).waiting = s.waiting := rfl
@[simp] theorem setRxEnd_groups (d : Die) (x : Side) (r : RxEnd) : (s.setRxEnd d x r).groups = s.groups := rfl
@[simp] theorem setRxEnd_dies (d : Die) (x : Side) (r : RxEnd) : (s.setRxEnd d x r).dies = s.dies := rfl
@[simp] theorem setRxEnd_sfe (d : Die) (x : Side) (r : RxEnd) : (s.setRxEnd d x r).sfe = s.sfe := rfl
@[simp] theorem setRxEnd_latDie (d : Die) (x : Side) (r : RxEnd) : (s.setRxEnd d x r).latDie = s.latDie := rfl
@[simp] theorem setRxEnd_lat (d : Die) (x : Side) (r : RxEnd) : (s.setRxEnd d x r).lat = s.lat := rfl
@[simp] theorem setRxEnd_recp (d : Die) (x : Side) (r : RxEnd) : (s.setRxEnd d x r).recp = s.recp := rfl
@[simp] theorem setRxEnd_osv (d : Die) (x : Side) (r : RxEnd) : (s.setRxEnd d x r).osv = s.osv := rfl
@[simp] theorem setRxEnd_trn (d : Die) (x : Side) (r : RxEnd) : (s.setRxEnd d x r).trn = s.trn := rfl
@[simp] theorem setRxEnd_spn (d : Die) (x : Side) (r : RxEnd) : (s.setRxEnd d x r).spn = s.spn := rfl
@[simp] theorem setRxEnd_ceil (d : Die) (x : Side) (r : RxEnd) : (s.setRxEnd d x r).ceil = s.ceil := rfl
@[simp] theorem setRxEnd_axp (d : Die) (x : Side) (r : RxEnd) : (s.setRxEnd d x r).axp = s.axp := rfl
@[simp] theorem setRxEnd_yrd (d : Die) (x : Side) (r : RxEnd) : (s.setRxEnd d x r).yrd = s.yrd := rfl
@[simp] theorem setRxEnd_cru (d : Die) (x : Side) (r : RxEnd) : (s.setRxEnd d x r).cru = s.cru := rfl
@[simp] theorem setRxEnd_mem (d : Die) (x : Side) (r : RxEnd) : (s.setRxEnd d x r).mem = s.mem := rfl
@[simp] theorem setRxEnd_lnd (d : Die) (x : Side) (r : RxEnd) : (s.setRxEnd d x r).lnd = s.lnd := rfl
@[simp] theorem setRxEnd_miu (d : Die) (x : Side) (r : RxEnd) : (s.setRxEnd d x r).miu = s.miu := rfl
@[simp] theorem setRxEnd_vlk (d : Die) (x : Side) (r : RxEnd) : (s.setRxEnd d x r).vlk = s.vlk := rfl
@[simp] theorem setRxEnd_crew (d : Die) (x : Side) (r : RxEnd) : (s.setRxEnd d x r).crew = s.crew := rfl
@[simp] theorem setRxEnd_qen (d : Die) (x : Side) (r : RxEnd) : (s.setRxEnd d x r).qen = s.qen := rfl
@[simp] theorem setRxEnd_ep (d : Die) (x : Side) (r : RxEnd) : (s.setRxEnd d x r).ep = s.ep := rfl
@[simp] theorem setRxEnd_hic (d : Die) (x : Side) (r : RxEnd) : (s.setRxEnd d x r).hic = s.hic := rfl
@[simp] theorem setRxEnd_skd (d : Die) (x : Side) (r : RxEnd) : (s.setRxEnd d x r).skd = s.skd := rfl
@[simp] theorem setRxEnd_skdLast (d : Die) (x : Side) (r : RxEnd) : (s.setRxEnd d x r).skdLast = s.skdLast := rfl
@[simp] theorem setRxEnd_fwu (d : Die) (x : Side) (r : RxEnd) : (s.setRxEnd d x r).fwu = s.fwu := rfl
@[simp] theorem setRxEnd_pwr (d : Die) (x : Side) (r : RxEnd) : (s.setRxEnd d x r).pwr = s.pwr := rfl
@[simp] theorem setRxEnd_get (d : Die) (x : Side) (r : RxEnd) (a' : Nat) (f' : Field) (i' j' : Nat) : (s.setRxEnd d x r).get a' f' i' j' = s.get a' f' i' j' := rfl
@[simp] theorem setRxEnd_has (d : Die) (x : Side) (r : RxEnd) (a' : Nat) (f' : Field) (i' j' : Nat) : (s.setRxEnd d x r).has a' f' i' j' = s.has a' f' i' j' := rfl

/-! ## State.send -/

@[simp] theorem send_pending (d : Die) (x : Side) (m : Msg) : (s.send d x m).pending = s.pending := rfl
@[simp] theorem send_code (d : Die) (x : Side) (m : Msg) : (s.send d x m).code = s.code := rfl
@[simp] theorem send_clock (d : Die) (x : Side) (m : Msg) : (s.send d x m).clock = s.clock := rfl
@[simp] theorem send_free (d : Die) (x : Side) (m : Msg) : (s.send d x m).free = s.free := rfl
@[simp] theorem send_regs (d : Die) (x : Side) (m : Msg) : (s.send d x m).regs = s.regs := rfl
@[simp] theorem send_staged (d : Die) (x : Side) (m : Msg) : (s.send d x m).staged = s.staged := rfl
@[simp] theorem send_waiting (d : Die) (x : Side) (m : Msg) : (s.send d x m).waiting = s.waiting := rfl
@[simp] theorem send_groups (d : Die) (x : Side) (m : Msg) : (s.send d x m).groups = s.groups := rfl
@[simp] theorem send_dies (d : Die) (x : Side) (m : Msg) : (s.send d x m).dies = s.dies := rfl
@[simp] theorem send_sfe (d : Die) (x : Side) (m : Msg) : (s.send d x m).sfe = s.sfe := rfl
@[simp] theorem send_latDie (d : Die) (x : Side) (m : Msg) : (s.send d x m).latDie = s.latDie := rfl
@[simp] theorem send_lat (d : Die) (x : Side) (m : Msg) : (s.send d x m).lat = s.lat := rfl
@[simp] theorem send_recp (d : Die) (x : Side) (m : Msg) : (s.send d x m).recp = s.recp := rfl
@[simp] theorem send_osv (d : Die) (x : Side) (m : Msg) : (s.send d x m).osv = s.osv := rfl
@[simp] theorem send_trn (d : Die) (x : Side) (m : Msg) : (s.send d x m).trn = s.trn := rfl
@[simp] theorem send_spn (d : Die) (x : Side) (m : Msg) : (s.send d x m).spn = s.spn := rfl
@[simp] theorem send_ceil (d : Die) (x : Side) (m : Msg) : (s.send d x m).ceil = s.ceil := rfl
@[simp] theorem send_axp (d : Die) (x : Side) (m : Msg) : (s.send d x m).axp = s.axp := rfl
@[simp] theorem send_yrd (d : Die) (x : Side) (m : Msg) : (s.send d x m).yrd = s.yrd := rfl
@[simp] theorem send_cru (d : Die) (x : Side) (m : Msg) : (s.send d x m).cru = s.cru := rfl
@[simp] theorem send_mem (d : Die) (x : Side) (m : Msg) : (s.send d x m).mem = s.mem := rfl
@[simp] theorem send_lnd (d : Die) (x : Side) (m : Msg) : (s.send d x m).lnd = s.lnd := rfl
@[simp] theorem send_miu (d : Die) (x : Side) (m : Msg) : (s.send d x m).miu = s.miu := rfl
@[simp] theorem send_vlk (d : Die) (x : Side) (m : Msg) : (s.send d x m).vlk = s.vlk := rfl
@[simp] theorem send_crew (d : Die) (x : Side) (m : Msg) : (s.send d x m).crew = s.crew := rfl
@[simp] theorem send_qen (d : Die) (x : Side) (m : Msg) : (s.send d x m).qen = s.qen := rfl
@[simp] theorem send_ep (d : Die) (x : Side) (m : Msg) : (s.send d x m).ep = s.ep := rfl
@[simp] theorem send_hic (d : Die) (x : Side) (m : Msg) : (s.send d x m).hic = s.hic := rfl
@[simp] theorem send_skd (d : Die) (x : Side) (m : Msg) : (s.send d x m).skd = s.skd := rfl
@[simp] theorem send_skdLast (d : Die) (x : Side) (m : Msg) : (s.send d x m).skdLast = s.skdLast := rfl
@[simp] theorem send_fwu (d : Die) (x : Side) (m : Msg) : (s.send d x m).fwu = s.fwu := rfl
@[simp] theorem send_pwr (d : Die) (x : Side) (m : Msg) : (s.send d x m).pwr = s.pwr := rfl
@[simp] theorem send_get (d : Die) (x : Side) (m : Msg) (a' : Nat) (f' : Field) (i' j' : Nat) : (s.send d x m).get a' f' i' j' = s.get a' f' i' j' := rfl
@[simp] theorem send_has (d : Die) (x : Side) (m : Msg) (a' : Nat) (f' : Field) (i' j' : Nat) : (s.send d x m).has a' f' i' j' = s.has a' f' i' j' := rfl

/-! ## State.received -/

@[simp] theorem received_pending (d : Die) (x : Side) (m : Msg) : (s.received d x m).pending = s.pending := rfl
@[simp] theorem received_code (d : Die) (x : Side) (m : Msg) : (s.received d x m).code = s.code := rfl
@[simp] theorem received_clock (d : Die) (x : Side) (m : Msg) : (s.received d x m).clock = s.clock := rfl
@[simp] theorem received_free (d : Die) (x : Side) (m : Msg) : (s.received d x m).free = s.free := rfl
@[simp] theorem received_regs (d : Die) (x : Side) (m : Msg) : (s.received d x m).regs = s.regs := rfl
@[simp] theorem received_staged (d : Die) (x : Side) (m : Msg) : (s.received d x m).staged = s.staged := rfl
@[simp] theorem received_waiting (d : Die) (x : Side) (m : Msg) : (s.received d x m).waiting = s.waiting := rfl
@[simp] theorem received_groups (d : Die) (x : Side) (m : Msg) : (s.received d x m).groups = s.groups := rfl
@[simp] theorem received_dies (d : Die) (x : Side) (m : Msg) : (s.received d x m).dies = s.dies := rfl
@[simp] theorem received_sfe (d : Die) (x : Side) (m : Msg) : (s.received d x m).sfe = s.sfe := rfl
@[simp] theorem received_latDie (d : Die) (x : Side) (m : Msg) : (s.received d x m).latDie = s.latDie := rfl
@[simp] theorem received_lat (d : Die) (x : Side) (m : Msg) : (s.received d x m).lat = s.lat := rfl
@[simp] theorem received_recp (d : Die) (x : Side) (m : Msg) : (s.received d x m).recp = s.recp := rfl
@[simp] theorem received_osv (d : Die) (x : Side) (m : Msg) : (s.received d x m).osv = s.osv := rfl
@[simp] theorem received_trn (d : Die) (x : Side) (m : Msg) : (s.received d x m).trn = s.trn := rfl
@[simp] theorem received_spn (d : Die) (x : Side) (m : Msg) : (s.received d x m).spn = s.spn := rfl
@[simp] theorem received_ceil (d : Die) (x : Side) (m : Msg) : (s.received d x m).ceil = s.ceil := rfl
@[simp] theorem received_axp (d : Die) (x : Side) (m : Msg) : (s.received d x m).axp = s.axp := rfl
@[simp] theorem received_yrd (d : Die) (x : Side) (m : Msg) : (s.received d x m).yrd = s.yrd := rfl
@[simp] theorem received_cru (d : Die) (x : Side) (m : Msg) : (s.received d x m).cru = s.cru := rfl
@[simp] theorem received_mem (d : Die) (x : Side) (m : Msg) : (s.received d x m).mem = s.mem := rfl
@[simp] theorem received_lnd (d : Die) (x : Side) (m : Msg) : (s.received d x m).lnd = s.lnd := rfl
@[simp] theorem received_miu (d : Die) (x : Side) (m : Msg) : (s.received d x m).miu = s.miu := rfl
@[simp] theorem received_vlk (d : Die) (x : Side) (m : Msg) : (s.received d x m).vlk = s.vlk := rfl
@[simp] theorem received_crew (d : Die) (x : Side) (m : Msg) : (s.received d x m).crew = s.crew := rfl
@[simp] theorem received_qen (d : Die) (x : Side) (m : Msg) : (s.received d x m).qen = s.qen := rfl
@[simp] theorem received_ep (d : Die) (x : Side) (m : Msg) : (s.received d x m).ep = s.ep := rfl
@[simp] theorem received_hic (d : Die) (x : Side) (m : Msg) : (s.received d x m).hic = s.hic := rfl
@[simp] theorem received_skd (d : Die) (x : Side) (m : Msg) : (s.received d x m).skd = s.skd := rfl
@[simp] theorem received_skdLast (d : Die) (x : Side) (m : Msg) : (s.received d x m).skdLast = s.skdLast := rfl
@[simp] theorem received_fwu (d : Die) (x : Side) (m : Msg) : (s.received d x m).fwu = s.fwu := rfl
@[simp] theorem received_pwr (d : Die) (x : Side) (m : Msg) : (s.received d x m).pwr = s.pwr := rfl
@[simp] theorem received_get (d : Die) (x : Side) (m : Msg) (a' : Nat) (f' : Field) (i' j' : Nat) : (s.received d x m).get a' f' i' j' = s.get a' f' i' j' := rfl
@[simp] theorem received_has (d : Die) (x : Side) (m : Msg) (a' : Nat) (f' : Field) (i' j' : Nat) : (s.received d x m).has a' f' i' j' = s.has a' f' i' j' := rfl

/-! ## State.raiseDie -/

@[simp] theorem raiseDie_pending (d : Die) (c : Nat) (b : Option Nat) (n u : Nat) (v : Int) (w : Nat) : (s.raiseDie d c b n u v w).pending = s.pending := rfl
@[simp] theorem raiseDie_code (d : Die) (c : Nat) (b : Option Nat) (n u : Nat) (v : Int) (w : Nat) : (s.raiseDie d c b n u v w).code = s.code := rfl
@[simp] theorem raiseDie_clock (d : Die) (c : Nat) (b : Option Nat) (n u : Nat) (v : Int) (w : Nat) : (s.raiseDie d c b n u v w).clock = s.clock := rfl
@[simp] theorem raiseDie_free (d : Die) (c : Nat) (b : Option Nat) (n u : Nat) (v : Int) (w : Nat) : (s.raiseDie d c b n u v w).free = s.free := rfl
@[simp] theorem raiseDie_regs (d : Die) (c : Nat) (b : Option Nat) (n u : Nat) (v : Int) (w : Nat) : (s.raiseDie d c b n u v w).regs = s.regs := rfl
@[simp] theorem raiseDie_staged (d : Die) (c : Nat) (b : Option Nat) (n u : Nat) (v : Int) (w : Nat) : (s.raiseDie d c b n u v w).staged = s.staged := rfl
@[simp] theorem raiseDie_waiting (d : Die) (c : Nat) (b : Option Nat) (n u : Nat) (v : Int) (w : Nat) : (s.raiseDie d c b n u v w).waiting = s.waiting := rfl
@[simp] theorem raiseDie_groups (d : Die) (c : Nat) (b : Option Nat) (n u : Nat) (v : Int) (w : Nat) : (s.raiseDie d c b n u v w).groups = s.groups := rfl
@[simp] theorem raiseDie_dies (d : Die) (c : Nat) (b : Option Nat) (n u : Nat) (v : Int) (w : Nat) : (s.raiseDie d c b n u v w).dies = s.dies := rfl
@[simp] theorem raiseDie_sfe (d : Die) (c : Nat) (b : Option Nat) (n u : Nat) (v : Int) (w : Nat) : (s.raiseDie d c b n u v w).sfe = s.sfe := rfl
@[simp] theorem raiseDie_latDie (d : Die) (c : Nat) (b : Option Nat) (n u : Nat) (v : Int) (w : Nat) : (s.raiseDie d c b n u v w).latDie = s.latDie := rfl
@[simp] theorem raiseDie_lat (d : Die) (c : Nat) (b : Option Nat) (n u : Nat) (v : Int) (w : Nat) : (s.raiseDie d c b n u v w).lat = s.lat := rfl
@[simp] theorem raiseDie_recp (d : Die) (c : Nat) (b : Option Nat) (n u : Nat) (v : Int) (w : Nat) : (s.raiseDie d c b n u v w).recp = s.recp := rfl
@[simp] theorem raiseDie_osv (d : Die) (c : Nat) (b : Option Nat) (n u : Nat) (v : Int) (w : Nat) : (s.raiseDie d c b n u v w).osv = s.osv := rfl
@[simp] theorem raiseDie_trn (d : Die) (c : Nat) (b : Option Nat) (n u : Nat) (v : Int) (w : Nat) : (s.raiseDie d c b n u v w).trn = s.trn := rfl
@[simp] theorem raiseDie_spn (d : Die) (c : Nat) (b : Option Nat) (n u : Nat) (v : Int) (w : Nat) : (s.raiseDie d c b n u v w).spn = s.spn := rfl
@[simp] theorem raiseDie_ceil (d : Die) (c : Nat) (b : Option Nat) (n u : Nat) (v : Int) (w : Nat) : (s.raiseDie d c b n u v w).ceil = s.ceil := rfl
@[simp] theorem raiseDie_axp (d : Die) (c : Nat) (b : Option Nat) (n u : Nat) (v : Int) (w : Nat) : (s.raiseDie d c b n u v w).axp = s.axp := rfl
@[simp] theorem raiseDie_yrd (d : Die) (c : Nat) (b : Option Nat) (n u : Nat) (v : Int) (w : Nat) : (s.raiseDie d c b n u v w).yrd = s.yrd := rfl
@[simp] theorem raiseDie_cru (d : Die) (c : Nat) (b : Option Nat) (n u : Nat) (v : Int) (w : Nat) : (s.raiseDie d c b n u v w).cru = s.cru := rfl
@[simp] theorem raiseDie_mem (d : Die) (c : Nat) (b : Option Nat) (n u : Nat) (v : Int) (w : Nat) : (s.raiseDie d c b n u v w).mem = s.mem := rfl
@[simp] theorem raiseDie_lnd (d : Die) (c : Nat) (b : Option Nat) (n u : Nat) (v : Int) (w : Nat) : (s.raiseDie d c b n u v w).lnd = s.lnd := rfl
@[simp] theorem raiseDie_miu (d : Die) (c : Nat) (b : Option Nat) (n u : Nat) (v : Int) (w : Nat) : (s.raiseDie d c b n u v w).miu = s.miu := rfl
@[simp] theorem raiseDie_vlk (d : Die) (c : Nat) (b : Option Nat) (n u : Nat) (v : Int) (w : Nat) : (s.raiseDie d c b n u v w).vlk = s.vlk := rfl
@[simp] theorem raiseDie_crew (d : Die) (c : Nat) (b : Option Nat) (n u : Nat) (v : Int) (w : Nat) : (s.raiseDie d c b n u v w).crew = s.crew := rfl
@[simp] theorem raiseDie_qen (d : Die) (c : Nat) (b : Option Nat) (n u : Nat) (v : Int) (w : Nat) : (s.raiseDie d c b n u v w).qen = s.qen := rfl
@[simp] theorem raiseDie_ep (d : Die) (c : Nat) (b : Option Nat) (n u : Nat) (v : Int) (w : Nat) : (s.raiseDie d c b n u v w).ep = s.ep := rfl
@[simp] theorem raiseDie_hic (d : Die) (c : Nat) (b : Option Nat) (n u : Nat) (v : Int) (w : Nat) : (s.raiseDie d c b n u v w).hic = s.hic := rfl
@[simp] theorem raiseDie_skd (d : Die) (c : Nat) (b : Option Nat) (n u : Nat) (v : Int) (w : Nat) : (s.raiseDie d c b n u v w).skd = s.skd := rfl
@[simp] theorem raiseDie_skdLast (d : Die) (c : Nat) (b : Option Nat) (n u : Nat) (v : Int) (w : Nat) : (s.raiseDie d c b n u v w).skdLast = s.skdLast := rfl
@[simp] theorem raiseDie_fwu (d : Die) (c : Nat) (b : Option Nat) (n u : Nat) (v : Int) (w : Nat) : (s.raiseDie d c b n u v w).fwu = s.fwu := rfl
@[simp] theorem raiseDie_pwr (d : Die) (c : Nat) (b : Option Nat) (n u : Nat) (v : Int) (w : Nat) : (s.raiseDie d c b n u v w).pwr = s.pwr := rfl
@[simp] theorem raiseDie_get (d : Die) (c : Nat) (b : Option Nat) (n u : Nat) (v : Int) (w : Nat) (a' : Nat) (f' : Field) (i' j' : Nat) : (s.raiseDie d c b n u v w).get a' f' i' j' = s.get a' f' i' j' := rfl
@[simp] theorem raiseDie_has (d : Die) (c : Nat) (b : Option Nat) (n u : Nat) (v : Int) (w : Nat) (a' : Nat) (f' : Field) (i' j' : Nat) : (s.raiseDie d c b n u v w).has a' f' i' j' = s.has a' f' i' j' := rfl

/-! ## State.raiseBay -/

@[simp] theorem raiseBay_pending (b : Bay) (c n u : Nat) (v : Int) (w : Nat) : (s.raiseBay b c n u v w).pending = s.pending := rfl
@[simp] theorem raiseBay_code (b : Bay) (c n u : Nat) (v : Int) (w : Nat) : (s.raiseBay b c n u v w).code = s.code := rfl
@[simp] theorem raiseBay_clock (b : Bay) (c n u : Nat) (v : Int) (w : Nat) : (s.raiseBay b c n u v w).clock = s.clock := rfl
@[simp] theorem raiseBay_free (b : Bay) (c n u : Nat) (v : Int) (w : Nat) : (s.raiseBay b c n u v w).free = s.free := rfl
@[simp] theorem raiseBay_regs (b : Bay) (c n u : Nat) (v : Int) (w : Nat) : (s.raiseBay b c n u v w).regs = s.regs := rfl
@[simp] theorem raiseBay_staged (b : Bay) (c n u : Nat) (v : Int) (w : Nat) : (s.raiseBay b c n u v w).staged = s.staged := rfl
@[simp] theorem raiseBay_waiting (b : Bay) (c n u : Nat) (v : Int) (w : Nat) : (s.raiseBay b c n u v w).waiting = s.waiting := rfl
@[simp] theorem raiseBay_groups (b : Bay) (c n u : Nat) (v : Int) (w : Nat) : (s.raiseBay b c n u v w).groups = s.groups := rfl
@[simp] theorem raiseBay_dies (b : Bay) (c n u : Nat) (v : Int) (w : Nat) : (s.raiseBay b c n u v w).dies = s.dies := rfl
@[simp] theorem raiseBay_sfe (b : Bay) (c n u : Nat) (v : Int) (w : Nat) : (s.raiseBay b c n u v w).sfe = s.sfe := rfl
@[simp] theorem raiseBay_latDie (b : Bay) (c n u : Nat) (v : Int) (w : Nat) : (s.raiseBay b c n u v w).latDie = s.latDie := rfl
@[simp] theorem raiseBay_lat (b : Bay) (c n u : Nat) (v : Int) (w : Nat) : (s.raiseBay b c n u v w).lat = s.lat := rfl
@[simp] theorem raiseBay_recp (b : Bay) (c n u : Nat) (v : Int) (w : Nat) : (s.raiseBay b c n u v w).recp = s.recp := rfl
@[simp] theorem raiseBay_osv (b : Bay) (c n u : Nat) (v : Int) (w : Nat) : (s.raiseBay b c n u v w).osv = s.osv := rfl
@[simp] theorem raiseBay_trn (b : Bay) (c n u : Nat) (v : Int) (w : Nat) : (s.raiseBay b c n u v w).trn = s.trn := rfl
@[simp] theorem raiseBay_spn (b : Bay) (c n u : Nat) (v : Int) (w : Nat) : (s.raiseBay b c n u v w).spn = s.spn := rfl
@[simp] theorem raiseBay_ceil (b : Bay) (c n u : Nat) (v : Int) (w : Nat) : (s.raiseBay b c n u v w).ceil = s.ceil := rfl
@[simp] theorem raiseBay_axp (b : Bay) (c n u : Nat) (v : Int) (w : Nat) : (s.raiseBay b c n u v w).axp = s.axp := rfl
@[simp] theorem raiseBay_yrd (b : Bay) (c n u : Nat) (v : Int) (w : Nat) : (s.raiseBay b c n u v w).yrd = s.yrd := rfl
@[simp] theorem raiseBay_cru (b : Bay) (c n u : Nat) (v : Int) (w : Nat) : (s.raiseBay b c n u v w).cru = s.cru := rfl
@[simp] theorem raiseBay_mem (b : Bay) (c n u : Nat) (v : Int) (w : Nat) : (s.raiseBay b c n u v w).mem = s.mem := rfl
@[simp] theorem raiseBay_lnd (b : Bay) (c n u : Nat) (v : Int) (w : Nat) : (s.raiseBay b c n u v w).lnd = s.lnd := rfl
@[simp] theorem raiseBay_miu (b : Bay) (c n u : Nat) (v : Int) (w : Nat) : (s.raiseBay b c n u v w).miu = s.miu := rfl
@[simp] theorem raiseBay_vlk (b : Bay) (c n u : Nat) (v : Int) (w : Nat) : (s.raiseBay b c n u v w).vlk = s.vlk := rfl
@[simp] theorem raiseBay_crew (b : Bay) (c n u : Nat) (v : Int) (w : Nat) : (s.raiseBay b c n u v w).crew = s.crew := rfl
@[simp] theorem raiseBay_qen (b : Bay) (c n u : Nat) (v : Int) (w : Nat) : (s.raiseBay b c n u v w).qen = s.qen := rfl
@[simp] theorem raiseBay_ep (b : Bay) (c n u : Nat) (v : Int) (w : Nat) : (s.raiseBay b c n u v w).ep = s.ep := rfl
@[simp] theorem raiseBay_hic (b : Bay) (c n u : Nat) (v : Int) (w : Nat) : (s.raiseBay b c n u v w).hic = s.hic := rfl
@[simp] theorem raiseBay_skd (b : Bay) (c n u : Nat) (v : Int) (w : Nat) : (s.raiseBay b c n u v w).skd = s.skd := rfl
@[simp] theorem raiseBay_skdLast (b : Bay) (c n u : Nat) (v : Int) (w : Nat) : (s.raiseBay b c n u v w).skdLast = s.skdLast := rfl
@[simp] theorem raiseBay_fwu (b : Bay) (c n u : Nat) (v : Int) (w : Nat) : (s.raiseBay b c n u v w).fwu = s.fwu := rfl
@[simp] theorem raiseBay_pwr (b : Bay) (c n u : Nat) (v : Int) (w : Nat) : (s.raiseBay b c n u v w).pwr = s.pwr := rfl
@[simp] theorem raiseBay_get (b : Bay) (c n u : Nat) (v : Int) (w : Nat) (a' : Nat) (f' : Field) (i' j' : Nat) : (s.raiseBay b c n u v w).get a' f' i' j' = s.get a' f' i' j' := rfl
@[simp] theorem raiseBay_has (b : Bay) (c n u : Nat) (v : Int) (w : Nat) (a' : Nat) (f' : Field) (i' j' : Nat) : (s.raiseBay b c n u v w).has a' f' i' j' = s.has a' f' i' j' := rfl

/-! ## State.setSfe -/

@[simp] theorem setSfe_pending (b : Bay) (x : Sfe) : (s.setSfe b x).pending = s.pending := rfl
@[simp] theorem setSfe_code (b : Bay) (x : Sfe) : (s.setSfe b x).code = s.code := rfl
@[simp] theorem setSfe_clock (b : Bay) (x : Sfe) : (s.setSfe b x).clock = s.clock := rfl
@[simp] theorem setSfe_free (b : Bay) (x : Sfe) : (s.setSfe b x).free = s.free := rfl
@[simp] theorem setSfe_regs (b : Bay) (x : Sfe) : (s.setSfe b x).regs = s.regs := rfl
@[simp] theorem setSfe_staged (b : Bay) (x : Sfe) : (s.setSfe b x).staged = s.staged := rfl
@[simp] theorem setSfe_waiting (b : Bay) (x : Sfe) : (s.setSfe b x).waiting = s.waiting := rfl
@[simp] theorem setSfe_groups (b : Bay) (x : Sfe) : (s.setSfe b x).groups = s.groups := rfl
@[simp] theorem setSfe_ports (b : Bay) (x : Sfe) : (s.setSfe b x).ports = s.ports := rfl
@[simp] theorem setSfe_dies (b : Bay) (x : Sfe) : (s.setSfe b x).dies = s.dies := rfl
@[simp] theorem setSfe_latDie (b : Bay) (x : Sfe) : (s.setSfe b x).latDie = s.latDie := rfl
@[simp] theorem setSfe_lat (b : Bay) (x : Sfe) : (s.setSfe b x).lat = s.lat := rfl
@[simp] theorem setSfe_recp (b : Bay) (x : Sfe) : (s.setSfe b x).recp = s.recp := rfl
@[simp] theorem setSfe_osv (b : Bay) (x : Sfe) : (s.setSfe b x).osv = s.osv := rfl
@[simp] theorem setSfe_trn (b : Bay) (x : Sfe) : (s.setSfe b x).trn = s.trn := rfl
@[simp] theorem setSfe_spn (b : Bay) (x : Sfe) : (s.setSfe b x).spn = s.spn := rfl
@[simp] theorem setSfe_ceil (b : Bay) (x : Sfe) : (s.setSfe b x).ceil = s.ceil := rfl
@[simp] theorem setSfe_axp (b : Bay) (x : Sfe) : (s.setSfe b x).axp = s.axp := rfl
@[simp] theorem setSfe_yrd (b : Bay) (x : Sfe) : (s.setSfe b x).yrd = s.yrd := rfl
@[simp] theorem setSfe_cru (b : Bay) (x : Sfe) : (s.setSfe b x).cru = s.cru := rfl
@[simp] theorem setSfe_mem (b : Bay) (x : Sfe) : (s.setSfe b x).mem = s.mem := rfl
@[simp] theorem setSfe_lnd (b : Bay) (x : Sfe) : (s.setSfe b x).lnd = s.lnd := rfl
@[simp] theorem setSfe_miu (b : Bay) (x : Sfe) : (s.setSfe b x).miu = s.miu := rfl
@[simp] theorem setSfe_vlk (b : Bay) (x : Sfe) : (s.setSfe b x).vlk = s.vlk := rfl
@[simp] theorem setSfe_crew (b : Bay) (x : Sfe) : (s.setSfe b x).crew = s.crew := rfl
@[simp] theorem setSfe_qen (b : Bay) (x : Sfe) : (s.setSfe b x).qen = s.qen := rfl
@[simp] theorem setSfe_ep (b : Bay) (x : Sfe) : (s.setSfe b x).ep = s.ep := rfl
@[simp] theorem setSfe_hic (b : Bay) (x : Sfe) : (s.setSfe b x).hic = s.hic := rfl
@[simp] theorem setSfe_skd (b : Bay) (x : Sfe) : (s.setSfe b x).skd = s.skd := rfl
@[simp] theorem setSfe_skdLast (b : Bay) (x : Sfe) : (s.setSfe b x).skdLast = s.skdLast := rfl
@[simp] theorem setSfe_fwu (b : Bay) (x : Sfe) : (s.setSfe b x).fwu = s.fwu := rfl
@[simp] theorem setSfe_pwr (b : Bay) (x : Sfe) : (s.setSfe b x).pwr = s.pwr := rfl
@[simp] theorem setSfe_get (b : Bay) (x : Sfe) (a' : Nat) (f' : Field) (i' j' : Nat) : (s.setSfe b x).get a' f' i' j' = s.get a' f' i' j' := rfl
@[simp] theorem setSfe_has (b : Bay) (x : Sfe) (a' : Nat) (f' : Field) (i' j' : Nat) : (s.setSfe b x).has a' f' i' j' = s.has a' f' i' j' := rfl

/-! ## State.setSpot -/

@[simp] theorem setSpot_pending (b : Bay) (k : Fin 7) (x : SfeSpot) : (s.setSpot b k x).pending = s.pending := rfl
@[simp] theorem setSpot_code (b : Bay) (k : Fin 7) (x : SfeSpot) : (s.setSpot b k x).code = s.code := rfl
@[simp] theorem setSpot_clock (b : Bay) (k : Fin 7) (x : SfeSpot) : (s.setSpot b k x).clock = s.clock := rfl
@[simp] theorem setSpot_free (b : Bay) (k : Fin 7) (x : SfeSpot) : (s.setSpot b k x).free = s.free := rfl
@[simp] theorem setSpot_regs (b : Bay) (k : Fin 7) (x : SfeSpot) : (s.setSpot b k x).regs = s.regs := rfl
@[simp] theorem setSpot_staged (b : Bay) (k : Fin 7) (x : SfeSpot) : (s.setSpot b k x).staged = s.staged := rfl
@[simp] theorem setSpot_waiting (b : Bay) (k : Fin 7) (x : SfeSpot) : (s.setSpot b k x).waiting = s.waiting := rfl
@[simp] theorem setSpot_groups (b : Bay) (k : Fin 7) (x : SfeSpot) : (s.setSpot b k x).groups = s.groups := rfl
@[simp] theorem setSpot_ports (b : Bay) (k : Fin 7) (x : SfeSpot) : (s.setSpot b k x).ports = s.ports := rfl
@[simp] theorem setSpot_dies (b : Bay) (k : Fin 7) (x : SfeSpot) : (s.setSpot b k x).dies = s.dies := rfl
@[simp] theorem setSpot_latDie (b : Bay) (k : Fin 7) (x : SfeSpot) : (s.setSpot b k x).latDie = s.latDie := rfl
@[simp] theorem setSpot_lat (b : Bay) (k : Fin 7) (x : SfeSpot) : (s.setSpot b k x).lat = s.lat := rfl
@[simp] theorem setSpot_recp (b : Bay) (k : Fin 7) (x : SfeSpot) : (s.setSpot b k x).recp = s.recp := rfl
@[simp] theorem setSpot_osv (b : Bay) (k : Fin 7) (x : SfeSpot) : (s.setSpot b k x).osv = s.osv := rfl
@[simp] theorem setSpot_trn (b : Bay) (k : Fin 7) (x : SfeSpot) : (s.setSpot b k x).trn = s.trn := rfl
@[simp] theorem setSpot_spn (b : Bay) (k : Fin 7) (x : SfeSpot) : (s.setSpot b k x).spn = s.spn := rfl
@[simp] theorem setSpot_ceil (b : Bay) (k : Fin 7) (x : SfeSpot) : (s.setSpot b k x).ceil = s.ceil := rfl
@[simp] theorem setSpot_axp (b : Bay) (k : Fin 7) (x : SfeSpot) : (s.setSpot b k x).axp = s.axp := rfl
@[simp] theorem setSpot_yrd (b : Bay) (k : Fin 7) (x : SfeSpot) : (s.setSpot b k x).yrd = s.yrd := rfl
@[simp] theorem setSpot_cru (b : Bay) (k : Fin 7) (x : SfeSpot) : (s.setSpot b k x).cru = s.cru := rfl
@[simp] theorem setSpot_mem (b : Bay) (k : Fin 7) (x : SfeSpot) : (s.setSpot b k x).mem = s.mem := rfl
@[simp] theorem setSpot_lnd (b : Bay) (k : Fin 7) (x : SfeSpot) : (s.setSpot b k x).lnd = s.lnd := rfl
@[simp] theorem setSpot_miu (b : Bay) (k : Fin 7) (x : SfeSpot) : (s.setSpot b k x).miu = s.miu := rfl
@[simp] theorem setSpot_vlk (b : Bay) (k : Fin 7) (x : SfeSpot) : (s.setSpot b k x).vlk = s.vlk := rfl
@[simp] theorem setSpot_crew (b : Bay) (k : Fin 7) (x : SfeSpot) : (s.setSpot b k x).crew = s.crew := rfl
@[simp] theorem setSpot_qen (b : Bay) (k : Fin 7) (x : SfeSpot) : (s.setSpot b k x).qen = s.qen := rfl
@[simp] theorem setSpot_ep (b : Bay) (k : Fin 7) (x : SfeSpot) : (s.setSpot b k x).ep = s.ep := rfl
@[simp] theorem setSpot_hic (b : Bay) (k : Fin 7) (x : SfeSpot) : (s.setSpot b k x).hic = s.hic := rfl
@[simp] theorem setSpot_skd (b : Bay) (k : Fin 7) (x : SfeSpot) : (s.setSpot b k x).skd = s.skd := rfl
@[simp] theorem setSpot_skdLast (b : Bay) (k : Fin 7) (x : SfeSpot) : (s.setSpot b k x).skdLast = s.skdLast := rfl
@[simp] theorem setSpot_fwu (b : Bay) (k : Fin 7) (x : SfeSpot) : (s.setSpot b k x).fwu = s.fwu := rfl
@[simp] theorem setSpot_pwr (b : Bay) (k : Fin 7) (x : SfeSpot) : (s.setSpot b k x).pwr = s.pwr := rfl
@[simp] theorem setSpot_get (b : Bay) (k : Fin 7) (x : SfeSpot) (a' : Nat) (f' : Field) (i' j' : Nat) : (s.setSpot b k x).get a' f' i' j' = s.get a' f' i' j' := rfl
@[simp] theorem setSpot_has (b : Bay) (k : Fin 7) (x : SfeSpot) (a' : Nat) (f' : Field) (i' j' : Nat) : (s.setSpot b k x).has a' f' i' j' = s.has a' f' i' j' := rfl

/-! ## State.setLat -/

@[simp] theorem setLat_pending (b : Bay) (x : LatBay) : (s.setLat b x).pending = s.pending := rfl
@[simp] theorem setLat_code (b : Bay) (x : LatBay) : (s.setLat b x).code = s.code := rfl
@[simp] theorem setLat_clock (b : Bay) (x : LatBay) : (s.setLat b x).clock = s.clock := rfl
@[simp] theorem setLat_free (b : Bay) (x : LatBay) : (s.setLat b x).free = s.free := rfl
@[simp] theorem setLat_regs (b : Bay) (x : LatBay) : (s.setLat b x).regs = s.regs := rfl
@[simp] theorem setLat_staged (b : Bay) (x : LatBay) : (s.setLat b x).staged = s.staged := rfl
@[simp] theorem setLat_waiting (b : Bay) (x : LatBay) : (s.setLat b x).waiting = s.waiting := rfl
@[simp] theorem setLat_groups (b : Bay) (x : LatBay) : (s.setLat b x).groups = s.groups := rfl
@[simp] theorem setLat_ports (b : Bay) (x : LatBay) : (s.setLat b x).ports = s.ports := rfl
@[simp] theorem setLat_dies (b : Bay) (x : LatBay) : (s.setLat b x).dies = s.dies := rfl
@[simp] theorem setLat_sfe (b : Bay) (x : LatBay) : (s.setLat b x).sfe = s.sfe := rfl
@[simp] theorem setLat_latDie (b : Bay) (x : LatBay) : (s.setLat b x).latDie = s.latDie := rfl
@[simp] theorem setLat_recp (b : Bay) (x : LatBay) : (s.setLat b x).recp = s.recp := rfl
@[simp] theorem setLat_osv (b : Bay) (x : LatBay) : (s.setLat b x).osv = s.osv := rfl
@[simp] theorem setLat_trn (b : Bay) (x : LatBay) : (s.setLat b x).trn = s.trn := rfl
@[simp] theorem setLat_spn (b : Bay) (x : LatBay) : (s.setLat b x).spn = s.spn := rfl
@[simp] theorem setLat_ceil (b : Bay) (x : LatBay) : (s.setLat b x).ceil = s.ceil := rfl
@[simp] theorem setLat_axp (b : Bay) (x : LatBay) : (s.setLat b x).axp = s.axp := rfl
@[simp] theorem setLat_yrd (b : Bay) (x : LatBay) : (s.setLat b x).yrd = s.yrd := rfl
@[simp] theorem setLat_cru (b : Bay) (x : LatBay) : (s.setLat b x).cru = s.cru := rfl
@[simp] theorem setLat_mem (b : Bay) (x : LatBay) : (s.setLat b x).mem = s.mem := rfl
@[simp] theorem setLat_lnd (b : Bay) (x : LatBay) : (s.setLat b x).lnd = s.lnd := rfl
@[simp] theorem setLat_miu (b : Bay) (x : LatBay) : (s.setLat b x).miu = s.miu := rfl
@[simp] theorem setLat_vlk (b : Bay) (x : LatBay) : (s.setLat b x).vlk = s.vlk := rfl
@[simp] theorem setLat_crew (b : Bay) (x : LatBay) : (s.setLat b x).crew = s.crew := rfl
@[simp] theorem setLat_qen (b : Bay) (x : LatBay) : (s.setLat b x).qen = s.qen := rfl
@[simp] theorem setLat_ep (b : Bay) (x : LatBay) : (s.setLat b x).ep = s.ep := rfl
@[simp] theorem setLat_hic (b : Bay) (x : LatBay) : (s.setLat b x).hic = s.hic := rfl
@[simp] theorem setLat_skd (b : Bay) (x : LatBay) : (s.setLat b x).skd = s.skd := rfl
@[simp] theorem setLat_skdLast (b : Bay) (x : LatBay) : (s.setLat b x).skdLast = s.skdLast := rfl
@[simp] theorem setLat_fwu (b : Bay) (x : LatBay) : (s.setLat b x).fwu = s.fwu := rfl
@[simp] theorem setLat_pwr (b : Bay) (x : LatBay) : (s.setLat b x).pwr = s.pwr := rfl
@[simp] theorem setLat_get (b : Bay) (x : LatBay) (a' : Nat) (f' : Field) (i' j' : Nat) : (s.setLat b x).get a' f' i' j' = s.get a' f' i' j' := rfl
@[simp] theorem setLat_has (b : Bay) (x : LatBay) (a' : Nat) (f' : Field) (i' j' : Nat) : (s.setLat b x).has a' f' i' j' = s.has a' f' i' j' := rfl

/-! ## State.setLatSpot -/

@[simp] theorem setLatSpot_pending (b : Bay) (k : Fin 7) (x : LatSpot) : (s.setLatSpot b k x).pending = s.pending := rfl
@[simp] theorem setLatSpot_code (b : Bay) (k : Fin 7) (x : LatSpot) : (s.setLatSpot b k x).code = s.code := rfl
@[simp] theorem setLatSpot_clock (b : Bay) (k : Fin 7) (x : LatSpot) : (s.setLatSpot b k x).clock = s.clock := rfl
@[simp] theorem setLatSpot_free (b : Bay) (k : Fin 7) (x : LatSpot) : (s.setLatSpot b k x).free = s.free := rfl
@[simp] theorem setLatSpot_regs (b : Bay) (k : Fin 7) (x : LatSpot) : (s.setLatSpot b k x).regs = s.regs := rfl
@[simp] theorem setLatSpot_staged (b : Bay) (k : Fin 7) (x : LatSpot) : (s.setLatSpot b k x).staged = s.staged := rfl
@[simp] theorem setLatSpot_waiting (b : Bay) (k : Fin 7) (x : LatSpot) : (s.setLatSpot b k x).waiting = s.waiting := rfl
@[simp] theorem setLatSpot_groups (b : Bay) (k : Fin 7) (x : LatSpot) : (s.setLatSpot b k x).groups = s.groups := rfl
@[simp] theorem setLatSpot_ports (b : Bay) (k : Fin 7) (x : LatSpot) : (s.setLatSpot b k x).ports = s.ports := rfl
@[simp] theorem setLatSpot_dies (b : Bay) (k : Fin 7) (x : LatSpot) : (s.setLatSpot b k x).dies = s.dies := rfl
@[simp] theorem setLatSpot_sfe (b : Bay) (k : Fin 7) (x : LatSpot) : (s.setLatSpot b k x).sfe = s.sfe := rfl
@[simp] theorem setLatSpot_latDie (b : Bay) (k : Fin 7) (x : LatSpot) : (s.setLatSpot b k x).latDie = s.latDie := rfl
@[simp] theorem setLatSpot_recp (b : Bay) (k : Fin 7) (x : LatSpot) : (s.setLatSpot b k x).recp = s.recp := rfl
@[simp] theorem setLatSpot_osv (b : Bay) (k : Fin 7) (x : LatSpot) : (s.setLatSpot b k x).osv = s.osv := rfl
@[simp] theorem setLatSpot_trn (b : Bay) (k : Fin 7) (x : LatSpot) : (s.setLatSpot b k x).trn = s.trn := rfl
@[simp] theorem setLatSpot_spn (b : Bay) (k : Fin 7) (x : LatSpot) : (s.setLatSpot b k x).spn = s.spn := rfl
@[simp] theorem setLatSpot_ceil (b : Bay) (k : Fin 7) (x : LatSpot) : (s.setLatSpot b k x).ceil = s.ceil := rfl
@[simp] theorem setLatSpot_axp (b : Bay) (k : Fin 7) (x : LatSpot) : (s.setLatSpot b k x).axp = s.axp := rfl
@[simp] theorem setLatSpot_yrd (b : Bay) (k : Fin 7) (x : LatSpot) : (s.setLatSpot b k x).yrd = s.yrd := rfl
@[simp] theorem setLatSpot_cru (b : Bay) (k : Fin 7) (x : LatSpot) : (s.setLatSpot b k x).cru = s.cru := rfl
@[simp] theorem setLatSpot_mem (b : Bay) (k : Fin 7) (x : LatSpot) : (s.setLatSpot b k x).mem = s.mem := rfl
@[simp] theorem setLatSpot_lnd (b : Bay) (k : Fin 7) (x : LatSpot) : (s.setLatSpot b k x).lnd = s.lnd := rfl
@[simp] theorem setLatSpot_miu (b : Bay) (k : Fin 7) (x : LatSpot) : (s.setLatSpot b k x).miu = s.miu := rfl
@[simp] theorem setLatSpot_vlk (b : Bay) (k : Fin 7) (x : LatSpot) : (s.setLatSpot b k x).vlk = s.vlk := rfl
@[simp] theorem setLatSpot_crew (b : Bay) (k : Fin 7) (x : LatSpot) : (s.setLatSpot b k x).crew = s.crew := rfl
@[simp] theorem setLatSpot_qen (b : Bay) (k : Fin 7) (x : LatSpot) : (s.setLatSpot b k x).qen = s.qen := rfl
@[simp] theorem setLatSpot_ep (b : Bay) (k : Fin 7) (x : LatSpot) : (s.setLatSpot b k x).ep = s.ep := rfl
@[simp] theorem setLatSpot_hic (b : Bay) (k : Fin 7) (x : LatSpot) : (s.setLatSpot b k x).hic = s.hic := rfl
@[simp] theorem setLatSpot_skd (b : Bay) (k : Fin 7) (x : LatSpot) : (s.setLatSpot b k x).skd = s.skd := rfl
@[simp] theorem setLatSpot_skdLast (b : Bay) (k : Fin 7) (x : LatSpot) : (s.setLatSpot b k x).skdLast = s.skdLast := rfl
@[simp] theorem setLatSpot_fwu (b : Bay) (k : Fin 7) (x : LatSpot) : (s.setLatSpot b k x).fwu = s.fwu := rfl
@[simp] theorem setLatSpot_pwr (b : Bay) (k : Fin 7) (x : LatSpot) : (s.setLatSpot b k x).pwr = s.pwr := rfl
@[simp] theorem setLatSpot_get (b : Bay) (k : Fin 7) (x : LatSpot) (a' : Nat) (f' : Field) (i' j' : Nat) : (s.setLatSpot b k x).get a' f' i' j' = s.get a' f' i' j' := rfl
@[simp] theorem setLatSpot_has (b : Bay) (k : Fin 7) (x : LatSpot) (a' : Nat) (f' : Field) (i' j' : Nat) : (s.setLatSpot b k x).has a' f' i' j' = s.has a' f' i' j' := rfl

/-! ## State.setLatDie -/

@[simp] theorem setLatDie_pending (d : Die) (x : LatDie) : (s.setLatDie d x).pending = s.pending := rfl
@[simp] theorem setLatDie_code (d : Die) (x : LatDie) : (s.setLatDie d x).code = s.code := rfl
@[simp] theorem setLatDie_clock (d : Die) (x : LatDie) : (s.setLatDie d x).clock = s.clock := rfl
@[simp] theorem setLatDie_free (d : Die) (x : LatDie) : (s.setLatDie d x).free = s.free := rfl
@[simp] theorem setLatDie_regs (d : Die) (x : LatDie) : (s.setLatDie d x).regs = s.regs := rfl
@[simp] theorem setLatDie_staged (d : Die) (x : LatDie) : (s.setLatDie d x).staged = s.staged := rfl
@[simp] theorem setLatDie_waiting (d : Die) (x : LatDie) : (s.setLatDie d x).waiting = s.waiting := rfl
@[simp] theorem setLatDie_groups (d : Die) (x : LatDie) : (s.setLatDie d x).groups = s.groups := rfl
@[simp] theorem setLatDie_ports (d : Die) (x : LatDie) : (s.setLatDie d x).ports = s.ports := rfl
@[simp] theorem setLatDie_dies (d : Die) (x : LatDie) : (s.setLatDie d x).dies = s.dies := rfl
@[simp] theorem setLatDie_sfe (d : Die) (x : LatDie) : (s.setLatDie d x).sfe = s.sfe := rfl
@[simp] theorem setLatDie_lat (d : Die) (x : LatDie) : (s.setLatDie d x).lat = s.lat := rfl
@[simp] theorem setLatDie_recp (d : Die) (x : LatDie) : (s.setLatDie d x).recp = s.recp := rfl
@[simp] theorem setLatDie_osv (d : Die) (x : LatDie) : (s.setLatDie d x).osv = s.osv := rfl
@[simp] theorem setLatDie_trn (d : Die) (x : LatDie) : (s.setLatDie d x).trn = s.trn := rfl
@[simp] theorem setLatDie_spn (d : Die) (x : LatDie) : (s.setLatDie d x).spn = s.spn := rfl
@[simp] theorem setLatDie_ceil (d : Die) (x : LatDie) : (s.setLatDie d x).ceil = s.ceil := rfl
@[simp] theorem setLatDie_axp (d : Die) (x : LatDie) : (s.setLatDie d x).axp = s.axp := rfl
@[simp] theorem setLatDie_yrd (d : Die) (x : LatDie) : (s.setLatDie d x).yrd = s.yrd := rfl
@[simp] theorem setLatDie_cru (d : Die) (x : LatDie) : (s.setLatDie d x).cru = s.cru := rfl
@[simp] theorem setLatDie_mem (d : Die) (x : LatDie) : (s.setLatDie d x).mem = s.mem := rfl
@[simp] theorem setLatDie_lnd (d : Die) (x : LatDie) : (s.setLatDie d x).lnd = s.lnd := rfl
@[simp] theorem setLatDie_miu (d : Die) (x : LatDie) : (s.setLatDie d x).miu = s.miu := rfl
@[simp] theorem setLatDie_vlk (d : Die) (x : LatDie) : (s.setLatDie d x).vlk = s.vlk := rfl
@[simp] theorem setLatDie_crew (d : Die) (x : LatDie) : (s.setLatDie d x).crew = s.crew := rfl
@[simp] theorem setLatDie_qen (d : Die) (x : LatDie) : (s.setLatDie d x).qen = s.qen := rfl
@[simp] theorem setLatDie_ep (d : Die) (x : LatDie) : (s.setLatDie d x).ep = s.ep := rfl
@[simp] theorem setLatDie_hic (d : Die) (x : LatDie) : (s.setLatDie d x).hic = s.hic := rfl
@[simp] theorem setLatDie_skd (d : Die) (x : LatDie) : (s.setLatDie d x).skd = s.skd := rfl
@[simp] theorem setLatDie_skdLast (d : Die) (x : LatDie) : (s.setLatDie d x).skdLast = s.skdLast := rfl
@[simp] theorem setLatDie_fwu (d : Die) (x : LatDie) : (s.setLatDie d x).fwu = s.fwu := rfl
@[simp] theorem setLatDie_pwr (d : Die) (x : LatDie) : (s.setLatDie d x).pwr = s.pwr := rfl
@[simp] theorem setLatDie_get (d : Die) (x : LatDie) (a' : Nat) (f' : Field) (i' j' : Nat) : (s.setLatDie d x).get a' f' i' j' = s.get a' f' i' j' := rfl
@[simp] theorem setLatDie_has (d : Die) (x : LatDie) (a' : Nat) (f' : Field) (i' j' : Nat) : (s.setLatDie d x).has a' f' i' j' = s.has a' f' i' j' := rfl

/-! ## State.setRec -/

@[simp] theorem setRec_pending (b : Bay) (x : Rec) : (s.setRec b x).pending = s.pending := rfl
@[simp] theorem setRec_code (b : Bay) (x : Rec) : (s.setRec b x).code = s.code := rfl
@[simp] theorem setRec_clock (b : Bay) (x : Rec) : (s.setRec b x).clock = s.clock := rfl
@[simp] theorem setRec_free (b : Bay) (x : Rec) : (s.setRec b x).free = s.free := rfl
@[simp] theorem setRec_regs (b : Bay) (x : Rec) : (s.setRec b x).regs = s.regs := rfl
@[simp] theorem setRec_staged (b : Bay) (x : Rec) : (s.setRec b x).staged = s.staged := rfl
@[simp] theorem setRec_waiting (b : Bay) (x : Rec) : (s.setRec b x).waiting = s.waiting := rfl
@[simp] theorem setRec_groups (b : Bay) (x : Rec) : (s.setRec b x).groups = s.groups := rfl
@[simp] theorem setRec_ports (b : Bay) (x : Rec) : (s.setRec b x).ports = s.ports := rfl
@[simp] theorem setRec_dies (b : Bay) (x : Rec) : (s.setRec b x).dies = s.dies := rfl
@[simp] theorem setRec_sfe (b : Bay) (x : Rec) : (s.setRec b x).sfe = s.sfe := rfl
@[simp] theorem setRec_latDie (b : Bay) (x : Rec) : (s.setRec b x).latDie = s.latDie := rfl
@[simp] theorem setRec_lat (b : Bay) (x : Rec) : (s.setRec b x).lat = s.lat := rfl
@[simp] theorem setRec_osv (b : Bay) (x : Rec) : (s.setRec b x).osv = s.osv := rfl
@[simp] theorem setRec_trn (b : Bay) (x : Rec) : (s.setRec b x).trn = s.trn := rfl
@[simp] theorem setRec_spn (b : Bay) (x : Rec) : (s.setRec b x).spn = s.spn := rfl
@[simp] theorem setRec_ceil (b : Bay) (x : Rec) : (s.setRec b x).ceil = s.ceil := rfl
@[simp] theorem setRec_axp (b : Bay) (x : Rec) : (s.setRec b x).axp = s.axp := rfl
@[simp] theorem setRec_yrd (b : Bay) (x : Rec) : (s.setRec b x).yrd = s.yrd := rfl
@[simp] theorem setRec_cru (b : Bay) (x : Rec) : (s.setRec b x).cru = s.cru := rfl
@[simp] theorem setRec_mem (b : Bay) (x : Rec) : (s.setRec b x).mem = s.mem := rfl
@[simp] theorem setRec_lnd (b : Bay) (x : Rec) : (s.setRec b x).lnd = s.lnd := rfl
@[simp] theorem setRec_miu (b : Bay) (x : Rec) : (s.setRec b x).miu = s.miu := rfl
@[simp] theorem setRec_vlk (b : Bay) (x : Rec) : (s.setRec b x).vlk = s.vlk := rfl
@[simp] theorem setRec_crew (b : Bay) (x : Rec) : (s.setRec b x).crew = s.crew := rfl
@[simp] theorem setRec_qen (b : Bay) (x : Rec) : (s.setRec b x).qen = s.qen := rfl
@[simp] theorem setRec_ep (b : Bay) (x : Rec) : (s.setRec b x).ep = s.ep := rfl
@[simp] theorem setRec_hic (b : Bay) (x : Rec) : (s.setRec b x).hic = s.hic := rfl
@[simp] theorem setRec_skd (b : Bay) (x : Rec) : (s.setRec b x).skd = s.skd := rfl
@[simp] theorem setRec_skdLast (b : Bay) (x : Rec) : (s.setRec b x).skdLast = s.skdLast := rfl
@[simp] theorem setRec_fwu (b : Bay) (x : Rec) : (s.setRec b x).fwu = s.fwu := rfl
@[simp] theorem setRec_pwr (b : Bay) (x : Rec) : (s.setRec b x).pwr = s.pwr := rfl
@[simp] theorem setRec_get (b : Bay) (x : Rec) (a' : Nat) (f' : Field) (i' j' : Nat) : (s.setRec b x).get a' f' i' j' = s.get a' f' i' j' := rfl
@[simp] theorem setRec_has (b : Bay) (x : Rec) (a' : Nat) (f' : Field) (i' j' : Nat) : (s.setRec b x).has a' f' i' j' = s.has a' f' i' j' := rfl

/-! ## State.setOsv -/

@[simp] theorem setOsv_pending (b : Bay) (x : Osv) : (s.setOsv b x).pending = s.pending := rfl
@[simp] theorem setOsv_code (b : Bay) (x : Osv) : (s.setOsv b x).code = s.code := rfl
@[simp] theorem setOsv_clock (b : Bay) (x : Osv) : (s.setOsv b x).clock = s.clock := rfl
@[simp] theorem setOsv_free (b : Bay) (x : Osv) : (s.setOsv b x).free = s.free := rfl
@[simp] theorem setOsv_regs (b : Bay) (x : Osv) : (s.setOsv b x).regs = s.regs := rfl
@[simp] theorem setOsv_staged (b : Bay) (x : Osv) : (s.setOsv b x).staged = s.staged := rfl
@[simp] theorem setOsv_waiting (b : Bay) (x : Osv) : (s.setOsv b x).waiting = s.waiting := rfl
@[simp] theorem setOsv_groups (b : Bay) (x : Osv) : (s.setOsv b x).groups = s.groups := rfl
@[simp] theorem setOsv_ports (b : Bay) (x : Osv) : (s.setOsv b x).ports = s.ports := rfl
@[simp] theorem setOsv_dies (b : Bay) (x : Osv) : (s.setOsv b x).dies = s.dies := rfl
@[simp] theorem setOsv_sfe (b : Bay) (x : Osv) : (s.setOsv b x).sfe = s.sfe := rfl
@[simp] theorem setOsv_latDie (b : Bay) (x : Osv) : (s.setOsv b x).latDie = s.latDie := rfl
@[simp] theorem setOsv_lat (b : Bay) (x : Osv) : (s.setOsv b x).lat = s.lat := rfl
@[simp] theorem setOsv_recp (b : Bay) (x : Osv) : (s.setOsv b x).recp = s.recp := rfl
@[simp] theorem setOsv_trn (b : Bay) (x : Osv) : (s.setOsv b x).trn = s.trn := rfl
@[simp] theorem setOsv_spn (b : Bay) (x : Osv) : (s.setOsv b x).spn = s.spn := rfl
@[simp] theorem setOsv_ceil (b : Bay) (x : Osv) : (s.setOsv b x).ceil = s.ceil := rfl
@[simp] theorem setOsv_axp (b : Bay) (x : Osv) : (s.setOsv b x).axp = s.axp := rfl
@[simp] theorem setOsv_yrd (b : Bay) (x : Osv) : (s.setOsv b x).yrd = s.yrd := rfl
@[simp] theorem setOsv_cru (b : Bay) (x : Osv) : (s.setOsv b x).cru = s.cru := rfl
@[simp] theorem setOsv_mem (b : Bay) (x : Osv) : (s.setOsv b x).mem = s.mem := rfl
@[simp] theorem setOsv_lnd (b : Bay) (x : Osv) : (s.setOsv b x).lnd = s.lnd := rfl
@[simp] theorem setOsv_miu (b : Bay) (x : Osv) : (s.setOsv b x).miu = s.miu := rfl
@[simp] theorem setOsv_vlk (b : Bay) (x : Osv) : (s.setOsv b x).vlk = s.vlk := rfl
@[simp] theorem setOsv_crew (b : Bay) (x : Osv) : (s.setOsv b x).crew = s.crew := rfl
@[simp] theorem setOsv_qen (b : Bay) (x : Osv) : (s.setOsv b x).qen = s.qen := rfl
@[simp] theorem setOsv_ep (b : Bay) (x : Osv) : (s.setOsv b x).ep = s.ep := rfl
@[simp] theorem setOsv_hic (b : Bay) (x : Osv) : (s.setOsv b x).hic = s.hic := rfl
@[simp] theorem setOsv_skd (b : Bay) (x : Osv) : (s.setOsv b x).skd = s.skd := rfl
@[simp] theorem setOsv_skdLast (b : Bay) (x : Osv) : (s.setOsv b x).skdLast = s.skdLast := rfl
@[simp] theorem setOsv_fwu (b : Bay) (x : Osv) : (s.setOsv b x).fwu = s.fwu := rfl
@[simp] theorem setOsv_pwr (b : Bay) (x : Osv) : (s.setOsv b x).pwr = s.pwr := rfl
@[simp] theorem setOsv_get (b : Bay) (x : Osv) (a' : Nat) (f' : Field) (i' j' : Nat) : (s.setOsv b x).get a' f' i' j' = s.get a' f' i' j' := rfl
@[simp] theorem setOsv_has (b : Bay) (x : Osv) (a' : Nat) (f' : Field) (i' j' : Nat) : (s.setOsv b x).has a' f' i' j' = s.has a' f' i' j' := rfl

/-! ## State.setTrn -/

@[simp] theorem setTrn_pending (d : Die) (x : Trn) : (s.setTrn d x).pending = s.pending := rfl
@[simp] theorem setTrn_code (d : Die) (x : Trn) : (s.setTrn d x).code = s.code := rfl
@[simp] theorem setTrn_clock (d : Die) (x : Trn) : (s.setTrn d x).clock = s.clock := rfl
@[simp] theorem setTrn_free (d : Die) (x : Trn) : (s.setTrn d x).free = s.free := rfl
@[simp] theorem setTrn_regs (d : Die) (x : Trn) : (s.setTrn d x).regs = s.regs := rfl
@[simp] theorem setTrn_staged (d : Die) (x : Trn) : (s.setTrn d x).staged = s.staged := rfl
@[simp] theorem setTrn_waiting (d : Die) (x : Trn) : (s.setTrn d x).waiting = s.waiting := rfl
@[simp] theorem setTrn_groups (d : Die) (x : Trn) : (s.setTrn d x).groups = s.groups := rfl
@[simp] theorem setTrn_ports (d : Die) (x : Trn) : (s.setTrn d x).ports = s.ports := rfl
@[simp] theorem setTrn_dies (d : Die) (x : Trn) : (s.setTrn d x).dies = s.dies := rfl
@[simp] theorem setTrn_sfe (d : Die) (x : Trn) : (s.setTrn d x).sfe = s.sfe := rfl
@[simp] theorem setTrn_latDie (d : Die) (x : Trn) : (s.setTrn d x).latDie = s.latDie := rfl
@[simp] theorem setTrn_lat (d : Die) (x : Trn) : (s.setTrn d x).lat = s.lat := rfl
@[simp] theorem setTrn_recp (d : Die) (x : Trn) : (s.setTrn d x).recp = s.recp := rfl
@[simp] theorem setTrn_osv (d : Die) (x : Trn) : (s.setTrn d x).osv = s.osv := rfl
@[simp] theorem setTrn_spn (d : Die) (x : Trn) : (s.setTrn d x).spn = s.spn := rfl
@[simp] theorem setTrn_ceil (d : Die) (x : Trn) : (s.setTrn d x).ceil = s.ceil := rfl
@[simp] theorem setTrn_axp (d : Die) (x : Trn) : (s.setTrn d x).axp = s.axp := rfl
@[simp] theorem setTrn_yrd (d : Die) (x : Trn) : (s.setTrn d x).yrd = s.yrd := rfl
@[simp] theorem setTrn_cru (d : Die) (x : Trn) : (s.setTrn d x).cru = s.cru := rfl
@[simp] theorem setTrn_mem (d : Die) (x : Trn) : (s.setTrn d x).mem = s.mem := rfl
@[simp] theorem setTrn_lnd (d : Die) (x : Trn) : (s.setTrn d x).lnd = s.lnd := rfl
@[simp] theorem setTrn_miu (d : Die) (x : Trn) : (s.setTrn d x).miu = s.miu := rfl
@[simp] theorem setTrn_vlk (d : Die) (x : Trn) : (s.setTrn d x).vlk = s.vlk := rfl
@[simp] theorem setTrn_crew (d : Die) (x : Trn) : (s.setTrn d x).crew = s.crew := rfl
@[simp] theorem setTrn_qen (d : Die) (x : Trn) : (s.setTrn d x).qen = s.qen := rfl
@[simp] theorem setTrn_ep (d : Die) (x : Trn) : (s.setTrn d x).ep = s.ep := rfl
@[simp] theorem setTrn_hic (d : Die) (x : Trn) : (s.setTrn d x).hic = s.hic := rfl
@[simp] theorem setTrn_skd (d : Die) (x : Trn) : (s.setTrn d x).skd = s.skd := rfl
@[simp] theorem setTrn_skdLast (d : Die) (x : Trn) : (s.setTrn d x).skdLast = s.skdLast := rfl
@[simp] theorem setTrn_fwu (d : Die) (x : Trn) : (s.setTrn d x).fwu = s.fwu := rfl
@[simp] theorem setTrn_pwr (d : Die) (x : Trn) : (s.setTrn d x).pwr = s.pwr := rfl
@[simp] theorem setTrn_get (d : Die) (x : Trn) (a' : Nat) (f' : Field) (i' j' : Nat) : (s.setTrn d x).get a' f' i' j' = s.get a' f' i' j' := rfl
@[simp] theorem setTrn_has (d : Die) (x : Trn) (a' : Nat) (f' : Field) (i' j' : Nat) : (s.setTrn d x).has a' f' i' j' = s.has a' f' i' j' := rfl

/-! ## State.setSlot -/

@[simp] theorem setSlot_pending (d : Die) (n : Fin 48) (x : TrnSlot) : (s.setSlot d n x).pending = s.pending := rfl
@[simp] theorem setSlot_code (d : Die) (n : Fin 48) (x : TrnSlot) : (s.setSlot d n x).code = s.code := rfl
@[simp] theorem setSlot_clock (d : Die) (n : Fin 48) (x : TrnSlot) : (s.setSlot d n x).clock = s.clock := rfl
@[simp] theorem setSlot_free (d : Die) (n : Fin 48) (x : TrnSlot) : (s.setSlot d n x).free = s.free := rfl
@[simp] theorem setSlot_regs (d : Die) (n : Fin 48) (x : TrnSlot) : (s.setSlot d n x).regs = s.regs := rfl
@[simp] theorem setSlot_staged (d : Die) (n : Fin 48) (x : TrnSlot) : (s.setSlot d n x).staged = s.staged := rfl
@[simp] theorem setSlot_waiting (d : Die) (n : Fin 48) (x : TrnSlot) : (s.setSlot d n x).waiting = s.waiting := rfl
@[simp] theorem setSlot_groups (d : Die) (n : Fin 48) (x : TrnSlot) : (s.setSlot d n x).groups = s.groups := rfl
@[simp] theorem setSlot_ports (d : Die) (n : Fin 48) (x : TrnSlot) : (s.setSlot d n x).ports = s.ports := rfl
@[simp] theorem setSlot_dies (d : Die) (n : Fin 48) (x : TrnSlot) : (s.setSlot d n x).dies = s.dies := rfl
@[simp] theorem setSlot_sfe (d : Die) (n : Fin 48) (x : TrnSlot) : (s.setSlot d n x).sfe = s.sfe := rfl
@[simp] theorem setSlot_latDie (d : Die) (n : Fin 48) (x : TrnSlot) : (s.setSlot d n x).latDie = s.latDie := rfl
@[simp] theorem setSlot_lat (d : Die) (n : Fin 48) (x : TrnSlot) : (s.setSlot d n x).lat = s.lat := rfl
@[simp] theorem setSlot_recp (d : Die) (n : Fin 48) (x : TrnSlot) : (s.setSlot d n x).recp = s.recp := rfl
@[simp] theorem setSlot_osv (d : Die) (n : Fin 48) (x : TrnSlot) : (s.setSlot d n x).osv = s.osv := rfl
@[simp] theorem setSlot_spn (d : Die) (n : Fin 48) (x : TrnSlot) : (s.setSlot d n x).spn = s.spn := rfl
@[simp] theorem setSlot_ceil (d : Die) (n : Fin 48) (x : TrnSlot) : (s.setSlot d n x).ceil = s.ceil := rfl
@[simp] theorem setSlot_axp (d : Die) (n : Fin 48) (x : TrnSlot) : (s.setSlot d n x).axp = s.axp := rfl
@[simp] theorem setSlot_yrd (d : Die) (n : Fin 48) (x : TrnSlot) : (s.setSlot d n x).yrd = s.yrd := rfl
@[simp] theorem setSlot_cru (d : Die) (n : Fin 48) (x : TrnSlot) : (s.setSlot d n x).cru = s.cru := rfl
@[simp] theorem setSlot_mem (d : Die) (n : Fin 48) (x : TrnSlot) : (s.setSlot d n x).mem = s.mem := rfl
@[simp] theorem setSlot_lnd (d : Die) (n : Fin 48) (x : TrnSlot) : (s.setSlot d n x).lnd = s.lnd := rfl
@[simp] theorem setSlot_miu (d : Die) (n : Fin 48) (x : TrnSlot) : (s.setSlot d n x).miu = s.miu := rfl
@[simp] theorem setSlot_vlk (d : Die) (n : Fin 48) (x : TrnSlot) : (s.setSlot d n x).vlk = s.vlk := rfl
@[simp] theorem setSlot_crew (d : Die) (n : Fin 48) (x : TrnSlot) : (s.setSlot d n x).crew = s.crew := rfl
@[simp] theorem setSlot_qen (d : Die) (n : Fin 48) (x : TrnSlot) : (s.setSlot d n x).qen = s.qen := rfl
@[simp] theorem setSlot_ep (d : Die) (n : Fin 48) (x : TrnSlot) : (s.setSlot d n x).ep = s.ep := rfl
@[simp] theorem setSlot_hic (d : Die) (n : Fin 48) (x : TrnSlot) : (s.setSlot d n x).hic = s.hic := rfl
@[simp] theorem setSlot_skd (d : Die) (n : Fin 48) (x : TrnSlot) : (s.setSlot d n x).skd = s.skd := rfl
@[simp] theorem setSlot_skdLast (d : Die) (n : Fin 48) (x : TrnSlot) : (s.setSlot d n x).skdLast = s.skdLast := rfl
@[simp] theorem setSlot_fwu (d : Die) (n : Fin 48) (x : TrnSlot) : (s.setSlot d n x).fwu = s.fwu := rfl
@[simp] theorem setSlot_pwr (d : Die) (n : Fin 48) (x : TrnSlot) : (s.setSlot d n x).pwr = s.pwr := rfl
@[simp] theorem setSlot_get (d : Die) (n : Fin 48) (x : TrnSlot) (a' : Nat) (f' : Field) (i' j' : Nat) : (s.setSlot d n x).get a' f' i' j' = s.get a' f' i' j' := rfl
@[simp] theorem setSlot_has (d : Die) (n : Fin 48) (x : TrnSlot) (a' : Nat) (f' : Field) (i' j' : Nat) : (s.setSlot d n x).has a' f' i' j' = s.has a' f' i' j' := rfl

/-! ## State.setSpn -/

@[simp] theorem setSpn_pending (b : Bay) (x : Spn) : (s.setSpn b x).pending = s.pending := rfl
@[simp] theorem setSpn_code (b : Bay) (x : Spn) : (s.setSpn b x).code = s.code := rfl
@[simp] theorem setSpn_clock (b : Bay) (x : Spn) : (s.setSpn b x).clock = s.clock := rfl
@[simp] theorem setSpn_free (b : Bay) (x : Spn) : (s.setSpn b x).free = s.free := rfl
@[simp] theorem setSpn_regs (b : Bay) (x : Spn) : (s.setSpn b x).regs = s.regs := rfl
@[simp] theorem setSpn_staged (b : Bay) (x : Spn) : (s.setSpn b x).staged = s.staged := rfl
@[simp] theorem setSpn_waiting (b : Bay) (x : Spn) : (s.setSpn b x).waiting = s.waiting := rfl
@[simp] theorem setSpn_groups (b : Bay) (x : Spn) : (s.setSpn b x).groups = s.groups := rfl
@[simp] theorem setSpn_ports (b : Bay) (x : Spn) : (s.setSpn b x).ports = s.ports := rfl
@[simp] theorem setSpn_dies (b : Bay) (x : Spn) : (s.setSpn b x).dies = s.dies := rfl
@[simp] theorem setSpn_sfe (b : Bay) (x : Spn) : (s.setSpn b x).sfe = s.sfe := rfl
@[simp] theorem setSpn_latDie (b : Bay) (x : Spn) : (s.setSpn b x).latDie = s.latDie := rfl
@[simp] theorem setSpn_lat (b : Bay) (x : Spn) : (s.setSpn b x).lat = s.lat := rfl
@[simp] theorem setSpn_recp (b : Bay) (x : Spn) : (s.setSpn b x).recp = s.recp := rfl
@[simp] theorem setSpn_osv (b : Bay) (x : Spn) : (s.setSpn b x).osv = s.osv := rfl
@[simp] theorem setSpn_trn (b : Bay) (x : Spn) : (s.setSpn b x).trn = s.trn := rfl
@[simp] theorem setSpn_ceil (b : Bay) (x : Spn) : (s.setSpn b x).ceil = s.ceil := rfl
@[simp] theorem setSpn_axp (b : Bay) (x : Spn) : (s.setSpn b x).axp = s.axp := rfl
@[simp] theorem setSpn_yrd (b : Bay) (x : Spn) : (s.setSpn b x).yrd = s.yrd := rfl
@[simp] theorem setSpn_cru (b : Bay) (x : Spn) : (s.setSpn b x).cru = s.cru := rfl
@[simp] theorem setSpn_mem (b : Bay) (x : Spn) : (s.setSpn b x).mem = s.mem := rfl
@[simp] theorem setSpn_lnd (b : Bay) (x : Spn) : (s.setSpn b x).lnd = s.lnd := rfl
@[simp] theorem setSpn_miu (b : Bay) (x : Spn) : (s.setSpn b x).miu = s.miu := rfl
@[simp] theorem setSpn_vlk (b : Bay) (x : Spn) : (s.setSpn b x).vlk = s.vlk := rfl
@[simp] theorem setSpn_crew (b : Bay) (x : Spn) : (s.setSpn b x).crew = s.crew := rfl
@[simp] theorem setSpn_qen (b : Bay) (x : Spn) : (s.setSpn b x).qen = s.qen := rfl
@[simp] theorem setSpn_ep (b : Bay) (x : Spn) : (s.setSpn b x).ep = s.ep := rfl
@[simp] theorem setSpn_hic (b : Bay) (x : Spn) : (s.setSpn b x).hic = s.hic := rfl
@[simp] theorem setSpn_skd (b : Bay) (x : Spn) : (s.setSpn b x).skd = s.skd := rfl
@[simp] theorem setSpn_skdLast (b : Bay) (x : Spn) : (s.setSpn b x).skdLast = s.skdLast := rfl
@[simp] theorem setSpn_fwu (b : Bay) (x : Spn) : (s.setSpn b x).fwu = s.fwu := rfl
@[simp] theorem setSpn_pwr (b : Bay) (x : Spn) : (s.setSpn b x).pwr = s.pwr := rfl
@[simp] theorem setSpn_get (b : Bay) (x : Spn) (a' : Nat) (f' : Field) (i' j' : Nat) : (s.setSpn b x).get a' f' i' j' = s.get a' f' i' j' := rfl
@[simp] theorem setSpn_has (b : Bay) (x : Spn) (a' : Nat) (f' : Field) (i' j' : Nat) : (s.setSpn b x).has a' f' i' j' = s.has a' f' i' j' := rfl

/-! ## State.setAxis -/

@[simp] theorem setAxis_pending (d : Die) (n : Fin 8) (x : Axis) : (s.setAxis d n x).pending = s.pending := rfl
@[simp] theorem setAxis_code (d : Die) (n : Fin 8) (x : Axis) : (s.setAxis d n x).code = s.code := rfl
@[simp] theorem setAxis_clock (d : Die) (n : Fin 8) (x : Axis) : (s.setAxis d n x).clock = s.clock := rfl
@[simp] theorem setAxis_free (d : Die) (n : Fin 8) (x : Axis) : (s.setAxis d n x).free = s.free := rfl
@[simp] theorem setAxis_regs (d : Die) (n : Fin 8) (x : Axis) : (s.setAxis d n x).regs = s.regs := rfl
@[simp] theorem setAxis_staged (d : Die) (n : Fin 8) (x : Axis) : (s.setAxis d n x).staged = s.staged := rfl
@[simp] theorem setAxis_waiting (d : Die) (n : Fin 8) (x : Axis) : (s.setAxis d n x).waiting = s.waiting := rfl
@[simp] theorem setAxis_groups (d : Die) (n : Fin 8) (x : Axis) : (s.setAxis d n x).groups = s.groups := rfl
@[simp] theorem setAxis_ports (d : Die) (n : Fin 8) (x : Axis) : (s.setAxis d n x).ports = s.ports := rfl
@[simp] theorem setAxis_dies (d : Die) (n : Fin 8) (x : Axis) : (s.setAxis d n x).dies = s.dies := rfl
@[simp] theorem setAxis_sfe (d : Die) (n : Fin 8) (x : Axis) : (s.setAxis d n x).sfe = s.sfe := rfl
@[simp] theorem setAxis_latDie (d : Die) (n : Fin 8) (x : Axis) : (s.setAxis d n x).latDie = s.latDie := rfl
@[simp] theorem setAxis_lat (d : Die) (n : Fin 8) (x : Axis) : (s.setAxis d n x).lat = s.lat := rfl
@[simp] theorem setAxis_recp (d : Die) (n : Fin 8) (x : Axis) : (s.setAxis d n x).recp = s.recp := rfl
@[simp] theorem setAxis_osv (d : Die) (n : Fin 8) (x : Axis) : (s.setAxis d n x).osv = s.osv := rfl
@[simp] theorem setAxis_trn (d : Die) (n : Fin 8) (x : Axis) : (s.setAxis d n x).trn = s.trn := rfl
@[simp] theorem setAxis_spn (d : Die) (n : Fin 8) (x : Axis) : (s.setAxis d n x).spn = s.spn := rfl
@[simp] theorem setAxis_ceil (d : Die) (n : Fin 8) (x : Axis) : (s.setAxis d n x).ceil = s.ceil := rfl
@[simp] theorem setAxis_yrd (d : Die) (n : Fin 8) (x : Axis) : (s.setAxis d n x).yrd = s.yrd := rfl
@[simp] theorem setAxis_cru (d : Die) (n : Fin 8) (x : Axis) : (s.setAxis d n x).cru = s.cru := rfl
@[simp] theorem setAxis_mem (d : Die) (n : Fin 8) (x : Axis) : (s.setAxis d n x).mem = s.mem := rfl
@[simp] theorem setAxis_lnd (d : Die) (n : Fin 8) (x : Axis) : (s.setAxis d n x).lnd = s.lnd := rfl
@[simp] theorem setAxis_miu (d : Die) (n : Fin 8) (x : Axis) : (s.setAxis d n x).miu = s.miu := rfl
@[simp] theorem setAxis_vlk (d : Die) (n : Fin 8) (x : Axis) : (s.setAxis d n x).vlk = s.vlk := rfl
@[simp] theorem setAxis_crew (d : Die) (n : Fin 8) (x : Axis) : (s.setAxis d n x).crew = s.crew := rfl
@[simp] theorem setAxis_qen (d : Die) (n : Fin 8) (x : Axis) : (s.setAxis d n x).qen = s.qen := rfl
@[simp] theorem setAxis_ep (d : Die) (n : Fin 8) (x : Axis) : (s.setAxis d n x).ep = s.ep := rfl
@[simp] theorem setAxis_hic (d : Die) (n : Fin 8) (x : Axis) : (s.setAxis d n x).hic = s.hic := rfl
@[simp] theorem setAxis_skd (d : Die) (n : Fin 8) (x : Axis) : (s.setAxis d n x).skd = s.skd := rfl
@[simp] theorem setAxis_skdLast (d : Die) (n : Fin 8) (x : Axis) : (s.setAxis d n x).skdLast = s.skdLast := rfl
@[simp] theorem setAxis_fwu (d : Die) (n : Fin 8) (x : Axis) : (s.setAxis d n x).fwu = s.fwu := rfl
@[simp] theorem setAxis_pwr (d : Die) (n : Fin 8) (x : Axis) : (s.setAxis d n x).pwr = s.pwr := rfl
@[simp] theorem setAxis_get (d : Die) (n : Fin 8) (x : Axis) (a' : Nat) (f' : Field) (i' j' : Nat) : (s.setAxis d n x).get a' f' i' j' = s.get a' f' i' j' := rfl
@[simp] theorem setAxis_has (d : Die) (n : Fin 8) (x : Axis) (a' : Nat) (f' : Field) (i' j' : Nat) : (s.setAxis d n x).has a' f' i' j' = s.has a' f' i' j' := rfl

/-! ## State.setGrp -/

@[simp] theorem setGrp_pending (d : Die) (g : Fin 4) (x : Grp) : (s.setGrp d g x).pending = s.pending := rfl
@[simp] theorem setGrp_code (d : Die) (g : Fin 4) (x : Grp) : (s.setGrp d g x).code = s.code := rfl
@[simp] theorem setGrp_clock (d : Die) (g : Fin 4) (x : Grp) : (s.setGrp d g x).clock = s.clock := rfl
@[simp] theorem setGrp_free (d : Die) (g : Fin 4) (x : Grp) : (s.setGrp d g x).free = s.free := rfl
@[simp] theorem setGrp_regs (d : Die) (g : Fin 4) (x : Grp) : (s.setGrp d g x).regs = s.regs := rfl
@[simp] theorem setGrp_staged (d : Die) (g : Fin 4) (x : Grp) : (s.setGrp d g x).staged = s.staged := rfl
@[simp] theorem setGrp_waiting (d : Die) (g : Fin 4) (x : Grp) : (s.setGrp d g x).waiting = s.waiting := rfl
@[simp] theorem setGrp_groups (d : Die) (g : Fin 4) (x : Grp) : (s.setGrp d g x).groups = s.groups := rfl
@[simp] theorem setGrp_ports (d : Die) (g : Fin 4) (x : Grp) : (s.setGrp d g x).ports = s.ports := rfl
@[simp] theorem setGrp_dies (d : Die) (g : Fin 4) (x : Grp) : (s.setGrp d g x).dies = s.dies := rfl
@[simp] theorem setGrp_sfe (d : Die) (g : Fin 4) (x : Grp) : (s.setGrp d g x).sfe = s.sfe := rfl
@[simp] theorem setGrp_latDie (d : Die) (g : Fin 4) (x : Grp) : (s.setGrp d g x).latDie = s.latDie := rfl
@[simp] theorem setGrp_lat (d : Die) (g : Fin 4) (x : Grp) : (s.setGrp d g x).lat = s.lat := rfl
@[simp] theorem setGrp_recp (d : Die) (g : Fin 4) (x : Grp) : (s.setGrp d g x).recp = s.recp := rfl
@[simp] theorem setGrp_osv (d : Die) (g : Fin 4) (x : Grp) : (s.setGrp d g x).osv = s.osv := rfl
@[simp] theorem setGrp_trn (d : Die) (g : Fin 4) (x : Grp) : (s.setGrp d g x).trn = s.trn := rfl
@[simp] theorem setGrp_spn (d : Die) (g : Fin 4) (x : Grp) : (s.setGrp d g x).spn = s.spn := rfl
@[simp] theorem setGrp_ceil (d : Die) (g : Fin 4) (x : Grp) : (s.setGrp d g x).ceil = s.ceil := rfl
@[simp] theorem setGrp_yrd (d : Die) (g : Fin 4) (x : Grp) : (s.setGrp d g x).yrd = s.yrd := rfl
@[simp] theorem setGrp_cru (d : Die) (g : Fin 4) (x : Grp) : (s.setGrp d g x).cru = s.cru := rfl
@[simp] theorem setGrp_mem (d : Die) (g : Fin 4) (x : Grp) : (s.setGrp d g x).mem = s.mem := rfl
@[simp] theorem setGrp_lnd (d : Die) (g : Fin 4) (x : Grp) : (s.setGrp d g x).lnd = s.lnd := rfl
@[simp] theorem setGrp_miu (d : Die) (g : Fin 4) (x : Grp) : (s.setGrp d g x).miu = s.miu := rfl
@[simp] theorem setGrp_vlk (d : Die) (g : Fin 4) (x : Grp) : (s.setGrp d g x).vlk = s.vlk := rfl
@[simp] theorem setGrp_crew (d : Die) (g : Fin 4) (x : Grp) : (s.setGrp d g x).crew = s.crew := rfl
@[simp] theorem setGrp_qen (d : Die) (g : Fin 4) (x : Grp) : (s.setGrp d g x).qen = s.qen := rfl
@[simp] theorem setGrp_ep (d : Die) (g : Fin 4) (x : Grp) : (s.setGrp d g x).ep = s.ep := rfl
@[simp] theorem setGrp_hic (d : Die) (g : Fin 4) (x : Grp) : (s.setGrp d g x).hic = s.hic := rfl
@[simp] theorem setGrp_skd (d : Die) (g : Fin 4) (x : Grp) : (s.setGrp d g x).skd = s.skd := rfl
@[simp] theorem setGrp_skdLast (d : Die) (g : Fin 4) (x : Grp) : (s.setGrp d g x).skdLast = s.skdLast := rfl
@[simp] theorem setGrp_fwu (d : Die) (g : Fin 4) (x : Grp) : (s.setGrp d g x).fwu = s.fwu := rfl
@[simp] theorem setGrp_pwr (d : Die) (g : Fin 4) (x : Grp) : (s.setGrp d g x).pwr = s.pwr := rfl
@[simp] theorem setGrp_get (d : Die) (g : Fin 4) (x : Grp) (a' : Nat) (f' : Field) (i' j' : Nat) : (s.setGrp d g x).get a' f' i' j' = s.get a' f' i' j' := rfl
@[simp] theorem setGrp_has (d : Die) (g : Fin 4) (x : Grp) (a' : Nat) (f' : Field) (i' j' : Nat) : (s.setGrp d g x).has a' f' i' j' = s.has a' f' i' j' := rfl

/-! ## State.setSwitch -/

@[simp] theorem setSwitch_pending (d : Die) (k : Fin 12) (x : Switch) : (s.setSwitch d k x).pending = s.pending := rfl
@[simp] theorem setSwitch_code (d : Die) (k : Fin 12) (x : Switch) : (s.setSwitch d k x).code = s.code := rfl
@[simp] theorem setSwitch_clock (d : Die) (k : Fin 12) (x : Switch) : (s.setSwitch d k x).clock = s.clock := rfl
@[simp] theorem setSwitch_free (d : Die) (k : Fin 12) (x : Switch) : (s.setSwitch d k x).free = s.free := rfl
@[simp] theorem setSwitch_regs (d : Die) (k : Fin 12) (x : Switch) : (s.setSwitch d k x).regs = s.regs := rfl
@[simp] theorem setSwitch_staged (d : Die) (k : Fin 12) (x : Switch) : (s.setSwitch d k x).staged = s.staged := rfl
@[simp] theorem setSwitch_waiting (d : Die) (k : Fin 12) (x : Switch) : (s.setSwitch d k x).waiting = s.waiting := rfl
@[simp] theorem setSwitch_groups (d : Die) (k : Fin 12) (x : Switch) : (s.setSwitch d k x).groups = s.groups := rfl
@[simp] theorem setSwitch_ports (d : Die) (k : Fin 12) (x : Switch) : (s.setSwitch d k x).ports = s.ports := rfl
@[simp] theorem setSwitch_dies (d : Die) (k : Fin 12) (x : Switch) : (s.setSwitch d k x).dies = s.dies := rfl
@[simp] theorem setSwitch_sfe (d : Die) (k : Fin 12) (x : Switch) : (s.setSwitch d k x).sfe = s.sfe := rfl
@[simp] theorem setSwitch_latDie (d : Die) (k : Fin 12) (x : Switch) : (s.setSwitch d k x).latDie = s.latDie := rfl
@[simp] theorem setSwitch_lat (d : Die) (k : Fin 12) (x : Switch) : (s.setSwitch d k x).lat = s.lat := rfl
@[simp] theorem setSwitch_recp (d : Die) (k : Fin 12) (x : Switch) : (s.setSwitch d k x).recp = s.recp := rfl
@[simp] theorem setSwitch_osv (d : Die) (k : Fin 12) (x : Switch) : (s.setSwitch d k x).osv = s.osv := rfl
@[simp] theorem setSwitch_trn (d : Die) (k : Fin 12) (x : Switch) : (s.setSwitch d k x).trn = s.trn := rfl
@[simp] theorem setSwitch_spn (d : Die) (k : Fin 12) (x : Switch) : (s.setSwitch d k x).spn = s.spn := rfl
@[simp] theorem setSwitch_ceil (d : Die) (k : Fin 12) (x : Switch) : (s.setSwitch d k x).ceil = s.ceil := rfl
@[simp] theorem setSwitch_yrd (d : Die) (k : Fin 12) (x : Switch) : (s.setSwitch d k x).yrd = s.yrd := rfl
@[simp] theorem setSwitch_cru (d : Die) (k : Fin 12) (x : Switch) : (s.setSwitch d k x).cru = s.cru := rfl
@[simp] theorem setSwitch_mem (d : Die) (k : Fin 12) (x : Switch) : (s.setSwitch d k x).mem = s.mem := rfl
@[simp] theorem setSwitch_lnd (d : Die) (k : Fin 12) (x : Switch) : (s.setSwitch d k x).lnd = s.lnd := rfl
@[simp] theorem setSwitch_miu (d : Die) (k : Fin 12) (x : Switch) : (s.setSwitch d k x).miu = s.miu := rfl
@[simp] theorem setSwitch_vlk (d : Die) (k : Fin 12) (x : Switch) : (s.setSwitch d k x).vlk = s.vlk := rfl
@[simp] theorem setSwitch_crew (d : Die) (k : Fin 12) (x : Switch) : (s.setSwitch d k x).crew = s.crew := rfl
@[simp] theorem setSwitch_qen (d : Die) (k : Fin 12) (x : Switch) : (s.setSwitch d k x).qen = s.qen := rfl
@[simp] theorem setSwitch_ep (d : Die) (k : Fin 12) (x : Switch) : (s.setSwitch d k x).ep = s.ep := rfl
@[simp] theorem setSwitch_hic (d : Die) (k : Fin 12) (x : Switch) : (s.setSwitch d k x).hic = s.hic := rfl
@[simp] theorem setSwitch_skd (d : Die) (k : Fin 12) (x : Switch) : (s.setSwitch d k x).skd = s.skd := rfl
@[simp] theorem setSwitch_skdLast (d : Die) (k : Fin 12) (x : Switch) : (s.setSwitch d k x).skdLast = s.skdLast := rfl
@[simp] theorem setSwitch_fwu (d : Die) (k : Fin 12) (x : Switch) : (s.setSwitch d k x).fwu = s.fwu := rfl
@[simp] theorem setSwitch_pwr (d : Die) (k : Fin 12) (x : Switch) : (s.setSwitch d k x).pwr = s.pwr := rfl
@[simp] theorem setSwitch_get (d : Die) (k : Fin 12) (x : Switch) (a' : Nat) (f' : Field) (i' j' : Nat) : (s.setSwitch d k x).get a' f' i' j' = s.get a' f' i' j' := rfl
@[simp] theorem setSwitch_has (d : Die) (k : Fin 12) (x : Switch) (a' : Nat) (f' : Field) (i' j' : Nat) : (s.setSwitch d k x).has a' f' i' j' = s.has a' f' i' j' := rfl

/-! ## State.setYrd -/

@[simp] theorem setYrd_pending (y : Yrd) : (s.setYrd y).pending = s.pending := rfl
@[simp] theorem setYrd_code (y : Yrd) : (s.setYrd y).code = s.code := rfl
@[simp] theorem setYrd_clock (y : Yrd) : (s.setYrd y).clock = s.clock := rfl
@[simp] theorem setYrd_free (y : Yrd) : (s.setYrd y).free = s.free := rfl
@[simp] theorem setYrd_regs (y : Yrd) : (s.setYrd y).regs = s.regs := rfl
@[simp] theorem setYrd_staged (y : Yrd) : (s.setYrd y).staged = s.staged := rfl
@[simp] theorem setYrd_waiting (y : Yrd) : (s.setYrd y).waiting = s.waiting := rfl
@[simp] theorem setYrd_groups (y : Yrd) : (s.setYrd y).groups = s.groups := rfl
@[simp] theorem setYrd_ports (y : Yrd) : (s.setYrd y).ports = s.ports := rfl
@[simp] theorem setYrd_dies (y : Yrd) : (s.setYrd y).dies = s.dies := rfl
@[simp] theorem setYrd_sfe (y : Yrd) : (s.setYrd y).sfe = s.sfe := rfl
@[simp] theorem setYrd_latDie (y : Yrd) : (s.setYrd y).latDie = s.latDie := rfl
@[simp] theorem setYrd_lat (y : Yrd) : (s.setYrd y).lat = s.lat := rfl
@[simp] theorem setYrd_recp (y : Yrd) : (s.setYrd y).recp = s.recp := rfl
@[simp] theorem setYrd_osv (y : Yrd) : (s.setYrd y).osv = s.osv := rfl
@[simp] theorem setYrd_trn (y : Yrd) : (s.setYrd y).trn = s.trn := rfl
@[simp] theorem setYrd_spn (y : Yrd) : (s.setYrd y).spn = s.spn := rfl
@[simp] theorem setYrd_ceil (y : Yrd) : (s.setYrd y).ceil = s.ceil := rfl
@[simp] theorem setYrd_axp (y : Yrd) : (s.setYrd y).axp = s.axp := rfl
@[simp] theorem setYrd_cru (y : Yrd) : (s.setYrd y).cru = s.cru := rfl
@[simp] theorem setYrd_mem (y : Yrd) : (s.setYrd y).mem = s.mem := rfl
@[simp] theorem setYrd_lnd (y : Yrd) : (s.setYrd y).lnd = s.lnd := rfl
@[simp] theorem setYrd_miu (y : Yrd) : (s.setYrd y).miu = s.miu := rfl
@[simp] theorem setYrd_vlk (y : Yrd) : (s.setYrd y).vlk = s.vlk := rfl
@[simp] theorem setYrd_crew (y : Yrd) : (s.setYrd y).crew = s.crew := rfl
@[simp] theorem setYrd_qen (y : Yrd) : (s.setYrd y).qen = s.qen := rfl
@[simp] theorem setYrd_ep (y : Yrd) : (s.setYrd y).ep = s.ep := rfl
@[simp] theorem setYrd_hic (y : Yrd) : (s.setYrd y).hic = s.hic := rfl
@[simp] theorem setYrd_skd (y : Yrd) : (s.setYrd y).skd = s.skd := rfl
@[simp] theorem setYrd_skdLast (y : Yrd) : (s.setYrd y).skdLast = s.skdLast := rfl
@[simp] theorem setYrd_fwu (y : Yrd) : (s.setYrd y).fwu = s.fwu := rfl
@[simp] theorem setYrd_pwr (y : Yrd) : (s.setYrd y).pwr = s.pwr := rfl
@[simp] theorem setYrd_get (y : Yrd) (a' : Nat) (f' : Field) (i' j' : Nat) : (s.setYrd y).get a' f' i' j' = s.get a' f' i' j' := rfl
@[simp] theorem setYrd_has (y : Yrd) (a' : Nat) (f' : Field) (i' j' : Nat) : (s.setYrd y).has a' f' i' j' = s.has a' f' i' j' := rfl

/-! ## State.setCru -/

@[simp] theorem setCru_pending (b : Bay) (x : Cru) : (s.setCru b x).pending = s.pending := rfl
@[simp] theorem setCru_code (b : Bay) (x : Cru) : (s.setCru b x).code = s.code := rfl
@[simp] theorem setCru_clock (b : Bay) (x : Cru) : (s.setCru b x).clock = s.clock := rfl
@[simp] theorem setCru_free (b : Bay) (x : Cru) : (s.setCru b x).free = s.free := rfl
@[simp] theorem setCru_regs (b : Bay) (x : Cru) : (s.setCru b x).regs = s.regs := rfl
@[simp] theorem setCru_staged (b : Bay) (x : Cru) : (s.setCru b x).staged = s.staged := rfl
@[simp] theorem setCru_waiting (b : Bay) (x : Cru) : (s.setCru b x).waiting = s.waiting := rfl
@[simp] theorem setCru_groups (b : Bay) (x : Cru) : (s.setCru b x).groups = s.groups := rfl
@[simp] theorem setCru_ports (b : Bay) (x : Cru) : (s.setCru b x).ports = s.ports := rfl
@[simp] theorem setCru_dies (b : Bay) (x : Cru) : (s.setCru b x).dies = s.dies := rfl
@[simp] theorem setCru_sfe (b : Bay) (x : Cru) : (s.setCru b x).sfe = s.sfe := rfl
@[simp] theorem setCru_latDie (b : Bay) (x : Cru) : (s.setCru b x).latDie = s.latDie := rfl
@[simp] theorem setCru_lat (b : Bay) (x : Cru) : (s.setCru b x).lat = s.lat := rfl
@[simp] theorem setCru_recp (b : Bay) (x : Cru) : (s.setCru b x).recp = s.recp := rfl
@[simp] theorem setCru_osv (b : Bay) (x : Cru) : (s.setCru b x).osv = s.osv := rfl
@[simp] theorem setCru_trn (b : Bay) (x : Cru) : (s.setCru b x).trn = s.trn := rfl
@[simp] theorem setCru_spn (b : Bay) (x : Cru) : (s.setCru b x).spn = s.spn := rfl
@[simp] theorem setCru_ceil (b : Bay) (x : Cru) : (s.setCru b x).ceil = s.ceil := rfl
@[simp] theorem setCru_axp (b : Bay) (x : Cru) : (s.setCru b x).axp = s.axp := rfl
@[simp] theorem setCru_yrd (b : Bay) (x : Cru) : (s.setCru b x).yrd = s.yrd := rfl
@[simp] theorem setCru_mem (b : Bay) (x : Cru) : (s.setCru b x).mem = s.mem := rfl
@[simp] theorem setCru_lnd (b : Bay) (x : Cru) : (s.setCru b x).lnd = s.lnd := rfl
@[simp] theorem setCru_miu (b : Bay) (x : Cru) : (s.setCru b x).miu = s.miu := rfl
@[simp] theorem setCru_vlk (b : Bay) (x : Cru) : (s.setCru b x).vlk = s.vlk := rfl
@[simp] theorem setCru_crew (b : Bay) (x : Cru) : (s.setCru b x).crew = s.crew := rfl
@[simp] theorem setCru_qen (b : Bay) (x : Cru) : (s.setCru b x).qen = s.qen := rfl
@[simp] theorem setCru_ep (b : Bay) (x : Cru) : (s.setCru b x).ep = s.ep := rfl
@[simp] theorem setCru_hic (b : Bay) (x : Cru) : (s.setCru b x).hic = s.hic := rfl
@[simp] theorem setCru_skd (b : Bay) (x : Cru) : (s.setCru b x).skd = s.skd := rfl
@[simp] theorem setCru_skdLast (b : Bay) (x : Cru) : (s.setCru b x).skdLast = s.skdLast := rfl
@[simp] theorem setCru_fwu (b : Bay) (x : Cru) : (s.setCru b x).fwu = s.fwu := rfl
@[simp] theorem setCru_pwr (b : Bay) (x : Cru) : (s.setCru b x).pwr = s.pwr := rfl
@[simp] theorem setCru_get (b : Bay) (x : Cru) (a' : Nat) (f' : Field) (i' j' : Nat) : (s.setCru b x).get a' f' i' j' = s.get a' f' i' j' := rfl
@[simp] theorem setCru_has (b : Bay) (x : Cru) (a' : Nat) (f' : Field) (i' j' : Nat) : (s.setCru b x).has a' f' i' j' = s.has a' f' i' j' := rfl

/-! ## State.setLine -/

@[simp] theorem setLine_pending (e : Nat) (l : Line) : (s.setLine e l).pending = s.pending := rfl
@[simp] theorem setLine_code (e : Nat) (l : Line) : (s.setLine e l).code = s.code := rfl
@[simp] theorem setLine_clock (e : Nat) (l : Line) : (s.setLine e l).clock = s.clock := rfl
@[simp] theorem setLine_free (e : Nat) (l : Line) : (s.setLine e l).free = s.free := rfl
@[simp] theorem setLine_regs (e : Nat) (l : Line) : (s.setLine e l).regs = s.regs := rfl
@[simp] theorem setLine_staged (e : Nat) (l : Line) : (s.setLine e l).staged = s.staged := rfl
@[simp] theorem setLine_waiting (e : Nat) (l : Line) : (s.setLine e l).waiting = s.waiting := rfl
@[simp] theorem setLine_groups (e : Nat) (l : Line) : (s.setLine e l).groups = s.groups := rfl
@[simp] theorem setLine_ports (e : Nat) (l : Line) : (s.setLine e l).ports = s.ports := rfl
@[simp] theorem setLine_dies (e : Nat) (l : Line) : (s.setLine e l).dies = s.dies := rfl
@[simp] theorem setLine_sfe (e : Nat) (l : Line) : (s.setLine e l).sfe = s.sfe := rfl
@[simp] theorem setLine_latDie (e : Nat) (l : Line) : (s.setLine e l).latDie = s.latDie := rfl
@[simp] theorem setLine_lat (e : Nat) (l : Line) : (s.setLine e l).lat = s.lat := rfl
@[simp] theorem setLine_recp (e : Nat) (l : Line) : (s.setLine e l).recp = s.recp := rfl
@[simp] theorem setLine_osv (e : Nat) (l : Line) : (s.setLine e l).osv = s.osv := rfl
@[simp] theorem setLine_trn (e : Nat) (l : Line) : (s.setLine e l).trn = s.trn := rfl
@[simp] theorem setLine_spn (e : Nat) (l : Line) : (s.setLine e l).spn = s.spn := rfl
@[simp] theorem setLine_ceil (e : Nat) (l : Line) : (s.setLine e l).ceil = s.ceil := rfl
@[simp] theorem setLine_axp (e : Nat) (l : Line) : (s.setLine e l).axp = s.axp := rfl
@[simp] theorem setLine_yrd (e : Nat) (l : Line) : (s.setLine e l).yrd = s.yrd := rfl
@[simp] theorem setLine_cru (e : Nat) (l : Line) : (s.setLine e l).cru = s.cru := rfl
@[simp] theorem setLine_mem (e : Nat) (l : Line) : (s.setLine e l).mem = s.mem := rfl
@[simp] theorem setLine_miu (e : Nat) (l : Line) : (s.setLine e l).miu = s.miu := rfl
@[simp] theorem setLine_vlk (e : Nat) (l : Line) : (s.setLine e l).vlk = s.vlk := rfl
@[simp] theorem setLine_crew (e : Nat) (l : Line) : (s.setLine e l).crew = s.crew := rfl
@[simp] theorem setLine_qen (e : Nat) (l : Line) : (s.setLine e l).qen = s.qen := rfl
@[simp] theorem setLine_ep (e : Nat) (l : Line) : (s.setLine e l).ep = s.ep := rfl
@[simp] theorem setLine_hic (e : Nat) (l : Line) : (s.setLine e l).hic = s.hic := rfl
@[simp] theorem setLine_skd (e : Nat) (l : Line) : (s.setLine e l).skd = s.skd := rfl
@[simp] theorem setLine_skdLast (e : Nat) (l : Line) : (s.setLine e l).skdLast = s.skdLast := rfl
@[simp] theorem setLine_fwu (e : Nat) (l : Line) : (s.setLine e l).fwu = s.fwu := rfl
@[simp] theorem setLine_pwr (e : Nat) (l : Line) : (s.setLine e l).pwr = s.pwr := rfl
@[simp] theorem setLine_get (e : Nat) (l : Line) (a' : Nat) (f' : Field) (i' j' : Nat) : (s.setLine e l).get a' f' i' j' = s.get a' f' i' j' := rfl
@[simp] theorem setLine_has (e : Nat) (l : Line) (a' : Nat) (f' : Field) (i' j' : Nat) : (s.setLine e l).has a' f' i' j' = s.has a' f' i' j' := rfl

/-! ## State.setMiss -/

@[simp] theorem setMiss_pending (m : Miss) : (s.setMiss m).pending = s.pending := rfl
@[simp] theorem setMiss_code (m : Miss) : (s.setMiss m).code = s.code := rfl
@[simp] theorem setMiss_clock (m : Miss) : (s.setMiss m).clock = s.clock := rfl
@[simp] theorem setMiss_free (m : Miss) : (s.setMiss m).free = s.free := rfl
@[simp] theorem setMiss_regs (m : Miss) : (s.setMiss m).regs = s.regs := rfl
@[simp] theorem setMiss_staged (m : Miss) : (s.setMiss m).staged = s.staged := rfl
@[simp] theorem setMiss_waiting (m : Miss) : (s.setMiss m).waiting = s.waiting := rfl
@[simp] theorem setMiss_groups (m : Miss) : (s.setMiss m).groups = s.groups := rfl
@[simp] theorem setMiss_ports (m : Miss) : (s.setMiss m).ports = s.ports := rfl
@[simp] theorem setMiss_dies (m : Miss) : (s.setMiss m).dies = s.dies := rfl
@[simp] theorem setMiss_sfe (m : Miss) : (s.setMiss m).sfe = s.sfe := rfl
@[simp] theorem setMiss_latDie (m : Miss) : (s.setMiss m).latDie = s.latDie := rfl
@[simp] theorem setMiss_lat (m : Miss) : (s.setMiss m).lat = s.lat := rfl
@[simp] theorem setMiss_recp (m : Miss) : (s.setMiss m).recp = s.recp := rfl
@[simp] theorem setMiss_osv (m : Miss) : (s.setMiss m).osv = s.osv := rfl
@[simp] theorem setMiss_trn (m : Miss) : (s.setMiss m).trn = s.trn := rfl
@[simp] theorem setMiss_spn (m : Miss) : (s.setMiss m).spn = s.spn := rfl
@[simp] theorem setMiss_ceil (m : Miss) : (s.setMiss m).ceil = s.ceil := rfl
@[simp] theorem setMiss_axp (m : Miss) : (s.setMiss m).axp = s.axp := rfl
@[simp] theorem setMiss_yrd (m : Miss) : (s.setMiss m).yrd = s.yrd := rfl
@[simp] theorem setMiss_cru (m : Miss) : (s.setMiss m).cru = s.cru := rfl
@[simp] theorem setMiss_mem (m : Miss) : (s.setMiss m).mem = s.mem := rfl
@[simp] theorem setMiss_miu (m : Miss) : (s.setMiss m).miu = s.miu := rfl
@[simp] theorem setMiss_vlk (m : Miss) : (s.setMiss m).vlk = s.vlk := rfl
@[simp] theorem setMiss_crew (m : Miss) : (s.setMiss m).crew = s.crew := rfl
@[simp] theorem setMiss_qen (m : Miss) : (s.setMiss m).qen = s.qen := rfl
@[simp] theorem setMiss_ep (m : Miss) : (s.setMiss m).ep = s.ep := rfl
@[simp] theorem setMiss_hic (m : Miss) : (s.setMiss m).hic = s.hic := rfl
@[simp] theorem setMiss_skd (m : Miss) : (s.setMiss m).skd = s.skd := rfl
@[simp] theorem setMiss_skdLast (m : Miss) : (s.setMiss m).skdLast = s.skdLast := rfl
@[simp] theorem setMiss_fwu (m : Miss) : (s.setMiss m).fwu = s.fwu := rfl
@[simp] theorem setMiss_pwr (m : Miss) : (s.setMiss m).pwr = s.pwr := rfl
@[simp] theorem setMiss_get (m : Miss) (a' : Nat) (f' : Field) (i' j' : Nat) : (s.setMiss m).get a' f' i' j' = s.get a' f' i' j' := rfl
@[simp] theorem setMiss_has (m : Miss) (a' : Nat) (f' : Field) (i' j' : Nat) : (s.setMiss m).has a' f' i' j' = s.has a' f' i' j' := rfl

/-! ## State.setHubBay -/

@[simp] theorem setHubBay_pending (b : Bay) (x : HubBay) : (s.setHubBay b x).pending = s.pending := rfl
@[simp] theorem setHubBay_code (b : Bay) (x : HubBay) : (s.setHubBay b x).code = s.code := rfl
@[simp] theorem setHubBay_clock (b : Bay) (x : HubBay) : (s.setHubBay b x).clock = s.clock := rfl
@[simp] theorem setHubBay_free (b : Bay) (x : HubBay) : (s.setHubBay b x).free = s.free := rfl
@[simp] theorem setHubBay_regs (b : Bay) (x : HubBay) : (s.setHubBay b x).regs = s.regs := rfl
@[simp] theorem setHubBay_staged (b : Bay) (x : HubBay) : (s.setHubBay b x).staged = s.staged := rfl
@[simp] theorem setHubBay_waiting (b : Bay) (x : HubBay) : (s.setHubBay b x).waiting = s.waiting := rfl
@[simp] theorem setHubBay_groups (b : Bay) (x : HubBay) : (s.setHubBay b x).groups = s.groups := rfl
@[simp] theorem setHubBay_ports (b : Bay) (x : HubBay) : (s.setHubBay b x).ports = s.ports := rfl
@[simp] theorem setHubBay_dies (b : Bay) (x : HubBay) : (s.setHubBay b x).dies = s.dies := rfl
@[simp] theorem setHubBay_sfe (b : Bay) (x : HubBay) : (s.setHubBay b x).sfe = s.sfe := rfl
@[simp] theorem setHubBay_latDie (b : Bay) (x : HubBay) : (s.setHubBay b x).latDie = s.latDie := rfl
@[simp] theorem setHubBay_lat (b : Bay) (x : HubBay) : (s.setHubBay b x).lat = s.lat := rfl
@[simp] theorem setHubBay_recp (b : Bay) (x : HubBay) : (s.setHubBay b x).recp = s.recp := rfl
@[simp] theorem setHubBay_osv (b : Bay) (x : HubBay) : (s.setHubBay b x).osv = s.osv := rfl
@[simp] theorem setHubBay_trn (b : Bay) (x : HubBay) : (s.setHubBay b x).trn = s.trn := rfl
@[simp] theorem setHubBay_spn (b : Bay) (x : HubBay) : (s.setHubBay b x).spn = s.spn := rfl
@[simp] theorem setHubBay_ceil (b : Bay) (x : HubBay) : (s.setHubBay b x).ceil = s.ceil := rfl
@[simp] theorem setHubBay_axp (b : Bay) (x : HubBay) : (s.setHubBay b x).axp = s.axp := rfl
@[simp] theorem setHubBay_yrd (b : Bay) (x : HubBay) : (s.setHubBay b x).yrd = s.yrd := rfl
@[simp] theorem setHubBay_cru (b : Bay) (x : HubBay) : (s.setHubBay b x).cru = s.cru := rfl
@[simp] theorem setHubBay_mem (b : Bay) (x : HubBay) : (s.setHubBay b x).mem = s.mem := rfl
@[simp] theorem setHubBay_lnd (b : Bay) (x : HubBay) : (s.setHubBay b x).lnd = s.lnd := rfl
@[simp] theorem setHubBay_miu (b : Bay) (x : HubBay) : (s.setHubBay b x).miu = s.miu := rfl
@[simp] theorem setHubBay_vlk (b : Bay) (x : HubBay) : (s.setHubBay b x).vlk = s.vlk := rfl
@[simp] theorem setHubBay_qen (b : Bay) (x : HubBay) : (s.setHubBay b x).qen = s.qen := rfl
@[simp] theorem setHubBay_ep (b : Bay) (x : HubBay) : (s.setHubBay b x).ep = s.ep := rfl
@[simp] theorem setHubBay_hic (b : Bay) (x : HubBay) : (s.setHubBay b x).hic = s.hic := rfl
@[simp] theorem setHubBay_skd (b : Bay) (x : HubBay) : (s.setHubBay b x).skd = s.skd := rfl
@[simp] theorem setHubBay_skdLast (b : Bay) (x : HubBay) : (s.setHubBay b x).skdLast = s.skdLast := rfl
@[simp] theorem setHubBay_fwu (b : Bay) (x : HubBay) : (s.setHubBay b x).fwu = s.fwu := rfl
@[simp] theorem setHubBay_pwr (b : Bay) (x : HubBay) : (s.setHubBay b x).pwr = s.pwr := rfl
@[simp] theorem setHubBay_get (b : Bay) (x : HubBay) (a' : Nat) (f' : Field) (i' j' : Nat) : (s.setHubBay b x).get a' f' i' j' = s.get a' f' i' j' := rfl
@[simp] theorem setHubBay_has (b : Bay) (x : HubBay) (a' : Nat) (f' : Field) (i' j' : Nat) : (s.setHubBay b x).has a' f' i' j' = s.has a' f' i' j' := rfl

/-! ## State.setQueue -/

@[simp] theorem setQueue_pending (x : Queue) : (s.setQueue x).pending = s.pending := rfl
@[simp] theorem setQueue_code (x : Queue) : (s.setQueue x).code = s.code := rfl
@[simp] theorem setQueue_clock (x : Queue) : (s.setQueue x).clock = s.clock := rfl
@[simp] theorem setQueue_free (x : Queue) : (s.setQueue x).free = s.free := rfl
@[simp] theorem setQueue_regs (x : Queue) : (s.setQueue x).regs = s.regs := rfl
@[simp] theorem setQueue_staged (x : Queue) : (s.setQueue x).staged = s.staged := rfl
@[simp] theorem setQueue_waiting (x : Queue) : (s.setQueue x).waiting = s.waiting := rfl
@[simp] theorem setQueue_groups (x : Queue) : (s.setQueue x).groups = s.groups := rfl
@[simp] theorem setQueue_ports (x : Queue) : (s.setQueue x).ports = s.ports := rfl
@[simp] theorem setQueue_dies (x : Queue) : (s.setQueue x).dies = s.dies := rfl
@[simp] theorem setQueue_sfe (x : Queue) : (s.setQueue x).sfe = s.sfe := rfl
@[simp] theorem setQueue_latDie (x : Queue) : (s.setQueue x).latDie = s.latDie := rfl
@[simp] theorem setQueue_lat (x : Queue) : (s.setQueue x).lat = s.lat := rfl
@[simp] theorem setQueue_recp (x : Queue) : (s.setQueue x).recp = s.recp := rfl
@[simp] theorem setQueue_osv (x : Queue) : (s.setQueue x).osv = s.osv := rfl
@[simp] theorem setQueue_trn (x : Queue) : (s.setQueue x).trn = s.trn := rfl
@[simp] theorem setQueue_spn (x : Queue) : (s.setQueue x).spn = s.spn := rfl
@[simp] theorem setQueue_ceil (x : Queue) : (s.setQueue x).ceil = s.ceil := rfl
@[simp] theorem setQueue_axp (x : Queue) : (s.setQueue x).axp = s.axp := rfl
@[simp] theorem setQueue_yrd (x : Queue) : (s.setQueue x).yrd = s.yrd := rfl
@[simp] theorem setQueue_cru (x : Queue) : (s.setQueue x).cru = s.cru := rfl
@[simp] theorem setQueue_mem (x : Queue) : (s.setQueue x).mem = s.mem := rfl
@[simp] theorem setQueue_lnd (x : Queue) : (s.setQueue x).lnd = s.lnd := rfl
@[simp] theorem setQueue_miu (x : Queue) : (s.setQueue x).miu = s.miu := rfl
@[simp] theorem setQueue_vlk (x : Queue) : (s.setQueue x).vlk = s.vlk := rfl
@[simp] theorem setQueue_crew (x : Queue) : (s.setQueue x).crew = s.crew := rfl
@[simp] theorem setQueue_ep (x : Queue) : (s.setQueue x).ep = s.ep := rfl
@[simp] theorem setQueue_hic (x : Queue) : (s.setQueue x).hic = s.hic := rfl
@[simp] theorem setQueue_skd (x : Queue) : (s.setQueue x).skd = s.skd := rfl
@[simp] theorem setQueue_skdLast (x : Queue) : (s.setQueue x).skdLast = s.skdLast := rfl
@[simp] theorem setQueue_fwu (x : Queue) : (s.setQueue x).fwu = s.fwu := rfl
@[simp] theorem setQueue_pwr (x : Queue) : (s.setQueue x).pwr = s.pwr := rfl
@[simp] theorem setQueue_get (x : Queue) (a' : Nat) (f' : Field) (i' j' : Nat) : (s.setQueue x).get a' f' i' j' = s.get a' f' i' j' := rfl
@[simp] theorem setQueue_has (x : Queue) (a' : Nat) (f' : Field) (i' j' : Nat) : (s.setQueue x).has a' f' i' j' = s.has a' f' i' j' := rfl

/-! ## State.setCmd -/

@[simp] theorem setCmd_pending (c : Cmd) : (s.setCmd c).pending = s.pending := rfl
@[simp] theorem setCmd_code (c : Cmd) : (s.setCmd c).code = s.code := rfl
@[simp] theorem setCmd_clock (c : Cmd) : (s.setCmd c).clock = s.clock := rfl
@[simp] theorem setCmd_free (c : Cmd) : (s.setCmd c).free = s.free := rfl
@[simp] theorem setCmd_regs (c : Cmd) : (s.setCmd c).regs = s.regs := rfl
@[simp] theorem setCmd_staged (c : Cmd) : (s.setCmd c).staged = s.staged := rfl
@[simp] theorem setCmd_waiting (c : Cmd) : (s.setCmd c).waiting = s.waiting := rfl
@[simp] theorem setCmd_groups (c : Cmd) : (s.setCmd c).groups = s.groups := rfl
@[simp] theorem setCmd_ports (c : Cmd) : (s.setCmd c).ports = s.ports := rfl
@[simp] theorem setCmd_dies (c : Cmd) : (s.setCmd c).dies = s.dies := rfl
@[simp] theorem setCmd_sfe (c : Cmd) : (s.setCmd c).sfe = s.sfe := rfl
@[simp] theorem setCmd_latDie (c : Cmd) : (s.setCmd c).latDie = s.latDie := rfl
@[simp] theorem setCmd_lat (c : Cmd) : (s.setCmd c).lat = s.lat := rfl
@[simp] theorem setCmd_recp (c : Cmd) : (s.setCmd c).recp = s.recp := rfl
@[simp] theorem setCmd_osv (c : Cmd) : (s.setCmd c).osv = s.osv := rfl
@[simp] theorem setCmd_trn (c : Cmd) : (s.setCmd c).trn = s.trn := rfl
@[simp] theorem setCmd_spn (c : Cmd) : (s.setCmd c).spn = s.spn := rfl
@[simp] theorem setCmd_ceil (c : Cmd) : (s.setCmd c).ceil = s.ceil := rfl
@[simp] theorem setCmd_axp (c : Cmd) : (s.setCmd c).axp = s.axp := rfl
@[simp] theorem setCmd_yrd (c : Cmd) : (s.setCmd c).yrd = s.yrd := rfl
@[simp] theorem setCmd_cru (c : Cmd) : (s.setCmd c).cru = s.cru := rfl
@[simp] theorem setCmd_mem (c : Cmd) : (s.setCmd c).mem = s.mem := rfl
@[simp] theorem setCmd_lnd (c : Cmd) : (s.setCmd c).lnd = s.lnd := rfl
@[simp] theorem setCmd_miu (c : Cmd) : (s.setCmd c).miu = s.miu := rfl
@[simp] theorem setCmd_vlk (c : Cmd) : (s.setCmd c).vlk = s.vlk := rfl
@[simp] theorem setCmd_crew (c : Cmd) : (s.setCmd c).crew = s.crew := rfl
@[simp] theorem setCmd_ep (c : Cmd) : (s.setCmd c).ep = s.ep := rfl
@[simp] theorem setCmd_hic (c : Cmd) : (s.setCmd c).hic = s.hic := rfl
@[simp] theorem setCmd_skd (c : Cmd) : (s.setCmd c).skd = s.skd := rfl
@[simp] theorem setCmd_skdLast (c : Cmd) : (s.setCmd c).skdLast = s.skdLast := rfl
@[simp] theorem setCmd_fwu (c : Cmd) : (s.setCmd c).fwu = s.fwu := rfl
@[simp] theorem setCmd_pwr (c : Cmd) : (s.setCmd c).pwr = s.pwr := rfl
@[simp] theorem setCmd_get (c : Cmd) (a' : Nat) (f' : Field) (i' j' : Nat) : (s.setCmd c).get a' f' i' j' = s.get a' f' i' j' := rfl
@[simp] theorem setCmd_has (c : Cmd) (a' : Nat) (f' : Field) (i' j' : Nat) : (s.setCmd c).has a' f' i' j' = s.has a' f' i' j' := rfl

/-! ## State.setFn -/

@[simp] theorem setFn_pending (f : Nat) (x : Fn) : (s.setFn f x).pending = s.pending := rfl
@[simp] theorem setFn_code (f : Nat) (x : Fn) : (s.setFn f x).code = s.code := rfl
@[simp] theorem setFn_clock (f : Nat) (x : Fn) : (s.setFn f x).clock = s.clock := rfl
@[simp] theorem setFn_free (f : Nat) (x : Fn) : (s.setFn f x).free = s.free := rfl
@[simp] theorem setFn_regs (f : Nat) (x : Fn) : (s.setFn f x).regs = s.regs := rfl
@[simp] theorem setFn_staged (f : Nat) (x : Fn) : (s.setFn f x).staged = s.staged := rfl
@[simp] theorem setFn_waiting (f : Nat) (x : Fn) : (s.setFn f x).waiting = s.waiting := rfl
@[simp] theorem setFn_groups (f : Nat) (x : Fn) : (s.setFn f x).groups = s.groups := rfl
@[simp] theorem setFn_ports (f : Nat) (x : Fn) : (s.setFn f x).ports = s.ports := rfl
@[simp] theorem setFn_dies (f : Nat) (x : Fn) : (s.setFn f x).dies = s.dies := rfl
@[simp] theorem setFn_sfe (f : Nat) (x : Fn) : (s.setFn f x).sfe = s.sfe := rfl
@[simp] theorem setFn_latDie (f : Nat) (x : Fn) : (s.setFn f x).latDie = s.latDie := rfl
@[simp] theorem setFn_lat (f : Nat) (x : Fn) : (s.setFn f x).lat = s.lat := rfl
@[simp] theorem setFn_recp (f : Nat) (x : Fn) : (s.setFn f x).recp = s.recp := rfl
@[simp] theorem setFn_osv (f : Nat) (x : Fn) : (s.setFn f x).osv = s.osv := rfl
@[simp] theorem setFn_trn (f : Nat) (x : Fn) : (s.setFn f x).trn = s.trn := rfl
@[simp] theorem setFn_spn (f : Nat) (x : Fn) : (s.setFn f x).spn = s.spn := rfl
@[simp] theorem setFn_ceil (f : Nat) (x : Fn) : (s.setFn f x).ceil = s.ceil := rfl
@[simp] theorem setFn_axp (f : Nat) (x : Fn) : (s.setFn f x).axp = s.axp := rfl
@[simp] theorem setFn_yrd (f : Nat) (x : Fn) : (s.setFn f x).yrd = s.yrd := rfl
@[simp] theorem setFn_cru (f : Nat) (x : Fn) : (s.setFn f x).cru = s.cru := rfl
@[simp] theorem setFn_mem (f : Nat) (x : Fn) : (s.setFn f x).mem = s.mem := rfl
@[simp] theorem setFn_lnd (f : Nat) (x : Fn) : (s.setFn f x).lnd = s.lnd := rfl
@[simp] theorem setFn_miu (f : Nat) (x : Fn) : (s.setFn f x).miu = s.miu := rfl
@[simp] theorem setFn_vlk (f : Nat) (x : Fn) : (s.setFn f x).vlk = s.vlk := rfl
@[simp] theorem setFn_crew (f : Nat) (x : Fn) : (s.setFn f x).crew = s.crew := rfl
@[simp] theorem setFn_qen (f : Nat) (x : Fn) : (s.setFn f x).qen = s.qen := rfl
@[simp] theorem setFn_hic (f : Nat) (x : Fn) : (s.setFn f x).hic = s.hic := rfl
@[simp] theorem setFn_skd (f : Nat) (x : Fn) : (s.setFn f x).skd = s.skd := rfl
@[simp] theorem setFn_skdLast (f : Nat) (x : Fn) : (s.setFn f x).skdLast = s.skdLast := rfl
@[simp] theorem setFn_fwu (f : Nat) (x : Fn) : (s.setFn f x).fwu = s.fwu := rfl
@[simp] theorem setFn_pwr (f : Nat) (x : Fn) : (s.setFn f x).pwr = s.pwr := rfl
@[simp] theorem setFn_get (f : Nat) (x : Fn) (a' : Nat) (f' : Field) (i' j' : Nat) : (s.setFn f x).get a' f' i' j' = s.get a' f' i' j' := rfl
@[simp] theorem setFn_has (f : Nat) (x : Fn) (a' : Nat) (f' : Field) (i' j' : Nat) : (s.setFn f x).has a' f' i' j' = s.has a' f' i' j' := rfl

/-! ## State.emit -/

@[simp] theorem emit_pending (p : Tlp) : (s.emit p).pending = s.pending := rfl
@[simp] theorem emit_code (p : Tlp) : (s.emit p).code = s.code := rfl
@[simp] theorem emit_clock (p : Tlp) : (s.emit p).clock = s.clock := rfl
@[simp] theorem emit_free (p : Tlp) : (s.emit p).free = s.free := rfl
@[simp] theorem emit_regs (p : Tlp) : (s.emit p).regs = s.regs := rfl
@[simp] theorem emit_staged (p : Tlp) : (s.emit p).staged = s.staged := rfl
@[simp] theorem emit_waiting (p : Tlp) : (s.emit p).waiting = s.waiting := rfl
@[simp] theorem emit_groups (p : Tlp) : (s.emit p).groups = s.groups := rfl
@[simp] theorem emit_ports (p : Tlp) : (s.emit p).ports = s.ports := rfl
@[simp] theorem emit_dies (p : Tlp) : (s.emit p).dies = s.dies := rfl
@[simp] theorem emit_sfe (p : Tlp) : (s.emit p).sfe = s.sfe := rfl
@[simp] theorem emit_latDie (p : Tlp) : (s.emit p).latDie = s.latDie := rfl
@[simp] theorem emit_lat (p : Tlp) : (s.emit p).lat = s.lat := rfl
@[simp] theorem emit_recp (p : Tlp) : (s.emit p).recp = s.recp := rfl
@[simp] theorem emit_osv (p : Tlp) : (s.emit p).osv = s.osv := rfl
@[simp] theorem emit_trn (p : Tlp) : (s.emit p).trn = s.trn := rfl
@[simp] theorem emit_spn (p : Tlp) : (s.emit p).spn = s.spn := rfl
@[simp] theorem emit_ceil (p : Tlp) : (s.emit p).ceil = s.ceil := rfl
@[simp] theorem emit_axp (p : Tlp) : (s.emit p).axp = s.axp := rfl
@[simp] theorem emit_yrd (p : Tlp) : (s.emit p).yrd = s.yrd := rfl
@[simp] theorem emit_cru (p : Tlp) : (s.emit p).cru = s.cru := rfl
@[simp] theorem emit_mem (p : Tlp) : (s.emit p).mem = s.mem := rfl
@[simp] theorem emit_lnd (p : Tlp) : (s.emit p).lnd = s.lnd := rfl
@[simp] theorem emit_miu (p : Tlp) : (s.emit p).miu = s.miu := rfl
@[simp] theorem emit_vlk (p : Tlp) : (s.emit p).vlk = s.vlk := rfl
@[simp] theorem emit_crew (p : Tlp) : (s.emit p).crew = s.crew := rfl
@[simp] theorem emit_qen (p : Tlp) : (s.emit p).qen = s.qen := rfl
@[simp] theorem emit_hic (p : Tlp) : (s.emit p).hic = s.hic := rfl
@[simp] theorem emit_skd (p : Tlp) : (s.emit p).skd = s.skd := rfl
@[simp] theorem emit_skdLast (p : Tlp) : (s.emit p).skdLast = s.skdLast := rfl
@[simp] theorem emit_fwu (p : Tlp) : (s.emit p).fwu = s.fwu := rfl
@[simp] theorem emit_pwr (p : Tlp) : (s.emit p).pwr = s.pwr := rfl
@[simp] theorem emit_get (p : Tlp) (a' : Nat) (f' : Field) (i' j' : Nat) : (s.emit p).get a' f' i' j' = s.get a' f' i' j' := rfl
@[simp] theorem emit_has (p : Tlp) (a' : Nat) (f' : Field) (i' j' : Nat) : (s.emit p).has a' f' i' j' = s.has a' f' i' j' := rfl

/-! ## State.setSkd -/

@[simp] theorem setSkd_pending (c : Fin 32) (x : Skd) : (s.setSkd c x).pending = s.pending := rfl
@[simp] theorem setSkd_code (c : Fin 32) (x : Skd) : (s.setSkd c x).code = s.code := rfl
@[simp] theorem setSkd_clock (c : Fin 32) (x : Skd) : (s.setSkd c x).clock = s.clock := rfl
@[simp] theorem setSkd_free (c : Fin 32) (x : Skd) : (s.setSkd c x).free = s.free := rfl
@[simp] theorem setSkd_regs (c : Fin 32) (x : Skd) : (s.setSkd c x).regs = s.regs := rfl
@[simp] theorem setSkd_staged (c : Fin 32) (x : Skd) : (s.setSkd c x).staged = s.staged := rfl
@[simp] theorem setSkd_waiting (c : Fin 32) (x : Skd) : (s.setSkd c x).waiting = s.waiting := rfl
@[simp] theorem setSkd_groups (c : Fin 32) (x : Skd) : (s.setSkd c x).groups = s.groups := rfl
@[simp] theorem setSkd_ports (c : Fin 32) (x : Skd) : (s.setSkd c x).ports = s.ports := rfl
@[simp] theorem setSkd_dies (c : Fin 32) (x : Skd) : (s.setSkd c x).dies = s.dies := rfl
@[simp] theorem setSkd_sfe (c : Fin 32) (x : Skd) : (s.setSkd c x).sfe = s.sfe := rfl
@[simp] theorem setSkd_latDie (c : Fin 32) (x : Skd) : (s.setSkd c x).latDie = s.latDie := rfl
@[simp] theorem setSkd_lat (c : Fin 32) (x : Skd) : (s.setSkd c x).lat = s.lat := rfl
@[simp] theorem setSkd_recp (c : Fin 32) (x : Skd) : (s.setSkd c x).recp = s.recp := rfl
@[simp] theorem setSkd_osv (c : Fin 32) (x : Skd) : (s.setSkd c x).osv = s.osv := rfl
@[simp] theorem setSkd_trn (c : Fin 32) (x : Skd) : (s.setSkd c x).trn = s.trn := rfl
@[simp] theorem setSkd_spn (c : Fin 32) (x : Skd) : (s.setSkd c x).spn = s.spn := rfl
@[simp] theorem setSkd_ceil (c : Fin 32) (x : Skd) : (s.setSkd c x).ceil = s.ceil := rfl
@[simp] theorem setSkd_axp (c : Fin 32) (x : Skd) : (s.setSkd c x).axp = s.axp := rfl
@[simp] theorem setSkd_yrd (c : Fin 32) (x : Skd) : (s.setSkd c x).yrd = s.yrd := rfl
@[simp] theorem setSkd_cru (c : Fin 32) (x : Skd) : (s.setSkd c x).cru = s.cru := rfl
@[simp] theorem setSkd_mem (c : Fin 32) (x : Skd) : (s.setSkd c x).mem = s.mem := rfl
@[simp] theorem setSkd_lnd (c : Fin 32) (x : Skd) : (s.setSkd c x).lnd = s.lnd := rfl
@[simp] theorem setSkd_miu (c : Fin 32) (x : Skd) : (s.setSkd c x).miu = s.miu := rfl
@[simp] theorem setSkd_vlk (c : Fin 32) (x : Skd) : (s.setSkd c x).vlk = s.vlk := rfl
@[simp] theorem setSkd_crew (c : Fin 32) (x : Skd) : (s.setSkd c x).crew = s.crew := rfl
@[simp] theorem setSkd_qen (c : Fin 32) (x : Skd) : (s.setSkd c x).qen = s.qen := rfl
@[simp] theorem setSkd_ep (c : Fin 32) (x : Skd) : (s.setSkd c x).ep = s.ep := rfl
@[simp] theorem setSkd_hic (c : Fin 32) (x : Skd) : (s.setSkd c x).hic = s.hic := rfl
@[simp] theorem setSkd_skdLast (c : Fin 32) (x : Skd) : (s.setSkd c x).skdLast = s.skdLast := rfl
@[simp] theorem setSkd_fwu (c : Fin 32) (x : Skd) : (s.setSkd c x).fwu = s.fwu := rfl
@[simp] theorem setSkd_pwr (c : Fin 32) (x : Skd) : (s.setSkd c x).pwr = s.pwr := rfl
@[simp] theorem setSkd_get (c : Fin 32) (x : Skd) (a' : Nat) (f' : Field) (i' j' : Nat) : (s.setSkd c x).get a' f' i' j' = s.get a' f' i' j' := rfl
@[simp] theorem setSkd_has (c : Fin 32) (x : Skd) (a' : Nat) (f' : Field) (i' j' : Nat) : (s.setSkd c x).has a' f' i' j' = s.has a' f' i' j' := rfl

/-! ## State.setSession -/

@[simp] theorem setSession_pending (x : Session) : (s.setSession x).pending = s.pending := rfl
@[simp] theorem setSession_code (x : Session) : (s.setSession x).code = s.code := rfl
@[simp] theorem setSession_clock (x : Session) : (s.setSession x).clock = s.clock := rfl
@[simp] theorem setSession_free (x : Session) : (s.setSession x).free = s.free := rfl
@[simp] theorem setSession_regs (x : Session) : (s.setSession x).regs = s.regs := rfl
@[simp] theorem setSession_staged (x : Session) : (s.setSession x).staged = s.staged := rfl
@[simp] theorem setSession_waiting (x : Session) : (s.setSession x).waiting = s.waiting := rfl
@[simp] theorem setSession_groups (x : Session) : (s.setSession x).groups = s.groups := rfl
@[simp] theorem setSession_ports (x : Session) : (s.setSession x).ports = s.ports := rfl
@[simp] theorem setSession_dies (x : Session) : (s.setSession x).dies = s.dies := rfl
@[simp] theorem setSession_sfe (x : Session) : (s.setSession x).sfe = s.sfe := rfl
@[simp] theorem setSession_latDie (x : Session) : (s.setSession x).latDie = s.latDie := rfl
@[simp] theorem setSession_lat (x : Session) : (s.setSession x).lat = s.lat := rfl
@[simp] theorem setSession_recp (x : Session) : (s.setSession x).recp = s.recp := rfl
@[simp] theorem setSession_osv (x : Session) : (s.setSession x).osv = s.osv := rfl
@[simp] theorem setSession_trn (x : Session) : (s.setSession x).trn = s.trn := rfl
@[simp] theorem setSession_spn (x : Session) : (s.setSession x).spn = s.spn := rfl
@[simp] theorem setSession_ceil (x : Session) : (s.setSession x).ceil = s.ceil := rfl
@[simp] theorem setSession_axp (x : Session) : (s.setSession x).axp = s.axp := rfl
@[simp] theorem setSession_yrd (x : Session) : (s.setSession x).yrd = s.yrd := rfl
@[simp] theorem setSession_cru (x : Session) : (s.setSession x).cru = s.cru := rfl
@[simp] theorem setSession_mem (x : Session) : (s.setSession x).mem = s.mem := rfl
@[simp] theorem setSession_lnd (x : Session) : (s.setSession x).lnd = s.lnd := rfl
@[simp] theorem setSession_miu (x : Session) : (s.setSession x).miu = s.miu := rfl
@[simp] theorem setSession_crew (x : Session) : (s.setSession x).crew = s.crew := rfl
@[simp] theorem setSession_qen (x : Session) : (s.setSession x).qen = s.qen := rfl
@[simp] theorem setSession_ep (x : Session) : (s.setSession x).ep = s.ep := rfl
@[simp] theorem setSession_hic (x : Session) : (s.setSession x).hic = s.hic := rfl
@[simp] theorem setSession_skd (x : Session) : (s.setSession x).skd = s.skd := rfl
@[simp] theorem setSession_skdLast (x : Session) : (s.setSession x).skdLast = s.skdLast := rfl
@[simp] theorem setSession_fwu (x : Session) : (s.setSession x).fwu = s.fwu := rfl
@[simp] theorem setSession_pwr (x : Session) : (s.setSession x).pwr = s.pwr := rfl
@[simp] theorem setSession_get (x : Session) (a' : Nat) (f' : Field) (i' j' : Nat) : (s.setSession x).get a' f' i' j' = s.get a' f' i' j' := rfl
@[simp] theorem setSession_has (x : Session) (a' : Nat) (f' : Field) (i' j' : Nat) : (s.setSession x).has a' f' i' j' = s.has a' f' i' j' := rfl

/-! ## State.setBank -/

@[simp] theorem setBank_pending (b : Fin 2) (x : Bank) : (s.setBank b x).pending = s.pending := rfl
@[simp] theorem setBank_code (b : Fin 2) (x : Bank) : (s.setBank b x).code = s.code := rfl
@[simp] theorem setBank_clock (b : Fin 2) (x : Bank) : (s.setBank b x).clock = s.clock := rfl
@[simp] theorem setBank_free (b : Fin 2) (x : Bank) : (s.setBank b x).free = s.free := rfl
@[simp] theorem setBank_regs (b : Fin 2) (x : Bank) : (s.setBank b x).regs = s.regs := rfl
@[simp] theorem setBank_staged (b : Fin 2) (x : Bank) : (s.setBank b x).staged = s.staged := rfl
@[simp] theorem setBank_waiting (b : Fin 2) (x : Bank) : (s.setBank b x).waiting = s.waiting := rfl
@[simp] theorem setBank_groups (b : Fin 2) (x : Bank) : (s.setBank b x).groups = s.groups := rfl
@[simp] theorem setBank_ports (b : Fin 2) (x : Bank) : (s.setBank b x).ports = s.ports := rfl
@[simp] theorem setBank_dies (b : Fin 2) (x : Bank) : (s.setBank b x).dies = s.dies := rfl
@[simp] theorem setBank_sfe (b : Fin 2) (x : Bank) : (s.setBank b x).sfe = s.sfe := rfl
@[simp] theorem setBank_latDie (b : Fin 2) (x : Bank) : (s.setBank b x).latDie = s.latDie := rfl
@[simp] theorem setBank_lat (b : Fin 2) (x : Bank) : (s.setBank b x).lat = s.lat := rfl
@[simp] theorem setBank_recp (b : Fin 2) (x : Bank) : (s.setBank b x).recp = s.recp := rfl
@[simp] theorem setBank_osv (b : Fin 2) (x : Bank) : (s.setBank b x).osv = s.osv := rfl
@[simp] theorem setBank_trn (b : Fin 2) (x : Bank) : (s.setBank b x).trn = s.trn := rfl
@[simp] theorem setBank_spn (b : Fin 2) (x : Bank) : (s.setBank b x).spn = s.spn := rfl
@[simp] theorem setBank_ceil (b : Fin 2) (x : Bank) : (s.setBank b x).ceil = s.ceil := rfl
@[simp] theorem setBank_axp (b : Fin 2) (x : Bank) : (s.setBank b x).axp = s.axp := rfl
@[simp] theorem setBank_yrd (b : Fin 2) (x : Bank) : (s.setBank b x).yrd = s.yrd := rfl
@[simp] theorem setBank_cru (b : Fin 2) (x : Bank) : (s.setBank b x).cru = s.cru := rfl
@[simp] theorem setBank_mem (b : Fin 2) (x : Bank) : (s.setBank b x).mem = s.mem := rfl
@[simp] theorem setBank_lnd (b : Fin 2) (x : Bank) : (s.setBank b x).lnd = s.lnd := rfl
@[simp] theorem setBank_miu (b : Fin 2) (x : Bank) : (s.setBank b x).miu = s.miu := rfl
@[simp] theorem setBank_vlk (b : Fin 2) (x : Bank) : (s.setBank b x).vlk = s.vlk := rfl
@[simp] theorem setBank_crew (b : Fin 2) (x : Bank) : (s.setBank b x).crew = s.crew := rfl
@[simp] theorem setBank_qen (b : Fin 2) (x : Bank) : (s.setBank b x).qen = s.qen := rfl
@[simp] theorem setBank_ep (b : Fin 2) (x : Bank) : (s.setBank b x).ep = s.ep := rfl
@[simp] theorem setBank_hic (b : Fin 2) (x : Bank) : (s.setBank b x).hic = s.hic := rfl
@[simp] theorem setBank_skd (b : Fin 2) (x : Bank) : (s.setBank b x).skd = s.skd := rfl
@[simp] theorem setBank_skdLast (b : Fin 2) (x : Bank) : (s.setBank b x).skdLast = s.skdLast := rfl
@[simp] theorem setBank_pwr (b : Fin 2) (x : Bank) : (s.setBank b x).pwr = s.pwr := rfl
@[simp] theorem setBank_get (b : Fin 2) (x : Bank) (a' : Nat) (f' : Field) (i' j' : Nat) : (s.setBank b x).get a' f' i' j' = s.get a' f' i' j' := rfl
@[simp] theorem setBank_has (b : Fin 2) (x : Bank) (a' : Nat) (f' : Field) (i' j' : Nat) : (s.setBank b x).has a' f' i' j' = s.has a' f' i' j' := rfl

/-! ## Stores -/

theorem storeGet_storePut_same (m : List (Nat × Nat)) (a x : Nat) : storeGet (storePut m a x) a = some x := by
  induction m with
  | nil => simp [storePut, storeGet]
  | cons h t ih =>
    obtain ⟨k, v⟩ := h
    by_cases h1 : k = a
    · simp [storePut, storeGet, h1]
    · by_cases h2 : a < k
      · simp [storePut, storeGet, h1, h2]
      · simp [storePut, storeGet, h1, h2, ih]

theorem storeGet_storePut_other (m : List (Nat × Nat)) {a b : Nat} (x : Nat) (h : b ≠ a) :
    storeGet (storePut m a x) b = storeGet m b := by
  induction m with
  | nil => simp [storePut, storeGet, Ne.symm h]
  | cons e t ih =>
    obtain ⟨k, v⟩ := e
    by_cases h1 : k = a
    · subst h1; simp [storePut, storeGet, Ne.symm h]
    · by_cases h2 : a < k
      · simp [storePut, storeGet, h1, h2, Ne.symm h]
      · simp [storePut, storeGet, h1, h2, ih]

theorem storeGet_storeDel_same (m : List (Nat × Nat)) (a : Nat) : storeGet (storeDel m a) a = none := by
  induction m with
  | nil => rfl
  | cons e t ih =>
    obtain ⟨k, v⟩ := e
    by_cases h1 : k = a
    · subst h1; simpa [storeDel] using ih
    · simpa [storeDel, storeGet, h1] using ih

theorem storeGet_storeDel_other (m : List (Nat × Nat)) {a b : Nat} (h : b ≠ a) :
    storeGet (storeDel m a) b = storeGet m b := by
  induction m with
  | nil => rfl
  | cons e t ih =>
    obtain ⟨k, v⟩ := e
    by_cases h1 : k = a
    · subst h1; simpa [storeDel, storeGet, Ne.symm h] using ih
    · by_cases h2 : k = b
      · subst h2; simp [storeDel, storeGet, h1]
      · simpa [storeDel, storeGet, h1, h2] using ih

theorem fieldIn_fieldPut_same (m : List (Nat × Nat)) (f : Field) (k v : Nat) :
    fieldIn (fieldPut m f k v) f k = v % 2 ^ f.width := by
  unfold fieldIn fieldPut
  split
  · next h => rw [storeGet_storeDel_same]; simp [h]
  · rw [storeGet_storePut_same]; rfl

theorem fieldIn_fieldPut_other (m : List (Nat × Nat)) (f g : Field) {k l : Nat} (v : Nat) (h : l ≠ k) :
    fieldIn (fieldPut m f k v) g l = fieldIn m g l := by
  unfold fieldIn fieldPut
  split
  · rw [storeGet_storeDel_other _ h]
  · rw [storeGet_storePut_other _ _ h]

@[simp] theorem get_put_same (a : Nat) (f : Field) (v i j : Nat) : (s.put a f v i j).get a f i j = v % 2 ^ f.width :=
  fieldIn_fieldPut_same _ _ _ _

theorem get_put_other (a : Nat) (f : Field) (v i j : Nat) {b : Nat} {g : Field} {k l : Nat} (h : g.key b k l ≠ f.key a i j) :
    (s.put a f v i j).get b g k l = s.get b g k l := fieldIn_fieldPut_other _ _ _ _ h

theorem get_bump_same (a : Nat) (f : Field) (i j : Nat) :
    (s.bump a f i j).get a f i j = min (s.get a f i j + 1) (2 ^ f.width - 1) := by
  unfold State.bump State.bumpBy
  rw [get_put_same, Nat.mod_eq_of_lt]
  have := Nat.two_pow_pos f.width
  omega

theorem get_bump_other (a : Nat) (f : Field) (i j : Nat) {b : Nat} {g : Field} {k l : Nat} (h : g.key b k l ≠ f.key a i j) :
    (s.bump a f i j).get b g k l = s.get b g k l := get_put_other _ _ _ _ _ _ h

/-! ## Reading an entry back -/

@[simp] theorem setDie_same (d : Die) (x : DieSt) : (s.setDie d x).dies[d] = x := by simp [State.setDie]
theorem setDie_other (d e : Die) (x : DieSt) (h : e ≠ d) : (s.setDie d x).dies[e] = s.dies[e] := by
  simp [State.setDie, Fin.val_ne_of_ne h.symm]
@[simp] theorem setPort_same (d : Die) (x : Port) : (s.setPort d x).ports[d] = x := by simp [State.setPort]
theorem setPort_other (d e : Die) (x : Port) (h : e ≠ d) : (s.setPort d x).ports[e] = s.ports[e] := by
  simp [State.setPort, Fin.val_ne_of_ne h.symm]
@[simp] theorem setSfe_same (d : Bay) (x : Sfe) : (s.setSfe d x).sfe[d] = x := by simp [State.setSfe]
theorem setSfe_other (d e : Bay) (x : Sfe) (h : e ≠ d) : (s.setSfe d x).sfe[e] = s.sfe[e] := by
  simp [State.setSfe, Fin.val_ne_of_ne h.symm]
@[simp] theorem setLat_same (d : Bay) (x : LatBay) : (s.setLat d x).lat[d] = x := by simp [State.setLat]
theorem setLat_other (d e : Bay) (x : LatBay) (h : e ≠ d) : (s.setLat d x).lat[e] = s.lat[e] := by
  simp [State.setLat, Fin.val_ne_of_ne h.symm]
@[simp] theorem setLatDie_same (d : Die) (x : LatDie) : (s.setLatDie d x).latDie[d] = x := by simp [State.setLatDie]
theorem setLatDie_other (d e : Die) (x : LatDie) (h : e ≠ d) : (s.setLatDie d x).latDie[e] = s.latDie[e] := by
  simp [State.setLatDie, Fin.val_ne_of_ne h.symm]
@[simp] theorem setRec_same (d : Bay) (x : Rec) : (s.setRec d x).recp[d] = x := by simp [State.setRec]
theorem setRec_other (d e : Bay) (x : Rec) (h : e ≠ d) : (s.setRec d x).recp[e] = s.recp[e] := by
  simp [State.setRec, Fin.val_ne_of_ne h.symm]
@[simp] theorem setOsv_same (d : Bay) (x : Osv) : (s.setOsv d x).osv[d] = x := by simp [State.setOsv]
theorem setOsv_other (d e : Bay) (x : Osv) (h : e ≠ d) : (s.setOsv d x).osv[e] = s.osv[e] := by
  simp [State.setOsv, Fin.val_ne_of_ne h.symm]
@[simp] theorem setSpn_same (d : Bay) (x : Spn) : (s.setSpn d x).spn[d] = x := by simp [State.setSpn]
theorem setSpn_other (d e : Bay) (x : Spn) (h : e ≠ d) : (s.setSpn d x).spn[e] = s.spn[e] := by
  simp [State.setSpn, Fin.val_ne_of_ne h.symm]
@[simp] theorem setTrn_same (d : Die) (x : Trn) : (s.setTrn d x).trn[d] = x := by simp [State.setTrn]
theorem setTrn_other (d e : Die) (x : Trn) (h : e ≠ d) : (s.setTrn d x).trn[e] = s.trn[e] := by
  simp [State.setTrn, Fin.val_ne_of_ne h.symm]
@[simp] theorem setCru_same (d : Bay) (x : Cru) : (s.setCru d x).cru[d] = x := by simp [State.setCru]
theorem setCru_other (d e : Bay) (x : Cru) (h : e ≠ d) : (s.setCru d x).cru[e] = s.cru[e] := by
  simp [State.setCru, Fin.val_ne_of_ne h.symm]
@[simp] theorem setSkd_same (d : Fin 32) (x : Skd) : (s.setSkd d x).skd[d] = x := by simp [State.setSkd]
theorem setSkd_other (d e : Fin 32) (x : Skd) (h : e ≠ d) : (s.setSkd d x).skd[e] = s.skd[e] := by
  simp [State.setSkd, Fin.val_ne_of_ne h.symm]
@[simp] theorem setYrd_yrd (y : Yrd) : (s.setYrd y).yrd = y := rfl

@[simp] theorem idle_pending : (idle s).pending = s.pending := rfl

end Sys2Proof.Machine
end

