-- ==== Sys2Proof/WellFormed.lean ====
section
/-! DEFINITION. Well-formed commands: the operands that the tables of messages, registers and limits allow each row to carry.
A command outside them still has its meaning; the check says which commands the part's own tables can produce. -/
namespace Sys2Proof

/-- A kerf port leads to a field die: port n to die n (R17, R20). -/
def kerf (d : Die) : Bool := decide (d ≠ 0)

/-- A bay die (R17). -/
def bayDie (d : Die) : Bool := decide (2 ≤ d.val)

/-- K2–K5, the classes of work and data (R22). -/
def KClass.data (k : KClass) : Bool := decide (2 ≤ k.num)

/-- The three groups of classes that R23 gives the message types: K0, K1, and K2–K5. -/
inductive MsgClass where
  | urgent | routine | data
  deriving DecidableEq, Repr

/-- Whether a class is of a group (R22, R23). -/
def MsgClass.holds (g : MsgClass) (k : KClass) : Bool :=
  match g with
  | .urgent => decide (k.num = 0)
  | .routine => decide (k.num = 1)
  | .data => decide (2 ≤ k.num)

/-- A message of a type has its class and as many continuation words as R23 says, and its header's LEN counts them (R21). -/
def Msg.shaped (m : Msg) (type : Nat) (g : MsgClass) (lo hi : Nat) : Bool :=
  decide (m.type = type) && g.holds m.cls && decide (lo ≤ m.cont.length) && decide (m.cont.length ≤ hi)
    && (decide (hi = 0) || decide (m.word.toNat % 1024 = m.cont.length))

/-- KIND of a work item (R24). -/
def Msg.kind (m : Msg) (k : Nat) : Bool := decide (m.word.toNat / 2 ^ 56 = k)

/-- A doorbell part holds 16 bits (R435). -/
def small (v : Option Nat) : Bool := decide (v.getD 0 < 65536)

/-- A power of two from 128 to 4,096, as Max Read Request Size is (R491). -/
def sizeOk (n : Nat) : Bool := decide (n ∈ [128, 256, 512, 1024, 2048, 4096])

/-- A candidate blaze has at most 32 wrong bits, 48 address bits and 12 check bits (R55, R56, R126). -/
def BlazeCand.inRange (x : BlazeCand) : Bool := decide (x.dist ≤ 32) && decide (x.addr < 2 ^ 48) && decide (x.check < 2 ^ 12)

/-- What the configuration space can hold of a function (R491). -/
def Machine.FnCfg.legal (c : Machine.FnCfg) : Bool := decide (c.mps ∈ [128, 256, 512]) && sizeOk c.mrrs && decide (c.rcb ∈ [64, 128])

/-- The operands of a command are within the tables of its row's rules. -/
def Instr.wellFormed : Instr → Bool
  | .registerWrite _ _ bay off _ => decide (bay < 2) && decide (off % 4 = 0)
  | .flitReceive d _ _ _ cls => kerf d && cls.data
  | .linkNakReceived d _ _ => kerf d
  | .creditReceived d _ _ _ => kerf d
  | .continuationTimeout d _ k => kerf d && decide (k ≠ .k0)
  | .portRetrainEnd d lanes => kerf d && decide (lanes ∈ [0, 1, 2, 4])
  | .flitSlotTransmit d _ => kerf d
  | .heartbeat d m => kerf d && m.shaped 0x01 .urgent 0 0
  | .heartbeatEcho d m => kerf d && m.shaped 0x02 .urgent 0 0
  | .echoLost d => kerf d
  | .heartbeatTimeout d => kerf d
  | .clockHoldoverEnd d => kerf d
  | .portDown d _ => kerf d
  | .signalRise d => kerf d
  | .haltSafe d m => kerf d && m.shaped 0x03 .urgent 0 0
  | .haltRelease d m => kerf d && m.shaped 0x03 .urgent 0 0
  | .haltStopBay d m => kerf d && m.shaped 0x03 .urgent 0 0
  | .haltResetDie d m => kerf d && m.shaped 0x03 .urgent 0 0
  | .haltDone d m => kerf d && m.shaped 0x04 .urgent 0 0
  | .haltResend d => kerf d
  | .queueReset d m => kerf d && m.shaped 0x05 .urgent 0 0
  | .queueResetDone d m => kerf d && m.shaped 0x06 .urgent 0 0
  | .queueResetResend d => kerf d
  | .regRead d m => kerf d && m.shaped 0x10 .routine 0 0
  | .regWrite d m => kerf d && m.shaped 0x11 .routine 1 1
  | .regData d m => kerf d && m.shaped 0x12 .routine 1 1
  | .event d m => kerf d && m.shaped 0x13 .routine 0 3
  | .fwLoad d m => kerf d && m.shaped 0x14 .routine 1 512
  | .workRead d m => kerf d && m.shaped 0x20 .data 0 7 && m.kind 0x01
  | .workRecord d m => kerf d && m.shaped 0x20 .data 0 7 && m.kind 0x02
  | .workSeek d m => kerf d && m.shaped 0x20 .data 0 7 && m.kind 0x03
  | .workMount d m => kerf d && m.shaped 0x20 .data 0 7 && m.kind 0x04
  | .workUnmount d m => kerf d && m.shaped 0x20 .data 0 7 && m.kind 0x05
  | .workTransfer d m => kerf d && m.shaped 0x20 .data 0 7 && m.kind 0x06
  | .workCruise d m => kerf d && m.shaped 0x20 .data 0 7 && m.kind 0x07
  | .workVerify d m => kerf d && m.shaped 0x20 .data 0 7 && m.kind 0x08
  | .workDone d m => kerf d && m.shaped 0x21 .data 0 1
  | .recordData d m => kerf d && m.shaped 0x28 .data 514 514
  | .boardData d m => kerf d && m.shaped 0x22 .data 513 513
  | .boardErased d m => kerf d && m.shaped 0x23 .data 0 0
  | .logDone d m => kerf d && m.shaped 0x24 .data 0 0
  | .systemBoardReceive d m => kerf d && (m.shaped 0x22 .data 513 513 || m.shaped 0x24 .data 0 0) && m.word.getLsbD 20
  | .txctlPush d _ => kerf d
  | .rxctlPop d _ => kerf d
  | .sfeBlockBoundary _ raw => raw.toList.all fun l => decide (l.length ≤ 32)
  | .syncFrame _ _ o => decide (o.addrP < 2 ^ 48) && decide (o.checkP < 2 ^ 12) && o.cands.all BlazeCand.inRange
  | .slotBlank _ _ area _ => decide (area < 3)
  | .sliceClose _ _ len => decide (0 < len) && decide (len ≤ 4096)
  | .sliceDetected d r => bayDie d && decide (r.soft.length ≤ 4096) && decide (r.metrics.length = 16)
  | .ldpcDecodeDone d r => bayDie d && decide (r.word.length = 36864)
  | .recordLogBuild _ item => decide (item < 65536)
  | .logWriteStart _ item => decide (item < 65536)
  | .bankWordWrite _ _ _ off _ => decide (off < 128) && decide (off % 4 = 0)
  | .spiralCheck _ addr check => decide (addr < 2 ^ 48) && decide (check < 2 ^ 12)
  | .moveTrack _ turns => decide (turns ≠ 0) && decide (turns.natAbs ≤ 400)
  | .moveSeek _ _ area slot => decide (area < 3) && decide (slot < 2 ^ 26)
  | .seekLanding _ slot => decide (slot < 2 ^ 26)
  | .fillTimeout id => decide (id < 1024)
  | .lndRangeInvalidate _ cls slots => decide (cls < 4) && decide (slots ≤ 4096)
  | .lndRangePreload _ cls slots => decide (cls < 4) && decide (slots ≤ 4096)
  | .lndRangePreloadLock _ cls slots => decide (cls < 4) && decide (slots ≤ 4096)
  | .lndRangeUnlock _ cls slots => decide (cls < 4) && decide (slots ≤ 4096)
  | .lndRangeClean _ cls slots => decide (cls < 4) && decide (slots ≤ 4096)
  | .lndRangeScrub _ cls slots => decide (cls < 4) && decide (slots ≤ 4096)
  | .barkMeasured _ features => decide (features.length = 512)
  | .doorbellWrite _ q tail head => decide (q ≤ 512) && small tail && small head
  | .entryReceived _ q _ => decide (q ≤ 512)
  | .completionPost _ q => decide (q ≤ 512)
  | .qenHalt _ q => decide (q < 1024)
  | .bar0Request r => decide (0 < r.len) && decide (r.value.getD 0 < 256 ^ r.len)
  | .bmeSet _ cfg _ => cfg.legal
  | .completionReceived x => decide (x.tag < 2 ^ 14) && decide (x.count ≤ 4096)
  | .completionTimeout tag => decide (tag < 1024)
  | .msixSend f v => decide (v < if f.val = 0 then 1023 else 63)
  | .msixUnmask f v => decide (v < if f.val = 0 then 1023 else 63)
  | .linkFullRateRetrain _ width _ => decide (width.val ∈ [1, 2, 4, 8])
  | .hicSourceEvent n _ => decide (0 < n) && decide (n < 256)
  | .hicTriggerWrite n => decide (192 ≤ n) && decide (n ≤ 255)
  | .stump2BringUp channels setsLog2 _ => decide (channels ∈ [1, 2, 4]) && decide (13 ≤ setsLog2) && decide (setsLog2 ≤ 18)
  | .fpwBootGo d => kerf d
  | .fieldSupplyTrip d => kerf d
  | .cqCoalesceTimeout _ q => decide (q ≤ 512)
  | .linkRecovery _ _ width _ _ => decide (width.val ∈ [0, 1, 2, 4, 8])
  | .commit .. | .stagedSetActive .. | .heartbeatSend .. | .snagSet .. | .snagClear .. | .longSnag ..
  | .forecastWindowOpen .. | .forecastWindowClose .. | .sfeVelReplaced .. | .thermistorReading ..
  | .sfeTempReplaced .. | .acquisitionEnd .. | .sfeSpotLoopWrite .. | .sfeAfeWrite .. | .codewordHandover ..
  | .retryJumpBack .. | .qualityWindowLatch .. | .recordSpeedSettled .. | .checkRevolution .. | .logWriteEnd ..
  | .writeInhibit .. | .laserReportFrame .. | .laserLink .. | .powerTest .. | .recOpcRun .. | .turn ..
  | .trnCmdClear .. | .trnCmdForce .. | .trnSetWrite .. | .trnCtlWrite .. | .focEnSet .. | .trnOsvCtlWrite ..
  | .surfacePeak .. | .sweepEnd .. | .focusLock .. | .captureTimeout .. | .trnFocusLost .. | .holdRecovery ..
  | .holdTimeout .. | .trackingLock .. | .grooveSearch .. | .moveReacquire .. | .moveLayer .. | .layerJumpBrake ..
  | .layerJumpBrakeEnd .. | .ljTimeout .. | .trackJumpBrake .. | .pwmPeriod .. | .spnRun .. | .spnIdle ..
  | .spnStop .. | .spnClrFault .. | .spnCtlWrite .. | .ipdDone .. | .alignEnd .. | .openHandOver .. | .openTimeout ..
  | .catchDecide .. | .catchLock .. | .observerLoss .. | .spnObsRelocked .. | .flywheelTimeout .. | .shortEnd ..
  | .overspeed .. | .undervoltage .. | .atSpeed .. | .windingTempUpdate .. | .ceilReading .. | .spnCeilReplaced ..
  | .spnCeilValue .. | .ceilRelayWrite .. | .ceilStale .. | .profileTick .. | .axpMove .. | .axpStop ..
  | .axpResume .. | .axpHome .. | .axpClrFault .. | .axpCtlWrite .. | .grpMove .. | .grpStop .. | .grpResume ..
  | .switchRawEdge .. | .switchConfirm .. | .transferStepDone .. | .headDiscTimeout .. | .yrdDoorOpen ..
  | .doorSettled .. | .doorTimeout .. | .inventory .. | .deckScanned .. | .yarderPowerUpHoming .. | .yrdCtlWrite ..
  | .cruNow .. | .cruTempCheck .. | .cruRunStart .. | .cruStarved .. | .cruPointMeasured .. | .cruSpotRelease ..
  | .cruTapSnapshot .. | .cruRunAbort .. | .mountDarkPhase .. | .cruQualityUpdate .. | .requestRetry ..
  | .dirtyHandOver .. | .lndRangeAbort .. | .lndRangeDone .. | .lndCtrlWrite .. | .lndWayRetireWrite ..
  | .lndCfgWrite .. | .windowCommitPoint .. | .bar2Request .. | .patrolBurst .. | .miuInjectArm ..
  | .openCoreWatchdog .. | .sessionCloseFinal .. | .generationRecord .. | .backgroundDirectoryRead ..
  | .foregroundLookup .. | .mountComplete .. | .fetch .. | .haltCutComplete .. | .qenMqCtlWrite .. | .read ..
  | .readRaw .. | .record .. | .preload .. | .fence .. | .flush .. | .verifyScan .. | .createQueuePair ..
  | .deleteQueuePair .. | .resetQueue .. | .sessionOpen .. | .sessionClose .. | .mount .. | .unmount ..
  | .moveDisc .. | .cruiseNow .. | .queryBay .. | .bundleDownload .. | .scheduleActivation .. | .cancelActivation ..
  | .confirmHealth .. | .getLogPage .. | .setFeature .. | .getFeature .. | .fieldRegisterRead ..
  | .fieldRegisterWrite .. | .regDataTimeout .. | .scrubRange .. | .landingRangeOp .. | .scaleBookStale ..
  | .scaleBookHint .. | .setTime .. | .bmeClear .. | .functionLevelReset .. | .d3hotEntry .. | .d0Return ..
  | .perstAssert .. | .hotReset .. | .readPieceIssue .. | .hicClaimRead .. | .hicClaimWrite .. | .hicSrcCfgWrite ..
  | .msipWrite .. | .mtimecmpReached .. | .skdStart .. | .skdAbort .. | .skdBurstDone .. | .skdDescriptorDone ..
  | .skdDescriptorLoad .. | .skdBusError .. | .skdHaltedClear .. | .flashOperationDone .. | .activationStart ..
  | .activationDrainDone .. | .activationFlushDone .. | .activationReset .. | .bootCheck .. | .selfTestDone ..
  | .confirmationWindowExpiry .. | .romStageBoot .. | .memoryInitDone .. | .fieldReady .. | .hostSupplyTrip ..
  | .hostSupplyRelease .. | .vauxLoss .. | .junctionOvertemp .. | .junctionOvertempRelease .. | .vmechSample ..
  | .fpwVmechLow .. | .vmechLowClear .. | .fpwVmechHigh .. | .vmechHighClear .. | .domainSwitchOff ..
  | .domainWake .. | .keeperTick .. | .pwrXtalLost .. | .bayIdleSpindle .. | .bayIdleReturn ..
  | .safeStateShortBrake .. | .fabricPllLockTimeout .. | .jtagAccess .. => true

end Sys2Proof
end

