-- ==== Sys2Proof/Tests/Slice0.lean ====
section
/-! SUPPORT. Tests: ill-formed commands are refused, and a witness for each statement. -/
namespace Sys2Proof.Machine

theorem test_reset_queue : State.reset.pending = [] := rfl

/-! ## Well-formed commands: a command outside each check is refused -/

/-- A message of a type and class with a header word and n continuation words of 0. -/
def testMsg (type : Nat) (k : KClass) (w n : Nat) : Msg :=
  { type, word := BitVec.ofNat 64 w, cont := List.replicate n 0, cls := k }

/-- The commands of the ports that lead to no field die: die 0 is the hub (R17, R20). -/
theorem test_wf_no_port :
  List.all (
  [.flitReceive 0 .hub 0 0 .k2, .linkNakReceived 0 .hub 0, .creditReceived 0 .hub 0 (Vector.replicate 5 0),
   .continuationTimeout 0 .hub .k1, .portRetrainEnd 0 4, .flitSlotTransmit 0 .hub, .heartbeat 0 (testMsg 0x01 .k0 0 0),
   .heartbeatEcho 0 (testMsg 0x02 .k0 0 0), .echoLost 0, .heartbeatTimeout 0, .clockHoldoverEnd 0, .portDown 0 true,
   .signalRise 0, .haltSafe 0 (testMsg 0x03 .k0 0 0), .haltResend 0, .queueResetResend 0, .regRead 0 (testMsg 0x10 .k1 0 0),
   .txctlPush 0 0, .rxctlPop 0 0, .fpwBootGo 0, .fieldSupplyTrip 0] : List Instr) (fun i => !i.wellFormed) = true := by decide

/-- Messages whose TYPE is another row's (R23). -/
theorem test_wf_wrong_type :
  let m := testMsg 0x30 .k0 0 0
  let n := testMsg 0x30 .k1 1 1
  let o := testMsg 0x30 .k2 0 0
  List.all (
  [.heartbeat 2 m, .heartbeatEcho 2 m, .haltSafe 2 m, .haltRelease 2 m, .haltStopBay 2 m, .haltResetDie 2 m, .haltDone 2 m,
   .queueReset 2 m, .queueResetDone 2 m, .regRead 2 n, .regWrite 2 n, .regData 2 n, .event 2 n, .fwLoad 2 n, .workRead 2 o,
   .workRecord 2 o, .workSeek 2 o, .workMount 2 o, .workUnmount 2 o, .workTransfer 1 o, .workCruise 2 o, .workVerify 2 o,
   .workDone 2 o, .recordData 2 o, .boardData 2 o, .boardErased 2 o, .logDone 2 o, .systemBoardReceive 2 o] : List Instr) (fun i => !i.wellFormed) = true := by decide

/-- Messages of the right TYPE with a wrong class, LEN, KIND or SYSTEM bit (R21–R24, R143). -/
theorem test_wf_wrong_shape :
  List.all (
  [.heartbeat 2 (testMsg 0x01 .k1 0 0), .regRead 2 (testMsg 0x10 .k0 0 0), .boardErased 2 (testMsg 0x23 .k1 0 0),
   .regWrite 2 (testMsg 0x11 .k1 0 0), .regWrite 2 (testMsg 0x11 .k1 2 2), .regWrite 2 (testMsg 0x11 .k1 0 1),
   .event 2 (testMsg 0x13 .k1 4 4), .fwLoad 2 (testMsg 0x14 .k1 0 0), .boardData 2 (testMsg 0x22 .k2 1 1),
   .workRead 2 (testMsg 0x20 .k2 (2 * 2 ^ 56 + 1) 1), .workRecord 2 (testMsg 0x20 .k2 (2 ^ 56 + 1) 1),
   .workSeek 2 (testMsg 0x20 .k2 0 0), .workMount 2 (testMsg 0x20 .k2 0 0), .workUnmount 2 (testMsg 0x20 .k2 0 0),
   .workTransfer 1 (testMsg 0x20 .k2 0 0), .workCruise 2 (testMsg 0x20 .k2 0 0), .workVerify 2 (testMsg 0x20 .k2 0 0),
   .systemBoardReceive 2 (testMsg 0x24 .k2 0 0)] : List Instr) (fun i => !i.wellFormed) = true := by decide

/-- Operands outside the ranges of their rows. -/
theorem test_wf_out_of_range :
  List.all (
  [.registerWrite 2 0 2 0 0, .registerWrite 2 0 0 2 0, .flitReceive 2 .hub 0 0 .k1, .continuationTimeout 2 .hub .k0,
   .portRetrainEnd 2 3, .sfeBlockBoundary 0 (Vector.replicate 7 (List.replicate 33 0)),
   .syncFrame 0 0 { bits := [], cands := [], addrP := 2 ^ 48, checkP := 0 },
   .syncFrame 0 0 { bits := [], cands := [], addrP := 0, checkP := 4096 },
   .syncFrame 0 0 { bits := [], cands := [{ off := 0, dist := 33, addr := 0, check := 0 }], addrP := 0, checkP := 0 },
   .slotBlank 0 0 3 0, .sliceClose 0 0 0, .sliceClose 0 0 4097, .sliceDetected 1 { soft := [], metrics := List.replicate 16 0 },
   .sliceDetected 2 { soft := [], metrics := [] }, .ldpcDecodeDone 2 { word := [], iters := 0 }, .recordLogBuild 0 65536,
   .logWriteStart 0 65536, .bankWordWrite 2 0 false 128 0, .bankWordWrite 2 0 false 2 0, .spiralCheck 0 (2 ^ 48) 0,
   .spiralCheck 0 0 4096, .moveTrack 0 0, .moveTrack 0 401, .moveTrack 0 (-401), .moveSeek 0 0 3 0, .moveSeek 0 0 0 (2 ^ 26),
   .seekLanding 0 (2 ^ 26), .fillTimeout 1024, .lndRangeInvalidate false 4 0, .lndRangePreload false 0 4097,
   .lndRangePreloadLock false 4 0, .lndRangeUnlock false 0 4097, .lndRangeClean false 4 0, .lndRangeScrub false 0 4097,
   .barkMeasured 0 [], .doorbellWrite 0 513 none none, .doorbellWrite 0 0 (some 65536) none, .doorbellWrite 0 0 none (some 65536),
   .entryReceived 0 513 [], .completionPost 0 513, .cqCoalesceTimeout 0 513, .qenHalt 0 1024,
   .bar0Request { func := 0, off := 0, len := 0 }, .bar0Request { func := 0, off := 0, len := 4, value := some (2 ^ 32) },
   .bmeSet 0 { mps := 1024 } none, .bmeSet 0 { mrrs := 8192 } none, .bmeSet 0 { rcb := 32 } none,
   .completionReceived { tag := 16384, count := 4, data := [] }, .completionReceived { tag := 0, count := 4097, data := [] },
   .completionTimeout 1024, .msixSend 0 1023, .msixSend 1 63, .msixUnmask 1 63, .linkFullRateRetrain 1 3 false,
   .linkRecovery false 1 3 false true, .hicSourceEvent 0 true, .hicSourceEvent 256 true, .hicTriggerWrite 191,
   .hicTriggerWrite 256, .stump2BringUp 3 18 [], .stump2BringUp 4 12 [], .stump2BringUp 4 19 []] : List Instr) (fun i => !i.wellFormed) = true := by decide

/-- Commands inside the checks, at the ends of their ranges. -/
theorem test_wf_in_range :
  List.all (
  [.registerWrite 2 0 1 0xFFFC 0, .portRetrainEnd 2 1, .heartbeat 7 (testMsg 0x01 .k0 5 0), .regWrite 2 (testMsg 0x11 .k1 1 1),
   .event 2 (testMsg 0x13 .k1 3 3), .workRead 2 (testMsg 0x20 .k5 (2 ^ 56 + 1) 1), .workMount 2 (testMsg 0x20 .k2 (4 * 2 ^ 56) 0),
   .systemBoardReceive 2 (testMsg 0x24 .k2 (2 ^ 20) 0), .sliceClose 0 0 4096, .moveTrack 0 (-400), .moveSeek 0 15 2 (2 ^ 26 - 1),
   .doorbellWrite 63 512 (some 65535) (some 65535), .msixSend 0 1022, .msixSend 63 62, .hicTriggerWrite 255,
   .stump2BringUp 4 18 [], .bmeSet 0 {} (some 63)] : List Instr) Instr.wellFormed = true := by decide

/-! ## Witnesses: states and operands that meet the hypotheses of the statements -/

/-- The part after reset with one die, port, bay part or register changed. -/
def tDie (d : Die) (f : DieSt → DieSt) : State := State.reset.setDie d (f State.reset.dies[d])
def tPort (d : Die) (f : Port → Port) : State := State.reset.setPort d (f State.reset.ports[d])
def tSpot (f : SfeSpot → SfeSpot) : State := State.reset.setSpot 0 0 (f State.reset.sfe[(0 : Bay)].spots[(0 : Fin 7)])
def tOsv (f : Osv → Osv) : State := State.reset.setOsv 0 (f State.reset.osv[(0 : Bay)])
def tSpn (f : Spn → Spn) : State := State.reset.setSpn 0 (f State.reset.spn[(0 : Bay)])
def tRec (f : Rec → Rec) : State := State.reset.setRec 0 (f State.reset.recp[(0 : Bay)])
def tCru (f : Cru → Cru) : State := State.reset.setCru 0 (f State.reset.cru[(0 : Bay)])
def tAxis (d : Die) (f : Axis → Axis) : State := State.reset.setAxis d 0 (f State.reset.axp[d].axes[(0 : Fin 8)])
def tYrd (f : Yrd → Yrd) : State := State.reset.setYrd (f State.reset.yrd)
def tPwr (f : Pwr → Pwr) : State := { State.reset with pwr := f State.reset.pwr }
def tFwu (f : Fwu → Fwu) : State := { State.reset with fwu := f State.reset.fwu }
def tCmd (c : Cmd) : State := { State.reset with qen := { State.reset.qen with cmds := [c] } }

/-- A die that runs its firmware out of the safe state. -/
def tRun (d : Die) : State := tDie d fun x => { x with power := true, boot := .running, safe := false }

/-- A command in flight with an opcode, dword 0 giving no class, and no other word set. -/
def tEntry (opcode : Nat) : Cmd := { id := 0, func := 0, qid := 1, dw := BitVec.ofNat 32 opcode :: List.replicate 15 0 }

theorem witness_StepRunsFront : State.reset.pending = [] := by decide +kernel

theorem witness_MemoryCanonical : Memory.wf State.reset.mem = true ∧ step State.reset = .next (idle State.reset) :=
  ⟨by decide, rfl⟩

theorem witness_TheBarrierHolds : onField (.heartbeatTimeout 2) = true ∧ onHub .memoryInitDone = true
    ∧ exec (.heartbeatTimeout 2) State.reset = .next State.reset ∧ exec .memoryInitDone State.reset = .next State.reset :=
  ⟨by decide, by decide, rfl, rfl⟩

theorem witness_RegisterWrites :
    F.TRN_CTL_ENABLE.acc = .rw ∧ F.TRN_OSV_CTL_FOC_EN.acc = .rw ∧ F.KRF_RXCTL_OVERFLOW.acc = .w1c
    ∧ F.REC_PWRTAB_PEAK.acc = .st ∧ F.KRF_TXCTL_PUSH.acc = .sc
    ∧ State.reset.fieldFind 2 0 0xFFFC = none
    ∧ ((State.reset.fieldFind 2 0 0x0).map fun r => r.1) ≠ none
    ∧ State.reset.mayReach (Init.ofCore 0) 0 true = true
    ∧ (State.reset.put (hubAt .glb) F.GLB_LOCK_LOCK 1).mayReach (Init.ofCore 0) 0 true = false := by decide +kernel

theorem witness_StagedGroups : State.reset.isWaiting .spnCeil = false ∧ groupOk State.reset .spnCeil = true
    ∧ State.isWaiting { State.reset with groups := [.spnCeil] } .spnCeil = true := by decide +kernel

theorem witness_FlitReceived :
    let s := tPort 2 fun p => { p with state := .up }
    s.ports[(2 : Die)].state = .up ∧ s.ports[(2 : Die)].fieldRx.good = none ∧ s.ports[(2 : Die)].fieldRx.since + 1 < 64
    ∧ s.ports[(2 : Die)].fieldRx.opens[(0 : Fin 6)] = none ∧ tagLate s.ports[(2 : Die)].fieldRx.expect[(0 : Fin 6)] 255 = false
    ∧ State.reset.ports[(2 : Die)].state ≠ .up ∧ flitGood (flitOf 0x01 255 7) = true ∧ flitGood 1 = false
    ∧ contClass 0x30 = none ∧ msgInfo 0x30 = none := by decide +kernel

theorem witness_FlitsSent :
    let s := tPort 2 fun p => { p with
      state := .up, fieldRx := { p.fieldRx with opens := p.fieldRx.opens.set 1 (some (.taking (testMsg 0x11 .k1 1 0) 0 1)) } }
    let t := tPort 2 fun p => { p with state := .up, hubTx := { p.hubTx with replay := [(3, 0)], resend := [(3, 0)], nakOf := some 3, nakRun := 3 } }
    let u := tPort 2 fun p => { p with state := .up, hubTx := { p.hubTx with queue := [testMsg 0x01 .k0 0 0] } }
    s.ports[(2 : Die)].state = .up ∧ s.ports[(2 : Die)].fieldRx.waiting = false ∧ s.ports[(2 : Die)].hubTx.resend = []
    ∧ s.ports[(2 : Die)].fieldRx.opens[kIdx .k1] = some (.taking (testMsg 0x11 .k1 1 0) 0 1)
    ∧ t.ports[(2 : Die)].hubTx.resend = [(3, 0)] ∧ t.ports[(2 : Die)].state = .up
    ∧ u.ports[(2 : Die)].hubTx.first .k0 = some (testMsg 0x01 .k0 0 0) ∧ u.ports[(2 : Die)].hubTx.may .k0 = true
    ∧ ∀ k ∈ [KClass.k0, .k1, .k2, .k3, .k4, .k5], s.ports[(2 : Die)].hubTx.may k = false := by decide +kernel

theorem witness_PortsAndHeartbeats :
    let s (f : Port → Port) := tPort 2 f
    (s fun p => { p with state := .training, lanes := 4 }).ports[(2 : Die)].state = .training ∧ lanesOk 2 4 = true ∧ lanesOk 1 1 = true
    ∧ (s fun p => { p with state := .training, failed := 1 }).ports[(2 : Die)].failed ≠ 0
    ∧ (s fun p => { p with state := .up }).ports[(2 : Die)].state = .up
    ∧ State.reset.hasDie 2 = true ∧ State.reset.ports[(2 : Die)].state = .down ∧ State.reset.dies[(2 : Die)].hot = false
    ∧ (tRun 2).dies[(2 : Die)].power = true ∧ State.reset.dies[(2 : Die)].power = false := by decide +kernel

theorem witness_HaltsAndResets :
    let s := tDie 2 fun x => { x with power := true, boot := .running, resumed := true }
    let t := tDie 2 fun x => { x with power := true, boot := .running, answers := [(7, 0)] }
    let h : Port := { halts := [{ msg := testMsg 0x03 .k0 0 0, sends := 3 }], resets := [{ msg := testMsg 0x05 .k0 0 0, sends := 2 }] }
    let u := tPort 2 fun _ => h
    s.dies[(2 : Die)].power = true ∧ s.dies[(2 : Die)].safe = true ∧ s.dies[(2 : Die)].resumed = true ∧ s.dieRuns 2 = true
    ∧ s.dies[(2 : Die)].answers.reverse.find? (·.1 = 7) = none ∧ s.dies[(2 : Die)].waitingResets = [] ∧ s.dies[(2 : Die)].items = []
    ∧ t.dies[(2 : Die)].answers.reverse.find? (·.1 = 7) = some (7, 0) ∧ u.ports[(2 : Die)].halts = h.halts
    ∧ u.ports[(2 : Die)].resets = h.resets ∧ haltOf (BitVec.ofNat 64 (haltWord (.stopBay 3))) = .stopBay 3
    ∧ haltOf (0 : Word64) = .safe ∧ (tRun 2).dies[(2 : Die)].safe = false := by decide +kernel

theorem witness_MessageWords :
    let s := tDie 2 fun x => { x with power := true }
    s.dies[(2 : Die)].power = true ∧ partOf 2 4 = true ∧ s.dieRuns 2 = false ∧ s.dies[(2 : Die)].chunks = []
    ∧ F.KRF_TXCTL_PUSH.of 0 = 0 ∧ State.reset.ports[(2 : Die)].owed = none ∧ 0 < State.reset.ports[(2 : Die)].txFree
    ∧ (State.reset.ports[(2 : Die)].push 0x10 0).isSome = true ∧ State.reset.ports[(2 : Die)].push 0x01 0 = none
    ∧ F.KRF_RXCTL_OVERFLOW.of 0 = 0
    ∧ ((tCmd { tEntry 0x98 with wait := .regs 0 0 }).qen.cmds.find? fun c => c.wait = .regs 0 0) = some { tEntry 0x98 with wait := .regs 0 0 } := by
  decide +kernel

theorem witness_WorkTaken :
    let s := tRun 2
    let h := workHead (BitVec.ofNat 64 (2 ^ 56 + 1))
    s.dies[(2 : Die)].power = true ∧ s.dieRuns 2 = true ∧ h.kind = WorkKind.code .read ∧ h.len = WorkKind.len .read
    ∧ WorkKind.inRange .read 0 = true ∧ bayOf 2 h.bay = some 0 ∧ s.dies[(2 : Die)].safe = false
    ∧ s.has (recA 0) F.REC_CTL_ENABLE = false ∧ (s.put (recA 0) F.REC_CTL_ENABLE 1).has (recA 0) F.REC_CTL_ENABLE = true
    ∧ WorkKind.inRange .record 0 = true ∧ WorkKind.inRange .seek 0 = true ∧ WorkKind.inRange .verify 0 = true
    ∧ vmechLow (tRun 1) = false ∧ State.reset.dies[(2 : Die)].safe = true := by decide +kernel

/-- A hub that waits for a fill of register 0 under item 5 of die 2. -/
def tFill : State :=
  { State.reset with
    lnd := { State.reset.lnd with misses := [{ id := 0, slot := 3, log := 2, cls := 1, func := 0, qid := 1, entry := some 0, begun := true, item := some 5 }] }
    crew := { State.reset.crew with
      items := [{ die := 2, item := 5, func := 0, qid := 1, cls := 1, kind := 1, bay := 0, what := .fill 0 }] } }

theorem witness_WorkAnswers :
    let w : Word64 := BitVec.ofNat 64 (2 * 16 * 2 ^ 32)
    (tFill.hubItem 2 5).isSome = true ∧ ((tFill.hubItem 2 5).map fun x => tFill.underReset x) = some false
    ∧ (tFill.fillOf 2 w).isSome = true ∧ ((tFill.fillOf 2 w).map fun x => tFill.fillDropped x) = some false
    ∧ ((tFill.fillOf 2 w).map fun x => tFill.boardsHeld x) = some 0 ∧ State.reset.hubItem 2 5 = none
    ∧ (((tFill.setLine 0 { slot := 3, log := 2, st := .filling, boards := 0xFFFF }).fillOf 2 w).map fun x =>
        (tFill.setLine 0 { slot := 3, log := 2, st := .filling, boards := 0xFFFF }).boardsHeld x) = some 0xFFFF
    ∧ WStatus.ofCode 0 = some .done ∧ WStatus.ofCode 0x0E = some .dropped ∧ WStatus.ofCode 0xFF = none
    ∧ bayOf 2 0 = some 0 ∧ bitOf (2 ^ 20) 20 = true := by decide +kernel

theorem witness_LogPlaces : (20 : Nat) < 21 ∧ (6 : Nat) < 7 ∧ (2 : Nat) < 3 := by decide +kernel

theorem witness_LbaPlaces : (0 : Nat) < lbaEnd ∧ lbaEnd - 1 < lbaEnd ∧ (placeOfLba (lbaEnd - 1)).log < logsPerLayer := by decide +kernel

theorem witness_ModulationReads : ∀ n ∈ [0, 15, 7, 8], n < 16 := by decide +kernel

theorem witness_FrontEnd :
    let s := State.reset.put (sfeA 0) F.SFE_CTL_SPOT_EN 1
    let t := tSpot fun x => { x with froze := true }
    s.isWaiting (.sfeLoop 0) = false ∧ s.isWaiting (.sfeSnag 0) = false ∧ s.isWaiting (.sfeForecast 0) = false
    ∧ clippedBlock s 0 (Vector.replicate 7 [5, 6]) = false ∧ spotOn s 0 0 = true ∧ spotOn s 0 1 = false
    ∧ s.sfe[(0 : Bay)].spots[(0 : Fin 7)].froze = false ∧ sfeFrozen s 0 0 = false
    ∧ t.sfe[(0 : Bay)].spots[(0 : Fin 7)].froze = true
    ∧ (State.reset.setSfe 0 { acq := true, acqLeft := 0 }).sfe[(0 : Bay)].acq = true
    ∧ State.reset.get (sfeA 0) F.SFE_CTL_SPOT_EN = 0 := by decide +kernel

theorem witness_SnagsAndForecasts :
    let s := State.reset.put (sfeA 0) F.SFE_CTL_SPOT_EN 1
    let low := List.replicate 64 (-100 : Rat)
    let t := tSpot fun x => { x with snag := true }
    let u := tSpot fun x => { x with windows := [{ src := 1, opensAt := 0 }] }
    let v := tSpot fun x => { x with windows := [{ src := 1, opensAt := 0, closesAt := some 5, isOpen := true }] }
    spotOn s 0 0 = true ∧ s.sfe[(0 : Bay)].spots[(0 : Fin 7)].snag = false ∧ s.sfe[(0 : Bay)].holdSeek = false
    ∧ s.sfe[(0 : Bay)].acq = false ∧ snagDetected s 0 0 low low = true ∧ snagDetected s 0 0 [] [] = false
    ∧ t.sfe[(0 : Bay)].spots[(0 : Fin 7)].snag = true ∧ t.sfe[(0 : Bay)].spots[(0 : Fin 7)].longRep = false
    ∧ snagOver t 0 0 [] [] = false
    ∧ (u.sfe[(0 : Bay)].spots[(0 : Fin 7)].windows.map (·.isOpen)) = [false]
    ∧ (v.sfe[(0 : Bay)].spots[(0 : Fin 7)].windows.map (·.closesAt)) = [some 5]
    ∧ (State.reset.setSfe 0 { velOk := true }).sfe[(0 : Bay)].velOk = true := by decide +kernel

theorem witness_Synchronisation :
    let good : BlazeCand := { off := 0, dist := 0, addr := 5, check := crc12 5 }
    let far : BlazeCand := { off := 3, dist := 0, addr := 5, check := crc12 5 }
    addressPasses good.addr good.check = true ∧ addressPasses 5 (crc12 5 + 1) = false
    ∧ bestCand 2 (some 1) [good] = some good ∧ bestCand 2 (some 24) [far] = some far ∧ bestCand 2 (some 24) [] = none
    ∧ 1 < far.off.natAbs ∧ State.reset.lat[(0 : Bay)].spots[(0 : Fin 7)].sync = .search
    ∧ nextAddr 4 = nextAddr 4 := by decide +kernel

theorem witness_SlicesAndCodewords :
    let s := (State.reset.put (latDieA 2) F.LAT_CTL_ENABLE 1).put (latA 0) F.LAT_CTL_ENABLE 1
    let sl : Slice := { bay := 0, spot := 0, cls := 0, slot := 0, start := 0, len := 4096 }
    let t := s.setLatDie 2 { current := some sl, slices := [sl] }
    let c : Codeword := { bay := 0, spot := 0, layer := 0, area := 0, slot := 0, llr := [] }
    let u := State.reset.setLatDie 2 { ldpc := [c] }
    let v := State.reset.setLatSpot 0 0 { addr := 64, sync := .locked, frames := [{ addr := 0, use := .used }] }
    let r : LogAsm := { layer := 0, area := 0, log := 0, item := none, retry := true }
    State.reset.latDie[(2 : Die)].current = none ∧ t.latDie[(2 : Die)].current = some sl
    ∧ t.latDie[(2 : Die)].slices.find? (·.cls = 0) = some sl ∧ t.has (latDieA 2) F.LAT_CTL_ENABLE = true
    ∧ u.latDie[(2 : Die)].ldpc = [c] ∧ State.reset.latDie[(2 : Die)].ldpc = []
    ∧ v.slotPlace 0 0 0 = some (0, 0) ∧ v.slotPlace 0 0 5 = some (0, 0) ∧ (v.put (latDieA 2) F.LAT_CTL_ENABLE 1).has (latDieA 2) F.LAT_CTL_ENABLE = true
    ∧ (State.reset.setLatSpot 0 0 { frames := [{ addr := 0, use := .used }] }).slotPlace 0 0 0 = none
    ∧ (State.reset.setLat 0 { logs := [r] }).lat[(0 : Bay)].logs.any (·.retry) = true
    ∧ (State.reset.lat[(0 : Bay)].spots[(0 : Fin 7)]).qual.codewords < chVal State.reset 0 0 F.LAT_CHCFG_BER_WIN := by decide +kernel

/-- A bay whose loops are locked and whose recorder stands in a state. -/
def tBay (f : Rec → Rec) : State :=
  ((tRec f).setOsv 0 { f := .locked, t := .locked }).setDie 2 { State.reset.dies[(2 : Die)] with safe := false }

theorem witness_Recording :
    let r : RecItem := { item := 5, cls := 1, layer := 0, area := 0, log := 0, mask := 0 }
    let l : BuiltLog := { item := 5, layer := 0, area := 0, log := 0, boards := [] }
    let w : Writing := { log := l, band := 0, power := 0, strat := [] }
    let s := tRec fun x => { x with items := [r], state := .check }
    let t := tBay fun x => { x with built := [l], checks := [(0, 0, 0, true)], state := .write }
    s.recp[(0 : Bay)].items.find? (·.item = 5) = some r ∧ s.recp[(0 : Bay)].items.find? (·.item = 6) = none
    ∧ boardsArrived r = true ∧ boardsArrived { r with mask := 1 } = false ∧ s.recp[(0 : Bay)].built.length < 2
    ∧ headerOk 0 0 0 0 [] = false ∧ s.recp[(0 : Bay)].state ≠ .idle
    ∧ (tRec fun x => { x with writing := some w }).recp[(0 : Bay)].writing = some w
    ∧ t.recp[(0 : Bay)].built.find? (·.item = 5) = some l ∧ t.recp[(0 : Bay)].state = .write ∧ logChecked t.recp[(0 : Bay)] l = true
    ∧ t.osv[(0 : Bay)].move = none ∧ wiCause t 0 = false ∧ t.dies[(2 : Die)].safe = false ∧ wiCause State.reset 0 = true
    ∧ t.has (recA 0) F.REC_CTL_ENABLE = false
    ∧ opcNeeded t 0 0 = true
    ∧ opcNeeded ((t.setRec 0 { t.recp[(0 : Bay)] with opc := [{ layer := 0, temp := 0, next := 0 }] }).put (recA 0) F.REC_CTL_ENABLE 1) 0 0
        = false := by decide +kernel

theorem witness_RecordSpeed :
    let s := (tRec fun x => { x with state := .slew, built := [{ item := 5, layer := 0, area := 0, log := 0, boards := [] }] }).setSpn 0
      { state := .run, conf := 1, omega := 0 }
    let t := s.setSpn 0 { state := .run, omega := 6000 * 251327412287183459077 / 400000000000000000000 }
    s.recp[(0 : Bay)].state = .slew ∧ recordSpeed s 0 = false ∧ t.recp[(0 : Bay)].state = .slew ∧ recordSpeed t 0 = true
    ∧ (t.setRec 0 { t.recp[(0 : Bay)] with opcDue := true }).recp[(0 : Bay)].opcDue = true := by decide +kernel

theorem witness_LaserLink :
    let s := tRec fun x => { x with linkBad := 3 }
    let t := tRec fun x => { x with opcDue := true }
    let u := State.reset.setMounted 0 true
    s.recp[(0 : Bay)].linkFault = false ∧ s.recp[(0 : Bay)].linkBad = 3 ∧ t.recp[(0 : Bay)].opcDue = true
    ∧ t.recp[(0 : Bay)].writing = none ∧ State.reset.recp[(0 : Bay)].opcDue = false ∧ u.mounted 0 = true
    ∧ u.has (recA 0) F.REC_CTL_OPC_EN = true ∧ State.reset.mounted 0 = false ∧ reportFrameOk 0 = false
    ∧ reportGood State.reset 0 0 = true := by decide +kernel

theorem witness_FocusStates :
    let on (f : Osv → Osv) := (tOsv f).put (osvA 0) F.TRN_OSV_CTL_FOC_EN 1
    let ends := tOsv fun x => { x with f := .sweep, sweepPos := 32767, tries := 2 }
    let peak := tOsv fun x => { x with f := .sweep, risen := true, peaks := 9, target := 7 }
    State.reset.has (osvA 0) F.TRN_OSV_CTL_FOC_EN = false ∧ (tRun 2).dies[(2 : Die)].safe = false
    ∧ (on fun x => x).has (osvA 0) F.TRN_OSV_CTL_FOC_EN = true ∧ F.TRN_OSV_CTL_FOC_EN.of 0 = 0
    ∧ F.TRN_OSV_CTL_FOC_EN.of 3 = 1 ∧ F.TRN_OSV_CTL_TRK_EN.of 3 = 1
    ∧ peak.osv[(0 : Bay)].f = .sweep ∧ peak.osv[(0 : Bay)].risen = true ∧ peak.osv[(0 : Bay)].counting = false
    ∧ peak.osv[(0 : Bay)].peaks + peak.osv[(0 : Bay)].target = 16 ∧ |peak.osv[(0 : Bay)].fe| ≤ fcapBand peak 0
    ∧ peak.osv[(0 : Bay)].sweepMax * 15 / 100 ≤ peak.osv[(0 : Bay)].sum3
    ∧ (tOsv fun x => { x with f := .sweep, risen := true, sweepMax := 1 }).osv[(0 : Bay)].sum3 < 15 / 100
    ∧ (32767 : Rat) ≤ ends.osv[(0 : Bay)].sweepPos ∧ 2 ≤ ends.osv[(0 : Bay)].tries
    ∧ (tOsv fun x => { x with f := .sweep, sweepPos := 32767, counting := true, peaks := 17 }).osv[(0 : Bay)].peaks = 17
    ∧ (tOsv fun x => { x with f := .capture, flockRun := 32 }).osv[(0 : Bay)].flockRun = 32
    ∧ (tOsv fun x => { x with f := .locked, lowRun := 16, t := .locked }).osv[(0 : Bay)].lowRun = 16
    ∧ (tOsv fun x => { x with f := .hold, highRun := 16 }).osv[(0 : Bay)].highRun = 16
    ∧ (tOsv fun x => { x with f := .hold, tries := 1 }).osv[(0 : Bay)].tries < 2
    ∧ (tOsv fun x => { x with f := .capture, tries := 1 }).osv[(0 : Bay)].phase = .idle := by decide +kernel

theorem witness_TrackingAndMoves :
    let addr (k : Nat) := 5 + k * 2 ^ 39
    let due := tOsv fun x => { x with checkDue := true, t := .locked, f := .locked }
    let seek : MoveReq := ⟨.seek 0 0 0, .register⟩
    let land := tOsv fun x => { x with phase := .landing, t := .locked, move := some seek }
    addressPasses (addr 3) (crc12 (addr 3)) = true ∧ addressPasses (addr 6) (crc12 (addr 6)) = true
    ∧ addrLayer (addr 3) = due.osv[(0 : Bay)].layer ∧ bitsOf (addr 3) 41 39 = 3 ∧ bitsOf (addr 6) 41 39 = 6
    ∧ addressPasses (addr 3 + 2 ^ 44) (crc12 (addr 3 + 2 ^ 44)) = true ∧ addrLayer (addr 3 + 2 ^ 44) ≠ due.osv[(0 : Bay)].layer
    ∧ due.osv[(0 : Bay)].checkDue = true ∧ due.osv[(0 : Bay)].t = .locked ∧ due.osv[(0 : Bay)].move = none
    ∧ (tOsv fun x => { x with t := .capture, tlockRun := 32 }).osv[(0 : Bay)].tlockRun = 32
    ∧ (State.reset.has (osvA 0) F.TRN_OSV_CTL_SPIRAL_CHK = true
        ∨ (State.reset.put (osvA 0) F.TRN_OSV_CTL_SPIRAL_CHK 1).has (osvA 0) F.TRN_OSV_CTL_SPIRAL_CHK = true)
    ∧ (State.reset.put (osvA 0) F.TRN_OSV_CTL_SPIRAL_CHK 0).has (osvA 0) F.TRN_OSV_CTL_SPIRAL_CHK = false
    ∧ (tOsv fun x => { x with f := .locked, mount := some 3 }).osv[(0 : Bay)].mount = some 3
    ∧ State.reset.osv[(0 : Bay)].f = .off ∧ (400 : Int).natAbs ≤ 400 ∧ (-400 : Int).natAbs ≤ 400
    ∧ (tOsv fun x => { x with f := .locked, move := some seek }).osv[(0 : Bay)].pending = none
    ∧ State.reset.recp[(0 : Bay)].writing = none ∧ 160 * 400 ≤ 1000 * State.reset.get (osvA 0) F.TRN_SEEK_CFG_FINE_RANGE
    ∧ (tOsv fun x => { x with phase := .layerKick 1 1, passedMin := true }).osv[(0 : Bay)].sumRef / 2 ≤
        (tOsv fun x => { x with phase := .layerKick 1 1, passedMin := true }).osv[(0 : Bay)].sum3
    ∧ land.osv[(0 : Bay)].phase = .landing ∧ land.osv[(0 : Bay)].move = some seek
    ∧ areaSwath 0 0 - areaSwath 0 0 = 0
    ∧ State.reset.osv[(0 : Bay)].seeks < State.reset.get (osvA 0) F.TRN_SEEK_CFG_SEEK_TRIES := by decide +kernel

theorem witness_TurnRegisters :
    let on := State.reset.put (trnA 2) F.TRN_CTL_ENABLE 1
    let s := on.put (trnA 2) F.TRN_Sn_CFG_ENABLE 1 3
    let t := State.reset.setSlot 2 0 { st := .fault }
    on.has (trnA 2) F.TRN_CTL_ENABLE = true ∧ on.trn[(2 : Die)].clkLost = false ∧ on.dies[(2 : Die)].clkLost = false
    ∧ s.has (trnA 2) F.TRN_Sn_CFG_ENABLE 3 = true ∧ (∀ k : Fin 48, on.has (trnA 2) F.TRN_Sn_CFG_ENABLE k = false)
    ∧ t.trn[(2 : Die)].slots[(0 : Fin 48)].st = .fault ∧ F.TRN_Sn_CMD_CLEAR.of 1 = 0
    ∧ State.reset.has (trnA 2) F.TRN_CTL_ENABLE = false
    ∧ F.TRN_CTL_TURN_CYC.of 0 < 500 ∧ State.reset.has (trnA 2) F.TRN_Sn_CFG_BANK 0 = false
    ∧ State.reset.isWaiting (.trnSlot 2 0) = false ∧ (findReg (trnA 2) regs_trn 0x6000).isSome = true
    ∧ findReg (trnA 2) regs_trn (0x4000 + 127) = none := by decide +kernel

theorem witness_SpindleCommands :
    let ok := (((tRun 2).put (spnA 0) F.SPN_CTL_ENABLE 1).put (trnA 2) F.TRN_CTL_ENABLE 1).put (trnA 2) F.TRN_CTL_TURN_CYC 500
    let run := ok.setSpn 0 { state := .run, omega := 0 }
    spnBarred State.reset 0 = true ∧ spnBarred ok 0 = false ∧ run.spn[(0 : Bay)].state = .run
    ∧ run.spn[(0 : Bay)].speed - spnDecBand run 0 ≤ 1000 ∧ spnBarred run 0 = false
    ∧ (ok.setSpn 0 { state := .run, omega := 700 }).spn[(0 : Bay)].speed - spnDecBand ok 0 > 1000
    ∧ (ok.setSpn 0 { state := .decel }).spn[(0 : Bay)].speed ≤ 1000
    ∧ ((ok.put (spnA 0) F.SPN_CTL_PARK 1).setSpn 0 { parked := true }).spn[(0 : Bay)].parked = true
    ∧ (ok.put (spnA 0) F.SPN_CTL_PARK 1).has (spnA 0) F.SPN_CTL_PARK = true ∧ spnUvTrip ok 0 ≤ (12000 : Rat) / 1000
    ∧ ok.spn[(0 : Bay)].state = .stopped ∧ ok.spn[(0 : Bay)].parked = false ∧ ok.dies[(2 : Die)].safe = false
    ∧ 1000 ≤ spnStopShort ok 0 ∧ F.SPN_CTL_ENABLE.of 1 = 1 ∧ F.SPN_CTL_ENABLE.of 0 = 0 ∧ F.SPN_CTL_CLR_FAULT.of 1 = 0 := by
  decide +kernel

theorem witness_SpindleStarts :
    let s (x : Spn) := State.reset.setSpn 0 x
    (s { state := .openLoop, cycles := 8, mode := .run }).spn[(0 : Bay)].cycles = 8
    ∧ (s { state := .catching, catchOn := true, cycles := 7, catchCyc := 16 }).spn[(0 : Bay)].catchOn = true
    ∧ (s { state := .catching }).spn[(0 : Bay)].catchOn = false ∧ spnUvTrip State.reset 0 ≤ (12000 : Rat) / 1000
    ∧ 0 < spnStopShort State.reset 0
    ∧ (s { state := .run, lossRun := 16 }).spn[(0 : Bay)].valid = true
    ∧ (s { state := .flywheel, cycles := 255 }).get (spnA 0) F.SPN_OBS_RELOCK_CYC ≤ 255
    ∧ (s { state := .flywheel, flyCyc := 24 }).spn[(0 : Bay)].fault = none
    ∧ (s { state := .short }).dies[(2 : Die)].clkLost = false
    ∧ ((s { state := .coast }).setDie 2 { clkLost := true }).dies[(2 : Die)].clkLost = true := by decide +kernel

theorem witness_SlotLaws :
    let c : SlotCfg := slotCfg State.reset 2 0
    let x : TrnSlot := { hand := some 0 }
    c.law = .linear ∧ x.hand = some 0 ∧ ({} : TrnSlot).hand = none ∧ ({} : TrnSlot).slewing = false
    ∧ [(0 : Fin 48), 1].Pairwise (· < ·) ∧ lowest State.reset 2 [0, 1] = some 0
    ∧ ({ c with law := .band } : SlotCfg).law = .band ∧ 0 ≤ c.hoRate ∧ 0 ≤ c.hyst := by decide +kernel

theorem witness_SpindlePeriodsAndCeil :
    let s := (State.reset.put (trnA 2) F.TRN_CTL_ENABLE 1).put (trnA 2) F.TRN_CTL_TURN_CYC 500
    let m := (State.reset.put ceilA F.SPN_CEIL_SCALE_LO 0).put ceilA F.SPN_CEIL_SCALE_HI 1000
    let on := m.put ceilA F.SPN_CEIL_CFG_MODE 1
    let pwm := m.put ceilA F.SPN_CEIL_CFG_MODE 2
    spnClockCfg s 0 = false ∧ s.dies[(2 : Die)].clkLost = false ∧ spnClockCfg State.reset 0 = true
    ∧ (State.reset.setSpn 0 { state := .run, omega := 12601 * 251327412287183459077 / 400000000000000000000 }).spn[(0 : Bay)].speed = 12601
    ∧ (State.reset.setSpn 0 { state := .run }).spn[(0 : Bay)].fault = none ∧ (State.reset.setSpn 0 { state := .run }).spn[(0 : Bay)].foc = true
    ∧ (State.reset.setSpn 0 { state := .run }).spn[(0 : Bay)].vbr < spnUvTrip State.reset 0
    ∧ m.isWaiting .spnCeil = false ∧ on.get ceilA F.SPN_CEIL_CFG_MODE = 1 ∧ pwm.get ceilA F.SPN_CEIL_CFG_MODE = 2
    ∧ on.get ceilA F.SPN_CEIL_SCALE_LO = 0 ∧ on.get ceilA F.SPN_CEIL_SCALE_HI = 1000 ∧ on.ceil.valid = false
    ∧ on.ceil.replaced = false ∧ (on.put (spnA 0) F.SPN_CEIL_IN_RELAY_EN 1).has (spnA 0) F.SPN_CEIL_IN_RELAY_EN = true
    ∧ State.reset.spn[(0 : Bay)].stale = false ∧ State.reset.get (spnA 0) F.SPN_BUDGET_RTH ≠ 0 := by decide +kernel

theorem witness_AxesMove :
    let s (x : Axis) := (State.reset.setAxis 2 0 x).put (axpA 2) F.AXP_An_CTL_ENABLE 1
    let home := (s {}).put (axpA 2) F.AXP_An_HOMECFG_HOME_EN 1
    let dead : State := { State.reset with axp := State.reset.axp.set 2 { dead := true } }
    axEnabled (s {}) 2 0 = true ∧ axEnabled State.reset 2 0 = false ∧ groupOf (s {}) 2 0 = none
    ∧ moveRefusal (s { homed := true }) 2 0 (axTarget (s {}) 2 0) = none
    ∧ (home.has (axpA 2) F.AXP_An_HOMECFG_HOME_EN = true ∧ home.axp[(2 : Die)].axes[(0 : Fin 8)].homed = false)
    ∧ ((s {}).put (axpA 2) F.AXP_An_SOFT_MIN_SOFT_MIN 1).axp[(2 : Die)].axes[(0 : Fin 8)].st = .idle
    ∧ axTarget ((s {}).put (axpA 2) F.AXP_An_SOFT_MIN_SOFT_MIN 1) 2 0 < axSoftMin ((s {}).put (axpA 2) F.AXP_An_SOFT_MIN_SOFT_MIN 1) 2 0
    ∧ (s { st := .kept, kept := 5 }).axp[(2 : Die)].axes[(0 : Fin 8)].st = .kept
    ∧ towardsLimit (s { st := .kept, kept := 5 }) 2 0 5 = false
    ∧ (s { st := .fault, fault := some .homingFault }).axp[(2 : Die)].axes[(0 : Fin 8)].fault ≠ some .switchChatter
    ∧ dead.axp[(2 : Die)].dead = true ∧ State.reset.axp[(2 : Die)].dead = false
    ∧ F.AXP_An_CTL_MODE.of 0xFFFFFFFF ≥ 2 ∧ F.AXP_An_CTL_ENABLE.of 0 = 0 ∧ F.AXP_An_CTL_MODE.of 0 < 2 := by decide +kernel

theorem witness_AxesGroups :
    let s := (((State.reset.put (axpA 2) F.AXP_GRPg_CFG_ENABLE 1).put (axpA 2) F.AXP_GRPg_CFG_MEMBERS 3).put (axpA 2) F.AXP_An_CTL_ENABLE 1
      0).put (axpA 2) F.AXP_An_CTL_ENABLE 1 1
    let s := (s.put (axpA 2) F.AXP_An_HOMECFG_HOME_EN 0 0).put (axpA 2) F.AXP_An_HOMECFG_HOME_EN 0 1
    s.has (axpA 2) F.AXP_GRPg_CFG_ENABLE 0 = true ∧ grpMembers s 2 0 = [0, 1] ∧ grpRefusal s 2 0 = none
    ∧ grpRefusal State.reset 2 0 = some .disabled ∧ s.axp[(2 : Die)].groups[(0 : Fin 4)].st = .idle
    ∧ grpResumeRefusal (s.setGrp 2 0 { st := .kept }) 2 0 = none := by decide +kernel

theorem witness_GroupsAndSwitches :
    let s := State.reset.setSwitch 2 0 { raw := true }
    s.axp[(2 : Die)].sw[(0 : Fin 12)].raw ≠ s.axp[(2 : Die)].sw[(0 : Fin 12)].level
    ∧ State.reset.axp[(2 : Die)].sw[(0 : Fin 12)].raw = State.reset.axp[(2 : Die)].sw[(0 : Fin 12)].level
    ∧ s.axp[(2 : Die)].axes[switchAxis 2 0].st ≠ .homing := by decide +kernel

theorem witness_YarderWork :
    let j : TransferJob := { src := 4096, dst := 4097, item := none }
    let s := tYrd fun y => { y with state := .transfer, motion := some .parkQ, job := some j }
    let g := tYrd fun y => { y with state := .transfer, motion := some .comp, job := some j }
    let d := tYrd fun y => { y with state := .doorHold, before := .transfer, job := some j, door := true }
    let i := (tYrd fun y => { y with state := .inventory, scanning := some 3 })
    let h := (tRun 1).put (axpA 1) F.AXP_An_CTL_ENABLE 1 axG.val
    motionDone s .parkQ j = true ∧ s.yrd.away = none ∧ headDisc g = false ∧ g.yrd.motion = some .comp
    ∧ d.yrd.timedOut = false ∧ d.yrd.before = .transfer ∧ State.reset.yrd.door = false
    ∧ (tYrd fun y => { y with state := .doorHold, before := .fault }).yrd.orphan = false
    ∧ (tYrd fun y => { y with state := .fault }).yrd.cycled = false
    ∧ i.yrd.scanning = some 3 ∧ h.dies[(1 : Die)].safe = false ∧ h.yrd.state = .idle ∧ headDisc h = false
    ∧ axEnabled h 1 axG = true ∧ groupOf h 1 axG = none ∧ h.axp[(1 : Die)].axes[axG].st = .idle
    ∧ motionDone ((tYrd fun y => { y with state := .transfer, motion := some .toP, job := some j }).put yrdA F.YRD_MOTION_APPROACH_DZ 0) .toP j = true
    ∧ Motion.next .toP = some .swingP := by decide +kernel

/-- A bay whose disc is mounted, with both loops locked, every spot and detector on, and its recorder idle. -/
def tReading : State :=
  let s := ((State.reset.setMounted 0 true).setOsv 0 { f := .locked, t := .locked }).put (cruA 0) F.CRU_CTL_ENABLE 1
  (s.put (bayAt .sfe 0) F.SFE_CTL_SPOT_EN 0x7F).put (bayAt .lat 0) F.LAT_BAY_CTL_DET_EN 0x7F

theorem witness_CruiseCalibration :
    let pend (s : State) := s.setCru 0 { pending := [(.now, 0)] }
    let run (r : CruRun) := State.reset.setCru 0 { run := some r, borrowed := some 3 }
    let q := run { layer := 0, todo := [.item .focus 3], points := [4, 1, 0, 1], repeats := 4 }
    let a := run { layer := 0, todo := [.item .asym 3], first := some [1] }
    let warm := State.reset.put (bayAt .sfe 0) F.SFE_TEMP_TEMP 1000
    cruMayStart (pend tReading) 0 = true ∧ cruFirst (pend tReading) 0 = true ∧ (pend tReading).cru[(0 : Bay)].run = none
    ∧ (pend tReading).isWaiting (.cruCruise 0) = false
    ∧ (cruPlan ((pend tReading).put (cruA 0) F.CRU_CTL_ITEM_EN 1) 0 [.now]).head? = some (.item .focus 3)
    ∧ cruMayStart State.reset 0 = false ∧ State.reset.cru[(0 : Bay)].pending = []
    ∧ (pend State.reset).cru[(0 : Bay)].starved = false
    ∧ (48 : Int) < |warm.geti (bayAt .sfe 0) F.SFE_TEMP_TEMP - warm.geti (cruA 0) F.CRU_TEMPREF_TOPT_REF|
    ∧ State.reset.get (cruA 0) F.CRU_CFG_CRU_DELTA = 48
    ∧ q.cru[(0 : Bay)].borrowed = some 3 ∧ cruFit [4, 1, 0, 1, 4] = some 0 ∧ cruFit [0, 1, 2, 1, 0] = none
    ∧ a.cru[(0 : Bay)].run.isSome = true ∧ cruAgree .asym [1] [5 / 4] = true ∧ cruAgree .asym [1] [3 / 2] = false
    ∧ (run { layer := 0, todo := [.release 3] }).isWaiting (.cruReadPower 0) = false
    ∧ (run { layer := 0, todo := [.release 3] }).isWaiting (.sfeTrim 0) = false
    ∧ (run { layer := 0, todo := [.snapshot] }).cru[(0 : Bay)].state ≠ .paused
    ∧ (State.reset.setCru 0 { run := some { layer := 0, todo := [] } }).cru[(0 : Bay)].borrowed = none
    ∧ State.reset.has (bayAt .osv 0) F.TRN_OSV_CTL_FOC_EN = false ∧ tReading.has (cruA 0) F.CRU_CTL_ENABLE = true
    ∧ cruEnabled (tReading.put (cruA 0) F.CRU_CTL_ITEM_EN 0x7F) 0 .adc = true := by decide +kernel

theorem witness_FillsAndHandOvers :
    let s := State.reset.setLine 0 { slot := 3, log := 2, st := .dirty, boards := 1 }
    ((tFill.miss 0).map fun m => (m.closing, m.item)) = some (false, some 5) ∧ State.reset.miss 0 = none
    ∧ (s.line 0).st = .dirty ∧ s.miu.flips = [] ∧ Memory.wf s.mem = true ∧ State.reset.line 0 = {}
    ∧ State.reset.lnd.misses = [] ∧ State.reset.lnd.room = [] ∧ State.reset.lnd.parked = []
    ∧ State.reset.fieldReady = false ∧ State.reset.lnd.range = none := by decide +kernel

theorem witness_BadLine :
    let s : State := { State.reset with miu := { State.reset.miu with flips := [(0, 3)] } }
    (s.checkRange 0 0 8 0).2 ≠ [] := by decide +kernel

theorem witness_RangeEngine :
    let o : RangeOp := { kind := .unlock, slot := 0, slots := 1, lba := 0, count := 1, cls := 0, force := false }
    let s : State := { State.reset with lnd := { State.reset.lnd with range := some { op := o } } }
    let l (x : Line) := (State.reset.setLine 0 x).line 0
    s.lnd.range ≠ none ∧ State.reset.lnd.range = none ∧ s.lnd.queue = [] ∧ s.fieldReady = false
    ∧ State.reset.get (hubAt .lnd) F.LND_RANGE_SLOT_SLOT + 4096 ≤ 4096 ∧ 4096 < State.reset.get (hubAt .lnd) F.LND_RANGE_SLOT_SLOT + 4097
    ∧ State.reset.get (hubAt .lnd) F.LND_RANGE_LBA_LBA + State.reset.get (hubAt .lnd) F.LND_RANGE_COUNT_COUNT ≤ 302080000
    ∧ State.reset.has (hubAt .lnd) F.LND_CTRL_ENABLE = false
    ∧ (l { st := .clean, lock := true }).lock = true ∧ (l { st := .recording }).st = .recording
    ∧ (l { st := .filling }).st = .filling := by decide +kernel

theorem witness_LandingRegisters :
    let s := State.reset.put (hubAt .lnd) F.LND_STATUS_READY 1
    let w : State := { State.reset with groups := [.lndWindow] }
    s.has (hubAt .lnd) F.LND_STATUS_READY = true ∧ State.reset.has (hubAt .lnd) F.LND_STATUS_READY = false
    ∧ State.reset.get (hubAt .lnd) F.LND_CFG_LOCK_MAX + (waysOf (State.reset.get (hubAt .lnd) F.LND_WIN_WAYS_WAYS)).length ≤ 12
    ∧ 12 < State.reset.get (hubAt .lnd) F.LND_CFG_LOCK_MAX + (waysOf 0xFFFF).length ∧ State.reset.lnd.tags = []
    ∧ F.LND_LIMITS_DIRTY_MAX.of (64 * 65536) = 64 ∧ F.LND_LIMITS_DIRTY_MAX.of (63 * 65536) = 63 ∧ F.LND_CFG_LOCK_MAX.of 0 = 0
    ∧ w.isWaiting .lndWindow = true ∧ State.reset.isWaiting .lndWindow = false ∧ (State.reset.fn 0).d3 = false
    ∧ (tPwr fun p => { p with boot := .ready }).pwr.boot = .ready
    ∧ State.reset.windowAddr 0 4 = none ∧ State.reset.has (hubAt .miu) F.MIU_INJECT_ARM = false := by decide +kernel

theorem witness_Window :
    let a := hubAt .lnd
    let s := (State.reset.put a F.LND_WIN_MAP_SIZE_LOG2 20).put a F.LND_WIN_WAYS_WAYS 1
    let s := (s.put (hubAt .vlk) F.VLK_REGIONn_LIMIT_LIMIT 0xFFFFFFFF).put (hubAt .vlk) F.VLK_REGIONn_PERM_PERM 0xFFFF
    s.windowAddr 0 4 = some 0 ∧ s.windowAddr 65532 4 = some 65532 ∧ s.windowAddr (2 ^ 20) 4 = none
    ∧ s.allowed 6 landingAt true = true ∧ s.allowed 6 landingAt false = true ∧ s.miu.flips = [] ∧ Memory.wf s.mem = true := by
  decide +kernel

theorem witness_ErrorsCorrected : (71 : Nat) < 72 ∧ syndrome 0 = 0 ∧ syndrome (2 ^ 71) = column 71 ∧ syndrome (2 ^ 0) = column 0
    ∧ checkB 0 = .good ∧ checkB (2 ^ 63) = .mended (2 ^ 63) ∧ checkB (2 ^ 64) = .mended (2 ^ 64) := by decide +kernel

theorem witness_Integrity :
    let s := (State.reset.put (hubAt .miu) F.MIU_CTL_PATROL_EN 1).put (hubAt .lnd) F.LND_STATUS_READY 1
    s.has (hubAt .miu) F.MIU_CTL_PATROL_EN = true ∧ s.has (hubAt .lnd) F.LND_STATUS_READY = true ∧ s.miu.flips = []
    ∧ s.clock ≤ s.miu.lapAt + s.get (hubAt .miu) F.MIU_CTL_LAP_WARN * 60000000000
    ∧ (State.reset.put (hubAt .miu) F.MIU_CTL_PATROL_EN 0).has (hubAt .miu) F.MIU_CTL_PATROL_EN = false
    ∧ F.MIU_INJECT_F0.of 0 = 0 ∧ F.MIU_INJECT_F1.of 0 = 0 ∧ 71 < F.MIU_INJECT_F0.of 0xFFFFFFFF := by decide +kernel

theorem witness_Sessions :
    let x : Session := { id := 3, st := .opened, func := 0, expiry := 9, last := 7, modes := 1 }
    let s (y : Session) : State := { State.reset with vlk := { State.reset.vlk with sessions := [y], timeSet := true } }
    (s x).session 3 = some x ∧ State.reset.session 3 = none ∧ (s x).vlk.timeSet = true ∧ max (s x).now (s x).vlk.hwm < x.expiry
    ∧ x.first ≤ 0 ∧ 0 + 8 - 1 ≤ x.last ∧ bitOf x.modes 0 = true ∧ bitOf x.modes 1 = false
    ∧ (s { x with st := .closing }).session 3 = some { x with st := .closing } ∧ (s x).qen.cmds = []
    ∧ State.reset.freeContext = some 0 := by decide +kernel

theorem witness_BoardsResolve :
    let e : Extent := { title := 1, offset := 0, count := 4, slot := 2, lba := 0, keyIdx := 0, serial := 0, st := .valid }
    let s : State := { State.reset with vlk := { State.reset.vlk with extents := [{ e with slot := 5 }, e] } }
    s.resolve 1 3 = some e ∧ s.resolve 1 4 = none ∧ State.reset.resolve 0 0 = none := by decide +kernel

theorem witness_MountsAndLookups :
    let s := State.reset.put (hubAt .vlk) F.VLK_SANDBOX_OPEN_EN 1
    let m := tOsv fun x => { x with f := .locked, mount := some 7 }
    let job : MountJob := { slot := 4, bay := some 0, cls := 0, func := 0, qid := 0, owners := [], stage := .read }
    let d : BayDisc := { slot := 4 }
    let c : State := { State.reset with crew := { State.reset.crew with mounts := [job] } }
    let r : State := { State.reset.put (hubAt .vlk) F.VLK_CTL_REBUILD_EN 1 with vlk := { State.reset.vlk with stale := [9, 6] } }
    let k : Lookup := { cmd := 0, title := 1, boards := [0], cls := 0, func := 0, qid := 1 }
    let l : State := { tCmd (tEntry 1) with vlk := { State.reset.vlk with lookups := [k] } }
    let g : GenRun := { gen := generationOf [], layers := [0], cause := .full, cls := 0 }
    let w := State.reset.setHubBay 0 { disc := some d, gens := [g] }
    s.has (hubAt .vlk) F.VLK_SANDBOX_OPEN_EN = true ∧ State.reset.has (hubAt .vlk) F.VLK_SANDBOX_OPEN_EN = false
    ∧ m.osv[(0 : Bay)].mount = some 7 ∧ m.lat[(0 : Bay)].mount = none ∧ (List.replicate 512 (0 : Int)).length = 512
    ∧ c.mountOf 4 = some job ∧ State.reset.mountOf 4 = none
    ∧ r.has (hubAt .vlk) F.VLK_CTL_REBUILD_EN = true ∧ r.vlk.rebuild = none ∧ r.vlk.lookups = []
    ∧ least (r.vlk.stale.filter fun n => !r.vlk.passed.contains n) = some 6 ∧ r.mountedDisc 6 = none
    ∧ l.vlk.lookups.find? (fun (k : Lookup) => k.cmd == 0) = some k ∧ (l.cmd 0).isSome = true
    ∧ w.crew.bays[(0 : Bay)].gens = [g] ∧ w.slotDirty 4 = false ∧ w.dieBlocked 2 = some stUnpowered
    ∧ ((w.setPort 2 { state := .up }).put (hubAt .pwr) F.PWR_STATUS_FIELD_READY 1).dieBlocked 2 = none
    ∧ ((w.setPort 2 { state := .up }).put (hubAt .pwr) F.PWR_STATUS_FIELD_READY 1).fieldReady = true := by decide +kernel

/-- A function's queue and a state that holds it. -/
def tQueue : Queue := { func := 0, qid := 1, depth := 2, sqBase := 0, cqBase := 0, cls := 0, vector := 0, ien := false }
def tQen (x : Queue) : State := { State.reset with qen := { State.reset.qen with queues := [x] } }

/-- A function that may issue requests. -/
def tMaster (s : State) : State := s.setFn 0 { s.fn 0 with cfg := { bme := true } }

theorem witness_DoorbellsAndFetch :
    let x := { tQueue with sqTail := 1 }
    let s := tMaster (tQen x)
    let away := { tQueue with cqTail := 0 }
    (tQen tQueue).queue 0 1 = some tQueue ∧ State.reset.queue 0 1 = none ∧ tQueue.depth ≤ 2
    ∧ ringSpan away.depth away.cqHead away.cqTail < ringSpan away.depth away.cqHead 1
    ∧ ¬ ringSpan 2 0 1 < ringSpan 2 0 1
    ∧ State.reset.qen.queues.filter State.reset.fetchable = []
    ∧ ({ s with pwr := { s.pwr with boot := .ready } } : State).qen.queues.filter
        ({ s with pwr := { s.pwr with boot := .ready } } : State).fetchable = [x]
    ∧ s.qen.fetchNo % 16 = 0 ∧ s.miu.flips = [] := by decide +kernel

theorem witness_EntriesAndCompletions :
    let p : Post := { cid := 0, func := 0, qid := 1, tag := 0, status := 0, result := 0 }
    let s := tMaster { tQen tQueue with qen := { (tQen tQueue).qen with posts := [p] } }
    let r : HostRead := { func := 0, what := .fetch 1 0 1, prior := true, pieces := [{ addr := 0, len := 64, st := .done, data := [] }] }
    let t : State := { tQen tQueue with ep := { State.reset.ep with reads := [r] } }
    s.queue 0 1 = some tQueue ∧ s.qen.posts.find? (fun p => p.func == 0 && p.qid == 1) = some p ∧ tQueue.cqRoom = true
    ∧ ({ tQueue with cqTail := 1 } : Queue).cqRoom = false ∧ s.master 0 = true ∧ 16 ≤ (s.fn 0).cfg.mps ∧ tQueue.cqBase % 16 = 0
    ∧ State.reset.master 0 = false ∧ State.reset.fetchOf 0 1 = none ∧ t.fetchOf 0 1 = some (r, 0, 1) ∧ r.settled = true
    ∧ (tQen { tQueue with withheld := 1 }).queue 0 1 = some { tQueue with withheld := 1 } := by decide +kernel

theorem witness_QueueCuts :
    let c : Cut := { func := 0, qid := 1, kind := .halt }
    let s : State := { tQen { tQueue with st := .halting } with qen := { (tQen { tQueue with st := .halting }).qen with cuts := [c] } }
    (tQen tQueue).queue 0 (1 % 1024) = some tQueue ∧ tQueue.st = .active
    ∧ (tQen tQueue).qen.cuts.any (fun (c : Cut) => c.func == 0 && decide (c.kind = .halt)) = false
    ∧ s.qen.cuts.find? (fun (c : Cut) => c.func == 0 && decide (c.kind = .halt)) = some c ∧ c.ports = [] ∧ s.qen.posts = []
    ∧ s.qen.cmds = [] ∧ (s.queue 0 1).isSome = true
    ∧ F.QEN_MQ_CTL_CFG_ERR.of 1 = 0 ∧ F.QEN_MQ_CTL_ENABLE.of 65536 = 1 ∧ F.QEN_MQ_CTL_DEPTH.of 4096 = 4096
    ∧ State.reset.has (funAt .qen 0) F.QEN_MQ_CTL_ENABLE = false ∧ State.reset.queue 0 0 = none
    ∧ (State.reset.put (funAt .qen 0) F.QEN_MQ_CTL_ENABLE 1).has (funAt .qen 0) F.QEN_MQ_CTL_ENABLE = true := by decide +kernel

theorem witness_CommandsAndFences :
    let s (n : Nat) := tCmd (tEntry n)
    (s 5).cmd 0 = some (tEntry 5) ∧ State.reset.cmd 0 = none ∧ (s 5).startable 0 5 = some { tEntry 5 with st := .running }
    ∧ (s 5).startable 0 1 = none ∧ (tEntry 5).fenceBefore = false
    ∧ ({ s 1 with qen := { (s 1).qen with cmds := [tEntry 5, { tEntry 1 with id := 1 }] } } : State).startable 1 1 = none := by
  decide +kernel

theorem witness_DataCommands : ∀ op ∈ [0x01, 0x02, 0x03, 0x04, 0x05, 0x06, 0x07],
    (tCmd (tEntry op)).cmd 0 = some (tEntry op) ∧ (tEntry op).st = .checked ∧ (tCmd (tEntry op)).mayStart (tEntry op) = true
    ∧ (tEntry op).opcode = op ∧ (tEntry op).delivery = 0 ∧ (tCmd (tEntry op)).slotMounted ((tEntry op).address / 2 ^ 32) = false
    ∧ (tCmd (tEntry op)).lndOn = false ∧ bitOf ((tEntry op).word 7) 0 = false ∧ (tCmd (tEntry op)).lnd.writers = []
    ∧ (tCmd (tEntry op)).lnd.range = none ∧ (tCmd (tEntry op)).fieldReady = false := by decide +kernel

theorem witness_RecordRefused :
    let c := { tEntry 3 with dw := (tEntry 3).dw.set 6 1 }
    let s := (tCmd c).put (hubAt .lnd) F.LND_CTRL_ENABLE 1
    c.recordLogs = [(0, 0)] ∧ (tCmd c).recordRefused 0 0 = true ∧ s.recordRefused 0 0 = false ∧ s.cmd 0 = some c
    ∧ s.mayStart c = true ∧ s.slotMounted 0 = false ∧ c.st = .checked ∧ c.opcode = 3 ∧ c.delivery = 0 := by decide +kernel

theorem witness_QueueAndBookCommands : ∀ op ∈ [0x80, 0x81, 0x82, 0x84, 0x85, 0x9A, 0x9B, 0x9C],
    let c := tEntry op
    let s := tCmd c
    s.cmd 0 = some c ∧ c.st = .checked ∧ s.mayStart c = true ∧ c.opcode = op ∧ s.queue c.func (c.word 7 % 1024) = none
    ∧ ({ s with qen := { s.qen with queues := [{ tQueue with qid := 0 }] } } : State).queue c.func (c.word 7) = some { tQueue with qid := 0 }
    ∧ s.vlk.timeSet = false ∧ c.opens = none ∧ s.lnd.range = none ∧ bitOf (c.word 7) 0 = false ∧ s.lndOn = false
    ∧ RangeKind.ofCode (bitsOf (2 * 65536) 18 16) = some .preload := by decide +kernel

theorem witness_RegData : (tCmd { tEntry 0x98 with wait := .regs 0 0 }).cmd 0 = some { tEntry 0x98 with wait := .regs 0 0 } := by
  decide +kernel

theorem witness_DiscCommands : ∀ op ∈ [0x88, 0x89, 0x8A, 0x8C, 0x8D],
    let c := tEntry op
    let s := tCmd c
    let d : BayDisc := { slot := 0, mounted := true }
    let t := s.setHubBay 0 { disc := some d }
    s.cmd 0 = some c ∧ c.st = .checked ∧ s.mayStart c = true ∧ c.opcode = op ∧ s.slotMounted 0 = false ∧ t.slotMounted 0 = true
    ∧ t.crew.bays[(0 : Bay)].disc = some d ∧ s.crew.bays[(0 : Bay)].disc = none ∧ s.code.changer = true
    ∧ s.dieBlocked 2 = some stUnpowered ∧ (s.setPort 2 { state := .up }).dieBlocked 2 = none
    ∧ s.bayRecording 0 = false ∧ s.genPending 0 = false ∧ s.slotDirty 0 = false ∧ s.yrd.occupied = [] ∧ s.bayOfSlot 0 = none
    ∧ t.bayOfSlot 0 = some 0 ∧ (s.setYrd { s.yrd with occupied := [0] }).yrd.occupied = [0]
    ∧ (s.put (bayAt .cru 0) F.CRU_CTL_ENABLE 1).has (bayAt .cru 0) F.CRU_CTL_ENABLE = true := by decide +kernel

theorem witness_DeviceCommands : ∀ op ∈ [0x90, 0x91, 0x92, 0x93, 0x94, 0x95, 0x96, 0x98, 0x99, 0x9D],
    let c := tEntry op
    let s := tCmd c
    s.cmd 0 = some c ∧ c.st = .checked ∧ s.mayStart c = true ∧ c.opcode = op ∧ (∀ y ∈ s.qen.cmds, y.opcode = 0x90 → 0 ≤ y.id)
    ∧ s.fwu.sched = none ∧ c.word 7 = 0 ∧ (s.fwu.banks[s.altBank]).st = .empty
    ∧ (2 ^ 32 * c.word 9 + c.word 8 < s.now + 1000000) ∧ s.fwu.run ≠ .trial ∧ s.journal.confirm = false
    ∧ bitOf (c.word 7) 9 = false ∧ s.featureRefused 1 0 600 = some stInvalidField ∧ s.featureRefused 1 0 0 = none ∧ s.hicSense 162 = 2 := by decide +kernel

/-- The hub once it has booted to a stage. -/
def tBoot (b : HubBoot) : State := tPwr fun p => { p with boot := b }

/-- An access to a BAR of the physical function. -/
def tBar (off len : Nat) (value : Option Nat) (bar4 : Bool) : Bar0Req := { func := 0, bar4, off, len, value }

theorem witness_HostAccesses :
    let up := tBoot .ready
    let lock := up.put (hubAt .glb) F.GLB_LOCK_LOCK 1
    State.reset.pwr.boot = .held ∧ up.pwr.boot ≠ .held ∧ barSize 0 false = 0x4000000 ∧ barSize 0 true = 0x8000 ∧ barSize 1 true = 0x2000
    ∧ up.fnOn 1 = false ∧ up.fnOn 0 = true ∧ (up.fn 0).d3 = false
    ∧ (tBar 0x8000 2 (some 0) true).len ≠ 4 ∧ (tBar 0x8000 2 none true).len ≠ 8
    ∧ (tBar 0 4 (some 0) true).bar4 = true ∧ (tBar (16 * msixSize 0) 4 (some 0) true).off < barSize 0 true
    ∧ lock.locked = true ∧ lock.barActs 0 0 = true ∧ lock.mayReach (barInit 0) (barAddr 0 0) true = false
    ∧ lock.mayReach (barInit 0) (barAddr 0 0) false = false ∧ up.locked = false ∧ up.barActs 0 0 = true
    ∧ (up.hubWrite (barInit 0) (barAddr 0 0) 0).barActs 0 4 = true
    ∧ (tBoot .rom).barActs 0 0x40000 = false ∧ (tBoot .rom).barActs 0 0x40004 = false ∧ (tBoot .rom).locked = false := by
  decide +kernel

theorem witness_PowerStatesAndResets :
    let on := State.reset.setFn 0 { cfg := { bme := true } }
    let vf : State := { on with ep := { on.ep with numVfs := 1 } }
    State.reset.fnOn 0 = true ∧ State.reset.fnOn 1 = false ∧ (State.reset.fn 0).cfg.bme = false ∧ (on.fn 0).cfg.bme = true
    ∧ (on.fn 0).d3 = false ∧ ((State.reset.setFn 0 { d3 := true }).fn 0).d3 = true ∧ State.reset.ep.numVfs = 0 ∧ vf.fnOn 1 = true
    ∧ State.reset.fwu.sched = none ∧ State.reset.ep.perst = true ∧ (tBoot .ready).pwr.boot ≠ .held
    ∧ ({ on with ep := { on.ep with perst := false } } : State).ep.perst = false := by decide +kernel

/-- A host read with one piece, which waits for a tag or is outstanding. -/
def tRead (st : PieceState) (prior : Bool) : HostRead :=
  { func := 0, what := .fetch 1 0 1, prior, pieces := [{ addr := 0, len := 4, st }] }
def tReads (l : List HostRead) : State := { tMaster State.reset with ep := { (tMaster State.reset).ep with reads := l } }

theorem witness_HostReadsAndMessages :
    let good : CompletionIn := { tag := 7, count := 4, data := [1, 2, 3, 4] }
    let out := tReads [tRead (.out 7) true]
    let dead : State := { State.reset with ep := { State.reset.ep with dead := [(7, 0, true)] } }
    let quiet : State := { State.reset with ep := { State.reset.ep with dead := [(7, 0, false)] } }
    let e : MsixEntry := { ctrl := 0, data := 5 }
    let ready := (State.reset.setFn 0 { cfg := { bme := true, msixEn := true } }).setMsix 0 3 e
    let phy : Bytes := [0, 0, 0, 0, 0, 0, 1, 0]
    let flash : State := ((tBoot .ready).putBytes (flashAt + bankAt 0) phy).putBytes (flashAt + bankAt 0 + 64) [7]
    State.reset.ep.reads = [] ∧ State.reset.tagOf 7 = none ∧ State.reset.ep.dead = []
    ∧ dead.ep.dead.find? (fun e => e.1 == 7) = some (7, 0, true) ∧ quiet.ep.dead.find? (fun e => e.1 == 7) = some (7, 0, false)
    ∧ good.last = true ∧ ({ good with count := 8 } : CompletionIn).last = false
    ∧ out.tagOf 7 = some (tRead (.out 7) true, { addr := 0, len := 4, st := .out 7 })
    ∧ fitsPiece 64 { addr := 0, len := 4, st := .out 7 } good = true
    ∧ fitsPiece 64 { addr := 0, len := 4, st := .out 7 } { good with count := 3 } = false
    ∧ ({ good with status := .abort } : CompletionIn).last = true
    ∧ (tReads [tRead .waiting true]).ep.reads = [tRead .waiting true] ∧ (tReads [tRead .waiting true]).master 0 = true
    ∧ (tReads [tRead .waiting false, tRead .waiting true]).ep.reads = [tRead .waiting false, tRead .waiting true]
    ∧ State.reset.fnOn 0 = true ∧ State.reset.fnOn 1 = false ∧ msixSize 0 = 1023 ∧ ready.msixReady 0 3 = true
    ∧ State.reset.msixReady 0 3 = false ∧ (State.reset.msixEntry 0 3).pend = false
    ∧ (ready.setMsix 0 3 { e with pend := true }).msixReady 0 3 = true
    ∧ ((ready.setMsix 0 3 { e with pend := true }).msixEntry 0 3).pend = true
    ∧ flash.pwr.boot = .ready ∧ flash.fwu.run ≠ .recovery ∧ flash.fwu.bank = 0
    ∧ ((tallyParts (flash.flash (bankAt 0) 4096)).find? fun (p : Part) => p.type == 7).isSome = true
    ∧ ((tallyParts ((tBoot .ready).flash (bankAt 0) 4096)).find? fun (p : Part) => p.type == 7) = none := by decide +kernel

theorem witness_Interrupts :
    let a := hubAt .hic
    let hic (f : Hic → Hic) : State := { State.reset with hic := f State.reset.hic }
    let s : State := State.reset.put a F.HIC_SRCn_CFG_SENSE 2 191
    let t : State := ((s.put a F.HIC_SRCn_CFG_PRIORITY 3 191).put a F.HIC_SRCn_CFG_TARGET 1 191)
    let p : State := { t with hic := { t.hic with pend := [192] } }
    hicReserved 0 = true ∧ hicReserved 192 = false ∧ s.hicSense 192 = 2 ∧ s.hic.levels.contains 192 = false
    ∧ (s.put a F.HIC_SRCn_CFG_SENSE 0 191).hicSense 192 = 0 ∧ (s.put a F.HIC_SRCn_CFG_SENSE 3 191).hicSense 192 = 3
    ∧ (s.put a F.HIC_SRCn_CFG_SENSE 4 191).hicSense 192 = 4
    ∧ (hic fun h => { h with serv := [(192, 0)], latched := [192] }).hicServing 192 = true
    ∧ (hic fun h => { h with pend := [192] }).hicServing 192 = false ∧ 192 ∉ s.hic.pend ∧ 192 ∉ s.hic.latched
    ∧ (List.range 256).filter (State.reset.hicEligible 0) = [] ∧ (List.range 256).filter (p.hicEligible 0) = [192]
    ∧ (192, 0) ∉ s.hic.serv ∧ (192, 0) ∈ (hic fun h => { h with serv := [(192, 0)] }).hic.serv
    ∧ F.HIC_SRCn_CFG_SENSE.of (5 * 2 ^ F.HIC_SRCn_CFG_SENSE.lo) = 5 ∧ F.HIC_SRCn_CFG_SENSE.of (4 * 2 ^ F.HIC_SRCn_CFG_SENSE.lo) = 4
    ∧ s.hicServing 192 = false := by decide +kernel

/-- Channel 0 of the skid DMA with a descriptor, and the part that holds it. -/
def tSkd (f : Skd → Skd) (d : SkdDesc) : State :=
  let s := State.reset.putDesc 0 d
  (s.setSkd 0 (f s.skd[(0 : Fin 32)])).putResidue 0 d.len

/-- A descriptor that moves 64 bytes within the scratch memory in bursts of 64. -/
def tDesc : SkdDesc := { src := scratchAt, dst := scratchAt + 4096, len := 64, ctrl := 0x6003, next := 0 }

theorem witness_SkidTransfers :
    let run := tSkd (fun x => { x with active := true, code := .running }) tDesc
    let last := tSkd (fun x => { x with active := true, last := true }) tDesc
    let chain := tSkd (fun x => { x with active := true, last := true }) { tDesc with next := scratchAt + 64 }
    let shut := tSkd (fun x => { x with active := true, fetch := some scratchAt }) tDesc
    let load := (shut.put (hubAt .vlk) F.VLK_REGIONn_LIMIT_LIMIT 0xFFFFFFFF).put (hubAt .vlk) F.VLK_REGIONn_PERM_PERM 0xFFFF
    let host := tSkd (fun x => { x with active := true }) { tDesc with ctrl := 0x306003 }
    let mem := load.putBytes scratchAt ([0, 0, 0, 0, 0, 0, 0, 0] ++ leBytes 8 (scratchAt + 4096) ++ leBytes 4 64 ++ leBytes 4 0x6003)
    State.reset.has (hubAt .skd) F.SKD_STATUS_HALTED = false ∧ (State.reset.put (hubAt .skd) F.SKD_STATUS_HALTED 1).has (hubAt .skd) F.SKD_STATUS_HALTED = true
    ∧ (State.reset.skd[(0 : Fin 32)]).active = false ∧ (run.skd[(0 : Fin 32)]).active = true ∧ run.skdDesc 0 = tDesc
    ∧ (State.reset.skdDesc 0).len = 0 ∧ run.descOk {} tDesc = true ∧ run.descOk {} { tDesc with ctrl := 0 } = false
    ∧ (∀ e : Fin 32, State.reset.burstDue e = false) ∧ run.burstTurn = some 0 ∧ tDesc.shost = false
    ∧ host.burstTurn = some 0 ∧ (host.skdDesc 0).shost = true ∧ (host.skdDesc 0).dhost = true ∧ host.master 0 = false
    ∧ (tMaster host).master (host.skdDesc 0).func = true ∧ (tMaster host).burstTurn = some 0
    ∧ (run.putResidue 0 128).burstLen 0 < (run.putResidue 0 128).residue 0
    ∧ (last.skd[(0 : Fin 32)]).last = true ∧ (last.skd[(0 : Fin 32)]).descAt = none ∧ tDesc.irq = false ∧ (chain.skdDesc 0).next ≠ 0
    ∧ (load.skd[(0 : Fin 32)]).fetch = some scratchAt ∧ hubMemory scratchAt = some (5, 0)
    ∧ shut.mayReach (shut.skd[(0 : Fin 32)]).init scratchAt false = false ∧ load.mayReach (load.skd[(0 : Fin 32)]).init scratchAt false = true ∧ (mem.checkRange 5 0 32 3).2 = [] := by decide +kernel

/-- The part in its ROM stage with a journal in a state. -/
def tJournal (st : JState) (confirm : Bool) : State := (tBoot .rom).writeJournal { st, confirm }

/-- A trial set that runs. -/
def tTrial (f : Fwu → Fwu) : State :=
  let s := tBoot .ready
  { s with fwu := f { s.fwu with run := .trial, settings := s.fwu.settings.set 0 (some { schema := 1, seq := 1 }) } }

theorem witness_FirmwareUpdate :
    let load := tCmd { tEntry 0x90 with wait := .engine }
    let x : Schedule := { time := 5, noFlush := false, confirm := false, window := 600 }
    let sch : State := { tBoot .ready with fwu := { State.reset.fwu with sched := some x } }
    let act (st : ActStep) : State := tFwu fun w => { w with act := some { sched := x, step := st } }
    let item : HubItem := { die := 2, item := 5, func := 0, qid := 1, cls := 1, kind := 6, bay := 0, what := .fill 0 }
    let busy : State := { act .post with crew := { State.reset.crew with items := [item] } }
    let lit := (((tTrial id).put (hubAt .miu) F.MIU_STATUS_INIT_DONE 1).put (hubAt .lnd) F.LND_STATUS_READY 1).put (hubAt .glb) F.GLB_LOCK_LOCK 1
    let fit := (List.finRange 8).foldl (fun (s : State) (d : Die) =>
      ((s.setDie d { s.dies[d] with boot := .running }).setPort d { s.ports[d] with state := .up }).put (dieAt .trn d) F.TRN_CTL_ENABLE 1) lit
    let conf := (tTrial id).writeJournal { st := .trial, confirm := true }
    (load.qen.cmds.find? fun (c : Cmd) => c.opcode == 0x90 && decide (c.wait = .engine)) = some { tEntry 0x90 with wait := .engine }
    ∧ State.reset.qen.cmds = [] ∧ State.reset.fwu.sched = none ∧ sch.fwu.sched = some x ∧ sch.now < x.time
    ∧ x.time ≤ ({ sch with pwr := { sch.pwr with now := 5 } } : State).now ∧ sch.fwu.act = none ∧ sch.pwr.boot = .ready
    ∧ State.reset.fwu.act = none ∧ (act .drain).fwu.act = some { sched := x, step := .drain } ∧ (act .flush).fwu.act = some { sched := x, step := .flush }
    ∧ (act .post).fwu.act = some { sched := x, step := .post } ∧ (act .post).crew.items = [] ∧ busy.crew.items = [item]
    ∧ (tJournal .pending false).journal.st = .pending ∧ (tJournal .pending false).pwr.boot = .rom ∧ State.reset.pwr.boot = .held
    ∧ (tTrial id).onTrial = true ∧ State.reset.onTrial = false ∧ (tTrial id).fwu.tested = false
    ∧ (tTrial fun w => { w with tested := true }).fwu.tested = true ∧ (tTrial id).selfTests = false ∧ fit.selfTests = true
    ∧ fit.onTrial = true ∧ fit.journal.confirm = false ∧ conf.journal.confirm = true ∧ conf.fwu.hostAsked = false
    ∧ State.reset.healthWaiters = [] := by decide +kernel

theorem witness_BootStages :
    let held (st : JState) : State := { tJournal st false with pwr := State.reset.pwr }
    let rom (s : State) : State := { s with
      ep := { s.ep with perst := false }
      pwr := { s.pwr with boot := .rom, now := s.pwr.keeper, mtime := 0, on := 2 ^ 30 - 1 - 2 ^ 8 - 2 ^ 9 }
      fwu := { s.fwu with banks := s.fwu.banks.map Bank.atBoot } }
    let settled (s : State) : State := (if (rom s).journalInUse.isNone then (rom s).writeJournal {} else rom s).applyBootBlock
    let die (f : DieSt → DieSt) : State := tDie 2 fun x => f { x with power := true, chunks := [(3, 0, true, [])] }
    State.reset.pwr.boot = .held ∧ State.reset.pwr.tripped = false ∧ State.reset.pwr.hot = false ∧ (tBoot .rom).pwr.boot ≠ .held
    ∧ (settled (held .steady)).journal.st = .steady ∧ (settled (held .pending)).journal.st = .pending
    ∧ (settled (held .checking)).journal.st = .checking ∧ (settled (held .trial)).journal.st = .trial
    ∧ ({ st := .partly, units := 3 } : Bank).st = .partly ∧ (tBoot .rom).journal.st ≠ .pending ∧ (tJournal .pending false).journal.st = .pending
    ∧ (tBoot .stump2).pwr.boot = .stump2 ∧ State.reset.fwu.notify = false
    ∧ State.reset.hasDie 2 = true ∧ State.reset.dies[(2 : Die)].power = false ∧ (die id).dies[(2 : Die)].power = true
    ∧ (die id).dies[(2 : Die)].chunks ≠ [] ∧ State.reset.dies[(2 : Die)].chunks = [] ∧ (die id).dies[(2 : Die)].boot = .romWait
    ∧ (die id).get (dieAt .fpw 2) F.FPW_BOOT_CRC_CRC = ((die id).dies[(2 : Die)].crc ^^^ 0xFFFFFFFF)
    ∧ (die fun x => { x with crc := 5 }).get (dieAt .fpw 2) F.FPW_BOOT_CRC_CRC ≠ (5 ^^^ 0xFFFFFFFF)
    ∧ 3 ≤ (die fun x => { x with crc := 5, fails := 2 }).dies[(2 : Die)].fails + 1 ∧ (die id).dies[(2 : Die)].failed = false
    ∧ State.reset.loadsDies = false ∧ (tBoot .ready).loadsDies = true ∧ (∀ e : Die, (tBoot .ready).dieReady e = true)
    ∧ (die id).dieReady 2 = false := by decide +kernel

theorem witness_SuppliesAndTime :
    let c := State.reset.code.ceilDie
    let die (f : DieSt → DieSt) : State := tDie c fun x => f { x with power := true, vmechOk := true, vmechAt := some 0 }
    State.reset.pwr.tripped = false ∧ (tPwr fun p => { p with tripped := true }).pwr.tripped = true ∧ State.reset.pwr.boot = .held
    ∧ (tBoot .ready).pwr.boot ≠ .held ∧ State.reset.hasDie 2 = true ∧ State.reset.hasDie 0 = true ∧ State.reset.hasDie 7 = true
    ∧ ({ State.reset with code := .bz2a } : State).hasDie 7 = false
    ∧ State.reset.dies[c].power = false ∧ (die id).dies[c].power = true ∧ (die id).dies[c].vmech.length ≤ 16
    ∧ (die id).vmechValid c = true ∧ State.reset.vmechValid c = false
    ∧ (die id).get (dieAt .fpw c) F.FPW_VMECH_CFG_LOW_MV = 10200 ∧ (die id).get (dieAt .fpw c) F.FPW_VMECH_CFG_HIGH_MV = 13800
    ∧ (die id).dies[c].vmechMv < 10200 ∧ (die fun x => { x with vmechMv := 12000 }).dies[c].vmechMv = 12000
    ∧ (die fun x => { x with vmechMv := 12000, low := true }).vmechValid c = true ∧ (die id).dies[c].low = false
    ∧ (die fun x => { x with vmechMv := 14000 }).dies[c].vmechMv = 14000 ∧ (die fun x => { x with high := true }).dies[c].high = true
    ∧ (die id).dies[c].high = false ∧ State.reset.pwr.frac < 2 ^ 24 ∧ State.reset.pwr.lost = false
    ∧ (tPwr fun p => { p with lost := true }).pwr.lost = true := by decide +kernel

theorem witness_DomainsIdleBaysAndJtag :
    let hold := State.reset.put (hubAt .pwr) F.PWR_HOLDw_HOLD 8 0
    let disc (m : Bool) : State := State.reset.setHubBay 0 { disc := some { slot := 0, mounted := m } }
    let up := (disc true).setPort 2 { state := .up }
    let ready := (disc true).put (hubAt .pwr) F.PWR_STATUS_FIELD_READY 1
    let open_ := (tBoot .ready).put (hubAt .vlk) F.VLK_DEBUG_LEVEL 0
    let map := (open_.put (hubAt .vlk) F.VLK_REGIONn_LIMIT_LIMIT 0xFFFFFFFF).put (hubAt .vlk) F.VLK_REGIONn_PERM_PERM 0xFFFF
    State.reset.mayGoOff 0 = false ∧ State.reset.mayGoOff 3 = true ∧ hold.held 3 = true ∧ hold.mayGoOff 3 = false
    ∧ fieldDomain 39 = some (2, 1) ∧ State.reset.mayGoOff 39 = true ∧ fieldDomain 33 = some (1, 3) ∧ State.reset.mayGoOff 33 = true
    ∧ fieldDomain 79 = some (7, 6) ∧ hubWakes 0 = false ∧ hubWakes 3 = true ∧ bitOf (tBoot .ready).pwr.on 3 = false
    ∧ bitOf (tPwr fun p => { p with on := 8 }).pwr.on 3 = true ∧ State.reset.crew.bays[(0 : Bay)].disc = none
    ∧ (disc false).crew.bays[(0 : Bay)].disc = some { slot := 0, mounted := false }
    ∧ up.crew.bays[(0 : Bay)].disc = some { slot := 0, mounted := true } ∧ up.bayIdle 0 = true ∧ up.pwr.idleSpin ≠ 0
    ∧ up.ports[dieOfBay 0].state = .up ∧ ready.crew.bays[(0 : Bay)].disc ≠ none ∧ ready.bayIdle 0 = true ∧ ready.pwr.idleBack ≠ 0
    ∧ ready.code.changer = true ∧ ready.fieldReady = true ∧ State.reset.fieldReady = false ∧ State.reset.pwr.boot = .held
    ∧ ((tBoot .ready).wake 29).jtagReaches scratchAt = false ∧ (open_.wake 29).jtagReaches scratchAt = true
    ∧ (open_.wake 29).mayReach { group := 7 } scratchAt true = false ∧ (map.wake 29).jtagReaches scratchAt = true
    ∧ (map.wake 29).mayReach { group := 7 } scratchAt true = true := by decide +kernel

theorem witness_TurnCommitAddress : State.reset.tapsOpen 1 0 = false ∧ State.reset.tapsOpen 2 1 = false ∧ State.reset.tapsOpen 7 1 = false := by
  decide +kernel

end Sys2Proof.Machine
end

section
/-!
Where the boards of a log lie (R63): the place of a board and the INDEX that stands at a place are inverse to each other.
-/
namespace Sys2Proof.Machine

/-! ## The place of a board -/

theorem spiralOf_lt (n i : Nat) : spiralOf n i < 7 := Nat.mod_lt _ (by decide)

theorem slotOf_bounds {i : Nat} (n : Nat) (hi : i < 21) : 3 * n ≤ slotOf n i ∧ slotOf n i ≤ 3 * n + 2 := by
  unfold slotOf
  omega

/-- The offset of R63 rotates with n, so that no board keeps its spiral from one log to the next. -/
theorem spiralOf_succ_ne (n i : Nat) : spiralOf (n + 1) i ≠ spiralOf n i := by
  unfold spiralOf
  omega

/-! ## The INDEX at a place -/

/-- Slot 3n + j carries row j of seven boards, and spiral k the board of that row that the offset n turns onto it. -/
theorem indexAt_slot {j : Nat} (k n : Nat) (hj : j < 3) : indexAt k (3 * n + j) = 7 * j + (k + 7 - n % 7) % 7 := by
  have hlog : (3 * n + j) / 3 = n := by omega
  have hrow : (3 * n + j) % 3 = j := by omega
  simp only [indexAt, hlog, hrow, Nat.mul_comm j 7]

theorem indexAt_lt {j : Nat} (k n : Nat) (hj : j < 3) : indexAt k (3 * n + j) < 21 := by
  rw [indexAt_slot k n hj]
  omega

/-! ## One names the other -/

/-- The place of a board names it: the slot gives its row, and turning the spiral back by n its column. -/
theorem indexAt_spiralOf_slotOf {i : Nat} (n : Nat) (hi : i < 21) : indexAt (spiralOf n i) (slotOf n i) = i := by
  have hrow : i / 7 < 3 := by omega
  have hcol : ((i + n) % 7 + 7 - n % 7) % 7 = i % 7 := by omega
  calc indexAt (spiralOf n i) (slotOf n i)
      = 7 * (i / 7) + ((i + n) % 7 + 7 - n % 7) % 7 := indexAt_slot _ n hrow
    _ = 7 * (i / 7) + i % 7 := by rw [hcol]
    _ = i := Nat.div_add_mod i 7

theorem spiralOf_indexAt {k j : Nat} (n : Nat) (hk : k < 7) (hj : j < 3) : spiralOf n (indexAt k (3 * n + j)) = k := by
  rw [indexAt_slot k n hj, spiralOf]
  omega

theorem slotOf_indexAt {j : Nat} (k n : Nat) (hj : j < 3) : slotOf n (indexAt k (3 * n + j)) = 3 * n + j := by
  rw [indexAt_slot k n hj, slotOf]
  omega

/-- Settles O15: the 21 boards and the 21 places of a log (seven spirals by three slots) name each other, by the two inverse
laws between a board's place and the INDEX at a place. -/
theorem logPlaces : Obligations.LogPlaces := by
  intro n i k j hi hk hj
  obtain ⟨hlow, hhigh⟩ := slotOf_bounds n hi
  exact ⟨spiralOf_lt n i, hlow, hhigh, rfl, rfl, indexAt_spiralOf_slotOf n hi,
    indexAt_lt k n hj, spiralOf_indexAt n hk hj, slotOf_indexAt k n hj, spiralOf_succ_ne n 20⟩

end Sys2Proof.Machine
end
section
/-!
What the two codes of chapter 12 mend and find. Class A (R380, R381): the 72 columns have odd weight and differ from one
another, so two flipped bits leave a syndrome that is not 0 and of even weight, which is no column. Class B (R382): two
flipped data bits lie in two rows or in two columns, and each of these has one flipped bit alone.
-/
namespace Sys2Proof.Machine

/-! ## The bits of a mask -/

theorem bitOf_eq_testBit (n i : Nat) : bitOf n i = n.testBit i := by
  rw [Nat.testBit_eq_decide_div_mod_eq]
  rfl

theorem b2n_eq_toNat (b : Bool) : b2n b = b.toNat := by
  cases b <;> rfl

theorem testBit_two_pow_add_two_pow {i j : Nat} (hij : i < j) (k : Nat) :
    (2 ^ i + 2 ^ j).testBit k = true ↔ k = i ∨ k = j := by
  have hor : 2 ^ i + 2 ^ j = 2 ^ j ||| 2 ^ i := by
    simpa [Nat.add_comm] using Nat.two_pow_add_eq_or_of_lt (Nat.pow_lt_pow_right one_lt_two hij) 1
  simp only [hor, Nat.testBit_or, Nat.testBit_two_pow, Bool.or_eq_true, decide_eq_true_eq]
  omega

/-- A sublist of 0 … n - 1 is known by its members, because it ascends. -/
theorem filter_range_eq {n : Nat} {p : Nat → Bool} {l : List Nat} (hl : l.Pairwise (· < ·))
    (hmem : ∀ k, k < n ∧ p k = true ↔ k ∈ l) : (List.range n).filter p = l :=
  (List.pairwise_lt_range.filter p).eq_of_mem_iff hl (by simpa using hmem)

theorem bitIndices_two_pow {n i : Nat} (hi : i < n) : bitIndices n (2 ^ i) = [i] := by
  refine filter_range_eq (List.pairwise_singleton _ i) fun k => ?_
  simp only [bitOf_eq_testBit, Nat.testBit_two_pow, decide_eq_true_eq, List.mem_singleton]
  omega

theorem bitIndices_two_pow_add_two_pow {n i j : Nat} (hij : i < j) (hj : j < n) : bitIndices n (2 ^ i + 2 ^ j) = [i, j] := by
  refine filter_range_eq (List.pairwise_pair.2 hij) fun k => ?_
  simp only [bitOf_eq_testBit, testBit_two_pow_add_two_pow hij, List.mem_cons, List.not_mem_nil, or_false]
  omega

/-! ## Weights -/

theorem weight_succ (n x : Nat) : weight (n + 1) x = weight n x + b2n (x.testBit n) := by
  cases h : x.testBit n <;> simp [weight, List.range_succ, bitOf_eq_testBit, b2n, h]

theorem weight_two_pow {n k : Nat} (hk : k < n) : weight n (2 ^ k) = 1 :=
  congrArg List.length (bitIndices_two_pow hk)

/-- A bit set in both numbers leaves the XOR, so the weight of the XOR falls short of the sum by an even number. -/
theorem weight_xor_mod_two (n x y : Nat) : weight n (x ^^^ y) % 2 = (weight n x + weight n y) % 2 := by
  induction n with
  | zero => rfl
  | succ n ih =>
    have hbit : b2n ((x ^^^ y).testBit n) % 2 = (b2n (x.testBit n) + b2n (y.testBit n)) % 2 := by
      rw [Nat.testBit_xor]
      cases x.testBit n <;> cases y.testBit n <;> rfl
    simp only [weight_succ]
    omega

/-! ## The columns of the class-A code (R380) -/

theorem weight_of_mem_dataColumns {x : Nat} (hx : x ∈ dataColumns) : weight 8 x = 3 ∨ weight 8 x = 5 := by
  rcases List.mem_append.1 hx with h3 | h5
  · exact .inl (by simpa using (List.mem_filter.1 h3).2)
  · exact .inr (by simpa using (List.mem_filter.1 (List.mem_of_mem_take h5)).2)

theorem dataColumns_nodup : dataColumns.Nodup := by
  refine (List.nodup_range.filter _).append ((List.nodup_range.filter _).take) fun x h3 h5 => ?_
  have hthree : weight 8 x = 3 := by simpa using (List.mem_filter.1 h3).2
  have hfive : weight 8 x = 5 := by simpa using (List.mem_filter.1 (List.mem_of_mem_take h5)).2
  omega

theorem dataColumns_length : dataColumns.length = 64 := by decide +kernel

theorem column_data {i : Nat} (hi : i < 64) : column i = dataColumns[i]'(by rwa [dataColumns_length]) := by
  rw [column, if_pos hi, List.getD_eq_getElem]

theorem column_check {i : Nat} (hi : 64 ≤ i) : column i = 2 ^ (i - 64) := by
  rw [column, if_neg (by omega)]

theorem weight_column_data {i : Nat} (hi : i < 64) : weight 8 (column i) = 3 ∨ weight 8 (column i) = 5 := by
  rw [column_data hi]
  exact weight_of_mem_dataColumns (List.getElem_mem _)

theorem weight_column_check {i : Nat} (hi : 64 ≤ i) (hlt : i < 72) : weight 8 (column i) = 1 := by
  rw [column_check hi]
  exact weight_two_pow (by omega)

theorem weight_column_odd {i : Nat} (hi : i < 72) : weight 8 (column i) % 2 = 1 := by
  rcases Nat.lt_or_ge i 64 with hdata | hcheck
  · have := weight_column_data hdata
    omega
  · have := weight_column_check hcheck hi
    omega

theorem column_ne_zero {i : Nat} (hi : i < 72) : column i ≠ 0 := by
  intro h
  have hodd := weight_column_odd hi
  rw [h] at hodd
  exact absurd hodd (by decide)

/-- No data bit has the column of a check bit: their weights differ. -/
theorem column_data_ne_check {i j : Nat} (hi : i < 64) (hj : 64 ≤ j) (hlt : j < 72) : column i ≠ column j := by
  intro h
  have hdata := weight_column_data hi
  have hcheck := weight_column_check hj hlt
  rw [h] at hdata
  omega

theorem column_injective {i j : Nat} (hi : i < 72) (hj : j < 72) (h : column i = column j) : i = j := by
  rcases Nat.lt_or_ge i 64 with hi' | hi' <;> rcases Nat.lt_or_ge j 64 with hj' | hj'
  · rw [column_data hi', column_data hj'] at h
    exact dataColumns_nodup.getElem_inj_iff.1 h
  · exact absurd h (column_data_ne_check hi' hj' hj)
  · exact absurd h.symm (column_data_ne_check hj' hi' hi)
  · rw [column_check hi', column_check hj'] at h
    have := Nat.pow_right_injective (le_refl 2) h
    omega

/-! ## Class A: decoding by the syndrome (R381) -/

theorem syndrome_two_pow {i : Nat} (hi : i < 72) : syndrome (2 ^ i) = column i := by
  simp [syndrome, bitIndices_two_pow hi]

theorem syndrome_two_pow_add_two_pow {i j : Nat} (hij : i < j) (hj : j < 72) :
    syndrome (2 ^ i + 2 ^ j) = column i ^^^ column j := by
  simp [syndrome, bitIndices_two_pow_add_two_pow hij hj]

theorem checkA_good {m : Nat} (h : syndrome m = 0) : checkA m = .good := if_pos h

theorem checkA_mended {m i : Nat} (hi : i < 72) (h : syndrome m = column i) : checkA m = .mended (2 ^ i) := by
  have hfind : (List.range 72).find? (fun k => column k == column i) = some i := by
    refine List.find?_range_eq_some.2 ⟨beq_self_eq_true _, List.mem_range.2 hi, fun k hk => ?_⟩
    have hne : column k ≠ column i := fun heq => hk.ne (column_injective (hk.trans hi) hi heq)
    simpa using hne
  simp only [checkA, h, column_ne_zero hi, if_false, hfind]

theorem checkA_bad {m : Nat} (h0 : syndrome m ≠ 0) (hcol : ∀ i, i < 72 → syndrome m ≠ column i) : checkA m = .bad := by
  have hfind : (List.range 72).find? (fun k => column k == syndrome m) = none :=
    List.find?_range_eq_none.2 fun k hk => by simpa using (hcol k hk).symm
  simp only [checkA, h0, if_false, hfind]

/-- Every column has odd weight, so a syndrome of even weight is none of them. -/
theorem checkA_bad_of_weight_even {m : Nat} (h0 : syndrome m ≠ 0) (heven : weight 8 (syndrome m) % 2 = 0) :
    checkA m = .bad := by
  refine checkA_bad h0 fun i hi h => ?_
  have hodd := weight_column_odd hi
  rw [← h] at hodd
  omega

theorem checkA_two_flips {i j : Nat} (hij : i < j) (hj : j < 72) : checkA (2 ^ i + 2 ^ j) = .bad := by
  have hi : i < 72 := hij.trans hj
  have hsyn := syndrome_two_pow_add_two_pow hij hj
  refine checkA_bad_of_weight_even ?_ ?_
  · rw [hsyn, Ne, Nat.xor_eq_zero_iff]
    exact fun h => hij.ne (column_injective hi hj h)
  · have hodd := weight_column_odd hi
    have hodd' := weight_column_odd hj
    rw [hsyn, weight_xor_mod_two]
    omega

/-! ## Class B: the parities that fail (R382) -/

/-- The parity of the eight data bits p differs from the check bit. -/
def ParityFails (m : Nat) (p : Nat → Bool) (check : Nat) : Prop :=
  ((Finset.range 8).filter (fun k => p k = true)).card % 2 ≠ (m.testBit check).toNat

/-- The model's form of the parity: the sum of the data bits and the check bit is odd. -/
theorem odd_length_add_iff_parityFails (m : Nat) (p : Nat → Bool) (check : Nat) :
    (((List.range 8).filter p).length + b2n (m.testBit check)) % 2 = 1 ↔ ParityFails m p check := by
  have hcard : ((Finset.range 8).filter (fun k => p k = true)).card = ((List.range 8).filter p).length := by
    simp [Finset.card, Finset.filter, Multiset.range]
  have hle := Bool.toNat_le (m.testBit check)
  rw [ParityFails, hcard, b2n_eq_toNat]
  omega

theorem mem_badRows {m r : Nat} :
    r ∈ badRows m ↔ r < 8 ∧ ParityFails m (fun c => m.testBit (8 * r + c)) (64 + r) := by
  have hbits : bitOf (m / 2 ^ (8 * r)) = fun c => m.testBit (8 * r + c) :=
    funext fun c => by rw [bitOf_eq_testBit, Nat.testBit_div_two_pow, Nat.add_comm]
  simp only [badRows, weight, List.mem_filter, List.mem_range, beq_iff_eq, hbits, bitOf_eq_testBit m,
    odd_length_add_iff_parityFails]

theorem mem_badCols {m c : Nat} :
    c ∈ badCols m ↔ c < 8 ∧ ParityFails m (fun r => m.testBit (8 * r + c)) (72 + c) := by
  simp only [badCols, List.mem_filter, List.mem_range, beq_iff_eq, bitOf_eq_testBit, odd_length_add_iff_parityFails]

theorem badRows_ascending (m : Nat) : (badRows m).Pairwise (· < ·) := List.pairwise_lt_range.filter _

theorem badCols_ascending (m : Nat) : (badCols m).Pairwise (· < ·) := List.pairwise_lt_range.filter _

theorem eq_singleton_of_ascending {l : List Nat} {a : Nat} (hl : l.Pairwise (· < ·)) (h : ∀ x, x ∈ l ↔ x = a) : l = [a] :=
  hl.eq_of_mem_iff (List.pairwise_singleton _ a) (by simpa using h)

/-! ## Class B: decoding by the parities that fail (R382) -/

theorem checkB_good {m : Nat} (hr : badRows m = []) (hc : badCols m = []) : checkB m = .good := by
  rw [checkB, hr, hc]

theorem checkB_data {m r c : Nat} (hr : badRows m = [r]) (hc : badCols m = [c]) :
    checkB m = .mended (2 ^ (8 * r + c)) := by
  rw [checkB, hr, hc]

theorem checkB_rowCheck {m r : Nat} (hr : badRows m = [r]) (hc : badCols m = []) : checkB m = .mended (2 ^ (64 + r)) := by
  rw [checkB, hr, hc]

theorem checkB_colCheck {m c : Nat} (hr : badRows m = []) (hc : badCols m = [c]) : checkB m = .mended (2 ^ (72 + c)) := by
  rw [checkB, hr, hc]

/-- Two failures on one axis leave no single bit to mend: in every other case of R382 that axis holds at most one. -/
theorem checkB_bad_of_two_failures {m x y : Nat} (hne : x ≠ y)
    (h : (x ∈ badRows m ∧ y ∈ badRows m) ∨ (x ∈ badCols m ∧ y ∈ badCols m)) : checkB m = .bad := by
  unfold checkB
  rcases h with ⟨hx, hy⟩ | ⟨hx, hy⟩
  · split <;> simp_all
  · split <;> simp_all

/-! ## Class B: two flipped data bits -/

/-- One data bit set alone, with its check bit clear, makes the parity fail. -/
theorem parityFails_of_single {m check k : Nat} {p : Nat → Bool} (hk : k < 8) (hp : ∀ x, x < 8 → (p x = true ↔ x = k))
    (hcheck : m.testBit check = false) : ParityFails m p check := by
  have hone : (Finset.range 8).filter (fun x => p x = true) = {k} := by
    ext x
    simp only [Finset.mem_filter, Finset.mem_range, Finset.mem_singleton]
    exact ⟨fun ⟨hx, hpx⟩ => (hp x hx).1 hpx, fun hx => ⟨hx ▸ hk, (hp x (hx ▸ hk)).2 hx⟩⟩
  simp [ParityFails, hone, hcheck]

section TwoDataBits

variable {m i j : Nat} (hm : ∀ k, m.testBit k = true ↔ k = i ∨ k = j) (hi : i < 64) (hj : j < 64)
include hm hi hj

theorem testBit_check_eq_false {k : Nat} (hk : 64 ≤ k) : m.testBit k = false := by
  rw [← Bool.not_eq_true, hm]
  omega

theorem mem_badRows_of_two_flips (hne : i / 8 ≠ j / 8) : i / 8 ∈ badRows m := by
  refine mem_badRows.2 ⟨by omega, parityFails_of_single (k := i % 8) (by omega) (fun x hx => ?_)
    (testBit_check_eq_false hm hi hj (by omega))⟩
  rw [hm]
  omega

theorem mem_badCols_of_two_flips (hne : i % 8 ≠ j % 8) : i % 8 ∈ badCols m := by
  refine mem_badCols.2 ⟨by omega, parityFails_of_single (k := i / 8) (by omega) (fun x hx => ?_)
    (testBit_check_eq_false hm hi hj (by omega))⟩
  rw [hm]
  omega

end TwoDataBits

theorem checkB_two_flips {i j : Nat} (hij : i < j) (hj : j < 64) : checkB (2 ^ i + 2 ^ j) = .bad := by
  have hi : i < 64 := hij.trans hj
  have hm := testBit_two_pow_add_two_pow hij
  have hm' := fun k => (hm k).trans or_comm
  by_cases hrow : i / 8 = j / 8
  · have hcol : i % 8 ≠ j % 8 := by omega
    exact checkB_bad_of_two_failures hcol
      (.inr ⟨mem_badCols_of_two_flips hm hi hj hcol, mem_badCols_of_two_flips hm' hj hi hcol.symm⟩)
  · exact checkB_bad_of_two_failures hrow
      (.inl ⟨mem_badRows_of_two_flips hm hi hj hrow, mem_badRows_of_two_flips hm' hj hi (Ne.symm hrow)⟩)

/-! ## The statement -/

/-- R382 with the failing parities written out: what is said of the rows and columns holds of the model's lists of them. -/
theorem checkB_by_parities (m : Nat) :
    let row (r : Nat) : Prop := r < 8 ∧ ParityFails m (fun c => m.testBit (8 * r + c)) (64 + r)
    let col (c : Nat) : Prop := c < 8 ∧ ParityFails m (fun r => m.testBit (8 * r + c)) (72 + c)
    ((∀ r, ¬row r) → (∀ c, ¬col c) → checkB m = .good)
    ∧ (∀ r c, (∀ x, row x ↔ x = r) → (∀ x, col x ↔ x = c) → checkB m = .mended (2 ^ (8 * r + c)))
    ∧ (∀ r, (∀ x, row x ↔ x = r) → (∀ c, ¬col c) → checkB m = .mended (2 ^ (64 + r)))
    ∧ (∀ c, (∀ r, ¬row r) → (∀ x, col x ↔ x = c) → checkB m = .mended (2 ^ (72 + c)))
    ∧ (∀ x y, x ≠ y → (row x ∧ row y) ∨ (col x ∧ col y) → checkB m = .bad) := by
  simp only [← mem_badRows, ← mem_badCols, ← List.eq_nil_iff_forall_not_mem]
  refine ⟨checkB_good, fun r c hr hc => ?_, fun r hr hc => ?_, fun c hr hc => ?_,
    fun _ _ => checkB_bad_of_two_failures⟩
  · exact checkB_data (eq_singleton_of_ascending (badRows_ascending m) hr)
      (eq_singleton_of_ascending (badCols_ascending m) hc)
  · exact checkB_rowCheck (eq_singleton_of_ascending (badRows_ascending m) hr) hc
  · exact checkB_colCheck hr (eq_singleton_of_ascending (badCols_ascending m) hc)

/-- Settles O38: class A by the odd, distinct columns, class B by the lists of rows and columns whose parity fails. -/
theorem errorsCorrected : Obligations.ErrorsCorrected :=
  ⟨fun _ => ⟨checkA_good, fun _ => checkA_mended, checkA_bad⟩, fun _ hi => checkA_mended hi (syndrome_two_pow hi),
    fun _ _ => checkA_two_flips, checkB_by_parities, fun _ _ => checkB_two_flips⟩

end Sys2Proof.Machine
end

section
/-!
Where the commit register of a turn slot stands (R613): no register that the search of the turn engine's list meets before
TRN_Sn_COMMIT has a word at r = 0x20 of a slot's register set, and a bay space whose taps window is closed shows that list.
-/
namespace Sys2Proof.Machine

/-! ## The instance of a register at a distance -/

theorem instanceAt_nil_of_ne {d : Nat} (hd : d ≠ 0) : instanceAt [] d = none := if_neg hd

theorem instanceAt_stride_of_outside {n w d : Nat} (hd : d % w ≠ 0 ∨ n ≤ d / w) : instanceAt [(n, w)] d = none :=
  if_neg (by omega)

theorem instanceAt_stride {n w i : Nat} (hw : 0 < w) (hi : i < n) : instanceAt [(n, w)] (w * i) = some (i, 0) := by
  simp [instanceAt, Nat.mul_div_cancel_left i hw, hi]

/-! ## Searching a list of registers -/

section Search

variable {base off : Nat} {r : Reg} {rs : List Reg}

/-- A register has no word at an offset when neither its live words nor its shadow words reach it. -/
theorem findReg_singleton_eq_none (hlive : r.off ≤ off → instanceAt r.dims (off - r.off) = none)
    (hshadow : r.shadow ≠ 0 → r.off + r.shadow ≤ off → instanceAt r.dims (off - r.off - r.shadow) = none) :
    findReg base [r] off = none := by
  have hl : (if r.off ≤ off then instanceAt r.dims (off - r.off) else none) = none := by simpa using hlive
  simp only [findReg, List.findSome?_cons, hl]
  split_ifs with hs
  · rfl
  · rw [hshadow (by omega) (by omega)]
    rfl

theorem findReg_append_of_absent {before : List Reg} (h : ∀ r ∈ before, findReg base [r] off = none) :
    findReg base (before ++ rs) off = findReg base rs off := by
  have hnone : findReg base before off = none := by
    refine List.findSome?_eq_none_iff.2 fun r hr => ?_
    simpa only [findReg, List.findSome?_singleton] using h r hr
  unfold findReg at hnone ⊢
  rw [List.findSome?_append, hnone, Option.none_or]

/-- A register with a live word at the offset ends the search. -/
theorem findReg_cons_of_live {i j : Nat} (hle : r.off ≤ off) (h : instanceAt r.dims (off - r.off) = some (i, j)) :
    findReg base (r :: rs) off = some { base, reg := r, i, j, shadow := false } := by
  simp [findReg, hle, h]

end Search

/-! ## The registers of the turn engine -/

/-- What stands before TRN_Sn_COMMIT: registers of the engine as a whole, registers of the eight selectors, and the staged
registers of a slot's set, whose shadows lie in a range of their own (R251). -/
theorem trn_before_slotCommit : ∀ r ∈ regs_trn.take 22,
    (r.dims = [] ∧ r.off < 0x100 ∧ r.shadow = 0)
    ∨ (r.dims = [(8, 0x20)] ∧ r.off < 0x200 ∧ r.shadow ≤ 0x400)
    ∨ (r.dims = [(48, 0x40)] ∧ 0x1000 ≤ r.off ∧ r.off < 0x1020 ∧ (r.shadow = 0 ∨ r.shadow = 0x2000)) := by decide

/-- None of them has a word at r = 0x20 of a slot's set: the engine's and the selectors' words end below the sets, and a
slot's staged words stand at other distances within a set. -/
theorem findReg_before_slotCommit (base : Nat) (n : Fin 48) {r : Reg} (hr : r ∈ regs_trn.take 22) :
    findReg base [r] (0x1000 + 0x40 * n.val + 0x20) = none := by
  have hn := n.isLt
  obtain ⟨hdims, hoff, hsh⟩ | ⟨hdims, hoff, hsh⟩ | ⟨hdims, hlow, hhigh, hsh⟩ := trn_before_slotCommit r hr
  case inl =>
    refine findReg_singleton_eq_none (fun _ => ?_) fun hne => absurd hsh hne
    rw [hdims]
    exact instanceAt_nil_of_ne (by omega)
  case inr.inl =>
    have houtside (d : Nat) (hd : 0x100 ≤ d) : instanceAt r.dims d = none :=
      hdims ▸ instanceAt_stride_of_outside (by omega)
    exact findReg_singleton_eq_none (fun _ => houtside _ (by omega)) fun _ _ => houtside _ (by omega)
  case inr.inr =>
    refine findReg_singleton_eq_none (fun _ => ?_) fun _ _ => by omega
    rw [hdims]
    exact instanceAt_stride_of_outside (by omega)

/-- The search finds instance n of TRN_Sn_COMMIT, and not a shadow word, at r = 0x20 of slot n's set. -/
theorem findReg_trnSlotCommit (base : Nat) (n : Fin 48) :
    ∃ r, r.name = "TRN_Sn_COMMIT" ∧ findReg base regs_trn (0x1000 + 0x40 * n.val + 0x20)
      = some { base, reg := r, i := n, j := 0, shadow := false } := by
  obtain ⟨r, rs, hname, hoff, hdims, hsplit⟩ : ∃ r rs, r.name = "TRN_Sn_COMMIT" ∧ r.off = 0x1020
      ∧ r.dims = [(48, 0x40)] ∧ regs_trn = regs_trn.take 22 ++ r :: rs := ⟨_, _, rfl, rfl, rfl, rfl⟩
  refine ⟨r, hname, ?_⟩
  rw [hsplit, findReg_append_of_absent fun _ => findReg_before_slotCommit base n]
  refine findReg_cons_of_live (by omega) ?_
  have hdist : 0x1000 + 0x40 * n.val + 0x20 - r.off = 0x40 * n.val := by omega
  rw [hdims, hdist]
  exact instanceAt_stride (by decide) n.isLt

/-- With the taps window closed, a bay space shows the turn engine's registers from offset 0x8000 on (R612). -/
theorem State.fieldFind_turnWindow {s : State} {d : Die} {bay : Nat} (hclosed : s.tapsOpen d bay = false) (rel : Nat) :
    s.fieldFind d bay (0x8000 + rel) = (findReg (dieAt .trn d) regs_trn rel).map fun l => (.trn, rel, l) := by
  have hwindow : ¬0x8000 + rel < 0x8000 := by omega
  have hbase : Block.trn.base = 0x8000 := rfl
  have hregs : Block.trn.regs = regs_trn := rfl
  simp [State.fieldFind, hclosed, hwindow, hbase, hregs, State.blockAt]

/-! ## The group of a commit register -/

theorem groupCommitAt_trnSlot (d : Die) (n : Fin 48) :
    groupCommitAt (.trnSlot d n) = dieAt .trn d + 0x1000 + 0x40 * n.val + 0x20 := by
  have hcommit : groupCommitAt (.trnSlot d n) = dieAt .trn d + 0x1020 + 0x40 * n.val := rfl
  rw [hcommit]
  omega

theorem commitAt_trnSlot (d : Die) (b : Option Bay) (n : Fin 48) :
    commitAt .trn d b (0x1000 + 0x40 * n.val + 0x20) = some (.trnSlot d n) := by
  have hn := n.isLt
  have hset : 0x1000 ≤ 0x1000 + 0x40 * n.val + 0x20 ∧ 0x1000 + 0x40 * n.val + 0x20 < 0x1C00
      ∧ (0x1000 + 0x40 * n.val + 0x20) % 0x40 = 0x20 := by omega
  have hslot : (0x1000 + 0x40 * n.val + 0x20 - 0x1000) / 0x40 = n.val := by omega
  simp only [commitAt, if_pos hset, hslot, Fin.ofNat_val_eq_self]

/-- Settles O60: the window shows TRN_Sn_COMMIT at the slot's offset, and a write there commits the slot's group. -/
theorem turnCommitAddress : Obligations.TurnCommitAddress := by
  intro s d bay n _ _ _ hclosed
  obtain ⟨r, _, hfind⟩ := findReg_trnSlotCommit (dieAt .trn d) n
  have hoff : 0x9020 + 0x40 * n.val = 0x8000 + (0x1000 + 0x40 * n.val + 0x20) := by omega
  refine ⟨groupCommitAt_trnSlot d n, { base := dieAt .trn d, reg := r, i := n, j := 0, shadow := false }, ?_,
    commitAt_trnSlot d _ n⟩
  rw [hoff, State.fieldFind_turnWindow hclosed, hfind, Option.map_some]

end Sys2Proof.Machine
end

section
/-!
Every step answers a next state, takes one command from the queue, and keeps hub memory in its canonical form; a command of one
side of the barrier leaves the other side's blocks as they were. What each command keeps is said by its own lemma; here they
are put together over all commands.
-/
namespace Sys2Proof.Machine

/-- What the lemma of a command that stores nothing says, in the form that all commands share. -/
theorem ok_of_kept {o : Host.Outcome State Fault Refusal} {s : State} (h : ∃ t, o = .next t ∧ t.kept = s.kept) :
    ∃ t, o = .next t ∧ t.kept3 = s.kept3 ∧ (s.memWf → t.memWf) := by
  obtain ⟨t, ht, hk⟩ := h
  exact ⟨t, ht, State.kept3_of hk, (State.memWf_of hk).2⟩

/-- Every command goes on; the queue's rest stays, and so does the form of hub memory. -/
theorem exec_ok (c : Instr) (s : State) : ∃ t, exec c s = .next t ∧ t.kept3 = s.kept3 ∧ (s.memWf → t.memWf) := by
  cases c with
  | registerWrite => exact execRegisterWrite_ok ..
  | commit => exact ok_of_kept (execCommit_kept ..)
  | stagedSetActive => exact execStagedSetActive_ok ..
  | flitReceive => exact execFlitReceive_ok ..
  | linkNakReceived => exact ok_of_kept (execLinkNakReceived_kept ..)
  | creditReceived => exact ok_of_kept (execCreditReceived_kept ..)
  | continuationTimeout => exact execContinuationTimeout_ok ..
  | portRetrainEnd => exact execPortRetrainEnd_ok ..
  | flitSlotTransmit => exact ok_of_kept (execFlitSlotTransmit_kept ..)
  | heartbeatSend => exact ok_of_kept (execHeartbeatSend_kept ..)
  | heartbeat => exact ok_of_kept (execHeartbeat_kept ..)
  | heartbeatEcho => exact execHeartbeatEcho_ok ..
  | echoLost => exact execEchoLost_ok ..
  | heartbeatTimeout => exact ok_of_kept (execHeartbeatTimeout_kept ..)
  | clockHoldoverEnd => exact ok_of_kept (execClockHoldoverEnd_kept ..)
  | portDown => exact execPortDown_ok ..
  | signalRise => exact ok_of_kept (execSignalRise_kept ..)
  | haltSafe => exact ok_of_kept (execHaltSafe_kept ..)
  | haltRelease => exact ok_of_kept (execHaltRelease_kept ..)
  | haltStopBay => exact ok_of_kept (execHaltStopBay_kept ..)
  | haltResetDie => exact ok_of_kept (execHaltResetDie_kept ..)
  | haltDone => exact execHaltDone_ok ..
  | haltResend => exact execHaltResend_ok ..
  | queueReset => exact ok_of_kept (execQueueReset_kept ..)
  | queueResetDone => exact execQueueResetDone_ok ..
  | queueResetResend => exact execQueueResetResend_ok ..
  | regRead => exact ok_of_kept (execRegRead_kept ..)
  | regWrite => exact ok_of_kept (execRegWrite_kept ..)
  | regData => exact execRegData_ok ..
  | event => exact ok_of_kept (execEvent_kept ..)
  | fwLoad => exact ok_of_kept (execFwLoad_kept ..)
  | workRead => exact ok_of_kept (execWorkRead_kept ..)
  | workRecord => exact ok_of_kept (execWorkRecord_kept ..)
  | workSeek => exact ok_of_kept (execWorkSeek_kept ..)
  | workMount => exact ok_of_kept (execWorkMount_kept ..)
  | workUnmount => exact ok_of_kept (execWorkUnmount_kept ..)
  | workTransfer => exact ok_of_kept (execWorkTransfer_kept ..)
  | workCruise => exact ok_of_kept (execWorkCruise_kept ..)
  | workVerify => exact ok_of_kept (execWorkVerify_kept ..)
  | workDone => exact execWorkDone_ok ..
  | recordData => exact ok_of_kept (execRecordData_kept ..)
  | boardData => exact execBoardData_ok ..
  | boardErased => exact ok_of_kept (execBoardErased_kept ..)
  | logDone => exact execLogDone_ok ..
  | systemBoardReceive => exact ok_of_kept (execSystemBoardReceive_kept ..)
  | txctlPush => exact ok_of_kept (execTxctlPush_kept ..)
  | rxctlPop => exact ok_of_kept (execRxctlPop_kept ..)
  | sfeBlockBoundary => exact ok_of_kept (execSfeBlockBoundary_kept ..)
  | snagSet => exact ok_of_kept (execSnagSet_kept ..)
  | snagClear => exact ok_of_kept (execSnagClear_kept ..)
  | longSnag => exact ok_of_kept (execLongSnag_kept ..)
  | forecastWindowOpen => exact ok_of_kept (execForecastWindowOpen_kept ..)
  | forecastWindowClose => exact ok_of_kept (execForecastWindowClose_kept ..)
  | sfeVelReplaced => exact ok_of_kept (execSfeVelReplaced_kept ..)
  | thermistorReading => exact ok_of_kept (execThermistorReading_kept ..)
  | sfeTempReplaced => exact ok_of_kept (execSfeTempReplaced_kept ..)
  | acquisitionEnd => exact ok_of_kept (execAcquisitionEnd_kept ..)
  | sfeSpotLoopWrite => exact ok_of_kept (execSfeSpotLoopWrite_kept ..)
  | sfeAfeWrite => exact ok_of_kept (execSfeAfeWrite_kept ..)
  | syncFrame => exact ok_of_kept (execSyncFrame_kept ..)
  | slotBlank => exact ok_of_kept (execSlotBlank_kept ..)
  | sliceClose => exact ok_of_kept (execSliceClose_kept ..)
  | sliceDetected => exact ok_of_kept (execSliceDetected_kept ..)
  | codewordHandover => exact ok_of_kept (execCodewordHandover_kept ..)
  | ldpcDecodeDone => exact ok_of_kept (execLdpcDecodeDone_kept ..)
  | retryJumpBack => exact ok_of_kept (execRetryJumpBack_kept ..)
  | qualityWindowLatch => exact ok_of_kept (execQualityWindowLatch_kept ..)
  | recordLogBuild => exact ok_of_kept (execRecordLogBuild_kept ..)
  | recordSpeedSettled => exact ok_of_kept (execRecordSpeedSettled_kept ..)
  | checkRevolution => exact ok_of_kept (execCheckRevolution_kept ..)
  | logWriteStart => exact ok_of_kept (execLogWriteStart_kept ..)
  | logWriteEnd => exact ok_of_kept (execLogWriteEnd_kept ..)
  | writeInhibit => exact ok_of_kept (execWriteInhibit_kept ..)
  | laserReportFrame => exact ok_of_kept (execLaserReportFrame_kept ..)
  | laserLink => exact ok_of_kept (execLaserLink_kept ..)
  | powerTest => exact ok_of_kept (execPowerTest_kept ..)
  | recOpcRun => exact ok_of_kept (execRecOpcRun_kept ..)
  | turn => exact ok_of_kept (execTurn_kept ..)
  | trnCmdClear => exact ok_of_kept (execTrnCmdClear_kept ..)
  | trnCmdForce => exact ok_of_kept (execTrnCmdForce_kept ..)
  | trnSetWrite => exact ok_of_kept (execTrnSetWrite_kept ..)
  | trnCtlWrite => exact ok_of_kept (execTrnCtlWrite_kept ..)
  | bankWordWrite => exact ok_of_kept (execBankWordWrite_kept ..)
  | focEnSet => exact ok_of_kept (execFocEnSet_kept ..)
  | trnOsvCtlWrite => exact ok_of_kept (execTrnOsvCtlWrite_kept ..)
  | surfacePeak => exact ok_of_kept (execSurfacePeak_kept ..)
  | sweepEnd => exact ok_of_kept (execSweepEnd_kept ..)
  | focusLock => exact ok_of_kept (execFocusLock_kept ..)
  | captureTimeout => exact ok_of_kept (execCaptureTimeout_kept ..)
  | trnFocusLost => exact ok_of_kept (execTrnFocusLost_kept ..)
  | holdRecovery => exact ok_of_kept (execHoldRecovery_kept ..)
  | holdTimeout => exact ok_of_kept (execHoldTimeout_kept ..)
  | trackingLock => exact ok_of_kept (execTrackingLock_kept ..)
  | spiralCheck => exact ok_of_kept (execSpiralCheck_kept ..)
  | grooveSearch => exact ok_of_kept (execGrooveSearch_kept ..)
  | moveReacquire => exact ok_of_kept (execMoveReacquire_kept ..)
  | moveLayer => exact ok_of_kept (execMoveLayer_kept ..)
  | moveTrack => exact ok_of_kept (execMoveTrack_kept ..)
  | moveSeek => exact ok_of_kept (execMoveSeek_kept ..)
  | layerJumpBrake => exact ok_of_kept (execLayerJumpBrake_kept ..)
  | layerJumpBrakeEnd => exact ok_of_kept (execLayerJumpBrakeEnd_kept ..)
  | ljTimeout => exact ok_of_kept (execLjTimeout_kept ..)
  | trackJumpBrake => exact ok_of_kept (execTrackJumpBrake_kept ..)
  | seekLanding => exact ok_of_kept (execSeekLanding_kept ..)
  | pwmPeriod => exact ok_of_kept (execPwmPeriod_kept ..)
  | spnRun => exact ok_of_kept (execSpnRun_kept ..)
  | spnIdle => exact ok_of_kept (execSpnIdle_kept ..)
  | spnStop => exact ok_of_kept (execSpnStop_kept ..)
  | spnClrFault => exact ok_of_kept (execSpnClrFault_kept ..)
  | spnCtlWrite => exact ok_of_kept (execSpnCtlWrite_kept ..)
  | ipdDone => exact ok_of_kept (execIpdDone_kept ..)
  | alignEnd => exact ok_of_kept (execAlignEnd_kept ..)
  | openHandOver => exact ok_of_kept (execOpenHandOver_kept ..)
  | openTimeout => exact ok_of_kept (execOpenTimeout_kept ..)
  | catchDecide => exact ok_of_kept (execCatchDecide_kept ..)
  | catchLock => exact ok_of_kept (execCatchLock_kept ..)
  | observerLoss => exact ok_of_kept (execObserverLoss_kept ..)
  | spnObsRelocked => exact ok_of_kept (execSpnObsRelocked_kept ..)
  | flywheelTimeout => exact ok_of_kept (execFlywheelTimeout_kept ..)
  | shortEnd => exact ok_of_kept (execShortEnd_kept ..)
  | overspeed => exact ok_of_kept (execOverspeed_kept ..)
  | undervoltage => exact ok_of_kept (execUndervoltage_kept ..)
  | atSpeed => exact ok_of_kept (execAtSpeed_kept ..)
  | windingTempUpdate => exact ok_of_kept (execWindingTempUpdate_kept ..)
  | ceilReading => exact ok_of_kept (execCeilReading_kept ..)
  | spnCeilReplaced => exact ok_of_kept (execSpnCeilReplaced_kept ..)
  | spnCeilValue => exact ok_of_kept (execSpnCeilValue_kept ..)
  | ceilRelayWrite => exact ok_of_kept (execCeilRelayWrite_kept ..)
  | ceilStale => exact ok_of_kept (execCeilStale_kept ..)
  | profileTick => exact ok_of_kept (execProfileTick_kept ..)
  | axpMove => exact ok_of_kept (execAxpMove_kept ..)
  | axpStop => exact ok_of_kept (execAxpStop_kept ..)
  | axpResume => exact ok_of_kept (execAxpResume_kept ..)
  | axpHome => exact ok_of_kept (execAxpHome_kept ..)
  | axpClrFault => exact ok_of_kept (execAxpClrFault_kept ..)
  | axpCtlWrite => exact ok_of_kept (execAxpCtlWrite_kept ..)
  | grpMove => exact ok_of_kept (execGrpMove_kept ..)
  | grpStop => exact ok_of_kept (execGrpStop_kept ..)
  | grpResume => exact ok_of_kept (execGrpResume_kept ..)
  | switchRawEdge => exact ok_of_kept (execSwitchRawEdge_kept ..)
  | switchConfirm => exact ok_of_kept (execSwitchConfirm_kept ..)
  | transferStepDone => exact ok_of_kept (execTransferStepDone_kept ..)
  | headDiscTimeout => exact ok_of_kept (execHeadDiscTimeout_kept ..)
  | yrdDoorOpen => exact ok_of_kept (execYrdDoorOpen_kept ..)
  | doorSettled => exact ok_of_kept (execDoorSettled_kept ..)
  | doorTimeout => exact ok_of_kept (execDoorTimeout_kept ..)
  | inventory => exact ok_of_kept (execInventory_kept ..)
  | deckScanned => exact ok_of_kept (execDeckScanned_kept ..)
  | yarderPowerUpHoming => exact ok_of_kept (execYarderPowerUpHoming_kept ..)
  | yrdCtlWrite => exact ok_of_kept (execYrdCtlWrite_kept ..)
  | cruNow => exact ok_of_kept (execCruNow_kept ..)
  | cruTempCheck => exact ok_of_kept (execCruTempCheck_kept ..)
  | cruRunStart => exact ok_of_kept (execCruRunStart_kept ..)
  | cruStarved => exact ok_of_kept (execCruStarved_kept ..)
  | cruPointMeasured => exact ok_of_kept (execCruPointMeasured_kept ..)
  | cruSpotRelease => exact ok_of_kept (execCruSpotRelease_kept ..)
  | cruTapSnapshot => exact ok_of_kept (execCruTapSnapshot_kept ..)
  | cruRunAbort => exact ok_of_kept (execCruRunAbort_kept ..)
  | mountDarkPhase => exact ok_of_kept (execMountDarkPhase_kept ..)
  | cruQualityUpdate => exact ok_of_kept (execCruQualityUpdate_kept ..)
  | fillTimeout => exact execFillTimeout_ok ..
  | requestRetry => exact execRequestRetry_ok ..
  | dirtyHandOver => exact execDirtyHandOver_ok ..
  | lndRangeInvalidate => exact execLndRangeInvalidate_ok ..
  | lndRangePreload => exact execLndRangePreload_ok ..
  | lndRangePreloadLock => exact execLndRangePreloadLock_ok ..
  | lndRangeUnlock => exact execLndRangeUnlock_ok ..
  | lndRangeClean => exact execLndRangeClean_ok ..
  | lndRangeScrub => exact execLndRangeScrub_ok ..
  | lndRangeAbort => exact execLndRangeAbort_ok ..
  | lndRangeDone => exact execLndRangeDone_ok ..
  | lndCtrlWrite => exact execLndCtrlWrite_ok ..
  | lndWayRetireWrite => exact execLndWayRetireWrite_ok ..
  | lndCfgWrite => exact execLndCfgWrite_ok ..
  | windowCommitPoint => exact execWindowCommitPoint_ok ..
  | bar2Request => exact execBar2Request_ok ..
  | patrolBurst => exact execPatrolBurst_ok ..
  | miuInjectArm => exact ok_of_kept (execMiuInjectArm_kept ..)
  | openCoreWatchdog => exact ok_of_kept (execOpenCoreWatchdog_kept ..)
  | sessionCloseFinal => exact ok_of_kept (execSessionCloseFinal_kept ..)
  | generationRecord => exact execGenerationRecord_ok ..
  | backgroundDirectoryRead => exact execBackgroundDirectoryRead_ok ..
  | foregroundLookup => exact execForegroundLookup_ok ..
  | mountComplete => exact execMountComplete_ok ..
  | barkMeasured => exact ok_of_kept (execBarkMeasured_kept ..)
  | doorbellWrite => exact ok_of_kept (execDoorbellWrite_kept ..)
  | fetch => exact ok_of_kept (execFetch_kept ..)
  | entryReceived => exact execEntryReceived_ok ..
  | completionPost => exact ok_of_kept (execCompletionPost_kept ..)
  | qenHalt => exact ok_of_kept (execQenHalt_kept ..)
  | haltCutComplete => exact execHaltCutComplete_ok ..
  | qenMqCtlWrite => exact execQenMqCtlWrite_ok ..
  | read => exact execRead_ok ..
  | readRaw => exact execReadRaw_ok ..
  | record => exact execRecord_ok ..
  | preload => exact execPreload_ok ..
  | fence => exact execFence_ok ..
  | flush => exact execFlush_ok ..
  | verifyScan => exact execVerifyScan_ok ..
  | createQueuePair => exact execCreateQueuePair_ok ..
  | deleteQueuePair => exact execDeleteQueuePair_ok ..
  | resetQueue => exact execResetQueue_ok ..
  | sessionOpen => exact execSessionOpen_ok ..
  | sessionClose => exact execSessionClose_ok ..
  | mount => exact execMount_ok ..
  | unmount => exact execUnmount_ok ..
  | moveDisc => exact execMoveDisc_ok ..
  | cruiseNow => exact execCruiseNow_ok ..
  | queryBay => exact execQueryBay_ok ..
  | bundleDownload => exact execBundleDownload_ok ..
  | scheduleActivation => exact execScheduleActivation_ok ..
  | cancelActivation => exact execCancelActivation_ok ..
  | confirmHealth => exact execConfirmHealth_ok ..
  | getLogPage => exact execGetLogPage_ok ..
  | setFeature => exact execSetFeature_ok ..
  | getFeature => exact execGetFeature_ok ..
  | fieldRegisterRead => exact execFieldRegisterRead_ok ..
  | fieldRegisterWrite => exact execFieldRegisterWrite_ok ..
  | regDataTimeout => exact execRegDataTimeout_ok ..
  | scrubRange => exact execScrubRange_ok ..
  | landingRangeOp => exact execLandingRangeOp_ok ..
  | scaleBookStale => exact execScaleBookStale_ok ..
  | scaleBookHint => exact execScaleBookHint_ok ..
  | setTime => exact execSetTime_ok ..
  | bar0Request => exact execBar0Request_ok ..
  | bmeClear => exact execBmeClear_ok ..
  | bmeSet => exact execBmeSet_ok ..
  | functionLevelReset => exact execFunctionLevelReset_ok ..
  | d3hotEntry => exact execD3hotEntry_ok ..
  | d0Return => exact execD0Return_ok ..
  | perstAssert => exact execPerstAssert_ok ..
  | hotReset => exact execHotReset_ok ..
  | completionReceived => exact execCompletionReceived_ok ..
  | completionTimeout => exact execCompletionTimeout_ok ..
  | readPieceIssue => exact ok_of_kept (execReadPieceIssue_kept ..)
  | msixSend => exact ok_of_kept (execMsixSend_kept ..)
  | msixUnmask => exact ok_of_kept (execMsixUnmask_kept ..)
  | linkFullRateRetrain => exact ok_of_kept (execLinkFullRateRetrain_kept ..)
  | hicSourceEvent => exact ok_of_kept (execHicSourceEvent_kept ..)
  | hicClaimRead => exact ok_of_kept (execHicClaimRead_kept ..)
  | hicClaimWrite => exact ok_of_kept (execHicClaimWrite_kept ..)
  | hicTriggerWrite => exact ok_of_kept (execHicTriggerWrite_kept ..)
  | hicSrcCfgWrite => exact ok_of_kept (execHicSrcCfgWrite_kept ..)
  | msipWrite => exact ok_of_kept (execMsipWrite_kept ..)
  | mtimecmpReached => exact ok_of_kept (execMtimecmpReached_kept ..)
  | skdStart => exact execSkdStart_ok ..
  | skdAbort => exact ok_of_kept (execSkdAbort_kept ..)
  | skdBurstDone => exact execSkdBurstDone_ok ..
  | skdDescriptorDone => exact execSkdDescriptorDone_ok ..
  | skdDescriptorLoad => exact execSkdDescriptorLoad_ok ..
  | skdBusError => exact execSkdBusError_ok ..
  | skdHaltedClear => exact ok_of_kept (execSkdHaltedClear_kept ..)
  | flashOperationDone => exact execFlashOperationDone_ok ..
  | activationStart => exact execActivationStart_ok ..
  | activationDrainDone => exact execActivationDrainDone_ok ..
  | activationFlushDone => exact ok_of_kept (execActivationFlushDone_kept ..)
  | activationReset => exact execActivationReset_ok ..
  | bootCheck => exact execBootCheck_ok s
  | selfTestDone => exact execSelfTestDone_ok ..
  | confirmationWindowExpiry => exact execConfirmationWindowExpiry_ok ..
  | romStageBoot => exact execRomStageBoot_ok ..
  | stump2BringUp => exact execStump2BringUp_ok ..
  | memoryInitDone => exact ok_of_kept (execMemoryInitDone_kept ..)
  | fpwBootGo => exact ok_of_kept (execFpwBootGo_kept ..)
  | fieldReady => exact execFieldReady_ok ..
  | hostSupplyTrip => exact execHostSupplyTrip_ok ..
  | hostSupplyRelease => exact ok_of_kept (execHostSupplyRelease_kept ..)
  | vauxLoss => exact execVauxLoss_ok ..
  | fieldSupplyTrip => exact execFieldSupplyTrip_ok ..
  | junctionOvertemp => exact execJunctionOvertemp_ok ..
  | junctionOvertempRelease => exact ok_of_kept (execJunctionOvertempRelease_kept ..)
  | vmechSample => exact ok_of_kept (execVmechSample_kept ..)
  | fpwVmechLow => exact ok_of_kept (execFpwVmechLow_kept ..)
  | vmechLowClear => exact ok_of_kept (execVmechLowClear_kept ..)
  | fpwVmechHigh => exact ok_of_kept (execFpwVmechHigh_kept ..)
  | vmechHighClear => exact ok_of_kept (execVmechHighClear_kept ..)
  | domainSwitchOff => exact ok_of_kept (execDomainSwitchOff_kept ..)
  | domainWake => exact ok_of_kept (execDomainWake_kept ..)
  | keeperTick => exact ok_of_kept (execKeeperTick_kept ..)
  | pwrXtalLost => exact ok_of_kept (execPwrXtalLost_kept ..)
  | bayIdleSpindle => exact ok_of_kept (execBayIdleSpindle_kept ..)
  | bayIdleReturn => exact ok_of_kept (execBayIdleReturn_kept ..)
  | safeStateShortBrake => exact ok_of_kept (execSafeStateShortBrake_kept ..)
  | cqCoalesceTimeout => exact ok_of_kept (execCqCoalesceTimeout_kept ..)
  | fabricPllLockTimeout => exact ok_of_kept (execFabricPllLockTimeout_kept ..)
  | linkRecovery => exact ok_of_kept (execLinkRecovery_kept ..)
  | jtagAccess => exact execJtagAccess_ok ..

/-- A command of the field side leaves the blocks of the hub as they were. -/
theorem exec_hub {c : Instr} (h : onField c = true) (s : State) : ∃ t, exec c s = .next t ∧ t.hub = s.hub := by
  cases c with
  | commit => exact execCommit_hub ..
  | creditReceived => exact execCreditReceived_hub ..
  | heartbeatSend => exact execHeartbeatSend_hub ..
  | heartbeat => exact execHeartbeat_hub ..
  | heartbeatTimeout => exact execHeartbeatTimeout_hub ..
  | clockHoldoverEnd => exact execClockHoldoverEnd_hub ..
  | haltSafe => exact execHaltSafe_hub ..
  | haltRelease => exact execHaltRelease_hub ..
  | haltStopBay => exact execHaltStopBay_hub ..
  | haltResetDie => exact execHaltResetDie_hub ..
  | queueReset => exact execQueueReset_hub ..
  | regRead => exact execRegRead_hub ..
  | fwLoad => exact execFwLoad_hub ..
  | workRead => exact execWorkRead_hub ..
  | workRecord => exact execWorkRecord_hub ..
  | workSeek => exact execWorkSeek_hub ..
  | workMount => exact execWorkMount_hub ..
  | workUnmount => exact execWorkUnmount_hub ..
  | workTransfer => exact execWorkTransfer_hub ..
  | workCruise => exact execWorkCruise_hub ..
  | workVerify => exact execWorkVerify_hub ..
  | recordData => exact execRecordData_hub ..
  | boardErased => exact execBoardErased_hub ..
  | txctlPush => exact execTxctlPush_hub ..
  | rxctlPop => exact execRxctlPop_hub ..
  | sfeBlockBoundary => exact execSfeBlockBoundary_hub ..
  | snagSet => exact execSnagSet_hub ..
  | snagClear => exact execSnagClear_hub ..
  | longSnag => exact execLongSnag_hub ..
  | forecastWindowOpen => exact execForecastWindowOpen_hub ..
  | forecastWindowClose => exact execForecastWindowClose_hub ..
  | sfeVelReplaced => exact execSfeVelReplaced_hub ..
  | thermistorReading => exact execThermistorReading_hub ..
  | sfeTempReplaced => exact execSfeTempReplaced_hub ..
  | acquisitionEnd => exact execAcquisitionEnd_hub ..
  | sfeSpotLoopWrite => exact execSfeSpotLoopWrite_hub ..
  | sfeAfeWrite => exact execSfeAfeWrite_hub ..
  | syncFrame => exact execSyncFrame_hub ..
  | slotBlank => exact execSlotBlank_hub ..
  | sliceClose => exact execSliceClose_hub ..
  | sliceDetected => exact execSliceDetected_hub ..
  | codewordHandover => exact execCodewordHandover_hub ..
  | ldpcDecodeDone => exact execLdpcDecodeDone_hub ..
  | retryJumpBack => exact execRetryJumpBack_hub ..
  | qualityWindowLatch => exact execQualityWindowLatch_hub ..
  | recordLogBuild => exact execRecordLogBuild_hub ..
  | recordSpeedSettled => exact execRecordSpeedSettled_hub ..
  | checkRevolution => exact execCheckRevolution_hub ..
  | logWriteStart => exact execLogWriteStart_hub ..
  | logWriteEnd => exact execLogWriteEnd_hub ..
  | writeInhibit => exact execWriteInhibit_hub ..
  | laserReportFrame => exact execLaserReportFrame_hub ..
  | laserLink => exact execLaserLink_hub ..
  | powerTest => exact execPowerTest_hub ..
  | recOpcRun => exact execRecOpcRun_hub ..
  | turn => exact execTurn_hub ..
  | trnCmdClear => exact execTrnCmdClear_hub ..
  | trnCmdForce => exact execTrnCmdForce_hub ..
  | trnSetWrite => exact execTrnSetWrite_hub ..
  | trnCtlWrite => exact execTrnCtlWrite_hub ..
  | bankWordWrite => exact execBankWordWrite_hub ..
  | focEnSet => exact execFocEnSet_hub ..
  | trnOsvCtlWrite => exact execTrnOsvCtlWrite_hub ..
  | surfacePeak => exact execSurfacePeak_hub ..
  | sweepEnd => exact execSweepEnd_hub ..
  | focusLock => exact execFocusLock_hub ..
  | captureTimeout => exact execCaptureTimeout_hub ..
  | trnFocusLost => exact execTrnFocusLost_hub ..
  | holdRecovery => exact execHoldRecovery_hub ..
  | holdTimeout => exact execHoldTimeout_hub ..
  | trackingLock => exact execTrackingLock_hub ..
  | spiralCheck => exact execSpiralCheck_hub ..
  | grooveSearch => exact execGrooveSearch_hub ..
  | moveReacquire => exact execMoveReacquire_hub ..
  | moveLayer => exact execMoveLayer_hub ..
  | moveTrack => exact execMoveTrack_hub ..
  | moveSeek => exact execMoveSeek_hub ..
  | layerJumpBrake => exact execLayerJumpBrake_hub ..
  | layerJumpBrakeEnd => exact execLayerJumpBrakeEnd_hub ..
  | ljTimeout => exact execLjTimeout_hub ..
  | trackJumpBrake => exact execTrackJumpBrake_hub ..
  | seekLanding => exact execSeekLanding_hub ..
  | pwmPeriod => exact execPwmPeriod_hub ..
  | spnRun => exact execSpnRun_hub ..
  | spnIdle => exact execSpnIdle_hub ..
  | spnStop => exact execSpnStop_hub ..
  | spnClrFault => exact execSpnClrFault_hub ..
  | spnCtlWrite => exact execSpnCtlWrite_hub ..
  | ipdDone => exact execIpdDone_hub ..
  | alignEnd => exact execAlignEnd_hub ..
  | openHandOver => exact execOpenHandOver_hub ..
  | openTimeout => exact execOpenTimeout_hub ..
  | catchDecide => exact execCatchDecide_hub ..
  | catchLock => exact execCatchLock_hub ..
  | observerLoss => exact execObserverLoss_hub ..
  | spnObsRelocked => exact execSpnObsRelocked_hub ..
  | flywheelTimeout => exact execFlywheelTimeout_hub ..
  | shortEnd => exact execShortEnd_hub ..
  | overspeed => exact execOverspeed_hub ..
  | undervoltage => exact execUndervoltage_hub ..
  | atSpeed => exact execAtSpeed_hub ..
  | windingTempUpdate => exact execWindingTempUpdate_hub ..
  | ceilReading => exact execCeilReading_hub ..
  | spnCeilReplaced => exact execSpnCeilReplaced_hub ..
  | spnCeilValue => exact execSpnCeilValue_hub ..
  | ceilRelayWrite => exact execCeilRelayWrite_hub ..
  | ceilStale => exact execCeilStale_hub ..
  | profileTick => exact execProfileTick_hub ..
  | axpMove => exact execAxpMove_hub ..
  | axpStop => exact execAxpStop_hub ..
  | axpResume => exact execAxpResume_hub ..
  | axpHome => exact execAxpHome_hub ..
  | axpClrFault => exact execAxpClrFault_hub ..
  | axpCtlWrite => exact execAxpCtlWrite_hub ..
  | grpMove => exact execGrpMove_hub ..
  | grpStop => exact execGrpStop_hub ..
  | grpResume => exact execGrpResume_hub ..
  | switchRawEdge => exact execSwitchRawEdge_hub ..
  | switchConfirm => exact execSwitchConfirm_hub ..
  | transferStepDone => exact execTransferStepDone_hub ..
  | headDiscTimeout => exact execHeadDiscTimeout_hub ..
  | yrdDoorOpen => exact execYrdDoorOpen_hub ..
  | doorSettled => exact execDoorSettled_hub ..
  | doorTimeout => exact execDoorTimeout_hub ..
  | inventory => exact execInventory_hub ..
  | deckScanned => exact execDeckScanned_hub ..
  | yarderPowerUpHoming => exact execYarderPowerUpHoming_hub ..
  | yrdCtlWrite => exact execYrdCtlWrite_hub ..
  | cruNow => exact execCruNow_hub ..
  | cruTempCheck => exact execCruTempCheck_hub ..
  | cruRunStart => exact execCruRunStart_hub ..
  | cruStarved => exact execCruStarved_hub ..
  | cruPointMeasured => exact execCruPointMeasured_hub ..
  | cruSpotRelease => exact execCruSpotRelease_hub ..
  | cruTapSnapshot => exact execCruTapSnapshot_hub ..
  | cruRunAbort => exact execCruRunAbort_hub ..
  | mountDarkPhase => exact execMountDarkPhase_hub ..
  | cruQualityUpdate => exact execCruQualityUpdate_hub ..
  | miuInjectArm => exact execMiuInjectArm_hub ..
  | skdHaltedClear => exact execSkdHaltedClear_hub ..
  | vmechSample => exact execVmechSample_hub ..
  | fpwVmechLow => exact execFpwVmechLow_hub ..
  | vmechLowClear => exact execVmechLowClear_hub ..
  | fpwVmechHigh => exact execFpwVmechHigh_hub ..
  | vmechHighClear => exact execVmechHighClear_hub ..
  | bayIdleSpindle => exact execBayIdleSpindle_hub ..
  | safeStateShortBrake => exact execSafeStateShortBrake_hub ..
  | _ => exact absurd h Bool.false_ne_true

/-- A command of the hub side leaves the blocks of the field dies as they were. -/
theorem exec_field {c : Instr} (h : onHub c = true) (s : State) : ∃ t, exec c s = .next t ∧ t.field = s.field := by
  cases c with
  | commit => exact execCommit_field ..
  | stagedSetActive => exact execStagedSetActive_field ..
  | flitReceive => exact execFlitReceive_field ..
  | linkNakReceived => exact execLinkNakReceived_field ..
  | creditReceived => exact execCreditReceived_field ..
  | continuationTimeout => exact execContinuationTimeout_field ..
  | portRetrainEnd => exact execPortRetrainEnd_field ..
  | flitSlotTransmit => exact execFlitSlotTransmit_field ..
  | heartbeatSend => exact execHeartbeatSend_field ..
  | heartbeat => exact execHeartbeat_field ..
  | heartbeatEcho => exact execHeartbeatEcho_field ..
  | echoLost => exact execEchoLost_field ..
  | portDown => exact execPortDown_field ..
  | signalRise => exact execSignalRise_field ..
  | haltDone => exact execHaltDone_field ..
  | haltResend => exact execHaltResend_field ..
  | queueResetDone => exact execQueueResetDone_field ..
  | queueResetResend => exact execQueueResetResend_field ..
  | regRead => exact execRegRead_field ..
  | regData => exact execRegData_field ..
  | event => exact execEvent_field ..
  | fwLoad => exact execFwLoad_field ..
  | workDone => exact execWorkDone_field ..
  | boardData => exact execBoardData_field ..
  | boardErased => exact execBoardErased_field ..
  | logDone => exact execLogDone_field ..
  | systemBoardReceive => exact execSystemBoardReceive_field ..
  | txctlPush => exact execTxctlPush_field ..
  | rxctlPop => exact execRxctlPop_field ..
  | sfeAfeWrite => exact execSfeAfeWrite_field ..
  | trnSetWrite => exact execTrnSetWrite_field ..
  | bankWordWrite => exact execBankWordWrite_field ..
  | fillTimeout => exact execFillTimeout_field ..
  | requestRetry => exact execRequestRetry_field ..
  | dirtyHandOver => exact execDirtyHandOver_field ..
  | lndRangeInvalidate => exact execLndRangeInvalidate_field ..
  | lndRangePreload => exact execLndRangePreload_field ..
  | lndRangePreloadLock => exact execLndRangePreloadLock_field ..
  | lndRangeUnlock => exact execLndRangeUnlock_field ..
  | lndRangeClean => exact execLndRangeClean_field ..
  | lndRangeScrub => exact execLndRangeScrub_field ..
  | lndRangeAbort => exact execLndRangeAbort_field ..
  | lndRangeDone => exact execLndRangeDone_field ..
  | lndCtrlWrite => exact execLndCtrlWrite_field ..
  | lndWayRetireWrite => exact execLndWayRetireWrite_field ..
  | lndCfgWrite => exact execLndCfgWrite_field ..
  | windowCommitPoint => exact execWindowCommitPoint_field ..
  | bar2Request => exact execBar2Request_field ..
  | patrolBurst => exact execPatrolBurst_field ..
  | miuInjectArm => exact execMiuInjectArm_field ..
  | openCoreWatchdog => exact execOpenCoreWatchdog_field ..
  | sessionCloseFinal => exact execSessionCloseFinal_field ..
  | generationRecord => exact execGenerationRecord_field ..
  | backgroundDirectoryRead => exact execBackgroundDirectoryRead_field ..
  | foregroundLookup => exact execForegroundLookup_field ..
  | mountComplete => exact execMountComplete_field ..
  | doorbellWrite => exact execDoorbellWrite_field ..
  | fetch => exact execFetch_field ..
  | entryReceived => exact execEntryReceived_field ..
  | completionPost => exact execCompletionPost_field ..
  | qenHalt => exact execQenHalt_field ..
  | haltCutComplete => exact execHaltCutComplete_field ..
  | qenMqCtlWrite => exact execQenMqCtlWrite_field ..
  | read => exact execRead_field ..
  | readRaw => exact execReadRaw_field ..
  | record => exact execRecord_field ..
  | preload => exact execPreload_field ..
  | fence => exact execFence_field ..
  | flush => exact execFlush_field ..
  | verifyScan => exact execVerifyScan_field ..
  | createQueuePair => exact execCreateQueuePair_field ..
  | deleteQueuePair => exact execDeleteQueuePair_field ..
  | resetQueue => exact execResetQueue_field ..
  | sessionOpen => exact execSessionOpen_field ..
  | sessionClose => exact execSessionClose_field ..
  | mount => exact execMount_field ..
  | unmount => exact execUnmount_field ..
  | moveDisc => exact execMoveDisc_field ..
  | cruiseNow => exact execCruiseNow_field ..
  | queryBay => exact execQueryBay_field ..
  | bundleDownload => exact execBundleDownload_field ..
  | scheduleActivation => exact execScheduleActivation_field ..
  | cancelActivation => exact execCancelActivation_field ..
  | confirmHealth => exact execConfirmHealth_field ..
  | getLogPage => exact execGetLogPage_field ..
  | setFeature => exact execSetFeature_field ..
  | getFeature => exact execGetFeature_field ..
  | fieldRegisterRead => exact execFieldRegisterRead_field ..
  | fieldRegisterWrite => exact execFieldRegisterWrite_field ..
  | regDataTimeout => exact execRegDataTimeout_field ..
  | scrubRange => exact execScrubRange_field ..
  | landingRangeOp => exact execLandingRangeOp_field ..
  | scaleBookStale => exact execScaleBookStale_field ..
  | scaleBookHint => exact execScaleBookHint_field ..
  | setTime => exact execSetTime_field ..
  | bar0Request => exact execBar0Request_field ..
  | bmeClear => exact execBmeClear_field ..
  | bmeSet => exact execBmeSet_field ..
  | functionLevelReset => exact execFunctionLevelReset_field ..
  | d3hotEntry => exact execD3hotEntry_field ..
  | d0Return => exact execD0Return_field ..
  | perstAssert => exact execPerstAssert_field ..
  | hotReset => exact execHotReset_field ..
  | completionReceived => exact execCompletionReceived_field ..
  | completionTimeout => exact execCompletionTimeout_field ..
  | readPieceIssue => exact execReadPieceIssue_field ..
  | msixSend => exact execMsixSend_field ..
  | msixUnmask => exact execMsixUnmask_field ..
  | linkFullRateRetrain => exact execLinkFullRateRetrain_field ..
  | hicSourceEvent => exact execHicSourceEvent_field ..
  | hicClaimRead => exact execHicClaimRead_field ..
  | hicClaimWrite => exact execHicClaimWrite_field ..
  | hicTriggerWrite => exact execHicTriggerWrite_field ..
  | hicSrcCfgWrite => exact execHicSrcCfgWrite_field ..
  | msipWrite => exact execMsipWrite_field ..
  | mtimecmpReached => exact execMtimecmpReached_field ..
  | skdStart => exact execSkdStart_field ..
  | skdAbort => exact execSkdAbort_field ..
  | skdBurstDone => exact execSkdBurstDone_field ..
  | skdDescriptorDone => exact execSkdDescriptorDone_field ..
  | skdDescriptorLoad => exact execSkdDescriptorLoad_field ..
  | skdBusError => exact execSkdBusError_field ..
  | skdHaltedClear => exact execSkdHaltedClear_field ..
  | flashOperationDone => exact execFlashOperationDone_field ..
  | activationDrainDone => exact execActivationDrainDone_field ..
  | activationFlushDone => exact execActivationFlushDone_field ..
  | activationReset => exact execActivationReset_field ..
  | bootCheck => exact execBootCheck_field s
  | romStageBoot => exact execRomStageBoot_field ..
  | stump2BringUp => exact execStump2BringUp_field ..
  | memoryInitDone => exact execMemoryInitDone_field ..
  | fpwBootGo => exact execFpwBootGo_field ..
  | fieldReady => exact execFieldReady_field ..
  | hostSupplyTrip => exact execHostSupplyTrip_field ..
  | hostSupplyRelease => exact execHostSupplyRelease_field ..
  | vauxLoss => exact execVauxLoss_field ..
  | junctionOvertempRelease => exact execJunctionOvertempRelease_field ..
  | vmechSample => exact execVmechSample_field ..
  | vmechLowClear => exact execVmechLowClear_field ..
  | fpwVmechHigh => exact execFpwVmechHigh_field ..
  | vmechHighClear => exact execVmechHighClear_field ..
  | domainSwitchOff => exact execDomainSwitchOff_field ..
  | keeperTick => exact execKeeperTick_field ..
  | pwrXtalLost => exact execPwrXtalLost_field ..
  | bayIdleSpindle => exact execBayIdleSpindle_field ..
  | bayIdleReturn => exact execBayIdleReturn_field ..
  | cqCoalesceTimeout => exact execCqCoalesceTimeout_field ..
  | fabricPllLockTimeout => exact execFabricPllLockTimeout_field ..
  | linkRecovery => exact execLinkRecovery_field ..
  | _ => exact absurd h Bool.false_ne_true

theorem step_cons (c : Instr) (rest : List Instr) (s : State) :
    step { s with pending := c :: rest } = exec c { s with pending := rest } := rfl

theorem step_of_pending_nil {s : State} (h : s.pending = []) : step s = .next (idle s) := by
  rw [step, h]

theorem step_of_pending_cons {s : State} {c : Instr} {rest : List Instr} (h : s.pending = c :: rest) :
    step s = exec c { s with pending := rest } := by
  rw [step, h]

/-- Every step goes on with the queue's rest, and keeps the form of hub memory. -/
theorem step_ok (s : State) : ∃ t, step s = .next t ∧ t.pending = s.pending.tail ∧ (s.memWf → t.memWf) := by
  cases hp : s.pending with
  | nil => exact ⟨idle s, step_of_pending_nil hp, hp, id⟩
  | cons c rest =>
    obtain ⟨t, ht, hkept, hwf⟩ := exec_ok c { s with pending := rest }
    exact ⟨t, (step_of_pending_cons hp).trans ht, congrArg Prod.fst hkept, hwf⟩

/-- Settles O1: by the two arms of the step. -/
theorem stepRunsFront : Obligations.StepRunsFront :=
  ⟨step_cons, fun _ => step_of_pending_nil⟩

/-- Settles O3: no command stops, and none changes the queue's rest. -/
theorem everyStepGoesOn : Obligations.EveryStepGoesOn := by
  intro s
  obtain ⟨t, ht, hp, -⟩ := step_ok s
  exact ⟨t, ht, hp⟩

/-- Settles O4: every command stores through writes that keep the canonical form, or stores nothing. -/
theorem memoryCanonical : Obligations.MemoryCanonical := by
  intro s t hs ht
  obtain ⟨u, hu, -, hwf⟩ := step_ok s
  obtain rfl : u = t := by simpa using hu.symm.trans ht
  exact hwf hs

/-- Settles O5: the frame of each command of either list. -/
theorem theBarrierHolds : Obligations.TheBarrierHolds := by
  intro c s t ht
  refine ⟨fun h => ?_, fun h => ?_⟩
  · obtain ⟨u, hu, hhub⟩ := exec_hub h s
    obtain rfl : u = t := by simpa using hu.symm.trans ht
    exact hhub
  · obtain ⟨u, hu, hfield⟩ := exec_field h s
    obtain rfl : u = t := by simpa using hu.symm.trans ht
    exact hfield

end Sys2Proof.Machine
end

section
/-!
REGISTER_WRITE by a core into its own local memory: the protection map has no say there (R517, R520).
-/
namespace Sys2Proof.Machine

/-- At an address of the core's own local memory the store goes through, whatever the map says. -/
theorem State.coreWrite_of_ownLocal {core a m : Nat} (h : ownLocal core a = some m) (s : State) (w : Word) :
    s.coreWrite core a w = s.storeBytes 6 m (leBytes 4 w.toNat) 2 := by
  rw [State.coreWrite, h]

theorem exec_registerWrite_hub (core : Fin 8) (bay off : Nat) (w : Word) (s : State) :
    exec (.registerWrite 0 core bay off w) s = .next (s.coreWrite core off w) := rfl

/-- Refutes O6: right after reset the map grants open core 6 nothing, and yet its store of 0 at its own local
memory at 0x1000000 is no denied access: it stores, and logs no protection event. -/
theorem not_registerWrites : ¬ Obligations.RegisterWrites := by
  rintro ⟨-, hwrites⟩
  obtain ⟨-, hdenied, -⟩ := hwrites 0 6 0 0x1000000 0 State.reset
  have hmap : State.reset.mayReach (Init.ofCore (6 : Fin 8)) 0x1000000 true = false := by decide +kernel
  have hlogged := hdenied rfl hmap
  rw [exec_registerWrite_hub, State.coreWrite_of_ownLocal (m := 0x300000) rfl] at hlogged
  have hregs := congrArg State.regs (Host.Outcome.next.inj hlogged)
  exact absurd hregs (by decide +kernel)

end Sys2Proof.Machine
end

section
/-!
Staged groups (R11, R12): the sparse stores after a group has been copied, and what COMMIT and the boundary do with them.
-/
namespace Sys2Proof.Machine

/-! ## The store after a group has been copied -/

theorem storeGet_filter (p : Nat → Bool) (m : List (Nat × Nat)) (k : Nat) :
    storeGet (m.filter fun e => p e.1) k = if p k then storeGet m k else none := by
  induction m with
  | nil => simp [storeGet]
  | cons e t ih =>
    obtain ⟨a, v⟩ := e
    by_cases hk : a = k
    · subst hk
      cases hp : p a <;> simp_all [storeGet]
    · cases hp : p a <;> simp [storeGet, hp, hk, ih]

/-- A list written over a store answers where it lists a value, and the store elsewhere. -/
theorem storeGet_foldr_storePut (l m : List (Nat × Nat)) (k : Nat) :
    storeGet (l.foldr (fun e m => storePut m e.1 e.2) m) k = (storeGet l k).or (storeGet m k) := by
  induction l with
  | nil => rfl
  | cons e t ih =>
    obtain ⟨a, v⟩ := e
    by_cases hk : a = k
    · subst hk
      simp [storeGet, storeGet_storePut_same]
    · simp [storeGet, hk, storeGet_storePut_other _ _ (Ne.symm hk), ih]

theorem storeGet_copyGroup (rs src dst : List (Nat × Nat)) (k : Nat) :
    storeGet (copyGroup rs src dst) k = if inRanges rs k then storeGet src k else storeGet dst k := by
  rw [copyGroup, storeGet_foldr_storePut, storeGet_filter (inRanges rs), storeGet_filter (fun k => !inRanges rs k)]
  cases inRanges rs k <;> simp

/-! ## Which sets wait -/

theorem isWaiting_filter_ne (s : State) (g h : Group) :
    (s.groups.filter (· ≠ g)).contains h = (s.isWaiting h && decide (h ≠ g)) := by
  rw [Bool.eq_iff_iff]
  simp [State.isWaiting]

theorem isWaiting_append (s : State) (g : Group) : (s.groups ++ [g]).contains g = true := by
  simp

/-! ## COMMIT -/

/-- A write of 1 clears neither REJECT nor OVERRUN, and commits. -/
theorem State.commitWrite_one (s : State) (g : Group) : s.commitWrite g 1 = s.commitSet g (groupOk s g) := by
  have h0 : bitOf (1 : Word).toNat 0 = true := by decide
  have h1 : bitOf (1 : Word).toNat 1 = false := by decide
  have h2 : bitOf (1 : Word).toNat 2 = false := by decide
  simp only [State.commitWrite, h0, h1, h2, if_true, Bool.false_eq_true, if_false]

theorem exec_commit (g : Group) (s : State) : exec (.commit g) s = .next (s.commitSet g (groupOk s g)) :=
  congrArg Host.Outcome.next (s.commitWrite_one g)

theorem State.commitSet_waiting {s : State} {g : Group} (h : s.isWaiting g = true) (ok : Bool) :
    s.commitSet g ok = s.put (groupCommitAt g) commitOverrun 1 := by
  rw [State.commitSet, if_pos h]

theorem State.commitSet_reject {s : State} {g : Group} (h : s.isWaiting g = false) :
    s.commitSet g false = s.put (groupCommitAt g) commitReject 1 := by
  simp [State.commitSet, h]

theorem State.commitSet_accept {s : State} {g : Group} (h : s.isWaiting g = false) :
    s.commitSet g true =
      { s with waiting := copyGroup (groupRanges g) s.staged s.waiting, groups := s.groups ++ [g] } := by
  simp [State.commitSet, h]

/-! ## The boundary -/

theorem exec_stagedSetActive {g : Group} (hg : g ≠ .lndWindow) (s : State) :
    exec (.stagedSetActive g) s = .next (s.activate g) := if_neg hg

theorem State.activate_waiting {s : State} {g : Group} (h : s.isWaiting g = true) :
    s.activate g = { s with
      regs := copyGroup (groupRanges g) s.waiting s.regs
      waiting := s.waiting.filter fun e => !inRanges (groupRanges g) e.1
      groups := s.groups.filter (· ≠ g) } := if_pos h

/-- Settles O7: the copied store answers the staged set on the group's registers and the old store elsewhere. -/
theorem stagedGroups : Obligations.StagedGroups := by
  refine ⟨fun g s => ⟨fun hw => ?_, fun hw hbad => ?_, fun hw hok => ?_⟩, fun g s hg => ⟨fun hw => ?_, fun hw => ?_⟩⟩
  · rw [exec_commit, State.commitSet_waiting hw]
  · rw [exec_commit, hbad, State.commitSet_reject hw]
  · refine ⟨_, exec_commit g s, ?_⟩
    rw [hok, State.commitSet_accept hw]
    exact ⟨rfl, isWaiting_append s g, storeGet_copyGroup _ _ _⟩
  · rw [exec_stagedSetActive hg, State.activate, if_neg (by simp [hw])]
  · refine ⟨_, exec_stagedSetActive hg s, ?_⟩
    rw [State.activate_waiting hw]
    refine ⟨rfl, ?_, fun h hne => ?_, fun k => ⟨storeGet_copyGroup _ _ _ k, ?_⟩⟩
    · exact (isWaiting_filter_ne s g g).trans (by simp)
    · exact (isWaiting_filter_ne s g h).trans (by simp [hne])
    · refine (storeGet_filter (fun k => !inRanges (groupRanges g) k) s.waiting k).trans ?_
      cases inRanges (groupRanges g) k <;> rfl

end Sys2Proof.Machine
end

section
/-!
The media format: LBAs and their places (R65), and the channel words of nibbles (R51–R54).
-/
namespace Sys2Proof.Machine

/-! ## Places of LBAs -/

theorem lbaOfPlace_placeOfLba (a : Nat) : lbaOfPlace (placeOfLba a) = a := by
  simp only [lbaOfPlace, placeOfLba, boardsPerLayer]
  omega

/-- The places of a disc: 16 layers, the logs of a layer, 16 data boards of a log. -/
theorem placeOfLba_bounds {a : Nat} (h : a < lbaEnd) :
    (placeOfLba a).layer < 16 ∧ (placeOfLba a).log < logsPerLayer ∧ (placeOfLba a).index < 16 := by
  simp only [placeOfLba, boardsPerLayer, lbaEnd, logsPerLayer] at *
  omega

theorem lbaOfPlace_lt {p : Place} (hl : p.layer < 16) (hlog : p.log < logsPerLayer) (hi : p.index < 16) :
    lbaOfPlace p < lbaEnd := by
  simp only [lbaOfPlace, boardsPerLayer, lbaEnd, logsPerLayer] at *
  omega

theorem placeOfLba_lbaOfPlace {p : Place} (hlog : p.log < logsPerLayer) (hi : p.index < 16) :
    placeOfLba (lbaOfPlace p) = p := by
  obtain ⟨layer, log, index⟩ := p
  simp only [lbaOfPlace, placeOfLba, boardsPerLayer, logsPerLayer, Place.mk.injEq] at *
  omega

/-- Settles O16: a layer holds exactly 16 boards for each of its logs, so the division leaves its own parts. -/
theorem lbaPlaces : Obligations.LbaPlaces := by
  refine ⟨fun a ha => ⟨lbaOfPlace_placeOfLba a, placeOfLba_bounds ha⟩, fun p hl hlog hi => ?_⟩
  exact ⟨lbaOfPlace_lt hl hlog hi, placeOfLba_lbaOfPlace hlog hi⟩

/-! ## One channel word -/

/-- The 5 bits of a nibble's primary or alternate word (R52). -/
def IsWordOf (n : Nat) (w : List Bool) : Prop := w = msbBits 5 (primaryWord n) ∨ w = msbBits 5 (alternateWord n)

theorem IsWordOf.length_eq {n : Nat} {w : List Bool} (h : IsWordOf n w) : w.length = 5 := by
  rcases h with rfl | rfl <;> simp [msbBits]

/-- No word belongs to two nibbles. -/
theorem IsWordOf.nibbleOfWord_eq {n : Nat} {w : List Bool} (h : IsWordOf n w) (hn : n < 16) :
    nibbleOfWord (ofMsb w) = some n := by
  have hread : ∀ n < 16, nibbleOfWord (ofMsb (msbBits 5 (primaryWord n))) = some n
      ∧ nibbleOfWord (ofMsb (msbBits 5 (alternateWord n))) = some n := by decide
  rcases h with rfl | rfl
  · exact (hread n hn).1
  · exact (hread n hn).2

/-- No word begins with four 0s, and so none is all 0. -/
theorem IsWordOf.not_four_zeros {n : Nat} {w : List Bool} (h : IsWordOf n w) (hn : n < 16) :
    ¬List.replicate 4 false <+: w := by
  have hbits : ∀ n < 16, ¬List.replicate 4 false <+: msbBits 5 (primaryWord n)
      ∧ ¬List.replicate 4 false <+: msbBits 5 (alternateWord n) := by decide
  rcases h with rfl | rfl
  · exact (hbits n hn).1
  · exact (hbits n hn).2

theorem encodeNibble_spec (r : Rds) (n : Nat) :
    IsWordOf n (encodeNibble r n).1 ∧ (encodeNibble r n).2 = r.bits (encodeNibble r n).1 := by
  simp only [encodeNibble]
  split
  · exact ⟨.inr rfl, rfl⟩
  · exact ⟨.inl rfl, rfl⟩

/-! ## A run of channel words -/

theorem encodeNibbles_cons_fst (r : Rds) (n : Nat) (ns : List Nat) :
    (encodeNibbles r (n :: ns)).1 = (encodeNibble r n).1 ++ (encodeNibbles (encodeNibble r n).2 ns).1 := rfl

theorem encodeNibbles_cons_snd (r : Rds) (n : Nat) (ns : List Nat) :
    (encodeNibbles r (n :: ns)).2 = (encodeNibbles (encodeNibble r n).2 ns).2 := rfl

theorem encodeNibbles_length (r : Rds) (ns : List Nat) : (encodeNibbles r ns).1.length = 5 * ns.length := by
  induction ns generalizing r with
  | nil => rfl
  | cons n ns ih =>
    rw [encodeNibbles_cons_fst, List.length_append, (encodeNibble_spec r n).1.length_eq, ih, List.length_cons]
    omega

theorem encodeNibbles_rds (r : Rds) (ns : List Nat) : (encodeNibbles r ns).2 = r.bits (encodeNibbles r ns).1 := by
  induction ns generalizing r with
  | nil => rfl
  | cons n ns ih =>
    rw [encodeNibbles_cons_snd, encodeNibbles_cons_fst, ih]
    conv_lhs => arg 1; rw [(encodeNibble_spec r n).2]
    exact (List.foldl_append ..).symm

theorem encodeNibbles_read (r : Rds) {ns : List Nat} (hns : ∀ n ∈ ns, n < 16) {i : Nat} (hi : i < ns.length) :
    nibbleOfWord (ofMsb (((encodeNibbles r ns).1.drop (5 * i)).take 5)) = ns[i]? := by
  induction ns generalizing r i with
  | nil => simp at hi
  | cons n ns ih =>
    have hword := (encodeNibble_spec r n).1
    rw [encodeNibbles_cons_fst]
    cases i with
    | zero =>
      rw [Nat.mul_zero, List.drop_zero, ← hword.length_eq, List.take_left]
      exact hword.nibbleOfWord_eq (hns n List.mem_cons_self)
    | succ i =>
      have hdrop : 5 * (i + 1) = (encodeNibble r n).1.length + 5 * i := by
        rw [hword.length_eq]
        omega
      rw [hdrop, List.drop_length_add_append, List.getElem?_cons_succ]
      exact ih _ (fun m hm => hns m (List.mem_cons_of_mem _ hm)) (Nat.lt_of_succ_lt_succ hi)

theorem encodeNibbles_not_four_zeros (r : Rds) {ns : List Nat} (hns : ∀ n ∈ ns, n < 16) :
    ¬List.replicate 4 false <+: (encodeNibbles r ns).1 := by
  cases ns with
  | nil => simp [encodeNibbles]
  | cons n ns =>
    have hword := (encodeNibble_spec r n).1
    rw [encodeNibbles_cons_fst]
    intro hzeros
    refine hword.not_four_zeros (hns n List.mem_cons_self) ?_
    exact List.prefix_of_prefix_length_le hzeros (List.prefix_append ..) (by simp [hword.length_eq])

/-- Nine 0s would hold four 0s at the beginning of a word. -/
theorem encodeNibbles_not_nine_zeros (r : Rds) {ns : List Nat} (hns : ∀ n ∈ ns, n < 16) (i : Nat) :
    ¬List.replicate 9 false <+: (encodeNibbles r ns).1.drop i := by
  induction ns generalizing r i with
  | nil => simp [encodeNibbles]
  | cons n ns ih =>
    have hword := (encodeNibble_spec r n).1.length_eq
    have hns' : ∀ m ∈ ns, m < 16 := fun m hm => hns m (List.mem_cons_of_mem _ hm)
    intro hzeros
    rcases Nat.lt_or_ge i 5 with hi | hi
    · obtain rfl | hpos : i = 0 ∨ 0 < i := by omega
      · refine encodeNibbles_not_four_zeros r hns (List.IsPrefix.trans ?_ hzeros)
        exact ⟨List.replicate 5 false, rfl⟩
      · rw [encodeNibbles_cons_fst, List.drop_append_of_le_length (by omega)] at hzeros
        have htail := hzeros.drop (5 - i)
        rw [List.drop_replicate, List.drop_left' (by simp [hword])] at htail
        refine encodeNibbles_not_four_zeros _ hns' (List.IsPrefix.trans ?_ htail)
        exact List.prefix_replicate_iff.2 ⟨by simp; omega, by simp⟩
    · rw [encodeNibbles_cons_fst, show i = (encodeNibble r n).1.length + (i - 5) by omega,
        List.drop_length_add_append] at hzeros
      exact ih _ hns' _ hzeros

/-- Settles O17: word by word, by induction over the nibbles. -/
theorem modulationReads : Obligations.ModulationReads := by
  intro r ns hns
  exact ⟨encodeNibbles_length r ns, fun i hi => encodeNibbles_read r hns hi, encodeNibbles_not_nine_zeros r hns,
    encodeNibbles_rds r ns⟩

end Sys2Proof.Machine
end

section
/-!
The extent a board resolves to (R422), the decision of a command (R444, R597), and the fences (R439, R440).
-/
namespace Sys2Proof.Machine

/-! ## The extent of the lowest slot -/

/-- The extent that stays, of the one kept so far and the next. -/
def lowerExtent (b : Option Extent) (e : Extent) : Option Extent :=
  b.elim (some e) fun x => if e.slot < x.slot then some e else some x

/-- The first extent of the lowest slot. -/
def lowestExtent (l : List Extent) : Option Extent := l.foldl lowerExtent none

theorem foldl_lowerExtent_some (l : List Extent) (a : Extent) :
    ∃ e, l.foldl lowerExtent (some a) = some e ∧ e ∈ a :: l ∧ ∀ x ∈ a :: l, e.slot ≤ x.slot := by
  induction l generalizing a with
  | nil => exact ⟨a, rfl, by simp, by simp⟩
  | cons b l ih =>
    by_cases hlt : b.slot < a.slot
    · obtain ⟨e, he, hmem, hmin⟩ := ih b
      refine ⟨e, by simpa [lowerExtent, hlt] using he, List.mem_cons_of_mem _ hmem, ?_⟩
      have := hmin b List.mem_cons_self
      exact List.forall_mem_cons.2 ⟨by omega, hmin⟩
    · obtain ⟨e, he, hmem, hmin⟩ := ih a
      refine ⟨e, by simpa [lowerExtent, hlt] using he, ?_, ?_⟩
      · rcases List.mem_cons.1 hmem with rfl | hmem <;> simp_all
      · have := hmin a List.mem_cons_self
        refine List.forall_mem_cons.2 ⟨this, List.forall_mem_cons.2 ⟨by omega, ?_⟩⟩
        exact fun x hx => hmin x (List.mem_cons_of_mem _ hx)

theorem lowestExtent_eq_none {l : List Extent} : lowestExtent l = none ↔ l = [] := by
  cases l with
  | nil => exact iff_of_true rfl rfl
  | cons a l =>
    obtain ⟨e, he, -⟩ := foldl_lowerExtent_some l a
    exact iff_of_false (by simpa [lowestExtent, lowerExtent] using ne_of_eq_of_ne he (by simp)) (by simp)

theorem lowestExtent_eq_some {l : List Extent} {e : Extent} (h : lowestExtent l = some e) :
    e ∈ l ∧ ∀ x ∈ l, e.slot ≤ x.slot := by
  cases l with
  | nil => simp [lowestExtent] at h
  | cons a l =>
    obtain ⟨f, hf, hmem, hmin⟩ := foldl_lowerExtent_some l a
    obtain rfl : f = e := Option.some.inj (hf.symm.trans h)
    exact ⟨hmem, hmin⟩

theorem foldl_eq_lowestExtent {f : Option Extent → Extent → Option Extent} (hnone : ∀ e, f none e = some e)
    (hsome : ∀ x e, f (some x) e = if e.slot < x.slot then some e else some x) (l : List Extent) :
    l.foldl f none = lowestExtent l := by
  have hf : f = lowerExtent := by
    funext b e
    cases b with
    | none => exact hnone e
    | some x => exact hsome x e
  rw [hf, lowestExtent]

/-! ## Resolving a board -/

/-- The VALID extents that cover a board. -/
def State.validExtents (s : State) (title board : Nat) : List Extent :=
  s.vlk.extents.filter fun e => e.covers title board && decide (e.st = .valid)

theorem mem_validExtents {s : State} {title board : Nat} {e : Extent} : e ∈ s.validExtents title board ↔
    e ∈ s.vlk.extents ∧ e.st = .valid ∧ e.title = title ∧ e.offset ≤ board ∧ board < e.offset + e.count := by
  simp [State.validExtents, Extent.covers]
  tauto

/-- The lowest slot among mounted discs, and the lowest of all where none of them is mounted. -/
theorem State.resolve_eq (s : State) (title board : Nat) : s.resolve title board =
    (lowestExtent ((s.validExtents title board).filter fun e => s.slotMounted e.slot)).or
      (lowestExtent (s.validExtents title board)) := by
  simp only [State.resolve]
  rw [foldl_eq_lowestExtent (fun _ => rfl) (fun _ _ => rfl), foldl_eq_lowestExtent (fun _ => rfl) (fun _ _ => rfl)]
  rw [State.validExtents]
  split
  · next hm => rw [hm, Option.some_or]
  · next hm => rw [hm, Option.none_or]

theorem State.resolve_eq_some {s : State} {title board : Nat} {e : Extent} (h : s.resolve title board = some e) :
    e ∈ s.validExtents title board ∧ ∀ x ∈ s.validExtents title board,
      (s.slotMounted x.slot = true → s.slotMounted e.slot = true)
      ∧ (s.slotMounted x.slot = s.slotMounted e.slot → e.slot ≤ x.slot) := by
  rw [State.resolve_eq] at h
  cases hm : lowestExtent ((s.validExtents title board).filter fun e => s.slotMounted e.slot) with
  | some m =>
    obtain rfl : m = e := by simpa [hm] using h
    obtain ⟨hmem, hmin⟩ := lowestExtent_eq_some hm
    obtain ⟨hvalid, hmounted⟩ := List.mem_filter.1 hmem
    exact ⟨hvalid, fun x hx => ⟨fun _ => hmounted, fun heq => hmin x (List.mem_filter.2 ⟨hx, heq.trans hmounted⟩)⟩⟩
  | none =>
    have hnone := lowestExtent_eq_none.1 hm
    obtain ⟨hmem, hmin⟩ := lowestExtent_eq_some (by simpa [hm] using h)
    exact ⟨hmem, fun x hx => ⟨fun hx' => by simpa [hx'] using List.filter_eq_nil_iff.1 hnone x hx, fun _ => hmin x hx⟩⟩

theorem State.resolve_eq_none {s : State} {title board : Nat} (h : s.resolve title board = none) :
    s.validExtents title board = [] := by
  rw [State.resolve_eq, Option.or_eq_none_iff] at h
  exact lowestExtent_eq_none.1 h.2

/-- Settles O41: the two searches for the lowest slot, among mounted discs and among all. -/
theorem boardsResolve : Obligations.BoardsResolve := by
  intro s title board
  simp only [← mem_validExtents]
  exact ⟨fun e => State.resolve_eq_some, fun h x hx => by simp [State.resolve_eq_none h] at hx⟩

/-! ## Deciding a command -/

/-- The completion that a decision leaves. -/
def Cmd.post (c : Cmd) (status result : Nat) : Post :=
  { cid := c.id, func := c.func, qid := c.qid, tag := c.tag, status, result, opcode := c.opcode, addr := c.address }

/-- A decision takes the command out of the queue engine's list and puts its completion behind the others. -/
theorem State.finish_qen {s : State} {c : Cmd} (h : s.cmd c.id ≠ none) (status result : Nat) :
    (s.finish c status result).qen =
      { s.qen with cmds := s.qen.cmds.filter (·.id ≠ c.id), posts := s.qen.posts ++ [c.post status result] } := by
  have hcmd : (s.cmd c.id).isNone = false := Option.isNone_eq_false_iff.2 (Option.isSome_iff_ne_none.2 h)
  unfold State.finish
  rw [hcmd, if_neg Bool.false_ne_true]
  dsimp only
  split <;> rfl

theorem State.finish_mem (s : State) (c : Cmd) (status result : Nat) : (s.finish c status result).mem = s.mem := by
  unfold State.finish
  split
  · rfl
  · dsimp only
    split <;> rfl

theorem State.finish_of_cmd_none {s : State} {c : Cmd} (h : s.cmd c.id = none) (status result : Nat) :
    s.finish c status result = s := by
  rw [State.finish, h, Option.isNone_none, if_pos rfl]

theorem State.finish_cmd {s : State} {c : Cmd} (h : s.cmd c.id ≠ none) (status result id : Nat) :
    (s.finish c status result).cmd id = if id = c.id then none else s.cmd id := by
  rw [State.cmd, State.finish_qen h, State.cmd]
  split
  · next heq => simp [heq]
  · next hne =>
    rw [List.find?_filter]
    congr 1
    funext x
    grind

/-! ## Fences -/

/-- Some command of the same SQ, fetched before and not yet posted, has an opcode with a property. -/
def State.earlierWith (s : State) (c : Cmd) (p : Nat → Prop) : Prop :=
  (∃ x ∈ s.qen.cmds, x.func = c.func ∧ x.qid = c.qid ∧ x.id < c.id ∧ p x.opcode)
  ∨ ∃ x ∈ s.qen.posts, x.func = c.func ∧ x.qid = c.qid ∧ x.cid < c.id ∧ p x.opcode

theorem State.earlierWith_iff {s : State} {c : Cmd} {p : Nat → Prop} :
    s.earlierWith c p ↔ ∃ op ∈ s.earlier c, p op := by
  simp [State.earlierWith, State.earlier, or_and_right, exists_or, and_assoc]

theorem State.mayStart_eq_false {s : State} {c : Cmd} : s.mayStart c = false ↔
    s.earlierWith c (fun o => o = 0x05) ∨ ((c.fenceBefore = true ∨ c.opcode = 0x05) ∧ s.earlierWith c fun _ => True) := by
  simp only [State.earlierWith_iff, State.mayStart]
  cases s.earlier c <;> simp
  grind

/-- The command of a row waits: it is not checked, has another opcode, or a fence holds it. -/
def State.Waits (s : State) (id op : Nat) : Prop :=
  ∀ c, s.cmd id = some c → c.st ≠ .checked ∨ c.opcode ≠ op ∨ s.earlierWith c (fun o => o = 0x05)
    ∨ ((c.fenceBefore = true ∨ c.opcode = 0x05) ∧ s.earlierWith c fun _ => True)

theorem State.startable_eq_none {s : State} {id op : Nat} : s.startable id op = none ↔ s.Waits id op := by
  unfold State.startable State.Waits
  cases s.cmd id with
  | none => simp
  | some c =>
    simp only [← State.mayStart_eq_false, Option.some.injEq, forall_eq']
    cases s.mayStart c <;> simp
    tauto

theorem State.starts_of_waits {s : State} {id op : Nat} (h : s.Waits id op) (f : State → Cmd → State) :
    s.starts id op f = s := by
  rw [State.starts, State.startable_eq_none.2 h]

theorem next_starts_of_waits {s : State} {id op : Nat} (h : s.Waits id op) (f : State → Cmd → State) :
    (.next (s.starts id op f) : Host.Outcome State Fault Refusal) = .next s :=
  congrArg _ (State.starts_of_waits h f)

/-- The rows that look at their command before they start it do nothing either. -/
theorem exec_bundleDownload_of_waits {s : State} {id : Nat} (h : s.Waits id 0x90) :
    exec (.bundleDownload id) s = .next s := by
  show execBundleDownload id s = _
  unfold execBundleDownload
  split
  · rfl
  · exact next_starts_of_waits h _

theorem exec_scaleBook_of_waits {s : State} {id : Nat} (h : s.Waits id 0x9C) :
    exec (.scaleBookStale id) s = .next s ∧ exec (.scaleBookHint id) s = .next s := by
  show execScaleBookStale id s = _ ∧ execScaleBookHint id s = _
  unfold execScaleBookStale execScaleBookHint
  refine ⟨?_, ?_⟩
  all_goals
    split
    · split
      · rfl
      · exact next_starts_of_waits h _
    · rfl

/-- Settles O46: a decision by what it does to the queue engine, a row that waits by the command it does not find. -/
theorem commandsAndFences : Obligations.CommandsAndFences := by
  refine ⟨fun s c st r => ⟨fun h => State.finish_of_cmd_none h st r, fun h => ?_⟩, fun id s => ?_⟩
  · refine ⟨by simp [State.finish_cmd h], ⟨c.post st r, by rw [State.finish_qen h], rfl, rfl, rfl, rfl, rfl, rfl⟩,
      fun id hid => by simp [State.finish_cmd h, hid], State.finish_mem s c st r, by rw [State.finish_qen h]⟩
  · exact ⟨fun op => State.startable_eq_none, fun h => next_starts_of_waits h _, fun h => next_starts_of_waits h _,
      fun h => next_starts_of_waits h _, fun h => next_starts_of_waits h _, fun h => next_starts_of_waits h _,
      fun h => next_starts_of_waits h _, fun h => next_starts_of_waits h _, fun h => next_starts_of_waits h _,
      fun h => next_starts_of_waits h _, fun h => next_starts_of_waits h _, fun h => next_starts_of_waits h _,
      fun h => next_starts_of_waits h _, fun h => next_starts_of_waits h _, fun h => next_starts_of_waits h _,
      fun h => next_starts_of_waits h _, fun h => next_starts_of_waits h _, fun h => next_starts_of_waits h _,
      fun h => exec_bundleDownload_of_waits h, fun h => next_starts_of_waits h _, fun h => next_starts_of_waits h _,
      fun h => next_starts_of_waits h _, fun h => next_starts_of_waits h _, fun h => next_starts_of_waits h _,
      fun h => next_starts_of_waits h _, fun h => next_starts_of_waits h _, fun h => next_starts_of_waits h _,
      fun h => next_starts_of_waits h _, fun h => next_starts_of_waits h _, fun h => exec_scaleBook_of_waits h,
      fun h => next_starts_of_waits h _⟩

end Sys2Proof.Machine
end

section
/-!
The laws of a turn-engine slot (R232–R235, R242) and of a selector (R244): what each helper of an evaluation does, and what
the three laws make of it.
-/
namespace Sys2Proof.Machine

/-! ## Clamps, the integrator and the slew -/

theorem clampInt_mem {lo hi : Int} (h : lo ≤ hi) (x : Int) : lo ≤ clampInt lo hi x ∧ clampInt lo hi x ≤ hi := by
  unfold clampInt
  split
  · omega
  · split <;> omega

/-- The integrator keeps its limits (R233). -/
theorem integrate_mem {c : SlotCfg} {i : Int} (hlo : c.iMin ≤ i) (hhi : i ≤ c.iMax) (d : Int) :
    c.iMin ≤ integrate c i d ∧ integrate c i d ≤ c.iMax := by
  unfold integrate
  split_ifs <;> omega

/-- At or past the upper limit the integrator only falls (R233). -/
theorem integrate_le {c : SlotCfg} {i : Int} (h : c.iMax ≤ i) (d : Int) : integrate c i d ≤ i := by
  unfold integrate
  split_ifs <;> omega

/-- At or past the lower limit the integrator only rises (R233). -/
theorem le_integrate {c : SlotCfg} {i : Int} (h : i ≤ c.iMin) (d : Int) : i ≤ integrate c i d := by
  unfold integrate
  split_ifs <;> omega

/-- A slew moves by at most HO_RATE (R242). -/
theorem slewStep_sub_le {c : SlotCfg} (h : 0 ≤ c.hoRate) (y u : Int) : |(slewStep c y u).1 - y| ≤ c.hoRate := by
  unfold slewStep
  split
  · next hnear => exact hnear
  · have hclamp := clampInt_mem (lo := -c.hoRate) (hi := c.hoRate) (by omega) (u - y)
    rw [add_sub_cancel_left]
    exact abs_le.2 hclamp

theorem emitOut_still (c : SlotCfg) (x : TrnSlot) (y u : Int) :
    emitOut c x y false u = { x with out := u, slewing := false } := rfl

theorem emitOut_slew (c : SlotCfg) (x : TrnSlot) (y u : Int) :
    emitOut c x y true u = { x with out := (slewStep c y u).1, slewing := (slewStep c y u).2 } := rfl

/-- Only the output and the slew change. -/
theorem emitOut_eq (c : SlotCfg) (x : TrnSlot) (y : Int) (slew : Bool) (u : Int) :
    emitOut c x y slew u = { x with out := (emitOut c x y slew u).out, slewing := (emitOut c x y slew u).slewing } := by
  cases slew <;> rfl

theorem propPath_eq (c : SlotCfg) (x : TrnSlot) (e : Int) : (propPath c x e).2 =
    { x with s1 := (propPath c x e).2.s1, s2 := (propPath c x e).2.s2, sat := (propPath c x e).2.sat } := rfl

/-! ## What every law keeps -/

/-- The slot of a linear evaluation changes in its integrator, its output and its marks alone. -/
theorem evalLinear_frame (c : SlotCfg) (x : TrnSlot) (e : Int) (hand : Option Int) :
    (evalLinear c x e hand).1.hand = x.hand ∧ (evalLinear c x e hand).1.err = x.err
      ∧ (evalLinear c x e hand).1.band = x.band := by
  cases hand with
  | none =>
    simp only [evalLinear]
    rw [emitOut_eq, propPath_eq]
    exact ⟨rfl, rfl, rfl⟩
  | some y =>
    simp only [evalLinear]
    split
    · exact ⟨rfl, rfl, rfl⟩
    · exact ⟨rfl, rfl, rfl⟩

theorem evalBand_frame (c : SlotCfg) (x : TrnSlot) (hi : Bool) (hand : Option Int) :
    (evalBand c x hi hand).1.hand = x.hand ∧ (evalBand c x hi hand).1.err = x.err
      ∧ (evalBand c x hi hand).1.band = x.band ∧ (evalBand c x hi hand).1.int = x.int
      ∧ (evalBand c x hi hand).1.hi = hi := by
  cases hand with
  | none =>
    simp only [evalBand]
    rw [emitOut_eq]
    exact ⟨rfl, rfl, rfl, rfl, rfl⟩
  | some y => exact ⟨rfl, rfl, rfl, rfl, rfl⟩

/-- The mode of a composite slot after an error: it enters BAND past a threshold, and leaves it well inside them (R235). -/
def bandMode (c : SlotCfg) (x : TrnSlot) (e : Int) : Bool :=
  (x.band || (!x.band && (decide (c.thUp ≤ e) || decide (e ≤ c.thDn))))
    && !(x.band && decide (c.thDn + c.hyst < e ∧ e < c.thUp - c.hyst))

/-- A composite evaluation is one of the two laws, in its mode. -/
theorem evalComposite_cases (c : SlotCfg) (x : TrnSlot) (e : Int) (hand : Option Int) : ∃ h : Option Int,
    evalComposite c x e hand =
      if bandMode c x e then evalBand c { (propPath c x e).2 with band := true } (bandState c x.hi e) h
      else evalLinear c { x with band := false } e h := ⟨_, rfl⟩

theorem evalComposite_frame (c : SlotCfg) (x : TrnSlot) (e : Int) (hand : Option Int) :
    (evalComposite c x e hand).1.hand = x.hand ∧ (evalComposite c x e hand).1.err = x.err
      ∧ (evalComposite c x e hand).1.band = bandMode c x e
      ∧ (bandMode c x e = true → (evalComposite c x e hand).1.int = x.int) := by
  obtain ⟨h, heq⟩ := evalComposite_cases c x e hand
  rw [heq]
  cases bandMode c x e with
  | true =>
    obtain ⟨hhand, herr, hband, hint, -⟩ :=
      evalBand_frame c { (propPath c x e).2 with band := true } (bandState c x.hi e) h
    exact ⟨hhand, herr, hband, fun _ => hint⟩
  | false =>
    obtain ⟨hhand, herr, hband⟩ := evalLinear_frame c { x with band := false } e h
    exact ⟨hhand, herr, hband, fun h => absurd h Bool.false_ne_true⟩

theorem bandMode_past {c : SlotCfg} {x : TrnSlot} {e : Int} (hh : 0 ≤ c.hyst) (h : c.thUp ≤ e ∨ e ≤ c.thDn) :
    bandMode c x e = true := by
  have hstay : ¬(c.thDn + c.hyst < e ∧ e < c.thUp - c.hyst) := by omega
  cases hb : x.band <;> simp [bandMode, hb, hstay, h]

theorem bandMode_inside {c : SlotCfg} {x : TrnSlot} {e : Int} (hh : 0 ≤ c.hyst) (hdn : c.thDn + c.hyst < e)
    (hup : e < c.thUp - c.hyst) : bandMode c x e = false := by
  have hup' : ¬c.thUp ≤ e := by omega
  have hdn' : ¬e ≤ c.thDn := by omega
  cases hb : x.band <;> simp [bandMode, hb, hup, hdn, hup', hdn']

/-! ## The linear law -/

/-- Without a hand-over: the integrator takes its step, and the output the clamped sum, at once or slewing. -/
theorem evalLinear_none (c : SlotCfg) (x : TrnSlot) (e : Int) : ∃ d v,
    (evalLinear c x e none).1.int = integrate c x.int d
    ∧ (evalLinear c x e none).1.out = (emitOut c x x.out x.slewing (clampInt c.outMin c.outMax v)).out := by
  refine ⟨(satTo 32 (coefMul 28 c.ki (propPath c x e).1)).1, (linSum c (propPath c x e).1
    (integrate c x.int (satTo 32 (coefMul 28 c.ki (propPath c x e).1)).1)).1, rfl, ?_⟩
  cases hs : x.slewing <;> simp only [evalLinear, propPath, hs] <;> rfl

/-- A hand-over that no clamp forbids: the integrator is set so that the output starts from the outgoing value (R242). -/
theorem evalLinear_hand {c : SlotCfg} {x : TrnSlot} {e y : Int}
    (hlo : c.iMin ≤ (satTo 32 (y - coefMul 28 c.kp (propPath c x e).1)).1)
    (hhi : (satTo 32 (y - coefMul 28 c.kp (propPath c x e).1)).1 ≤ c.iMax) :
    (evalLinear c x e (some y)).1.out = y
    ∧ (evalLinear c x e (some y)).1.int = (satTo 32 (y - coefMul 28 c.kp (propPath c x e).1)).1
    ∧ (evalLinear c x e (some y)).1.slewing = false := by
  simp only [evalLinear]
  rw [if_pos ⟨hlo, hhi⟩]
  exact ⟨rfl, rfl, rfl⟩

/-! ## The evaluation under each law -/

/-- The slot as an evaluation starts from it. -/
def TrnSlot.begin_ (x : TrnSlot) (e : Int) : TrnSlot := { x with hand := none, sat := false, err := e }

theorem evalLaw_linear {c : SlotCfg} (h : c.law = .linear) (x : TrnSlot) (e : Int) :
    evalLaw c x e = evalLinear c (x.begin_ e) e x.hand := by
  simp only [evalLaw, h]
  rfl

theorem evalLaw_band {c : SlotCfg} (h : c.law = .band) (x : TrnSlot) (e : Int) :
    evalLaw c x e = evalBand c (x.begin_ e) (bandState c x.hi e) x.hand := by
  simp only [evalLaw, h]
  rfl

theorem evalLaw_composite {c : SlotCfg} (h : c.law = .composite) (x : TrnSlot) (e : Int) :
    evalLaw c x e = evalComposite c (x.begin_ e) e x.hand := by
  simp only [evalLaw, h]
  rfl

/-- Whatever the law, the hand-over is spent and the error kept. -/
theorem evalLaw_frame (c : SlotCfg) (x : TrnSlot) (e : Int) : (evalLaw c x e).1.hand = none ∧ (evalLaw c x e).1.err = e := by
  cases h : c.law with
  | linear =>
    rw [evalLaw_linear h]
    exact ⟨(evalLinear_frame ..).1, (evalLinear_frame ..).2.1⟩
  | band =>
    rw [evalLaw_band h]
    exact ⟨(evalBand_frame ..).1, (evalBand_frame ..).2.1⟩
  | composite =>
    rw [evalLaw_composite h]
    exact ⟨(evalComposite_frame ..).1, (evalComposite_frame ..).2.1⟩

theorem evalLaw_linear_none {c : SlotCfg} (hlaw : c.law = .linear) {x : TrnSlot} (hhand : x.hand = none) (e : Int) :
    let r := (evalLaw c x e).1
    (c.iMin ≤ x.int → x.int ≤ c.iMax → c.iMin ≤ r.int ∧ r.int ≤ c.iMax) ∧ (c.iMax ≤ x.int → r.int ≤ x.int)
    ∧ (x.int ≤ c.iMin → x.int ≤ r.int) ∧ (x.slewing = false → c.outMin ≤ c.outMax → c.outMin ≤ r.out ∧ r.out ≤ c.outMax)
    ∧ (x.slewing = true → 0 ≤ c.hoRate → |r.out - x.out| ≤ c.hoRate) := by
  obtain ⟨d, v, hint, hout⟩ := evalLinear_none c (x.begin_ e) e
  rw [evalLaw_linear hlaw, hhand]
  dsimp only
  rw [hint, hout]
  refine ⟨fun h1 h2 => integrate_mem h1 h2 d, fun h => integrate_le h d, fun h => le_integrate h d, fun hs hle => ?_,
    fun hs hrate => ?_⟩
  · have hstill : (x.begin_ e).slewing = false := hs
    rw [hstill, emitOut_still]
    exact clampInt_mem hle v
  · have hslew : (x.begin_ e).slewing = true := hs
    rw [hslew, emitOut_slew]
    exact slewStep_sub_le hrate _ _

/-- The band law is hysteretic, and leaves the integrator alone (R234). -/
theorem evalLaw_band_none {c : SlotCfg} (hlaw : c.law = .band) {x : TrnSlot} (hhand : x.hand = none) (e : Int) :
    let r := (evalLaw c x e).1
    (c.thUp ≤ e → r.hi = true) ∧ (e < c.thUp → e ≤ c.thDn → r.hi = false) ∧ (c.thDn < e → e < c.thUp → r.hi = x.hi)
    ∧ r.int = x.int ∧ (x.slewing = false → r.out = if r.hi then c.lvlHi else c.lvlLo) := by
  obtain ⟨-, -, -, hint, hhi⟩ := evalBand_frame c (x.begin_ e) (bandState c x.hi e) none
  rw [evalLaw_band hlaw, hhand]
  dsimp only
  rw [hint, hhi]
  refine ⟨fun h => if_pos h, fun h1 h2 => ?_, fun h1 h2 => ?_, rfl, fun hs => ?_⟩
  · rw [bandState, if_neg (by omega), if_pos h2]
  · rw [bandState, if_neg (by omega), if_neg (by omega)]
  · have hstill : (x.begin_ e).slewing = false := hs
    simp only [evalBand, hstill, emitOut_still]

theorem evalLaw_band_hand {c : SlotCfg} (hlaw : c.law = .band) {x : TrnSlot} {y : Int} (hhand : x.hand = some y) (e : Int)
    (hrate : 0 ≤ c.hoRate) : |(evalLaw c x e).1.out - y| ≤ c.hoRate := by
  rw [evalLaw_band hlaw, hhand]
  simp only [evalBand, emitOut_slew]
  exact slewStep_sub_le hrate _ _

theorem evalLaw_composite_modes {c : SlotCfg} (hlaw : c.law = .composite) (x : TrnSlot) (e : Int) (hh : 0 ≤ c.hyst) :
    let r := (evalLaw c x e).1
    (c.thUp ≤ e ∨ e ≤ c.thDn → r.band = true ∧ r.int = x.int)
    ∧ (c.thDn + c.hyst < e → e < c.thUp - c.hyst → r.band = false) := by
  obtain ⟨-, -, hband, hint⟩ := evalComposite_frame c (x.begin_ e) e x.hand
  rw [evalLaw_composite hlaw]
  refine ⟨fun h => ?_, fun h1 h2 => ?_⟩
  · have hmode : bandMode c (x.begin_ e) e = true := bandMode_past hh h
    exact ⟨hband.trans hmode, hint hmode⟩
  · exact hband.trans (bandMode_inside hh h1 h2)

/-! ## The selector -/

/-- The lowest output of the members, and the first member that has it (R244). -/
theorem lowest_spec {s : State} {d : Die} {ns : List (Fin 48)} {n : Fin 48} (hns : ns.Pairwise (· < ·))
    (h : lowest s d ns = some n) : n ∈ ns ∧ ∀ m ∈ ns, s.trn[d].slots[n].out ≤ s.trn[d].slots[m].out
      ∧ (s.trn[d].slots[m].out = s.trn[d].slots[n].out → n ≤ m) := by
  induction ns generalizing n with
  | nil => simp [lowest] at h
  | cons a t ih =>
    obtain ⟨hfirst, ht⟩ := List.pairwise_cons.1 hns
    rw [lowest] at h
    cases hrest : lowest s d t with
    | none =>
      have hnil : t = [] := by
        cases t with
        | nil => rfl
        | cons b t =>
          rw [lowest] at hrest
          grind
      simp_all
    | some m =>
      obtain ⟨hm, hmin⟩ := ih ht hrest
      rw [hrest] at h
      dsimp only at h
      split at h
      · next hlt =>
        obtain rfl : m = n := Option.some.inj h
        refine ⟨List.mem_cons_of_mem _ hm, List.forall_mem_cons.2 ⟨⟨hlt.le, fun heq => ?_⟩, hmin⟩⟩
        omega
      · next hle =>
        obtain rfl : a = n := Option.some.inj h
        refine ⟨List.mem_cons_self, List.forall_mem_cons.2 ⟨⟨le_rfl, fun _ => le_rfl⟩, fun x hx => ?_⟩⟩
        exact ⟨(not_lt.1 hle).trans (hmin x hx).1, fun _ => (hfirst x hx).le⟩

/-- Settles O26: law by law. -/
theorem slotLaws : Obligations.SlotLaws := by
  refine ⟨fun c x e => ?_, fun s d ns n => lowest_spec⟩
  obtain ⟨hhand, herr⟩ := evalLaw_frame c x e
  refine ⟨hhand, herr, fun hlaw h => evalLaw_linear_none hlaw h e, fun hlaw y i hy hwant hlo hhi => ?_,
    fun hlaw h => evalLaw_band_none hlaw h e, fun hlaw y hy hrate => evalLaw_band_hand hlaw hy e hrate,
    fun hlaw hh => evalLaw_composite_modes hlaw x e hh⟩
  rw [hy, Option.map_some] at hwant
  obtain rfl := Option.some.inj hwant
  rw [evalLaw_linear hlaw, hy]
  exact evalLinear_hand hlo hhi

end Sys2Proof.Machine
end

section
/-!
Frames: which parts of the state an operation can change. One lemma for each shared operation says it; a command's frame is
put together from them.
-/
namespace Sys2Proof.Machine

/-- The parts of the state. -/
inductive StatePart where
  | pending | code | clock | free | regs | staged | waiting | groups | ports | dies | sfe | latDie | lat | recp | osv
  | trn | spn | ceil | axp | yrd | cru | mem | lnd | miu | vlk | crew | qen | ep | hic | skd | skdLast | fwu | pwr
  deriving DecidableEq

/-- A part is in one state as in another. -/
def StatePart.Same (s t : State) : StatePart → Prop
  | .pending => t.pending = s.pending
  | .code => t.code = s.code
  | .clock => t.clock = s.clock
  | .free => t.free = s.free
  | .regs => t.regs = s.regs
  | .staged => t.staged = s.staged
  | .waiting => t.waiting = s.waiting
  | .groups => t.groups = s.groups
  | .ports => t.ports = s.ports
  | .dies => t.dies = s.dies
  | .sfe => t.sfe = s.sfe
  | .latDie => t.latDie = s.latDie
  | .lat => t.lat = s.lat
  | .recp => t.recp = s.recp
  | .osv => t.osv = s.osv
  | .trn => t.trn = s.trn
  | .spn => t.spn = s.spn
  | .ceil => t.ceil = s.ceil
  | .axp => t.axp = s.axp
  | .yrd => t.yrd = s.yrd
  | .cru => t.cru = s.cru
  | .mem => t.mem = s.mem
  | .lnd => t.lnd = s.lnd
  | .miu => t.miu = s.miu
  | .vlk => t.vlk = s.vlk
  | .crew => t.crew = s.crew
  | .qen => t.qen = s.qen
  | .ep => t.ep = s.ep
  | .hic => t.hic = s.hic
  | .skd => t.skd = s.skd
  | .skdLast => t.skdLast = s.skdLast
  | .fwu => t.fwu = s.fwu
  | .pwr => t.pwr = s.pwr

/-- The parts of a list as one state has them, the others as another does. -/
def State.graft (M : List StatePart) (s t : State) : State where
  pending := if M.contains .pending then t.pending else s.pending
  code := if M.contains .code then t.code else s.code
  clock := if M.contains .clock then t.clock else s.clock
  free := if M.contains .free then t.free else s.free
  regs := if M.contains .regs then t.regs else s.regs
  staged := if M.contains .staged then t.staged else s.staged
  waiting := if M.contains .waiting then t.waiting else s.waiting
  groups := if M.contains .groups then t.groups else s.groups
  ports := if M.contains .ports then t.ports else s.ports
  dies := if M.contains .dies then t.dies else s.dies
  sfe := if M.contains .sfe then t.sfe else s.sfe
  latDie := if M.contains .latDie then t.latDie else s.latDie
  lat := if M.contains .lat then t.lat else s.lat
  recp := if M.contains .recp then t.recp else s.recp
  osv := if M.contains .osv then t.osv else s.osv
  trn := if M.contains .trn then t.trn else s.trn
  spn := if M.contains .spn then t.spn else s.spn
  ceil := if M.contains .ceil then t.ceil else s.ceil
  axp := if M.contains .axp then t.axp else s.axp
  yrd := if M.contains .yrd then t.yrd else s.yrd
  cru := if M.contains .cru then t.cru else s.cru
  mem := if M.contains .mem then t.mem else s.mem
  lnd := if M.contains .lnd then t.lnd else s.lnd
  miu := if M.contains .miu then t.miu else s.miu
  vlk := if M.contains .vlk then t.vlk else s.vlk
  crew := if M.contains .crew then t.crew else s.crew
  qen := if M.contains .qen then t.qen else s.qen
  ep := if M.contains .ep then t.ep else s.ep
  hic := if M.contains .hic then t.hic else s.hic
  skd := if M.contains .skd then t.skd else s.skd
  skdLast := if M.contains .skdLast then t.skdLast else s.skdLast
  fwu := if M.contains .fwu then t.fwu else s.fwu
  pwr := if M.contains .pwr then t.pwr else s.pwr

/-- From one state to the other, only the parts of a list change. -/
def State.Only (M : List StatePart) (s t : State) : Prop := t = s.graft M t

theorem State.only_iff {M : List StatePart} {s t : State} : s.Only M t ↔ ∀ p, p ∉ M → p.Same s t := by
  refine ⟨fun h p hp => ?_, fun h => ?_⟩
  · have hp' : M.contains p = false := by simpa using hp
    rw [h]
    cases p <;> exact if_neg (by rw [hp']; exact Bool.false_ne_true)
  · have part {α : Type} (p : StatePart) (a b : α) (hab : p ∉ M → a = b) : a = if M.contains p then a else b := by
      split
      · rfl
      · next hp => exact hab (by simpa using hp)
    obtain ⟨_⟩ := t
    simp only [State.Only, State.graft, State.mk.injEq]
    exact ⟨part _ _ _ (h .pending), part _ _ _ (h .code), part _ _ _ (h .clock), part _ _ _ (h .free),
      part _ _ _ (h .regs), part _ _ _ (h .staged), part _ _ _ (h .waiting), part _ _ _ (h .groups),
      part _ _ _ (h .ports), part _ _ _ (h .dies), part _ _ _ (h .sfe), part _ _ _ (h .latDie), part _ _ _ (h .lat),
      part _ _ _ (h .recp), part _ _ _ (h .osv), part _ _ _ (h .trn), part _ _ _ (h .spn), part _ _ _ (h .ceil),
      part _ _ _ (h .axp), part _ _ _ (h .yrd), part _ _ _ (h .cru), part _ _ _ (h .mem), part _ _ _ (h .lnd),
      part _ _ _ (h .miu), part _ _ _ (h .vlk), part _ _ _ (h .crew), part _ _ _ (h .qen), part _ _ _ (h .ep),
      part _ _ _ (h .hic), part _ _ _ (h .skd), part _ _ _ (h .skdLast), part _ _ _ (h .fwu), part _ _ _ (h .pwr)⟩

theorem State.Only.refl (M : List StatePart) (s : State) : s.Only M s := State.only_iff.2 fun p _ => by cases p <;> rfl

theorem StatePart.Same.trans {p : StatePart} {s t u : State} (h1 : p.Same s t) (h2 : p.Same t u) : p.Same s u := by
  cases p <;> exact Eq.trans h2 h1

theorem State.Only.mono {M N : List StatePart} {s t : State} (h : s.Only M t) (hMN : M ⊆ N) : s.Only N t :=
  State.only_iff.2 fun p hp => State.only_iff.1 h p fun hp' => hp (hMN hp')

theorem State.Only.trans {M : List StatePart} {s t u : State} (h1 : s.Only M t) (h2 : t.Only M u) : s.Only M u :=
  State.only_iff.2 fun p hp => (State.only_iff.1 h1 p hp).trans (State.only_iff.1 h2 p hp)

/-- Two steps in a row, the second of which may change less. -/
theorem State.Only.then_ {M N : List StatePart} {s t u : State} (h1 : s.Only M t) (h2 : t.Only N u) (hNM : N ⊆ M) : s.Only M u :=
  h1.trans (h2.mono hNM)

theorem State.Only.ite {M : List StatePart} {s t u : State} {c : Prop} [Decidable c] (h1 : s.Only M t) (h2 : s.Only M u) :
    s.Only M (if c then t else u) := by
  split
  · exact h1
  · exact h2

/-- A step that is taken only under a condition. -/
theorem State.Only.whenDo {M : List StatePart} {s t u : State} {c : Prop} [Decidable c] (h1 : s.Only M t) (h2 : t.Only M u) :
    s.Only M (if c then u else t) := .ite (h1.trans h2) h1

theorem State.Only.foldl {α : Type} {M : List StatePart} {f : State → α → State} (h : ∀ (t : State) x, t.Only M (f t x)) (l : List α)
    (s : State) : s.Only M (l.foldl f s) := by
  induction l generalizing s with
  | nil => exact .refl M s
  | cons x l ih => exact (h s x).trans (ih (f s x))

/-! ## The shared operations -/

theorem State.put_only (s : State) (a : Nat) (f : Field) (v i j : Nat) : s.Only [.regs] (s.put a f v i j) := rfl

theorem State.bumpBy_only (s : State) (a : Nat) (f : Field) (n i j : Nat) : s.Only [.regs] (s.bumpBy a f n i j) := rfl

theorem State.bump_only (s : State) (a : Nat) (f : Field) (i j : Nat) : s.Only [.regs] (s.bump a f i j) := rfl

theorem State.send_only (s : State) (d : Die) (x : Side) (m : Msg) : s.Only [.ports] (s.send d x m) := rfl

theorem State.setPort_only (s : State) (d : Die) (p : Port) : s.Only [.ports] (s.setPort d p) := rfl

theorem State.setDie_only (s : State) (d : Die) (x : DieSt) : s.Only [.dies] (s.setDie d x) := rfl

theorem State.raiseDie_only (s : State) (d : Die) (code : Nat) (bay : Option Nat) (sub unit : Nat) (v1 : Int) (v2 : Nat) : s.Only [.ports] (s.raiseDie d code bay sub unit v1 v2) := rfl

theorem State.raiseBay_only (s : State) (b : Bay) (code sub unit : Nat) (v1 : Int) (v2 : Nat) : s.Only [.ports] (s.raiseBay b code sub unit v1 v2) := rfl

theorem State.setSfe_only (s : State) (b : Bay) (x : Sfe) : s.Only [.sfe] (s.setSfe b x) := rfl

theorem State.setSpot_only (s : State) (b : Bay) (k : Fin 7) (x : SfeSpot) : s.Only [.sfe] (s.setSpot b k x) := rfl

theorem State.setLat_only (s : State) (b : Bay) (x : LatBay) : s.Only [.lat] (s.setLat b x) := rfl

theorem State.setLatSpot_only (s : State) (b : Bay) (k : Fin 7) (x : LatSpot) : s.Only [.lat] (s.setLatSpot b k x) := rfl

theorem State.setOsv_only (s : State) (b : Bay) (x : Osv) : s.Only [.osv] (s.setOsv b x) := rfl

theorem State.setSpn_only (s : State) (b : Bay) (x : Spn) : s.Only [.spn] (s.setSpn b x) := rfl

theorem State.setSlot_only (s : State) (d : Die) (n : Fin 48) (x : TrnSlot) : s.Only [.trn] (s.setSlot d n x) := rfl

theorem State.setCru_only (s : State) (b : Bay) (x : Cru) : s.Only [.cru] (s.setCru b x) := rfl

theorem State.setAxis_only (s : State) (d : Die) (n : Fin 8) (x : Axis) : s.Only [.axp] (s.setAxis d n x) := rfl

theorem State.setGrp_only (s : State) (d : Die) (g : Fin 4) (x : Grp) : s.Only [.axp] (s.setGrp d g x) := rfl

end Sys2Proof.Machine
end

section
/-!
Frame synchronisation (R118, R126–R130, R132): the best candidate of a frame, what a frame makes of a sync state, and SYNC_FRAME
and SLOT_BLANK.
-/
namespace Sys2Proof.Machine

/-! ## The best candidate -/

/-- A candidate of a frame that counts: near enough, and within the window. -/
def candCounts (tol : Nat) (win : Option Nat) (c : BlazeCand) : Bool :=
  decide (c.dist ≤ tol) && win.all fun w => decide (c.off.natAbs ≤ w)

theorem foldl_pick_spec {α : Type} {f : Option α → α → Option α} (hnone : ∀ c, f none c = some c)
    (hsome : ∀ m c, f (some m) c = some m ∨ f (some m) c = some c) (l : List α) :
    (l.foldl f none = none ↔ l = []) ∧ ∀ c, l.foldl f none = some c → c ∈ l := by
  have hrun (l : List α) (m : α) : ∃ c, l.foldl f (some m) = some c ∧ c ∈ m :: l := by
    induction l generalizing m with
    | nil => exact ⟨m, rfl, List.mem_cons_self⟩
    | cons a l ih =>
      rcases hsome m a with h | h
      · obtain ⟨c, hc, hmem⟩ := ih m
        exact ⟨c, by rw [List.foldl_cons, h, hc], by grind⟩
      · obtain ⟨c, hc, hmem⟩ := ih a
        exact ⟨c, by rw [List.foldl_cons, h, hc], List.mem_cons_of_mem _ hmem⟩
  cases l with
  | nil => simp
  | cons a l =>
    obtain ⟨c, hc, hmem⟩ := hrun l a
    rw [List.foldl_cons, hnone, hc]
    simp_all

theorem bestCand_spec (tol : Nat) (win : Option Nat) (cs : List BlazeCand) :
    (bestCand tol win cs = none ↔ ∀ c ∈ cs, candCounts tol win c = false)
    ∧ ∀ c, bestCand tol win cs = some c → c ∈ cs ∧ candCounts tol win c = true := by
  have hfilter : (fun c : BlazeCand => decide (c.dist ≤ tol) &&
      match win with | none => true | some w => decide (c.off.natAbs ≤ w)) = candCounts tol win := by
    funext c
    cases win <;> rfl
  obtain ⟨hnone, hsome⟩ := foldl_pick_spec (α := BlazeCand) (f := fun m c => match m with
      | none => some c
      | some n => if c.dist < n.dist ∨ (c.dist = n.dist ∧ c.off.natAbs < n.off.natAbs) then some c else m)
    (fun _ => rfl) (fun m c => by dsimp only; split <;> simp) (cs.filter (candCounts tol win))
  rw [← hfilter] at hnone hsome
  refine ⟨hnone.trans ?_, fun c hc => ?_⟩
  · rw [hfilter, List.filter_eq_nil_iff]
    simp
  · have hmem := hsome c hc
    rwa [hfilter, List.mem_filter] at hmem

/-! ## A frame in SEARCH and VERIFY -/

section Frame

variable {p : LatSpot} {tol win : Nat} {inSpan : Bool} {o : FrameObs}

/-- A candidate that passes its address check. -/
def GoodCand (c : BlazeCand) : Prop := addressPasses c.addr c.check = true

theorem syncFrame_search_stays (h : p.sync = .search)
    (hno : (∀ c ∈ o.cands, c.dist ≤ tol → ¬GoodCand c) ∨ inSpan = false) :
    syncFrame p tol win inSpan o = (p, false, false, false, false) := by
  simp only [syncFrame, h]
  cases hbest : bestCand tol none (o.cands.filter fun c => addressPasses c.addr c.check) with
  | none => rfl
  | some c =>
    obtain ⟨hmem, hcounts⟩ := (bestCand_spec ..).2 c hbest
    obtain ⟨hc, hgood⟩ := List.mem_filter.1 hmem
    have hdist : c.dist ≤ tol := by simpa [candCounts] using hcounts
    rcases hno with hno | hno
    · exact absurd hgood (hno c hc hdist)
    · simp [hno]

theorem syncFrame_search_verify (h : p.sync = .search) (hspan : inSpan = true)
    (hex : ∃ c ∈ o.cands, c.dist ≤ tol ∧ GoodCand c) :
    ∃ c ∈ o.cands, c.dist ≤ tol ∧ GoodCand c ∧ (syncFrame p tol win inSpan o).1 =
      { p.frameAt c.addr .used .verify 0 with slot := addrSlot c.addr, start := frameBits * addrFrame c.addr } := by
  simp only [syncFrame, h]
  cases hbest : bestCand tol none (o.cands.filter fun c => addressPasses c.addr c.check) with
  | none =>
    obtain ⟨c, hc, hdist, hgood⟩ := hex
    have hout := (bestCand_spec ..).1.1 hbest c (List.mem_filter.2 ⟨hc, hgood⟩)
    simp [candCounts, hdist] at hout
  | some c =>
    obtain ⟨hmem, hcounts⟩ := (bestCand_spec ..).2 c hbest
    obtain ⟨hc, hgood⟩ := List.mem_filter.1 hmem
    refine ⟨c, hc, by simpa [candCounts] using hcounts, hgood, ?_⟩
    simp [hspan]

theorem syncFrame_verify_locks {c : BlazeCand} (h : p.sync = .verify) (hbest : bestCand tol (some 1) o.cands = some c)
    (hgood : GoodCand c) (haddr : c.addr = nextAddr p.addr) :
    (syncFrame p tol win inSpan o).1 = p.frameAt (nextAddr p.addr) .used .locked 0 := by
  have hpass : addressPasses c.addr c.check = true := hgood
  simp only [syncFrame, h, hbest, if_pos (And.intro hpass haddr)]

theorem syncFrame_verify_fails (h : p.sync = .verify)
    (hno : ∀ c, bestCand tol (some 1) o.cands = some c → ¬GoodCand c ∨ c.addr ≠ nextAddr p.addr) :
    (syncFrame p tol win inSpan o).1 = p.frameAt (nextAddr p.addr) .zero .search 0 := by
  simp only [syncFrame, h]
  cases hbest : bestCand tol (some 1) o.cands with
  | none => rfl
  | some c =>
    have hbad : ¬(addressPasses c.addr c.check = true ∧ c.addr = nextAddr p.addr) := by
      rcases hno c hbest with hgood | haddr
      · exact fun ⟨hpass, _⟩ => hgood hpass
      · exact fun ⟨_, heq⟩ => haddr heq
    simp only [if_neg hbad]

/-! ## A frame in LOCKED and FLYWHEEL -/

/-- What a frame makes of a spot that misses it. -/
def LatSpot.missed (p : LatSpot) (use : FrameUse) : LatSpot :=
  p.frameAt (nextAddr p.addr) use (missState p.misses).1 (missState p.misses).2

/-- Whether a miss re-enters SEARCH. -/
def LatSpot.lost (p : LatSpot) : Bool := (missState p.misses).1 == .search

/-- The frame at the last address counts as zeros from now on. -/
def LatSpot.zeroLast (p : LatSpot) : LatSpot :=
  { p with frames := p.frames.map fun (r : FrameRec) => if r.addr = p.addr then { r with use := .zero } else r }

/-- A spot that follows the grid. -/
def LatSpot.Tracks (p : LatSpot) : Prop := p.sync = .locked ∨ p.sync = .flywheel

theorem syncFrame_track_none (h : p.Tracks) (hbest : bestCand tol (some win) o.cands = none) :
    syncFrame p tol win inSpan o = (p.missed .fly, true, false, false, p.lost) := by
  rcases h with h | h <;> simp only [syncFrame, h, hbest] <;> rfl

theorem syncFrame_track_near {c : BlazeCand} (h : p.Tracks) (hbest : bestCand tol (some win) o.cands = some c)
    (hnear : c.off.natAbs ≤ 1) (hok : ¬GoodCand c ∨ c.addr = nextAddr p.addr) :
    syncFrame p tol win inSpan o = (p.frameAt (nextAddr p.addr) .used .locked 0, false, false, false, false) := by
  have hfits : ¬(addressPasses c.addr c.check = true ∧ c.addr ≠ nextAddr p.addr) := by
    rintro ⟨hpass, hne⟩
    exact hok.elim (· hpass) hne
  rcases h with h | h <;> simp only [syncFrame, h, hbest, if_pos hnear, if_neg hfits]

theorem syncFrame_track_misplaced {c : BlazeCand} (h : p.Tracks) (hbest : bestCand tol (some win) o.cands = some c)
    (hnear : c.off.natAbs ≤ 1) (hgood : GoodCand c) (hne : c.addr ≠ nextAddr p.addr) :
    syncFrame p tol win inSpan o =
      ((p.missed .used).mark (nextAddr p.addr) .misplaced, true, false, false, p.lost) := by
  have hbad : addressPasses c.addr c.check = true ∧ c.addr ≠ nextAddr p.addr := ⟨hgood, hne⟩
  rcases h with h | h <;> simp only [syncFrame, h, hbest, if_pos hnear, if_pos hbad] <;> rfl

theorem syncFrame_track_far {c : BlazeCand} (h : p.Tracks) (hbest : bestCand tol (some win) o.cands = some c)
    (hfar : 1 < c.off.natAbs) (hgood : GoodCand c ∧ c.addr = nextAddr p.addr) :
    syncFrame p tol win inSpan o =
      (p.zeroLast.frameAt (nextAddr p.addr) .used .locked 0, false, true, false, false) := by
  have hok : addressPasses c.addr c.check = true ∧ c.addr = nextAddr p.addr := hgood
  rcases h with h | h <;> simp only [syncFrame, h, hbest, if_neg (not_le.2 hfar), decide_eq_true hok, if_true] <;>
    rfl

theorem syncFrame_track_there {c : BlazeCand} (h : p.Tracks) (hbest : bestCand tol (some win) o.cands = some c)
    (hfar : 1 < c.off.natAbs) (hbad : ¬(GoodCand c ∧ c.addr = nextAddr p.addr))
    (hthere : addressPasses o.addrP o.checkP = true ∧ o.addrP = nextAddr p.addr) :
    syncFrame p tol win inSpan o = (p.frameAt (nextAddr p.addr) .used .locked 0, false, true, false, false) := by
  have hno : ¬(addressPasses c.addr c.check = true ∧ c.addr = nextAddr p.addr) := hbad
  rcases h with h | h <;>
    simp only [syncFrame, h, hbest, if_neg (not_le.2 hfar), decide_eq_false hno, decide_eq_true hthere, if_true,
      Bool.false_eq_true, if_false]

theorem syncFrame_track_neither {c : BlazeCand} (h : p.Tracks) (hbest : bestCand tol (some win) o.cands = some c)
    (hfar : 1 < c.off.natAbs) (hbad : ¬(GoodCand c ∧ c.addr = nextAddr p.addr))
    (hthere : ¬(addressPasses o.addrP o.checkP = true ∧ o.addrP = nextAddr p.addr)) :
    syncFrame p tol win inSpan o = ((p.missed .fly).mark (nextAddr p.addr) .syncLost, true, true, true, p.lost) := by
  have hno : ¬(addressPasses c.addr c.check = true ∧ c.addr = nextAddr p.addr) := hbad
  rcases h with h | h <;>
    simp only [syncFrame, h, hbest, if_neg (not_le.2 hfar), decide_eq_false hno, decide_eq_false hthere,
      Bool.false_eq_true, if_false] <;> rfl

/-- What a spot that follows the grid takes from one frame: it locks, or it misses. -/
theorem syncFrame_track_cases (h : p.Tracks) :
    (∃ (q : LatSpot) (r : _), syncFrame p tol win inSpan o = (q.frameAt (nextAddr p.addr) .used .locked 0, r))
    ∨ ∃ q use r, syncFrame p tol win inSpan o = (q, true, r) ∧ q.addr = nextAddr p.addr ∧ q.sync = (p.missed use).sync := by
  cases hbest : bestCand tol (some win) o.cands with
  | none => exact .inr ⟨_, .fly, _, syncFrame_track_none h hbest, rfl, rfl⟩
  | some c =>
    by_cases hnear : c.off.natAbs ≤ 1
    · by_cases hok : ¬GoodCand c ∨ c.addr = nextAddr p.addr
      · exact .inl ⟨_, _, syncFrame_track_near h hbest hnear hok⟩
      · obtain ⟨hgood, hne⟩ := not_or.1 hok
        exact .inr ⟨_, .used, _, syncFrame_track_misplaced h hbest hnear (not_not.1 hgood) hne, rfl, rfl⟩
    · have hfar := not_le.1 hnear
      by_cases hgood : GoodCand c ∧ c.addr = nextAddr p.addr
      · exact .inl ⟨_, _, syncFrame_track_far h hbest hfar hgood⟩
      · by_cases hthere : addressPasses o.addrP o.checkP = true ∧ o.addrP = nextAddr p.addr
        · exact .inl ⟨_, _, syncFrame_track_there h hbest hfar hgood hthere⟩
        · exact .inr ⟨_, .fly, _, syncFrame_track_neither h hbest hfar hgood hthere, rfl, rfl⟩

end Frame

/-- The state after a miss: SEARCH after the third, else FLYWHEEL, and LOCKED never (R127, R128). -/
theorem missState_fst (n : Nat) : (missState n).1 = if 3 ≤ n + 1 then .search else .flywheel := by
  unfold missState
  split <;> rfl

theorem missState_ne_locked (n : Nat) : (missState n).1 ≠ .locked := by
  rw [missState_fst]
  split <;> simp

theorem LatSpot.missed_sync (p : LatSpot) (use : FrameUse) :
    (p.missed use).sync = if 3 ≤ p.misses + 1 then .search else .flywheel := missState_fst p.misses

theorem LatSpot.zeroLast_use {p : LatSpot} {f : FrameRec} (hf : f ∈ p.zeroLast.frames) (haddr : f.addr = p.addr) :
    f.use = .zero := by
  obtain ⟨r, -, rfl⟩ := List.mem_map.1 hf
  split at haddr
  · next hr => rw [if_pos hr]
  · next hr => exact absurd haddr hr

/-! ## SYNC_FRAME -/

/-- One channel bit moves the spot on, and counts the taps it clamped. -/
theorem State.latBit_eq (s : State) (b : Bay) (k : Fin 7) (o : BitObs) : ∃ x n,
    (s.latBit b k o).1 = (s.setLatSpot b k x).bumpBy (latA b) F.LAT_BOARDCNT_EQ_CLAMP n := ⟨_, _, rfl⟩

/-- The bits of a frame, and whether the timing bound was passed in one. -/
def State.latBits (s : State) (b : Bay) (k : Fin 7) (bits : List BitObs) : State × Bool :=
  bits.foldl (fun (r : State × Bool) bit => ((r.1.latBit b k bit).1, r.2 || (r.1.latBit b k bit).2)) (s, false)

/-- What the steps of one spot leave alone: all but the counters and that spot. -/
def State.SpotOnly (b : Bay) (k : Fin 7) (s t : State) : Prop :=
  s.Only [.regs, .lat] t ∧ (∀ c, c ≠ b → t.lat[c] = s.lat[c]) ∧ (∀ j, j ≠ k → t.lat[b].spots[j] = s.lat[b].spots[j])
  ∧ t.get (latA b) F.LAT_SPOTk_SYNCCNT_MISSES k = s.get (latA b) F.LAT_SPOTk_SYNCCNT_MISSES k

theorem State.SpotOnly.trans {b : Bay} {k : Fin 7} {s t u : State} (h1 : s.SpotOnly b k t) (h2 : t.SpotOnly b k u) :
    s.SpotOnly b k u := by
  obtain ⟨ho1, hc1, hs1, hm1⟩ := h1
  obtain ⟨ho2, hc2, hs2, hm2⟩ := h2
  exact ⟨ho1.trans ho2, fun c hc => (hc2 c hc).trans (hc1 c hc), fun j hj => (hs2 j hj).trans (hs1 j hj), hm2.trans hm1⟩

theorem setLatSpot_spot_same (s : State) (b : Bay) (k : Fin 7) (x : LatSpot) :
    (s.setLatSpot b k x).lat[b].spots[k] = x := by
  rw [State.setLatSpot, setLat_same]
  simp

theorem setLatSpot_spot_other (s : State) (b : Bay) {k j : Fin 7} (x : LatSpot) (h : j ≠ k) :
    (s.setLatSpot b k x).lat[b].spots[j] = s.lat[b].spots[j] := by
  rw [State.setLatSpot, setLat_same]
  simp [Fin.val_ne_of_ne h.symm]

theorem setLatSpot_bay_other (s : State) {b c : Bay} (k : Fin 7) (x : LatSpot) (h : c ≠ b) :
    (s.setLatSpot b k x).lat[c] = s.lat[c] := setLat_other s b c _ h

theorem State.latBit_spotOnly (s : State) (b : Bay) (k : Fin 7) (o : BitObs) : s.SpotOnly b k (s.latBit b k o).1 := by
  obtain ⟨x, n, h⟩ := s.latBit_eq b k o
  rw [h]
  refine ⟨?_, fun c hc => setLatSpot_bay_other s k x hc, fun j hj => setLatSpot_spot_other s b x hj, ?_⟩
  · exact ((s.setLatSpot_only b k x).mono (by decide)).then_ (State.bumpBy_only ..) (by decide)
  · refine get_put_other _ _ _ _ _ _ ?_
    simp only [Field.key, F.LAT_SPOTk_SYNCCNT_MISSES, F.LAT_BOARDCNT_EQ_CLAMP]
    omega

theorem State.latBits_spotOnly (s : State) (b : Bay) (k : Fin 7) (bits : List BitObs) :
    s.SpotOnly b k (s.latBits b k bits).1 := by
  suffices h : ∀ (bits : List BitObs) (r : State × Bool), s.SpotOnly b k r.1 → s.SpotOnly b k
      (bits.foldl (fun (r : State × Bool) bit => ((r.1.latBit b k bit).1, r.2 || (r.1.latBit b k bit).2)) r).1 from
    h bits (s, false) ⟨.refl _ s, fun _ _ => rfl, fun _ _ => rfl, rfl⟩
  intro bits
  induction bits with
  | nil => exact fun _ h => h
  | cons bit bits ih => exact fun r h => ih _ (h.trans (r.1.latBit_spotOnly b k bit))

/-- The spot as a frame leaves it, its counters, and the slot that spot 3 gives the servo. -/
def State.syncStep (s : State) (b : Bay) (k : Fin 7) (z : LatSpot × Bool × Bool × Bool × Bool) : State :=
  let a := latA b
  let s := s.setLatSpot b k z.1
  let s := if z.2.1 then s.bump a F.LAT_SPOTk_SYNCCNT_MISSES k else s
  let s := if z.2.2.1 then s.bump a F.LAT_SPOTk_SYNCCNT_DUAL k else s
  let s := if z.2.2.2.1 then s.bump a F.LAT_SPOTk_SYNCCNT_DUAL_FAIL k else s
  let s := if k = 3 ∧ z.1.sync = .locked then
      s.setOsv b { s.osv[b] with slotNow := addrSlot z.1.addr, areaNow := addrArea z.1.addr }
    else s
  if z.2.2.2.2 then s.bump a F.LAT_SPOTk_SYNCCNT_REACQ k else s

/-- SYNC_FRAME: the bits, and then SEARCH on a timing loss, or the step of the sync state. -/
theorem State.syncFrameOf_eq (s : State) (b : Bay) (k : Fin 7) (o : FrameObs) :
    let r := s.latBits b k o.bits
    let p := r.1.lat[b].spots[k]
    s.syncFrameOf b k o =
      if r.2 then (r.1.bump (latA b) F.LAT_SPOTk_SYNCCNT_REACQ k).setLatSpot b k { p with sync := .search, misses := 0 }
      else r.1.syncStep b k (syncFrame p (chVal r.1 b k F.LAT_CHCFG_BLZ_TOL) (chVal r.1 b k F.LAT_CHCFG_BLZ_WIN)
        (periodInSpan (sfeT r.1 b)) o) := rfl

theorem State.syncStep_only (s : State) (b : Bay) (k : Fin 7) (z : LatSpot × Bool × Bool × Bool × Bool) :
    s.Only [.regs, .lat, .osv] (s.syncStep b k z) := by
  have hbump (t : State) (f : Field) : t.Only [.regs, .lat, .osv] (t.bump (latA b) f k) :=
    (t.bump_only ..).mono (by decide)
  have hosv (t : State) (x : Osv) : t.Only [.regs, .lat, .osv] (t.setOsv b x) := (t.setOsv_only ..).mono (by decide)
  have hspot : s.Only [.regs, .lat, .osv] (s.setLatSpot b k z.1) := (s.setLatSpot_only b k z.1).mono (by decide)
  exact ((((hspot.whenDo (hbump ..)).whenDo (hbump ..)).whenDo (hbump ..)).whenDo (hosv ..)).whenDo (hbump ..)

theorem State.syncStep_lat (s : State) (b : Bay) (k : Fin 7) (z : LatSpot × Bool × Bool × Bool × Bool) :
    (s.syncStep b k z).lat = (s.setLatSpot b k z.1).lat := by
  unfold State.syncStep
  split_ifs <;> rfl

theorem get_ite {c : Prop} [Decidable c] {t u : State} {a i j v : Nat} {f : Field} (ht : t.get a f i j = v)
    (hu : u.get a f i j = v) : (if c then t else u).get a f i j = v := by
  split
  · exact ht
  · exact hu

/-- A miss counts once, whatever else the frame counts. -/
theorem State.syncStep_misses (s : State) (b : Bay) (k : Fin 7) {z : LatSpot × Bool × Bool × Bool × Bool}
    (hmiss : z.2.1 = true) : (s.syncStep b k z).get (latA b) F.LAT_SPOTk_SYNCCNT_MISSES k =
      min (s.get (latA b) F.LAT_SPOTk_SYNCCNT_MISSES k + 1) 255 := by
  have hother (t : State) {g : Field} (hlo : g.lo < 24) :
      (t.bump (latA b) g k).get (latA b) F.LAT_SPOTk_SYNCCNT_MISSES k = t.get (latA b) F.LAT_SPOTk_SYNCCNT_MISSES k := by
    refine get_bump_other _ _ _ _ _ ?_
    simp only [Field.key, F.LAT_SPOTk_SYNCCNT_MISSES]
    omega
  have hcount : ((s.setLatSpot b k z.1).bump (latA b) F.LAT_SPOTk_SYNCCNT_MISSES k).get (latA b)
      F.LAT_SPOTk_SYNCCNT_MISSES k = min (s.get (latA b) F.LAT_SPOTk_SYNCCNT_MISSES k + 1) 255 := get_bump_same ..
  have hdual := get_ite (c := z.2.2.1 = true) ((hother _ (g := F.LAT_SPOTk_SYNCCNT_DUAL) (by decide)).trans hcount) hcount
  have hfail := get_ite (c := z.2.2.2.1 = true)
    ((hother _ (g := F.LAT_SPOTk_SYNCCNT_DUAL_FAIL) (by decide)).trans hdual) hdual
  simp only [State.syncStep, hmiss, if_true]
  refine get_ite ((hother _ (by decide)).trans (get_ite ?_ hfail)) (get_ite ?_ hfail) <;> exact hfail

theorem exec_syncFrame_lost {s : State} {b : Bay} {k : Fin 7} {o : FrameObs} (h : (s.latBits b k o.bits).2 = true) :
    let r := s.latBits b k o.bits
    exec (.syncFrame b k o) s = .next ((r.1.bump (latA b) F.LAT_SPOTk_SYNCCNT_REACQ k).setLatSpot b k
      { r.1.lat[b].spots[k] with sync := .search, misses := 0 }) := by
  show Host.Outcome.next (s.syncFrameOf b k o) = _
  rw [State.syncFrameOf_eq, if_pos h]

theorem exec_syncFrame_kept {s : State} {b : Bay} {k : Fin 7} {o : FrameObs} (h : (s.latBits b k o.bits).2 = false) :
    let r := s.latBits b k o.bits
    exec (.syncFrame b k o) s = .next (r.1.syncStep b k (syncFrame r.1.lat[b].spots[k] (chVal r.1 b k F.LAT_CHCFG_BLZ_TOL)
      (chVal r.1 b k F.LAT_CHCFG_BLZ_WIN) (periodInSpan (sfeT r.1 b)) o)) := by
  show Host.Outcome.next (s.syncFrameOf b k o) = _
  rw [State.syncFrameOf_eq, if_neg (by simp [h])]

/-- Settles O20: the frame's decision case by case, and then what SYNC_FRAME and SLOT_BLANK do with it. -/
theorem synchronisation : Obligations.Synchronisation := by
  refine ⟨fun p tol win inSpan o => ⟨fun h hno => ?_, fun h hspan hex => ?_, fun c h hbest hgood haddr => ?_,
    fun h hno => ?_, fun h => ⟨?_, ?_, ?_, fun hbest => ?_, fun c hbest => ⟨fun hnear hok => ?_,
      fun hnear hgood hne => ?_, fun hfar => ⟨?_, fun hgood haddr => ?_, fun hbad hpass haddr => ?_, fun hbad hthere => ?_⟩⟩⟩⟩,
    fun b k o area slot s => ⟨fun h => exec_syncFrame_lost h, fun h => ?_, fun h => ?_, fun h hlow => ?_⟩⟩
  · rw [syncFrame_search_stays h hno]
    exact ⟨rfl, rfl⟩
  · obtain ⟨c, hc, hdist, hgood, heq⟩ := syncFrame_search_verify (win := win) h hspan hex
    rw [heq]
    exact ⟨rfl, rfl, c, hc, hdist, hgood, rfl, rfl⟩
  · rw [syncFrame_verify_locks h hbest hgood haddr]
    exact ⟨rfl, rfl, rfl⟩
  · rw [syncFrame_verify_fails h hno]
    exact ⟨rfl, rfl⟩
  · rcases syncFrame_track_cases (tol := tol) (win := win) (inSpan := inSpan) (o := o) h with
      ⟨q, r, heq⟩ | ⟨q, use, r, heq, haddr, -⟩ <;> rw [heq]
    · rfl
    · exact haddr
  · rcases syncFrame_track_cases (tol := tol) (win := win) (inSpan := inSpan) (o := o) h with
      ⟨q, r, heq⟩ | ⟨q, use, r, heq, -, hsync⟩ <;> rw [heq]
    · exact fun _ => rfl
    · exact fun hlock => absurd (hsync.symm.trans hlock) (missState_ne_locked _)
  · rcases syncFrame_track_cases (tol := tol) (win := win) (inSpan := inSpan) (o := o) h with
      ⟨q, r, heq⟩ | ⟨q, use, r, heq, -, hsync⟩ <;> rw [heq]
    · exact fun hlock => absurd rfl hlock
    · exact fun _ => ⟨hsync.trans (p.missed_sync use), rfl⟩
  · rw [syncFrame_track_none h hbest]
    exact ⟨p.missed_sync .fly, rfl, rfl, rfl⟩
  · rw [syncFrame_track_near h hbest hnear hok]
    exact ⟨rfl, rfl, rfl⟩
  · rw [syncFrame_track_misplaced h hbest hnear hgood hne]
    exact ⟨p.missed_sync .used, rfl⟩
  · by_cases hgood : GoodCand c ∧ c.addr = nextAddr p.addr
    · rw [syncFrame_track_far h hbest hfar hgood]
    · by_cases hthere : addressPasses o.addrP o.checkP = true ∧ o.addrP = nextAddr p.addr
      · rw [syncFrame_track_there h hbest hfar hgood hthere]
      · rw [syncFrame_track_neither h hbest hfar hgood hthere]
  · rw [syncFrame_track_far h hbest hfar ⟨hgood, haddr⟩]
    exact ⟨rfl, rfl, fun f hf => LatSpot.zeroLast_use hf⟩
  · rw [syncFrame_track_there h hbest hfar hbad ⟨hpass, haddr⟩]
    exact ⟨rfl, rfl⟩
  · rw [syncFrame_track_neither h hbest hfar hbad hthere]
    exact ⟨p.missed_sync .fly, rfl, rfl⟩
  · obtain ⟨honly, hbays, hspots, hmisses⟩ := s.latBits_spotOnly b k o.bits
    refine ⟨_, exec_syncFrame_kept h, (honly.mono (by decide)).trans (State.syncStep_only ..), fun c hc => ?_, ?_,
      fun j hj => ?_, fun hmiss => ?_⟩
    · rw [State.syncStep_lat, setLatSpot_bay_other _ _ _ hc, hbays c hc]
    · rw [State.syncStep_lat, setLatSpot_spot_same]
      rfl
    · rw [State.syncStep_lat, setLatSpot_spot_other _ _ _ hj, hspots j hj]
    · exact (State.syncStep_misses _ _ _ hmiss).trans (by rw [hmisses])
  · exact congrArg Host.Outcome.next (if_neg fun hboth => h hboth.1)
  · exact congrArg Host.Outcome.next (if_pos ⟨h, decide_eq_true hlow⟩)

end Sys2Proof.Machine
end

section
/-!
The axis profiler (chapter 09): what a tick does to a motion, how the commands of an axis, a group and a switch act, and what
they leave alone.
-/
namespace Sys2Proof.Machine

/-! ## One tick of a motion -/

theorem tick_pos : 0 < tick := by norm_num [tick]

/-- The acceleration after a tick: within its limit, and changed by at most a tick of the jerk. -/
def Kin.Fits (l : Limits) (k q : Kin) : Prop := |q.a| ≤ l.a ∧ |q.a - k.a| ≤ l.j * tick

section
variable {l : Limits} {k : Kin} (hj : 0 < l.j) (ha : |k.a| ≤ l.a)

include ha in
theorem Kin.fits_rest {q : Kin} (hq : q.a = 0) (hk : |k.a| ≤ l.j * tick) : Kin.Fits l k q := by
  refine ⟨?_, ?_⟩
  · rw [hq, abs_zero]
    exact (abs_nonneg _).trans ha
  · rw [hq, zero_sub, abs_neg]
    exact hk

include hj ha in
theorem Kin.fits_flat : Kin.Fits l k (k.step 0) := by
  have h : (k.step 0).a = k.a := by simp [Kin.step]
  refine ⟨h ▸ ha, ?_⟩
  rw [h, sub_self, abs_zero]
  exact (mul_pos hj tick_pos).le

include hj in
theorem Kin.fits_up (h : |(k.step l.j).a| ≤ l.a) : Kin.Fits l k (k.step l.j) := by
  refine ⟨h, le_of_eq ?_⟩
  rw [show (k.step l.j).a - k.a = l.j * tick by simp [Kin.step], abs_of_pos (mul_pos hj tick_pos)]

include hj in
theorem Kin.fits_down (h : |(k.step (-l.j)).a| ≤ l.a) : Kin.Fits l k (k.step (-l.j)) := by
  refine ⟨h, le_of_eq ?_⟩
  rw [show (k.step (-l.j)).a - k.a = -(l.j * tick) by simp [Kin.step], abs_neg, abs_of_pos (mul_pos hj tick_pos)]

include hj ha

theorem Kin.fits_less : Kin.Fits l k (k.less l) := by
  have hpos := mul_pos hj tick_pos
  have h : (k.less l).a = max (k.a - l.j * tick) (-l.a) := by
    simp only [Kin.less, Kin.step, max_mul_of_nonneg _ _ tick_pos.le, ← max_add_add_left, div_mul_cancel₀ _ tick_pos.ne']
    ring_nf
  obtain ⟨hlo, hhi⟩ := abs_le.1 ha
  rw [Kin.Fits, h, abs_le, abs_le]
  rcases max_cases (k.a - l.j * tick) (-l.a) with ⟨he, _⟩ | ⟨he, _⟩ <;> rw [he] <;>
    refine ⟨⟨?_, ?_⟩, ?_, ?_⟩ <;> linarith

theorem Kin.fits_more : Kin.Fits l k (k.more l) := by
  have hpos := mul_pos hj tick_pos
  have h : (k.more l).a = min (k.a + l.j * tick) l.a := by
    simp only [Kin.more, Kin.step, min_mul_of_nonneg _ _ tick_pos.le, ← min_add_add_left, div_mul_cancel₀ _ tick_pos.ne']
    ring_nf
  obtain ⟨hlo, hhi⟩ := abs_le.1 ha
  rw [Kin.Fits, h, abs_le, abs_le]
  rcases min_cases (k.a + l.j * tick) l.a with ⟨he, _⟩ | ⟨he, _⟩ <;> rw [he] <;>
    refine ⟨⟨?_, ?_⟩, ?_, ?_⟩ <;> linarith

theorem stepTo_fits (t : Rat) : Kin.Fits l k (stepTo l t k) := by
  simp only [stepTo, Bool.and_eq_true, Kin.within, Kin.resting, decide_eq_true_eq]
  split
  · next h => exact Kin.fits_rest ha rfl h.1.2
  split
  · split
    · next h => exact Kin.fits_up hj h.1.1.1
    split
    · exact Kin.fits_flat hj ha
    · exact Kin.fits_less hj ha
  · split
    · next h => exact Kin.fits_down hj h.1.1.1
    split
    · exact Kin.fits_flat hj ha
    · exact Kin.fits_more hj ha

theorem stepVel_fits (w : Rat) : Kin.Fits l k (stepVel l w k) := by
  simp only [stepVel]
  split
  · next h => exact Kin.fits_rest ha rfl h.2
  split
  · split
    · next h => exact Kin.fits_up hj h.1
    split
    · exact Kin.fits_flat hj ha
    · exact Kin.fits_less hj ha
  · split
    · next h => exact Kin.fits_down hj h.1
    split
    · exact Kin.fits_flat hj ha
    · exact Kin.fits_more hj ha

theorem stepStop_fits : Kin.Fits l k (stepStop l k) := by
  unfold stepStop
  split
  · next h =>
    simp only [Kin.resting, Bool.and_eq_true, decide_eq_true_eq] at h
    exact Kin.fits_rest ha rfl h.2
  · exact stepVel_fits hj ha 0

end

theorem Kin.resting_of_still {l : Limits} {k : Kin} (hj : 0 < l.j) (hv : k.v = 0) (ha : k.a = 0) : k.resting l = true := by
  have h := mul_pos hj tick_pos
  simp [Kin.resting, hv, ha, h.le, (mul_pos h tick_pos).le]

theorem stepStop_still {l : Limits} {k : Kin} (hj : 0 < l.j) (hv : k.v = 0) (ha : k.a = 0) : stepStop l k = k := by
  rw [stepStop, if_pos (Kin.resting_of_still hj hv ha)]
  cases k
  simp_all

theorem stepTo_still {l : Limits} {k : Kin} {t : Rat} (hj : 0 < l.j) (hv : k.v = 0) (ha : k.a = 0) (hp : k.p = t) :
    stepTo l t k = k := by
  rw [stepTo, if_pos (by simp [Kin.resting_of_still hj hv ha, hp])]
  cases k
  simp_all

/-! ## What the axes' work leaves alone -/

/-- Work of a die's axes: apart from registers, staged sets and the ports it changes the axes and groups of that die alone. -/
structure State.AxisWork (d : Die) (s t : State) : Prop where
  only : s.Only [.regs, .waiting, .groups, .ports, .axp] t
  others : ∀ e, e ≠ d → t.axp[e] = s.axp[e]
  switches : t.axp[d].sw = s.axp[d].sw

namespace State.AxisWork
variable {d : Die} {s t u : State}

theorem refl : s.AxisWork d s := ⟨.refl _ s, fun _ _ => rfl, rfl⟩

theorem trans (h1 : s.AxisWork d t) (h2 : t.AxisWork d u) : s.AxisWork d u :=
  ⟨h1.only.trans h2.only, fun e he => (h2.others e he).trans (h1.others e he), h2.switches.trans h1.switches⟩

/-- Work that does not touch the axes themselves. -/
theorem of_only (h : s.Only [.regs, .waiting, .groups, .ports] t) : s.AxisWork d t := by
  have haxp : t.axp = s.axp := State.only_iff.1 h .axp (by decide)
  exact ⟨h.mono (by decide), fun e _ => by rw [haxp], by rw [haxp]⟩

theorem ite {c : Prop} [Decidable c] (h1 : s.AxisWork d t) (h2 : s.AxisWork d u) : s.AxisWork d (if c then t else u) := by
  split
  · exact h1
  · exact h2

theorem foldl {α : Type} {f : State → α → State} (h : ∀ (t : State) x, t.AxisWork d (f t x)) (l : List α) (s : State) :
    s.AxisWork d (l.foldl f s) := by
  induction l generalizing s with
  | nil => exact refl
  | cons x l ih => exact (h s x).trans (ih (f s x))

theorem setAxis (n : Fin 8) (x : Axis) (h : s.AxisWork d t) : s.AxisWork d (t.setAxis d n x) :=
  h.trans ⟨rfl, fun e he => by simp [State.setAxis, Fin.val_ne_of_ne he.symm], by simp [State.setAxis]⟩

theorem setGrp (g : Fin 4) (x : Grp) (h : s.AxisWork d t) : s.AxisWork d (t.setGrp d g x) :=
  h.trans ⟨rfl, fun e he => by simp [State.setGrp, Fin.val_ne_of_ne he.symm], by simp [State.setGrp]⟩

theorem bump (a : Nat) (f : Field) (i j : Nat) (h : s.AxisWork d t) : s.AxisWork d (t.bump a f i j) :=
  h.trans (of_only ((State.bump_only t a f i j).mono (by decide)))

theorem raiseDie (c : Die) (code : Nat) (bay : Option Nat) (sub unit : Nat) (v1 : Int) (v2 : Nat) (h : s.AxisWork d t) :
    s.AxisWork d (t.raiseDie c code bay sub unit v1 v2) :=
  h.trans (of_only ((State.raiseDie_only t c code bay sub unit v1 v2).mono (by decide)))

theorem activate (g : Group) (h : s.AxisWork d t) : s.AxisWork d (t.activate g) := by
  refine h.trans (of_only ?_)
  unfold State.activate
  split
  · rfl
  · exact .refl _ _

theorem axPhase (n : Fin 8) (p : HPhase) (h : s.AxisWork d t) : s.AxisWork d (t.axPhase d n p) := h.setAxis n _

theorem axFault (n : Fin 8) (f : AxFault) (h : s.AxisWork d t) : s.AxisWork d (t.axFault d n f) := by
  cases f with
  | homingFault => exact (h.setAxis n _).raiseDie ..
  | switchChatter => exact ((h.setAxis n _).bump ..).raiseDie ..
  | limitTrip => exact (((h.setAxis n _).setAxis n _).bump ..).raiseDie ..

theorem axRest (n : Fin 8) (h : s.AxisWork d t) : s.AxisWork d (t.axRest d n) := by
  simp only [State.axRest]
  split
  · split
    · exact h.setAxis n _
    · exact h.setAxis n _
  · exact h.setAxis n _
  · exact h.setAxis n _
  · exact (h.setAxis n _).axPhase n _
  · exact (h.setAxis n _).axPhase n _
  · exact (h.setAxis n _).bump ..
  · exact h

theorem grpStop (g : Fin 4) (h : s.AxisWork d t) : s.AxisWork d (t.grpStop d g) := by
  simp only [State.grpStop]
  split
  · exact h.setGrp g _
  · exact h.setGrp g _
  · exact h

theorem grpStart (g : Fin 4) (h : s.AxisWork d t) : s.AxisWork d (t.grpStart d g) := by
  simp only [State.grpStart]
  split
  · exact h.setGrp g _
  · exact (h.setGrp g _).trans (foldl (fun u n => refl.setAxis n _) _ _)

theorem axTick (n : Fin 8) (h : s.AxisWork d t) : s.AxisWork d (t.axTick d n) := by
  have hset (u : State) (y : Axis) : u.AxisWork d (u.setAxis d n y) := refl.setAxis n y
  have hrest (u : State) (y : Axis) : u.AxisWork d (if y.still = true then (u.setAxis d n y).axRest d n else u.setAxis d n y) :=
    ite ((hset u y).axRest n) (hset u y)
  simp only [State.axTick]
  have hstill := ite (c := t.axp[d].axes[n].still = true) (h.activate (.axpAxis d n)) h
  refine hstill.trans ?_
  generalize (if t.axp[d].axes[n].still = true then t.activate (.axpAxis d n) else t) = u
  split
  · exact hrest ..
  · exact hrest ..
  · exact hrest ..
  · exact hrest ..
  · exact hrest ..
  · exact hrest ..
  · split
    · exact hset ..
    · exact hset ..
    · split
      · exact refl
      · split
        · exact ite ((hset ..).setAxis n _) (hset ..)
        · exact ite ((hset ..).axFault n _) (hset ..)
    · exact refl

theorem grpTick (g : Fin 4) (h : s.AxisWork d t) : s.AxisWork d (t.grpTick d g) := by
  have hplaces (u : State) (ms : List (Fin 8)) (f : State → Fin 8 → Axis) :
      u.AxisWork d (ms.foldl (fun t n => t.setAxis d n (f t n)) u) := foldl (fun _ n => refl.setAxis n _) _ _
  simp only [State.grpTick]
  have hstill := ite (c := (grpMembers t d g).all (fun n => t.axp[d].axes[n].still) = true ∧ t.axp[d].groups[g].st ≠ .moving ∧
    t.axp[d].groups[g].st ≠ .stopping) (h.activate (.axpGroup d g)) h
  refine hstill.trans ?_
  generalize (if (grpMembers t d g).all (fun n => t.axp[d].axes[n].still) = true ∧ t.axp[d].groups[g].st ≠ .moving ∧
    t.axp[d].groups[g].st ≠ .stopping then t.activate (.axpGroup d g) else t) = u
  split
  · exact ite ((((refl.setGrp g _).trans (hplaces ..)).setGrp g _).trans (hplaces ..)) ((refl.setGrp g _).trans (hplaces ..))
  · refine ite (ite (((refl.setGrp g _).trans (hplaces ..)).setGrp g _ |>.grpStart g) ?_) ((refl.setGrp g _).trans (hplaces ..))
    exact (((refl.setGrp g _).trans (hplaces ..)).setGrp g _).trans (hplaces ..)
  · exact refl

theorem profileTick (h : s.AxisWork d t) : s.AxisWork d (t.profileTick d) := by
  refine h.trans ?_
  simp only [State.profileTick]
  refine ite refl ((foldl (fun u g => refl.grpTick g) _ _).trans (foldl (fun u n => ?_) _ _))
  split
  · exact ite refl (refl.axTick n)
  · exact refl.axTick n

end State.AxisWork

/-! ## The commands of an axis -/

section
variable {s : State} {d : Die} {n : Fin 8}

/-- No axis that homing is enabled for still waits for it. -/
def AxisHomed (s : State) (d : Die) (n : Fin 8) : Prop :=
  s.has (axpA d) F.AXP_An_HOMECFG_HOME_EN n = true → s.axp[d].axes[n].homed = true

theorem notHomed_guard (h : ¬AxisHomed s d n) :
    (s.has (axpA d) F.AXP_An_HOMECFG_HOME_EN n && !s.axp[d].axes[n].homed) = true := by
  simpa [AxisHomed] using h

theorem homed_guard (h : AxisHomed s d n) :
    (s.has (axpA d) F.AXP_An_HOMECFG_HOME_EN n && !s.axp[d].axes[n].homed) = false := by
  simpa [AxisHomed] using h

theorem moveRefusal_disabled {t : Int} (h : axEnabled s d n = false) : moveRefusal s d n t = some .disabled := by
  simp [moveRefusal, h]

theorem moveRefusal_grouped {t : Int} (hon : axEnabled s d n = true) (h : (groupOf s d n).isSome = true) :
    moveRefusal s d n t = some .busy := by
  simp [moveRefusal, hon, h]

theorem moveRefusal_notHomed {t : Int} (hon : axEnabled s d n = true) (hg : groupOf s d n = none) (h : ¬AxisHomed s d n) :
    moveRefusal s d n t = some .notHomed := by
  simp only [moveRefusal, hon, hg, notHomed_guard h, Bool.not_true, Bool.false_eq_true, Option.isSome_none, if_false, if_true]

theorem moveRefusal_outside {t : Int} (hon : axEnabled s d n = true) (hg : groupOf s d n = none) (hh : AxisHomed s d n)
    (h : t < axSoftMin s d n ∨ axSoftMax s d n < t) : moveRefusal s d n t = some .targetUnreachable := by
  have hout : t < axSoftMin s d n ∨ axSoftMax s d n < t ∨ reversalOutside s d n t = true := h.imp_right .inl
  simp only [moveRefusal, hon, hg, homed_guard hh, hout, Bool.not_true, Bool.false_eq_true, Option.isSome_none, if_false,
    if_true]

theorem exec_axpMove_refused {r : AxRefuse} (h : moveRefusal s d n (axTarget s d n) = some r) :
    exec (.axpMove d n) s = .next (s.axRefuse d n r) := by
  show Host.Outcome.next (s.axMoveTo d n (axTarget s d n)) = _
  simp only [State.axMoveTo, h]

theorem exec_axpMove_taken (h : moveRefusal s d n (axTarget s d n) = none) (ht : takesMove s.axp[d].axes[n].st = true) :
    exec (.axpMove d n) s = .next (s.axGo d n (axTarget s d n)) := by
  show Host.Outcome.next (s.axMoveTo d n (axTarget s d n)) = _
  simp only [State.axMoveTo, h, ht, if_true]

theorem exec_axpMove_busy (h : moveRefusal s d n (axTarget s d n) = none) (ht : takesMove s.axp[d].axes[n].st = false) :
    exec (.axpMove d n) s = .next (s.axRefuse d n .busy) := by
  show Host.Outcome.next (s.axMoveTo d n (axTarget s d n)) = _
  simp only [State.axMoveTo, h, ht, Bool.false_eq_true, if_false]

theorem exec_axpStop_free (hg : groupOf s d n = none) :
    exec (.axpStop d n) s = .next (s.setAxis d n (axStopKeep s.axp[d].axes[n])) :=
  congrArg Host.Outcome.next (if_neg (by simp [hg]))

theorem axResume_disabled (h : axEnabled s d n = false) : s.axResume d n = s.axRefuse d n .disabled :=
  if_pos (by simp [h])

theorem axResume_grouped (hon : axEnabled s d n = true) (h : (groupOf s d n).isSome = true) :
    s.axResume d n = s.axRefuse d n .busy := by
  simp [State.axResume, hon, h]

theorem axResume_notHomed (hon : axEnabled s d n = true) (hg : groupOf s d n = none) (h : ¬AxisHomed s d n) :
    s.axResume d n = s.axRefuse d n .notHomed := by
  simp only [State.axResume, hon, hg, notHomed_guard h, Bool.not_true, Bool.false_eq_true, Option.isSome_none, if_false, if_true]

/-- RESUME of an axis that no rule holds: what it does by state. -/
theorem axResume_free (hon : axEnabled s d n = true) (hg : groupOf s d n = none) (hh : AxisHomed s d n) :
    (s.axp[d].axes[n].st = .kept → s.axResume d n = if towardsLimit s d n s.axp[d].axes[n].kept then s.axRefuse d n .limit
      else s.setAxis d n { s.axp[d].axes[n] with st := .moving, target := s.axp[d].axes[n].kept, after := none })
    ∧ (s.axp[d].axes[n].st = .idle ∨ s.axp[d].axes[n].st = .moving ∨ s.axp[d].axes[n].st = .stopping →
      s.axResume d n = s.axRefuse d n .nothingKept) := by
  simp only [State.axResume, hon, hg, homed_guard hh, Bool.not_true, Bool.false_eq_true, Option.isSome_none, if_false]
  refine ⟨fun h => by simp only [h], ?_⟩
  rintro (h | h | h) <;> simp only [h]

theorem axHome_disabled (h : axEnabled s d n = false) : s.axHome d n = s.axRefuse d n .disabled :=
  if_pos (by simp [h])

theorem axHome_grouped (hon : axEnabled s d n = true) (h : (groupOf s d n).isSome = true) :
    s.axHome d n = s.axRefuse d n .busy := by
  simp [State.axHome, hon, h]

theorem axHome_free (hon : axEnabled s d n = true) (hg : groupOf s d n = none)
    (h : s.axp[d].axes[n].st = .idle ∨ s.axp[d].axes[n].st = .kept) :
    s.axHome d n = (s.setAxis d n { s.axp[d].axes[n] with homed := false, reversed := false, htrips := 0, kept := 0 }).axPhase d n
      (if swOn s d (homeSwitch d n) then .release else .search) := by
  have hsw (x : Axis) : swOn (s.setAxis d n x) d (homeSwitch d n) = swOn s d (homeSwitch d n) := by
    cases homeSwitch d n <;> simp [swOn, State.setAxis]
  simp only [State.axHome, hon, hg, Bool.not_true, Bool.false_eq_true, Option.isSome_none, if_false, hsw]
  rcases h with h | h <;> simp only [h]

end

@[simp] theorem setAxis_axis_same (s : State) (d : Die) (n : Fin 8) (x : Axis) : (s.setAxis d n x).axp[d].axes[n] = x := by
  simp [State.setAxis]

/-- The writes of AXP_An_CTL leave the settings of the groups. -/
theorem get_put_ctl_group (s : State) (d : Die) (n : Fin 8) (g : Fin 4) (v : Nat) {f h : Field}
    (hf : f.off = 0 ∧ f.st = 0x80 ∧ f.st2 = 0 ∧ f.lo < 32) (hh : h.off = 0x400 ∧ h.st = 0x20 ∧ h.st2 = 0 ∧ h.lo < 32) :
    (s.put (axpA d) f v n).get (axpA d) h g = s.get (axpA d) h g := by
  obtain ⟨h1, h2, h3, h4⟩ := hf
  obtain ⟨h5, h6, h7, h8⟩ := hh
  refine get_put_other _ _ _ _ _ _ ?_
  simp only [Field.key, h1, h2, h3, h5, h6, h7]
  omega

theorem groupOf_put_ctl (s : State) (d : Die) (n m : Fin 8) (v : Nat) {f : Field}
    (hf : f.off = 0 ∧ f.st = 0x80 ∧ f.st2 = 0 ∧ f.lo < 32) : groupOf (s.put (axpA d) f v n) d m = groupOf s d m := by
  simp only [groupOf, State.has, get_put_ctl_group s d n _ v hf (h := F.AXP_GRPg_CFG_ENABLE) (by decide),
    get_put_ctl_group s d n _ v hf (h := F.AXP_GRPg_CFG_MEMBERS) (by decide)]

/-- The registers after a write of AXP_An_CTL. -/
def State.ctlPut (s : State) (d : Die) (n : Fin 8) (w : Word) : State :=
  ((s.put (axpA d) F.AXP_An_CTL_ENABLE (F.AXP_An_CTL_ENABLE.of w) n).put (axpA d) F.AXP_An_CTL_DIR_INV
    (F.AXP_An_CTL_DIR_INV.of w) n).put (axpA d) F.AXP_An_CTL_MODE (F.AXP_An_CTL_MODE.of w) n

theorem groupOf_ctlPut (s : State) (d : Die) (n m : Fin 8) (w : Word) : groupOf (s.ctlPut d n w) d m = groupOf s d m :=
  (groupOf_put_ctl _ _ _ _ _ (by decide)).trans ((groupOf_put_ctl _ _ _ _ _ (by decide)).trans
    (groupOf_put_ctl _ _ _ _ _ (by decide)))

section
variable {s : State} {d : Die} {n : Fin 8} {w : Word}

theorem axCtl_disable (hm : F.AXP_An_CTL_MODE.of w < 2) (he : F.AXP_An_CTL_ENABLE.of w = 0) (hon : axEnabled s d n = true)
    (hg : groupOf s d n = none) : s.axCtl d n w = (s.ctlPut d n w).axDisable d n := by
  have hgrp := (groupOf_ctlPut s d n n w).trans hg
  simp only [State.ctlPut, he] at hgrp
  simp only [State.axCtl, if_neg (Nat.not_le_of_lt hm), he, hon, State.ctlPut, show b2n false = 0 from rfl, hgrp,
    show ((0 : Nat) == 1) = false from rfl, Bool.not_false, if_true]

theorem axCtl_follow (hm : F.AXP_An_CTL_MODE.of w = 1) (he : F.AXP_An_CTL_ENABLE.of w = 1)
    (hst : s.axp[d].axes[n].st = .idle ∨ s.axp[d].axes[n].st = .moving) : s.axCtl d n w = (s.ctlPut d n w).setAxis d n
      { s.axp[d].axes[n] with st := .follow, after := none, kept := 0, atSoft := false, softDir := 0 } := by
  have hst' : s.axp[d].axes[n].st = .idle ∨ s.axp[d].axes[n].st = .kept ∨ s.axp[d].axes[n].st = .moving ∨
      s.axp[d].axes[n].st = .stopping := hst.imp_right fun h => .inr (.inl h)
  simp only [State.axCtl, State.ctlPut, hm, he, show b2n ((1 : Nat) == 1) = 1 from rfl, put_axp, if_pos hst']
  rfl

end

theorem still_ite (x : Axis) (a b : Option AfterStop) :
    (if x.still = true then a else b) = if x.v = 0 ∧ x.a = 0 then a else b := by
  simp [Axis.still]

/-- Settles O31: the tick's limits branch by branch, and each command by its guard and the axis's state. -/
theorem axesMove : Obligations.AxesMove := by
  refine ⟨fun l t w k _ hj hk => ⟨stepTo_fits hj hk t, stepVel_fits hj hk w, stepStop_fits hj hk, fun hv ha =>
    ⟨stepStop_still hj hv ha, stepTo_still hj hv ha⟩⟩, fun d n w s => ⟨fun hdead hd => ?_, fun _ hd => ?_, fun hoff => ?_,
    fun hon hg => ?_, fun hon hg hh => ?_, fun hon hg hh hout => exec_axpMove_refused (moveRefusal_outside hon hg hh hout),
    fun hfree => ⟨fun hst => ?_, fun hst => ?_, fun hst => ?_, fun hst => ?_⟩, fun hg => ⟨fun hst => ?_, fun hst => ?_,
    fun hst => ?_, fun hst => ?_⟩, fun hon hg hh => ⟨fun hst ht => ?_, fun hst ht => ?_, fun hst => ?_⟩,
    fun hon hg hst => ?_, fun hg => ⟨fun hst => ?_, fun hst hquiet => ?_⟩, fun hm => congrArg Host.Outcome.next (if_pos hm),
    fun hm he hon hg => ?_, fun hm he hst => congrArg Host.Outcome.next (axCtl_follow hm he hst)⟩⟩
  · show Host.Outcome.next (if d = 1 then _ else s.profileTick d) = _
    rw [if_neg hd, State.profileTick, if_pos hdead]
  · have hwork : s.AxisWork d (s.profileTick d) := State.AxisWork.refl.profileTick
    have hsame := State.only_iff.1 hwork.only
    exact ⟨_, congrArg Host.Outcome.next (if_neg hd), hwork.others, hsame .dies (by decide), hsame .trn (by decide),
      hsame .yrd (by decide)⟩
  · have hoff : axEnabled s d n = false := Bool.eq_false_iff.2 hoff
    exact ⟨exec_axpMove_refused (moveRefusal_disabled hoff), congrArg Host.Outcome.next (axResume_disabled hoff),
      congrArg Host.Outcome.next (axHome_disabled hoff)⟩
  · have hg := Option.isSome_iff_ne_none.2 hg
    exact ⟨exec_axpMove_refused (moveRefusal_grouped hon hg), congrArg Host.Outcome.next (axResume_grouped hon hg),
      congrArg Host.Outcome.next (axHome_grouped hon hg), congrArg Host.Outcome.next (if_pos hg),
      congrArg Host.Outcome.next (if_pos hg)⟩
  · exact ⟨exec_axpMove_refused (moveRefusal_notHomed hon hg hh), congrArg Host.Outcome.next (axResume_notHomed hon hg hh)⟩
  · rcases hst with hst | hst | hst <;>
      rw [exec_axpMove_taken hfree (by rw [hst]; rfl)] <;> simp only [State.axGo, hst]
  · rw [exec_axpMove_taken hfree (by rw [hst]; rfl)]
    simp only [State.axGo, hst]
  · rw [exec_axpMove_taken hfree (by rw [hst]; rfl)]
    simp only [State.axGo, hst]
  · exact exec_axpMove_busy hfree (by rcases hst with hst | hst <;> rw [hst] <;> rfl)
  · rw [exec_axpStop_free hg]
    simp only [axStopKeep, hst]
  · rw [exec_axpStop_free hg]
    simp only [axStopKeep, hst]
  · rw [exec_axpStop_free hg]
    simp only [axStopKeep, hst]
  · refine ⟨_, exec_axpStop_free hg, ?_⟩
    rcases hst with hst | hst <;> simp only [axStopKeep, hst]
  · exact congrArg Host.Outcome.next (((axResume_free hon hg hh).1 hst).trans (if_neg (Bool.eq_false_iff.1 ht)))
  · exact congrArg Host.Outcome.next (((axResume_free hon hg hh).1 hst).trans (if_pos ht))
  · exact congrArg Host.Outcome.next ((axResume_free hon hg hh).2 hst)
  · refine ⟨_, congrArg Host.Outcome.next (axHome_free hon hg hst), rfl, fun e he => ?_, ?_⟩
    · exact ((State.AxisWork.refl.setAxis n _).axPhase n _).others e he
    · simp only [State.axPhase, setAxis_axis_same]
  · show Host.Outcome.next (s.axClrFault d n) = _
    simp only [State.axClrFault, hg, Option.isSome_none, Bool.false_eq_true, if_false, if_neg hst]
  · show Host.Outcome.next (s.axClrFault d n) = _
    have hfree : ¬(s.axp[d].axes[n].fault = some .switchChatter ∧ ¬chatterQuiet s d n = true) := by tauto
    simp only [State.axClrFault, hg, Option.isSome_none, Bool.false_eq_true, if_false, if_pos hst, if_neg hfree]
  · refine ⟨_, congrArg Host.Outcome.next (axCtl_disable hm he hon hg), rfl, fun e he' => ?_, ?_⟩
    · exact (State.AxisWork.refl (s := s.ctlPut d n w).setAxis n _).others e he'
    · simp only [State.axDisable, setAxis_axis_same, still_ite]
      rfl

end Sys2Proof.Machine
end

section
/-! The groups of axes and the switches (chapter 09). -/
namespace Sys2Proof.Machine

/-! ## Groups -/

section
variable {s : State} {d : Die} {g : Fin 4}

theorem exec_grpMove_refused {r : AxRefuse} (h : grpRefusal s d g = some r) :
    exec (.grpMove d g) s = .next (s.grpRefuse d g r) := by
  show Host.Outcome.next (s.grpMove d g) = _
  simp only [State.grpMove, h]

theorem exec_grpResume_refused {r : AxRefuse} (h : grpResumeRefusal s d g = some r) :
    exec (.grpResume d g) s = .next (s.grpRefuse d g r) := by
  show Host.Outcome.next (s.grpResume d g) = _
  simp only [State.grpResume, h]

theorem grpRefusal_disabled (h : s.has (axpA d) F.AXP_GRPg_CFG_ENABLE g = false) : grpRefusal s d g = some .disabled :=
  if_pos (by simp [h])

theorem grpResumeRefusal_disabled (h : s.has (axpA d) F.AXP_GRPg_CFG_ENABLE g = false) :
    grpResumeRefusal s d g = some .disabled := if_pos (by simp [h])

theorem grpResumeRefusal_nothingKept (h : s.has (axpA d) F.AXP_GRPg_CFG_ENABLE g = true) (hst : s.axp[d].groups[g].st ≠ .kept) :
    grpResumeRefusal s d g = some .nothingKept :=
  (if_neg (by simp [h])).trans (if_pos hst)

/-- A member that may not move has the group's MOVE refused. -/
theorem grpRefusal_of_member {m : Fin 8} (h : s.has (axpA d) F.AXP_GRPg_CFG_ENABLE g = true) (hm : m ∈ grpMembers s d g)
    (hbad : axEnabled s d m = false ∨ axTarget s d m < axSoftMin s d m ∨ axSoftMax s d m < axTarget s d m) :
    ∃ r, grpRefusal s d g = some r := by
  rw [grpRefusal, if_neg (by simp [h]), ← Option.isSome_iff_exists, List.findSome?_isSome_iff]
  refine ⟨m, hm, ?_⟩
  dsimp only
  split
  · rfl
  next hon =>
  split
  · rfl
  · have hout : axTarget s d m < axSoftMin s d m ∨ axSoftMax s d m < axTarget s d m :=
      hbad.resolve_left fun h => hon (by simp [h])
    rw [if_pos hout]
    rfl

theorem exec_grpMove_waits (h : grpRefusal s d g = none) (hst : s.axp[d].groups[g].st = .moving ∨ s.axp[d].groups[g].st = .stopping) :
    exec (.grpMove d g) s = .next (s.setGrp d g { s.axp[d].groups[g] with st := .stopping, again := true }) := by
  show Host.Outcome.next (s.grpMove d g) = _
  rcases hst with hst | hst <;> simp only [State.grpMove, h, hst]

theorem exec_grpMove_starts (h : grpRefusal s d g = none) (hst : s.axp[d].groups[g].st = .idle ∨ s.axp[d].groups[g].st = .kept) :
    exec (.grpMove d g) s = .next (s.grpStart d g) := by
  show Host.Outcome.next (s.grpMove d g) = _
  rcases hst with hst | hst <;> simp only [State.grpMove, h, hst]

end

/-! ## A change of every member of a group -/

theorem setAxis_axis_other (s : State) (d : Die) {n m : Fin 8} (x : Axis) (h : m ≠ n) :
    (s.setAxis d n x).axp[d].axes[m] = s.axp[d].axes[m] := by
  simp [State.setAxis, Fin.val_ne_of_ne h.symm]

theorem setGrp_grp_same (s : State) (d : Die) (g : Fin 4) (x : Grp) : (s.setGrp d g x).axp[d].groups[g] = x := by
  simp [State.setGrp]

theorem setGrp_grp_other (s : State) (d : Die) {g h : Fin 4} (x : Grp) (hne : h ≠ g) :
    (s.setGrp d g x).axp[d].groups[h] = s.axp[d].groups[h] := by
  simp [State.setGrp, Fin.val_ne_of_ne hne.symm]

theorem setGrp_axes (s : State) (d : Die) (g : Fin 4) (x : Grp) : (s.setGrp d g x).axp[d].axes = s.axp[d].axes := by
  simp [State.setGrp]

/-- Every axis of a list changed in turn, from its own values and the registers alone. -/
def State.eachAxis (s : State) (d : Die) (ms : List (Fin 8)) (f : State → Fin 8 → Axis) : State :=
  ms.foldl (fun t n => t.setAxis d n (f t n)) s

section
variable {d : Die} {f : State → Fin 8 → Axis}

theorem eachAxis_only (s : State) (ms : List (Fin 8)) : s.Only [.axp] (s.eachAxis d ms f) :=
  .foldl (fun t n => State.setAxis_only t d n _) ms s

theorem eachAxis_others (s : State) (ms : List (Fin 8)) {e : Die} (he : e ≠ d) : (s.eachAxis d ms f).axp[e] = s.axp[e] := by
  have hwork : s.AxisWork d (s.eachAxis d ms f) := State.AxisWork.foldl (fun _ n => State.AxisWork.refl.setAxis n _) ms s
  exact hwork.others e he

theorem eachAxis_groups (s : State) (ms : List (Fin 8)) : (s.eachAxis d ms f).axp[d].groups = s.axp[d].groups := by
  induction ms generalizing s with
  | nil => rfl
  | cons n ms ih => exact (ih _).trans (by simp [State.setAxis])

theorem eachAxis_notMem (s : State) {ms : List (Fin 8)} {m : Fin 8} (hm : m ∉ ms) :
    (s.eachAxis d ms f).axp[d].axes[m] = s.axp[d].axes[m] := by
  induction ms generalizing s with
  | nil => rfl
  | cons n ms ih =>
    obtain ⟨hne, hms⟩ := not_or.1 (mt List.mem_cons.2 hm)
    exact (ih _ hms).trans (setAxis_axis_other s d _ hne)

/-- Each axis of the list, once in it, is what the change makes of it. -/
theorem eachAxis_mem (s : State) {ms : List (Fin 8)} (hnodup : ms.Nodup)
    (hf : ∀ (t u : State) n, t.Only [.axp] u → u.axp[d].axes[n] = t.axp[d].axes[n] → f u n = f t n)
    {m : Fin 8} (hm : m ∈ ms) : (s.eachAxis d ms f).axp[d].axes[m] = f s m := by
  induction ms generalizing s with
  | nil => cases hm
  | cons n ms ih =>
    obtain ⟨hn, hnodup⟩ := List.nodup_cons.1 hnodup
    rcases List.mem_cons.1 hm with rfl | hms
    · exact (eachAxis_notMem _ hn).trans (setAxis_axis_same s d m _)
    · have hne : m ≠ n := fun h => hn (h ▸ hms)
      exact (ih _ hnodup hms).trans (hf s _ m (State.setAxis_only s d n _) (setAxis_axis_other s d _ hne))

end

theorem grpMembers_nodup (s : State) (d : Die) (g : Fin 4) : (grpMembers s d g).Nodup :=
  (List.nodup_finRange 8).filter _

theorem le_foldl_max {l : List Nat} {a : Nat} (x : Nat) (h : a ≤ x ∨ a ∈ l) : a ≤ l.foldl max x := by
  induction l generalizing x with
  | nil => exact h.resolve_right List.not_mem_nil
  | cons b l ih =>
    refine ih (max x b) ?_
    rcases h with h | h
    · exact .inl (h.trans (le_max_left x b))
    · exact (List.mem_cons.1 h).imp (fun h : a = b => h ▸ le_max_right x a) id

/-- The distances of a group's members from where they stand to their targets. -/
def grpDelta (s : State) (d : Die) (g : Fin 4) : Vector Int 8 :=
  Vector.ofFn fun n : Fin 8 => if (grpMembers s d g).contains n then axTarget s d n - (s.axp[d].axes[n]).pos else 0

/-- The longest of them. -/
def grpLen (s : State) (d : Die) (g : Fin 4) : Nat := ((grpDelta s d g).toList.map Int.natAbs).foldl max 0

/-- A group at the start of its line. -/
def grpLine (s : State) (d : Die) (g : Fin 4) : Grp :=
  { s.axp[d].groups[g] with
    st := if grpLen s d g = 0 then .idle else .moving, s := 0, v := 0, a := 0, len := grpLen s d g
    start := Vector.ofFn fun n : Fin 8 => (s.axp[d].axes[n]).pos, delta := grpDelta s d g
    lead := ((grpDelta s d g).toList.map Int.natAbs).idxOf (grpLen s d g), again := false }

/-- An axis that moves to its target. -/
def axisToTarget (d : Die) (t : State) (n : Fin 8) : Axis :=
  { t.axp[d].axes[n] with st := .moving, target := axTarget t d n, after := none }

theorem grpLine_moving {s : State} {d : Die} {g : Fin 4} (h : grpLen s d g ≠ 0) : (grpLine s d g).st = .moving := by
  simp only [grpLine, if_neg h]

theorem grpStart_eq (s : State) (d : Die) (g : Fin 4) : s.grpStart d g = if grpLen s d g = 0 then s.setGrp d g (grpLine s d g)
    else (s.setGrp d g (grpLine s d g)).eachAxis d (grpMembers s d g) (axisToTarget d) := rfl

theorem grpDelta_of_mem {s : State} {d : Die} {g : Fin 4} {m : Fin 8} (hm : m ∈ grpMembers s d g) :
    (grpDelta s d g)[m] = axTarget s d m - s.axp[d].axes[m].pos := by
  have hc : (grpMembers s d g).contains m = true := List.contains_iff_mem.2 hm
  simp only [grpDelta, Fin.getElem_fin, Vector.getElem_ofFn, Fin.eta, hc, if_true]

theorem grpDelta_le_len (s : State) (d : Die) (g : Fin 4) (m : Fin 8) : ((grpDelta s d g)[m]).natAbs ≤ grpLen s d g :=
  le_foldl_max 0 (.inr (List.mem_map_of_mem (Vector.mem_toList_iff.2 (Vector.getElem_mem m.isLt))))

theorem axisToTarget_local (d : Die) (t u : State) (n : Fin 8) (h : t.Only [.axp] u)
    (hax : u.axp[d].axes[n] = t.axp[d].axes[n]) : axisToTarget d u n = axisToTarget d t n := by
  have hregs : u.regs = t.regs := State.only_iff.1 h .regs (by decide)
  simp only [axisToTarget, hax, axTarget, State.geti, State.get, hregs]

/-- A started line: the group as `grpLine` says, and each member on its way to its target where there is a distance. -/
theorem grpStart_spec (s : State) (d : Die) (g : Fin 4) :
    s.Only [.axp] (s.grpStart d g) ∧ (s.grpStart d g).axp[d].groups[g] = grpLine s d g
    ∧ (∀ h, h ≠ g → (s.grpStart d g).axp[d].groups[h] = s.axp[d].groups[h])
    ∧ (grpLen s d g ≠ 0 → ∀ m ∈ grpMembers s d g, (s.grpStart d g).axp[d].axes[m].st = .moving) := by
  rw [grpStart_eq]
  by_cases hlen : grpLen s d g = 0
  · rw [if_pos hlen]
    exact ⟨State.setGrp_only .., setGrp_grp_same .., fun h hne => setGrp_grp_other s d _ hne, fun hne => absurd hlen hne⟩
  · rw [if_neg hlen]
    refine ⟨(State.setGrp_only ..).trans (eachAxis_only ..), ?_, fun h hne => ?_, fun _ m hm => ?_⟩
    · rw [eachAxis_groups, setGrp_grp_same]
    · rw [eachAxis_groups, setGrp_grp_other s d _ hne]
    · rw [eachAxis_mem _ (grpMembers_nodup s d g) (axisToTarget_local d) hm]
      rfl

/-- An axis that moves on. -/
def axisMoving (d : Die) (t : State) (n : Fin 8) : Axis := { t.axp[d].axes[n] with st := .moving }

theorem exec_grpResume_goes {s : State} {d : Die} {g : Fin 4} (h : grpResumeRefusal s d g = none) :
    exec (.grpResume d g) s = .next ((s.setGrp d g { s.axp[d].groups[g] with st := .moving }).eachAxis d (grpMembers s d g)
      (axisMoving d)) := by
  show Host.Outcome.next (s.grpResume d g) = _
  simp only [State.grpResume, h]
  rfl

/-! ## Switches -/

theorem setSwitch_work {s : State} {d : Die} {k : Fin 12} {x : Switch} :
    s.Only [.axp] (s.setSwitch d k x) ∧ (∀ e, e ≠ d → (s.setSwitch d k x).axp[e] = s.axp[e])
    ∧ (s.setSwitch d k x).axp[d].axes = s.axp[d].axes ∧ (s.setSwitch d k x).axp[d].sw = s.axp[d].sw.set k x :=
  ⟨rfl, fun e he => by simp [State.setSwitch, Fin.val_ne_of_ne he.symm], by simp [State.setSwitch], by simp [State.setSwitch]⟩

theorem homeEdge_work (s : State) (d : Die) (n : Fin 8) (level : Bool) (cap : Int) : s.AxisWork d (s.homeEdge d n level cap) := by
  simp only [State.homeEdge]
  split
  · split
    · exact State.AxisWork.refl.setAxis n _
    · exact State.AxisWork.refl.setAxis n _
    · exact .ite .refl (State.AxisWork.refl.setAxis n _)
    · exact State.AxisWork.refl.setAxis n _
    · exact .refl
  · exact .refl

theorem homeEdge_of_not_homing {s : State} {d : Die} {n : Fin 8} (level : Bool) (cap : Int) (h : s.axp[d].axes[n].st ≠ .homing) :
    s.homeEdge d n level cap = s := if_neg fun hh => h hh.1

theorem grpStop_eq_or (s : State) (d : Die) (g : Fin 4) : s.grpStop d g = s ∨ ∃ x, s.grpStop d g = s.setGrp d g x := by
  simp only [State.grpStop]
  split
  · exact .inr ⟨_, rfl⟩
  · exact .inr ⟨_, rfl⟩
  · exact .inl rfl

theorem grpStop_axes (s : State) (d : Die) (g : Fin 4) : (s.grpStop d g).axp[d].axes = s.axp[d].axes := by
  obtain h | ⟨x, h⟩ := grpStop_eq_or s d g
  · rw [h]
  · rw [h, setGrp_axes]

theorem axFault_capture (s : State) (d : Die) (n : Fin 8) (f : AxFault) :
    ((s.axFault d n f).axp[d].axes[n]).capture = (s.axp[d].axes[n]).capture := by
  have hraise (t : State) (c : Die) (code : Nat) (bay : Option Nat) (sub unit : Nat) (v1 : Int) (v2 : Nat) :
      (t.raiseDie c code bay sub unit v1 v2).axp = t.axp := rfl
  cases f <;> simp only [State.axFault, hraise, bump_axp, setAxis_axis_same]

/-- On a bay die a confirmed level drives homing alone. -/
theorem switchActs_bay {s : State} {d : Die} {k : Fin 12} (hd : d ≠ 1) (level : Bool) (cap : Int) : s.switchActs d k level cap =
    if homeSwitch d (switchAxis d k) = some k then s.homeEdge d (switchAxis d k) level cap else s := by
  have hlim (n : Fin 8) : limitSwitches d n = none := if_neg hd
  simp only [State.switchActs, hlim, hd, false_and, if_false]

/-- A switch confirmed, before what its level drives. -/
def State.confirmed (s : State) (d : Die) (k : Fin 12) : State :=
  let x := s.axp[d].sw[k]
  let n := switchAxis d k
  let win := s.get (axpA d) F.AXP_An_SWCFG_CHAT_WIN n * 1000000
  let edges := s.clock :: x.edges.filter fun t => decide (s.clock < t + win)
  let s' := s.setSwitch d k { x with level := x.raw, latch := none, edges }
  s'.setAxis d n { s'.axp[d].axes[n] with capture := x.latch.getD (s.axp[d].axes[n]).pos }

/-- What a confirmed level does then: chatter faults the axis, and any other level drives what hangs on it. -/
def State.levelActs (t : State) (d : Die) (k : Fin 12) (level : Bool) (cap : Int) : State :=
  let n := switchAxis d k
  if chatters t d k ∧ (t.axp[d].axes[n]).st ≠ .fault then
    (match groupOf t d n with | some g => t.grpStop d g | none => t).axFault d n .switchChatter
  else t.switchActs d k level cap

theorem switchConfirm_bay {s : State} {d : Die} {k : Fin 12} (hd : d ≠ 1) (h : s.axp[d].sw[k].raw ≠ s.axp[d].sw[k].level) :
    s.switchConfirm d k = (s.confirmed d k).levelActs d k s.axp[d].sw[k].raw
      (s.axp[d].sw[k].latch.getD (s.axp[d].axes[switchAxis d k]).pos) := by
  have hdk : ¬(d = 1 ∧ k = 11) := fun hh => hd hh.1
  simp only [State.switchConfirm, if_neg h, if_neg hdk]
  rfl

theorem levelActs_spec {t : State} {d : Die} {k : Fin 12} (hd : d ≠ 1) (level : Bool) (cap : Int) :
    t.AxisWork d (t.levelActs d k level cap) ∧ ((t.axp[d].axes[switchAxis d k]).st ≠ .homing →
      ((t.levelActs d k level cap).axp[d].axes[switchAxis d k]).capture = (t.axp[d].axes[switchAxis d k]).capture) := by
  simp only [State.levelActs]
  split
  · refine ⟨State.AxisWork.axFault _ _ ?_, fun _ => (axFault_capture ..).trans ?_⟩
    · split
      · exact State.AxisWork.refl.grpStop _
      · exact .refl
    · split
      · rw [grpStop_axes]
      · rfl
  · refine ⟨?_, fun hn => ?_⟩
    · rw [switchActs_bay hd]
      exact .ite (homeEdge_work ..) .refl
    · have hsame : t.switchActs d k level cap = t := by rw [switchActs_bay hd, homeEdge_of_not_homing _ _ hn, ite_self]
      exact congrArg (fun u : State => (u.axp[d].axes[switchAxis d k]).capture) hsame

theorem confirmed_spec (s : State) (d : Die) (k : Fin 12) :
    (∀ e, e ≠ d → (s.confirmed d k).axp[e] = s.axp[e])
    ∧ (∃ y, (s.confirmed d k).axp[d].sw = s.axp[d].sw.set k y ∧ y.level = s.axp[d].sw[k].raw ∧ y.latch = none)
    ∧ (s.confirmed d k).axp[d].axes[switchAxis d k] = { s.axp[d].axes[switchAxis d k] with
        capture := s.axp[d].sw[k].latch.getD (s.axp[d].axes[switchAxis d k]).pos } := by
  have hset (x : Switch) := setSwitch_work (s := s) (d := d) (k := k) (x := x)
  have hwork (u : State) (a : Axis) : u.AxisWork d (u.setAxis d (switchAxis d k) a) := State.AxisWork.refl.setAxis _ _
  refine ⟨fun e he => ((hwork _ _).others e he).trans ((hset _).2.1 e he), ⟨_, (hwork _ _).switches.trans (hset _).2.2.2, rfl, rfl⟩, ?_⟩
  simp only [State.confirmed, setAxis_axis_same, (hset _).2.2.1]

theorem latch_keeps_first (a b : Bool) (l : Option Int) (p : Int) :
    (if a = b then l else l <|> some p) = if a = b ∨ l ≠ none then l else some p := by
  by_cases hab : a = b
  · rw [if_pos hab, if_pos (.inl hab)]
  · rw [if_neg hab]
    cases l with
    | none => simp [hab]
    | some q => simp

/-- Settles O32: the refusals of a group, the line a start draws, and what a confirmed switch leaves alone. -/
theorem groupsAndSwitches : Obligations.GroupsAndSwitches := by
  intro d g k active s
  refine ⟨fun hoff => ⟨exec_grpMove_refused (grpRefusal_disabled hoff), exec_grpResume_refused (grpResumeRefusal_disabled hoff)⟩,
    fun r h => exec_grpMove_refused h, fun hon m hm hbad => ?_, fun hfree => ⟨exec_grpMove_waits hfree, fun hst => ?_⟩,
    fun hst => ?_, fun hst => ?_, fun hon hst => exec_grpResume_refused (grpResumeRefusal_nothingKept hon hst), fun hfree => ?_,
    ?_, fun hd hlevel => ?_, fun hd hlevel => ?_⟩
  · obtain ⟨r, hr⟩ := grpRefusal_of_member hon hm hbad
    exact ⟨r, exec_grpMove_refused hr⟩
  · obtain ⟨honly, hgrp, hothers, haxes⟩ := grpStart_spec s d g
    refine ⟨_, exec_grpMove_starts hfree hst, honly, (State.AxisWork.refl.grpStart g).others, hothers, ?_⟩
    rw [hgrp]
    exact ⟨rfl, fun m hm => ⟨grpDelta_of_mem hm, grpDelta_le_len s d g m⟩, fun hlen => ⟨grpLine_moving hlen, haxes hlen⟩⟩
  · show Host.Outcome.next (s.grpStop d g) = _
    rcases hst with hst | hst <;> simp only [State.grpStop, hst]
  · show Host.Outcome.next (s.grpStop d g) = _
    rcases hst with hst | hst <;> simp only [State.grpStop, hst]
  · have honly := (State.setGrp_only s d g { s.axp[d].groups[g] with st := .moving }).trans
      (eachAxis_only (d := d) (f := axisMoving d) _ (grpMembers s d g))
    refine ⟨_, exec_grpResume_goes hfree, honly, fun e he => ?_, ?_, fun m hm => ?_⟩
    · exact (eachAxis_others _ _ he).trans ((State.AxisWork.refl.setGrp g _).others e he)
    · rw [eachAxis_groups, setGrp_grp_same]
    · rw [eachAxis_mem _ (grpMembers_nodup s d g) (fun _ _ _ _ hax => by simp only [axisMoving, hax]) hm, axisMoving, setGrp_axes]
  · show Host.Outcome.next _ = _
    refine congrArg (fun l => Host.Outcome.next (s.setSwitch d k { s.axp[d].sw[k] with
      raw := active, lastRaw := some s.clock, latch := l })) ?_
    exact latch_keeps_first ..
  · exact congrArg Host.Outcome.next ((if_neg hd).trans (if_pos hlevel))
  · obtain ⟨hothers, ⟨y, hsw, hraw, hlatch⟩, hax⟩ := confirmed_spec s d k
    obtain ⟨hwork, hcap⟩ := levelActs_spec (t := s.confirmed d k) (k := k) hd s.axp[d].sw[k].raw
      (s.axp[d].sw[k].latch.getD (s.axp[d].axes[switchAxis d k]).pos)
    refine ⟨_, congrArg Host.Outcome.next ((if_neg hd).trans (switchConfirm_bay hd hlevel)), fun e he => (hwork.others e he).trans (hothers e he), ?_⟩
    rw [hwork.switches, hsw]
    refine ⟨by simpa using hraw, by simpa using hlatch, fun h hne => by simp [Fin.val_ne_of_ne hne.symm], fun hn => ?_⟩
    rw [hcap (by rw [hax]; exact hn), hax]

end Sys2Proof.Machine
end

section
/-! The machine right after reset. -/
namespace Sys2Proof.Machine

/-- Settles O2: reset's parts are closed terms, and its registers the tables' reset values. -/
theorem resetState : Obligations.ResetState := by
  refine ⟨rfl, rfl, rfl, rfl, rfl, rfl, rfl, rfl, rfl, ?_, ?_, ?_, by decide, by decide, ?_, ?_⟩
  · decide
  · decide
  · decide
  · decide
  · decide
end Sys2Proof.Machine
end

section
/-! The sessions of the vault lock (chapter 13). -/
namespace Sys2Proof.Machine

theorem State.session_id {s : State} {id : Nat} {x : Session} (h : s.session id = some x) : x.id = id := by
  simpa using List.find?_some h

theorem State.session_setSession {s : State} {id : Nat} {x y : Session} (h : s.session id = some x) (hy : y.id = id) :
    (s.setSession y).session id = some y := by
  have hfind (l : List Session) (hl : (l.find? (·.id = id)).isSome = true) :
      (l.map fun z => if z.id = y.id then y else z).find? (·.id = id) = some y := by
    induction l with
    | nil => simp at hl
    | cons z l ih =>
      by_cases hz : z.id = id
      · simp [hz, hy]
      · have hne : ¬z.id = y.id := fun he => hz (he.trans hy)
        rw [List.find?_cons_of_neg (by simpa using hz)] at hl
        rw [List.map_cons, if_neg hne, List.find?_cons_of_neg (by simpa using hz)]
        exact ih hl
  exact hfind _ (Option.isSome_iff_exists.2 ⟨x, h⟩)

section
variable (s : State) (id f title off count : Nat) (mode : Option Nat)

/-- What a session must be for a command to count on it. -/
def Session.Live (s : State) (x : Session) (f : Nat) : Prop :=
  x.st = .opened ∧ x.func = f ∧ s.vlk.timeSet = true ∧ max s.now s.vlk.hwm < x.expiry

/-- What a session's rights must allow. -/
def Session.Grants (x : Session) (title : Nat) (mode : Option Nat) (off count : Nat) : Prop :=
  x.title = title ∧ (∀ m, mode = some m → bitOf x.modes m = true) ∧ x.first ≤ off ∧ off + count - 1 ≤ x.last

theorem rightsTime_seeTime : s.seeTime.rightsTime = max s.now s.vlk.hwm := by
  show max s.now (max s.now s.vlk.hwm) = _
  omega

variable {s id f title off count mode} {x : Session}

theorem sessionVerdict_dead (h : ¬Session.Live s x f) : sessionVerdict s.seeTime x f title mode off count = stSessionInvalid := by
  refine if_pos ?_
  rw [rightsTime_seeTime]
  by_contra hn
  simp only [not_or, ne_eq, not_not, Bool.not_eq_eq_eq_not, not_le, Bool.not_true, Bool.not_eq_false] at hn
  obtain ⟨h1, h2, h3, h4⟩ := hn
  exact h ⟨h1, h2, h3, h4⟩

theorem sessionVerdict_live (h : Session.Live s x f) : sessionVerdict s.seeTime x f title mode off count =
    if x.title ≠ title ∨ !(match mode with | some m => bitOf x.modes m | none => true) ∨ off < x.first ∨ x.last < off + count - 1
    then stNotPermitted else stSuccess := by
  obtain ⟨h1, h2, h3, h4⟩ := h
  refine if_neg ?_
  rw [rightsTime_seeTime]
  have h3' : s.seeTime.vlk.timeSet = true := h3
  simp only [h1, h2, h3', not_le.2 h4, ne_eq, not_true, Bool.not_true, Bool.false_eq_true, or_self, not_false_eq_true]

theorem Session.grants_iff : Session.Grants x title mode off count ↔
    ¬(x.title ≠ title ∨ !(match mode with | some m => bitOf x.modes m | none => true) ∨ off < x.first ∨ x.last < off + count - 1) := by
  simp only [Session.Grants, not_or, not_not, ne_eq, not_lt]
  cases mode <;> simp

theorem checkSession_none (h : s.session id = none) :
    s.checkSession id f title mode off count = (s.seeTime.bump (hubAt .vlk) F.VLK_CNT1_REFUSALS, stSessionInvalid) := by
  have h' : s.seeTime.session id = none := h
  simp only [State.checkSession, h']

theorem checkSession_granted (h : s.session id = some x) (hl : Session.Live s x f) (hg : Session.Grants x title mode off count) :
    s.checkSession id f title mode off count = (s.seeTime, stSuccess) := by
  have h' : s.seeTime.session id = some x := h
  have hv : sessionVerdict s.seeTime x f title mode off count = stSuccess :=
    (sessionVerdict_live hl).trans (if_neg (Session.grants_iff.1 hg))
  simp only [State.checkSession, h', hv, if_true]

/-- A context whose use was refused: counted, and expired where it was found too late. -/
def Session.refuse (s : State) (x : Session) (f : Nat) : Session :=
  { x with refused := x.refused + 1
           st := if x.st = .opened ∧ x.func = f ∧ (!s.seeTime.vlk.timeSet ∨ x.expiry ≤ s.seeTime.rightsTime) then .expired else x.st }

theorem checkSession_refused (h : s.session id = some x)
    (hv : sessionVerdict s.seeTime x f title mode off count ≠ stSuccess) :
    s.checkSession id f title mode off count =
      ((s.seeTime.setSession (Session.refuse s x f)).bump (hubAt .vlk) F.VLK_CNT1_REFUSALS,
        sessionVerdict s.seeTime x f title mode off count) := by
  have h' : s.seeTime.session id = some x := h
  simp only [State.checkSession, h', if_neg hv]
  rfl

theorem refuse_live (h : Session.Live s x f) : Session.refuse s x f = { x with refused := x.refused + 1 } := by
  obtain ⟨_, _, h3, h4⟩ := h
  have hlive : ¬(!s.seeTime.vlk.timeSet ∨ x.expiry ≤ s.seeTime.rightsTime) := by
    rw [rightsTime_seeTime, show s.seeTime.vlk.timeSet = true from h3]
    simpa using h4
  rw [Session.refuse, if_neg fun hn => hlive hn.2.2]

theorem refuse_dead (h : ¬Session.Live s x f) : Session.refuse s x f =
    { x with refused := x.refused + 1, st := if x.st = .opened ∧ x.func = f then .expired else x.st } := by
  have hiff : (x.st = .opened ∧ x.func = f ∧ (!s.seeTime.vlk.timeSet ∨ x.expiry ≤ s.seeTime.rightsTime)) ↔
      x.st = .opened ∧ x.func = f := by
    refine ⟨fun hh => ⟨hh.1, hh.2.1⟩, fun hh => ⟨hh.1, hh.2, ?_⟩⟩
    rw [rightsTime_seeTime]
    by_contra hn
    obtain ⟨h3, h4⟩ := not_or.1 hn
    have hset : s.seeTime.vlk.timeSet = true := by simpa only [Bool.not_eq_true, Bool.not_eq_false'] using h3
    exact h ⟨hh.1, hh.2, hset, not_le.1 h4⟩
  simp only [Session.refuse, hiff]

theorem session_refused (h : s.session id = some x) {y : Session} (hy : y.id = id) :
    ((s.seeTime.setSession y).bump (hubAt .vlk) F.VLK_CNT1_REFUSALS).session id = some y :=
  State.session_setSession (s := s.seeTime) h hy

theorem refusals_counted (t : State) : (t.bump (hubAt .vlk) F.VLK_CNT1_REFUSALS).get (hubAt .vlk) F.VLK_CNT1_REFUSALS =
    min (t.get (hubAt .vlk) F.VLK_CNT1_REFUSALS + 1) 65535 := get_bump_same ..

/-- What a refused use leaves of its context and of the count. -/
theorem checkSession_refused_spec (h : s.session id = some x) (hv : sessionVerdict s.seeTime x f title mode off count ≠ stSuccess) :
    (s.checkSession id f title mode off count).2 = sessionVerdict s.seeTime x f title mode off count
    ∧ (s.checkSession id f title mode off count).1.session id = some (Session.refuse s x f)
    ∧ (s.checkSession id f title mode off count).1.get (hubAt .vlk) F.VLK_CNT1_REFUSALS =
      min (s.get (hubAt .vlk) F.VLK_CNT1_REFUSALS + 1) 65535
    ∧ (s.checkSession id f title mode off count).1.vlk.hwm = max s.now s.vlk.hwm := by
  rw [checkSession_refused h hv]
  exact ⟨rfl, session_refused (y := Session.refuse s x f) h (State.session_id (x := x) h), refusals_counted _, rfl⟩

theorem closeFinal_noop (h : s.session id = some x) (hx : x.st ≠ .closing ∨ ∃ c ∈ s.qen.cmds, c.sess = some id) :
    s.closeFinal id = s := by
  simp only [State.closeFinal, h]
  refine if_pos (hx.imp_right fun ⟨c, hc, hs⟩ => ?_)
  simp only [State.sessionBusy, List.any_eq_true]
  exact ⟨c, hc, by simp [hs]⟩

theorem closeFinal_free (h : s.session id = some x) (hst : x.st = .closing) (hc : s.qen.cmds = []) :
    s.closeFinal id = s.freeSession id := by
  simp only [State.closeFinal, h, State.sessionBusy, hc, List.find?_nil, List.any_nil]
  exact if_neg (by simp [hst])

end

/-- Settles O40: the verdict on a session by whether it is live and grants the use, and the close by what still counts on it. -/
theorem sessions : Obligations.Sessions := by
  refine ⟨fun s id f title off count mode => ⟨?_, fun h => ?_, fun x h => ?_⟩, fun id s => ⟨fun h => ?_,
    fun x h hx => congrArg Host.Outcome.next (closeFinal_noop h hx), fun x h hst hc =>
      congrArg Host.Outcome.next (closeFinal_free h hst hc), fun i hi => ?_⟩⟩
  · show (s.checkSession id f title mode off count).1.vlk.hwm = _
    cases h : s.session id with
    | none => rw [checkSession_none h]; rfl
    | some x =>
      by_cases hv : sessionVerdict s.seeTime x f title mode off count = stSuccess
      · have h' : s.seeTime.session id = some x := h
        simp only [State.checkSession, h', hv, if_true]
        rfl
      · exact (checkSession_refused_spec h hv).2.2.2
  · rw [checkSession_none h]
    exact ⟨rfl, refusals_counted _⟩
  · have hdead (hl : ¬Session.Live s x f) : sessionVerdict s.seeTime x f title mode off count ≠ stSuccess := by
      rw [sessionVerdict_dead hl]; decide
    have hvoid (hl : Session.Live s x f) (hg : ¬Session.Grants x title mode off count) :
        sessionVerdict s.seeTime x f title mode off count = stNotPermitted :=
      (sessionVerdict_live hl).trans (if_pos (not_not.1 (mt Session.grants_iff.2 hg)))
    have hbarred (hl : Session.Live s x f) (hg : ¬Session.Grants x title mode off count) :
        sessionVerdict s.seeTime x f title mode off count ≠ stSuccess := by
      rw [hvoid hl hg]; decide
    refine ⟨fun hl hg => ?_, fun hl hg => ?_, fun hl => ?_, fun hn => ?_⟩
    · rw [checkSession_granted h hl hg]
      exact ⟨rfl, rfl⟩
    · obtain ⟨hst, hsess, -⟩ := checkSession_refused_spec h (hbarred hl hg)
      exact ⟨hst.trans (hvoid hl hg), hsess.trans (by rw [refuse_live hl])⟩
    · obtain ⟨hst, hsess, -⟩ := checkSession_refused_spec h (hdead hl)
      exact ⟨hst.trans (sessionVerdict_dead hl), hsess.trans (by rw [refuse_dead hl])⟩
    · by_cases hl : Session.Live s x f
      · exact (checkSession_refused_spec h (hbarred hl fun hg => hn ⟨hl, hg⟩)).2.2.1
      · exact (checkSession_refused_spec h (hdead hl)).2.2.1
  · show Host.Outcome.next (s.closeFinal id) = _
    simp only [State.closeFinal, h]
  · unfold State.freeContext at hi
    split at hi
    · next hlt => exact ⟨fun _ => (Option.some.inj hi).symm, fun hge => absurd hge (Nat.not_le_of_lt hlt)⟩
    · next hge => exact ⟨fun hlt => absurd hlt hge, fun _ => hi⟩

end Sys2Proof.Machine
end

section
/-! The range engine of the landing cache (chapter 11). -/
namespace Sys2Proof.Machine

/-! ## A sparse list -/

theorem assocGet_assocDel_same {α : Type} (l : List (Nat × α)) (k : Nat) : assocGet (assocDel l k) k = none := by
  rw [assocGet, Option.map_eq_none_iff, List.find?_eq_none]
  intro e he
  simpa using (List.mem_filter.1 he).2

theorem assocGet_assocDel_other {α : Type} (l : List (Nat × α)) {k n : Nat} (h : n ≠ k) :
    assocGet (assocDel l k) n = assocGet l n := by
  unfold assocGet assocDel
  rw [List.find?_filter]
  refine congrArg _ (congrFun (congrArg _ (funext fun e => ?_)) l)
  by_cases he : e.1 = n
  · subst he; simp [h]
  · simp [he]

theorem assocGet_cons {α : Type} (k : Nat) (v : α) (l : List (Nat × α)) (n : Nat) :
    assocGet ((k, v) :: l) n = if k = n then some v else assocGet l n := by
  unfold assocGet
  by_cases h : k = n <;> simp [h]

theorem assocGet_assocPut {α : Type} (l : List (Nat × α)) (k : Nat) (x : α) (n : Nat) :
    assocGet (assocPut l k x) n = if k = n then some x else assocGet l n := by
  induction l with
  | nil => simp [assocPut, assocGet_cons]
  | cons e l ih =>
    obtain ⟨m, v⟩ := e
    simp only [assocPut]
    split
    · next hm => subst hm; simp only [assocGet_cons]; split <;> rfl
    · next hm =>
      split
      · rw [assocGet_cons]
      · rw [assocGet_cons, assocGet_cons, ih]
        by_cases hn : k = n
        · rw [if_neg fun hmn => hm (hmn.trans hn.symm), if_pos hn, if_pos hn]
        · simp only [if_neg hn]

theorem setLine_same (s : State) (e : Nat) (l : Line) : (s.setLine e l).line e = l := by
  simp only [State.line, State.setLine]
  split
  · next h => rw [assocGet_assocDel_same, h]; rfl
  · rw [assocGet_assocPut, if_pos rfl]; rfl

theorem setLine_other (s : State) {e e' : Nat} (l : Line) (h : e' ≠ e) : (s.setLine e l).line e' = s.line e' := by
  simp only [State.line, State.setLine]
  split
  · rw [assocGet_assocDel_other _ h]
  · rw [assocGet_assocPut, if_neg h.symm]

/-! ## One tag entry -/

section
variable {force : Bool} {s : State} {e : Nat} {l : Line}

theorem invalidateEntry_clean_unlocked (hst : l.st = .clean) (hl : l.lock = false) :
    invalidateEntry force s (e, l) = (s.setLine e {}).rangeDid 1 := by
  simp only [invalidateEntry, hst, hl, Bool.not_false, if_true]

theorem invalidateEntry_clean_forced (hst : l.st = .clean) (hl : l.lock = true) (hf : force = true) :
    invalidateEntry force s (e, l) = ((s.setLine e { slot := l.slot, log := l.log, lock := true }).rangeDid 1).bump (hubAt .lnd)
      F.LND_RANGE_SUM3_FORCED_LOCKED := by
  simp only [invalidateEntry, hst, hl, hf, Bool.not_true, Bool.false_eq_true, if_false, if_true, emptied]

theorem invalidateEntry_clean_locked (hst : l.st = .clean) (hl : l.lock = true) (hf : force = false) :
    invalidateEntry force s (e, l) = s.bump (hubAt .lnd) F.LND_RANGE_SUM1_SKIP_LOCKED := by
  simp only [invalidateEntry, hst, hl, hf, Bool.not_true, Bool.false_eq_true, if_false]

theorem invalidateEntry_recording (hst : l.st = .dirty ∨ l.st = .recording) :
    invalidateEntry force s (e, l) = s.bump (hubAt .lnd) F.LND_RANGE_SUM1_SKIP_DIRTY := by
  rcases hst with hst | hst <;> simp only [invalidateEntry, hst]

theorem invalidateEntry_moving (hst : l.st = .filling ∨ l.st = .evicting) :
    invalidateEntry force s (e, l) = s.bump (hubAt .lnd) F.LND_RANGE_SUM2_SKIP_BUSY := by
  rcases hst with hst | hst <;> simp only [invalidateEntry, hst]

theorem invalidateEntry_other {e' : Nat} (h : e' ≠ e) : (invalidateEntry force s (e, l)).line e' = s.line e' := by
  have hset (k : Line) : (s.setLine e k).line e' = s.line e' := setLine_other s k h
  simp only [invalidateEntry]
  split
  · rfl
  · rfl
  · rfl
  · rfl
  · rfl
  · split
    · exact hset _
    · split
      · exact hset _
      · rfl

theorem unlockEntry_locked (h : l.lock = true) : unlockEntry s (e, l) =
    (s.setLine e (if l.st = .invalid then {} else { l with lock := false })).rangeDid 1 := if_pos h

theorem unlockEntry_unlocked (h : l.lock = false) : unlockEntry s (e, l) = s := if_neg (by simp [h])

end

/-! ## The end of an operation -/

theorem settle_idle {s : State} (hf : s.fieldReady = false) (hr : s.lnd.range = none) : s.settle = s := by
  have hwork : s.settleWork = s := by
    simp only [State.settleWork, State.pumpRange, hr, State.pump, hf, Bool.false_eq_true, if_false, ite_self]
  rw [State.settle, hwork, State.failMounts, hf]
  rfl

theorem epEvt_spec (s : State) : s.Only [.regs, .ep] (s.epEvt 0)
    ∧ ∀ a f i j, f.key a i j ≠ F.EP_EVT_STATUS_RANGE_DONE.key (hubAt .ep) 0 0 → (s.epEvt 0).get a f i j = s.get a f i j := by
  have hfire (t : State) (f v : Nat) : t.Only [.ep] (t.msixFire f v) := by
    unfold State.msixFire
    split <;> rfl
  have hregs (t : State) (f v : Nat) : (t.msixFire f v).regs = t.regs := State.only_iff.1 (hfire t f v) .regs (by decide)
  unfold State.epEvt
  refine ⟨((State.put_only ..).mono (by decide)).whenDo ((hfire ..).mono (by decide)), fun a f i j h => ?_⟩
  dsimp only
  split
  · exact (congrArg (fieldIn · f _) (hregs ..)).trans (get_put_other _ _ _ _ _ _ h)
  · exact get_put_other _ _ _ _ _ _ h

/-- The engine without its operation, DONE not yet set. -/
def State.rangeFreed (s : State) : State :=
  { s with lnd := { s.lnd with range := none, parked := s.lnd.parked.filter fun p => p.1.owner ≠ Owner.engine } }

theorem endRange_quiet {s : State} {x : RangeRun} (h : s.lnd.range = some x) (hc : x.op.cmd = none) (hq : s.lnd.queue = []) :
    s.endRange = if s.rangeFreed.has (hubAt .lnd) F.LND_RANGE_STATUS_DONE then s.rangeFreed
      else (s.rangeFreed.put (hubAt .lnd) F.LND_RANGE_STATUS_DONE 1).epEvt 0 := by
  have hqueue : (if s.rangeFreed.has (hubAt .lnd) F.LND_RANGE_STATUS_DONE then s.rangeFreed
      else (s.rangeFreed.put (hubAt .lnd) F.LND_RANGE_STATUS_DONE 1).epEvt 0).lnd.queue = [] := by
    split
    · exact hq
    · exact (congrArg (·.queue) (State.only_iff.1
        (epEvt_spec (s.rangeFreed.put (hubAt .lnd) F.LND_RANGE_STATUS_DONE 1)).1 .lnd (by decide))).trans hq
  simp only [State.endRange, h, hc, Option.bind_none, State.nextRange]
  exact (congrArg (startWaiting · _) hqueue)

/-- What an operation that no command waits for leaves at its end. -/
theorem endRange_spec {s : State} {x : RangeRun} (h : s.lnd.range = some x) (hc : x.op.cmd = none) (hq : s.lnd.queue = []) :
    s.endRange.lnd = s.rangeFreed.lnd ∧ s.endRange.mem = s.mem ∧ s.endRange.has (hubAt .lnd) F.LND_RANGE_STATUS_DONE = true
    ∧ s.endRange.fieldReady = s.fieldReady
    ∧ s.endRange.has (hubAt .lnd) F.LND_RANGE_STATUS_ABORTED = s.has (hubAt .lnd) F.LND_RANGE_STATUS_ABORTED := by
  rw [endRange_quiet h hc hq]
  by_cases hd : s.rangeFreed.has (hubAt .lnd) F.LND_RANGE_STATUS_DONE = true
  · rw [if_pos hd]
    exact ⟨rfl, rfl, hd, rfl, rfl⟩
  · rw [if_neg hd]
    obtain ⟨honly, hget⟩ := epEvt_spec (s.rangeFreed.put (hubAt .lnd) F.LND_RANGE_STATUS_DONE 1)
    have hsame := State.only_iff.1 honly
    have hhas (a : Nat) (f : Field) (h1 : f.key a 0 0 ≠ F.EP_EVT_STATUS_RANGE_DONE.key (hubAt .ep) 0 0) :
        ((s.rangeFreed.put (hubAt .lnd) F.LND_RANGE_STATUS_DONE 1).epEvt 0).has a f =
          (s.rangeFreed.put (hubAt .lnd) F.LND_RANGE_STATUS_DONE 1).has a f := congrArg (· == 1) (hget a f 0 0 h1)
    have hput (a : Nat) (f : Field) (h1 : f.key a 0 0 ≠ F.LND_RANGE_STATUS_DONE.key (hubAt .lnd) 0 0) :
        (s.rangeFreed.put (hubAt .lnd) F.LND_RANGE_STATUS_DONE 1).has a f = s.has a f :=
      congrArg (· == 1) (get_put_other _ _ _ _ _ _ h1)
    refine ⟨hsame .lnd (by decide), hsame .mem (by decide), (hhas _ _ (by decide)).trans ?_,
      (hhas _ _ (by decide)).trans (hput _ _ (by decide)), (hhas _ _ (by decide)).trans (hput _ _ (by decide))⟩
    simp only [State.has, get_put_same]
    decide

/-! ## The start of an operation -/

/-- The parameters of a start by register, written. -/
def State.rangeArgs (s : State) (k : RangeKind) (force : Bool) (cls slots : Nat) : State :=
  (((s.put (hubAt .lnd) F.LND_RANGE_CTL_FORCE (b2n force)).put (hubAt .lnd) F.LND_RANGE_CTL_CLASS cls).put (hubAt .lnd)
    F.LND_RANGE_CTL_SLOTS slots).put (hubAt .lnd) F.LND_RANGE_CTL_OP k.code

/-- The operation that a start by register asks for. -/
def State.rangeAsked (s : State) (k : RangeKind) (force : Bool) (cls slots : Nat) : RangeOp :=
  { kind := k, slot := s.get (hubAt .lnd) F.LND_RANGE_SLOT_SLOT, slots, lba := s.get (hubAt .lnd) F.LND_RANGE_LBA_LBA
    count := s.get (hubAt .lnd) F.LND_RANGE_COUNT_COUNT, cls, force }

section
variable {s : State} {k : RangeKind} {force : Bool} {cls slots : Nat}

/-- The parameters stand apart from the registers of the range and from LND_CTRL. -/
theorem get_rangeArgs {f : Field} (h : f.off ≠ 0x40 ∧ f.lo < 32) :
    (s.rangeArgs k force cls slots).get (hubAt .lnd) f = s.get (hubAt .lnd) f := by
  obtain ⟨hoff, hlo⟩ := h
  have hkey {g : Field} (hg : g.off = 0x40 ∧ g.lo < 32) : f.key (hubAt .lnd) 0 0 ≠ g.key (hubAt .lnd) 0 0 := by
    obtain ⟨h1, h2⟩ := hg
    simp only [Field.key, h1]
    omega
  unfold State.rangeArgs
  rw [get_put_other _ _ _ _ _ _ (hkey (by decide)), get_put_other _ _ _ _ _ _ (hkey (by decide)),
    get_put_other _ _ _ _ _ _ (hkey (by decide)), get_put_other _ _ _ _ _ _ (hkey (by decide))]

theorem rangeAsked_args : (s.rangeArgs k force cls slots).rangeAsked k force cls slots = s.rangeAsked k force cls slots := by
  simp only [State.rangeAsked, get_rangeArgs (f := F.LND_RANGE_SLOT_SLOT) (by decide),
    get_rangeArgs (f := F.LND_RANGE_LBA_LBA) (by decide), get_rangeArgs (f := F.LND_RANGE_COUNT_COUNT) (by decide)]

theorem rangeOk_args (o : RangeOp) : (s.rangeArgs k force cls slots).rangeOk o = s.rangeOk o := by
  simp only [State.rangeOk, State.lndOn, State.has, get_rangeArgs (f := F.LND_CTRL_ENABLE) (by decide)]

theorem rangeOk_iff (o : RangeOp) : s.rangeOk o = true ↔ o.slot + o.slots ≤ 4096 ∧ o.lba + o.count ≤ 302080000
    ∧ (s.has (hubAt .lnd) F.LND_CTRL_ENABLE = true ∨ (o.kind ≠ .preload ∧ o.kind ≠ .preloadLock)) := by
  show _ ↔ _ ∧ o.lba + o.count ≤ lbaEnd ∧ _
  simp [State.rangeOk, State.lndOn, and_assoc]

theorem rangeStart_busy (h : s.lnd.range ≠ none) :
    s.rangeStart (some k) force cls slots = s.put (hubAt .lnd) F.LND_RANGE_STATUS_ERR_BUSY 1 :=
  if_pos (Option.isSome_iff_ne_none.2 h)

theorem rangeStart_free (h : s.lnd.range = none) : s.rangeStart (some k) force cls slots =
    if s.rangeOk (s.rangeAsked k force cls slots) then
      (s.rangeArgs k force cls slots).startRange (s.rangeAsked k force cls slots)
    else (s.rangeArgs k force cls slots).put (hubAt .lnd) F.LND_RANGE_STATUS_ERR_ARG 1 := by
  rw [← rangeOk_args (k := k) (force := force) (cls := cls) (slots := slots), ← rangeAsked_args]
  exact if_neg (by simp [h])

/-- A start by register, as the statement says it of each of the six. -/
theorem rangeStart_spec : (s.lnd.range ≠ none →
      s.rangeStart (some k) force cls slots = s.put (hubAt .lnd) F.LND_RANGE_STATUS_ERR_BUSY 1)
    ∧ (s.lnd.range = none → 4096 < (s.rangeAsked k force cls slots).slot + slots
          ∨ 302080000 < (s.rangeAsked k force cls slots).lba + (s.rangeAsked k force cls slots).count
          ∨ (s.has (hubAt .lnd) F.LND_CTRL_ENABLE = false ∧ (k = .preload ∨ k = .preloadLock)) →
        s.rangeStart (some k) force cls slots =
          (s.rangeArgs k force cls slots).put (hubAt .lnd) F.LND_RANGE_STATUS_ERR_ARG 1)
    ∧ (s.lnd.range = none → (s.rangeAsked k force cls slots).slot + slots ≤ 4096 →
        (s.rangeAsked k force cls slots).lba + (s.rangeAsked k force cls slots).count ≤ 302080000 →
        s.has (hubAt .lnd) F.LND_CTRL_ENABLE = true ∨ (k ≠ .preload ∧ k ≠ .preloadLock) →
        s.rangeStart (some k) force cls slots =
          (s.rangeArgs k force cls slots).startRange (s.rangeAsked k force cls slots)) := by
  refine ⟨rangeStart_busy, fun h hbad => (rangeStart_free h).trans (if_neg fun hok => ?_), fun h h1 h2 h3 =>
    (rangeStart_free h).trans (if_pos ((rangeOk_iff _).2 ⟨h1, h2, h3⟩))⟩
  obtain ⟨h1, h2, h3⟩ := (rangeOk_iff _).1 hok
  rcases hbad with hbad | hbad | ⟨hoff, hk⟩
  · exact absurd h1 (Nat.not_le_of_lt hbad)
  · exact absurd h2 (Nat.not_le_of_lt hbad)
  · rcases h3 with h3 | ⟨h3, h4⟩
    · rw [hoff] at h3
      exact Bool.false_ne_true h3
    · exact hk.elim h3 h4

end

/-- The end of an operation by command, once nothing stands behind it. -/
theorem endRange_settle {s : State} {x : RangeRun} (h : s.lnd.range = some x) (hc : x.op.cmd = none) (hq : s.lnd.queue = [])
    (hf : s.fieldReady = false) : s.endRange.settle = s.endRange := by
  obtain ⟨hl, -, -, hfield, -⟩ := endRange_spec h hc hq
  exact settle_idle (hfield.trans hf) (by rw [hl]; rfl)

/-- Settles O36: the starts by what stands in their way, the entries by their state, and the ends by what the engine still has. -/
theorem rangeEngine : Obligations.RangeEngine := by
  intro force cls slots s
  have hstart (k : RangeKind) := rangeStart_spec (s := s) (k := k) (force := force) (cls := cls) (slots := slots)
  have hruns (k : RangeKind) : ∀ c : Instr, exec c s = .next (s.rangeStart (some k) force cls slots) → _ :=
    fun c hc => And.intro (fun h => hc.trans (congrArg Host.Outcome.next ((hstart k).1 h)))
      (And.intro (fun h1 h2 => hc.trans (congrArg Host.Outcome.next ((hstart k).2.1 h1 h2)))
        (fun h1 h2 h3 h4 => hc.trans (congrArg Host.Outcome.next ((hstart k).2.2 h1 h2 h3 h4))))
  refine ⟨hruns .invalidate _ rfl, hruns .preload _ rfl, hruns .preloadLock _ rfl, hruns .unlock _ rfl, hruns .clean _ rfl,
    hruns .scrub _ rfl, fun e => ⟨fun h => ?_, invalidateEntry_recording, invalidateEntry_moving, invalidateEntry_clean_locked,
    fun h hl hf => ?_, fun h hl => ?_, ?_, fun e' he => ⟨invalidateEntry_other he, ?_⟩⟩, fun h => ⟨?_, ?_⟩, fun h => ?_,
    fun x h => ⟨fun hmore => ?_, fun hdone => ?_⟩⟩
  · simp only [invalidateEntry, h]
  · rw [invalidateEntry_clean_forced h hl hf]
    exact ⟨setLine_same .., (get_bump_same ..).trans
      (congrArg (fun n => min (n + 1) 65535) (get_put_other _ _ _ _ _ _ (by decide)))⟩
  · rw [invalidateEntry_clean_unlocked h hl]
    exact ⟨setLine_same .., get_bump_same ..⟩
  · cases hl : (s.line e).lock with
    | true => rw [unlockEntry_locked hl]; exact (setLine_same ..).trans (by simp)
    | false => rw [unlockEntry_unlocked hl]; simp [← hl]
  · cases hl : (s.line e).lock with
    | true => rw [unlockEntry_locked hl]; exact setLine_other _ _ he
    | false => rw [unlockEntry_unlocked hl]
  · exact congrArg Host.Outcome.next (if_neg (by simp [h]))
  · show execLndRangeDone s = _
    simp only [execLndRangeDone, h]
  · obtain ⟨x, hx⟩ := Option.ne_none_iff_exists'.1 h
    refine ⟨_, congrArg Host.Outcome.next (if_pos (by simp [hx])), rfl, fun hq hc hf => ?_, fun hq hc hf => ?_⟩
    all_goals
      have hf' : (s.put (hubAt .lnd) F.LND_RANGE_STATUS_ABORTED 1).fieldReady = false :=
        (congrArg (· == 1) (get_put_other _ _ _ _ _ _ (by decide))).trans hf
      obtain ⟨h1, h2, h3, -, h5⟩ := endRange_spec (s := s.put (hubAt .lnd) F.LND_RANGE_STATUS_ABORTED 1) hx (hc x hx) hq
      rw [endRange_settle (s := s.put (hubAt .lnd) F.LND_RANGE_STATUS_ABORTED 1) hx (hc x hx) hq hf']
    · exact ⟨by rw [h1]; rfl, by rw [h1]; rfl, h2, h3⟩
    · rw [h5]
      simp only [State.has, get_put_same]
      decide
  · show execLndRangeDone s = _
    simp only [execLndRangeDone, h]
    refine if_neg fun hn => ?_
    rcases hmore with hl | ⟨hk, hlt⟩
    · exact hl hn.1
    · rcases hn.2 with hnk | hle
      · simp [hk] at hnk
      · omega
  · refine ⟨_, ?_, rfl, fun hq hc hf => ?_⟩
    · show execLndRangeDone s = _
      simp only [execLndRangeDone, h]
      obtain ⟨hl, hk⟩ := not_or.1 hdone
      refine if_pos ⟨not_not.1 hl, ?_⟩
      by_cases hp : x.op.kind = .preload ∨ x.op.kind = .preloadLock
      · exact .inr (not_lt.1 fun hlt => hk ⟨hp, hlt⟩)
      · exact .inl (by simp [hp])
    · obtain ⟨h1, h2, h3, -, -⟩ := endRange_spec h (hc x h) hq
      rw [endRange_settle h (hc x h) hq hf]
      exact ⟨by rw [h1]; rfl, by rw [h1]; rfl, h2, h3⟩

end Sys2Proof.Machine
end

section
/-! The patrol scrubber and the error injection (chapter 12). -/
namespace Sys2Proof.Machine

/-- Memory and the bits that it has lost. -/
def State.cells (s : State) : List Host.Cell × List (Nat × Nat) := (s.mem, s.miu.flips)

theorem State.Only.cells {M : List StatePart} {s t : State} (h : s.Only M t) (hm : .mem ∉ M) (hf : .miu ∉ M) :
    t.cells = s.cells :=
  Prod.ext (State.only_iff.1 h .mem hm) (congrArg (·.flips) (State.only_iff.1 h .miu hf))

theorem cells_ite {c : Prop} [Decidable c] {s t u : State} (ht : t.cells = s.cells) (hu : u.cells = s.cells) :
    (if c then t else u).cells = s.cells := by
  split
  · exact ht
  · exact hu

theorem epEvt_cells (s : State) (i : Nat) : (s.epEvt i).cells = s.cells := by
  have hfire (t : State) (f v : Nat) : (t.msixFire f v).cells = t.cells := by
    unfold State.msixFire
    exact cells_ite rfl rfl
  unfold State.epEvt
  exact cells_ite (hfire ..) rfl

theorem put_cells (s : State) (a : Nat) (f : Field) (v i j : Nat) : (s.put a f v i j).cells = s.cells := rfl

theorem bump_cells (s : State) (a : Nat) (f : Field) (i j : Nat) : (s.bump a f i j).cells = s.cells := rfl

theorem pageChanged_cells (s : State) (lid : Nat) : (s.pageChanged lid).cells = s.cells := rfl

theorem lastCe_cells (s : State) (l : Option (Nat × Nat)) :
    ({ s with miu := { s.miu with lastCe := l } } : State).cells = s.cells := rfl

theorem miuEntry_cells (s : State) (n kind mem req addr syn : Nat) : (s.miuEntry n kind mem req addr syn).cells = s.cells := by
  simp only [State.miuEntry, pageChanged_cells, put_cells]

theorem miuLog_cells (s : State) (kind mem req addr syn : Nat) : (s.miuLog kind mem req addr syn).cells = s.cells := by
  simp only [State.miuLog, apply_ite State.cells, lastCe_cells, put_cells, miuEntry_cells, ite_self]

theorem countUe_cells (s : State) (kind mem req addr flips : Nat) : (s.countUe kind mem req addr flips).cells = s.cells := by
  simp only [State.countUe, miuLog_cells, apply_ite State.cells, epEvt_cells, put_cells, bump_cells, ite_self]

theorem countCe_cells (s : State) (mem req addr flips : Nat) : (s.countCe mem req addr flips).cells = s.cells := by
  simp only [State.countCe]
  split
  · simp only [apply_ite State.cells, miuLog_cells, pageChanged_cells, epEvt_cells, put_cells, bump_cells, ite_self]
  · simp only [apply_ite State.cells, miuLog_cells, epEvt_cells, put_cells, bump_cells, ite_self]

theorem checkRange_cells (s : State) (mem a n req : Nat) : (s.checkRange mem a n req).1.cells = s.cells := by
  unfold State.checkRange
  refine List.foldlRecOn (motive := fun p : State × List Nat => p.1.cells = s.cells) _ _ rfl fun p hp e _ => ?_
  dsimp only
  split
  · exact hp
  · exact (countCe_cells ..).trans hp
  · exact (countUe_cells ..).trans hp

/-! ## The patrol -/

theorem scrub_clean {s : State} (h : s.miu.flips = []) (a n req : Nat) : s.scrub a n req = (s, [], []) := by
  simp only [State.scrub, State.dirtyUnits, h, List.filter_nil, List.foldl_nil]

theorem exec_patrolBurst_off {s : State}
    (h : ¬(s.has (hubAt .miu) F.MIU_CTL_PATROL_EN = true ∧ s.has (hubAt .lnd) F.LND_STATUS_READY = true)) :
    exec (.patrolBurst []) s = .next s := if_neg h

/-- A burst that finds no error, in a lap that is not late. -/
theorem exec_patrolBurst_clean {s : State}
    (h : s.has (hubAt .miu) F.MIU_CTL_PATROL_EN = true ∧ s.has (hubAt .lnd) F.LND_STATUS_READY = true) (hf : s.miu.flips = [])
    (hlap : s.clock ≤ s.miu.lapAt + s.get (hubAt .miu) F.MIU_CTL_LAP_WARN * 60000000000) :
    exec (.patrolBurst []) s = .next s.patrolNext := by
  have hwarn : s.lapWarn = s := if_neg (by omega)
  exact (if_pos h).trans (by rw [show s.upset [] = s from rfl, scrub_clean hf, hwarn])

theorem patrolNext_on {s : State} (h : s.miu.pos + 128 < s.lndBytes) : s.patrolNext =
    ({ s with miu := { s.miu with pos := s.miu.pos + 128 } } : State).put (hubAt .miu) F.MIU_PATROL_POS_POS
      ((s.miu.pos + 128) / 65536) := by
  simp only [State.patrolNext, if_pos h]

/-- The last burst of a lap. -/
theorem patrolNext_lap {s : State} {n : Nat} (h : s.lndBytes ≤ s.miu.pos + 128)
    (hn : (s.clock - s.miu.lapAt + 5 * 10 ^ 7) / 10 ^ 8 = n) : s.patrolNext =
    { ((s.put (hubAt .miu) F.MIU_LAP_TIME_LAP n).bump (hubAt .miu) F.MIU_CNT_LAPS).put (hubAt .miu) F.MIU_PATROL_POS_POS 0 with
      miu := { s.miu with pos := 0, lapAt := s.clock, warned := false } } := by
  simp only [State.patrolNext, hn, if_neg (Nat.not_lt_of_le h)]
  rfl

/-- Settles O39: the burst by what it finds, the injection by the range of its bits, and the check unit by unit. -/
theorem integrity : Obligations.Integrity := by
  intro w s
  refine ⟨exec_patrolBurst_off, fun hon hf hlap => ⟨fun hlt => ?_, fun hge => ?_⟩, fun h => congrArg Host.Outcome.next (if_pos h),
    fun h0 h1 => congrArg Host.Outcome.next (if_neg ?_), fun mem a n req => Prod.ext_iff.1 (checkRange_cells s mem a n req)⟩
  · rw [exec_patrolBurst_clean hon hf hlap, patrolNext_on hlt]
  · rw [exec_patrolBurst_clean hon hf hlap, patrolNext_lap (n := (s.clock - s.miu.lapAt + 50000000) / 100000000) hge (by norm_num)]
  · exact not_or.2 ⟨Nat.not_lt_of_le h0, Nat.not_lt_of_le h1⟩

end Sys2Proof.Machine
end

section
/-! The open cores' watchdog (R419, R531). -/
namespace Sys2Proof.Machine

/-- An open core's own reset, and its event. -/
def State.openCoreReset (s : State) (k : Fin 2) : State :=
  let t := ((s.hicRelease (6 + k.val)).raiseHub 0x0C02 0 (6 + k.val)).irq 57
  { t with vlk := { t.vlk with wdogAt := t.vlk.wdogAt.set k t.clock } }

theorem exec_openCoreWatchdog_open {s : State} (k : Fin 2) (h : s.has (hubAt .vlk) F.VLK_SANDBOX_OPEN_EN = true) :
    exec (.openCoreWatchdog k) s = .next (s.openCoreReset k) := if_pos h

/-- Open core 6 holds source 0, which no completion takes out of service. -/
def heldSourceZero : State :=
  ({ State.reset with hic := { State.reset.hic with serv := [(0, 6)] } } : State).put (hubAt .vlk) F.VLK_SANDBOX_OPEN_EN 1

theorem heldSourceZero_open : heldSourceZero.has (hubAt .vlk) F.VLK_SANDBOX_OPEN_EN = true := by decide

theorem heldSourceZero_kept : ∃ t, exec (.openCoreWatchdog 0) heldSourceZero = .next t ∧ (0, 6) ∈ t.hic.serv :=
  ⟨_, exec_openCoreWatchdog_open 0 heldSourceZero_open, by decide +kernel⟩

/-- Refutes O42: the reset of an open core completes what it holds, and a completion of source 0 counts as bad and leaves the
source in service. -/
theorem not_mountsAndLookups : ¬Obligations.MountsAndLookups := by
  unfold Obligations.MountsAndLookups
  intro h
  obtain ⟨-, hopen, -⟩ := h 0 0 0 0 false [] heldSourceZero
  obtain ⟨t, ht, -, -, -, hserv, -⟩ := hopen heldSourceZero_open
  obtain ⟨u, hu, hmem⟩ := heldSourceZero_kept
  obtain rfl : u = t := Host.Outcome.next.inj (hu.symm.trans ht)
  exact (hserv _ hmem).2 rfl

end Sys2Proof.Machine
end

section
/-! A claim of a source whose stored PRIORITY is wider than its field (R528). -/
namespace Sys2Proof.Machine

/-- Source 1 is pending for core 0, and the register store holds 32 as its PRIORITY, which has five bits. -/
def widePriority : State :=
  let s := State.reset.put (hubAt .hic) F.HIC_SRCn_CFG_TARGET 1 0
  { s with regs := storePut s.regs (F.HIC_SRCn_CFG_PRIORITY.key (hubAt .hic) 0 0) 32, hic := { s.hic with pend := [1] } }

theorem widePriority_prio : widePriority.hicPrio 1 = 32 := by decide +kernel

/-- No other source is eligible for core 0. -/
theorem widePriority_only {m : Nat} (hm : m < 256) (hp : widePriority.hicPending m = true)
    (ht : bitOf (widePriority.hicTarget m) 0 = true) : m = 1 := by
  have hall : ∀ m : Fin 256, widePriority.hicPending m = true → bitOf (widePriority.hicTarget m) 0 = true → m.val = 1 := by
    decide +kernel
  exact hall ⟨m, hm⟩ hp ht

/-- Refutes O54: a claim takes the stored PRIORITY of 32 into the five bits of RUNPRI, which then reads 0. -/
theorem not_interrupts : ¬Obligations.Interrupts := by
  unfold Obligations.Interrupts
  intro h
  obtain ⟨-, -, -, hclaim, -⟩ := h 0 false 0 0 0 0 0 widePriority
  obtain ⟨t, ht, -, -, -, -, -, hpri, -⟩ := hclaim 1 ⟨by decide, by decide +kernel, by decide +kernel, by decide +kernel⟩
    (fun m hm => by rw [widePriority_only hm.1 hm.2.1 hm.2.2.1])
    (fun m hm hlt => by rw [widePriority_only hm.1 hm.2.1 hm.2.2.1] at hlt; exact absurd hlt (lt_irrefl 1))
  have hrun : ∃ u, exec (.hicClaimRead 0) widePriority = .next u ∧ u.get (hubAt .hic) F.HIC_C_RUNPRI_RUNPRI 0 = 0 :=
    ⟨_, rfl, by decide +kernel⟩
  obtain ⟨u, hu, hzero⟩ := hrun
  obtain rfl : u = t := Host.Outcome.next.inj (hu.symm.trans ht)
  rw [widePriority_prio] at hpri
  exact absurd (hzero.symm.trans hpri) (by decide)

end Sys2Proof.Machine
end

section
/-! The flits of a kerf port (chapter 01): their fields, and what an end does with one that arrives. -/
namespace Sys2Proof.Machine

/-! ## The fields of a flit -/

theorem crcStep_lt {w poly : Nat} (hp : poly < 2 ^ w) (crc : Nat) (bit : Bool) : crcStep w poly crc bit < 2 ^ w := by
  have hsh : crc * 2 % 2 ^ w < 2 ^ w := Nat.mod_lt _ (Nat.two_pow_pos w)
  simp only [crcStep]
  split
  · exact Nat.xor_lt_two_pow hsh hp
  · exact hsh

theorem crcMsb_lt {w poly init : Nat} (hp : poly < 2 ^ w) (hi : init < 2 ^ w) (bs : List Bool) : crcMsb w poly init bs < 2 ^ w := by
  unfold crcMsb
  exact List.foldlRecOn (motive := (· < 2 ^ w)) _ _ hi fun c _ b _ => crcStep_lt hp c b

theorem crc16_lt (type tag word : Nat) : crc16 type tag word < 2 ^ 16 := crcMsb_lt (by decide) (by decide) _

theorem flitOf_toNat (type tag : Nat) (w : Word64) : (flitOf type tag w).toNat =
    type % 256 * 2 ^ 88 + tag % 256 * 2 ^ 80 + w.toNat * 2 ^ 16 + crc16 (type % 256) (tag % 256) w.toNat := by
  have hcrc := crc16_lt (type % 256) (tag % 256) w.toNat
  have hw := w.isLt
  rw [flitOf, BitVec.toNat_ofNat, Nat.mod_eq_of_lt]
  omega

theorem flitType_flitOf (type tag : Nat) (w : Word64) : flitType (flitOf type tag w) = type % 256 := by
  have hcrc := crc16_lt (type % 256) (tag % 256) w.toNat
  have hw := w.isLt
  rw [flitType, bitsOf, flitOf_toNat]
  omega

theorem flitTag_flitOf (type tag : Nat) (w : Word64) : flitTag (flitOf type tag w) = tag % 256 := by
  have hcrc := crc16_lt (type % 256) (tag % 256) w.toNat
  have hw := w.isLt
  rw [flitTag, bitsOf, flitOf_toNat]
  omega

theorem flitWord_flitOf (type tag : Nat) (w : Word64) : flitWord (flitOf type tag w) = w := by
  have hcrc := crc16_lt (type % 256) (tag % 256) w.toNat
  have hw := w.isLt
  refine BitVec.eq_of_toNat_eq ?_
  rw [flitWord, bitsOf, flitOf_toNat, BitVec.toNat_ofNat]
  omega

theorem flitGood_flitOf (type tag : Nat) (w : Word64) : flitGood (flitOf type tag w) = true := by
  have hcrc := crc16_lt (type % 256) (tag % 256) w.toNat
  rw [flitGood, flitType_flitOf, flitTag_flitOf, flitWord_flitOf, bitsOf, flitOf_toNat, beq_iff_eq]
  omega

/-! ## The ends of a port -/

@[simp] theorem Port.rx_setRx (p : Port) (x : Side) (r : RxEnd) : (p.setRx x r).rx x = r := by cases x <;> rfl

@[simp] theorem Port.tx_setTx (p : Port) (x : Side) (t : TxEnd) : (p.setTx x t).tx x = t := by cases x <;> rfl

theorem Port.setRx_setRx (p : Port) (x : Side) (r q : RxEnd) : (p.setRx x r).setRx x q = p.setRx x q := by cases x <;> rfl

theorem Port.setTx_setTx (p : Port) (x : Side) (t u : TxEnd) : (p.setTx x t).setTx x u = p.setTx x u := by cases x <;> rfl

theorem State.setPort_setPort (s : State) (d : Die) (p q : Port) : (s.setPort d p).setPort d q = s.setPort d q := by
  simp [State.setPort]

theorem setRxEnd_port (s : State) (d : Die) (x : Side) (r : RxEnd) : (s.setRxEnd d x r).ports[d] = s.ports[d].setRx x r :=
  setPort_same ..

theorem setRxEnd_rx (s : State) (d : Die) (x : Side) (r : RxEnd) : ((s.setRxEnd d x r).ports[d]).rx x = r := by
  rw [setRxEnd_port, Port.rx_setRx]

theorem setRxEnd_setRxEnd (s : State) (d : Die) (x : Side) (r q : RxEnd) :
    (s.setRxEnd d x r).setRxEnd d x q = s.setRxEnd d x q := by
  unfold State.setRxEnd
  rw [setPort_same, State.setPort_setPort, Port.setRx_setRx]

/-! ## A flit that arrives -/

section
variable {d : Die} {x : Side} {num : Nat} {f : Flit} {k : KClass} {s : State}

theorem flitIn_notUp (h : s.ports[d].state ≠ .up) : s.flitIn d x num f k = s := if_pos h

theorem flitIn_bad (hup : s.ports[d].state = .up) (h : flitGood f = false) : s.flitIn d x num f k =
    (match x with
      | .hub => (s.setRxEnd d x { s.ports[d].rx x with waiting := true }).bump (hubAt .krf) F.KRF_ERRCNT_REPLAYS d.val
      | .field => (s.setRxEnd d x { s.ports[d].rx x with waiting := true }).bump (dieAt .fkr d) F.FKR_ERRCNT_REPLAYS).sendNak d x := by
  cases x <;> simp only [State.flitIn, hup, h, ne_eq, not_true, Bool.not_false, if_true, if_false]

theorem flitIn_outOfTurn {g : Nat} (h : flitGood f = true) (hg : (s.ports[d].rx x).good = some g) (hn : num ≠ g + 1) :
    s.flitIn d x num f k = s := by
  simp only [State.flitIn, h, hg, if_neg hn, Bool.not_true, Bool.false_eq_true, if_false, ite_self]

theorem flitIn_turn (hup : s.ports[d].state = .up) (h : flitGood f = true)
    (hturn : ∀ g, (s.ports[d].rx x).good = some g → num = g + 1) : s.flitIn d x num f k = s.goodFlit d x num f k := by
  simp only [State.flitIn, hup, h, ne_eq, not_true, Bool.not_true, Bool.false_eq_true, if_false]
  cases hg : (s.ports[d].rx x).good with
  | none => rfl
  | some g => exact if_pos (hturn g hg)

/-- An end that has seen a good flit, no CREDIT word being due. -/
def RxEnd.took (r : RxEnd) (num : Nat) : RxEnd := { r with good := some num, since := r.since + 1, waiting := false }

theorem goodFlit_idle (hs : (s.ports[d].rx x).since + 1 < 64) (ht : flitType f = 0) :
    s.goodFlit d x num f k = s.setRxEnd d x ((s.ports[d].rx x).took num) := by
  simp only [State.goodFlit, Nat.not_le_of_lt hs, decide_false, Bool.false_eq_true, if_false, ht, if_true]
  rfl

theorem goodFlit_header (hs : (s.ports[d].rx x).since + 1 < 64) (h0 : flitType f ≠ 0) (hc : contClass (flitType f) = none) :
    s.goodFlit d x num f k =
      (s.setRxEnd d x ((s.ports[d].rx x).took num)).headerIn d x (flitType f) (flitTag f) (flitWord f) k := by
  simp only [State.goodFlit, Nat.not_le_of_lt hs, decide_false, Bool.false_eq_true, if_false, h0, hc]
  rfl

theorem truncate_closed {sub : Nat} {count : Bool} (h : (s.ports[d].rx x).opens[kIdx k] = none) :
    s.truncate d x k sub count = s := by
  simp only [State.truncate, h]

/-- A HEARTBEAT in its turn, with no message of its class open. -/
theorem headerIn_heartbeat {tag : Nat} {w : Word64} (hopen : (s.ports[d].rx .field).opens[(0 : Fin 6)] = none)
    (htag : tagLate (s.ports[d].rx .field).expect[(0 : Fin 6)] tag = false) :
    s.headerIn d .field 0x01 tag w k = s.setRxEnd d .field { s.ports[d].rx .field with
      expect := (s.ports[d].rx .field).expect.set (0 : Fin 6) (some ((tag + 1) % 256))
      inbox := (s.ports[d].rx .field).inbox ++ [{ type := 0x01, word := w, cls := .k0 }] } := by
  have htype : s.typeAt d .field 0x01 w = some { dest := some .field, cls := some .k0 } := by
    simp [State.typeAt, msgInfo, otherSide, romAccepts]
  have hopens : (s.ports[d].rx .field).opens.set (0 : Fin 6) none = (s.ports[d].rx .field).opens := by
    refine Vector.ext fun i hi => ?_
    rw [Vector.getElem_set]
    split
    · next h => subst h; exact hopen.symm
    · rfl
  have htrunc : s.truncate d .field .k0 4 true = s := truncate_closed hopen
  simp only [State.headerIn, htype, Option.getD_some, htrunc, MsgInfo.len, if_true, lt_irrefl, or_self, if_false, kIdx, htag,
    Bool.false_eq_true, State.accept, reduceCtorEq, false_and, setRxEnd_rx, setRxEnd_setRxEnd, hopens]

theorem headerIn_unlisted {type tag : Nat} {w : Word64} (h : msgInfo type = none) :
    s.headerIn d .field type tag w k =
      (s.bump (dieAt .fkr d) F.FKR_ERRCNT_REFUSED).raiseDie d 0x0901 none 1 d.val type 0 := by
  have htype : s.typeAt d .field type w = none := by simp [State.typeAt, h]
  have h20 : type ≠ 0x20 := by rintro rfl; simp [msgInfo] at h
  have h28 : type ≠ 0x28 := by rintro rfl; simp [msgInfo] at h
  simp only [State.headerIn, htype, State.refuseMsg, State.refusal, State.refusedAtDie, if_neg h20, if_neg h28]

end

/-- Settles O8: the fields of a flit by arithmetic, and its arrival by the port's state, its CRC, its turn and its type. -/
theorem flitReceived : Obligations.FlitReceived := by
  refine ⟨fun type tag w ht hg => ⟨?_, ?_, flitWord_flitOf .., flitGood_flitOf ..⟩, fun d num tag type w f k s =>
    ⟨fun x h => congrArg Host.Outcome.next (flitIn_notUp h), fun x g h hg hn => congrArg Host.Outcome.next (flitIn_outOfTurn h hg hn),
      fun hup h => ⟨congrArg Host.Outcome.next (flitIn_bad hup h), congrArg Host.Outcome.next (flitIn_bad hup h)⟩,
      fun hturn htag => ?_, fun hturn htag hopen hlate => ?_, fun hturn htag htype h0 hc hm => ?_⟩⟩
  · rw [flitType_flitOf, Nat.mod_eq_of_lt ht]
  · rw [flitTag_flitOf, Nat.mod_eq_of_lt hg]
  all_goals
    obtain ⟨hup, hgood, hsince⟩ := hturn
    replace hsince : (s.ports[d].rx .field).since + 1 < 64 := hsince
    have hin (t : Nat) : exec (.flitReceive d .field num (flitOf t tag w) k) s =
        .next (s.goodFlit d .field num (flitOf t tag w) k) :=
      congrArg Host.Outcome.next (flitIn_turn hup (flitGood_flitOf ..) hgood)
    rw [hin]
  · rw [goodFlit_idle hsince (flitType_flitOf ..)]
    rfl
  · have ht : flitType (flitOf 0x01 tag w) = 0x01 := flitType_flitOf ..
    rw [goodFlit_header hsince (by rw [ht]; decide) (by rw [ht]; rfl), ht, flitTag_flitOf, flitWord_flitOf,
      Nat.mod_eq_of_lt htag, headerIn_heartbeat (by rw [setRxEnd_rx]; exact hopen) (by rw [setRxEnd_rx]; exact hlate),
      setRxEnd_setRxEnd, setRxEnd_rx]
    rfl
  · have ht : flitType (flitOf type tag w) = type := (flitType_flitOf ..).trans (Nat.mod_eq_of_lt htype)
    rw [goodFlit_header hsince (by rw [ht]; exact h0) (by rw [ht]; exact hc), ht, headerIn_unlisted hm]
    rfl

end Sys2Proof.Machine
end

section
/-! What an end of a kerf port sends (chapter 01, R22, R29, R30). -/
namespace Sys2Proof.Machine

@[simp] theorem Port.tx_setRx (p : Port) (x y : Side) (r : RxEnd) : (p.setRx x r).tx y = p.tx y := by cases x <;> cases y <;> rfl

@[simp] theorem Port.state_setRx (p : Port) (x : Side) (r : RxEnd) : (p.setRx x r).state = p.state := by cases x <;> rfl

@[simp] theorem Port.state_setTx (p : Port) (x : Side) (t : TxEnd) : (p.setTx x t).state = p.state := by cases x <;> rfl

theorem setTxEnd_port (s : State) (d : Die) (x : Side) (t : TxEnd) : (s.setTxEnd d x t).ports[d] = s.ports[d].setTx x t :=
  setPort_same ..

theorem setTxEnd_tx (s : State) (d : Die) (x : Side) (t : TxEnd) : ((s.setTxEnd d x t).ports[d]).tx x = t := by
  rw [setTxEnd_port, Port.tx_setTx]

theorem setTxEnd_setTxEnd (s : State) (d : Die) (x : Side) (t u : TxEnd) :
    (s.setTxEnd d x t).setTxEnd d x u = s.setTxEnd d x u := by
  unfold State.setTxEnd
  rw [setPort_same, State.setPort_setPort, Port.setTx_setTx]

/-- Work on a port's ends: the other ports and everything else stay. -/
structure State.PortWork (d : Die) (s t : State) : Prop where
  only : s.Only [.ports] t
  others : ∀ c, c ≠ d → t.ports[c] = s.ports[c]

namespace State.PortWork
variable {d : Die} {s t u : State}

theorem refl : s.PortWork d s := ⟨.refl _ s, fun _ _ => rfl⟩

theorem trans (h1 : s.PortWork d t) (h2 : t.PortWork d u) : s.PortWork d u :=
  ⟨h1.only.trans h2.only, fun c hc => (h2.others c hc).trans (h1.others c hc)⟩

theorem setPort (p : Port) (h : s.PortWork d t) : s.PortWork d (t.setPort d p) :=
  h.trans ⟨State.setPort_only .., fun _ hc => setPort_other _ _ _ _ hc⟩

theorem setTxEnd (x : Side) (e : TxEnd) (h : s.PortWork d t) : s.PortWork d (t.setTxEnd d x e) := h.setPort _

theorem setRxEnd (x : Side) (r : RxEnd) (h : s.PortWork d t) : s.PortWork d (t.setRxEnd d x r) := h.setPort _

theorem received (x : Side) (m : Msg) (h : s.PortWork d t) : s.PortWork d (t.received d x m) := h.setPort _

end State.PortWork

/-! ## A link word leaves the inbox -/

/-- Taking a link word changes nothing that an end sends. -/
theorem linkWordTaken_spec (s : State) (d : Die) (x : Side) (type : Nat) : s.PortWork d (s.linkWordTaken d x type)
    ∧ (∀ y, ((s.linkWordTaken d x type).ports[d]).tx y = s.ports[d].tx y)
    ∧ ((s.linkWordTaken d x type).ports[d]).state = s.ports[d].state := by
  have hrec (m : Msg) : (s.received d x m).ports[d] = s.ports[d].setRx x { s.ports[d].rx x with
      inbox := eraseMsg m (s.ports[d].rx x).inbox } := setPort_same ..
  unfold State.linkWordTaken
  split
  · refine ⟨State.PortWork.refl.received x _, fun y => ?_, ?_⟩
    · rw [hrec, Port.tx_setRx]
    · rw [hrec, Port.state_setRx]
  · exact ⟨.refl, fun _ => rfl, rfl⟩

/-! ## LINK_NAK -/

theorem epEvt_ports (s : State) (i : Nat) : (s.epEvt i).ports = s.ports := by
  unfold State.epEvt State.msixFire
  dsimp only
  split
  · split <;> rfl
  · rfl

/-- The flits of an end after the named one. -/
def TxEnd.later (e : TxEnd) (named : Nat) : List (Nat × Flit) := e.replay.filter fun f => decide (named < f.1)

/-- How often in a row a LINK_NAK has now named the same flit. -/
def TxEnd.nakTries (e : TxEnd) (named : Nat) : Nat :=
  if ((e.later named).head?.map (·.1)).isSome ∧ (e.later named).head?.map (·.1) = e.nakOf then e.nakRun + 1 else 1

theorem nakTries_gt {e : TxEnd} {named : Nat} :
    3 < e.nakTries named ↔ e.later named ≠ [] ∧ (e.later named).head?.map (·.1) = e.nakOf ∧ 3 ≤ e.nakRun := by
  unfold TxEnd.nakTries
  cases e.later named with
  | nil => simp
  | cons f l =>
    by_cases h : some f.1 = e.nakOf
    · have hsome : e.nakOf.isSome = true := by rw [← h]; rfl
      simp [h, hsome]
    · simp [h]

theorem nakSeen_eq (s : State) (d : Die) (x : Side) (named : Nat) : s.nakSeen d x named =
    if 3 < (s.ports[d].tx x).nakTries named then
      ((s.setTxEnd d x { s.ports[d].tx x with
          resend := (s.ports[d].tx x).later named, nakOf := ((s.ports[d].tx x).later named).head?.map (·.1)
          nakRun := (s.ports[d].tx x).nakTries named }).setTxEnd d x
        { s.ports[d].tx x with resend := (s.ports[d].tx x).later named, nakOf := none, nakRun := 0 }).retrain d
    else s.setTxEnd d x { s.ports[d].tx x with
      resend := (s.ports[d].tx x).later named, nakOf := ((s.ports[d].tx x).later named).head?.map (·.1)
      nakRun := (s.ports[d].tx x).nakTries named } := rfl

theorem retrain_port (s : State) (d : Die) : (s.retrain d).ports[d] = { s.ports[d] with state := .training } := by
  show ((s.setPort d { s.ports[d] with state := .training }).epEvt 5).ports[d] = _
  simp only [epEvt_ports, setPort_same]

theorem retrain_others (s : State) (d : Die) {c : Die} (hc : c ≠ d) : (s.retrain d).ports[c] = s.ports[c] := by
  show ((s.setPort d { s.ports[d] with state := .training }).epEvt 5).ports[c] = _
  simp only [epEvt_ports, setPort_other _ _ _ _ hc]

theorem Port.tx_withState (p : Port) (x : Side) (st : PortState) : ({ p with state := st } : Port).tx x = p.tx x := by
  cases x <;> rfl

/-- What a LINK_NAK leaves of an end: the flits to send again, and the port's state. -/
theorem nakSeen_spec (s : State) (d : Die) (x : Side) (named : Nat) :
    ((s.nakSeen d x named).ports[d].tx x).resend = (s.ports[d].tx x).later named
    ∧ ((s.nakSeen d x named).ports[d].tx x).replay = (s.ports[d].tx x).replay
    ∧ ((s.nakSeen d x named).ports[d].tx x).queue = (s.ports[d].tx x).queue
    ∧ (s.nakSeen d x named).ports[d].state =
      if 3 < (s.ports[d].tx x).nakTries named then .training else s.ports[d].state := by
  rw [nakSeen_eq]
  by_cases h : 3 < (s.ports[d].tx x).nakTries named
  · simp only [if_pos h, retrain_port, setTxEnd_setTxEnd, setTxEnd_port, Port.tx_withState, Port.tx_setTx, and_self]
  · simp only [if_neg h, setTxEnd_port, Port.tx_setTx, Port.state_setTx, and_self]

theorem nakSeen_others (s : State) (d : Die) (x : Side) (named : Nat) {c : Die} (hc : c ≠ d) :
    (s.nakSeen d x named).ports[c] = s.ports[c] := by
  have hset (t : State) (e : TxEnd) : (t.setTxEnd d x e).ports[c] = t.ports[c] := setPort_other _ _ _ _ hc
  rw [nakSeen_eq]
  by_cases h : 3 < (s.ports[d].tx x).nakTries named
  · simp only [if_pos h, retrain_others _ _ hc, hset]
  · simp only [if_neg h, hset]

/-! ## The next flit -/

theorem classPick_may {w cr : Vector Nat 3} {waiting : Nat → Bool} {c : Nat} {v : Vector Nat 3}
    (h : classPick w cr waiting = some (c, v)) : waiting c = true := by
  have htry (u : Vector Nat 3) (hu : (((List.finRange 3).find? fun (i : Fin 3) => waiting (i.val + 1) && decide (0 < u[i])).map
      fun (i : Fin 3) => (i.val + 1, u.set i (u[i] - 1))) = some (c, v)) : waiting c = true := by
    obtain ⟨i, hi, hc⟩ := Option.map_eq_some_iff.1 hu
    obtain rfl : i.val + 1 = c := congrArg Prod.fst hc
    exact (Bool.and_eq_true _ _ ▸ List.find?_some hi).1
  simp only [classPick] at h
  split at h
  · next r hr => exact htry cr (hr.trans h)
  · exact htry w h

theorem pick_may {e : TxEnd} {w v : Vector Nat 3} {k : KClass} (h : e.pick w = some (k, v)) : e.may k = true := by
  simp only [TxEnd.pick] at h
  split at h
  · next k' hk =>
    obtain rfl : k' = k := congrArg Prod.fst (Option.some.inj h)
    exact List.find?_some hk
  · obtain ⟨⟨c, u⟩, hc, hk⟩ := Option.map_eq_some_iff.1 h
    obtain rfl : KClass.ofNum (c + 2) = k := congrArg Prod.fst hk
    exact classPick_may hc

/-- A class-0 word that may go is next. -/
theorem pick_k0 {e : TxEnd} {w : Vector Nat 3} (h : e.may .k0 = true) : e.pick w = some (.k0, e.wrr) := by
  have hfirst : (if e.number % 16 = 0 then [KClass.k0, .k1, .k2] else [.k0, .k2, .k1]).find? e.may = some .k0 := by
    split <;> exact List.find?_cons_of_pos h
  simp only [TxEnd.pick, hfirst]

theorem pick_none {e : TxEnd} {w : Vector Nat 3} (h : ∀ k, e.may k = false) : e.pick w = none := by
  cases hp : e.pick w with
  | none => rfl
  | some r => exact absurd (pick_may hp) (by simp [h])

theorem first_of_may {e : TxEnd} {k : KClass} (h : e.may k = true) : ∃ m, e.first k = some m := by
  simp only [TxEnd.may, Bool.and_eq_true] at h
  exact Option.isSome_iff_exists.1 h.1

/-- An end that has put a flit on the lanes. -/
theorem emit_spec (e : TxEnd) (f : Flit) : (e.emit f).number = e.number + 1 ∧ (e.emit f).replay.length ≤ 128
    ∧ (e.emit f).wire = some f ∧ (e.emit f).replay.getLast? = some (e.number, f) ∧ (e.emit f).queue = e.queue := by
  refine ⟨rfl, ?_, rfl, ?_, rfl⟩
  · simp only [TxEnd.emit, List.length_drop]
    omega
  · simp only [TxEnd.emit]
    rw [List.getLast?_drop, if_neg (by simp)]
    exact List.getLast?_concat ..

/-- The word that the first message of a class sends next. -/
theorem sendWord_spec {e : TxEnd} {k : KClass} {m : Msg} (wrr : Vector Nat 3) (now : Nat) (h : e.first k = some m) :
    ∃ f, flitGood f = true ∧ (e.sendWord k wrr now).number = e.number + 1 ∧ (e.sendWord k wrr now).replay = (e.emit f).replay
      ∧ (e.sendWord k wrr now).wire = some f
      ∧ (e.sent[kIdx k] = 0 → m.cont = [] →
        flitType f = m.type % 256 ∧ (e.sendWord k wrr now).queue = e.queue.erase m) := by
  obtain ⟨f, hf⟩ : ∃ f, f = flitOf (if e.sent[kIdx k] = 0 then m.type else 0x70 + k.num) e.tag[kIdx k] (if e.sent[kIdx k] = 0 then
    (if m.type = 0x01 then BitVec.ofNat 64 now else m.word) else m.cont.getD (e.sent[kIdx k] - 1) 0) := ⟨_, rfl⟩
  refine ⟨f, hf ▸ flitGood_flitOf .., ?_⟩
  simp only [TxEnd.sendWord, h, ← hf]
  refine ⟨?_, ?_, ?_, fun hs hc => ⟨?_, ?_⟩⟩
  · simp only [apply_ite TxEnd.number, ite_self, TxEnd.emit]
  · simp only [apply_ite TxEnd.replay, ite_self]
  · simp only [apply_ite TxEnd.wire, ite_self, TxEnd.emit]
  · rw [hf, flitType_flitOf, if_pos hs]
  · rw [if_pos (by rw [hs, hc]; rfl)]
    rfl

/-- An end after a slot with nothing to send again: a word of a class that may send, or an IDLE flit. -/
theorem flitSlot_eq {s : State} {d : Die} {x : Side} (h : (s.ports[d].tx x).resend = []) : s.flitSlot d x =
    match (s.ports[d].tx x).pick s.weights with
    | some (k, w) => s.setTxEnd d x ((s.ports[d].tx x).sendWord k w s.now)
    | none => (s.setTxEnd d x ((s.ports[d].tx x).emit (flitOf 0 (s.freeVal / 2 ^ 64) (BitVec.ofNat 64 s.freeVal)))).drawn := by
  simp only [State.flitSlot, h] <;> rfl

/-- What a slot with nothing to send again does to its end. -/
theorem flitSlot_spec {s : State} {d : Die} {x : Side} (h : (s.ports[d].tx x).resend = []) :
    ∃ e f, (s.flitSlot d x = s.setTxEnd d x e ∨ s.flitSlot d x = (s.setTxEnd d x e).drawn)
      ∧ e.number = (s.ports[d].tx x).number + 1 ∧ e.replay = ((s.ports[d].tx x).emit f).replay ∧ e.wire = some f
      ∧ flitGood f = true
      ∧ (∀ m, (s.ports[d].tx x).first .k0 = some m → (s.ports[d].tx x).may .k0 = true →
          (s.ports[d].tx x).sent[(0 : Fin 6)] = 0 → m.cont = [] →
          flitType f = m.type % 256 ∧ e.queue = (s.ports[d].tx x).queue.erase m)
      ∧ ((∀ c, (s.ports[d].tx x).may c = false) → flitType f = 0 ∧ e.queue = (s.ports[d].tx x).queue) := by
  rw [flitSlot_eq h]
  generalize s.ports[d].tx x = e
  cases hp : e.pick s.weights with
  | none =>
    refine ⟨_, _, .inr rfl, rfl, rfl, rfl, flitGood_flitOf .., fun m _ hmay => ?_, fun _ => ⟨flitType_flitOf .., rfl⟩⟩
    rw [pick_k0 hmay] at hp
    cases hp
  | some r =>
    obtain ⟨k, w⟩ := r
    obtain ⟨m, hm⟩ := first_of_may (pick_may hp)
    obtain ⟨f, hgood, hnum, hrep, hwire, hlast⟩ := sendWord_spec w s.now hm
    refine ⟨_, f, .inl rfl, hnum, hrep, hwire, hgood, fun n hn hmay hsent hcont => ?_, fun hnone => ?_⟩
    · rw [pick_k0 hmay] at hp
      obtain rfl : KClass.k0 = k := congrArg Prod.fst (Option.some.inj hp)
      obtain rfl : m = n := Option.some.inj (hm.symm.trans hn)
      exact hlast hsent hcont
    · rw [pick_none hnone] at hp
      cases hp

/-- The credits of an end once units of eight words have come for K1–K5. -/
def grantCredits (credits : Vector Nat 6) (units : Vector Nat 5) : Vector Nat 6 := Vector.ofFn fun (i : Fin 6) =>
  credits[i] + (if h : 0 < i.val then 8 * units[i.val - 1]'(by omega) else 0)

theorem grantCredits_zero (credits : Vector Nat 6) (units : Vector Nat 5) :
    (grantCredits credits units)[(0 : Fin 6)] = credits[(0 : Fin 6)] := by
  simp [grantCredits]

theorem grantCredits_succ (credits : Vector Nat 6) (units : Vector Nat 5) (i : Fin 5) :
    (grantCredits credits units)[i.succ] = credits[i.succ] + 8 * units[i] := by
  show (grantCredits credits units)[i.succ.val] = _
  have hpos : 0 < i.succ.val := Nat.succ_pos i.val
  rw [grantCredits, Vector.getElem_ofFn]
  exact congrArg (credits[i.succ] + ·) (dif_pos hpos)

theorem creditSeen_eq (s : State) (d : Die) (x : Side) (ack : Nat) (units : Vector Nat 5) : s.creditSeen d x ack units =
    s.setTxEnd d x { s.ports[d].tx x with
      replay := (s.ports[d].tx x).replay.filter fun f => decide (ack < f.1)
      resend := (s.ports[d].tx x).resend.filter fun f => decide (ack < f.1)
      credits := grantCredits (s.ports[d].tx x).credits units } := rfl

/-- A register access whose continuation has not come is refused; the die has no other answer to it. -/
theorem truncate_register {s : State} {d : Die} {k : KClass} {m : Msg} {tag need : Nat}
    (h : (s.ports[d].rx .field).opens[kIdx k] = some (.taking m tag need)) (ht : m.type = 0x10 ∨ m.type = 0x11) :
    s.truncate d .field k 5 true =
      (((s.setRxEnd d .field { s.ports[d].rx .field with opens := (s.ports[d].rx .field).opens.set (kIdx k) none }).bump
        (dieAt .fkr d) F.FKR_ERRCNT_REFUSED).raiseDie d 0x0901 none 5 d.val m.type 0) := by
  have h20 : m.type ≠ 0x20 := by omega
  have h28 : m.type ≠ 0x28 := by omega
  simp only [State.truncate, h, if_true, State.refuseMsg, State.refusal, State.refusedAtDie, if_neg h20, if_neg h28]

/-- Settles O9: a LINK_NAK, a CREDIT word and a slot, each by what it makes of the end it acts on. -/
theorem flitsSent : Obligations.FlitsSent := by
  refine ⟨fun d x named ack units k s => ⟨fun h => ⟨?_, ?_, ?_⟩, fun hup => ?_, fun hup => ?_, fun hup hwait hre m tag need hm ht =>
    ?_⟩, fun d x s => ⟨fun h => ?_, fun hup f rest h => ?_, fun hup h => ?_⟩⟩
  · exact congrArg Host.Outcome.next (if_neg h)
  · exact congrArg Host.Outcome.next (if_neg h)
  · exact congrArg Host.Outcome.next (if_neg fun hh => h hh.1)
  · obtain ⟨hwork, htx, hst⟩ := linkWordTaken_spec s d x 0x07
    obtain ⟨hre, hrep, hqueue, hstate⟩ := nakSeen_spec (s.linkWordTaken d x 0x07) d x named
    rw [htx] at hre hrep hqueue hstate
    refine ⟨_, congrArg Host.Outcome.next (if_pos hup), hre, hrep, hqueue, hstate.trans ?_, fun c hc =>
      (nakSeen_others _ d x named hc).trans (hwork.others c hc)⟩
    simp only [nakTries_gt, hst, hup, TxEnd.later]
  · obtain ⟨hwork, htx, hst⟩ := linkWordTaken_spec s d x 0x08
    have hset := State.PortWork.setTxEnd (d := d) x { s.ports[d].tx x with
      replay := (s.ports[d].tx x).replay.filter fun f => decide (ack < f.1)
      resend := (s.ports[d].tx x).resend.filter fun f => decide (ack < f.1)
      credits := grantCredits (s.ports[d].tx x).credits units } hwork
    refine ⟨_, congrArg Host.Outcome.next ((if_pos hup).trans (creditSeen_eq ..)), ?_⟩
    rw [htx]
    refine ⟨hset.only, hset.others, ?_⟩
    simp only [setTxEnd_tx, true_and]
    exact ⟨grantCredits_zero .., fun i => grantCredits_succ ..⟩
  · exact congrArg Host.Outcome.next ((if_pos ⟨hup, by rw [hwait]; rfl, hre⟩).trans (truncate_register hm ht))
  · exact congrArg Host.Outcome.next (if_neg h)
  · refine congrArg Host.Outcome.next ((if_pos hup).trans ?_)
    simp only [State.flitSlot, h]
  · obtain ⟨e, f, heq, hnum, hrep, hwire, hgood, hk0, hidle⟩ := flitSlot_spec h
    obtain ⟨-, hlen, -, hlast, -⟩ := emit_spec (s.ports[d].tx x) f
    have hport : (s.flitSlot d x).ports = (s.setTxEnd d x e).ports := by rcases heq with heq | heq <;> rw [heq]; rfl
    have honly : s.Only [.ports, .free] (s.flitSlot d x) := by
      rcases heq with heq | heq <;> rw [heq] <;> rfl
    refine ⟨_, congrArg Host.Outcome.next (if_pos hup), honly, fun c hc => ?_, ?_⟩
    · rw [hport]
      exact setPort_other _ _ _ _ hc
    · simp only [hport, setTxEnd_tx]
      refine ⟨hnum, by rw [hrep]; exact hlen, f, hwire, by rw [hrep]; exact hlast, hgood, fun m h1 h2 h3 h4 h5 => ?_, hidle⟩
      obtain ⟨ht, hq⟩ := hk0 m h1 h2 h3 h4
      exact ⟨ht.trans (Nat.mod_eq_of_lt h5), hq⟩

end Sys2Proof.Machine
end

section
/-! Ports that train and go down, and heartbeats (chapter 01, R29, R33–R39). -/
namespace Sys2Proof.Machine

/-! ## Events of the hub -/

theorem epEvt_only (s : State) (i : Nat) : s.Only [.regs, .ep] (s.epEvt i) := by
  have hfire (t : State) (f v : Nat) : t.Only [.ep] (t.msixFire f v) := by
    unfold State.msixFire
    split <;> rfl
  unfold State.epEvt
  exact ((State.put_only ..).mono (by decide)).whenDo ((hfire ..).mono (by decide))

theorem logEvent_only (s : State) (e : EventEntry) : s.Only [.regs, .ep, .pwr] (s.logEvent e) := by
  have hpwr (t : State) (p : Pwr) : t.Only [.regs, .ep, .pwr] { t with pwr := p } :=
    (show t.Only [.pwr] { t with pwr := p } from rfl).mono (by decide)
  have hlog (t : State) (l : List EventEntry) :
      t.Only [.regs, .ep, .pwr] (({ t with pwr := { t.pwr with events := l } } : State).pageChanged 2) :=
    (hpwr ..).trans (hpwr ..)
  have hevt (t : State) (n : Nat) : t.Only [.regs, .ep, .pwr] (t.epEvt n) := (epEvt_only t n).mono (by decide)
  unfold State.logEvent
  dsimp only
  split
  · exact .ite (hlog ..) ((hlog ..).trans (hevt ..))
  · exact (hlog ..).trans (hevt ..)

theorem raiseHub_only (s : State) (code sub unit v1 v2 : Nat) : s.Only [.regs, .ep, .pwr] (s.raiseHub code sub unit v1 v2) :=
  logEvent_only ..

/-! ## Training -/

section
variable {s : State} {d : Die} {lanes : Nat}

theorem lanesOk_ne_zero (h : lanesOk d lanes = true) : lanes ≠ 0 := by
  rintro rfl
  simp [lanesOk] at h

/-- The port and the die once lanes have come back, before the word of it goes out. -/
def State.lanesBack (s : State) (d : Die) (lanes : Nat) : State :=
  (s.setPort d { s.ports[d] with state := .up, lanes, failed := 0, echo := s.clock }).setDie d
    { s.dies[d] with clkLost := false, beat := s.clock }

theorem portUp_only (s : State) (d : Die) (lanes : Nat) : (s.lanesBack d lanes).Only [.regs, .ep, .pwr] (s.portUp d lanes) := by
  have hput (t : State) (a : Nat) (f : Field) (v i : Nat) : t.Only [.regs, .ep, .pwr] (t.put a f v i) :=
    (State.put_only ..).mono (by decide)
  have hevt : (s.lanesBack d lanes).Only [.regs, .ep, .pwr] ((s.lanesBack d lanes).epEvt 5) := (epEvt_only ..).mono (by decide)
  exact hevt.whenDo (((hput ..).trans (hput ..)).trans (raiseHub_only ..))

theorem exec_portRetrainEnd_up (h : s.ports[d].state = .training) (hl : lanesOk d lanes = true) (hold : s.ports[d].lanes ≠ 0) :
    exec (.portRetrainEnd d lanes) s = .next (s.portUp d lanes) :=
  congrArg Host.Outcome.next ((if_neg (not_not.2 h)).trans ((if_neg (lanesOk_ne_zero hl)).trans ((if_pos hl).trans (if_neg hold))))

theorem lanesBack_port (s : State) (d : Die) (lanes : Nat) : (s.lanesBack d lanes).ports[d] =
    { s.ports[d] with state := .up, lanes, failed := 0, echo := s.clock } := setPort_same ..

end

/-! ## Heartbeats -/

/-- HEARTBEAT_SEND at one port. -/
def State.beatTo (t : State) (d : Die) : State :=
  if t.ports[d].state = .up then (t.setPort d { t.ports[d] with beat := t.now }).send d .hub (beatMsg t.now) else t

/-- A port that a HEARTBEAT of a time waits at. -/
def Port.beaten (p : Port) (now : Nat) : Port :=
  if p.state = .up then { p with beat := now, hubTx := { p.hubTx with queue := p.hubTx.queue ++ [beatMsg now] } } else p

theorem beatTo_port (t : State) (d : Die) : (t.beatTo d).ports[d] = t.ports[d].beaten t.now := by
  unfold State.beatTo Port.beaten
  by_cases h : t.ports[d].state = .up
  · rw [if_pos h, if_pos h]
    simp [State.send, State.setPort, Port.setTx, Port.tx]
  · rw [if_neg h, if_neg h]

theorem beatTo_work (t : State) (d : Die) : t.PortWork d (t.beatTo d) := by
  unfold State.beatTo
  split
  · exact (State.PortWork.refl.setPort _).trans ⟨rfl, fun c hc => by simp [State.send, Fin.val_ne_of_ne hc.symm]⟩
  · exact .refl

theorem beatAll_spec (l : List Die) (hl : l.Nodup) (s : State) : s.Only [.ports] (l.foldl State.beatTo s) ∧ ∀ c : Die,
    (l.foldl State.beatTo s).ports[c] = if c ∈ l then s.ports[c].beaten s.now else s.ports[c] := by
  induction l generalizing s with
  | nil => exact ⟨.refl _ s, fun _ => rfl⟩
  | cons d l ih =>
    obtain ⟨hd, hl⟩ := List.nodup_cons.1 hl
    obtain ⟨honly, hport⟩ := ih hl (s.beatTo d)
    have hwork := beatTo_work s d
    have hnow : (s.beatTo d).now = s.now := congrArg (·.now) (State.only_iff.1 hwork.only .pwr (by decide))
    refine ⟨hwork.only.trans honly, fun c => (hport c).trans ?_⟩
    by_cases hc : c = d
    · subst hc
      rw [if_neg hd, beatTo_port, if_pos (List.mem_cons_self ..)]
    · simp only [List.mem_cons, hc, false_or, hwork.others c hc, hnow]

/-- A die that hears a HEARTBEAT, before the echo. -/
def State.heard (s : State) (d : Die) (m : Msg) : State :=
  (s.received d .field m).setDie d
    { s.dies[d] with time := m.word.toNat, beat := s.clock, resumed := s.dies[d].resumed || s.dies[d].safe }

theorem send_work (s : State) (d : Die) (x : Side) (m : Msg) : s.PortWork d (s.send d x m) :=
  ⟨rfl, fun c hc => by simp [State.send, Fin.val_ne_of_ne hc.symm]⟩

theorem send_last (s : State) (d : Die) (m : Msg) : ((s.send d .field m).ports[d]).fieldTx.queue.getLast? = some m := by
  simp [State.send, Port.setTx, Port.tx]

/-- What a HEARTBEAT leaves: the die's time, and the echo behind whatever else the die sends. -/
theorem heartbeat_spec (s : State) (d : Die) (m : Msg) : s.Only [.ports, .dies] ((s.received d .field m).heartbeat d m)
    ∧ (∀ c, c ≠ d → ((s.received d .field m).heartbeat d m).ports[c] = s.ports[c])
    ∧ ((s.received d .field m).heartbeat d m).dies = (s.setDie d { s.dies[d] with
        time := m.word.toNat, beat := s.clock, resumed := s.dies[d].resumed || s.dies[d].safe }).dies
    ∧ (((s.received d .field m).heartbeat d m).ports[d]).fieldTx.queue.getLast? = some (echoMsg m.word.toNat s.dies[d].safe) := by
  have hraise (t : State) (c : Bool) : t.PortWork d (if c then t.raiseDie d 0x0904 none 0 d.val 0 0 else t) := by
    cases c
    · exact .refl
    · exact send_work ..
  obtain ⟨c, hc⟩ : ∃ c : Bool, (s.received d .field m).heartbeat d m = (if c then
      (s.heard d m).raiseDie d 0x0904 none 0 d.val 0 0 else s.heard d m).send d .field (echoMsg m.word.toNat s.dies[d].safe) :=
    ⟨_, rfl⟩
  have hwork := (hraise (s.heard d m) c).trans (send_work _ d .field (echoMsg m.word.toNat s.dies[d].safe))
  rw [← hc] at hwork
  have hfirst : s.Only [.ports, .dies] (s.heard d m) := rfl
  refine ⟨hfirst.trans (hwork.only.mono (by decide)), fun e he => (hwork.others e he).trans ?_,
    State.only_iff.1 hwork.only .dies (by decide), ?_⟩
  · exact (State.PortWork.refl.received .field m).others e he
  · rw [hc]
    exact send_last ..

theorem riseBarred_iff {a hot : Bool} {d : Die} {st : PortState} :
    (!a || d == 0 || decide (st ≠ .down) || hot) = true ↔ a = false ∨ d = 0 ∨ st ≠ .down ∨ hot = true := by
  simp [or_assoc]

/-! ## The clock -/

theorem clockLost_spec (s : State) (d : Die) : s.Only [.dies, .trn, .axp, .spn] (s.clockLost d)
    ∧ (s.clockLost d).trn[d] = { s.trn[d] with clkLost := true } ∧ (s.clockLost d).axp[d] = { s.axp[d] with dead := true }
    ∧ (s.clockLost d).dies[d].clkLost = true := by
  have hspn (t : State) (b : Bay) : t.Only [.spn] (t.spnClockLost b) := by
    simp only [State.spnClockLost]
    split
    · exact .refl _ _
    · rfl
  obtain ⟨u, hu⟩ : ∃ u : State, u = { s.setDie d { s.dies[d] with clkLost := true } with
    trn := s.trn.set d { s.trn[d] with clkLost := true }, axp := s.axp.set d { s.axp[d] with dead := true } } := ⟨_, rfl⟩
  have hrun : s.clockLost d = (baysOfDie d).foldl (fun t b => t.spnClockLost b) u := by rw [hu]; rfl
  have hall : u.Only [.spn] (s.clockLost d) := hrun ▸ State.Only.foldl hspn (baysOfDie d) u
  have hsame := State.only_iff.1 hall
  have hfirst : s.Only [.dies, .trn, .axp, .spn] u := by rw [hu]; rfl
  refine ⟨hfirst.trans (hall.mono (by decide)), ?_, ?_, ?_⟩
  · rw [show (s.clockLost d).trn = u.trn from hsame .trn (by decide), hu]
    exact Vector.getElem_set_self ..
  · rw [show (s.clockLost d).axp = u.axp from hsame .axp (by decide), hu]
    exact Vector.getElem_set_self ..
  · rw [show (s.clockLost d).dies = u.dies from hsame .dies (by decide), hu]
    exact congrArg DieSt.clkLost (Vector.getElem_set_self ..)

/-- Settles O10: the ports by their state and what came back, the heartbeats by which part each of their steps can reach. -/
theorem portsAndHeartbeats : Obligations.PortsAndHeartbeats := by
  refine ⟨fun d lanes signal s => ⟨fun h => congrArg Host.Outcome.next (if_pos h), fun h h0 => ?_, fun h h0 => ?_, fun h hl h0 => ?_,
    fun h => congrArg Host.Outcome.next (if_neg h), fun h => congrArg Host.Outcome.next (if_pos h), rfl, fun h => ?_, fun h => ?_,
    fun h1 h2 h3 h4 => ?_⟩, fun d m s => ⟨?_, fun h => ⟨?_, ?_, ?_⟩, fun h => ?_, rfl, fun h => ?_, fun h => ?_⟩⟩
  · exact congrArg Host.Outcome.next ((if_neg (not_not.2 h)).trans ((if_pos rfl).trans (if_pos h0)))
  · exact congrArg Host.Outcome.next ((if_neg (not_not.2 h)).trans ((if_pos rfl).trans (if_neg h0)))
  · have hsame := State.only_iff.1 (portUp_only s d lanes)
    refine ⟨_, exec_portRetrainEnd_up h hl h0, ?_⟩
    beta_reduce
    rw [show (s.portUp d lanes).ports = (s.lanesBack d lanes).ports from hsame .ports (by decide),
      show (s.portUp d lanes).dies = (s.lanesBack d lanes).dies from hsame .dies (by decide)]
    exact ⟨lanesBack_port .., fun c hc => setPort_other _ _ _ _ hc, setDie_same .., fun c hc => setDie_other _ _ _ _ hc,
      State.portUp_field ..⟩
  · have hp : (s.setPort d { s.ports[d] with signal }).ports[d] = { s.ports[d] with signal } := setPort_same ..
    refine congrArg Host.Outcome.next (if_pos ?_)
    rw [hp]
    exact h
  · exact congrArg Host.Outcome.next (if_pos (riseBarred_iff.2 h))
  · exact congrArg Host.Outcome.next (if_neg fun hh => (riseBarred_iff.1 hh).elim (by simp [h1]) fun hh =>
      hh.elim h2 fun hh => hh.elim (not_not.2 h3) (Bool.eq_false_iff.1 h4))
  · obtain ⟨honly, hport⟩ := beatAll_spec (List.finRange 8) (List.nodup_finRange 8) s
    refine ⟨_, rfl, honly, fun c => ?_⟩
    have hc := (hport c).trans (if_pos (List.mem_finRange c))
    exact ⟨fun h => hc.trans (if_neg h), fun h => hc.trans (if_pos h)⟩
  · exact congrArg Host.Outcome.next (if_neg (Bool.eq_false_iff.1 h))
  · exact congrArg Host.Outcome.next (if_neg (Bool.eq_false_iff.1 h))
  · exact congrArg Host.Outcome.next (if_neg (Bool.eq_false_iff.1 h))
  · obtain ⟨honly, hothers, hdies, hlast⟩ := heartbeat_spec s d m
    refine ⟨_, congrArg Host.Outcome.next (if_pos h), honly, fun c hc => ⟨?_, hothers c hc⟩, ?_, hlast⟩
    · rw [hdies]
      exact setDie_other _ _ _ _ hc
    · rw [hdies]
      exact setDie_same ..
  · refine congrArg Host.Outcome.next ((if_pos h).trans ?_)
    have hsafe : ((s.put (dieAt .fkr d) F.FKR_STATUS_ECHO_LOST 1).setDie d { s.dies[d] with resumed := false }).dies[d].safe =
        s.dies[d].safe := by rw [setDie_same]
    cases hs : s.dies[d].safe with
    | true => exact if_pos (hsafe.trans hs)
    | false => rfl
  · obtain ⟨honly, htrn, haxp, hdie⟩ := clockLost_spec s d
    have honly' : s.Only [.dies, .trn, .axp, .spn, .ports, .regs] (s.clockLost d) := honly.mono (by decide)
    exact ⟨_, congrArg Host.Outcome.next (if_pos h), honly', htrn, haxp, hdie⟩

end Sys2Proof.Machine
end

section
/-! Register messages, firmware chunks, events, and the message registers of software (chapter 01, R23, R31, R32). -/
namespace Sys2Proof.Machine

section
variable {s : State} {d : Die} {m : Msg}

theorem dieTakes_on {act : State → State} (h : s.dies[d].power = true) : s.dieTakes d m act = act (s.received d .field m) :=
  if_pos h

theorem dieTakes_off {act : State → State} (h : s.dies[d].power = false) : s.dieTakes d m act = s :=
  if_neg (Bool.eq_false_iff.1 h)

theorem fwLoad_next (hp : partOf d (bitsOf m.word.toNat 63 56) = true) (hr : s.dieRuns d = false)
    (hn : bitsOf m.word.toNat 55 40 = (s.dies[d].chunks.filter fun e => e.1 == bitsOf m.word.toNat 63 56).length)
    (hl : (s.dies[d].chunks.filter fun e => e.1 == bitsOf m.word.toNat 63 56).any (fun e => e.2.2.1) = false) :
    s.fwLoad d m = s.setDie d { s.dies[d] with
      chunks := s.dies[d].chunks ++ [(bitsOf m.word.toNat 63 56, bitsOf m.word.toNat 55 40, bitOf m.word.toNat 39, m.cont)]
      crc := crc32cUpdate s.dies[d].crc (m.cont.flatMap fun c => leBytes 8 c.toNat)
      boot := .loading } := by
  have hok : ¬(bitsOf m.word.toNat 55 40 ≠ (s.dies[d].chunks.filter fun e => e.1 == bitsOf m.word.toNat 63 56).length ∨
      (s.dies[d].chunks.filter fun e => e.1 == bitsOf m.word.toNat 63 56).any (fun e => e.2.2.1) = true) :=
    fun h => h.elim (fun hh => hh hn) (Bool.eq_false_iff.1 hl)
  simp only [State.fwLoad, hp, hr, Bool.not_true, Bool.or_self, Bool.false_eq_true, if_false, if_neg hok]

theorem fwLoad_outOfTurn (hp : partOf d (bitsOf m.word.toNat 63 56) = true) (hr : s.dieRuns d = false)
    (hn : bitsOf m.word.toNat 55 40 ≠ (s.dies[d].chunks.filter fun e => e.1 == bitsOf m.word.toNat 63 56).length) :
    s.fwLoad d m = s.setDie d { s.dies[d] with seqErr := true } := by
  simp only [State.fwLoad, hp, hr, Bool.not_true, Bool.or_self, Bool.false_eq_true, if_false]
  exact if_pos (.inl hn)

theorem regData_answer {c : Cmd} {next n : Nat} (hreq : bitsOf m.word.toNat 63 48 ≠ 0xFFFF) (hw : c.wait = .regs next n)
    (hc : (s.qen.cmds.find? fun (c : Cmd) => c.regsOn d && c.regReq == bitsOf m.word.toNat 63 48) = some c) :
    s.regData d m = s.regAnswer c next (bitsOf m.word.toNat 47 40) ((m.cont.headD 0).toNat % 2 ^ 32) := by
  simp only [State.regData, if_neg hreq, hc, hw]

end

/-! ## The message registers (R31, R32) -/

section
variable {s : State} {d : Die} {w : Word}

/-- TXDATA stands apart from TXCTL. -/
theorem get_put_txctl (t : State) (i v : Nat) {f g : Field} (hf : f.off ≠ g.off)
    (hst : f.st = g.st ∧ f.st2 = 0 ∧ g.st2 = 0) (hlo : f.lo < 32 ∧ g.lo < 32) :
    (t.put (hubAt .krf) g v i).get (hubAt .krf) f i = t.get (hubAt .krf) f i := by
  obtain ⟨h1, h2, h3⟩ := hst
  refine get_put_other _ _ _ _ _ _ ?_
  simp only [Field.key, h1, h2, h3]
  omega

/-- The word that TXDATA holds. -/
def State.txData (s : State) (d : Die) : Nat :=
  hiLo (s.get (hubAt .krf) F.KRF_TXDATA_LO_WORD d.val) (s.get (hubAt .krf) F.KRF_TXDATA_HI_WORD d.val)

theorem txData_put (t : State) (v : Nat) : (t.put (hubAt .krf) F.KRF_TXCTL_TYPE v d.val).txData d = t.txData d := by
  unfold State.txData
  rw [get_put_txctl t d.val v (by decide) (by decide) (by decide),
    get_put_txctl t d.val v (by decide) (by decide) (by decide)]

theorem txctlWrite_eq (h : F.KRF_TXCTL_REFUSED.of w = 0) : s.txctlWrite d w =
    if F.KRF_TXCTL_PUSH.of w = 0 then s.put (hubAt .krf) F.KRF_TXCTL_TYPE (F.KRF_TXCTL_TYPE.of w) d.val
    else match s.ports[d].push (F.KRF_TXCTL_TYPE.of w) (BitVec.ofNat 64 (s.txData d)) with
      | some p => (s.put (hubAt .krf) F.KRF_TXCTL_TYPE (F.KRF_TXCTL_TYPE.of w) d.val).setPort d p
      | none => (s.put (hubAt .krf) F.KRF_TXCTL_TYPE (F.KRF_TXCTL_TYPE.of w) d.val).put (hubAt .krf) F.KRF_TXCTL_REFUSED 1 d.val := by
  rw [← txData_put s (F.KRF_TXCTL_TYPE.of w)]
  simp only [State.txctlWrite, h, State.txData, zero_ne_one, if_false]
  rfl

theorem txctlWrite_push (h : F.KRF_TXCTL_REFUSED.of w = 0) (hp : F.KRF_TXCTL_PUSH.of w = 1) {p : Port}
    (hpush : s.ports[d].push (F.KRF_TXCTL_TYPE.of w) (BitVec.ofNat 64 (s.txData d)) = some p) :
    s.txctlWrite d w = (s.put (hubAt .krf) F.KRF_TXCTL_TYPE (F.KRF_TXCTL_TYPE.of w) d.val).setPort d p := by
  rw [txctlWrite_eq h, if_neg (by rw [hp]; decide), hpush]

theorem txctlWrite_refused (h : F.KRF_TXCTL_REFUSED.of w = 0) (hp : F.KRF_TXCTL_PUSH.of w = 1)
    (hpush : s.ports[d].push (F.KRF_TXCTL_TYPE.of w) (BitVec.ofNat 64 (s.txData d)) = none) : s.txctlWrite d w =
      (s.put (hubAt .krf) F.KRF_TXCTL_TYPE (F.KRF_TXCTL_TYPE.of w) d.val).put (hubAt .krf) F.KRF_TXCTL_REFUSED 1 d.val := by
  rw [txctlWrite_eq h, if_neg (by rw [hp]; decide), hpush]

theorem rxctlWrite_pop (h : F.KRF_RXCTL_OVERFLOW.of w = 0) : s.rxctlWrite d w =
    if F.KRF_RXCTL_POP.of w = 1 then s.setPort d { s.ports[d] with swRx := s.ports[d].swRx.drop 1 } else s := by
  simp only [State.rxctlWrite, h, zero_ne_one, if_false]

theorem rxctlWrite_clear (h : F.KRF_RXCTL_OVERFLOW.of w = 1) (hp : F.KRF_RXCTL_POP.of w = 0) :
    s.rxctlWrite d w = s.put (hubAt .krf) F.KRF_RXCTL_OVERFLOW 0 d.val := by
  simp only [State.rxctlWrite, h, hp, zero_ne_one, if_false, if_true]

end

theorem Port.push_regRead {p : Port} (hf : 0 < p.txFree) (ho : p.owed = none) (x : Word64) : p.push 0x10 x =
    some { p with hubTx := { p.hubTx with queue := p.hubTx.queue ++ [{ type := 0x10, word := x, cls := .k1 }] } } := by
  simp only [Port.push, if_neg (Nat.ne_of_gt hf), ho]

/-- Settles O12: each message by its fields, and each register write by its PUSH, POP and clear bits. -/
theorem messageWords : Obligations.MessageWords := by
  refine ⟨fun d m s => ⟨fun h => ⟨?_, ?_, ?_⟩, fun h => ⟨?_, ?_⟩, fun h hp hr => ⟨fun hn hl => ?_, fun hn => ?_⟩,
    fun c next n hreq hw hc => ?_, fun hreq => ?_, fun he => ?_, fun he => ?_⟩, fun d w s => ⟨fun h hp => ?_, fun h hp =>
    ⟨fun p hpush => congrArg Host.Outcome.next (txctlWrite_push h hp hpush), fun hpush =>
      congrArg Host.Outcome.next (txctlWrite_refused h hp hpush)⟩, fun h type x => if_pos h, fun hf ho x => Port.push_regRead hf ho x,
    fun h => congrArg Host.Outcome.next (rxctlWrite_pop h), fun h hp => congrArg Host.Outcome.next (rxctlWrite_clear h hp)⟩⟩
  · exact congrArg Host.Outcome.next (dieTakes_off h)
  · exact congrArg Host.Outcome.next (dieTakes_off h)
  · exact congrArg Host.Outcome.next (dieTakes_off h)
  · exact congrArg Host.Outcome.next (dieTakes_on h)
  · exact congrArg Host.Outcome.next (dieTakes_on h)
  · exact congrArg Host.Outcome.next ((dieTakes_on h).trans (fwLoad_next (s := s.received d .field m) hp hr hn hl))
  · exact congrArg Host.Outcome.next ((dieTakes_on h).trans (fwLoad_outOfTurn (s := s.received d .field m) hp hr hn))
  · exact congrArg (fun t : State => Host.Outcome.next t.settle) (regData_answer hreq hw hc)
  · exact congrArg (fun t : State => Host.Outcome.next t.settle) (if_pos hreq)
  · exact congrArg Host.Outcome.next (if_neg he)
  · exact congrArg Host.Outcome.next (if_pos he)
  · exact congrArg Host.Outcome.next ((txctlWrite_eq h).trans (if_pos hp))

end Sys2Proof.Machine
end

section
/-! What the hub does with the answers of work items (chapter 01, R25, R28; chapter 11, R353). -/
namespace Sys2Proof.Machine

section
variable {d : Die} {m : Msg} {v : State}

theorem workDone_unknown (h : v.hubItem d (bitsOf m.word.toNat 55 40) = none) : v.workDone d m = v := by
  simp only [State.workDone, h]

section
variable {x : HubItem} (h : v.hubItem d (bitsOf m.word.toNat 55 40) = some x) (hk : x.kind = bitsOf m.word.toNat 63 56)
include h

theorem workDone_reset (hu : v.underReset x = true) (h2 : x.kind ≠ 2) (h6 : x.kind ≠ 6) : v.workDone d m = v := by
  simp only [State.workDone, h]
  refine if_pos (.inr ?_)
  simp [hu, h2, h6]

include hk

/-- The end of an item by its status. -/
theorem workDone_ends (hu : v.underReset x = false) : v.workDone d m =
    match WStatus.ofCode (bitsOf m.word.toNat 39 32) with
    | some .dropped => (v.closeItem d (bitsOf m.word.toNat 55 40)).itemDropped x
    | some st => (v.closeItem d (bitsOf m.word.toNat 55 40)).itemEnded x st.command
    | none => (v.closeItem d (bitsOf m.word.toNat 55 40)).itemEnded x stFault := by
  have hgo : ¬(x.kind ≠ bitsOf m.word.toNat 63 56 ∨ (v.underReset x && x.kind != 2 && x.kind != 6) = true) := by
    simp [hk, hu]
  simp only [State.workDone, h, if_neg hgo] <;> rfl

theorem workDone_status {st : WStatus} (hu : v.underReset x = false) (hs : WStatus.ofCode (bitsOf m.word.toNat 39 32) = some st)
    (hd : st ≠ .dropped) : v.workDone d m = (v.closeItem d (bitsOf m.word.toNat 55 40)).itemEnded x st.command := by
  rw [workDone_ends h hk hu, hs]
  split
  · next heq => exact absurd (Option.some.inj heq) hd
  · next heq => rw [Option.some.inj heq]
  · next heq => cases heq

end

theorem fillOf_bit {x : Miss} (h : v.fillOf d m.word = some x) : bitOf m.word.toNat 20 = false := by
  by_contra hb
  rw [State.fillOf, if_pos (by simpa using hb)] at h
  cases h

section
variable {x : Miss} (h : v.fillOf d m.word = some x) (hd : v.fillDropped x = false)
include h hd

theorem logDone_fill : v.logDone d m =
    if bitsOf m.word.toNat 19 18 = 2 then
      let t := if x.begun then v else v.beginFill x
      t.fillOver ((t.miss x.id).getD x) .failed false (decide (1 < bitsOf m.word.toNat 17 13))
    else if v.boardsHeld x = 0xFFFF then v.fillOver x .good false (decide (1 < bitsOf m.word.toNat 17 13))
    else v.refill x := by
  simp only [State.logDone, h, hd, Bool.false_eq_true, if_false]

end

theorem exec_logDone {s : State} (h : bitOf m.word.toNat 20 = false) :
    exec (.logDone d m) s = .next ((s.received d .hub m).logDone d m).settle :=
  congrArg Host.Outcome.next (if_neg (Bool.eq_false_iff.1 h))

end

/-- A disc once a word of its system logs has come. -/
def systemTaken (m : Msg) (x : BayDisc) : BayDisc :=
  let n := bitsOf m.word.toNat 63 32 / 32
  match x.sys.find? (·.log = n) with
  | some _ => { x with sys := x.sys.map fun (e : SysLog) => if e.log = n then e.take m else e }
  | none => { x with sys := x.sys ++ [({ log := n, boards := [] } : SysLog).take m] }

theorem systemTaken_new {m : Msg} {x : BayDisc} (hx : ∀ e ∈ x.sys, e.log ≠ bitsOf m.word.toNat 63 32 / 32) :
    systemTaken m x = { x with sys := x.sys ++ [({ log := bitsOf m.word.toNat 63 32 / 32, boards := [] } : SysLog).take m] } := by
  have hnone : x.sys.find? (·.log = bitsOf m.word.toNat 63 32 / 32) = none :=
    List.find?_eq_none.2 fun e he => by simpa using hx e he
  simp only [systemTaken, hnone]

theorem exec_systemBoardReceive {s : State} {d : Die} {m : Msg} {b : Bay} (h : bitOf m.word.toNat 20 = true)
    (hb : bayOf d (bitsOf m.word.toNat 21 21) = some b) :
    exec (.systemBoardReceive d m) s = .next ((s.received d .hub m).mapDisc b (systemTaken m)) := by
  show execSystemBoardReceive d m s = _
  simp only [execSystemBoardReceive, h, hb, Bool.not_true, Bool.false_eq_true, if_false]
  rfl

/-- Settles O14: the end of an item by the hub's book of items, its kind and its status, and a fill's words by its entry. -/
theorem workAnswers : Obligations.WorkAnswers := by
  intro d m s
  have hdone {t : State} (h : (s.received d .hub m).workDone d m = t) : exec (.workDone d m) s = .next t.settle :=
    congrArg (fun t : State => Host.Outcome.next t.settle) h
  refine ⟨fun h => hdone (workDone_unknown h), fun x h hk hu => ⟨fun st hs hd => hdone (workDone_status h hk hu hs hd), fun hs =>
    hdone ?_, fun hs => hdone ?_⟩, fun x h hk hu h2 h6 => hdone (workDone_reset h hu h2 h6), fun h => ?_, fun x h => ?_, rfl,
    fun h => congrArg Host.Outcome.next (if_pos h), fun x h hd => ?_, fun h => congrArg Host.Outcome.next (if_pos (by simp [h])),
    fun h b hb => ⟨_, exec_systemBoardReceive h hb, rfl, fun x hx hsys => ?_⟩⟩
  · rw [workDone_ends h hk hu, hs]
  · rw [workDone_ends h hk hu, hs]
  · show execBoardData d m s = _
    simp only [execBoardData, h]
  · show execBoardData d m s = _
    simp only [execBoardData, h]
  · rw [exec_logDone (fillOf_bit h), logDone_fill h hd]
    refine ⟨fun hr hheld => ?_, fun hr hheld => ?_, fun hr hb => ?_⟩
    · rw [if_neg hr, if_pos hheld]
    · rw [if_neg hr, if_neg hheld]
    · rw [if_pos hr, hb]
      rfl
  · have hdisc (f : BayDisc → BayDisc) : ((s.received d .hub m).mapDisc b f).crew.bays[b].disc = s.crew.bays[b].disc.map f := by
      simp [State.mapDisc, State.setHubBay, State.received]
    rw [hdisc, hx, Option.map_some, systemTaken_new hsys]

end Sys2Proof.Machine
end

section
/-! A spot that is the source of a window of its own (R94). -/
namespace Sys2Proof.Machine

/-- Spot 0 holds its snag, and an open-ended window of which it is the source itself. -/
def ownWindow : State := State.reset.setSpot 0 0
  { State.reset.sfe[(0 : Bay)].spots[(0 : Fin 7)] with snag := true, windows := [{ src := 0, opensAt := 0 }] }

/-- The detectors' values for as long as SNAG_CLEAR asks for: a high envelope and no low-frequency component. -/
def quiet (v : Rat) : List Rat := List.replicate 32 v

theorem ownWindow_snag : ownWindow.sfe[(0 : Bay)].spots[(0 : Fin 7)].snag = true := by decide +kernel

theorem ownWindow_over : snagOver ownWindow 0 0 (quiet 10000) (quiet 0) = true := by decide +kernel

/-- The clearing closes every open-ended window of the source, the one on the spot itself with them. -/
theorem ownWindow_closed : ∃ t, exec (.snagClear 0 0 (quiet 10000) (quiet 0)) ownWindow = .next t
    ∧ t.sfe[(0 : Bay)].spots[(0 : Fin 7)].windows ≠ ownWindow.sfe[(0 : Bay)].spots[(0 : Fin 7)].windows :=
  ⟨_, rfl, by decide +kernel⟩

/-- Refutes O19: the clearing of a snag changes the windows of its own spot where one has that spot as its source. -/
theorem not_snagsAndForecasts : ¬Obligations.SnagsAndForecasts := by
  unfold Obligations.SnagsAndForecasts
  intro h
  obtain ⟨-, -, -, hclear, -⟩ := h.1 0 0 (quiet 10000) (quiet 0) ownWindow
  obtain ⟨t, ht, -, -, -, hkept, -⟩ := hclear ownWindow_snag ownWindow_over
  obtain ⟨u, hu, hne⟩ := ownWindow_closed
  obtain rfl : u = t := Host.Outcome.next.inj (hu.symm.trans ht)
  exact hne hkept

end Sys2Proof.Machine
end

section
/-!
The spindle drive's commands (R273, R274, R280, R287): what each operation makes of the drive, and the frame of the slots that
the drive forces.
-/
namespace Sys2Proof.Machine

theorem State.forceSlot_only (s : State) (d : Die) (n : Fin 48) (v : Int) : s.Only [.trn] (s.forceSlot d n v) := rfl

theorem State.freeSlot_only (s : State) (d : Die) (n : Fin 48) : s.Only [.trn] (s.freeSlot d n) := by
  unfold State.freeSlot
  dsimp only
  split
  · exact .refl _ s
  · rfl

theorem spnForces_only (s : State) (b : Bay) : s.Only [.trn] (s.spnForces b) := by
  unfold State.spnForces
  dsimp only
  split
  · exact (State.forceSlot_only ..).trans (State.freeSlot_only ..)
  · exact (State.freeSlot_only ..).trans (State.forceSlot_only ..)
  all_goals rfl

/-- Two fields of one block that stand at different places have different keys. -/
theorem key_ne_key {f g : Field} {a : Nat} (h : f.off * 32 + f.lo ≠ g.off * 32 + g.lo) : f.key a 0 0 ≠ g.key a 0 0 := by
  simp only [Field.key]
  omega

/-- The forces reach no register and no drive. -/
theorem spnForces_spn (s : State) (b : Bay) : (s.spnForces b).spn = s.spn :=
  State.only_iff.1 (spnForces_only s b) .spn (by decide)

/-- Outside the states that drive current the slots stay as they are. -/
theorem spnForces_idle {s : State} {b : Bay} (h : s.spn[b].state = .stopped ∨ s.spn[b].state = .coast ∨ s.spn[b].state = .short
    ∨ s.spn[b].state = .flywheel) : s.spnForces b = s := by
  unfold State.spnForces
  dsimp only
  rcases h with h | h | h | h <;> rw [h]

theorem setSpn_setSpn (s : State) (b : Bay) (x y : Spn) : (s.setSpn b x).setSpn b y = s.setSpn b y := by
  simp only [State.setSpn, Vector.set_set]

/-- What may change while one drive works: its own state and the slots of the turn engines. -/
structure State.SpnWork (b : Bay) (s t : State) : Prop where
  only : s.Only [.spn, .trn] t
  others : ∀ c, c ≠ b → t.spn[c] = s.spn[c]

namespace State.SpnWork

variable {s t : State} {b : Bay}

theorem refl : s.SpnWork b s := ⟨.refl _ s, fun _ _ => rfl⟩

theorem setSpn (x : Spn) (h : s.SpnWork b t) : s.SpnWork b (t.setSpn b x) :=
  ⟨h.only.trans ((State.setSpn_only ..).mono (by decide)), fun c hc => (setSpn_other t b c x hc).trans (h.others c hc)⟩

theorem forces (h : s.SpnWork b t) : s.SpnWork b (t.spnForces b) :=
  ⟨h.only.trans ((spnForces_only t b).mono (by decide)), fun c hc => by rw [spnForces_spn]; exact h.others c hc⟩

theorem forceSlot (d : Die) (n : Fin 48) (v : Int) (h : s.SpnWork b t) : s.SpnWork b (t.forceSlot d n v) :=
  ⟨h.only.trans ((State.forceSlot_only ..).mono (by decide)), h.others⟩

theorem frame (h : s.SpnWork b t) : t = { s with spn := t.spn, trn := t.trn } := h.only

end State.SpnWork

section
variable {s : State} {b : Bay}

/-! ## What bars a RUN or IDLE -/

theorem spnBarred_of (h : s.spn[b].fault ≠ none ∨ spnClockCfg s b = true ∨ s.has (spnA b) F.SPN_CTL_ENABLE = false
    ∨ s.dies[dieOfBay b].safe = true) : spnBarred s b = true := by
  unfold spnBarred spnSafe
  rcases h with h | h | h | h
  · rw [Option.isSome_iff_ne_none.2 h]; rfl
  · rw [h]; simp
  · rw [h]; simp
  · rw [h]; simp

theorem spnRun_refused {target : Int} (v : Rat) (h : target < 1000 ∨ 12000 < target ∨ spnBarred s b = true) :
    s.spnRun b target v = s.spnRefuse b := if_pos h

theorem spnIdle_refused (v : Rat) (h : spnBarred s b = true) : s.spnIdle b v = s.spnRefuse b := if_pos h

theorem spnRun_taken {target : Int} (v : Rat) (h1 : 1000 ≤ target) (h2 : target ≤ 12000) (h : spnBarred s b = false) :
    s.spnRun b target v = (s.spnGo b .run target v).spnForces b :=
  if_neg (by rw [h]; simp only [Bool.false_eq_true, or_false]; omega)

theorem spnIdle_taken (v : Rat) (h : spnBarred s b = false) : s.spnIdle b v = (s.spnGo b .idle 0 v).spnForces b :=
  if_neg (by rw [h]; exact Bool.false_ne_true)

/-! ## An accepted RUN or IDLE -/

theorem spnGo_stopped (m : SpnMode) (target : Int) (v : Rat) (h : s.spn[b].state = .stopped) : s.spnGo b m target v =
    (s.setSpn b { s.spn[b] with mode := m, target := target, tries := 0 }).spnStart b v := by
  simp only [State.spnGo, h, setSpn_setSpn]

theorem spnGo_turning (m : SpnMode) (target : Int) (v : Rat) (h : s.spn[b].state = .run ∨ s.spn[b].state = .decel) :
    let x := { s.spn[b] with mode := m, target := target }
    s.spnGo b m target v = s.setSpn b (spnRetarget (s.setSpn b x) b x (spnTargetRpm (s.setSpn b x) b)) := by
  rcases h with h | h <;> simp only [State.spnGo, h, setSpn_setSpn]

theorem spnTargetRpm_run {x : Spn} (h : x.mode = .run) : spnTargetRpm (s.setSpn b x) b = x.target := by
  simp only [spnTargetRpm, setSpn_same, h]

theorem spnTargetRpm_idle {x : Spn} (h : x.mode = .idle) : spnTargetRpm (s.setSpn b x) b = spnQ s b F.SPN_RUN_IDLE_RPM := by
  simp only [spnTargetRpm, setSpn_same, h]
  rfl

variable {x : Spn} {t : Rat}

theorem spnRetarget_up (h : x.state = .run) (ht : x.speed - spnDecBand s b ≤ t) :
    spnRetarget s b x t = { x with ramp := x.speed, atSpeed := false } := by
  simp only [spnRetarget, h, if_neg (not_lt.2 ht)]

theorem spnRetarget_down (h : x.state = .run) (ht : t < x.speed - spnDecBand s b) :
    spnRetarget s b x t = { x with goal := .toSpeed t, atSpeed := false, state := .decel } := by
  simp only [spnRetarget, h, if_pos ht]
  rfl

theorem spnRetarget_back (h : x.state = .decel) (ht : x.speed ≤ t) :
    spnRetarget s b x t = { x with ramp := x.speed, atSpeed := false, state := .run } := by
  simp only [spnRetarget, h, if_pos ht]
  rfl

/-! ## Starts and stops -/

theorem spnStart_parked {v : Rat} (hp : s.has (spnA b) F.SPN_CTL_PARK = true) (h : s.spn[b].parked = true)
    (hv : spnUvTrip s b ≤ v) : s.spnStart b v =
      (s.bump (spnA b) F.SPN_CNT_STARTS).setSpn b (({ s.spn[b] with vbr := v, restart := false } : Spn).enter .ipd) := by
  have hpark : (s.bump (spnA b) F.SPN_CNT_STARTS).has (spnA b) F.SPN_CTL_PARK = true := by
    rw [← hp]; exact congrArg (· == 1) (get_bump_other s _ _ _ _ (key_ne_key (by decide)))
  have hvolt : spnUvTrip (s.bump (spnA b) F.SPN_CNT_STARTS) b = spnUvTrip s b := by
    simp only [spnUvTrip, spnQ]
    rw [get_bump_other _ _ _ _ _ (key_ne_key (by decide))]
  unfold State.spnStart
  dsimp only
  rw [if_pos ⟨hpark, h⟩]
  unfold State.spnIpd
  dsimp only
  rw [hvolt, if_neg (not_lt.2 hv)]
  rfl

theorem spnStart_catch (v : Rat) (h : s.has (spnA b) F.SPN_CTL_PARK = false ∨ s.spn[b].parked = false) : s.spnStart b v =
    (s.bump (spnA b) F.SPN_CNT_STARTS).setSpn b (({ s.spn[b] with vbr := v, catchOn := false } : Spn).enter .catching) := by
  have hpark : (s.bump (spnA b) F.SPN_CNT_STARTS).has (spnA b) F.SPN_CTL_PARK = s.has (spnA b) F.SPN_CTL_PARK :=
    congrArg (· == 1) (get_bump_other s _ _ _ _ (key_ne_key (by decide)))
  refine if_neg fun hc => ?_
  rw [hpark] at hc
  rcases h with h | h
  · exact absurd (h.symm.trans hc.1) Bool.false_ne_true
  · exact absurd (h.symm.trans hc.2) Bool.false_ne_true

/-- A start counts, and then works on its drive alone. -/
theorem start_work (s : State) (b : Bay) (x y : Spn) : (s.bump (spnA b) F.SPN_CNT_STARTS).SpnWork b
    ((((s.setSpn b x).bump (spnA b) F.SPN_CNT_STARTS).setSpn b y).spnForces b) :=
  ((State.SpnWork.refl.setSpn x).setSpn y).forces

theorem spnPassive_slow (h : x.state ≠ .stopped ∧ x.state ≠ .short) (hn : x.speed < spnStopShort s b) :
    spnPassive s b x = ({ x with rpmCross := x.speed } : Spn).enter .short := by
  unfold spnPassive
  split
  next h' => exact absurd h' h.1
  next h' => exact absurd h' h.2
  next => exact if_neg (not_le.2 hn)

/-- The drive once STOP has been taken, before it acts. -/
def Spn.toldStop (x : Spn) : Spn := { x with mode := .stop, target := 0, restart := false, starter := none }

/-- What a STOP makes of a drive by its state. -/
def stopStep (s : State) (b : Bay) (x : Spn) : Spn :=
  match x.state with
  | .run | .decel => spnActive s b x
  | .ipd | .align | .openLoop | .catching => spnPassive s b x
  | _ => x

theorem spnStop_taken (h : s.dies[dieOfBay b].safe = false) :
    s.spnStop b = (s.setSpn b (stopStep s b s.spn[b].toldStop)).spnForces b :=
  if_neg (Bool.eq_false_iff.1 (show spnSafe s b = false from h))

theorem stopStep_turning (h : x.state = .run ∨ x.state = .decel) :
    stopStep s b x = { x with goal := .toStop, atSpeed := false, idRef := 0, state := .decel } := by
  rcases h with h | h <;> simp only [stopStep, h, spnActive] <;> rfl

theorem stopStep_resting (h : x.state = .stopped ∨ x.state = .coast ∨ x.state = .short ∨ x.state = .flywheel) :
    stopStep s b x = x := by
  rcases h with h | h | h | h <;> simp only [stopStep, h]

theorem stopStep_align (h : x.state = .align) (hn : 0 < spnStopShort s b) :
    stopStep s b x = ({ x with rpmCross := x.speed } : Spn).enter .short := by
  have hspeed : x.speed = 0 := by simp only [Spn.speed, h]
  have hpass := spnPassive_slow (s := s) (b := b) (x := x) (by simp [h]) (by rw [hspeed]; exact hn)
  simp only [stopStep, h, hpass]

/-! ## Writes of SPN_CTL -/

theorem spnCtlWrite_ignored {w : Word} (h1 : F.SPN_CTL_ENABLE.of w = 0) (h2 : s.has (spnA b) F.SPN_CTL_ENABLE = true)
    (h3 : s.spn[b].state ≠ .stopped) : s.spnCtlWrite b w = s := by
  unfold State.spnCtlWrite
  dsimp only
  refine if_pos ?_
  rw [h1, h2, bne_iff_ne.2 h3]
  rfl

theorem spnCtlWrite_off {w : Word} (hc : F.SPN_CTL_CLR_FAULT.of w = 0) (h1 : F.SPN_CTL_ENABLE.of w = 0)
    (h3 : s.spn[b].state = .stopped) : s.spnCtlWrite b w =
      (s.put (spnA b) F.SPN_CTL_ENABLE (F.SPN_CTL_ENABLE.of w)).put (spnA b) F.SPN_CTL_PARK (F.SPN_CTL_PARK.of w) := by
  unfold State.spnCtlWrite
  simp only [hc, h1, h3, zero_ne_one, if_false]
  simp
  rfl

theorem spnCtlWrite_on {w : Word} (hc : F.SPN_CTL_CLR_FAULT.of w = 0) (h1 : F.SPN_CTL_ENABLE.of w = 1) :
    let ctl := (s.put (spnA b) F.SPN_CTL_ENABLE (F.SPN_CTL_ENABLE.of w)).put (spnA b) F.SPN_CTL_PARK (F.SPN_CTL_PARK.of w)
    s.spnCtlWrite b w =
      if s.has (spnA b) F.SPN_CTL_ENABLE = true then ctl else ctl.setSpn b { s.spn[b] with parked := false } := by
  unfold State.spnCtlWrite
  cases h : s.has (spnA b) F.SPN_CTL_ENABLE <;> simp [hc, h1, b2n]

end

/-- Settles O28: a refusal where something bars the command, and else what each state of the drive makes of it. -/
theorem spindleCommands : Obligations.SpindleCommands := by
  intro b target vbr w s
  dsimp only
  refine ⟨?_, ?_, ?_, ?_, ?_, ?_, ?_, ?_, ?_, ?_, ?_⟩
  · intro h
    exact congrArg Host.Outcome.next (spnRun_refused _ h)
  · intro h
    exact ⟨congrArg Host.Outcome.next (spnRun_refused _ (.inr (.inr (spnBarred_of h)))),
      congrArg Host.Outcome.next (spnIdle_refused _ (spnBarred_of h))⟩
  · intro h1 h2 hb
    have hrun : exec (.spnRun b target vbr) s = .next ((s.spnGo b .run target (vbr / 1000)).spnForces b) :=
      congrArg Host.Outcome.next (spnRun_taken _ h1 h2 hb)
    have hturn {y : Spn} (hs : s.spn[b].state = .run ∨ s.spn[b].state = .decel)
        (hy : spnRetarget s b { s.spn[b] with mode := .run, target := target } target = y) :
        exec (.spnRun b target vbr) s = .next ((s.setSpn b y).spnForces b) := by
      rw [hrun, spnGo_turning _ _ _ hs, spnTargetRpm_run rfl, ← hy]
      rfl
    refine ⟨?_, ?_, ?_, ?_, ?_⟩
    · intro hs ht
      exact hturn (.inl hs) (spnRetarget_up hs ht)
    · intro hs ht
      exact hturn (.inl hs) (spnRetarget_down hs ht)
    · intro hs ht
      exact hturn (.inr hs) (spnRetarget_back hs ht)
    · intro hs hp hk hv
      rw [spnGo_stopped _ _ _ hs, spnStart_parked (s := s.setSpn b _) hp (by rw [setSpn_same]; exact hk) hv] at hrun
      refine ⟨_, hrun, (start_work ..).frame, (start_work ..).others, ?_⟩
      rw [spnForces_spn, setSpn_same, setSpn_same]
      exact ⟨rfl, rfl, rfl⟩
    · intro hs hp
      rw [spnGo_stopped _ _ _ hs, spnStart_catch (s := s.setSpn b _) _ (by rw [setSpn_same]; exact hp)] at hrun
      refine ⟨_, hrun, (start_work ..).frame, (start_work ..).others, ?_⟩
      rw [spnForces_spn, setSpn_same]
      exact ⟨rfl, rfl⟩
  · intro hb hs ht
    have h : exec (.spnIdle b vbr) s = .next ((s.spnGo b .idle 0 (vbr / 1000)).spnForces b) :=
      congrArg Host.Outcome.next (spnIdle_taken _ hb)
    rw [spnGo_turning _ _ _ (.inl hs), spnTargetRpm_idle rfl] at h
    exact h.trans (congrArg (fun y => Host.Outcome.next ((s.setSpn b y).spnForces b)) (spnRetarget_up hs ht))
  · intro h
    exact congrArg Host.Outcome.next (if_pos h)
  · intro h
    refine ⟨fun hs => ?_, fun hs => ?_, fun hs hn => ?_⟩
    · exact congrArg Host.Outcome.next ((spnStop_taken h).trans (by rw [stopStep_turning (x := s.spn[b].toldStop) hs]; rfl))
    · rw [show exec (.spnStop b) s = .next (s.spnStop b) from rfl, spnStop_taken h, stopStep_resting (x := s.spn[b].toldStop) hs,
        spnForces_idle (by rw [setSpn_same]; exact hs)]
      rfl
    · have hstep := stopStep_align (s := s) (b := b) (x := s.spn[b].toldStop) hs (lt_of_lt_of_le (by norm_num) hn)
      have hstop : exec (.spnStop b) s = .next (s.setSpn b _) := congrArg Host.Outcome.next ((spnStop_taken h).trans
        (spnForces_idle (by rw [setSpn_same, hstep]; exact .inr (.inr (.inl rfl)))))
      refine ⟨_, hstop, State.setSpn_only .., ?_, ?_, fun c hc => setSpn_other s b c _ hc⟩ <;> rw [setSpn_same, hstep] <;> rfl
  · intro h
    exact congrArg Host.Outcome.next (if_neg h)
  · intro h
    exact congrArg Host.Outcome.next (if_pos h)
  · intro h1 h2 h3
    exact congrArg Host.Outcome.next (spnCtlWrite_ignored h1 h2 h3)
  · intro hc h1 h3
    exact congrArg Host.Outcome.next (spnCtlWrite_off hc h1 h3)
  · intro hc h1
    exact congrArg Host.Outcome.next (spnCtlWrite_on hc h1)

end Sys2Proof.Machine
end

section
/-! Frames of what the operations of a bay share: the ends of work items and logs, lost loops, borrowed spots. -/
namespace Sys2Proof.Machine

theorem State.setMounted_only (s : State) (b : Bay) (m : Bool) : s.Only [.dies] (s.setMounted b m) := rfl

theorem State.setRec_only (s : State) (b : Bay) (x : Rec) : s.Only [.recp] (s.setRec b x) := rfl

theorem State.putMask_only (s : State) (a : Nat) (f : Field) (k : Nat) (v : Bool) : s.Only [.regs] (s.putMask a f k v) := rfl

theorem State.endItem_only (s : State) (d : Die) (i : Nat) (st : WStatus) (cause : Nat) (cont : Option Nat) :
    s.Only [.dies, .ports] (s.endItem d i st cause cont) := by
  unfold State.endItem
  split
  · exact .refl _ s
  · rfl

theorem State.endItems_only (s : State) (d : Die) (l : List Nat) (st : WStatus) (cause : Nat) :
    s.Only [.dies, .ports] (l.foldl (fun t i => t.endItem d i st cause) s) :=
  .foldl (fun t i => State.endItem_only t d i st cause none) l s

/-- What a bay gives up when all its items end, before their ends are sent. -/
def State.bayGivenUp (s : State) (b : Bay) : State :=
  { s with
    lat := s.lat.set b { s.lat[b] with logs := [], retry := false, mount := none }
    osv := s.osv.set b { s.osv[b] with mount := none }
    recp := s.recp.set b { s.recp[b] with
      items := []
      built := s.recp[b].built.filter fun l =>
        match s.recp[b].writing with | some w => l.item == w.log.item | none => false } }

theorem State.endBayItems_from (s : State) (b : Bay) (st : WStatus) (cause : Nat) :
    (s.bayGivenUp b).Only [.dies, .ports] (s.endBayItems b st cause) := State.endItems_only _ _ _ _ _

theorem State.endBayItems_osv (s : State) (b : Bay) (st : WStatus) (cause : Nat) :
    (s.endBayItems b st cause).osv = s.osv.set b { s.osv[b] with mount := none } :=
  State.only_iff.1 (State.endBayItems_from s b st cause) .osv (by decide)

theorem State.slotRestart_only (s : State) (d : Die) (n : Fin 48) : s.Only [.trn] (s.slotRestart d n) :=
  .whenDo (.refl _ s) (State.setSlot_only ..)

theorem State.answerResets_only (s : State) (d : Die) : s.Only [.dies, .ports] (s.answerResets d) :=
  State.Only.trans (State.Only.mono (State.setDie_only s d _) (by decide))
    (.foldl (fun _ _ => State.Only.mono (State.send_only ..) (by decide)) _ _)

theorem State.logOver_only (s : State) (d : Die) (item : Nat) : s.Only [.dies, .ports] (s.logOver d item) :=
  State.Only.trans (State.Only.mono (State.setDie_only s d _) (by decide)) (State.answerResets_only ..)

theorem State.recPartial_only (s : State) (b : Bay) : s.Only [.recp, .regs, .ports, .dies] (s.recPartial b) := by
  unfold State.recPartial
  dsimp only
  split
  · exact .refl _ s
  · next w _ =>
    have hrec := (State.setRec_only s b { s.recp[b] with
      writing := none, state := .stopped, built := s.recp[b].built.filter (·.item ≠ w.log.item) }).mono
      (show [.recp] ⊆ [StatePart.recp, .regs, .ports, .dies] by decide)
    exact ((((hrec.then_ (State.bump_only ..) (by decide)).then_ (State.raiseBay_only ..) (by decide)).then_
      (State.endItem_only ..) (by decide)).then_ (State.logOver_only ..) (by decide))

/-! ## The cruise calibrator's spot -/

theorem State.cruReturn_only (s : State) (b : Bay) : s.Only [.cru, .regs] (s.cruReturn b) := by
  unfold State.cruReturn
  dsimp only
  split
  · exact .refl _ s
  · exact ((State.Only.mono (State.setCru_only s b _) (by decide)).then_ (State.putMask_only ..) (by decide)).then_
      (State.putMask_only ..) (by decide)

theorem State.cruPause_only (s : State) (b : Bay) (point : Bool) : s.Only [.cru, .regs] (s.cruPause b point) := by
  unfold State.cruPause
  dsimp only
  split
  · exact .refl _ s
  · exact (State.cruReturn_only s b).then_ (State.setCru_only ..) (by decide)

theorem State.cruInterrupt_only (s : State) (b : Bay) : s.Only [.cru, .regs] (s.cruInterrupt b) :=
  .whenDo (.refl _ s) (State.cruPause_only ..)

end Sys2Proof.Machine
end

section
/-! The end of a short brake while an UNMOUNT is under way (R273). -/
namespace Sys2Proof.Machine

/-- An UNMOUNT item of bay 0 that has begun. -/
def begunUnmount : DieItem := { kind := .unmount, item := 5, cls := 1, bay := 0, func := 0, qid := 1, begun := true }

/-- Bay 0 brakes its spindle by a short, and an UNMOUNT of its disc waits for the spindle to stand. -/
def brakingUnmount : State :=
  let s := State.reset.setSpn 0 { State.reset.spn[(0 : Bay)] with state := .short }
  s.setDie (dieOfBay 0) { s.dies[dieOfBay 0] with items := [begunUnmount] }

theorem brakingUnmount_short : brakingUnmount.spn[(0 : Bay)].state = .short ∧ brakingUnmount.dies[dieOfBay 0].clkLost = false
    ∧ brakingUnmount.spn[(0 : Bay)].restart = false := by decide +kernel

/-- The end of the brake ends the item with it. -/
theorem brakingUnmount_ends : ∃ t, exec (.shortEnd 0 0) brakingUnmount = .next t ∧ t.dies[dieOfBay 0].items = [] :=
  ⟨_, rfl, by decide +kernel⟩

/-- Refutes O29: the end of SHORT also ends an UNMOUNT under way on the bay, so more than the drive changes. -/
theorem not_spindleStarts : ¬Obligations.SpindleStarts := by
  unfold Obligations.SpindleStarts
  intro h
  obtain ⟨-, -, -, -, -, -, -, -, -, -, -, -, -, -, -, -, -, -, -, -, -, -, hshort, -⟩ :=
    h 0 (Vector.replicate 12 0) .atRest 0 brakingUnmount
  obtain ⟨hstate, hclock, hrestart⟩ := brakingUnmount_short
  obtain ⟨t, ht, hitems⟩ := brakingUnmount_ends
  have heq := Host.Outcome.next.inj (ht.symm.trans (hshort hstate hclock hrestart))
  rw [heq] at hitems
  exact absurd hitems (by decide +kernel)

end Sys2Proof.Machine
end

section
/-! The commands that move boards, when no fence holds them (R440, R441, R449, R460–R465). -/
namespace Sys2Proof.Machine

/-- A command as it stands once it runs. -/
def Cmd.runs (c : Cmd) : Cmd := { c with st := .running }

/-- A checked command that no fence holds starts. -/
theorem starts_of {s : State} {id op : Nat} {c : Cmd} (f : State → Cmd → State) (h : s.cmd id = some c) (hst : c.st = .checked)
    (hm : s.mayStart c = true) (ho : c.opcode = op) : s.starts id op f = (f (s.setCmd c.runs) c.runs).settle := by
  have hstart : s.startable id op = some c.runs := by
    simp only [State.startable, h]
    exact if_pos ⟨hst, ho, hm⟩
  rw [State.starts, hstart]

/-- The row of a command that starts. -/
theorem next_starts_of {s : State} {id op : Nat} {c : Cmd} {i : Instr} {f : State → Cmd → State} {u : State}
    (h : s.cmd id = some c) (hst : c.st = .checked) (hm : s.mayStart c = true) (ho : c.opcode = op)
    (hi : exec i s = .next (s.starts id op f)) (hu : f (s.setCmd c.runs) c.runs = u) : exec i s = .next u.settle := by
  rw [hi, starts_of f h hst hm ho, hu]

section
variable {s : State} {c : Cmd}

theorem recordStart_refused (h : ∃ k ∈ c.recordLogs, s.recordRefused k.1 k.2 = true) : s.recordStart c = s.finish c stNotPermitted 0 :=
  if_pos (List.any_eq_true.2 h)

theorem recordStart_mounts (h : ¬∃ k ∈ c.recordLogs, s.recordRefused k.1 k.2 = true) (hd : c.delivery = 1)
    (hm : s.slotMounted (c.address / 2 ^ 32) = false) : s.recordStart c =
    (s.setCmd { c with wait := .mount }).wantMount (c.address / 2 ^ 32) none c.cls c.func c.qid (.cmd c.id) :=
  (if_neg fun h' => h (List.any_eq_true.1 h')).trans (if_pos ⟨hd, by rw [hm]; rfl⟩)

theorem recordStart_reads (h : ¬∃ k ∈ c.recordLogs, s.recordRefused k.1 k.2 = true) (hd : c.delivery = 0)
    (hm : s.slotMounted (c.address / 2 ^ 32) = false) : s.recordStart c =
    (s.setCmd { c with wait := .host 0 }).hostRead c.func c.buffer (4112 * c.count) (c.cls = 0) (.cmd c.id) := by
  refine (if_neg fun h' => h (List.any_eq_true.1 h')).trans ((if_neg fun h' => absurd (hd.symm.trans h'.1) (by decide)).trans ?_)
  unfold State.recordGo
  dsimp only
  rw [hm]
  cases s.bayOfSlot (c.address / 2 ^ 32) <;> rfl

end

/-- A FLUSH whose queue has no writer covers nothing. -/
theorem covered_none {s : State} {c : Cmd} (h : ∀ w ∈ s.lnd.writers, ¬(w.func = c.func ∧ w.qid = c.qid)) : s.covered c = [] := by
  have hmine : s.lnd.writers.filter (fun (w : Writer) => w.func == c.func && w.qid == c.qid && (s.cmd w.cmd).isNone) = [] := by
    refine List.filter_eq_nil_iff.2 fun w hw hc => h w hw ?_
    simp only [Bool.and_eq_true, beq_iff_eq] at hc
    exact hc.1
  rw [State.covered, hmine]
  rfl

/-- A command replaced in flight is found again. -/
theorem cmd_setCmd {s : State} {c d : Cmd} (h : s.cmd d.id = some c) : (s.setCmd d).cmd d.id = some d := by
  have hid : c.id = d.id := by simpa using List.find?_some h
  have hsame : ((fun x : Cmd => decide (x.id = d.id)) ∘ fun x : Cmd => if x.id = d.id then d else x) =
      fun x : Cmd => decide (x.id = d.id) := by
    funext x
    by_cases hx : x.id = d.id <;> simp [hx]
  rw [State.cmd] at h ⊢
  rw [State.setCmd, List.find?_map, hsame, h, Option.map_some, if_pos hid]

/-- Deciding a command leaves the registers and the range engine's operation. -/
theorem finish_settle {s : State} (c : Cmd) (st r : Nat) (hr : s.lnd.range = none) (hf : s.fieldReady = false) :
    (s.finish c st r).settle = s.finish c st r := by
  have hsame : (s.finish c st r).regs = s.regs ∧ (s.finish c st r).lnd.range = s.lnd.range := by
    unfold State.finish
    dsimp only
    split
    · exact ⟨rfl, rfl⟩
    · split <;> exact ⟨rfl, rfl⟩
  refine settle_idle ?_ (hsame.2.trans hr)
  rw [← hf, State.fieldReady, State.fieldReady, State.has, State.has, State.get, State.get, hsame.1]

theorem ifDone_done {s : State} {c : Cmd} (h : s.cmd c.id = some c) (hst : c.st = .running) (hb : c.boards = []) (hl : c.lines = [])
    (hw : c.wait = .none) : s.ifDone c.id = s.finish c c.outcome.1 c.outcome.2 := by
  simp only [State.ifDone, h]
  exact if_pos ⟨hst, hb, hl, hw⟩

theorem outcome_flush {c : Cmd} (ho : c.opcode = 0x06) (hf : c.fail = none) (hn : c.n1 = 0) : c.outcome = (stSuccess, 0) := by
  simp [Cmd.outcome, ho, hf, hn]

/-- Settles O47: each command is taken up by its row, and the row's operation by its cases. -/
theorem dataCommands : Obligations.DataCommands := by
  intro id c s h hst hm
  obtain rfl : c.id = id := by simpa using List.find?_some h
  dsimp only
  have hon : (s.setCmd c.runs).lndOn = s.lndOn := rfl
  have hstart {i : Instr} {op : Nat} {f : State → Cmd → State} {u : State} := next_starts_of (i := i) (op := op) (f := f) (u := u) h hst hm
  refine ⟨fun ho => hstart ho rfl rfl, fun ho => hstart ho rfl rfl, fun ho hr => hstart ho rfl (recordStart_refused hr),
    fun ho hr hd hs => ⟨_, hstart ho rfl (recordStart_reads hr hd hs), rfl⟩,
    fun ho hr hd hs => hstart ho rfl (recordStart_mounts hr hd hs), fun ho hl => hstart ho rfl (if_pos (by rw [hon, hl]; rfl)),
    fun ho hl hb => ?_, fun ho hl hb => ?_, fun ho => hstart ho rfl rfl, fun ho => hstart ho rfl rfl, ?_,
    fun ho => hstart ho rfl rfl⟩
  · exact hstart ho rfl ((if_neg (by rw [hon, hl]; exact Bool.false_ne_true)).trans (if_pos hb))
  · exact hstart ho rfl ((if_neg (by rw [hon, hl]; exact Bool.false_ne_true)).trans
      (if_neg (Bool.eq_false_iff.1 hb)))
  · intro ho hw hr hf hwait hb hfail hn
    have hcov : (s.setCmd c.runs).covered c.runs = [] := covered_none hw
    have hfound : ((s.setCmd c.runs).setCmd { c.runs with lines := [] }).cmd c.id = some { c.runs with lines := [] } :=
      cmd_setCmd (d := { c.runs with lines := [] }) (cmd_setCmd (d := c.runs) h)
    have hout := outcome_flush (c := { c.runs with lines := [] }) ho hfail hn
    refine (hstart (u := ((s.setCmd c.runs).setCmd { c.runs with lines := [] }).finish { c.runs with lines := [] } stSuccess 0) ho rfl
      ?_).trans (congrArg Host.Outcome.next (finish_settle _ _ _ hr hf))
    have hdone := ifDone_done (c := { c.runs with lines := [] }) hfound rfl hb rfl hwait
    rw [hout] at hdone
    simp only [hcov]
    exact hdone

end Sys2Proof.Machine
end

section
/-! The commands of queue pairs, sessions, ranges and the scale book (R371, R400, R401, R403, R423, R426, R466–R469, R480–R482). -/
namespace Sys2Proof.Machine

section
variable {s : State} {c : Cmd}

/-! ## Queue pairs -/

theorem newQueue_eq : c.newQueue =
    { func := c.func, qid := c.word 7 % 1024, depth := c.count, sqBase := 2 ^ 32 * c.word 9 + c.word 8
      cqBase := 2 ^ 32 * c.word 11 + c.word 10, cls := bitsOf (c.word 7) 17 16, vector := bitsOf (c.word 12) 10 0
      ien := bitOf (c.word 12) 16 } := by
  have hqid : bitsOf (c.word 7) 9 0 = c.word 7 % 1024 := by simp only [bitsOf, pow_zero, Nat.div_one]; rfl
  rw [← hqid]
  rfl


theorem resetStart_absent (h : s.queue c.func (c.word 7) = none
    ∨ ∃ y, s.queue c.func (c.word 7) = some y ∧ y.st = .resetting) : s.resetStart c = s.finish c stNotPermitted 0 := by
  obtain h | ⟨y, h, hy⟩ := h
  · simp only [State.resetStart, h]
  · simp only [State.resetStart, h, hy, if_true]

theorem resetStart_halting {y : Queue} (h : s.queue c.func (c.word 7) = some y) (hy : y.st = .halting) :
    s.resetStart c = s.setCmd { c with wait := .cut } := by
  simp only [State.resetStart, h, hy, reduceCtorEq, if_false, if_true]

theorem resetStart_cuts {y : Queue} (h : s.queue c.func (c.word 7) = some y) (hy : y.st = .active ∨ y.st = .halted) :
    s.resetStart c = ((s.setCmd { c with wait := .engine }).startCut c.func (c.word 7)
      (if c.opcode = 0x81 then .delete c.id else .reset c.id)).cutsReady := by
  rcases hy with hy | hy <;> simp only [State.resetStart, h, hy, reduceCtorEq, if_false]

/-! ## SESSION OPEN -/

theorem openStart_early (h : s.vlk.timeSet = false) (ho : c.opens = none) : s.openStart c =
    ((s.bump (hubAt .vlk) F.VLK_CNT0_OPEN_FAILS).finish c stNotPermitted (7 * 2 ^ 24)).dropRead c.id := by
  simp only [State.openStart, h, Bool.not_false, if_true, State.openFail, ho]

theorem openStart_reads (h : s.vlk.timeSet = true) : s.openStart c =
    (s.setCmd { c with wait := .host 0 }).hostRead c.func c.buffer 512 true (.cmd c.id) := by
  simp only [State.openStart, h, Bool.not_true, Bool.false_eq_true, if_false]

/-! ## Ranges -/

theorem commandRange_waits {o : RangeOp} (h : s.lnd.range ≠ none) :
    s.commandRange o = { s with lnd := { s.lnd with queue := s.lnd.queue ++ [o] } } := if_pos (Option.isSome_iff_ne_none.2 h)

theorem commandRange_starts {o : RangeOp} (h : s.lnd.range = none) : s.commandRange o = s.startRange o := if_neg (by simp [h])

theorem rangeCommand_refused {o : RangeOp} (h : c.rangeOp = some o) (hk : o.kind = .preload ∨ o.kind = .preloadLock)
    (hl : s.lndOn = false) : s.rangeCommand c = s.finish c stNotPermitted 0 := by
  simp only [State.rangeCommand, h]
  exact if_pos ⟨hk, by rw [hl]; rfl⟩

theorem rangeCommand_runs {o : RangeOp} (h : c.rangeOp = some o)
    (hk : s.lndOn = true ∨ (o.kind ≠ .preload ∧ o.kind ≠ .preloadLock)) :
    s.rangeCommand c = (s.setCmd { c with wait := .engine }).commandRange o := by
  simp only [State.rangeCommand, h]
  refine if_neg fun h' => ?_
  obtain hk | ⟨h1, h2⟩ := hk
  · rw [hk] at h'
    exact Bool.false_ne_true h'.2
  · exact h'.1.elim h1 h2

theorem rangeOp_scrub (h : c.opcode = 0x9A) : c.rangeOp = some
    { kind := .scrub, slot := c.address / 2 ^ 32, slots := bitsOf (c.word 7) 12 0, lba := c.address % 2 ^ 32, count := c.count
      cls := c.cls, force := c.opcode == 0x9B && bitOf (c.word 7) 19, cmd := some c.id } := by
  simp only [Cmd.rangeOp, if_pos h, Option.map_some]

theorem rangeOp_landing {k : RangeKind} (h : c.opcode = 0x9B) (hk : RangeKind.ofCode (bitsOf (c.word 7) 18 16) = some k) :
    c.rangeOp = some
      { kind := k, slot := c.address / 2 ^ 32, slots := bitsOf (c.word 7) 12 0, lba := c.address % 2 ^ 32, count := c.count
        cls := c.cls, force := c.opcode == 0x9B && bitOf (c.word 7) 19, cmd := some c.id } := by
  simp only [Cmd.rangeOp, if_neg (show ¬c.opcode = 0x9A by rw [h]; decide), hk, Option.map_some]

end

/-! ## Decks -/

theorem deckSlots_length (first last : Nat) : (deckSlots first last).length = 256 * (last + 1 - first) := by
  simp only [deckSlots, List.length_map, List.length_range]

theorem mem_deckSlots {first last n : Nat} : n ∈ deckSlots first last ↔ 256 * first ≤ n ∧ n < 256 * (last + 1) := by
  simp only [deckSlots, List.mem_map, List.mem_range]
  constructor
  · rintro ⟨i, hi, rfl⟩
    omega
  · rintro ⟨h1, h2⟩
    exact ⟨n - 256 * first, by omega, by omega⟩

section
variable {s : State} {id : Nat} {c : Cmd} (h : s.cmd id = some c)
include h

theorem exec_scaleBookStale_hint (hb : bitOf (c.word 7) 0 = true) : exec (.scaleBookStale id) s = .next s := by
  show execScaleBookStale id s = _
  simp only [execScaleBookStale, h, hb, if_true]

theorem exec_scaleBookHint_stale (hb : bitOf (c.word 7) 0 = false) : exec (.scaleBookHint id) s = .next s := by
  show execScaleBookHint id s = _
  simp only [execScaleBookHint, h, hb, Bool.not_false, if_true]

/-- What a STALE does to the book. -/
def staleRow (s : State) (c : Cmd) : State :=
  ((deckSlots (c.word 8 % 16) (c.word 8 / 16)).foldl State.staleSlot s).finish c stSuccess
    (deckSlots (c.word 8 % 16) (c.word 8 / 16)).length

/-- What a HINT does to the book. -/
def hintRow (s : State) (c : Cmd) : State :=
  let h := s.vlk.hints ++ [{ title := c.word 5, offset := c.word 4, count := c.count, slot := c.word 8 }]
  ({ s with vlk := { s.vlk with hints := h.drop (h.length - 4096) } } : State).finish c stSuccess 0

theorem exec_scaleBookStale (hb : bitOf (c.word 7) 0 = false) : exec (.scaleBookStale id) s = .next (s.starts id 0x9C staleRow) := by
  show execScaleBookStale id s = _
  simp only [execScaleBookStale, h, hb, Bool.false_eq_true, if_false]
  rfl

theorem exec_scaleBookHint (hb : bitOf (c.word 7) 0 = true) : exec (.scaleBookHint id) s = .next (s.starts id 0x9C hintRow) := by
  show execScaleBookHint id s = _
  simp only [execScaleBookHint, h, hb, Bool.not_true, Bool.false_eq_true, if_false]
  rfl

end

/-- Settles O48: the rows' operations by their cases; what a command finds does not change by its own start. -/
theorem queueAndBookCommands : Obligations.QueueAndBookCommands := by
  refine ⟨fun id c s h hst hm => ?_, fun id c s h => ⟨⟨fun hw => ?_, fun i j hw => ?_⟩, fun hst hm => ?_⟩⟩
  · obtain rfl : c.id = id := by simpa using List.find?_some h
    have hstart {i : Instr} {op : Nat} {f : State → Cmd → State} {u : State} :=
      next_starts_of (i := i) (op := op) (f := f) (u := u) h hst hm
    have hqueue := newQueue_eq (c := c.runs)
    dsimp only
    refine ⟨fun ho hq => hstart ho rfl ?_, fun ho hq => hstart ho rfl ?_, ?_,
      fun ho ht hopens => hstart ho rfl (openStart_early ht hopens), fun ho ht => hstart ho rfl (openStart_reads ht),
      fun ho => hstart ho rfl rfl⟩
    · dsimp only
      rw [hqueue]
      exact if_pos (Option.isSome_iff_ne_none.2 hq)
    · dsimp only
      rw [hqueue]
      exact if_neg (fun h' => Option.isSome_iff_ne_none.1 h' hq)
    · intro r hr ho
      have hcut : (if c.opcode = 0x81 then CutKind.delete c.id else .reset c.id) = r.2.2
          ∧ exec r.1 s = .next (s.starts c.id r.2.1 State.resetStart) := by
        obtain rfl | rfl : r = _ ∨ r = _ := by simpa using hr
        · exact ⟨if_pos ho, rfl⟩
        · exact ⟨if_neg fun h' => absurd (h'.symm.trans ho) (show ¬(0x81 = 0x82) by decide), rfl⟩
      refine ⟨fun hq => hstart ho hcut.2 (resetStart_absent hq), fun y hq hy => hstart ho hcut.2 (resetStart_halting hq hy),
        fun y hq hy => hstart ho hcut.2 ?_⟩
      rw [← hcut.1]
      exact resetStart_cuts hq hy
  · show execRegDataTimeout id s = _
    simp only [execRegDataTimeout, h]
  · show execRegDataTimeout id s = _
    simp only [execRegDataTimeout, h, hw]
  · obtain rfl : c.id = id := by simpa using List.find?_some h
    have hstart {i : Instr} {op : Nat} {f : State → Cmd → State} {u : State} :=
      next_starts_of (i := i) (op := op) (f := f) (u := u) h hst hm
    dsimp only
    refine ⟨fun ho hr => hstart ho rfl ?_, fun ho hr => hstart ho rfl ?_, fun k ho hk => ⟨fun hl hpre => ?_, fun hrun => ⟨?_, ?_⟩⟩,
      fun ho hb => ⟨?_, ?_⟩, fun ho hb => ⟨?_, deckSlots_length _ _, fun n => mem_deckSlots, ?_⟩⟩
    · exact (rangeCommand_runs (s := s.setCmd c.runs) (c := c.runs) (rangeOp_scrub ho) (.inr ⟨RangeKind.noConfusion, RangeKind.noConfusion⟩)).trans (commandRange_waits hr)
    · exact (rangeCommand_runs (s := s.setCmd c.runs) (c := c.runs) (rangeOp_scrub ho) (.inr ⟨RangeKind.noConfusion, RangeKind.noConfusion⟩)).trans (commandRange_starts hr)
    · exact hstart ho rfl (rangeCommand_refused (c := c.runs) (rangeOp_landing ho hk) hpre hl)
    · exact fun hr => hstart ho rfl ((rangeCommand_runs (s := s.setCmd c.runs) (c := c.runs) (rangeOp_landing ho hk) hrun).trans (commandRange_waits hr))
    · exact fun hr => hstart ho rfl ((rangeCommand_runs (s := s.setCmd c.runs) (c := c.runs) (rangeOp_landing ho hk) hrun).trans (commandRange_starts hr))
    · exact exec_scaleBookStale_hint h hb
    · refine hstart ho (exec_scaleBookHint h hb) ?_
      simp only [hintRow, List.length_append, List.length_singleton, Nat.reduceSubDiff]
      rfl
    · exact exec_scaleBookHint_stale h hb
    · refine hstart ho (exec_scaleBookStale h hb) ?_
      rw [← deckSlots_length]
      rfl

end Sys2Proof.Machine
end

section
/-! The commands of discs and bays (R340, R470–R474). -/
namespace Sys2Proof.Machine

section
variable {s : State} {c : Cmd}

/-! ## MOUNT -/

theorem mountStart_mounted (h : s.slotMounted (c.address / 2 ^ 32) = true) : s.mountStart c = s.mountDone c stSuccess := if_pos h

theorem mountStart_busy (h : s.slotMounted (c.address / 2 ^ 32) = false) (hany : bitOf (c.word 7) 4 = false) {d : BayDisc}
    (hd : (s.crew.bays[c.bay]).disc = some d) (hslot : d.slot ≠ c.address / 2 ^ 32)
    (hb : s.bayRecording c.bay = true ∨ s.genPending c.bay = true) :
    s.mountStart c = s.finish c stNotPermitted 0 := by
  have hbusy : (s.bayRecording c.bay || s.genPending c.bay) = true := by
    rcases hb with hb | hb <;> rw [hb]
    · exact Bool.true_or _
    · exact Bool.or_true _
  unfold State.mountStart
  unfold Cmd.bay at hd hbusy
  dsimp only
  rw [if_neg (Bool.eq_false_iff.1 h), hany]
  simp only [Bool.false_eq_true, if_false, hd, bne_iff_ne.2 hslot, Bool.true_and, hbusy, if_true]

theorem mountStart_waits (h : s.slotMounted (c.address / 2 ^ 32) = false) (hb : bitOf (c.word 7) 4 = true
      ∨ (s.bayRecording c.bay = false ∧ s.genPending c.bay = false)) :
    s.mountStart c = (s.setCmd { c with wait := .mount }).wantMount (c.address / 2 ^ 32)
      (if bitOf (c.word 7) 4 then none else some c.bay) c.cls c.func c.qid (.cmd c.id) := by
  unfold State.mountStart
  unfold Cmd.bay at hb ⊢
  dsimp only
  rw [if_neg (Bool.eq_false_iff.1 h)]
  cases hany : bitOf (c.word 7) 4
  · rw [hany] at hb
    obtain ⟨h1, h2⟩ := hb.resolve_left Bool.false_ne_true
    simp only [Bool.false_eq_true, if_false, h1, h2, Bool.or_self, Bool.and_false]
  · simp only [if_true, Bool.false_eq_true, if_false]

/-! ## UNMOUNT -/

theorem unmountStart_empty (h : (s.crew.bays[c.bay]).disc = none) :
    s.unmountStart c = s.finish c stNotPermitted 0 := by
  unfold Cmd.bay at h
  simp only [State.unmountStart, h]

section
variable (h : s.crew.bays[c.bay].disc ≠ none) (hc : s.code.changer = true)
include h hc

theorem unmountStart_blocked {st : Nat} (hb : s.dieBlocked (dieOfBay c.bay) = some st) :
    s.unmountStart c = s.finish c st 0xFFFF := by
  obtain ⟨d, hd⟩ := Option.ne_none_iff_exists'.1 h
  unfold Cmd.bay at hd hb
  simp only [State.unmountStart, hd, hc, hb, Bool.not_true, Bool.false_eq_true, false_and, if_false]

theorem unmountStart_waits (hb : s.dieBlocked (dieOfBay c.bay) = none) : s.unmountStart c =
    (s.setCmd { c with wait := .unmount c.bay }).setHubBay c.bay
      { s.crew.bays[c.bay] with unmountCmds := s.crew.bays[c.bay].unmountCmds ++ [c.id] } := by
  obtain ⟨d, hd⟩ := Option.ne_none_iff_exists'.1 h
  unfold Cmd.bay at hd hb ⊢
  simp only [State.unmountStart, hd, hc, hb, Bool.not_true, Bool.false_eq_true, false_and, if_false]

end

/-! ## MOVE DISC -/

/-- A place of a MOVE DISC has lines to record. -/
def State.moveDirty (s : State) (src dst : Nat) : Prop :=
  (src < 4096 ∧ s.slotDirty src = true) ∨ (dst < 4096 ∧ s.slotDirty dst = true)

/-- The destination of a MOVE DISC is not free. -/
def State.moveTaken (s : State) (dst : Nat) : Prop := dst ∈ s.yrd.occupied ∨ (dst < 4096 ∧ s.bayOfSlot dst ≠ none)

variable {src dst : Nat} (hsrc : bitsOf (c.word 7) 12 0 = src) (hdst : bitsOf (c.word 8) 12 0 = dst)

include hsrc hdst in
theorem moveDiscStart_refused (h : s.moveDirty src dst ∨ s.moveTaken dst) : s.moveDiscStart c = s.finish c stNotPermitted 0 := by
  subst hsrc hdst
  unfold State.moveDiscStart
  dsimp only
  by_cases hd : s.moveDirty (bitsOf (c.word 7) 12 0) (bitsOf (c.word 8) 12 0)
  · exact if_pos (by simpa [State.moveDirty] using hd)
  · refine (if_neg (by simpa [State.moveDirty] using hd)).trans (if_pos ?_)
    obtain h | ⟨h1, h2⟩ := h.resolve_left hd
    · exact .inl (List.contains_iff_mem.2 h)
    · exact .inr (by rw [if_pos h1]; exact Option.isSome_iff_ne_none.2 h2)

include hsrc hdst in
theorem moveDiscStart_goes (h1 : ¬s.moveDirty src dst) (h2 : ¬s.moveTaken dst) : s.moveDiscStart c =
    match if src < 4096 then s.bayOfSlot src else none with
    | some b => (s.setCmd { c with wait := .unmount b }).setHubBay b
        { s.crew.bays[b] with unmountCmds := s.crew.bays[b].unmountCmds ++ [c.id] }
    | none => if s.yrd.occupied.contains src then s.moveGo c else s.finish c stSlotEmpty 0 := by
  subst hsrc hdst
  unfold State.moveDiscStart
  dsimp only
  refine (if_neg (by simpa [State.moveDirty] using h1)).trans (if_neg fun h => ?_)
  obtain h | h := h
  · exact h2 (.inl (List.contains_iff_mem.1 h))
  · by_cases hlt : bitsOf (c.word 8) 12 0 < 4096
    · rw [if_pos hlt] at h
      exact h2 (.inr ⟨hlt, Option.isSome_iff_ne_none.1 h⟩)
    · rw [if_neg hlt] at h
      exact Bool.false_ne_true h

include hsrc hdst in
theorem moveDiscStart_seated (h1 : ¬s.moveDirty src dst) (h2 : ¬s.moveTaken dst) (hlt : src < 4096) {b : Bay}
    (hb : s.bayOfSlot src = some b) : s.moveDiscStart c = (s.setCmd { c with wait := .unmount b }).setHubBay b
      { s.crew.bays[b] with unmountCmds := s.crew.bays[b].unmountCmds ++ [c.id] } := by
  rw [moveDiscStart_goes hsrc hdst h1 h2, if_pos hlt, hb]

include hsrc hdst in
theorem moveDiscStart_stored (h1 : ¬s.moveDirty src dst) (h2 : ¬s.moveTaken dst) (hb : s.bayOfSlot src = none) :
    s.moveDiscStart c = if s.yrd.occupied.contains src then s.moveGo c else s.finish c stSlotEmpty 0 := by
  rw [moveDiscStart_goes hsrc hdst h1 h2, hb, ite_self]

end

/-! ## CRUISE NOW -/

/-- What a CRUISE NOW that starts does. -/
def cruiseRow (s : State) (c : Cmd) : State :=
  match s.dieBlocked (dieOfBay c.bay) with
  | some st => s.finish c st 0
  | none =>
    let mounted : Bool := match s.crew.bays[c.bay].disc with | some x => x.mounted | none => false
    if !mounted || !s.has (bayAt .cru c.bay) F.CRU_CTL_ENABLE then s.finish c stNotPermitted 0
    else ((s.setCmd { c with wait := .cruise c.bay }).sendWork (dieOfBay c.bay) 7 c.cls (bayInDie c.bay) c.func c.qid []
      (.cruise c.id)).1

section
variable {s : State} {c : Cmd}

theorem cruiseRow_blocked {st : Nat} (h : s.dieBlocked (dieOfBay c.bay) = some st) : cruiseRow s c = s.finish c st 0 := by
  simp only [cruiseRow, h]

theorem cruiseRow_refused (h : s.dieBlocked (dieOfBay c.bay) = none) (hm : (∀ d, s.crew.bays[c.bay].disc = some d → d.mounted = false)
    ∨ s.has (bayAt .cru c.bay) F.CRU_CTL_ENABLE = false) : cruiseRow s c = s.finish c stNotPermitted 0 := by
  simp only [cruiseRow, h]
  refine if_pos ?_
  obtain hm | hm := hm
  · cases hd : s.crew.bays[c.bay].disc with
    | none => rfl
    | some d =>
      dsimp only
      rw [hm d hd]
      rfl
  · rw [hm]
    exact Bool.or_true _

theorem cruiseRow_sends {d : BayDisc} (h : s.dieBlocked (dieOfBay c.bay) = none) (hd : s.crew.bays[c.bay].disc = some d)
    (hm : d.mounted = true) (he : s.has (bayAt .cru c.bay) F.CRU_CTL_ENABLE = true) : cruiseRow s c =
    ((s.setCmd { c with wait := .cruise c.bay }).sendWork (dieOfBay c.bay) 7 c.cls (bayInDie c.bay) c.func c.qid []
      (.cruise c.id)).1 := by
  simp only [cruiseRow, h, hd, hm, he, Bool.not_true, Bool.or_self, Bool.false_eq_true, if_false]

end

theorem length_leBytes (k n : Nat) : (leBytes k n).length = k := by
  induction k generalizing n with
  | zero => rfl
  | succ k ih => exact congrArg (· + 1) (ih (n / 256))

theorem length_bayRecord (s : State) (b : Bay) : (s.bayRecord b).length = 64 := by
  simp only [State.bayRecord, List.length_append, length_leBytes, List.length_replicate]

/-- Settles O49: each command by what it finds of its bay, its die and its slots. -/
theorem discCommands : Obligations.DiscCommands := by
  intro id c s h hst hm
  obtain rfl : c.id = id := by simpa using List.find?_some h
  have hstart {i : Instr} {op : Nat} {f : State → Cmd → State} {u : State} :=
    next_starts_of (i := i) (op := op) (f := f) (u := u) h hst hm
  dsimp only
  refine ⟨fun ho hs => hstart ho rfl (mountStart_mounted hs), fun ho hs ha hd hb => ?_,
    fun ho hs hb => hstart ho rfl (mountStart_waits (c := c.runs) hs hb), fun ho hd => hstart ho rfl (unmountStart_empty hd),
    fun ho hd hc hb => ?_, fun st ho hd hc hb => ?_, fun ho h' => hstart ho rfl (moveDiscStart_refused rfl rfl h'),
    fun ho h1 h2 hlt y hy => hstart ho rfl (moveDiscStart_seated (s := s.setCmd c.runs) (c := c.runs) rfl rfl h1 h2 hlt hy), fun ho h1 h2 hb hn => ?_,
    fun ho h1 h2 hb hn => ?_, fun st ho hb => hstart ho rfl (cruiseRow_blocked hb),
    fun ho hb hd => hstart ho rfl (cruiseRow_refused hb hd),
    fun d ho hb hd hm' he => hstart ho rfl (cruiseRow_sends hb hd hm' he), fun ho => ⟨length_bayRecord _ _, hstart ho rfl rfl⟩⟩
  · obtain ⟨d, hd, hslot⟩ := hd
    exact hstart ho rfl (mountStart_busy hs ha hd hslot hb)
  · exact hstart ho rfl (unmountStart_waits (s := s.setCmd c.runs) (c := c.runs) hd hc hb)
  · exact hstart ho rfl (unmountStart_blocked (s := s.setCmd c.runs) (c := c.runs) hd hc hb)
  · refine hstart ho rfl ((moveDiscStart_stored (s := s.setCmd c.runs) (c := c.runs) rfl rfl h1 h2 hb).trans (if_neg ?_))
    exact fun h' => hn (List.contains_iff_mem.1 h')
  · exact hstart ho rfl ((moveDiscStart_stored (s := s.setCmd c.runs) (c := c.runs) rfl rfl h1 h2 hb).trans
      (if_pos (List.contains_iff_mem.2 hn)))

end Sys2Proof.Machine
end

section
/-! The commands of bundles, pages, features, registers and time (R475–R479, R482, R483, R486). -/
namespace Sys2Proof.Machine

/-! ## Rows -/

/-- What a BUNDLE DOWNLOAD that starts does. -/
def downloadRow (s : State) (c : Cmd) : State :=
  match s.chunkRefused c with
  | some st => s.finish c st 0
  | none =>
    let s := if c.word 7 = 0 then s.setBank s.altBank { st := .partly } else s
    (s.setCmd { c with wait := .host 0 }).hostRead c.func c.buffer (4096 * c.count) true (.cmd c.id)

/-- The schedule that a SCHEDULE ACTIVATION asks for. -/
def Cmd.schedule (c : Cmd) : Schedule :=
  { time := c.wide 8, noFlush := bitOf (c.word 7) 0, confirm := bitOf (c.word 7) 1
    window := if c.word 10 = 0 then 600 else c.word 10 }

/-- What a SCHEDULE ACTIVATION that starts does. -/
def scheduleRow (s : State) (c : Cmd) : State :=
  if c.schedule.time < s.now + 1000000 then s.finish c stTimePassed 0
  else if !s.vlk.timeSet ∨ !s.altLoaded ∨ s.fwu.sched.isSome ∨ s.fwu.run = .trial then s.finish c stNotPermitted 0
  else ({ s with fwu := { s.fwu with sched := some c.schedule } } : State).finish c stSuccess 0

/-- What a CANCEL ACTIVATION that starts does. -/
def cancelRow (s : State) (c : Cmd) : State :=
  if s.fwu.sched.isNone then s.finish c stNotPermitted 0
  else ({ s with fwu := { s.fwu with sched := none } } : State).finish c stSuccess 0

/-- What a CONFIRM HEALTH that starts does. -/
def healthRow (s : State) (c : Cmd) : State :=
  if s.fwu.run ≠ .trial ∨ !s.journal.confirm then s.finish c stNotPermitted 0
  else
    let s := ({ s with fwu := { s.fwu with hostAsked := true } } : State).setCmd { c with wait := .health }
    if s.fwu.tested then s.confirmSet else s

/-- The part of a page that a GET LOG PAGE asks for, filled up with zeros. -/
def Cmd.pagePart (c : Cmd) (page : Bytes) : Bytes :=
  let part := (page.drop (c.word 8)).take c.count
  part ++ List.replicate (c.count - part.length) 0

/-- What a SET TIME that starts does. -/
def timeRow (s : State) (c : Cmd) : State :=
  let s := { s with pwr := { s.pwr with now := c.wide 8, keeper := c.wide 8, frac := 0 }, vlk := { s.vlk with timeSet := true } }
  (s.seeTime.irq 162).finish c stSuccess 0

theorem exec_scheduleActivation (s : State) (id : Nat) : exec (.scheduleActivation id) s = .next (s.starts id 0x91 scheduleRow) := rfl
theorem exec_cancelActivation (s : State) (id : Nat) : exec (.cancelActivation id) s = .next (s.starts id 0x92 cancelRow) := rfl
theorem exec_confirmHealth (s : State) (id : Nat) : exec (.confirmHealth id) s = .next (s.starts id 0x93 healthRow) := rfl
theorem exec_setTime (s : State) (id : Nat) : exec (.setTime id) s = .next (s.starts id 0x9D timeRow) := rfl

theorem length_pagePart (c : Cmd) (page : Bytes) : (c.pagePart page).length = c.count := by
  simp only [Cmd.pagePart, List.length_append, List.length_replicate, List.length_take, List.length_drop]
  omega

section
variable {s : State}

/-! ## BUNDLE DOWNLOAD -/

/-- A chunk waits behind one that was fetched before it. -/
theorem exec_bundleDownload_later {id : Nat} (h : ¬∀ y ∈ s.qen.cmds, y.opcode = 0x90 → id ≤ y.id) :
    exec (.bundleDownload id) s = .next s := by
  refine if_pos (List.any_eq_true.2 ?_)
  simp only [not_forall, not_le] at h
  obtain ⟨y, hy, ho, hlt⟩ := h
  exact ⟨y, hy, by rw [ho]; simpa using hlt⟩

theorem exec_bundleDownload_first {id : Nat} (h : ∀ y ∈ s.qen.cmds, y.opcode = 0x90 → id ≤ y.id) :
    exec (.bundleDownload id) s = .next (s.starts id 0x90 downloadRow) := by
  refine if_neg fun h' => ?_
  obtain ⟨y, hy, h'⟩ := List.any_eq_true.1 h'
  simp only [Bool.and_eq_true, beq_iff_eq, decide_eq_true_eq] at h'
  exact absurd h'.2 (Nat.not_lt_of_le (h y hy h'.1))

variable {c : Cmd}

theorem downloadRow_refused {st : Nat} (h : s.chunkRefused c = some st) : downloadRow s c = s.finish c st 0 := by
  simp only [downloadRow, h]

theorem downloadRow_first (h : s.fwu.sched = none) (hw : c.word 7 = 0) : downloadRow s c =
    ((s.setBank s.altBank { st := .partly }).setCmd { c with wait := .host 0 }).hostRead c.func c.buffer (4096 * c.count) true
      (.cmd c.id) := by
  have hok : s.chunkRefused c = none := by
    simp only [State.chunkRefused, h, hw, Option.isSome_none, Bool.false_eq_true, if_false, if_true]
  simp only [downloadRow, hok, hw, if_true]

theorem downloadRow_next (h : s.fwu.sched = none) (hw : c.word 7 ≠ 0) (hst : (s.fwu.banks[s.altBank]).st ≠ .loaded)
    (hu : c.word 7 = (s.fwu.banks[s.altBank]).units) (hn : c.word 7 + c.count ≤ 15360) : downloadRow s c =
    (s.setCmd { c with wait := .host 0 }).hostRead c.func c.buffer (4096 * c.count) true (.cmd c.id) := by
  have hok : s.chunkRefused c = none := by
    unfold State.chunkRefused
    dsimp only
    rw [h, Option.isSome_none, if_neg Bool.false_ne_true, if_neg hw, if_neg hst, if_neg]
    rintro (h' | h')
    · exact h' hu
    · omega
  simp only [downloadRow, hok, if_neg hw]

theorem chunkRefused_loaded (h : s.fwu.sched = none) (hw : c.word 7 ≠ 0) (hst : (s.fwu.banks[s.altBank]).st = .loaded) :
    s.chunkRefused c = some stNotPermitted := by
  unfold State.chunkRefused
  dsimp only
  rw [h, Option.isSome_none, if_neg Bool.false_ne_true, if_neg hw, if_pos hst]

theorem chunkRefused_apart (h : s.fwu.sched = none) (hw : c.word 7 ≠ 0) (hst : (s.fwu.banks[s.altBank]).st ≠ .loaded)
    (hu : c.word 7 ≠ (s.fwu.banks[s.altBank]).units ∨ 15360 < c.word 7 + c.count) : s.chunkRefused c = some stInvalidField := by
  unfold State.chunkRefused
  dsimp only
  rw [h, Option.isSome_none, if_neg Bool.false_ne_true, if_neg hw, if_neg hst, if_pos hu]

/-! ## Activations -/

theorem scheduleRow_refused (h : s.now + 1000000 ≤ c.schedule.time)
    (hno : s.vlk.timeSet = false ∨ s.altLoaded = false ∨ s.fwu.sched ≠ none ∨ s.fwu.run = .trial) :
    scheduleRow s c = s.finish c stNotPermitted 0 := by
  refine (if_neg (Nat.not_lt_of_le h)).trans (if_pos ?_)
  simpa [Option.isSome_iff_ne_none] using hno

theorem scheduleRow_taken (h : s.now + 1000000 ≤ c.schedule.time) (h1 : s.vlk.timeSet = true) (h2 : s.altLoaded = true)
    (h3 : s.fwu.sched = none) (h4 : s.fwu.run ≠ .trial) :
    scheduleRow s c = ({ s with fwu := { s.fwu with sched := some c.schedule } } : State).finish c stSuccess 0 :=
  (if_neg (Nat.not_lt_of_le h)).trans (if_neg (by simp [h1, h2, h3, h4]))

theorem healthRow_refused (h : s.fwu.run ≠ .trial ∨ s.journal.confirm = false) : healthRow s c = s.finish c stNotPermitted 0 :=
  if_pos (by simpa using h)

theorem healthRow_waits (h1 : s.fwu.run = .trial) (h2 : s.journal.confirm = true) : healthRow s c =
    let u := ({ s with fwu := { s.fwu with hostAsked := true } } : State).setCmd { c with wait := .health }
    if s.fwu.tested then u.confirmSet else u := if_neg (by simp [h1, h2])

end

/-! ## Features and time -/

theorem fid_eq (c : Cmd) : c.fid = c.word 7 % 256 := by
  simp only [Cmd.fid, bitsOf, pow_zero, Nat.div_one]
  rfl

theorem target_eq (c : Cmd) : c.target = if c.word 7 % 256 ≤ 3 then bitsOf (c.word 7) 21 16 else 0 := by
  rw [Cmd.target, fid_eq]

/-- What a SET FEATURE that starts does. -/
def featureRow (s : State) (c : Cmd) : State :=
  match s.featureRefused c.fid c.target (c.word 8) with
  | some st => s.finish c st 0
  | none => ((s.setFeature c.fid c.target (c.word 8)).saveFeature c.fid c.target (c.word 8)).finish c stSuccess 0

theorem exec_setFeature (s : State) (id : Nat) : exec (.setFeature id) s = .next (s.starts id 0x95 featureRow) := rfl

theorem featureRow_refused {s : State} {c : Cmd} {st : Nat} (h : s.featureRefused c.fid c.target (c.word 8) = some st) :
    featureRow s c = s.finish c st 0 := by
  simp only [featureRow, h]

theorem featureRow_taken {s : State} {c : Cmd} (h : s.featureRefused c.fid c.target (c.word 8) = none) : featureRow s c =
    ((s.setFeature c.fid c.target (c.word 8)).saveFeature c.fid c.target (c.word 8)).finish c stSuccess 0 := by
  simp only [featureRow, h]

/-- A source whose sense is 2 takes a pulse as one event. -/
theorem irq_edge {s : State} {n : Nat} (h : s.hicSense n = 2) : s.irq n = s.hicEdge n := if_pos (.inl h)

/-- Settles O50: each command by its row, and the row by what it asks of the state. -/
theorem deviceCommands : Obligations.DeviceCommands := by
  intro id c s h hst hm
  obtain rfl : c.id = id := by simpa using List.find?_some h
  have hstart {i : Instr} {op : Nat} {f : State → Cmd → State} {u : State} :=
    next_starts_of (i := i) (op := op) (f := f) (u := u) h hst hm
  have hfid := fid_eq c.runs
  have htgt := target_eq c.runs
  dsimp only
  refine ⟨fun ho hf => exec_bundleDownload_later hf, fun ho hf hs => ?_, fun ho hf hs hw => ?_, fun ho hf hs hw => ⟨?_, ?_, ?_⟩,
    fun ho ht => ?_, fun ho ht => ⟨?_, ?_⟩, fun ho hs => ?_, fun ho hs => ?_, fun ho hr => ?_, fun ho h1 h2 => ⟨?_, ?_⟩,
    fun ho => ⟨length_pagePart _ _, hstart ho rfl rfl⟩, fun st ho hf => ?_, fun ho hf => ?_, fun ho => ?_, fun ho => hstart ho rfl rfl, fun ho hb => ?_, fun ho hb => ?_,
    fun ho hs => ?_⟩
  · refine hstart ho (exec_bundleDownload_first hf) (downloadRow_refused ?_)
    exact if_pos (Option.isSome_iff_ne_none.2 hs)
  · exact hstart ho (exec_bundleDownload_first hf) (downloadRow_first (s := s.setCmd c.runs) (c := c.runs) hs hw)
  · exact fun hl => hstart ho (exec_bundleDownload_first hf) (downloadRow_refused (chunkRefused_loaded (s := s.setCmd c.runs) (c := c.runs) hs hw hl))
  · exact fun hl hu => hstart ho (exec_bundleDownload_first hf)
      (downloadRow_refused (chunkRefused_apart (s := s.setCmd c.runs) (c := c.runs) hs hw hl hu))
  · exact fun hl hu hn => hstart ho (exec_bundleDownload_first hf) (downloadRow_next (s := s.setCmd c.runs) (c := c.runs) hs hw hl hu hn)
  · exact hstart ho (exec_scheduleActivation s _) (if_pos ht)
  · exact fun hno => hstart ho (exec_scheduleActivation s _) (scheduleRow_refused (s := s.setCmd c.runs) (c := c.runs) ht hno)
  · exact fun h1 h2 h3 h4 => hstart ho (exec_scheduleActivation s _)
      (scheduleRow_taken (s := s.setCmd c.runs) (c := c.runs) ht h1 h2 h3 h4)
  · exact hstart ho (exec_cancelActivation s _) (if_pos (Option.isNone_iff_eq_none.2 hs))
  · exact hstart ho (exec_cancelActivation s _) (if_neg fun h' => hs (Option.isNone_iff_eq_none.1 h'))
  · exact hstart ho (exec_confirmHealth s _) (healthRow_refused (s := s.setCmd c.runs) (c := c.runs) hr)
  · exact fun ht => hstart ho (exec_confirmHealth s _)
      ((healthRow_waits (s := s.setCmd c.runs) (c := c.runs) h1 h2).trans (if_neg (Bool.eq_false_iff.1 ht)))
  · exact fun ht => hstart ho (exec_confirmHealth s _) ((healthRow_waits (s := s.setCmd c.runs) (c := c.runs) h1 h2).trans (if_pos ht))
  · refine hstart ho (exec_setFeature s _) (featureRow_refused (s := s.setCmd c.runs) (c := c.runs) ?_)
    rw [hfid, htgt]
    exact hf
  · refine ⟨_, hstart ho (exec_setFeature s _) (featureRow_taken (s := s.setCmd c.runs) (c := c.runs) ?_), ?_⟩
    · rw [hfid, htgt]
      exact hf
    · rw [hfid, htgt]
      rfl
  · refine hstart ho rfl ?_
    rw [hfid, htgt]
    rfl
  · exact hstart ho rfl (if_pos hb)
  · exact hstart ho rfl (if_neg (Bool.eq_false_iff.1 hb))
  · refine ⟨_, hstart ho (exec_setTime s _) rfl, ?_⟩
    exact congrArg (fun u : State => (u.finish c.runs stSuccess 0).settle) (irq_edge hs)

end Sys2Proof.Machine
end

section
/-! Accesses to BAR0 and BAR4 (R492, R494, R495, R501, R505, R507, R602). -/
namespace Sys2Proof.Machine

section
variable {r : Bar0Req}

theorem sized_iff : r.sized = true ↔ (r.len = 4 ∧ r.off % 4 = 0) ∨ (r.len = 8 ∧ r.off % 8 = 0) := by
  simp only [Bar0Req.sized, Bool.or_eq_true, Bool.and_eq_true, beq_iff_eq]

theorem words_four (h : r.len = 4) : r.words = [(r.off, r.value.getD 0 % 2 ^ 32)] := by
  simp only [Bar0Req.words, h, show List.range (4 / 4) = [0] from rfl, List.map_cons, List.map_nil, Nat.mul_zero, Nat.add_zero,
    pow_zero, Nat.div_one]

theorem words_eight (h : r.len = 8) :
    r.words = [(r.off, r.value.getD 0 % 2 ^ 32), (r.off + 4, r.value.getD 0 / 2 ^ 32 % 2 ^ 32)] := by
  simp only [Bar0Req.words, h, show List.range (8 / 4) = [0, 1] from rfl, List.map_cons, List.map_nil, Nat.mul_zero, Nat.add_zero,
    pow_zero, Nat.div_one, Nat.mul_one]

/-- The words of an access begin at or after its offset. -/
theorem le_of_mem_words {x : Nat × Nat} (h : x ∈ r.words) : r.off ≤ x.1 := by
  obtain ⟨i, -, rfl⟩ := List.mem_map.1 h
  exact Nat.le_add_right _ _

theorem length_words_bytes (f : Nat × Nat → Nat) (h : r.sized = true) : (r.words.flatMap fun x => leBytes 4 (f x)).length = r.len := by
  rcases sized_iff.1 h with ⟨h, -⟩ | ⟨h, -⟩
  · rw [words_four h, h]
    rfl
  · rw [words_eight h, h]
    rfl

end

/-! ## BAR4 -/

/-- The state with another MSI-X table. -/
def State.withMsix (s : State) (m : List (Nat × MsixEntry)) : State := { s with ep := { s.ep with msix := m } }

theorem tableWrite_msix (s : State) (f o w : Nat) : ∃ m, s.tableWrite f o w = s.withMsix m := by
  unfold State.tableWrite
  split
  · exact ⟨_, rfl⟩
  · exact ⟨s.ep.msix, rfl⟩

theorem tableWrite_past {s : State} {f o : Nat} (w : Nat) (h : 16 * msixSize f ≤ o) : s.tableWrite f o w = s :=
  if_neg (Nat.not_lt_of_le h)

/-- Writes of the table reach its entries alone. -/
theorem tableWrites_msix (f : Nat) (l : List (Nat × Nat)) (s : State) :
    ∃ m, l.foldl (fun (t : State) x => t.tableWrite f x.1 x.2) s = s.withMsix m := by
  induction l generalizing s with
  | nil => exact ⟨s.ep.msix, rfl⟩
  | cons x l ih =>
    obtain ⟨m, hm⟩ := tableWrite_msix s f x.1 x.2
    obtain ⟨m', hm'⟩ := ih (s.withMsix m)
    exact ⟨m', by rw [List.foldl_cons, hm, hm']; rfl⟩

theorem tableWrites_past {f o : Nat} (h : 16 * msixSize f ≤ o) (l : List (Nat × Nat)) (hl : ∀ x ∈ l, o ≤ x.1) (s : State) :
    l.foldl (fun (t : State) x => t.tableWrite f x.1 x.2) s = s := by
  induction l generalizing s with
  | nil => rfl
  | cons x l ih =>
    rw [List.foldl_cons, tableWrite_past _ (h.trans (hl x (.head _)))]
    exact ih (fun y hy => hl y (.tail _ hy)) s

/-! ## Requests -/

section
variable {r : Bar0Req} {s : State}

theorem exec_bar0_gone (h : s.pwr.boot = .held ∨ barSize r.func.val r.bar4 ≤ r.off) : exec (.bar0Request r) s = .next s :=
  congrArg Host.Outcome.next (if_pos h)

variable (hin : ¬(s.pwr.boot = .held ∨ barSize r.func.val r.bar4 ≤ r.off))
include hin

theorem exec_bar0_off (h : s.fnOn r.func.val = false ∨ (s.fn r.func.val).d3 = true) :
    exec (.bar0Request r) s = .next (s.unsupported r) :=
  congrArg Host.Outcome.next ((if_neg hin).trans (if_pos (by simpa using h)))

variable (hon : ¬(s.fnOn r.func.val = false ∨ (s.fn r.func.val).d3 = true))
include hon

theorem exec_bar0_bad (h : ¬((r.len = 4 ∧ r.off % 4 = 0) ∨ (r.len = 8 ∧ r.off % 8 = 0))) :
    exec (.bar0Request r) s = .next (s.badAccess r) :=
  congrArg Host.Outcome.next ((if_neg hin).trans ((if_neg (by simpa using hon)).trans (if_pos (by rw [← sized_iff] at h; simpa using h))))

variable (hsized : (r.len = 4 ∧ r.off % 4 = 0) ∨ (r.len = 8 ∧ r.off % 8 = 0))
include hsized

theorem exec_bar0_table (h : r.bar4 = true) : exec (.bar0Request r) s = .next (s.bar4 r) :=
  congrArg Host.Outcome.next ((if_neg hin).trans ((if_neg (by simpa using hon)).trans
    ((if_neg (by rw [sized_iff.2 hsized]; exact Bool.false_ne_true)).trans (if_pos h))))

theorem exec_bar0_registers (h : r.bar4 = false) : exec (.bar0Request r) s = .next (s.bar0 r).settle :=
  congrArg Host.Outcome.next ((if_neg hin).trans ((if_neg (by simpa using hon)).trans
    ((if_neg (by rw [sized_iff.2 hsized]; exact Bool.false_ne_true)).trans (if_neg (Bool.eq_false_iff.1 h)))))

end

/-! ## Words of BAR0 -/

theorem zero_word : leBytes 4 0 = List.replicate 4 0 := by decide

theorem ofNat_mod_word (v : Nat) : BitVec.ofNat 32 (v % 2 ^ 32) = BitVec.ofNat 32 v :=
  BitVec.eq_of_toNat_eq (by simp)

section
variable {s : State} {f o : Nat}

theorem barWrite_acts (v : Nat) (h : s.barActs f o = true) :
    s.barWrite f o (v % 2 ^ 32) = s.hubWrite (barInit f) (barAddr f o) (BitVec.ofNat 32 v) := by
  rw [State.barWrite, if_pos h, ofNat_mod_word]

theorem barWrite_idle (v : Nat) (h : s.barActs f o = false) : s.barWrite f o v = s := if_neg (Bool.eq_false_iff.1 h)

theorem barRead_acts (h : s.barActs f o = true) : s.barRead f o = s.hubLoad (barInit f) (barAddr f o) := if_pos h

theorem barRead_idle (h : s.barActs f o = false) : s.barRead f o = (s, 0) := if_neg (Bool.eq_false_iff.1 h)

end

section
variable {r : Bar0Req} {s : State}

/-- What a locked part's map denies. -/
def State.barDenied (s : State) (r : Bar0Req) : Prop := s.locked = true ∧ s.barActs r.func.val r.off = true
  ∧ s.mayReach (barInit r.func.val) (barAddr r.func.val r.off) r.value.isSome = false

theorem bar0_denied (h : s.barDenied r) : s.bar0 r =
    if r.value.isSome then s.pevLog (barAddr r.func.val r.off) (barInit r.func.val).group r.value.isSome false
    else (s.pevLog (barAddr r.func.val r.off) (barInit r.func.val).group r.value.isSome false).complete r.func.val
      (List.replicate r.len 0) := by
  obtain ⟨h1, h2, h3⟩ := h
  exact if_pos (by rw [h1, h2, h3]; rfl)

theorem bar0_write (h : ¬s.barDenied r) {v : Nat} (hv : r.value = some v) :
    s.bar0 r = r.words.foldl (fun (t : State) x => t.barWrite r.func.val x.1 x.2) s := by
  refine (if_neg fun h' => h ?_).trans (if_pos (by rw [hv]; rfl))
  simpa only [State.barDenied, Bool.and_eq_true, Bool.not_eq_true', and_assoc] using h'

theorem bar0_read (h : ¬s.barDenied r) (hv : r.value = none) : s.bar0 r =
    let x := r.words.foldl (fun (x : State × Bytes) (y : Nat × Nat) =>
      ((x.1.barRead r.func.val y.1).1, x.2 ++ leBytes 4 (x.1.barRead r.func.val y.1).2)) (s, [])
    x.1.complete r.func.val x.2 := by
  refine (if_neg fun h' => h ?_).trans (if_neg (by rw [hv]; exact Bool.false_ne_true))
  simpa only [State.barDenied, Bool.and_eq_true, Bool.not_eq_true', and_assoc] using h'

theorem State.unsupported_write (s : State) (h : r.value ≠ none) : s.unsupported r = s.aer r.func .unsupportedRequest := by
  rw [State.unsupported, if_pos (Option.isSome_iff_ne_none.2 h)]

theorem State.unsupported_read (s : State) (h : r.value = none) :
    s.unsupported r = (s.emit (.unsupported r.func)).aer r.func .unsupportedRequest := by
  rw [State.unsupported, if_neg (by rw [h]; exact Bool.false_ne_true)]

theorem State.badAccess_write (s : State) (h : r.value ≠ none) : s.badAccess r =
    (s.bump (funAt .ep r.func) F.EP_CNT1_BAD_ACCESS).put (funAt .ep r.func) F.EP_BAD_ACCESS_OFFSET r.off :=
  if_pos (Option.isSome_iff_ne_none.2 h)

theorem State.badAccess_read (s : State) (h : r.value = none) : s.badAccess r =
    (((s.bump (funAt .ep r.func) F.EP_CNT1_BAD_ACCESS).put (funAt .ep r.func) F.EP_BAD_ACCESS_OFFSET r.off).emit
      (.abort r.func)).aer r.func .completerAbort :=
  if_neg (by rw [h]; exact Bool.false_ne_true)

theorem State.bar4_write (s : State) (h : r.value ≠ none) :
    s.bar4 r = r.words.foldl (fun (t : State) x => t.tableWrite r.func.val x.1 x.2) s :=
  if_pos (Option.isSome_iff_ne_none.2 h)

theorem State.bar4_read (s : State) (h : r.value = none) :
    s.bar4 r = s.complete r.func.val (r.words.flatMap fun x => leBytes 4 (s.tableWord r.func.val x.1)) :=
  if_neg (by rw [h]; exact Bool.false_ne_true)

/-- An access to BAR4 changes the endpoint alone: a write its table, a read what the link carries. -/
theorem bar4_of_sized (s : State) (hs : r.sized = true) :
    s.bar4 r = { s with ep := (s.bar4 r).ep }
    ∧ (r.value ≠ none → (s.bar4 r).ep = { s.ep with msix := (s.bar4 r).ep.msix }
      ∧ (16 * msixSize r.func.val ≤ r.off → s.bar4 r = s))
    ∧ (r.value = none → ∃ bs ido, bs.length = r.len ∧ s.bar4 r = s.emit (.completion r.func.val bs ido)) := by
  by_cases hv : r.value = none
  · rw [s.bar4_read hv]
    exact ⟨rfl, fun h => absurd hv h, fun _ => ⟨_, _, length_words_bytes _ hs, rfl⟩⟩
  · rw [s.bar4_write hv]
    obtain ⟨m, hm⟩ := tableWrites_msix r.func.val r.words s
    exact ⟨by rw [hm]; rfl, fun _ => ⟨by rw [hm]; rfl, fun hp => tableWrites_past hp _ (fun _ => le_of_mem_words) s⟩,
      fun h => absurd h hv⟩

end

/-- Settles O51: an access by what stands in its way, and the words of one that goes through. -/
theorem hostAccesses : Obligations.HostAccesses := by
  intro r s
  dsimp only
  refine ⟨exec_bar0_gone, fun hin hoff => ⟨fun hv => ?_, fun hv => ?_⟩, fun hin hon hs => ⟨fun hv => ?_, fun hv => ?_⟩,
    fun hin hon hs h4 => ⟨_, exec_bar0_table hin hon hs h4, bar4_of_sized s (sized_iff.2 hs)⟩,
    fun hin hon hs h4 => ⟨fun hd => ⟨fun hv => ?_, fun hv => ?_⟩,
      fun hd => ⟨fun v hv ha => ⟨fun hl => ?_, fun hl hb => ?_⟩, fun hv ha hl => ?_, fun ha hb => ⟨fun hv => ?_, fun hv => ?_⟩⟩⟩,
    fun h => ?_⟩
  case refine_1 => rw [exec_bar0_off hin hoff, s.unsupported_write hv]
  case refine_2 => rw [exec_bar0_off hin hoff, s.unsupported_read hv]
  case refine_3 => rw [exec_bar0_bad hin hon hs, s.badAccess_write hv]
  case refine_4 => rw [exec_bar0_bad hin hon hs, s.badAccess_read hv]
  case refine_12 => rw [State.barActs, decide_eq_true h, Bool.true_or]
  all_goals rw [exec_bar0_registers hin hon hs h4]
  case refine_5 => rw [bar0_denied hd, if_pos (Option.isSome_iff_ne_none.2 hv)]
  case refine_6 => rw [bar0_denied hd, if_neg (by rw [hv]; exact Bool.false_ne_true)]
  case refine_7 => rw [bar0_write hd hv, words_four hl, List.foldl_cons, List.foldl_nil, hv, Option.getD_some, barWrite_acts _ ha]
  case refine_8 =>
    rw [bar0_write hd hv, words_eight hl, List.foldl_cons, List.foldl_cons, List.foldl_nil, hv, Option.getD_some,
      barWrite_acts _ ha, barWrite_acts _ hb]
  case refine_9 =>
    rw [bar0_read hd hv, words_four hl, List.foldl_cons, List.foldl_nil, barRead_acts ha]
    rfl
  case refine_10 =>
    obtain ⟨v, hv⟩ := Option.ne_none_iff_exists'.1 hv
    rw [bar0_write hd hv]
    rcases hs with ⟨hl, -⟩ | ⟨hl, -⟩
    · rw [words_four hl, List.foldl_cons, List.foldl_nil, barWrite_idle _ ha]
    · rw [words_eight hl, List.foldl_cons, List.foldl_cons, List.foldl_nil, barWrite_idle _ ha, barWrite_idle _ hb]
  case refine_11 =>
    rw [bar0_read hd hv]
    rcases hs with ⟨hl, -⟩ | ⟨hl, -⟩
    · rw [words_four hl, hl, List.foldl_cons, List.foldl_nil, barRead_idle ha]
      dsimp only
      rw [zero_word]
      rfl
    · rw [words_eight hl, hl, List.foldl_cons, List.foldl_cons, List.foldl_nil, barRead_idle ha, barRead_idle hb]
      dsimp only
      rw [zero_word]
      rfl

end Sys2Proof.Machine
end

section
/-! What a reset of the host side keeps of memory (R508, R585). -/
namespace Sys2Proof.Machine

/-- Memory out of its canonical form: the byte past the flash's last stands before the flash's first. -/
def cellsOutOfOrder : List Host.Cell := [(flashAt + 0x8000000, 1), (flashAt, 1)]

/-- A machine whose memory lists its cells out of order. -/
def outOfOrder : State := { State.reset with mem := cellsOutOfOrder }

theorem outOfOrder_mem : outOfOrder.fwu.sched = none ∧ cellGet outOfOrder.mem flashAt = 0 := by decide +kernel

/-- The reset drops the first cell, so that the second one is found. -/
theorem outOfOrder_perst : ∃ t, exec .perstAssert outOfOrder = .next t ∧ cellGet t.mem flashAt = 1 :=
  ⟨_, rfl, by decide +kernel⟩

/-- Refutes O52: in a state whose memory is not in its canonical form (O4) PERST# changes what the flash reads, as it takes away
the cells that hid those of the flash. -/
theorem not_powerStatesAndResets : ¬Obligations.PowerStatesAndResets := by
  unfold Obligations.PowerStatesAndResets
  intro h
  obtain ⟨-, -, -, -, -, -, -, -, -, -, -, -, -, -, hperst, -⟩ := h 0 {} none outOfOrder
  obtain ⟨t, ht, -, -, -, -, -, -, -, -, -, -, -, -, -, -, -, -, -, -, -, -, -, hflash⟩ := hperst
  obtain ⟨hsched, hzero⟩ := outOfOrder_mem
  obtain ⟨u, hu, hone⟩ := outOfOrder_perst
  obtain rfl : u = t := Host.Outcome.next.inj (hu.symm.trans ht)
  have hkept := hflash hsched flashAt (Nat.le_refl _) (by decide)
  rw [hzero, hone] at hkept
  exact absurd hkept (by decide)

end Sys2Proof.Machine
end

section
/-! Flash operations, the run of an activation, and the trial of a set (R551–R565). -/
namespace Sys2Proof.Machine

theorem State.hicEdge_only (s : State) (n : Nat) : s.Only [.regs, .hic] (s.hicEdge n) :=
  .ite (.refl _ s) (.ite (.ite ((s.bump_only _ _ _ _).mono (by decide)) rfl) (.ite ((s.bump_only _ _ _ _).mono (by decide)) rfl))

theorem State.irq_only (s : State) (n : Nat) : s.Only [.regs, .hic] (s.irq n) :=
  .ite (s.hicEdge_only n) (.ite ((s.hicEdge_only n).trans (State.hicEdge_only _ n)) (.refl _ s))

@[simp] theorem State.irq_qen (s : State) (n : Nat) : (s.irq n).qen = s.qen :=
  State.only_iff.1 (s.irq_only n) .qen (by decide)

@[simp] theorem State.irq_fwu (s : State) (n : Nat) : (s.irq n).fwu = s.fwu :=
  State.only_iff.1 (s.irq_only n) .fwu (by decide)

/-! ## Reset of the host side -/

section
variable (s : State)

@[simp] theorem State.pageChanged_fwu (lid : Nat) : (s.pageChanged lid).fwu = s.fwu := rfl

/-- An entry of the history leaves the rest of the firmware's state. -/
theorem State.fwHistory_fwu (result reason index ver lost : Nat) : ∃ l,
    (s.fwHistory result reason index ver lost).fwu = { s.fwu with history := l } := ⟨_, State.pageChanged_fwu _ 8⟩

theorem State.dropSchedule_notify : s.dropSchedule.fwu.notify = s.fwu.notify := by
  unfold State.dropSchedule
  split
  · rfl
  · obtain ⟨l, hl⟩ := State.fwHistory_fwu { s with fwu := { s.fwu with sched := none } } resCancelled 11 0 s.altVer 0
    rw [hl]

/-- What is new after a reset of the host side, and what its boot will know. -/
theorem State.hubReset_new (cause : ResetCause) :
    let t := s.hubReset cause
    t.pwr.boot = .held ∧ t.fwu.act = none ∧ t.fwu.sched = none ∧ t.fwu.notify = s.fwu.notify ∧ t.qen = {} ∧ t.crew = {}
    ∧ t.pwr.cause = cause := by
  refine ⟨rfl, rfl, rfl, ?_, rfl, rfl, rfl⟩
  show (if cause = .activation then ({ s with fwu := { s.fwu with sched := none } } : State) else s.dropSchedule).fwu.notify = _
  split
  · rfl
  · exact s.dropSchedule_notify

/-- The last steps of a run leave the host side held for the boot of the set. -/
theorem State.finishRun_new (a : Activation) :
    let t := s.finishRun a
    t.pwr.boot = .held ∧ t.fwu.act = none ∧ t.fwu.sched = none ∧ t.fwu.notify = true ∧ t.qen = {} ∧ t.crew = {}
    ∧ t.pwr.cause = (if a.rollback = none then .activation else .rollback) := by
  dsimp only
  unfold State.finishRun
  cases a.rollback with
  | none => exact State.hubReset_new _ .activation
  | some reason => exact State.hubReset_new _ .rollback

end

/-! ## The run -/

section
variable {s : State} {p : ActStep} {x : Activation}

theorem actAt_none (h : ∀ x, s.fwu.act = some x → x.step ≠ p) : s.actAt p = none := by
  unfold State.actAt
  cases hact : s.fwu.act with
  | none => rfl
  | some x => exact if_neg (h x hact)

theorem actAt_some (hx : s.fwu.act = some x) (h : x.step = p) : s.actAt p = some x := by
  rw [State.actAt, hx]
  exact if_pos h

theorem exec_activationDrainDone_none (h : s.actAt .drain = none) : exec .activationDrainDone s = .next s := by
  show execActivationDrainDone s = _
  rw [execActivationDrainDone, h]

theorem exec_activationDrainDone_some (h : s.actAt .drain = some x) : exec .activationDrainDone s = .next (s.beginFlush x) := by
  show execActivationDrainDone s = _
  rw [execActivationDrainDone, h]

theorem exec_activationFlushDone_none (h : s.actAt .flush = none) : exec .activationFlushDone s = .next s := by
  show execActivationFlushDone s = _
  rw [execActivationFlushDone, h]

theorem exec_activationFlushDone_some (h : s.actAt .flush = some x) : exec .activationFlushDone s = .next (s.endFlush x) := by
  show execActivationFlushDone s = _
  rw [execActivationFlushDone, h]

theorem exec_activationReset_none (h : s.actAt .post = none) : exec .activationReset s = .next s := by
  show execActivationReset s = _
  rw [execActivationReset, h]

theorem exec_activationReset_some (h : s.actAt .post = some x) : exec .activationReset s =
    if s.crew.items.any fun (x : HubItem) => x.kind == 6 then .next s else .next (s.finishRun x) := by
  show execActivationReset s = _
  rw [execActivationReset, h]

theorem exec_activationStart_none (h : s.fwu.sched = none) : exec .activationStart s = .next s := by
  show execActivationStart s = _
  rw [execActivationStart, h]

theorem exec_activationStart_some {x : Schedule} (h : s.fwu.sched = some x) : exec .activationStart s =
    if x.time ≤ s.now ∧ s.fwu.act = none ∧ s.pwr.boot = .ready then .next ((s.irq 160).beginRun { sched := x }) else .next s := by
  show execActivationStart s = _
  rw [execActivationStart, h]

end

/-! ## Flash operations -/

/-- Whether a command waits for the flash to take its chunk. -/
def Cmd.loads (c : Cmd) : Bool := c.opcode == 0x90 && decide (c.wait = .engine)

theorem exec_flashOperationDone_none {s : State} (h : s.qen.cmds.find? Cmd.loads = none) :
    exec .flashOperationDone s = .next (s.irq 161) := by
  rw [← s.irq_qen 161] at h
  show execFlashOperationDone s = _
  unfold execFlashOperationDone
  dsimp only
  unfold Cmd.loads at h
  rw [h]

theorem exec_flashOperationDone_some {s : State} {c : Cmd} (h : s.qen.cmds.find? Cmd.loads = some c) :
    let t := s.irq 161
    let u := t.putBytes (flashAt + bankAt t.altBank + 4096 * c.word 7) c.data
    let last := bitOf (c.word 8) 0
    exec .flashOperationDone s = .next ((u.setBank t.altBank
      { st := if last then .loaded else .partly, units := c.word 7 + c.count, last }).finish c stSuccess (c.word 7 + c.count)).settle := by
  rw [← s.irq_qen 161] at h
  show execFlashOperationDone s = _
  unfold execFlashOperationDone
  dsimp only
  unfold Cmd.loads at h
  rw [h]

/-! ## The trial of a set -/

/-- The journal of a check that has begun. -/
def State.checking (s : State) : State := s.writeJournal { s.journal with st := .checking }

section
variable {s : State}

theorem exec_bootCheck_idle (h : ¬(s.pwr.boot = .rom ∧ s.journal.st = .pending)) : exec .bootCheck s = .next s := by
  show execBootCheck s = _
  unfold execBootCheck
  dsimp only
  rw [if_neg h]

variable (h : s.pwr.boot = .rom ∧ s.journal.st = .pending)
include h

theorem exec_bootCheck_rejected {r i : Nat} (hc : s.checking.checkSet s.journal.new = some (r, i)) :
    exec .bootCheck s = .next (s.checking.rejectSet r i) := by
  show execBootCheck s = _
  unfold State.checking at hc ⊢
  unfold execBootCheck
  dsimp only
  rw [if_pos h, hc]

theorem exec_bootCheck_passed (hc : s.checking.checkSet s.journal.new = none) :
    let v := s.checking.writeJournal { s.journal with st := .trial }
    exec .bootCheck s = .next { v with fwu := { v.fwu with run := .trial, bank := s.journal.new } } := by
  show execBootCheck s = _
  unfold State.checking at hc ⊢
  unfold execBootCheck
  dsimp only
  rw [if_pos h, hc]

end

theorem State.onTrial_off {s : State} (h : s.onTrial = false) : ¬(s.onTrial = true) := Bool.eq_false_iff.1 h

theorem exec_selfTestDone_idle {s : State} (h : s.onTrial = false ∨ s.fwu.tested = true) : exec .selfTestDone s = .next s := by
  refine if_neg fun ⟨ht, hn⟩ => ?_
  rcases h with h | h
  · exact s.onTrial_off h ht
  · rw [h] at hn
    exact Bool.false_ne_true hn

section
variable {s : State} (ht : s.onTrial = true) (hn : s.fwu.tested = false)
include ht hn

theorem exec_selfTestDone_failed (h : s.selfTests = false) : exec .selfTestDone s = .next (s.rollback 9) :=
  (if_pos ⟨ht, by rw [hn]; rfl⟩).trans (if_neg (Bool.eq_false_iff.1 h))

theorem exec_selfTestDone_passed (h : s.selfTests = true) :
    let tested := { s with fwu := { s.fwu with tested := true } }
    exec .selfTestDone s = .next (if !s.journal.confirm ∨ s.fwu.hostAsked then tested.confirmSet else tested) :=
  (if_pos ⟨ht, by rw [hn]; rfl⟩).trans (if_pos h)

end

theorem State.finish_only (s : State) (c : Cmd) (st r : Nat) : s.Only [.lnd, .qen, .vlk, .crew] (s.finish c st r) := by
  unfold State.finish
  dsimp only
  split
  · exact .refl _ s
  · split <;> rfl

@[simp] theorem State.putBytes_fwu (s : State) (a : Nat) (l : Bytes) : (s.putBytes a l).fwu = s.fwu := rfl

@[simp] theorem State.writeJournal_fwu (s : State) (j : Journal) : (s.writeJournal j).fwu = s.fwu := by
  simp only [State.writeJournal, State.irq_fwu, State.putBytes_fwu]

/-- What confirming makes of the firmware's state: the floor of the bundle is taken where it lies higher. -/
theorem State.confirmSet_fwu (s : State) : ∃ l floor, s.confirmSet.fwu =
    { s.fwu with run := .confirmed, svnFloor := max s.fwu.svnFloor floor, lost := 0, history := l } := by
  have hfin (l : List Cmd) (left : Nat) (u : State) :
      (l.foldl (fun (t : State) c => t.finish c stSuccess left) u).fwu = u.fwu :=
    State.only_iff.1 (.foldl (fun t c => t.finish_only c stSuccess left) l u) .fwu (by decide)
  unfold State.confirmSet
  dsimp only
  generalize hj : s.writeJournal _ = j
  have hj : j.fwu = s.fwu := by rw [← hj, State.writeJournal_fwu]
  generalize fieldAt _ 0 4 = floor
  rw [hfin, ← hj]
  obtain ⟨l, hl⟩ := State.fwHistory_fwu { j with fwu := { j.fwu with run := .confirmed, svnFloor := max j.fwu.svnFloor floor } }
    resConfirmed 0 0 _ j.fwu.lost
  exact ⟨l, floor, by rw [hl]⟩

theorem exec_confirmationWindowExpiry_idle {s : State} (h : s.onTrial = false) : exec .confirmationWindowExpiry s = .next s :=
  if_neg (Bool.eq_false_iff.1 h)

theorem exec_confirmationWindowExpiry_onTrial {s : State} (h : s.onTrial = true) :
    exec .confirmationWindowExpiry s = .next ((s.epEvt 6).rollback 10) := by
  show (if s.onTrial then _ else _) = _
  rw [if_pos h]

/-- Settles O56: a flash operation and the run of an activation step by step, then the trial of a set. -/
theorem firmwareUpdate : Obligations.FirmwareUpdate := by
  refine ⟨fun s => ⟨exec_flashOperationDone_none, fun c => exec_flashOperationDone_some, exec_activationStart_none,
      fun x hx => ⟨fun h => ?_, fun hnow hact hready => ?_⟩, fun h => exec_activationDrainDone_none (actAt_none h),
      fun h => exec_activationFlushDone_none (actAt_none h), fun h => exec_activationReset_none (actAt_none h),
      fun x hx => ⟨fun h => exec_activationDrainDone_some (actAt_some hx h), fun h => exec_activationFlushDone_some (actAt_some hx h),
        fun h hy => ?_, fun h hy => ?_⟩⟩,
    fun s => ⟨exec_bootCheck_idle, fun h => ?_, exec_selfTestDone_idle,
      fun ht hn => ⟨exec_selfTestDone_failed ht hn, fun h hc ha => ?_, fun h hc => ?_⟩, exec_confirmationWindowExpiry_idle,
      exec_confirmationWindowExpiry_onTrial, ?_, fun _ => ?_⟩⟩
  · refine (exec_activationStart_some hx).trans (if_neg fun ⟨hnow, hact, hready⟩ => ?_)
    rcases h with h | h | h
    · exact absurd hnow (Nat.not_le_of_lt h)
    · exact h hact
    · exact h hready
  · exact (exec_activationStart_some hx).trans (if_pos ⟨hnow, hact, hready⟩)
  · refine (exec_activationReset_some (actAt_some hx h)).trans (if_pos ?_)
    simpa using hy
  · obtain ⟨hboot, hact, hsched, hnotify, hqen, hcrew, hcause⟩ := s.finishRun_new x
    refine ⟨s.finishRun x, (exec_activationReset_some (actAt_some hx h)).trans (if_neg ?_), hboot, hact, hsched, hnotify, hqen, hcrew,
      s.finishRun_field x, hcause⟩
    simpa using hy
  · dsimp only
    rw [← State.checking]
    cases hc : s.checking.checkSet s.journal.new with
    | none => exact exec_bootCheck_passed h hc
    | some x => exact exec_bootCheck_rejected h hc
  · refine (exec_selfTestDone_passed ht hn h).trans (congrArg Host.Outcome.next (if_neg ?_))
    simp [hc, ha]
  · refine (exec_selfTestDone_passed ht hn h).trans (congrArg Host.Outcome.next (if_pos ?_))
    simpa using hc
  · obtain ⟨l, floor, hfwu⟩ := s.confirmSet_fwu
    rw [hfwu]
    exact Nat.le_max_left _ _
  · obtain ⟨l, floor, hfwu⟩ := s.confirmSet_fwu
    rw [hfwu]
    exact ⟨rfl, rfl⟩

end Sys2Proof.Machine
end

section
/-! The stages of boot (R560, R561, R565–R568, R587, R588, R590, R591). -/
namespace Sys2Proof.Machine

/-! ## The ROM stage -/

/-- Whether the host side waits in reset with its supplies good. -/
def State.holds (s : State) : Prop := s.pwr.boot = .held ∧ s.pwr.tripped = false ∧ s.pwr.hot = false

/-- What the ROM stage has settled before it looks at the journal. -/
def State.romSettled (s : State) : State :=
  let rom : State := { s with
    ep := { s.ep with perst := false }
    pwr := { s.pwr with boot := .rom, now := s.pwr.keeper, mtime := 0, on := 2 ^ 30 - 1 - 2 ^ 8 - 2 ^ 9 }
    fwu := { s.fwu with banks := s.fwu.banks.map Bank.atBoot } }
  (if rom.journalInUse.isNone then rom.writeJournal {} else rom).applyBootBlock

section
variable {s : State}

theorem exec_romStageBoot_idle (h : ¬s.holds) : exec .romStageBoot s = .next s := by
  refine if_pos ?_
  by_contra hn
  exact h (by simpa [State.holds] using hn)

theorem exec_romStageBoot (h : s.holds) : exec .romStageBoot s =
    match s.romSettled.journal.st with
    | .steady => .next s.romSettled.bootActive
    | .pending => .next s.romSettled
    | .checking => .next (s.romSettled.rejectSet 8 0)
    | .trial => .next s.romSettled.abandonSet := by
  obtain ⟨hboot, htrip, hhot⟩ := h
  exact if_neg (by simp [hboot, htrip, hhot])

end

/-! ## STUMP2 and the memories -/

section
variable {s : State}

theorem exec_stump2BringUp_idle {channels sets : Nat} {w : List (Nat × Word)} (h : s.pwr.boot ≠ .rom ∨ s.journal.st = .pending) :
    exec (.stump2BringUp channels sets w) s = .next s := by
  show execStump2BringUp channels sets w s = _
  rw [execStump2BringUp, if_pos h]

theorem exec_stump2BringUp_locks {channels sets : Nat} {w : List (Nat × Word)} (hb : s.pwr.boot = .rom) (hj : s.journal.st ≠ .pending) :
    Completes (.stump2BringUp channels sets w) s fun t => t.locked = true := by
  unfold Completes
  show ∃ t, execStump2BringUp channels sets w s = .next t ∧ _
  rw [execStump2BringUp, if_neg (by simp [hb, hj])]
  refine ⟨_, rfl, ?_⟩
  exact congrArg (· == 1) (get_put_same _ _ _ _ _ _)

/-- The memories are initialised: both blocks say so, and the hub is ready. -/
def State.memoryReady (s : State) : State :=
  let u := (s.put (hubAt .miu) F.MIU_STATUS_INIT_DONE 1).put (hubAt .lnd) F.LND_STATUS_READY 1
  let u := if u.fwu.notify then u.epEvt 6 else u
  { u with
    pwr := { u.pwr with boot := .ready }
    fwu := { u.fwu with notify := false, from_ := if u.fwu.run = .trial then u.clock else u.fwu.from_ } }

theorem exec_memoryInitDone (h : s.pwr.boot = .stump2) : exec .memoryInitDone s = .next s.memoryReady := by
  show execMemoryInitDone s = _
  rw [execMemoryInitDone, if_neg (not_not_intro h)]
  rfl

theorem memoryReady_keeps (s : State) : s.memoryReady.pwr.boot = .ready ∧ s.memoryReady.fwu.notify = false
    ∧ s.memoryReady.mem = s.mem ∧ s.memoryReady.qen = s.qen := by
  have hput : s.Only [.regs] ((s.put (hubAt .miu) F.MIU_STATUS_INIT_DONE 1).put (hubAt .lnd) F.LND_STATUS_READY 1) := rfl
  refine ⟨rfl, rfl, ?_⟩
  unfold State.memoryReady
  dsimp only
  split
  · have honly := (hput.mono (show _ ⊆ [.regs, .ep] by decide)).trans (epEvt_only _ 6)
    exact ⟨State.only_iff.1 honly .mem (by decide), State.only_iff.1 honly .qen (by decide)⟩
  · exact ⟨rfl, rfl⟩

theorem memoryReady_says (h : s.fwu.notify = false) : s.memoryReady.has (hubAt .miu) F.MIU_STATUS_INIT_DONE = true
    ∧ s.memoryReady.has (hubAt .lnd) F.LND_STATUS_READY = true := by
  have hregs : s.memoryReady.regs = ((s.put (hubAt .miu) F.MIU_STATUS_INIT_DONE 1).put (hubAt .lnd) F.LND_STATUS_READY 1).regs := by
    unfold State.memoryReady
    dsimp only
    exact congrArg State.regs (if_neg (show ¬s.fwu.notify = true from Bool.eq_false_iff.1 h))
  unfold State.has State.get
  rw [hregs]
  exact ⟨congrArg (· == 1) ((get_put_other _ _ _ _ _ _ (by decide)).trans (get_put_same _ _ _ _ _ _)),
    congrArg (· == 1) (get_put_same _ _ _ _ _ _)⟩

end

/-! ## Loading a die -/

section
variable {s : State} {d : Die}

theorem exec_fpwBootGo (h : d ≠ 0 ∧ s.hasDie d.val = true ∧ s.dies[d].power = true) :
    exec (.fpwBootGo d) s = .next (s.bootGo d) := congrArg Host.Outcome.next (if_pos h)

theorem exec_fpwBootGo_idle (h : ¬(d ≠ 0 ∧ s.hasDie d.val = true ∧ s.dies[d].power = true)
    ∨ (s.dies[d].chunks = [] ∨ s.dies[d].boot = .loaded ∨ s.dies[d].boot = .running)) : exec (.fpwBootGo d) s = .next s := by
  by_cases hf : d ≠ 0 ∧ s.hasDie d.val = true ∧ s.dies[d].power = true
  · exact (exec_fpwBootGo hf).trans (congrArg Host.Outcome.next (if_pos (h.resolve_left (not_not_intro hf))))
  · exact congrArg Host.Outcome.next (if_neg hf)

/-- A count does not change the CRC that the load is compared with. -/
theorem bump_loads_crc : (s.bump (dieAt .fpw d) F.FPW_CNT_LOADS).get (dieAt .fpw d) F.FPW_BOOT_CRC_CRC
    = s.get (dieAt .fpw d) F.FPW_BOOT_CRC_CRC := get_bump_other _ _ _ _ _ (key_ne_key (by decide))

variable (hi : ¬(s.dies[d].chunks = [] ∨ s.dies[d].boot = .loaded ∨ s.dies[d].boot = .running))
include hi

theorem bootGo_good (h : s.get (dieAt .fpw d) F.FPW_BOOT_CRC_CRC = (s.dies[d].crc ^^^ 0xFFFFFFFF)) :
    s.bootGo d = (s.bump (dieAt .fpw d) F.FPW_CNT_LOADS).setDie d { s.dies[d] with boot := .loaded, crcFail := false } := by
  unfold State.bootGo
  dsimp only
  rw [if_neg hi, if_pos (bump_loads_crc.trans h)]

/-- A die after a load whose CRC is bad. -/
def DieSt.badLoad (x : DieSt) : DieSt :=
  { x with crcFail := true, fails := x.fails + 1, failed := x.failed || decide (3 ≤ x.fails + 1) }

theorem bootGo_bad (h : ¬s.get (dieAt .fpw d) F.FPW_BOOT_CRC_CRC = (s.dies[d].crc ^^^ 0xFFFFFFFF)) :
    let t := (s.bump (dieAt .fpw d) F.FPW_CNT_LOADS).setDie d s.dies[d].badLoad
    s.bootGo d = if 3 ≤ s.dies[d].fails + 1 ∧ !s.dies[d].failed then
      (t.raiseHub 0x0F03 0 d.val).put (hubAt .pwr) F.PWR_STATUS_FIELD_FAILED 1 else t := by
  unfold State.bootGo
  dsimp only
  rw [if_neg hi, if_neg (by rw [bump_loads_crc]; exact h)]
  rfl

end

theorem exec_fieldReady_idle {s : State} (h : s.loadsDies = false ∨ ∃ e : Die, s.dieReady e = false) :
    exec .fieldReady s = .next s := by
  refine if_neg fun ht => ?_
  obtain ⟨hl, hd⟩ := Bool.and_eq_true_iff.1 ht
  rcases h with h | ⟨e, he⟩
  · exact Bool.false_ne_true (h.symm.trans hl)
  · exact Bool.false_ne_true (he.symm.trans (List.all_eq_true.1 hd e (List.mem_finRange e)))

theorem exec_fieldReady {s : State} (hl : s.loadsDies = true) (hd : ∀ e : Die, s.dieReady e = true) :
    exec .fieldReady s = .next (s.put (hubAt .pwr) F.PWR_STATUS_FIELD_READY 1).settle :=
  if_pos (Bool.and_eq_true_iff.2 ⟨hl, List.all_eq_true.2 fun e _ => hd e⟩)

/-- Settles O57: each stage by the state it begins in, and the load of a die by its CRC. -/
theorem bootStages : Obligations.BootStages := by
  intro channels sets w d s
  dsimp only
  refine ⟨exec_romStageBoot_idle, fun h hj => ?_, fun h hj => ?_, fun h hj => ?_, fun h hj => ?_, fun b hb => ?_,
    exec_stump2BringUp_idle, exec_stump2BringUp_locks, fun h => ?_, fun h => ?_, exec_fpwBootGo_idle, fun hf hi hg => ?_,
    fun hf hi hg => ?_, exec_fieldReady_idle, exec_fieldReady⟩
  · exact (exec_romStageBoot h).trans (by rw [show s.romSettled.journal.st = .steady from hj]; rfl)
  · exact (exec_romStageBoot h).trans (by rw [show s.romSettled.journal.st = .pending from hj]; rfl)
  · exact (exec_romStageBoot h).trans (by rw [show s.romSettled.journal.st = .checking from hj]; rfl)
  · exact (exec_romStageBoot h).trans (by rw [show s.romSettled.journal.st = .trial from hj]; rfl)
  · rw [Bank.atBoot, if_pos hb]
    exact ⟨rfl, rfl⟩
  · exact if_pos h
  · obtain ⟨hb, hn, hm, hq⟩ := memoryReady_keeps s
    exact ⟨_, exec_memoryInitDone h, hb, hn, hm, hq, memoryReady_says⟩
  · refine ⟨_, exec_fpwBootGo hf, ?_⟩
    rw [bootGo_good hi hg]
    exact ⟨setDie_same _ _ _, get_bump_same _ _ _ _ _, fun e he => setDie_other _ _ _ _ he⟩
  · refine ⟨_, exec_fpwBootGo hf, ?_⟩
    rw [bootGo_bad hi hg]
    split
    · refine ⟨?_, fun _ _ => congrArg (· == 1) (get_put_same _ _ _ _ _ _)⟩
      show (State.raiseHub ((s.bump (dieAt .fpw d) F.FPW_CNT_LOADS).setDie d s.dies[d].badLoad) 0x0F03 0 d.val).dies[d] = _
      rw [State.only_iff.1 (raiseHub_only _ 0x0F03 0 d.val _ _) .dies (by decide)]
      exact setDie_same _ _ _
    · next hn => exact ⟨setDie_same _ _ _, fun h3 hx => absurd ⟨h3, by rw [hx]; rfl⟩ hn⟩

end Sys2Proof.Machine
end

section
/-! Power domains, idle bays and JTAG (R416, R418, R420, R470, R486, R579–R583, R592). -/
namespace Sys2Proof.Machine

/-! ## Domains -/

theorem fieldDomain_hub {n : Nat} (h : n < 30) : fieldDomain n = none := by
  rw [fieldDomain, if_neg (by omega), if_neg (by omega)]

section
variable {s : State} {n : Fin 80}

theorem exec_domainSwitchOff_stays (h : s.mayGoOff n = false) : exec (.domainSwitchOff n) s = .next s :=
  congrArg Host.Outcome.next (if_pos (by rw [h]; rfl))

theorem exec_domainSwitchOff_hub (h : s.mayGoOff n = true) (hn : n.val < 30) :
    exec (.domainSwitchOff n) s = .next (s.setDomain n false) := by
  show execDomainSwitchOff n s = _
  rw [execDomainSwitchOff, if_neg (by rw [h]; exact Bool.false_ne_true), fieldDomain_hub hn]

theorem exec_domainSwitchOff_field {d : Die} {i : Nat} (h : s.mayGoOff n = true) (hd : fieldDomain n = some (d, i)) :
    exec (.domainSwitchOff n) s = .next (s.setFieldDomain d i false) := by
  show execDomainSwitchOff n s = _
  rw [execDomainSwitchOff, if_neg (by rw [h]; exact Bool.false_ne_true), hd]

end

theorem mayGoOff_held {s : State} {n : Nat} (h : s.held n = true) : s.mayGoOff n = false := by
  unfold State.mayGoOff
  split
  · rw [h, Bool.not_true, Bool.and_false]
  · split
    · rfl
    · rw [h, Bool.not_true, Bool.and_false]

theorem wake_awake {s : State} {n : Nat} (hn : n < 30) (h : hubWakes n = false ∨ bitOf s.pwr.on n = true) : s.wake n = s := by
  unfold State.wake State.comeOn
  rcases h with h | h
  · simp [h, hn]
  · simp [h, hn]

/-- A hub domain that comes on is counted, and so is the request that waited for it. -/
theorem wake_asleep {s : State} {n : Nat} (hn : n < 30) (hw : hubWakes n = true) (ho : bitOf s.pwr.on n = false)
    (hb : s.pwr.boot ≠ .held) :
    s.wake n = ((s.setDomain n true).bump (hubAt .pwr) F.PWR_CNT_WAKES).bump (hubAt .pwr) F.PWR_CNT_WAKE_WAITS := by
  unfold State.wake State.comeOn
  rw [if_pos (by simp [hn, hw, ho, hb]), if_pos hn, if_pos (by simp [hw, ho, hb])]

theorem setDomain_on (s : State) (n : Nat) : bitOf (s.setDomain n true).pwr.on n = true := by
  show bitOf (s.pwr.on ||| 2 ^ n) n = true
  rw [bitOf_eq_testBit, Nat.testBit_or, Nat.testBit_two_pow_self, Bool.or_true]

theorem get_wake_waits (s : State) (n : Nat) :
    let t := ((s.setDomain n true).bump (hubAt .pwr) F.PWR_CNT_WAKES).bump (hubAt .pwr) F.PWR_CNT_WAKE_WAITS
    t.get (hubAt .pwr) F.PWR_CNT_WAKES = min (s.get (hubAt .pwr) F.PWR_CNT_WAKES + 1) 65535
    ∧ t.get (hubAt .pwr) F.PWR_CNT_WAKE_WAITS = min (s.get (hubAt .pwr) F.PWR_CNT_WAKE_WAITS + 1) 65535 := by
  refine ⟨(get_bump_other _ _ _ _ _ (key_ne_key (by decide))).trans (get_bump_same _ _ _ _ _), (get_bump_same _ _ _ _ _).trans ?_⟩
  rw [get_bump_other _ _ _ _ _ (key_ne_key (by decide))]
  rfl

/-! ## Idle bays -/

section
variable {s : State} {b : Bay}

theorem exec_bayIdleSpindle_empty (h : s.crew.bays[b].disc = none) : exec (.bayIdleSpindle b) s = .next s := by
  show execBayIdleSpindle b s = _
  rw [execBayIdleSpindle, h]

theorem exec_bayIdleSpindle {e : BayDisc} (h : s.crew.bays[b].disc = some e) : exec (.bayIdleSpindle b) s = .next
    (if e.mounted = true ∧ s.bayIdle b = true ∧ s.pwr.idleSpin ≠ 0 ∧ s.ports[dieOfBay b].state = .up then
      s.send (dieOfBay b) .hub (regWriteMsg 0xA04 (bayInDie b) 0xFFFB
        (BitVec.ofNat 32 (2 * 2 ^ 16 + s.get (bayAt .spn b) F.SPN_CMD_TARGET)))
    else s) := by
  show execBayIdleSpindle b s = _
  rw [execBayIdleSpindle, h]

/-- Whether an idle bay's disc goes back to its slot. -/
def State.bayGoesBack (s : State) (b : Bay) : Prop :=
  s.crew.bays[b].disc ≠ none ∧ s.bayIdle b = true ∧ s.pwr.idleBack ≠ 0 ∧ s.code.changer = true ∧ s.fieldReady = true

theorem exec_bayIdleReturn_stays (h : ¬s.bayGoesBack b) : exec (.bayIdleReturn b) s = .next s :=
  congrArg Host.Outcome.next (if_neg fun h' => h ⟨Option.isSome_iff_ne_none.1 h'.1, h'.2⟩)

theorem exec_bayIdleReturn_goes (h : s.bayGoesBack b) : exec (.bayIdleReturn b) s = .next (s.clearBay b 3 0 1023) :=
  congrArg Host.Outcome.next (if_pos ⟨Option.isSome_iff_ne_none.2 h.1, h.2⟩)

end

/-! ## JTAG -/

section
variable {s : State} {x : Nat} {w : Option Word}

theorem exec_jtagAccess_held (h : s.pwr.boot = .held) : exec (.jtagAccess x w) s = .next s :=
  congrArg Host.Outcome.next (if_pos h)

theorem exec_jtagAccess (h : s.pwr.boot ≠ .held) : exec (.jtagAccess x w) s = .next
    (if !(s.wake 29).jtagReaches (x / 4 * 4) then s.wake 29
    else if (s.wake 29).mayReach { group := 7 } (x / 4 * 4) w.isSome then (s.wake 29).jtagWord (x / 4 * 4) w
    else (s.wake 29).pevLog (x / 4 * 4) 7 w.isSome false) :=
  congrArg Host.Outcome.next (if_neg h)

end

/-- Settles O59: domains by their conditions, idle bays by their times, and JTAG by what reaches. -/
theorem domainsIdleBaysAndJtag : Obligations.DomainsIdleBaysAndJtag := by
  intro n b x w s
  dsimp only
  refine ⟨exec_domainSwitchOff_stays, mayGoOff_held, exec_domainSwitchOff_hub, fun d i => exec_domainSwitchOff_field, rfl, wake_awake,
    fun hn hw ho hb => ?_, exec_bayIdleSpindle_empty,
    fun e he => ⟨fun hok => (exec_bayIdleSpindle he).trans (by rw [if_neg hok]), fun hok => (exec_bayIdleSpindle he).trans (by rw [if_pos hok])⟩,
    exec_bayIdleReturn_stays, exec_bayIdleReturn_goes, exec_jtagAccess_held, fun hb hr => ?_, fun hb hr hm => ?_, fun hb hr hm => ?_⟩
  · rw [wake_asleep hn hw ho hb]
    exact ⟨setDomain_on s n, get_wake_waits s n⟩
  · rw [exec_jtagAccess hb, hr]
    rfl
  · rw [exec_jtagAccess hb, hr, hm]
    rfl
  · rw [exec_jtagAccess hb, hr, hm]
    rfl

end Sys2Proof.Machine
end

section
/-! Halts, cuts and the management pair (R430, R443–R448). -/
namespace Sys2Proof.Machine

/-! ## Queues -/

/-- Replacing a queue pair that there is leaves that pair in its place. -/
theorem queue_setQueue {s : State} {x y : Queue} (h : s.queue y.func y.qid = some x) :
    (s.setQueue y).queue y.func y.qid = some y := by
  unfold State.queue at h ⊢
  unfold State.setQueue
  dsimp only
  rw [List.find?_map]
  have hcomp : ((fun x : Queue => x.func == y.func && x.qid == y.qid) ∘ fun z : Queue => if z.func = y.func ∧ z.qid = y.qid then y else z)
      = fun x : Queue => x.func == y.func && x.qid == y.qid := by
    funext z
    by_cases hz : z.func = y.func ∧ z.qid = y.qid
    · simp [hz]
    · simp [hz]
  rw [hcomp, h]
  have hx := List.find?_some h
  simp only [Bool.and_eq_true, beq_iff_eq] at hx
  rw [Option.map_some, if_pos hx]

/-- The pair that a function and a number name is of that function and that number. -/
theorem queue_names {s : State} {f q : Nat} {x : Queue} (h : s.queue f q = some x) : x.func = f ∧ x.qid = q := by
  have hx := List.find?_some h
  simpa only [Bool.and_eq_true, beq_iff_eq] using hx

/-! ## A command is discarded -/

/-- Commands leave and entries join, while pairs and cuts stay. -/
def State.Discards (s t : State) : Prop :=
  t.qen.queues = s.qen.queues ∧ t.qen.cuts = s.qen.cuts ∧ t.qen.cmds ⊆ s.qen.cmds ∧ s.qen.posts ⊆ t.qen.posts

namespace State.Discards
variable {s t u : State}

theorem refl (s : State) : s.Discards s := ⟨rfl, rfl, List.Subset.refl _, List.Subset.refl _⟩

theorem trans (h1 : s.Discards t) (h2 : t.Discards u) : s.Discards u := by
  obtain ⟨hq, hc, hm, hp⟩ := h1
  obtain ⟨hq', hc', hm', hp'⟩ := h2
  exact ⟨hq'.trans hq, hc'.trans hc, fun _ h => hm (hm' h), fun _ h => hp' (hp h)⟩

theorem of_qen (h : t.qen = s.qen) : s.Discards t := by
  rw [Discards, h]
  exact refl s

theorem dropCmd (s : State) (id : Nat) : s.Discards (s.dropCmd id) :=
  ⟨rfl, rfl, List.filter_subset_self _, List.Subset.refl _⟩

theorem finish (s : State) (c : Cmd) (st r : Nat) : s.Discards (s.finish c st r) := by
  unfold State.finish
  dsimp only
  split
  · exact refl s
  · split
    · exact ⟨rfl, rfl, List.filter_subset_self _, List.subset_append_left _ _⟩
    · exact ⟨rfl, rfl, List.filter_subset_self _, List.subset_append_left _ _⟩

theorem closeFinal (s : State) (id : Nat) : s.Discards (s.closeFinal id) := by
  unfold State.closeFinal
  split
  · exact refl s
  · split
    · exact refl s
    · split
      · exact of_qen rfl
      · dsimp only
        split
        · exact refl s
        · exact (finish s _ _ _).trans (of_qen rfl)

end State.Discards

theorem killCmdRead_qen (s : State) (id : Nat) (k : Bool) : (s.killCmdRead id k).qen = s.qen := by
  unfold State.killCmdRead
  split <;> rfl

theorem giveContext_qen (s : State) (c : Cmd) : (s.giveContext c).qen = s.qen := by
  unfold State.giveContext
  split <;> rfl

theorem State.setHubBay_only (s : State) (b : Bay) (x : HubBay) : s.Only [.crew] (s.setHubBay b x) := rfl

theorem leaveUnmounts_qen (s : State) (id : Nat) : (s.leaveUnmounts id).qen = s.qen :=
  State.only_iff.1 (.foldl (fun t b => State.setHubBay_only t b _) (List.finRange 12) s) .qen (by decide)

/-- What comes before a discarded command leaves the queue engine. -/
theorem discard_from (s : State) (c : Cmd) : ∃ u : State, u.qen = s.qen ∧ (u.dropCmd c.id).Discards (s.discard c) := by
  refine ⟨((s.killCmdRead c.id false).giveContext c).leaveUnmounts c.id, ?_, ?_⟩
  · rw [leaveUnmounts_qen, giveContext_qen, killCmdRead_qen]
  · unfold State.discard
    dsimp only
    split
    · exact .closeFinal _ _
    · split
      · exact .closeFinal _ _
      · exact .refl _

theorem State.Discards.discard (s : State) (c : Cmd) : s.Discards (s.discard c) := by
  obtain ⟨u, hu, hd⟩ := discard_from s c
  exact ((of_qen hu).trans (dropCmd u c.id)).trans hd

theorem discard_drops {s : State} {c x : Cmd} (h : x ∈ (s.discard c).qen.cmds) : x.id ≠ c.id := by
  obtain ⟨u, -, -, -, hm, -⟩ := discard_from s c
  simpa using (List.mem_filter.1 (hm h)).2

theorem State.Discards.foldl (l : List Cmd) (s : State) : s.Discards (l.foldl State.discard s) := by
  induction l generalizing s with
  | nil => exact refl s
  | cons c l ih => exact (discard s c).trans (ih _)

/-- None of the commands discarded in a row is left. -/
theorem foldl_discard_drops {l : List Cmd} {s : State} {x c : Cmd} (hx : x ∈ (l.foldl State.discard s).qen.cmds) (hc : c ∈ l) :
    x.id ≠ c.id := by
  induction l generalizing s with
  | nil => exact absurd hc List.not_mem_nil
  | cons d l ih =>
    rcases List.mem_cons.1 hc with rfl | hc
    · obtain ⟨-, -, hm, -⟩ := State.Discards.foldl l (s.discard c)
      exact discard_drops (hm hx)
    · exact ih hx hc

/-! ## The cut of a halt -/

theorem State.sendReset_only (s : State) (d : Die) (one : Bool) (item f q : Nat) : s.Only [.ports] (s.sendReset d one item f q) := rfl

theorem State.resetPorts_only (s : State) (f q : Nat) : s.Only [.ports] (s.resetPorts f q) :=
  .foldl (fun t _ => t.sendReset_only ..) _ s

/-- A fetch of the pair under way is given up. -/
def State.endFetch (s : State) (f q : Nat) : State :=
  match s.fetchOf f q with
  | some (r, _, _) => s.killRead r false
  | none => s

theorem State.endFetch_qen (s : State) (f q : Nat) : (s.endFetch f q).qen = s.qen := by
  unfold State.endFetch
  split <;> rfl

/-- A cut of a pair whose commands are discarded joins the others. -/
def State.joinCut (s : State) (l : List Cmd) (f q : Nat) (c : Cut) (n : Nat) : State :=
  let v := l.foldl (fun (t : State) d => t.discard d) (s.resetPorts f q)
  ({ v with qen := { v.qen with cuts := v.qen.cuts ++ [c] } } : State).bumpBy (funAt .qen f) F.QEN_CNT_DISCARDS n

/-- A halt's cut: the pair halts, and its commands are discarded. -/
theorem startCut_halt {s : State} {f q : Nat} {x : Queue} (h : s.queue f q = some x) : ∃ (head n : Nat) (cut : Cut),
    cut.func = f ∧ cut.qid = q ∧ cut.kind = .halt
    ∧ let u := (s.endFetch f q).setQueue { x with st := .halting, sqHead := head }
      s.startCut f q .halt = u.joinCut (u.cmdsOf f q) f q cut n := by
  unfold State.startCut State.endFetch
  rw [h]
  cases s.fetchOf f q with
  | none => exact ⟨_, _, _, rfl, rfl, rfl, rfl⟩
  | some r => exact ⟨_, _, _, rfl, rfl, rfl, rfl⟩

theorem joinCut_spec (s : State) (l : List Cmd) (f q : Nat) (c : Cut) (n : Nat) :
    (s.joinCut l f q c n).qen.queues = s.qen.queues ∧ (s.joinCut l f q c n).qen.cmds ⊆ s.qen.cmds
    ∧ (∀ d ∈ (s.joinCut l f q c n).qen.cmds, ∀ e ∈ l, d.id ≠ e.id) ∧ s.qen.posts ⊆ (s.joinCut l f q c n).qen.posts
    ∧ c ∈ (s.joinCut l f q c n).qen.cuts := by
  obtain ⟨hq, -, hm, hp⟩ := (State.Discards.of_qen (State.only_iff.1 (s.resetPorts_only f q) .qen (by decide))).trans
    (.foldl l (s.resetPorts f q))
  exact ⟨hq, hm, fun d hd e he => foldl_discard_drops hd he, hp, List.mem_append_right _ (List.mem_singleton_self c)⟩

theorem mem_cmdsOf {s : State} {f q : Nat} {c : Cmd} : c ∈ s.cmdsOf f q ↔ c ∈ s.qen.cmds ∧ c.func = f ∧ c.qid = q := by
  rw [State.cmdsOf, List.mem_filter, Bool.and_eq_true, beq_iff_eq, beq_iff_eq]

/-- A register's halt of an ACTIVE pair: it is halting with none of its commands left, and what is decided stays. -/
theorem startCut_halt_spec {s : State} {f q : Nat} {x : Queue} (h : s.queue f q = some x) :
    let t := s.startCut f q .halt
    (∃ y, t.queue f q = some y ∧ y.st = .halting ∧ y.sqTail = x.sqTail ∧ y.cqTail = x.cqTail ∧ y.phase = x.phase)
    ∧ (∀ c ∈ t.qen.cmds, ¬(c.func = f ∧ c.qid = q)) ∧ (∀ p ∈ s.qen.posts, p ∈ t.qen.posts)
    ∧ ∃ c ∈ t.qen.cuts, c.func = f ∧ c.qid = q ∧ c.kind = .halt := by
  obtain ⟨head, n, cut, hf, hqid, hk, heq⟩ := startCut_halt h
  dsimp only at heq ⊢
  rw [heq]
  obtain ⟨hq, hm, hd, hp, hc⟩ := joinCut_spec ((s.endFetch f q).setQueue { x with st := .halting, sqHead := head })
    (((s.endFetch f q).setQueue { x with st := .halting, sqHead := head }).cmdsOf f q) f q cut n
  obtain ⟨rfl, rfl⟩ := queue_names h
  have hset : ((s.endFetch x.func x.qid).setQueue { x with st := .halting, sqHead := head }).queue x.func x.qid
      = some { x with st := .halting, sqHead := head } :=
    queue_setQueue (y := { x with st := .halting, sqHead := head }) (x := x) (by rw [State.queue, s.endFetch_qen]; exact h)
  refine ⟨⟨{ x with st := .halting, sqHead := head }, ?_, rfl, rfl, rfl, rfl⟩, fun c hcm hn => ?_, fun p hpm => hp ?_, cut, hc, hf, hqid, hk⟩
  · unfold State.queue at hset ⊢
    rw [hq]
    exact hset
  · exact hd c hcm c (mem_cmdsOf.2 ⟨hm hcm, hn⟩) rfl
  · show p ∈ (s.endFetch x.func x.qid).qen.posts
    rw [s.endFetch_qen]
    exact hpm

/-! ## QEN_HALT -/

section
variable {f : Fin 64} {q : Nat} {s : State}

/-- Whether a halt of a function waits for its cut. -/
def State.haltBusy (s : State) (f : Nat) : Bool := s.qen.cuts.any fun (c : Cut) => c.func == f && decide (c.kind = .halt)

theorem exec_qenHalt_refused (h : s.queue f (q % 1024) = none ∨ q % 1024 = 0
    ∨ (∃ x, s.queue f (q % 1024) = some x ∧ x.st ≠ .active) ∨ s.haltBusy f = true) :
    exec (.qenHalt f q) s = .next ((s.put (funAt .qen f) F.QEN_HALT_QID q).put (funAt .qen f) F.QEN_HALT_STATUS_REFUSED 1) := by
  refine congrArg Host.Outcome.next (?_ : (s.put (funAt .qen f) F.QEN_HALT_QID q).haltGo f (q % 1024) = _)
  unfold State.haltGo
  dsimp only
  split
  · rfl
  · next x hx =>
    replace hx : s.queue f (q % 1024) = some x := hx
    refine if_pos ?_
    rcases h with h | h | ⟨y, hy, hst⟩ | h
    · exact absurd (h.symm.trans hx) (Option.some_ne_none _).symm
    · exact .inl h
    · rw [hy] at hx
      exact .inr (.inl (Option.some.inj hx ▸ hst))
    · exact .inr (.inr h)

theorem exec_qenHalt_cuts {x : Queue} (hx : s.queue f (q % 1024) = some x) (hq : q % 1024 ≠ 0) (ha : x.st = .active)
    (hb : s.haltBusy f = false) : exec (.qenHalt f q) s = .next
      (((s.put (funAt .qen f) F.QEN_HALT_QID q).put (funAt .qen f) F.QEN_HALT_STATUS_QID (q % 1024)).startCut f (q % 1024) .halt) := by
  refine congrArg Host.Outcome.next (?_ : (s.put (funAt .qen f) F.QEN_HALT_QID q).haltGo f (q % 1024) = _)
  unfold State.haltGo
  rw [show (s.put (funAt .qen f) F.QEN_HALT_QID q).queue f (q % 1024) = some x from hx]
  refine if_neg fun h => ?_
  rcases h with h | h | h
  · exact hq h
  · exact h ha
  · exact Bool.false_ne_true (hb.symm.trans h)

end

/-! ## HALT_CUT_COMPLETE -/

section
variable {f : Fin 64} {s : State}

/-- The cut of a function's halt. -/
def State.haltCut (s : State) (f : Nat) : Option Cut :=
  s.qen.cuts.find? fun (c : Cut) => c.func == f && decide (c.kind = .halt)

theorem exec_haltCutComplete_none (h : s.haltCut f = none) : exec (.haltCutComplete f) s = .next s := by
  show execHaltCutComplete f s = _
  unfold State.haltCut at h
  rw [execHaltCutComplete, h]

theorem exec_haltCutComplete_some {c : Cut} (h : s.haltCut f = some c) :
    exec (.haltCutComplete f) s = if s.cutReady c then .next (s.cutDone c).settle else .next s := by
  show execHaltCutComplete f s = _
  unfold State.haltCut at h
  rw [execHaltCutComplete, h]

theorem haltCut_names {c : Cut} (h : s.haltCut f = some c) : c.func = f ∧ c.kind = .halt := by
  have hc := List.find?_some h
  simpa using hc

theorem cutReady_iff {c : Cut} : s.cutReady c = true ↔ c.ports = [] ∧ ∀ p ∈ s.qen.posts, ¬(p.func = c.func ∧ p.qid = c.qid) := by
  simp [State.cutReady, imp_iff_not_or]

theorem cutWaiters_none (h : ∀ d ∈ s.qen.cmds, d.wait ≠ .cut) (f q : Nat) : s.cutWaiters f q = s := by
  unfold State.cutWaiters
  rw [List.find?_eq_none.2 fun d hd => by simp [h d hd]]

theorem pageChanged_only (s : State) (lid : Nat) : s.Only [.pwr] (s.pageChanged lid) := rfl

/-- An entry of the error history leaves pairs, commands and registers. -/
theorem logError_keeps (s : State) (e : ErrEntry) : (s.logError e).regs = s.regs ∧ (s.logError e).qen.queues = s.qen.queues
    ∧ (s.logError e).qen.cmds = s.qen.cmds := by
  unfold State.logError
  dsimp only
  rw [State.only_iff.1 (pageChanged_only _ 1) .qen (by decide), State.only_iff.1 (pageChanged_only _ 1) .regs (by decide)]
  exact ⟨rfl, rfl, rfl⟩

/-- The registers and the pair as a halt's cut has ended. -/
def State.haltEnds (s : State) (c : Cut) (x : Queue) : State :=
  let a := funAt .qen c.func
  ((((s.setQueue { x with st := .halted }).put a F.QEN_HALT_RESULT_RESULT c.result).put a F.QEN_HALT_STATUS_DONE 1).bump a
    F.QEN_CNT_HALTS).epEvt 1

theorem haltEnds_only (s : State) (c : Cut) (x : Queue) :
    (s.setQueue { x with st := .halted }).Only [.regs, .ep] (s.haltEnds c x) := by
  have hputs : (s.setQueue { x with st := .halted }).Only [.regs] ((((s.setQueue { x with st := .halted }).put (funAt .qen c.func)
      F.QEN_HALT_RESULT_RESULT c.result).put (funAt .qen c.func) F.QEN_HALT_STATUS_DONE 1).bump (funAt .qen c.func) F.QEN_CNT_HALTS) :=
    ((State.put_only ..).trans (State.put_only ..)).trans (State.bump_only ..)
  exact (hputs.mono (by decide)).trans (epEvt_only _ 1)

/-- The end of a halt's cut, where no command waits for it. -/
theorem cutDone_halt {c : Cut} {x : Queue} (hx : s.queue c.func c.qid = some x) (hk : c.kind = .halt)
    (hw : ∀ d ∈ s.qen.cmds, d.wait ≠ .cut) : ∃ u : State, u.regs = s.regs ∧ u.qen.queues = s.qen.queues
      ∧ s.cutDone c = u.haltEnds c x := by
  have hend (u : State) (hm : u.qen.cmds = s.qen.cmds) : (u.haltEnds c x).cutWaiters c.func c.qid = u.haltEnds c x := by
    refine cutWaiters_none (fun d hd => hw d ?_) _ _
    rw [State.only_iff.1 (haltEnds_only u c x) .qen (by decide)] at hd
    exact hm ▸ hd
  unfold State.cutDone
  dsimp only
  generalize he : ({ s with qen := { s.qen with cuts := s.qen.cuts.erase c } } : State) = s1
  have h1 : s1.regs = s.regs ∧ s1.qen.queues = s.qen.queues ∧ s1.qen.cmds = s.qen.cmds := by
    rw [← he]
    exact ⟨rfl, rfl, rfl⟩
  have hx1 : s1.queue c.func c.qid = some x := by
    rw [State.queue, h1.2.1]
    exact hx
  rw [hx1]
  dsimp only
  rw [hk]
  generalize hu : (if c.discarded = 0 then s1 else s1.logError _) = u
  have h2 : u.regs = s1.regs ∧ u.qen.queues = s1.qen.queues ∧ u.qen.cmds = s1.qen.cmds := by
    rw [← hu]
    split
    · exact ⟨rfl, rfl, rfl⟩
    · exact logError_keeps _ _
  exact ⟨u, h2.1.trans h1.1, h2.2.1.trans h1.2.1, hend u (h2.2.2.trans h1.2.2)⟩

/-- An event of the endpoint leaves a field of another block. -/
theorem epEvt_get (s : State) {a : Nat} {g : Field}
    (h : g.key a 0 0 ≠ ({ off := F.EP_EVT_STATUS_RANGE_DONE.off, hi := 1, lo := 1, acc := .w1c } : Field).key (hubAt .ep) 0 0) :
    (s.epEvt 1).get a g = s.get a g := by
  have hfire (t : State) (n v : Nat) : (t.msixFire n v).regs = t.regs := by
    unfold State.msixFire
    split <;> rfl
  have hregs : (s.epEvt 1).regs =
      (s.put (hubAt .ep) { off := F.EP_EVT_STATUS_RANGE_DONE.off, hi := 1, lo := 1, acc := .w1c } 1).regs := by
    unfold State.epEvt
    dsimp only
    split
    · exact hfire _ _ _
    · rfl
  exact (congrArg (fieldIn · g _) hregs).trans (get_put_other _ _ _ _ _ _ h)

/-- The registers of a halt do not stand where the events of the endpoint do. -/
theorem halt_keys (f : Fin 64) : ∀ g ∈ [F.QEN_HALT_STATUS_DONE, F.QEN_HALT_RESULT_RESULT, F.QEN_CNT_HALTS], g.key (funAt .qen f) 0 0
    ≠ ({ off := F.EP_EVT_STATUS_RANGE_DONE.off, hi := 1, lo := 1, acc := .w1c } : Field).key (hubAt .ep) 0 0 := by
  revert f
  decide

theorem haltEnds_spec {c : Cut} {x : Queue} (hf : c.func = f) (hx : s.queue c.func c.qid = some x) :
    (s.haltEnds c x).queue f c.qid = some { x with st := .halted }
    ∧ (s.haltEnds c x).has (funAt .qen f) F.QEN_HALT_STATUS_DONE = true
    ∧ (s.haltEnds c x).get (funAt .qen f) F.QEN_HALT_RESULT_RESULT = c.result % 2 ^ 32
    ∧ (s.haltEnds c x).get (funAt .qen f) F.QEN_CNT_HALTS = min (s.get (funAt .qen f) F.QEN_CNT_HALTS + 1) 65535 := by
  obtain ⟨hxf, hxq⟩ := queue_names hx
  have hset : (s.setQueue { x with st := .halted }).queue c.func c.qid = some { x with st := .halted } := by
    rw [← hxf, ← hxq] at hx ⊢
    exact queue_setQueue (y := { x with st := .halted }) hx
  refine ⟨?_, ?_, ?_, ?_⟩
  · rw [← hf, State.queue, State.only_iff.1 (haltEnds_only s c x) .qen (by decide)]
    exact hset
  all_goals
    unfold State.haltEnds
    dsimp only
    rw [hf]
  · rw [State.has, epEvt_get _ (halt_keys f F.QEN_HALT_STATUS_DONE (by simp)), get_bump_other _ _ _ _ _ (key_ne_key (by decide)), get_put_same]
    rfl
  · rw [epEvt_get _ (halt_keys f F.QEN_HALT_RESULT_RESULT (by simp)), get_bump_other _ _ _ _ _ (key_ne_key (by decide)),
      get_put_other _ _ _ _ _ _ (key_ne_key (by decide)), get_put_same]
    rfl
  · rw [epEvt_get _ (halt_keys f F.QEN_CNT_HALTS (by simp)), get_bump_same, get_put_other _ _ _ _ _ _ (key_ne_key (by decide)),
      get_put_other _ _ _ _ _ _ (key_ne_key (by decide))]
    rfl

end

/-! ## QEN_MQ_CTL -/

section
variable {f : Fin 64} {s : State} {w : Word} (he : F.QEN_MQ_CTL_CFG_ERR.of w = 0)
include he

theorem mqWrite_of : s.mqWrite f w =
    if s.has (funAt .qen f) F.QEN_MQ_CTL_ENABLE then
      if F.QEN_MQ_CTL_ENABLE.of w = 1 then s
      else ((s.put (funAt .qen f) F.QEN_MQ_CTL_ENABLE 0).startCut f 0 .management).cutsReady
    else
      let s := s.put (funAt .qen f) F.QEN_MQ_CTL_DEPTH (F.QEN_MQ_CTL_DEPTH.of w)
      if F.QEN_MQ_CTL_ENABLE.of w = 1 then
        if 2 ≤ (s.mgmtQueue f).depth ∧ (s.mgmtQueue f).depth ≤ 4096 ∧ (s.queue f 0).isNone then
          let t := s.put (funAt .qen f) F.QEN_MQ_CTL_ENABLE 1
          { t with qen := { t.qen with queues := t.qen.queues ++ [s.mgmtQueue f] } }
        else s.put (funAt .qen f) F.QEN_MQ_CTL_CFG_ERR 1
      else s := by
  unfold State.mqWrite
  dsimp only
  rw [if_neg (show ¬F.QEN_MQ_CTL_CFG_ERR.of w = 1 by rw [he]; decide)]
  by_cases hw : F.QEN_MQ_CTL_ENABLE.of w = 1
  · simp only [hw, decide_true, Bool.not_true, if_true, Bool.false_eq_true, if_false]
  · simp only [hw, decide_false, Bool.not_false, if_true, if_false]

end

theorem mgmtQueue_depth (s : State) (f : Nat) (w : Word) :
    ((s.put (funAt .qen f) F.QEN_MQ_CTL_DEPTH (F.QEN_MQ_CTL_DEPTH.of w)).mgmtQueue f).depth = F.QEN_MQ_CTL_DEPTH.of w :=
  (get_put_same _ _ _ _ _ _).trans (Nat.mod_mod _ _)

/-- The depth is kept apart from the queue's base. -/
theorem mgmtQueue_sqBase (s : State) (f v : Nat) : ((s.put (funAt .qen f) F.QEN_MQ_CTL_DEPTH v).mgmtQueue f).sqBase =
    2 ^ 32 * s.get (funAt .qen f) F.QEN_MQ_SQ_HI_BASE_HI + 2 ^ 12 * s.get (funAt .qen f) F.QEN_MQ_SQ_LO_BASE_LO := by
  unfold State.mgmtQueue hiLo
  dsimp only
  rw [get_put_other _ _ _ _ _ _ (key_ne_key (by decide)), get_put_other _ _ _ _ _ _ (key_ne_key (by decide))]

theorem exec_qenMqCtlWrite {f : Fin 64} {w : Word} {s t : State} (h : s.mqWrite f w = t) :
    exec (.qenMqCtlWrite f w) s = .next t.settle := congrArg (fun u : State => Host.Outcome.next u.settle) h

/-- Settles O45: halts by what refuses them, the cut that a halt makes and its end, and the management pair by its register. -/
theorem queueCuts : Obligations.QueueCuts := by
  intro f q w s
  dsimp only
  refine ⟨exec_qenHalt_refused, fun x hx hq ha hb => ⟨_, exec_qenHalt_cuts hx hq ha hb, startCut_halt_spec hx⟩, fun h => ?_,
    fun c x hc hx => ⟨fun h => ?_, fun hp hn => ⟨?_, fun hw => ?_⟩⟩,
    fun he => ⟨fun hs hw => ?_, fun hs hw => ?_, fun hs hw => ?_, fun hs hw hd => ?_, fun hs hw h2 h4 hq => ?_⟩⟩
  · refine exec_haltCutComplete_none (List.find?_eq_none.2 fun c hc => ?_)
    simpa using h c hc
  · refine (exec_haltCutComplete_some hc).trans (if_neg fun hr => ?_)
    obtain ⟨hp, hn⟩ := cutReady_iff.1 hr
    rcases h with h | ⟨p, hm, hf, hq⟩
    · exact h hp
    · exact hn p hm ⟨hf.trans (haltCut_names hc).1.symm, hq⟩
  · refine (exec_haltCutComplete_some hc).trans (if_pos (cutReady_iff.2 ⟨hp, ?_⟩))
    rw [(haltCut_names hc).1]
    exact hn
  · obtain ⟨hf, hk⟩ := haltCut_names hc
    have hxc : s.queue c.func c.qid = some x := by rw [hf]; exact hx
    obtain ⟨u, hr, hq, heq⟩ := cutDone_halt hxc hk hw
    rw [heq, ← show u.get (funAt .qen f) F.QEN_CNT_HALTS = s.get (funAt .qen f) F.QEN_CNT_HALTS from congrArg (fieldIn · _ _) hr]
    exact haltEnds_spec hf (by rw [State.queue, hq]; exact hxc)
  · exact exec_qenMqCtlWrite ((mqWrite_of he).trans ((if_pos hs).trans (if_pos hw)))
  · exact exec_qenMqCtlWrite ((mqWrite_of he).trans ((if_pos hs).trans (if_neg hw)))
  · exact exec_qenMqCtlWrite ((mqWrite_of he).trans ((if_neg (Bool.eq_false_iff.1 hs)).trans (if_neg hw)))
  · refine exec_qenMqCtlWrite ((mqWrite_of he).trans ((if_neg (Bool.eq_false_iff.1 hs)).trans ((if_pos hw).trans (if_neg ?_))))
    rw [mgmtQueue_depth]
    omega
  · refine ⟨(s.put (funAt .qen f) F.QEN_MQ_CTL_DEPTH (F.QEN_MQ_CTL_DEPTH.of w)).mgmtQueue f,
      exec_qenMqCtlWrite ((mqWrite_of he).trans ((if_neg (Bool.eq_false_iff.1 hs)).trans ((if_pos hw).trans (if_pos ?_)))),
      rfl, rfl, rfl, mgmtQueue_depth s f w, rfl, rfl, rfl, mgmtQueue_sqBase s f _⟩
    rw [mgmtQueue_depth]
    exact ⟨h2, h4, Option.isNone_iff_eq_none.2 hq⟩

end Sys2Proof.Machine
end

section
/-! The focus loop (R196–R198). -/
namespace Sys2Proof.Machine

/-! ## The shared operations of a bay's servo -/

section
variable (s : State) (b : Bay)

/-- A bay's servo as a sweep starts. -/
def Osv.swept (x : Osv) : Osv :=
  { x with
    f := .sweep, t := if x.t = .off then .off else .hold
    sweepPos := -32768, peaks := 0, sweepMax := 0, risen := false
    target := if x.counting then 0 else x.layer, longSnag := false, flockRun := 0, fForce := none, tForce := none }

/-- A sweep restarts the slots of the bay's focus, and its servo. -/
theorem State.osvSweep_from : ∃ u : State, s.Only [.trn] u ∧ s.osvSweep b = u.setOsv b s.osv[b].swept :=
  ⟨_, (State.slotRestart_only ..).trans (State.slotRestart_only ..), rfl⟩

theorem State.osvSweep_only : s.Only [.trn, .osv] (s.osvSweep b) := by
  obtain ⟨u, hu, h⟩ := s.osvSweep_from b
  rw [h]
  exact (hu.mono (show _ ⊆ [.trn, .osv] by decide)).then_ (State.setOsv_only ..) (by decide)

theorem State.osvSweep_same : (s.osvSweep b).osv[b] = s.osv[b].swept := by
  obtain ⟨u, -, h⟩ := s.osvSweep_from b
  rw [h]
  exact setOsv_same _ _ _

theorem State.osvSweep_other {c : Bay} (hc : c ≠ b) : (s.osvSweep b).osv[c] = s.osv[c] := by
  obtain ⟨u, hu, h⟩ := s.osvSweep_from b
  rw [h]
  exact (setOsv_other _ _ _ _ hc).trans (congrArg (·[c]) (State.only_iff.1 hu .osv (by decide)))

theorem State.moveOutcome_only (r : MoveReq) (ok : Bool) : s.Only [.dies, .ports, .lat] (s.moveOutcome b r ok) := by
  have hend (t : State) (i : Nat) (st : WStatus) : t.Only [.dies, .ports, .lat] (t.endItem (dieOfBay b) i st) :=
    (t.endItem_only (dieOfBay b) i st 0 none).mono (by decide)
  unfold State.moveOutcome
  split
  · exact hend _ _ _
  · split
    · exact .refl _ s
    · split
      · dsimp only
        split
        · exact ((State.setLat_only ..).mono (by decide)).trans (hend _ _ _)
        · exact (State.setLat_only ..).mono (by decide)
      · exact .refl _ s
  · exact .refl _ s

/-- A bay's servo without a manoeuvre. -/
def Osv.still (x : Osv) : Osv := { x with move := none, phase := .idle, seeks := 0, fForce := none, tForce := none }

theorem State.moveEnd_osv (ok : Bool) : (s.moveEnd b ok).osv = (s.setOsv b s.osv[b].still).osv := by
  unfold State.moveEnd
  dsimp only
  split
  · exact State.only_iff.1 (State.moveOutcome_only _ b _ ok) .osv (by decide)
  · rfl

theorem State.moveEnd_same (ok : Bool) : (s.moveEnd b ok).osv[b] = s.osv[b].still := by
  rw [s.moveEnd_osv]
  exact setOsv_same _ _ _

/-- With its focus off a bay has no manoeuvre, and none waits. -/
theorem State.osvOff_same : (s.osvOff b).osv[b].f = .off ∧ (s.osvOff b).osv[b].t = .off ∧ (s.osvOff b).osv[b].move = none
    ∧ (s.osvOff b).osv[b].pending = none := by
  unfold State.osvOff
  dsimp only
  rw [setOsv_same]
  refine ⟨rfl, rfl, ?_, rfl⟩
  dsimp only
  split
  · rw [State.only_iff.1 (State.moveOutcome_only _ b _ false) .osv (by decide), s.moveEnd_same]
    rfl
  · rw [s.moveEnd_same]
    rfl

theorem State.focusCapture_from (layer : Nat) : ∃ u : State, s.Only [.trn] u
    ∧ s.focusCapture b layer = u.setOsv b { s.osv[b] with f := .capture, layer, flockRun := 0, fForce := none } := by
  have hu := State.slotRestart_only s (dieOfBay b) (osvSlot b 0)
  refine ⟨_, hu, ?_⟩
  rw [← show (s.slotRestart (dieOfBay b) (osvSlot b 0)).osv[b] = s.osv[b] from
    congrArg (·[b]) (State.only_iff.1 hu .osv (by decide))]
  rfl

/-- What a capture leaves of the state, and what it makes of the bays' servos. -/
theorem State.focusCapture_spec (layer : Nat) :
    s.Only [.osv, .trn] (s.focusCapture b layer) ∧ (∀ c, c ≠ b → (s.focusCapture b layer).osv[c] = s.osv[c])
    ∧ (s.focusCapture b layer).osv[b] = { s.osv[b] with f := .capture, layer, flockRun := 0, fForce := none } := by
  obtain ⟨u, hu, h⟩ := s.focusCapture_from b layer
  rw [h]
  exact ⟨(hu.mono (show _ ⊆ [.osv, .trn] by decide)).then_ (State.setOsv_only ..) (by decide),
    fun c hc => (setOsv_other _ _ _ _ hc).trans (congrArg (·[c]) (State.only_iff.1 hu .osv (by decide))), setOsv_same _ _ _⟩

/-! ## A failed attempt -/

/-- A try that is not the third sweeps again. -/
theorem State.focusRetry_again (hc : s.osv[b].counting = false) (h : s.osv[b].tries < 2) :
    (s.focusRetry b).osv[b].tries = s.osv[b].tries + 1 ∧ (s.focusRetry b).osv[b].f = .sweep
    ∧ (s.focusRetry b).osv[b].target = s.osv[b].layer ∧ (s.focusRetry b).dies = s.dies := by
  have heq : s.focusRetry b = (s.setOsv b { s.osv[b] with tries := min 3 (s.osv[b].tries + 1) }).osvSweep b :=
    if_pos (by omega)
  rw [heq, State.osvSweep_same, setOsv_same]
  refine ⟨Nat.min_eq_right (by omega), rfl, ?_, State.only_iff.1 (State.osvSweep_only _ b) .dies (by decide)⟩
  show (if s.osv[b].counting then 0 else s.osv[b].layer) = _
  rw [hc]
  rfl

/-- The third try fails the focus. -/
theorem State.focusRetry_fails (h : 2 ≤ s.osv[b].tries) : (s.focusRetry b).osv[b].f = .failed ∧ (s.focusRetry b).osv[b].t = .off
    ∧ (s.focusRetry b).osv[b].tries = 3 ∧ (s.focusRetry b).osv[b].pending = none := by
  unfold State.focusRetry
  dsimp only
  rw [if_neg (by omega), State.only_iff.1 (State.setMounted_only _ b false) .osv (by decide), State.endBayItems_osv,
    State.only_iff.1 (State.raiseBay_only ..) .osv (by decide)]
  have hset (v : Vector Osv 12) (y : Osv) : (v.set b y)[b] = y := by simp
  rw [hset, setOsv_same, State.moveEnd_same, setOsv_same]
  exact ⟨rfl, rfl, Nat.min_eq_left (by omega), rfl⟩

end

/-! ## A loss -/

section
variable (s : State) (b : Bay)

/-- The count of losses of focus stands apart from the registers that a loss changes in other blocks. -/
theorem losses_key (b : Bay) : let k := F.TRN_OSV_CNT_FOC_LOSSES.key (osvA b) 0 0
    k ≠ F.LAT_BAY_CTL_BORROWED.key (bayAt .lat b) 0 0 ∧ k ≠ F.SFE_CTL_MANUAL.key (bayAt .sfe b) 0 0
    ∧ k ≠ F.REC_CNT_LOGS_PARTIAL.key (recA b) 0 0 ∧ k ≠ F.REC_CNT2_WI_STOPS.key (recA b) 0 0 := by
  revert b
  decide

/-- What a step leaves: the servos of every bay, and a bay's count of losses of focus. -/
def State.KeepsFocus (s t : State) (b : Bay) : Prop :=
  t.osv = s.osv ∧ t.get (osvA b) F.TRN_OSV_CNT_FOC_LOSSES = s.get (osvA b) F.TRN_OSV_CNT_FOC_LOSSES

namespace State.KeepsFocus
variable {s t u : State} {b : Bay}

theorem trans (h1 : s.KeepsFocus t b) (h2 : t.KeepsFocus u b) : s.KeepsFocus u b := ⟨h2.1.trans h1.1, h2.2.trans h1.2⟩

theorem of_only {M : List StatePart} (h : s.Only M t) (ho : StatePart.osv ∉ M) (hr : StatePart.regs ∉ M) : s.KeepsFocus t b :=
  ⟨State.only_iff.1 h .osv ho, congrArg (fieldIn · F.TRN_OSV_CNT_FOC_LOSSES _) (State.only_iff.1 h .regs hr)⟩

theorem bump {a : Nat} {f : Field} (h : F.TRN_OSV_CNT_FOC_LOSSES.key (osvA b) 0 0 ≠ f.key a 0 0) : s.KeepsFocus (s.bump a f) b :=
  ⟨rfl, get_bump_other _ _ _ _ _ h⟩

theorem put {a v : Nat} {f : Field} (h : F.TRN_OSV_CNT_FOC_LOSSES.key (osvA b) 0 0 ≠ f.key a 0 0) : s.KeepsFocus (s.put a f v) b :=
  ⟨rfl, get_put_other _ _ _ _ _ _ h⟩

theorem cruInterrupt : s.KeepsFocus (s.cruInterrupt b) b := by
  have hrefl : s.KeepsFocus s b := ⟨rfl, rfl⟩
  unfold State.cruInterrupt
  split
  · unfold State.cruPause
    split
    · exact hrefl
    · dsimp only
      refine trans ?_ (of_only (State.setCru_only ..) (by decide) (by decide))
      unfold State.cruReturn
      dsimp only
      split
      · exact hrefl
      · exact ((of_only (State.setCru_only s b _) (by decide) (by decide)).trans (put (losses_key b).1)).trans (put (losses_key b).2.1)
  · exact hrefl

theorem recPartial : s.KeepsFocus (s.recPartial b) b := by
  unfold State.recPartial
  dsimp only
  split
  · exact ⟨rfl, rfl⟩
  · exact (((trans (of_only (State.setRec_only s b _) (by decide) (by decide)) (bump (losses_key b).2.2.1)).trans
      (of_only (State.raiseBay_only ..) (by decide) (by decide))).trans
      (of_only (State.endItem_only ..) (by decide) (by decide))).trans (of_only (State.logOver_only ..) (by decide) (by decide))

theorem writeInhibit : s.KeepsFocus (s.writeInhibit b) b := by
  unfold State.writeInhibit
  dsimp only
  split
  · exact (trans (of_only (State.setRec_only s b _) (by decide) (by decide)) (bump (losses_key b).2.2.2)).trans recPartial
  · exact of_only (State.setRec_only ..) (by decide) (by decide)

end State.KeepsFocus

/-- A bay's servo as tracking is lost. -/
def Osv.untracked (x : Osv) : Osv :=
  if x.t = .locked ∨ x.t = .capture ∨ x.t = .jump then { x with t := .hold, tlockRun := 0, checkDue := false } else x

theorem State.trackLost_focus : (s.trackLost b).osv[b] = s.osv[b].untracked
    ∧ (s.trackLost b).get (osvA b) F.TRN_OSV_CNT_FOC_LOSSES = s.get (osvA b) F.TRN_OSV_CNT_FOC_LOSSES := by
  unfold State.trackLost Osv.untracked
  dsimp only
  split
  · have h1 := State.KeepsFocus.bump (s := s.setOsv b { s.osv[b] with t := .hold, tlockRun := 0, checkDue := false })
      (b := b) (f := F.TRN_OSV_CNT_TRK_LOSSES) (a := osvA b) (key_ne_key (by decide))
    obtain ⟨ho, hr⟩ := (h1.trans (.of_only (State.raiseBay_only ..) (by decide) (by decide))).trans .cruInterrupt
    exact ⟨(congrArg (·[b]) ho).trans (setOsv_same _ _ _), hr⟩
  · exact ⟨rfl, rfl⟩

/-- A bay's servo as focus is lost. -/
def Osv.unfocused (x : Osv) : Osv := { x with f := .hold, lowRun := 0, highRun := 0, longSnag := false }

theorem State.focusLost_focus : (s.focusLost b).osv[b] = s.osv[b].unfocused.untracked
    ∧ (s.focusLost b).get (osvA b) F.TRN_OSV_CNT_FOC_LOSSES = min (s.get (osvA b) F.TRN_OSV_CNT_FOC_LOSSES + 1) 255 := by
  obtain ⟨u, hu, h⟩ : ∃ u, ((s.setOsv b s.osv[b].unfocused).bump (osvA b) F.TRN_OSV_CNT_FOC_LOSSES).KeepsFocus u b
      ∧ (u.trackLost b).KeepsFocus (s.focusLost b) b := by
    refine ⟨_, .trans (.of_only (State.raiseBay_only _ b 0x0403 0 0xFFFF 0 0) (by decide) (by decide)) .cruInterrupt, ?_⟩
    unfold State.focusLost
    dsimp only
    split
    · exact .writeInhibit
    · exact ⟨rfl, rfl⟩
  obtain ⟨ho, hr⟩ := u.trackLost_focus b
  rw [h.1, h.2, ho, hr, hu.1, hu.2]
  exact ⟨congrArg Osv.untracked (setOsv_same _ _ _), get_bump_same _ _ _ _ _⟩

end

/-! ## TRN_OSV_CTL -/

section
variable {s : State} {b : Bay} {w : Word}

theorem exec_focEnSet_idle (h : s.has (osvA b) F.TRN_OSV_CTL_FOC_EN = true ∨ s.dies[dieOfBay b].safe = true) :
    exec (.focEnSet b) s = .next s := congrArg Host.Outcome.next (if_pos (Bool.or_eq_true_iff.2 h))

/-- FOC_EN rises: the sweep begins with no try counted. -/
theorem exec_focEnSet (hf : s.has (osvA b) F.TRN_OSV_CTL_FOC_EN = false) (hs : s.dies[dieOfBay b].safe = false) :
    exec (.focEnSet b) s = .next (((s.put (osvA b) F.TRN_OSV_CTL_FOC_EN 1).setOsv b { s.osv[b] with tries := 0 }).osvSweep b) :=
  congrArg Host.Outcome.next (if_neg (by rw [hf, hs]; exact Bool.false_ne_true))

/-- The registers of TRN_OSV_CTL as written. -/
def State.osvPuts (s : State) (b : Bay) (w : Word) (on : Nat) : State :=
  let a := osvA b
  ((((s.put a F.TRN_OSV_CTL_FOC_EN on).put a F.TRN_OSV_CTL_TRK_EN (F.TRN_OSV_CTL_TRK_EN.of w)).put a
    F.TRN_OSV_CTL_TILT_EN (F.TRN_OSV_CTL_TILT_EN.of w)).put a F.TRN_OSV_CTL_SF_EN (F.TRN_OSV_CTL_SF_EN.of w)).put a
    F.TRN_OSV_CTL_SPIRAL_CHK (F.TRN_OSV_CTL_SPIRAL_CHK.of w)

/-- Tracking goes off where the write clears it. -/
def State.trackOff (s : State) (b : Bay) (w : Word) : State :=
  if F.TRN_OSV_CTL_TRK_EN.of w = 0 ∧ s.osv[b].t ≠ .off then
    (s.cruInterrupt b).setOsv b { (s.cruInterrupt b).osv[b] with t := .off, tlockRun := 0, checkDue := false }
  else s

theorem osvCtl_of (s : State) (b : Bay) (w : Word) : s.osvCtl b w =
    let on := F.TRN_OSV_CTL_FOC_EN.of w == 1
    let was := s.has (osvA b) F.TRN_OSV_CTL_FOC_EN
    let u := (s.osvPuts b w (b2n on)).trackOff b w
    if on ∧ ¬was ∧ ¬u.dies[dieOfBay b].safe then u.focusOn b else if ¬on ∧ was then (u.cruInterrupt b).osvOff b else u := rfl

theorem exec_trnOsvCtlWrite_off (h : s.has (osvA b) F.TRN_OSV_CTL_FOC_EN = true) (hw : F.TRN_OSV_CTL_FOC_EN.of w = 0) :
    exec (.trnOsvCtlWrite b w) s = .next ((((s.osvPuts b w (b2n (F.TRN_OSV_CTL_FOC_EN.of w == 1))).trackOff b w).cruInterrupt b).osvOff b) := by
  refine congrArg Host.Outcome.next ((osvCtl_of s b w).trans ?_)
  dsimp only
  exact (if_neg (by simp [hw])).trans (if_pos (by simp [hw, h]))

theorem exec_trnOsvCtlWrite_on (hw : F.TRN_OSV_CTL_FOC_EN.of w = 1) (ht : F.TRN_OSV_CTL_TRK_EN.of w = 1)
    (h : s.has (osvA b) F.TRN_OSV_CTL_FOC_EN = true) : exec (.trnOsvCtlWrite b w) s = .next (s.osvPuts b w 1) := by
  have htrack : (s.osvPuts b w 1).trackOff b w = s.osvPuts b w 1 := if_neg fun hn => absurd (ht.symm.trans hn.1) (by decide)
  refine congrArg Host.Outcome.next ((osvCtl_of s b w).trans ?_)
  dsimp only
  rw [hw, show b2n (1 == 1) = 1 from rfl, htrack, h]
  exact (if_neg (by simp)).trans (if_neg (by simp))

/-! ## Sweep, capture and hold -/

theorem exec_surfacePeak_idle (h : s.osv[b].f ≠ .sweep ∨ s.osv[b].risen = false) : exec (.surfacePeak b) s = .next s :=
  congrArg Host.Outcome.next (if_pos h)

section
variable (hf : s.osv[b].f = .sweep) (hr : s.osv[b].risen = true)
include hf hr

theorem exec_surfacePeak_target (hc : s.osv[b].counting = false) (hp : s.osv[b].peaks + s.osv[b].target = 16)
    (hfe : |s.osv[b].fe| ≤ fcapBand s b) (hsum : s.osv[b].sweepMax * 15 / 100 ≤ s.osv[b].sum3) :
    exec (.surfacePeak b) s = .next (s.focusCapture b s.osv[b].target) :=
  congrArg Host.Outcome.next ((if_neg (by rw [hf, hr]; simp)).trans (if_pos ⟨hc, hp, hfe, hsum⟩))

theorem exec_surfacePeak_passes (hsum : s.osv[b].sum3 < s.osv[b].sweepMax * 15 / 100) :
    exec (.surfacePeak b) s = .next (s.setOsv b { s.osv[b] with peaks := s.osv[b].peaks + 1, risen := false }) :=
  congrArg Host.Outcome.next ((if_neg (by rw [hf, hr]; simp)).trans
    ((if_neg fun h => absurd h.2.2.2 (not_le_of_gt hsum)).trans (if_pos hsum)))

end

theorem exec_sweepEnd_idle (h : ¬(s.osv[b].f = .sweep ∧ 32767 ≤ s.osv[b].sweepPos)) : exec (.sweepEnd b) s = .next s :=
  congrArg Host.Outcome.next (if_pos (by
    by_cases hf : s.osv[b].f = .sweep
    · exact .inr (lt_of_not_ge fun hp => h ⟨hf, hp⟩)
    · exact .inl hf))

/-- A sweep at the end of its range. -/
theorem exec_sweepEnd (h : s.osv[b].f = .sweep ∧ 32767 ≤ s.osv[b].sweepPos) : exec (.sweepEnd b) s = .next
    (if s.osv[b].counting then
      if s.osv[b].peaks = 17 then (s.setOsv b { s.osv[b] with counting := false, layer := 0 }).osvSweep b else (s.mountFail b).osvOff b
    else s.focusRetry b) :=
  congrArg Host.Outcome.next (if_neg fun hn => hn.elim (fun hf => hf h.1) fun hp => absurd h.2 (not_le_of_gt hp))

theorem exec_captureTimeout_idle (h : s.osv[b].f ≠ .capture) : exec (.captureTimeout b) s = .next s :=
  congrArg Host.Outcome.next (if_pos h)

/-- A capture's timeout ends the capture of a layer jump first. -/
theorem exec_captureTimeout (h : s.osv[b].f = .capture) : ∃ u : State, exec (.captureTimeout b) s = .next (u.focusRetry b)
    ∧ u.osv[b].tries = s.osv[b].tries ∧ (s.osv[b].phase = .idle → u = s) := by
  have heq (u : State) (hu : (match s.osv[b].phase with | .layerCapture _ _ => s.moveEnd b false | _ => s) = u) :
      exec (.captureTimeout b) s = .next (u.focusRetry b) := by
    subst hu
    exact congrArg Host.Outcome.next (if_neg (not_not_intro h))
  cases hp : s.osv[b].phase with
  | layerCapture _ _ =>
    refine ⟨s.moveEnd b false, heq _ (by rw [hp]), ?_, fun hi => by simp at hi⟩
    rw [s.moveEnd_same]
    rfl
  | _ => exact ⟨s, heq _ (by rw [hp]), rfl, fun _ => rfl⟩

theorem exec_holdTimeout (h : s.osv[b].f = .hold) : exec (.holdTimeout b) s = .next (s.focusRetry b) :=
  congrArg Host.Outcome.next (if_pos h)

/-- Whether a bay's focus is lost. -/
def State.losesFocus (s : State) (b : Bay) : Prop := s.osv[b].f = .locked ∧ (16 ≤ s.osv[b].lowRun ∨ s.osv[b].longSnag = true
  ∨ s.trn[dieOfBay b].slots[osvSlot b 0].st = .fault)

theorem exec_trnFocusLost (h : s.losesFocus b) : exec (.trnFocusLost b) s = .next (s.focusLost b) :=
  congrArg Host.Outcome.next (if_pos (by simpa [State.losesFocus] using h))

theorem exec_trnFocusLost_idle (h : ¬s.losesFocus b) : exec (.trnFocusLost b) s = .next s :=
  congrArg Host.Outcome.next (if_neg (by simpa [State.losesFocus] using h))

end

theorem Osv.untracked_f (x : Osv) : x.untracked.f = x.f := by
  unfold Osv.untracked
  split <;> rfl

/-- Settles O24: each event of the focus loop by the states in which it acts. -/
theorem focusStates : Obligations.FocusStates := by
  intro b w s
  dsimp only
  refine ⟨exec_focEnSet_idle, fun hf hs => ⟨_, exec_focEnSet hf hs, ?_⟩, fun h hw => ⟨_, exec_trnOsvCtlWrite_off h hw, State.osvOff_same _ b⟩,
    fun hw ht h => by rw [exec_trnOsvCtlWrite_on hw ht h, State.osvPuts, ht],
    exec_surfacePeak_idle, fun hf hr hc hp hfe hsum => ⟨_, exec_surfacePeak_target hf hr hc hp hfe hsum, ?_⟩,
    exec_surfacePeak_passes, exec_sweepEnd_idle, fun he hc hp => ?_, fun he hc hp => ?_, fun he hc ht => ?_, fun he hc ht => ?_,
    exec_captureTimeout_idle, fun hf hc hp ht => ?_, fun hf ht => ?_, fun h => ?_, fun hf hr => ?_, exec_trnFocusLost_idle,
    fun hf h => ⟨_, exec_trnFocusLost ⟨hf, h⟩, ?_⟩, fun h => ?_, fun hf hr => ?_, fun h => ?_, fun hf hc ht => ?_, fun hf ht => ?_⟩
  case refine_1 =>
    have hset : (s.put (osvA b) F.TRN_OSV_CTL_FOC_EN 1).Only [.osv, .trn]
        (((s.put (osvA b) F.TRN_OSV_CTL_FOC_EN 1).setOsv b { s.osv[b] with tries := 0 }).osvSweep b) :=
      ((State.setOsv_only ..).mono (by decide)).trans ((State.osvSweep_only _ b).mono (by decide))
    refine ⟨hset, fun c hc => (State.osvSweep_other _ b hc).trans (setOsv_other _ _ _ _ hc), ?_⟩
    rw [State.osvSweep_same, setOsv_same]
    exact ⟨rfl, rfl, rfl, rfl⟩
  case refine_2 =>
    obtain ⟨ho, hc, hb⟩ := s.focusCapture_spec b s.osv[b].target
    exact ⟨ho, hc, hb⟩
  case refine_3 =>
    refine ⟨_, (exec_sweepEnd he).trans (by rw [if_pos hc, if_pos hp]), ?_⟩
    beta_reduce
    rw [State.osvSweep_same, setOsv_same]
    exact ⟨rfl, rfl, rfl, State.only_iff.1 (State.osvSweep_only _ b) .dies (by decide)⟩
  case refine_4 => exact (exec_sweepEnd he).trans (by rw [if_pos hc, if_neg hp])
  case refine_5 => exact ⟨_, (exec_sweepEnd he).trans (by rw [if_neg (Bool.eq_false_iff.1 hc)]), s.focusRetry_again b hc ht⟩
  case refine_6 => exact ⟨_, (exec_sweepEnd he).trans (by rw [if_neg (Bool.eq_false_iff.1 hc)]), s.focusRetry_fails b ht⟩
  case refine_7 =>
    obtain ⟨u, hu, -, hidle⟩ := exec_captureTimeout hf
    rw [hidle hp] at hu
    exact ⟨_, hu, s.focusRetry_again b hc ht⟩
  case refine_8 =>
    obtain ⟨u, hu, htries, -⟩ := exec_captureTimeout hf
    obtain ⟨hfail, -, h3, -⟩ := u.focusRetry_fails b (htries ▸ ht)
    exact ⟨_, hu, hfail, h3⟩
  case refine_9 => exact congrArg Host.Outcome.next (if_neg h)
  case refine_10 => exact congrArg Host.Outcome.next (if_pos ⟨hf, hr⟩)
  case refine_11 =>
    obtain ⟨ho, hr⟩ := s.focusLost_focus b
    rw [ho]
    exact ⟨s.osv[b].unfocused.untracked_f, fun ht => congrArg Osv.t (if_pos (c := s.osv[b].unfocused.t = .locked ∨ _ ∨ _) ht), hr⟩
  case refine_12 => exact congrArg Host.Outcome.next (if_neg h)
  case refine_13 =>
    obtain ⟨ho, hc, hb⟩ := s.focusCapture_spec b s.osv[b].layer
    exact ⟨_, congrArg Host.Outcome.next (if_pos ⟨hf, hr⟩), ho, hb, hc⟩
  case refine_14 => exact congrArg Host.Outcome.next (if_neg h)
  case refine_15 => exact ⟨_, exec_holdTimeout hf, s.focusRetry_again b hc ht⟩
  case refine_16 =>
    obtain ⟨hfail, -, h3, -⟩ := s.focusRetry_fails b ht
    exact ⟨_, exec_holdTimeout hf, hfail, h3⟩

end Sys2Proof.Machine
end

section
/-! Cruise runs and what they measure (R323–R343). -/
namespace Sys2Proof.Machine

/-! ## Triggers -/

section
variable {s : State} {b : Bay}

/-- A trigger joins those that pend. -/
def State.cruPend (s : State) (b : Bay) (t : CruTrigger) : State := s.setCru b { s.cru[b] with
  pending := s.cru[b].pending ++ [(t, s.clock)], state := if s.cru[b].run = none then .wait else s.cru[b].state }

theorem cruRaise_of (s : State) (b : Bay) (t : CruTrigger) : s.cruRaise b t =
    if (t ≠ .now ∧ ¬s.has (cruA b) F.CRU_CTL_AUTO) ∨ s.cru[b].pending.any (·.1 = t) then s else s.cruPend b t := by
  unfold State.cruRaise State.cruPend
  simp only [Option.isNone_iff_eq_none]

theorem exec_cruNow_pends (h : s.cru[b].pending.any (·.1 = .now) = true) : exec (.cruNow b) s = .next s :=
  congrArg Host.Outcome.next ((cruRaise_of s b .now).trans (if_pos (.inr h)))

theorem exec_cruNow (h : s.cru[b].pending.any (·.1 = .now) = false) : exec (.cruNow b) s = .next (s.cruPend b .now) :=
  congrArg Host.Outcome.next ((cruRaise_of s b .now).trans (if_neg fun hn => hn.elim (fun h' => h'.1 rfl) (Bool.eq_false_iff.1 h)))

/-- Whether a temperature stands farther from a reference than the limit. -/
def State.cruFar (s : State) (b : Bay) : Prop :=
  (s.get (cruA b) F.CRU_CFG_CRU_DELTA : Int) < |s.geti (bayAt .sfe b) F.SFE_TEMP_TEMP - s.geti (cruA b) F.CRU_TEMPREF_TOPT_REF|
  ∨ (s.get (cruA b) F.CRU_CFG_CRU_DELTA : Int) < |s.dies[dieOfBay b].temp - s.geti (cruA b) F.CRU_TEMPREF_TDIE_REF|

theorem exec_cruTempCheck_near (h : ¬s.cruFar b) : exec (.cruTempCheck b) s = .next s :=
  congrArg Host.Outcome.next (if_neg (by simpa [State.cruFar] using h))

theorem exec_cruTempCheck_far (h : s.cruFar b) : exec (.cruTempCheck b) s = .next (s.cruRaise b .temp) :=
  congrArg Host.Outcome.next (if_pos (by simpa [State.cruFar] using h))

/-! ## A run's start -/

theorem cruMayStart_spec (h : cruMayStart s b = true) : s.has (cruA b) F.CRU_CTL_ENABLE = true ∧ s.mounted b = true
    ∧ s.osv[b].f = .locked ∧ s.osv[b].t = .locked ∧ s.recp[b].state = .idle ∧ s.lat[b].retry = false ∧ s.osv[b].move = none
    ∧ ∀ o, otherBay b = some o → s.cru[o].borrowed = none := by
  unfold cruMayStart at h
  simp only [Bool.and_eq_true, beq_iff_eq, Bool.not_eq_true'] at h
  obtain ⟨⟨⟨⟨⟨⟨⟨⟨⟨⟨he, hm⟩, hf⟩, ht⟩, -⟩, -⟩, hr⟩, hl⟩, hv⟩, ho⟩, -⟩ := h
  refine ⟨he, hm, hf, ht, hr, hl, hv, fun o hob => ?_⟩
  rw [hob] at ho
  simp only [Bool.and_eq_true, beq_iff_eq] at ho
  exact ho.1

theorem exec_cruRunStart_waits (h : cruMayStart s b = false ∨ cruFirst s b = false ∨ (s.cru[b].run = none ∧ s.cru[b].pending = [])) :
    exec (.cruRunStart b) s = .next s := by
  refine congrArg Host.Outcome.next (?_ : s.cruStart b = s)
  unfold State.cruStart
  dsimp only
  split
  · rfl
  · next hn =>
    rw [Bool.or_eq_true, Bool.not_eq_true', Bool.not_eq_true', not_or] at hn
    obtain ⟨hr, hp⟩ := (h.resolve_left hn.1).resolve_left hn.2
    rw [hr]
    exact if_pos hp

/-- The registers that a run latches as it starts. -/
def State.cruLatch (s : State) (b : Bay) : State :=
  let a := cruA b
  let t := (s.put a F.CRU_TEMPREF_TOPT_REF (ofSigned 16 (s.geti (bayAt .sfe b) F.SFE_TEMP_TEMP))).put a
    F.CRU_TEMPREF_TDIE_REF (ofSigned 16 s.dies[dieOfBay b].temp)
  if (s.cru[b].pending.map (·.1)).any (· = .temp) then
    t.put a F.CRU_LAYERS_DONE (t.get a F.CRU_LAYERS_DONE &&& 2 ^ s.osv[b].layer) else t

/-- The run that a bay's pending triggers start. -/
def State.cruNew (s : State) (b : Bay) : CruRun :=
  { layer := s.osv[b].layer, todo := cruPlan (s.cruLatch b) b (s.cru[b].pending.map (·.1)), items := s.cru[b].items
    now := (s.cru[b].pending.map (·.1)).any (· = .now)
    prev := (s.geti (cruA b) F.CRU_TEMPREF_TOPT_REF, s.geti (cruA b) F.CRU_TEMPREF_TDIE_REF) }

theorem exec_cruRunStart (hm : cruMayStart s b = true) (hf : cruFirst s b = true) (hr : s.cru[b].run = none)
    (hp : s.cru[b].pending ≠ []) (hw : s.isWaiting (.cruCruise b) = false) : exec (.cruRunStart b) s = .next
      (((s.cruLatch b).setCru b { s.cru[b] with pending := [], items := [], starved := false, run := some (s.cruNew b) }).cruNext b) := by
  have hact : s.activate (.cruCruise b) = s := if_neg (Bool.eq_false_iff.1 hw)
  refine congrArg Host.Outcome.next (?_ : s.cruStart b = _)
  unfold State.cruStart
  dsimp only
  rw [if_neg (by rw [hm, hf]; decide), hr]
  dsimp only
  rw [if_neg hp, hact]
  rfl

end

/-- What a run latches leaves the items that are enabled, and so the plan. -/
theorem cruPlan_latch (s : State) (b : Bay) (l : List CruTrigger) : cruPlan (s.cruLatch b) b l = cruPlan s b l := by
  have hget : (s.cruLatch b).get (cruA b) F.CRU_CTL_ITEM_EN = s.get (cruA b) F.CRU_CTL_ITEM_EN := by
    unfold State.cruLatch
    dsimp only
    split
    · rw [get_put_other _ _ _ _ _ _ (key_ne_key (by decide)), get_put_other _ _ _ _ _ _ (key_ne_key (by decide)),
        get_put_other _ _ _ _ _ _ (key_ne_key (by decide))]
    · rw [get_put_other _ _ _ _ _ _ (key_ne_key (by decide)), get_put_other _ _ _ _ _ _ (key_ne_key (by decide))]
  have hon (i : CruItem) : cruEnabled (s.cruLatch b) b i = cruEnabled s b i := congrArg (bitOf · i.bit) hget
  unfold cruPlan cruSpotTodo
  simp only [hon]

theorem cruLatch_only (s : State) (b : Bay) : s.Only [.regs] (s.cruLatch b) := by
  have hputs : s.Only [.regs] ((s.put (cruA b) F.CRU_TEMPREF_TOPT_REF (ofSigned 16 (s.geti (bayAt .sfe b) F.SFE_TEMP_TEMP))).put
      (cruA b) F.CRU_TEMPREF_TDIE_REF (ofSigned 16 s.dies[dieOfBay b].temp)) := (State.put_only ..).trans (State.put_only ..)
  exact hputs.whenDo (State.put_only ..)

/-- The run at its next item, its spot borrowed. -/
def State.cruItem (s : State) (b : Bay) (i : CruItem) (k : Fin 7) : State :=
  let u := if s.cru[b].borrowed = some k then s else s.cruBorrow b k
  u.setCru b { u.cru[b] with
    state := (CruTodo.item i k).state
    run := u.cru[b].run.map fun r => { r with attempt := 1, first := none, points := [], centre := 0, repeats := 0 } }

theorem cruNext_item {s : State} {b : Bay} {r : CruRun} {i : CruItem} {k : Fin 7} {rest : List CruTodo} (hr : s.cru[b].run = some r)
    (ht : r.todo = .item i k :: rest) (hi : i ≠ .taps) : s.cruNext b = s.cruItem b i k := by
  have hspot : (CruTodo.item i k).spot = some k := by
    cases i with
    | taps => exact absurd rfl hi
    | _ => rfl
  unfold State.cruNext
  dsimp only
  rw [hr]
  dsimp only
  rw [ht]
  dsimp only
  rw [hspot]
  rfl

/-- A borrowing, but for the registers that show it. -/
theorem cruBorrow_spec (s : State) (b : Bay) (k : Fin 7) : s.Only [.cru, .regs, .sfe] (s.cruBorrow b k)
    ∧ ∃ saved, (s.cruBorrow b k).cru = s.cru.set b { s.cru[b] with
      borrowed := some k, run := s.cru[b].run.map fun r => { r with saved } } := ⟨rfl, _, rfl⟩

theorem cruItem_only (s : State) (b : Bay) (i : CruItem) (k : Fin 7) : s.Only [.cru, .regs, .sfe] (s.cruItem b i k) := by
  have hu : s.Only [.cru, .regs, .sfe] (if s.cru[b].borrowed = some k then s else s.cruBorrow b k) :=
    .ite (.refl _ s) (cruBorrow_spec s b k).1
  exact hu.trans ((State.setCru_only ..).mono (by decide))

/-- What borrowing a run's spot makes of the calibrators. -/
theorem cruItem_cru {s : State} {b : Bay} {r : CruRun} (hr : s.cru[b].run = some r) (i : CruItem) (k : Fin 7) :
    ∃ saved, (s.cruItem b i k).cru = s.cru.set b { s.cru[b] with
      borrowed := some k, state := (CruTodo.item i k).state
      run := some { r with attempt := 1, first := none, points := [], centre := 0, repeats := 0, saved } } := by
  unfold State.cruItem
  by_cases hk : s.cru[b].borrowed = some k
  · rw [if_pos hk]
    dsimp only
    exact ⟨r.saved, by rw [hr, hk]; rfl⟩
  · rw [if_neg hk]
    dsimp only
    obtain ⟨-, saved, hc⟩ := cruBorrow_spec s b k
    refine ⟨saved, ?_⟩
    have hb : (s.cruBorrow b k).cru[b] = { s.cru[b] with borrowed := some k, run := some { r with saved } } := by
      rw [hc, hr]
      simp
    rw [hb]
    show (s.cruBorrow b k).cru.set b _ = _
    rw [hc, Vector.set_set]
    rfl

section
variable {s : State} {b : Bay}

/-- A start borrows the spot of the plan's first item. -/
theorem cruRunStart_item (hm : cruMayStart s b = true) (hf : cruFirst s b = true) (hr : s.cru[b].run = none)
    (hp : s.cru[b].pending ≠ []) (hw : s.isWaiting (.cruCruise b) = false) {i : CruItem} {k : Fin 7} {rest : List CruTodo}
    (hplan : cruPlan s b (s.cru[b].pending.map (·.1)) = .item i k :: rest) (hi : i ≠ .taps) :
    ∃ t saved, exec (.cruRunStart b) s = .next t ∧ s.Only [.cru, .regs, .sfe] t ∧ t.cru = s.cru.set b { s.cru[b] with
      pending := [], items := [], starved := false, borrowed := some k, state := (CruTodo.item i k).state
      run := some { s.cruNew b with attempt := 1, first := none, points := [], centre := 0, repeats := 0, saved } }
      ∧ (s.cruNew b).todo = .item i k :: rest := by
  have htodo : (s.cruNew b).todo = .item i k :: rest := (cruPlan_latch s b _).trans hplan
  have hl : s.Only [.cru, .regs, .sfe]
      ((s.cruLatch b).setCru b { s.cru[b] with pending := [], items := [], starved := false, run := some (s.cruNew b) }) :=
    ((cruLatch_only s b).mono (by decide)).trans ((State.setCru_only ..).mono (by decide))
  generalize hu : (s.cruLatch b).setCru b { s.cru[b] with pending := [], items := [], starved := false, run := some (s.cruNew b) } = u
    at hl
  have hub : u.cru[b] = { s.cru[b] with pending := [], items := [], starved := false, run := some (s.cruNew b) } := by
    rw [← hu, setCru_same]
  have hur : u.cru[b].run = some (s.cruNew b) := by rw [hub]
  obtain ⟨saved, hc⟩ := cruItem_cru hur i k
  refine ⟨u.cruItem b i k, saved, ?_, hl.trans (cruItem_only u b i k), hc.trans ?_, htodo⟩
  · rw [exec_cruRunStart hm hf hr hp hw, hu, cruNext_item hur htodo hi]
  · rw [hub]
    show u.cru.set b _ = _
    rw [← hu]
    show ((s.cruLatch b).cru.set b _).set b _ = _
    rw [State.only_iff.1 (cruLatch_only s b) .cru (by decide), Vector.set_set]

/-! ## Waits, releases, readings and aborts -/

theorem exec_cruStarved_idle (h : s.cru[b].pending = [] ∨ s.cru[b].starved = true) : exec (.cruStarved b) s = .next s :=
  congrArg Host.Outcome.next (if_pos h)

theorem exec_cruStarved (hp : s.cru[b].pending ≠ []) (hs : s.cru[b].starved = false) : exec (.cruStarved b) s = .next
    (((s.setCru b { s.cru[b] with starved := true }).bump (cruA b) F.CRU_CNT2_STARVATIONS).raiseBay b 0x0803 0 0xFFFF 0 0) :=
  congrArg Host.Outcome.next (if_neg fun h => h.elim hp (Bool.eq_false_iff.1 hs))

theorem exec_cruSpotRelease_none (h : s.cru[b].run = none) : exec (.cruSpotRelease b) s = .next s := by
  refine congrArg Host.Outcome.next (?_ : s.cruRelease b = s)
  rw [State.cruRelease, h]

theorem exec_cruSpotRelease {r : CruRun} {k : Fin 7} {rest : List CruTodo} (hr : s.cru[b].run = some r)
    (ht : r.todo = .release k :: rest) : exec (.cruSpotRelease b) s = .next
      (if s.cru[b].borrowed ≠ some k ∨ s.isWaiting (.sfeTrim b) && !s.sfe[b].spots[k].trimTaken ∨ s.isWaiting (.cruReadPower b) then s
      else (s.cruReturn b).cruAdvance b) := by
  refine congrArg Host.Outcome.next (?_ : s.cruRelease b = _)
  unfold State.cruRelease
  rw [hr]
  dsimp only
  rw [ht]

theorem exec_cruTapSnapshot_none (h : s.cru[b].run = none) : exec (.cruTapSnapshot b) s = .next s := by
  refine congrArg Host.Outcome.next (?_ : s.cruSnapshot b = s)
  unfold State.cruSnapshot
  dsimp only
  rw [h]

theorem exec_cruTapSnapshot_first {r : CruRun} {rest : List CruTodo} (hr : s.cru[b].run = some r) (ht : r.todo = .snapshot :: rest)
    (hs : r.snap = none) (hp : s.cru[b].state ≠ .paused) : exec (.cruTapSnapshot b) s = .next
      (s.setCru b { s.cru[b] with run := some { r with snap := some (tapReading s b) } }) := by
  refine congrArg Host.Outcome.next (?_ : s.cruSnapshot b = _)
  unfold State.cruSnapshot
  dsimp only
  rw [hr]
  dsimp only
  rw [ht, hs]
  exact if_neg hp

theorem cruReturn_none (h : s.cru[b].borrowed = none) : s.cruReturn b = s := by
  unfold State.cruReturn
  dsimp only
  rw [h]

theorem exec_cruRunAbort_run {r : CruRun} (hr : s.cru[b].run = some r) (hi : s.cru[b].items = []) (hri : r.items = [])
    (hb : s.cru[b].borrowed = none) : exec (.cruRunAbort b) s = .next
      ((((s.put (cruA b) F.CRU_TEMPREF_TOPT_REF (ofSigned 16 r.prev.1)).put (cruA b) F.CRU_TEMPREF_TDIE_REF (ofSigned 16 r.prev.2)).bump
        (cruA b) F.CRU_CNT2_ABORTS).setCru b { s.cru[b] with state := .idle, pending := [], run := none, starved := false }) := by
  refine congrArg Host.Outcome.next (?_ : s.cruAbort b = _)
  unfold State.cruAbort
  dsimp only
  rw [cruReturn_none hb, hr, hi]
  dsimp only [Option.map_some, Option.getD_some]
  rw [hri, List.append_nil, List.foldl_nil]
  exact congrArg (State.setCru _ b) (by rw [← hi]; rfl)

theorem exec_cruRunAbort_none (hr : s.cru[b].run = none) (hi : s.cru[b].items = []) (hb : s.cru[b].borrowed = none) :
    exec (.cruRunAbort b) s = .next (s.setCru b { s.cru[b] with state := .idle, pending := [], starved := false }) := by
  refine congrArg Host.Outcome.next (?_ : s.cruAbort b = _)
  unfold State.cruAbort
  dsimp only
  rw [cruReturn_none hb, hr, hi]
  show s.setCru b { s.cru[b] with state := .idle, pending := [], items := [], run := none, starved := false } = _
  rw [← hi, ← hr]

end

/-! ## Points -/

section
variable {s : State} {b : Bay} {r : CruRun} (hr : s.cru[b].run = some r)
include hr

/-- An attempt that fails before the fourth is tried again. -/
theorem cruAttemptFailed_again {i : CruItem} {k : Fin 7} {c : CruCause} {centre : Int} (h : r.attempt < 4) :
    s.cruAttemptFailed b i k c centre = (s.bump (cruA b) F.CRU_CNT2_ATTEMPTS_FAILED).setCru b { s.cru[b] with
      cause := some c
      run := some { r with attempt := r.attempt + 1, first := none, points := [], centre, repeats := 0 } } := by
  unfold State.cruAttemptFailed
  dsimp only
  rw [show (s.bump (cruA b) F.CRU_CNT2_ATTEMPTS_FAILED).cru[b].run = some r from hr]
  exact if_neg (Nat.not_le_of_lt h)

theorem cruMeasured_first {i : CruItem} {k : Fin 7} {v : List Rat} (hf : r.first = none) : s.cruMeasured b i k v =
    s.setCru b { s.cru[b] with run := some { r with first := some v, points := [], centre := 0, repeats := 0 } } := by
  unfold State.cruMeasured
  dsimp only
  rw [hr]
  dsimp only
  rw [hf]

theorem cruMeasured_second {i : CruItem} {k : Fin 7} {v u : List Rat} (hf : r.first = some u) : s.cruMeasured b i k v =
    if cruAgree i u v then (s.cruTake b r.layer i k ((u.zip v).map fun p => (p.1 + p.2) / 2)).cruAdvance b
    else s.cruAttemptFailed b i k .disagree 0 := by
  unfold State.cruMeasured
  dsimp only
  rw [hr]
  dsimp only
  rw [hf]

variable (hb : s.cru[b].borrowed ≠ none) {i : CruItem} {k : Fin 7} {rest : List CruTodo} (ht : r.todo = .item i k :: rest)
include hb ht

theorem cruPoint_tooFew : s.cruPoint b .tooFew =
    if 4 ≤ r.repeats then s.cruAttemptFailed b i k .noData 0
    else s.setCru b { s.cru[b] with run := some { r with repeats := r.repeats + 1 } } := by
  unfold State.cruPoint
  dsimp only
  rw [hr]
  dsimp only
  rw [if_neg hb, ht]

theorem cruPoint_median {v : Rat} (hi : i = .asym) : s.cruPoint b (.median v) = s.cruMeasured b .asym k [v] := by
  subst hi
  unfold State.cruPoint
  dsimp only
  rw [hr]
  dsimp only
  rw [if_neg hb, ht]

/-- A point of a scan. -/
theorem cruPoint_scan {j : Rat} (hi : i = .focus ∨ i = .sa ∨ i = .tilt ∨ i = .rpwr) : s.cruPoint b (.jitter j) =
    if (r.points ++ [j]).length < 5 then s.setCru b { s.cru[b] with run := some { r with points := r.points ++ [j], repeats := 0 } }
    else match cruFit (r.points ++ [j]) with
      | some q => s.cruMeasured b i k [(cruScan s b r.layer i k).1 + (q + r.centre) * (cruScan s b r.layer i k).2]
      | none => s.cruAttemptFailed b i k .fit (r.centre + cruLowest (r.points ++ [j])) := by
  unfold State.cruPoint
  dsimp only
  rw [hr]
  dsimp only
  rw [if_neg hb, ht]
  rcases hi with rfl | rfl | rfl | rfl <;> rfl

end

/-- The vertex that a fit finds lies among the scan's points, and there the parabola's slope is 0. -/
theorem cruFit_vertex {j0 j1 j2 j3 j4 q : Rat} (h : cruFit [j0, j1, j2, j3, j4] = some q) : |q| ≤ 5 / 2
    ∧ 2 * ((2 * j0 - j1 - 2 * j2 - j3 + 2 * j4) / 14) * q + (2 * j4 + j3 - j1 - 2 * j0) / 10 = 0 := by
  unfold cruFit at h
  dsimp only at h
  generalize (2 * j0 - j1 - 2 * j2 - j3 + 2 * j4) / 14 = a at h ⊢
  generalize (2 * j4 + j3 - j1 - 2 * j0) / 10 = c at h ⊢
  split at h
  · exact absurd h (by simp)
  · next ha =>
    split at h
    · next hx =>
      obtain rfl := Option.some.inj h
      have ha0 : a ≠ 0 := fun h0 => ha h0.le
      exact ⟨hx, by field_simp; ring⟩
    · exact absurd h (by simp)

/-! ## The dark phase -/

/-- What the calibrator changes as it takes results: its own part of a bay, registers, and what goes through ports. -/
def State.CruTakes (s t : State) (b : Bay) : Prop :=
  s.Only [.cru, .regs, .staged, .waiting, .groups, .ports] t ∧ ∀ c, c ≠ b → t.cru[c] = s.cru[c]

namespace State.CruTakes
variable {s t u : State} {b : Bay}

theorem refl : s.CruTakes s b := ⟨.refl _ s, fun _ _ => rfl⟩

theorem trans (h1 : s.CruTakes t b) (h2 : t.CruTakes u b) : s.CruTakes u b :=
  ⟨h1.1.trans h2.1, fun c hc => (h2.2 c hc).trans (h1.2 c hc)⟩

theorem of_only {M : List StatePart} (h : s.Only M t) (hM : M ⊆ [.regs, .staged, .waiting, .groups, .ports]) : s.CruTakes t b :=
  ⟨h.mono fun _ hp => (show [StatePart.regs, .staged, .waiting, .groups, .ports] ⊆ _ by decide) (hM hp),
   fun c _ => congrArg (·[c]) (State.only_iff.1 h .cru fun hm => by
    have := hM hm
    simp at this)⟩

theorem setCru (x : Cru) : s.CruTakes (s.setCru b x) b :=
  ⟨(State.setCru_only s b x).mono (by decide), fun _ hc => setCru_other _ _ _ _ hc⟩

theorem foldl {α : Type} {f : State → α → State} (h : ∀ (t : State) x, t.CruTakes (f t x) b) (l : List α) (s : State) :
    s.CruTakes (l.foldl f s) b := by
  induction l generalizing s with
  | nil => exact refl
  | cons x l ih => exact (h s x).trans (ih (f s x))

theorem cruFlag (i : CruItem) (k : Fin 7) (c : CruCause) : s.CruTakes (s.cruFlag b i k c) b :=
  (((of_only (State.put_only ..) (by decide)).trans (of_only (State.bump_only ..) (by decide))).trans (setCru _)).trans
    (of_only (State.raiseBay_only ..) (by decide))

theorem stage (a : Nat) (f : Field) (v i : Nat) : s.CruTakes (s.stage a f v i) b :=
  of_only (M := [.staged]) rfl (by decide)

theorem adc (layer : Nat) (k : Fin 7) (v : List Rat) : s.CruTakes (s.cruTake b layer .adc k v) b := by
  unfold State.cruTake
  dsimp only
  split
  · exact (stage ..).trans (stage ..)
  · exact cruFlag ..

theorem commit (g : Group) (i : CruItem) (k : Fin 7) : s.CruTakes (s.cruCommit b g i k) b := by
  have hset (ok : Bool) : s.CruTakes (s.commitSet g ok) b := by
    unfold State.commitSet
    split
    · exact of_only (State.put_only ..) (by decide)
    · split
      · exact of_only (M := [.waiting, .groups]) rfl (by decide)
      · exact of_only (State.put_only ..) (by decide)
  unfold State.cruCommit
  dsimp only
  split
  · exact hset _
  · exact (hset _).trans (cruFlag ..)

end State.CruTakes

section
variable {s : State} {b : Bay} {l : List (Vector DarkMeans 7 × Vector DarkMeans 7)}

theorem exec_mountDarkPhase_skips (h : s.has (bayAt .osv b) F.TRN_OSV_CTL_FOC_EN = true ∨ s.has (cruA b) F.CRU_CTL_ENABLE = false
    ∨ cruEnabled s b .adc = false) : exec (.mountDarkPhase b l) s = .next s :=
  congrArg Host.Outcome.next (if_pos (by rcases h with h | h | h <;> simp [h]))

theorem cruDarkPhase_takes (s : State) (b : Bay) (l : List (Vector DarkMeans 7 × Vector DarkMeans 7)) :
    s.CruTakes (s.cruDarkPhase b l) b := by
  unfold State.cruDarkPhase
  split
  · exact .refl
  · refine (State.CruTakes.foldl (fun t k => ?_) _ s).trans (.commit ..)
    rcases darkResult k l 0 with ⟨v, n⟩
    have hcount : t.CruTakes (t.bumpBy (cruA b) F.CRU_CNT2_ATTEMPTS_FAILED n) b := .of_only (State.bumpBy_only ..) (by decide)
    cases v with
    | some v => exact hcount.trans (.adc ..)
    | none => exact hcount.trans (.cruFlag ..)

end

/-! ## Quality -/

/-- The lowest of a list's values that count. -/
theorem foldl_min_le {α : Type} (p : α → Prop) [DecidablePred p] (v : α → Nat) (l : List α) (m : Nat) :
    l.foldl (fun (m : Nat) k => if p k then m else min m (v k)) m ≤ m
    ∧ ∀ k ∈ l, ¬p k → l.foldl (fun (m : Nat) k => if p k then m else min m (v k)) m ≤ v k := by
  induction l generalizing m with
  | nil => exact ⟨Nat.le_refl _, fun _ h => absurd h List.not_mem_nil⟩
  | cons x l ih =>
    obtain ⟨h1, h2⟩ := ih (if p x then m else min m (v x))
    have hm : (if p x then m else min m (v x)) ≤ m := by split <;> omega
    refine ⟨h1.trans hm, fun k hk hp => ?_⟩
    rcases List.mem_cons.1 hk with rfl | hk
    · refine h1.trans ?_
      rw [if_neg hp]
      exact Nat.min_le_right _ _
    · exact h2 k hk hp

/-- The pips of a bay, of the grade of its tracking error and of its spots'. -/
def State.cruPips (s : State) (b : Bay) : Nat :=
  (List.finRange 7).foldl (fun (m : Nat) (k : Fin 7) =>
    if s.cru[b].borrowed = some k then m else min m (s.get (cruA b) F.CRU_SPOTk_Q_PIPS k))
    (grade (63 * (20 - (cruTres s s.cru[b] : Rat)) / 15))

/-- A renewed bay, before its figures are written. -/
def State.cruRenew (s : State) (b : Bay) : State :=
  (if s.cru[b].teN = 0 then s.drawn else s).setCru b { s.cru[b] with teSq := 0, teN := 0 }

theorem cruQuality_of (s : State) (b : Bay) : s.cruQuality b =
    (((s.cruRenew b).put (cruA b) F.CRU_BAY_Q_TRES (cruTres s s.cru[b])).put (cruA b) F.CRU_BAY_Q_PIPS
      (if s.osv[b].t = .locked then s.cruPips b else 0)).put (cruA b) F.CRU_BAY_Q_SEQ ((s.cruRenew b).get (cruA b) F.CRU_BAY_Q_SEQ + 1) := rfl

theorem cruRenew_spec (s : State) (b : Bay) : s.Only [.cru, .free] (s.cruRenew b)
    ∧ (s.cruRenew b).cru = s.cru.set b { s.cru[b] with teSq := 0, teN := 0 } := by
  unfold State.cruRenew
  split
  · exact ⟨rfl, rfl⟩
  · exact ⟨rfl, rfl⟩

theorem cruQuality_pips (s : State) (b : Bay) : (s.cruQuality b).get (cruA b) F.CRU_BAY_Q_PIPS =
    (if s.osv[b].t = .locked then s.cruPips b else 0) % 2 ^ F.CRU_BAY_Q_PIPS.width := by
  rw [cruQuality_of, get_put_other _ _ _ _ _ _ (key_ne_key (by decide)), get_put_same]

theorem cruQuality_spec (s : State) (b : Bay) :
    s.Only [.cru, .regs, .free] (s.cruQuality b) ∧ (s.cruQuality b).cru = s.cru.set b { s.cru[b] with teSq := 0, teN := 0 }
    ∧ (s.cruQuality b).get (cruA b) F.CRU_BAY_Q_SEQ = (s.get (cruA b) F.CRU_BAY_Q_SEQ + 1) % 256 := by
  obtain ⟨ho, hc⟩ := cruRenew_spec s b
  rw [cruQuality_of, get_put_same]
  have hget : (s.cruRenew b).get (cruA b) F.CRU_BAY_Q_SEQ = s.get (cruA b) F.CRU_BAY_Q_SEQ :=
    congrArg (fieldIn · _ _) (State.only_iff.1 ho .regs (by decide))
  refine ⟨(ho.mono (show _ ⊆ [.cru, .regs, .free] by decide)).trans ?_, hc, by rw [hget]; rfl⟩
  exact ((((State.put_only ..).trans (State.put_only ..)).trans (State.put_only ..) : State.Only [.regs] _ _)).mono (by decide)

/-- Settles O34: a bay's triggers and runs, and then its points, its dark phase and its figures. -/
theorem cruiseCalibration : Obligations.CruiseCalibration := by
  refine ⟨fun b s => ?_, fun b m dark s => ?_⟩
  · dsimp only
    refine ⟨exec_cruNow_pends, exec_cruNow, fun h1 h2 => exec_cruTempCheck_near fun h => h.elim (not_lt_of_ge h1) (not_lt_of_ge h2),
      fun h => ⟨fun ha hp => ?_, fun ha => ?_⟩, exec_cruRunStart_waits, cruMayStart_spec,
      fun hm hf hr hp hw i k rest hplan hi => ?_, exec_cruStarved_idle, exec_cruStarved, fun r k rest hr ht h => ?_,
      fun r k rest hr ht hb hp hs => ?_, fun h => ⟨exec_cruSpotRelease_none h, exec_cruTapSnapshot_none h⟩,
      fun r rest => exec_cruTapSnapshot_first, fun r => exec_cruRunAbort_run, exec_cruRunAbort_none⟩
    · rw [exec_cruTempCheck_far h, cruRaise_of, if_neg]
      · rfl
      · rw [ha, hp]
        simp
    · rw [exec_cruTempCheck_far h, cruRaise_of, if_pos (.inl ⟨by decide, by rw [ha]; exact Bool.false_ne_true⟩)]
    · obtain ⟨t, saved, ht, ho, hc, htodo⟩ := cruRunStart_item hm hf hr hp hw hplan hi
      refine ⟨t, ht, ho, ?_⟩
      rw [hc]
      refine ⟨fun c hcb => Vector.getElem_set_ne _ _ (Fin.val_ne_of_ne hcb.symm), ?_⟩
      rw [show (s.cru.set b { s.cru[b] with
        pending := [], items := [], starved := false, borrowed := some k, state := (CruTodo.item i k).state
        run := some { s.cruNew b with attempt := 1, first := none, points := [], centre := 0, repeats := 0, saved } })[b] = _ from
          Vector.getElem_set_self _]
      exact ⟨rfl, rfl, rfl, _, rfl, rfl, htodo, rfl, rfl, rfl⟩
    · refine (exec_cruSpotRelease hr ht).trans (congrArg Host.Outcome.next (if_pos ?_))
      exact h.imp_right .inr
    · refine (exec_cruSpotRelease hr ht).trans (congrArg Host.Outcome.next (if_neg ?_))
      rw [hp, hs, Bool.false_and]
      exact fun h => h.elim (fun hn => hn hb) fun h => h.elim Bool.false_ne_true Bool.false_ne_true
  · dsimp only
    refine ⟨fun h => ?_, fun r i k rest hr hb ht => ⟨fun h4 => ?_, fun h4 ha => ?_, fun j hi hl => ?_, fun j q hi hl hq hf => ?_,
      fun j hi hl hq ha => ?_, fun v u hi hf hg => ?_, fun v u hi hf hg ha => ?_⟩, fun _ _ _ _ _ _ => cruFit_vertex,
      exec_mountDarkPhase_skips, fun _ _ _ => ⟨_, rfl, cruDarkPhase_takes s b dark⟩, s.cruQuality b, rfl, ?_⟩
    · refine congrArg Host.Outcome.next (?_ : s.cruPoint b m = s)
      unfold State.cruPoint
      dsimp only
      split
      · rfl
      · next r hr => exact if_pos (h.resolve_left fun hn => by rw [hn] at hr; exact Option.some_ne_none r hr.symm)
    · exact congrArg Host.Outcome.next ((cruPoint_tooFew hr hb ht).trans (if_neg (Nat.not_le_of_lt h4)))
    · exact congrArg Host.Outcome.next ((cruPoint_tooFew hr hb ht).trans ((if_pos h4).trans (cruAttemptFailed_again hr ha)))
    · refine congrArg Host.Outcome.next ((cruPoint_scan hr hb ht hi).trans (if_pos ?_))
      rw [List.length_append, List.length_singleton]
      omega
    · have hlen : ¬(r.points ++ [j]).length < 5 := by
        rw [List.length_append, List.length_singleton]
        omega
      refine congrArg Host.Outcome.next ((cruPoint_scan hr hb ht hi).trans ((if_neg hlen).trans ?_))
      rw [hq]
      exact cruMeasured_first hr hf
    · have hlen : ¬(r.points ++ [j]).length < 5 := by
        rw [List.length_append, List.length_singleton]
        omega
      refine congrArg Host.Outcome.next ((cruPoint_scan hr hb ht hi).trans ((if_neg hlen).trans ?_))
      rw [hq]
      exact cruAttemptFailed_again hr ha
    · exact congrArg Host.Outcome.next ((cruPoint_median hr hb ht hi).trans ((cruMeasured_second hr hf).trans (if_pos hg)))
    · exact congrArg Host.Outcome.next ((cruPoint_median hr hb ht hi).trans ((cruMeasured_second hr hf).trans
        ((if_neg (Bool.eq_false_iff.1 hg)).trans (cruAttemptFailed_again hr ha))))
    · obtain ⟨ho, hc, hseq⟩ := cruQuality_spec s b
      refine ⟨ho, ?_, fun c hcb => ?_, fun ht => ?_, hseq, fun ht k hk => ?_⟩
      · rw [hc]
        exact Vector.getElem_set_self _
      · rw [hc]
        exact Vector.getElem_set_ne _ _ (Fin.val_ne_of_ne hcb.symm)
      · rw [cruQuality_pips, if_neg ht, Nat.zero_mod]
      · rw [cruQuality_pips, if_pos ht]
        exact (Nat.mod_le _ _).trans ((foldl_min_le (fun k => s.cru[b].borrowed = some k)
          (fun k : Fin 7 => s.get (cruA b) F.CRU_SPOTk_Q_PIPS k) (List.finRange 7) _).2 k (List.mem_finRange k) hk)

end Sys2Proof.Machine
end

section
/-! The front end: blocks, temperatures and acquisitions (R77–R103). -/
namespace Sys2Proof.Machine

/-! ## What a block of one spot reads and writes -/

/-- The registers in which a spot shows its codes and its monitors. -/
def spotFields : List Field := [F.SFE_SPOTn_LOOP_PGA, F.SFE_SPOTn_LOOP_OFS, F.SFE_SPOTn_LOOP_ASYM, F.SFE_SPOTn_MON_ENV,
  F.SFE_SPOTn_MON_MID, F.SFE_SPOTn_MON_LSLOW]

/-- The registers below them hold what the loops are set to. -/
theorem spotFields_key {f g : Field} (hg : g ∈ spotFields) {i : Nat} (hf : f.off + i * f.st < 0xB0) (hl : f.lo < 32) (a k : Nat) :
    f.key a i 0 ≠ g.key a k 0 := by
  have hoff : 0xB0 ≤ g.off := by
    revert g
    decide
  unfold Field.key
  rw [Nat.zero_mul, Nat.zero_mul]
  have : a + f.off + i * f.st < a + g.off + k * g.st := by omega
  omega

theorem spotFields_borrowed {g : Field} (hg : g ∈ spotFields) (b : Bay) (k : Fin 7) :
    F.LAT_BAY_CTL_BORROWED.key (bayAt .lat b) 0 0 ≠ g.key (sfeA b) k 0 := by
  revert g b k
  decide

/-- From one state to the other a bay's spots change, and the registers that show them. -/
structure State.SpotsOnly (s t : State) (b : Bay) : Prop where
  only : s.Only [.regs, .sfe] t
  other : ∀ c, c ≠ b → t.sfe[c] = s.sfe[c]
  bay : t.sfe[b] = { s.sfe[b] with spots := t.sfe[b].spots }
  get : ∀ (f : Field) (i : Nat), f.off + i * f.st < 0xB0 → f.lo < 32 → t.get (sfeA b) f i = s.get (sfeA b) f i
  borrowed : t.get (bayAt .lat b) F.LAT_BAY_CTL_BORROWED = s.get (bayAt .lat b) F.LAT_BAY_CTL_BORROWED

namespace State.SpotsOnly
variable {s t u : State} {b : Bay}

theorem refl : s.SpotsOnly s b := ⟨.refl _ s, fun _ _ => rfl, rfl, fun _ _ _ _ => rfl, rfl⟩

theorem trans (h1 : s.SpotsOnly t b) (h2 : t.SpotsOnly u b) : s.SpotsOnly u b :=
  ⟨h1.only.trans h2.only, fun c hc => (h2.other c hc).trans (h1.other c hc), by rw [h2.bay, h1.bay],
    fun f i hf hl => (h2.get f i hf hl).trans (h1.get f i hf hl), h2.borrowed.trans h1.borrowed⟩

theorem put {g : Field} (hg : g ∈ spotFields) (v : Nat) (k : Fin 7) : s.SpotsOnly (s.put (sfeA b) g v k) b :=
  ⟨(State.put_only ..).mono (by decide), fun _ _ => rfl, rfl,
    fun _ _ hf hl => get_put_other _ _ _ _ _ _ (spotFields_key hg hf hl _ _), get_put_other _ _ _ _ _ _ (spotFields_borrowed hg b k)⟩

theorem codes (k : Fin 7) (x : SfeSpot) : s.SpotsOnly (s.spotCodes b k x) b :=
  (((((put (by simp [spotFields]) _ k).trans (put (by simp [spotFields]) _ k)).trans (put (by simp [spotFields]) _ k)).trans
    (put (by simp [spotFields]) _ k)).trans (put (by simp [spotFields]) _ k)).trans (put (by simp [spotFields]) _ k)

theorem setSpot (k : Fin 7) (x : SfeSpot) : s.SpotsOnly (s.setSpot b k x) b :=
  ⟨(State.setSpot_only ..).mono (by decide), fun _ hc => setSfe_other _ _ _ _ hc, by rw [State.setSpot, setSfe_same],
    fun _ _ _ _ => rfl, rfl⟩

section
variable (h : s.SpotsOnly t b)
include h

theorem spotOn (k : Nat) : spotOn t b k = spotOn s b k :=
  congrArg (bitOf · k) (h.get F.SFE_CTL_SPOT_EN 0 (by decide) (by decide))

theorem field {α : Type} (p : Sfe → α) (hp : ∀ (x : Sfe) l, p { x with spots := l } = p x) : p t.sfe[b] = p s.sfe[b] := by
  rw [h.bay, hp]

theorem sfeT : sfeT t b = sfeT s b := by
  have hvel : sfeVel t b = sfeVel s b := by
    unfold sfeVel
    rw [h.field Sfe.velOk fun _ _ => rfl, h.field Sfe.velLast fun _ _ => rfl, h.get F.SFE_VEL_VEL 0 (by decide) (by decide)]
  unfold Machine.sfeT
  rw [hvel]

theorem fcSource : fcSource t b = fcSource s b := by
  have hb (k : Nat) : spotBorrowed t b k = spotBorrowed s b k := congrArg (bitOf · k) h.borrowed
  unfold Machine.fcSource
  rw [h.spotOn, h.spotOn, hb, hb]

theorem rateExp (f : Field) (hf : f.off + 0 * f.st < 0xB0) (hl : f.lo < 32) : rateExp t b f = rateExp s b f := by
  unfold Machine.rateExp
  rw [h.field Sfe.acq fun _ _ => rfl, h.get f 0 hf hl, h.get F.SFE_LOOPCFG_ACQ_SHIFT 0 (by decide) (by decide)]

theorem loopUpdate (x : SfeSpot) (env mid : Rat) (n : Int) : loopUpdate t b x env mid n = loopUpdate s b x env mid n := by
  unfold Machine.loopUpdate
  dsimp only
  rw [h.get F.SFE_LOOPCFG_A_REF 0 (by decide) (by decide), h.get F.SFE_LOOPLIM_G_MIN 0 (by decide) (by decide),
    h.get F.SFE_LOOPLIM_G_MAX 0 (by decide) (by decide), h.get F.SFE_LOOPLIM_B_LIM 0 (by decide) (by decide),
    h.rateExp _ (by decide) (by decide), h.rateExp _ (by decide) (by decide), h.rateExp _ (by decide) (by decide)]

variable {k : Fin 7} (hk : t.sfe[b].spots[k] = s.sfe[b].spots[k])
include hk

theorem sfeFrozen : sfeFrozen t b k = sfeFrozen s b k := by
  have hfc : fcActive t b k = fcActive s b k := by
    unfold fcActive fcSuspended State.has
    rw [h.fcSource, hk, h.get F.SFE_CTL_FC_EN 0 (by decide) (by decide), h.field Sfe.velOk fun _ _ => rfl,
      h.field Sfe.holdSeek fun _ _ => rfl, h.field Sfe.acq fun _ _ => rfl]
  unfold Machine.sfeFrozen
  rw [hfc, hk, h.field Sfe.holdSeek fun _ _ => rfl, h.get F.SFE_CTL_MANUAL 0 (by decide) (by decide)]

theorem trimVal {f : Field} (hf : f.off + k * f.st < 0xB0) (hl : f.lo < 32) : trimVal t b k f k = trimVal s b k f k := by
  unfold Machine.trimVal State.isWaiting
  rw [hk, h.get f k hf hl, State.only_iff.1 h.only .groups (by decide), State.only_iff.1 h.only .waiting (by decide)]

end
end State.SpotsOnly

/-! ## A block of one spot -/

/-- The samples of a spot's block, trimmed, before those it had. -/
def spotHist (s : State) (b : Bay) (k : Fin 7) (raw : List Int) : List Int :=
  ((raw.map (trimmed (toSigned 8 (trimVal s b k F.SFE_TRIMn_ADC_GAIN k)) (toSigned 8 (trimVal s b k F.SFE_TRIMn_ADC_OFS k)))).reverse
    ++ s.sfe[b].spots[k].hist).take 600

/-- The statistics of a spot's block. -/
def spotStats (s : State) (b : Bay) (k : Fin 7) (raw : List Int) : Rat × Rat × Int :=
  blockStats (spotHist s b k raw) raw.length (bitsToSamples (sfeT s b) 24) s.sfe[b].spots[k].b

/-- A spot that has seen its block, before its loops. -/
def spotSeen (s : State) (b : Bay) (k : Fin 7) (raw : List Int) : SfeSpot :=
  let x := s.sfe[b].spots[k]
  let hist := spotHist s b k raw
  let lw := hist.take (bitsToSamples (sfeT s b) 32)
  let lw : Rat := if lw = [] then 0 else (lw.sum : Rat) / lw.length / 1024
  { x with hist, env := (spotStats s b k raw).1, mid := (spotStats s b k raw).2.1
           lslow := if x.snag then x.lslow else x.lslow + (lw - x.lslow) / 16 }

/-- A spot after its block. -/
def spotNext (s : State) (b : Bay) (k : Fin 7) (raw : List Int) : SfeSpot :=
  let x := spotSeen s b k raw
  let x := if bitOf (s.get (sfeA b) F.SFE_CTL_MANUAL) k then manualUpdate x else { x with manual := none }
  let st := spotStats s b k raw
  let x := if s.sfe[b].spots[k].froze || sfeFrozen s b k then x else loopUpdate s b x st.1 st.2.1 st.2.2
  { x with froze := sfeFrozen s b k }

theorem spotBlock_of (s : State) (b : Bay) (k : Fin 7) (raw : List Int) : s.spotBlock b k raw =
    if !spotOn s b k then s else (s.setSpot b k (spotNext s b k raw)).spotCodes b k (spotNext s b k raw) := by
  unfold State.spotBlock spotNext spotSeen spotStats spotHist
  dsimp only

theorem spotCodes_sfe (s : State) (b : Bay) (k : Fin 7) (x : SfeSpot) : (s.spotCodes b k x).sfe = s.sfe := by
  simp only [State.spotCodes, put_sfe]

/-- A spot at the block's end, on or off. -/
def spotAfter (s : State) (b : Bay) (k : Fin 7) (raw : List Int) : SfeSpot :=
  if spotOn s b k then spotNext s b k raw else s.sfe[b].spots[k]

/-- The trims of every spot stand among the settings. -/
theorem trim_low (k : Fin 7) : F.SFE_TRIMn_ADC_GAIN.off + k * F.SFE_TRIMn_ADC_GAIN.st < 0xB0
    ∧ F.SFE_TRIMn_ADC_OFS.off + k * F.SFE_TRIMn_ADC_OFS.st < 0xB0 := by
  revert k
  decide

section
variable {s t : State} {b : Bay} {k : Fin 7}

/-- What a spot's block makes of it does not depend on the spots before it. -/
theorem spotNext_eq (h : s.SpotsOnly t b) (hk : t.sfe[b].spots[k] = s.sfe[b].spots[k]) (raw : List Int) :
    spotNext t b k raw = spotNext s b k raw := by
  have hhist : spotHist t b k raw = spotHist s b k raw := by
    unfold spotHist
    rw [hk, h.trimVal hk (trim_low k).1 (by decide), h.trimVal hk (trim_low k).2 (by decide)]
  have hstats : spotStats t b k raw = spotStats s b k raw := by
    unfold spotStats
    rw [hhist, h.sfeT, hk]
  unfold spotNext spotSeen
  rw [hhist, hstats, h.sfeT, hk, h.sfeFrozen hk, h.get F.SFE_CTL_MANUAL 0 (by decide) (by decide)]
  simp only [h.loopUpdate]

/-- One spot's block, after those of other spots. -/
theorem spotBlock_spec (h : s.SpotsOnly t b) (hk : t.sfe[b].spots[k] = s.sfe[b].spots[k]) (raw : List Int) :
    s.SpotsOnly (t.spotBlock b k raw) b ∧ (t.spotBlock b k raw).sfe[b].spots[k] = spotAfter s b k raw
    ∧ ∀ j, j ≠ k → (t.spotBlock b k raw).sfe[b].spots[j] = t.sfe[b].spots[j] := by
  rw [spotBlock_of, spotAfter, h.spotOn]
  cases hon : spotOn s b k with
  | false =>
    rw [Bool.not_false, if_pos rfl, if_neg Bool.false_ne_true]
    exact ⟨h, hk, fun _ _ => rfl⟩
  | true =>
    rw [Bool.not_true, if_neg Bool.false_ne_true, if_pos rfl]
    refine ⟨h.trans ((State.SpotsOnly.setSpot k _).trans (.codes k _)), ?_, fun j hj => ?_⟩
    · rw [spotCodes_sfe, State.setSpot, setSfe_same, spotNext_eq h hk]
      exact Vector.getElem_set_self _
    · rw [spotCodes_sfe, State.setSpot, setSfe_same]
      exact Vector.getElem_set_ne k.isLt j.isLt (Fin.val_ne_of_ne hj.symm)

/-- The blocks of several spots. -/
theorem spotBlocks_spec (raw : Vector (List Int) 7) (l : List (Fin 7)) (hl : l.Nodup) (h : s.SpotsOnly t b)
    (hk : ∀ k ∈ l, t.sfe[b].spots[k] = s.sfe[b].spots[k]) :
    s.SpotsOnly (l.foldl (fun t (k : Fin 7) => t.spotBlock b k raw[k]) t) b
    ∧ (∀ k ∈ l, (l.foldl (fun t (k : Fin 7) => t.spotBlock b k raw[k]) t).sfe[b].spots[k] = spotAfter s b k raw[k])
    ∧ ∀ k, k ∉ l → (l.foldl (fun t (k : Fin 7) => t.spotBlock b k raw[k]) t).sfe[b].spots[k] = t.sfe[b].spots[k] := by
  induction l generalizing t with
  | nil => exact ⟨h, fun _ h => absurd h List.not_mem_nil, fun _ _ => rfl⟩
  | cons j l ih =>
    obtain ⟨hj, hl⟩ := List.nodup_cons.1 hl
    obtain ⟨h1, hsame, hother⟩ := spotBlock_spec h (hk j (.head _)) raw[j]
    obtain ⟨h2, hin, hout⟩ := ih hl h1 fun k hkl =>
      (hother k fun he => hj (he ▸ hkl)).trans (hk k (.tail _ hkl))
    refine ⟨h2, fun k hkl => ?_, fun k hkl => ?_⟩
    · rcases List.mem_cons.1 hkl with rfl | hkl
      · exact (hout k hj).trans hsame
      · exact hin k hkl
    · exact (hout k fun h => hkl (.tail _ h)).trans (hother k fun he => hkl (he ▸ .head _))

end

/-! ## The bay's block -/

section
variable {s : State} {b : Bay} {raw : Vector (List Int) 7}

/-- The blocks of a bay's spots. -/
def State.spotBlocks (s : State) (b : Bay) (raw : Vector (List Int) 7) : State :=
  (List.finRange 7).foldl (fun t (k : Fin 7) => t.spotBlock b k raw[k]) s

/-- A block of an acquisition runs down. -/
def State.blockCounted (s : State) (b : Bay) : State :=
  if s.sfe[b].acq then s.setSfe b { s.sfe[b] with acqLeft := s.sfe[b].acqLeft - 1 } else s

theorem blockCounted_only (s : State) (b : Bay) : s.Only [.regs, .sfe] (s.blockCounted b) :=
  .ite ((State.setSfe_only ..).mono (by decide)) (.refl _ s)

theorem blockCounted_other (s : State) {b c : Bay} (hc : c ≠ b) : (s.blockCounted b).sfe[c] = s.sfe[c] := by
  unfold State.blockCounted
  split
  · exact setSfe_other _ _ _ _ hc
  · rfl

theorem blockCounted_same (s : State) (b : Bay) : (s.blockCounted b).sfe[b] =
    { s.sfe[b] with acqLeft := if s.sfe[b].acq then s.sfe[b].acqLeft - 1 else s.sfe[b].acqLeft } := by
  unfold State.blockCounted
  split
  · exact setSfe_same _ _ _
  · rfl

/-- A block without clipping and without a set that waits. -/
theorem exec_sfeBlockBoundary (h1 : s.isWaiting (.sfeLoop b) = false) (h2 : s.isWaiting (.sfeSnag b) = false)
    (h3 : s.isWaiting (.sfeForecast b) = false) (hc : clippedBlock s b raw = false) : exec (.sfeBlockBoundary b raw) s = .next
      ((s.spotBlocks b raw).blockCounted b) := by
  have hact (g : Group) (h : s.isWaiting g = false) : s.activate g = s := if_neg (Bool.eq_false_iff.1 h)
  refine congrArg Host.Outcome.next (?_ : s.sfeBlock b raw = _)
  unfold State.sfeBlock
  dsimp only
  rw [if_neg (Bool.eq_false_iff.1 hc), hact _ h1, hact _ h2, hact _ h3]
  rfl

theorem spotBlocks_all (s : State) (b : Bay) (raw : Vector (List Int) 7) :
    s.SpotsOnly (s.spotBlocks b raw) b ∧ ∀ k, (s.spotBlocks b raw).sfe[b].spots[k] = spotAfter s b k raw[k] := by
  obtain ⟨h, hin, -⟩ := spotBlocks_spec (s := s) (t := s) (b := b) raw (List.finRange 7) (List.nodup_finRange 7) .refl fun _ _ => rfl
  exact ⟨h, fun k => hin k (List.mem_finRange k)⟩

/-! ## A spot after its block -/

variable {k : Fin 7} {l : List Int}

theorem manualUpdate_keeps (x : SfeSpot) : (manualUpdate x).snag = x.snag ∧ (manualUpdate x).windows = x.windows := by
  unfold manualUpdate
  split <;> exact ⟨rfl, rfl⟩

/-- A block sets no flag, and opens no window. -/
theorem spotAfter_keeps (s : State) (b : Bay) (k : Fin 7) (l : List Int) :
    (spotAfter s b k l).snag = s.sfe[b].spots[k].snag ∧ (spotAfter s b k l).windows = s.sfe[b].spots[k].windows := by
  obtain ⟨hs, hw⟩ := manualUpdate_keeps (spotSeen s b k l)
  unfold spotAfter spotNext
  dsimp only
  split
  · split
    · split
      · exact ⟨hs, hw⟩
      · exact ⟨rfl, rfl⟩
    · split
      · exact ⟨hs, hw⟩
      · exact ⟨rfl, rfl⟩
  · exact ⟨rfl, rfl⟩

/-- The manual bit freezes a spot. -/
theorem sfeFrozen_manual (h : bitOf (s.get (sfeA b) F.SFE_CTL_MANUAL) k = true) : sfeFrozen s b k = true := by
  unfold sfeFrozen
  rw [h, Bool.or_true, Bool.true_or]

/-- A frozen spot without a manual value keeps what its loops gave it. -/
theorem spotNext_frozen (hf : s.sfe[b].spots[k].froze = true ∨ sfeFrozen s b k = true) (hm : s.sfe[b].spots[k].manual = none) :
    (spotNext s b k l).g = s.sfe[b].spots[k].g ∧ (spotNext s b k l).o = s.sfe[b].spots[k].o
    ∧ (spotNext s b k l).b = s.sfe[b].spots[k].b := by
  have hman : manualUpdate (spotSeen s b k l) = spotSeen s b k l := by
    unfold manualUpdate
    rw [show (spotSeen s b k l).manual = none from hm]
  unfold spotNext
  dsimp only
  rw [if_pos (Bool.or_eq_true_iff.2 hf), hman]
  split <;> exact ⟨rfl, rfl, rfl⟩

/-- A manual value takes the loops' place. -/
theorem spotNext_manual {w : Word} (hb : bitOf (s.get (sfeA b) F.SFE_CTL_MANUAL) k = true) (hm : s.sfe[b].spots[k].manual = some w) :
    (spotNext s b k l).g = gainOfCode (F.SFE_SPOTn_LOOP_PGA.of w)
    ∧ (spotNext s b k l).o = toSigned 8 (F.SFE_SPOTn_LOOP_OFS.of w) * 16384
    ∧ (spotNext s b k l).b = toSigned 8 (F.SFE_SPOTn_LOOP_ASYM.of w) * 8192 ∧ (spotNext s b k l).manual = none := by
  unfold spotNext
  dsimp only
  rw [if_pos (Bool.or_eq_true_iff.2 (.inr (sfeFrozen_manual hb))), if_pos hb]
  unfold manualUpdate
  rw [show (spotSeen s b k l).manual = some w from hm]
  exact ⟨rfl, rfl, rfl, rfl⟩

/-- The loops of a spot that is free, from its block's statistics. -/
theorem spotNext_free (hx : s.sfe[b].spots[k].froze = false) (hf : sfeFrozen s b k = false) :
    let z := loopUpdate s b s.sfe[b].spots[k] (spotStats s b k l).1 (spotStats s b k l).2.1 (spotStats s b k l).2.2
    (spotNext s b k l).g = z.g ∧ (spotNext s b k l).o = z.o ∧ (spotNext s b k l).b = z.b := by
  have hman : ¬bitOf (s.get (sfeA b) F.SFE_CTL_MANUAL) k = true := fun h =>
    Bool.false_ne_true (hf.symm.trans (sfeFrozen_manual h))
  unfold spotNext
  dsimp only
  rw [if_neg hman, hx, hf, Bool.or_false, if_neg Bool.false_ne_true]
  exact ⟨rfl, rfl, rfl⟩

end

/-! ## Temperature and acquisition -/

section
variable {s : State} {b : Bay}

/-- The registers of a replaced temperature, and its bay. -/
def State.replaced (s : State) (b : Bay) : State :=
  (((s.put (sfeA b) F.SFE_TEMP_TEMP (ofSigned 12 s.dies[dieOfBay b].temp)).put (sfeA b) F.SFE_TEMP_REPLACED 1).bump
    (sfeA b) F.SFE_EVCNT_TEMP_REPL).setSfe b { s.sfe[b] with temps := [], tempSec := some (s.clock / 1000000000) }

theorem tempReplace_of (s : State) (b : Bay) : s.tempReplace b =
    if s.sfe[b].tempSec = some (s.clock / 1000000000) then s.replaced b
    else (s.replaced b).raiseBay b 0x0104 0 0xFFFF (s.replaced b).dies[dieOfBay b].temp := by
  unfold State.tempReplace State.replaced
  dsimp only

theorem tempReplace_from (s : State) (b : Bay) : (s.replaced b).Only [.ports] (s.tempReplace b) := by
  rw [tempReplace_of]
  exact .ite (.refl _ _) (State.raiseBay_only ..)

theorem replaced_only (s : State) (b : Bay) : s.Only [.regs, .sfe] (s.replaced b) := by
  have hregs : s.Only [.regs] (((s.put (sfeA b) F.SFE_TEMP_TEMP (ofSigned 12 s.dies[dieOfBay b].temp)).put (sfeA b)
      F.SFE_TEMP_REPLACED 1).bump (sfeA b) F.SFE_EVCNT_TEMP_REPL) :=
    ((State.put_only ..).trans (State.put_only ..)).trans (State.bump_only ..)
  exact (hregs.mono (by decide)).trans ((State.setSfe_only ..).mono (by decide))

theorem ofSigned_lt (w : Nat) (i : Int) : ofSigned w i < 2 ^ w := by
  unfold ofSigned
  have := Int.emod_lt_of_pos i (b := (2 ^ w : Nat)) (by positivity)
  have := Int.emod_nonneg i (b := (2 ^ w : Nat)) (by positivity)
  omega

theorem replaced_spec (s : State) (b : Bay) : (s.replaced b).sfe[b].temps = []
    ∧ (s.replaced b).get (sfeA b) F.SFE_TEMP_TEMP = ofSigned 12 s.dies[dieOfBay b].temp
    ∧ (s.replaced b).get (sfeA b) F.SFE_TEMP_REPLACED = 1
    ∧ (s.replaced b).get (sfeA b) F.SFE_EVCNT_TEMP_REPL = min (s.get (sfeA b) F.SFE_EVCNT_TEMP_REPL + 1) 255 := by
  have hset (u : State) (x : Sfe) (f : Field) : (u.setSfe b x).get (sfeA b) f = u.get (sfeA b) f := rfl
  unfold State.replaced
  rw [setSfe_same, hset, hset, hset]
  refine ⟨rfl, ?_, ?_, ?_⟩
  · rw [get_bump_other _ _ _ _ _ (key_ne_key (by decide)), get_put_other _ _ _ _ _ _ (key_ne_key (by decide)), get_put_same]
    exact Nat.mod_eq_of_lt (ofSigned_lt 12 _)
  · rw [get_bump_other _ _ _ _ _ (key_ne_key (by decide)), get_put_same]
    rfl
  · rw [get_bump_same, get_put_other _ _ _ _ _ _ (key_ne_key (by decide)), get_put_other _ _ _ _ _ _ (key_ne_key (by decide))]
    rfl

/-- A reading that is replaced: the die's temperature, counted, and reported once a second. -/
theorem tempReplace_spec (s : State) (b : Bay) : s.Only [.regs, .sfe, .ports] (s.tempReplace b) ∧ (s.tempReplace b).sfe[b].temps = []
    ∧ (s.tempReplace b).get (sfeA b) F.SFE_TEMP_TEMP = ofSigned 12 s.dies[dieOfBay b].temp
    ∧ (s.tempReplace b).get (sfeA b) F.SFE_TEMP_REPLACED = 1
    ∧ (s.tempReplace b).get (sfeA b) F.SFE_EVCNT_TEMP_REPL = min (s.get (sfeA b) F.SFE_EVCNT_TEMP_REPL + 1) 255
    ∧ (s.sfe[b].tempSec = some (s.clock / 1000000000) → (s.tempReplace b).ports = s.ports) := by
  have hfrom := tempReplace_from s b
  have hget (f : Field) : (s.tempReplace b).get (sfeA b) f = (s.replaced b).get (sfeA b) f :=
    congrArg (fieldIn · f _) (State.only_iff.1 hfrom .regs (by decide))
  obtain ⟨ht, h1, h2, h3⟩ := replaced_spec s b
  refine ⟨((replaced_only s b).mono (by decide)).trans (hfrom.mono (by decide)), ?_, (hget _).trans h1, (hget _).trans h2,
    (hget _).trans h3, fun h => ?_⟩
  · rw [State.only_iff.1 hfrom .sfe (by decide)]
    exact ht
  · rw [tempReplace_of, if_pos h]
    exact State.only_iff.1 (replaced_only s b) .ports (by decide)

end

/-- Settles O18: a block of a bay's spots, and what stands beside it. -/
theorem frontEnd : Obligations.FrontEnd := by
  refine ⟨fun b raw s h1 h2 h3 hc => ⟨_, exec_sfeBlockBoundary h1 h2 h3 hc, ?_⟩, fun b k ohm w s => ?_⟩
  · obtain ⟨h, hall⟩ := spotBlocks_all s b raw
    rw [blockCounted_same]
    refine ⟨h.only.trans (blockCounted_only _ b), fun c hc => (blockCounted_other _ hc).trans (h.other c hc), ?_,
      h.field Sfe.acq fun _ _ => rfl, h.field Sfe.velOk fun _ _ => rfl, fun k => ?_⟩
    · rw [h.field Sfe.acq fun _ _ => rfl, h.field Sfe.acqLeft fun _ _ => rfl]
    · dsimp only
      rw [hall k]
      obtain ⟨hs, hw⟩ := spotAfter_keeps s b k raw[k]
      refine ⟨hs, hw, fun ho => ?_, fun ho => ?_, fun ho => ?_, fun ho => ?_⟩
      · rw [spotAfter, if_neg (Bool.eq_false_iff.1 ho)]
      all_goals rw [spotAfter, if_pos ho]
      · exact spotNext_frozen
      · exact fun hb w hm => spotNext_manual hb hm
      · exact spotNext_free
  · dsimp only
    refine ⟨?_, rfl, fun i hi => ⟨s.tempReplace b, ?_, tempReplace_spec s b⟩, fun ha hl => congrArg Host.Outcome.next (if_pos ⟨ha, hl⟩),
      fun h => congrArg Host.Outcome.next (if_neg fun hn => ?_), rfl, rfl⟩
    · refine congrArg Host.Outcome.next (?_ : s.thermistorReading b (some ohm) = _)
      unfold State.thermistorReading
      dsimp only [Option.map_some]
    · rcases hi with rfl | rfl
      · rfl
      · rfl
    · rcases h with h | h
      · exact Bool.false_ne_true (h.symm.trans hn.1)
      · exact h hn.2

end Sys2Proof.Machine
end

section
/-! The turn engine: the turn, slot commands, TRN_CTL and banks (R224–R256). -/
namespace Sys2Proof.Machine

/-! ## What only a turn changes -/

/-- A turn engine without its slots and selectors: its counts, its destinations, its clock and its temperature. -/
def Trn.core (x : Trn) : Trn := { x with slots := Vector.replicate 48 {}, sels := Vector.replicate 8 {} }

/-- The turn engines of all dies, without the slots and the selectors of one. -/
def State.turned (s : State) (d : Die) : Vector Trn 8 := s.trn.set d s.trn[d].core

variable {s t : State} {d : Die} {b : Bay}

theorem core_of_turned (h : t.turned d = s.turned d) : t.trn[d].core = s.trn[d].core := by
  have hd : (t.turned d)[d] = (s.turned d)[d] := by rw [h]
  exact (Vector.getElem_set_self _).symm.trans (hd.trans (Vector.getElem_set_self _))

theorem core_fields {x y : Trn} (h : x.core = y.core) : x.count = y.count ∧ x.dest = y.dest ∧ x.dieTemp = y.dieTemp :=
  ⟨(congrArg Trn.count h :), (congrArg Trn.dest h :), (congrArg Trn.dieTemp h :)⟩

theorem trn_of_turned (h : t.turned d = s.turned d) {c : Die} (hc : c ≠ d) : t.trn[c] = s.trn[c] := by
  have hd : (t.turned d)[c] = (s.turned d)[c] := by rw [h]
  have hne := Fin.val_ne_of_ne (Ne.symm hc)
  exact (Vector.getElem_set_ne _ _ hne).symm.trans (hd.trans (Vector.getElem_set_ne _ _ hne))

theorem turned_of_only {M : List StatePart} (h : s.Only M t) (hM : StatePart.trn ∉ M) : t.turned d = s.turned d := by
  have htrn : t.trn = s.trn := State.only_iff.1 h .trn hM
  unfold State.turned
  rw [htrn]

@[simp] theorem State.setSlot_turned (n : Fin 48) (x : TrnSlot) : (s.setSlot d n x).turned d = s.turned d := by
  unfold State.turned State.setSlot
  dsimp only
  rw [Vector.set_set]
  exact congrArg (Vector.set _ _ · _) ((congrArg Trn.core (Vector.getElem_set_self _)).trans rfl)

@[simp] theorem State.setSel_turned (g : Fin 8) (x : TrnSel) : (s.setSel d g x).turned d = s.turned d := by
  unfold State.turned State.setSel
  dsimp only
  rw [Vector.set_set]
  exact congrArg (Vector.set _ _ · _) ((congrArg Trn.core (Vector.getElem_set_self _)).trans rfl)

theorem turned_foldl {α : Type} {f : State → α → State} (l : List α) (h : ∀ (t : State), ∀ x ∈ l, (f t x).turned d = t.turned d)
    (s : State) : (l.foldl f s).turned d = s.turned d := by
  induction l generalizing s with
  | nil => rfl
  | cons x l ih =>
    rw [List.foldl_cons, ih fun t y hy => h t y (List.mem_cons_of_mem _ hy)]
    exact h s x List.mem_cons_self

@[simp] theorem State.turned_if {c : Prop} [Decidable c] {u : State} :
    (if c then t else u).turned d = if c then t.turned d else u.turned d := by
  split <;> rfl

theorem turned_ite {c : Prop} [Decidable c] {u : State} (ht : t.turned d = s.turned d) (hu : u.turned d = s.turned d) :
    (if c then t else u).turned d = s.turned d := by
  rw [State.turned_if, ht, hu, ite_self]

@[simp] theorem State.put_turned (a : Nat) (f : Field) (v i j : Nat) : (s.put a f v i j).turned d = s.turned d := rfl
@[simp] theorem State.bump_turned (a : Nat) (f : Field) (i j : Nat) : (s.bump a f i j).turned d = s.turned d := rfl
@[simp] theorem State.raiseDie_turned (e : Die) (c : Nat) (k : Option Nat) (n u : Nat) (v : Int) (w : Nat) :
    (s.raiseDie e c k n u v w).turned d = s.turned d := rfl
@[simp] theorem State.raiseBay_turned (c n u : Nat) (v : Int) (w : Nat) : (s.raiseBay b c n u v w).turned d = s.turned d := rfl
@[simp] theorem State.setDie_turned (e : Die) (x : DieSt) : (s.setDie e x).turned d = s.turned d := rfl
@[simp] theorem State.setOsv_turned (x : Osv) : (s.setOsv b x).turned d = s.turned d := rfl
@[simp] theorem State.setSfe_turned (x : Sfe) : (s.setSfe b x).turned d = s.turned d := rfl
@[simp] theorem State.setLat_turned (x : LatBay) : (s.setLat b x).turned d = s.turned d := rfl
@[simp] theorem State.setRec_turned (x : Rec) : (s.setRec b x).turned d = s.turned d := rfl
@[simp] theorem State.setCru_turned (x : Cru) : (s.setCru b x).turned d = s.turned d := rfl
@[simp] theorem State.setSpn_turned (x : Spn) : (s.setSpn b x).turned d = s.turned d := rfl
@[simp] theorem State.setYrd_turned (x : Yrd) : (s.setYrd x).turned d = s.turned d := rfl
@[simp] theorem State.setAxis_turned (e : Die) (n : Fin 8) (x : Axis) : (s.setAxis e n x).turned d = s.turned d := rfl
@[simp] theorem State.setGrp_turned (e : Die) (g : Fin 4) (x : Grp) : (s.setGrp e g x).turned d = s.turned d := rfl
@[simp] theorem State.sfeHold_turned : (s.sfeHold b).turned d = s.turned d := rfl
@[simp] theorem State.latHold_turned : (s.latHold b).turned d = s.turned d := rfl
@[simp] theorem State.recClear_turned : (s.recClear b).turned d = s.turned d := rfl
@[simp] theorem State.setMounted_turned (m : Bool) : (s.setMounted b m).turned d = s.turned d := rfl
@[simp] theorem State.axRefuse_turned (e : Die) (n : Fin 8) (r : AxRefuse) : (s.axRefuse e n r).turned d = s.turned d := rfl
@[simp] theorem State.axStop_turned (e : Die) (n : Fin 8) : (s.axStop e n).turned d = s.turned d := rfl

@[simp] theorem State.endItem_turned (e : Die) (i : Nat) (st : WStatus) (cause : Nat) (cont : Option Nat) :
    (s.endItem e i st cause cont).turned d = s.turned d := turned_of_only (s.endItem_only e i st cause cont) (by decide)

@[simp] theorem State.answerResets_turned (e : Die) : (s.answerResets e).turned d = s.turned d :=
  turned_of_only (s.answerResets_only e) (by decide)

@[simp] theorem State.recPartial_turned : (s.recPartial b).turned d = s.turned d := turned_of_only (s.recPartial_only b) (by decide)

@[simp] theorem State.cruReturn_turned : (s.cruReturn b).turned d = s.turned d := turned_of_only (s.cruReturn_only b) (by decide)

@[simp] theorem State.cruPause_turned (point : Bool) : (s.cruPause b point).turned d = s.turned d :=
  turned_of_only (s.cruPause_only b point) (by decide)

@[simp] theorem State.cruInterrupt_turned : (s.cruInterrupt b).turned d = s.turned d :=
  turned_of_only (s.cruInterrupt_only b) (by decide)

@[simp] theorem State.moveOutcome_turned (r : MoveReq) (ok : Bool) : (s.moveOutcome b r ok).turned d = s.turned d :=
  turned_of_only (State.moveOutcome_only _ b r ok) (by decide)

@[simp] theorem State.cruRetry_turned : (s.cruRetry b).turned d = s.turned d := turned_ite (by simp) rfl

@[simp] theorem State.activate_turned (g : Group) : (s.activate g).turned d = s.turned d := turned_ite rfl rfl

@[simp] theorem State.velSuspend_turned : (s.velSuspend b).turned d = s.turned d := turned_ite rfl rfl

@[simp] theorem State.velUpdate_turned (v : Nat) : (s.velUpdate b v).turned d = s.turned d := turned_ite rfl (by simp)

/-! ## The slots as their owners move them -/

@[simp] theorem State.slotRestart_turned (n : Fin 48) : (s.slotRestart d n).turned d = s.turned d := turned_ite (by simp) rfl

@[simp] theorem State.forceSlot_turned (n : Fin 48) (v : Int) : (s.forceSlot d n v).turned d = s.turned d := s.setSlot_turned n _

@[simp] theorem State.freeSlot_turned (n : Fin 48) : (s.freeSlot d n).turned d = s.turned d := by
  unfold State.freeSlot
  dsimp only
  split
  · rfl
  · exact s.setSlot_turned n _

@[simp] theorem State.ownSlot_turned (n : Fin 48) (force : Option Int) (hold : Bool) :
    (s.ownSlot d n force hold).turned d = s.turned d := by
  unfold State.ownSlot
  dsimp only
  split <;> simp

@[simp] theorem State.sledFollowOff_turned : (s.sledFollowOff b).turned (dieOfBay b) = s.turned (dieOfBay b) :=
  s.setSlot_turned _ _

@[simp] theorem State.osvForces_turned : (s.osvForces b).turned (dieOfBay b) = s.turned (dieOfBay b) := by
  unfold State.osvForces
  simp only [State.ownSlot_turned]

@[simp] theorem State.spnForces_turned : (s.spnForces b).turned (dieOfBay b) = s.turned (dieOfBay b) := by
  unfold State.spnForces
  dsimp only
  split <;> simp

@[simp] theorem State.defectHold_turned (o : Bool) : (s.defectHold b o).turned (dieOfBay b) = s.turned (dieOfBay b) :=
  turned_ite (by simp) rfl

/-! ## Manoeuvres of the optical servo -/

@[simp] theorem State.axGo_turned (e : Die) (n : Fin 8) (v : Int) : (s.axGo e n v).turned d = s.turned d := by
  unfold State.axGo
  dsimp only
  split <;> rfl

@[simp] theorem State.axMoveTo_turned (e : Die) (n : Fin 8) (v : Int) : (s.axMoveTo e n v).turned d = s.turned d := by
  unfold State.axMoveTo
  split
  · rfl
  · exact turned_ite (by simp) rfl

@[simp] theorem State.saMove_turned (layer : Nat) : (s.saMove b layer).turned d = s.turned d := s.axMoveTo_turned _ _ _

@[simp] theorem State.moveEnd_turned (ok : Bool) : (s.moveEnd b ok).turned d = s.turned d := by
  unfold State.moveEnd
  dsimp only
  split
  · simp
  · rfl

@[simp] theorem State.osvSweep_turned : (s.osvSweep b).turned (dieOfBay b) = s.turned (dieOfBay b) := by
  unfold State.osvSweep
  simp

@[simp] theorem State.trackKick_turned (n : Int) : (s.trackKick b n).turned (dieOfBay b) = s.turned (dieOfBay b) := by
  unfold State.trackKick
  simp

@[simp] theorem State.layerKick_turned (final : Nat) : (s.layerKick b final).turned d = s.turned d := by
  unfold State.layerKick
  simp

@[simp] theorem State.seekStep_turned (area slot : Nat) : (s.seekStep b area slot).turned (dieOfBay b) = s.turned (dieOfBay b) := by
  unfold State.seekStep
  dsimp only
  refine turned_ite (turned_ite rfl (by simp)) ?_
  split <;> simp

@[simp] theorem State.moveStart_turned (r : MoveReq) : (s.moveStart b r).turned (dieOfBay b) = s.turned (dieOfBay b) := by
  unfold State.moveStart
  dsimp only
  split
  · simp
  · exact turned_ite (by simp) (by simp)
  · simp
  · exact turned_ite (by simp) (by simp)

/-! ## The parts of a turn -/

@[simp] theorem State.osvFine_turned : (s.osvFine b).turned d = s.turned d := turned_ite rfl rfl

@[simp] theorem State.osvVelocity_turned : (s.osvVelocity b).turned d = s.turned d :=
  turned_ite rfl (turned_ite (by simp) rfl)

@[simp] theorem State.coarseEnd_turned : (s.coarseEnd b).turned d = s.turned d := by
  unfold State.coarseEnd
  exact turned_ite (turned_ite (by simp) (turned_ite (by simp) rfl)) rfl

@[simp] theorem State.trackStart_turned : (s.trackStart b).turned (dieOfBay b) = s.turned (dieOfBay b) :=
  turned_ite (by simp) rfl

@[simp] theorem State.pendingStart_turned : (s.pendingStart b).turned (dieOfBay b) = s.turned (dieOfBay b) := by
  unfold State.pendingStart
  dsimp only
  split
  · exact turned_ite (by simp) rfl
  · rfl

@[simp] theorem State.readSeek_turned : (s.readSeek b).turned (dieOfBay b) = s.turned (dieOfBay b) := by
  unfold State.readSeek
  dsimp only
  split
  · exact turned_ite (by simp) rfl
  · rfl

theorem State.osvTurn_turned (o : ServoObs) : (s.osvTurn b o).turned (dieOfBay b) = s.turned (dieOfBay b) := by
  unfold State.osvTurn
  simp

theorem dieOfBay_of_mem (h : b ∈ baysOfDie d) : dieOfBay b = d := by
  revert h
  revert b d
  decide

/-- What each bay of a die does. -/
theorem turned_bays {f : State → Bay → State} (h : ∀ (t : State) b, (f t b).turned (dieOfBay b) = t.turned (dieOfBay b)) :
    ((baysOfDie d).foldl f s).turned d = s.turned d :=
  turned_foldl _ (fun t b hb => dieOfBay_of_mem hb ▸ h t b) s

/-- What each bay of a die does with a value of its own. -/
theorem turned_bays_zip {α : Type} {l : List α} {f : State → Bay × α → State}
    (h : ∀ (t : State) e, (f t e).turned (dieOfBay e.1) = t.turned (dieOfBay e.1)) :
    (((baysOfDie d).zip l).foldl f s).turned d = s.turned d :=
  turned_foldl _ (fun t e he => dieOfBay_of_mem (List.of_mem_zip he).1 ▸ h t e) s

@[simp] theorem State.turnGroups_turned : (s.turnGroups d).turned d = s.turned d := by
  unfold State.turnGroups
  refine (turned_bays fun t b => turned_ite (turned_ite (by simp) (by simp)) (by simp)).trans ?_
  refine (turned_foldl _ (fun t g _ => by simp) _).trans ?_
  exact turned_foldl _ (fun t n _ => by simp) _

@[simp] theorem State.slotBoundary_turned (n : Fin 48) : (s.slotBoundary d n).turned d = s.turned d := by
  unfold State.slotBoundary
  exact turned_ite (turned_ite rfl (by simp)) (turned_ite (by simp) (turned_ite (by simp) (turned_ite (by simp) rfl)))

@[simp] theorem State.selectorOn_turned (g : Fin 8) : (s.selectorOn d g).turned d = s.turned d := by
  unfold State.selectorOn
  rw [State.setSel_turned]
  exact turned_foldl _ (fun t n _ => turned_ite (by simp) rfl) _

/-! ## Evaluations and selectors -/

@[simp] theorem State.evalCounts_turned (n : Fin 48) (sat slew : Bool) : (s.evalCounts d n sat slew).turned d = s.turned d := by
  unfold State.evalCounts
  simp

@[simp] theorem State.trackLost_turned : (s.trackLost b).turned d = s.turned d := turned_ite (by simp) rfl

@[simp] theorem State.ownerFault_turned (n : Fin 48) : (s.ownerFault d n).turned d = s.turned d := by
  unfold State.ownerFault
  dsimp only
  split
  · exact turned_ite (by simp) (turned_ite (by simp) rfl)
  · rfl

@[simp] theorem State.slotFault_turned (n : Fin 48) : (s.slotFault d n).turned d = s.turned d := by
  unfold State.slotFault
  simp

@[simp] theorem State.evalSlot_turned (l : State) (n : Fin 48) : (State.evalSlot l s d n).turned d = s.turned d := by
  unfold State.evalSlot
  dsimp only
  split
  · rfl
  · rfl
  · rfl
  · split
    · simp
    · split
      · simp
      · split
        · exact turned_ite (turned_ite (by simp) (by simp)) (by simp)
        · exact turned_ite (by simp) (by simp)

@[simp] theorem State.trackLosers_turned (g : Fin 8) : (s.trackLosers d g).turned d = s.turned d :=
  turned_foldl _ (fun t n _ => turned_ite rfl (by simp)) s

@[simp] theorem State.select_turned (g : Fin 8) (n : Fin 48) (prev : Int) : (s.select d g n prev).turned d = s.turned d := by
  unfold State.select
  simp

@[simp] theorem State.selPick_turned (g : Fin 8) (live : List (Fin 48)) (keep : Option (Fin 48)) :
    (s.selPick d g live keep).turned d = s.turned d := by
  unfold State.selPick
  dsimp only
  split
  · split <;> simp
  · split <;> simp

@[simp] theorem State.selEmpty_turned (g : Fin 8) : (s.selEmpty d g).turned d = s.turned d := turned_ite (by simp) (by simp)

@[simp] theorem State.resolveSel_turned (g : Fin 8) : (s.resolveSel d g).turned d = s.turned d := by
  unfold State.resolveSel
  exact turned_ite (by simp) (turned_ite (by simp) (by simp))

@[simp] theorem State.selectors_turned (due : List (Fin 48)) : (s.selectors d due).turned d = s.turned d :=
  turned_foldl _ (fun t g _ => turned_ite (turned_ite (by simp) rfl) (turned_ite (by simp) rfl)) s

/-! ## The safe state -/

@[simp] theorem State.osvOff_turned : (s.osvOff b).turned d = s.turned d := by
  unfold State.osvOff
  dsimp only
  split <;> simp

@[simp] theorem State.cruAbort_turned : (s.cruAbort b).turned d = s.turned d := by
  unfold State.cruAbort
  dsimp only
  rw [State.setCru_turned]
  refine (turned_foldl _ (fun t i _ => by simp) _).trans ?_
  split <;> simp

@[simp] theorem State.spnSafeStop_turned : (s.spnSafeStop b).turned (dieOfBay b) = s.turned (dieOfBay b) := by
  unfold State.spnSafeStop
  simp

theorem State.bayStops_turned : (s.bayStops b).turned (dieOfBay b) = s.turned (dieOfBay b) := by
  unfold State.bayStops
  simp

@[simp] theorem State.safeSlots_turned : (s.safeSlots d).turned d = s.turned d :=
  turned_foldl _ (fun t n _ => turned_ite (by simp) rfl) s

@[simp] theorem State.grpStop_turned (e : Die) (g : Fin 4) : (s.grpStop e g).turned d = s.turned d := by
  unfold State.grpStop
  dsimp only
  split <;> rfl

@[simp] theorem State.stopAxes_turned (e : Die) : (s.stopAxes e).turned d = s.turned d := by
  unfold State.stopAxes
  refine (turned_foldl _ (fun t n _ => turned_ite rfl (by simp)) _).trans ?_
  exact turned_foldl _ (fun t g _ => by simp) _

@[simp] theorem State.yrdSafe_turned : s.yrdSafe.turned d = s.turned d := by
  unfold State.yrdSafe
  dsimp only
  split
  · rfl
  · split <;> simp

@[simp] theorem State.endAllItems_turned (e : Die) (st : WStatus) : (s.endAllItems e st).turned d = s.turned d :=
  turned_foldl _ (fun t i _ => by simp) s

@[simp] theorem State.enterSafe_turned : (s.enterSafe d).turned d = s.turned d := by
  unfold State.enterSafe
  refine turned_ite rfl ?_
  simp only [State.answerResets_turned, State.endAllItems_turned, State.turned_if, State.yrdSafe_turned, ite_self,
    State.stopAxes_turned, State.safeSlots_turned]
  exact turned_bays fun t b => t.bayStops_turned

/-! ## The turn -/

/-- The turn engine at the start of a turn: the outputs of the last one have reached their destinations (R226). -/
def State.turnStart (s : State) (d : Die) : Trn :=
  let x := s.trn[d]
  { x with dest := x.next.foldl (fun m e => destPut m e.1 e.2) x.dest, next := [], dieTemp := s.dies[d].temp }

theorem turnRun_core (s : State) (d : Die) (adc : Vector ServoObs 2) : ∃ u : State, ∃ nx,
    u.turned d = (s.setTrn d (s.turnStart d)).turned d
    ∧ (s.turnRun d adc).turned d = (u.setTrn d { u.trn[d] with next := nx, count := (u.trn[d].count + 1) % 2 ^ 32 }).turned d := by
  unfold State.turnRun
  dsimp only
  refine ⟨_, _, ?_, turned_ite (State.enterSafe_turned) rfl⟩
  rw [State.selectors_turned]
  refine (turned_foldl _ (fun t n _ => t.evalSlot_turned _ n) _).trans ?_
  refine (turned_bays_zip fun t e => t.defectHold_turned e.2).trans ?_
  refine (turned_ite rfl (turned_bays fun t b => t.osvForces_turned)).trans ?_
  refine (turned_foldl _ (fun t g _ => turned_ite (t.selectorOn_turned g) rfl) _).trans ?_
  refine (turned_foldl _ (fun t n _ => t.slotBoundary_turned n) _).trans ?_
  rw [State.turnGroups_turned]
  exact turned_bays_zip fun t e => t.osvTurn_turned e.2

/-- What a turn does to the counts and the destinations of its engine, and to the engines of other dies. -/
theorem turnRun_spec (s : State) (d : Die) (adc : Vector ServoObs 2) :
    (s.turnRun d adc).trn[d].count = (s.trn[d].count + 1) % 2 ^ 32
    ∧ (s.turnRun d adc).trn[d].dest = s.trn[d].next.foldl (fun m e => destPut m e.1 e.2) s.trn[d].dest
    ∧ (s.turnRun d adc).trn[d].dieTemp = s.dies[d].temp ∧ ∀ c, c ≠ d → (s.turnRun d adc).trn[c] = s.trn[c] := by
  obtain ⟨u, nx, hu, hrun⟩ := turnRun_core s d adc
  obtain ⟨hcount, hdest, htemp⟩ := core_fields ((core_of_turned hu).trans (congrArg Trn.core (setTrn_same _ _ _)))
  obtain ⟨hcount', hdest', htemp'⟩ := core_fields ((core_of_turned hrun).trans (congrArg Trn.core (setTrn_same _ _ _)))
  refine ⟨?_, hdest'.trans hdest, htemp'.trans htemp, fun c hc => ?_⟩
  · rw [hcount', hcount]
    rfl
  · calc (s.turnRun d adc).trn[c]
        = u.trn[c] := (trn_of_turned hrun hc).trans (setTrn_other u _ _ _ hc)
      _ = s.trn[c] := (trn_of_turned hu hc).trans (setTrn_other s _ _ _ hc)

/-! ## Registers of the engine -/

theorem turn_runs {s : State} {d : Die} :
    (s.has (trnA d) F.TRN_CTL_ENABLE && !s.trn[d].clkLost && !s.dies[d].clkLost) = true ↔
      s.has (trnA d) F.TRN_CTL_ENABLE = true ∧ s.trn[d].clkLost = false ∧ s.dies[d].clkLost = false := by
  rw [Bool.and_eq_true, Bool.and_eq_true, Bool.not_eq_true', Bool.not_eq_true', and_assoc]

theorem slotClear_fault {n : Fin 48} (h : s.trn[d].slots[n].st = .fault) : s.slotClear d n = s.setSlot d n { s.trn[d].slots[n] with
    st := .run, fe := 0, hand := some (if s.get (trnA d) F.TRN_Sn_CFG_FAULT_ACT n = 1 then 0 else s.trn[d].slots[n].out) } :=
  if_pos h

theorem slotClear_other {n : Fin 48} (h : s.trn[d].slots[n].st ≠ .fault) : s.slotClear d n = s := if_neg h

theorem anySlotOn_iff : anySlotOn s d = true ↔ ∃ k : Fin 48, s.has (trnA d) F.TRN_Sn_CFG_ENABLE k = true := by
  unfold anySlotOn
  rw [List.any_eq_true]
  exact ⟨fun ⟨k, _, hk⟩ => ⟨k, hk⟩, fun ⟨k, hk⟩ => ⟨k, List.mem_finRange k, hk⟩⟩

section
variable {w : Word}

/-- While a slot is enabled, ENABLE stays (R252). -/
theorem trnCtl_kept (hwas : s.has (trnA d) F.TRN_CTL_ENABLE = true) (hoff : F.TRN_CTL_ENABLE.of w = 0)
    (hany : anySlotOn s d = true) : (s.trnCtl d w).1 = s := by
  unfold State.trnCtl
  dsimp only
  rw [hwas, hoff, hany]
  rfl

/-- A running engine takes ENABLE alone. -/
theorem trnCtl_running (hwas : s.has (trnA d) F.TRN_CTL_ENABLE = true)
    (hgo : F.TRN_CTL_ENABLE.of w = 1 ∨ F.TRN_CTL_ENABLE.of w = 0 ∧ anySlotOn s d = false) :
    (s.trnCtl d w).1 = s.put (trnA d) F.TRN_CTL_ENABLE (F.TRN_CTL_ENABLE.of w) := by
  unfold State.trnCtl
  dsimp only
  rw [hwas]
  obtain hon | ⟨hoff, hany⟩ := hgo
  · rw [hon]
    rfl
  · rw [hoff, hany]
    rfl

/-- A stopped engine refuses a TURN_CYC out of range. -/
theorem trnCtl_refused (hwas : s.has (trnA d) F.TRN_CTL_ENABLE = false) (hcyc : turnCycOk d (F.TRN_CTL_TURN_CYC.of w) = false) :
    (s.trnCtl d w).1 = s := by
  unfold State.trnCtl
  dsimp only
  rw [hwas, hcyc]
  rfl

/-- A stopped engine takes both fields, and counts from 0 once it runs. -/
theorem trnCtl_started (hwas : s.has (trnA d) F.TRN_CTL_ENABLE = false) (hcyc : turnCycOk d (F.TRN_CTL_TURN_CYC.of w) = true)
    (hbit : F.TRN_CTL_ENABLE.of w = 0 ∨ F.TRN_CTL_ENABLE.of w = 1) :
    (s.trnCtl d w).1 =
      let u := (s.put (trnA d) F.TRN_CTL_TURN_CYC (F.TRN_CTL_TURN_CYC.of w)).put (trnA d) F.TRN_CTL_ENABLE (F.TRN_CTL_ENABLE.of w)
      if F.TRN_CTL_ENABLE.of w = 1 then u.setTrn d { s.trn[d] with count := 0 } else u := by
  unfold State.trnCtl
  dsimp only
  rw [hwas, hcyc]
  obtain h | h := hbit
  · rw [h]
    rfl
  · rw [h]
    rfl

end

theorem trnEnable_of_bit (w : Word) : F.TRN_CTL_ENABLE.of w = 0 ∨ F.TRN_CTL_ENABLE.of w = 1 := by
  have h : F.TRN_CTL_ENABLE.of w < 2 := Nat.mod_lt _ (by decide)
  omega

section
variable {n : Fin 48} {bank : Bool} {off : Nat} {w : Word}

/-- The active bank is read-only (R240). -/
theorem bankWrite_busy (h : bankBusy s d n bank = true) : (s.bankWrite d n bank off w).1 = s := by
  unfold State.bankWrite
  rw [if_pos h]

theorem bankWrite_free (h : bankBusy s d n bank = false) {l : Loc}
    (hl : findReg (trnA d) regs_trn ((if bank then 0x6000 else 0x4000) + 128 * n.val + off % 128) = some l) :
    (s.bankWrite d n bank off w).1 = s.writeWord false l w := by
  unfold State.bankWrite
  rw [if_neg (Bool.eq_false_iff.1 h), hl]

theorem bankWrite_reserved
    (hl : findReg (trnA d) regs_trn ((if bank then 0x6000 else 0x4000) + 128 * n.val + off % 128) = none) :
    (s.bankWrite d n bank off w).1 = s := by
  unfold State.bankWrite
  split
  · rfl
  · rw [hl]

theorem bankBusy_active (h : s.has (trnA d) F.TRN_Sn_CFG_BANK n = bank) : bankBusy s d n bank = true := by
  unfold bankBusy
  rw [h, beq_self_eq_true, Bool.true_or]

theorem bankBusy_other (h : s.has (trnA d) F.TRN_Sn_CFG_BANK n ≠ bank) (hw : s.isWaiting (.trnSlot d n) = false) :
    bankBusy s d n bank = false := by
  unfold bankBusy
  rw [hw, beq_false_of_ne h]
  rfl

end

/-- Settles O27: the turn changes slots, selectors and what stands beside the engine; the rest are the registers' own rules. -/
theorem turnRegisters : Obligations.TurnRegisters := by
  unfold Obligations.TurnRegisters
  intro d n adc bank off w s
  dsimp only
  have hcyc : turnCycOk d (F.TRN_CTL_TURN_CYC.of w) = true ↔
      (if d = 1 then 250 else 500) ≤ F.TRN_CTL_TURN_CYC.of w ∧ F.TRN_CTL_TURN_CYC.of w ≤ 4000 := decide_eq_true_iff
  refine ⟨?_, ?_, ?_, ?_, ?_, rfl, ?_, ?_, ?_, ?_, ?_, ?_, ?_, ?_⟩
  · exact fun hstop => congrArg Host.Outcome.next (if_neg fun h => hstop (turn_runs.1 h))
  · intro hrun
    refine ⟨s.turnRun d adc, congrArg Host.Outcome.next (if_pos (turn_runs.2 hrun)), ?_⟩
    exact turnRun_spec s d adc
  · exact fun hst => congrArg Host.Outcome.next (slotClear_other hst)
  · exact fun hst => congrArg Host.Outcome.next (slotClear_fault hst)
  · intro hclear
    exact congrArg Host.Outcome.next (if_neg fun h => Nat.zero_ne_one (hclear.symm.trans h))
  · exact fun hwas hoff hany => congrArg Host.Outcome.next (trnCtl_kept hwas hoff (anySlotOn_iff.2 hany))
  · intro hwas hon
    exact congrArg Host.Outcome.next (hon ▸ trnCtl_running hwas (.inl hon))
  · intro hwas hoff hnone
    have hany : anySlotOn s d = false := Bool.eq_false_iff.2 fun h => by
      obtain ⟨k, hk⟩ := anySlotOn_iff.1 h
      rw [hnone k] at hk
      cases hk
    exact congrArg Host.Outcome.next (hoff ▸ trnCtl_running hwas (.inr ⟨hoff, hany⟩))
  · intro hwas hout
    refine congrArg Host.Outcome.next (trnCtl_refused hwas (Bool.eq_false_iff.2 fun h => ?_))
    obtain ⟨hlo, hhi⟩ := hcyc.1 h
    omega
  · intro hwas hlo hhi
    exact congrArg Host.Outcome.next (trnCtl_started hwas (hcyc.2 ⟨hlo, hhi⟩) (trnEnable_of_bit w))
  · exact fun hb => congrArg Host.Outcome.next (bankWrite_busy (bankBusy_active hb))
  · exact fun hb hw l hl => congrArg Host.Outcome.next (bankWrite_free (bankBusy_other hb hw) hl)
  · exact fun hl => congrArg Host.Outcome.next (bankWrite_reserved hl)

end Sys2Proof.Machine
end
